-- ==== Sys2Proof/Word.lean ====
section
/-! DEFINITION. The words of the SV4 that the manual treats as bits: a byte, and the 32- and 64-bit words of its
registers and requests. R4: bit 0 is the least significant bit of every one of them. -/

namespace Sys2Proof

/-- An 8-bit byte of a packet, a request half, a record or a memory. -/
abbrev Byte := BitVec 8

/-- A 32-bit register or status word. -/
abbrev Word := BitVec 32

/-- A 64-bit register (Tables 15.3, 15.4, 15.8). -/
abbrev DWord := BitVec 64

end Sys2Proof
end

