-- ==== Sys2Proof/Syntax.lean ====
section
/-! DEFINITION. The commands of the block and their operands. `Instr` has one constructor per row of the opcode table. -/

namespace Sys2Proof

/-- A Kenra request as the Ridge copies it from a slot (R366, Table 16.1): the header's fields and the argument bytes.
The opcode is the constructor of `Instr` that carries the request. -/
structure Request where
  /-- Slot that carries the request (R348). -/
  slot : BitVec 3 := 0
  /-- FLAGS: bit 0 NOTIFY, bits 15:1 reserved. -/
  flags : BitVec 16 := 0
  /-- TAG, returned in the response and the completion entry. -/
  tag : BitVec 32 := 0
  /-- TXN_ID: 0, or a transaction id. -/
  txnId : BitVec 32 := 0
  /-- ARG_LENGTH. -/
  argLength : BitVec 16 := 0
  /-- VERSION, 0x0002. -/
  version : BitVec 16 := 2
  /-- Header bytes 16 to 31, reserved. -/
  reserved : BitVec 128 := 0
  /-- The argument's bytes, in address order. -/
  arg : List Byte := []
deriving DecidableEq, Repr

/-- The four resets of the host interface (R359). -/
inductive HostReset where
  | fundamental | hot | linkDown | functionLevel
deriving DecidableEq, Repr

/-- A 66-bit block of a lane as its receiver reads it after FEC (R271): bit 0 is the bit received first. -/
structure GulBlock where
  /-- Sync header. -/
  header : BitVec 2
  /-- Payload as received, still scrambled. -/
  payload : BitVec 64
  /-- The 58 payload bits received on the lane before it, bit 57 the last. -/
  before : BitVec 58
deriving DecidableEq, Repr

/-- Blocks of a quad's block stream, deskewed, with ALIGN and parity blocks taken out (R273): a frame from START to END, or a part. -/
structure GulFrame where
  /-- IDLE and CAP blocks of the stream since the last block that this row carried. -/
  idle : Nat := 0
  blocks : List GulBlock
deriving DecidableEq, Repr

/-- What a lane in use receives of a fast exit (R284): the headers of its TRAIN blocks, and its ALIGN block. -/
structure ExitLane where
  headers : List (BitVec 2)
  align : GulBlock
deriving DecidableEq, Repr

/-- A Clause 73 base page (Table 12.6): whether it offers 200GBASE-KR4/CR4 and 100GBASE-KR4/CR4, asks for RS-FEC, has PAUSE ability and
has a Next Page. -/
structure EthPage where
  kr200 : Bool := false
  kr100 : Bool := false
  rsFec : Bool := false
  pause : Bool := false
  nextPage : Bool := false
deriving DecidableEq, Repr

/-- What changes an Ethernet quad's link (R209, R286, Table 12.9): the partner's base page, link training that ends, the alignment of the
PCS, or the loss of the link. -/
inductive EthChange where
  | page (p : EthPage) | trained | aligned | down
deriving DecidableEq, Repr

/-- A codeword as a lane receives it: the 32 blocks of R277 in their order, or, on an Ethernet quad, the symbol errors of a
Reed-Solomon codeword (Table 12.6). -/
inductive FecWord where
  | gul (blocks : List (BitVec 66)) | rs (symbolErrors : Nat)
deriving DecidableEq, Repr

/-- A chunk read of the schedule (Table 16.5 kind 0x03), with the data block it loads. -/
structure ChunkItem where
  buffer : Bool
  pos : Nat
  ib : Nat
  chunk : Nat
  block : Nat
deriving DecidableEq, Repr

/-- A correlation pass of the schedule (Table 16.5 kind 0x01), with its data block. -/
structure PassItem where
  pos : Nat
  tile : Nat
  log2J : Nat
  job : Nat
  block : Nat
  buffer : Bool
deriving DecidableEq, Repr

/-- A beam segment of the schedule (Table 16.5 kind 0x02), with its data block. -/
structure SegItem where
  arrays : BitVec 4
  pos : Nat
  set : Nat
  round : Nat
  m : Nat
  job : Nat
  block : Nat
  buffer : Bool
deriving DecidableEq, Repr

/-- A Vestibule line: 64 samples of one input in one channel (R113); local granule `gran` of the buffer. -/
structure VestLine where
  input : Nat
  gran : Nat
deriving DecidableEq, Repr

/-- A weight-pool line: one input row, 32 consecutive beams (R129). -/
structure WeightLine where
  slot : Nat
  row : Nat
  beams : Nat
deriving DecidableEq, Repr

/-- What ECC finds for a beam segment: pool lines corrected and uncorrectable in its weight load (R129), and Locket words corrected or one
uncorrectable as its round's sums are added (R154). -/
structure SegEcc where
  wce : Nat := 0
  badWeights : List WeightLine := []
  addCe : Nat := 0
  addUe : Bool := false
deriving DecidableEq, Repr

/-- What ECC finds in a memory that a command reads: nothing, an error it corrects, or one it cannot (R113, R129, R154, R243). -/
inductive Ecc where
  | ok | corrected | uncorrectable
deriving DecidableEq, Repr

/-- An instruction's peg, with what ECC finds in the instruction word and in the data memory word that it reads (R243, R261). -/
structure PegIssue where
  peg : BitVec 8
  imem : Ecc := .ok
  dmem : Ecc := .ok
deriving DecidableEq, Repr

/-- Second source of an integer peg instruction: a register or the one 16-bit immediate form (R264). -/
inductive PegSrc where
  | reg (r : BitVec 5) | imm (v : BitVec 16)
deriving DecidableEq, Repr

/-- Shift count of a peg shift: a register or a count 0 to 31 (R264). -/
inductive PegCount where
  | reg (r : BitVec 5) | imm (n : BitVec 5)
deriving DecidableEq, Repr

/-- Table that a COMMIT transfer completes (R246). -/
inductive FrameTable where
  | delay (input : Nat) (frame : Nat)
  | rotator (input coarse : Nat) (frame : Nat)
  | gain (input coarse : Nat) (frame : Nat)
deriving DecidableEq, Repr

/-- Special registers of a peg that moves reach (Table 11.2): stat, those of loop `k`, the halves of cyc, and the address registers. -/
inductive PegSpecial where
  | stat | lc (k : Bool) | ls (k : Bool) | le (k : Bool) | spc | sstat | ivb | fev | xstat | cyc (hi : Bool)
  | p (k : BitVec 3) | m (k : BitVec 3) | cb (k : BitVec 3) | cl (k : BitVec 3)
deriving DecidableEq, Repr

/-- Operands of XFER (R245, R246). -/
structure Transfer where
  src : Nat
  dst : Nat
  len : Nat
  /-- Asks for the XFER interrupt. -/
  interrupt : Bool
  /-- The per-frame table whose back buffer it writes, if any. -/
  table : Option FrameTable
  /-- It is the COMMIT transfer of that table. -/
  commit : Bool
deriving DecidableEq, Repr

/-- What an Announce message says of a grandmaster, in the order of the standard dataset comparison (R313, log 49): priority 1, clock
class, accuracy, variance, priority 2, identity, and the steps removed. -/
structure PtpDataset where
  priority1 : Nat := 0
  clockClass : Nat := 0
  accuracy : Nat := 0
  variance : Nat := 0
  priority2 : Nat := 0
  identity : Nat := 0
  steps : Nat := 0
deriving DecidableEq, Repr

/-- PTP messages that discipline TB1 (R313); times are those of the grandmaster in ns. -/
inductive PtpMessage where
  /-- Announce, with its interval in ns. -/
  | announce (dataset : PtpDataset) (interval : Nat)
  /-- Sync of a grandmaster: the time at which it was sent, corrections added, or none where Follow_Up is to bring it. -/
  | sync (grandmaster : Nat) (origin : Option Int)
  /-- Follow_Up of a two-step Sync. -/
  | followUp (grandmaster : Nat) (origin : Int)
  /-- Delay_Resp: the Delay_Req that it answers, and the time at which the grandmaster received that, corrections taken off. -/
  | delayResp (grandmaster sequence : Nat) (receipt : Int)
deriving DecidableEq, Repr

/-- Message types the relay treats apart (R318, R319). -/
inductive PtpKind where
  | sync | delayReq | peerDelay | other
deriving DecidableEq, Repr

/-- A frame received on a relay port, from destination MAC to FCS, when its first byte leaves the other port: ingress and
egress on the 1 GHz counter (R319). -/
structure RelayFrame where
  bytes : List Byte
  ingress : Nat
  egress : Nat
deriving DecidableEq, Repr

/-- Causes of a lost DRAM channel (R338), in the rule's order. -/
inductive LostCause where
  | sideband | parity | uncorrectable
deriving DecidableEq, Repr

/-- What the host sets in configuration space beside Bus Master Enable and the power state (R343, Table 15.1): maximum payload and maximum
read request as 128 bytes shifted, extended and 10-bit tags, the completion timeout range, and MSI-X's enable and function mask. Defaults:
PRESUMED, the PCI standard's (log 17). -/
structure PcieControl where
  maxPayload : BitVec 3 := 0
  maxRead : BitVec 3 := 2
  extTags : Bool := false
  tags10 : Bool := false
  timeout : BitVec 4 := 0
  msixEnable : Bool := false
  msixMask : Bool := false
deriving DecidableEq, Repr

/-- Answer of a burst (R386, R391). -/
inductive BurstAnswer where
  | ok | errorSrc | errorDst | ue | windowDenied | targetReset
deriving DecidableEq, Repr

/-- What the DMA engines do of a burst in one step: the read engine's part, the write engine's, or both (R386). -/
inductive BurstPart where
  | whole | read | write
deriving DecidableEq, Repr

/-- Causes of a supply fault (R474). -/
inductive SupplyFault where
  | low | high | rail
deriving DecidableEq, Repr

/-- What the input power monitor finds (R416). -/
inductive PowerLevel where
  | above5 | above15 | below
deriving DecidableEq, Repr

/-- Kinds of DIMM (R327). -/
inductive DimmKind where
  | registered | unbuffered | loadReduced | multiplexedRank
deriving DecidableEq, Repr

/-- A DIMM as its SPD describes it (R327): its kind, ECC, device width in bits and density in Gb, ranks, dies of a stack, the highest
speed grade of Table 14.7, and its SPD contents. -/
structure Dimm where
  kind : DimmKind := .registered
  ecc : Bool := true
  width : Nat := 4
  density : Nat := 16
  ranks : Nat := 1
  dies : Nat := 1
  grade : Nat := 0
  spd : List Byte := []
deriving DecidableEq, Repr

/-- One Vref of a training sweep with its passing delay window, in 1/64 UI (R330). -/
structure Sweep where
  vref : Nat
  lo : Int
  hi : Int
deriving DecidableEq, Repr

/-- What training measures on a byte lane: the read and the write sweep, and the eye's height in mV (R330). -/
structure LaneEye where
  read : List Sweep
  write : List Sweep
  height : Nat
deriving DecidableEq, Repr

/-- What BOOT finds on the board (R394): straps, the DIMMs of each channel, channels that pass training steps 1 to 3, what steps 4 and 5
measure on each byte lane (R330), banks whose copy from MRAM fails (step 4), and arrays whose known-answer test passed. -/
structure BootInput where
  straps : BitVec 3
  dimms : List (List Dimm)
  trained : BitVec 12
  lanes : List LaneEye
  copyBad : BitVec 2
  arraysPassed : BitVec 4
deriving DecidableEq, Repr

/-- Outcome of write-verify of a recorder record (R460, R463): verified, or failed, and then whether each of the two map
copies verified. -/
inductive Verify where
  | good | bad (map1 map2 : Bool)
deriving DecidableEq, Repr

/-- A TWIN frame's payload (Table 19.2) less its type byte. -/
structure TwinMessage where
  role : Byte
  piece : BitVec 16
  epoch : BitVec 32
  frame : BitVec 64
  identity : BitVec 64
  digest : BitVec 32
  handoverFrame : BitVec 64
  body : List Byte
deriving DecidableEq, Repr


/-- One command of the block: one constructor per row of the opcode table, in its order. Kenra commands carry their
request (R366); the others carry what their sender, or the wire, gives. -/
inductive Instr where
  /-- SYS_INFO (R378): Returns the device identity, firmware version, Kenra version, state, grade, installed DRAM and enabled arrays. -/
  | sysInfo (q : Request)
  /-- SYS_SAFE (R19): Requests entry to SAFE at the next tick. -/
  | sysSafe (q : Request)
  /-- SYS_RESTART (R449): From SAFE, enters BOOT after the response; rejected with CONFLICT while a zone is still above its shutdown threshold minus h. -/
  | sysRestart (q : Request)
  /-- TXN_BEGIN (R236): Opens a transaction and returns its non-zero id. -/
  | txnBegin (q : Request)
  /-- TXN_COMMIT (R238): Names frame n_a, or a COMMIT trigger, and makes the open transaction pending while its validation runs. -/
  | txnCommit (q : Request)
  /-- TXN_ROLLBACK (R239): Discards an open transaction, or a pending one if accepted by frame n_a - 2. -/
  | txnRollback (q : Request)
  /-- TIME_REF_CONFIG (R298): Sets rank, tolerance, Q, disable, input compensation, M, RCLK quad and REF frequency per source. -/
  | timeRefConfig (q : Request)
  /-- TIME_REF_SELECT (R304): Forces a qualified source or releases the force. -/
  | timeRefSelect (q : Request)
  /-- TIME_PLL_CONFIG (R305): Sets the loop bandwidth of the digital PLL. -/
  | timePllConfig (q : Request)
  /-- TIME_SET (R311): In READY, loads a TB0 value for the next second boundary. -/
  | timeSet (q : Request)
  /-- TIME_ADJUST (R312): Removes a TB0 offset of up to 1 s by slew, replacing any remaining earlier offset. -/
  | timeAdjust (q : Request)
  /-- TIME_OUT_CONFIG (R316): Sets the offset and width of PPS_OUT, FRAME_OUT or REF_OUT, applied at the next TB0 second boundary. -/
  | timeOutConfig (q : Request)
  /-- TIME_TRIG_ARM (R321): Arms a time trigger on TB0 or TB2 with an optional period and an action. -/
  | timeTrigArm (q : Request)
  /-- TIME_TRIG_CANCEL (R321): Disarms a trigger at once; cancelling a COMMIT trigger rejects the pending transaction with STOPPED. -/
  | timeTrigCancel (q : Request)
  /-- TIME_STATUS (R326): Returns the Compass status word, per-source state, the time bases and the counters. -/
  | timeStatus (q : Request)
  /-- PTP_CONFIG (R313): Sets the PTP quad, domain and Announce receipt timeout for TB1. -/
  | ptpConfig (q : Request)
  /-- PTP_STEP (R313): Steps TB1 to the grandmaster's time. -/
  | ptpStep (q : Request)
  /-- PTP_RELAY_CONFIG (R318): Pairs two Ethernet quads as the ports of the transparent-clock relay. -/
  | ptpRelayConfig (q : Request)
  /-- PIN_FILTER_CONFIG (R324): Sets the minimum width and lockout of an edge input pin. -/
  | pinFilterConfig (q : Request)
  /-- LANE_CONFIG (R269): Sets quad mode, rate, width, MIN_WIDTH, FEC, NAP, IDLE, idle time and fixed transmit taps. -/
  | laneConfig (q : Request)
  /-- LANE_RETRAIN (R282): Sends the named quads from ACTIVE, or from FAULT, to TRAIN. -/
  | laneRetrain (q : Request)
  /-- LANE_PRBS (R295): Starts or stops pattern mode or error injection on lanes that the committed schedule does not use. -/
  | lanePrbs (q : Request)
  /-- LANE_STATUS (R296): Returns the quad status words, the partner's CAP set and the lane counters. -/
  | laneStatus (q : Request)
  /-- ETH_CONFIG (R288): Sets a quad's MAC, MTU and IP addresses. -/
  | ethConfig (q : Request)
  /-- MODULE_CONFIG (R289): Sets the speed of a module management bus. -/
  | moduleConfig (q : Request)
  /-- MODULE_READ (R291): Reads bytes of a module page. -/
  | moduleRead (q : Request)
  /-- MODULE_WRITE (R291): Writes bytes of a module page, refusing the Application selection and data path control bytes while the quad is in use. -/
  | moduleWrite (q : Request)
  /-- INGEST_CONFIG (R50): Sets the reorder window W. -/
  | ingestConfig (q : Request)
  /-- INGEST_STATUS (R44): Returns the per-quad ingest outcome counters. -/
  | ingestStatus (q : Request)
  /-- STREAM_CONFIG (R36): Sets a stream's input, format, sample rate, channel range, packet size and arrival allowance. -/
  | streamConfig (q : Request)
  /-- STREAM_ENABLE (R49): Enables streams from a tick, fixing their release point, sequence prediction and next label. -/
  | streamEnable (q : Request)
  /-- STREAM_DISABLE (R49): Disables streams from a tick, discarding the later packets they hold. -/
  | streamDisable (q : Request)
  /-- STREAM_STATUS (R44): Returns the per-stream counters and arrival offsets. -/
  | streamStatus (q : Request)
  /-- FLOW_SET (R31): Writes or deletes an ingress or egress entry of the flow table. -/
  | flowSet (q : Request)
  /-- CHAN_CONFIG (R52): Sets the channeliser preset, P, branch shift and output width. -/
  | chanConfig (q : Request)
  /-- CHAN_SYNC (R61): Names a frame at least two ahead for a synchronising reset. -/
  | chanSync (q : Request)
  /-- CHAN_COEF_LOAD (R65): Loads a slice's idle coefficient bank; refused while a swap is in force. -/
  | chanCoefLoad (q : Request)
  /-- CHAN_COEF_SWAP (R66): Stages a swap to the idle bank at a named frame with a fade of M outputs. -/
  | chanCoefSwap (q : Request)
  /-- CHAN_GAIN_MODE (R74): Sets AUTO or FIXED gain mode and the gain target. -/
  | chanGainMode (q : Request)
  /-- CHAN_GAIN_SET (R74): Loads fixed gains per input and fine channel. -/
  | chanGainSet (q : Request)
  /-- CHAN_STATS_CONFIG (R76): Sets the statistics tap, shift z and interval I. -/
  | chanStatsConfig (q : Request)
  /-- CHAN_STATS_READ (R77): Copies a slice's readout bank, untorn, to a bulk destination. -/
  | chanStatsRead (q : Request)
  /-- CHAN_STATUS (R61): Returns slice status words and the channeliser counters, including RESET_COUNT. -/
  | chanStatus (q : Request)
  /-- SCHED_LOAD (R216): Decodes a schedule image into a slot not in use and queues it for validation. -/
  | schedLoad (q : Request)
  /-- SCHED_SELECT (R227): Stages the committed and throttle slots. -/
  | schedSelect (q : Request)
  /-- SCHED_CONFIG (R226): Sets the abandon storm count F. -/
  | schedConfig (q : Request)
  /-- SCHED_SHED (R233): Raises, or with RELEASE withdraws, the cause that calls for the throttle at the next tick. -/
  | schedShed (q : Request)
  /-- SCHED_STOP (R12): Names a frame at least two ahead at which the data path stops and the SV4 returns to READY. -/
  | schedStop (q : Request)
  /-- SCHED_STATUS (R242): Returns the schedule status word, slot verdicts, transaction state and counters. -/
  | schedStatus (q : Request)
  /-- ARRAY_CONFIG (R116): Sets array sample width, symmetry check and enable. -/
  | arrayConfig (q : Request)
  /-- ARRAY_TEST (R115): In READY, runs the known-answer pass on the named arrays. -/
  | arrayTest (q : Request)
  /-- ARRAY_STATUS (R117): Returns array status words and counters. -/
  | arrayStatus (q : Request)
  /-- BEAM_CONFIG (R134): Sets the beam sets, pool size, L_s, G, output kind, n_int and n_min. -/
  | beamConfig (q : Request)
  /-- BEAM_WEIGHT_LOAD (R126): Copies a weight table into a pool slot that no map generation in use names. -/
  | beamWeightLoad (q : Request)
  /-- BEAM_WEIGHT_MAP (R127): Installs a new weight map generation for blocks k_s and later. -/
  | beamWeightMap (q : Request)
  /-- BEAM_WATCH (R136): Names up to 16 watch beams and the search interval I_s. -/
  | beamWatch (q : Request)
  /-- BEAM_STATUS (R139): Returns the beam status word, the map generations in use and the counters. -/
  | beamStatus (q : Request)
  /-- PEG_SERVICE_CONFIG (R267): Assigns vendor services to pitches. -/
  | pegServiceConfig (q : Request)
  /-- PEG_RESTART (R261): Restarts pegs whose customer kernel stopped on a fault. -/
  | pegRestart (q : Request)
  /-- PEG_STATUS (R268): Returns peg stat registers, last faults and counters. -/
  | pegStatus (q : Request)
  /-- CLASP_CONFIG (R149): Sets the spill reserve. -/
  | claspConfig (q : Request)
  /-- CLASP_TABLE_LOAD (R160): Loads a scale or bias table. -/
  | claspTableLoad (q : Request)
  /-- CLASP_CURVE_LOAD (R161): Loads a transfer curve, rejecting tables whose breakpoints are invalid. -/
  | claspCurveLoad (q : Request)
  /-- CLASP_STATUS (R165): Returns the Clasp status word, tile owners and counters. -/
  | claspStatus (q : Request)
  /-- FACET_CONFIG (R179): Sets f per output stream. -/
  | facetConfig (q : Request)
  /-- FACET_STATUS (R190): Returns the Facet status word, the noise sets in use and the counters. -/
  | facetStatus (q : Request)
  /-- PACK_CONFIG (R186): Sets the reserved service engines, the per-operation limit and the ratio limit. -/
  | packConfig (q : Request)
  /-- PACK_ENCODE (R185): Compresses a service-region range on a reserved engine. -/
  | packEncode (q : Request)
  /-- PACK_STATUS (R190): Returns the Pack status word and per-engine counters. -/
  | packStatus (q : Request)
  /-- OSTREAM_CONFIG (R191): Creates, modifies or deletes an output stream with its pipe, engine, destination, base and planning ratio. -/
  | ostreamConfig (q : Request)
  /-- OSTREAM_STATUS (R215): Returns per-stream next sequence and record, gap and discard counters. -/
  | ostreamStatus (q : Request)
  /-- EGRESS_CONFIG (R206): Divides the egress buffer among egress quads. -/
  | egressConfig (q : Request)
  /-- EGRESS_STATUS (R215): Returns egress quad status words and counters. -/
  | egressStatus (q : Request)
  /-- HOSTRING_CONFIG (R211): Creates or deletes a host ring on a DMA channel. -/
  | hostringConfig (q : Request)
  /-- DRAM_CONFIG (R332): Sets the speed cap and excluded channels for the next BOOT. -/
  | dramConfig (q : Request)
  /-- DRAM_RETRAIN (R332): Fully retrains the named channels, clearing LOST on those that pass. -/
  | dramRetrain (q : Request)
  /-- DRAM_STATUS (R342): Returns channel status words, SPD identity, temperatures, trained settings and counters. -/
  | dramStatus (q : Request)
  /-- STORE_CONFIG (R89): Sets the service and long-accumulation regions. -/
  | storeConfig (q : Request)
  /-- STORE_STATUS (R83): Returns S, K, Z, q_lim, lambda, the store depth and the per-block counters. -/
  | storeStatus (q : Request)
  /-- DMA_COPY (R385): Queues a descriptor on a host DMA channel that serves no host ring. -/
  | dmaCopy (q : Request)
  /-- DMA_ABORT (R390): Stops the named channels, completing their descriptors with ABORTED. -/
  | dmaAbort (q : Request)
  /-- DMA_STATUS (R393): Returns DMA channel status words and counters, or the crossbar counters. -/
  | dmaStatus (q : Request)
  /-- HEALTH_CONFIG (R445): Sets zone thresholds, hysteresis, rate limit and the DEGRADED hold-off. -/
  | healthConfig (q : Request)
  /-- HEALTH_ADC_READ (R434): Returns the newest code, flags and round number of each channel. -/
  | healthAdcRead (q : Request)
  /-- HEALTH_ADC_INJECT (R437): Sets an injection entry's channel, trigger and delay, discarding its latched trigger. -/
  | healthAdcInject (q : Request)
  /-- HEALTH_ADC_CAL (R439): Starts one calibration step for an AIN input. -/
  | healthAdcCal (q : Request)
  /-- HEALTH_FAN_CONFIG (R452): Sets a fan's mode, curve, slew, pulses per revolution and minimum speed. -/
  | healthFanConfig (q : Request)
  /-- HEALTH_STATUS (R455): Returns zone, converter and fan status and counters. -/
  | healthStatus (q : Request)
  /-- REC_STATUS (R464): Returns the recorder status word, counters and operating counts. -/
  | recStatus (q : Request)
  /-- REC_READ (R460): Reads held recorder records, or the overflow set, to a bulk destination. -/
  | recRead (q : Request)
  /-- REC_EXPORT (R462): Exports the recorder with dynamic DEFLATE on a reserved engine. -/
  | recExport (q : Request)
  /-- REC_CLEAR (R462): Erases the log if the named count equals the records held, and seals the overflow set first. -/
  | recClear (q : Request)
  /-- TWIN_CONFIG (R419): Sets twin mode, twin quad, home role, K, revertive, H and partner identity. -/
  | twinConfig (q : Request)
  /-- TWIN_CHECKPOINT (R429): Makes the lead send a checkpoint at the next tick. -/
  | twinCheckpoint (q : Request)
  /-- TWIN_STATUS (R433): Returns the twin status word, epoch, partner, checkpoint, skew and counters. -/
  | twinStatus (q : Request)
  /-- FW_INFO (R407): Returns the running, stored and anti-rollback versions and the enrolled key slots. -/
  | fwInfo (q : Request)
  /-- FW_UPDATE_BEGIN (R408): Rolls back an open transaction, seals the recorder, enters UPDATE and erases the inactive bank. -/
  | fwUpdateBegin (q : Request)
  /-- FW_UPDATE_DATA (R409): Writes a bundle chunk into the inactive bank with write-verify. -/
  | fwUpdateData (q : Request)
  /-- FW_UPDATE_END (R410): Checks the written bank and marks it PENDING if it passes. -/
  | fwUpdateEnd (q : Request)
  /-- FW_UPDATE_ABORT (R412): Marks the inactive bank EMPTY and enters BOOT. -/
  | fwUpdateAbort (q : Request)
  /-- FW_KEY_ENROLL (R406): Burns a customer key hash into an unwritten OTP slot. -/
  | fwKeyEnroll (q : Request)
  /-- PEG_KERNEL_LOAD (R413): Verifies a signed customer kernel and loads it onto pegs. -/
  | pegKernelLoad (q : Request)
  /-- TEST_ECHO (R378): Returns its argument as the result. -/
  | testEcho (q : Request)
  /-- TEST_EVENT (R457): Raises an event-ring entry with a listed code and source 0. -/
  | testEvent (q : Request)
  /-- UNKNOWN_OPCODE (R378): A request with an opcode not in the tables is answered UNKNOWN_OPCODE. -/
  | unknownOpcode (op : BitVec 16) (q : Request)
  /-- DOORBELL (R349): Host write naming a slot, which posts a FREE slot or is ignored and counted as DOORBELL_INVALID. -/
  | doorbell (requester : BitVec 16) (value : BitVec 32)
  /-- MAILBOX_REQUEST_WRITE (R350): Host write to a slot's request half, discarded and counted while the slot is locked. -/
  | mailboxRequestWrite (slot : BitVec 3) (offset : BitVec 13) (data : List Byte)
  /-- RESP_READY_WRITE (R348): Writing 1 to a RESP_READY bit frees the slot. -/
  | respReadyWrite (value : BitVec 32)
  /-- INT_CAUSE_WRITE (R358): W1C write clearing interrupt cause bits. -/
  | intCauseWrite (value : BitVec 32)
  /-- HOSTRING_READ_WRITE (R211): Host writes a ring's read index, returning space and resuming a suspended ring. -/
  | hostringReadWrite (ring : BitVec 4) (value : BitVec 64)
  /-- EVR_READ_WRITE (R355): Host writes the count of event-ring entries consumed. -/
  | evrReadWrite (value : BitVec 64)
  /-- EVR_CTRL_WRITE (R354): Host sets or clears ENABLE, or acknowledges BASE_DENIED or OVERFLOWED. -/
  | evrCtrlWrite (value : BitVec 32)
  /-- EVR_BASE_WRITE (R354): Host writes the event-ring base while ENABLE is 0. -/
  | evrBaseWrite (value : BitVec 64)
  /-- EVR_LOST_READ (R357): Read-and-clear of the count of discarded event entries. -/
  | evrLostRead
  /-- DOORBELL_INVALID_READ (R349): Read-and-clear of the count of ignored doorbells. -/
  | doorbellInvalidRead
  /-- MAILBOX_WRITE_LOCKED_READ (R350): Read-and-clear of the count of discarded request-half writes. -/
  | mailboxWriteLockedRead
  /-- TETHER_CONTROL_WORD_WRITE (R362): Writing the control word of a rate cap, DMA host window or allow-list entry applies its shadowed words together. -/
  | tetherControlWordWrite (offset : BitVec 24) (value : BitVec 32)
  /-- TETHER_LOCK_WRITE (R363): Writing 1 to LOCK makes the Tether window read-only until RESET_N. -/
  | tetherLockWrite (value : BitVec 32)
  /-- TETHER_FIELD_WRITE (R361): Host write to a Tether register such as QUAD_ENABLE, TIMING_OUT_ENABLE or CONTROL_RATE, discarded and counted once locked. -/
  | tetherFieldWrite (offset : BitVec 24) (data : List Byte)
  /-- REGISTER_WRITE (R347): Write to a BAR0 register with no row of its own, or to an unmapped address, counted as BAR_UNMAPPED. -/
  | registerWrite (requester : BitVec 16) (offset : BitVec 25) (data : List Byte)
  /-- POISONED_WRITE (R346): A poisoned write to BAR0 is discarded, counted and reported through AER. -/
  | poisonedWrite (offset : BitVec 25)
  /-- HOST_INTERFACE_RESET (R359): A fundamental or hot reset, link-down or FLR resets the host interface alone. -/
  | hostInterfaceReset (kind : HostReset)
  /-- BUS_MASTER_OR_D3 (R345): Bus Master Enable clear or D3hot stops every memory request to the host. -/
  | busMasterOrD3 (busMaster d3 : Bool) (control : PcieControl) (aerClear : BitVec 32)
  /-- HOST_COMPLETION_ERROR (R346): A poisoned or error completion to an SV4 read of host memory fails its transfer. -/
  | hostCompletionError (ch : BitVec 4) (poisoned : Bool)
  /-- RIDGE_BEGINS_REQUEST (R351): The Ridge takes the next doorbell-ordered request, locking and copying its slot. -/
  | ridgeBeginsRequest
  /-- EVENT_ENTRY_WRITE (R356): The Ridge writes a due event-ring entry, at least 100 us after its GTS, then the write count. -/
  | eventEntryWrite
  /-- INTERRUPT_COALESCE_TIMEOUT (R358): A cause's time threshold elapses and its MSI-X message is sent. -/
  | interruptCoalesceTimeout (cause : BitVec 5)
  /-- FRAME_TICK (R13): Tick n starts frame n in every unit and ends the work of frame n - 1. -/
  | frameTick
  /-- GUARD_START (R152): The guard begins: pegs get GUARD, and waiting tile and spill claims are abandoned. -/
  | guardStart
  /-- DEGRADED_HOLDOFF_END (R21): After the hold-off with no cause, the return to OBSERVING takes effect at the next block boundary. -/
  | degradedHoldoffEnd
  /-- TXN_APPLY (R238): At tick n_a the pending transaction is applied whole and TXN_APPLIED closes the commit. -/
  | txnApply
  /-- TXN_VALIDATION_DONE (R221): Commit validation ends, rejecting the transaction with its check code or leaving it pending. -/
  | txnValidationDone
  /-- TXN_EXPIRY (R240): An open transaction idle for 10 s of TB2 is rolled back with TXN_EXPIRED. -/
  | txnExpiry
  /-- SCHED_LOAD_VERDICT (R217): Validation of a loaded image ends and its verdict completes the load. -/
  | schedLoadVerdict
  /-- STOP_FRAME_REACHED (R201): The frame named by SCHED.STOP arrives and the data path stops with STOPPED gap records. -/
  | stopFrameReached
  /-- GUL_FRAME_RECEIVE (R274): A GUL frame from START to END is checked and dropped or delivered by kind. -/
  | gulFrameReceive (quad : BitVec 5) (f : GulFrame)
  /-- ETH_FRAME_RECEIVE (R288): An Ethernet frame is checked, filtered and sent to ingest, relay or firmware. -/
  | ethFrameReceive (quad : BitVec 5) (data : List Byte)
  /-- HOLE_DEADLINE (R39): A hole at the release point reaches its deadline and is released flagged. -/
  | holeDeadline (stream : BitVec 14)
  /-- HELD_PACKET_RELEASE (R41): At the tick of its source frame a held early packet is released if at the release point. -/
  | heldPacketRelease (stream : BitVec 14)
  /-- CHANNELISER_STEP (R56): A slice computes fine outputs of a unit from samples released in the previous frame. -/
  | channeliserStep (input : BitVec 12) (coarse : BitVec 16) (n : Nat)
  /-- SYNC_IN_EDGE (R61): A qualified rising edge on SYNC_IN requests a reset at the first tick at least 1 us later. -/
  | syncInEdge (width : Nat)
  /-- SYNC_RESET (R62): A synchronising reset takes effect at a tick, zeroing history below each unit's reset label. -/
  | syncReset
  /-- STATS_INTERVAL_END (R76): At the end of an interval the slice moves its sets to the readout bank and starts the next group. -/
  | statsIntervalEnd (slice : BitVec 5)
  /-- STORE_BURST_DISCARD (R81): A burst not accepted within one frame is discarded and added to the lost range. -/
  | storeBurstDiscard
  /-- CHUNK_READ (R85): A scheduled chunk read fills the Vestibule, flagging unwritten, lost or uncorrectable granules. -/
  | chunkRead (c : ChunkItem) (ue : List Nat)
  /-- RFI_FLAG_WRITE (R266): The RFI service writes the flag code over granules through the service port. -/
  | rfiFlagWrite (input : BitVec 12) (pos granule : Nat)
  /-- CORRELATION_PASS (R102): An array runs one tile of one channel for one block in L' + 320 cycles. -/
  | correlationPass (array : BitVec 2) (x : PassItem) (ce : Nat) (ue : List VestLine)
  /-- CHAIN_SHIFT (R104): The chain shifts a row of totals into the landing buffer when it has room. -/
  | chainShift (array : BitVec 2) (due : Bool)
  /-- LANDING_BUFFER_MOVE (R106): The landing buffer moves words to the consuming job at rate r outside turnaround cycles. -/
  | landingBufferMove (array : BitVec 2) (turnaround : Bool) (ce : Nat) (ue : Bool)
  /-- BEAM_SEGMENT (R119): The arrays of a run execute one beam segment round. -/
  | beamSegment (x : SegItem) (ce : List (BitVec 2)) (ue : List VestLine) (ecc : SegEcc)
  /-- SEGMENT_READOUT (R132): A complete segment buffer is read out to detection or voltage output. -/
  | segmentReadout (set : BitVec 2) (pos m ce : Nat) (ue partialUe : Bool)
  /-- PEAK_LIST_EMIT (R137): A watch beam's peak list is emitted when its interval's last segment ends. -/
  | peakListEmit (watch : BitVec 4)
  /-- TILE_CLAIM (R150): A job claims its tile, waiting if another job owns it. -/
  | tileClaim (job : BitVec 16)
  /-- SPILL_PLANE_TAKE (R149): A job whose exceptions exceed 4096 takes a spill plane, waiting if none is free. -/
  | spillPlaneTake (job : BitVec 16)
  /-- TILE_READOUT (R155): A finished tile is read out in job order through the output pipe and released. -/
  | tileReadout (job : BitVec 16) (ce : Nat) (ue : Bool)
  /-- LA_DUMP (R156): A long-accumulation dump is written, added or closed in DRAM. -/
  | laDump (job : BitVec 16) (complete : Bool) (ue : Option Nat)
  /-- PACK_ITEM_ARRIVE (R183): An item enters an engine's input buffer, or is dropped as PACK_FULL. -/
  | packItemArrive (engine : BitVec 4) (read : Nat)
  /-- PACK_ITEM_DONE (R182): An engine finishes an item and hands its length and CRC to record assembly. -/
  | packItemDone (engine : BitVec 4)
  /-- EGRESS_AGE_EXPIRY (R207): A record not begun by tick a + g is cut to an EGRESS_AGED gap record. -/
  | egressAgeExpiry (quad : BitVec 5)
  /-- DATAGRAM_TRANSMIT (R208): The quad sends the next datagram of the head record when the rate cap allows. -/
  | datagramTransmit (quad : BitVec 5)
  /-- PAUSE_FRAME_RECEIVE (R209): A received PAUSE or PFC frame is counted and discarded. -/
  | pauseFrameReceive (quad : BitVec 5)
  /-- HOST_RING_WRITE (R211): A record is written to a host ring and the write index advanced. -/
  | hostRingWrite (ring : BitVec 4)
  /-- HOSTRING_AGE_EXPIRY (R212): A record not begun by its ring's age limit is written as an EGRESS_AGED gap record. -/
  | hostringAgeExpiry (ring : BitVec 4)
  /-- LOAD_DECODE_DONE (R189): A decode ends and its load is applied or rejected in acceptance order. -/
  | loadDecodeDone (ue : Bool) (engine : BitVec 4)
  /-- ADD (R264): Peg integer add. -/
  | pegAdd (p : PegIssue) (d : BitVec 5) (a : BitVec 5) (b : PegSrc)
  /-- SUB (R264): Peg integer subtract. -/
  | pegSub (p : PegIssue) (d : BitVec 5) (a : BitVec 5) (b : PegSrc)
  /-- AND (R264): Peg bitwise and. -/
  | pegAnd (p : PegIssue) (d : BitVec 5) (a : BitVec 5) (b : PegSrc)
  /-- OR (R264): Peg bitwise or. -/
  | pegOr (p : PegIssue) (d : BitVec 5) (a : BitVec 5) (b : PegSrc)
  /-- XOR (R264): Peg bitwise exclusive or. -/
  | pegXor (p : PegIssue) (d : BitVec 5) (a : BitVec 5) (b : PegSrc)
  /-- MIN (R264): Peg minimum. -/
  | pegMin (p : PegIssue) (d : BitVec 5) (a : BitVec 5) (b : PegSrc)
  /-- MAX (R264): Peg maximum. -/
  | pegMax (p : PegIssue) (d : BitVec 5) (a : BitVec 5) (b : PegSrc)
  /-- ABS (R264): Peg absolute value. -/
  | pegAbs (p : PegIssue) (d : BitVec 5) (a : BitVec 5)
  /-- ADDS (R264): Peg saturating add. -/
  | pegAdds (p : PegIssue) (d : BitVec 5) (a : BitVec 5) (b : PegSrc)
  /-- SHL (R264): Peg shift left. -/
  | pegShl (p : PegIssue) (d : BitVec 5) (a : BitVec 5) (b : PegCount)
  /-- SHR (R264): Peg logical shift right. -/
  | pegShr (p : PegIssue) (d : BitVec 5) (a : BitVec 5) (b : PegCount)
  /-- SAR (R264): Peg arithmetic shift right. -/
  | pegSar (p : PegIssue) (d : BitVec 5) (a : BitVec 5) (b : PegCount)
  /-- ROT (R264): Peg rotate. -/
  | pegRot (p : PegIssue) (d : BitVec 5) (a : BitVec 5) (b : PegCount)
  /-- CLZ (R264): Peg count leading zeros. -/
  | pegClz (p : PegIssue) (d : BitVec 5) (a : BitVec 5)
  /-- POPC (R264): Peg population count. -/
  | pegPopc (p : PegIssue) (d : BitVec 5) (a : BitVec 5)
  /-- BITREV (R264): Peg bit reverse. -/
  | pegBitrev (p : PegIssue) (d : BitVec 5) (a : BitVec 5)
  /-- EXT (R264): Peg bit-field extract. -/
  | pegExt (p : PegIssue) (d : BitVec 5) (a : BitVec 5) (lsb len : BitVec 5)
  /-- INS (R264): Peg bit-field insert. -/
  | pegIns (p : PegIssue) (d : BitVec 5) (a : BitVec 5) (lsb len : BitVec 5)
  /-- PADD (R264): Peg packed 16-bit add. -/
  | pegPadd (p : PegIssue) (d : BitVec 5) (a : BitVec 5) (b : BitVec 5)
  /-- PSUB (R264): Peg packed 16-bit subtract. -/
  | pegPsub (p : PegIssue) (d : BitVec 5) (a : BitVec 5) (b : BitVec 5)
  /-- PSAT (R264): Peg packed saturate. -/
  | pegPsat (p : PegIssue) (d : BitVec 5) (a : BitVec 5) (b : BitVec 5)
  /-- CMP (R264): Peg compare. -/
  | pegCmp (p : PegIssue) (d : BitVec 5) (a : BitVec 5) (b : PegSrc)
  /-- BR_CC (R249): Peg conditional branch with two delay slots. -/
  | pegBrCc (p : PegIssue) (cc : BitVec 4) (a : BitVec 5) (target : BitVec 16)
  /-- CALL (R249): Peg call writing the return address to g30. -/
  | pegCall (p : PegIssue) (target : BitVec 16)
  /-- RET (R249): Peg return with two delay slots. -/
  | pegRet (p : PegIssue) (a : BitVec 5)
  /-- JMP (R249): Peg jump with two delay slots. -/
  | pegJmp (p : PegIssue) (target : BitVec 16)
  /-- LD (R253): Peg word load through pk with post-modify. -/
  | pegLd (p : PegIssue) (d : BitVec 5) (k : BitVec 3)
  /-- LDH (R253): Peg halfword load through pk with post-modify. -/
  | pegLdh (p : PegIssue) (d : BitVec 5) (k : BitVec 3)
  /-- LDB (R253): Peg byte load through pk with post-modify. -/
  | pegLdb (p : PegIssue) (d : BitVec 5) (k : BitVec 3)
  /-- ST (R253): Peg word store through pk with post-modify. -/
  | pegSt (p : PegIssue) (a : BitVec 5) (k : BitVec 3)
  /-- STH (R253): Peg halfword store through pk with post-modify. -/
  | pegSth (p : PegIssue) (a : BitVec 5) (k : BitVec 3)
  /-- STB (R253): Peg byte store through pk with post-modify. -/
  | pegStb (p : PegIssue) (a : BitVec 5) (k : BitVec 3)
  /-- MOVP (R254): Peg move to a pointer register. -/
  | pegMovp (p : PegIssue) (k : BitVec 3) (a : BitVec 5)
  /-- MOVM (R254): Peg move to a post-modify step register. -/
  | pegMovm (p : PegIssue) (k : BitVec 3) (a : BitVec 5)
  /-- MOVCB (R254): Peg move to a circular base register. -/
  | pegMovcb (p : PegIssue) (k : BitVec 3) (a : BitVec 5)
  /-- MOVCL (R254): Peg move to a circular length register, with no wrap at the write. -/
  | pegMovcl (p : PegIssue) (k : BitVec 3) (a : BitVec 5)
  /-- QMAC (R250): Peg four-product complex multiply-accumulate. -/
  | pegQmac (p : PegIssue) (a : BitVec 5) (b : BitVec 5)
  /-- QMAC_L (R250): QMAC with a fused post-modify load. -/
  | pegQmacL (p : PegIssue) (a : BitVec 5) (b : BitVec 5) (x : BitVec 5) (k : BitVec 3)
  /-- QMAC_N (R250): QMAC subtracting its products. -/
  | pegQmacN (p : PegIssue) (a : BitVec 5) (b : BitVec 5)
  /-- SMAC (R250): Peg single multiply-accumulate into one accumulator. -/
  | pegSmac (p : PegIssue) (a : BitVec 5) (b : BitVec 5) (k : BitVec 2)
  /-- SMAC_N (R250): SMAC subtracting its product. -/
  | pegSmacN (p : PegIssue) (a : BitVec 5) (b : BitVec 5) (k : BitVec 2)
  /-- ACCRD (R252): Reads an accumulator rounded, shifted and limited to 32 bits. -/
  | pegAccrd (p : PegIssue) (d : BitVec 5) (k : BitVec 2) (sh : BitVec 5)
  /-- ACCMV (R252): Moves the high or low bits of an accumulator to a g register. -/
  | pegAccmv (p : PegIssue) (d : BitVec 5) (k : BitVec 2) (hi : Bool)
  /-- ACCCLR (R252): Clears the named accumulators. -/
  | pegAccclr (p : PegIssue) (mask : BitVec 4)
  /-- LOOP (R255): Sets up a zero-overhead loop. -/
  | pegLoop (p : PegIssue) (k : Bool) (a : BitVec 5) (last : BitVec 16)
  /-- XFER (R245): Queues a transfer, writing 1 if queued and 0 if the queue is full. -/
  | pegXfer (p : PegIssue) (d : BitVec 5) (t : Transfer)
  /-- XWAIT (R264): Branches if the named transfers are not done. -/
  | pegXwait (p : PegIssue) (mask : BitVec 4) (target : BitVec 16)
  /-- WAIT (R259): Stops issue until the next tick. -/
  | pegWait (p : PegIssue)
  /-- RETI (R258): Restores stat from sstat and continues at spc. -/
  | pegReti (p : PegIssue)
  /-- MOVSTAT (R265): Moves to or from the stat register. -/
  | pegMovstat (p : PegIssue) (x : PegSpecial) (toStat : Bool) (r : BitVec 5)
  /-- SIGNAL (R264): Signals a peer peg, raising its PEER interrupt source. -/
  | pegSignal (p : PegIssue) (peer : BitVec 4)
  /-- SETTIMER (R264): Sets the peg's timer compare value. -/
  | pegSettimer (p : PegIssue) (a : BitVec 5)
  /-- TRAP (R264): Peg trap instruction. -/
  | pegTrap (p : PegIssue)
  /-- NOP (R264): Peg no-operation. -/
  | pegNop (p : PegIssue)
  /-- PEG_INTERRUPT_ENTRY (R257): A pending enabled source is taken at an instruction boundary. -/
  | pegInterruptEntry (p : BitVec 8)
  /-- PEG_TIMER_COMPARE (R257): cyc reaches the compare value and raises TIMER. -/
  | pegTimerCompare (p : BitVec 8)
  /-- PEG_DOORBELL (R257): The Ridge signals a peg, raising DOORBELL. -/
  | pegDoorbell (p : BitVec 8)
  /-- XFER_COMPLETE (R245): A transfer completes or ends with ERROR, setting XSTAT and its interrupt. -/
  | xferComplete (p : PegIssue) (smem : Ecc) (fail : Option Nat) (ue : Bool)
  /-- ALIGN_BLOCK_RECEIVE (R276): An ALIGN block measures and removes skew and fixes codeword lock. -/
  | alignBlockReceive (lane : BitVec 7) (b : GulBlock) (skew : Nat)
  /-- ALIGN_MISSING (R276): Two missed or disagreeing ALIGN blocks lose deskew and leave ACTIVE. -/
  | alignMissing (lane : BitVec 7)
  /-- BLOCK_LOCK_ACQUIRED (R275): 128 consecutive valid headers declare block lock. -/
  | blockLockAcquired (lane : BitVec 7) (headers : List (BitVec 2))
  /-- BLOCK_LOCK_LOST (R275): 24 invalid headers in one window lose block lock. -/
  | blockLockLost (lane : BitVec 7) (headers : List (BitVec 2))
  /-- FEC_CODEWORD (R278): A codeword is decoded, corrected or marked uncorrectable. -/
  | fecCodeword (lane : BitVec 7) (w : FecWord)
  /-- TRAIN_BLOCK_RECEIVE (R279): A TRAIN block's request is applied to the transmit taps, or answered at limit. -/
  | trainBlockReceive (lane : BitVec 7) (b : GulBlock)
  /-- CAP_BLOCK_RECEIVE (R280): A CAP block is taken into the partner's capability set and agreement checked. -/
  | capBlockReceive (quad : BitVec 5) (b : GulBlock)
  /-- NAP_REQ (R283): A partner asks to put its transmit direction to sleep; answered ACK or NAK. -/
  | napReq (quad : BitVec 5)
  /-- NAP_ACK (R283): The partner accepts the request and the own direction enters NAP_TX. -/
  | napAck (quad : BitVec 5)
  /-- NAP_NAK (R283): The partner refuses and the request lapses. -/
  | napNak (quad : BitVec 5)
  /-- NAP_IDLE_TIMER (R283): No frame to send for the idle time sends NAP_REQ. -/
  | napIdleTimer (quad : BitVec 5)
  /-- FAST_EXIT (R284): A sleeping direction wakes with 32 TRAIN blocks and an ALIGN block. -/
  | fastExit (quad : BitVec 5) (own : Bool) (lanes : List ExitLane)
  /-- FAST_EXIT_TIMEOUT (R284): An exit not accepted within 2 us counts FAST_EXIT_FAIL and starts TRAIN. -/
  | fastExitTimeout (quad : BitVec 5)
  /-- RECEIVER_DETECT (R279): Every 100 us in DETECT the quad tests for a receiver on each lane. -/
  | receiverDetect (quad : BitVec 5) (present : BitVec 4)
  /-- TRAIN_TIMEOUT (R279): TRAIN lasting 500 ms returns the quad to DETECT. -/
  | trainTimeout (quad : BitVec 5)
  /-- LOCK_TIMEOUT (R281): LOCK lasting 1 ms retrains, or enters EXCHANGE at a reduced width. -/
  | lockTimeout (quad : BitVec 5)
  /-- EXCHANGE_TIMEOUT (R279): EXCHANGE lasting 1 ms returns the quad to TRAIN. -/
  | exchangeTimeout (quad : BitVec 5)
  /-- QUAD_LOST (R282): A quad out of ACTIVE for 10 frames counts as lost for DEGRADED. -/
  | quadLost (quad : BitVec 5)
  /-- ETH_LINK_CHANGE (R209): An Ethernet quad's link goes up or down. -/
  | ethLinkChange (quad : BitVec 5) (change : EthChange)
  /-- PATTERN_CHECK_LOCK (R293): A checker declares lock after 1024 correct bits or loses it. -/
  | patternCheckLock (lane : BitVec 7) (bits : List Bool)
  /-- MODULE_INSERT (R290): Firmware reads a new module, selects its Application and releases low power. -/
  | moduleInsert (quad : BitVec 5) (identity applications : List Byte)
  /-- MODULE_REMOVE (R290): A module removed from a quad in use is a link loss. -/
  | moduleRemove (quad : BitVec 5)
  /-- MODULE_POLL (R290): Every 100 ms, or on a MOD_INT_N edge, firmware polls the module's flags. -/
  | modulePoll (quad : BitVec 5) (flags : List Byte)
  /-- PPS_EDGE (R299): A qualified PPS edge is timestamped and checked for coherence. -/
  | ppsEdge (inputB : Bool) (width : Nat) (deviation : Int)
  /-- TB0_SECOND (R300): At each TB0 second boundary the Compass measures source phases. -/
  | tb0Second (phases : List (Nat × Int))
  /-- REF_VERDICT (R301): 10 ms after the second, each source gets IN or OUT and qualification and selection update. -/
  | refVerdict (present : BitVec 7)
  /-- REFERENCE_SWITCH (R308): A switch takes effect at the first tick after the verdict and measures its step. -/
  | referenceSwitch (step : Int)
  /-- PTP_MESSAGE_RECEIVE (R313): Sync, Delay_Resp and Announce messages discipline TB1. -/
  | ptpMessageReceive (quad : BitVec 5) (domain : Nat) (m : PtpMessage)
  /-- PTP_ANNOUNCE_TIMEOUT (R313): No Announce for the receipt timeout makes TB1 free-run. -/
  | ptpAnnounceTimeout
  /-- PTP_RELAY_FRAME (R319): A PTP frame crosses the relay with residence time added. -/
  | ptpRelayFrame (fromB : Bool) (f : RelayFrame)
  /-- TIME_TRIGGER_FIRE (R322): An armed trigger's time arrives and its action runs. -/
  | timeTriggerFire (trigger : BitVec 4)
  /-- TB3_MIRROR_UPDATE (R315): Every 1 us the BAR0 TB3 mirror is updated. -/
  | tb3MirrorUpdate
  /-- ADC_TRIG_EDGE (R324): A qualified ADC_TRIG edge fires its injection entries. -/
  | adcTrigEdge (width : Nat)
  /-- FAN_TACH_EDGE (R324): A qualified tach edge is counted for fan speed. -/
  | fanTachEdge (fan : BitVec 2) (width : Nat)
  /-- PIN_STUCK (R325): A pin held active beyond its stuck time is flagged STUCK and ignored. -/
  | pinStuck (pin : BitVec 4)
  /-- DRAM_READ (R336): A burst is read with ECC correction or returned uncorrectable. -/
  | dramRead (addr : Nat) (devices : List Nat) (cls : BitVec 3) (wait : Bool) (reissues : BitVec 2)
  /-- DRAM_WRITE (R334): A burst is written in arrival order after any matching read. -/
  | dramWrite (ch : BitVec 4) (reissues : BitVec 2)
  /-- CHANNEL_LOST (R338): A channel that fails the lost criteria answers every read uncorrectable. -/
  | channelLost (ch : BitVec 4) (cause : LostCause)
  /-- REFRESH (R335): A bank is refreshed each tREFI, postponed at most twice. -/
  | refresh (ch : BitVec 4) (bank : Nat) (postpone : Bool)
  /-- PAGE_IDLE_CLOSE (R333): An open row is precharged after 128 cycles without a request. -/
  | pageIdleClose (ch : BitVec 4) (bank : Nat)
  /-- RECENTRE (R331): Every 100 ms a byte lane's windows are measured and delays moved one step. -/
  | recentre (byteLane : Nat) (readCentre writeCentre : Int) (window : Nat) (ue : Option Nat)
  /-- DIMM_TEMP_POLL (R335): Every 100 ms hub temperatures set the refresh rate and DIMM_HOT. -/
  | dimmTempPoll (ch : BitVec 4) (dimm : Bool) (temp : Int)
  /-- PATROL_SCRUB (R336): Hourly the service region is read and corrected. -/
  | patrolScrub (correctable : List (Nat × Nat)) (bad : List Nat)
  /-- CROSSBAR_REQUEST (R381): A request is granted at its target port by round-robin. -/
  | crossbarRequest (master : BitVec 5) (target : BitVec 5) (source : BitVec 4) (addr bytes : Nat) (beats : BitVec 3) (data : List Byte)
  /-- PORT_IDLE (R382): A port with no request for 8 cycles becomes idle and clock-gated. -/
  | portIdle (target : BitVec 5)
  /-- TARGET_RESET (R383): A target that resets answers its granted and pending requests TARGET_RESET. -/
  | targetReset (target : BitVec 5) (down : Bool)
  /-- DMA_BURST (R386): A channel reads a burst into its buffer share and writes it out. -/
  | dmaBurst (ch : BitVec 4) (part : BurstPart) (answer : BurstAnswer)
  /-- DMA_DESCRIPTOR_COMPLETE (R389): A descriptor completes with its status, tag and residue. -/
  | dmaDescriptorComplete (ch : BitVec 4)
  /-- VIN12_RISE (R472): VIN12 rises through undervoltage release and the regulators start, raising PWR_GOOD. -/
  | vin12Rise
  /-- RESET_RELEASE (R473): 50 ms after PWR_GOOD, or at RESET_N rising, the SV4 enters BOOT. -/
  | resetRelease
  /-- RESET_N_ASSERT (R396): RESET_N asserted ends the current state at once without sealing. -/
  | resetNAssert
  /-- SUPPLY_FAULT (R474): VIN12 out of range for 10 us or a rail out of regulation switches everything off. -/
  | supplyFault (cause : SupplyFault)
  /-- SUPPLY_RESTART (R474): VIN12 back in range for 10 ms restarts the ramp. -/
  | supplyRestart
  /-- VMOD_OVERLOAD (R475): A VMOD overload of 10 ms switches the output off. -/
  | vmodOverload (k : BitVec 2)
  /-- VMOD_RETRY (R475): A switched-off VMOD output retries once a second. -/
  | vmodRetry (k : BitVec 2)
  /-- BOOT (R394): The ROM runs the steps of BOOT in order to READY or SAFE. -/
  | boot (b : BootInput)
  /-- BOOT_ZEROING_DONE (R394): Background zeroing ends and the firmware enters READY. -/
  | bootZeroingDone
  /-- BOOT_TIMEOUT (R397): Firmware not in READY within 30 s is stopped and the bank treated as failed. -/
  | bootTimeout
  /-- UPDATE_REBOOT (R410): After a passing END, BOOT follows once the completion is written or 100 ms pass. -/
  | updateReboot
  /-- POWER_MONITOR_EXCEEDED (R416): Draw above the cap over the averaging window raises POWER_CAP or stops the data path. -/
  | powerMonitorExceeded (watts : Nat) (level : PowerLevel)
  /-- ADC_ROUND_END (R434): A round of 48 conversions ends and thresholds, cross-checks and zone states update. -/
  | adcRoundEnd (codes : List Nat)
  /-- ADC_INJECT_CONVERSION (R437): An injection entry's delay expires and its conversion runs, or is latched. -/
  | adcInjectConversion (entry : BitVec 2) (raw : Nat)
  /-- ADC_INJECT_TIMER (R437): A timer injection entry's period expires. -/
  | adcInjectTimer (entry : BitVec 2)
  /-- ADC_CAL_STEP_DONE (R440): A calibration step's 256 conversions end and the pair is checked and stored. -/
  | adcCalStepDone (sum : Nat)
  /-- THERMAL_TRIP (R450): A comparator at 120 C held for 10 us asserts THERMTRIP_N and enters OFF. -/
  | thermalTrip (sensor : BitVec 5)
  /-- FAN_CYCLE (R452): A FAN trigger runs the fan control cycle. -/
  | fanCycle
  /-- FAN_LOOP_IDLE (R453): No fan cycle for 10 s sets every fan to 100 % and raises an alarm. -/
  | fanLoopIdle
  /-- FAN_FAIL (R454): A fan below its minimum speed for 3 s at duty of 50 % or more raises FAN_FAIL. -/
  | fanFail (fan : BitVec 2)
  /-- EPOCH_END (R458): At each operating hour or seal the live and shadow sets swap. -/
  | epochEnd
  /-- RECORD_SEAL (R460): The writer writes, verifies and marks valid one recorder record. -/
  | recordSeal (v : Verify)
  /-- HB_IN_EDGE (R420): A heartbeat edge is accepted and classed LEAD or FOLLOWER. -/
  | hbInEdge (width : Nat)
  /-- HEARTBEAT (R421): A HEARTBEAT frame is heard on the link path. -/
  | heartbeat (m : TwinMessage)
  /-- CHECKPOINT (R429): A CHECKPOINT piece is received and kept when complete. -/
  | checkpoint (m : TwinMessage)
  /-- CHECKPOINT_STALE (R429): No complete checkpoint for 3 s sets CHECKPOINT_STALE. -/
  | checkpointStale
  /-- HANDOVER (R430): A HANDOVER message names the tick at which the follower takes the duties. -/
  | handover (m : TwinMessage)
  /-- RECLAIM (R431): The home lead asks to reclaim the lead at n_h. -/
  | reclaim (m : TwinMessage)
  /-- RECLAIM_ACK (R431): The lead answers with a final checkpoint and stops its duties at n_h. -/
  | reclaimAck (m : TwinMessage)
  /-- TAKEOVER (R423): After K frames without a LEAD heartbeat the follower takes the lead. -/
  | takeover
  /-- TAKEOVER_COMPLETE (R425): The takeover's checkpoint, relay, control frames and outputs are in place. -/
  | takeoverComplete
  /-- YIELD (R426): A lead hearing K LEAD claims without priority yields. -/
  | yieldLead
  /-- RIDGE_HEARTBEAT_WITHDRAW (R427): A lead whose heartbeats are unarmed for K frames withdraws its duties. -/
  | ridgeHeartbeatWithdraw
  /-- HB_PATH_DOWN (R422): A path missing K frames while the other hears raises HB_PATH_DOWN. -/
  | hbPathDown (link : Bool)
  /-- CONFIG_MISMATCH (R432): A configuration digest differing for K frames sets CONFIG_MISMATCH. -/
  | configMismatch
  /-- TWIN_SKEW (R421): Tick skew beyond T/8 for K frames sets SKEW. -/
  | twinSkew
  /-- ARRAY_TEST_DONE (R115): The known-answer passes end after 2.5 ms per array, setting KAT_FAIL or ENABLED and writing the completion. -/
  | arrayTestDone (passed : BitVec 4)
  /-- DRAM_RETRAIN_DONE (R332): A full retrain of the named channels ends after about 1.5 s, clearing LOST on those that pass and writing the completion. -/
  | dramRetrainDone (passed : BitVec 12) (lanes : List LaneEye)
  /-- PACK_ENCODE_DONE (R185): A service encoding on a reserved engine finishes and completes PACK.ENCODE or REC.EXPORT. -/
  | packEncodeDone
  /-- FW_UPDATE_DATA_DONE (R409): The write-verify of a bundle chunk into MRAM ends, with OK or NO_SPACE after three failed retries. -/
  | fwUpdateDataDone (retriesFailed : Bool)
  /-- FW_UPDATE_CHECK_DONE (R410): The read-back and check of the written bank end, marking it PENDING or leaving the SV4 in UPDATE with a failure status. -/
  | fwUpdateCheckDone (engine : BitVec 4)
  /-- FW_KEY_ENROLL_DONE (R406): The burn and read-back of a customer key hash end, and the enrolment completes. -/
  | fwKeyEnrollDone (verified : Bool)
  /-- REC_CLEAR_DONE (R462): Erasure of the good sectors ends, the overflow set is sealed and the recorder returns to RUNNING. -/
  | recClearDone
  /-- REC_READ_DONE (R460): The transfer of held recorder records to the bulk destination ends and REC.READ completes. -/
  | recReadDone (fail : Bool)
  /-- CHAN_STATS_READ_DONE (R77): The copy of a slice's readout bank to the bulk destination ends and the completion carries its interval and group. -/
  | chanStatsReadDone (fail : Bool)
  /-- BULK_TRANSFER_TIMEOUT (R353): A command's bulk transfer not complete after 50 ms fails the command with HOST_DMA and applies nothing. -/
  | bulkTransferTimeout (slot : BitVec 3)
  /-- FOLLOWER_HEARTBEAT_TOGGLE (R420): A twin not acting as lead toggles HB_OUT at tick n + T/2. -/
  | followerHeartbeatToggle
  /-- PIN_STUCK_RELEASE (R325): A STUCK pin holds its inactive level for the minimum width and is released. -/
  | pinStuckRelease (pin : BitVec 4)
  /-- VIN12_REMOVED (R474): VIN12 falls below 3.0 V, the always-on domain stops and a latched hardware trip clears. -/
  | vin12Removed
  /-- PCIE_LINK_TRAINED (R344): The PCIe link trains to its width and speed, setting SPEED, WIDTH and LINK_REDUCED. -/
  | pcieLinkTrained (gen : BitVec 3) (width : BitVec 4)
  /-- FAN_PWM_EDGE (R437): A rising edge of FAN_PWMe starts the delay of injection entry e of the FAN_PWM-edge kind. -/
  | fanPwmEdge (fan : BitVec 2)
deriving DecidableEq, Repr

end Sys2Proof
end

