-- ==== Sys2Proof/Config.lean ====
section
/-! DEFINITION. What the manual leaves open, as constants with no body: no proof can see their values. Log entries
1 and 2 name them. A statement that mentions one holds whatever it is. -/

namespace Sys2Proof

/-- What a kernel's manifest declares (R267). -/
structure Manifest where
  /-- Bytes of the manifest itself. -/
  size : Nat := 0
  /-- Bytes of the instruction image. -/
  code : Nat := 0
  /-- Bytes of the data image. -/
  data : Nat := 0
  /-- Peg cycles per frame (R260). -/
  cycles : Nat := 0
  /-- Bytes of pitch shared memory. -/
  shared : Nat := 0
  /-- Register-space windows: peg address and bytes. -/
  windows : List (Nat × Nat) := []
deriving DecidableEq, Repr, Inhabited

end Sys2Proof

namespace Sys2Proof.Config

/-- Free value for a number the manual does not state; applied to the state's counter `fresh` (log 1). -/
opaque freeNat : Nat → Nat

/-- Value CMP writes: chapter 11 names CMP and gives no encoding of its result (R264; log 2). -/
opaque cmpResult : BitVec 32 → BitVec 32 → BitVec 32

/-- Whether BR.cc with condition code `cc` is taken on a register value: the manual lists no codes (R264; log 2). -/
opaque condHolds : BitVec 4 → BitVec 32 → Bool

/-- PSAT of a register by a width operand: limits are not given (R264; log 2). -/
opaque packedSaturate : BitVec 32 → BitVec 32 → BitVec 32

/-- ABS of the most negative 32-bit value: no result is stated (R264; log 2). -/
opaque absOfMin : BitVec 32

/-- Upper bits that LDH writes above the halfword it loads (R253, R264; log 2). -/
opaque ldhUpper : BitVec 16 → BitVec 16

/-- Upper bits that LDB writes above the byte it loads (R253, R264; log 2). -/
opaque ldbUpper : BitVec 8 → BitVec 24

/-- Bits that EXT writes above the field it extracts, given the field and its length (R264; log 2). -/
opaque extUpper : BitVec 32 → Nat → BitVec 32

/-- Product of an ALU form whose 16-bit immediate is widened to 32 bits: the widening is not stated (R264; log 2). -/
opaque immWiden : BitVec 16 → BitVec 32

/-- Vendor prototype coefficient `h[i]` of a preset with `p` branches in the prototypes section of a Refel bundle (Tables 3.6 and 18.4: no
layout is given). -/
opaque vendorPrototype : List Byte → Nat → Nat → Nat → Int

/-- Bits that the PCS and RS-FEC of IEEE 802.3, which chapter 12 cites (Table 12.6), send on a lane for an Ethernet frame (R294). -/
opaque ethWire : Nat → List Byte → List Bool

/-- Whether REF_OUT runs at 100 MHz or at 10 MHz: R316 names both and no command sets it. -/
opaque refOutFast : Bool

/-- Host-side signal settings that the firmware gives a module of an Ethernet mode (R290: no values are given). -/
opaque hostSignal : Nat → Nat

/-- RSASSA-PSS (SHA-384) verification of a container's signed message (R402 check 4). -/
opaque rsaVerifies : List Byte → List Byte → List Byte → Bool

/-- SLH-DSA-SHA2-192s verification of a container's signed message (R402 check 5). -/
opaque slhVerifies : List Byte → List Byte → List Byte → Bool

/-- SHA-384 of a byte string (R402, R405), a standard the manual names and does not define. -/
opaque sha384 : List Byte → List Byte

/-- Device identity burned into OTP at manufacture (Table 18.6). -/
opaque deviceIdentity : BitVec 64

/-- Base MAC address burned into OTP at manufacture (Table 18.6). -/
opaque baseMac : BitVec 48

/-- Vendor key hash of OTP slot 0, burned at manufacture (Table 18.6). -/
opaque vendorKeyHash : List Byte

/-- Silicon revision in PAGE_VERSION bits 31:16 (Table 15.3). -/
opaque siliconRevision : BitVec 16

/-- Grade of the part: false ZS-SV4-C, true ZS-SV4-E (R1). -/
opaque extendedGrade : Bool

/-- Factory calibration pair (C0, C1) of housekeeping channel `c`, 24 to 45 (R441). -/
opaque factoryPair : Nat → Option (Int × Int)

/-- Full scale in mV of rail channel `c`, 34 to 45: 1200 or 2400 (Table 20.1). -/
opaque railFullScale : Nat → Nat

/-- A twin checkpoint without its CRC, from what it holds (R429: no layout is given). -/
opaque checkpointBody : List Int → List Byte

/-- Sequence and last value of the upstream control frames of a quad's source that a checkpoint gives (R425, R429). -/
opaque checkpointControl : List Byte → Nat → Option (Nat × List Byte)

/-- Quad on which what a peg writes at an address of a register-space window is sent upstream as a CONTROL frame (chapter 12: what
starts one is not stated). -/
opaque controlPort : Nat → Option Nat

/-- Relay quads that a checkpoint gives (R425, R429). -/
opaque checkpointRelay : List Byte → Option (Nat × Nat)

/-- Offset and width of a timing output that a checkpoint gives (R425, R429). -/
opaque checkpointOutput : List Byte → Nat → Int × Nat

/-- CRC-32C of the applied configuration (R432: what it covers is given, its layout is not). -/
opaque configDigest : List Nat → BitVec 32

/-- Bytes of a service's data image in the peg services section of a Refel bundle (R261, R394 step 7, Table 18.4: no layout is given). -/
opaque serviceImage : List Byte → Nat → Nat → Byte

/-- What the manifest of a kernel's decoded payload declares (R267, R413: no layout is given): its own bytes, those of the
instruction and data images, cycles per frame, bytes of pitch shared memory, and the register-space windows as (peg address, bytes). -/
opaque kernelManifest : List Byte → Manifest

/-- Register-space windows that the Ridge may grant to kernels, as (peg address, bytes) (R267: the set is not listed). -/
opaque kernelWindows : Nat × Nat → Bool

/-- Register-space windows of a vendor service of a bundle's services section, as (peg address, bytes) (R244: not listed). -/
opaque serviceWindows : List Byte → Nat → List (Nat × Nat)

/-- Byte of the readout banks of R77 that a peg address in a register-space window holds, as a slice and an offset in what
CHAN.STATS.READ copies; none for another register, whose contents are open (R77, Table 11.1: no layout is given). -/
opaque readoutAt : Nat → Option (Nat × Nat)

/-- Tables that a service on a pitch writes, numbered as the tables of `kernelTables` (R267: not listed). -/
opaque serviceTables : Nat → Nat → List Nat

/-- Tables that a kernel takes over, by its payload (R267: no layout is given). -/
opaque kernelTables : List Byte → List Nat

/-- Whether the hardware detects that the instruction at an address breaks R256 in a loop whose body ends at another (R261: left
open; log 2). -/
opaque loopFault : BitVec 16 → BitVec 16 → Bool

/-- Bytes of a service's instruction image in the peg services section (R394 step 7, Table 18.4: no layout is given). -/
opaque serviceCode : List Byte → Nat → Nat → Byte

/-- Service of a pitch in the default service map section (Table 18.4: no layout is given). -/
opaque serviceMap : List Byte → Nat → Nat

/-- Crossbar addresses that a target decodes, by its number in Table 17.1: Ridge memory, the pitches' data and instruction memories, the
Locket store, the register space and the mailbox SRAM (R379: not listed). -/
opaque targetAddr : Nat → Nat → Bool

/-- Crossbar addresses of the pegs' instruction memories, which the DMA write engine does not reach (Table 17.2: not listed). -/
opaque instructionAddr : Nat → Bool

/-- First DRAM address of the copies of schedule slots 0 to 3 and, under 4, of the Ridge's own state, in the service region (R341: where
they lie in it is not stated). -/
opaque copyPlace : Nat → Nat

/-- First byte of the state of an accumulation, by (position × 256 + tile), in the long-accumulation region (R157: not stated). -/
opaque laPlace : Nat → Nat

/-- Bytes of the Ridge's own state (R341: not stated). -/
opaque ridgeStateSize : Nat

/-- Identity in a DIMM's SPD contents as `DRAM.STATUS` returns it (R342: no layout is given). -/
opaque spdIdentity : List Byte → Nat

/-- Pool slot that a beam pass reads where no weight map is in force for its block (R125: not stated), by the map's index. -/
opaque unmappedSlot : Nat → Nat

end Sys2Proof.Config
end

