-- ==== Sys2Proof/Machine/State.lean ====
section
/-! DEFINITION. The state of the SV4 as plain data. Every field's docstring gives its width, the chapter and rule that
name it, and its reset value; `State.reset` is every field at that value. Where the manual gives no reset value the
docstring says DESIGN CHOICE 3 (zero, empty or the field's first value; log 3). Sparse tables list only entries that
differ from the default their accessor in Ops.lean names. -/

namespace Sys2Proof.Machine

/-- A sparse table by number: keys strictly rising, no entry equal to the default. -/
abbrev Tab (α : Type) := List (Nat × α)

/-- A byte memory: addresses strictly rising, no entry equal to what an unlisted address reads as (zero, log 4). -/
abbrev Memory := List Host.Cell

/-- Device states (Table 1.4). -/
inductive DevState where
  | off | boot | ready | observing | degraded | safe | update
deriving DecidableEq, Repr

/-- Causes that call for DEGRADED (Tables 1.5 and 20.7). -/
inductive Cause where
  | thermal | rate | dimmHot | powerCap | shed | quadLost | channelLost
deriving DecidableEq, Repr

/-- Kenra status codes (Table 16.3). -/
inductive Status where
  | ok | accepted | staged | malformed | unknownOpcode | range | state | needTxn | txnUnknown | txnClosed | txnFull
  | busy | conflict | late | tooLate | tether | window | noSpace | rejected | decodeFail | hostDma | dramUe | stopped
  | auth | versionOld | rolledBack
deriving DecidableEq, Repr

/-- A complex sample with its flag (R34). -/
structure Smp where
  re : Int
  im : Int
  flag : Bool
deriving DecidableEq, Repr

/-- Supply, straps and pins outside the units (chapter 22). -/
structure PowerSt where
  /-- VIN12 at least 11.0 V and in range. 1 bit. 22 R472, R474. Reset true. -/
  vinOk : Bool := true
  /-- VIN12 at least 3.0 V: the always-on domain runs. 1 bit. 22 R474. Reset true. -/
  alwaysOn : Bool := true
  /-- PWR_GOOD. 1 bit. 22 R472. Reset true (the part is past R473). -/
  pwrGood : Bool := true
  /-- RESET_N. 1 bit. 22 R473. Reset true. -/
  resetN : Bool := true
  /-- Sensor whose comparator tripped, latched in the always-on domain; THERMTRIP_N is low while it is held. 5 bits. 20 R450. Reset none. -/
  tripLatch : Option Nat := none
  /-- The trip to report at the next BOOT. 5 bits. 20 R450. Reset none. -/
  tripReport : Option Nat := none
  /-- PWRCAP[2:0] as the last BOOT read it. 3 bits. 22 R476. Reset 0b111, pins open (DESIGN CHOICE 3). -/
  pwrcap : BitVec 3 := 7
  /-- VMOD outputs switched off by an overload. 4 bits. 22 R475. Reset 0. -/
  vmodOff : BitVec 4 := 0
  /-- Compute dies and SRAM stacks powered. 1 bit. 20 R449. Reset true. -/
  diesOn : Bool := true
  /-- TB2 time by which the dies of a shutdown are powered down. 64 bits. 20 R449. Reset none. -/
  diesOffBy : Option Nat := none
deriving DecidableEq, Repr

/-- Device state machine (chapter 01). -/
structure DevSt where
  /-- Device state. 4 bits. 01 Table 1.4, R19. Reset BOOT (15 DEVICE_STATUS STATE reset 0x1). -/
  state : DevState := .boot
  /-- SAFE was entered from BOOT and runs on the ROM. 1 bit. 18 R400. Reset false. -/
  romSafe : Bool := false
  /-- STATE_CHANGES. 64 bits. 15 Table 15.3. Reset 0. -/
  stateChanges : Nat := 0
  /-- Causes of DEGRADED that are raised. 7 bits. 01 Table 1.5, 20 Table 20.7. Reset none. -/
  causes : List Cause := []
  /-- SAFE is called for at the next tick, with the number of its cause. 1 bit and 8 bits. 01 R19. Reset none. -/
  safeAt : Option Nat := none
  /-- DEGRADED hold-off in frames. 16 bits. 01 R21. Reset 1000. -/
  holdoff : Nat := 1000
  /-- Frames with no cause of DEGRADED. 16 bits. 01 R21. Reset 0. -/
  clearFrames : Nat := 0
  /-- TB0 time of the tick at which the data path stops (SCHED.STOP). 64 bits. 01 R12, 03 R61. Reset none. -/
  stopAt : Option Nat := none
deriving DecidableEq, Repr

/-- Time bases and the frame tick (chapters 01 and 13). -/
structure TimeSt where
  /-- Current frame number n. 64 bits. 01 R11. Reset 0. -/
  frame : Nat := 0
  /-- Frame period T in microseconds. 14 bits. 01 R12. Reset 1000. -/
  period : Nat := 1000
  /-- TB0 in ns. 64 bits. 13 Table 13.3. Reset 0 (Table 13.5). -/
  tb0 : Nat := 0
  /-- Fraction of TB0. 16 bits. 13 Table 13.3. Reset 0. -/
  tb0Frac : BitVec 16 := 0
  /-- TB1 in ns. 64 bits. 13 Table 13.3. Reset 0 (DESIGN CHOICE 3). -/
  tb1 : Nat := 0
  /-- TB2 in ns, the GTS. 64 bits. 13 R314, 22 Table 22.3. Reset 50 000 000: BOOT is entered 50 ms after PWR_GOOD. -/
  tb2 : Nat := 50000000
  /-- TB3 in ns. 64 bits. 13 R315. Reset 0. -/
  tb3 : Nat := 0
  /-- BAR0 mirror of TB3. 64 bits. 13 R315, 15 Table 15.3. Reset 0. -/
  tb3Mirror : Nat := 0
  /-- TB0 value that TIME.SET loads at the next second boundary. 64 bits. 13 R311. Reset none. -/
  tb0Load : Option Nat := none
  /-- TB0 offset still to be removed by slew, in 0.1 ns. 64 bits signed. 13 R312. Reset 0. -/
  slewLeft : Int := 0
  /-- TB2 time that a step or slew of TB0 still adds before the next tick, in 25 ps (R308, R312: parts of a ns). The model's
  own. Reset 0. -/
  owedTime : Int := 0
  /-- Slew rate in 0.1 ns/s. 7 bits. 13 R312. Reset 100. -/
  slewRate : Nat := 100
  /-- The guard of the current frame has begun. 1 bit. 01 R13. Reset false. -/
  inGuard : Bool := false
  /-- The current frame's work has ended and TB0 stands at the next tick, whose frame has not begun: a transition or a commit of
  that tick has taken effect. 1 bit. 01 R13, R19. Reset false. -/
  ended : Bool := false
deriving DecidableEq, Repr

/-- One timing source (Table 13.1). -/
structure Source where
  rank : Nat
  tolerance : Nat
  q : Nat
  disabled : Bool := false
  inputComp : Nat := 0
  stepM : Nat := 2
  rclkQuad : Option Nat := none
  refMHz : Nat := 10
  present : Bool := false
  freqOnly : Bool := false
  coherentRun : Nat := 0
  incoherentRun : Nat := 0
  phases : List Int := []
  offset : Int := 0
  qualified : Bool := false
  verdictIn : Bool := false
  inRun : Nat := 0
  outRun : Nat := 0
deriving DecidableEq, Repr

/-- Actions of a time trigger (R321). -/
inductive TrigAction where
  | event | adc | fan | commit
deriving DecidableEq, Repr

/-- An armed time trigger (R321). -/
structure Trigger where
  onTb2 : Bool
  action : TrigAction
  time : Nat
  period : Nat
  armed : Nat
deriving DecidableEq, Repr

/-- A timing output's setting (R316): offset in 125 ps, width in ns, and those waiting for the second boundary. -/
structure OutCfg where
  offset : Int := 0
  width : Nat := 0
  nextOffset : Int := 0
  nextWidth : Nat := 0
  driven : Bool := false
  /-- The last pulse, or of REF_OUT the last edge that coincides with a second: where it began in 125 ps of TB0, and its width in ns
  (R316). -/
  pulse : Option (Int × Nat) := none
deriving DecidableEq, Repr

/-- An edge input pin (Table 13.4). Times are TB2 ns. -/
structure PinSt where
  minWidth : Nat
  lockout : Nat
  stuck : Bool := false
  lastAccepted : Option Nat := none
deriving DecidableEq, Repr

/-- The Compass (chapter 13). -/
structure CompassSt where
  /-- Sources 0 to 6 that differ from their defaults: rank 3, tolerance 27, Q 10, disable 1, compensation 13, M 10, RCLK quad 6, REF MHz 7 bits, presence, coherence, offsets, verdict runs, qualification. 13 Table 13.1, R298 to R302. Reset ranks 0, 1, 4, 4, 4, 4, 7; tolerances 1000, 1000, 100 000 x4, 1 000 000; Q 10; M 2. -/
  sources : Tab Source := []
  /-- Selected source, none in holdover. 4 bits. 13 R304, Table 13.6. Reset none (0xF). -/
  selected : Option Nat := none
  /-- Source chosen at the verdict whose switch waits for the tick. 4 bits. 13 R304, R308. Reset none. -/
  switchTo : Option Nat := none
  /-- Forced source. 4 bits. 13 R304. Reset none. -/
  forced : Option Nat := none
  /-- DISAGREE. 1 bit. 13 R303. Reset false. -/
  disagree : Bool := false
  /-- Output frequency against the resonator in each second the holdover estimate covers, in 125 ps per second, newest first, at most 1000. 13 R306. Reset none. -/
  estimate : List Int := []
  /-- Loop bandwidth, index in the order of R305. 4 bits. 13 R305. Reset 4 (100 mHz). -/
  bandwidth : Nat := 4
  /-- Step still to pass through, in 125 ps. 64 bits signed. 13 R308. Reset 0. -/
  stepLeft : Int := 0
  /-- First frame of the step frames in force. 64 bits. 13 R309. Reset none. -/
  stepFrom : Option Nat := none
  /-- Last step frame. 64 bits. 13 R309. Reset 0. -/
  stepTo : Nat := 0
  /-- Rate at which TB1 was last slewed, in ns per second. 13 R313. Reset 0. -/
  ptpRate : Int := 0
  /-- Phase of the resonator against the output at recent seconds, in 125 ps, newest first. 13 R300, R306. Reset none. -/
  resonator : List Int := []
  /-- Outputs 0 PPS_OUT, 1 FRAME_OUT, 2 REF_OUT: offset 34 bits signed, width 27 bits. 13 R316. Reset offset 0; widths 10 000, 1000, 0 ns. -/
  outputs : Tab OutCfg := []
  /-- Time triggers 0 to 15. 13 R321. Reset disarmed. -/
  triggers : Tab (Option Trigger) := []
  /-- PTP quad, none, domain, receipt timeout. 6, 7 and 4 bits. 13 R313. Reset none, 0, 3. -/
  ptpQuad : Option Nat := none
  /-- PTP domain. 7 bits. 13 R313. Reset 0. -/
  ptpDomain : Nat := 0
  /-- Announce receipt timeout in intervals. 4 bits. 13 R313. Reset 3. -/
  ptpTimeout : Nat := 3
  /-- Dataset of the grandmaster followed. 13 R313. Reset none. -/
  ptpMaster : Option PtpDataset := none
  /-- TB2 time of the last Announce. 64 bits. 13 R313. Reset 0. -/
  ptpLast : Nat := 0
  /-- Announce interval of the grandmaster followed, in ns. 13 R313. Reset 0. -/
  ptpInterval : Nat := 0
  /-- TB1 has locked since BOOT. 1 bit. 13 R313. Reset false. -/
  ptpEverLocked : Bool := false
  /-- PTP_FREERUN. 1 bit. 13 R313, Table 13.6. Reset false. -/
  ptpFreerun : Bool := false
  /-- Last measured offset of TB1 from the grandmaster, in ns, and path delay. 13 R313. Reset 0. -/
  ptpOffset : Int := 0
  /-- Path delay measured by delay request-response, in ns. 13 R313. Reset none. -/
  ptpDelay : Option Int := none
  /-- TB1 time at which a two-step Sync arrived whose Follow_Up is awaited. 64 bits. 13 R313. Reset none. -/
  ptpPending : Option Nat := none
  /-- Grandmaster time less TB1 at the last Sync, in ns, the path delay not taken off. 13 R313. Reset none. -/
  ptpRaw : Option Int := none
  /-- Number of the last Delay_Req. 16 bits. 13 R313. Reset 0. -/
  ptpSeq : Nat := 0
  /-- Delay_Req that awaits its Delay_Resp: its number, and the TB1 time at which it was sent. 13 R313. Reset none. -/
  ptpReq : Option (Nat × Nat) := none
  /-- How REF_OUT took the last increment: full cycles changed, the change of each, and that of one more, in 125 ps. 13 R310. Reset 0. -/
  refTaken : Nat × Int × Int := (0, 0, 0)
  /-- Relay quads. 2 x 5 bits. 13 R318. Reset none. -/
  relay : Option (Nat × Nat) := none
  /-- Relay frame last sent on: port and bytes from destination MAC to FCS. 13 R319. Reset none. -/
  relaySent : Option (Bool × List Byte) := none
  /-- Edge pins 0 to 8: width, lockout, STUCK, last accepted edge. 13 Table 13.4, R324, R325. Reset Table 13.4 defaults. -/
  pins : Tab PinSt := []
  /-- Ticks (TB0 ns) at which a synchronising reset takes effect. 03 R61. Reset none. -/
  resets : List Nat := []
  /-- CHATTER counted and STEP passed since last cleared (Table 13.6 bits 14 and 9). 13 Table 13.6. Reset 0. -/
  chatterSeen : Bool := false
  /-- STEP_SEEN. 1 bit. 13 Table 13.6. Reset 0. -/
  stepSeen : Bool := false
deriving DecidableEq, Repr

/-- Bring-up states of a GUL quad (Table 12.3). Of an Ethernet quad `detect` is auto-negotiation, `train` training, `lock` PCS alignment and
`active` link up (Table 12.9). -/
inductive LinkState where
  | off | detect | train | lock | exchange | active | idle | fault
deriving DecidableEq, Repr

/-- Quad modes (R269). -/
inductive QuadMode where
  | off | gul | eth200 | eth100
deriving DecidableEq, Repr

/-- A CAP set (Table 12.4). -/
structure CapSet where
  rate : Nat := 0
  widths : BitVec 3 := 0
  fec : Nat := 0
  features : BitVec 3 := 0
  ack : Bool := false
  identity : BitVec 64 := 0
  quad : Nat := 0
deriving DecidableEq, Repr

/-- A GUL frame whose END is still to come (R274): kind and length of START, the bytes of its data blocks, and whether a block of it
was invalid. -/
structure RxFrame where
  kind : Byte
  length : Nat
  bytes : List Byte := []
  bad : Bool := false
deriving DecidableEq, Repr

/-- A pattern checker (R293): the bits of the pattern it follows, newest first, the correct bits in a row while it seeks lock, and
while locked the verdicts of the last 1024 bits, newest first, true where wrong. -/
structure Checker where
  hist : List Bool := []
  run : Nat := 0
  wrong : List Bool := []
deriving DecidableEq, Repr

/-- One quad (chapter 12). Reset values: Table 12.8. -/
structure Quad where
  mode : QuadMode := .off
  rate : Nat := 0
  width : Nat := 4
  minWidth : Nat := 4
  fec : Nat := 2
  nap : Bool := false
  idleOn : Bool := false
  idleNs : Nat := 0
  fixedTaps : Bool := false
  state : LinkState := .off
  /-- Width the quad offers in EXCHANGE (R281). -/
  offerWidth : Nat := 4
  /-- Width in use, 0 for none (WIDTH resets to 0b11). -/
  inUse : Nat := 0
  fecOn : Bool := false
  napAgreed : Bool := false
  idleAgreed : Bool := false
  napTx : Bool := false
  napRx : Bool := false
  /-- A NAP_REQ of the own direction awaits its answer. -/
  napAsked : Bool := false
  /-- TB2 time until which the own direction is waking by fast exit (R283, R284). -/
  wakingUntil : Nat := 0
  /-- TB2 time since which every lane has sent and received RX_READY in TRAIN (Table 12.3). -/
  readySince : Option Nat := none
  pattern : Bool := false
  lost : Bool := false
  outFrames : Nat := 0
  /-- Lanes on which a receiver was found (R279). -/
  detected : BitVec 4 := 0
  capNow : CapSet := {}
  capLast : Option CapSet := none
  capSeen : BitVec 3 := 0
  ackSent : Bool := false
  fastExitFailed : Bool := false
  retrained : Bool := false
  frameErr : Bool := false
  /-- TB2 time at which the state was entered (Table 12.3). -/
  since : Nat := 0
  /-- TB2 time at which the stream of blocks began, the block periods of it that each lane has sent, and the alignment count of the last
  ALIGN blocks (R273, R276; log 48). -/
  txFrom : Nat := 0
  txRows : Nat := 0
  txAlign : Nat := 0
  /-- TB2 time from which there has been no frame to send (R283). -/
  lastFrame : Nat := 0
  /-- Frames that wait for a sleeping direction, by kind, oldest first (R284). -/
  txQueue : List (Byte × List Byte) := []
  /-- TB2 time of the first TRAIN block of a fast exit of the partner that has not been accepted (R284). -/
  exitFrom : Option Nat := none
  /-- Blocks of the stream received since codeword lock, which place a block in its codeword (R277, R278). -/
  rxPos : Nat := 0
  /-- GUL frame in progress at the receiver (R274). -/
  rxFrame : Option RxFrame := none
  mac : Option (BitVec 48) := none
  mtu : Nat := 9000
  ipv4 : Option (BitVec 32) := none
  prefix4 : Nat := 0
  ipv6 : Option (BitVec 128) := none
  prefix6 : Nat := 0
  modulePresent : Bool := false
  moduleLowPower : Bool := true
  moduleApp : Option Nat := none
  moduleFlags : List Byte := []
  /-- Identity that the firmware has read of the module, and the host-side signal settings that it has set (R290). -/
  moduleId : List Byte := []
  moduleSignal : Option Nat := none
  /-- MOD_INT_N is asserted (R289, R290). -/
  moduleInt : Bool := false
  /-- Bytes that MODULE.WRITE has written, by bank, page and offset (R291). -/
  moduleBytes : Tab (Option Byte) := []
deriving DecidableEq, Repr

/-- One lane (chapter 12). Taps start at preset P2 (R279). -/
structure Lane where
  blockLock : Bool := false
  deskewed : Bool := false
  codewordLock : Bool := false
  /-- Candidate bit position of the block boundary, and the valid headers in a row found there (R275). -/
  candidate : Nat := 0
  huntRun : Nat := 0
  /-- Headers of the current window of 256 since lock, and the invalid ones among them (R275). -/
  winPos : Nat := 0
  winBad : Nat := 0
  alignCount : Option Nat := none
  /-- ALIGN blocks missed in a row (R276). -/
  alignMissed : Nat := 0
  /-- Codewords decoded since codeword lock, and those of them that could not be corrected (R278). -/
  codewords : Nat := 0
  badCodewords : List Nat := []
  lastSkew : Nat := 0
  taps : List Int := [0, -6, 49, -8, 0]
  atLimit : Bool := false
  rxReadySent : Bool := false
  rxReadyGot : Bool := false
  genPattern : Option (Nat × Nat) := none
  inject : Option (Nat × Nat × Nat × Nat) := none
  checkLock : Bool := false
  checker : Checker := {}
  /-- Bits sent since error injection was set up (R294). -/
  injPos : Nat := 0
  /-- The last 58 scrambled payload bits sent (R271; log 48). -/
  txScrambler : BitVec 58 := 0
  /-- Blocks sent of the codeword in progress (R277). -/
  txWord : List (BitVec 66) := []
  /-- Blocks that the quad's last sending put on the lane, as on the wire: bit 0 first (R271). -/
  sent : List (BitVec 66) := []
  /-- History of the pattern generator, newest first (R292), and the first bit of a PAM4 symbol whose second is still to come. -/
  genHist : List Bool := []
  genHalf : Option Bool := none
  /-- Bits that a pattern, or the last Ethernet frame, put on the lane, and the PAM4 levels of a pattern's bits (R292, R294). -/
  sentBits : List Bool := []
  sentSymbols : List Nat := []
  /-- TB2 time since which the training pattern has been read (R279). -/
  trainFrom : Option Nat := none
deriving DecidableEq, Repr

/-- Serial lanes and modules (chapter 12). -/
structure LaneSt where
  /-- Quads Q00 to Q31: mode 2, rate 2, width 3, MIN_WIDTH 3, FEC 2, NAP, IDLE 1, idle time 24 bits, link state 4, agreed set, CAP sets, sleep bits, W1C bits of Table 12.9, MAC 48, MTU 14, addresses, module. 12 R269, R279 to R291, Tables 12.3, 12.8, 12.9. Reset OFF, width 4, MIN_WIDTH 4, FEC REQUIRED, MTU 9000, WIDTH none. -/
  quads : Tab Quad := []
  /-- Lanes L000 to L127: block lock, deskew, codeword lock, alignment count 16, taps 5 x 7 bits, RX_READY, pattern generator and checker, injection. 12 R270 to R279, R292 to R294, 22 R479. Reset unlocked, preset P2. -/
  lanes : Tab Lane := []
  /-- Module bus speed of masters 0 to 7: 0 100 kHz, 1 400 kHz, 2 1 MHz. 2 bits. 12 R289. Reset 1. -/
  busSpeed : Tab Nat := []
  /-- Quad whose cage each module master 0 to 7 selected last, by MOD_SEL_N. 12 R289. Reset none. -/
  selected : Tab (Option Nat) := []
  /-- Upstream CONTROL frames and relay frames sent in the current second, per quad, against CONTROL_RATE. 13 R318, 12. Reset 0. -/
  controlSent : Tab Nat := []
  /-- Upstream CONTROL frames of each quad: the sequence of the next, 64 bits, and the last one's payload. 12, 19 R429. Reset 0, none. -/
  control : Tab (Nat × List Byte) := []
deriving DecidableEq, Repr

/-- A packet held in the reorder memory (R41, R43). -/
structure Held where
  slot : Nat
  seq : Nat
  samples : List Smp
deriving DecidableEq, Repr

/-- A hole ahead of a held packet: slots lo to hi - 1, its first deadline, the fixed A + W of the second, and that of its lowest
slot where this was fixed earlier, at the release point (R39). -/
structure Hole where
  lo : Nat
  hi : Nat
  first : Nat
  aw : Nat
  point : Option Nat := none
deriving DecidableEq, Repr

/-- A stream's parameters (Table 2.5) but the arrival allowance; n_p is 0 where none have been set. -/
structure StreamCfg where
  input : Nat := 0
  format : Nat := 0
  nfs : Nat := 0
  dfs : Nat := 0
  firstCh : Nat := 0
  chCount : Nat := 0
  np : Nat := 0
deriving DecidableEq, Repr

/-- One run of a stream, from its enable to the slot at which its disable stops it (R49). -/
structure Run where
  cfg : StreamCfg
  /-- First slot. -/
  start : Nat
  /-- First slot that is refused, once disabled. -/
  stop : Option Nat := none
  /-- Release point: the lowest slot not yet handed on. -/
  release : Nat
  /-- A + W in ns fixed for the slot at the release point (R39). -/
  pointAW : Nat
  held : List Held := []
  holes : List Hole := []
  /-- Slot and sequence of the first accepted packet (R38). -/
  base : Option (Nat × Nat) := none
  /-- The last 128 slots released, newest first: slot, and the sequence of the packet that filled it, none if flagged (R42). -/
  recent : List (Nat × Option Nat) := []
  /-- Next label (R47). -/
  nextLabel : Nat
  /-- Samples were discarded since the last one handed on (R47). -/
  dropped : Bool := false
deriving DecidableEq, Repr

/-- A stream context (R36 to R50): parameters, enable, the runs not yet idle (oldest first), arrival offsets in ns. -/
structure Stream where
  cfg : StreamCfg := {}
  allowMs : Nat := 10
  enabled : Bool := false
  runs : List Run := []
  minOff : Option Int := none
  maxOff : Option Int := none
  lastMin : Int := 0
  lastMax : Int := 0
deriving DecidableEq, Repr

/-- Framing kinds (Table 2.1). -/
inductive FlowKind where
  | gul | udp4 | udp6
deriving DecidableEq, Repr

/-- An entry of the flow table (Tables 2.1 and 9.6). Addresses are numbers; a source of none is "any". -/
inductive Flow where
  | ingress (kind : FlowKind) (quads : BitVec 32) (dst dport : Nat) (src : Option Nat) (base count : Nat)
  | egress (kind : FlowKind) (quad : Nat) (vlan : Option Nat) (mac : Nat) (src dst dport sport : Nat)
      (dscp ttl piece age : Nat)
deriving DecidableEq, Repr

/-- An input's delay values (R46): the back buffer (source frame, D), and the changes of what is in force: (source frame,
D, flagged), newest first; before the first, D = 0 and flagged. -/
structure DelayLine where
  back : Option (Nat × Nat) := none
  frames : List (Nat × Nat × Bool) := []
deriving DecidableEq, Repr

/-- Ingest (chapter 02). -/
structure IngestSt where
  /-- Reorder window W in units of 125 us. 5 bits. 02 Table 2.5, R50. Reset 4. -/
  window : Nat := 4
  /-- Stream contexts 0 to 16 383: input 12, format 4, N_fs 32, D_fs 32, first channel 16, channel count 8, n_p 13, A 10 bits; enable, release point, held packets, holes, sequence prediction, last 128 slots, next label, arrival offsets. 02 Table 2.5, R37 to R49. Reset disabled, A = 10 ms, other parameters none (DESIGN CHOICE 3). -/
  streams : Tab Stream := []
  /-- Flow table, 32 768 entries. 02 Table 2.1, 09 Table 9.6. Reset empty. -/
  flows : Tab (Option Flow) := []
  /-- Delay of each input: D 31 bits, back buffer, missing marks. 02 R45, R46. Reset none in place: D 0, flagged. -/
  delays : Tab DelayLine := []
  /-- Packets and bytes classified in the current frame per quad and in all, against R51. 02 R51. Reset 0. -/
  quadPackets : Tab Nat := []
  /-- Packets classified in all in the accounting window. 02 R51. Reset 0. -/
  allPackets : Nat := 0
  /-- Bytes classified in all in the accounting window. 02 R51. Reset 0. -/
  allBytes : Nat := 0
  /-- TB2 time and quad of the last frame that reached ingest, for the order within a cycle. 64 and 5 bits. 02 R42. Reset none. -/
  cycle : Option (Nat × Nat) := none
deriving DecidableEq, Repr

/-- A rotator table (R70), 32-bit turns. -/
structure RotTable where
  phi0 : BitVec 32
  phi1 : BitVec 32
  omega : BitVec 32
deriving DecidableEq, Repr

/-- A statistics set (R75). -/
structure StatSet where
  n : Nat := 0
  sre : Int := 0
  sim : Int := 0
  sre2 : Nat := 0
  sim2 : Nat := 0
  clip : Nat := 0
deriving DecidableEq, Repr

/-- A coefficient swap (R66): frame, length M and the first output, and whether the schedule holds it (R67). -/
structure Swap where
  frame : Nat
  m : Nat
  us : Nat
  planned : Bool := false
deriving DecidableEq, Repr

/-- A channeliser slice (chapter 03). -/
structure Slice where
  g : Nat := 0
  /-- Banks A and B: none holds the vendor prototype of the preset. -/
  bankA : Option (List Int) := none
  bankB : Option (List Int) := none
  activeB : Bool := false
  /-- Swaps in force that have not begun, in order of first output (R65, R66). -/
  swaps : List Swap := []
  /-- Fades begun and not yet passed by every unit: first output, length, whether bank B comes in; newest first (R66). -/
  fades : List (Nat × Nat × Bool) := []
  /-- The held swap (R68). -/
  heldSwap : Option Swap := none
  swapReplaced : Bool := false
  behind : Bool := false
  tableFault : Bool := false
  gainStale : Bool := false
  tapPre : Bool := false
  z : Nat := 0
  interval : Nat := 10
  nextStats : Option (Bool × Nat × Nat) := none
  statNow : Nat := 0
  statLeft : Nat := 10
  statSets : Tab StatSet := []
  readout : Tab StatSet := []
  readoutTag : Option (Nat × Nat) := none
  /-- Sets that the readout bank holds (R77). -/
  readoutSets : Nat := 0
deriving DecidableEq, Repr

/-- A unit of channeliser work: one coarse channel of one input (chapter 03), with its store position (R81). -/
structure ChanUnit where
  slice : Option Nat := none
  /-- Labelled samples released in the current frame, oldest first. -/
  inbox : List (Nat × Smp) := []
  /-- Granule of labels being handed on, and whether a sample of it so far carries the flag code (R48). -/
  granule : Nat × Bool := (0, false)
  /-- Granule bits handed on with the samples that the slice has still to take: granule of labels and its bit, newest first (R48). -/
  granules : List (Nat × Bool) := []
  /-- Granule of fine outputs being emitted, and whether an output of it so far is flagged (R60). -/
  outGranule : Nat × Bool := (0, false)
  /-- Granule bits emitted with the fine outputs: granule of outputs and its bit, newest first, 64 kept (R60). -/
  outGranules : List (Nat × Bool) := []
  /-- Samples released in the previous frame, to be processed now (R54). -/
  work : List (Nat × Smp) := []
  /-- Filter history: the newest samples below the next step, newest first. -/
  hist : List (Nat × Smp) := []
  /-- Steps abandoned under R54. -/
  lateSteps : List Nat := []
  /-- Resets and starts, newest first: reset label, first settling output, end of the settling outputs (R62, R63, R481). -/
  resets : List (Nat × Nat × Nat) := []
  /-- First outputs of starts whose written range has not opened yet, oldest first (R81, R481). -/
  starts : List Nat := []
  /-- Rotator tables: (source frame, table), newest first, 64 kept (R71); none for a missing table. -/
  rots : List (Nat × Option RotTable) := []
  rotBack : Option (Nat × RotTable) := none
  /-- Gains: the source frame from which they apply and (g_m, e) by fine channel, none for no gain yet; newest first (R74). -/
  gains : List (Nat × List (Option (Nat × Nat))) := []
  gainBack : Option (Nat × List (Nat × Nat)) := none
  /-- Staging slots in the Vestibule: key fine channel x 64 + u mod 64 (R80). -/
  staging : Tab Smp := []
  w0 : Option Nat := none
  w1 : Nat := 0
  lost : Option (Nat × Nat) := none
  missed : List Nat := []
  expired : List Nat := []
deriving DecidableEq, Repr

/-- The channeliser (chapter 03). -/
structure ChanSt where
  /-- Slices CS0 to CS31: g 5 bits, banks A and B of P x T x 16 bits, active bank, swap in force and held, status bits of Table 3.4, statistics tap, shift, interval, sets and readout bank. 03 Table 3.6, Table 3.4, R65 to R68, R75 to R77. Reset g 0, vendor prototypes, bank A, POST, 0, 10. -/
  slices : Tab Slice := []
  /-- Units by input x 65 536 + coarse channel: samples in, work, history, reset label, settling end, rotator tables, gains, staging slots, written and lost ranges. 03 R54 to R74, R481, 04 R80, R81. Reset empty (DESIGN CHOICE 3 for SRAM contents). -/
  units : Tab ChanUnit := []
  /-- Preset in Table 3.1 order, the same for every slice. 3 bits. 03 R52, Table 3.6. Reset 2 (STANDARD). -/
  preset : Nat := 2
  /-- Branches P. 7 bits. 03 R52, Table 3.6. Reset 32. -/
  p : Nat := 32
  /-- 8+8-bit output on the direct route. 1 bit. 03 R73. Reset false (4+4). -/
  wide : Bool := false
  /-- Gain mode FIXED. 1 bit. 03 R74. Reset false (AUTO). -/
  gainFixed : Bool := false
  /-- Gain target, binary32. 32 bits. 03 Table 3.6. Reset 0x400C_CCCD (2.2). -/
  gainTarget : BitVec 32 := 0x400CCCCD
  /-- A change of preset or P takes effect at the coming tick: every unit starts once the delays of the new source frame stand.
  1 bit. 03 R481, R482. Reset false. -/
  restart : Bool := false
deriving DecidableEq, Repr

/-- Corner-turn store and Vestibule (chapter 04). -/
structure StoreSt where
  /-- Service region in GiB. 7 bits. 04 R89. Reset 4. -/
  serviceGiB : Nat := 4
  /-- Long-accumulation region in GiB. 12 bits. 04 R89. Reset 0. -/
  laGiB : Nat := 0
  /-- Vestibule samples: key ((buffer x 4096 + input) x 2^23 + index), the sample's 8- or 16-bit code plus one, 0 for none. 04 R85, 01 Table 1.3. Reset empty. -/
  vest : Tab Smp := []
  /-- Direct-route samples by (staged position, input, fine index). 04 R90. Reset empty. -/
  direct : Tab Smp := []
  /-- Channel position and data block held in V0 and V1. 04 R86. Reset none. -/
  held : Tab (Option (Nat × Nat)) := []
  /-- Reads that wait for a held buffer, with their uncorrectable bursts. 04 R86. Reset none. -/
  waiting : List (ChunkItem × List Nat) := []
  /-- Abandoned reads whose buffer another channel still holds: their granules are flagged when it is released. 04 R86. Reset none. -/
  flagWait : List ChunkItem := []
  /-- Direct route: the next data block whose reads have not begun. 64 bits. 04 R90, R92. Reset 0. -/
  directNext : Nat := 0
deriving DecidableEq, Repr

/-- One dump on its way from the beads to its job (R103 to R106, R110): its job (frame begun, number), channel position, tile,
block, index, length L_d, and of its row and column inputs the counts f and the granule set, one bit for each 64 samples. -/
structure Dump where
  job : Nat × Nat
  pos : Nat
  tile : Nat
  block : Nat
  index : Nat
  len : Nat
  frow : List Nat
  fcol : List Nat
  grow : List (List Bool)
  gcol : List (List Bool)
  /-- The last dump of its pass. -/
  last : Bool
  /-- Rows still in the chain, row 255 first; each row holds 256 (re, im, x). -/
  rows : List (List (Int × Int × Nat))
  /-- Words in the landing buffer, oldest first, each with its bead index. -/
  words : List (Nat × Int × Int × Nat) := []
  /-- Words that the landing buffer has moved on to the job, newest first. -/
  moved : List (Nat × Int × Int × Nat) := []
deriving DecidableEq, Repr

/-- One item of a schedule image (Table 16.5), 16 bytes decoded. -/
structure SchedItem where
  kind : Nat
  unit : Nat
  chan : Nat
  entry : Nat
  b8 : Nat
  b9 : Nat
  h10 : Nat
  b12 : Nat
  h12 : Nat
  h14 : Nat
  w8 : Nat
  w12 : Nat
deriving DecidableEq, Repr

/-- An item of the running frame with its data block, taken from the old schedule at a seam or not (R228). -/
structure Work where
  item : SchedItem
  block : Nat
  old : Bool
deriving DecidableEq, Repr

/-- A weight table in the weight registers of an array's beads (R128): its pool slot once one is loaded, its bytes, every one
0 past the list's end, and the lines (row, group of 32 beams) that were loaded as zeros (R129). -/
structure Weights where
  slot : Option Nat := none
  bytes : List Byte := []
  lost : List (Nat × Nat) := []
deriving DecidableEq, Repr

/-- A Filigree array (chapter 05). -/
structure ArraySt where
  /-- Known-answer test failed. Reset false. -/
  katFail : Bool := false
  enabled : Bool := false
  checkOn : Bool := true
  wide : Bool := false
  suspect : Bool := false
  vestUe : Bool := false
  abandoned : Bool := false
  stalled : Bool := false
  mode : BitVec 2 := 0
  /-- Integrations of the running pass that the shadow registers have not taken, in order (R103, R105). -/
  beads : List Dump := []
  /-- Row 0 is due to transfer and the chain is not empty: the array stalls (R105). -/
  stalling : Bool := false
  /-- Dumps in the shadow registers, the chain and the landing buffer, oldest first (R104, R106). -/
  dumps : List Dump := []
  /-- Standby weight registers (R128). Reset DESIGN CHOICE 3: every weight 0. -/
  standby : Weights := {}
  /-- Active weight registers (R128). Reset DESIGN CHOICE 3: every weight 0. -/
  active : Weights := {}
deriving DecidableEq, Repr

/-- Kinds of Clasp job (Table 7.2). -/
inductive JobKind where
  | store | accumulate | accStats | beamSum | detect | peak | longAcc
deriving DecidableEq, Repr

/-- A Clasp job that has begun and not ended (R142 to R166). -/
structure Job where
  /-- Frame in which it begins, and its number there. -/
  frame : Nat
  number : Nat
  /-- Frame of its last scheduled dump or segment, in which it is read out. -/
  due : Nat
  kind : JobKind
  array : Nat
  pos : Nat
  /-- First Locket tile. -/
  tile : Nat
  /-- Tile number of R98. -/
  corrTile : Nat
  block : Nat
  ostream : Nat
  half : Bool := false
  fused : Bool := false
  scaleMode : Nat := 0
  scaleRec : BitVec 32 := 0x3F800000
  biasOn : Bool := false
  curve : Option Nat := none
  format : Nat := 0
  /-- Scheduled dumps: (block, dump, L_d). -/
  dumps : List (Nat × Nat × Nat) := []
  /-- Its data block forms no records (R227). -/
  silent : Bool := false
  /-- Dumps included, in order of arrival. -/
  included : List (Nat × Nat × Nat) := []
  /-- Dumps lost, with the gap reason of each. -/
  lost : List ((Nat × Nat × Nat) × Nat) := []
  /-- The whole product is replaced by gap records of this reason (R201, R231). -/
  gap : Option Nat := none
  lsum : Nat := 0
  frow : List Nat := []
  fcol : List Nat := []
  /-- Exception list by bead index (R148). -/
  exc : Tab Nat := []
  /-- Spill plane: the sum of X by bead index (R149). -/
  plane : Option (Tab Nat) := none
  /-- A dump that has landed and waits for a spill plane or for its DRAM read-modify-write. -/
  arrived : Option Dump := none
  waitTile : Bool := false
  waitSpill : Bool := false
  owns : Bool := false
deriving DecidableEq, Repr

/-- A long accumulation in progress (R156 to R159): first block, blocks scheduled, blocks included, counts, void reason. -/
structure La where
  first : Nat
  count : Nat
  covered : List (Nat × Nat × Nat) := []
  lsum : Nat := 0
  frow : List Nat := []
  fcol : List Nat := []
  exc : Tab Nat := []
  void : Option Nat := none
deriving DecidableEq, Repr

/-- The Clasp and the Locket store (chapter 07). -/
structure ClaspSt where
  /-- Spill reserve in tiles. 5 bits. 07 R149. Reset 4. -/
  spillTiles : Nat := 4
  /-- Jobs begun and not ended, in ascending (due frame, number), with their count descriptors, exception lists and spill planes. 07 R142, R148, R149. Reset none. -/
  jobs : List Job := []
  /-- Owner of each of the 128 tiles: frame and number of its job. 07 R150. Reset free. -/
  owners : Tab (Option (Nat × Nat)) := []
  /-- Locket words: key tile x 65 536 + word, real and imaginary components or sums. 07 R140. Reset 0 (DESIGN CHOICE 3). -/
  words : Tab (Int × Int) := []
  /-- Long accumulations in progress by position x 256 + tile: counts, exception lists, void reason. 07 R157 to R159. Reset none. -/
  las : Tab (Option La) := []
  /-- Long-accumulation state by (position x 256 + tile) x 65 536 + word. 07 R156, R157. Reset 0 (written zero by training). -/
  laWords : Tab (Int × Int) := []
  /-- Scale table by fine channel, binary32. 07 R160. Reset 1.0. -/
  scale : Tab (BitVec 32) := []
  /-- Bias table by fine channel: pair of binary32. 07 R160. Reset 0.0. -/
  bias : Tab (BitVec 32 × BitVec 32) := []
  /-- Transfer curves 0 to 3: 64 triples of binary32; none is the identity. 07 R161. Reset identity. -/
  curves : Tab (Option (List (BitVec 32 × BitVec 32 × BitVec 32))) := []
  /-- W1C bits 9:4, 2:1 of Table 7.5. 32 bits. 07 Table 7.5. Reset 0. -/
  sticky : BitVec 32 := 0
deriving DecidableEq, Repr

/-- A product or record on its way to its Pack engine (R183). -/
structure Item where
  ostream : Nat
  rtype : Nat
  gap : Option Nat
  frame : Nat
  span : Nat
  firstCh : Nat
  chCount : Nat
  firstObj : Nat
  objCount : Nat
  sub : Nat
  flags : BitVec 16
  expOff : Nat
  autoOff : Nat
  payload : List Byte
  counts : List Byte
deriving DecidableEq, Repr

/-- A noise set (R169): channel position, the (block, dump) pairs it is for, and of each input block that has entries the
pairs they come from and the 256 (A, n). -/
structure NoiseSet where
  pos : Nat
  key : List (Nat × Nat)
  entries : Tab (List (Nat × Nat) × List (Nat × Nat))
deriving DecidableEq, Repr

/-- The Facet (chapter 08). -/
structure FacetSt where
  /-- e of each output stream, f = 2^-e, 0 disabled. 3 bits. 08 R179, Table 8.7. Reset 2. -/
  e : Tab Nat := []
  /-- Noise sets in use, at most 64. 08 R169. Reset none. -/
  noise : List NoiseSet := []
  /-- WIDE_SEEN, MISMATCH, MISSING. 3 bits. 08 Table 8.8. Reset 0. -/
  sticky : BitVec 32 := 0
deriving DecidableEq, Repr

/-- One Pack engine (chapter 08). -/
structure Engine where
  /-- Items on their way from the pipes. -/
  incoming : List Item := []
  /-- Items in the input buffer, oldest first (R183). -/
  queue : List Item := []
  /-- Bytes of them that the engine has read, which have left the buffer (R183, Table 8.4). -/
  read : Nat := 0
  /-- The item as it stands in the output buffer for record assembly, 1 MiB (R183, R184). -/
  output : List Byte := []
deriving DecidableEq, Repr

/-- Limits in force for a decode (R188). -/
structure Limits where
  declared : Nat
  opBytes : Nat
  ratio : Nat
deriving DecidableEq, Repr

/-- Pack engines (chapter 08). -/
structure PackSt where
  /-- R_s reserved service engines. 5 bits. 08 R186. Reset 1. -/
  reserved : Nat := 1
  /-- Per-operation limit in MiB. 11 bits. 08 R188. Reset 64. -/
  opLimit : Nat := 64
  /-- Ratio limit. 11 bits. 08 R188. Reset 64. -/
  ratio : Nat := 64
  /-- Engines PK0 to PK15: incoming items, input buffer. 08 R183. Reset empty. -/
  engines : Tab Engine := []
  /-- Service operations accepted so far. 64 bits. 08 R186. Reset 0. -/
  opSeq : Nat := 0
  /-- LAST_DECODE_REASON. 4 bits. 08 Table 8.9. Reset 0. -/
  lastReason : Nat := 0
  /-- DECODE_FAILED, ABANDONED, FULL. 3 bits. 08 Table 8.9. Reset 0. -/
  sticky : BitVec 32 := 0
  /-- Compression of each output stream as the stream bindings of the schedule last applied give it. 1 bit each. 08 Table 8.7. Reset off. -/
  compress : Tab Bool := []
deriving DecidableEq, Repr

/-- An output stream (R191). -/
structure OStream where
  beamPipe : Bool
  engine : Nat
  ring : Bool
  dest : Nat
  base : Nat
  /-- Planning ratio, binary32. -/
  planning : BitVec 32
  next : Nat
  formed : Bool := false
deriving DecidableEq, Repr

/-- A formed record (R192, R193). -/
structure Rec where
  ostream : Nat
  seq : Nat
  header : List Byte
  payload : List Byte
  counts : List Byte
  gap : Bool
  frame : Nat
  item : Item
  /-- Place in the order in which record assembly completed the records of every stream (R211). -/
  order : Nat
deriving DecidableEq, Repr

/-- One datagram as it leaves a quad (R203, Table 9.7). -/
structure Datagram where
  ostream : Nat
  seq : Nat
  index : Nat
  offset : Nat
  total : Nat
  first : Bool
  last : Bool
  /-- UDP payload: the segment header and the piece. -/
  bytes : List Byte
  /-- The Ethernet frame that carries it, FCS included (R204). -/
  frame : List Byte
deriving DecidableEq, Repr

/-- An egress quad (R206 to R209). -/
structure EgressQuad where
  share : Nat := 0
  /-- Queue of records, oldest first, each with its egress entry as it stood at the record's admission and the index of its next
  datagram (R203, R206; log 46). -/
  queue : List (Rec × Flow × Nat) := []
  /-- The head record was cut by the allow-list: the rest is discarded. -/
  denying : Bool := false
  /-- Rate-cap bucket in bytes (R208). -/
  bucket : Nat := 65536
  /-- GTS of the last fill of the bucket. -/
  filled : Nat := 0
  sent : Option Datagram := none
  sticky : BitVec 32 := 0
deriving DecidableEq, Repr

/-- A host ring (R211). -/
structure HostRing where
  dma : Nat
  log2 : Nat
  age : Nat
  base : Nat
  write : Nat := 0
  suspended : Bool := false
  queue : List Rec := []
deriving DecidableEq, Repr

/-- Discards of one stream for one reason within one frame (R213): stream, reason, count, first, last. -/
structure Discard where
  ostream : Nat
  reason : Nat
  count : Nat
  first : Nat
  last : Nat
deriving DecidableEq, Repr

/-- Output records and egress (chapter 09). -/
structure OutSt where
  /-- Output streams 0 to 4095: pipe, engine, destination, base 64, planning ratio, next sequence 64 bits. 09 R191, R192. Reset none created. -/
  streams : Tab (Option OStream) := []
  /-- Egress quads: buffer share, queue, header slots, rate-cap bucket, status bits. 09 R206 to R209. Reset equal shares, empty. -/
  quads : Tab EgressQuad := []
  /-- Host rings 0 to 15: channel, size, age, base, indices. 09 R211, R212. Reset none. -/
  rings : Tab (Option HostRing) := []
  /-- Discards of the current frame, oldest first. 09 R213. Reset none. -/
  discards : List Discard := []
  /-- EGRESS.CONFIG has set the shares; until then they are equal. 1 bit. 09 Table 9.9. Reset false. -/
  shared : Bool := false
  /-- Records completed so far, over all streams: the order of R211's writes. The model's own. Reset 0. -/
  order : Nat := 0
deriving DecidableEq, Repr

/-- A beam set's configuration (Table 6.4). -/
structure BeamSet where
  beams : Nat := 256
  g : Nat := 1
  power : Bool := true
  nint : Nat := 4096
  nmin : Option Nat := none
deriving DecidableEq, Repr

/-- An in-use weight map generation (R127): first block and slots by (set, group, input block). -/
structure MapGen where
  ks : Nat
  slots : List Nat
deriving DecidableEq, Repr

/-- A segment buffer (R130, R131): channel position, set, data block, segment, its job (frame begun, number), rounds written and
to write, and what the rounds have summed. -/
structure SegBuf where
  pos : Nat
  set : Nat
  block : Nat
  m : Nat
  job : Nat × Nat
  rounds : Nat := 0
  need : Nat
  /-- Per sample: summed X, and per beam the summed (re, im). -/
  sums : List (Nat × List (Int × Int)) := []
  /-- Groups of 32 beams whose weights were lost (R129). -/
  badBeams : List Nat := []
  /-- A word was found uncorrectable as a round was added (R154). -/
  void : Bool := false
deriving DecidableEq, Repr

/-- A round of a segment whose sums are on their way down the chains, behind the shadow rows (R108, R130): its work item, its run's
job, the rounds of a segment, its sums and the groups of 32 beams whose weights were lost. -/
structure BeamRound where
  work : Work
  job : Nat × Nat
  need : Nat
  sums : List (Nat × List (Int × Int))
  badBeams : List Nat := []
  /-- Locket words that its adds will find corrected, and whether they will find one uncorrectable (R154). -/
  ce : Nat := 0
  ue : Bool := false
deriving DecidableEq, Repr

/-- A SHED segment whose gap records wait for those of the frame that come before them (R201): its run's job, its set and number, and the
segments that it waits for. -/
structure ShedSeg where
  job : Job
  set : Nat
  m : Nat
  before : List (Nat × Nat × Nat × Nat) := []
deriving DecidableEq, Repr

/-- A power window longer than a segment, partly formed (R134): per beam the power, the samples included, the groups of 32 beams
whose weights were lost (R129), and the gap reason once a segment of it is lost. -/
structure Partial where
  powers : List Nat := []
  np : Nat := 0
  bad : List Nat := []
  gap : Option Nat := none
deriving DecidableEq, Repr

/-- Statistics of a beam in a block (R135). -/
structure BeamStat where
  n : Nat := 0
  sre : Int := 0
  sim : Int := 0
  sq : Nat := 0
deriving DecidableEq, Repr

/-- Statistics of a set's beams in a channel and block (R135): the segments included, and a gap reason (R129, R231). -/
structure BeamSum where
  beams : List BeamStat := []
  segs : Nat := 0
  gap : Option Nat := none
deriving DecidableEq, Repr

/-- A candidate of a peak list (R136): P, u, fine channel. -/
structure Peak where
  p : Nat
  u : Nat
  ch : Nat
deriving DecidableEq, Repr

/-- A peak list being formed (R136, R137): its stream, the values lost and ranked, a gap reason (R231), and whether it forms a
record (R227). -/
structure PeakList where
  list : List Peak := []
  lost : Nat := 0
  ranked : Nat := 0
  gap : Option Nat := none
  ostream : Nat := 0
  silent : Bool := false
deriving DecidableEq, Repr

/-- A watch beam (R136): its beam, and the lists that have begun, by the first block of the interval or of the part of an
interval that follows a schedule switch within it (R229). -/
structure Watch where
  beam : Option Nat := none
  lists : Tab (Option PeakList) := []
deriving DecidableEq, Repr

/-- Beam mode (chapter 06). -/
structure BeamSt where
  /-- Beam sets in use, 1 to 4. 3 bits. 06 Table 6.4. Reset 1. -/
  setCount : Nat := 1
  /-- Sets 0 to 3: beams per set, G, output kind, n_int, n_min. 06 Table 6.4. Reset 256, 1, power, 4096, half of N. -/
  sets : Tab BeamSet := []
  /-- Weight pool size Q. 14 bits. 06 Table 6.4. Reset 0. -/
  pool : Nat := 0
  /-- Segment length L_s. 14 bits. 06 Table 6.4. Reset 4096. -/
  segLen : Nat := 4096
  /-- Weight tables of pool slots: 131 072 bytes each. 06 R126. Reset none loaded. -/
  tables : Tab (List Byte) := []
  /-- Slots marked bad, with the beams (32-groups) lost. 06 R129. Reset none. -/
  bad : Tab (List Nat) := []
  /-- Map generations in use, oldest first. 06 R127. Reset none. -/
  gens : List MapGen := []
  /-- Latest block a beam segment of which has begun. 06 R127. Reset none. -/
  begunBlock : Option Nat := none
  /-- Rounds whose sums are in the chains, oldest first. 06 R108, R130. Reset none. -/
  behind : List BeamRound := []
  /-- SHED segments whose gap records have not had their turn, in job order. 09 R201. Reset none. -/
  shedLater : List ShedSeg := []
  /-- Segment buffers being summed or read out. 06 R130, R131. Reset none. -/
  bufs : List SegBuf := []
  /-- Power windows longer than a segment, by ((block x 4 + set) x 65 536 + position) x 65 536 + window. 06 R134. Reset none. -/
  partials : Tab Partial := []
  /-- Statistics partials by (block x 4 + set) x 65 536 + position: per beam the sums, and the segments included. 06 R135. Reset none. -/
  stats : Tab BeamSum := []
  /-- Watch beams 0 to 15. 06 R136. Reset none. -/
  watches : Tab Watch := []
  /-- Search interval I_s in blocks. 7 bits. 06 R136. Reset 1. -/
  searchBlocks : Nat := 1
  /-- W1C bits of Table 6.5. 32 bits. 06 Table 6.5. Reset 0. -/
  sticky : BitVec 32 := 0
deriving DecidableEq, Repr

/-- Destinations of pending peg results. -/
inductive PegDest where
  | g (r : BitVec 5) | acc (k : Nat) | stat | loopCount (k : Nat) | loopStart (k : Nat) | loopEnd (k : Nat)
  | spc | sstat | ivb | fev
deriving DecidableEq, Repr

/-- A result on its way through the exposed pipeline (R248): the cycle from which an instruction sees it. -/
structure PegWrite where
  due : Nat
  dest : PegDest
  value : Int
deriving DecidableEq, Repr

/-- Peg fault codes (R261). -/
inductive PegFault where
  | illegal | misaligned | range | dmemUe | imemUe
deriving DecidableEq, Repr

/-- A queued peg transfer (R245). -/
structure QueuedXfer where
  t : Transfer
  bit : Nat
deriving DecidableEq, Repr

/-- One peg (Table 11.2). No reset value is given for most registers: zero, DESIGN CHOICE 3. -/
structure Peg where
  /-- g0 to g31 as instructions see them. -/
  g : Tab (BitVec 32) := []
  p : Tab (BitVec 32) := []
  m : Tab (BitVec 32) := []
  cb : Tab (BitVec 32) := []
  cl : Tab (BitVec 32) := []
  /-- Accumulators with every issued product added: 40-bit two's complement values. -/
  acc : Tab Int := []
  /-- Accumulators as ACCRD and moves see them (delay 4). -/
  accSeen : Tab Int := []
  lc : Tab (BitVec 32) := []
  ls : Tab (BitVec 16) := []
  le : Tab (BitVec 16) := []
  pc : BitVec 16 := 0
  /-- stat bits as software reads them (Table 11.8); reset 0 with QUAD from the schedule. -/
  stat : BitVec 32 := 0
  spc : BitVec 16 := 0
  sstat : BitVec 32 := 0
  ivb : BitVec 16 := 0
  fev : BitVec 16 := 0
  xstat : BitVec 32 := 0
  cyc : Nat := 0
  compare : Option Nat := none
  writes : List PegWrite := []
  /-- Delay slots still to issue and what follows them: a target, none for fall through, with RETI's restore. -/
  slots : Nat := 0
  target : Option (BitVec 16) := none
  returning : Bool := false
  /-- The delay slots are those of a LOOP that enters its body: loop tests go on in them (R255). -/
  loopSlots : Bool := false
  waiting : Bool := false
  /-- It has been loaded and starts at fev at the next tick (log 19). -/
  start : Bool := false
  /-- It has issued an instruction since the last tick (R259; log 19). -/
  ran : Bool := false
  stopped : Option (PegFault × BitVec 32) := none
  lastFault : Option (PegFault × BitVec 32) := none
  customer : Bool := false
  queue : List QueuedXfer := []
  nextBit : Nat := 0
  data : Memory := []
deriving DecidableEq, Repr

/-- The pegs (chapter 11). -/
structure PegSt where
  /-- Pegs 0 to 255: the registers of Table 11.2, pipeline, transfer queue, data memory. 11 R247, Table 11.2, R245. Reset 0 where none is given (DESIGN CHOICE 3). -/
  pegs : Tab Peg := []
  /-- Pitch shared memories, key pitch x 2^20 + offset. 11 R243. Reset 0 (DESIGN CHOICE 3). -/
  shared : Memory := []
  /-- Peg instruction memories, key peg x 65 536 + byte. 11 R243. Reset 0 (DESIGN CHOICE 3). -/
  imem : Memory := []
  /-- Services assigned to pitches, Table 11.9 order from 1, 0 none. 3 bits. 11 R267, Table 11.10. Reset the bundle's default map: Table 11.9 (DESIGN CHOICE 3). -/
  services : Tab Nat := []
  /-- Pitches in scalar mode. 1 bit each. 11 R251. Reset quad. -/
  scalar : Tab Bool := []
  /-- Pegs that hold a customer kernel. 11 R267. Reset none. -/
  kernels : Tab (List Byte) := []
  /-- Back buffers being filled, with the bytes the transfers have moved so far. 11 R246. Reset none. -/
  back : List (FrameTable × List Byte) := []
deriving DecidableEq, Repr

/-- A decoded schedule image (R377). -/
structure Image where
  identity : Nat
  throttle : Bool
  direct : Bool
  period : Nat
  len : Nat
  blocks : Nat
  wide : Bool
  entries : Nat
  dmax : Nat
  parent : Nat
  channels : List Nat
  items : List SchedItem
deriving DecidableEq, Repr

/-- A verdict with its report (R222): none VALID, or the check code with its entry, the unit kind (row of Table 10.3 from 0),
instance, charge and budget at fault; and the least margin of each unit kind, in millionths of its budget. -/
structure Verdict where
  code : Option Nat
  entry : Nat
  unit : Nat
  inst : Nat
  used : Nat
  avail : Nat
  margins : List Nat
deriving DecidableEq, Repr

/-- A schedule slot (R216). -/
structure SchedSlot where
  image : Option Image := none
  verdict : Option Verdict := none
  /-- Bytes of the stored image (R341). -/
  size : Nat := 0
deriving DecidableEq, Repr

/-- The transaction in force (R236 to R241). -/
inductive TxnState where
  | none | opened (id : Nat) | pending (id : Nat)
deriving DecidableEq, Repr

/-- The commit that is pending: frame, its request, trigger, and whether validation is done. -/
structure Commit where
  na : Nat
  req : Request
  trigger : Option Nat
  accepted : Nat
  validated : Bool
deriving DecidableEq, Repr

/-- Frame schedule and transactions (chapter 10). -/
structure SchedSt where
  /-- Schedule slots 0 to 3: image, verdict, report. 10 R216. Reset empty. -/
  slots : Tab SchedSlot := []
  /-- Slot of the committed schedule. 2 bits. 10 Table 10.8. Reset none. -/
  committed : Option Nat := none
  /-- Image in force, kept while the slot runs. 10 R218. Reset none. -/
  running : Option Image := none
  /-- Images of old schedules at seams, each with the first block of the one that followed it, oldest first. 10 R228. Reset none. -/
  seam : List (Image × Nat) := []
  /-- λ (λ_d) of the schedule in force as it was last validated. 16 bits. 04 R82, R90, 10 R235. Reset 0. -/
  lag : Nat := 0
  /-- Selected throttle slot. 2 bits. 10 Table 10.8. Reset NULL. -/
  throttle : Option Nat := none
  /-- Throttle items are running. 1 bit. 10 R231. Reset false. -/
  throttled : Bool := false
  /-- Items of the running frame that have not run, in the schedule's order. 10 R13, R218, R228. Reset none. -/
  work : List Work := []
  /-- Channel positions and data blocks whose work has begun and whose last scheduled frame has not ended. 09 R201. Reset none. -/
  begun : List (Nat × Nat) := []
  /-- Products that have lost an item to the throttle: position, data block, and none for
  the fill, or set x 65 536 + m for a beam segment. 10 R231, R232. Reset none. -/
  shed : List (Nat × Nat × Option Nat) := []
  /-- First blocks of the start and of schedule switches, of which the last 128 blocks are kept: no search interval is longer than 64.
  64 bits each. 10 R227 to R229. Reset none. -/
  cuts : List Nat := []
  /-- First data block that forms records. 64 bits. 10 R227. Reset 0. -/
  firstBlock : Nat := 0
  /-- Abandon storm count F. 11 bits. 10 R226. Reset 16. -/
  stormF : Nat := 16
  /-- Consecutive frames with abandons of each unit, by kind x 1024 + instance. 11 bits. 10 R226. Reset 0. -/
  stormRun : Tab Nat := []
  /-- Abandons of the current frame per unit kind. 10 R225. Reset 0. -/
  abandonNow : Tab Nat := []
  /-- Units that have abandoned work in the current frame, by kind x 1024 + instance. 10 R226. Reset none. -/
  abandonedBy : List Nat := []
  /-- Loads waiting for a verdict, oldest first: slot, request, and the image, none where it is malformed. 10 R217. Reset none. -/
  verdictQueue : List (Nat × Request × List Byte) := []
  /-- Open or pending transaction. 10 R236, R238. Reset none. -/
  txn : TxnState := .none
  /-- Last id given. 32 bits. 10 R236. Reset 0. -/
  lastId : Nat := 0
  /-- Staged commands in doorbell order, with decoded data of loads. 10 R237. Reset none. -/
  staged : List (Instr × List Byte) := []
  /-- TB2 time of the last command that carried the open id. 64 bits. 10 R240. Reset 0. -/
  lastUse : Nat := 0
  /-- The pending commit. 10 R238. Reset none. -/
  commit : Option Commit := none
  /-- ABANDON_STORM and ABANDONED. 2 bits. 10 Table 10.8. Reset 0. -/
  sticky : BitVec 32 := 0
deriving DecidableEq, Repr

/-- A DRAM channel (chapter 14). -/
structure DramCh where
  capGiB : Nat := 0
  trained : Bool := false
  excluded : Bool := false
  lost : Bool := false
  /-- Consecutive rounds in which each DIMM's hub stood above 95 degC (Table 20.7). -/
  hotRounds : Tab Nat := []
  /-- Consecutive rounds in which every hub stood at or below 92 degC (Table 20.7). -/
  coolRounds : Nat := 0
  eyeLow : Bool := false
  ueSeen : Bool := false
  ceSeen : Bool := false
  /-- Page predictor counters and open rows by bank (R333). -/
  pageCtr : Tab Nat := []
  openRow : Tab (Option Nat) := []
  lastRow : Tab (Option Nat) := []
  postponed : Tab Nat := []
  /-- UEs of the current frame: count, first address, first TB2 time (R336). -/
  ueFrame : Option (Nat × Nat × Nat) := none
  /-- UEs of the current TB0 second (R338). -/
  ueSecond : Nat := 0
  /-- DIMMs as BOOT read them from SPD (R327, R328). -/
  dimms : List Dimm := []
  /-- Hub temperature of each DIMM, in 1/16 degC (R335). -/
  hubTemps : Tab Int := []
deriving DecidableEq, Repr

/-- What a waiting DRAM request asks: the write of a store burst of a unit's granule, with the TB2 time of its issue (R80, R81); another
write; an RFI flag write (R266); or a read, with the devices whose symbols are in error (R334, R336). -/
inductive DramAsk where
  | store (unit granule : Nat) (bytes : List Byte) (issued : Nat)
  | write (bytes : List Byte)
  | flag
  | read (devices : List Nat)
deriving DecidableEq, Repr

/-- A request that waits at a DRAM controller, of a class of R87 (R334). -/
structure DramReq where
  cls : Nat
  addr : Nat
  kind : DramAsk
deriving DecidableEq, Repr

/-- DRAM controllers (chapter 14). -/
structure DramSt where
  /-- Channels DC0 to DC11: capacity 5, trained, excluded, lost, temperatures, page counters 2 bits per bank, refresh state, status bits of Table 14.7. 14 R327 to R342. Reset untrained. -/
  chans : Tab DramCh := []
  /-- Speed code of Table 14.7 in use. 4 bits. 14 Table 14.7. Reset 0. -/
  speed : Nat := 0
  /-- Speed cap for the next BOOT, none. 4 bits. 14 R332. Reset none. -/
  speedCap : Option Nat := none
  /-- Channels excluded from the next BOOT. 12 bits. 14 R332. Reset 0. -/
  excludeNext : BitVec 12 := 0
  /-- DRAM contents by DRAM address. 8 bits each. 14 R330, R339. Reset 0: training writes zero (R330). -/
  mem : Memory := []
  /-- Waiting requests, store bursts among them, in arrival order, with their class of R87. 04 R80, R81, 14 R334. Reset none. -/
  queue : List DramReq := []
  /-- Trained read and write delays by byte lane, in 1/64 UI. 14 R330, R331. Reset 0 (DESIGN CHOICE 3). -/
  delays : Tab (Int × Int) := []
  /-- Granules of the schedule slots (0 to 3) and of the Ridge's state (4) whose copy was met uncorrectable: object, granule, second copy. 14 R337, R341. Reset none. -/
  badCopies : List (Nat × Nat × Bool) := []
  /-- Trained receiver and write Vref by byte lane. 14 R330, R331. Reset 0 (DESIGN CHOICE 3). -/
  vrefs : Tab (Nat × Nat) := []
deriving DecidableEq, Repr

/-- States of a mailbox slot (Table 15.5). -/
inductive SlotState where
  | free | posted | active | done
deriving DecidableEq, Repr

/-- A mailbox response (Table 16.2). -/
structure Response where
  opcode : BitVec 16
  status : Status
  tag : BitVec 32
  txnId : Nat
  detail : Nat
  frame : Nat
  result : List Byte
deriving DecidableEq, Repr

/-- A mailbox slot (R348, R366). -/
structure Slot where
  state : SlotState := .free
  request : Memory := []
  response : Option Response := none
deriving DecidableEq, Repr

/-- An interrupt cause (R358). -/
structure IntCause where
  vector : Nat
  count : Nat
  timeUs : Nat
  /-- Occurrences not yet announced, and the TB2 time of the first. -/
  waiting : Nat := 0
  since : Nat := 0
deriving DecidableEq, Repr

/-- The host interface (chapter 15). -/
structure HostSt where
  /-- Mailbox slots 0 to 7: state 2 bits, request half and response half 4 KiB each. 15 Table 15.5, R366. Reset FREE; contents 0 (DESIGN CHOICE 3). -/
  slots : Tab Slot := []
  /-- Doorbells accepted and not yet begun, in doorbell order. 15 R349. Reset none. -/
  queue : List Nat := []
  /-- The request the Ridge has begun, and whether its response is to be discarded (R359). 15 R351. Reset none. -/
  active : Option (Instr × Nat × Bool) := none
  /-- Result of the active STATUS request, sampled as the Ridge began it. 16 R374. Reset none. -/
  sample : Option (List Byte) := none
  /-- INT_CAUSE. 32 bits. 15 Table 15.4. Reset 0. -/
  intCause : BitVec 32 := 0
  /-- INT_MASK. 32 bits. 15 Table 15.4. Reset 0. -/
  intMask : BitVec 32 := 0
  /-- Causes: VECTOR 6 bits, COALESCE 12 + 20 bits, occurrences not yet announced. 15 R358, Tables 15.4, 15.7. Reset defaults of Table 15.7. -/
  causes : Tab IntCause := []
  /-- MSI-X table words by offset in the table, and pending bits. 15 Table 15.2. Reset vectors masked, 0 (DESIGN CHOICE 3). -/
  msix : Memory := []
  /-- MSI-X messages sent, newest first: their vectors. 15 R358. Reset none. -/
  messages : List Nat := []
  /-- LAST_REQUESTER. 16 bits. 15 R365. Reset 0 (DESIGN CHOICE 3). -/
  lastRequester : BitVec 16 := 0
  /-- REQUESTER_CHANGED. 1 bit. 15 R365. Reset false. -/
  requesterChanged : Bool := false
  /-- A doorbell has been accepted since reset (there is a previous requester). 15 R365. Reset false. -/
  anyRequester : Bool := false
  /-- Bus Master Enable. 1 bit. 15 R345. Reset false (PRESUMED: the PCIe default; log 17). -/
  busMaster : Bool := false
  /-- Function in D3hot. 1 bit. 15 R345. Reset false. -/
  d3hot : Bool := false
  /-- Configuration space beside those two: device control, MSI-X enable and function mask. 15 R343, Table 15.1. Reset PRESUMED: payload 128, read request 512 bytes, the rest 0 (log 17). -/
  pcie : PcieControl := {}
  /-- AER uncorrectable error status. 32 bits. 15 R343, R346. Reset 0 (PRESUMED: log 17). -/
  aer : BitVec 32 := 0
  /-- Link speed 0x1 to 0x5. 4 bits. 15 Table 15.3. Reset 0. -/
  speed : Nat := 0
  /-- Link width. 4 bits. 15 Table 15.3. Reset 0. -/
  width : Nat := 0
  /-- HOSTRING_READ[k]: the read indices of host rings, as last written or as HOSTRING.CONFIG sets them. 16 x 64 bits. 15 Table 15.4, 09 R211. Reset 0 (DESIGN CHOICE 3). -/
  ringReads : Tab Nat := []
  /-- Data the host's last read-and-clear returned. 64 bits. 00 Table 0.4 (RC). Reset 0: the model's own, for the read completion. -/
  readData : Nat := 0
  /-- Commands answered ACCEPTED and not yet complete, oldest first. 15 R352. Reset none. -/
  owed : List (Instr × Request) := []
  /-- Host memory as the SV4 reaches it. 8 bits each. 15 R353, R355, 09 R211. Reset 0 (DESIGN CHOICE 4). -/
  mem : Memory := []
deriving DecidableEq, Repr

/-- An event (Table 15.9) waiting to be written. -/
structure Event where
  gts : Nat
  frame : Nat
  code : Nat
  source : Nat
  alarm : Bool
  completion : Bool
  afterLoss : Bool
  payload : List Byte
deriving DecidableEq, Repr

/-- The event ring (chapter 15). -/
structure EvrSt where
  /-- EVR_BASE. 64 bits. 15 Table 15.8. Reset 0 (DESIGN CHOICE 3). -/
  base : Nat := 0
  /-- EVR_CTRL ENABLE. 1 bit. 15 Table 15.8. Reset 0. -/
  enable : Bool := false
  /-- EVR_CTRL OVERFLOWED. 1 bit. 15 R357. Reset 0. -/
  overflowed : Bool := false
  /-- EVR_CTRL BASE_DENIED. 1 bit. 15 R354. Reset 0. -/
  baseDenied : Bool := false
  /-- EVR_READ. 64 bits. 15 Table 15.8. Reset 0 (DESIGN CHOICE 3). -/
  read : Nat := 0
  /-- EVR_WRITE. 64 bits. 15 R355. Reset 0 (counted from BOOT). -/
  write : Nat := 0
  /-- EVR_LOST. 64 bits. 15 R357. Reset 0. -/
  lost : Nat := 0
  /-- Events raised and not yet written, in ascending (GTS, source). 15 R356. Reset none. -/
  due : List Event := []
  /-- Entries held in the 1024-entry buffer, in order. 15 R357. Reset none. -/
  held : List Event := []
  /-- Discards not yet reported: count, GTS of the first and last. 15 R357. Reset none. -/
  gap : Option (Nat × Nat × Nat) := none
deriving DecidableEq, Repr

/-- A DMA host window (Table 15.10). -/
structure Window where
  base : Nat := 0
  limit : Nat := 0
  valid : Bool := false
  write : Bool := false
  read : Bool := false
deriving DecidableEq, Repr

/-- An allow-list entry (Table 15.10). -/
structure Allow where
  addr : Nat := 0
  prefixLen : Nat := 0
  portLo : Nat := 0
  portHi : Nat := 0
  valid : Bool := false
  ipv6 : Bool := false
deriving DecidableEq, Repr

/-- The Tether window (chapter 15, R361 to R363). -/
structure TetherSt where
  /-- LOCK. 1 bit. 15 R363. Reset 0. -/
  lock : Bool := false
  /-- QUAD_ENABLE. 32 bits. 15 Table 15.10. Reset 0xFFFF_FFFF. -/
  quadEnable : BitVec 32 := 0xFFFFFFFF
  /-- TIMING_OUT_ENABLE. 1 bit. 15 Table 15.10. Reset 0. -/
  timingOut : Bool := false
  /-- CONTROL_RATE. 20 bits. 15 Table 15.10. Reset 10 000. -/
  controlRate : Nat := 10000
  /-- RATE_CAP[k] in Gb/s, none for line rate. 10 bits. 15 Table 15.10. Reset line rate. -/
  rateCaps : Tab (Option Nat) := []
  /-- DMA host windows 0 to 15. 15 Table 15.10. Reset not VALID. -/
  windows : Tab Window := []
  /-- Allow-list entries 0 to 255. 15 Table 15.10. Reset not VALID. -/
  allow : Tab Allow := []
  /-- Shadow bytes of entries being written, by window offset. 15 R362. Reset 0 (DESIGN CHOICE 3). -/
  shadow : Memory := []
deriving DecidableEq, Repr

/-- A DMA descriptor (Table 17.4). -/
structure Desc where
  src : Nat
  dst : Nat
  len : Nat
  srcSpace : Nat
  dstSpace : Nat
  /-- log2 of the source and destination beat widths. -/
  srcWidth : Nat := 6
  dstWidth : Nat := 6
  /-- CONTROL bit 0. -/
  interrupt : Bool := true
  /-- The reserved bits of CONTROL and of bytes 26 to 27. -/
  reserved : Nat := 0
  tag : BitVec 32
  req : Request
  /-- DMA.ABORT names the channel while this descriptor is queued or running (R390). -/
  abort : Bool := false
deriving DecidableEq, Repr

/-- A DMA channel (chapter 17). -/
structure DmaCh where
  queue : List Desc := []
  /-- Bytes that the read engine has fetched of the running descriptor. -/
  fetched : Nat := 0
  /-- Whole bursts in the channel's 32 KiB share of the DMA buffer, oldest first: their place in the copy and their bytes (R386). -/
  buffer : List (Nat × List Byte) := []
  /-- Holding register, 128 bytes (R387). -/
  holding : List Byte := []
  /-- Bytes issued of the running descriptor. -/
  issued : Nat := 0
  /-- First error of the running descriptor (Table 17.5 code). -/
  error : Option Nat := none
  lastStatus : Nat := 0
  /-- The channel's completion record: status, TAG and residue of its last descriptor (R389). -/
  record : Nat × BitVec 32 × Nat := (0, 0, 0)
  sticky : BitVec 32 := 0
deriving DecidableEq, Repr

/-- A request waiting at a target port (R379, R381): its master, first address, bytes, beats, the data that it writes, none for a read,
and its arrival cycle. -/
structure PortReq where
  master : Nat
  addr : Nat
  bytes : Nat
  beats : Nat
  data : List Byte
  arrival : Nat
deriving DecidableEq, Repr

/-- A crossbar target port (R381 to R383). Cycles are TB2 ns: the fabric clock runs at 1.0 GHz (R379). -/
structure Port where
  pointer : Nat := 0
  down : Bool := false
  idle : Bool := true
  /-- Cycle from which the port is free. -/
  freeAt : Nat := 0
  /-- Master of the request granted last and not yet answered. -/
  holder : Option Nat := none
  /-- Requests not yet granted. -/
  waiting : List PortReq := []
deriving DecidableEq, Repr

/-- DMA channels and the crossbar (chapter 17). -/
structure DmaSt where
  /-- Channels DMA0 to DMA15: descriptor queue of 16, fetched and issued counts 32 bits, share of the buffer 32 KiB, holding register 128
  bytes, completion record, status bits of Table 17.6. 17 R385 to R393. Reset empty (record: DESIGN CHOICE 3). -/
  chans : Tab DmaCh := []
  /-- Target ports 0 and 2 to 7 of Table 17.1, and 16 + k for pitch k: round-robin pointer 5 bits, idle, down, cycle at which it is free, holder, pending requests. 17 R381 to R383. Reset pointer 0, idle. -/
  ports : Tab Port := []
  /-- Channels that the read and the write engine served last, from which they go round. 2 x 4 bits. 17 R386. Reset 15 (DESIGN CHOICE 3). -/
  turn : Nat := 15
  writeTurn : Nat := 15
  /-- First default-target address of the current frame per master. 64 bits. 17 R380. Reset none. -/
  firstDefault : Tab (Option Nat) := []
deriving DecidableEq, Repr

/-- State of a firmware bank (R399). -/
inductive BankState where
  | empty | valid | pending | failed
deriving DecidableEq, Repr

/-- One copy of the bank control block (R399). -/
structure BankControl where
  /-- Its valid mark is written and its CRC-32C is right. 18 R399. Reset false. -/
  valid : Bool := false
  /-- Sequence number. 32 bits. 18 R399. Reset 0 (DESIGN CHOICE 3: non-volatile). -/
  seq : Nat := 0
  /-- States of the banks A and B. 2 bits each. 18 R399. Reset VALID and EMPTY (DESIGN CHOICE 3: non-volatile). -/
  stateA : BankState := .valid
  stateB : BankState := .empty
  /-- Firmware versions of the banks A and B. 64 bits each. 18 R399. Reset 0 (DESIGN CHOICE 3: non-volatile). -/
  versionA : Nat := 0
  versionB : Nat := 0
  /-- Active bank is B. 1 bit. 18 R399. Reset false (DESIGN CHOICE 3: non-volatile). -/
  activeB : Bool := false
deriving DecidableEq, Repr

/-- Start-up, firmware and trust (chapter 18). -/
structure BootSt where
  /-- MRAM bytes, 4 MiB. 8 bits each. 18 Table 18.2. Reset 0 (DESIGN CHOICE 3: non-volatile, contents not stated). -/
  mram : Memory := []
  /-- The first copy of bank control. 18 R399. Reset valid, its other values as BankControl's (DESIGN CHOICE 3: non-volatile). -/
  copy0 : BankControl := { valid := true }
  /-- The second copy. 18 R399. Reset without a valid mark (DESIGN CHOICE 3: non-volatile). -/
  copy1 : BankControl := {}
  /-- Bank started by this BOOT, once firmware runs. 18 R394. Reset none. -/
  started : Option Bool := none
  /-- TB2 time at which its firmware started. 64 bits. 18 R397. Reset 0. -/
  startedAt : Nat := 0
  /-- Decoded sections of the bundle started, by kind: Ridge firmware, peg services, known-answer patterns, prototypes, curves, service map.
  18 R394, R404, Table 18.4. Reset none. -/
  bundle : List (Nat × List Byte) := []
  /-- Banks whose copy from MRAM fails in this BOOT. 2 bits. 18 R394 step 4. Reset 0. -/
  copyBad : BitVec 2 := 0
  /-- Formerly active bank when a PENDING bank is tried. 18 R411. Reset none. -/
  trying : Bool := false
  /-- Version of the running bundle. 64 bits. 18 Table 18.3. Reset 0 (DESIGN CHOICE 3). -/
  version : Nat := 0
  /-- OTP key slots 1 to 3: hash, none unwritten. 384 bits each. 18 R405. Reset unwritten (DESIGN CHOICE 3: set at manufacture or by the user). -/
  keys : Tab (Option (List Byte)) := []
  /-- OTP version words written, oldest first; none fails its check. 32 x 64 bits. 18 R405, R407. Reset none written. -/
  versionWords : List (Option Nat) := []
  /-- Operating update: bundle length, sector write in progress. 18 R408. Reset none. -/
  updateLen : Option Nat := none
  /-- Update passed: BOOT follows. 18 R410. Reset false. -/
  rebootDue : Bool := false
  /-- TB2 time at which the update's completion was raised. 64 bits. 18 R410. Reset 0. -/
  rebootSince : Nat := 0
  /-- Outcomes of the banks tried in this BOOT (bank, Table 18.5 code). 18 R398. Reset none. -/
  outcomes : List (Bool × Nat) := []
  /-- Background zeroing of DRAM is running. 1 bit. 18 R394. Reset false. -/
  zeroing : Bool := false
  /-- State left for this BOOT and the cause, which STATE_CHANGE reports after BOOT_REPORT. 4 and 8 bits. 18 R398, 01 R22.
  Reset OFF, cause 0. -/
  entry : Nat × Nat := (0, 0)
  /-- Arrays that passed step 8 of this BOOT. 4 bits. 18 R394. Reset 0. -/
  arraysPassed : BitVec 4 := 0
  /-- Training time of this BOOT as BOOT_REPORT gives it. 18 R398. Reset 0. -/
  trainTime : Nat := 0
  /-- Payloads of the last 16 BOOT_REPORTs, newest first, in the keys-and-counters partition. 40 bytes each. 18 Table 18.2. Reset none (DESIGN CHOICE 3: non-volatile). -/
  reports : List (List Byte) := []
  /-- Security version of the running bundle and its RAISE flag. 64 and 1 bits. 18 R407. Reset 0. -/
  security : Nat × Bool := (0, false)
  /-- Reset count of the keys-and-counters partition. 32 bits. 18 R396, 21 R458. Reset 0 (DESIGN CHOICE 3: non-volatile). -/
  resets : Nat := 0
  /-- Power-cycle count. 32 bits. 21 R458. Reset 0 (DESIGN CHOICE 3: non-volatile). -/
  powerCycles : Nat := 0
deriving DecidableEq, Repr

/-- A zone's thresholds and runs (R445 to R447). Temperatures in 1/16 degC. -/
structure Zone where
  warning : Int := 1520
  throttle : Int := 1600
  shutdown : Int := 1760
  hyst : Int := 48
  rateLimit : Int := 160
  state : Nat := 0
  temp : Int := 0
  /-- Runs at or above each threshold and below each less h: warning, throttle, shutdown. -/
  upRuns : List Nat := [0, 0, 0]
  downRuns : List Nat := [0, 0, 0]
  /-- Thresholds reached and not left (R446). -/
  reached : List Bool := [false, false, false]
  rate : Bool := false
  rateUp : Nat := 0
  rateDown : Nat := 0
  /-- Temperatures of past rounds, newest first, one second's worth (R447). -/
  history : List Int := []
  rise : Int := 0
  unmeasured : Bool := false
  shutdownSeen : Bool := false
  throttleSeen : Bool := false
deriving DecidableEq, Repr

/-- A temperature sensor (R443). -/
structure Sensor where
  reading : Int := 0
  excluded : Bool := false
  offRun : Nat := 0
  nearRun : Nat := 0
deriving DecidableEq, Repr

/-- An injection entry (R437, R438). -/
structure Inject where
  channel : Nat := 0
  /-- Table 20.2 order: 0 timer, 1 time trigger, 2 FAN_PWM edge, 3 ADC_TRIG; none unset. -/
  trigger : Option Nat := none
  delay : Nat := 0
  /-- TB2 times at which triggers' delays expire, earliest first. -/
  due : List Nat := []
  /-- A conversion waits for its converter; a further trigger is latched. -/
  waiting : Bool := false
  latched : Bool := false
  /-- End of the conversion that runs (TB2 ns). -/
  busyUntil : Nat := 0
  code : Nat := 0
  ovr : Bool := false
  gts : Nat := 0
  /-- Timer start (TB2 ns). -/
  since : Nat := 0
deriving DecidableEq, Repr

/-- A fan (R452 to R454). -/
structure Fan where
  fixed : Bool := false
  fixedDuty : Nat := 1000
  zones : BitVec 5 := 31
  t : List Int := [800, 1120, 1360, 1520]
  d : List Nat := [300, 500, 800, 1000]
  slew : Nat := 100
  ppr : Nat := 2
  minRpm : Nat := 600
  duty : Nat := 1000
  target : Nat := 1000
  /-- TB2 times of tach edges accepted in the last second, newest first. -/
  edges : List Nat := []
  fail : Bool := false
  /-- TB2 time since which the speed has been at or above the minimum while FAN_FAIL is raised. -/
  goodSince : Option Nat := none
  /-- TB2 time since which the duty has been at least 50 % and the speed below the minimum. -/
  lowSince : Option Nat := none
deriving DecidableEq, Repr

/-- Housekeeping (chapter 20). -/
structure HealthSt where
  /-- Zones 0 to 4: thresholds, hysteresis, rate limit, state 2, dwell runs, temperature 12 bits. 20 R445 to R447, Table 20.10. Reset 95, 100, 110, 3, 10 degC; NORMAL. -/
  zones : Tab Zone := []
  /-- Sensors T00 to T23: reading 12 bits, exclusion, runs. 20 R443. Reset included. -/
  sensors : Tab Sensor := []
  /-- Newest code, OVR and round of channels 0 to 47. 12, 1 and 32 bits. 20 R434. Reset 0 (DESIGN CHOICE 3). -/
  codes : Tab (Nat × Bool × Nat) := []
  /-- Round number of the last round begun. 64 bits. 20 R434. Reset 0. -/
  round : Nat := 0
  /-- A round is converting. 1 bit. 20 R434. Reset false. -/
  converting : Bool := false
  /-- TB2 time at which that round began. 64 bits. 20 R434. Reset 0. -/
  roundAt : Nat := 0
  /-- Injected conversions that ADC0 and ADC1 have taken during that round. 20 R434. Reset 0. -/
  roundInj : Tab Nat := []
  /-- Channels of which an injected conversion came after the round's own. 48 bits. 20 R434. Reset none. -/
  roundNewer : List Nat := []
  /-- Faulty converters ADC0, ADC1. 2 bits. 20 R436. Reset 0. -/
  adcFault : Tab Bool := []
  /-- Consecutive rounds out of and in the self-check band per converter. 20 R436. Reset 0. -/
  adcRuns : Tab (Nat × Nat) := []
  /-- Injection entries 0 to 3. 20 R437. Reset none. -/
  injects : Tab Inject := []
  /-- Stored calibration pairs (C0, C1) of AIN0 to AIN7. 16 bits each. 20 R440, R441. Reset factory or nominal. -/
  cal : Tab (Option (Int × Int)) := []
  /-- Pairs that apply from the next round. 20 R440. Reset none. -/
  calNext : Tab (Option (Int × Int)) := []
  /-- C0 of a step 0 of this boot per input. 20 R440. Reset none. -/
  calStep0 : Tab (Option Int) := []
  /-- Calibration step in progress: input, step, its request. 20 R439. Reset none. -/
  calRunning : Option (Nat × Nat × Request) := none
  /-- TB2 time at which that step's 256 conversions begin, none while it waits. 64 bits. 20 R439. Reset none. -/
  calStart : Option Nat := none
  /-- Fans 0 to 3: mode, duties 10 bits, curve, slew, pulses, minimum, duty, tach. 20 R452 to R454, Table 20.9. Reset CURVE, 1000, 0b11111, 50/70/85/95, 300/500/800/1000, 100, 2, 600; duty 100 %. -/
  fans : Tab Fan := []
  /-- FAN triggers fired whose cycle has not run. 20 R452. Reset 0. -/
  fanDue : Nat := 0
  /-- TB2 time of the last fan cycle, none before the first. 64 bits. 20 R453. Reset none. -/
  lastFan : Option Nat := none
  /-- FAN_LOOP_IDLE. 1 bit. 20 R453. Reset false. -/
  fanIdle : Bool := false
  /-- DIMM_HOT cause. 1 bit. 20 Table 20.7. Reset false. -/
  dimmHot : Bool := false
  /-- INJ_OVERRUN and OVR_SEEN bits of Table 20.11. 32 bits. 20 Table 20.11. Reset 0. -/
  sticky : BitVec 32 := 0
  /-- Alarms that are active, by event code (ALARM bit of DEVICE_STATUS). 15 Table 15.3, 20 R451. Reset none. -/
  alarms : List (Nat × Nat) := []
deriving DecidableEq, Repr

/-- Counts of one class in an epoch (R458, R459). -/
structure ClassSet where
  count : Nat := 0
  hist : List Nat := []
  min : Int := 0
  minSec : Nat := 0
  max : Int := 0
  maxSec : Nat := 0
  firstSec : Nat := 0
  lastSec : Nat := 0
  sources : List Nat := []
  merged : Bool := false
deriving DecidableEq, Repr

/-- A record to be sealed or held (Table 21.3), less CRC and VALID. -/
structure RecRecord where
  cls : Nat
  partialEpoch : Bool
  hour : Nat
  power : Nat
  resets : Nat
  set : ClassSet
deriving DecidableEq, Repr

/-- The event recorder (chapter 21). -/
structure RecSt where
  /-- Live set, 128 class entries. 21 R460. Reset empty. -/
  live : Tab ClassSet := []
  /-- Records waiting to be sealed, in order. 21 R458, R460. Reset none. -/
  toSeal : List RecRecord := []
  /-- Records held in MRAM: (slot, record), oldest first. 21 R460. Reset none (DESIGN CHOICE 3: non-volatile). -/
  held : List (Nat × RecRecord) := []
  /-- Next slot to write. 12 bits. 21 R460. Reset 0. -/
  nextSlot : Nat := 0
  /-- Bad-sector map. 256 bits. 21 R463. Reset none (DESIGN CHOICE 3: non-volatile). -/
  badSectors : List Nat := []
  /-- Its two copies in the keys-and-counters partition. 256 bits each. 21 R463. Reset none (DESIGN CHOICE 3: non-volatile). -/
  mapCopies : List Nat × List Nat := ([], [])
  /-- Overflow set. 21 R461. Reset empty. -/
  overflow : Tab ClassSet := []
  /-- 0 RUNNING, 1 LOG_FULL, 2 FAILED. 2 bits. 21 Table 21.5. Reset 0. -/
  state : Nat := 0
  /-- An export or clear is in progress. 1 bit. 21 Table 21.5. Reset false. -/
  clearing : Bool := false
  /-- SECTOR_BAD_SEEN. 1 bit. 21 Table 21.5. Reset 0. -/
  badSeen : Bool := false
  /-- LOG_NEARLY_FULL has been raised. 1 bit. 21 R461. Reset false. -/
  nearly : Bool := false
  /-- Operating second. 32 bits. 21 R458. Reset 0 (DESIGN CHOICE 3: non-volatile). -/
  second : Nat := 0
  /-- Operating second as the keys-and-counters partition holds it. 32 bits. 21 R458. Reset 0 (DESIGN CHOICE 3: non-volatile). -/
  secondWritten : Nat := 0
  /-- Operating second at which the open epoch began. 32 bits. 21 R459. Reset 0. -/
  epochStart : Nat := 0
  /-- TB2 time at which the writer began the record it writes, or was last free. 64 bits. 21 R460. Reset 0. -/
  writerAt : Nat := 0
deriving DecidableEq, Repr

/-- Twin pairing (chapter 19). -/
structure TwinSt where
  /-- Mode PAIRED. 1 bit. 19 Table 19.1. Reset UNPAIRED. -/
  paired : Bool := false
  /-- Twin quad. 5 bits. 19 Table 19.1. Reset none. -/
  quad : Option Nat := none
  /-- Home role HOME_LEAD. 1 bit. 19 Table 19.1. Reset HOME_FOLLOWER. -/
  homeLead : Bool := false
  /-- K in frames. 8 bits. 19 Table 19.1. Reset 10. -/
  k : Nat := 10
  /-- Revertive. 1 bit. 19 Table 19.1. Reset on. -/
  revertive : Bool := true
  /-- Hold-off H in frames. 20 bits. 19 Table 19.1. Reset 5000. -/
  h : Nat := 5000
  /-- Partner identity expected, 0 any. 64 bits. 19 Table 19.1. Reset 0. -/
  expect : BitVec 64 := 0
  /-- Acting as lead. 1 bit. 19 R423. Reset false. -/
  lead : Bool := false
  /-- Heartbeats carry the LEAD claim. 1 bit. 19 R425. Reset false. -/
  claiming : Bool := false
  /-- Role epoch. 32 bits. 19 R424. Reset 0 (DESIGN CHOICE 3). -/
  epoch : Nat := 0
  /-- Last epoch heard. 32 bits. 19 R424. Reset 0. -/
  heardEpoch : Nat := 0
  /-- ACQUIRED_SILENT. 1 bit. 19 R424. Reset false. -/
  acqSilent : Bool := false
  /-- The partner's role bits as last heard on the link. 8 bits. 19 Table 19.2. Reset 0. -/
  partnerRole : BitVec 8 := 0
  /-- Partner's identity. 64 bits. 19 R433. Reset 0. -/
  partner : BitVec 64 := 0
  /-- HB_OUT level. 1 bit. 19 R420. Reset 0 (DESIGN CHOICE 3). -/
  hbOut : Bool := false
  /-- Edges accepted in the current pin window, and whether the last was a LEAD edge. 19 R420. Reset 0. -/
  pinEdges : Nat := 0
  /-- The pin edge of the window was a LEAD heartbeat. 1 bit. 19 R420. Reset false. -/
  pinLead : Bool := false
  /-- The same for the next frame's window, which opens a quarter frame before its tick. 19 R420. Reset 0. -/
  pinNext : Nat × Bool := (0, false)
  /-- Skew measured from the edge of the current window, and of the next frame's. In ns, signed. 19 R421. Reset 0. -/
  pinSkew : Int := 0
  nextSkew : Int := 0
  /-- HEARTBEAT heard for the next frame, from a partner that is ahead, and its claim. 19 R421. Reset 0. -/
  linkNext : Bool × Bool := (false, false)
  /-- HEARTBEAT heard for the current frame, and its claim. 19 R421. Reset false. -/
  linkHeard : Bool := false
  /-- The HEARTBEAT of the frame claimed LEAD. 1 bit. 19 R421. Reset false. -/
  linkLead : Bool := false
  /-- Consecutive frames missed on the pin, on the link, silent; frames with no LEAD claim; frames with one; frames both paths heard with a LEAD claim. 19 R422, R423, R426, R431. Reset 0. -/
  pinMissed : Nat := 0
  /-- Consecutive frames the link path missed. 19 R422. Reset 0. -/
  linkMissed : Nat := 0
  /-- Consecutive frames the pin path heard. 19 R422. Reset 0. -/
  pinHeardRun : Nat := 0
  /-- Consecutive frames the link path heard. 19 R422. Reset 0. -/
  linkHeardRun : Nat := 0
  /-- Consecutive silent frames. 19 R422. Reset 0. -/
  silentRun : Nat := 0
  /-- Consecutive frames without a LEAD heartbeat. 19 R423. Reset 0. -/
  noLeadRun : Nat := 0
  /-- Consecutive frames with a LEAD claim heard while leading. 19 R426. Reset 0. -/
  leadRun : Nat := 0
  /-- Consecutive frames in which both paths heard and the partner claimed the lead. 19 R431. Reset 0. -/
  bothRun : Nat := 0
  /-- The LEAD claims of `leadRun` were heard on the link. 1 bit. 19 R426. Reset true. -/
  leadRunLink : Bool := true
  /-- HB_PATH_DOWN on the pin and link paths. 2 bits. 19 R422. Reset 0. -/
  pinDown : Bool := false
  /-- HB_PATH_DOWN on the link path. 1 bit. 19 R422. Reset 0. -/
  linkDown : Bool := false
  /-- The Ridge has armed the heartbeat of the next frame. 1 bit. 19 R420. Reset true (DESIGN CHOICE 3). -/
  armed : Bool := true
  /-- Relay and upstream control frames running. 1 bit. 19 R425, R427. Reset false. -/
  duties : Bool := false
  /-- Takeover in progress: its tick n_t. 64 bits. 19 R425. Reset none. -/
  takeoverAt : Option Nat := none
  /-- Newest complete checkpoint: frame of capture and bytes. 19 R429. Reset none. -/
  ckpt : Option (Nat × List Byte) := none
  /-- Pieces of the checkpoint being received. 19 R429. Reset none. -/
  pieces : Tab (List Byte) := []
  /-- Frame of capture of the pieces being received. 64 bits. 19 R429. Reset 0. -/
  pieceFrame : Nat := 0
  /-- Valid mark of the first checkpoint slot of MRAM, with the frame of capture and the length of what it holds. 19 R429. Reset none
  (DESIGN CHOICE 3: non-volatile). -/
  slotA : Option (Nat × Nat) := none
  /-- The same of the second slot. 19 R429. Reset none (DESIGN CHOICE 3: non-volatile). -/
  slotB : Option (Nat × Nat) := none
  /-- MRAM checkpoint slot to write next, the other being the newer. 1 bit. 19 R429. Reset the first (DESIGN CHOICE 3: non-volatile). -/
  ckptSlot : Bool := false
  /-- Checkpoint to send at the next tick. 1 bit. 19 R429. Reset false. -/
  sendCkpt : Bool := false
  /-- CHECKPOINT_STALE. 1 bit. 19 R429. Reset 0. -/
  stale : Bool := false
  /-- TB2 time of the last complete checkpoint. 64 bits. 19 R429. Reset 0. -/
  ckptTime : Nat := 0
  /-- Reclaim n_h pending. 64 bits. 19 R431. Reset none. -/
  reclaimAt : Option Nat := none
  /-- The reclaim has been answered. 1 bit. 19 R431. Reset false. -/
  reclaimAcked : Bool := false
  /-- Handover tick named to this twin. 64 bits. 19 R430. Reset none. -/
  handoverAt : Option Nat := none
  /-- Tick skew measured, in ns, signed. 19 R421. Reset 0. -/
  skew : Int := 0
  /-- Consecutive frames with skew beyond T/8. 8 bits. 19 R421. Reset 0. -/
  skewRun : Nat := 0
  /-- SKEW. 1 bit. 19 R421. Reset 0. -/
  skewed : Bool := false
  /-- Consecutive frames with a differing digest. 8 bits. 19 R432. Reset 0. -/
  digestRun : Nat := 0
  /-- The partner's configuration digest as last heard. 32 bits. 19 R432. Reset 0. -/
  partnerDigest : BitVec 32 := 0
  /-- CONFIG_MISMATCH, YIELD_SEEN, TAKEOVER_SEEN of Table 19.4. 32 bits. 19 Table 19.4. Reset 0. -/
  sticky : BitVec 32 := 0
  /-- TWIN frames sent last: type and message. 19 Table 19.2. Reset none. -/
  sent : List (Nat × TwinMessage) := []
deriving DecidableEq, Repr

/-- How a load was sourced and what it is for (R375, R189). -/
structure Load where
  cmd : Instr
  req : Request
  /-- Where its BULK stands in the argument. -/
  bulkAt : Nat
  declared : Nat
  deflate : Bool
  limits : Limits
  /-- Its place in the order in which service operations were accepted (R186). -/
  seq : Nat := 0
  /-- Its transfer has failed: the status that ends it in its turn (R189, R353). -/
  failed : Option Status := none
deriving DecidableEq, Repr

/-- A service operation on a Pack engine (R186): the encoding of PACK.ENCODE and REC.EXPORT. -/
structure ServiceOp where
  cmd : Instr
  req : Request
  /-- What REC.EXPORT encodes; PACK.ENCODE reads its own source. -/
  source : List Byte
  dst : Nat
  dstLen : Nat
  dynamic : Bool
  /-- Its place in the order in which service operations were accepted (R186). -/
  seq : Nat := 0
deriving DecidableEq, Repr

/-- A result on its way to a bulk destination (R353): the command, where its argument holds the BULK, the bytes, and the
rest of its completion entry from byte 53. -/
structure ReadOut where
  cmd : Instr
  req : Request
  bulkOff : Nat
  bytes : List Byte
  extra : List Byte
deriving DecidableEq, Repr

/-- The whole machine. -/
structure State where
  /-- Supply and pins. 22. -/
  power : PowerSt := {}
  /-- Device state machine. 01. -/
  dev : DevSt := {}
  /-- Time bases and frame tick. 01, 13. -/
  time : TimeSt := {}
  /-- Compass. 13. -/
  compass : CompassSt := {}
  /-- Serial lanes. 12. -/
  lanes : LaneSt := {}
  /-- Ingest. 02. -/
  ingest : IngestSt := {}
  /-- Channeliser. 03. -/
  chan : ChanSt := {}
  /-- Corner-turn store and Vestibule. 04. -/
  store : StoreSt := {}
  /-- Filigree arrays F0 to F3: status bits of Table 5.8, chain of 88-bit words, landing buffer of 65 536 words. 05 R104, R106, R116. Reset Table 5.8. -/
  arrays : Tab ArraySt := []
  /-- Beam mode. 06. -/
  beam : BeamSt := {}
  /-- Clasp and Locket store. 07. -/
  clasp : ClaspSt := {}
  /-- Facet. 08. -/
  facet : FacetSt := {}
  /-- Pack engines. 08. -/
  pack : PackSt := {}
  /-- Output records and egress. 09. -/
  out : OutSt := {}
  /-- Frame schedule and transactions. 10. -/
  sched : SchedSt := {}
  /-- Pegs. 11. -/
  peg : PegSt := {}
  /-- DRAM. 14. -/
  dram : DramSt := {}
  /-- Host interface. 15. -/
  host : HostSt := {}
  /-- Event ring. 15. -/
  evr : EvrSt := {}
  /-- Tether window. 15. -/
  tether : TetherSt := {}
  /-- DMA and crossbar. 17. -/
  dma : DmaSt := {}
  /-- Start-up, firmware and trust. 18. -/
  boot : BootSt := {}
  /-- Housekeeping. 20. -/
  health : HealthSt := {}
  /-- Event recorder. 21. -/
  recorder : RecSt := {}
  /-- Twin pairing. 19. -/
  twin : TwinSt := {}
  /-- Loads whose data is being fetched, decoded or applied, in acceptance order. 08 R189, 16 R375. Reset none. -/
  loads : List Load := []
  /-- Service encodings on reserved engines, in acceptance order. 08 R185, R186. Reset none. -/
  services : List ServiceOp := []
  /-- Results on their way to bulk destinations, oldest first. 15 R353, 03 R77, 21 R460. Reset none. -/
  reads : List ReadOut := []
  /-- 64-bit counters by counter code x 65 536 + instance (Ops.lean names them). 02 R44 and the status rule of each chapter. Reset 0. -/
  counters : Tab Nat := []
  /-- The model's own: next free value to draw (log 1). Reset 0, DESIGN CHOICE; no statement rests on it. -/
  fresh : Nat := 0
  /-- The model's own: commands waiting, first in first out. Reset empty. -/
  pending : List Instr := []
deriving DecidableEq, Repr

/-- The machine right after reset: the entry to BOOT (Table 1.5; DEVICE_STATUS STATE resets to 0x1, R473; log 7). -/
def State.reset : State := {}

/-- What would stop the machine. -/
inductive Fault where
  /-- Raised by DRAM_READ of an address past the capacity of the channels in use, where the manual's address space ends
  (R339, R341). Safe: the machine stops where no hardware behaviour is described. -/
  | noDram
deriving DecidableEq, Repr

/-- What has no meaning in the model. -/
inductive Refusal where
  /-- Raised only by an arm of `exec` whose command has no meaning yet. Safe: the run stops. -/
  | notModelled (mnemonic : String)
deriving DecidableEq, Repr

end Sys2Proof.Machine
end

