-- ==== Sys2Proof/Machine/Ops.lean ====
section
/-! DEFINITION. Operations every family shares: sparse tables and memories, byte strings, counters, free values,
interrupts, events and their recorder counts, mailbox answers and completions, device state, and the accessors that
give each sparse table its default. -/

namespace Sys2Proof.Machine

/-- What a command answers. -/
abbrev Out := Host.Outcome State Fault Refusal

/-! Sparse tables and memories. -/

/-- Entry `i` of a table, `d` where none is listed. -/
def tabGet {α : Type} (d : α) : Tab α → Nat → α
  | [], _ => d
  | (k, v) :: t, i => if k = i then v else tabGet d t i

/-- A table without entry `i`. -/
def tabErase {α : Type} (t : Tab α) (i : Nat) : Tab α := t.filter (fun e => e.1 != i)

/-- Puts an entry at its place in rising order of keys. -/
def tabInsert {α : Type} (i : Nat) (v : α) : Tab α → Tab α
  | [] => [(i, v)]
  | (k, w) :: t => if i < k then (i, v) :: (k, w) :: t else (k, w) :: tabInsert i v t

/-- Writes entry `i`; writing the default removes the entry, so that equal tables are equal data. -/
def tabSet {α : Type} [DecidableEq α] (d : α) (t : Tab α) (i : Nat) (v : α) : Tab α :=
  if v = d then tabErase t i else tabInsert i v (tabErase t i)

/-- Changes entry `i` by a function of its value. -/
def tabMod {α : Type} [DecidableEq α] (d : α) (t : Tab α) (i : Nat) (f : α → α) : Tab α :=
  tabSet d t i (f (tabGet d t i))

/-- Changes every listed entry; entries that become the default go. -/
def tabMap {α : Type} [DecidableEq α] (d : α) (f : α → α) (t : Tab α) : Tab α :=
  (t.map (fun e => (e.1, f e.2))).filter (fun e => decide (e.2 ≠ d))

/-- Keys strictly rising. -/
def tabSorted {α : Type} : Tab α → Bool
  | [] => true
  | [_] => true
  | (a, _) :: (b, w) :: t => decide (a < b) && tabSorted ((b, w) :: t)

/-- The canonical form: keys strictly rising, no entry equal to the default. -/
def tabWf {α : Type} [DecidableEq α] (d : α) (t : Tab α) : Bool :=
  tabSorted t && t.all (fun e => decide (e.2 ≠ d))

/-- What a byte of memory that nothing has written reads as (log 4; DRAM: R330 writes zero). -/
def emptyByte : Byte := 0

/-- Byte at an address. -/
def memGet (m : Memory) (a : Nat) : Byte := tabGet emptyByte m a

/-- Writes one byte. -/
def memSet (m : Memory) (a : Nat) (b : Byte) : Memory := tabSet emptyByte m a b

/-- Writes consecutive bytes. -/
def memWrite (m : Memory) (a : Nat) : List Byte → Memory
  | [] => m
  | b :: bs => memWrite (memSet m a b) (a + 1) bs

/-- Reads `n` consecutive bytes. -/
def memRead (m : Memory) (a : Nat) : Nat → List Byte
  | 0 => []
  | n + 1 => memGet m a :: memRead m (a + 1) n

/-- The canonical form of a memory. -/
def memWf (m : Memory) : Bool := tabWf emptyByte m

/-! Byte strings (R5: little-endian on the host side, big-endian on the network). -/

/-- `n` little-endian bytes of a number. -/
def leBytes : Nat → Nat → List Byte
  | 0, _ => []
  | n + 1, v => BitVec.ofNat 8 v :: leBytes n (v / 256)

/-- `n` big-endian bytes of a number. -/
def beBytes (n v : Nat) : List Byte := (leBytes n v).reverse

/-- Value of little-endian bytes. -/
def leVal : List Byte → Nat
  | [] => 0
  | b :: bs => b.toNat + 256 * leVal bs

/-- Value of big-endian bytes. -/
def beVal (l : List Byte) : Nat := leVal l.reverse

/-- `n` little-endian bytes of a two's complement number. -/
def leInt (n : Nat) (v : Int) : List Byte := leBytes n (v % (2 ^ (8 * n) : Nat)).toNat

/-- Two's complement value of an `n`-bit number. -/
def signed (n v : Nat) : Int := if v < 2 ^ (n - 1) then v else (v : Int) - (2 ^ n : Nat)

/-- Bytes `off` to `off + n - 1` of a string, zero past its end. -/
def slice (l : List Byte) (off n : Nat) : List Byte :=
  let p := (l.drop off).take n
  p ++ List.replicate (n - p.length) 0

/-- A 0 or 1. -/
def bit (b : Bool) : Nat := if b then 1 else 0

/-- Bit `i` of a number. -/
def testBit (v i : Nat) : Bool := v / 2 ^ i % 2 = 1

/-- `⌈a / b⌉`. -/
def ceilDiv (a b : Nat) : Nat := (a + b - 1) / b

/-- `round_te(num / den)`: to nearest, ties to even. -/
def roundTe (num : Int) (den : Nat) : Int :=
  let q := num.fdiv den
  let r := num - q * den
  if 2 * r < den then q else if (den : Int) < 2 * r then q + 1 else if q % 2 = 0 then q else q + 1

/-- A value limited to a range. -/
def clampInt (lo hi v : Int) : Int := if v < lo then lo else if hi < v then hi else v

/-- Numbers `first` to `first + n - 1`. -/
def numbers (first n : Nat) : List Nat := (List.range n).map (first + ·)

/-- Reflected CRC register after one bit. -/
def crcBit (poly c : Nat) : Nat := if c % 2 = 1 then (c / 2) ^^^ poly else c / 2

/-- Reflected CRC register after one byte. -/
def crcByte (poly c : Nat) (b : Byte) : Nat :=
  let c := c ^^^ b.toNat
  crcBit poly (crcBit poly (crcBit poly (crcBit poly (crcBit poly (crcBit poly (crcBit poly (crcBit poly c)))))))

/-- A reflected 32-bit CRC, all ones before and inverted after. -/
def crc32With (poly : Nat) (l : List Byte) : Nat := (l.foldl (crcByte poly) 0xFFFFFFFF) ^^^ 0xFFFFFFFF

/-- CRC-32C, reflected polynomial 0x82F63B78. -/
def crc32c (l : List Byte) : Nat := crc32With 0x82F63B78 l

/-- The Ethernet and DEFLATE CRC-32, reflected polynomial 0xEDB88320. -/
def crc32 (l : List Byte) : Nat := crc32With 0xEDB88320 l

/-! Free values. -/

/-- A fresh free value and the state with it drawn (log 1). -/
def draw (s : State) : Nat × State := (Config.freeNat s.fresh, { s with fresh := s.fresh + 1 })

/-- `n` free bytes. -/
def freeBytes : Nat → State → List Byte × State
  | 0, s => ([], s)
  | n + 1, s =>
    let (v, s) := draw s
    let (l, s) := freeBytes n s
    (BitVec.ofNat 8 v :: l, s)

/-! Counters. -/

/-- The 64-bit counters the status rules name. Where a rule counts by reason, the instance is unit × 64 + reason. -/
inductive Ctr where
  | doorbellInvalid | mailboxWriteLocked | barUnmapped | poisonedWrite | windowDenied | tetherLockedWrite
  -- ingest, per quad and per stream (Table 2.6)
  | l3Error | unclassified | qMalformed | overrun
  | accepted | sMalformed | misaligned | disabled | early | overflow | duplicate | collision | late | seqMismatch
  | saturated | holeExpired | reorderFull | delayInsert | delayDrop | heldDiscarded | flaggedSamples
  | delayTableMissing | delayBeyondDepth
  -- channeliser
  | sliceBehind | settling | resetCount | rotatorMissing | rotatorExpired | gainStale
  -- store
  | storeUnwritten | storeLost | storeUe | fillAbandoned
  -- arrays
  | passes | dumps | passAbandoned | dumpAbandoned | stallCycles | vestibuleCe | vestibuleUe | symMismatch
  -- beams
  | weightCe | weightUe | beamSegAbandoned | beamFlagged | peakExcluded
  -- Clasp
  | jobs | tileConflict | readoutAbandoned | spills | spillFail | locketCe | locketUe | laSplit | laVoid | sat | nanOut
  -- Facet and Pack
  | blocks | wideBlocks | noiseMissing | noiseMismatch
  | items | bytesIn | bytesOut | stored | packFull | packAbandoned | decodeOk | decodeFail
  -- output
  | datagrams | egressBytes | queueFull | egressAged | denied | linkDown | noSlot | pauseIgnored
  | records | gaps | discarded
  -- schedule
  | abandons | shedProducts | commitsApplied | commitsRejected | txnExpired | seams
  -- pegs
  | instructions | waitCycles | pegOverrun | pegFault | xferErrors | dmemCe | imemCe | smemCe | rfiLate
  -- lanes
  | invalidHeaders | lockLoss | fecCorrectedBits | fecUncorrectable | alignMissing | bits | errors | patternRelock
  | framesOk | fcsError | lengthError | aborted | fecDrop | stray | undersize | oversize | macFiltered
  | controlLimited | retrains | trainTimeout | lockTimeout | incompatible | widthReduced | fastExitFail | napEntries
  | rsCorrected | rsUncorrectable | symbolErrors
  -- Compass
  | disqualified | ppsIncoherent | steps | timeStepFlagged | pdelayDropped | relayLimited | glitch | chatter | stuck
  -- DRAM
  | ce | ue | parityReissue | refreshPostponed | pageHits | pageConflicts | rawWaits | scrubPasses | recentreSteps
  -- DMA and crossbar
  | descriptors | dmaBytes | aborts | overlap | dmaStatus | defaultHits | grants | portWaits | resetErrors
  | repliesDropped
  -- health
  | warningEntries | throttleEntries | shutdownEntries | rateCauses | exclusions | rounds | injected | injOverrun
  | ovrCount | adcFaults | fanCycles | fanFails
  -- recorder
  | events | recordsSealed | mergedEpochs | writeVerifyFail | sectorsBad | torn | clears
  -- twin
  | takeovers | yields | handovers | reclaims | checkpointsSent | checkpointsReceived | checkpointErrors
  | checkpointMissing | hbPinMissed | hbLinkMissed | silentFrames | hbDouble | dualLeadFrames
  -- boot
  | bootTimeout
deriving DecidableEq, Repr

/-- Key of a counter's instance in `State.counters`. -/
def ctrKey (c : Ctr) (inst : Nat) : Nat := c.ctorIdx * 1048576 + inst

/-- Value of a counter. -/
def counter (c : Ctr) (inst : Nat) (s : State) : Nat := tabGet 0 s.counters (ctrKey c inst)

/-- Adds to a counter. -/
def countN (c : Ctr) (inst n : Nat) (s : State) : State :=
  { s with counters := tabMod 0 s.counters (ctrKey c inst) (· + n) }

/-- Adds one to a counter. -/
def count (c : Ctr) (inst : Nat) (s : State) : State := countN c inst 1 s

/-- Clears a counter (R374 CLEAR, and the RC registers of Table 0.4). -/
def clearCtr (c : Ctr) (inst : Nat) (s : State) : State := { s with counters := tabSet 0 s.counters (ctrKey c inst) 0 }

/-- Clears several counters of one instance. -/
def clearCtrs (cs : List Ctr) (inst : Nat) (s : State) : State := cs.foldl (fun s c => clearCtr c inst s) s

/-! Accessors of sparse tables, with their defaults. -/

def quad (s : State) (k : Nat) : Quad := tabGet {} s.lanes.quads k
def modQuad (k : Nat) (f : Quad → Quad) (s : State) : State :=
  { s with lanes.quads := tabMod {} s.lanes.quads k f }
def lane (s : State) (k : Nat) : Lane := tabGet {} s.lanes.lanes k
def modLane (k : Nat) (f : Lane → Lane) (s : State) : State :=
  { s with lanes.lanes := tabMod {} s.lanes.lanes k f }
def stream (s : State) (k : Nat) : Stream := tabGet {} s.ingest.streams k
def modStream (k : Nat) (f : Stream → Stream) (s : State) : State :=
  { s with ingest.streams := tabMod {} s.ingest.streams k f }
def flow (s : State) (k : Nat) : Option Flow := tabGet none s.ingest.flows k
def delayLine (s : State) (k : Nat) : DelayLine := tabGet {} s.ingest.delays k
def modDelay (k : Nat) (f : DelayLine → DelayLine) (s : State) : State :=
  { s with ingest.delays := tabMod {} s.ingest.delays k f }
def sliceOf (s : State) (k : Nat) : Slice := tabGet {} s.chan.slices k
def modSlice (k : Nat) (f : Slice → Slice) (s : State) : State :=
  { s with chan.slices := tabMod {} s.chan.slices k f }
def unitKey (input coarse : Nat) : Nat := input * 65536 + coarse
def chanUnit (s : State) (k : Nat) : ChanUnit := tabGet {} s.chan.units k
def modUnit (k : Nat) (f : ChanUnit → ChanUnit) (s : State) : State :=
  { s with chan.units := tabMod {} s.chan.units k f }
def array (s : State) (k : Nat) : ArraySt := tabGet {} s.arrays k
def modArray (k : Nat) (f : ArraySt → ArraySt) (s : State) : State :=
  { s with arrays := tabMod {} s.arrays k f }
def beamSet (s : State) (k : Nat) : BeamSet := tabGet {} s.beam.sets k
def watch (s : State) (k : Nat) : Watch := tabGet {} s.beam.watches k
def facetE (s : State) (k : Nat) : Nat := tabGet 2 s.facet.e k
def engine (s : State) (k : Nat) : Engine := tabGet {} s.pack.engines k
def modEngine (k : Nat) (f : Engine → Engine) (s : State) : State :=
  { s with pack.engines := tabMod {} s.pack.engines k f }
def ostream (s : State) (k : Nat) : Option OStream := tabGet none s.out.streams k
def egress (s : State) (k : Nat) : EgressQuad := tabGet {} s.out.quads k
def modEgress (k : Nat) (f : EgressQuad → EgressQuad) (s : State) : State :=
  { s with out.quads := tabMod {} s.out.quads k f }
def ring (s : State) (k : Nat) : Option HostRing := tabGet none s.out.rings k
def ringRead (s : State) (k : Nat) : Nat := tabGet 0 s.host.ringReads k
def setRingRead (k v : Nat) (s : State) : State := { s with host.ringReads := tabSet 0 s.host.ringReads k v }
def schedSlot (s : State) (k : Nat) : SchedSlot := tabGet {} s.sched.slots k
def peg (s : State) (k : Nat) : Peg := tabGet {} s.peg.pegs k
def modPeg (k : Nat) (f : Peg → Peg) (s : State) : State := { s with peg.pegs := tabMod {} s.peg.pegs k f }
/-- Default service of a pitch: Table 11.9, 1 to 5 in its order, for the bundle's default map (log 3). -/
def serviceDefault (k : Nat) : Nat := if k < 4 then 1 else if k < 8 then 2 else if k < 12 then 3 else if k < 15 then 4 else 5
/-- Bytes of a section of the running bundle (Table 18.4). -/
def bundleSection (s : State) (kind : Nat) : List Byte := ((s.boot.bundle.find? (fun e => e.1 = kind)).map (·.2)).getD []
def serviceOf (s : State) (k : Nat) : Nat := tabGet (serviceDefault k) s.peg.services k
def dramCh (s : State) (k : Nat) : DramCh := tabGet {} s.dram.chans k
def modDram (k : Nat) (f : DramCh → DramCh) (s : State) : State :=
  { s with dram.chans := tabMod {} s.dram.chans k f }
def slot (s : State) (k : Nat) : Slot := tabGet {} s.host.slots k
def modSlot (k : Nat) (f : Slot → Slot) (s : State) : State :=
  { s with host.slots := tabMod {} s.host.slots k f }
def dmaCh (s : State) (k : Nat) : DmaCh := tabGet {} s.dma.chans k
def modDma (k : Nat) (f : DmaCh → DmaCh) (s : State) : State := { s with dma.chans := tabMod {} s.dma.chans k f }
def port (s : State) (k : Nat) : Port := tabGet {} s.dma.ports k
def modPort (k : Nat) (f : Port → Port) (s : State) : State := { s with dma.ports := tabMod {} s.dma.ports k f }
def zone (s : State) (k : Nat) : Zone := tabGet {} s.health.zones k
def modZone (k : Nat) (f : Zone → Zone) (s : State) : State := { s with health.zones := tabMod {} s.health.zones k f }
def sensor (s : State) (k : Nat) : Sensor := tabGet {} s.health.sensors k
def modSensor (k : Nat) (f : Sensor → Sensor) (s : State) : State :=
  { s with health.sensors := tabMod {} s.health.sensors k f }
def inject (s : State) (k : Nat) : Inject := tabGet {} s.health.injects k
def modInject (k : Nat) (f : Inject → Inject) (s : State) : State :=
  { s with health.injects := tabMod {} s.health.injects k f }
def fan (s : State) (k : Nat) : Fan := tabGet {} s.health.fans k
def modFan (k : Nat) (f : Fan → Fan) (s : State) : State := { s with health.fans := tabMod {} s.health.fans k f }

/-- Defaults of a timing source (Table 13.1 and the TIME.REF.CONFIG defaults). -/
def sourceDefault (k : Nat) : Source :=
  let rank := tabGet 4 [(0, 0), (1, 1), (6, 7)] k
  let tol := tabGet 100000 [(0, 1000), (1, 1000), (6, 1000000)] k
  { rank := rank, tolerance := tol, q := 10 }
def source (s : State) (k : Nat) : Source := tabGet (sourceDefault k) s.compass.sources k
def modSource (k : Nat) (f : Source → Source) (s : State) : State :=
  { s with compass.sources := tabMod (sourceDefault k) s.compass.sources k f }

/-- Defaults of the timing outputs' widths (Table 13.5 order: PPS_OUT, FRAME_OUT, REF_OUT). -/
def outDefault (k : Nat) : OutCfg :=
  let w := tabGet 0 [(0, 10000), (1, 1000)] k
  { width := w, nextWidth := w }
def timingOut (s : State) (k : Nat) : OutCfg := tabGet (outDefault k) s.compass.outputs k
def modOut (k : Nat) (f : OutCfg → OutCfg) (s : State) : State :=
  { s with compass.outputs := tabMod (outDefault k) s.compass.outputs k f }
def trigger (s : State) (k : Nat) : Option Trigger := tabGet none s.compass.triggers k
def setTrigger (k : Nat) (t : Option Trigger) (s : State) : State :=
  { s with compass.triggers := tabSet none s.compass.triggers k t }

/-- Defaults of the interrupt causes (Table 15.7). -/
def causeDefault (c : Nat) : IntCause :=
  if c = 1 then { vector := 1, count := 16, timeUs := 100 }
  else if 16 ≤ c then { vector := c - 8, count := 1, timeUs := 50 }
  else { vector := if c = 0 then 0 else 2, count := 1, timeUs := 1 }
def intCause (s : State) (c : Nat) : IntCause := tabGet (causeDefault c) s.host.causes c
def modCause (c : Nat) (f : IntCause → IntCause) (s : State) : State :=
  { s with host.causes := tabMod (causeDefault c) s.host.causes c f }

/-- Defaults of the edge pins (Table 13.4), in the order of PIN.FILTER.CONFIG. HB_IN's lockout is T/4 and is computed. -/
def pinDefault (k : Nat) : PinSt :=
  if k ≤ 1 then { minWidth := 100, lockout := 900000000 }
  else if k = 2 then { minWidth := 100, lockout := 100000000 }
  else if k = 3 then { minWidth := 20, lockout := 1000 }
  else if k ≤ 7 then { minWidth := 10000, lockout := 100000 }
  else { minWidth := 1000, lockout := 0 }
def pin (s : State) (k : Nat) : PinSt := tabGet (pinDefault k) s.compass.pins k
def modPin (k : Nat) (f : PinSt → PinSt) (s : State) : State :=
  { s with compass.pins := tabMod (pinDefault k) s.compass.pins k f }

/-! Time. -/

/-- The quads whose transmitters and receivers the Tether lets run (R270). -/
def quadEnabled (s : State) (k : Nat) : Bool := testBit s.tether.quadEnable.toNat k

/-- Every time base moves on by `n` ns, in every state but OFF (R314, R315); operating seconds follow TB2 (R458). -/
def elapse (n : Nat) (s : State) : State :=
  { s with
    time.tb0 := s.time.tb0 + n, time.tb1 := s.time.tb1 + n, time.tb2 := s.time.tb2 + n, time.tb3 := s.time.tb3 + n
    recorder.second := s.recorder.second + ((s.time.tb2 + n) / 1000000000 - s.time.tb2 / 1000000000) }

/-- Moves on to TB2 time `t`, if it lies ahead (log 6). -/
def elapseTo (t : Nat) (s : State) : State := elapse (t - s.time.tb2) s

/-! Interrupts (R358). -/

/-- Causes that Table 15.7 coalesces. -/
def coalesced (c : Nat) : Bool := c = 1 || (16 ≤ c && c ≤ 31)

/-- Byte of the MSI-X table; the mask bit of each vector control resets to 1, so it is held inverted (log 3). -/
def msixByte (s : State) (off : Nat) : Byte :=
  let b := memGet s.host.msix off
  if off < 1024 ∧ off % 16 = 12 then b ^^^ 1 else b

/-- The vector is masked in the MSI-X table, or all are by the function mask (PCIe). -/
def vectorMasked (s : State) (v : Nat) : Bool := s.host.pcie.msixMask || (msixByte s (16 * v + 12)).toNat % 2 = 1

/-- The SV4 may issue memory requests to the host (R345). -/
def hostReachable (s : State) : Bool := s.host.busMaster && !s.host.d3hot

/-- Sends the MSI-X message of a cause's vector, or sets its pending bit while the vector is masked (R358). A message is a memory
request to the host: where the host cannot be reached none is sent (R345; log 17), and none while MSI-X is not enabled (PCIe). -/
def sendMessage (c : Nat) (s : State) : State :=
  let v := (intCause s c).vector
  let masked := vectorMasked s v
  { s with
    host.messages := if masked || !hostReachable s || !s.host.pcie.msixEnable then s.host.messages else v :: s.host.messages
    host.msix := if masked && s.host.pcie.msixEnable then memSet s.host.msix (2048 + v / 8)
        (memGet s.host.msix (2048 + v / 8) ||| BitVec.ofNat 8 (2 ^ (v % 8))) else s.host.msix }

/-- The cause is enabled in INT_MASK. -/
def causeEnabled (s : State) (c : Nat) : Bool := s.host.intMask.toNat / 2 ^ c % 2 = 1

/-- An occurrence of an interrupt cause: its INT_CAUSE bit is set, and its message sent at once or coalesced (R358). -/
def interrupt (c : Nat) (s : State) : State :=
  let s := { s with host.intCause := s.host.intCause ||| BitVec.ofNat 32 (2 ^ c) }
  if !coalesced c then (if causeEnabled s c then sendMessage c s else s)
  else
    let k := intCause s c
    let n := k.waiting + 1
    let since := if k.waiting = 0 then s.time.tb2 else k.since
    if k.count ≤ n then
      let s := modCause c (fun k => { k with waiting := 0, since := since }) s
      if causeEnabled s c then sendMessage c s else s
    else modCause c (fun k => { k with waiting := n, since := since }) s

/-! Events (R356, R457) and the recorder's counts (R459). -/

/-- Table 21.2: code, recorder class, alarm. -/
def eventTable : List (Nat × Nat × Bool) :=
  [(0x0001, 1, false), (0x0002, 2, false), (0x0003, 3, true), (0x0004, 0, false), (0x0005, 4, false),
   (0x0100, 0, false), (0x0101, 5, false), (0x0102, 5, false),
   (0x0200, 8, true), (0x0201, 9, false), (0x0202, 10, true), (0x0203, 11, true),
   (0x0300, 16, false), (0x0301, 17, true), (0x0302, 18, false),
   (0x0600, 24, false), (0x0601, 25, true), (0x0602, 26, false), (0x0603, 27, true)] ++
  [(0x0700, 28, false), (0x0800, 32, false), (0x0900, 40, false), (0x0901, 41, true), (0x0902, 42, false),
   (0x0903, 43, true), (0x0A00, 48, true), (0x0B00, 56, false), (0x0B01, 57, true), (0x0B02, 58, true),
   (0x0B03, 59, true), (0x0B04, 60, true), (0x0B05, 61, true)] ++
  [(0x0C00, 64, true), (0x0C01, 65, true), (0x0C02, 66, true), (0x0C03, 67, true), (0x0D00, 72, true),
   (0x0D01, 73, false), (0x0D02, 74, true), (0x0D03, 75, true), (0x0E00, 80, false), (0x0E01, 81, true),
   (0x0E02, 82, false)]

/-- Row of Table 21.2 of a code: class and alarm. -/
def eventInfo (code : Nat) : Option (Nat × Bool) := (eventTable.find? (fun e => e.1 = code)).map (·.2)

/-- Bucket of a magnitude (R459). -/
def bucket (m : Int) : Nat :=
  let a := m.natAbs
  if a = 0 then 0 else min 15 (Nat.log2 a + 1)

/-- Adds one to bucket `b` of a histogram of 16, saturating at 2^32 − 1. -/
def bumpHist (h : List Nat) (b : Nat) : List Nat :=
  (List.range 16).map (fun i => let v := h.getD i 0; if i = b then min (v + 1) 0xFFFFFFFF else v)

/-- A sorted list of numbers with one more in it. -/
def addSource (l : List Nat) (x : Nat) : List Nat := if x ∈ l then l else (l.filter (· < x)) ++ x :: l.filter (x < ·)

/-- A class's set with one more event (R459). -/
def countEvent (second src : Nat) (m : Int) (c : ClassSet) : ClassSet :=
  if c.count = 0 then
    { count := 1, hist := bumpHist [] (bucket m), min := m, minSec := second, max := m, maxSec := second,
      firstSec := second, lastSec := second, sources := [src], merged := c.merged }
  else
    { c with
      count := c.count + 1, hist := bumpHist c.hist (bucket m)
      min := if m < c.min then m else c.min, minSec := if m < c.min then second else c.minSec
      max := if c.max < m then m else c.max, maxSec := if c.max < m then second else c.maxSec
      lastSec := second, sources := addSource c.sources src }

/-- Inserts an event in ascending (GTS, source), after those equal to it (R356). -/
def insertEvent (e : Event) : List Event → List Event
  | [] => [e]
  | x :: t => if e.gts < x.gts ∨ (e.gts = x.gts ∧ e.source < x.source) then e :: x :: t else x :: insertEvent e t

/-- An event with its GTS, flags, magnitude and payload: it becomes due for the ring and is counted in its recorder
class, class 0 never (R356, R457, R459). -/
def raiseEvent (gts code src : Nat) (alarm completion : Bool) (m : Int) (payload : List Byte) (s : State) : State :=
  let cls := ((eventInfo code).map (·.1)).getD 0
  { s with
    evr.due := insertEvent { gts := gts, frame := s.time.frame, code := code, source := src, alarm := alarm,
                             completion := completion, afterLoss := false, payload := payload } s.evr.due
    recorder.live := if cls = 0 then s.recorder.live
      else tabMod {} s.recorder.live cls (countEvent s.recorder.second src m)
    counters := if cls = 0 then s.counters else tabMod 0 s.counters (ctrKey .events 0) (· + 1) }

/-- Payload cells of an event: the magnitude, then the other values (R457). -/
def cells (l : List Int) : List Byte := (l.take 5).flatMap (leInt 8) ++ List.replicate (40 - 8 * (l.take 5).length) 0

/-- Raises an event now, with the alarm flag of Table 21.2. -/
def raise (code src : Nat) (m : Int) (rest : List Int) (s : State) : State :=
  raiseEvent s.time.tb2 code src (((eventInfo code).map (·.2)).getD false) false m (cells (m :: rest)) s

/-- Raises an event for which Table 21.2 has no code: the low byte of its code is free, and the rule that raises it says
whether it is an alarm (logs 18, 23). -/
def raiseOpen (alarm : Bool) (high src : Nat) (m : Int) (rest : List Int) (s : State) : State :=
  let (v, s) := draw s
  raiseEvent s.time.tb2 (high * 256 + v % 256) src alarm false m (cells (m :: rest)) s

/-! Mailbox answers and completions (R351, R369). -/

/-- Codes of Table 16.3. -/
def Status.code : Status → Nat
  | .ok => 0 | .accepted => 1 | .staged => 2 | .malformed => 0x100 | .unknownOpcode => 0x101 | .range => 0x102
  | .state => 0x103 | .needTxn => 0x104 | .txnUnknown => 0x105 | .txnClosed => 0x106 | .txnFull => 0x107
  | .busy => 0x108 | .conflict => 0x109 | .late => 0x10A | .tooLate => 0x10B | .tether => 0x10C | .window => 0x10D
  | .noSpace => 0x10E | .rejected => 0x200 | .decodeFail => 0x201 | .hostDma => 0x202 | .dramUe => 0x203
  | .stopped => 0x204 | .auth => 0x205 | .versionOld => 0x206 | .rolledBack => 0x207

/-- Payload of a completion entry (Table 15.9, R369): frame, bytes, detail, and what the row puts from byte 53 on. -/
def completionPayload (op : Nat) (q : Request) (txn : Nat) (st : Status) (frame bytes detail : Nat)
    (extra : List Byte) : List Byte :=
  leBytes 2 op ++ [BitVec.ofNat 8 q.slot.toNat, 0] ++ leBytes 4 q.tag.toNat ++ leBytes 4 txn ++ leBytes 2 st.code
    ++ [0, 0] ++ leBytes 8 frame ++ leBytes 4 bytes ++ [BitVec.ofNat 8 detail] ++ slice extra 0 11

/-- Raises a completion entry (source 1; TXN_APPLIED and TXN_REJECTED are raised by source 0, Table 21.2). -/
def complete (code src op : Nat) (q : Request) (txn : Nat) (st : Status) (bytes detail : Nat) (extra : List Byte)
    (s : State) : State :=
  raiseEvent s.time.tb2 code src false true detail
    (completionPayload op q txn st s.time.frame bytes detail extra) s

/-- The response is written, the slot enters DONE and MAILBOX is raised (R351, R358); after a reset of the host
interface the response of the active request is discarded (R359). NOTIFY also asks for a completion entry of a
command answered at once (Table 16.1). -/
def respond (op : Nat) (q : Request) (st : Status) (detail txn : Nat) (result : List Byte) (s : State) : State :=
  let dropped := match s.host.active with
    | some (_, k, d) => d && k = q.slot.toNat
    | none => false
  let r : Response := { opcode := BitVec.ofNat 16 op, status := st, tag := q.tag, txnId := txn, detail := detail,
                        frame := s.time.frame, result := result }
  let s := { s with host.active := none, host.sample := none }
  let s := if dropped then s
    else interrupt 0 (modSlot q.slot.toNat (fun x => { x with state := .done, response := some r }) s)
  if q.flags.toNat % 2 = 1 ∧ st ≠ .accepted then complete 0x0004 1 op q txn st 0 detail [] s else s

/-- Takes a command off the list of those that owe a completion (R352). -/
def settle (c : Instr) (q : Request) (s : State) : State :=
  { s with host.owed := s.host.owed.erase (c, q) }

/-- Completes an ACCEPTED command by its entry (R369). -/
def finish (c : Instr) (op : Nat) (q : Request) (st : Status) (bytes detail : Nat) (extra : List Byte) (s : State) :
    State :=
  complete 0x0004 1 op q q.txnId.toNat st bytes detail extra (settle c q s)

/-! Device state (chapter 01). -/

/-- Codes of Table 1.4. -/
def DevState.code : DevState → Nat
  | .off => 0 | .boot => 1 | .ready => 2 | .observing => 3 | .degraded => 4 | .safe => 5 | .update => 6

/-- The data path runs. -/
def observing (s : State) : Bool := s.dev.state = .observing || s.dev.state = .degraded

/-- Frame period in ns. -/
def periodNs (s : State) : Nat := s.time.period * 1000

/-- TB0 time of tick `n`. -/
def tickTime (s : State) (n : Nat) : Nat := n * periodNs s

/-! Crossbar ports (R381 to R383). -/

/-- Distance from the pointer to a master, ascending with wrap from 22 to 0; the pointer itself comes last (R381). -/
def rrDistance (pointer m : Nat) : Nat := (m + 22 - pointer) % 23

/-- The waiting request that round-robin grants next. -/
def rrPick (pointer : Nat) : List PortReq → Option PortReq
  | [] => none
  | r :: t =>
    match rrPick pointer t with
    | none => some r
    | some x => if rrDistance pointer x.master < rrDistance pointer r.master then some x else some r

/-- The next grant at a port: its cycle, and the request, the first after the pointer of those that have arrived by then (R381). -/
def portNext (x : Port) : Option (Nat × PortReq) :=
  let g := max x.freeAt (x.waiting.foldl (fun m r => min m r.arrival) (2 ^ 64))
  (rrPick x.pointer (x.waiting.filter (fun r => decide (r.arrival ≤ g)))).map (fun r => (g, r))

/-- A request is granted in a cycle: it holds the port one cycle a beat (R379, R381). -/
def portGrant (p g : Nat) (r : PortReq) (s : State) : State :=
  countN .portWaits p (g - r.arrival) (count .grants p
    (modPort p (fun x => { x with pointer := r.master, holder := some r.master, freeAt := g + r.beats, waiting := x.waiting.erase r }) s))

/-- Grants at a port in cycles before `now`, at most `n` of them; `f` is what a granted request does at its target. A grant in the
present cycle is left until its requests have all come (R381). -/
def portRunWith (f : PortReq → State → State) (now p : Nat) : Nat → State → State
  | 0, s => s
  | n + 1, s =>
    match portNext (port s p) with
    | some (g, r) => if g < now then portRunWith f now p n (f r (portGrant p g r s)) else s
    | none => s

/-- The request that holds a port has not been answered whole. -/
def portBusy (s : State) (p : Nat) : Bool := (port s p).holder.isSome && decide (s.time.tb2 < (port s p).freeAt)

/-- A target that is reset or down answers the request granted and not yet answered, and every pending one, with an error (R383). -/
def portFail (p : Nat) (s : State) : State :=
  countN .resetErrors p (bit (portBusy s p) + (port s p).waiting.length)
    (modPort p (fun x => { x with waiting := [], holder := none, freeAt := min x.freeAt s.time.tb2 }) s)

/-- A pitch is powered down: no service or kernel is assigned to it (R383). -/
def pitchOff (s : State) (k : Nat) : Bool := serviceOf s k = 0 && (numbers (16 * k) 16).all (fun p => !(peg s p).customer)

/-- The Locket store is powered down (R383). -/
def locketOff (d : DevState) : Bool := d = .safe || d = .update

/-- The target of a port is reset or powered down (R383). -/
def targetDown (s : State) (p : Nat) : Bool :=
  (port s p).down || (p = 2 && locketOff s.dev.state) || (decide (16 ≤ p ∧ p < 32) && pitchOff s (p - 16))

/-- A change of device state raises STATE_CHANGE with the new state, the old, the cause and the frame (R22, R457); the
Locket store's port answers with errors at once where it powers down (R383). Causes are numbered by the rows of Table 1.5 from 0 (log 12). -/
def setState (new : DevState) (cause : Nat) (s : State) : State :=
  if s.dev.state = new then s
  else
    let s' := if locketOff new then portFail 2 (portRunWith (fun _ s => s) s.time.tb2 2 (port s 2).waiting.length s) else s
    raise 0x0001 0 new.code [s.dev.state.code, cause, s.time.frame]
      { s' with dev.state := new, dev.stateChanges := s.dev.stateChanges + 1 }

/-- Runs a command's effect unless the part is OFF, where nothing but the always-on domain runs (Table 1.4). -/
def whenOn (f : State → State) (s : State) : Out := .next (if s.dev.state = .off then s else f s)

/-- Alarm `code` of instance `inst` becomes active or stops being active (R451). -/
def setAlarm (code inst : Nat) (on : Bool) (s : State) : State :=
  { s with health.alarms := if on then (if (code, inst) ∈ s.health.alarms then s.health.alarms
      else s.health.alarms ++ [(code, inst)]) else s.health.alarms.filter (· != (code, inst)) }

/-- Some alarm is active (Table 15.3): one that its rule raises and clears, a quad in FAULT (R280), or the recorder nearly full, not
RUNNING or with a sector newly bad (R461, R463). An alarm event without a state of its own is active at its entry only (log 50). -/
def alarmActive (s : State) : Bool :=
  !s.health.alarms.isEmpty || (List.range 32).any (fun k => decide ((quad s k).state = .fault)) ||
    s.recorder.nearly || decide (s.recorder.state ≠ 0) || s.recorder.badSeen

/-- A cause that calls for DEGRADED is raised or withdrawn (Tables 1.5, 20.7). -/
def setCause (c : Cause) (on : Bool) (s : State) : State :=
  { s with dev.causes := if on then (if c ∈ s.dev.causes then s.dev.causes else s.dev.causes ++ [c])
      else s.dev.causes.filter (· != c) }

/-- Units of one kind abandon `n` items in the current frame (R225, R226): 0 store, 1 arrays, 2 Clasp, 4 Pack, 5 pegs,
6 channeliser; `insts` are the instances. -/
def noteAbandon (kind : Nat) (insts : List Nat) (n : Nat) (s : State) : State :=
  if n = 0 then s
  else { s with
    sched.abandonNow := tabMod 0 s.sched.abandonNow kind (· + n)
    sched.abandonedBy := insts.foldl (fun l k => addSource l (kind * 1024 + k)) s.sched.abandonedBy }

/-- A unit that has abandoned work in F consecutive frames sets ABANDON_STORM and raises its alarm, once (R226). -/
def checkStorms (s : State) : State :=
  s.sched.stormRun.foldl (fun s e =>
    if s.sched.stormF ≤ e.2 && !s.health.alarms.contains (0x0601, e.1) then
      raise 0x0601 6 s.sched.stormF [e.1 / 1024, e.1 % 1024]
        (setAlarm 0x0601 e.1 true { s with sched.sticky := s.sched.sticky ||| 0x8000 })
    else s) s

/-- The input power cap in W (R416, Table 15.10). -/
def capWatts (s : State) : Nat := 180 + 20 * s.power.pwrcap.toNat

/-! Transactions' endings (R238 to R241). -/

/-- The open transaction is rolled back and TXN_EXPIRED reports it (R240, R241). -/
def expireTxn (s : State) : State :=
  match s.sched.txn with
  | .opened id =>
    raise 0x0102 0 id [] (count .txnExpired 0
      { s with sched.txn := .none, sched.staged := [] })
  | _ => s

/-- The pending transaction is rejected, with nothing applied, and TXN_REJECTED closes its commit (R238). A REJECTED
verdict carries its check code in `detail`. -/
def rejectCommit (st : Status) (detail : Nat) (s : State) : State :=
  match s.sched.txn, s.sched.commit with
  | .pending id, some c =>
    let s := settle (.txnCommit c.req) c.req s
    let s := { s with sched.txn := .none, sched.staged := [], sched.commit := none }
    let s := if st = .rejected then count .commitsRejected detail s else s
    let s := match c.trigger with
      | some k => setTrigger k none s
      | none => s
    complete 0x0101 0 0x0101 c.req id st 0 detail [] s
  | _, _ => s

/-- Calls for SAFE at the next tick; the first cause stands (R19). A pending transaction that names a later tick is rejected
at once (R241). -/
def callSafe (cause : Nat) (s : State) : State :=
  let later := match s.sched.commit with
    | some c => decide (s.time.frame + 1 < c.na)
    | none => false
  let s := if later then rejectCommit .state 0 s else s
  { s with dev.safeAt := match s.dev.safeAt with
      | some c => some c
      | none => some cause }

/-- Leaving READY, OBSERVING or DEGRADED for SAFE or UPDATE ends the transaction in force (R241). -/
def endTxnForState (s : State) : State := rejectCommit .state 0 (expireTxn s)

/-! The DMA host windows (R362) and host memory. -/

/-- Window `w` of the Tether. -/
def window (s : State) (w : Nat) : Window := tabGet {} s.tether.windows w

/-- The range lies within one VALID window that permits the direction (R353, R362). -/
def hostRangeOk (s : State) (write : Bool) (addr len : Nat) : Bool :=
  (List.range 16).any (fun w =>
    let x := window s w
    x.valid && (if write then x.write else x.read) && decide (x.base ≤ addr) &&
      decide (addr + len ≤ x.limit / 4096 * 4096 + 4096))

end Sys2Proof.Machine
end

