-- ==== Sys2Proof/Machine/DramCore.lean ====
section
/-! DEFINITION. The DRAM controllers as every unit reaches them (chapter 14): the address map, the page policy, the requests that
wait in the order of R87 and R334, and the reads and writes of bursts with their ECC. -/

namespace Sys2Proof.Machine

/-! Address map (R339 to R341). -/

/-- Channels in use, with their capacities in GiB: trained and not excluded (R329). -/
def chansInUse (s : State) : List (Nat × Nat) :=
  (List.range 12).filterMap (fun c =>
    let d := dramCh s c
    if d.trained && !d.excluded && decide (0 < d.capGiB) then some (c, d.capGiB) else none)

/-- Capacity in use, in GiB. -/
def capacityGiB (s : State) : Nat := ((chansInUse s).map (·.2)).sum

/-- Interleave table of channels with capacities (R339): rounds in which every channel whose k exceeds the round takes
its turn; entries (channel, round, k). -/
def interleave (l : List (Nat × Nat)) : List (Nat × Nat × Nat) :=
  let g := (l.map (·.2)).foldl Nat.gcd 0
  let ks := l.map (fun e => (e.1, e.2 / g))
  let most := ks.foldl (fun m e => max m e.2) 0
  (List.range most).flatMap (fun r => (ks.filter (fun e => decide (r < e.2))).map (fun e => (e.1, r, e.2)))

/-- Channel and channel-local address of a DRAM address under an interleave table (R339). -/
def mapAddr (t : List (Nat × Nat × Nat)) (addr : Nat) : Option (Nat × Nat) :=
  let n := addr / 2048
  let w := t.length
  (t[n % w]?).map (fun e => (e.1, (n / w * e.2.2 + e.2.1) * 2048 + addr % 2048))

/-- Channel and channel-local address of a DRAM address. -/
def dramMap (s : State) (addr : Nat) : Option (Nat × Nat) := mapAddr (interleave (chansInUse s)) addr

/-- Bits that choose DIMM, rank and die, as many as the population needs: a power of two holds the ranks and dies of its DIMMs
(R340, Table 14.4). -/
def dimmBits (l : List Dimm) : Nat := min 4 (Nat.log2 (l.map (fun d => d.ranks * d.dies)).sum)

/-- Bank and row of a channel-local address (R340, Table 14.4): the bank number joins the subchannel, bank group, bank
and the bits that choose DIMM, rank and die. -/
def bankRow (s : State) (ch loc : Nat) : Nat × Nat :=
  let nb := dimmBits (dramCh s ch).dimms
  let row := loc / 2 ^ (19 + nb)
  let bg := (loc / 2 ^ 14 % 8) ^^^ (row % 8)
  let bank := (loc / 2 ^ 17 % 4) ^^^ (row / 8 % 4)
  (loc / 64 % 2 + 2 * bg + 16 * bank + 64 * (loc / 2 ^ 19 % 2 ^ nb), row)

/-- First DRAM address of the long-accumulation region and of the store (R341). -/
def laBase (s : State) : Nat := s.store.serviceGiB * 2 ^ 30
def storeBase (s : State) : Nat := (s.store.serviceGiB + s.store.laGiB) * 2 ^ 30

/-- Region of a DRAM address in the order of R341, from 0 (log 12). -/
def regionOf (s : State) (storeLen addr : Nat) : Nat :=
  if addr < laBase s then 0 else if addr < storeBase s then 1 else if addr < storeBase s + storeLen then 2 else 3

/-! Page policy (R333). -/

/-- Updates the predictor of a bank for a request to a row, and keeps or closes the row after it (Table 14.2). -/
def pageAccess (ch bank row : Nat) (s : State) : State :=
  let d := dramCh s ch
  let ctr := tabGet 2 d.pageCtr bank
  let last := tabGet none d.lastRow bank
  let same := last = some row
  let isOpen := (tabGet none d.openRow bank).isSome
  let new := if last.isNone then ctr else if same then min 3 (ctr + 1) else ctr - 1
  let s := modDram ch (fun d => { d with
    pageCtr := tabSet 2 d.pageCtr bank new
    openRow := tabSet none d.openRow bank (if 2 ≤ new then some row else none)
    lastRow := tabSet none d.lastRow bank (some row) }) s
  if isOpen && same then count .pageHits ch s else if isOpen then count .pageConflicts ch s else s

/-- An access to a channel-local address (R333). -/
def bankAccess (ch loc : Nat) (s : State) : State := pageAccess ch (bankRow s ch loc).1 (bankRow s ch loc).2 s

/-! ECC (R336 to R338). -/

/-- `n` uncorrectable codewords of a channel, the first at an address: UE is counted, and kept for the frame's entry and for the second. -/
def countUes (n ch addr : Nat) (s : State) : State :=
  countN .ue ch n (modDram ch (fun d => { d with
    ueSeen := true, ueSecond := d.ueSecond + n
    ueFrame := match d.ueFrame with
      | none => some (n, addr, s.time.tb2)
      | some (m, a, t) => some (m + n, a, t) }) s)

/-- An uncorrectable codeword of a channel. -/
def countUe (ch addr : Nat) (s : State) : State := countUes 1 ch addr s

/-- Devices of a channel whose CE are reported: ten symbol positions of each subchannel (R327; log 22). -/
def ceDevices : Nat := 20

/-- A corrected codeword: CE is counted against the channel and device. -/
def countCe (ch dev : Nat) (s : State) : State :=
  count .ce (ch * 64 + dev % ceDevices) (modDram ch (fun d => { d with ceSeen := true }) s)

/-! Waiting requests (R87, R334). -/

/-- The channel of an address is lost, or the address has none. -/
def chanLost (s : State) (addr : Nat) : Bool :=
  match dramMap s addr with
  | some (c, _) => (dramCh s c).lost
  | none => true

/-- Addresses of one channel. -/
def onChannel (s : State) (c addr : Nat) : Bool := (dramMap s addr).map (·.1) = some c

/-- The two lie in one 64-byte burst. -/
def sameBurst (a b : Nat) : Bool := a / 64 = b / 64

/-- Issues a write to the DRAM; a lost channel accepts and discards it at once (R338). -/
def issueWrite (addr : Nat) (bytes : List Byte) (s : State) : State :=
  match dramMap s addr with
  | none => s
  | some (c, loc) =>
    if (dramCh s c).lost then s
    else bankAccess c loc { s with dram.mem := memWrite s.dram.mem addr bytes }

/-- Reads one burst with the devices whose symbols are in error, and says whether it comes back uncorrectable (R336, R338). The code
corrects one symbol and detects two; past two the manual gives no outcome, so a free value chooses among uncorrectable, a false
correction, which leaves free bytes, and none seen (log 1). -/
def readBurst (addr : Nat) (devices : List Nat) (s : State) : Bool × State :=
  match dramMap s addr with
  | none => (true, s)
  | some (c, loc) =>
    if (dramCh s c).lost then (true, countUe c addr s)
    else
      let s := bankAccess c loc s
      match devices.dedup with
      | [] => (false, s)
      | [d] => (false, countCe c d s)
      | [_, _] => (true, countUe c addr s)
      | d :: _ =>
        let (v, s) := draw s
        if v % 3 = 0 then (true, countUe c addr s)
        else if v % 3 = 1 then
          let (l, s) := freeBytes 64 s
          (false, countCe c d { s with dram.mem := memWrite s.dram.mem (addr / 64 * 64) l })
        else (false, s)

/-- A request that writes. -/
def DramReq.isWrite (r : DramReq) : Bool :=
  match r.kind with
  | .read _ => false
  | _ => true

/-- A store burst. -/
def DramReq.isStore (r : DramReq) : Bool :=
  match r.kind with
  | .store _ _ _ _ => true
  | _ => false

/-- TB2 time by which a store burst issued at `t` must be accepted: one frame later (R81). -/
def burstDue (s : State) (t : Nat) : Nat := t + periodNs s

/-- A controller can still take the request: a store burst for one frame (R81). -/
def reqAlive (s : State) (r : DramReq) : Bool :=
  match r.kind with
  | .store _ _ _ t => decide (s.time.tb2 ≤ burstDue s t)
  | _ => true

/-- Does what a request asks. -/
def issueReq (r : DramReq) (s : State) : State :=
  match r.kind with
  | .store _ _ l _ => issueWrite r.addr l s
  | .write l => issueWrite r.addr l s
  | .flag => issueWrite r.addr (List.replicate 64 0x88) s
  | .read d => (readBurst r.addr d s).2

/-- What goes before `r` of the queue `q`, which stands in arrival order: where an earlier request to its burst writes, or `r` writes,
the first of that burst (R334). -/
def ahead (q : List DramReq) (r : DramReq) : DramReq :=
  let l := (q.takeWhile (fun x => x ≠ r)).filter (fun x => sameBurst x.addr r.addr)
  if l.any (fun x => x.isWrite || r.isWrite) then l.headD r else r

/-- The request that is served next among those `p` admits: of the highest class, in arrival order within it (R87), unless a matching
one goes before it (R334). -/
def nextReq (s : State) (p : DramReq → Bool) : Option DramReq :=
  let q := s.dram.queue.filter (reqAlive s)
  ((q.filter p).foldl (fun (best : Option DramReq) r => match best with
    | none => some r
    | some b => if r.cls < b.cls then some r else best) none).map (ahead q)

/-- A waiting request is served. -/
def takeReq (r : DramReq) (s : State) : State := issueReq r { s with dram.queue := s.dram.queue.erase r }

/-- Serves the requests that `p` admits, in their order, `n` at most. -/
def serveN : Nat → (DramReq → Bool) → State → State
  | 0, _, s => s
  | n + 1, p, s =>
    match nextReq s p with
    | none => s
    | some r => serveN n p (takeReq r s)

/-- What waits where a request of class `c` goes is served before it: the classes above its own, and requests of its own that arrived
earlier (R87). -/
def serveFirst (c : Nat) (on : Nat → Bool) (s : State) : State :=
  serveN s.dram.queue.length (fun r => decide (r.cls ≤ c) && on r.addr) s

/-- A waiting write to the burst of `addr`. -/
def writeWaits (s : State) (addr : Nat) : Bool :=
  s.dram.queue.any (fun r => reqAlive s r && r.isWrite && sameBurst r.addr addr)

/-- Every waiting write to the burst of `addr` is issued before a read of it (R334). -/
def drainBurst (addr : Nat) (s : State) : State :=
  serveN s.dram.queue.length (fun r => r.isWrite && sameBurst r.addr addr) s

/-- A read of class `cls` of one burst: it waits behind what goes before it and behind every write to its burst, which RAW_WAITS counts;
a lost channel answers it at once (R87, R334, R338). -/
def fetchBurst (cls addr : Nat) (devices : List Nat) (s : State) : Bool × State :=
  if chanLost s addr then readBurst addr devices s
  else
    let c := ((dramMap s addr).map (·.1)).getD 0
    let s := if writeWaits s addr then count .rawWaits c s else s
    readBurst addr devices (drainBurst addr (serveFirst cls (onChannel s c) s))

/-- The bursts of `n` bytes at an address. -/
def burstAddrs (addr n : Nat) : List Nat :=
  (numbers (addr / 64) ((addr + n + 63) / 64 - addr / 64)).map (64 * ·)

/-- Reads of class `cls` of bursts, each with the devices in error: whether one came back uncorrectable. -/
def fetchBursts (cls : Nat) : List (Nat × List Nat) → State → Bool × State
  | [], s => (false, s)
  | e :: l, s =>
    let x := fetchBurst cls e.1 e.2 s
    let y := fetchBursts cls l x.2
    (x.1 || y.1, y.2)

/-- A read of `n` DRAM bytes by a unit of class `cls`: the bytes, and whether a burst came back uncorrectable (R87, R334, R338). -/
def dramFetch (cls addr n : Nat) (s : State) : List Byte × Bool × State :=
  let x := fetchBursts cls ((burstAddrs addr n).map (fun a => (a, []))) s
  (memRead x.2.dram.mem addr n, x.1, x.2)

/-- Reads of class `cls` of bursts up to the first that comes back uncorrectable: how many came back right. -/
def fetchUntil (cls : Nat) : List (Nat × List Nat) → State → Nat × State
  | [], s => (0, s)
  | e :: l, s =>
    let x := fetchBurst cls e.1 e.2 s
    if x.1 then (0, x.2)
    else
      let y := fetchUntil cls l x.2
      (1 + y.1, y.2)

/-- Bytes at an address, cut where the 64-byte bursts of the DRAM end; `n` bounds the pieces. -/
def burstsOf : Nat → Nat → List Byte → List (Nat × List Byte)
  | 0, _, _ => []
  | n + 1, a, l =>
    if l.isEmpty then []
    else
      let k := 64 - a % 64
      (a, l.take k) :: burstsOf n (a + k) (l.drop k)

/-- Puts a request at the end of the controllers' queue. -/
def queueReq (r : DramReq) (s : State) : State := { s with dram.queue := s.dram.queue ++ [r] }

/-- Puts a write in the controllers' queue under its class of R87, one request to a burst; a lost channel discards its own at once
(R338). -/
def queueWrite (addr cls : Nat) (bytes : List Byte) (s : State) : State :=
  ((burstsOf bytes.length addr bytes).filter (fun e => !chanLost s e.1)).foldl
    (fun s e => queueReq { cls := cls, addr := e.1, kind := .write e.2 } s) s

/-! The two copies (R341). -/

/-- Objects kept in two copies: schedule slots 0 to 3, and the Ridge's own state. -/
def copiedObjects : List Nat := [0, 1, 2, 3, 4]

/-- Bytes of an object that is kept in two copies. -/
def copiedSize (s : State) (k : Nat) : Nat := if k ≤ 3 then (schedSlot s k).size else Config.ridgeStateSize

/-- Bytes that the two copies of `n` bytes take, in whole granules. -/
def twoCopies (n : Nat) : Nat := 4096 * ceilDiv n 2048

/-- Bytes of the service region that the recentring reserve and the copies of other objects than slot `k` leave free; a slot that an
image of `l` is on its way to takes that image's (R341). -/
def freeService (s : State) (k : Nat) (l : List (Nat × Nat)) : Nat :=
  s.store.serviceGiB * 2 ^ 30 - 2 ^ 20 - ((copiedObjects.filter (· ≠ k)).map (fun j =>
    (l.filter (fun e => e.1 = j)).foldl (fun m e => max m (twoCopies e.2)) (twoCopies (copiedSize s j)))).sum

/-- Writes the two copies of an object: granule by granule, the second copy's one interleave entry behind the first's (R341). Where an
object begins is free (log 2). -/
def putCopies (k : Nat) (l : List Byte) (s : State) : State :=
  (List.range (ceilDiv l.length 2048)).foldl (fun s g =>
    let b := (l.drop (2048 * g)).take 2048
    let a := Config.copyPlace k + 4096 * g
    queueWrite (a + 2048) 4 b (queueWrite a 4 b s)) s

end Sys2Proof.Machine
end

