-- ==== Sys2Proof/Machine/Crossbar.lean ====
section
/-! DEFINITION. The crossbar (R379 to R383): masters, targets and their address ranges, the default target, and the transfers that
other units make through it, those of the firmware's DMA channels among them (R353, R384). -/

namespace Sys2Proof.Machine

/-! Paths and address ranges (R379, Tables 17.1 and 17.2). -/

/-- Paths of Table 17.2 by master index of Table 17.1: the targets each master reaches. -/
def paths (m : Nat) : List Nat :=
  if m = 0 then [5, 7]
  else if m = 1 then [0, 1, 2, 3, 4, 5, 7]
  else if m = 2 then [0, 1, 2, 3, 4, 6]
  else if m = 3 then [0, 1, 3, 6]
  else if m ≤ 19 then [1, 3, 5]
  else if m ≤ 21 then [3]
  else if m = 22 then [0, 4]
  else []

/-- First peg address of the shared memories; pitch `k` lies at 0x0100_0000 + k × 0x0010_0000 (Table 11.1). -/
def sharedBase : Nat := 0x01000000

/-- First peg address of the DRAM service region (Table 11.1). -/
def servicePeg : Nat := 0x800000000000

/-- Bytes of the service region in use. -/
def serviceBytes (s : State) : Nat := s.store.serviceGiB * 2 ^ 30

/-- Register-space windows granted to a peg: those its kernel's manifest declares, of the set for kernels, or its service's (R267,
Table 11.1). -/
def windowsOf (s : State) (p : Nat) : List (Nat × Nat) :=
  if (peg s p).customer then (Config.kernelManifest (tabGet [] s.peg.kernels p)).windows.filter Config.kernelWindows
  else Config.serviceWindows (bundleSection s 2) (serviceOf s (p / 16))

/-- A range lies in a window granted to the peg. -/
def windowGranted (s : State) (p addr len : Nat) : Bool :=
  (windowsOf s p).any (fun w => decide (w.1 ≤ addr) && decide (addr + len ≤ w.1 + w.2))

/-- Byte ranges of the Tether window that a field holds: the words of an entry other than its control word (Table 15.10). -/
def shadowed (o : Nat) : Bool :=
  (decide (0x1000 ≤ o ∧ o < 0x1400) && decide (o % 32 < 4)) || (decide (0x2000 ≤ o ∧ o < 0x2200) && decide (o % 32 < 16)) ||
    (decide (0x10000 ≤ o ∧ o < 0x14000) && decide (o % 64 < 24))

/-- Offset of a control word. -/
def isControl (o : Nat) : Bool :=
  (decide (0x1000 ≤ o ∧ o < 0x1400) && o % 32 = 28) || (decide (0x2000 ≤ o ∧ o < 0x2200) && o % 32 = 28) ||
    (decide (0x10000 ≤ o ∧ o < 0x14000) && o % 64 = 60)

/-- A byte of the Tether window that some register holds. -/
def tetherMapped (o : Nat) : Bool :=
  decide (o < 4) || (decide (0x10 ≤ o) && decide (o < 0x14)) || (decide (0x20 ≤ o) && decide (o < 0x24)) ||
    (decide (0x30 ≤ o) && decide (o < 0x34)) || (decide (0x40 ≤ o) && decide (o < 0x44)) ||
    (decide (0x48 ≤ o) && decide (o < 0x4C)) || shadowed o || (decide (3 ≤ o) && isControl (o / 4 * 4))

/-- A byte of BAR0 below the Tether window that lies in a register (Tables 15.2 to 15.4, 15.8). -/
def barMapped (o : Nat) : Bool :=
  decide (o < 0x3C) || [(0x1000, 0x14), (0x1020, 0x10), (0x1040, 4), (0x1100, 0x40), (0x1180, 0x100), (0x10000, 0x10000),
    (0x100000, 0x400), (0x100800, 8), (0x200000, 0xC), (0x200010, 0x14), (0x200028, 8)].any
      (fun e => decide (e.1 ≤ o) && decide (o < e.1 + e.2))

/-- A byte of BAR0 that its target holds: a mailbox slot, or a register (Table 15.2). -/
def barTarget (t o : Nat) : Bool :=
  let slot := decide (0x10000 ≤ o ∧ o < 0x20000)
  if t = 7 then slot else !slot && (if 0x1000000 ≤ o then tetherMapped (o - 0x1000000) else barMapped o)

/-- An address of the register space lies in the Tether window (Table 15.10), which PCIe inbound alone reaches. -/
def tetherAddr (a : Nat) : Bool := decide (0x01000000 ≤ a) && decide (a < 0x02000000)

/-- The target decodes `n` bytes at an address for a master (R379): BAR0 offsets for PCIe inbound, peg addresses for the transfer unit of
a pitch (Table 11.1), shared memories, DRAM addresses, MRAM offsets and host addresses for the others. Address ranges that the manual
does not give are free (log 2). -/
def decodes (s : State) (m t a n : Nat) : Bool :=
  if m = 0 then (List.range n).any (fun i => barTarget t (a + i))
  else if 4 ≤ m ∧ m ≤ 19 then
    if t = 1 then decide (a + n ≤ 0x40000) || decide (0x100000 ≤ a ∧ a + n ≤ 0x200000) ||
      decide (sharedBase ≤ a ∧ a + n ≤ 2 * sharedBase)
    else if t = 3 then decide (servicePeg ≤ a ∧ a + n ≤ servicePeg + serviceBytes s)
    else decide (0x10000000 ≤ a ∧ a + n ≤ 0x20000000) && (numbers (16 * (m - 4)) 16).any (fun p => windowGranted s p a n)
  else if t = 1 then
    decide (sharedBase ≤ a ∧ a + n ≤ 2 * sharedBase) || (Config.targetAddr 1 a && !(m = 3 && Config.instructionAddr a))
  else if t = 3 then decide (a + n ≤ capacityGiB s * 2 ^ 30)
  else if t = 4 then decide (a + n ≤ 0x400000)
  else if t = 6 then decide (a + n ≤ 2 ^ 64)
  else Config.targetAddr t a && !(t = 5 && tetherAddr a)

/-- The master has a path to the bytes at the target (R379, Table 17.2). -/
def hasPath (s : State) (m t a n : Nat) : Bool := decide (t ∈ paths m) && decodes s m t a n

/-- Pitch whose shared memory holds a peg address (Table 11.1). -/
def pitchOf (a : Nat) : Nat := (a - sharedBase) / 2 ^ 20 % 16

/-- Port of a request: pitch memories have one port per pitch (Table 17.1), numbered 16 + pitch; a transfer unit's addresses below the
shared memories are its own pitch's (Table 11.1). -/
def portOf (m t a : Nat) : Nat :=
  if t ≠ 1 then t else if 4 ≤ m ∧ m ≤ 19 ∧ a < sharedBase then 16 + (m - 4) else 16 + pitchOf a

/-! Requests (R380 to R383). -/

/-- What a request writes at its target: a shared memory, DRAM through the service port, or MRAM (Table 17.1). What PCIe inbound writes
its own commands write. -/
def portStore (p : Nat) (r : PortReq) (s : State) : State :=
  if r.data.isEmpty then s
  else if 16 ≤ p ∧ sharedBase ≤ r.addr then { s with peg.shared := memWrite s.peg.shared (r.addr - sharedBase) r.data }
  else if p = 3 then queueWrite (r.addr % servicePeg) 4 r.data s
  else if p = 4 then { s with boot.mram := memWrite s.boot.mram r.addr r.data }
  else s

/-- Grants at a port in cycles before the present one; a target that is down answers with errors. -/
def portSettle (p : Nat) (s : State) : State :=
  if targetDown s p then portFail p s
  else portRunWith (portStore p) s.time.tb2 p (port s p).waiting.length s

/-- Grants at a port until nothing of master `m` waits there. -/
def portUntil (m p : Nat) : Nat → State → State
  | 0, s => s
  | n + 1, s =>
    if !(port s p).waiting.any (fun r => r.master = m) then s
    else match portNext (port s p) with
      | some (g, r) => portUntil m p n (portStore p r (portGrant p g r s))
      | none => s

/-- A request joins a port; a port that has had none for 8 cycles is idle, and free from the cycle after it arrives (R382). -/
def portJoin (p : Nat) (r : PortReq) (s : State) : State :=
  modPort p (fun x =>
    let asleep := x.idle || (x.waiting.isEmpty && decide (x.freeAt + 8 ≤ r.arrival))
    { x with
      idle := false, holder := if asleep then none else x.holder
      freeAt := if asleep then r.arrival + 1 else x.freeAt, waiting := x.waiting ++ [r] }) s

/-- A master's access of `n` bytes at a port, in requests of at most four beats of `w` bytes, each granted in its turn (R379, R381). The
access is one step of the model: it is answered whole in it (log 6). -/
def portServe (w m p a n : Nat) (s : State) : State :=
  (List.range (ceilDiv n (4 * w))).foldl (fun s k =>
    let c := min (4 * w) (n - 4 * w * k)
    let s := portSettle p s
    let s := portUntil m p (port s p).waiting.length s
    let s := portJoin p { master := m, addr := a + 4 * w * k, bytes := c, beats := ceilDiv c w, data := [], arrival := s.time.tb2 } s
    modPort p (fun x => { x with holder := none }) (portUntil m p (port s p).waiting.length s)) s

/-- A request that reaches no target by a path: DEFAULT_HITS is counted, the frame's first address is kept, and the Ridge raises an alarm;
PCIe inbound reads 0, and its write is discarded and counted (R347, R380). -/
def defaultTarget (m a : Nat) (write : Bool) (s : State) : State :=
  let s := count .defaultHits m
    { s with dma.firstDefault := tabMod none s.dma.firstDefault m (fun x => match x with
        | some b => some b
        | none => some a) }
  let s := if m = 1 then raise 0x0A00 140 m [] s else s
  if m ≠ 0 then s else if write then count .barUnmapped 0 s else { s with host.readData := 0 }

/-- An answer TARGET_RESET of a port. -/
def resetAnswer (p : Nat) (s : State) : State := count .resetErrors p s

/-! Transfers of the firmware and of record assembly (R211, R353, R384, R389 to R393). Each is one descriptor of its channel (log 21). -/

/-- The completion record and the counters of a descriptor that ends with a code of Table 17.5 (R389, R393). -/
def noteDesc (ch code : Nat) (tag : BitVec 32) (residue : Nat) (s : State) : State :=
  let s := modDma ch (fun c => { c with
      lastStatus := code, record := (code, tag, residue)
      sticky := c.sticky ||| (if code = 0 then 0 else if code = 1 then 0x40 else 0x80) }) s
  let s := count .descriptors ch s
  if code = 0 then s else count .dmaStatus (ch * 64 + code) s

/-- Bytes at an address, cut where 4 KiB pages end; `n` bounds the pieces. -/
def pagesOf : Nat → Nat → List Byte → List (Nat × List Byte)
  | 0, _, _ => []
  | n + 1, a, l =>
    if l.isEmpty then []
    else
      let k := 4096 - a % 4096
      (a, l.take k) :: pagesOf n (a + k) (l.drop k)

/-- What keeps a memory request to the host from being issued, as a code of Table 17.5: the Tether's windows, which it is checked against
whole, a host that cannot be reached, or an interface that is reset (R345, R362, R383). -/
def hostStop (s : State) (write : Bool) (a n : Nat) : Option Nat :=
  if !hostRangeOk s write a n then some 5
  else if !hostReachable s then some (if write then 3 else 2)
  else if targetDown s 6 then some 7
  else none

/-- Counts what stopped a request to the host. -/
def countStop (code : Nat) (s : State) : State :=
  if code = 5 then count .windowDenied 0 s else if code = 7 then resetAnswer 6 s else s

/-- Writes pieces to the host in order until one is stopped: its code, 0 if none, the bytes not issued, and the state. A piece that the
port answers with TARGET_RESET has been issued, and is ERROR_LAST_BEAT where it is the last (R392). -/
def putPieces (ch : Nat) : List (Nat × List Byte) → State → Nat × Nat × State
  | [], s => (0, 0, s)
  | (a, l) :: t, s =>
    match hostStop s true a l.length with
    | some c =>
      let rest := (t.map (fun e => e.2.length)).sum
      if c = 7 then (if rest = 0 then 4 else 7, rest, countStop c s) else (c, l.length + rest, countStop c s)
    | none => putPieces ch t (countN .dmaBytes ch l.length
        (portServe 64 3 6 a l.length { s with host.mem := memWrite s.host.mem a l }))

/-- A channel writes runs of bytes to host memory as one descriptor, cut at 4 KiB pages: its code, 0 once all is written (R211, R353,
R355, R386). -/
def chanWrite (ch : Nat) (l : List (Nat × List Byte)) (s : State) : Nat × State :=
  let r := putPieces ch (l.flatMap (fun e => pagesOf e.2.length e.1 e.2)) s
  (r.1, noteDesc ch r.1 0 r.2.1 r.2.2)

/-- Checks the pages of a read of host memory in order: the first code, 0 if none. -/
def getPieces (ch : Nat) : List (Nat × Nat) → State → Nat × State
  | [], s => (0, s)
  | (a, n) :: t, s =>
    match hostStop s false a n with
    | some c => (c, countStop c s)
    | none => getPieces ch t (countN .dmaBytes ch n (portServe 64 2 6 a n s))

/-- A channel reads host memory as one descriptor (R353, R386): the bytes, and its code. -/
def chanRead (ch a n : Nat) (s : State) : List Byte × Nat × State :=
  let l := memRead s.host.mem a n
  let r := getPieces ch ((pagesOf n a l).map (fun e => (e.1, e.2.length))) s
  (l, r.1, noteDesc ch r.1 0 (if r.1 = 0 then 0 else n) r.2)

end Sys2Proof.Machine
end

