-- ==== Sys2Proof/Machine/Operands.lean ====
section
/-! DEFINITION. The forms of a Kenra argument (R370 to R375, Table 16.4): typed fields, SEL, BULK, CELLS, STATUS and
LOAD, and the check of a layout against an argument (R7, R370, R371). -/

namespace Sys2Proof.Machine

/-- Field u8 at an offset. -/
def u8 (a : List Byte) (o : Nat) : Nat := (a.getD o 0).toNat
/-- Field u16. -/
def u16 (a : List Byte) (o : Nat) : Nat := leVal (slice a o 2)
/-- Field u32. -/
def u32 (a : List Byte) (o : Nat) : Nat := leVal (slice a o 4)
/-- Field u64. -/
def u64 (a : List Byte) (o : Nat) : Nat := leVal (slice a o 8)
/-- Field s8. -/
def s8 (a : List Byte) (o : Nat) : Int := signed 8 (u8 a o)
/-- Field s64. -/
def s64 (a : List Byte) (o : Nat) : Int := signed 64 (u64 a o)

/-- First failing check: the offset that stands beside it. -/
def firstBad : List (Bool × Nat) → Option Nat
  | [] => none
  | (ok, o) :: t => if ok then firstBad t else some o

/-- First failing check: the status that stands beside it. -/
def firstFail : List (Bool × Status) → Option (Status × Nat)
  | [] => none
  | (ok, st) :: t => if ok then firstFail t else some (st, 0)

/-! Layouts (R370). A layout is the list of the byte ranges it names, each (offset, length). -/

/-- End of the last field. -/
def layoutEnd (f : List (Nat × Nat)) : Nat := f.foldl (fun m e => max m (e.1 + e.2)) 0

/-- A multiple of 8 no less than `n`. -/
def round8 (n : Nat) : Nat := (n + 7) / 8 * 8

/-- Byte `i` belongs to a named field. -/
def named (f : List (Nat × Nat)) (i : Nat) : Bool := f.any (fun e => decide (e.1 ≤ i) && decide (i < e.1 + e.2))

/-- First byte of the unnamed range that holds byte `i`. -/
def gapStart (f : List (Nat × Nat)) (i : Nat) : Nat :=
  f.foldl (fun m e => if e.1 + e.2 ≤ i then max m (e.1 + e.2) else m) 0

/-- First bad field of an argument under a layout: none if the length is exact and every unnamed byte is 0; a wrong
length has no bad field and reads 0 (Table 16.2; log 8). -/
def layoutBad (f : List (Nat × Nat)) (a : List Byte) : Option Nat :=
  if a.length ≠ round8 (layoutEnd f) then some 0
  else ((List.range a.length).find? (fun i => !named f i && a.getD i 0 ≠ 0)).map (gapStart f)

/-- SEL (Table 16.4). -/
def selForm : List (Nat × Nat) := [(0, 4), (8, 0)]
/-- BULK at an offset. -/
def bulkForm (o : Nat) : List (Nat × Nat) := [(o, 1), (o + 4, 12)]
/-- CELLS with `n` cells at an offset. -/
def cellsForm (o n : Nat) : List (Nat × Nat) := [(o, 4), (o + 8, 8 * n)]
/-- The common part of a LOAD at an offset (R375). -/
def loadForm (o : Nat) : List (Nat × Nat) := bulkForm o ++ [(o + 16, 5), (o + 24, 0)]
/-- A STATUS command's argument (R374): SEL and flags. -/
def statusForm : List (Nat × Nat) := selForm ++ [(8, 4)]

/-- Layout check of a STATUS command; its flag bits 31:2 are reserved. -/
def statusLayout (a : List Byte) : Option Nat :=
  match layoutBad statusForm a with
  | some o => some o
  | none => if 4 ≤ u32 a 8 then some 8 else none

/-- SEL first. -/
def selFirst (a : List Byte) : Nat := u16 a 0
/-- SEL count. -/
def selCount (a : List Byte) : Nat := u16 a 2
/-- The instances SEL names. -/
def selected (a : List Byte) : List Nat := numbers (selFirst a) (selCount a)
/-- SEL lies within a kind of `n` instances (R371). -/
def selOk (n : Nat) (a : List Byte) : Bool := selCount a = 0 || decide (selFirst a + selCount a ≤ n)

/-- Cell mask at an offset. -/
def cellMask (a : List Byte) (o : Nat) : Nat := u32 a o
/-- Cell `i` applies. -/
def cellOn (a : List Byte) (o i : Nat) : Bool := testBit (cellMask a o) i
/-- Value of cell `i`. -/
def cellVal (a : List Byte) (o i : Nat) : Nat := u64 a (o + 8 + 8 * i)
/-- Signed value of cell `i`. -/
def cellInt (a : List Byte) (o i : Nat) : Int := s64 a (o + 8 + 8 * i)
/-- Cell `i` as the bits of an f32, in bytes 0 to 3 (R373). -/
def cellF32 (a : List Byte) (o i : Nat) : Nat := u32 a (o + 8 + 8 * i)
/-- Value of cell `i` where it is masked in, else the present value. -/
def cellOr (a : List Byte) (o i old : Nat) : Nat := if cellOn a o i then cellVal a o i else old
/-- Cell `i` is left out or its value passes. -/
def cellIn (a : List Byte) (o i : Nat) (p : Nat → Bool) : Bool := !cellOn a o i || p (cellVal a o i)
/-- Range check of cell `i` between two bounds, with its offset. -/
def cellRange (a : List Byte) (o i lo hi : Nat) : Bool × Nat :=
  (cellIn a o i (fun v => decide (lo ≤ v) && decide (v ≤ hi)), o + 8 + 8 * i)

/-- Layout check of SEL and CELLS at `o` (R371, R373): mask bits that name no cell are reserved; a device-wide cell
asks for count 0 and a per-instance cell for another. `wide i` says cell `i` is device-wide. -/
def selCellsLayout (o n : Nat) (extra : List (Nat × Nat)) (wide : Nat → Bool) (a : List Byte) : Option Nat :=
  match layoutBad (selForm ++ extra ++ cellsForm o n) a with
  | some x => some x
  | none =>
    if 2 ^ n ≤ cellMask a o then some o
    else ((List.range n).find? (fun i => cellOn a o i && (wide i == decide (selCount a ≠ 0)))).map (o + 8 + 8 * ·)

/-- Bytes `b` to `b + n - 1` of a masked cell are reserved: the offset of the first where one of them is not 0 (R7, R370,
R373). -/
def cellSpare (a : List Byte) (o i b n : Nat) : Option Nat :=
  if cellOn a o i && (slice a (o + 8 + 8 * i + b) n).any (fun x => x ≠ 0) then some (o + 8 + 8 * i + b) else none

/-- The SEL of a new command names every instance that an earlier one's names; count 0 is the device-wide form. -/
def selCovers (new old : List Byte) : Bool :=
  if selCount old = 0 then selCount new = 0
  else selCount new ≠ 0 && decide (selFirst new ≤ selFirst old) &&
    decide (selFirst old + selCount old ≤ selFirst new + selCount new)

/-- The cells of a new command at `o` include every cell that an earlier one masks in. -/
def cellsCover (o n : Nat) (new old : List Byte) : Bool :=
  (List.range n).all (fun i => !cellOn old o i || cellOn new o i)

/-- Layout check of CELLS with no SEL. -/
def cellsLayout (n : Nat) (a : List Byte) : Option Nat :=
  match layoutBad (cellsForm 0 n) a with
  | some x => some x
  | none => if 2 ^ n ≤ cellMask a 0 then some 0 else none

/-- BULK kind, length and address. -/
structure Bulk where
  kind : Nat
  length : Nat
  addr : Nat
deriving DecidableEq, Repr

/-- BULK at an offset. -/
def bulk (a : List Byte) (o : Nat) : Bulk := { kind := u8 a o, length := u32 a (o + 4), addr := u64 a (o + 8) }

/-- Range of a BULK: its kind is one the row allows, and a range of kind 2 or 3 lies in its memory (R372). -/
def bulkRange (s : State) (kinds : List Nat) (a : List Byte) (o : Nat) : List (Bool × Nat) :=
  let b := bulk a o
  [(decide (b.kind ∈ kinds), o),
   (decide (b.kind ≠ 2) || decide (b.addr + b.length ≤ serviceBytes s), o + 8),
   (decide (b.kind ≠ 3) || (decide (sharedBase ≤ b.addr) && decide (b.addr + b.length ≤ 2 * sharedBase)), o + 8)]

/-- A BULK of kind 1 lies within a window of its direction (R353, R372). -/
def bulkWindow (s : State) (write : Bool) (a : List Byte) (o : Nat) : Bool :=
  let b := bulk a o
  decide (b.kind ≠ 1) || hostRangeOk s write b.addr b.length

/-- A BULK source is read (R345, R353, R362, R372): the bytes, and the status of a read that fails. DMA12 reads the host; the service
region, at DRAM address 0 (R339), is read through the service port, where an uncorrectable burst fails the operation (R337); a pitch
that is down answers the Ridge with errors (R383). -/
def bulkFetch (b : Bulk) (s : State) : List Byte × Option Status × State :=
  if b.kind = 1 then
    let r := chanRead 12 b.addr b.length s
    (r.1, if r.2.1 = 0 then none else some .hostDma, r.2.2)
  else if b.kind = 2 then
    let r := dramFetch 4 b.addr b.length s
    (r.1, if r.2.1 then some .dramUe else none, r.2.2)
  else if b.kind = 3 then
    let p := 16 + pitchOf b.addr
    if targetDown s p then ([], some .hostDma, resetAnswer p s)
    else (memRead s.peg.shared (b.addr - sharedBase) b.length, none, portServe 64 1 p b.addr b.length s)
  else ([], none, s)

/-- Bytes of a BULK source as a read would find them. -/
def bulkRead (s : State) (b : Bulk) : List Byte := (bulkFetch b s).1

/-- The source of a load. -/
def loadBulk (l : Load) : Bulk := bulk l.req.arg l.bulkAt

/-- Bytes are written to a BULK destination, at most its length: the status of a write that fails (R345, R353, R362). DMA13 writes the
host; the service region is written through the service port (R87); a pitch that is down answers with errors (R383). -/
def bulkPut (b : Bulk) (bytes : List Byte) (s : State) : Option Status × State :=
  let bytes := bytes.take b.length
  if b.kind = 1 then
    let r := chanWrite 13 [(b.addr, bytes)] s
    (if r.1 = 0 then none else some .hostDma, r.2)
  else if b.kind = 2 then (none, queueWrite b.addr 4 bytes s)
  else if b.kind = 3 then
    let p := 16 + pitchOf b.addr
    if targetDown s p then (some .hostDma, resetAnswer p s)
    else
      let s := portServe 64 1 p b.addr bytes.length s
      (none, { s with peg.shared := memWrite s.peg.shared (b.addr - sharedBase) bytes })
  else (none, s)

/-- Range checks of a LOAD's common part at `o` (R375). -/
def loadRange (s : State) (kinds : List Nat) (a : List Byte) (o : Nat) : List (Bool × Nat) :=
  bulkRange s kinds a o ++
  [(decide (u8 a (o + 20) ≠ 0) || decide (u32 a (o + 16) = u32 a (o + 4)), o + 16),
   (decide (u8 a (o + 20) ≤ 1), o + 20)]

/-- Flags of a STATUS command. -/
def statusClear (a : List Byte) : Bool := testBit (u32 a 8) 0
def statusAck (a : List Byte) : Bool := testBit (u32 a 8) 1

/-- The instances, from the first on, whose status and values fit in a result of 4064 bytes (R374). -/
def shownFrom (values : Nat → List Nat) : Nat → List Nat → List Nat
  | _, [] => []
  | room, i :: l =>
    let n := 8 + 8 * (values i).length
    if n ≤ room then i :: shownFrom values (room - n) l else []

/-- The instances of SEL that a STATUS returns, as many as fit (R374). -/
def shown (a : List Byte) (values : Nat → List Nat) : List Nat := shownFrom values 4056 (selected a)

/-- Bytes of a STATUS result over instances (R374): the first, their number, and of each the status word, 4 reserved bytes
and its 64-bit values. -/
def statusBytes (first : Nat) (insts : List Nat) (word : Nat → Nat) (values : Nat → List Nat) : List Byte :=
  leBytes 2 first ++ leBytes 2 insts.length ++ [0, 0, 0, 0] ++
    insts.flatMap (fun i => leBytes 8 (word i % 2 ^ 32) ++ (values i).flatMap (fun v => leBytes 8 (v % 2 ^ 64)))

/-- Result of a STATUS over the instances that SEL names. -/
def statusEach (a : List Byte) (word : Nat → Nat) (values : Nat → List Nat) : List Byte :=
  statusBytes (selFirst a) (shown a values) word values

/-- CLEAR over the instances returned (R374). -/
def clearShown (a : List Byte) (values : Nat → List Nat) (f : Nat → State → State) (s : State) : State :=
  if statusClear a then (shown a values).foldl (fun s k => f k s) s else s

/-- ACK over the instances returned (R374). -/
def ackShown (a : List Byte) (values : Nat → List Nat) (f : Nat → State → State) (s : State) : State :=
  if statusAck a then (shown a values).foldl (fun s k => f k s) s else s

/-- Result of a device-wide STATUS, whose row asks for count 0. -/
def statusResult (a : List Byte) (word : Nat → Nat) (values : Nat → List Nat) : List Byte :=
  statusBytes (selFirst a) [0] word values

/-- A signed value as a 64-bit cell. -/
def cellOfInt (v : Int) : Nat := (v % (2 ^ 64 : Nat)).toNat

/-- A present value plus one, 0 for none: all ones for none as a cell. -/
def cellOfOpt (v : Option Nat) : Nat := v.getD (2 ^ 64 - 1)

end Sys2Proof.Machine
end

