-- ==== Sys2Proof/Machine/Request.lean ====
section
/-! DEFINITION. The life of a Kenra request: the checks of R367 in their order, the setting classes of Table 10.6, and
the one shared operation that answers, stages or begins a command. Every command is a `Spec` given to `kenra`. -/

namespace Sys2Proof.Machine

/-- Setting classes, least restrictive first (R234). -/
inductive Cls where
  | live | txn | ready
deriving DecidableEq, Repr

/-- The most restrictive of two classes (R234). -/
def Cls.join : Cls → Cls → Cls
  | .ready, _ => .ready
  | _, .ready => .ready
  | .txn, _ => .txn
  | _, .txn => .txn
  | .live, .live => .live

/-- Class of a command by its masked cells (R373): `k i` is the class of cell `i`. -/
def cellsClass (a : List Byte) (o n : Nat) (k : Nat → Cls) : Cls :=
  (List.range n).foldl (fun c i => if cellOn a o i then c.join (k i) else c) .live

/-- How a command uses the transaction: as a setting, or as TXN.COMMIT and TXN.ROLLBACK, which carry its id. -/
inductive TxnUse where
  | setting | commit | rollback
deriving DecidableEq, Repr

/-- What the tables and rules say of one command. -/
structure Spec where
  /-- Opcode (Tables 16.6 to 16.11). -/
  opcode : Nat
  /-- Layout check: the offset of the first bad field (R367 check 3). -/
  layout : List Byte → Option Nat
  /-- Setting class. -/
  cls : List Byte → Cls := fun _ => .live
  /-- Device states that the row or its rule allows (R367 check 4). -/
  allowed : DevState → Bool := fun d => d != .boot
  /-- An earlier step that the command must follow, else STATE (R440). -/
  follows : State → List Byte → Bool := fun _ _ => true
  /-- Answered by the ROM in a SAFE entered from BOOT (R400). -/
  rom : Bool := false
  txn : TxnUse := .setting
  /-- Ranges (R367 check 6). -/
  range : State → List Byte → Option Nat := fun _ _ => none
  /-- Resources and timing (R367 check 7). -/
  resource : State → Request → Option (Status × Nat) := fun _ _ => none
  /-- Completes by event: answers ACCEPTED (Table 16.3). -/
  event : Bool := false
  /-- A transactional load: it is begun at once, and its decoded data is what the open transaction stages (R237). -/
  load : Bool := false
  /-- Bytes that staging the command counts: its argument's, and of a load those of its decoded data (R237, R375). -/
  bytes : List Byte → Nat := List.length
  /-- A STATUS command: its result is sampled, and CLEAR and ACK act, as the Ridge begins the request (R374). -/
  sampled : Bool := false
  /-- Result bytes of the response. -/
  result : State → Request → List Byte := fun _ _ => []
  /-- TXN_ID of the response (TXN.BEGIN's new id). -/
  txnOut : State → Nat := fun _ => 0
  /-- A staged command with the first argument sets everything that one with the second sets, so that staging it replaces the
  earlier one (R237). -/
  same : List Byte → List Byte → Bool := fun _ _ => true
  /-- Effect. -/
  act : Request → State → State

/-- Layout of a command with no argument. -/
def noArg (a : List Byte) : Option Nat := layoutBad [] a

/-- The header fails: version, argument length, reserved fields (R367 check 1). -/
def headerBad (q : Request) : Bool :=
  q.version ≠ 2 || decide (4064 < q.argLength.toNat) || decide (q.arg.length ≠ q.argLength.toNat) ||
  decide (2 ≤ q.flags.toNat) || q.reserved ≠ 0

/-- Id of the open transaction. -/
def openId (s : State) : Option Nat :=
  match s.sched.txn with
  | .opened id => some id
  | _ => none

/-- Id of the pending transaction. -/
def pendingId (s : State) : Option Nat :=
  match s.sched.txn with
  | .pending id => some id
  | _ => none

/-- Status of an id that is not the open one's: TXN_CLOSED if it was ever given, TXN_UNKNOWN else (R237). -/
def idStatus (s : State) (id : Nat) : Status := if 1 ≤ id ∧ id ≤ s.sched.lastId then .txnClosed else .txnUnknown

/-- Device state check (R367 check 4): R395 in BOOT, R400 on the ROM, the row's own states and earlier step, and the class under
Table 10.6. -/
def stateCheck (k : Spec) (s : State) (a : List Byte) : Bool :=
  k.allowed s.dev.state && k.follows s a &&
  (!s.dev.romSafe || k.rom || (s.dev.state = .update && decide (0x0E02 ≤ k.opcode ∧ k.opcode ≤ 0x0E04))) &&
  (match k.cls a with
   | .live => true
   | .txn => s.dev.state ≠ .safe && s.dev.state ≠ .update
   | .ready => (s.dev.state ≠ .safe || (s.dev.romSafe && k.rom)) && s.dev.state ≠ .update && !observing s)

/-- Transaction check (R367 check 5, Table 10.6, R237). -/
def txnCheck (k : Spec) (s : State) (q : Request) : Option Status :=
  let id := q.txnId.toNat
  match k.txn with
  | .commit => if openId s = some id then none else some (idStatus s id)
  | .rollback => if openId s = some id ∨ pendingId s = some id then none else some (idStatus s id)
  | .setting =>
    if id = 0 then (if k.cls q.arg ≠ .live && observing s then some .needTxn else none)
    else if openId s = some id then none else some (idStatus s id)

/-- The command would be staged: a transactional or READY-only setting that carries the open id (Table 10.6). -/
def staged (k : Spec) (s : State) (q : Request) : Bool :=
  k.txn = .setting && k.cls q.arg ≠ .live && q.txnId ≠ 0 && decide (openId s = some q.txnId.toNat)

/-- Staged bytes of the open transaction (R237): argument bytes, and of loads the decoded data. -/
def listBytes (l : List (Instr × List Byte)) : Nat := (l.map (fun e => e.2.length)).sum
def stagedBytes (s : State) : Nat := listBytes s.sched.staged

/-- Argument of a command that a transaction can stage. -/
def stagedArg (c : Instr) : List Byte :=
  match c with
  | .arrayConfig q | .arrayTest q | .beamConfig q | .beamWatch q | .fwKeyEnroll q | .chanConfig q | .chanCoefSwap q
  | .chanGainMode q | .chanGainSet q | .claspConfig q | .claspTableLoad q | .claspCurveLoad q | .timeSet q
  | .ptpRelayConfig q | .dramConfig q | .dramRetrain q | .facetConfig q | .ingestConfig q | .streamConfig q
  | .streamEnable q | .streamDisable q | .flowSet q | .laneConfig q | .ethConfig q | .ostreamConfig q | .egressConfig q
  | .hostringConfig q | .packConfig q | .storeConfig q | .twinConfig q | .schedSelect q | .pegServiceConfig q => q.arg
  | _ => []

/-- Staged commands that a new one does not replace: those of other rows, and of its own row those that set something that it
does not (R237). -/
def keptStaged (k : Spec) (c : Instr) (s : State) : List (Instr × List Byte) :=
  s.sched.staged.filter (fun e => e.1.ctorIdx ≠ c.ctorIdx || !k.same (stagedArg c) (stagedArg e.1))

/-- The one opcode-independent check of R352: at most 64 commands owe a completion. -/
def owedFull (s : State) : Bool := decide (64 ≤ s.host.owed.length)

/-- Checks of R367 that stand before and with the transaction check. -/
def earlyCheck (k : Spec) (q : Request) (s : State) : Option (Status × Nat) :=
  if headerBad q then some (.malformed, 0)
  else match k.layout q.arg with
  | some o => some (.malformed, o)
  | none => if stateCheck k s q.arg then none else some (.state, 0)

/-- Checks of R367 after the transaction check: TXN_FULL, which a load meets by its declared length, ranges, then resources. A
staged command is checked for its own ranges when staged and for everything else at commit (R237). -/
def lateCheck (c : Instr) (k : Spec) (q : Request) (s : State) : Option (Status × Nat) :=
  if staged k s q && decide (2 ^ 20 < listBytes (keptStaged k c s) + k.bytes q.arg) then some (.txnFull, 0)
  else match k.range s q.arg with
  | some o => some (.range, o)
  | none =>
    if staged k s q && !k.load then none
    else match k.resource s q with
    | some x => some x
    | none => if k.event && owedFull s then some (.busy, 0) else none

/-- All checks of R367 on a request whose opcode is known; the first failure. -/
def checkRequest (c : Instr) (k : Spec) (q : Request) (s : State) : Option (Status × Nat) :=
  match earlyCheck k q s with
  | some x => some x
  | none =>
    match txnCheck k s q with
    | some st => some (st, 0)
    | none => lateCheck c k q s

/-- A command that carries the open id and reaches the transaction check restarts the 10 s (R240). -/
def touchTxn (k : Spec) (q : Request) (s : State) : State :=
  { s with sched.lastUse := if (earlyCheck k q s).isNone && decide (openId s = some q.txnId.toNat) then s.time.tb2
      else s.sched.lastUse }

/-- Stages a command with the bytes it counts, in doorbell order (R237). Staging a setting that is already staged replaces the
earlier value; where it replaces a part of an earlier command only, it is applied after it (log 45). -/
def stage (k : Spec) (c : Instr) (bytes : List Byte) (s : State) : State :=
  { s with sched.staged := keptStaged k c s ++ [(c, bytes)] }

/-- A command begun and answered ACCEPTED owes a completion (R352). -/
def owe (c : Instr) (q : Request) (s : State) : State := { s with host.owed := s.host.owed ++ [(c, q)] }

/-- The command is the active request: the one that the Ridge has begun, in doorbell order (R351). -/
def isActive (c : Instr) (s : State) : Bool := s.host.active.any (fun a => a.1 = c)

/-- Runs a Kenra command: a STATUS that was sampled is answered; any other goes through the checks in the order of R367, then is
staged, begun or applied, and answered. -/
def kenraStep (c : Instr) (k : Spec) (q : Request) (s : State) : State :=
  let s := touchTxn k q s
  match s.host.sample, checkRequest c k q s with
  | some r, _ => respond k.opcode q .ok 0 0 r s
  | none, some (st, d) => respond k.opcode q st d 0 [] s
  | none, none =>
    if staged k s q && !k.load then respond k.opcode q .staged 0 q.txnId.toNat [] (stage k c q.arg s)
    else if k.event then respond k.opcode q .accepted 0 0 (k.result s q) (k.act q (owe c q s))
    else respond k.opcode q .ok 0 (k.txnOut s) (k.result s q) (k.act q s)

/-- Any other request than the active one waits: its own command changes nothing (R351; log 8). -/
def whenActive (c : Instr) (f : State → State) (s : State) : Out := whenOn (fun s => if isActive c s then f s else s) s

/-- A Kenra command, which nothing answers in OFF (Table 1.4). -/
def kenra (c : Instr) (k : Spec) (q : Request) (s : State) : Out := whenActive c (kenraStep c k q) s

end Sys2Proof.Machine
end

