-- ==== Sys2Proof/Machine/Dma.lean ====
section
/-! DEFINITION. The DMA channels (chapter 17). Its crossbar stands in `Crossbar` and `Ports`. -/

namespace Sys2Proof.Machine

/-! DMA channels (R384 to R392). -/

/-- The channel serves host rings (R384). -/
def ringChannel (s : State) (ch : Nat) : Bool :=
  s.out.rings.any (fun e => match e.2 with
    | some r => r.dma = ch
    | none => false)

/-- Target space of a BULK kind: PCIe outbound, DRAM service port or pitch memories (Table 17.1). -/
def bulkSpace (kind : Nat) : Nat := if kind = 1 then 6 else if kind = 2 then 3 else 1

/-- The 32 bytes of a descriptor, little-endian (R5, Table 17.4). -/
def descBytes (d : Desc) : List Byte :=
  leBytes 8 d.src ++ leBytes 8 d.dst ++ leBytes 4 d.len ++
    [BitVec.ofNat 8 d.srcSpace, BitVec.ofNat 8 d.dstSpace, BitVec.ofNat 8 d.srcWidth, BitVec.ofNat 8 d.dstWidth] ++
    leBytes 4 (bit d.interrupt + 2 * d.reserved) ++ leBytes 4 d.tag.toNat

/-- A descriptor breaks a rule of Table 17.4 (R385); `ring` says that its channel serves host rings, which alone have the record feed. -/
def descBad (ring : Bool) (d : Desc) : Bool :=
  decide (d.len < 64) || decide (0xFFFFFFC0 < d.len) || d.len % 2 ^ max d.srcWidth d.dstWidth ≠ 0 || d.src % 2 ^ d.srcWidth ≠ 0 ||
  d.dst % 2 ^ d.dstWidth ≠ 0 || decide (6 < d.srcWidth) || decide (6 < d.dstWidth) || decide (8 < d.srcSpace) ||
  (d.srcSpace = 8 && !ring) || decide (7 < d.dstSpace) || d.reserved ≠ 0

/-- A channel takes a descriptor as its 32 bytes give it (R385). -/
def descOf (l : List Byte) (q : Request) : Desc :=
  { src := u64 l 0, dst := u64 l 8, len := u32 l 16, srcSpace := u8 l 20, dstSpace := u8 l 21, srcWidth := u8 l 22, dstWidth := u8 l 23
    interrupt := testBit (u8 l 24) 0, reserved := u32 l 24 / 2, tag := BitVec.ofNat 32 (u32 l 28), req := q }

/-- Source and destination lie in one space and overlap (R388). -/
def descOverlap (d : Desc) : Bool :=
  d.srcSpace = d.dstSpace && decide (d.src < d.dst + d.len) && decide (d.dst < d.src + d.len)

/-- The copy runs descending (R388). -/
def descDown (d : Desc) : Bool := descOverlap d && decide (d.src < d.dst)

/-- Bytes from `x` up to the next 4 KiB boundary. -/
def pageUp (x : Nat) : Nat := 4096 - x % 4096
/-- Bytes from the 4 KiB boundary below `x` to `x`. -/
def pageDown (x : Nat) : Nat := if x % 4096 = 0 then 4096 else x % 4096

/-- Offset and length of the next burst after `done` bytes: at most 4 KiB, crossing no 4 KiB boundary of either
address (R386, R388). -/
def nextBurst (d : Desc) (done : Nat) : Nat × Nat :=
  let left := d.len - done
  if descDown d then
    let n := min left (min (pageDown (d.src + left)) (pageDown (d.dst + left)))
    (left - n, n)
  else (done, min left (min (pageUp (d.src + done)) (pageUp (d.dst + done))))

/-- Bytes of a target space that the read engine fetches, and whether an uncorrectable codeword was met; `bad` makes the first burst
of the DRAM one. What stands in Ridge memory, the Locket store and the memories of pegs is not the manual's: free values (log 1). -/
def spaceRead (space addr n : Nat) (bad : Bool) (s : State) : List Byte × Bool × State :=
  if space = 1 ∧ sharedBase ≤ addr then (memRead s.peg.shared (addr - sharedBase) n, false, s)
  else if space = 3 then
    let x := fetchBursts 4 ((burstAddrs addr n).map (fun a => (a, if bad && a = addr / 64 * 64 then [0, 1] else []))) s
    (memRead x.2.dram.mem addr n, x.1, x.2)
  else if space = 4 then (memRead s.boot.mram addr n, false, s)
  else if space = 6 then (memRead s.host.mem addr n, false, s)
  else
    let r := freeBytes n s
    (r.1, false, r.2)

/-- Writes bytes of a target space that a DMA write reaches (Table 17.2); those for the DRAM join its queue as service-port writes
(R87). -/
def spaceWrite (space addr : Nat) (bytes : List Byte) (s : State) : State :=
  let s := if space = 3 then queueWrite addr 4 bytes s else s
  { s with
    peg.shared := if space = 1 ∧ sharedBase ≤ addr then memWrite s.peg.shared (addr - sharedBase) bytes else s.peg.shared
    host.mem := if space = 6 then memWrite s.host.mem addr bytes else s.host.mem }

/-- Bytes in runs of `w`; `n` bounds the runs. -/
def beatsOf (w : Nat) : Nat → List Byte → List (List Byte)
  | 0, _ => []
  | n + 1, l => if l.isEmpty then [] else l.take w :: beatsOf w n (l.drop w)

/-- A source beat joins the holding register, and every destination beat that it then holds whole leaves it (R387). -/
def holdBeat (w : Nat) (hold beat : List Byte) : List (List Byte) × List Byte :=
  let l := hold ++ beat
  let k := l.length / w
  (beatsOf w k (l.take (k * w)), l.drop (k * w))

/-- Destination beats of source beats through the holding register, and what it holds then (R387). -/
def holdBeats (w : Nat) : List (List Byte) → List Byte → List (List Byte) × List Byte
  | [], hold => ([], hold)
  | b :: t, hold =>
    let x := holdBeat w hold b
    let y := holdBeats w t x.2
    (x.1 ++ y.1, y.2)

/-- Writes beats one after another from an address on. -/
def putBeats (space : Nat) : Nat → List (List Byte) → State → State
  | _, [], s => s
  | a, b :: t, s => putBeats space (a + b.length) t (spaceWrite space a b s)

/-- What an engine's request at a target is answered with before it is looked at there: its host cannot be reached (R345; log 21), it
has no path to the address (R380), or the target is down (R383); with the state in which that is counted. -/
def targetStop (m space addr n : Nat) (s : State) : Option (Nat × State) :=
  let p := portOf m space addr
  if space = 6 && !hostReachable s then some (m, s)
  else if !hasPath s m space addr n then some (m, defaultTarget m addr (m = 3) s)
  else if targetDown s p then some (7, resetAnswer p s)
  else none

/-- The running descriptor ends with an error: the channel issues nothing more and drops what its share of the buffer holds (R391; log
21); an answer after the last byte is ERROR_LAST_BEAT (R392). -/
def dmaError (ch code : Nat) (last : Bool) (s : State) : State :=
  let s := if code = 5 then count .windowDenied 0 s else s
  modDma ch (fun c => { c with error := some (if last then 4 else code), buffer := [], holding := [] }) s

/-- The read engine fetches a channel's next burst into its share of the buffer (R386 to R388, R391). Both ends are checked against the
Tether's windows before anything is issued (R362). -/
def readBurstOf (ch : Nat) (d : Desc) (ans : BurstAnswer) (s : State) : State :=
  let c := dmaCh s ch
  let (pos, n) := nextBurst d c.fetched
  let a := d.src + pos
  let s := if c.fetched = 0 && descOverlap d then count .overlap ch s else s
  if (d.srcSpace = 6 && !hostRangeOk s false a n) || (d.dstSpace = 6 && !hostRangeOk s true (d.dst + pos) n) || ans = .windowDenied then
    dmaError ch 5 false s
  else match targetStop 2 d.srcSpace a n s with
  | some (code, s) => dmaError ch code false s
  | none =>
    if ans = .errorSrc then dmaError ch 2 false (defaultTarget 2 a false s)
    else
      let s := portServe (2 ^ d.srcWidth) 2 (portOf 2 d.srcSpace a) a n s
      let x := spaceRead d.srcSpace a n (ans = .ue) s
      if x.2.1 then dmaError ch 6 false x.2.2
      else modDma ch (fun c => { c with fetched := c.fetched + n, buffer := c.buffer ++ [(pos, x.1)] }) x.2.2

/-- The write engine writes a channel's oldest whole burst (R386, R387, R391, R392). A write answered TARGET_RESET may have landed in
part, so its range holds free bytes (log 1); the default target writes nothing (R380). -/
def writeBurstOf (ch : Nat) (d : Desc) (ans : BurstAnswer) (s : State) : State :=
  match (dmaCh s ch).buffer with
  | [] => s
  | (pos, l) :: rest =>
    let a := d.dst + pos
    let n := l.length
    let last := decide (d.len ≤ (dmaCh s ch).issued + n)
    let issued := fun (s : State) => countN .dmaBytes ch n (modDma ch (fun c => { c with issued := c.issued + n, buffer := rest }) s)
    if d.dstSpace = 6 && !hostRangeOk s true a n then dmaError ch 5 false s
    else if d.dstSpace = 6 && !hostReachable s then dmaError ch 3 false s
    else match targetStop 3 d.dstSpace a n s with
    | some (code, s) => dmaError ch code last (issued s)
    | none =>
      if ans = .errorDst then dmaError ch 3 last (issued (defaultTarget 3 a true s))
      else
        let s := issued (portServe (2 ^ d.dstWidth) 3 (portOf 3 d.dstSpace a) a n s)
        if ans = .targetReset then
          let r := freeBytes n s
          dmaError ch 7 last (resetAnswer (portOf 3 d.dstSpace a) (spaceWrite d.dstSpace a r.1 r.2))
        else
          let h := holdBeats (2 ^ d.dstWidth) (beatsOf (2 ^ d.srcWidth) n l) (dmaCh s ch).holding
          modDma ch (fun c => { c with holding := h.2 }) (putBeats d.dstSpace a h.1 s)

/-- The descriptor that a channel runs: nothing is done of one that is in error or aborted (R390, R391). -/
def running (s : State) (ch : Nat) : Option Desc :=
  let c := dmaCh s ch
  match c.queue with
  | [] => none
  | d :: _ => if descBad (ringChannel s ch) d || d.abort || c.error.isSome then none else some d

/-- The descriptor of which the read engine can fetch a burst: the channel's share of the buffer has room for it, and one that overlaps
itself has none in flight (R386, R388). -/
def readDesc (s : State) (ch : Nat) : Option Desc :=
  let c := dmaCh s ch
  (running s ch).filter (fun d => decide (c.fetched < d.len) && (!descOverlap d || c.buffer.isEmpty) &&
    decide ((c.buffer.map (fun e => e.2.length)).sum + (nextBurst d c.fetched).2 ≤ 32768))

/-- The descriptor of which the write engine has a whole burst. -/
def writeDesc (s : State) (ch : Nat) : Option Desc :=
  (running s ch).filter (fun _ => !(dmaCh s ch).buffer.isEmpty)

/-- An engine serves the first channel with work after the last that it served, in ascending number with wrap (R386). -/
def engineTurn (last ch : Nat) (work : Nat → Bool) : Bool :=
  (List.range 16).all (fun c => !work c || decide ((ch + 15 - last) % 16 ≤ (c + 15 - last) % 16))

/-- The read engine's part of a burst, where it is the channel's turn. -/
def dmaReadTurn (ch : Nat) (ans : BurstAnswer) (s : State) : State :=
  match readDesc s ch with
  | none => s
  | some d =>
    if engineTurn s.dma.turn ch (fun c => (readDesc s c).isSome) then readBurstOf ch d ans { s with dma.turn := ch } else s

/-- The write engine's part of a burst, where it is the channel's turn. -/
def dmaWriteTurn (ch : Nat) (ans : BurstAnswer) (s : State) : State :=
  match writeDesc s ch with
  | none => s
  | some d =>
    if engineTurn s.dma.writeTurn ch (fun c => (writeDesc s c).isSome) then writeBurstOf ch d ans { s with dma.writeTurn := ch } else s

/-- DMA_BURST (R386): the read engine's burst of a channel, the write engine's, or both in one step. -/
def execDmaBurst (ch : BitVec 4) (part : BurstPart) (ans : BurstAnswer) (s : State) : Out :=
  whenOn (fun s =>
    let s := if part = .write then s else dmaReadTurn ch.toNat ans s
    if part = .read then s else dmaWriteTurn ch.toNat ans s) s

/-- Outcome of a descriptor once nothing more of it runs: code and residue (Table 17.5). -/
def descOutcome (ring : Bool) (c : DmaCh) (d : Desc) : Option (Nat × Nat) :=
  if descBad ring d then some (8, d.len)
  else match c.error with
  | some e => some (e, d.len - c.issued)
  | none => if d.len ≤ c.issued then some (0, 0) else if d.abort then some (1, d.len - c.issued) else none

/-- Kenra status of a code (R389). -/
def dmaStatusOf (code : Nat) : Status := if code = 0 then .ok else if code = 6 then .dramUe else .hostDma

/-- Completes the head descriptor with its outcome (R389): the completion record, counters and status bits, and the completion entry,
whose byte 52 holds the code and bytes 56 to 59 the residue. -/
def completeDesc (ch : Nat) (d : Desc) (code residue : Nat) (s : State) : State :=
  let s := noteDesc ch code d.tag residue (modDma ch (fun c => { c with
      queue := c.queue.drop 1, fetched := 0, buffer := [], holding := [], issued := 0, error := none }) s)
  if !d.interrupt then settle (.dmaCopy d.req) d.req s
  else finish (.dmaCopy d.req) 0x0A00 d.req (dmaStatusOf code) (d.len - residue) code ([0, 0, 0] ++ leBytes 4 residue) s

/-- Descriptors behind an aborted one complete with it (R390). -/
def completeAborted (ch : Nat) : Nat → State → State
  | 0, s => s
  | n + 1, s =>
    match (dmaCh s ch).queue with
    | d :: _ => if d.abort then completeAborted ch n (completeDesc ch d 1 d.len s) else s
    | [] => s

/-- DMA_DESCRIPTOR_COMPLETE (R389 to R392). -/
def execDmaDescriptorComplete (ch : BitVec 4) (s : State) : Out :=
  whenOn (fun s =>
    let c := dmaCh s ch.toNat
    match c.queue with
    | [] => s
    | d :: rest =>
      match descOutcome (ringChannel s ch.toNat) c d with
      | none => s
      | some (code, residue) => completeAborted ch.toNat rest.length (completeDesc ch.toNat d code residue s)) s

/-- DMA.COPY (R385, Table 17.4). -/
def specDmaCopy : Spec :=
  { opcode := 0x0A00, event := true
    layout := fun a => layoutBad (bulkForm 0 ++ bulkForm 16 ++ [(32, 1)]) a
    range := fun s a =>
      let x := bulk a 0
      let y := bulk a 16
      firstBad (bulkRange s [1, 2] a 0 ++
        [(decide (64 ≤ x.length ∧ x.length % 64 = 0), 4), (decide (x.addr % 64 = 0), 8)] ++ bulkRange s [1, 2] a 16 ++
        [(decide (y.length = x.length), 20), (decide (y.addr % 64 = 0), 24), (decide (u8 a 32 ≤ 11), 32)])
    resource := fun s q =>
      let ch := u8 q.arg 32
      firstFail [(bulkWindow s false q.arg 0 && bulkWindow s true q.arg 16, .window),
        (!ringChannel s ch && decide ((dmaCh s ch).queue.length < 16), .busy)]
    act := fun q s =>
      let x := bulk q.arg 0
      let y := bulk q.arg 16
      modDma (u8 q.arg 32) (fun c => { c with queue := c.queue ++
        [descOf (descBytes { src := x.addr, dst := y.addr, len := x.length, srcSpace := bulkSpace x.kind,
                             dstSpace := bulkSpace y.kind, tag := q.tag, req := q }) q] }) s }
def execDmaCopy (q : Request) (s : State) : Out := kenra (.dmaCopy q) specDmaCopy q s

/-- DMA.ABORT on one channel: the running descriptor, unless it has already come to its end, and those queued behind
end with ABORTED (R390). -/
def abortChannel (s : State) (ch : Nat) : State :=
  let c := dmaCh s ch
  match c.queue with
  | [] => s
  | d :: rest =>
    let ended := (descOutcome (ringChannel s ch) c d).isSome
    count .aborts ch (modDma ch (fun c => { c with
      queue := { d with abort := d.abort || !ended } :: rest.map (fun x => { x with abort := true }) }) s)

/-- DMA.ABORT (R384, R390). -/
def specDmaAbort : Spec :=
  { opcode := 0x0A01, layout := layoutBad selForm
    range := fun _ a => firstBad [(selOk 12 a, 0)]
    resource := fun s q => firstFail [((selected q.arg).all (fun c => !ringChannel s c), .conflict)]
    act := fun q s => (selected q.arg).foldl abortChannel s }
def execDmaAbort (q : Request) (s : State) : Out := kenra (.dmaAbort q) specDmaAbort q s

/-- DMA channel status word (Table 17.6). A burst is in flight while the channel's share of the buffer holds it (log 6). -/
def dmaWord (s : State) (ch : Nat) : Nat :=
  let c := dmaCh s ch
  let d := c.queue.head?
  min c.queue.length 16 * 65536 + c.lastStatus * 256 + (c.sticky &&& 0xC0).toNat
    + bit ((d.map descDown).getD false) * 32 + bit ((d.map descOverlap).getD false) * 16
    + bit (ringChannel s ch) * 8 + bit (12 ≤ ch) * 4 + bit (!c.buffer.isEmpty) * 2 + 1

/-- Counters of a channel (R393). -/
def dmaValues (s : State) (ch : Nat) : List Nat :=
  [counter .descriptors ch s, counter .dmaBytes ch s, counter .aborts ch s, counter .overlap ch s] ++
  (numbers 1 8).map (fun c => counter .dmaStatus (ch * 64 + c) s)

/-- Ports in the order of Table 17.1, pitch memories one by one. -/
def portOrder : List Nat := [0] ++ numbers 16 16 ++ numbers 2 6

/-- Counters of the crossbar (R393). -/
def crossbarValues (s : State) : List Nat :=
  (List.range 23).flatMap (fun m => [counter .defaultHits m s, (tabGet none s.dma.firstDefault m).getD 0]) ++
  portOrder.flatMap (fun p => [counter .grants p s, counter .portWaits p s, counter .resetErrors p s,
    counter .repliesDropped p s])

/-- Clears what DMA.STATUS counts. -/
def clearDma (a : List Byte) (s : State) : State :=
  if selCount a = 0 then
    portOrder.foldl (fun s p => clearCtrs [.grants, .portWaits, .resetErrors, .repliesDropped] p s)
      ((List.range 23).foldl (fun s m => clearCtr .defaultHits m s) s)
  else (shown a (dmaValues s)).foldl (fun s ch => (numbers 1 8).foldl (fun s c => clearCtr .dmaStatus (ch * 64 + c) s)
    (clearCtrs [.descriptors, .dmaBytes, .aborts, .overlap] ch s)) s

/-- DMA.STATUS (R393). -/
def specDmaStatus : Spec :=
  { opcode := 0x0A02, layout := statusLayout, sampled := true
    range := fun _ a => firstBad [(selOk 16 a, 0)]
    result := fun s q =>
      let s := portOrder.foldl (fun s p => portSettle p s) s
      if selCount q.arg = 0 then statusResult q.arg (fun _ => 0) (fun _ => crossbarValues s)
      else statusEach q.arg (dmaWord s) (dmaValues s)
    act := fun q s =>
      let s := portOrder.foldl (fun s p => portSettle p s) s
      let s := if statusClear q.arg then clearDma q.arg s else s
      ackShown q.arg (dmaValues s) (fun ch s => modDma ch (fun c => { c with sticky := 0 }) s) s }
def execDmaStatus (q : Request) (s : State) : Out := kenra (.dmaStatus q) specDmaStatus q s

end Sys2Proof.Machine
end

