-- ==== Sys2Proof/Machine/Dram.lean ====
section
/-! DEFINITION. The DRAM controllers' own commands (chapter 14): requests served, refresh, training and recentring, lost channels, and
the Kenra commands of the DRAM. -/

namespace Sys2Proof.Machine

/-- The address space ends at the capacity of the channels in use (R339, R341). -/
def dramTop (s : State) : Nat := capacityGiB s * 2 ^ 30

/-- The DRAM_UE entry of a channel for the frame that ends (R336): its GTS is the tick's. -/
def reportUe (storeLen gts ch : Nat) (s : State) : State :=
  match (dramCh s ch).ueFrame with
  | none => s
  | some (n, a, t) =>
    raiseEvent gts 0x0900 (64 + ch) false false n (cells [n, a, regionOf s storeLen a, t])
      (modDram ch (fun d => { d with ueFrame := none }) s)

/-- Causes of CHANNEL_LOST by their order in R338 (log 12). -/
def lostCode : LostCause → Nat
  | .sideband => 0 | .parity => 1 | .uncorrectable => 2

/-- CHANNEL_LOST (R338): the third cause holds past 4096 uncorrectable codewords in the second; the second comes after three reissues,
which are counted. What waits at the channel is answered at once: writes are discarded, reads uncorrectable. -/
def execChannelLost (ch : BitVec 4) (cause : LostCause) (s : State) : Out :=
  whenOn (fun s =>
    let c := ch.toNat
    let d := dramCh s c
    if !d.trained || d.lost || (cause = .uncorrectable && decide (d.ueSecond ≤ 4096)) then s
    else
      let s := if cause = .parity then countN .parityReissue c 3 s else s
      let gone := s.dram.queue.filter (fun r => onChannel s c r.addr)
      let s := { s with dram.queue := s.dram.queue.filter (fun r => !onChannel s c r.addr) }
      let s := gone.foldl (fun s r => issueReq r s) (modDram c (fun d => { d with lost := true }) s)
      raise 0x0901 (64 + c) (lostCode cause) [] (setAlarm 0x0901 c true (setCause .channelLost true s))) s

/-- Commands that a parity alert stopped are reissued before the access (R338, R342). -/
def reissue (ch : Nat) (n : BitVec 2) (s : State) : State := countN .parityReissue ch n.toNat s

/-- DRAM_WRITE: the channel issues the write of its highest class, in arrival order within it; what matches it and came earlier goes
first, reads at once with it and a write in its place (R87, R334). -/
def execDramWrite (ch : BitVec 4) (reissues : BitVec 2) (s : State) : Out :=
  whenOn (fun s =>
    let c := ch.toNat
    match nextReq s (fun r => r.isWrite && onChannel s c r.addr) with
    | none => s
    | some r =>
      let s := reissue c reissues s
      if r.isWrite then takeReq r s
      else
        let first := fun (x : DramReq) => sameBurst x.addr r.addr
        let s := serveN ((s.dram.queue.filter first).takeWhile (fun x => !x.isWrite)).length first s
        match s.dram.queue.find? (fun x => reqAlive s x && first x) with
        | some w => takeReq w s
        | none => s) s

/-! Refresh and page closing (R333, R335). -/

/-- A request to the bank is queued. R87 gives a refresh no class, so every class counts as higher (R335; log 22). -/
def bankBusy (s : State) (ch bank : Nat) : Bool :=
  s.dram.queue.any (fun r => match dramMap s r.addr with
    | some (c, loc) => c = ch && (bankRow s c loc).1 = bank
    | none => false)

/-- Precharges a bank. -/
def closeRow (ch bank : Nat) (s : State) : State :=
  modDram ch (fun d => { d with openRow := tabSet none d.openRow bank none }) s

/-- REFRESH: postponed at most twice and only while a request to the bank waits; a refresh closes the row first and
makes up those postponed (R335). -/
def execRefresh (ch : BitVec 4) (bank : Nat) (postpone : Bool) (s : State) : Out :=
  whenOn (fun s =>
    let c := ch.toNat
    let d := dramCh s c
    if !d.trained then s
    else if postpone && bankBusy s c bank && decide (tabGet 0 d.postponed bank < 2) then
      count .refreshPostponed c (modDram c (fun d => { d with postponed := tabMod 0 d.postponed bank (· + 1) }) s)
    else closeRow c bank (modDram c (fun d => { d with postponed := tabSet 0 d.postponed bank 0 }) s)) s

/-- PAGE_IDLE_CLOSE (R333). -/
def execPageIdleClose (ch : BitVec 4) (bank : Nat) (s : State) : Out := whenOn (closeRow ch.toNat bank) s

/-! Training, recentring and temperatures (R330, R331, R335). -/

/-- Two granules of a channel in the recentring reserve, one interleave row apart, that a free value chooses; none where the channel has
no entry, or the reserve no two rows (R331; log 22). -/
def recentreGranules (s : State) (c v : Nat) : Option (Nat × Nat) :=
  let t := interleave (chansInUse s)
  let es := (List.range t.length).filter (fun e => (t[e]?).map (·.1) = some c)
  let rows := 512 / max 1 t.length
  if es.isEmpty || decide (rows < 2) then none
  else
    let g := es.getD (v % es.length) 0 + v / 64 % (rows - 1) * t.length
    some (g, g + t.length)

/-- 64 bursts of a pattern that the manual does not give, in the channel's part of the recentring reserve, the lowest 1 MiB of the service
region, are written and read (R331, R333; log 1). -/
def recentreBursts (c : Nat) (s : State) : State :=
  let d := draw s
  let put (g : Nat) (s : State) : State :=
    let l := freeBytes 2048 s
    (burstsOf 2048 (g * 2048) l.1).foldl (fun s e => (readBurst e.1 [] (issueWrite e.1 e.2 s)).2) l.2
  match recentreGranules d.2 c d.1 with
  | some g => put g.2 (put g.1 d.2)
  | none => d.2

/-- One step towards a centre. -/
def stepTo (cur centre : Int) : Int := if cur < centre then cur + 1 else if centre < cur then cur - 1 else cur

/-- RECENTRE of one byte lane, its window in 1/64 UI (R331): below 0.15 UI, that is 9.6/64, EYE_LOW is set. A step that meets an
uncorrectable burst of the reserve is skipped, and repeated at the lane's next turn (R337); a lost channel answers no read of it (R338). -/
def execRecentre (byteLane : Nat) (readCentre writeCentre : Int) (window : Nat) (ue : Option Nat) (s : State) : Out :=
  whenOn (fun s =>
    let c := byteLane / 10
    let d := dramCh s c
    if 120 ≤ byteLane ∨ !d.trained then s
    else match ue with
    | some a => countUe c a s
    | none =>
    if d.lost then s
    else
      let (r, w) := tabGet (0, 0) s.dram.delays byteLane
      let r' := stepTo r readCentre
      let w' := stepTo w writeCentre
      let s := recentreBursts c { s with dram.delays := tabSet (0, 0) s.dram.delays byteLane (r', w') }
      let s := countN .recentreSteps byteLane (bit (r' ≠ r) + bit (w' ≠ w)) s
      if window * 100 < 960 then
        raise 0x0902 (64 + c) window [] (modDram c (fun d => { d with eyeLow := true }) s)
      else s) s

/-- Some DIMM of a channel stands above a temperature, in 1/16 degC. -/
def chanAbove (t : Int) (d : DramCh) : Bool := d.hubTemps.any (fun e => decide (t < e.2))

/-- DIMM_HOT: a DIMM of the channel stands above 95 degC (R335). -/
def dimmHot (d : DramCh) : Bool := chanAbove 1520 d

/-- DIMM_TEMP_POLL of one DIMM, in 1/16 degC (R335): above 85 degC the channel's interval halves; above 95 degC DIMM_HOT is set and raises
an alarm. -/
def execDimmTempPoll (ch : BitVec 4) (dimm : Bool) (temp : Int) (s : State) : Out :=
  whenOn (fun s =>
    let c := ch.toNat
    if (dramCh s c).dimms.length ≤ bit dimm then s
    else
      let was := dimmHot (dramCh s c)
      let s := modDram c (fun d => { d with hubTemps := tabSet 0 d.hubTemps (bit dimm) temp }) s
      let hot := dimmHot (dramCh s c)
      let s := setAlarm 0x0903 c hot s
      if hot && !was then raise 0x0903 (64 + c) temp [bit dimm] s else s) s

/-- Width of a passing window. -/
def sweepWidth (x : Sweep) : Int := x.hi - x.lo

/-- The Vref whose passing window is widest, the first of several (R330; log 22). -/
def bestSweep (l : List Sweep) : Option Sweep :=
  l.foldl (fun (b : Option Sweep) x => match b with
    | none => some x
    | some y => if sweepWidth y < sweepWidth x then some x else b) none

/-- Centre of a window in 1/64 UI, the lower of two (R330; log 22). -/
def sweepCentre (x : Sweep) : Int := (x.lo + x.hi).fdiv 2

/-- A lane fails whose widest window is narrower than 0.25 UI, 16/64, in either sweep, or whose eye is lower than 30 mV (R330). -/
def laneOk (e : LaneEye) : Bool :=
  let wide := fun (l : List Sweep) => match bestSweep l with
    | some x => decide (16 ≤ sweepWidth x)
    | none => false
  wide e.read && wide e.write && decide (30 ≤ e.height)

/-- Every byte lane of a channel passes. -/
def channelOk (lanes : List LaneEye) (c : Nat) : Bool :=
  (numbers (10 * c) 10).all (fun k => match lanes[k]? with
    | some e => laneOk e
    | none => false)

/-- A byte lane keeps, of each sweep, the Vref of its widest window and the centre of that window (R330). -/
def centreLane (lanes : List LaneEye) (s : State) (k : Nat) : State :=
  match lanes[k]? with
  | none => s
  | some e =>
    match bestSweep e.read, bestSweep e.write with
    | some r, some w => { s with
        dram.delays := tabSet (0, 0) s.dram.delays k (sweepCentre r, sweepCentre w)
        dram.vrefs := tabSet (0, 0) s.dram.vrefs k (r.vref, w.vref) }
    | _, _ => s

/-- A channel that passes training: each byte lane's settings, a page counter of 2 in every bank, rows closed (R330, R333). -/
def trainChannel (lanes : List LaneEye) (s : State) (c : Nat) : State :=
  modDram c (fun d => { d with trained := true, lost := false, pageCtr := [], openRow := [], lastRow := [], postponed := [] })
    ((numbers (10 * c) 10).foldl (centreLane lanes) s)

/-! DRAM commands (Table 16.9). -/

/-- DRAM.CONFIG (R332, R400): READY only, and in a SAFE entered from BOOT. -/
def specDramConfig : Spec :=
  { opcode := 0x0900, cls := fun _ => .ready, rom := true
    layout := layoutBad [(0, 1), (2, 2)]
    range := fun _ a => firstBad [(u8 a 0 ≤ 4 || u8 a 0 = 0xFF, 0), (decide (u16 a 2 < 4096), 2)]
    act := fun q s => { s with
      dram.speedCap := if u8 q.arg 0 = 0xFF then none else some (u8 q.arg 0)
      dram.excludeNext := BitVec.ofNat 12 (u16 q.arg 2) } }
def execDramConfig (q : Request) (s : State) : Out := kenra (.dramConfig q) specDramConfig q s

def isDramRetrain : Instr → Bool
  | .dramRetrain _ => true
  | _ => false

/-- Mask of a DRAM.RETRAIN shares a channel with one in progress (R376). -/
def retrainBusy (s : State) (mask : Nat) : Bool :=
  s.host.owed.any (fun e => isDramRetrain e.1 && (u16 e.2.arg 0 &&& mask) ≠ 0)

/-- DRAM.RETRAIN (R332). -/
def specDramRetrain : Spec :=
  { opcode := 0x0901, same := fun a b => u16 b 0 &&& u16 a 0 = u16 b 0
    cls := fun _ => .ready, event := true, allowed := fun d => d == .ready
    layout := layoutBad [(0, 2)]
    range := fun _ a => firstBad [(decide (u16 a 0 < 4096), 0)]
    resource := fun s q => firstFail [(!retrainBusy s (u16 q.arg 0), .busy)]
    act := fun _ s => s }
def execDramRetrain (q : Request) (s : State) : Out := kenra (.dramRetrain q) specDramRetrain q s

/-- DRAM_RETRAIN_DONE: of the channels named, those that pass take their new settings and LOST clears on them; a channel that fails, or is
not named, keeps what it had. Memory keeps every byte outside the recentring reserve (R332). The loss of a channel stops calling for
DEGRADED once none is lost. -/
def execDramRetrainDone (passed : BitVec 12) (lanes : List LaneEye) (s : State) : Out :=
  whenOn (fun s =>
    match s.host.owed.find? (fun e => isDramRetrain e.1) with
    | none => s
    | some (i, q) =>
      let named := (List.range 12).filter (fun c => testBit (u16 q.arg 0) c && !(dramCh s c).excluded)
      let good := named.filter (fun c => testBit passed.toNat c && channelOk lanes c)
      let s := good.foldl (fun s c => setAlarm 0x0901 c false (recentreBursts c (trainChannel lanes s c))) s
      let s := if (chansInUse s).any (fun c => (dramCh s c.1).lost) then s else setCause .channelLost false s
      let mask := good.foldl (fun m c => m + 2 ^ c) 0
      finish i 0x0901 q .ok 0 0 ([0, 0, 0] ++ leBytes 2 mask) s) s

/-- DRAM channel status word (Table 14.7). -/
def dramWord (s : State) (c : Nat) : Nat :=
  let d := dramCh s c
  (if d.trained then s.dram.speed else 0) * 65536 + (if d.trained then d.capGiB / 16 else 0) * 256
    + bit (dimmHot d) * 128 + bit (chanAbove 1360 d) * 64 + bit d.eyeLow * 32 + bit d.ueSeen * 16 + bit d.ceSeen * 8
    + bit d.lost * 4 + bit d.excluded * 2 + bit d.trained

/-- Counters and further content of a channel: the SPD identity and the hub temperature of each of two DIMMs, 0 for none, and each byte
lane's settings (R342; log 22). -/
def dramValues (s : State) (c : Nat) : List Nat :=
  (List.range ceDevices).map (fun d => counter .ce (c * 64 + d) s) ++
  [counter .ue c s, counter .parityReissue c s, counter .refreshPostponed c s, counter .pageHits c s,
   counter .pageConflicts c s, counter .rawWaits c s, counter .scrubPasses c s] ++
  (numbers (10 * c) 10).map (fun l => counter .recentreSteps l s) ++
  (List.range 2).map (fun k => (((dramCh s c).dimms[k]?).map (fun d => Config.spdIdentity d.spd)).getD 0) ++
  (List.range 2).map (fun k => cellOfInt (tabGet 0 (dramCh s c).hubTemps k)) ++
  (numbers (10 * c) 10).flatMap (fun l =>
    let d := tabGet (0, 0) s.dram.delays l
    let v := tabGet (0, 0) s.dram.vrefs l
    [cellOfInt d.1, cellOfInt d.2, v.1, v.2])

/-- DRAM.STATUS (R342). -/
def specDramStatus : Spec :=
  { opcode := 0x0902, layout := statusLayout, sampled := true
    range := fun _ a => firstBad [(selOk 12 a, 0)]
    result := fun s q => statusEach q.arg (dramWord s) (dramValues s)
    act := fun q s =>
      let v := dramValues s
      let s := clearShown q.arg v (fun c s => (numbers (10 * c) 10).foldl (fun s l => clearCtr .recentreSteps l s)
            (clearCtrs [.ue, .parityReissue, .refreshPostponed, .pageHits, .pageConflicts, .rawWaits, .scrubPasses] c
              ((List.range ceDevices).foldl (fun s d => clearCtr .ce (c * 64 + d) s) s))) s
      ackShown q.arg v (fun c s =>
          modDram c (fun d => { d with eyeLow := false, ueSeen := false, ceSeen := false }) s) s }
def execDramStatus (q : Request) (s : State) : Out := kenra (.dramStatus q) specDramStatus q s

end Sys2Proof.Machine
end

