-- ==== Sys2Proof/Machine/Usage.lean ====
section
/-! DEFINITION. What the committed schedule uses: quads, lanes and flow entries. Shared by the rules that refuse a
command on something in use. -/

namespace Sys2Proof.Machine

/-- The image in force, whether the data path runs yet or not: that of the running schedule. -/
def inForce (s : State) : Option Image :=
  match s.sched.running with
  | some i => some i
  | none => match s.sched.committed with
    | some k => (schedSlot s k).image
    | none => none

/-- The stream bindings of an image: (engine, output stream, compression, destination kind, destination index). -/
def bindings (i : Image) : List (Nat × Nat × Nat × Nat × Nat) :=
  (i.items.filter (fun x => x.kind = 8)).map (fun x => (x.unit, x.chan, x.b8, x.b9, x.h10))

/-- Signal inputs to which an image assigns units. -/
def assignedInputs (i : Image) : List Nat := (i.items.filter (fun x => x.kind = 5)).map (fun x => x.w8 % 65536)

/-- An ingress flow entry leads to a stream of an assigned input. -/
def flowFeeds (s : State) (i : Image) (base n : Nat) : Bool :=
  s.ingest.streams.any (fun e => decide (base ≤ e.1) && decide (e.1 < base + n) && e.2.enabled &&
    (assignedInputs i).contains e.2.cfg.input)

/-- The committed schedule uses a quad for ingest or egress. -/
def quadUsed (s : State) (k : Nat) : Bool :=
  match inForce s with
  | none => false
  | some i =>
    s.ingest.flows.any (fun e => match e.2 with
      | some (.ingress _ quads _ _ _ base n) => testBit quads.toNat k && flowFeeds s i base n
      | some (.egress _ q ..) => q = k && (bindings i).any (fun b => b.2.2.2.1 = 0 && b.2.2.2.2 = e.1)
      | none => false)

end Sys2Proof.Machine
end

