-- ==== Sys2Proof/Machine/Geometry.lean ====
section
/-! DEFINITION. The numbers that streams, channeliser and schedule fix together (R14, R36, R52, R78 to R92): c, P, s, B, K,
Z, S, λ and q_lim, the delay of an input in a source frame, and the start of a channeliser unit. -/

namespace Sys2Proof.Machine

/-! Rates. -/

/-- Taps per branch of a preset in Table 3.1 order; PASS has none. -/
def presetTaps (preset : Nat) : Nat := [1, 4, 8, 16].getD preset 0

/-- PASS (R58). -/
def isPass (s : State) : Bool := s.chan.preset = 4

/-- P as fine channels are counted: 1 in PASS (R58). -/
def branches (s : State) : Nat := if isPass s then 1 else s.chan.p

/-- Coarse samples per frame of period `t` µs at N/D Hz (R36); 0 where it is no whole number. -/
def coarsePer (nfs dfs t : Nat) : Nat :=
  if nfs * t % (dfs * 1000000) = 0 then nfs * t / (dfs * 1000000) else 0

/-- Sample rate of the device (R36): of the first enabled stream, else of the first that is configured. -/
def rate (s : State) : Option (Nat × Nat) :=
  let l := s.ingest.streams.filter (fun e => decide (e.2.cfg.np ≠ 0))
  ((l.find? (fun e => e.2.enabled)).or l.head?).map (fun e => (e.2.cfg.nfs, e.2.cfg.dfs))

/-- c at a period of `t` µs; 0 where no stream gives it. -/
def coarseFrame (s : State) (t : Nat) : Nat :=
  match rate s with
  | some (n, d) => coarsePer n d t
  | none => 0

/-- s, fine samples per channel per frame (R14); 0 where P does not divide c. -/
def finePer (s : State) (t : Nat) : Nat :=
  let c := coarseFrame s t
  if c % branches s = 0 then c / branches s else 0

/-- A_max in ms: the largest arrival allowance of an enabled stream (R82). -/
def allowMax (s : State) : Nat := s.ingest.streams.foldl (fun m e => if e.2.enabled then max m e.2.allowMs else m) 0

/-! The store (R78 to R83). -/

/-- K: the largest power of two from 64 to 4096 that divides L (R78). -/
def chunkLen (len : Nat) : Nat :=
  ([4096, 2048, 1024, 512, 256, 128].find? (fun k => decide (len % k = 0))).getD 64

/-- B, frames per block, of an image under the configuration. -/
def blockFrames (s : State) (i : Image) : Nat := i.len / max 1 (finePer s i.period)

/-- λ (R82), or λ_d of the direct route (R90). -/
def fillLag (s : State) (i : Image) : Nat :=
  ceilDiv (allowMax s * 1000 + s.ingest.window * 125) i.period + (if i.direct then 2 else 3)

/-- S, chunk slots per ring (R83). -/
def ringSlots (s : State) (i : Image) : Nat :=
  (capacityGiB s - s.store.serviceGiB - s.store.laGiB) * 2 ^ 30 /
    max 1 (i.channels.length * i.blocks * (256 * chunkLen i.len))

/-- Largest q of the direct route (R91): both the block bound and 2 ms in all; 0 where the block bound leaves none. -/
def directLim (s : State) (i : Image) : Nat :=
  let n := finePer s i.period
  let byBlocks := (2 * blockFrames s i - fillLag s i - 1) * n
  min byBlocks (coarseFrame s i.period * 2000 / i.period / branches s)

/-- q_lim in fine samples (R83, R91). -/
def qLim (s : State) (i : Image) : Nat :=
  if i.direct then directLim s i
  else ringSlots s i * chunkLen i.len - 2 * i.len - (fillLag s i + 2) * finePer s i.period

/-- A delay of D coarse samples lies within what the route applies: q = ⌊D / P⌋ at most q_lim, of which there is none where even
q = 0 breaks R83's or R91's bound (R10, R83, R91). -/
def routeReaches (s : State) (i : Image) (d : Nat) : Bool :=
  let q := d / branches s
  let n := finePer s i.period
  if i.direct then
    decide (ceilDiv q (max 1 n) + fillLag s i + 1 ≤ 2 * blockFrames s i) && decide (d * i.period ≤ coarseFrame s i.period * 2000)
  else decide (q + 2 * i.len + (fillLag s i + 2) * n ≤ ringSlots s i * chunkLen i.len)

/-- A value that the pegs wrote lies within D_max of the header and within the route's reach (R84). -/
def delayWithin (s : State) (i : Image) (d : Nat) : Bool := decide (d ≤ i.dmax) && routeReaches s i d

/-- Bytes of the store's rings. -/
def storeLen (s : State) (i : Image) : Nat :=
  i.channels.length * i.blocks * ringSlots s i * (256 * chunkLen i.len)

/-- Bytes of the store of the image in force, none without one. -/
def storeBytes (s : State) : Nat :=
  match inForce s with
  | some i => if i.direct then 0 else storeLen s i
  | none => 0

/-- Position of a stored or staged channel (R79). -/
def positionOf (i : Image) (fine : Nat) : Option Nat := i.channels.idxOf? fine

/-- Store offset of the granule that holds fine sample `u` (R79). -/
def granuleOffset (s : State) (i : Image) (input pos u : Nat) : Nat :=
  let k := chunkLen i.len
  let z := 256 * k
  let ring := pos * i.blocks + input / 256
  (ring * ringSlots s i + u / k % max 1 (ringSlots s i)) * z + (u / 64 % (k / 64) * 256 + input % 256) * 64

/-- A stored-route or direct-route schedule runs. -/
def runningImage (s : State) : Option Image := if observing s then s.sched.running else none

/-! Delays (R45, R46). -/

/-- D of an input for a source frame, and whether its samples are flagged for want of a value (R46). -/
def delayAt (s : State) (input frame : Nat) : Nat × Bool :=
  (((delayLine s input).frames.find? (fun e => decide (e.1 ≤ frame))).map (·.2)).getD (0, true)

/-! Units (R62, R63, R481). -/

/-- Labels a reset or start of a unit at tick `n` (R62). -/
def resetLabel (s : State) (input n : Nat) : Nat :=
  n * coarseFrame s s.time.period + (delayAt s input n).1

/-- A synchronising reset of one unit at tick `n` (R62, R63); PASS clears and flags nothing. -/
def unitReset (key n : Nat) (s : State) : State :=
  if isPass s then s
  else
    let m := resetLabel s (key / 65536) n
    let u := m / branches s
    let k := ((chanUnit s key).slice).getD 0
    count .settling k (modUnit key (fun x => { x with resets := (m, u, u + presetTaps s.chan.preset) :: x.resets }) s)

/-- A start of one unit at tick `n`: a reset, and its written range opens anew (R481, R81). A start and a reset at one
tick act as one. -/
def unitStart (key n : Nat) (s : State) : State :=
  let m := resetLabel s (key / 65536) n
  let seen := (chanUnit s key).resets.any (fun r => r.1 = m)
  let s := if seen then s else unitReset key n s
  modUnit key (fun x => { x with starts := x.starts ++ [m / branches s] }) s

end Sys2Proof.Machine
end

