-- ==== Sys2Proof/Machine/Gul.lean ====
section
/-! DEFINITION. The Guleruo link on the wire (R271 to R273, R276 to R278): blocks and their scrambler, control blocks, frames, the
BCH code of the codewords, and what a lane sends. Test patterns and error injection stand beside them (R292 to R294). Log 48 names
what the manual leaves open here. -/

namespace Sys2Proof.Machine

/-! Blocks (R271). -/

/-- A 66-bit block before scrambling: sync header and payload, whose byte 0 is its lowest eight bits. -/
structure Block where
  header : BitVec 2
  payload : BitVec 64
deriving DecidableEq, Repr

/-- Payload of a block received after the 58 payload bits `before`: the scrambler is 1 + x^39 + x^58. -/
def descramble (before : BitVec 58) (p : BitVec 64) : BitVec 64 :=
  let stream : BitVec 122 := p ++ before
  p ^^^ stream.extractLsb' 19 64 ^^^ stream.extractLsb' 0 64

/-- Scrambled payload after the 58 scrambled bits `before`: its bits from 39 on depend on scrambled bits of the block itself. -/
def scramble (before : BitVec 58) (p : BitVec 64) : BitVec 64 :=
  let b : BitVec 64 := before.setWidth 64
  let low := (p ^^^ b ^^^ (b >>> 19)) &&& 0x7FFFFFFFFF
  p ^^^ b ^^^ (b >>> 19) ^^^ (low <<< 39) ^^^ (low <<< 58)

/-- The last 58 bits of a payload as sent, which scramble the next one. -/
def lastBits (p : BitVec 64) : BitVec 58 := p.extractLsb' 6 58

/-- Bytes of a payload, the first in its lowest bits, which are sent first. -/
def payloadBytes (p : BitVec 64) : List Byte := leBytes 8 p.toNat

/-- Payload of eight bytes. -/
def payloadOf (l : List Byte) : BitVec 64 := BitVec.ofNat 64 (leVal (slice l 0 8))

/-- A received block with its scrambling removed. -/
def plainBlock (b : GulBlock) : Block := { header := b.header, payload := descramble b.before b.payload }

/-- A block as it is received after the bits `before`. -/
def received (before : BitVec 58) (b : Block) : GulBlock :=
  { header := b.header, payload := scramble before b.payload, before := before }

/-- The two headers that a block may have (R271, R275). -/
def headerValid (h : BitVec 2) : Bool := h = 1 || h = 2

/-! Control blocks (R272, Table 12.2). -/

/-- Control blocks with their fields; the content of CAP is bytes 2 to 7. -/
inductive Control where
  | idle | start (kind : Byte) (length : Nat) | fin (pad : Byte) (crc : Nat) | align (logical width : Byte) (count : Nat)
  | train (request flags : Byte) | cap (index : Byte) (content : List Byte) | nap (code : Byte)
deriving DecidableEq, Repr

/-- Control block of a payload; none for a type that Table 12.2 does not have, which is an invalid block. -/
def controlOf (p : BitVec 64) : Option Control :=
  let l := payloadBytes p
  let at' (i : Nat) : Byte := l.getD i 0
  if u8 l 0 = 0x1E then some .idle
  else if u8 l 0 = 0x33 then some (.start (at' 1) (beVal (slice l 2 2)))
  else if u8 l 0 = 0x55 then some (.fin (at' 1) (beVal (slice l 2 4)))
  else if u8 l 0 = 0x4B then some (.align (at' 1) (at' 2) (beVal (slice l 3 2)))
  else if u8 l 0 = 0x2D then some (.train (at' 1) (at' 2))
  else if u8 l 0 = 0x66 then some (.cap (at' 1) (slice l 2 6))
  else if u8 l 0 = 0x78 then some (.nap (at' 1))
  else none

/-- The eight bytes of a control block as it is sent: reserved bytes 0. -/
def controlBytes (c : Control) : List Byte :=
  slice (match c with
    | .idle => [0x1E]
    | .start kind n => [0x33, kind] ++ beBytes 2 n
    | .fin pad crc => [0x55, pad] ++ beBytes 4 crc
    | .align logical width n => [0x4B, logical, width] ++ beBytes 2 n
    | .train request flags => [0x2D, request, flags]
    | .cap index content => [0x66, index] ++ slice content 0 6
    | .nap code => [0x78, code]) 0 8

/-- A control block. -/
def controlBlock (c : Control) : Block := { header := 2, payload := payloadOf (controlBytes c) }

/-- A block is invalid in itself: its header, or a control block's type (R271, R272). -/
def blockBad (b : Block) : Bool := !headerValid b.header || (b.header = 2 && (controlOf b.payload).isNone)

/-- The control block that a received block is, if it is one. -/
def controlIn (b : GulBlock) : Option Control := if b.header = 2 then controlOf (plainBlock b).payload else none

/-! Frames (R273). -/

/-- Pad bytes of a payload's last data block. -/
def padOf (n : Nat) : Nat := (8 - n % 8) % 8

/-- CRC-32C of END: over the kind byte, the two length bytes and the payload. -/
def frameCrc (kind : Byte) (data : List Byte) : Nat := crc32c (kind :: beBytes 2 data.length ++ data)

/-- Data blocks of a padded payload. -/
def dataBlocks : Nat → List Byte → List Block
  | 0, _ => []
  | n + 1, l => { header := 1, payload := payloadOf l } :: dataBlocks n (l.drop 8)

/-- The blocks of a frame: START, its data, END. -/
def frameBlocks (kind : Byte) (data : List Byte) : List Block :=
  controlBlock (.start kind data.length) :: dataBlocks (ceilDiv data.length 8) data ++
    [controlBlock (.fin (BitVec.ofNat 8 (padOf data.length)) (frameCrc kind data))]

/-! The BCH(2112, 2052) code (R277, R278). The first bit of a message has the highest degree (log 48). -/

/-- Twice an element of GF(2^12), with the field polynomial x^12 + x^6 + x^4 + x + 1. -/
def gfDouble (a : Nat) : Nat := if 2 * a < 4096 then 2 * a else (2 * a) ^^^ 0x1053

/-- Product in GF(2^12). -/
def gfMul (a b : Nat) : Nat :=
  (List.range 12).foldl (fun r i => gfDouble r ^^^ (if Nat.testBit b (11 - i) then a else 0)) 0

/-- Power in GF(2^12), of an exponent below 4096. -/
def gfPow (a n : Nat) : Nat :=
  (List.range 12).foldl (fun r i => let r := gfMul r r; if Nat.testBit n (11 - i) then gfMul r a else r) 1

/-- Inverse in GF(2^12). -/
def gfInv (a : Nat) : Nat := gfPow a 4094

/-- Power of α, the class of x. -/
def alphaPow (n : Nat) : Nat := gfPow 2 (n % 4095)

/-- Product of a polynomial over GF(2^12), lowest degree first, and x + r. -/
def timesRoot (r : Nat) (p : List Nat) : List Nat :=
  let low := p.map (gfMul r) ++ [0]
  (low.zip (0 :: p)).map (fun e => e.1 ^^^ e.2)

/-- Minimal polynomial of α^i as the bits of a number: the product of x + α^(i 2^j) over its twelve conjugates. -/
def minimalPoly (i : Nat) : Nat :=
  ((List.range 12).foldl (fun p j => timesRoot (alphaPow (i * 2 ^ j)) p) [1]).zipIdx.foldl (fun v e => v + e.1 * 2 ^ e.2) 0

/-- Product of two polynomials over GF(2) as numbers. -/
def polyMul (a b : Nat) : Nat :=
  (List.range 64).foldl (fun r i => if Nat.testBit b i then r ^^^ (a * 2 ^ i) else r) 0

/-- The generator: the least common multiple of the minimal polynomials of α, α^3, α^5, α^7 and α^9, which differ. -/
def bchGenerator : Nat := [1, 3, 5, 7, 9].foldl (fun g i => polyMul g (minimalPoly i)) 1

/-- Remainder of a polynomial given by its bits, highest degree first, times x^60 by the generator `g`. -/
def bchRemainder (g : Nat) (bits : List Bool) : Nat :=
  let step := fun (r : Nat) (b : Bool) =>
    let r := 2 * r + bit b
    if r < 2 ^ 60 then r else r ^^^ g
  (List.range 60).foldl (fun r _ => step r false) (bits.foldl step 0)

/-- Bits of a block in transmission order. -/
def wireBits (b : BitVec 66) : List Bool := (List.range 66).map (fun i => b.getLsbD i)

/-- Bits of a codeword's 32 blocks as the code takes them: the 2052 message bits, then the 60 parity bits (R277). -/
def codeBits (l : List (BitVec 66)) : List Bool :=
  let w := l.flatMap wireBits
  w.take 2048 ++ (w.drop 2108).take 4 ++ (w.drop 2048).take 60

/-- Parity block of the 31 blocks of a codeword: header 0b10, 60 parity bits, 4 zero bits. -/
def parityBlock (l : List (BitVec 66)) : BitVec 66 :=
  let p := bchRemainder bchGenerator (l.flatMap wireBits ++ [false, true, false, false, false, false])
  BitVec.ofNat 66 ((List.range 60).foldl (fun v i => v + bit (Nat.testBit p (59 - i)) * 2 ^ (2 + i)) 2)

/-- Syndromes of a word at α to α^10. -/
def syndromes (bits : List Bool) : List Nat :=
  (numbers 1 10).map (fun i => let a := alphaPow i; bits.foldl (fun s b => gfMul s a ^^^ bit b) 0)

/-- State of the Berlekamp-Massey recursion: two connection polynomials, the length, the gap and the last discrepancy. -/
structure Locator where
  c : List Nat := [1]
  b : List Nat := [1]
  len : Nat := 0
  gap : Nat := 1
  last : Nat := 1
deriving DecidableEq, Repr

/-- One step of the recursion at syndrome `n`. -/
def Locator.step (syn : List Nat) (x : Locator) (n : Nat) : Locator :=
  let d := (List.range (x.len + 1)).foldl (fun d i => if i ≤ n then d ^^^ gfMul (x.c.getD i 0) (syn.getD (n - i) 0) else d) 0
  if d = 0 then { x with gap := x.gap + 1 }
  else
    let f := gfMul d (gfInv x.last)
    let shifted := List.replicate x.gap 0 ++ x.b.map (gfMul f)
    let c := (List.range (max x.c.length shifted.length)).map (fun i => x.c.getD i 0 ^^^ shifted.getD i 0)
    if 2 * x.len ≤ n then { c := c, b := x.c, len := n + 1 - x.len, gap := 1, last := d }
    else { x with c := c, gap := x.gap + 1 }

/-- Bit errors of a received codeword, none where it cannot be corrected: more than five (R278). -/
def bchErrors (l : List (BitVec 66)) : Option Nat :=
  let bits := codeBits l
  let syn := syndromes bits
  if syn.all (· = 0) then some 0
  else
    let x := (List.range 10).foldl (Locator.step syn) {}
    let roots := (List.range 2112).filter (fun p =>
      let y := alphaPow (4095 - p)
      (x.c.foldr (fun a v => gfMul v y ^^^ a) 0) = 0)
    if x.len ≤ 5 && roots.length = x.len then some x.len else none

/-! Injection and patterns (R292 to R294). -/

/-- Error injection inverts the bit sent as number `n` since it was set up: one bit, `b` bits, or one in every m x 2^e (R294). -/
def inverts (inj : Option (Nat × Nat × Nat × Nat)) (n : Nat) : Bool :=
  match inj with
  | none => false
  | some (mode, b, m, e) =>
    if mode = 1 then n = 0 else if mode = 2 then decide (n < b) else if mode = 3 then (n + 1) % (m * 2 ^ e) = 0 else false

/-- A block with the injected errors, its first bit being number `n`. -/
def injectInto (inj : Option (Nat × Nat × Nat × Nat)) (n : Nat) (b : BitVec 66) : BitVec 66 :=
  b ^^^ BitVec.ofNat 66 ((List.range 66).foldl (fun v i => v + bit (inverts inj (n + i)) * 2 ^ i) 0)

/-- Taps of the PRBS patterns in the order of LANE.PRBS (Table 12.7). -/
def prbsTaps (k : Nat) : Nat × Nat :=
  if k = 0 then (7, 6) else if k = 1 then (9, 5) else if k = 2 then (15, 14) else if k = 3 then (23, 18) else (31, 28)

/-- Bits of history that a pattern needs; the square wave of half period `n` needs `n` (Table 12.7). -/
def patternDepth (p : Nat × Nat) : Nat := if p.1 = 5 then p.2 else (prbsTaps p.1).1

/-- Next bit of a pattern after its history, newest first (Table 12.7). -/
def patternNext (p : Nat × Nat) (hist : List Bool) : Bool :=
  if p.1 = 5 then !hist.getD (p.2 - 1) false
  else xor (hist.getD ((prbsTaps p.1).1 - 1) false) (hist.getD ((prbsTaps p.1).2 - 1) false)

/-- The next `n` bits of a pattern's generator, oldest first, with the history after them. -/
def patternBits (p : Nat × Nat) : Nat → List Bool → List Bool × List Bool
  | 0, h => ([], h)
  | n + 1, h =>
    let b := patternNext p h
    let r := patternBits p n ((b :: h).take (patternDepth p))
    (b :: r.1, r.2)

/-- PAM4 level of a bit pair, the first bit the more significant: Gray code (R292, IEEE 802.3 Clause 120). -/
def pam4 (first second : Bool) : Nat := if first then (if second then 2 else 3) else bit second

/-! What a lane sends (R273, R276, R277, R294). -/

/-- A block leaves on lane `l`: scrambled unless it is a parity block, with injected errors; `sent` is what goes on the wire. -/
def putBlock (l : Nat) (parity : Bool) (w : BitVec 66) (s : State) : State :=
  modLane l (fun x => { x with
    sent := x.sent ++ [injectInto x.inject x.injPos w], injPos := x.injPos + 66
    txScrambler := if parity then x.txScrambler else lastBits (w.extractLsb' 2 64) }) s

/-- Scrambles a block for its lane and sends it. -/
def putPlain (l : Nat) (b : Block) (s : State) : State := putBlock l false (scramble (lane s l).txScrambler b.payload ++ b.header) s

/-- What the lanes send in a block period of the stream: ALIGN on all of them after every 8191 other blocks, with FEC a parity block as the
32nd of a codeword, which an ALIGN block begins, else blocks of the stream (R276, R277). DESIGN CHOICE (log 48): a stream begins with an
ALIGN block. -/
inductive RowKind where
  | align | parity | stream
deriving DecidableEq, Repr

/-- What block period `r` of a stream is for. -/
def rowKind (fec : Bool) (r : Nat) : RowKind :=
  if r % 8192 = 0 then .align else if fec && r % 32 = 31 then .parity else .stream

/-- One lane in block period `r`, with the count of an ALIGN block and the stream's block. -/
def putLane (fec : Bool) (width r count l : Nat) (b : Block) (s : State) : State :=
  match rowKind fec r with
  | .parity => putBlock l true (parityBlock (lane s l).txWord) s
  | k =>
    let b := if k = .align then controlBlock (.align (BitVec.ofNat 8 (l % 4)) (BitVec.ofNat 8 width) count) else b
    let w : BitVec 66 := scramble (lane s l).txScrambler b.payload ++ b.header
    modLane l (fun x => { x with txWord := (if r % 32 = 0 then [] else x.txWord) ++ [w] }) (putBlock l false w s)

/-- One block period of a quad: all lanes in use send at once (R276). -/
def putRow (k : Nat) (fec : Bool) (w : Nat) (b : Nat → Block) (s : State) : State :=
  let q := quad s k
  let n := if rowKind fec q.txRows = .align then (q.txAlign + 1) % 65536 else q.txAlign
  let s := (List.range w).foldl (fun s j => putLane fec w q.txRows n (4 * k + j) (b j) s) s
  modQuad k (fun x => { x with txRows := q.txRows + 1, txAlign := n }) s

/-- An IDLE block. -/
def idleBlock : Block := controlBlock .idle

/-- A block period that is due for ALIGN or parity blocks goes before the next one of the stream. -/
def putDue (k : Nat) (fec : Bool) (w : Nat) (s : State) : State :=
  if rowKind fec (quad s k).txRows = .stream then s else putRow k fec w (fun _ => idleBlock) s

/-- One block period of the stream, with what is due before it. -/
def putStream (k : Nat) (fec : Bool) (w : Nat) (b : Nat → Block) (s : State) : State :=
  putRow k fec w b (putDue k fec w (putDue k fec w s))

/-- `n` block periods with nothing to send. -/
def idleRows (k : Nat) (fec : Bool) (w : Nat) : Nat → State → State
  | 0, s => s
  | n + 1, s => idleRows k fec w n (putRow k fec w (fun _ => idleBlock) s)

/-- Width of the block stream: the agreed one, before that the one offered (R280, R281). -/
def streamWidth (q : Quad) : Nat := if q.inUse = 0 then max 1 q.offerWidth else q.inUse

/-- FEC runs in LOCK and EXCHANGE where the own setting leads to it (R277, R280; log 30), then as agreed. -/
def fecWanted (q : Quad) : Bool := q.fec = 2 || (q.fec = 1 && q.rate = 1)
def fecRuns (q : Quad) : Bool := if q.state = .active || q.state = .idle then q.fecOn else fecWanted q

/-- Nothing has been sent yet by the command on the lanes of a quad. -/
def clearSent (k : Nat) (s : State) : State :=
  (List.range 4).foldl (fun s j => modLane (4 * k + j) (fun x => { x with sent := [] }) s) s

/-- A stream of blocks begins on the lanes of a quad (R276). -/
def startStream (k : Nat) (s : State) : State := modQuad k (fun q => { q with txFrom := s.time.tb2, txRows := 0 }) s

/-- Block periods of a lane that have passed in `n` ns: 66 bits each at the rate of CAP index 0 (R271, Table 12.4). -/
def blocksIn (rate n : Nat) : Nat :=
  if rate = 1 then n * 53125 / 66000 else if rate = 2 then n * 265625 / 660000 else n * 2578125 / 6600000

/-- A long stretch without frames has passed: whole codewords of IDLE and ALIGN blocks up to block period `r` have been sent. The
scrambler, for which the manual gives no starting state, then stands at a free value (log 48). -/
def skipTo (k w r : Nat) (s : State) : State :=
  let q := quad s k
  let s := (List.range w).foldl (fun s j =>
    let d := draw s
    modLane (4 * k + j) (fun x => { x with
      txScrambler := BitVec.ofNat 58 d.1, txWord := [], injPos := x.injPos + 66 * (r - q.txRows) }) d.2) s
  modQuad k (fun x => { x with
    txRows := r, txAlign := (q.txAlign + (ceilDiv r 8192 - ceilDiv q.txRows 8192)) % 65536 }) s

/-- Between frames the stream goes on with IDLE blocks: the block periods that TB2 says have passed are over (R273, R276). -/
def catchUp (k : Nat) (s : State) : State :=
  let q := quad s k
  let w := streamWidth q
  let now := blocksIn q.rate (s.time.tb2 - q.txFrom)
  let start := now / 32 * 32
  let s := if q.txRows < start then skipTo k w start s else s
  idleRows k (fecRuns q) w (now - (quad s k).txRows) s

/-- A quad sends blocks of its stream: they go to its lanes in turn, IDLE blocks behind the last (R273). -/
def sendBlocks (k : Nat) (l : List Block) (s : State) : State :=
  let q := quad s k
  let w := streamWidth q
  (List.range (ceilDiv l.length w)).foldl (fun s i =>
    putStream k (fecRuns q) w (fun j => l.getD (w * i + j) idleBlock) s) (clearSent k (catchUp k s))

/-- Every lane in use sends 32 TRAIN blocks with request hold, then its ALIGN block with the next count; the stream goes on at a new
codeword (R284). -/
def sendWake (k : Nat) (s : State) : State :=
  let q := quad s k
  let w := streamWidth q
  let s := (List.range w).foldl (fun s j =>
    (List.range 32).foldl (fun s _ => putPlain (4 * k + j) (controlBlock (.train 0 0)) s) s) (clearSent k s)
  putRow k (fecRuns q) w (fun _ => idleBlock) (startStream k s)

/-- A quad sends a control block. -/
def sendControl (k : Nat) (c : Control) (s : State) : State := sendBlocks k [controlBlock c] s

/-- Own CAP set (Table 12.4): a quad offers its width, those down to MIN_WIDTH, or the reduced one alone (R280, R281; log 30). -/
def offers (q : Quad) (w : Nat) : Bool :=
  decide (w = q.offerWidth) || (q.offerWidth = q.width && decide (q.minWidth ≤ w) && decide (w ≤ q.width))

/-- Content of the own CAP blocks (Table 12.4). -/
def capContent (s : State) (k i : Nat) : List Byte :=
  let q := quad s k
  let id := beBytes 8 Config.deviceIdentity.toNat
  if i = 0 then
    [BitVec.ofNat 8 q.rate, BitVec.ofNat 8 (bit (offers q 1) + 2 * bit (offers q 2) + 4 * bit (offers q 4)), BitVec.ofNat 8 q.fec,
     BitVec.ofNat 8 (bit q.nap + 2 * bit q.idleOn + 4 * bit (s.twin.quad = some k)), BitVec.ofNat 8 (bit q.ackSent)]
  else if i = 1 then id.take 6
  else id.drop 6 ++ [BitVec.ofNat 8 k]

/-- A quad in EXCHANGE sends its CAP set, its blocks separated by IDLE (R280). -/
def sendCaps (k : Nat) (s : State) : State :=
  sendBlocks k ((List.range 3).flatMap (fun i =>
    [controlBlock (.cap (BitVec.ofNat 8 i) (capContent s k i)), controlBlock .idle])) s

/-- Control block of a stream with nothing to send: IDLE, or ALIGN where it is due (R276, Table 12.3). -/
def streamFiller (q : Quad) (l : Nat) : Control :=
  if rowKind (fecRuns q) q.txRows = .align then
    .align (BitVec.ofNat 8 (l % 4)) (BitVec.ofNat 8 (streamWidth q)) ((q.txAlign + 1) % 65536)
  else .idle

/-- Control block that a lane sends while nothing else is to send, none in electrical idle (Table 12.3). -/
def laneFiller (s : State) (l : Nat) : Option Control :=
  let q := quad s (l / 4)
  let x := lane s l
  match q.state with
  | .train => if l % 4 < q.width then some (.train 0 (BitVec.ofNat 8 (bit x.rxReadySent + 2 * bit x.atLimit))) else none
  | .lock | .exchange => if l % 4 < streamWidth q then some (streamFiller q l) else none
  | .active => if l % 4 < q.inUse && !q.napTx then some (streamFiller q l) else none
  | _ => none

/-- A dropped frame is marked in its quad's status word and counted (R274, R288). -/
def dropFrame (k : Nat) (c : Ctr) (s : State) : State := count c k (modQuad k (fun q => { q with frameErr := true }) s)

/-- The link has left ACTIVE: the frame in progress is dropped as ABORTED (R274, R282). -/
def abortFrame (k : Nat) (s : State) : State :=
  if (quad s k).rxFrame.isNone then s else dropFrame k .aborted (modQuad k (fun q => { q with rxFrame := none }) s)

/-- The frames that wait for a quad leave, and the idle time of its transmit direction begins again (R283, R284). -/
def flushFrames (k : Nat) (s : State) : State :=
  let l := (quad s k).txQueue
  let s := modQuad k (fun q => { q with lastFrame := s.time.tb2, txQueue := [] }) s
  if l.isEmpty then s else sendBlocks k (l.flatMap (fun e => frameBlocks e.1 e.2)) s

/-- A quad sends frames of a kind one after another, while its link is ACTIVE (R273, Table 12.3); while its direction sleeps they wait
(R284). -/
def sendFrames (k : Nat) (kind : Byte) (l : List (List Byte)) (s : State) : State :=
  let q := quad s k
  if q.mode ≠ .gul || !(q.state = .active || q.state = .idle) then s
  else
    let s := modQuad k (fun q => { q with txQueue := q.txQueue ++ l.map (fun d => (kind, d)) }) s
    if q.napTx then s else flushFrames k s

/-- Bits leave on a lane one after another, with injected errors (R292, R294). -/
def putBits (l : Nat) (bits : List Bool) (s : State) : State :=
  modLane l (fun x => { x with
    sentBits := bits.zipIdx.map (fun e => xor e.1 (inverts x.inject (x.injPos + e.2))), injPos := x.injPos + bits.length }) s

/-- An Ethernet frame leaves on the four lanes of its quad, as the PCS and FEC of IEEE 802.3 code it; errors are injected after that
(R286, R294; log 48). -/
def ethSend (k : Nat) (frame : List Byte) (s : State) : State :=
  (List.range 4).foldl (fun s j => putBits (4 * k + j) (Config.ethWire j frame) s) s

end Sys2Proof.Machine
end

