-- ==== Sys2Proof/Machine/Output.lean ====
section
/-! DEFINITION. Output records and egress (chapter 09): record assembly, gap records, admission to egress queues and host
rings, datagrams, the allow-list, and the OSTREAM, EGRESS and HOSTRING commands. -/

namespace Sys2Proof.Machine

/-! Records (R192 to R199). -/

/-- Bytes 0 to 59 of a record header (Table 9.1). -/
def headerBody (i : Item) (flags : BitVec 16) (seq reason countLen expOff autoOff unLen wireLen : Nat) : List Byte :=
  beBytes 2 0x5352 ++ [1, BitVec.ofNat 8 i.rtype] ++ beBytes 2 i.ostream ++ beBytes 2 flags.toNat ++ beBytes 8 seq
    ++ beBytes 8 i.frame ++ beBytes 4 i.span ++ beBytes 2 i.firstCh ++ beBytes 2 i.chCount ++ beBytes 2 i.firstObj
    ++ beBytes 2 i.objCount ++ beBytes 2 i.sub ++ [BitVec.ofNat 8 reason, 0] ++ beBytes 4 countLen ++ beBytes 4 expOff
    ++ beBytes 4 autoOff ++ beBytes 4 unLen ++ beBytes 4 wireLen

/-- A gap record's 64 bytes: header alone, GAP set and COMPRESSED clear, lengths and offsets 0 (R199). -/
def gapHeader (i : Item) (seq reason : Nat) : List Byte :=
  let b := headerBody i ((i.flags &&& 0xFFFE) ||| 2) seq reason 0 0 0 0 0
  b ++ beBytes 4 (crc32c b)

/-- A record cut to its gap record. -/
def gapOf (reason : Nat) (r : Rec) : Rec :=
  { r with header := gapHeader r.item r.seq reason, payload := [], counts := [], gap := true }

/-- A record of an item that is whole, with what the engine emitted (R182, R193 to R195). -/
def wholeHeader (i : Item) (seq : Nat) (packed : Option (List Byte)) : List Byte :=
  let wire := packed.getD i.payload
  let b := headerBody i (i.flags ||| (if packed.isSome then 1 else 0)) seq 0 i.counts.length i.expOff i.autoOff
    i.payload.length wire.length
  b ++ beBytes 4 (crc32c (b ++ i.payload ++ i.counts))

/-- Bytes of a record on the wire (R194). -/
def Rec.bytes (r : Rec) : List Byte := r.header ++ r.payload ++ r.counts

/-! Discards (R213). -/

/-- A record is discarded for a reason: counted, and joined to the stream's consecutive discards of the frame. -/
def discard (reason : Nat) (r : Rec) (s : State) : State :=
  let s := count .discarded (r.ostream * 64 + reason) s
  let joins := fun (d : Discard) => d.ostream = r.ostream && d.reason = reason && d.last + 1 = r.seq
  if s.out.discards.any joins then
    { s with out.discards := s.out.discards.map (fun d =>
        if joins d then { d with count := d.count + 1, last := r.seq } else d) }
  else
    { s with out.discards := s.out.discards ++
        [{ ostream := r.ostream, reason := reason, count := 1, first := r.seq, last := r.seq }] }

/-- Marks a discard in its quad's status word (Table 9.10 bit 6). -/
def discardQuad (q reason : Nat) (r : Rec) (s : State) : State :=
  discard reason r (modEgress q (fun e => { e with sticky := e.sticky ||| 0x40 }) s)

/-- RECORDS_DISCARDED entries of a frame that ends at a tick with GTS `gts` (R213, R356). -/
def reportDiscards (gts : Nat) (s : State) : State :=
  s.out.discards.foldl (fun s d =>
    raiseEvent gts 0x0800 62 false false d.count (cells [d.count, d.ostream, d.reason, d.first, d.last]) s)
    { s with out.discards := [] }

/-! Egress quads (R206 to R209). -/

/-- The quad's link is up. -/
def linkUp (s : State) (k : Nat) : Bool := (quad s k).state = .active

/-- Egress entries name the quad. -/
def egressQuad (s : State) (k : Nat) : Bool :=
  s.ingest.flows.any (fun e => match e.2 with
    | some (.egress _ q ..) => q = k
    | _ => false)

/-- Egress quads. -/
def egressQuads (s : State) : List Nat := (List.range 32).filter (egressQuad s)

/-- Buffer of a quad in bytes: its share, or an equal share in whole MiB of 16 MiB (Table 9.9). -/
def shareBytes (s : State) (k : Nat) : Nat :=
  if s.out.shared then (egress s k).share * 2 ^ 20
  else
    let n := (egressQuads s).length
    if n ≤ 16 then 16 / max 1 n * 2 ^ 20 else 2 ^ 24 / n

/-- Payload and count bytes that a queue holds. -/
def queueBytes (e : EgressQuad) : Nat := (e.queue.map (fun x => x.1.payload.length + x.1.counts.length)).sum

/-- While a quad's link is down each record that reaches the head is discarded (R209). -/
def drainDown (k : Nat) (s : State) : State :=
  if linkUp s k || (egress s k).queue.isEmpty then s
  else
    let l := (egress s k).queue
    let s := modEgress k (fun e => { e with queue := [], denying := false }) s
    l.foldl (fun s x => discardQuad k 1 x.1 (count .linkDown k s)) s

/-- Admission of a finished record to its quad's queue, with its egress entry as it stands then (R206; log 46). -/
def admitEgress (k : Nat) (entry : Flow) (r : Rec) (s : State) : State :=
  let e := egress s k
  if 4096 ≤ e.queue.length then discardQuad k 0 r (count .noSlot k s)
  else
    let fits := r.gap || decide (queueBytes e + r.payload.length + r.counts.length ≤ shareBytes s k)
    let s := if fits then modEgress k (fun e => { e with queue := e.queue ++ [(r, entry, 0)] }) s
      else count .queueFull k (count .gaps (r.ostream * 64 + 0x0F) (modEgress k (fun e => { e with
        queue := e.queue ++ [(gapOf 0x0F r, entry, 0)], sticky := e.sticky ||| 8 }) s))
    drainDown k s

/-- Age limit of an egress entry. -/
def entryAge (entry : Flow) : Nat :=
  match entry with
  | .egress _ _ _ _ _ _ _ _ _ _ _ age => age
  | .ingress .. => 8

/-- Cuts the records not begun by tick a + g to their gap records (R207). -/
def ageQuad (k : Nat) (s : State) : State :=
  let due := fun (x : Rec × Flow × Nat) =>
    !x.1.gap && x.2.2 = 0 && decide (x.1.frame + entryAge x.2.1 ≤ s.time.frame)
  let l := (egress s k).queue.filter due
  if l.isEmpty then s
  else
    let s := modEgress k (fun e => { e with
      queue := e.queue.map (fun x => if due x then (gapOf 0x10 x.1, x.2) else x), sticky := e.sticky ||| 0x10 }) s
    l.foldl (fun s x => count .gaps (x.1.ostream * 64 + 0x10) (count .egressAged k s)) s

/-- EGRESS_AGE_EXPIRY (R207). -/
def execEgressAgeExpiry (k : BitVec 5) (s : State) : Out := whenOn (ageQuad k.toNat) s

/-! Host rings (R211, R212). -/

/-- Free bytes of a host ring. -/
def ringFree (read : Nat) (r : HostRing) : Nat := 2 ^ r.log2 - (r.write - read)

/-- Changes a host ring. -/
def modRing (k : Nat) (f : HostRing → HostRing) (s : State) : State :=
  { s with out.rings := tabMod none s.out.rings k (Option.map f) }

/-- Admission of a finished record to a host ring; a suspended ring's are discarded (R359), and so are those of a ring that does
not exist, which has no free byte (R213; log 46). -/
def admitRing (k : Nat) (r : Rec) (s : State) : State :=
  match ring s k with
  | none => discard 3 r s
  | some x =>
    if x.suspended then discard 3 r s else modRing k (fun x => { x with queue := x.queue ++ [r] }) s

/-- An item's stream is compressed: the stream binding of the schedule last applied says so, or that of the old schedule for
an item of one of its blocks at a seam (R180, R191, R228). -/
def compressed (s : State) (i : Item) : Bool :=
  let now := tabGet false s.pack.compress i.ostream
  match s.sched.seam.find? (fun e => decide (i.frame / max 1 (blockFrames s e.1) < e.2)) with
  | none => now
  | some (old, _) => (bindings old).any (fun b => b.2.1 = i.ostream && b.2.2.1 = 1)

/-- Record assembly (R192, R199, R206, R211): the item takes the stream's next number and goes to its destination. A record whose
stream names no egress entry finds no header slot and is discarded (R213; log 46). -/
def assemble (i : Item) (packed : Option (List Byte)) (s : State) : State :=
  match ostream s i.ostream with
  | none => s
  | some o =>
    let r0 : Rec := { ostream := i.ostream, seq := o.next, header := wholeHeader i o.next packed,
                      payload := packed.getD i.payload, counts := i.counts, gap := false, frame := s.time.frame,
                      item := i, order := s.out.order }
    let r := match i.gap with
      | some reason => gapOf reason r0
      | none => r0
    let s := { s with out.order := s.out.order + 1
                      out.streams := tabSet none s.out.streams i.ostream (some { o with next := o.next + 1, formed := true }) }
    let s := match i.gap with
      | some reason => count .gaps (i.ostream * 64 + reason) s
      | none => count .records i.ostream s
    if o.ring then admitRing o.dest r s
    else match flow s o.dest with
      | some (.egress kind k vlan mac src dst dport sport dscp ttl piece age) =>
        admitEgress k (.egress kind k vlan mac src dst dport sport dscp ttl piece age) r s
      | _ => discard 0 r s

/-- Cuts a host ring's records whose writes have not begun by their age limit (R212). -/
def ageRing (k : Nat) (s : State) : State :=
  match ring s k with
  | none => s
  | some x =>
    let due := fun (r : Rec) => !r.gap && decide (r.frame + x.age ≤ s.time.frame)
    let l := x.queue.filter due
    if l.isEmpty then s
    else l.foldl (fun s r => count .gaps (r.ostream * 64 + 0x10) s)
      (modRing k (fun x => { x with queue := x.queue.map (fun r => if due r then gapOf 0x10 r else r) }) s)

/-- HOSTRING_AGE_EXPIRY (R212). -/
def execHostringAgeExpiry (k : BitVec 4) (s : State) : Out := whenOn (ageRing k.toNat) s

/-- Zeros up to a multiple of 64 bytes. -/
def pad64 (l : List Byte) : List Byte := l ++ List.replicate (ceilDiv l.length 64 * 64 - l.length) 0

/-- Runs of bytes at a ring's index, wrapping at its end (R211). -/
def ringRuns (x : HostRing) (l : List Byte) : List (Nat × List Byte) :=
  let at' := x.write % 2 ^ x.log2
  let room := 2 ^ x.log2 - at'
  [(x.base + at', l.take room), (x.base, l.drop room)]

/-- The ring's channel writes a record, then its write index, and the record is announced (R211, R358, R384). One that a request's error
cuts short is discarded, and the index stays (R360, R362, R392; log 46). -/
def ringRecord (k : Nat) (x : HostRing) (r : Rec) (s : State) : State :=
  let l := pad64 r.bytes
  let w := x.write + l.length
  let y := chanWrite x.dma (ringRuns x l ++ [(x.base - 64, leBytes 8 w)]) s
  if y.1 ≠ 0 then discard 3 r y.2 else interrupt (16 + k) (modRing k (fun x => { x with write := w }) y.2)

/-- The ring's head is the oldest record that waits on its DMA channel (R211). -/
def ringTurn (s : State) (x : HostRing) (r : Rec) : Bool :=
  s.out.rings.all (fun e => match e.2 with
    | some y => y.dma ≠ x.dma || y.queue.all (fun z => decide (r.order ≤ z.order))
    | none => true)

/-- HOST_RING_WRITE (R211 to R213, R345): the head record, its HOST_RING_FULL gap record, or a discard. -/
def execHostRingWrite (ringNo : BitVec 4) (s : State) : Out :=
  whenOn (fun s =>
    let k := ringNo.toNat
    let s := ageRing k s
    match ring s k with
    | none => s
    | some x =>
      match x.queue with
      | [] => s
      | r :: rest =>
        if !ringTurn s x r then s
        else
          let s := modRing k (fun x => { x with queue := rest }) s
          let free := if hostReachable s then ringFree (ringRead s k) x else 0
          if x.suspended || decide (free < 64) then discard 3 r s
          else if (pad64 r.bytes).length ≤ free then ringRecord k x r s
          else ringRecord k x (gapOf 0x11 r) (count .gaps (r.ostream * 64 + 0x11) s)) s

/-- Line rate of an Ethernet quad in Gb/s (Table 12.1). -/
def quadGbps (s : State) (k : Nat) : Nat := if (quad s k).mode = .eth100 then 100 else 200

/-! Datagrams (R203 to R205, R208). -/

/-- The 16-bit one's complement sum of bytes. -/
def inetSum : List Byte → Nat
  | a :: b :: t => let v := a.toNat * 256 + b.toNat + inetSum t; v % 65536 + v / 65536
  | [a] => a.toNat * 256
  | [] => 0

/-- The Internet checksum of bytes. -/
def inetCheck (l : List Byte) : Nat :=
  let v := inetSum l
  65535 - (v % 65536 + v / 65536)

/-- A UDP checksum, 0xFFFF for zero. -/
def udpCheck (l : List Byte) : Nat := if inetCheck l = 0 then 0xFFFF else inetCheck l

/-- Own MAC of a quad (R288). -/
def ownMac (s : State) (k : Nat) : Nat :=
  match (quad s k).mac with
  | some m => m.toNat
  | none => (Config.baseMac.toNat + k) % 2 ^ 48

/-- UDP header and payload with its checksum over the pseudo-header (R204). -/
def udpBytes (pseudo : List Byte) (sport dport : Nat) (data : List Byte) : List Byte :=
  let n := data.length + 8
  let h := fun (c : Nat) => beBytes 2 sport ++ beBytes 2 dport ++ beBytes 2 n ++ beBytes 2 c
  h (udpCheck (pseudo ++ h 0 ++ data)) ++ data

/-- The IP packet of an egress datagram: IPv4 with DF set, identification 0 and no options; IPv6 with no extension
headers (R204). -/
def ipPacket (v6 : Bool) (src dst dport sport dscp ttl : Nat) (data : List Byte) : List Byte :=
  let n := data.length + 8
  if v6 then
    let pseudo := beBytes 16 src ++ beBytes 16 dst ++ beBytes 4 n ++ [0, 0, 0, 17]
    beBytes 4 (6 * 2 ^ 28 + dscp * 4 * 2 ^ 20) ++ beBytes 2 n ++ [17, BitVec.ofNat 8 ttl] ++ beBytes 16 src
      ++ beBytes 16 dst ++ udpBytes pseudo sport dport data
  else
    let pseudo := beBytes 4 src ++ beBytes 4 dst ++ [0, 17] ++ beBytes 2 n
    let h := fun (c : Nat) => [0x45, BitVec.ofNat 8 (dscp * 4)] ++ beBytes 2 (n + 20) ++ beBytes 2 0 ++ beBytes 2 0x4000
      ++ [BitVec.ofNat 8 ttl, 17] ++ beBytes 2 c ++ beBytes 4 src ++ beBytes 4 dst
    h (inetCheck (h 0)) ++ udpBytes pseudo sport dport data

/-- The Ethernet frame, FCS included. -/
def ethFrame (dst src : Nat) (vlan : Option Nat) (v6 : Bool) (packet : List Byte) : List Byte :=
  let tag := match vlan with
    | some t => beBytes 2 0x8100 ++ beBytes 2 t
    | none => []
  let b := beBytes 6 dst ++ beBytes 6 src ++ tag ++ beBytes 2 (if v6 then 0x86DD else 0x0800) ++ packet
  b ++ leBytes 4 (crc32 b)

/-- The allow-list holds the destination (R205). -/
def allowed (s : State) (v6 : Bool) (addr port : Nat) : Bool :=
  s.tether.allow.any (fun e =>
    let a := e.2
    let w := if v6 then 128 else 32
    a.valid && a.ipv6 == v6 && decide (a.portLo ≤ port) && decide (port ≤ a.portHi) &&
      decide (addr / 2 ^ (w - a.prefixLen) = a.addr / 2 ^ (w - a.prefixLen)))

/-- Segment header of Table 9.7. -/
def segmentHeader (r : Rec) (first last : Bool) (index offset total : Nat) : List Byte :=
  beBytes 2 0x5345 ++ [1, BitVec.ofNat 8 (bit first + 2 * bit last)] ++ beBytes 2 r.ostream ++ beBytes 2 index
    ++ beBytes 8 r.seq ++ beBytes 4 offset ++ beBytes 4 total

/-- Datagrams of a record at a piece size (R203). -/
def datagramCount (r : Rec) (piece : Nat) : Nat := ceilDiv r.bytes.length piece

/-- Rate cap of a quad in Gb/s, none at line rate. -/
def rateCap (s : State) (k : Nat) : Option Nat := tabGet none s.tether.rateCaps k

/-- Bytes in the cap's bucket now: 64 KiB at most, filling at the cap rate (R208). -/
def bucketNow (s : State) (k : Nat) : Nat :=
  match rateCap s k with
  | none => 65536
  | some g => min 65536 ((egress s k).bucket + g * (s.time.tb2 - (egress s k).filled) / 8)

/-- The next datagram of the head record with the frame that carries it (R203, R204), and whether the allow-list holds its
destination (R205); none where no record waits. -/
def nextDatagram (s : State) (k : Nat) : Option (Datagram × Bool) :=
  match (egress s k).queue with
  | (r, .egress kind _ vlan mac src dst dport sport dscp ttl piece _, i) :: _ =>
    let v6 := kind = .udp6
    let total := r.bytes.length
    let n := datagramCount r piece
    let seg := segmentHeader r (i = 0) (i + 1 = n) i (i * piece) total ++ (r.bytes.drop (i * piece)).take piece
    let d : Datagram :=
      { ostream := r.ostream, seq := r.seq, index := i, offset := i * piece, total := total, first := i = 0, last := i + 1 = n
        bytes := seg, frame := ethFrame mac (ownMac s k) vlan v6 (ipPacket v6 src dst dport sport dscp ttl seg) }
    some (d, allowed s v6 dst dport)
  | _ => none

/-- Drops the head of a quad's queue. -/
def popQuad (k : Nat) (s : State) : State := modEgress k (fun e => { e with queue := e.queue.drop 1, denying := false }) s

/-- What a datagram costs its bucket: its frame with preamble and inter-frame gap (R208). -/
def Datagram.cost (d : Datagram) : Nat := d.frame.length + 20

/-- Sends a datagram that the cap lets go, its frame whole (R204, R208). -/
def sendDatagram (k : Nat) (d : Datagram) (s : State) : State :=
  let have' := bucketNow s k
  let s := modEgress k (fun e => { e with
    bucket := if (rateCap s k).isSome then have' - d.cost else 65536, filled := s.time.tb2, sent := some d
    queue := match e.queue with
      | (r, entry, i) :: t => if d.last then t else (r, entry, i + 1) :: t
      | [] => [] }) (ethSend k d.frame s)
  countN .egressBytes k d.bytes.length (count .datagrams k s)

/-- DATAGRAM_TRANSMIT (R205, R207 to R209). -/
def execDatagramTransmit (quadNo : BitVec 5) (s : State) : Out :=
  whenOn (fun s =>
    let k := quadNo.toNat
    let s := drainDown k (ageQuad k s)
    match nextDatagram s k, (egress s k).queue with
    | some (d, ok), (r, _, _) :: _ =>
      if !ok then
        popQuad k (discardQuad k 2 r (count .denied k (modEgress k (fun e => { e with sticky := e.sticky ||| 0x20 }) s)))
      else if bucketNow s k < d.cost then s
      else sendDatagram k d s
    | _, _ => s) s

/-- PAUSE_FRAME_RECEIVE (R209). -/
def execPauseFrameReceive (k : BitVec 5) (s : State) : Out :=
  whenOn (fun s => count .pauseIgnored k.toNat (modEgress k.toNat (fun e => { e with sticky := e.sticky ||| 0x80 }) s)) s

/-! OSTREAM commands (Table 16.9). -/

/-- Deletes the operation: 1. -/
def ostreamDelete (a : List Byte) : Bool := u8 a 8 = 1

/-- Cells 0 to 5 of OSTREAM.CONFIG on one stream (R191, R192). -/
def setOStream (a : List Byte) (o : Option OStream) : OStream :=
  let x := o.getD { beamPipe := false, engine := 0, ring := false, dest := 0, base := 0, planning := 0x3F800000, next := 0 }
  let base := cellOr a 16 4 x.base
  { x with
    beamPipe := if cellOn a 16 0 then decide (cellVal a 16 0 = 1) else x.beamPipe
    engine := cellOr a 16 1 x.engine
    ring := if cellOn a 16 2 then decide (cellVal a 16 2 = 1) else x.ring
    dest := cellOr a 16 3 x.dest
    base := base, next := if x.formed then x.next else base
    planning := if cellOn a 16 5 then BitVec.ofNat 32 (cellF32 a 16 5) else x.planning }

/-- OSTREAM.CONFIG (R191, R192, Table 9.9). -/
def specOstreamConfig : Spec :=
  { opcode := 0x0805, same := fun a b => selCovers a b && (ostreamDelete a || (!ostreamDelete b && cellsCover 16 6 a b))
    layout := fun a => (selCellsLayout 16 6 [(8, 1)] (fun _ => false) a).or (cellSpare a 16 5 4 4)
    cls := fun a => if ostreamDelete a then .txn else Cls.join .txn (cellsClass a 16 6 (fun i => if i = 4 then .ready else .txn))
    range := fun _ a => firstBad [(selOk 4096 a, 0), (decide (u8 a 8 ≤ 1), 8), cellRange a 16 0 0 1,
      cellRange a 16 1 0 15, cellRange a 16 2 0 1, cellRange a 16 3 0 32767, cellRange a 16 4 0 (2 ^ 64 - 2 ^ 32),
      cellRange a 16 5 0x3F800000 0x41000000]
    resource := fun s q =>
      let a := q.arg
      firstFail [(ostreamDelete a || !cellOn a 16 4 || (selected a).all (fun k => match ostream s k with
        | some o => !o.formed || decide (cellVal a 16 4 = o.base)
        | none => true), .conflict)]
    act := fun q s => (selected q.arg).foldl (fun s k => { s with
      out.streams := tabSet none s.out.streams k
        (if ostreamDelete q.arg then none else some (setOStream q.arg (ostream s k))) }) s }
def execOstreamConfig (q : Request) (s : State) : Out := kenra (.ostreamConfig q) specOstreamConfig q s

/-- Counters of an output stream in the order of R215: RECORDS, GAPS by reason, DISCARDED by reason. -/
def ostreamCtrs (k : Nat) : List (Ctr × Nat) :=
  (.records, k) :: (numbers 1 17).map (fun r => (.gaps, k * 64 + r)) ++ (List.range 4).map (fun r => (.discarded, k * 64 + r))

/-- Values of OSTREAM.STATUS. -/
def ostreamValues (s : State) (k : Nat) : List Nat :=
  (ostreamCtrs k).map (fun c => counter c.1 c.2 s) ++ [match ostream s k with
    | some o => o.next
    | none => 0]

/-- OSTREAM.STATUS (R215). -/
def specOstreamStatus : Spec :=
  { opcode := 0x0806, layout := statusLayout, sampled := true, range := fun _ a => firstBad [(selOk 4096 a, 0)]
    result := fun s q => statusEach q.arg (fun _ => 0) (ostreamValues s)
    act := fun q s => clearShown q.arg (ostreamValues s)
      (fun k s => (ostreamCtrs k).foldl (fun s c => clearCtr c.1 c.2 s) s) s }
def execOstreamStatus (q : Request) (s : State) : Out := kenra (.ostreamStatus q) specOstreamStatus q s

/-- EGRESS.CONFIG: whole MiB of 16, at least 1 MiB for each egress quad (R206). -/
def specEgressConfig : Spec :=
  { opcode := 0x0807, cls := fun _ => .ready, layout := layoutBad [(0, 32)]
    range := fun s a => firstBad ((List.range 32).map (fun k =>
      (decide (((List.range (k + 1)).map (u8 a)).sum ≤ 16) && (!egressQuad s k || decide (1 ≤ u8 a k)), k)))
    act := fun q s => (List.range 32).foldl (fun s k => modEgress k (fun e => { e with share := u8 q.arg k }) s)
      { s with out.shared := true } }
def execEgressConfig (q : Request) (s : State) : Out := kenra (.egressConfig q) specEgressConfig q s

/-- The rate cap holds the queue back (Table 9.10 bit 2). -/
def capped (s : State) (k : Nat) : Bool :=
  match nextDatagram s k with
  | some (d, ok) => ok && decide (bucketNow s k < d.cost)
  | none => false

/-- Egress quad status word (Table 9.10). -/
def egressWord (s : State) (k : Nat) : Nat :=
  (egress s k).sticky.toNat + 4 * bit (capped s k) + 2 * bit (linkUp s k) + bit (egressQuad s k)

/-- Counters of R215 in its order. -/
def egressCtrs : List Ctr :=
  [.datagrams, .egressBytes, .queueFull, .egressAged, .denied, .linkDown, .noSlot, .pauseIgnored]

/-- EGRESS.STATUS (R215). -/
def specEgressStatus : Spec :=
  { opcode := 0x0808, layout := statusLayout, sampled := true, range := fun _ a => firstBad [(selOk 32 a, 0)]
    result := fun s q => statusEach q.arg (egressWord s) (fun k => egressCtrs.map (fun c => counter c k s))
    act := fun q s =>
      let v := fun k => egressCtrs.map (fun c => counter c k s)
      ackShown q.arg v (fun k s => modEgress k (fun e => { e with sticky := 0 }) s)
        (clearShown q.arg v (clearCtrs egressCtrs) s) }
def execEgressStatus (q : Request) (s : State) : Out := kenra (.egressStatus q) specEgressStatus q s

/-- A host ring created by HOSTRING.CONFIG: SEL, then operation, channel, log2 size, age limit and base (R211). -/
def newRing (a : List Byte) : HostRing :=
  { dma := u8 a 9, log2 := u8 a 10, age := if u8 a 11 = 0 then 8 else u8 a 11, base := u64 a 16 }

/-- HOSTRING.CONFIG (R211, R212, R384). A channel with descriptors in its queue cannot become a ring channel. -/
def specHostringConfig : Spec :=
  { opcode := 0x0809, same := fun a b => selCovers a b
    cls := fun _ => .ready, layout := layoutBad (selForm ++ [(8, 4), (16, 8)])
    range := fun _ a =>
      let del := u8 a 8 = 1
      firstBad [(selOk 16 a, 0), (decide (u8 a 8 ≤ 1), 8), (del || decide (u8 a 9 ≤ 11), 9),
        (del || decide (16 ≤ u8 a 10 ∧ u8 a 10 ≤ 30), 10), (del || decide (u8 a 11 ≤ 64), 11),
        (del || decide (64 ≤ u64 a 16 ∧ u64 a 16 % 64 = 0), 16)]
    resource := fun s q =>
      let a := q.arg
      let del := u8 a 8 = 1
      firstFail [(del || hostRangeOk s true (u64 a 16 - 64) (2 ^ u8 a 10 + 64), .window),
        (del || (dmaCh s (u8 a 9)).queue.isEmpty, .busy)]
    act := fun q s => (selected q.arg).foldl (fun s k =>
      let s := match ring s k with
        | some x => x.queue.foldl (fun s r => discard 3 r s) s
        | none => s
      setRingRead k 0
        { s with out.rings := tabSet none s.out.rings k (if u8 q.arg 8 = 1 then none else some (newRing q.arg)) }) s }
def execHostringConfig (q : Request) (s : State) : Out := kenra (.hostringConfig q) specHostringConfig q s

end Sys2Proof.Machine
end

