-- ==== Sys2Proof/Machine/Store.lean ====
section
/-! DEFINITION. Corner-turn store and Vestibule (chapter 04): staging and bursts, written and lost ranges, chunk reads with
their holds, the direct route, RFI flags, and the STORE commands. -/

namespace Sys2Proof.Machine

/-- A flagged fine sample, the flag code in both components: −128 in 8+8 bits, else −8 (R72, R73). -/
def flagSample (wide : Bool) : Smp := if wide then { re := -128, im := -128, flag := true } else { re := -8, im := -8, flag := true }

/-- A flagged fine sample of 4+4 bits (R72). -/
def flaggedFine : Smp := flagSample false

/-- The 4+4-bit byte of a sample: real in bits 7:4, imaginary in bits 3:0 (Table 2.4). -/
def sampleByte (x : Smp) : Byte := BitVec.ofNat 8 ((x.re % 16).toNat * 16 + (x.im % 16).toNat)

/-- The sample that a 4+4-bit byte holds (R34). -/
def byteSample (b : Byte) : Smp :=
  let re := signed 4 (b.toNat / 16)
  let im := signed 4 (b.toNat % 16)
  { re := re, im := im, flag := re = -8 || im = -8 }

/-- Key of a channel buffer's sample in the Vestibule. -/
def vestKey (buffer input index : Nat) : Nat := (buffer * 4096 + input) * 2 ^ 23 + index

/-- Sample of a channel buffer. -/
def vestGet (s : State) (buffer input index : Nat) : Smp :=
  tabGet { re := 0, im := 0, flag := false } s.store.vest (vestKey buffer input index)

/-- Writes a sample of a channel buffer. -/
def vestSet (buffer input index : Nat) (x : Smp) (s : State) : State :=
  { s with store.vest := tabSet { re := 0, im := 0, flag := false } s.store.vest (vestKey buffer input index) x }

/-- Key of a direct-route sample: staged position, input, and u within the four block slots (R90). -/
def directKey (len pos input u : Nat) : Nat := (pos * 4096 + input) * 2 ^ 25 + u % (4 * len)

/-- Sample of the direct route. -/
def directGet (s : State) (len pos input u : Nat) : Smp :=
  tabGet { re := 0, im := 0, flag := false } s.store.direct (directKey len pos input u)

/-- Writes a sample of the direct route. -/
def directSet (len pos input u : Nat) (x : Smp) (s : State) : State :=
  { s with store.direct := tabSet { re := 0, im := 0, flag := false } s.store.direct (directKey len pos input u) x }

/-! Written and lost ranges (R81). -/

/-- The written range of a unit opens at its first output after a start (R81, R481). -/
def openRange (key u : Nat) (s : State) : State :=
  modUnit key (fun x =>
    if x.w0.isNone ∨ x.starts.any (fun y => decide (y ≤ u)) then
      { x with w0 := some (u / 64), w1 := u / 64, lost := none, starts := x.starts.filter (fun y => decide (u < y)) }
    else x) s

/-- A granule joins the lost range, which widens to cover it. -/
def loseGranule (key g : Nat) (s : State) : State :=
  modUnit key (fun x => { x with lost := some (match x.lost with
    | some (a, b) => (min a g, max b g)
    | none => (g, g)) }) s

/-- A granule lies in the unit's written range. -/
def writtenIn (x : ChanUnit) (g : Nat) : Bool :=
  match x.w0 with
  | some w => decide (w ≤ g) && decide (g < x.w1)
  | none => false

/-- A granule lies in the unit's lost range. -/
def lostIn (x : ChanUnit) (g : Nat) : Bool :=
  match x.lost with
  | some (a, b) => decide (a ≤ g) && decide (g ≤ b)
  | none => false

/-! Outputs of the channeliser (R80, R90). -/

/-- First frame of the reads of a data block on the direct route (R90). -/
def directReadFrame (s : State) (i : Image) (block : Nat) : Nat := (block + 1) * blockFrames s i + s.sched.lag

/-- One fine channel's sample enters the store or the Vestibule: into its staging slot, whose 64th sample issues a burst
(R80); or straight to its block slot, unless the block's reads have begun (R90, R92). DESIGN CHOICE (log 32): for the samples of a granule
before a unit's first output the burst holds what the staging slot last held, 0 unflagged if nothing. A burst for a lost channel is
accepted and discarded at once (R338). -/
def putSample (i : Image) (key fine u : Nat) (x : Smp) (s : State) : State :=
  match positionOf i fine with
  | none => s
  | some pos =>
    let input := key / 65536
    if i.direct then
      if u / i.len < s.store.directNext then s else directSet i.len pos input u x s
    else
      let s := modUnit key (fun y => { y with
        staging := tabSet { re := 0, im := 0, flag := false } y.staging (pos * 64 + u % 64) x }) s
      if u % 64 ≠ 63 then s
      else
        let bytes := (List.range 64).map (fun t =>
          sampleByte (tabGet { re := 0, im := 0, flag := false } (chanUnit s key).staging (pos * 64 + t)))
        let addr := storeBase s + granuleOffset s i input pos u
        if chanLost s addr then s
        else queueReq { cls := 1, addr := addr, kind := .store key (u / 64) bytes s.time.tb2 } s

/-- A fine output enters the granule of its number; with the last output of a granule its bit is emitted, set exactly when one
or more of its outputs is flagged (R60). One bit covers every fine channel of the unit. The newest 64 are kept. -/
def emitGranule (u : Nat) (flag : Bool) (x : ChanUnit) : ChanUnit :=
  let bad := flag || (x.outGranule.1 = u / 64 && x.outGranule.2)
  { x with outGranule := (u / 64, bad)
           outGranules := if u % 64 = 63 then ((u / 64, bad) :: x.outGranules).take 64 else x.outGranules }

/-- Fine output `u` of a unit, one sample per fine channel, with its granule bit (R57, R60, R80, R81). -/
def putOutput (key u : Nat) (l : List Smp) (s : State) : State :=
  match runningImage s with
  | none => s
  | some i =>
    let s := modUnit key (emitGranule u (l.any (·.flag))) (openRange key u s)
    let s := l.zipIdx.foldl (fun s e => putSample i key (key % 65536 * branches s + e.2) u e.1 s) s
    if u % 64 = 63 then modUnit key (fun x => { x with w1 := u / 64 + 1 }) s else s

/-- STORE_BURST_DISCARD (R81): the oldest burst, once a frame has passed since it was issued and no controller has accepted it,
is discarded; its granule is lost. -/
def execStoreBurstDiscard (s : State) : Out := whenOn (fun s =>
  match s.dram.queue.find? DramReq.isStore with
  | some r => match r.kind with
    | .store unit granule _ issued =>
      count .storeLost (unit / 65536 / 256)
        (loseGranule unit granule (elapseTo (burstDue s issued) { s with dram.queue := s.dram.queue.erase r }))
    | _ => s
  | none => s) s

/-! Fills (R85, R86). -/

/-- An enabled stream carries the input: one whose disable has taken effect does not, though it still resolves earlier slots
(R49, R85). -/
def inputFed (s : State) (input : Nat) : Bool :=
  s.ingest.streams.any (fun e => e.2.runs.any (fun r => r.stop.isNone && r.cfg.input = input))

/-- What a read of a granule finds: its data, or flagged with the counter that R85 names, none for an input without a
stream. -/
def granuleRead (s : State) (input fine g : Nat) (bad : Bool) : Option (Option Ctr) :=
  let x := chanUnit s (unitKey input (fine / max 1 (branches s)))
  if !inputFed s input then some none
  else if !writtenIn x g then some (some .storeUnwritten)
  else if lostIn x g then some (some .storeLost)
  else if bad then some (some .storeUe)
  else none

/-- Writes 64 samples of a granule into a channel buffer. -/
def fillGranule (buffer input index : Nat) (l : List Smp) (s : State) : State :=
  l.zipIdx.foldl (fun s e => vestSet buffer input (index + e.2) e.1 s) s

/-- Pegs of the pitches that run the RFI service. -/
def rfiPegs (s : State) : List Nat := ((List.range 16).filter (fun k => serviceOf s k = 3)).flatMap (fun k => numbers (16 * k) 16)

/-- Flag writes that wait for a granule whose fill begins are cancelled and counted (R266). The manual does not say which peg counts one:
a free value chooses among the service's (log 1). -/
def cancelFlags (addr : Nat) (s : State) : State :=
  let late := s.dram.queue.filter (fun r => r.kind = .flag && sameBurst r.addr addr)
  late.foldl (fun s _ =>
    let (v, s) := draw s
    count .rfiLate ((rfiPegs s).getD (v % max 1 (rfiPegs s).length) 0) s)
    { s with dram.queue := s.dram.queue.filter (fun r => !late.contains r) }

/-- Fills one granule of a chunk from the store: input `ii` of the block, granule `g` of the chunk (R79, R85, R87, R266). -/
def readGranule (i : Image) (c : ChunkItem) (ue : List Nat) (ii g : Nat) (s : State) : State :=
  let k := chunkLen i.len
  let index := c.chunk * k + g * 64
  let u := c.block * i.len + index
  let input := c.ib * 256 + ii
  let addr := storeBase s + granuleOffset s i input c.pos u
  let r := fetchBurst 2 addr (if ue.contains (g * 256 + ii) then [0, 1] else []) (cancelFlags addr s)
  let s := r.2
  match granuleRead s input (i.channels.getD c.pos 0) (u / 64) r.1 with
  | some w =>
    let s := match w with
      | some y => count y c.ib s
      | none => s
    fillGranule (bit c.buffer) input index (List.replicate 64 flaggedFine) s
  | none => fillGranule (bit c.buffer) input index ((memRead s.dram.mem addr 64).map byteSample) s

/-- Every granule of a chunk, with one action. -/
def forChunk (i : Image) (f : Nat → Nat → State → State) (s : State) : State :=
  (List.range (chunkLen i.len / 64)).foldl (fun s g => (List.range 256).foldl (fun s ii => f ii g s) s) s

/-- Performs a chunk read: its buffer is held from the first one of the channel (R86). -/
def fillChunk (i : Image) (c : ChunkItem) (ue : List Nat) (s : State) : State :=
  let s := { s with store.held := tabSet none s.store.held (bit c.buffer) (some (c.pos, c.block)) }
  forChunk i (readGranule i c ue) s

/-- The buffer is held by another channel or block. -/
def heldByOther (s : State) (c : ChunkItem) : Bool :=
  match tabGet none s.store.held (bit c.buffer) with
  | some x => x ≠ (c.pos, c.block)
  | none => false

/-- Flags every granule of an abandoned chunk read in its buffer. -/
def flagChunk (i : Image) (c : ChunkItem) (s : State) : State :=
  let s := { s with store.held := tabSet none s.store.held (bit c.buffer) (some (c.pos, c.block)) }
  forChunk i (fun ii g s => fillGranule (bit c.buffer) (c.ib * 256 + ii) (c.chunk * chunkLen i.len + g * 64)
    (List.replicate 64 flaggedFine) s) s

/-- An abandoned chunk read: its granules read as flagged to the passes of its channel, at once or once the channel that
holds the buffer is done with it; FILL_ABANDONED is counted (R86). -/
def abandonChunk (i : Image) (c : ChunkItem) (s : State) : State :=
  let s := count .fillAbandoned c.ib s
  if heldByOther s c then { s with store.flagWait := s.store.flagWait ++ [c] } else flagChunk i c s

/-- The work item of a chunk read. -/
def isChunkWork (c : ChunkItem) (w : Work) : Bool :=
  w.item.kind = 3 && w.item.unit = bit c.buffer && w.item.chan = c.pos && w.item.b8 = c.ib && w.item.h10 = c.chunk &&
    w.block = c.block

/-- Takes the first work item that matches off the frame's list; none where the schedule gives none. -/
def takeWork (p : Work → Bool) (s : State) : Option (Work × State) :=
  match s.sched.work.find? p with
  | some w => some (w, { s with sched.work := s.sched.work.erase w })
  | none => none

/-- CHUNK_READ (R85, R86): a read of the schedule's, or one that waits while its buffer is held. -/
def execChunkRead (c : ChunkItem) (ue : List Nat) (s : State) : Out := .next (
  match runningImage s, takeWork (isChunkWork c) s with
  | some i, some (_, s) =>
    if i.direct then s
    else if heldByOther s c then { s with store.waiting := s.store.waiting ++ [(c, ue)] }
    else fillChunk i c ue s
  | _, _ => s)

/-- A pass or segment of the frame still reads the buffer's channel and block. -/
def readsBuffer (x : Nat × Nat) (w : Work) : Bool :=
  (w.item.kind = 1 || w.item.kind = 2) && w.item.chan = x.1 && w.block = x.2

/-- A pass or segment that has begun on a channel and block is not over: integrations wait in the beads, or a round's sums wait behind
rows (R86, R103, R108). -/
def passRuns (s : State) (x : Nat × Nat) : Bool :=
  (List.range 4).any (fun a => (array s a).beads.any (fun d => d.pos = x.1 && d.block = x.2)) ||
    s.beam.behind.any (fun r => r.work.item.chan = x.1 && r.work.block = x.2)

/-- Releases a buffer whose last pass has ended or been abandoned, and begins the reads that wait for it (R86). `later`
says whether an item of a later frame still reads a channel and block. -/
def releaseBuffer (later : Nat × Nat → Bool) (k : Nat) (s : State) : State :=
  match tabGet none s.store.held k with
  | none => s
  | some x =>
    if s.sched.work.any (readsBuffer x) || passRuns s x || later x then s
    else
      let s := { s with store.held := tabSet none s.store.held k none }
      match s.sched.running with
      | none => s
      | some i =>
        let (flags, other) := s.store.flagWait.partition (fun c => bit c.buffer = k)
        let s := flags.foldl (fun s c => if heldByOther s c then { s with store.flagWait := s.store.flagWait ++ [c] }
          else flagChunk i c s) { s with store.flagWait := other }
        let (go, stay) := s.store.waiting.partition (fun e => bit e.1.buffer = k)
        go.foldl (fun s e => if heldByOther s e.1 then { s with store.waiting := s.store.waiting ++ [e] }
          else fillChunk i e.1 e.2 s) { s with store.waiting := stay }

/-- Chunk reads that still wait when the guard expires are abandoned (R86). -/
def abandonWaiting (i : Image) (s : State) : State :=
  s.store.waiting.foldl (fun s e => abandonChunk i e.1 s) { s with store.waiting := [] }

/-- Granules that hold a sample of a data block of `len` samples: on the direct route the first and the last may reach beyond
it. -/
def blockGranules (len block : Nat) : List Nat :=
  let first := block * len / 64
  numbers first (((block + 1) * len - 1) / 64 + 1 - first)

/-- At the tick at which the direct-route reads of a block begin, every granule outside its unit's written range or in its
lost range is flagged and counted (R92). -/
def directBlockStart (i : Image) (block : Nat) (s : State) : State :=
  (List.range (i.blocks * 256)).foldl (fun s input =>
    i.channels.zipIdx.foldl (fun s c =>
      (blockGranules i.len block).foldl (fun s g =>
        match granuleRead s input c.1 g false with
        | none => s
        | some w =>
          let s := match w with
            | some y => count y (input / 256) s
            | none => s
          (List.range 64).foldl (fun s d =>
            let u := g * 64 + d
            if u / i.len = block then directSet i.len c.2 input u (flagSample i.wide) s else s) s) s) s) s

/-! RFI flags (R266). -/

/-- First frame of the fills of a data block: tick (k + 1) × B + λ (R82). -/
def firstFill (s : State) (i : Image) (block : Nat) : Nat := (block + 1) * blockFrames s i + s.sched.lag

/-- RFI_FLAG_WRITE (R87, R266): the RFI service flags a granule of an input in a stored channel through the service port; the fill of
the granule cancels it if it still waits then. -/
def execRfiFlagWrite (input : BitVec 12) (pos granule : Nat) (s : State) : Out := .next (
  match runningImage s with
  | none => s
  | some i =>
    let key := unitKey input.toNat (i.channels.getD pos 0 / max 1 (branches s))
    let block := granule * 64 / max 1 i.len
    if i.direct || decide (i.channels.length ≤ pos) || !writtenIn (chanUnit s key) granule ||
        decide (firstFill s i block < s.time.frame + 16) || (rfiPegs s).isEmpty then s
    else
      let addr := storeBase s + granuleOffset s i input.toNat pos (granule * 64)
      if chanLost s addr then s else queueReq { cls := 4, addr := addr, kind := .flag } s)

/-! Commands. -/

/-- STORE.CONFIG (R89, Table 4.3). -/
def specStoreConfig : Spec :=
  { opcode := 0x0903, layout := layoutBad [(0, 1), (4, 4)], cls := fun _ => .ready
    range := fun s a => firstBad [(decide (1 ≤ u8 a 0) && decide (u8 a 0 ≤ 64), 0),
      (decide (u8 a 0 + u32 a 4 ≤ capacityGiB s), 4)]
    act := fun q s => { s with store.serviceGiB := u8 q.arg 0, store.laGiB := u32 q.arg 4 } }

/-- STORE_CONFIG. -/
def execStoreConfig (q : Request) (s : State) : Out := kenra (.storeConfig q) specStoreConfig q s

/-- Counters of STORE.STATUS per input block. -/
def storeCtrs : List Ctr := [.storeUnwritten, .storeLost, .storeUe, .fillAbandoned, .delayBeyondDepth]

/-- S, K, Z, q_lim, λ and the store depth in ns. DESIGN CHOICE (log 32): on the direct route S, K, Z and the depth are 0, and with no
schedule in force every value is. -/
def storeValues (s : State) : List Nat :=
  match inForce s with
  | none => [0, 0, 0, 0, 0, 0]
  | some i =>
    let k := chunkLen i.len
    let n := finePer s i.period
    if i.direct then [0, 0, 0, qLim s i, fillLag s i, 0]
    else [ringSlots s i, k, 256 * k, qLim s i, fillLag s i, ringSlots s i * k * i.period * 1000 / max 1 n]

/-- STORE.STATUS (R83, Table 4.3): input blocks 0 to 15. -/
def specStoreStatus : Spec :=
  { opcode := 0x0904, layout := statusLayout, sampled := true
    range := fun _ a => firstBad [(selOk 16 a, 0)]
    result := fun s q => statusEach q.arg (fun _ => 0) (fun k =>
      storeCtrs.map (fun c => counter c k s) ++ storeValues s)
    act := fun q s => clearShown q.arg (fun k => storeCtrs.map (fun c => counter c k s) ++ storeValues s)
      (clearCtrs storeCtrs) s }

/-- STORE_STATUS. -/
def execStoreStatus (q : Request) (s : State) : Out := kenra (.storeStatus q) specStoreStatus q s

end Sys2Proof.Machine
end

