-- ==== Sys2Proof/Machine/Plan.lean ====
section
/-! DEFINITION. What a schedule image gives each frame (R218, R228, Table 16.5): entries, data blocks, the frames in which a
block's items run, tiles, and the Clasp jobs with the dumps that reach them. -/

namespace Sys2Proof.Machine

/-- Lag of an item: its data block is the block of its entry less the lag (Table 16.5). -/
def itemLag (x : SchedItem) : Nat := if x.kind = 3 then x.b9 else if x.kind = 1 ∨ x.kind = 2 then x.b12 else 0

/-- Block that a frame lies in (R11, R14). -/
def blockOf (s : State) (i : Image) (n : Nat) : Nat := n / max 1 (blockFrames s i)

/-- Entry that frame `n` runs (R218). -/
def entryAt (s : State) (i : Image) (n : Nat) : Nat := n % max 1 (i.entries * blockFrames s i)

/-- Data block of an item that runs in frame `n`; none before the TB0 epoch. -/
def dataBlock (s : State) (i : Image) (n : Nat) (x : SchedItem) : Option Nat :=
  let k := blockOf s i n
  if itemLag x ≤ k then some (k - itemLag x) else none

/-- Frame in which an item runs for a data block, if its entry runs in that block. -/
def frameFor (s : State) (i : Image) (block : Nat) (x : SchedItem) : Option Nat :=
  let b := max 1 (blockFrames s i)
  let k := block + itemLag x
  if x.entry / b = k % max 1 i.entries then some (k * b + x.entry % b) else none

/-- Image from which the items of a data block come: before the first block of a switch, the one that the switch replaced
(R228). -/
def imageOf (s : State) (block : Nat) : Option Image :=
  match s.sched.seam.find? (fun e => decide (block < e.2)) with
  | some (old, _) => some old
  | none => s.sched.running

/-- An item of a later frame does `p` for a channel and data block. -/
def laterItem (s : State) (p : SchedItem → Bool) (x : Nat × Nat) : Bool :=
  match imageOf s x.2 with
  | none => false
  | some i => i.items.any (fun y => p y && y.chan = x.1 &&
      (match frameFor s i x.2 y with
       | some m => decide (s.time.frame < m)
       | none => false))

/-- A pass or segment of a later frame reads a channel and data block. -/
def laterReads (s : State) (x : Nat × Nat) : Bool := laterItem s (fun y => y.kind = 1 || y.kind = 2) x

/-- Every chunk read of a channel and data block has been performed or abandoned (R86). -/
def fillDone (s : State) (x : Nat × Nat) : Bool :=
  !s.sched.work.any (fun w => w.item.kind = 3 && w.item.chan = x.1 && w.block = x.2) &&
  !s.store.waiting.any (fun e => e.1.pos = x.1 && e.1.block = x.2) &&
  !s.store.flagWait.any (fun c => c.pos = x.1 && c.block = x.2) && !laterItem s (fun y => y.kind = 3) x

/-- Buffer that holds a channel and data block (R86). -/
def holding (s : State) (x : Nat × Nat) : Option Nat :=
  (List.range 2).find? (fun k => tabGet none s.store.held k = some x)

/-- Releases the buffers whose channel nothing reads any more (R86). -/
def settleBuffers (s : State) : State := releaseBuffer (laterReads s) 1 (releaseBuffer (laterReads s) 0 s)

/-! Tiles (R98). -/

/-- Tile number t(bi, bj) of `b` input blocks. -/
def tileNumber (b bi bj : Nat) : Nat := bi * b - bi * (bi - 1) / 2 + (bj - bi)

/-- Input blocks (bi, bj) of a tile. -/
def tileBlocks (b t : Nat) : Nat × Nat :=
  (((List.range b).flatMap (fun bi => (numbers bi (b - bi)).map (fun bj => (bi, bj)))).getD t (0, 0))

/-- The tile is diagonal (R99). -/
def diagonal (b t : Nat) : Bool := (tileBlocks b t).1 = (tileBlocks b t).2

/-! Jobs (R142, Tables 7.2 and 16.5). -/

/-- Kind of a job item. -/
def jobKind (k : Nat) : JobKind :=
  ([.store, .accumulate, .accStats, .beamSum, .detect, .peak, .longAcc] : List JobKind).getD k .store

/-- Kinds that take every dump of the passes that name them; a store job takes one (R143, R145, R156). -/
def takesAll (k : Nat) : Bool := k = 1 || k = 2 || k = 6

/-- Job item with a number that an item of entry `e` and channel reaches: one of the same entry, else the nearest earlier
accumulate or beam job of the channel, whose dumps or segments come in later frames (R118, R145; log 34). -/
def jobItem (i : Image) (e chan number : Nat) : Option SchedItem :=
  (i.items.filter (fun j => j.kind = 4 && j.h10 = number &&
    (j.entry = e || ((j.b8 ≠ 0 && j.b8 ≠ 6) && j.chan = chan && decide (j.entry < e))))).getLast?

/-- Job item that dump `j` of a pass reaches (Table 16.5). -/
def dumpJob (i : Image) (p : SchedItem) (j : Nat) : Option SchedItem :=
  match jobItem i p.entry p.chan p.h10 with
  | some h => if takesAll h.b8 then some h else jobItem i p.entry p.chan (p.h10 + j)
  | none => none

/-- The passes and dumps that reach a job item, in order. -/
def jobDumps (i : Image) (x : SchedItem) : List (SchedItem × Nat) :=
  (i.items.filter (fun p => p.kind = 1)).flatMap (fun p =>
    (List.range (2 ^ p.b9)).filterMap (fun j => if dumpJob i p j = some x then some (p, j) else none))

/-- Scale of a job's record-scale item, which stands just after it (kind 0x0A); 1.0 without one. -/
def recordScale (i : Image) (x : SchedItem) : BitVec 32 :=
  match (i.items.zip i.items.tail).find? (fun y => y.1 = x && y.2.kind = 10) with
  | some y => BitVec.ofNat 32 y.2.w8
  | none => 0x3F800000

/-- A job as its item gives it, for frame `n` and a data block. -/
def jobBase (i : Image) (n : Nat) (x : SchedItem) (block corrTile : Nat) : Job :=
  { frame := n, number := x.h10, due := n, kind := jobKind x.b8, array := x.unit, pos := x.chan, tile := x.b9
    corrTile := corrTile, block := block, ostream := x.h12, half := testBit x.h14 0, fused := testBit x.h14 1
    scaleMode := x.h14 / 4 % 4, scaleRec := recordScale i x, biasOn := testBit x.h14 4
    curve := if testBit x.h14 5 then some (x.h14 / 64 % 4) else none, format := x.h14 / 256 % 8 }

/-- The job that a job item begins in frame `n`: its dumps (block, dump, L_d), its last frame; none where its data block
would lie before the TB0 epoch. -/
def jobAt (s : State) (i : Image) (n : Nat) (x : SchedItem) : Option Job :=
  if 3 ≤ x.b8 ∧ x.b8 ≤ 5 then
    match i.items.filter (fun y => y.kind = 2 && jobItem i y.entry y.chan y.h10 = some x) with
    | y :: rest => (dataBlock s i (n + y.entry - x.entry) y).map (fun k =>
        { jobBase i n x k 0 with due := n + (y :: rest).foldl (fun m z => max m z.entry) x.entry - x.entry })
    | [] => none
  else
    match jobDumps i x with
    | [] => none
    | (p, j) :: rest =>
      match dataBlock s i n p with
      | none => none
      | some k =>
        let dumps := ((p, j) :: rest).filterMap (fun y => (dataBlock s i (n + y.1.entry - x.entry) y.1).map (fun b =>
          (b, y.2, i.len / 2 ^ y.1.b9)))
        let last := ((p, j) :: rest).foldl (fun m y => max m y.1.entry) x.entry
        some { jobBase i n x k p.b8 with due := n + last - x.entry, dumps := dumps }

/-- Orders jobs by due frame and number. -/
def insertJob (j : Job) : List Job → List Job
  | [] => [j]
  | x :: t => if j.due < x.due ∨ (j.due = x.due ∧ j.number < x.number) then j :: x :: t else x :: insertJob j t

/-- Changes the jobs that a test picks. -/
def modJobs (p : Job → Bool) (f : Job → Job) (s : State) : State :=
  { s with clasp.jobs := s.clasp.jobs.map (fun j => if p j then f j else j) }

/-- A job by frame and number. -/
def isJob (id : Nat × Nat) (j : Job) : Bool := j.frame = id.1 && j.number = id.2

/-- The newest job with a number that passes a test. -/
def findJob (s : State) (number : Nat) (p : Job → Bool) : Option Job :=
  (s.clasp.jobs.filter (fun j => j.number = number && p j)).foldl (fun (o : Option Job) j =>
    match o with
    | some k => if k.frame ≤ j.frame then some j else some k
    | none => some j) none

end Sys2Proof.Machine
end

