-- ==== Sys2Proof/Machine/Facet.lean ====
section
/-! DEFINITION. The Facet (R167 to R179) and the records that correlation products form (R193 to R199): steps, rounding, folding
and shuffle, noise sets, count sections, and the items that go to the Pack engines. -/

namespace Sys2Proof.Machine

/-! Words and counts of a product (R99, R111, R144, R148). -/

/-- Words (r, c) that a product keeps, in ascending word index (R144). -/
def keptWords (half : Bool) : List (Nat × Nat) :=
  (List.range 256).flatMap (fun r => if half then (numbers r (256 - r)).map (fun c => (r, c))
    else (List.range 256).map (fun c => (r, c)))

/-- Cross visibilities of a product, in the order they leave the Clasp (R167, R171). -/
def crossWords (diag half : Bool) : List (Nat × Nat) :=
  if diag then (keptWords half).filter (fun w => w.1 ≠ w.2) else keptWords half

/-- Summed X of a bead of a job (R148, R149). -/
def sumX (j : Job) (r c : Nat) : Nat :=
  match j.plane with
  | some p => tabGet 0 p (256 * r + c)
  | none => tabGet 0 j.exc (256 * r + c)

/-- Valid count of a total (R111, R197). -/
def validCount (j : Job) (diag : Bool) (r c : Nat) : Nat :=
  j.lsum + (if diag && r = c then j.frow.getD r 0 else sumX j r c) -
    (j.frow.getD r 0 + (if diag then j.frow else j.fcol).getD c 0)

/-- Count section of a product (Table 9.4). -/
def countSection (j : Job) (diag half : Bool) : List Byte :=
  let exc := if half then j.exc.filter (fun e => decide (e.1 / 256 ≤ e.1 % 256)) else j.exc
  let f := fun (l : List Nat) => (List.range 256).flatMap (fun k => beBytes 4 (l.getD k 0))
  beBytes 4 j.lsum ++ beBytes 4 j.included.length ++ beBytes 2 (if j.plane.isSome then 0xFFFF else exc.length)
    ++ [BitVec.ofNat 8 (bit diag + 2 * bit j.plane.isSome), 0] ++ f j.frow ++ (if diag then [] else f j.fcol)
    ++ (match j.plane with
        | some p => (List.range 65536).flatMap (fun w => beBytes 4 (tabGet 0 p w))
        | none => exc.flatMap (fun e => beBytes 1 (e.1 / 256) ++ beBytes 1 (e.1 % 256) ++ [0, 0] ++ beBytes 4 e.2))

/-! Items (R193, R196, R199). -/

/-- Frame and frame span of fine samples `u0` to `u1` (Table 9.1). -/
def frameSpan (s : State) (i : Image) (u0 u1 : Nat) : Nat × Nat :=
  let n := max 1 (finePer s i.period)
  (u0 / n, u1 / n - u0 / n + 1)

/-- First and last fine sample of a list of dumps (block, dump, L_d). -/
def dumpSpan (i : Image) (l : List (Nat × Nat × Nat)) : Nat × Nat :=
  let first := fun (d : Nat × Nat × Nat) => d.1 * i.len + d.2.1 * d.2.2
  (l.foldl (fun m d => min m (first d)) ((l.head?.map first).getD 0), l.foldl (fun m d => max m (first d + d.2.2 - 1)) 0)

/-- An item of a correlation product: type, sub-index, dumps covered and flags (Tables 9.1 and 9.2). -/
def tileItem (s : State) (i : Image) (j : Job) (rtype sub : Nat) (dumps : List (Nat × Nat × Nat)) (split : Bool) : Item :=
  let u := dumpSpan i dumps
  let f := frameSpan s i u.1 u.2
  let half := j.half && diagonal i.blocks j.corrTile
  { ostream := j.ostream, rtype := rtype, gap := none, frame := f.1, span := f.2, firstCh := i.channels.getD j.pos 0
    chCount := 1, firstObj := j.corrTile, objCount := 1, sub := sub
    flags := BitVec.ofNat 16 (128 * bit (array s j.array).wide + 64 * bit split + 32 * bit (j.kind = .longAcc) + 8 * bit half)
    expOff := 0, autoOff := 0, payload := [], counts := [] }

/-- An item on its way to its stream's Pack engine, in order (R183, R191). -/
def pushItem (x : Item) (s : State) : State :=
  match ostream s x.ostream with
  | none => s
  | some o => modEngine o.engine (fun e => { e with incoming := e.incoming ++ [x] }) s

/-- An item without payload, for a gap record of a reason (R199, R200). -/
def asGap (reason : Nat) (x : Item) : Item :=
  { x with gap := some reason, expOff := 0, autoOff := 0, payload := [], counts := [] }

/-! The step and the rounding (R171 to R176). -/

/-- The largest k from `k` on, at most 30, for which Δ ≤ f σ holds of one member. -/
def stepLoop (num den e : Nat) : Nat → Nat → Nat
  | 0, k => k
  | n + 1, k => if den * 2 ^ (2 * (k + 1) + 2 * e) ≤ num then stepLoop num den e n (k + 1) else k

/-- Exponent k of a Facet block (R171): members (n_v, (A_p, n_p), (A_q, n_q)). -/
def blockStep (e : Nat) (l : List (Nat × (Nat × Nat) × (Nat × Nat))) : Nat :=
  let kb := l.foldl (fun m x => if x.1 = 0 then m
    else min m (stepLoop (x.1 * x.2.1.1 * x.2.2.1) (2 * x.2.1.2 * x.2.2.2) e 30 0)) 31
  if kb = 31 then 0 else kb

/-- Folded quotient (R176). -/
def foldValue (q : Int) : Nat := if 0 ≤ q then (2 * q).toNat else (-2 * q - 1).toNat

/-- Bytes of a block's folded values, plane by plane (R176), and its exponent byte (Table 8.2). -/
def facetBlock (k reason : Nat) (values : List Int) : List Byte × Byte :=
  let q := values.map (fun v => roundTe v (2 ^ k))
  let wide := q.any (fun v => decide (32767 < v.natAbs))
  let planes := if wide then [3, 2, 1, 0] else [1, 0]
  (planes.flatMap (fun p => q.map (fun v => BitVec.ofNat 8 (foldValue v / 256 ^ p))),
   BitVec.ofNat 8 (128 * bit wide + 32 * reason + k))

/-- Members of Facet block `b` (R171). -/
def blockOfMembers (l : List (Nat × Nat)) (b : Nat) : List (Nat × Nat) := (l.drop (16 * b)).take 16

/-- A Facet payload (R176): bytes, exponent offset, auto offset, exponent bytes. `tot` gives the totals; `noise` gives
(A, n) of a row or column input where the block is shaved. -/
def facetPayload (diag half : Bool) (e reason : Nat) (j : Job) (tot : Nat → Nat → Int × Int)
    (row col : Nat → Nat × Nat) : List Byte × Nat × Nat × List Byte :=
  let members := crossWords diag half
  let blocks := (List.range (ceilDiv members.length 16)).map (fun b =>
    let l := blockOfMembers members b
    let k := if reason = 0 then blockStep e (l.map (fun w => (validCount j diag w.1 w.2, row w.1, col w.2))) else 0
    facetBlock k reason (l.flatMap (fun w => [(tot w.1 w.2).1, (tot w.1 w.2).2])))
  let body := blocks.flatMap (·.1)
  let exps := blocks.map (·.2)
  let pad := List.replicate (round8 exps.length - exps.length) (0 : Byte)
  let autos := if diag then (List.range 256).flatMap (fun r =>
      (leInt 4 (tot r r).1).reverse ++ (leInt 4 (tot r r).2).reverse) else []
  (body ++ exps ++ pad ++ autos, body.length, if diag then (body ++ exps ++ pad).length else 0, exps)

/-! Noise sets (R169, R170). -/

/-- The long-accumulation item of a job's channel and tile that its block belongs to (Table 16.5). -/
def laItem (i : Image) (j : Job) : Option SchedItem :=
  let e := max 1 i.entries
  i.items.find? (fun x => x.kind = 7 && x.chan = j.pos && x.b8 = j.corrTile && decide ((j.block % e + e - x.entry) % e < x.h10))

/-- The long accumulation of a job's channel and tile that its block belongs to: first block and block count. -/
def laRun (i : Image) (j : Job) : Option (Nat × Nat) :=
  let e := max 1 i.entries
  (laItem i j).map (fun x => (j.block - (j.block % e + e - x.entry) % e, x.h10))

/-- The (block, dump) pairs that a job's noise set is for: those its schedule gives it. -/
def noiseKey (i : Image) (j : Job) : List (Nat × Nat) :=
  if j.kind = .longAcc then
    match laRun i j with
    | some (first, n) => (numbers first n).map (fun b => (b, 0))
    | none => []
  else j.dumps.map (fun d => (d.1, d.2.1))

/-- Kinds whose visibility product passes the Facet (R168). -/
def isVis (k : JobKind) : Bool := k = .store || k = .accumulate || k = .longAcc

/-- A noise set's entries of an input block. -/
def noiseEntry (s : State) (pos : Nat) (key : List (Nat × Nat)) (ib : Nat) : Option (List (Nat × Nat) × List (Nat × Nat)) :=
  match s.facet.noise.find? (fun x => x.pos = pos && x.key = key) with
  | some x => if x.entries.any (fun e => e.1 = ib) then some (tabGet ([], []) x.entries ib) else none
  | none => none

/-- Writes the entries of an input block as its diagonal product passes (R169). -/
def writeNoise (pos : Nat) (key : List (Nat × Nat)) (ib : Nat) (v : List (Nat × Nat) × List (Nat × Nat)) (s : State) : State :=
  if s.facet.noise.any (fun x => x.pos = pos && x.key = key) then
    { s with facet.noise := s.facet.noise.map (fun x =>
        if x.pos = pos ∧ x.key = key then { x with entries := tabSet ([], []) x.entries ib v } else x) }
  else { s with facet.noise := s.facet.noise ++ [{ pos := pos, key := key, entries := tabSet ([], []) [] ib v }] }

/-- A job item begins in a later frame with a pass over block `b` first, which its image still gives, and has the noise set of a key. -/
def beginsLater (s : State) (i : Image) (key : List (Nat × Nat)) (y : SchedItem) (b : Nat) : Bool :=
  match jobDumps i y with
  | [] => false
  | (p, _) :: _ =>
    match frameFor s i b p with
    | none => false
    | some m =>
      let f := m + y.entry - p.entry
      decide (s.time.frame < f) && decide (imageOf s b = some i) && (match jobAt s i f y with
        | some k => noiseKey i k = key
        | none => false)

/-- Another product, of this frame or a later one, still names a job's noise set (R169): one for the same channel and the same
(block, dump) pairs, whatever its kind; a long accumulation that a switch cuts ends with the block before it (R229). -/
def namedLater (s : State) (i : Image) (j : Job) : Bool :=
  let key := noiseKey i j
  let ends := (key.head?.toList ++ key.getLast?.toList).map (·.1) ++ s.sched.seam.map (fun e => e.2 - 1)
  s.clasp.jobs.any (fun k => !isJob (j.frame, j.number) k && isVis k.kind && k.pos = j.pos && noiseKey i k = key) ||
  i.items.any (fun y => y.kind = 4 && isVis (jobKind y.b8) && y.chan = j.pos && ends.any (beginsLater s i key y))

/-- Frees a job's noise set once its last product, or its gap record, has passed (R169). -/
def freeNoise (i : Image) (j : Job) (s : State) : State :=
  if isVis j.kind && !namedLater s i j then
    { s with facet.noise := s.facet.noise.filter (fun x => !(x.pos = j.pos && x.key = noiseKey i j)) }
  else s

/-- REASON of a product's blocks (R170, R177): 0 shaved, 1 NOISE_MISSING, 2 NOISE_MISMATCH, 3 DISABLED. -/
def facetReason (s : State) (i : Image) (j : Job) (e : Nat) : Nat :=
  let t := tileBlocks i.blocks j.corrTile
  let pairs := j.included.map (fun d => (d.1, d.2.1))
  if e = 0 then 3
  else match noiseEntry s j.pos (noiseKey i j) t.1, noiseEntry s j.pos (noiseKey i j) t.2 with
    | some x, some y => if x.1 = pairs ∧ y.1 = pairs then 0 else 2
    | _, _ => 1

/-- A visibility product passes the Facet and becomes its VIS item (R167 to R179, R196). -/
def facetProduct (i : Image) (j : Job) (sub : Nat) (split : Bool) (tot : Nat → Nat → Int × Int) (s : State) : Item × State :=
  let t := tileBlocks i.blocks j.corrTile
  let diag := decide (t.1 = t.2)
  let half := j.half && diag
  let e := facetE s j.ostream
  let pairs := j.included.map (fun d => (d.1, d.2.1))
  let s := if diag then writeNoise j.pos (noiseKey i j) t.1
      (pairs, (List.range 256).map (fun r => ((tot r r).1.toNat, j.lsum - j.frow.getD r 0))) s else s
  let reason := facetReason s i j e
  let at' := fun (ib k : Nat) => (((noiseEntry s j.pos (noiseKey i j) ib).map (·.2)).getD []).getD k (0, 0)
  let p := facetPayload diag half e reason j tot (at' t.1) (at' t.2)
  let wide := (p.2.2.2.filter (fun b => decide (128 ≤ b.toNat))).length
  let s := countN .blocks 0 p.2.2.2.length (countN .wideBlocks 0 wide s)
  let s := if reason = 1 then count .noiseMissing 0 s else if reason = 2 then count .noiseMismatch 0 s else s
  let mark := (if wide = 0 then 0 else 0x10) ||| (if reason = 2 then 8 else 0) ||| (if reason = 1 then 4 else 0)
  let s := { s with facet.sticky := s.facet.sticky ||| BitVec.ofNat 32 mark }
  ({ tileItem s i j 1 sub j.included split with
      payload := p.1, expOff := p.2.1, autoOff := p.2.2.1, counts := countSection j diag half }, s)

/-! Commands. -/

/-- FACET.CONFIG (R179): SEL output streams; e, 0 for disabled. -/
def specFacetConfig : Spec :=
  { opcode := 0x0800, same := fun a b => selCovers a b
    cls := fun _ => .txn, layout := layoutBad (selForm ++ [(8, 1)])
    range := fun _ a => firstBad [(selOk 4096 a, 0), (decide (u8 a 8 ≤ 6), 8)]
    act := fun q s => (selected q.arg).foldl (fun s k =>
      { s with facet.e := tabSet 2 s.facet.e k (u8 q.arg 8) }) s }

/-- FACET_CONFIG. -/
def execFacetConfig (q : Request) (s : State) : Out := kenra (.facetConfig q) specFacetConfig q s

/-- Facet status word (Table 8.8): ENABLED where an output stream that exists has f ≠ 0. -/
def facetWord (s : State) : Nat :=
  s.facet.sticky.toNat + 2 * bit (decide (64 ≤ s.facet.noise.length)) +
    bit (s.out.streams.any (fun e => decide (facetE s e.1 ≠ 0)))

/-- Counters of R190 for the Facet. -/
def facetCtrs : List Ctr := [.blocks, .wideBlocks, .noiseMissing, .noiseMismatch]

/-- FACET.STATUS (R190): the counters, then the noise sets in use. -/
def specFacetStatus : Spec :=
  { opcode := 0x0801, layout := statusLayout, sampled := true, range := fun _ a => firstBad [(selCount a = 0, 2)]
    result := fun s q => statusResult q.arg (fun _ => facetWord s) (fun _ =>
      facetCtrs.map (fun c => counter c 0 s) ++ [s.facet.noise.length])
    act := fun q s =>
      let s := if statusClear q.arg then clearCtrs facetCtrs 0 s else s
      if statusAck q.arg then { s with facet.sticky := 0 } else s }

/-- FACET_STATUS. -/
def execFacetStatus (q : Request) (s : State) : Out := kenra (.facetStatus q) specFacetStatus q s

end Sys2Proof.Machine
end

