-- ==== Sys2Proof/Machine/Float.lean ====
section
/-! DEFINITION. IEEE 754 binary32 and binary16 as the Clasp's fused output operations use them (R160 to R162): exact dyadic
arithmetic and one rounding, to nearest with ties to even, subnormal values kept. -/

namespace Sys2Proof.Machine

/-- A floating-point value: NaN, an infinity, or ± m × 2^e. -/
inductive Fl where
  | nan
  | inf (neg : Bool)
  | fin (neg : Bool) (m : Nat) (e : Int)
deriving DecidableEq, Repr

/-- Value of binary32 bits. -/
def f32Decode (b : BitVec 32) : Fl :=
  let v := b.toNat
  let neg := decide (2 ^ 31 ≤ v)
  let ex : Nat := v / 2 ^ 23 % 256
  let fr := v % 2 ^ 23
  if ex = 255 then (if fr = 0 then .inf neg else .nan)
  else if ex = 0 then .fin neg fr (-149)
  else .fin neg (fr + 2 ^ 23) ((ex : Int) - 150)

/-- Magnitude bits of m × 2^e at `p` significant bits and `w` exponent bits, to nearest, ties to even; past the greatest
finite value, the code of infinity. -/
def floatBits (p w m : Nat) (e : Int) : Nat :=
  if m = 0 then 0
  else
    let emin : Int := 3 - (2 ^ (w - 1) : Nat) - p
    let e' := max (e + (Nat.log2 m + 1 : Nat) - p) emin
    let q := if e ≤ e' then (roundTe m (2 ^ (e' - e).toNat)).toNat else m * 2 ^ (e - e').toNat
    let bits := if q < 2 ^ (p - 1) then q else (e' - emin).toNat * 2 ^ (p - 1) + q
    min bits ((2 ^ w - 1) * 2 ^ (p - 1))

/-- binary32 of ± m × 2^e. -/
def f32Round (neg : Bool) (m : Nat) (e : Int) : Fl :=
  let b := floatBits 24 8 m e
  f32Decode (BitVec.ofNat 32 (bit neg * 2 ^ 31 + b))

/-- binary32 of an integer (R160). -/
def f32OfInt (v : Int) : Fl := f32Round (decide (v < 0)) v.natAbs 0

/-- Sign of a value. -/
def Fl.neg : Fl → Bool
  | .nan => false
  | .inf n => n
  | .fin n _ _ => n

/-- Signed mantissa. -/
def signedMant (n : Bool) (m : Nat) : Int := if n then -(m : Int) else m

/-- fma(x, s, o): one rounding. -/
def f32Fma (x s o : Fl) : Fl :=
  match x, s, o with
  | .nan, _, _ => .nan
  | _, .nan, _ => .nan
  | _, _, .nan => .nan
  | .inf a, .inf b, o => if o = .inf (!(a != b)) then .nan else .inf (a != b)
  | .inf a, .fin b m _, o => if m = 0 ∨ o = .inf (!(a != b)) then .nan else .inf (a != b)
  | .fin a m _, .inf b, o => if m = 0 ∨ o = .inf (!(a != b)) then .nan else .inf (a != b)
  | .fin _ _ _, .fin _ _ _, .inf c => .inf c
  | .fin a m e, .fin b k f, .fin c l g =>
    let pe := e + f
    let lo := min pe g
    let v := signedMant (a != b) (m * k) * (2 ^ (pe - lo).toNat : Nat) + signedMant c l * (2 ^ (g - lo).toNat : Nat)
    if v = 0 then .fin ((a != b) && c) 0 (-149) else f32Round (decide (v < 0)) v.natAbs lo

/-- x ≤ y; false where either is NaN. -/
def flLe (x y : Fl) : Bool :=
  match x, y with
  | .nan, _ => false
  | _, .nan => false
  | .inf a, .inf b => a || !b
  | .inf a, _ => a
  | _, .inf b => !b
  | .fin a m e, .fin b k f =>
    let lo := min e f
    decide (signedMant a m * (2 ^ (e - lo).toNat : Nat) ≤ signedMant b k * (2 ^ (f - lo).toNat : Nat))

/-- x < y. -/
def flLt (x y : Fl) : Bool := flLe x y && !flLe y x

/-- A finite or infinite value rounded to an integer and limited to ± lim; whether it was limited. NaN has none. -/
def flToInt (lim : Nat) (x : Fl) : Option (Int × Bool) :=
  match x with
  | .nan => none
  | .inf n => some (if n then -(lim : Int) else lim, true)
  | .fin n m e =>
    let v := if 0 ≤ e then m * 2 ^ e.toNat else (roundTe m (2 ^ (-e).toNat)).toNat
    if lim < v then some (if n then -(lim : Int) else lim, true) else some (signedMant n v, false)

/-- binary16 bits of a value limited to ±65 504; whether it was limited. NaN has none. -/
def flToF16 (x : Fl) : Option (Nat × Bool) :=
  match x with
  | .nan => none
  | .inf n => some (bit n * 32768 + 0x7BFF, true)
  | .fin n m e =>
    let b := floatBits 11 5 m e
    if 0x7BFF < b then some (bit n * 32768 + 0x7BFF, true) else some (bit n * 32768 + b, false)

/-! Fused output operations (R160 to R163). -/

/-- What a job gives the fused output operations: scale, bias and curve as they apply to one value. -/
structure Fused where
  on : Bool
  scale : BitVec 32
  bias : BitVec 32
  curve : Option (List (BitVec 32 × BitVec 32 × BitVec 32))
  format : Nat
deriving DecidableEq, Repr

/-- The last segment whose breakpoint does not exceed y. -/
def segmentOf (l : List (BitVec 32 × BitVec 32 × BitVec 32)) (y : Fl) : Option (BitVec 32 × BitVec 32 × BitVec 32) :=
  (l.filter (fun x => flLe (f32Decode x.1) y)).getLast?

/-- y of a value (R160). -/
def fusedValue (f : Fused) (v : Int) : Fl :=
  let y := f32Fma (f32OfInt v) (f32Decode f.scale) (f32Decode f.bias)
  match f.curve.bind (fun l => segmentOf l y) with
  | some (_, a, c) => f32Fma (f32Decode a) y (f32Decode c)
  | none => if f.curve.isSome then .nan else y

/-- Bytes of one output value at a FORMAT (Table 9.2). -/
def formatBytes (exact format : Nat) : Nat := [exact, 4, 2, 1, 2].getD format exact

/-- Flag code of a format (R162). -/
def flagCode (format : Nat) : Nat := [0, 0x80000000, 0x8000, 0x80, 0x7E00].getD format 0

/-- Code of an integer or floating-point format, whether the value was limited, and whether y was NaN (R162). -/
def toFormat (format : Nat) (y : Fl) : Nat × Bool × Bool :=
  if format = 4 then
    match flToF16 y with
    | some (b, l) => (b, l, false)
    | none => (flagCode 4, false, true)
  else
    let w := 8 * formatBytes 4 format
    match flToInt (2 ^ (w - 1) - 1) y with
    | some (v, l) => ((v % (2 ^ w : Nat)).toNat, l, false)
    | none => (flagCode format, false, true)

/-- One value through the fused operations and the conversion; with them off, or at the exact format, the integer itself. -/
def fuse (exact : Nat) (f : Fused) (v : Int) : List Byte × Bool × Bool :=
  if f.on && f.format != 0 then
    let c := toFormat f.format (fusedValue f v)
    (beBytes (formatBytes exact f.format) c.1, c.2.1, c.2.2)
  else (beBytes exact (v % (2 ^ (8 * exact) : Nat)).toNat, false, false)

end Sys2Proof.Machine
end

