-- ==== Sys2Proof/Machine/Codec.lean ====
section
/-! DEFINITION. DEFLATE as the Pack engines encode and decode it (chapter 08, R180 to R188, RFC 1951). -/

namespace Sys2Proof.Machine

/-! The parse (R181). -/

/-- A literal, or a match of a length at a distance. -/
inductive Token where
  | lit (b : Byte)
  | copy (len dist : Nat)
deriving DecidableEq, Repr

/-- The hash of three bytes (R181). -/
def hash3 (a b c : Byte) : Nat := (a.toNat * 1024 ^^^ b.toNat * 32 ^^^ c.toNat) % 32768

/-- Length of the common prefix of two strings, at most `n`. -/
def commonPrefix : Nat → List Byte → List Byte → Nat
  | 0, _, _ => 0
  | n + 1, a :: as, b :: bs => if a = b then commonPrefix n as bs + 1 else 0
  | _ + 1, _, _ => 0

/-- Hash of the three bytes at the head of a string, none for fewer. -/
def hashHere : List Byte → Option Nat
  | a :: b :: c :: _ => some (hash3 a b c)
  | _ => none

/-- The best match at `pos` among the chain's positions, newest first; ties keep the nearer (R181). -/
def bestMatch (inp here : List Byte) (pos : Nat) (chain : List Nat) : Nat × Nat :=
  let cands := (chain.takeWhile (fun c => decide (pos - c ≤ 32768))).take 32
  cands.foldl (fun (best : Nat × Nat) c =>
    let len := commonPrefix 258 (inp.drop c) here
    if best.1 < len then (len, pos - c) else best) (0, 0)

/-- Inserts positions `pos` to `pos + n - 1` at the heads of their chains. -/
def insertChain (inp : List Byte) (pos : Nat) : Nat → Tab (List Nat) → Tab (List Nat)
  | 0, t => t
  | n + 1, t =>
    let t := match hashHere (inp.drop pos) with
      | some h => tabMod [] t h (pos :: ·)
      | none => t
    insertChain inp (pos + 1) n t

/-- The greedy parse, each token with the position at which it starts; `fuel` bounds the positions left. -/
def parseFrom (inp : List Byte) : Nat → Nat → Tab (List Nat) → List (Nat × Token)
  | 0, _, _ => []
  | fuel + 1, pos, t =>
    match inp.drop pos with
    | [] => []
    | b :: rest =>
      let best := match hashHere (b :: rest) with
        | some h => bestMatch inp (b :: rest) pos (tabGet [] t h)
        | none => (0, 0)
      if 3 ≤ best.1 then
        (pos, .copy best.1 best.2) :: parseFrom inp fuel (pos + best.1) (insertChain inp pos best.1 t)
      else (pos, .lit b) :: parseFrom inp fuel (pos + 1) (insertChain inp pos 1 t)

/-- The parse of one item (R181). -/
def deflateParse (inp : List Byte) : List (Nat × Token) := parseFrom inp inp.length 0 []

/-! Symbols of lengths and distances (RFC 1951, 3.2.5). -/

/-- Base length and extra bits of length symbols 257 to 285. -/
def lengthTable : List (Nat × Nat) :=
  [(3, 0), (4, 0), (5, 0), (6, 0), (7, 0), (8, 0), (9, 0), (10, 0), (11, 1), (13, 1), (15, 1), (17, 1), (19, 2),
   (23, 2), (27, 2), (31, 2), (35, 3), (43, 3), (51, 3), (59, 3), (67, 4), (83, 4), (99, 4), (115, 4), (131, 5),
   (163, 5), (195, 5), (227, 5), (258, 0)]

/-- Base distance and extra bits of distance symbols 0 to 29. -/
def distTable : List (Nat × Nat) :=
  [(1, 0), (2, 0), (3, 0), (4, 0), (5, 1), (7, 1), (9, 2), (13, 2), (17, 3), (25, 3), (33, 4), (49, 4), (65, 5),
   (97, 5), (129, 6), (193, 6), (257, 7), (385, 7), (513, 8), (769, 8), (1025, 9), (1537, 9), (2049, 10), (3073, 10),
   (4097, 11), (6145, 11), (8193, 12), (12289, 12), (16385, 13), (24577, 13)]

/-- Last entry of a table whose base is no greater than `v`: index, value of the extra bits, their number. -/
def symbolOf (t : List (Nat × Nat)) (v : Nat) : Nat × Nat × Nat :=
  let i := (t.filter (fun e => decide (e.1 ≤ v))).length - 1
  let e := t.getD i (0, 0)
  (i, v - e.1, e.2)

/-- `n` bits of a number, least significant first. -/
def bitsLow : Nat → Nat → List Bool
  | 0, _ => []
  | n + 1, v => (v % 2 = 1) :: bitsLow n (v / 2)

/-- A Huffman code: most significant bit first. -/
def bitsHigh (n v : Nat) : List Bool := (bitsLow n v).reverse

/-- Packs bits into bytes, least significant first, zero bits up to a byte boundary. -/
def packBits : Nat → List Bool → List Byte
  | 0, _ => []
  | _, [] => []
  | fuel + 1, l =>
    let v := (l.take 8).foldr (fun b acc => bit b + 2 * acc) 0
    BitVec.ofNat 8 v :: packBits fuel (l.drop 8)

/-- Bits of bytes. -/
def bytesBits (l : List Byte) : List Bool := l.flatMap (fun b => bitsLow 8 b.toNat)

/-- Canonical codes of a set of code lengths: (length, code, symbol) of each symbol in use (RFC 1951, 3.2.2). -/
def canonical (lens : List Nat) : List (Nat × Nat × Nat) :=
  let syms := (List.range lens.length).map (fun i => (lens.getD i 0, i))
  ((List.range 15).foldl (fun (acc : Nat × List (Nat × Nat × Nat)) k =>
    let here := syms.filter (fun e => e.1 = k + 1)
    let start := acc.1 * 2
    let new := (List.range here.length).map (fun i => (k + 1, start + i, (here.getD i (0, 0)).2))
    (start + here.length, acc.2 ++ new)) (0, [])).2

/-- Code lengths of the fixed literal and length code. -/
def fixedLens : List Nat :=
  List.replicate 144 8 ++ List.replicate 112 9 ++ List.replicate 24 7 ++ List.replicate 8 8

/-- Code lengths of the fixed distance code. -/
def fixedDists : List Nat := List.replicate 32 5

/-- Bits of a symbol under a code. -/
def encodeSym (code : List (Nat × Nat × Nat)) (sym : Nat) : List Bool :=
  match code.find? (fun e => e.2.2 = sym) with
  | some (n, c, _) => bitsHigh n c
  | none => []

/-- Bits of a token under a literal and length code and a distance code. -/
def encodeToken (lit dist : List (Nat × Nat × Nat)) : Token → List Bool
  | .lit b => encodeSym lit b.toNat
  | .copy len d =>
    let l := if len = 258 then (28, 0, 0) else symbolOf (lengthTable.take 28) len
    let x := symbolOf distTable d
    encodeSym lit (257 + l.1) ++ bitsLow l.2.2 l.2.1 ++ encodeSym dist x.1 ++ bitsLow x.2.2 x.2.1

/-- A raw DEFLATE stream of one final block with the fixed codes (R180). -/
def deflateFixed (inp : List Byte) : List Byte :=
  let lit := canonical fixedLens
  let dist := canonical fixedDists
  let bits := [true, true, false] ++ (deflateParse inp).flatMap (fun t => encodeToken lit dist t.2) ++ encodeSym lit 256
  packBits bits.length bits

/-- Encoding of a Pack item in fixed-table mode (R182): the stream, or none where it would reach the item's length. -/
def packEncode (inp : List Byte) : Option (List Byte) :=
  let out := deflateFixed inp
  if inp.length ≤ out.length then none else some out

/-! Dynamic tables (R185). Package-merge: a package is its weight and the symbols in it. -/

/-- Lighter first; ties by the lower symbol value (R185). -/
def lighter (a b : Nat × List Nat) : Bool :=
  a.1 < b.1 || (a.1 = b.1 && a.2.foldl min 1000000 ≤ b.2.foldl min 1000000)

/-- Inserts a package in order of weight. -/
def insertPackage (p : Nat × List Nat) : List (Nat × List Nat) → List (Nat × List Nat)
  | [] => [p]
  | x :: t => if lighter p x then p :: x :: t else x :: insertPackage p t

/-- Pairs packages up, in order. -/
def pairUp : List (Nat × List Nat) → List (Nat × List Nat)
  | a :: b :: t => (a.1 + b.1, a.2 ++ b.2) :: pairUp t
  | _ => []

/-- Package-merge code lengths of symbols 0 to `n − 1` with the weights `w`, at most `limit` bits. A single symbol
takes length 1 (log 14). -/
def codeLengths (limit n : Nat) (w : Nat → Nat) : List Nat :=
  let leaves := ((List.range n).filter (fun i => 0 < w i)).foldl
    (fun acc i => insertPackage (w i, [i]) acc) []
  if leaves.length = 1 then (List.range n).map (fun i => if 0 < w i then 1 else 0)
  else
    let final := (List.range (limit - 1)).foldl
      (fun acc _ => (pairUp acc).foldl (fun l p => insertPackage p l) leaves) leaves
    let chosen := (final.take (2 * leaves.length - 2)).flatMap (·.2)
    (List.range n).map (fun i => chosen.count i)

/-- Run-length coding of code lengths: (symbol, extra value, extra bits), longest runs first (log 14). -/
def runLengths : Nat → List Nat → Option Nat → List (Nat × Nat × Nat)
  | 0, _, _ => []
  | _, [], _ => []
  | fuel + 1, x :: t, prev =>
    let run := (t.takeWhile (· = x)).length + 1
    if x = 0 ∧ 11 ≤ run then
      let k := min run 138
      (18, k - 11, 7) :: runLengths fuel ((x :: t).drop k) (some 0)
    else if x = 0 ∧ 3 ≤ run then (17, run - 3, 3) :: runLengths fuel ((x :: t).drop run) (some 0)
    else if prev = some x ∧ 3 ≤ run then
      let k := min run 6
      (16, k - 3, 2) :: runLengths fuel ((x :: t).drop k) (some x)
    else (x, 0, 0) :: runLengths fuel t (some x)

/-- Order of the code length code's lengths in a dynamic header. -/
def clOrder : List Nat := [16, 17, 18, 0, 8, 7, 9, 6, 10, 5, 11, 4, 12, 3, 13, 2, 14, 1, 15]

/-- Drops zeros at the end of a list, keeping at least `n` elements. -/
def trimZeros (n : Nat) (l : List Nat) : List Nat :=
  let k := l.length - (l.reverse.takeWhile (· = 0)).length
  l.take (max n k)

/-- One dynamic block of tokens (R185). -/
def dynamicBlock (last : Bool) (toks : List Token) : List Bool :=
  let litSyms := 256 :: toks.map (fun t => match t with
    | .lit b => b.toNat
    | .copy len _ => 257 + (if len = 258 then 28 else (symbolOf (lengthTable.take 28) len).1))
  let distSyms := toks.filterMap (fun t => match t with
    | .lit _ => none
    | .copy _ d => some (symbolOf distTable d).1)
  let lit := trimZeros 257 (codeLengths 15 286 (fun i => litSyms.count i))
  let dist := trimZeros 1 (codeLengths 15 30 (fun i => distSyms.count i))
  let rl := runLengths (lit.length + dist.length) (lit ++ dist) none
  let cl := codeLengths 7 19 (fun i => (rl.map (·.1)).count i)
  let order := trimZeros 4 (clOrder.map (fun i => cl.getD i 0))
  let clc := canonical cl
  let litc := canonical lit
  let distc := canonical dist
  [last, false, true] ++ bitsLow 5 (lit.length - 257) ++ bitsLow 5 (dist.length - 1) ++ bitsLow 4 (order.length - 4)
    ++ order.flatMap (bitsLow 3) ++ rl.flatMap (fun e => encodeSym clc e.1 ++ bitsLow e.2.2 e.2.1)
    ++ toks.flatMap (encodeToken litc distc) ++ encodeSym litc 256

/-- A raw DEFLATE stream with one dynamic block for each MiB of input; a match belongs to the block in which it starts
(R185; log 14). -/
def deflateDynamic (inp : List Byte) : List Byte :=
  let toks := deflateParse inp
  let n := max 1 (ceilDiv inp.length (2 ^ 20))
  let bits := (List.range n).flatMap (fun i =>
    dynamicBlock (i + 1 = n) ((toks.filter (fun t => t.1 / 2 ^ 20 = i)).map (·.2)))
  packBits bits.length bits

/-! Decoding (R187, R188, Table 8.5). -/

/-- Reasons of Table 8.5. -/
inductive DecodeFail where
  | declared | opLimit | ratio | malformed | truncated | trailing | short
deriving DecidableEq, Repr

/-- Codes of Table 8.5. -/
def DecodeFail.code : DecodeFail → Nat
  | .declared => 1 | .opLimit => 2 | .ratio => 3 | .malformed => 4 | .truncated => 5 | .trailing => 6 | .short => 7

/-- The decoder on its way: bits left, output newest first and its length. -/
structure Inflate where
  bits : List Bool
  out : List Byte
  n : Nat
deriving DecidableEq, Repr

/-- What stops the decoder, or what it goes on with. -/
abbrev Dec (α : Type) := Except DecodeFail α

/-- Takes `k` bits, least significant first. -/
def takeLow (k : Nat) (d : Inflate) : Dec (Nat × Inflate) :=
  if d.bits.length < k then .error .truncated
  else .ok ((d.bits.take k).foldr (fun b acc => bit b + 2 * acc) 0, { d with bits := d.bits.drop k })

/-- The least limit and its name; of equal limits the first in the order of R188. -/
def outLimit (lim : Limits) (comp : Nat) : Nat × DecodeFail :=
  let r := lim.ratio * comp
  if lim.declared ≤ lim.opBytes ∧ lim.declared ≤ r then (lim.declared, .declared)
  else if lim.opBytes ≤ r then (lim.opBytes, .opLimit)
  else (r, .ratio)

/-- Writes one output byte, never beyond the limit (R188). -/
def putByte (lim : Nat × DecodeFail) (b : Byte) (d : Inflate) : Dec Inflate :=
  if lim.1 ≤ d.n then .error lim.2 else .ok { d with out := b :: d.out, n := d.n + 1 }

/-- Copies `len` bytes from `dist` back. -/
def copyBytes (lim : Nat × DecodeFail) (dist : Nat) : Nat → Inflate → Dec Inflate
  | 0, d => .ok d
  | len + 1, d =>
    match putByte lim (d.out.getD (dist - 1) 0) d with
    | .error e => .error e
    | .ok d => copyBytes lim dist len d

/-- Decodes one symbol: codes are at most 15 bits, most significant first; a pattern with no symbol is malformed. -/
def takeSym (code : List (Nat × Nat × Nat)) : Nat → Nat → Nat → Inflate → Dec (Nat × Inflate)
  | 0, _, _, _ => .error .malformed
  | fuel + 1, len, acc, d =>
    match d.bits with
    | [] => .error .truncated
    | b :: rest =>
      let acc := 2 * acc + bit b
      let d := { d with bits := rest }
      match code.find? (fun e => e.1 = len + 1 && e.2.1 = acc) with
      | some e => .ok (e.2.2, d)
      | none => takeSym code fuel (len + 1) acc d

/-- Sum of 2^(15 − length) over the codes in use: 2^15 for a complete set. -/
def kraft (lens : List Nat) : Nat := (lens.map (fun l => if l = 0 then 0 else 2 ^ (15 - l))).sum

/-- A set of literal and length, or code length, code lengths is complete (R187). -/
def setOk (lens : List Nat) : Bool := kraft lens = 2 ^ 15

/-- A set of distance code lengths is complete, all zero, or one code of length 1 (R187). -/
def distSetOk (lens : List Nat) : Bool :=
  setOk lens || lens.all (· = 0) || (lens.filter (· ≠ 0) = [1])

/-- The symbols of one block up to its end. A lone distance code is the one-bit pattern 0; the pattern 1 is malformed (R187). -/
def takeBlock (lim : Nat × DecodeFail) (lit dist : List (Nat × Nat × Nat)) : Nat → Inflate → Dec Inflate
  | 0, _ => .error .truncated
  | fuel + 1, d =>
    match takeSym lit 15 0 0 d with
    | .error e => .error e
    | .ok (sym, d) =>
      if sym < 256 then
        match putByte lim (BitVec.ofNat 8 sym) d with
        | .error e => .error e
        | .ok d => takeBlock lim lit dist fuel d
      else if sym = 256 then .ok d
      else if 286 ≤ sym then .error .malformed
      else if dist.isEmpty then .error .malformed
      else
        let l := lengthTable.getD (sym - 257) (0, 0)
        match takeLow l.2 d with
        | .error e => .error e
        | .ok (lx, d) =>
          match takeSym dist (if dist.length = 1 then 1 else 15) 0 0 d with
          | .error e => .error e
          | .ok (ds, d) =>
            if 30 ≤ ds then .error .malformed
            else
              let x := distTable.getD ds (0, 0)
              match takeLow x.2 d with
              | .error e => .error e
              | .ok (dx, d) =>
                if d.n < x.1 + dx then .error .malformed
                else match copyBytes lim (x.1 + dx) (l.1 + lx) d with
                  | .error e => .error e
                  | .ok d => takeBlock lim lit dist fuel d

/-- Code lengths of a dynamic header: `n` of them under the code length code. DESIGN CHOICE (log 14): a repeat with no length before it,
and lengths past `n`, are malformed; RFC 1951 gives neither a meaning and R187 does not list them. -/
def takeLens (cl : List (Nat × Nat × Nat)) (n : Nat) : Nat → List Nat → Inflate → Dec (List Nat × Inflate)
  | 0, _, _ => .error .truncated
  | fuel + 1, acc, d =>
    if n < acc.length then .error .malformed
    else if acc.length = n then .ok (acc, d)
    else match takeSym cl 15 0 0 d with
      | .error e => .error e
      | .ok (sym, d) =>
        if sym < 16 then takeLens cl n fuel (acc ++ [sym]) d
        else
          let spec : Nat × Nat × Nat := if sym = 16 then (2, 3, acc.getLastD 16) else if sym = 17 then (3, 3, 0)
            else (7, 11, 0)
          if spec.2.2 = 16 then .error .malformed
          else match takeLow spec.1 d with
            | .error e => .error e
            | .ok (k, d) => takeLens cl n fuel (acc ++ List.replicate (spec.2.1 + k) spec.2.2) d

/-- Lengths of the code length code, as many as HCLEN says. -/
def takeCl : Nat → List Nat → Inflate → Dec (List Nat × Inflate)
  | 0, acc, d => .ok (acc, d)
  | n + 1, acc, d =>
    match takeLow 3 d with
    | .error e => .error e
    | .ok (v, d) => takeCl n (acc ++ [v]) d

/-- The two codes of a dynamic block. -/
def takeTables (d : Inflate) : Dec (List (Nat × Nat × Nat) × List (Nat × Nat × Nat) × Inflate) := do
  let (hlit, d) ← takeLow 5 d
  let (hdist, d) ← takeLow 5 d
  let (hclen, d) ← takeLow 4 d
  let (cl, d) ← takeCl (hclen + 4) [] d
  let lens := (List.range 19).map (fun i =>
    let j := clOrder.findIdx (· = i)
    cl.getD j 0)
  if !setOk lens then .error .malformed
  else
    let (all, d) ← takeLens (canonical lens) (hlit + 257 + hdist + 1) (d.bits.length + 2) [] d
    let lit := all.take (hlit + 257)
    let dist := all.drop (hlit + 257)
    if !setOk lit || !distSetOk dist then .error .malformed
    else .ok (canonical lit, canonical dist, d)

/-- A stored block's bytes. -/
def takeStored (lim : Nat × DecodeFail) : Nat → Inflate → Dec Inflate
  | 0, d => .ok d
  | n + 1, d => do
    let (b, d) ← takeLow 8 d
    let d ← putByte lim (BitVec.ofNat 8 b) d
    takeStored lim n d

/-- Blocks up to the one with BFINAL = 1. -/
def takeBlocks (lim : Nat × DecodeFail) : Nat → Inflate → Dec Inflate
  | 0, _ => .error .truncated
  | fuel + 1, d => do
    let (final, d) ← takeLow 1 d
    let (btype, d) ← takeLow 2 d
    let d ← (if btype = 0 then do
        let d := { d with bits := d.bits.drop (d.bits.length % 8) }
        let (len, d) ← takeLow 16 d
        let (nlen, d) ← takeLow 16 d
        if len + nlen ≠ 65535 then Except.error DecodeFail.malformed else takeStored lim len d
      else if btype = 1 then takeBlock lim (canonical fixedLens) (canonical fixedDists) (d.bits.length + 1) d
      else if btype = 2 then do
        let (lit, dist, d) ← takeTables d
        takeBlock lim lit dist (d.bits.length + 1) d
      else Except.error DecodeFail.malformed)
    if final = 1 then .ok d else takeBlocks lim fuel d

/-- Decodes a compressed string under the limits in force; the output, or the reason of the failure (R188). -/
def inflate (lim : Limits) (src : List Byte) : Dec (List Byte) :=
  let bits := bytesBits src
  match takeBlocks (outLimit lim src.length) (bits.length + 1) { bits := bits, out := [], n := 0 } with
  | .error e => .error e
  | .ok d =>
    if 8 ≤ d.bits.length then .error .trailing
    else if d.n < lim.declared then .error .short
    else .ok d.out.reverse

end Sys2Proof.Machine
end

