-- ==== Sys2Proof/Machine/Recorder.lean ====
section
/-! DEFINITION. The event recorder (chapter 21): epochs, sealing, the overflow set, and the REC commands. -/

namespace Sys2Proof.Machine

/-- Record slots per sector and sectors of the recorder partition (R460). -/
def slotsPerSector : Nat := 16
def recSectors : Nat := 256

/-- 32-byte map of the sources that raised a class. -/
def sourceMap (l : List Nat) : List Byte :=
  (List.range 32).map (fun i =>
    BitVec.ofNat 8 ((List.range 8).foldl (fun v j => if (8 * i + j) ∈ l then v + 2 ^ j else v) 0))

/-- Bytes 0 to 247 of a record (Table 21.3). -/
def recBody (r : RecRecord) : List Byte :=
  [BitVec.ofNat 8 r.cls, 1] ++ leBytes 2 (bit r.set.merged + 2 * bit r.partialEpoch) ++ leBytes 4 r.hour
    ++ leBytes 4 r.power ++ leBytes 4 r.resets ++ leBytes 8 r.set.count
    ++ (List.range 16).flatMap (fun i => leBytes 4 (r.set.hist.getD i 0))
    ++ leInt 8 r.set.min ++ leBytes 4 r.set.minSec ++ leInt 8 r.set.max ++ leBytes 4 r.set.maxSec
    ++ leBytes 4 r.set.firstSec ++ leBytes 4 r.set.lastSec ++ sourceMap r.set.sources ++ List.replicate 96 0

/-- The 256 bytes of a record: body, CRC-32C, VALID once sealed (Table 21.3). -/
def recBytes (sealed : Bool) (r : RecRecord) : List Byte :=
  recBody r ++ leBytes 4 (crc32c (recBody r)) ++ leBytes 4 (if sealed then 0xA55AC33C else 0)

/-- A record read from MRAM is whole: VALID is present and its CRC passes (R460). -/
def recWhole (l : List Byte) : Bool :=
  leVal (slice l 252 4) = 0xA55AC33C && leVal (slice l 248 4) = crc32c (l.take 248)

/-- MRAM offset of a record slot (Table 18.2, R460). -/
def recOffset (slot : Nat) : Nat := slot * 256

/-- A slot in a sector that the bad-sector map does not name. -/
def slotGood (r : RecSt) (slot : Nat) : Bool := !(r.badSectors.contains (slot / slotsPerSector))

/-- First good slot from `slot` on (R460). -/
def nextGood (r : RecSt) (slot : Nat) : Option Nat :=
  (numbers slot (recSectors * slotsPerSector - slot)).find? (slotGood r)

/-- Slots in good sectors. -/
def goodSlots (r : RecSt) : Nat := (recSectors - r.badSectors.length) * slotsPerSector

/-- 90 % of the remaining good slots hold records (R461). -/
def nearlyFull (r : RecSt) : Bool :=
  decide (9 * goodSlots r ≤ 10 * (r.held.filter (fun e => slotGood r e.1)).length)

/-- Merges one class's set into another (R461). -/
def mergeSets (a b : ClassSet) : ClassSet :=
  if a.count = 0 then { b with merged := true }
  else
    let minB := decide (b.min < a.min) || (b.min = a.min && decide (b.minSec < a.minSec))
    let maxB := decide (a.max < b.max) || (b.max = a.max && decide (b.maxSec < a.maxSec))
    { count := a.count + b.count
      hist := (List.range 16).map (fun i => min (a.hist.getD i 0 + b.hist.getD i 0) 0xFFFFFFFF)
      min := if minB then b.min else a.min, minSec := if minB then b.minSec else a.minSec
      max := if maxB then b.max else a.max, maxSec := if maxB then b.maxSec else a.maxSec
      firstSec := min a.firstSec b.firstSec, lastSec := max a.lastSec b.lastSec
      sources := b.sources.foldl addSource a.sources, merged := true }

/-- Retired records are merged into the overflow set instead of being written (R461). -/
def mergeOverflow (l : List RecRecord) (s : State) : State :=
  if l.isEmpty then s
  else count .mergedEpochs 0
    { s with recorder.overflow := l.foldl (fun t r => tabMod {} t r.cls (fun a => mergeSets a r.set)) s.recorder.overflow }

/-- The records of a live set, in ascending class order (R458). -/
def epochRecords (part : Bool) (s : State) : List RecRecord :=
  (s.recorder.live.filter (fun e => 0 < e.2.count)).map (fun e =>
    { cls := e.1, partialEpoch := part, hour := s.recorder.epochStart / 3600, power := s.boot.powerCycles,
      resets := s.boot.resets, set := e.2 })

/-- An epoch ends: the live and shadow sets swap; the retired set goes to the writer, or to the overflow set in
LOG_FULL and FAILED unless an export or clear holds it back; the operating second is written to MRAM (R458, R460 to R462). -/
def endEpoch (part : Bool) (s : State) : State :=
  let l := epochRecords part s
  let keep := s.recorder.state = 0 || s.recorder.clearing
  let s' := { s with recorder.live := [], recorder.epochStart := s.recorder.second, recorder.secondWritten := s.recorder.second
                     recorder.toSeal := if keep then s.recorder.toSeal ++ l else s.recorder.toSeal
                     recorder.writerAt := if s.recorder.toSeal.isEmpty then s.time.tb2 else s.recorder.writerAt }
  if keep then s' else mergeOverflow l s'

/-- EPOCH_END: a whole operating hour is reached and the next epoch begins (R458). -/
def execEpochEnd (s : State) : Out :=
  whenOn (fun s =>
    endEpoch false { s with recorder.second := max s.recorder.second ((s.recorder.epochStart / 3600 + 1) * 3600) }) s

/-- The recorder leaves RUNNING: state, event with its magnitude, and what waits for sealing is merged (R461, R463). -/
def recStop (st code : Nat) (m : Int) (s : State) : State :=
  let l := s.recorder.toSeal
  mergeOverflow l (raise code 4 m [] { s with recorder.state := st, recorder.toSeal := [] })

/-- A record verified: it is held, and the fill of the log is looked at (R460, R461). -/
def sealGood (slot : Nat) (r : RecRecord) (s : State) : State :=
  let s := count .recordsSealed 0
    { s with recorder.held := s.recorder.held ++ [(slot, r)], recorder.nextSlot := slot + 1
             boot.mram := memWrite s.boot.mram (recOffset slot) (recBytes true r) }
  let s := if nearlyFull s.recorder && !s.recorder.nearly then
      raise 0x0C00 4 s.recorder.held.length [] { s with recorder.nearly := true } else s
  if (nextGood s.recorder s.recorder.nextSlot).isNone then recStop 1 0x0C01 s.recorder.held.length s else s

/-- A record failed verification: its sector joins the bad-sector map, whose two copies are written, one that fails its own verify
keeping what it held; with no good sector left or both copies bad the recorder is FAILED (R463; log 52). -/
def sealBad (slot : Nat) (map1 map2 : Bool) (s : State) : State :=
  let sector := slot / slotsPerSector
  let map := addSource s.recorder.badSectors sector
  let s := { s with recorder.mapCopies :=
    (if map1 then map else s.recorder.mapCopies.1, if map2 then map else s.recorder.mapCopies.2) }
  let s := count .sectorsBad 0 (count .writeVerifyFail 0
    { s with recorder.badSectors := addSource s.recorder.badSectors sector, recorder.badSeen := true
             recorder.nextSlot := (sector + 1) * slotsPerSector })
  let s := raise 0x0C02 4 sector [] s
  if (nextGood s.recorder s.recorder.nextSlot).isNone || (!map1 && !map2) then
    recStop 2 0x0C03 s.recorder.badSectors.length s
  else s

/-- Seals the first record that waits, with the outcome of its write-verify (R460, R463). Nothing is sealed while an
export or clear is in progress (R462). -/
def sealNext (v : Verify) (s : State) : State :=
  if s.recorder.clearing || s.recorder.state ≠ 0 then s
  else match s.recorder.toSeal with
    | [] => s
    | r :: rest =>
      match nextGood s.recorder s.recorder.nextSlot with
      | none => recStop 1 0x0C01 s.recorder.held.length s
      | some slot =>
        match v with
        | .good => sealGood slot r { s with recorder.toSeal := rest }
        | .bad m1 m2 => sealBad slot m1 m2 s

/-- RECORD_SEAL: a record takes the writer 25 µs, and one that fails 20 µs more for the two copies of the map (R460, Table 21.4). -/
def execRecordSeal (v : Verify) (s : State) : Out :=
  whenOn (fun s =>
    if s.recorder.clearing || s.recorder.state ≠ 0 || s.recorder.toSeal.isEmpty then s
    else
      let t := s.recorder.writerAt + (match v with
        | .good => 25000
        | .bad _ _ => 45000)
      sealNext v { elapseTo t s with recorder.writerAt := max t s.time.tb2 }) s

/-- Seals every record that waits, each verified, at most `n` (log 52). -/
def sealAll : Nat → State → State
  | 0, s => s
  | n + 1, s => if s.recorder.toSeal.isEmpty then s else sealAll n (sealNext .good s)

/-- An orderly seal of the open records (R408, R449, R458): the epoch ends and its records are written. -/
def sealRecorder (s : State) : State :=
  let s := endEpoch true s
  sealAll s.recorder.toSeal.length s

/-- The overflow set as records; the hour of one is that of its first event (R461, R462; log 52). -/
def overflowRecords (s : State) : List RecRecord :=
  (s.recorder.overflow.filter (fun e => 0 < e.2.count)).map (fun e =>
    { cls := e.1, partialEpoch := false, hour := e.2.firstSec / 3600, power := s.boot.powerCycles,
      resets := s.boot.resets, set := e.2 })

/-- Erases the record slots of good sectors. -/
def eraseGood (s : State) : State :=
  { s with
    recorder.held := s.recorder.held.filter (fun e => !slotGood s.recorder e.1)
    recorder.nextSlot := 0, recorder.nearly := false
    boot.mram := s.boot.mram.filter (fun e => decide (2 ^ 20 ≤ e.1) || !slotGood s.recorder (e.1 / 256)) }

/-- First command of a kind that owes a completion. -/
def owedOf (p : Instr → Bool) (s : State) : Option (Instr × Request) := s.host.owed.find? (fun e => p e.1)

def isRecClear : Instr → Bool
  | .recClear _ => true
  | _ => false

/-- REC_CLEAR_DONE: the good sectors are erased, the overflow set is sealed as the first records of the new log, and
the recorder returns to RUNNING unless the map covers every sector, where what an epoch kept joins the overflow set (R462, R463). -/
def execRecClearDone (s : State) : Out :=
  whenOn (fun s =>
    match owedOf isRecClear s with
    | none => s
    | some (c, q) =>
      let s := eraseGood s
      let first := overflowRecords s
      let kept := s.recorder.toSeal
      let full := recSectors ≤ s.recorder.badSectors.length
      let s := { s with recorder.clearing := false, recorder.overflow := if full then s.recorder.overflow else []
                        recorder.state := if full then s.recorder.state else 0
                        recorder.toSeal := if full then [] else first ++ kept, recorder.writerAt := s.time.tb2 }
      let s := if full then mergeOverflow kept s else sealAll first.length s
      finish c 0x0C03 q .ok 0 0 [] (count .clears 0 s)) s

/-! REC commands (Table 16.10). -/

/-- An update's END, whose decode is a service operation. -/
def isUpdateEnd : Instr → Bool
  | .fwUpdateEnd _ => true
  | _ => false

/-- Service operations need an engine: with no reserved engine none serves while the data path runs (R186). -/
def engineFree (s : State) : Bool := !(observing s && s.pack.reserved = 0)

/-- Engines that serve: the reserved ones while the data path runs, else all 16 (R186). Operations accepted in READY go on where
none is reserved (log 36). -/
def serviceEngines (s : State) : Nat := if observing s && s.pack.reserved ≠ 0 then s.pack.reserved else 16

/-- An operation holds an engine: fewer operations accepted before it are unfinished than engines serve (R186). -/
def engineServes (s : State) (seq : Nat) : Bool :=
  decide ((s.services.filter (fun x => decide (x.seq < seq))).length +
    (s.loads.filter (fun l => l.deflate && decide (l.seq < seq))).length < serviceEngines s)

/-- The engine that ran an operation, as a command names it; one that does not serve stands for PK15 (log 36). -/
def servedBy (s : State) (e : BitVec 4) : Nat := if 16 - serviceEngines s ≤ e.toNat then e.toNat else 15

/-- An operation is accepted: it takes the next place in the order (R186). -/
def nextOp (s : State) : State := { s with pack.opSeq := s.pack.opSeq + 1 }

/-- A decode of an engine ends well (R190). -/
def decodeGood (e : Nat) (s : State) : State := count .decodeOk e s

/-- A decode of an engine fails: counted by reason, reported and kept as the last reason (R189, R190, Table 8.9). -/
def decodeBad (e reason : Nat) (s : State) : State :=
  raise 0x0E00 (46 + e) reason [] (count .decodeFail (8 * e + reason) { s with
    pack.lastReason := reason, pack.sticky := s.pack.sticky ||| 8 })

/-- Recorder status word (Table 21.5). -/
def recWord (s : State) : Nat :=
  let r := s.recorder
  min r.held.length 4096 * 65536 + min r.badSectors.length 255 * 256 + bit r.badSeen * 128 + bit r.clearing * 64
    + bit (r.state = 0 && !r.clearing && !r.toSeal.isEmpty) * 32 + bit (nearlyFull r) * 16 + r.state

/-- Counters of R464 in its order. -/
def recCtrs : List Ctr :=
  [.events, .recordsSealed, .mergedEpochs, .writeVerifyFail, .sectorsBad, .torn, .clears]

/-- REC.STATUS (R464). -/
def specRecStatus : Spec :=
  { opcode := 0x0C00, layout := statusLayout, sampled := true, rom := true
    range := fun _ a => firstBad [(selCount a = 0, 2)]
    result := fun s q => statusResult q.arg (fun _ => recWord s)
      (fun _ => recCtrs.map (fun c => counter c 0 s) ++ [s.recorder.second, s.boot.powerCycles, s.boot.resets])
    act := fun q s =>
      let s := if statusClear q.arg then clearCtrs recCtrs 0 s else s
      if statusAck q.arg then { s with recorder.badSeen := false } else s }
def execRecStatus (q : Request) (s : State) : Out := kenra (.recStatus q) specRecStatus q s

/-- Some DRAM channel is trained. -/
def dramTrained (s : State) : Bool := s.dram.chans.any (fun e => e.2.trained)

/-- Records that REC.READ returns, read from MRAM as it begins: of those held from `first` on, `n` that fit, or the 128
entries of the overflow set for 0xFFFF_FFFF; torn ones are counted and left out (R460, R461). -/
def readRecords (s : State) (first n : Nat) : List (List Byte) :=
  if first = 0xFFFFFFFF then
    (List.range 128).map (fun k => recBytes true
      { cls := k, partialEpoch := false, hour := (tabGet ({} : ClassSet) s.recorder.overflow k).firstSec / 3600,
        power := s.boot.powerCycles, resets := s.boot.resets, set := tabGet {} s.recorder.overflow k })
  else ((s.recorder.held.drop first).take n).map (fun e => memRead s.boot.mram (recOffset e.1) 256)

/-- REC.READ (R460, R461; R400 for a BULK while no channel is trained). -/
def specRecRead : Spec :=
  { opcode := 0x0C01, rom := true, event := true
    layout := fun a => layoutBad (bulkForm 0 ++ [(16, 8)]) a
    range := fun s a => firstBad (bulkRange s (if dramTrained s then [1, 2] else [1]) a 0)
    resource := fun s q => firstFail [(bulkWindow s true q.arg 0, .window)]
    act := fun q s =>
      let all := readRecords s (u32 q.arg 16) (u32 q.arg 20)
      let good := all.filter recWhole
      let fit := good.take ((bulk q.arg 0).length / 256)
      { countN .torn 0 (all.length - good.length) s with
        reads := s.reads ++ [{ cmd := .recRead q, req := q, bulkOff := 0, bytes := fit.flatten, extra := [] }] } }
def execRecRead (q : Request) (s : State) : Out := kenra (.recRead q) specRecRead q s

/-- A result's transfer to its bulk destination ends: written whole and OK, or failed (R345, R353, R362). -/
def endRead (op : Nat) (p : Instr → Bool) (fail : Bool) (s : State) : State :=
  match s.reads.find? (fun r => p r.cmd) with
  | none => s
  | some r =>
    let b := bulk r.req.arg r.bulkOff
    let s := { s with reads := s.reads.erase r }
    if fail then finish r.cmd op r.req .hostDma 0 0 [] s
    else
      let x := bulkPut b r.bytes s
      match x.1 with
      | some st => finish r.cmd op r.req st 0 0 [] x.2
      | none => finish r.cmd op r.req .ok r.bytes.length 0 r.extra x.2

def isRecRead : Instr → Bool
  | .recRead _ => true
  | _ => false

/-- REC_READ_DONE (R460, R353). -/
def execRecReadDone (fail : Bool) (s : State) : Out := whenOn (endRead 0x0C01 isRecRead fail) s

/-- REC.EXPORT: the records held, encoded with dynamic tables on a reserved engine (R185, R462). -/
def specRecExport : Spec :=
  { opcode := 0x0C02, event := true
    layout := fun a => layoutBad (bulkForm 0) a
    range := fun s a => firstBad (bulkRange s [2] a 0)
    resource := fun s _ => firstFail [(engineFree s && !s.recorder.clearing, .busy)]
    act := fun q s =>
      let bytes := (s.recorder.held.map (fun e => memRead s.boot.mram (recOffset e.1) 256)).flatten
      nextOp { s with
        recorder.clearing := true
        services := s.services ++ [{ cmd := .recExport q, req := q, source := bytes, dst := (bulk q.arg 0).addr,
                                            dstLen := (bulk q.arg 0).length, dynamic := true, seq := s.pack.opSeq }] } }
def execRecExport (q : Request) (s : State) : Out := kenra (.recExport q) specRecExport q s

/-- REC.CLEAR: CONFLICT unless the named count is the records held (R462). -/
def specRecClear : Spec :=
  { opcode := 0x0C03, event := true
    layout := fun a => layoutBad [(0, 4)] a
    resource := fun s q => firstFail [(!s.recorder.clearing, .busy), (u32 q.arg 0 = s.recorder.held.length, .conflict)]
    act := fun _ s => { s with recorder.clearing := true } }
def execRecClear (q : Request) (s : State) : Out := kenra (.recClear q) specRecClear q s

end Sys2Proof.Machine
end

