-- ==== Sys2Proof/Machine/LoadCore.lean ====
section
/-! DEFINITION. What every LOAD command shares (R375, R187 to R189): its checks, the load it begins, and the decoding of its
data. -/

namespace Sys2Proof.Machine

/-- Resource checks of a LOAD whose common part stands at `o`: window, an engine where the data is compressed (R186), and
room for staging in the service region (R189). -/
def loadChecks (s : State) (q : Request) (o : Nat) : List (Bool × Status) :=
  [(bulkWindow s false q.arg o, .window), (u8 q.arg (o + 20) = 0 || engineFree s, .busy),
   (decide (2 ^ 20 + u32 q.arg (o + 16) ≤ serviceBytes s), .noSpace)]

/-- Begins a load, with the limits in force now (R188). -/
def beginLoad (c : Request → Instr) (o : Nat) (q : Request) (s : State) : State :=
  let a := q.arg
  let d := u32 a (o + 16)
  let load : Load :=
    { cmd := c q, req := q, bulkAt := o, declared := d, deflate := u8 a (o + 20) = 1
      limits := { declared := d, opBytes := s.pack.opLimit * 2 ^ 20, ratio := s.pack.ratio }, seq := s.pack.opSeq }
  nextOp { s with loads := s.loads ++ [load] }

/-- Loads of a kind that are in progress. -/
def loadsOf (p : Instr → Bool) (s : State) : List Request := (s.loads.filter (fun l => p l.cmd)).map (·.req)

/-- Decoded data of a load's source, or the reason of its failure (R187, R188). -/
def loadData (l : Load) (source : List Byte) : Except DecodeFail (List Byte) :=
  if l.deflate then inflate l.limits source else .ok source

end Sys2Proof.Machine
end

