-- ==== Sys2Proof/Machine/Clasp.lean ====
section
/-! DEFINITION. The Clasp and the Locket store (chapter 07): claims, spill planes, sums and counts, lost dumps, readout in job
order, long accumulation, and the CLASP commands. -/

namespace Sys2Proof.Machine

/-- Marks bits of the Clasp status word (Table 7.5). -/
def claspMark (b : Nat) (s : State) : State := { s with clasp.sticky := s.clasp.sticky ||| BitVec.ofNat 32 b }

/-! Tiles and their owners (R150, R151). -/

/-- Tiles that a job owns (Table 7.2, R131): a long accumulation none, and a beam run L_s / 128 + 1. -/
def jobTiles (s : State) (j : Job) : List Nat :=
  match j.kind with
  | .store | .accumulate => [j.tile]
  | .accStats => [j.tile, j.tile + 1]
  | .beamSum => numbers j.tile (s.beam.segLen / 128 + 1)
  | .detect | .peak | .longAcc => []

/-- Owner of a tile. -/
def ownerOf (s : State) (t : Nat) : Option (Nat × Nat) := tabGet none s.clasp.owners t

/-- A job takes one tile. -/
def takeTile (j : Job) (t : Nat) (s : State) : State :=
  { s with clasp.owners := tabSet none s.clasp.owners t (some (j.frame, j.number)) }

/-- The job with the lowest number that waits for a tile (R151). -/
def firstWaiter (s : State) (t : Nat) : Option Job :=
  (s.clasp.jobs.filter (fun j => j.waitTile && (jobTiles s j).contains t)).foldl (fun (o : Option Job) j =>
    match o with
    | some k => if j.number < k.number then some j else some k
    | none => some j) none

/-- A free tile goes to the waiting job with the lowest number (R151). -/
def grantTile (s : State) (t : Nat) : State :=
  match ownerOf s t, firstWaiter s t with
  | none, some j => takeTile j t s
  | _, _ => s

/-- A job that has every tile it waited for owns them. -/
def settleOwner (s : State) (j : Job) : State :=
  if (jobTiles s j).all (fun t => ownerOf s t = some (j.frame, j.number)) then
    modJobs (isJob (j.frame, j.number)) (fun j => { j with owns := true, waitTile := false }) s
  else s

/-- Waiting jobs take the tiles that have come free, each the lowest number that waits for it (R151). -/
def grantTiles (s : State) : State :=
  let s := (List.range 128).foldl grantTile s
  (s.clasp.jobs.filter (fun j => j.waitTile)).foldl settleOwner s

/-- A job ends: its tiles and its spill plane are released (R149, R150). -/
def endJob (j : Job) (s : State) : State :=
  let id := (j.frame, j.number)
  let s := { s with
    clasp.owners := s.clasp.owners.filter (fun e => e.2 ≠ some id)
    clasp.jobs := s.clasp.jobs.filter (fun k => !isJob id k) }
  grantTiles s

/-- TILE_CLAIM (R150, R151): a correlation job claims its tile once the first row of its dump has reached the landing buffer,
a beam job at its first cycle; a tile that is owned makes it wait, and the others that it needs are its own meanwhile. -/
def execTileClaim (job : BitVec 16) (s : State) : Out := .next (
  match findJob s job.toNat (fun j => !j.owns && !j.waitTile && !(jobTiles s j).isEmpty) with
  | none => s
  | some j =>
    let id := (j.frame, j.number)
    let due := j.kind = .beamSum || (array s j.array).dumps.any (fun d => d.job = id && (!d.words.isEmpty || !d.moved.isEmpty))
    if due then grantTiles (modJobs (isJob id) (fun j => { j with waitTile := true }) s) else s)

/-! Gap records of a job (R147, R199, R200). -/

/-- Records that a job's product forms: (type, sub-index) (Table 9.3). -/
def productRecords (j : Job) : List (Nat × Nat) :=
  match j.kind with
  | .store => [(1, (j.dumps.head?.map (fun d => d.2.1)).getD 0)]
  | .accStats => [(2, 0), (2, 1)]
  | _ => [(1, 0xFFFF)]

/-- Dumps that a job's product covers, or would have covered: those it was given and has not lost, or with none left, all; of a long
accumulation those of its blocks (R147, R199). -/
def productDumps (j : Job) : List (Nat × Nat × Nat) :=
  if j.kind = .longAcc then (if j.included.isEmpty then j.dumps else j.included)
  else
    let l := j.dumps.filter (fun d => !j.lost.any (fun x => x.1 = d))
    if l.isEmpty then j.dumps else l

/-- Gap items in place of a job's product (R199). -/
def productGaps (s : State) (i : Image) (j : Job) (reason : Nat) : List Item :=
  (productRecords j).map (fun r => asGap reason (tileItem s i j r.1 r.2 (productDumps j) false))

/-- Gap items of the dumps an accumulate job has lost, whatever becomes of its product (R147). DESIGN CHOICE (log 35): one record for a
dump, with the dump as sub-index, of type VIS_STATS where the job keeps statistics; they come after the records of the product. -/
def lostGaps (s : State) (i : Image) (j : Job) : List Item :=
  if j.kind = .store then []
  else j.lost.map (fun x => asGap x.2 (tileItem s i j (if j.kind = .accStats then 2 else 1) x.1.2.1 [x.1] false))

/-- Hands a job's items on, unless its data block forms no records (R227). -/
def emitItems (j : Job) (l : List Item) (s : State) : State := if j.silent then s else l.foldl (fun s x => pushItem x s) s

/-- A correlation job. -/
def isCorr (j : Job) : Bool := !(j.kind = .beamSum || j.kind = .detect || j.kind = .peak)

/-- The correlation job whose turn it is to be read out: the lowest number of the earliest frame (R155). -/
def nextJob (s : State) : Option Job := s.clasp.jobs.find? (fun j => isCorr j && decide (j.due ≤ s.time.frame))

/-- Every dump of a job has landed or is lost. -/
def jobFull (j : Job) : Bool := decide (j.dumps.length ≤ j.included.length + j.lost.length)

/-- Reason for which a job's product becomes gap records, if it does without waiting for a readout. A void product waits for its dumps,
so that its tile is released as usual (R154). -/
def jobGap (j : Job) : Option Nat :=
  match j.gap with
  | some r => if r = 6 && !jobFull j then none else some r
  | none => if jobFull j && j.included.isEmpty && j.kind ≠ .longAcc then j.lost.head?.map (·.2) else none

/-- Ends a job whose product becomes gap records. -/
def gapJob (i : Image) (j : Job) (reason : Nat) (s : State) : State :=
  freeNoise i j (endJob j (emitItems j (productGaps s i j reason ++ lostGaps s i j) s))

/-- Gap records take their place in job order as soon as it is their turn (R155, R200). -/
def flushJobs : Nat → State → State
  | 0, s => s
  | n + 1, s =>
    match nextJob s with
    | none => s
    | some j =>
      match jobGap j, imageOf s j.block with
      | some r, some i => flushJobs n (gapJob i j r s)
      | _, _ => s

/-- Flushes as many jobs as there are. -/
def settleJobs (s : State) : State := flushJobs s.clasp.jobs.length s

/-- A job notes a dump as lost (R147). -/
def noteLoss (id : Nat × Nat) (d : Nat × Nat × Nat) (reason : Nat) (s : State) : State :=
  modJobs (fun j => isJob id j && !j.lost.any (fun x => x.1 = d)) (fun j =>
    { j with lost := j.lost ++ [(d, reason)], arrived := none, waitSpill := false }) s

/-- A job loses a dump (R147, R149, R152). -/
def loseDump (id : Nat × Nat) (d : Nat × Nat × Nat) (reason : Nat) (s : State) : State := settleJobs (noteLoss id d reason s)

/-- An uncorrectable Locket word of a tile: counted, shown, and an event (R154). -/
def locketLost (tile : Nat) (s : State) : State := raise 0x0700 44 tile [] (count .locketUe 0 (claspMark 0x80 s))

/-! Dumps that land (R143 to R149). -/

/-- Adds two lists of counts. -/
def addCounts (a b : List Nat) : List Nat := (List.range 256).map (fun k => a.getD k 0 + b.getD k 0)

/-- The job keeps a word: all of them, or with HALF on a diagonal tile those with r ≤ c (R144). -/
def keepsWord (half : Bool) (w : Nat) : Bool := !half || decide (w / 256 ≤ w % 256)

/-- Exceptions of a job with a dump's merged in (R148). -/
def mergedExc (half : Bool) (d : Dump) (exc : Tab Nat) : Tab Nat :=
  d.moved.foldl (fun t w => if w.2.2.2 ≠ 0 && keepsWord half w.1 then tabMod 0 t w.1 (· + w.2.2.2) else t) exc

/-- Writes a dump's words into the job's tiles, or adds them (R143, R145, R146). -/
def addWords (j : Job) (half : Bool) (d : Dump) (s : State) : State :=
  let first := j.included.isEmpty
  d.moved.foldl (fun s w =>
    if !keepsWord half w.1 then s
    else
      let k := j.tile * 65536 + w.1
      let old := if first then (0, 0) else tabGet (0, 0) s.clasp.words k
      let words := tabSet (0, 0) s.clasp.words k (old.1 + w.2.1, old.2 + w.2.2.1)
      let k2 := (j.tile + 1) * 65536 + w.1
      let old2 := if first then (0, 0) else tabGet (0, 0) s.clasp.words k2
      let sq := w.2.1 * w.2.1 + w.2.2.1 * w.2.2.1
      { s with clasp.words := if j.kind = .accStats then tabSet (0, 0) words k2 (old2.1 + sq, 0) else words }) s

/-- The counts of a job with a dump included (R148, R149). -/
def addDescriptor (half : Bool) (d : Dump) (j : Job) : Job :=
  { j with
    included := j.included ++ [(d.block, d.index, d.len)], lsum := j.lsum + d.len
    frow := addCounts j.frow d.frow, fcol := addCounts j.fcol d.fcol, arrived := none
    exc := if j.plane.isSome then j.exc else mergedExc half d j.exc
    plane := j.plane.map (mergedExc half d) }

/-- HALF as it acts on a job: on a diagonal tile alone (R144). -/
def halfOf (i : Image) (j : Job) : Bool := j.half && diagonal i.blocks j.corrTile

/-- Includes a dump in its job. -/
def includeDump (i : Image) (j : Job) (d : Dump) (s : State) : State :=
  let s := addWords j (halfOf i j) d s
  modJobs (isJob (j.frame, j.number)) (addDescriptor (halfOf i j) d) s

/-- A dump has landed whole: a store or accumulate job includes it; a long accumulation waits for its read-modify-write (R143 to
R149, R156). -/
def landDump (d : Dump) (s : State) : State :=
  match s.clasp.jobs.find? (isJob d.job), imageOf s d.block with
  | some j, some i =>
    if j.kind = .longAcc then modJobs (isJob d.job) (fun j => { j with arrived := some d }) s
    else settleJobs (includeDump i j d s)
  | _, _ => s

/-- A store or accumulate job needs a spill plane before it takes the words that a dump has moved so far (R149). -/
def needsPlane (s : State) (d : Dump) : Bool :=
  match s.clasp.jobs.find? (isJob d.job), imageOf s d.block with
  | some j, some i => j.kind ≠ .longAcc && j.plane.isNone && decide (4096 < (mergedExc (halfOf i j) d j.exc).length)
  | _, _ => false

/-- A job that waits for a spill plane: its landing buffer does not move (R149). -/
def waitPlane (id : Nat × Nat) (s : State) : State := modJobs (isJob id) (fun j => { j with waitSpill := true }) s

/-- Locket words found correctable, or one uncorrectable, while a dump is added (R154): the product of the tile is void, and the adds go
on. -/
def addEcc (id : Nat × Nat) (ce : Nat) (ue : Bool) (s : State) : State :=
  match s.clasp.jobs.find? (isJob id) with
  | none => s
  | some j =>
    if (j.kind ≠ .accumulate && j.kind ≠ .accStats) || j.included.isEmpty then s
    else
      let s := countN .locketCe 0 ce s
      if !ue then s
      else modJobs (isJob id) (fun j => { j with gap := some (j.gap.getD 6) }) (locketLost j.tile s)

/-- Spill planes in use. -/
def planesUsed (s : State) : Nat := (s.clasp.jobs.filter (fun j => j.plane.isSome)).length

/-- SPILL_PLANE_TAKE (R149): a waiting job takes a plane of the reserve, if one is free; its list is dropped and X goes to
the plane from then on. -/
def execSpillPlaneTake (job : BitVec 16) (s : State) : Out := .next (
  match findJob s job.toNat (fun j => j.waitSpill) with
  | none => s
  | some j =>
    if 2 * s.clasp.spillTiles ≤ planesUsed s then s
    else count .spills 0 (modJobs (isJob (j.frame, j.number)) (fun j =>
      { j with plane := some j.exc, exc := [], waitSpill := false }) s))

/-! Readout (R154, R155). -/

/-- Total of a word of a job's first tile, or of its second. -/
def tileWord (s : State) (j : Job) (k r c : Nat) : Int × Int :=
  tabGet (0, 0) s.clasp.words ((j.tile + k) * 65536 + 256 * r + c)

/-- Fused operations of a job for a value of a fine channel (R160): component 0 or 1, or power. -/
def fusedOf (s : State) (j : Job) (ch comp : Nat) : Fused :=
  let b := tabGet (0, 0) s.clasp.bias ch
  { on := j.fused, format := j.format
    scale := if j.scaleMode = 1 then j.scaleRec else if j.scaleMode = 2 then tabGet 0x3F800000 s.clasp.scale ch else 0x3F800000
    bias := if j.biasOn then (if comp = 0 then b.1 else b.2) else 0
    curve := j.curve.map (fun k => (tabGet none s.clasp.curves k).getD [(0xFF800000, 0x3F800000, 0)]) }

/-- Counts limited values and NaN results of a record (R162). -/
def countLimits (l : List (List Byte × Bool × Bool)) (s : State) : State :=
  let sat := (l.filter (fun x => x.2.1)).length
  let nan := (l.filter (fun x => x.2.2)).length
  claspMark (0x100 * bit (decide (0 < sat)) + 0x200 * bit (decide (0 < nan))) (countN .sat 0 sat (countN .nanOut 0 nan s))

/-- The values Σre and Σim of a part's words as they leave, through the fused operations where the job enables them (R160). -/
def statsValues (s : State) (i : Image) (j : Job) (words : List (Nat × Nat)) :
    List ((List Byte × Bool × Bool) × (List Byte × Bool × Bool)) :=
  let ch := i.channels.getD j.pos 0
  words.map (fun w => (fuse 4 (fusedOf s j ch 0) (tileWord s j 0 w.1 w.2).1, fuse 4 (fusedOf s j ch 1) (tileWord s j 0 w.1 w.2).2))

/-- Words of one half of the rows. -/
def partWords (half : Bool) (part : Nat) : List (Nat × Nat) := (keptWords half).filter (fun w => w.1 / 128 = part)

/-- A VIS_STATS record: one half of the rows (R146, R160, R196). -/
def statsItem (s : State) (i : Image) (j : Job) (part : Nat) : Item :=
  let half := halfOf i j
  let words := partWords half part
  let body := (words.zip (statsValues s i j words)).flatMap (fun e =>
    e.2.1.1 ++ e.2.2.1 ++ beBytes 8 (tileWord s j 1 e.1.1 e.1.2).1.toNat)
  { tileItem s i j 2 part j.included false with
    payload := beBytes 4 j.included.length ++ [0, 0, 0, 0] ++ body
    counts := countSection j (diagonal i.blocks j.corrTile) half }

/-- A finished product leaves its tile (R155, R163, R167). -/
def readProduct (i : Image) (j : Job) (s : State) : State :=
  let sub := ((productRecords j).head?.map (·.2)).getD 0
  if j.kind = .accStats then
    let values := (statsValues s i j (keptWords (halfOf i j))).flatMap (fun e => [e.1, e.2])
    emitItems j (statsItem s i j 0 :: statsItem s i j 1 :: lostGaps s i j) (countLimits values s)
  else
    let (x, s) := facetProduct i j sub false (tileWord s j 0) s
    emitItems j (x :: lostGaps s i j) s

/-- TILE_READOUT (R154, R155): the finished tile whose turn it is leaves through the output pipe, or as gap records where a
word is uncorrectable, and is released; `ce` of its words are corrected. -/
def execTileReadout (job : BitVec 16) (ce : Nat) (ue : Bool) (s : State) : Out := .next (
  match nextJob s with
  | none => s
  | some j =>
    match imageOf s j.block with
    | none => s
    | some i =>
      if j.number ≠ job.toNat || !jobFull j || j.included.isEmpty || !j.owns || j.waitSpill || j.gap.isSome then s
      else if ue then
        settleJobs (gapJob i j 6 (locketLost j.tile (countN .locketCe 0 ce s)))
      else settleJobs (freeNoise i j (endJob j (count .jobs 0 (readProduct i j (countN .locketCe 0 ce s))))))

/-! Long accumulation (R156 to R159). -/

/-- Key of a (channel position, tile). -/
def laKey (j : Job) : Nat := j.pos * 256 + j.corrTile

/-- Words of an accumulation in DRAM with a dump's added; without reading where the dump is its first (R156). -/
def laAdd (key : Nat) (first : Bool) (d : Dump) (s : State) : State :=
  d.moved.foldl (fun s w =>
    let k := key * 65536 + w.1
    let old := if first then (0, 0) else tabGet (0, 0) s.clasp.laWords k
    { s with clasp.laWords := tabSet (0, 0) s.clasp.laWords k (old.1 + w.2.1, old.2 + w.2.2.1) }) s

/-- Zeros written back at the close (R156). -/
def laClear (key : Nat) (s : State) : State :=
  { s with clasp.laWords := s.clasp.laWords.filter (fun e => e.1 / 65536 ≠ key) }

/-- The block is the last of its accumulation: as scheduled, or as a schedule switch ends it (R229). -/
def laLast (s : State) (i : Image) (j : Job) : Bool :=
  (match laRun i j with
   | some (first, n) => decide (first + n ≤ j.block + 1)
   | none => true) ||
  s.sched.seam.any (fun e => decide (j.block + 1 = e.2))

/-- Changes the accumulation of a channel and tile. -/
def setLa (key : Nat) (v : Option La) (s : State) : State := { s with clasp.las := tabSet none s.clasp.las key v }

/-- The accumulation that a job's dump belongs to: the one in progress, or a new one, which runs to the scheduled end (R156,
R158). -/
def laNow (s : State) (i : Image) (j : Job) : La :=
  let run := (laRun i j).getD (j.block, 1)
  let new : La := { first := j.block, count := run.1 + run.2 - j.block }
  match tabGet none s.clasp.las (laKey j) with
  | some l => if run.1 ≤ l.first ∧ l.first < run.1 + run.2 then l else new
  | none => new

/-- Dumps of the blocks that an accumulation would have covered up to a block: what its product's header names (R158, R199). -/
def laSpan (i : Image) (l : La) (last : Nat) : List (Nat × Nat × Nat) :=
  (numbers l.first (last + 1 - l.first)).map (fun b => (b, 0, i.len))

/-- An accumulation becomes void (R159), or loses its product to the throttle (R231); a job at its scheduled end then forms the
gap record, over the blocks that the product would have covered (R199). -/
def voidLa (i : Image) (j : Job) (reason : Nat) (s : State) : State :=
  let l := laNow s i j
  let reason := l.void.getD reason
  let s := setLa (laKey j) (some { l with void := some reason }) s
  if laLast s i j then
    let s := if reason = 0x0D then count .shedProducts 0 s else count .laVoid 0 (claspMark 0x40 s)
    settleJobs (modJobs (isJob (j.frame, j.number)) (fun j =>
      { j with gap := some reason, arrived := none, included := laSpan i l j.block }) (setLa (laKey j) none s))
  else settleJobs (endJob j s)

/-- The job of a closing accumulation with the accumulation's counts, as its product carries them. -/
def laJob (j : Job) (l : La) : Job :=
  { j with included := l.covered, lsum := l.lsum, frow := l.frow, fcol := l.fcol, exc := if j.plane.isSome then [] else l.exc
           plane := j.plane.map (fun _ => l.exc) }

/-- The bursts of an accumulation's state, 524 800 bytes (R157; where they lie is free, log 2). -/
def laBursts (s : State) (key : Nat) : List Nat :=
  burstAddrs (laBase s + Config.laPlace key % max 1 (storeBase s - laBase s)) 524800

/-- A dump's read of its accumulation's state in DRAM, burst `ue` of which is uncorrectable (R87, R157, R336, R338). -/
def laRead (key : Nat) (ue : Option Nat) (s : State) : Bool × State :=
  fetchBursts 3 ((laBursts s key).zipIdx.map (fun e => (e.1, if ue = some e.2 then [0, 1] else []))) s

/-- The banks that a dump's write of its accumulation's state reaches (R333). -/
def laTouch (key : Nat) (s : State) : State :=
  (laBursts s key).foldl (fun s a => match dramMap s a with
    | some (c, loc) => if (dramCh s c).lost then s else bankAccess c loc s
    | none => s) s

/-- LA_DUMP (R87, R156 to R159): the dump that has landed is written or added in DRAM, after what is queued before it, or closes its
accumulation at its turn: at the scheduled end, or split where the merged list would pass 64 entries. Once the accumulation is void
its dumps move nothing. -/
def execLaDump (job : BitVec 16) (complete : Bool) (ue : Option Nat) (s : State) : Out := .next (
  match findJob s job.toNat (fun j => j.kind = .longAcc && j.arrived.isSome && !j.waitSpill) with
  | none => s
  | some j =>
    let s := serveFirst 3 (fun _ => true) s
    match j.arrived, imageOf s j.block with
    | some d, some i =>
      let key := laKey j
      let l := laNow s i j
      if j.gap.isSome then modJobs (isJob (j.frame, j.number)) (fun j => { j with arrived := none }) s
      else if l.void.isSome then voidLa i j 7 s
      else if !complete then voidLa i j 7 s
      else
        let exc := mergedExc (halfOf i j) d l.exc
        let next : La := { l with covered := l.covered ++ [(d.block, d.index, d.len)], lsum := l.lsum + d.len, exc := exc
                                  frow := addCounts l.frow d.frow, fcol := addCounts l.fcol d.fcol }
        let lastDump := decide (j.dumps.length ≤ j.included.length + 1)
        let split := decide (64 < exc.length) && !(laLast s i j && lastDump)
        let closes := (laLast s i j && lastDump) || split
        if closes && !(nextJob s).any (fun k => isJob (j.frame, j.number) k) then s
        else if closes && decide (4096 < exc.length) && j.plane.isNone then
          modJobs (isJob (j.frame, j.number)) (fun j => { j with waitSpill := true }) s
        else
          let r := if l.covered.isEmpty then (false, s) else laRead key ue s
          if r.1 then voidLa i j 8 r.2
          else
            let s := laAdd key l.covered.isEmpty d (laTouch key r.2)
            let s := if closes then
                let (x, s) := facetProduct i (laJob j next) 0xFFFF split (fun r c =>
                  tabGet (0, 0) s.clasp.laWords (key * 65536 + 256 * r + c)) s
                let s := emitItems j [x] (setLa key none (laClear key s))
                if split then count .laSplit 0 (claspMark 0x20 s) else s
              else setLa key (some next) s
            let s := modJobs (isJob (j.frame, j.number)) (fun j =>
              { j with arrived := none, included := j.included ++ [(d.block, d.index, d.len)] }) s
            if !lastDump then s
            else
              let s := endJob j (count .jobs 0 s)
              settleJobs (if closes then freeNoise i j s else s)
    | _, _ => s)

/-! The guard and the tick (R149, R152, R155, R159). -/

/-- A job that no schedule can name: words of its dumps leave the landing buffer for nowhere. -/
def deadJob : Nat × Nat := (0, 65536)

/-- A dump belongs to nothing any more: its words are cleared, and rows still in the chain leave it as they would have. -/
def deadDump (d : Dump) : Dump := { d with job := deadJob, words := [] }

/-- Clears the dumps that a test picks from an array. -/
def dropDumps (p : Dump → Bool) (a : Nat) (s : State) : State :=
  let kill := fun (d : Dump) => if p d then deadDump d else d
  modArray a (fun x => { x with dumps := x.dumps.map kill, beads := x.beads.map kill }) s

/-- Dumps of a job that an array holds, oldest first. -/
def dumpsOf (s : State) (a : Nat) (id : Nat × Nat) : List Dump :=
  ((array s a).dumps ++ (array s a).beads).filter (fun d => d.job = id)

/-- A job that waited for its tiles gives back those it had taken. -/
def dropClaim (j : Job) (s : State) : State :=
  let id := (j.frame, j.number)
  grantTiles (modJobs (isJob id) (fun j => { j with waitTile := false, owns := false })
    { s with clasp.owners := s.clasp.owners.filter (fun e => e.2 ≠ some id) })

/-- At the start of the guard a job that waits for its tile loses the dumps that its array holds (R152). -/
def guardTile (s : State) (j : Job) : State :=
  let id := (j.frame, j.number)
  match dumpsOf s j.array id with
  | [] => s
  | l =>
    let s := count .tileConflict 0 (claspMark 4 (noteAbandon 2 [0] 1 s))
    let s := dropClaim j (dropDumps (fun d => d.job = id) j.array s)
    l.foldl (fun s d => loseDump id (d.block, d.index, d.len) 4 s) s

/-- At the start of the guard a job that waits for a spill plane loses the dump that needs it (R149). -/
def guardSpill (s : State) (j : Job) : State :=
  let id := (j.frame, j.number)
  let s := count .spillFail 0 (claspMark 0x10 (noteAbandon 2 [0] 1 s))
  match imageOf s j.block, dumpsOf s j.array id with
  | some i, l =>
    if j.kind = .longAcc then voidLa i j 7 s
    else match l with
      | d :: _ => loseDump id (d.block, d.index, d.len) 5 (dropDumps (fun x => x = d) j.array s)
      | [] => s
  | none, _ => s

/-- A long accumulation whose read-modify-write is not complete by the guard is void. -/
def guardLa (s : State) (j : Job) : State :=
  match imageOf s j.block with
  | some i => voidLa i j 7 (dropDumps (fun d => d.job = (j.frame, j.number)) j.array s)
  | none => s

/-- The Clasp's part of the start of the guard (R149, R152, R159). -/
def claspGuard (s : State) : State :=
  let s := (s.clasp.jobs.filter (fun j => j.waitTile && isCorr j)).foldl guardTile s
  let s := (s.clasp.jobs.filter (fun j => j.waitSpill)).foldl guardSpill s
  (s.clasp.jobs.filter (fun j => j.kind = .longAcc && decide (j.due ≤ s.time.frame) && j.gap.isNone)).foldl guardLa s

/-- Reason for which a job's product becomes gap records where the job ends as it stands: one already void or SHED stays so. -/
def endGap (j : Job) : Option Nat := if j.gap.isSome then j.gap else jobGap j

/-- At the tick that ends a frame, jobs of it that have not been read out end as gap records: READOUT_ABANDONED where a dump
stands (R155), else those of the dumps lost. -/
def endReadout (s : State) (j : Job) : State :=
  match imageOf s j.block with
  | none => endJob j s
  | some i =>
    match endGap j with
    | some r => gapJob i j r s
    | none => gapJob i j 3 (count .readoutAbandoned 0 (claspMark 2 (noteAbandon 2 [0] 1 s)))

/-! Commands. -/

/-- CLASP.CONFIG (R149, Table 7.4). -/
def specClaspConfig : Spec :=
  { opcode := 0x0700, cls := fun _ => .ready, layout := layoutBad [(0, 1)]
    range := fun _ a => firstBad [(decide (u8 a 0 ≤ 16), 0)]
    act := fun q s => { s with clasp.spillTiles := u8 q.arg 0 } }

/-- CLASP_CONFIG. -/
def execClaspConfig (q : Request) (s : State) : Out := kenra (.claspConfig q) specClaspConfig q s

/-- First channel of a table load's data, and the channel after its last (R160). -/
def tableSpan (a : List Byte) : Nat × Nat := (u16 a 26, u16 a 26 + u32 a 16 / (if u8 a 25 = 1 then 8 else 4))

/-- A load into the same table, of a channel that `a` names, is in progress (R376). -/
def tableLoading (a : List Byte) (c : Instr) : Bool :=
  match c with
  | .claspTableLoad q => decide (u8 q.arg 24 = u8 a 24) && decide ((tableSpan q.arg).1 < (tableSpan a).2) &&
      decide ((tableSpan a).1 < (tableSpan q.arg).2)
  | _ => false

/-- CLASP.TABLE.LOAD (R160, R375): data of one f32 per channel, or a pair for the bias table, from a first channel. -/
def specClaspTableLoad : Spec :=
  { opcode := 0x0701, same := fun a b => u8 a 24 = u8 b 24 && u8 a 25 = u8 b 25 && decide (u16 a 26 ≤ u16 b 26) &&
      decide (4 * (u8 b 25 + 1) * u16 b 26 + u32 b 16 ≤ 4 * (u8 a 25 + 1) * u16 a 26 + u32 a 16)
    cls := fun _ => .txn, event := true, load := true, bytes := fun a => u32 a 16
    layout := layoutBad (loadForm 0 ++ [(24, 4)])
    range := fun s a => firstBad (loadRange s [1, 2] a 0 ++ [(decide (u8 a 24 ≤ 1), 24),
      (decide (u8 a 25 ≤ 1) && (decide (u8 a 24 = 1) || decide (u8 a 25 = 0)), 25),
      (decide (u32 a 16 % (if u8 a 25 = 1 then 8 else 4) = 0), 16),
      (decide (u16 a 26 + u32 a 16 / (if u8 a 25 = 1 then 8 else 4) ≤ 65536), 26)])
    resource := fun s q => firstFail ((decide (loadsOf (tableLoading q.arg) s = []), .busy) :: loadChecks s q 0)
    act := beginLoad .claspTableLoad 0 }

/-- CLASP_TABLE_LOAD. -/
def execClaspTableLoad (q : Request) (s : State) : Out := kenra (.claspTableLoad q) specClaspTableLoad q s

/-- A binary32 of loaded data. -/
def dataF32 (l : List Byte) (k : Nat) : BitVec 32 := BitVec.ofNat 32 (u32 l (4 * k))

/-- Applies a scale or bias table (R160). A bias of one entry stands for both components. -/
def applyTable (q : Request) (data : List Byte) (s : State) : State :=
  let first := u16 q.arg 26
  let pair := decide (u8 q.arg 25 = 1)
  (List.range (data.length / (if pair then 8 else 4))).foldl (fun s k =>
    if u8 q.arg 24 = 0 then { s with clasp.scale := tabSet 0x3F800000 s.clasp.scale (first + k) (dataF32 data k) }
    else
      let v := if pair then (dataF32 data (2 * k), dataF32 data (2 * k + 1)) else (dataF32 data k, dataF32 data k)
      { s with clasp.bias := tabSet (0, 0) s.clasp.bias (first + k) v }) s

/-- A curve load of one curve is in progress (R376). -/
def curveLoading (k : Nat) (c : Instr) : Bool :=
  match c with
  | .claspCurveLoad q => u8 q.arg 24 = k
  | _ => false

/-- CLASP.CURVE.LOAD (R161). -/
def specClaspCurveLoad : Spec :=
  { opcode := 0x0702, same := fun a b => u8 a 24 = u8 b 24
    cls := fun _ => .txn, event := true, load := true, bytes := fun a => u32 a 16
    layout := layoutBad (loadForm 0 ++ [(24, 1)])
    range := fun s a => firstBad (loadRange s [1, 2] a 0 ++ [(decide (u32 a 16 = 768), 16), (decide (u8 a 24 ≤ 3), 24)])
    resource := fun s q => firstFail ((decide (loadsOf (curveLoading (u8 q.arg 24)) s = []), .busy) :: loadChecks s q 0)
    act := beginLoad .claspCurveLoad 0 }

/-- CLASP_CURVE_LOAD. -/
def execClaspCurveLoad (q : Request) (s : State) : Out := kenra (.claspCurveLoad q) specClaspCurveLoad q s

/-- Segments of a loaded curve. -/
def curveOf (data : List Byte) : List (BitVec 32 × BitVec 32 × BitVec 32) :=
  (List.range 64).map (fun k => (dataF32 data (3 * k), dataF32 data (3 * k + 1), dataF32 data (3 * k + 2)))

/-- xk[0] is −∞ and xk is strictly increasing (R161). -/
def curveOk (data : List Byte) : Bool :=
  let l := curveOf data
  (l.head?.map (·.1) = some 0xFF800000) &&
    (l.zip l.tail).all (fun p => flLt (f32Decode p.1.1) (f32Decode p.2.1))

/-- Applies a transfer curve. -/
def applyCurve (q : Request) (data : List Byte) (s : State) : State :=
  { s with clasp.curves := tabSet none s.clasp.curves (u8 q.arg 24) (some (curveOf data)) }

/-- Clasp status word (Table 7.5). -/
def claspWord (s : State) : Nat :=
  s.clasp.sticky.toNat + 8 * bit (decide (0 < planesUsed s)) +
    bit (match s.sched.running with
      | some i => i.items.any (fun x => x.kind = 4)
      | none => false)

/-- Counters of R166. -/
def claspCtrs : List Ctr :=
  [.jobs, .tileConflict, .readoutAbandoned, .spills, .spillFail, .locketCe, .locketUe, .laSplit, .laVoid, .sat, .nanOut]

/-- CLASP.STATUS (R165, R166): the counters, then each tile's owner. -/
def specClaspStatus : Spec :=
  { opcode := 0x0703, layout := statusLayout, sampled := true, range := fun _ a => firstBad [(selCount a = 0, 2)]
    result := fun s q => statusResult q.arg (fun _ => claspWord s) (fun _ =>
      claspCtrs.map (fun c => counter c 0 s) ++ (List.range 128).map (fun t => cellOfOpt ((ownerOf s t).map (·.2))))
    act := fun q s =>
      let s := if statusClear q.arg then clearCtrs claspCtrs 0 s else s
      if statusAck q.arg then { s with clasp.sticky := 0 } else s }

/-- CLASP_STATUS. -/
def execClaspStatus (q : Request) (s : State) : Out := kenra (.claspStatus q) specClaspStatus q s

end Sys2Proof.Machine
end

