-- ==== Sys2Proof/Machine/Arrays.lean ====
section
/-! DEFINITION. The Filigree arrays (chapter 05): correlation passes, the chain, landing buffers, the symmetry check, abandoned
passes, and the ARRAY commands. -/

namespace Sys2Proof.Machine

/-! Operands (R93, R96, R113). -/

/-- Sample `t` of an input in a channel and data block, as the operand fetcher finds it: staged on the direct route, or in the
channel's buffer. Where the throttle omitted the whole fill no buffer holds the channel, and its samples read as flagged: a pass
never reads another channel's (R86, R232; log 35). -/
def operandAt (s : State) (i : Image) (pos block : Nat) (buffer : Option Nat) (input t : Nat) : Smp :=
  if i.direct then directGet s i.len pos input (block * i.len + t)
  else match buffer with
    | some k => vestGet s k input t
    | none => flaggedFine

/-- Writes a sample where the operand fetcher reads it. -/
def operandSet (i : Image) (pos block : Nat) (buffer : Option Nat) (input t : Nat) (x : Smp) (s : State) : State :=
  if i.direct then directSet i.len pos input (block * i.len + t) x s
  else match buffer with
    | some k => vestSet k input t x s
    | none => s

/-- Samples in a Vestibule line of 64 bytes. -/
def lineSamples (i : Image) : Nat := if i.wide then 32 else 64

/-- Flag code of an operand at the schedule's width. -/
def operandFlag (i : Image) : Smp := flagSample i.wide

/-- Uncorrectable Vestibule lines: each is written back as flagged and counted on the array, and the event gives their
number (R113). -/
def flagLines (i : Image) (pos block : Nat) (buffer : Option Nat) (a : Nat) (lines : List VestLine) (s : State) : State :=
  if lines.isEmpty then s
  else
    let n := lineSamples i
    let s := lines.foldl (fun s l => (List.range n).foldl (fun s d =>
      operandSet i pos block buffer l.input (l.gran * n + d) (operandFlag i) s) s) s
    let s := countN .vestibuleUe a lines.length (modArray a (fun x => { x with vestUe := true }) s)
    raise 0x0602 63 lines.length [] s

/-! Beads (R94 to R97). -/

/-- Totals of one bead over an integration: Σ x · conj(y), and the samples at which both operands are flagged. -/
def beadTotals (x y : Nat → Smp) (t0 len : Nat) : Int × Int × Nat :=
  (List.range len).foldl (fun (acc : Int × Int × Nat) d =>
    let a := x (t0 + d)
    let b := y (t0 + d)
    if a.flag || b.flag then (acc.1, acc.2.1, acc.2.2 + bit (a.flag && b.flag))
    else (acc.1 + (a.re * b.re + a.im * b.im), acc.2.1 + (a.im * b.re - a.re * b.im), acc.2.2)) (0, 0, 0)

/-- Flagged samples of an input over a dump (R110). -/
def flagCount (x : Nat → Smp) (t0 len : Nat) : Nat :=
  ((List.range len).filter (fun d => (x (t0 + d)).flag)).length

/-- Granule bits of an input over a dump: of each granule, whether one or more of its samples carry the flag code (R85, R110). -/
def granuleSet (x : Nat → Smp) (t0 len : Nat) : List Bool :=
  (List.range (ceilDiv len 64)).map (fun g => (List.range 64).any (fun d => (x (t0 + 64 * g + d)).flag))

/-- Dump `j` of a pass: its totals, row 255 first, its counts and its granule sets (R101, R103, R104, R110). -/
def makeDump (s : State) (i : Image) (p : PassItem) (buffer : Option Nat) (job : Nat × Nat) (j : Nat) : Dump :=
  let t := tileBlocks i.blocks p.tile
  let len := i.len / 2 ^ p.log2J
  let at' := fun (ib r : Nat) => operandAt s i p.pos p.block buffer (256 * ib + r)
  let f := fun (ib : Nat) => (List.range 256).map (fun r => flagCount (at' ib r) (j * len) len)
  let g := fun (ib : Nat) => (List.range 256).map (fun r => granuleSet (at' ib r) (j * len) len)
  { job := job, pos := p.pos, tile := p.tile, block := p.block, index := j, len := len, frow := f t.1, fcol := f t.2
    grow := g t.1, gcol := g t.2
    last := decide (j + 1 = 2 ^ p.log2J)
    rows := (List.range 256).reverse.map (fun r => (List.range 256).map (fun c =>
      beadTotals (at' t.1 r) (at' t.2 c) (j * len) len)) }

/-! Weights (R125 to R129). -/

/-- Weight groups of a set (R125). -/
def groupsOf (s : State) (i : Image) (e : Nat) : Nat := ceilDiv i.channels.length (beamSet s e).g

/-- Entries of a whole weight map (BEAM.WEIGHT.MAP): sets, groups, input blocks. -/
def mapLen (s : State) (i : Image) : Nat := ((List.range s.beam.setCount).map (fun e => groupsOf s i e * i.blocks)).sum

/-- Place of (set, channel position, input block) in a weight map. -/
def mapIndex (s : State) (i : Image) (set pos ib : Nat) : Nat :=
  ((List.range set).map (fun e => groupsOf s i e * i.blocks)).sum + pos / (beamSet s set).g * i.blocks + ib

/-- Pool slot that the map in force for a block names (R125, R127). -/
def slotFor (s : State) (i : Image) (block set pos ib : Nat) : Nat :=
  let k := mapIndex s i set pos ib
  match (s.beam.gens.filter (fun g => decide (g.ks ≤ block))).getLast? with
  | some g => g.slots.getD k 0
  | none => Config.unmappedSlot k % max 1 s.beam.pool

/-- Weight of beam `c` for row `r` in a table (R121, *Weights*). -/
def weightAt (t : List Byte) (r c : Nat) : Int × Int :=
  (signed 8 (t.getD (2 * (r * 256 + c)) 0).toNat, signed 8 (t.getD (2 * (r * 256 + c) + 1) 0).toNat)

/-- Weight in a bead's register: zero where its pool line was uncorrectable (R129). -/
def loadedWeight (w : Weights) (r c : Nat) : Int × Int := if w.lost.contains (r, c / 32) then (0, 0) else weightAt w.bytes r c

/-- The weight load of an array: a slot's table enters the standby registers (R128). -/
def loadStandby (a slot : Nat) (s : State) : State :=
  modArray a (fun x => { x with standby := { slot := some slot, bytes := tabGet [] s.beam.tables slot } }) s

/-- The load of a segment's table is over: the lines found uncorrectable stand as zeros (R129); a table that the map in force names
only since is loaded now, in the idle time before the segment (R128; log 47). -/
def settleStandby (a slot : Nat) (bad : List WeightLine) (s : State) : State :=
  let s := if (array s a).standby.slot = some slot then s else loadStandby a slot s
  modArray a (fun x => { x with standby := { x.standby with
    lost := (bad.filter (fun l => l.slot = slot)).map (fun l => (l.row, l.beams)) } }) s

/-- The standby weights become active as the segment's first sample reaches each row (R128). -/
def activate (a : Nat) (s : State) : State := modArray a (fun x => { x with active := x.standby }) s

/-- Arrays of a mask, ascending. -/
def maskArrays (m : Nat) : List Nat := (List.range 4).filter (testBit m)

/-- Input blocks that a round gives the run's arrays, in ascending order onto ascending arrays: (array, block) (R118). -/
def roundBlocks (i : Image) (mask round : Nat) : List (Nat × Nat) :=
  let arrays := maskArrays mask
  (arrays.zipIdx.map (fun e => (e.1, arrays.length * round + e.2))).filter (fun e => decide (e.2 < i.blocks))

/-- An item occupies an array: a pass on it, or a segment whose mask names it. -/
def onArray (a : Nat) (w : Work) : Bool :=
  (w.item.kind = 1 && w.item.unit = a) || (w.item.kind = 2 && testBit w.item.unit a)

/-- While a pass, a segment or idle time precedes a segment on an array, its standby registers take that segment's table (R128). -/
def loadNext (a : Nat) (s : State) : State :=
  match s.sched.work.find? (onArray a) with
  | none => s
  | some w => match imageOf s w.block with
    | none => s
    | some i => match (roundBlocks i w.item.unit w.item.b9).find? (fun e => e.1 = a) with
      | some e => if w.item.kind = 2 then loadStandby a (slotFor s i w.block w.item.b8 w.item.chan e.2) s else s
      | none => s

/-! Passes (R102 to R105). -/

/-- The work item of a pass. -/
def isPassWork (a : Nat) (p : PassItem) (w : Work) : Bool :=
  w.item.kind = 1 && w.item.unit = a && w.item.chan = p.pos && w.item.b8 = p.tile && w.item.b9 = p.log2J &&
    w.item.h10 = p.job && w.block = p.block

/-- Id of the job that a dump reaches: the newest one of the number its schedule gives (R142, Table 16.5). -/
def dumpTarget (s : State) (i : Image) (p : SchedItem) (j : Nat) : Nat × Nat :=
  match dumpJob i p j with
  | some h => ((findJob s h.h10 (fun x => x.pos = p.chan)).map (fun x => (x.frame, x.number))).getD deadJob
  | none => deadJob

/-- Lines of 64 bytes that the operand fetcher reads of an input over a pass. -/
def passLines (i : Image) : Nat := ceilDiv i.len (lineSamples i)

/-- Runs a pass that the schedule gives, with its operands at hand: `ce` of the lines that it reads are corrected (R113). Its
integrations wait in the beads for their boundaries (R103). -/
def runPass (a : Nat) (p : PassItem) (ce : Nat) (ue : List VestLine) (i : Image) (w : Work) (buffer : Option Nat) (s : State) :
    State :=
  let t := tileBlocks i.blocks p.tile
  let reads := i.direct || buffer.isSome
  let mine := if reads then ue.filter (fun l => (l.input / 256 = t.1 || l.input / 256 = t.2) && decide (l.gran < passLines i))
    else []
  let s := flagLines i p.pos p.block buffer a mine (countN .vestibuleCe a (if reads then ce else 0) s)
  let dumps := (List.range (2 ^ p.log2J)).map (fun j => makeDump s i p buffer (dumpTarget s i w.item j) j)
  loadNext a (modArray a (fun x => { x with mode := 1, beads := dumps }) s)

/-! Beam sums in the chain (R108, R127, R130). -/

/-- The segment buffer that an item's round goes to. -/
def isBuf (pos set block m : Nat) (b : SegBuf) : Bool := b.pos = pos && b.set = set && b.block = block && b.m = m

/-- Two rounds' sums of one sample added. -/
def addRound (a b : Nat × List (Int × Int)) : Nat × List (Int × Int) :=
  (a.1 + b.1, (a.2.zip b.2).map (fun p => (p.1.1 + p.2.1, p.1.2 + p.2.2)))

/-- First dump with rows in the chain. -/
def inChain (x : ArraySt) : Option Dump := x.dumps.find? (fun d => !d.rows.isEmpty)

/-- A round runs on an array, or its sums are still in the array's chain. -/
def roundOn (a : Nat) (r : BeamRound) : Bool := testBit r.work.item.unit a

/-- An array is in a beam pass. -/
def inBeam (s : State) (a : Nat) : Bool := s.beam.behind.any (roundOn a)

/-- A round's adds read the segment buffer of earlier rounds: corrected words are counted, and an uncorrectable one makes what the buffer
holds void (R154). -/
def roundEcc (r : BeamRound) (s : State) : State :=
  let x := r.work.item
  let mine := isBuf x.chan x.b8 r.work.block x.h14
  if x.b9 = 0 || r.job = deadJob || !s.beam.bufs.any mine then s
  else
    let s := countN .locketCe 0 r.ce s
    if !r.ue then s
    else
      let tile := ((s.clasp.jobs.find? (isJob r.job)).map (fun j => j.tile)).getD 0 + x.h14 % 2 * (s.beam.segLen / 256)
      locketLost tile { s with beam.bufs := s.beam.bufs.map (fun b => if mine b then { b with void := true } else b) }

/-- A round's sums enter its segment buffer: written in round 0, added later (R130). Those of a SHED segment go nowhere (R232). -/
def writeRound (r : BeamRound) (s : State) : State :=
  let s := roundEcc r s
  let x := r.work.item
  let mine := isBuf x.chan x.b8 r.work.block x.h14
  if r.job = deadJob then s
  else if x.b9 = 0 then
    { s with beam.bufs := s.beam.bufs ++ [{ pos := x.chan, set := x.b8, block := r.work.block, m := x.h14, rounds := 1
                                            job := r.job, need := r.need, sums := r.sums, badBeams := r.badBeams }] }
  else { s with beam.bufs := s.beam.bufs.map (fun b => if mine b then
      { b with rounds := b.rounds + 1, sums := (b.sums.zip r.sums).map (fun p => addRound p.1 p.2)
               badBeams := (b.badBeams ++ r.badBeams).dedup } else b) }

/-- A generation that the newer one's blocks have passed is freed, once the last beam segment of a block before them is complete
or abandoned (R127). -/
def freeGens (s : State) : State :=
  match s.beam.gens, s.sched.running with
  | [_, g], some i =>
    let pending := g.ks ≠ 0 && (s.sched.work.any (fun w => w.item.kind = 2 && decide (w.block < g.ks)) ||
      s.beam.behind.any (fun r => decide (r.work.block < g.ks)) ||
      (List.range i.channels.length).any (fun p => laterItem s (fun y => y.kind = 2) (p, g.ks - 1)))
    if decide (g.ks ≤ blockOf s i s.time.frame) && !pending then
      { s with beam.gens := [g], beam.sticky := s.beam.sticky ||| 8 } else s
  | _, _ => s

/-- A round is over: its sums are in their buffer, and the arrays that run nothing more are idle. -/
def endRound (s : State) (r : BeamRound) : State :=
  let s := writeRound r { s with beam.behind := s.beam.behind.erase r }
  (maskArrays r.work.item.unit).foldl (fun s a => if inBeam s a then s else modArray a (fun x => { x with mode := 0 }) s) s

/-- Rounds whose arrays have no shadow row left in their chains are over: sums never overtake rows (R108). A buffer that none reads any
more is released (R86). -/
def landRounds (s : State) : State :=
  let done := s.beam.behind.filter (fun r => (maskArrays r.work.item.unit).all (fun a => (inChain (array s a)).isNone))
  if done.isEmpty then s else settleBuffers (freeGens (done.foldl endRound s))

/-- A beam pass of an array stalls: on one of its run's arrays the landing buffer cannot take a shadow row (R108, R119). -/
def beamStalls (s : State) (a : Nat) : Bool :=
  s.beam.behind.any (fun r => roundOn a r && (maskArrays r.work.item.unit).any (fun b =>
    (inChain (array s b)).isSome && decide (65536 < ((array s b).dumps.map (fun d => d.words.length)).sum + 256)))

/-- CORRELATION_PASS (R93 to R103, R110, R113): the next item of the array, once the pass before it has ended and the channel's
fill is complete, runs; its integrations wait for their boundaries. A pass whose fill the throttle omitted still runs (R231, R232);
its product is SHED. -/
def execCorrelationPass (array' : BitVec 2) (p : PassItem) (ce : Nat) (ue : List VestLine) (s : State) : Out := .next (
  let a := array'.toNat
  let s := landRounds s
  match runningImage s, takeWork (isPassWork a p) s, s.sched.work.find? (onArray a) with
  | some _, some (w, s'), some first =>
    match imageOf s p.block with
    | none => s
    | some i =>
      if first ≠ w || !(array s a).enabled || !(array s a).beads.isEmpty || inBeam s a then s
      else if i.direct then runPass a p ce ue i w none s'
      else match holding s (p.pos, p.block) with
        | some k => if fillDone s (p.pos, p.block) then runPass a p ce ue i w (some k) s' else s
        | none => if (p.pos, p.block, none) ∈ s.sched.shed then runPass a p ce ue i w none s' else s
  | _, _, _ => s)

/-! The chain and the landing buffer (R104, R106). -/

/-- Words in a landing buffer. -/
def landingWords (x : ArraySt) : Nat := (x.dumps.map (fun d => d.words.length)).sum

/-- Shifts the next row of the first dump that still has rows. -/
def shiftFirst : List Dump → List Dump
  | [] => []
  | d :: t =>
    match d.rows with
    | [] => d :: shiftFirst t
    | row :: rest =>
      let r := rest.length
      let words := row.zipIdx.map (fun e => (256 * r + e.2, e.1.1, e.1.2.1, e.1.2.2))
      { d with rows := rest, words := if d.job = deadJob then [] else d.words ++ words } :: t

/-- The landing buffer can take a row (R104). -/
def rowFits (x : ArraySt) : Bool := decide (landingWords x + 256 ≤ 65536)

/-- The bottom row of the chain moves to the landing buffer if a whole row fits; the last row of a dump completes it, and the last
of a pass completes the pass (R104, R112, R117). -/
def shiftRow (a : Nat) (s : State) : State :=
  let x := array s a
  match inChain x with
  | none => s
  | some d =>
    if !rowFits x then s
    else
      let s := modArray a (fun x => { x with dumps := shiftFirst x.dumps }) s
      if d.rows.length ≠ 1 then s
      else if d.last then count .passes a (count .dumps a s)
      else count .dumps a s

/-- The totals of the integration that has ended pass from the beads to the shadow registers; with the last of the pass the pass
ends on the array (R103). -/
def transferDump (a : Nat) (s : State) : State :=
  modArray a (fun x => { x with
    dumps := x.dumps ++ x.beads.take 1, beads := x.beads.drop 1, stalling := false
    mode := if x.beads.length ≤ 1 then 0 else x.mode }) s

/-- A cycle in which the array stalls (R105). -/
def stallCycle (a : Nat) (s : State) : State :=
  count .stallCycles a (modArray a (fun x => { x with stalling := true, stalled := true }) s)

/-- CHAIN_SHIFT (R103 to R105), one cycle of an array: `due` says that row 0 is due to transfer in it. With an empty chain the totals
transfer; else the array stalls until it is empty. A beam pass stalls while a row before its sums cannot move (R108). Meanwhile
the chain shifts, and the sums behind it follow. -/
def execChainShift (array' : BitVec 2) (due : Bool) (s : State) : Out := whenOn (fun s =>
  let a := array'.toNat
  let x := array s a
  if (due || x.stalling) && !x.beads.isEmpty then
    if (inChain x).isNone then settleBuffers (transferDump a s) else shiftRow a (stallCycle a s)
  else landRounds (shiftRow a (if beamStalls s a then
    count .stallCycles a (modArray a (fun x => { x with stalled := true }) s) else s))) s

/-- A diagonal dump that landed is its own conjugate transpose, with real autocorrelations (R99, R114). -/
def symmetric (l : List (Nat × Int × Int × Nat)) : Bool :=
  l.all (fun w =>
    let r := w.1 / 256
    let c := w.1 % 256
    match l.find? (fun y => y.1 = 256 * c + r) with
    | some y => y.2.1 = w.2.1 && y.2.2.1 = -w.2.2.1 && y.2.2.2 = w.2.2.2
    | none => false)

/-- A dump whose last word has moved on: checked if it is diagonal, then handed to its job (R114, R142). DESIGN CHOICE (log 34): one
that the check discards counts SYM_MISMATCH and not DUMP_ABANDONED, since R114 names that counter. -/
def dumpLanded (a : Nat) (d : Dump) (s : State) : State :=
  match imageOf s d.block with
  | none => s
  | some i =>
    if (array s a).checkOn && diagonal i.blocks d.tile && !symmetric d.moved then
      let s := count .symMismatch a (modArray a (fun x => { x with suspect := true }) s)
      let s := raise 0x0603 (40 + a) 1 [] s
      loseDump d.job (d.block, d.index, d.len) 0x0A s
    else landDump d s

/-- Words per cycle that the consuming job takes (Table 5.4). -/
def landingRate (s : State) (id : Nat × Nat) : Nat :=
  match s.clasp.jobs.find? (isJob id) with
  | some j => if j.kind = .longAcc then 2 else 64
  | none => 64

/-- The landing buffer does not move for a job that waits for its tile, for a spill plane, or for its last dump's
read-modify-write (R149, R150, R156). -/
def landingHeld (s : State) (a : Nat) (id : Nat × Nat) : Bool :=
  s.clasp.jobs.any (fun j => j.array = a && j.waitSpill) ||
  (match s.clasp.jobs.find? (isJob id) with
   | some j => if j.kind = .longAcc then j.arrived.isSome else !j.owns
   | none => false)

/-- LANDING_BUFFER_MOVE (R106, R141, R149, R154): in a cycle that is no turnaround cycle of its array the landing buffer moves r
words to the job, which may correct `ce` of its tile's words and find one uncorrectable; words whose exceptions call for a spill
plane stay. With a dump's last word the dump has landed. -/
def execLandingBufferMove (array' : BitVec 2) (turnaround : Bool) (ce : Nat) (ue : Bool) (s : State) : Out := whenOn (fun s =>
  let a := array'.toNat
  match (array s a).dumps.find? (fun d => !d.words.isEmpty) with
  | none => s
  | some d =>
    if turnaround || landingHeld s a d.job then s
    else
      let n := landingRate s d.job
      let moved : Dump := { d with words := d.words.drop n, moved := (d.words.take n).reverse ++ d.moved }
      if needsPlane s moved then waitPlane d.job s
      else
      let s := addEcc d.job ce ue s
      if moved.words.isEmpty && moved.rows.isEmpty then
        dumpLanded a moved (modArray a (fun x => { x with dumps := x.dumps.erase d }) s)
      else modArray a (fun x => { x with dumps := x.dumps.map (fun y => if y = d then moved else y) }) s) s

/-! Abandoned passes (R112). -/

/-- A pass that has not begun is abandoned whole: every dump is lost. -/
def abandonPass (s : State) (w : Work) : State :=
  let a := w.item.unit
  match imageOf s w.block with
  | none => s
  | some i =>
    let n := 2 ^ w.item.b9
    let s := count .passAbandoned a (countN .dumpAbandoned a n (modArray a (fun x => { x with abandoned := true }) s))
    (List.range n).foldl (fun s j => noteLoss (dumpTarget s i w.item j) (w.block, j, i.len / n) 1 s)
      (noteAbandon 1 [a] 1 s)

/-- The dumps still in an array's beads and chain at the tick are discarded, and their passes abandoned. -/
def abandonChain (s : State) (a : Nat) : State :=
  let x := array s a
  let gone := x.dumps.filter (fun d => !d.rows.isEmpty) ++ x.beads
  let passes := (gone.filter (fun d => d.last)).length
  let s := modArray a (fun x => { x with dumps := x.dumps.filter (fun d => d.rows.isEmpty), beads := []
                                         stalling := false, mode := 0
                                         abandoned := x.abandoned || decide (0 < passes) }) s
  let s := noteAbandon 1 [a] passes (countN .passAbandoned a passes (countN .dumpAbandoned a gone.length s))
  gone.foldl (fun s d => noteLoss d.job (d.block, d.index, d.len) 1 s) s

/-- The arrays at the tick that ends a frame (R112); the gap records follow in job order (R200). -/
def arraysTick (s : State) : State :=
  let left := s.sched.work.filter (fun w => w.item.kind = 1)
  let s := { s with sched.work := s.sched.work.filter (fun w => w.item.kind ≠ 1) }
  left.foldl abandonPass ((List.range 4).foldl abandonChain s)

/-- Dumps whose job has ended leave the landing buffers. -/
def clearLanding (s : State) : State :=
  (List.range 4).foldl (fun s a => modArray a (fun x => { x with
    dumps := x.dumps.filter (fun d => s.clasp.jobs.any (isJob d.job)) }) s) s

/-! Commands. -/

/-- ARRAY.CONFIG (Table 5.7): sample width and enable are transactional and READY-only cells, the symmetry check is live. An array
under test is BUSY (R376). -/
def specArrayConfig : Spec :=
  { opcode := 0x0606, same := fun a b => selCovers a b && cellsCover 8 3 a b
    layout := selCellsLayout 8 3 [] (fun _ => false)
    cls := fun a => cellsClass a 8 3 (fun i => if i = 0 then .txn else if i = 1 then .live else .ready)
    range := fun _ a => firstBad [(selOk 4 a, 0), cellRange a 8 0 0 1, cellRange a 8 1 0 1, cellRange a 8 2 0 1]
    resource := fun s q => firstFail [((selected q.arg).all (fun a => (array s a).mode ≠ 3), .busy),
      (!(cellOn q.arg 8 2 && cellVal q.arg 8 2 = 1 && (selected q.arg).any (fun a => (array s a).katFail)), .conflict)]
    act := fun q s => (selected q.arg).foldl (fun s a => modArray a (fun x => { x with
      wide := decide (cellOr q.arg 8 0 (bit x.wide) = 1), checkOn := decide (cellOr q.arg 8 1 (bit x.checkOn) = 1)
      enabled := decide (cellOr q.arg 8 2 (bit x.enabled) = 1) }) s) s }

/-- ARRAY_CONFIG. -/
def execArrayConfig (q : Request) (s : State) : Out := kenra (.arrayConfig q) specArrayConfig q s

/-- An ARRAY.TEST is owed. -/
def isArrayTest (c : Instr) : Bool :=
  match c with
  | .arrayTest _ => true
  | _ => false

/-- The ARRAY.TEST in progress that began first. -/
def testRunning (s : State) : Option (Instr × Request) := s.host.owed.find? (fun e => isArrayTest e.1)

/-- ARRAY.TEST (R115): only in READY; an array whose test has not ended is still being changed (R376). -/
def specArrayTest : Spec :=
  { opcode := 0x0607, same := fun a b => selCovers a b
    cls := fun _ => .ready, allowed := fun d => d = .ready, event := true
    layout := layoutBad selForm
    range := fun _ a => firstBad [(selOk 4 a, 0)]
    resource := fun s q => if (selected q.arg).any (fun a => (array s a).mode = 3) then some (.busy, 0) else none
    act := fun q s => (selected q.arg).foldl (fun s a => modArray a (fun x => { x with mode := 3 }) s) s }

/-- ARRAY_TEST. -/
def execArrayTest (q : Request) (s : State) : Out := kenra (.arrayTest q) specArrayTest q s

/-- ARRAY_TEST_DONE (R115): an array that fails loses ENABLED and sets KAT_FAIL, one that
passes clears KAT_FAIL and is enabled. -/
def execArrayTestDone (passed : BitVec 4) (s : State) : Out := whenOn (fun s =>
  match testRunning s with
  | none => s
  | some (c, q) =>
    let l := selected q.arg
    let s := l.foldl (fun s a =>
      let ok := testBit passed.toNat a
      modArray a (fun x => { x with katFail := !ok, enabled := ok, mode := 0 }) s) s
    let mask := (l.filter (fun a => testBit passed.toNat a)).foldl (fun m a => m + 2 ^ a) 0
    finish c 0x0607 q .ok 0 0 ([0, 0, 0] ++ [BitVec.ofNat 8 mask]) s) s

/-- Array status word (Table 5.8). -/
def arrayWord (s : State) (a : Nat) : Nat :=
  let x := array s a
  2048 * bit x.katFail + 1024 * bit x.suspect + 512 * bit x.vestUe + 256 * bit x.abandoned + 128 * bit x.stalled +
    64 * bit x.wide + 16 * x.mode.toNat + 8 * bit (inChain x).isSome + 4 * bit (decide (0 < landingWords x)) +
    2 * bit x.checkOn + bit x.enabled

/-- Counters of R117. -/
def arrayCtrs : List Ctr :=
  [.passes, .dumps, .passAbandoned, .dumpAbandoned, .stallCycles, .vestibuleCe, .vestibuleUe, .symMismatch]

/-- ARRAY.STATUS (R116, R117). -/
def specArrayStatus : Spec :=
  { opcode := 0x0608, layout := statusLayout, sampled := true, range := fun _ a => firstBad [(selOk 4 a, 0)]
    result := fun s q => statusEach q.arg (arrayWord s) (fun a => arrayCtrs.map (fun c => counter c a s))
    act := fun q s =>
      let v := fun a => arrayCtrs.map (fun c => counter c a s)
      ackShown q.arg v (fun a s => modArray a (fun x => { x with
          suspect := false, vestUe := false, abandoned := false, stalled := false }) s)
        (clearShown q.arg v (clearCtrs arrayCtrs) s) }

/-- ARRAY_STATUS. -/
def execArrayStatus (q : Request) (s : State) : Out := kenra (.arrayStatus q) specArrayStatus q s

end Sys2Proof.Machine
end

