-- ==== Sys2Proof/Machine/Beam.lean ====
section
/-! DEFINITION. Beam mode (chapter 06): weight maps, segments and their sums, readout to voltages, powers and statistics, watch
beams, abandoned segments, and the BEAM commands. -/

namespace Sys2Proof.Machine

/-- Marks bits of the beam status word (Table 6.5). -/
def beamMark (b : Nat) (s : State) : State := { s with beam.sticky := s.beam.sticky ||| BitVec.ofNat 32 b }

/-! Lines and marks (R125, R129, R231). -/

/-- A beam segment's place among a data block's SHED products (R231, R232). -/
def segKey (pos block set m : Nat) : Nat × Nat × Option Nat := (pos, block, some (set * 65536 + m))

/-- A segment is SHED. -/
def segShed (s : State) (w : Work) : Bool := s.sched.shed.contains (segKey w.item.chan w.block w.item.b8 w.item.h14)

/-- Uncorrectable weight lines are counted and mark their tables bad (R129). -/
def markWeights (bad : List WeightLine) (s : State) : State :=
  bad.foldl (fun s l => count .weightUe 0 (beamMark 0x10 { s with
    beam.bad := tabMod [] s.beam.bad l.slot (fun b => addSource b l.beams) })) s

/-- A generation in use names a slot. -/
def slotMapped (s : State) (slot : Nat) : Bool := s.beam.gens.any (fun g => g.slots.contains slot)

/-! Runs and segments (R118, R119). -/

/-- The work item of a segment round. -/
def isSegWork (x : SegItem) (w : Work) : Bool :=
  w.item.kind = 2 && w.item.unit = x.arrays.toNat && w.item.chan = x.pos && w.item.b8 = x.set && w.item.b9 = x.round &&
    w.item.h10 = x.job && w.item.h14 = x.m && w.block = x.block

/-- A beam segment item of a set reads a channel and block in a later frame. -/
def laterSegs (s : State) (set pos block : Nat) : Bool :=
  laterItem s (fun y => y.kind = 2 && y.b8 = set) (pos, block)

/-- A set's work on a channel and block is not over: segments to run, now or later, sums to read out, or SHED segments whose records are
still to come. -/
def segsLeft (s : State) (set pos block : Nat) : Bool :=
  s.sched.work.any (fun w => w.item.kind = 2 && w.item.chan = pos && w.item.b8 = set && w.block = block && !segShed s w) ||
  s.beam.behind.any (fun r => r.work.item.chan = pos && r.work.item.b8 = set && r.work.block = block && r.job ≠ deadJob) ||
  s.beam.bufs.any (fun b => b.pos = pos && b.set = set && b.block = block) ||
  s.beam.shedLater.any (fun e => e.job.pos = pos && e.set = set && e.job.block = block) || laterSegs s set pos block

/-- Sums of one round at sample `t`: X and per beam (re, im), over input blocks and the active weights of their arrays, in ascending
block (R121, R130). -/
def roundSums (s : State) (i : Image) (x : SegItem) (buffer : Option Nat) (l : List (Nat × Weights)) (t : Nat) :
    Nat × List (Int × Int) :=
  let at' := fun (ib r : Nat) => operandAt s i x.pos x.block buffer (256 * ib + r) t
  let xs := (l.map (fun e => flagCount (fun r => at' e.1 r) 0 256)).sum
  let beam := fun (c : Nat) => l.foldl (fun (acc : Int × Int) e => (List.range 256).foldl (fun (acc : Int × Int) r =>
    let a := at' e.1 r
    let w := loadedWeight e.2 r c
    if a.flag then acc else (acc.1 + (w.1 * a.re - w.2 * a.im), acc.2 + (w.1 * a.im + w.2 * a.re))) acc) (0, 0)
  (xs, (List.range (beamSet s x.set).beams).map beam)

/-- A buffer's last round has been written (R132). -/
def bufDone (b : SegBuf) : Bool := decide (b.need ≤ b.rounds)

/-- First block of a watch list that covers a block: that of its search interval, or the newest at which the start or a switch has cut
it (R136, R227, R229). -/
def watchKey (s : State) (block : Nat) : Nat :=
  (s.sched.cuts.filter (fun k => decide (k ≤ block))).foldl max (block / s.beam.searchBlocks * s.beam.searchBlocks)

/-- A sibling of a run's job: the job item of a kind in the same entry and channel, or the run's own (log 35). -/
def sibling (s : State) (i : Image) (j : Job) (k : Nat) : Job :=
  match i.items.find? (fun x => x.kind = 4 && x.b8 = k && x.entry = entryAt s i j.frame && x.chan = j.pos) with
  | some x => jobBase i j.frame x j.block 0
  | none => j

/-- Watches on beams of a set. -/
def watchesOf (s : State) (set : Nat) : List Nat :=
  (List.range 16).filter (fun k => match (watch s k).beam with
    | some b => b / 256 = set
    | none => false)

/-- Changes a watch's list for a block, beginning it if need be. -/
def modPeaks (k block ostream : Nat) (f : PeakList → PeakList) (s : State) : State :=
  let key := watchKey s block
  let new : PeakList := { ostream := ostream, silent := decide (block < s.sched.firstBlock) }
  { s with beam.watches := tabMod {} s.beam.watches k (fun w =>
      { w with lists := tabSet none w.lists key (some (f ((tabGet none w.lists key).getD new))) }) }

/-- Loads the weights of a round into its arrays and makes them active; a corrected pool line is counted, and an uncorrectable one
loads zeros and marks its table bad (R125, R128, R129). -/
def loadRound (i : Image) (x : SegItem) (wce : Nat) (badW : List WeightLine) (s : State) : State :=
  let slots := (roundBlocks i x.arrays.toNat x.round).map (fun e => (e.1, slotFor s i x.block x.set x.pos e.2))
  let lines := badW.filter (fun l => slots.any (fun p => p.2 = l.slot))
  let s := markWeights lines (countN .weightCe 0 wce s)
  slots.foldl (fun s e => activate e.1 (settleStandby e.1 e.2 lines s)) s

/-- The operand fetcher reads a round's lines: those corrected are counted on their arrays, those uncorrectable flagged (R113). -/
def fetchRound (i : Image) (x : SegItem) (buffer : Option Nat) (ce : List (BitVec 2)) (ue : List VestLine) (s : State) : State :=
  if !i.direct && buffer.isNone then s
  else (roundBlocks i x.arrays.toNat x.round).foldl (fun s e =>
    flagLines i x.pos x.block buffer e.1 (ue.filter (fun l => l.input / 256 = e.2))
      (countN .vestibuleCe e.1 (ce.filter (fun a => a.toNat = e.1)).length s)) s

/-- Groups of 32 beams of a set whose table is bad among the tables of a round (R129). -/
def badGroups (s : State) (set : Nat) (l : List Weights) : List Nat :=
  ((l.flatMap (fun v => match v.slot with
    | some k => tabGet [] s.beam.bad k
    | none => [])).filter (fun g => decide (32 * g < (beamSet s set).beams))).dedup

/-- Runs one round of a segment (R118, R121, R128 to R130): its sums follow the shadow rows down the chains, and arrays that the last
round gives no block are idle. A SHED segment's sums go nowhere (R232). -/
def runSegment (x : SegItem) (ce : List (BitVec 2)) (ue : List VestLine) (ecc : SegEcc) (i : Image) (j : Job) (w : Work)
    (buffer : Option Nat) (s : State) : State :=
  let s := loadRound i x ecc.wce ecc.badWeights (fetchRound i x buffer ce ue s)
  let on := roundBlocks i x.arrays.toNat x.round
  let blocks := on.map (fun e => (e.2, (array s e.1).active))
  let n := s.beam.segLen
  let round : BeamRound :=
    { work := w, job := if segShed s w then deadJob else (j.frame, j.number)
      need := ceilDiv i.blocks (max 1 (maskArrays x.arrays.toNat).length)
      sums := (List.range n).map (fun t => roundSums s i x buffer blocks (x.m * n + t))
      badBeams := badGroups s x.set (blocks.map (·.2)), ce := ecc.addCe, ue := ecc.addUe }
  let s := on.foldl (fun s e => loadNext e.1 (modArray e.1 (fun y => { y with mode := 2 }) s))
    { s with beam.behind := s.beam.behind ++ [round], beam.begunBlock := some (max x.block (s.beam.begunBlock.getD 0)) }
  (watchesOf s x.set).foldl (fun s k => modPeaks k x.block (sibling s i j 5).ostream id s) s

/-- The job that a segment's run names. -/
def segJob (s : State) (i : Image) (w : Work) : Option Job :=
  match jobItem i w.item.entry w.item.chan w.item.h10 with
  | some h => findJob s h.h10 (fun j => j.pos = w.item.chan && !isCorr j)
  | none => none

/-- BEAM_SEGMENT (R108, R118 to R123, R128 to R131): the next item of every array of the run, once what ran on them has ended, the
channel's fill is complete and the run owns its tiles. A SHED segment's items still run (R232). -/
def execBeamSegment (x : SegItem) (ce : List (BitVec 2)) (ue : List VestLine) (ecc : SegEcc) (s : State) : Out := .next (
  let arrays := maskArrays x.arrays.toNat
  let s := landRounds s
  match runningImage s, takeWork (isSegWork x) s, imageOf s x.block with
  | some _, some (w, s'), some i =>
    if !arrays.all (fun a => (array s a).enabled && (array s a).beads.isEmpty && !inBeam s a &&
        decide (s.sched.work.find? (onArray a) = some w)) then s
    else match segJob s i w with
      | none => s
      | some j =>
        if !j.owns && !(jobTiles s j).isEmpty && !segShed s w then s
        else if i.direct then runSegment x ce ue ecc i j w none s'
        else match holding s (x.pos, x.block) with
          | some k => if fillDone s (x.pos, x.block) then runSegment x ce ue ecc i j w (some k) s' else s
          | none => if (x.pos, x.block, none) ∈ s.sched.shed then runSegment x ce ue ecc i j w none s' else s
  | _, _, _ => s)

/-! Output (R133 to R136). -/

/-- Valid input count of a sample (R132). -/
def validInputs (i : Image) (x : Nat × List (Int × Int)) : Nat := 256 * i.blocks - x.1

/-- Least valid input count of a set (R133). -/
def nMin (s : State) (i : Image) (set : Nat) : Nat := (beamSet s set).nmin.getD (128 * i.blocks)

/-- A beam sample is flagged (R133). -/
def beamFlag (s : State) (i : Image) (set : Nat) (x : Nat × List (Int × Int)) : Bool := decide (validInputs i x < nMin s i set)

/-- One component of a voltage: int8, limited to ±127, −128 where flagged (R134, R162). -/
def voltByte (s : State) (j : Job) (ch comp : Nat) (flag : Bool) (v : Int) : List Byte × Bool × Bool :=
  if flag then ([0x80], false, false)
  else if j.fused then
    let c := toFormat 3 (fusedValue (fusedOf s j ch comp) v)
    ([BitVec.ofNat 8 c.1], c.2.1, c.2.2)
  else
    let w := clampInt (-127) 127 v
    (leInt 1 w, decide (w ≠ v), false)

/-- An item of a beam product over segments `m` to `m + k - 1`, or a whole block or interval: type, stream, samples covered,
channels, beams, sub-index and flags. -/
def beamItem (s : State) (i : Image) (ostream rtype u0 u1 firstCh chCount firstObj objCount sub flags : Nat) : Item :=
  let f := frameSpan s i u0 u1
  { ostream := ostream, rtype := rtype, gap := none, frame := f.1, span := f.2, firstCh := firstCh, chCount := chCount
    firstObj := firstObj, objCount := objCount, sub := sub, flags := BitVec.ofNat 16 (flags + 128 * bit i.wide)
    expOff := 0, autoOff := 0, payload := [], counts := [] }

/-- Hands a beam item on, unless its data block forms no records (R227). -/
def emitBeam (block : Nat) (x : Item) (s : State) : State := if block < s.sched.firstBlock then s else pushItem x s

/-- First beams of a segment's voltage records (Table 9.3). -/
def voltChunks (s : State) (set : Nat) : List Nat :=
  let n := max 1 (2 ^ 18 / max 1 s.beam.segLen)
  (List.range (ceilDiv (beamSet s set).beams n)).map (· * n)

/-- The voltage item of a segment from beam `c0` on, without its payload. -/
def voltItem (s : State) (i : Image) (j : Job) (set m c0 : Nat) : Item :=
  let n := 2 ^ 18 / max 1 s.beam.segLen
  let u := j.block * i.len + m * s.beam.segLen
  beamItem s i j.ostream 3 u (u + s.beam.segLen - 1) (i.channels.getD j.pos 0) 1 (256 * set + c0)
    (min n ((beamSet s set).beams - c0)) m (256 * 3)

/-- Voltage records of a segment (R134, R196); one that covers a beam of a bad table is a gap record (R129). -/
def emitVoltage (i : Image) (j : Job) (b : SegBuf) (s : State) : State :=
  (voltChunks s b.set).foldl (fun s c0 =>
    let x := voltItem s i j b.set b.m c0
    let ch := x.firstCh
    if b.badBeams.any (fun g => decide (c0 < 32 * g + 32) && decide (32 * g < c0 + x.objCount)) then
      emitBeam b.block (asGap 9 x) s
    else
      let values := (numbers c0 x.objCount).flatMap (fun c => b.sums.flatMap (fun y =>
        let f := beamFlag s i b.set y
        let v := y.2.getD c (0, 0)
        [voltByte s j ch 0 f v.1, voltByte s j ch 1 f v.2]))
      let table := (List.range (s.beam.segLen / 64)).flatMap (fun g =>
        let l := ((b.sums.drop (64 * g)).take 64).filter (fun y => !beamFlag s i b.set y)
        beBytes 2 (l.foldl (fun m y => min m (validInputs i y)) 0xFFFF))
      emitBeam b.block { x with payload := values.flatMap (·.1) ++ table } (countLimits values s)) s

/-- Powers of samples `t0` to `t0 + n - 1` of a buffer: per beam P, and n_p (R134). -/
def windowPowers (s : State) (i : Image) (b : SegBuf) (t0 n : Nat) : List Nat × Nat :=
  let l := ((b.sums.drop t0).take n).filter (fun y => !beamFlag s i b.set y)
  ((List.range (beamSet s b.set).beams).map (fun c =>
    (l.map (fun y => let v := y.2.getD c (0, 0); (v.1 * v.1 + v.2 * v.2).toNat)).sum), l.length)

/-- The power item of a set over samples `u0` to `u1`, without its payload (Table 9.3). -/
def powerItem (s : State) (i : Image) (j : Job) (set u0 u1 sub : Nat) : Item :=
  beamItem s i j.ostream 4 u0 u1 (i.channels.getD j.pos 0) 1 (256 * set) (beamSet s set).beams sub
    (if j.fused then 256 * j.format else 0)

/-- A power record of windows (R134, R196). -/
def emitPower (j : Job) (block : Nat) (bad : Bool) (x : Item) (l : List (List Nat × Nat)) (s : State) : State :=
  if bad then emitBeam block (asGap 9 x) s
  else
    let f := fusedOf s j x.firstCh 0
    let values := l.flatMap (fun w => w.1.map (fun p => fuse 8 f p))
    emitBeam block { x with payload := values.flatMap (·.1) ++ l.flatMap (fun w => beBytes 4 w.2) } (countLimits values s)

/-- `a` ranks before `b` (R136). -/
def ranksBefore (a b : Peak) : Bool :=
  decide (b.p < a.p) || (a.p = b.p && (decide (a.u < b.u) || (a.u = b.u && decide (a.ch < b.ch))))

/-- Inserts a candidate into the best 8 (R136). -/
def insertPeak (x : Peak) (l : List Peak) : List Peak :=
  (l.filter (fun y => ranksBefore y x) ++ x :: l.filter (fun y => !ranksBefore y x)).take 8

/-- A power window of a set reaches the watch beams (R136). A beam whose table is bad has its list replaced (R129): every output of
the beams in the groups `bad` is. -/
def watchPower (set block ostream ch u nint : Nat) (bad : List Nat) (w : List Nat × Nat) (s : State) : State :=
  (watchesOf s set).foldl (fun s k =>
    match (watch s k).beam with
    | none => s
    | some b =>
      if bad.contains (b % 256 / 32) then modPeaks k block ostream (fun x => { x with gap := some (x.gap.getD 9) }) s
      else if w.2 = nint then modPeaks k block ostream (fun x =>
        { x with ranked := x.ranked + 1, list := insertPeak { p := w.1.getD (b % 256) 0, u := u, ch := ch } x.list }) s
      else count .peakExcluded 0 s) s

/-- Key of a power window longer than a segment. -/
def partialKey (b : SegBuf) (w : Nat) : Nat := ((b.block * 4 + b.set) * 65536 + b.pos) * 65536 + w

/-- Reasons for which the whole of a product goes: SHED and STOPPED (R201, R231). -/
def wholeGap (reason : Nat) : Bool := reason = 0x0D || reason = 0x0E

/-- Ends a segment's part in a power window that spans several, if it is the window's last (R134). -/
def closeWindow (i : Image) (j : Job) (b : SegBuf) (s : State) : State :=
  let n := s.beam.segLen
  let nint := (beamSet s b.set).nint
  let per := nint / max 1 n
  let key := partialKey b (b.m / max 1 per)
  if (b.m + 1) % max 1 per ≠ 0 then s
  else
    let p := tabGet {} s.beam.partials key
    let s := { s with beam.partials := tabErase s.beam.partials key }
    let d := sibling s i j 4
    let m0 := b.m + 1 - per
    let u0 := b.block * i.len + m0 * n
    let x := powerItem s i d b.set u0 (u0 + nint - 1) m0
    match p.gap with
    | some r =>
      let s := emitBeam b.block (asGap r x) s
      if wholeGap r then s
      else (watchesOf s b.set).foldl (fun s k => modPeaks k b.block (sibling s i j 5).ostream (fun y =>
        { y with lost := y.lost + 1 }) s) s
    | none =>
      let s := emitPower d b.block (!p.bad.isEmpty) x [(p.powers, p.np)] s
      watchPower b.set b.block (sibling s i j 5).ostream x.firstCh u0 nint p.bad (p.powers, p.np) s

/-- Power records of a segment (R134). -/
def readPower (i : Image) (j : Job) (b : SegBuf) (s : State) : State :=
  let n := s.beam.segLen
  let nint := max 1 (beamSet s b.set).nint
  let u0 := b.block * i.len + b.m * n
  if nint ≤ n then
    let d := sibling s i j 4
    let x := powerItem s i d b.set u0 (u0 + n - 1) b.m
    let l := (List.range (n / nint)).map (fun w => windowPowers s i b (w * nint) nint)
    let s := emitPower d b.block (!b.badBeams.isEmpty) x l s
    l.zipIdx.foldl (fun s e => watchPower b.set b.block (sibling s i j 5).ostream x.firstCh (u0 + e.2 * nint) nint b.badBeams e.1
      s) s
  else
    let w := windowPowers s i b 0 n
    let key := partialKey b (b.m / (nint / max 1 n))
    let s := { s with beam.partials := tabMod {} s.beam.partials key (fun p =>
      { p with powers := (List.range w.1.length).map (fun c => p.powers.getD c 0 + w.1.getD c 0), np := p.np + w.2
               bad := (p.bad ++ b.badBeams).dedup }) }
    closeWindow i j b s

/-- Key of a set's statistics in a channel and block. -/
def statKey (set pos block : Nat) : Nat := (block * 4 + set) * 65536 + pos

/-- A segment's samples enter the statistics (R135). -/
def addStats (i : Image) (b : SegBuf) (s : State) : State :=
  let l := b.sums.filter (fun y => !beamFlag s i b.set y)
  let n := (beamSet s b.set).beams
  { s with beam.stats := tabMod {} s.beam.stats (statKey b.set b.pos b.block) (fun x =>
      { x with
        segs := x.segs + 1, gap := if b.badBeams.isEmpty then x.gap else some (x.gap.getD 9)
        beams := (List.range n).map (fun c =>
          l.foldl (fun (t : BeamStat) y =>
            let v := y.2.getD c (0, 0)
            { n := t.n + 1, sre := t.sre + v.1, sim := t.sim + v.2, sq := t.sq + (v.1 * v.1 + v.2 * v.2).toNat })
            (x.beams.getD c {})) }) }

/-- The statistics item of a set in a channel and block, without its payload. -/
def statItem (s : State) (i : Image) (j : Job) (set block : Nat) : Item :=
  beamItem s i (sibling s i j 4).ostream 5 (block * i.len) (block * i.len + i.len - 1) (i.channels.getD j.pos 0) 1
    (256 * set) (beamSet s set).beams 0 0

/-- A gap record in place of a set's statistics; what has been summed goes. -/
def gapStats (i : Image) (j : Job) (set block reason : Nat) (s : State) : State :=
  emitBeam block (asGap reason (statItem s i j set block))
    { s with beam.stats := tabErase s.beam.stats (statKey set j.pos block) }

/-- The statistics record of a set's work on a channel and block, once it is over (R135, R196). -/
def closeStats (i : Image) (j : Job) (set block : Nat) (s : State) : State :=
  if segsLeft s set j.pos block then s
  else
    let key := statKey set j.pos block
    let x := tabGet {} s.beam.stats key
    match x.gap with
    | some r => gapStats i j set block r s
    | none =>
      let s := { s with beam.stats := tabErase s.beam.stats key }
      emitBeam block { statItem s i j set block with payload := (List.range (beamSet s set).beams).flatMap (fun c =>
        let t := x.beams.getD c {}
        beBytes 8 t.n ++ (leInt 8 t.sre).reverse ++ (leInt 8 t.sim).reverse ++ beBytes 12 t.sq ++ beBytes 4 x.segs) } s

/-- A run whose last segment has been read out or abandoned releases its tiles (R131). Its jobs have completed if a segment of it was
read out (R166). -/
def endRun (j : Job) (s : State) : State :=
  let id := (j.frame, j.number)
  let busy := s.beam.bufs.any (fun b => b.job = id) || s.beam.behind.any (fun r => r.job = id) ||
    s.sched.work.any (fun w => w.item.kind = 2 && w.item.chan = j.pos && w.item.h10 = j.number)
  if decide (s.time.frame < j.due) || busy then s
  else endJob j (if j.included.isEmpty then s else count .jobs 0 s)

/-- The beam jobs of a run and its block have taken a segment. -/
def includeSegment (j : Job) (b : SegBuf) (s : State) : State :=
  modJobs (fun k => !isCorr k && k.pos = j.pos && k.frame = j.frame && k.block = j.block)
    (fun k => { k with included := k.included ++ [(b.block, b.m, s.beam.segLen)] }) s

/-- A segment's sums leave for the outputs (R132 to R136). -/
def readSegment (i : Image) (j : Job) (b : SegBuf) (s : State) : State :=
  let s := includeSegment j b { s with beam.bufs := s.beam.bufs.erase b }
  let s := countN .beamFlagged 0 (b.sums.filter (fun y => beamFlag s i b.set y)).length s
  let s := if (beamSet s b.set).power then readPower i j b s else emitVoltage i j b s
  let s := closeStats i j b.set b.block (addStats i b s)
  match s.clasp.jobs.find? (isJob b.job) with
  | some k => endRun k s
  | none => s

/-- What a lost segment would have formed, its statistics apart, becomes gap records of a reason; its sums are discarded. DESIGN CHOICE
(log 47): the power values of one that an uncorrectable Locket word voids count as lost in the peak lists, as R137 has it of an
abandoned one. -/
def loseProducts (i : Image) (j : Job) (set m reason : Nat) (s : State) : State :=
  let n := s.beam.segLen
  let nint := max 1 (beamSet s set).nint
  let b : SegBuf := { pos := j.pos, set := set, block := j.block, m := m, job := (j.frame, j.number), need := 0 }
  let u0 := j.block * i.len + m * n
  let s := { s with beam.bufs := s.beam.bufs.filter (fun y => !isBuf j.pos set j.block m y) }
  let marks := fun (values : Nat) (s : State) => (watchesOf s set).foldl (fun s k =>
    modPeaks k j.block (sibling s i j 5).ostream (fun y => if wholeGap reason then { y with gap := some (y.gap.getD reason) }
      else { y with lost := y.lost + values }) s) s
  if !(beamSet s set).power then
    (voltChunks s set).foldl (fun s c0 => emitBeam j.block (asGap reason (voltItem s i j set m c0)) s) s
  else if nint ≤ n then
    marks (n / nint) (emitBeam j.block (asGap reason (powerItem s i (sibling s i j 4) set u0 (u0 + n - 1) m)) s)
  else
    let partials := tabMod {} s.beam.partials (partialKey b (m / (nint / max 1 n))) (fun p =>
      { p with gap := some (p.gap.getD reason) })
    closeWindow i j b (marks 0 { s with beam.partials := partials })

/-- What a segment's loss for a gap reason changes but the close of its statistics. -/
def loseSums (i : Image) (j : Job) (set m reason : Nat) (s : State) : State :=
  let s := loseProducts i j set m reason s
  { s with beam.stats := tabMod {} s.beam.stats (statKey set j.pos j.block) (fun x =>
      if wholeGap reason then { x with gap := some (x.gap.getD reason) } else x) }

/-- A segment that is lost, for a gap reason: its run's job with the segment's data block, its set and number. -/
structure LostSeg where
  img : Image
  job : Job
  set : Nat
  m : Nat
  reason : Nat
deriving DecidableEq, Repr

/-- Segments that form one set of statistics. -/
def sameStats (a b : LostSeg) : Bool := a.set = b.set && a.job.pos = b.job.pos && a.job.block = b.job.block

/-- Segments are lost together: every product's statistics then close once (R135). -/
def loseSegments (l : List LostSeg) (s : State) : State :=
  let s := l.foldl (fun s e => loseSums e.img e.job e.set e.m e.reason s) s
  (l.foldl (fun acc e => if acc.any (sameStats e) then acc else acc ++ [e]) []).foldl
    (fun s e => closeStats e.img e.job e.set e.job.block s) s

/-- A segment's products are void (R154; log 47 for what they are). -/
def voidSegment (i : Image) (j : Job) (b : SegBuf) (s : State) : State :=
  endRun j (loseSegments [{ img := i, job := j, set := b.set, m := b.m, reason := 6 }] s)

/-- The run's tile of partials holds sums of a segment's window or statistics that earlier segments have put there. -/
def partialsHeld (s : State) (b : SegBuf) : Bool :=
  decide (0 < (tabGet {} s.beam.stats (statKey b.set b.pos b.block)).segs)

/-- An uncorrectable word of the run's tile of partials, met as a segment is added there: the window of powers that it holds and the
statistics are void (R131, R154; log 47). -/
def voidPartials (j : Job) (b : SegBuf) (s : State) : State :=
  let n := max 1 s.beam.segLen
  let nint := (beamSet s b.set).nint
  let s := locketLost (j.tile + s.beam.segLen / 128) s
  let s := { s with beam.stats := tabMod {} s.beam.stats (statKey b.set b.pos b.block) (fun x => { x with gap := some (x.gap.getD 6) }) }
  if !(beamSet s b.set).power || nint ≤ n then s
  else { s with beam.partials := tabMod {} s.beam.partials (partialKey b (b.m / (nint / n))) (fun p =>
    { p with gap := some (p.gap.getD 6) }) }

/-! SHED segments (R201, R231). -/

/-- A segment of the frame has not left for the outputs: (position, block, set, segment). -/
def segPending (s : State) (x : Nat × Nat × Nat × Nat) : Bool :=
  let is := fun (w : Work) => (w.item.chan, w.block, w.item.b8, w.item.h14) = x
  s.sched.work.any (fun w => w.item.kind = 2 && is w) || s.beam.behind.any (fun r => is r.work) ||
    s.beam.bufs.any (fun b => decide ((b.pos, b.block, b.set, b.m) = x))

/-- A SHED segment as one that is lost. -/
def shedLost (s : State) (e : ShedSeg) : Option LostSeg :=
  (imageOf s e.job.block).map (fun i => { img := i, job := e.job, set := e.set, m := e.m, reason := 0x0D })

/-- The gap records of SHED segments leave once those of the frame that the committed schedule has before them have left (R201). -/
def settleShed : List ShedSeg → State → State
  | [], s => s
  | e :: l, s =>
    if e.before.any (segPending s) then s
    else settleShed l (loseSegments (shedLost s e).toList { s with beam.shedLater := s.beam.shedLater.drop 1 })

/-- SEGMENT_READOUT (R132, R154): the oldest complete segment is read out; `ce` of its words are corrected, or one is
uncorrectable, or `partialUe` one of the run's tile of partials to which it is added. -/
def execSegmentReadout (set : BitVec 2) (pos m ce : Nat) (ue partialUe : Bool) (s : State) : Out := .next (
  let s := landRounds s
  match s.beam.bufs.find? bufDone with
  | none => s
  | some b =>
    if b.set ≠ set.toNat ∨ b.pos ≠ pos ∨ b.m ≠ m then s
    else match imageOf s b.block, s.clasp.jobs.find? (isJob b.job) with
      | some i, some j =>
        let j := { j with block := b.block }
        let s := countN .locketCe 0 ce s
        let s := if b.void || ue then
            voidSegment i j b (if ue then locketLost (j.tile + b.m % 2 * (s.beam.segLen / 256)) s else s)
          else readSegment i j b (if partialUe && partialsHeld s b then voidPartials j b s else s)
        settleShed s.beam.shedLater s
      | _, _ => s)

/-! Peak lists (R136, R137). -/

/-- Blocks of a watch list: the first, and one past the last (R136, R229). -/
def watchSpan (s : State) (key : Nat) : Nat × Nat :=
  let n := s.beam.searchBlocks
  (key, (s.sched.cuts.filter (fun k => decide (key < k))).foldl min ((key / n + 1) * n))

/-- An interval's last block is over for a set: no segment of it is to run, in the chains or to be read out (R137). -/
def intervalDone (s : State) (i : Image) (set key : Nat) : Bool :=
  let e := (watchSpan s key).2
  decide (e ≤ blockOf s i s.time.frame) &&
  !s.sched.work.any (fun w => w.item.kind = 2 && w.item.b8 = set && decide (w.block < e)) &&
  !s.beam.behind.any (fun r => r.work.item.b8 = set && decide (r.work.block < e)) &&
  !s.beam.bufs.any (fun b => b.set = set && decide (b.block < e)) &&
  !s.beam.shedLater.any (fun x => x.set = set && decide (x.job.block < e)) &&
  !(numbers (e - 4) 4).any (fun k => decide (k < e) &&
    (List.range i.channels.length).any (fun p => laterSegs s set p k))

/-- First fine channel that a set forms (Table 9.1). -/
def firstFormed (i : Image) (set : Nat) : Nat :=
  let l := (i.items.filter (fun x => x.kind = 2 && x.b8 = set)).map (·.chan)
  match l with
  | [] => 0
  | p :: t => i.channels.getD (t.foldl min p) 0

/-- Emits a peak list (R137, R196): whole, or a gap record. -/
def emitPeaks (i : Image) (k b key : Nat) (x : PeakList) (s : State) : State :=
  let span := watchSpan s key
  let it := beamItem s i x.ostream 6 (span.1 * i.len) (span.2 * i.len - 1) (firstFormed i (b / 256)) 0 b 1 0
    (16 * bit (decide (0 < x.lost)))
  let entry := fun (p : Peak) => beBytes 8 p.p ++ beBytes 8 p.u ++ beBytes 2 p.ch ++ List.replicate 6 0
  let none' : Peak := { p := 0, u := 0, ch := 0xFFFF }
  let body := beBytes 4 x.lost ++ beBytes 4 x.ranked ++ (List.range 8).flatMap (fun r => entry (x.list.getD r none'))
  let s := { s with beam.watches := tabMod {} s.beam.watches k (fun w => { w with lists := tabErase w.lists key }) }
  let s := if 0 < x.lost then beamMark 0x80 s else s
  if x.silent then s
  else match x.gap with
    | some r => pushItem (asGap r it) s
    | none => pushItem { it with payload := body } s

/-- PEAK_LIST_EMIT (R137): the watch's oldest list, once its interval is over. -/
def execPeakListEmit (watchNo : BitVec 4) (s : State) : Out := .next (
  let k := watchNo.toNat
  let s := landRounds s
  match runningImage s, (watch s k).beam, (watch s k).lists with
  | some i, some b, (key, some x) :: _ => if intervalDone s i (b / 256) key then emitPeaks i k b key x s else s
  | _, _, _ => s)

/-! Lost segments (R138, R231). -/

/-- The first work item of each segment. -/
def segHeads (l : List Work) : List Work :=
  l.foldl (fun acc w => if acc.any (fun v => v.item.chan = w.item.chan && v.item.b8 = w.item.b8 && v.item.h14 = w.item.h14 &&
    v.block = w.block) then acc else acc ++ [w]) []

/-- Segments of work items, lost for a reason; those already SHED are none. -/
def segsOf (s : State) (l : List Work) (reason : Nat) : List LostSeg :=
  ((segHeads l).filter (fun w => !segShed s w)).filterMap (fun w =>
    match imageOf s w.block with
    | none => none
    | some i => (segJob s i w).map (fun j =>
        { img := i, job := { j with block := w.block }, set := w.item.b8, m := w.item.h14, reason := reason }))

/-- Segments that are abandoned are counted (R138). -/
def countAbandoned (l : List Work) (s : State) : State :=
  let n := (segHeads l).length
  if n = 0 then s
  else
    countN .beamSegAbandoned 0 n (beamMark 0x40 (noteAbandon 1 ((segHeads l).flatMap (fun w => maskArrays w.item.unit)).dedup n s))

/-- Segments of the running frame are abandoned (R138). -/
def abandonSegments (l : List Work) (s : State) : State := loseSegments (segsOf s l 2) (countAbandoned l s)

/-- Complete segments whose readout is not over at the tick: lost as abandoned readouts, or void as they stand (R13, R154, R155). -/
def lateReadouts (s : State) : List LostSeg :=
  (s.beam.bufs.filter bufDone).filterMap (fun b =>
    match imageOf s b.block, s.clasp.jobs.find? (isJob b.job) with
    | some i, some j => some { img := i, job := { j with block := b.block }, set := b.set, m := b.m, reason := if b.void then 6 else 3 }
    | _, _ => none)

/-- Job order, and within a run that of its segments (R200). -/
def lostBefore (a b : LostSeg) : Bool :=
  decide (a.job.due < b.job.due) || (a.job.due = b.job.due && (decide (a.job.number < b.job.number) ||
    (a.job.number = b.job.number && (decide (a.job.block < b.job.block) || (a.job.block = b.job.block && decide (a.m ≤ b.m))))))

/-- A job comes no later than another (R155). -/
def jobBefore (a b : Job) : Bool := decide (a.due < b.due) || (a.due = b.due && decide (a.number ≤ b.number))

/-- The products of the Clasp at the tick that ends frame `n`, in job order (R138, R155, R200): rounds not over, in the chains or not
begun, readouts of segments and tiles, and SHED segments whose turn has not come. -/
def claspTick (n : Nat) (s : State) : State :=
  let late := s.beam.behind.map (·.work) ++ s.sched.work.filter (fun w => w.item.kind = 2)
  let ready := (s.beam.bufs.filter bufDone).length
  let segs := (lateReadouts s ++ segsOf s late 2 ++ s.beam.shedLater.filterMap (shedLost s)).mergeSort lostBefore
  let s := countAbandoned late { s with
    beam.behind := [], beam.shedLater := [], sched.work := s.sched.work.filter (fun w => w.item.kind ≠ 2) }
  let s := if ready = 0 then s
    else countN .readoutAbandoned 0 ready (claspMark 2 (noteAbandon 2 [0] ready s))
  let corr := s.clasp.jobs.filter (fun j => isCorr j && decide (j.due ≤ n))
  let ids := (((corr ++ segs.map (·.job)).mergeSort jobBefore).map (fun j => (j.frame, j.number))).dedup
  let s := ids.foldl (fun s id =>
    loseSegments (segs.filter (fun e => isJob id e.job)) ((corr.filter (isJob id)).foldl endReadout s)) s
  freeGens ((s.clasp.jobs.filter (fun j => !isCorr j)).foldl (fun s j => endRun j s) s)

/-- Beam runs that still wait for their tiles at the start of the guard are abandoned: their segments of the frame are abandoned, and
counted as TILE_CONFLICT (R131, R138, R152). -/
def beamGuard (s : State) : State :=
  let s := (s.clasp.jobs.filter (fun j => j.waitTile && !isCorr j)).foldl (fun s j =>
    let mine := fun (w : Work) => w.item.kind = 2 && w.item.chan = j.pos && w.item.h10 = j.number
    let left := s.sched.work.filter mine
    abandonSegments left (count .tileConflict 0 (claspMark 4 (dropClaim j
      { s with sched.work := s.sched.work.filter (fun w => !mine w) })))) s
  settleShed s.beam.shedLater s

/-- The segments of a channel and data block that later frames run, by frame: (frame, first item of the segment). -/
def laterHeads (s : State) (i : Image) (x : Nat × Nat) : List (Nat × SchedItem) :=
  let l := (i.items.filter (fun y => y.kind = 2 && y.chan = x.1)).filterMap (fun y =>
    (frameFor s i x.2 y).bind (fun m => if s.time.frame < m then some (m, y) else none))
  (l.mergeSort (fun a b => decide (a.1 ≤ b.1))).foldl (fun acc e =>
    if acc.any (fun v => v.2.b8 = e.2.b8 && v.2.h14 = e.2.h14) then acc else acc ++ [e]) []

/-- The job that a segment's item names, as its item gives it. -/
def runJob (i : Image) (block : Nat) (e : Nat × SchedItem) : Option Job :=
  (jobItem i e.2.entry e.2.chan e.2.h10).map (fun h => jobBase i (e.1 + h.entry - e.2.entry) h block 0)

/-- The beam products of a channel and data block whose work has begun become STOPPED gap records (R201). -/
def stopBeamsOf (s : State) (x : Nat × Nat) : State :=
  match imageOf s x.2 with
  | none => s
  | some i =>
    let heads := laterHeads s i x
    let own := (i.items.filter (fun y => y.kind = 2 && y.chan = x.1)).filterMap (fun y =>
      (runJob i x.2 (s.time.frame, y)).map (fun j => (y.b8, j)))
    let s := (s.beam.bufs.filter (fun b => b.pos = x.1 && b.block = x.2)).foldl (fun s b =>
      match own.find? (fun e => e.1 = b.set) with
      | some e => loseProducts i e.2 b.set b.m 0x0E s
      | none => s) s
    let s := heads.foldl (fun s e => match runJob i x.2 e with
      | some j => loseProducts i j e.2.b8 e.2.h14 0x0E s
      | none => s) s
    (List.range s.beam.setCount).foldl (fun s set =>
      match own.find? (fun e => e.1 = set) with
      | some e =>
        if heads.any (fun h => h.2.b8 = set) || s.beam.stats.any (fun y => y.1 = statKey set x.1 x.2) then
          gapStats i e.2 set x.2 0x0E s
        else s
      | none => s) s

/-- Beam products in progress when the data path stops become STOPPED gap records (R201). -/
def stopBeams (s : State) : State :=
  let s := s.beam.behind.foldl endRound s
  let s := s.sched.begun.foldl stopBeamsOf s
  let s := (List.range 16).foldl (fun s k =>
    match s.sched.running, (watch s k).beam with
    | some i, some b => (watch s k).lists.foldl (fun s e => match e.2 with
        | some x => emitPeaks i k b e.1 { x with gap := some (x.gap.getD 0x0E) } s
        | none => s) s
    | _, _ => s) s
  { s with beam.bufs := [], beam.partials := [], beam.stats := [], beam.begunBlock := none }

/-! Commands. -/

/-- A power of two between two bounds. -/
def powerOfTwo (lo hi v : Nat) : Bool := decide (lo ≤ v) && decide (v ≤ hi) && decide (2 ^ Nat.log2 v = v)

/-- Range check of a masked cell by a predicate. -/
def cellTest (a : List Byte) (o i : Nat) (p : Nat → Bool) : Bool × Nat := (cellIn a o i p, o + 8 + 8 * i)

/-- BEAM.CONFIG (R119, R125, R133, R134, Table 6.4): number of sets, Q and L_s are device-wide. -/
def specBeamConfig : Spec :=
  { opcode := 0x0609, same := fun a b => selCovers a b && cellsCover 8 8 a b
    layout := selCellsLayout 8 8 [] (fun i => i = 0 || i = 2 || i = 3)
    cls := fun a => cellsClass a 8 8 (fun i => if i < 5 then .ready else .txn)
    range := fun _ a => firstBad [(selOk 4 a, 0), cellRange a 8 0 1 4, cellRange a 8 1 1 256, cellRange a 8 2 0 8192,
      cellTest a 8 3 (powerOfTwo 1024 8192), cellTest a 8 4 (powerOfTwo 1 64), cellRange a 8 5 0 1,
      cellTest a 8 6 (powerOfTwo 64 65536), cellRange a 8 7 1 4096]
    act := fun q s =>
      let a := q.arg
      let s := { s with beam.setCount := cellOr a 8 0 s.beam.setCount, beam.pool := cellOr a 8 2 s.beam.pool
                        beam.segLen := cellOr a 8 3 s.beam.segLen }
      (selected a).foldl (fun s e => { s with beam.sets := tabMod {} s.beam.sets e (fun x =>
        { beams := cellOr a 8 1 x.beams, g := cellOr a 8 4 x.g, power := decide (cellOr a 8 5 (bit x.power) = 1)
          nint := cellOr a 8 6 x.nint, nmin := if cellOn a 8 7 then some (cellVal a 8 7) else x.nmin }) }) s }

/-- BEAM_CONFIG. -/
def execBeamConfig (q : Request) (s : State) : Out := kenra (.beamConfig q) specBeamConfig q s

/-- A weight load into a slot is in progress (R376). -/
def weightLoading (k : Nat) (c : Instr) : Bool :=
  match c with
  | .beamWeightLoad q => u16 q.arg 24 = k
  | _ => false

/-- BEAM.WEIGHT.LOAD (R126): 131 072 bytes from the service region or pitch memory; only the service region's may be
compressed. -/
def specBeamWeightLoad : Spec :=
  { opcode := 0x060A, event := true, layout := layoutBad (loadForm 0 ++ [(24, 2)])
    range := fun s a => firstBad (loadRange s [2, 3] a 0 ++ [(decide (u32 a 16 = 131072), 16),
      (u8 a 0 = 2 || u8 a 20 = 0, 20), (decide (u16 a 24 < s.beam.pool), 24)])
    resource := fun s q => firstFail ((!slotMapped s (u16 q.arg 24), .busy) ::
      (decide (loadsOf (weightLoading (u16 q.arg 24)) s = []), .busy) :: loadChecks s q 0)
    act := beginLoad .beamWeightLoad 0 }

/-- BEAM_WEIGHT_LOAD. -/
def execBeamWeightLoad (q : Request) (s : State) : Out := kenra (.beamWeightLoad q) specBeamWeightLoad q s

/-- Applies a weight table (R126, R129). -/
def applyWeights (q : Request) (data : List Byte) (s : State) : State :=
  let k := u16 q.arg 24
  { s with beam.tables := tabSet [] s.beam.tables k data, beam.bad := tabSet [] s.beam.bad k [] }

/-- Pool slots of a weight map's bytes. -/
def mapSlots (l : List Byte) : List Nat := (List.range (l.length / 2)).map (fun k => u16 l (2 * k))

/-- A weight load into a slot that a map names is in progress (R376). -/
def mapLoading (slots : List Nat) (c : Instr) : Bool := slots.any (fun k => weightLoading k c)

/-- BEAM.WEIGHT.MAP (R127): its length is that of the sets, groups and input blocks in force. The map is read within the command, so
that the pool slots which it names are checked with the other ranges (R367); where it cannot be read, that is what the command
answers. -/
def specBeamWeightMap : Spec :=
  { opcode := 0x060B, layout := layoutBad ((0, 8) :: bulkForm 8)
    range := fun s a => firstBad (bulkRange s [1, 2] a 8 ++ [
      ((match inForce s with
        | some i => decide ((bulk a 8).length = 2 * mapLen s i)
        | none => decide ((bulk a 8).length % 2 = 0)), 12),
      (!bulkWindow s false a 8 || (bulkFetch (bulk a 8) s).2.1.isSome ||
        (mapSlots (bulkRead s (bulk a 8))).all (fun k => decide (k < s.beam.pool)), 8)])
    resource := fun s q =>
      let r := bulkFetch (bulk q.arg 8) s
      firstFail [(bulkWindow s false q.arg 8, .window), (r.2.1.isNone, r.2.1.getD .ok),
        (!decide (2 ≤ s.beam.gens.length) && decide (loadsOf (mapLoading (mapSlots r.1)) s = []), .busy),
        ((match s.beam.begunBlock with
          | some b => !observing s || decide (b < u64 q.arg 0)
          | none => true), .late)]
    act := fun q s =>
      let r := bulkFetch (bulk q.arg 8) s
      { r.2.2 with beam.gens := r.2.2.beam.gens ++ [{ ks := u64 q.arg 0, slots := mapSlots r.1 }] } }

/-- BEAM_WEIGHT_MAP. -/
def execBeamWeightMap (q : Request) (s : State) : Out := kenra (.beamWeightMap q) specBeamWeightMap q s

/-- Watch beam `k` of a request. -/
def watchArg (a : List Byte) (k : Nat) : Option Nat := if u16 a (2 * k) = 0xFFFF then none else some (u16 a (2 * k))

/-- BEAM.WATCH (R136): every named beam is one of a set that forms powers. -/
def specBeamWatch : Spec :=
  { opcode := 0x060C, cls := fun _ => .txn, layout := layoutBad [(0, 32), (32, 1)]
    range := fun _ a => firstBad ((List.range 16).map (fun k => ((match watchArg a k with
      | some b => decide (b < 1024)
      | none => true), 2 * k)) ++ [(decide (1 ≤ u8 a 32) && decide (u8 a 32 ≤ 64), 32)])
    resource := fun s q => (firstBad ((List.range 16).map (fun k => ((match watchArg q.arg k with
      | some b => decide (b / 256 < s.beam.setCount) && decide (b % 256 < (beamSet s (b / 256)).beams) &&
          (beamSet s (b / 256)).power
      | none => true), 2 * k)))).map (fun o => (.range, o))
    act := fun q s =>
      let n := u8 q.arg 32
      (List.range 16).foldl (fun s k => { s with beam.watches := tabMod {} s.beam.watches k (fun w =>
        { beam := watchArg q.arg k, lists := if w.beam = watchArg q.arg k ∧ n = s.beam.searchBlocks then w.lists else [] }) })
        s |> fun s => { s with beam.searchBlocks := n } }

/-- BEAM_WATCH. -/
def execBeamWatch (q : Request) (s : State) : Out := kenra (.beamWatch q) specBeamWatch q s

/-- Beam status word (Table 6.5). -/
def beamWord (s : State) : Nat :=
  let runs := match s.sched.running with
    | some i => i.items.any (fun x => x.kind = 2)
    | none => false
  let bad := s.beam.bad.any (fun e => !e.2.isEmpty && slotMapped s e.1)
  s.beam.sticky.toNat + 32 * bit bad + 4 * bit (decide (2 ≤ s.beam.gens.length)) +
    2 * bit (!s.beam.bufs.isEmpty || s.clasp.jobs.any (fun j => j.kind = .beamSum && j.owns)) + bit runs

/-- Counters of R139. -/
def beamCtrs : List Ctr := [.weightCe, .weightUe, .beamSegAbandoned, .beamFlagged, .peakExcluded]

/-- BEAM.STATUS (R139): the counters, then k_s of the two generations, all ones for none. -/
def specBeamStatus : Spec :=
  { opcode := 0x060D, layout := statusLayout, sampled := true, range := fun _ a => firstBad [(selCount a = 0, 2)]
    result := fun s q => statusResult q.arg (fun _ => beamWord s) (fun _ =>
      beamCtrs.map (fun c => counter c 0 s) ++ [cellOfOpt (s.beam.gens[0]?.map (·.ks)), cellOfOpt (s.beam.gens[1]?.map (·.ks))])
    act := fun q s =>
      let s := if statusClear q.arg then clearCtrs beamCtrs 0 s else s
      if statusAck q.arg then { s with beam.sticky := 0 } else s }

/-- BEAM_STATUS. -/
def execBeamStatus (q : Request) (s : State) : Out := kenra (.beamStatus q) specBeamStatus q s

end Sys2Proof.Machine
end

