-- ==== Sys2Proof/Machine/Pins.lean ====
section
/-! DEFINITION. Edges on timing pins (chapter 13, R324, R325): the filter every edge row shares, PIN.FILTER.CONFIG, and
pins that stick. Pins are numbered as PIN.FILTER.CONFIG numbers them. -/

namespace Sys2Proof.Machine

/-- Lockout of a pin in ns; that of HB_IN is T/4 (Table 13.4). -/
def lockoutOf (s : State) (k : Nat) : Nat := if k = 8 then periodNs s / 4 else (pin s k).lockout

/-- The filter of R324 on an edge held for `width` ns: whether it is accepted, and what is counted. A STUCK pin is ignored
(R325). -/
def filterEdge (k width : Nat) (s : State) : Bool × State :=
  let p := pin s k
  if p.stuck then (false, s)
  else if width < p.minWidth then (false, count .glitch k s)
  else
    let locked := match p.lastAccepted with
      | some t => decide (s.time.tb2 < t + lockoutOf s k)
      | none => false
    if locked then (false, count .chatter k { s with compass.chatterSeen := true })
    else (true, modPin k (fun p => { p with lastAccepted := some s.time.tb2 }) s)

/-- Ranges of minimum width and lockout by pin (Table 13.4); HB_IN's lockout is fixed. -/
def widthRange (k : Nat) : Nat × Nat :=
  if k ≤ 2 then (20, 10000) else if k = 3 then (10, 10000) else if k ≤ 7 then (1000, 100000) else (100, 10000)
def lockoutRange (k : Nat) : Option (Nat × Nat) :=
  if k ≤ 1 then some (500000000, 990000000) else if k = 2 then some (1000000, 10000000000)
  else if k = 3 then some (100, 1000000000) else if k ≤ 7 then some (10000, 10000000) else none

/-- PIN.FILTER.CONFIG (R324). -/
def specPinFilterConfig : Spec :=
  { opcode := 0x020C, layout := selCellsLayout 8 2 [] (fun _ => false)
    range := fun _ a =>
      let sel := selected a
      firstBad [(selOk 9 a, 0),
        (cellIn a 8 0 (fun v => sel.all (fun k => decide ((widthRange k).1 ≤ v ∧ v ≤ (widthRange k).2))), 16),
        (cellIn a 8 1 (fun v => sel.all (fun k => match lockoutRange k with
          | some (lo, hi) => decide (lo ≤ v ∧ v ≤ hi)
          | none => false)), 24)]
    act := fun q s => (selected q.arg).foldl (fun s k => modPin k (fun p => { p with
      minWidth := cellOr q.arg 8 0 p.minWidth, lockout := cellOr q.arg 8 1 p.lockout }) s) s }
def execPinFilterConfig (q : Request) (s : State) : Out := kenra (.pinFilterConfig q) specPinFilterConfig q s

/-- PIN_STUCK: PPS, SYNC and TRIG pins alone have a stuck time (Table 13.4). The pin is ignored and an event raised
(R325); a stuck PPS pin leaves its source without phase (R299). -/
def execPinStuck (k : BitVec 4) (s : State) : Out :=
  whenOn (fun s =>
    let n := k.toNat
    if 3 < n ∨ (pin s n).stuck then s
    else
      let s := raise 0x0203 2 n [] (setAlarm 0x0203 n true (count .stuck n (modPin n (fun p => { p with stuck := true }) s)))
      if n ≤ 1 then modSource n (fun x => { x with freqOnly := true, coherentRun := 0 }) s else s) s

/-- PIN_STUCK_RELEASE (R325). -/
def execPinStuckRelease (k : BitVec 4) (s : State) : Out :=
  whenOn (fun s => setAlarm 0x0203 k.toNat false (modPin k.toNat (fun p => { p with stuck := false }) s)) s

end Sys2Proof.Machine
end

