-- ==== Sys2Proof/Machine/Compass.lean ====
section
/-! DEFINITION. The Compass (chapter 13): sources and their qualification, selection, holdover, switches, time bases,
PTP, the relay, triggers, and the TIME and PTP commands. Phases and steps are in units of 125 ps, offsets in 10^-12. -/

namespace Sys2Proof.Machine

/-- The SV4 is unpaired, or holds the lead role with its duties begun (R317, R320, R425). -/
def leadOrAlone (s : State) : Bool := !s.twin.paired || (s.twin.lead && s.twin.duties)

/-! Sources (R297 to R300). -/

/-- Seconds of the last `q` that phases measured second by second cover. DESIGN CHOICE (log 24): an offset rests on these where a source
has been present for fewer than Q. -/
def spanOf (l : List Int) (q : Nat) : Nat := min q (l.length - 1)

/-- Change of a phase over the last `m` seconds. -/
def phaseDelta (l : List Int) (m : Nat) : Int := l.headD 0 - l.getD m 0

/-- Seconds that an offset of source `x` over its Q rests on (R300). -/
def srcSpan (s : State) (x : Nat) : Nat := spanOf (source s x).phases (source s x).q

/-- Phase change of source `x` against the output over `m` seconds (R300). -/
def srcDelta (s : State) (x m : Nat) : Int := phaseDelta (source s x).phases m

/-- A phase change over `m` seconds is an offset beyond a tolerance. -/
def beyond (d : Int) (m tol : Nat) : Bool := decide (tol * m < d.natAbs * 125)

/-- Offset in 10^-12 of a phase change over `m` seconds. -/
def offsetOf (d : Int) (m : Nat) : Int := roundTe (d * 125) (max 1 m)

/-- The estimate is trained (R306). -/
def trained (s : State) : Bool := decide (1000 ≤ s.compass.estimate.length)

/-- Sum and number of the seconds the estimate rests on; under 10 s it is the nominal (R306). -/
def estimateSum (s : State) : Int × Nat :=
  if s.compass.estimate.length < 10 then (0, 1) else (s.compass.estimate.sum, s.compass.estimate.length)

/-- Seconds that an offset of source `x` against the estimate rests on: those of the source and of the resonator. -/
def estSpan (s : State) (x : Nat) : Nat := spanOf s.compass.resonator (srcSpan s x)

/-- Phase change of `x` against the holdover estimate over those seconds, times the number of seconds of the estimate. -/
def estDelta (s : State) (x : Nat) : Int :=
  let (sum, n) := estimateSum s
  let m := estSpan s x
  (srcDelta s x m - phaseDelta s.compass.resonator m) * n - m * sum

/-- Source `x` lies beyond its tolerance of the estimate. -/
def beyondEstimate (s : State) (x : Nat) : Bool :=
  decide ((source s x).tolerance * estSpan s x * (estimateSum s).2 < (estDelta s x).natAbs * 125)

/-- Source `x` lies beyond its own tolerance of source `y`. -/
def beyondPeer (s : State) (x y : Nat) : Bool :=
  let m := spanOf (source s y).phases (srcSpan s x)
  beyond (srcDelta s x m - srcDelta s y m) m (source s x).tolerance

/-- The frequency of source `x` in the last second lies beyond 50 ppm of nominal, which is what the resonator gives (R297; log 24). -/
def beyondNominal (s : State) (x : Nat) : Bool :=
  let m := spanOf (source s x).phases 1
  beyond (srcDelta s x m - phaseDelta s.compass.resonator (spanOf s.compass.resonator m)) m 50000000

/-- Indexes of the sources. -/
def sourceIds : List Nat := List.range 7

/-- Qualified sources other than those named. -/
def othersQualified (s : State) (not : List Nat) : List Nat :=
  sourceIds.filter (fun y => (source s y).qualified && !(not.contains y))

/-- At least two other qualified sources find `x` beyond its tolerance and agree with each other (R301). -/
def peersFault (s : State) (x : Nat) : Bool :=
  let l := (othersQualified s [x]).filter (fun y => beyondPeer s x y)
  l.any (fun y => l.any (fun z => decide (y < z) && !beyondPeer s y z && !beyondPeer s z y))

/-- Pairs of qualified sources of equal rank that disagree (R303). -/
def disagreements (s : State) : List (Nat × Nat) :=
  let l := othersQualified s []
  l.flatMap (fun x => (l.filter (fun y => decide (x < y) && (source s x).rank = (source s y).rank &&
    (beyondPeer s x y || beyondPeer s y x))).map (fun y => (x, y)))

/-- Arbiter of a pair: a third qualified source, the lowest first (R303). -/
def arbiterOf (s : State) (p : Nat × Nat) : Option Nat := (othersQualified s [p.1, p.2]).head?

/-- Sources that rule 1 of R303 sets OUT. -/
def arbitratedOut (s : State) : List Nat :=
  (disagreements s).flatMap (fun p => [p.1, p.2].filter (fun x => match arbiterOf s p with
    | some a => beyondPeer s x a
    | none => trained s && beyondEstimate s x))

/-- Pairs that rule 2 or 3 of R303 leaves in disagreement. -/
def unarbitrated (s : State) : List (Nat × Nat) :=
  (disagreements s).filter (fun p => (arbiterOf s p).isNone && !trained s)

/-- Verdict OUT of a present source (R297, R301). -/
def verdictOut (s : State) (x : Nat) : Bool :=
  let c := source s x
  let byRule := fun y => peersFault s y || (arbitratedOut s).contains y
  let selOut := match s.compass.selected with
    | some y => decide (y ≠ x) && byRule y
    | none => false
  let judge := if trained s then beyondEstimate s x
    else decide (s.compass.selected ≠ some x) && beyond (srcDelta s x (srcSpan s x)) (srcSpan s x) c.tolerance
  beyondNominal s x || byRule x || (judge && !selOut)

/-- A source is present: as the inputs show, its RCLK quad is up, and TB1 does not free-run (R297, R313). -/
def sourcePresent (s : State) (present : BitVec 7) (x : Nat) : Bool :=
  testBit present.toNat x &&
  (if 2 ≤ x ∧ x ≤ 5 then (match (source s x).rclkQuad with
     | some k => (quad s k).state = .active
     | none => false)
   else if x = 6 then s.compass.ptpMaster.isSome && !s.compass.ptpFreerun else true)

/-- Loss of qualification: counted, and raised with the source, its last offset and the frame (R302). -/
def disqualify (x : Nat) (s : State) : State :=
  let off := (source s x).offset
  let s := modSource x (fun c => { c with qualified := false, inRun := 0, outRun := 0 }) s
  raise 0x0200 2 off.natAbs [x, s.time.frame] (setAlarm 0x0200 x true (count .disqualified x s))

/-- Applies a verdict to a source: Q consecutive verdicts qualify it or take its qualification (R302). -/
def applyVerdict (x : Nat) (pres out : Bool) (s : State) : State :=
  let c := source s x
  let s := modSource x (fun c => { c with
    present := pres, verdictIn := pres && !out, offset := offsetOf (srcDelta s x (srcSpan s x)) (srcSpan s x)
    inRun := if pres && !out then c.inRun + 1 else 0, outRun := if pres && out then c.outRun + 1 else 0 }) s
  if !pres || c.disabled then (if c.qualified then disqualify x s else s)
  else if c.qualified && decide (c.q ≤ (source s x).outRun) then disqualify x s
  else if !c.qualified && decide (c.q ≤ (source s x).inRun) then
    setAlarm 0x0200 x false (modSource x (fun c => { c with qualified := true }) s)
  else s

/-- The source that R304 chooses among the qualified ones, `pairs` being those R303 leaves in disagreement. -/
def chooseSource (s : State) (pairs : List (Nat × Nat)) : Option Nat :=
  let l := othersQualified s []
  match s.compass.forced with
  | some f => if f ∈ l then some f else none
  | none =>
    let best := l.foldl (fun m x => min m (source s x).rank) 8
    let c := l.filter (fun x => (source s x).rank = best)
    match c, s.compass.selected with
    | [], _ => none
    | first :: _, sel =>
      if (sel.map (fun x => decide (x ∈ c))).getD false then sel
      else match pairs.find? (fun p => p.1 ∈ c && p.2 ∈ c) with
        | some p =>
          let a := (estDelta s p.1).natAbs * max 1 (estSpan s p.2)
          let b := (estDelta s p.2).natAbs * max 1 (estSpan s p.1)
          if b < a then some p.2 else some p.1
        | none => some first

/-- Seconds the holdover estimate rests on. -/
def trainedSeconds (s : State) : Nat := s.compass.estimate.length

/-- The output second that just ended joins the estimate, unless the selected source already had an OUT verdict
(R306). -/
def trainEstimate (s : State) : State :=
  match s.compass.selected with
  | some x =>
    if (source s x).verdictIn ∧ 2 ≤ s.compass.resonator.length then
      { s with compass.estimate := ((-(phaseDelta s.compass.resonator 1)) :: s.compass.estimate).take 1000 }
    else s
  | none => s

/-- Selection after the verdicts (R304, R307): a switch waits for the tick; with no qualified source holdover begins, and the
output keeps its phase where it stands, whatever is left of a step. -/
def selectSource (pairs : List (Nat × Nat)) (s : State) : State :=
  let s := match s.compass.forced with
    | some f => if (source s f).qualified then s else { s with compass.forced := none }
    | none => s
  match chooseSource s pairs with
  | some x => { s with compass.switchTo := if s.compass.selected = some x then none else some x }
  | none =>
    if s.compass.selected.isSome then
      raise 0x0202 2 (trainedSeconds s) [] (setAlarm 0x0202 0 true
        { s with compass.selected := none, compass.switchTo := none, compass.stepLeft := 0 })
    else { s with compass.switchTo := none }

/-- REF_VERDICT (R301 to R307). -/
def execRefVerdict (present : BitVec 7) (s : State) : Out :=
  whenOn (fun s =>
    let s := trainEstimate s
    let verdicts := sourceIds.map (fun x => (x, sourcePresent s present x, verdictOut s x))
    let s := verdicts.foldl (fun s v => applyVerdict v.1 v.2.1 v.2.2 s) s
    let pairs := unarbitrated s
    let inForce := pairs.any (fun p => s.compass.selected = some p.1 || s.compass.selected = some p.2 ||
      decide ((source s p.1).rank = ((othersQualified s []).foldl (fun m x => min m (source s x).rank) 8)))
    selectSource pairs { s with compass.disagree := inForce }) s

/-- PPS_EDGE: a qualified edge is checked against the position its REF count predicts, 16 units being 2 ns (R299). -/
def execPpsEdge (inputB : Bool) (width : Nat) (deviation : Int) (s : State) : Out :=
  whenOn (fun s =>
    let x := bit inputB
    let (ok, s) := filterEdge x width s
    if !ok then s
    else if 16 < deviation.natAbs then
      count .ppsIncoherent x (modSource x (fun c => { c with
        incoherentRun := c.incoherentRun + 1, coherentRun := 0
        freqOnly := c.freqOnly || decide (3 ≤ c.incoherentRun + 1) }) s)
    else modSource x (fun c => { c with
        incoherentRun := 0, coherentRun := c.coherentRun + 1
        freqOnly := c.freqOnly && decide (c.coherentRun + 1 < 10) }) s) s

/-! Switches and steps (R308 to R310). -/

/-- Half the guard in units of 125 ps: 1 % of a frame (R308). -/
def halfGuard (s : State) : Nat := s.time.period * 80

/-- A source with phase: inputs A and B while not frequency-only, and PTP (Table 13.1, R299). -/
def hasPhase (s : State) (x : Nat) : Bool := (x ≤ 1 && !(source s x).freqOnly) || x = 6

/-- The step of a switch to source `x` whose PPS edge falls `edge` units after the output's second: the output's second is to fall
at the edge minus the source's input compensation (R308, R311). A source without phase makes none. -/
def switchStep (x : Nat) (edge : Int) (s : State) : Int :=
  if hasPhase s x then edge - (source s x).inputComp else 0

/-- REFERENCE_SWITCH at the tick that follows: what an earlier step has left is discarded, the step of the new source passes through in
increments from the next tick on, and its step frames extend those of an earlier step (R308 to R310). -/
def execReferenceSwitch (edge : Int) (s : State) : Out :=
  whenOn (fun s =>
    match s.compass.switchTo with
    | none => s
    | some x =>
      let old := (s.compass.selected).getD 15
      let step := switchStep x edge s
      let s := setAlarm 0x0202 0 false { s with compass.selected := some x, compass.switchTo := none, compass.stepLeft := 0 }
      if step = 0 then s
      else
        let tf := s.time.frame + 1
        let tl := tf + ceilDiv step.natAbs (halfGuard s) - 1
        let inForce := match s.compass.stepFrom with
          | some _ => decide (s.time.frame ≤ s.compass.stepTo)
          | none => false
        let s := { s with
          compass.stepLeft := step
          compass.stepFrom := if inForce then s.compass.stepFrom else some (tf - 1)
          compass.stepTo := max (if inForce then s.compass.stepTo else 0) (tl - 1 + (source s x).stepM)
          compass.stepSeen := true }
        raise 0x0201 2 step.natAbs [old, x, tf, tl] (count .steps 0 s)) s

/-- Increment of the next tick, and what is left of the step (R308). -/
def stepIncrement (s : State) : Int × Int :=
  let h : Int := halfGuard s
  let i := clampInt (-h) h s.compass.stepLeft
  (i, s.compass.stepLeft - i)

/-- MHz of REF_OUT (R316). -/
def refOutMHz : Nat := if Config.refOutFast then 100 else 10

/-- How REF_OUT takes an increment: consecutive cycles of the frame before the moved tick, each changed by at most 40 % of its period
(R310). -/
def refChange (inc : Int) : Nat × Int × Int :=
  let most := 8000 / refOutMHz * 2 / 5
  let n := inc.natAbs / most
  (n, if n = 0 then 0 else most * inc.sign, inc.sign * (inc.natAbs % most : Nat))

/-- A pulse or edge of a timing output that is driven, at a TB0 time and its offset (R316, R317). -/
def pulseOut (k at' : Nat) (s : State) : State :=
  modOut k (fun o => if o.driven then { o with pulse := some (8 * (at' : Int) + o.offset, o.width) } else o) s

/-- Frame `n` is a step frame (R309). -/
def stepFrame (s : State) (n : Nat) : Bool :=
  match s.compass.stepFrom with
  | some a => decide (a ≤ n) && decide (n ≤ s.compass.stepTo)
  | none => false

/-! PTP (R313) and the relay (R318 to R320). -/

/-- TB1 listens to the quad and the domain that PTP.CONFIG names. -/
def ptpHears (s : State) (quad' : BitVec 5) (domain : Nat) : Bool :=
  s.compass.ptpQuad = some quad'.toNat && decide (domain = s.compass.ptpDomain)

/-- The grandmaster that TB1 follows. -/
def ptpFollows (s : State) (gm : Nat) : Bool := s.compass.ptpMaster.map (·.identity) = some gm

/-- The first difference of two lists of numbers decides; a list is not before itself. -/
def lexBefore : List Nat → List Nat → Bool
  | x :: l, y :: m => decide (x < y) || (x = y && lexBefore l m)
  | _, _ => false

/-- The standard dataset comparison: the lower value of the first field that differs wins (R313; PRESUMED from IEEE 1588, log 49). -/
def betterMaster (a b : PtpDataset) : Bool :=
  let l := fun (d : PtpDataset) => [d.priority1, d.clockClass, d.accuracy, d.variance, d.priority2, d.identity, d.steps]
  lexBefore (l a) (l b)

/-- A Sync that TB1 followed at `t2` was sent at `t1`: the offset follows once the path delay is known, and a Delay_Req leaves to measure
it (R313; log 49). -/
def ptpMeasure (t1 : Int) (t2 : Nat) (s : State) : State :=
  let raw := t1 - t2
  let n := (s.compass.ptpSeq + 1) % 65536
  { s with
    compass.ptpRaw := some raw, compass.ptpPending := none, compass.ptpSeq := n, compass.ptpReq := some (n, s.time.tb1)
    compass.ptpOffset := match s.compass.ptpDelay with
      | some d => raw + d
      | none => s.compass.ptpOffset }

/-- A Delay_Resp gives the path delay and the offset; at its first lock after BOOT TB1 steps by it (R313). -/
def ptpDelayed (t3 : Nat) (t4 raw : Int) (s : State) : State :=
  let back := t4 - t3
  let offset := (raw + back).fdiv 2
  let s := { s with compass.ptpReq := none, compass.ptpDelay := some ((back - raw).fdiv 2) }
  if s.compass.ptpEverLocked then { s with compass.ptpOffset := offset }
  else { s with
    time.tb1 := ((s.time.tb1 : Int) + offset).toNat, compass.ptpOffset := 0, compass.ptpRaw := none, compass.ptpEverLocked := true }

/-- A message of the PTP domain: the better grandmaster of the Announce messages is followed, and its Sync, Follow_Up and Delay_Resp
discipline TB1, timestamped by TB1 as they come (R313). -/
def ptpReceive (m : PtpMessage) (s : State) : State :=
  match m with
  | .announce d interval =>
    let better := match s.compass.ptpMaster with
      | none => true
      | some x => x.identity = d.identity || betterMaster d x
    let other := s.compass.ptpMaster.map (·.identity) ≠ some d.identity
    let s := { s with compass.ptpLast := s.time.tb2, compass.ptpFreerun := false }
    if !better then s
    else
      let s := { s with compass.ptpMaster := some d, compass.ptpInterval := interval }
      if other then { s with compass.ptpDelay := none, compass.ptpRaw := none, compass.ptpPending := none, compass.ptpReq := none } else s
  | .sync gm origin =>
    if !ptpFollows s gm then s
    else match origin with
      | some t1 => ptpMeasure t1 s.time.tb1 s
      | none => { s with compass.ptpPending := some s.time.tb1 }
  | .followUp gm t1 =>
    match s.compass.ptpPending with
    | some t2 => if ptpFollows s gm then ptpMeasure t1 t2 s else s
    | none => s
  | .delayResp gm seq t4 =>
    match s.compass.ptpReq, s.compass.ptpRaw with
    | some (n, t3), some raw => if ptpFollows s gm && seq = n then ptpDelayed t3 t4 raw s else s
    | _, _ => s

/-- PTP_MESSAGE_RECEIVE (R313). -/
def execPtpMessageReceive (quad' : BitVec 5) (domain : Nat) (m : PtpMessage) (s : State) : Out :=
  whenOn (fun s => if ptpHears s quad' domain then ptpReceive m s else s) s

/-- PTP_ANNOUNCE_TIMEOUT: time moves on to the end of the receipt timeout after the last Announce, and TB1 free-runs at its last rate
(R313). -/
def execPtpAnnounceTimeout (s : State) : Out :=
  whenOn (fun s => if s.compass.ptpQuad.isNone then s
    else { elapseTo (s.compass.ptpLast + s.compass.ptpTimeout * s.compass.ptpInterval) s with
           compass.ptpMaster := none, compass.ptpFreerun := true }) s

/-- TB1 slews at most 1 µs in a second, or keeps its last rate while it free-runs (R313). -/
def slewPtp (s : State) : State :=
  let m := if s.compass.ptpFreerun then s.compass.ptpRate else clampInt (-1000) 1000 s.compass.ptpOffset
  { s with
    time.tb1 := ((s.time.tb1 : Int) + m).toNat, compass.ptpRate := m
    compass.ptpOffset := if s.compass.ptpFreerun then s.compass.ptpOffset else s.compass.ptpOffset - m }

/-- Place of the UDP header in a frame from destination MAC to FCS, with one 802.1Q tag at most; none where there is none. -/
def udpPlace (b : List Byte) : Option Nat :=
  let h := if beVal (slice b 12 2) = 0x8100 then 18 else 14
  let typ := beVal (slice b (h - 2) 2)
  if typ = 0x0800 ∧ u8 b (h + 9) = 17 then some (h + u8 b h % 16 * 4)
  else if typ = 0x86DD ∧ u8 b (h + 6) = 17 then some (h + 40) else none

/-- Place of the PTP message in a frame: behind EtherType 0x88F7, or behind a UDP header with destination port 319 or 320 (R318). -/
def ptpPlace (b : List Byte) : Option Nat :=
  let h := if beVal (slice b 12 2) = 0x8100 then 18 else 14
  if beVal (slice b (h - 2) 2) = 0x88F7 then some h
  else match udpPlace b with
    | some u => if beVal (slice b (u + 2) 2) = 319 ∨ beVal (slice b (u + 2) 2) = 320 then some (u + 8) else none
    | none => none

/-- The message type in a PTP header (PRESUMED, IEEE 1588's numbers: log 49). -/
def ptpKind (t : Nat) : PtpKind :=
  if t = 0 then .sync else if t = 1 then .delayReq else if t = 2 ∨ t = 3 ∨ t = 10 then .peerDelay else .other

/-- A frame with some bytes of it replaced. -/
def putAt (at' : Nat) (v b : List Byte) : List Byte := b.take at' ++ v ++ b.drop (at' + v.length)

/-- The UDP checksum of a frame recomputed over its pseudo-header. -/
def fixUdp (b : List Byte) : List Byte :=
  match udpPlace b with
  | none => b
  | some u =>
    let h := if beVal (slice b 12 2) = 0x8100 then 18 else 14
    let n := beVal (slice b (u + 4) 2)
    let pseudo := if beVal (slice b (h - 2) 2) = 0x86DD then slice b (h + 8) 32 ++ beBytes 4 n ++ [0, 0, 0, 17]
      else slice b (h + 12) 8 ++ [0, 17] ++ beBytes 2 n
    putAt (u + 6) (beBytes 2 (udpCheck (pseudo ++ slice (putAt (u + 6) [0, 0] b) u n))) b

/-- A Sync or Delay_Req frame with `residence` ns added to its correctionField, the signed 64 bits that count 2^-16 ns at byte 8 of the
message `p` (PRESUMED, IEEE 1588's layout: log 49), and with the UDP checksum and the FCS recomputed (R319). -/
def corrected (p residence : Nat) (b : List Byte) : List Byte :=
  let b := fixUdp (putAt (p + 8) (beBytes 8 ((beVal (slice b (p + 8) 8) + residence * 65536) % 2 ^ 64)) b)
  let body := b.take (b.length - 4)
  body ++ leBytes 4 (crc32 body)

/-- A PTP frame received on one port of the relay leaves on the other (R318 to R320). A frame that is in transit when the relay stops is
discarded: its egress finds the relay stopped. A frame that is no PTP frame is none of the relay's; a port that
the Tether disables is off (R270). -/
def relayFrame (fromB : Bool) (f : RelayFrame) (s : State) : State :=
  match s.compass.relay, ptpPlace f.bytes with
  | some (a, b), some p =>
    let kind := ptpKind (u8 f.bytes p % 16)
    let dst := if fromB then a else b
    if !leadOrAlone s || !(quadEnabled s a && quadEnabled s b) then s
    else if kind = .peerDelay then count .pdelayDropped 0 s
    else if s.tether.controlRate ≤ tabGet 0 s.lanes.controlSent dst then count .relayLimited 0 s
    else
      let out := if kind = .sync ∨ kind = .delayReq then corrected p (f.egress - f.ingress) f.bytes else f.bytes
      { ethSend dst out s with compass.relaySent := some (!fromB, out), lanes.controlSent := tabMod 0 s.lanes.controlSent dst (· + 1) }
  | _, _ => s

/-- PTP_RELAY_FRAME (R318 to R320). -/
def execPtpRelayFrame (fromB : Bool) (f : RelayFrame) (s : State) : Out := whenOn (relayFrame fromB f) s

/-- TB3_MIRROR_UPDATE (R315). -/
def execTb3MirrorUpdate (s : State) : Out := whenOn (fun s => { s with time.tb3Mirror := s.time.tb3 }) s

/-! Time triggers (R321 to R323). -/

/-- The base of a trigger. -/
def trigBase (s : State) (onTb2 : Bool) : Nat := if onTb2 then s.time.tb2 else s.time.tb0

/-- A number at its place in a rising list. -/
def insertNat (x : Nat) : List Nat → List Nat
  | [] => [x]
  | y :: t => if x < y then x :: y :: t else y :: insertNat x t

/-- A trigger of a kind fires: the delay of every injection entry of that kind, or of the one named, starts (Table 20.2,
R437). -/
def injectStart (kind : Nat) (only : Option Nat) (s : State) : State :=
  ((List.range 4).filter (fun e => (inject s e).trigger = some kind && (only.isNone || only = some e))).foldl
    (fun s e => modInject e (fun x => { x with due := insertNat (s.time.tb2 + x.delay) x.due }) s) s

/-- Time until a trigger is due; 0 for one whose time has passed. -/
def trigWait (s : State) (t : Trigger) : Nat := t.time - trigBase s t.onTb2

/-- The trigger's turn: no other is due earlier, and none of a lower number in the same nanosecond (R322). -/
def trigTurn (s : State) (k : Nat) (t : Trigger) : Bool :=
  (List.range 16).all (fun j => match trigger s j with
    | none => true
    | some x => decide (trigWait s t < trigWait s x) || (decide (trigWait s t = trigWait s x) && decide (k ≤ j)))

/-- TIME_TRIGGER_FIRE: the trigger whose turn it is fires. Time moves on to the trigger's; its action runs; a periodic trigger is armed
for its next whole period, another is disarmed (R322). The code and layout of the EVENT entry are not in Table 21.2: its low byte is free,
and its cells hold the trigger, LATE and its time (logs 1, 23). -/
def execTimeTriggerFire (trig : BitVec 4) (s : State) : Out :=
  whenOn (fun s =>
    match trigger s trig.toNat with
    | none => s
    | some t =>
      if !trigTurn s trig.toNat t then s else
      let late := !t.onTb2 && decide (t.time < s.time.tb0)
      let s := elapse (trigWait s t) s
      let now := trigBase s t.onTb2
      let next := if t.period = 0 then none
        else some { t with time := t.armed + ((now - t.armed) / t.period + 1) * t.period }
      let s := setTrigger trig.toNat next s
      match t.action with
      | .event => raiseOpen false 2 2 trig.toNat [bit late, t.time] s
      | .adc => injectStart 1 none s
      | .fan => { s with health.fanDue := s.health.fanDue + 1 }
      | .commit => s) s

/-! Commands (Table 16.7). -/

/-- A source that is DISABLED is never qualified (R298). -/
def disableSource (x : Nat) (s : State) : State :=
  if (source s x).disabled && (source s x).qualified then disqualify x s else s

/-- TIME.REF.CONFIG (R297, R298, R309, R311). -/
def specTimeRefConfig : Spec :=
  { opcode := 0x0200, layout := selCellsLayout 8 8 [] (fun _ => false)
    range := fun _ a => firstBad [(selOk 7 a, 0), cellRange a 8 0 0 7, cellRange a 8 1 10 100000000,
      cellRange a 8 2 2 1000, cellRange a 8 3 0 1, cellRange a 8 4 0 8000000, cellRange a 8 5 0 1000,
      cellRange a 8 6 0 31, (cellIn a 8 7 (fun v => v = 10 || v = 100), 72)]
    act := fun q s => (selected q.arg).foldl (fun s x => disableSource x (modSource x (fun c => { c with
      rank := cellOr q.arg 8 0 c.rank, tolerance := cellOr q.arg 8 1 c.tolerance, q := cellOr q.arg 8 2 c.q
      disabled := if cellOn q.arg 8 3 then decide (cellVal q.arg 8 3 = 1) else c.disabled
      inputComp := cellOr q.arg 8 4 c.inputComp, stepM := cellOr q.arg 8 5 c.stepM
      rclkQuad := if cellOn q.arg 8 6 then some (cellVal q.arg 8 6) else c.rclkQuad
      refMHz := cellOr q.arg 8 7 c.refMHz }) s)) s }
def execTimeRefConfig (q : Request) (s : State) : Out := kenra (.timeRefConfig q) specTimeRefConfig q s

/-- TIME.REF.SELECT (R304): a qualified source, or release. -/
def specTimeRefSelect : Spec :=
  { opcode := 0x0201, layout := layoutBad [(0, 1)]
    range := fun s a => firstBad [(u8 a 0 = 0xFF || (decide (u8 a 0 ≤ 6) && (source s (u8 a 0)).qualified), 0)]
    act := fun q s => { s with compass.forced := if u8 q.arg 0 = 0xFF then none else some (u8 q.arg 0) } }
def execTimeRefSelect (q : Request) (s : State) : Out := kenra (.timeRefSelect q) specTimeRefSelect q s

/-- TIME.PLL.CONFIG (R305). -/
def specTimePllConfig : Spec :=
  { opcode := 0x0202, layout := layoutBad [(0, 1)]
    range := fun _ a => firstBad [(decide (u8 a 0 ≤ 13), 0)]
    act := fun q s => { s with compass.bandwidth := u8 q.arg 0 } }
def execTimePllConfig (q : Request) (s : State) : Out := kenra (.timePllConfig q) specTimePllConfig q s

/-- TIME.SET (R311). -/
def specTimeSet : Spec :=
  { opcode := 0x0203, cls := fun _ => .ready, allowed := fun d => d == .ready
    layout := layoutBad [(0, 8)]
    resource := fun s _ => firstFail [((pendingId s).isNone, .conflict)]
    act := fun q s => { s with time.tb0Load := some (u64 q.arg 0) } }
def execTimeSet (q : Request) (s : State) : Out := kenra (.timeSet q) specTimeSet q s

/-- TIME.ADJUST (R312). -/
def specTimeAdjust : Spec :=
  { opcode := 0x0204, layout := layoutBad [(0, 8), (8, 4)]
    range := fun _ a => firstBad [(decide ((s64 a 0).natAbs ≤ 1000000000), 0), (decide (1 ≤ u32 a 8 ∧ u32 a 8 ≤ 100), 8)]
    act := fun q s => { s with time.slewLeft := 10 * s64 q.arg 0, time.slewRate := u32 q.arg 8 } }
def execTimeAdjust (q : Request) (s : State) : Out := kenra (.timeAdjust q) specTimeAdjust q s

/-- Widths of the timing outputs (R316); REF_OUT has none. -/
def outWidth (s : State) (k v : Nat) : Bool :=
  if k = 0 then decide (1000 ≤ v ∧ v ≤ 100000000) else if k = 1 then decide (10 ≤ v ∧ 2 * v ≤ periodNs s) else false

/-- TIME.OUT.CONFIG: held until the next TB0 second boundary (R316). -/
def specTimeOutConfig : Spec :=
  { opcode := 0x0205, layout := selCellsLayout 8 2 [] (fun _ => false)
    range := fun s a => firstBad [(selOk 3 a, 0),
      (!cellOn a 8 0 || decide ((cellInt a 8 0).natAbs ≤ 4000000000), 16),
      (cellIn a 8 1 (fun v => (selected a).all (fun k => outWidth s k v)), 24)]
    act := fun q s => (selected q.arg).foldl (fun s k => modOut k (fun o => { o with
      nextOffset := if cellOn q.arg 8 0 then cellInt q.arg 8 0 else o.nextOffset
      nextWidth := cellOr q.arg 8 1 o.nextWidth }) s) s }
def execTimeOutConfig (q : Request) (s : State) : Out := kenra (.timeOutConfig q) specTimeOutConfig q s

def trigActionOf (v : Nat) : TrigAction := if v = 0 then .event else if v = 1 then .adc else if v = 2 then .fan else .commit

/-- TIME.TRIG.ARM (R321). -/
def specTimeTrigArm : Spec :=
  { opcode := 0x0206, layout := layoutBad [(0, 1), (1, 1), (2, 1), (8, 8), (16, 8)]
    range := fun _ a => firstBad [(decide (u8 a 0 ≤ 15), 0), (u8 a 1 = 0 || u8 a 1 = 2, 1), (decide (u8 a 2 ≤ 3), 2),
      (u64 a 16 = 0 || decide (1000000 ≤ u64 a 16 ∧ u64 a 16 ≤ 3600000000000), 16)]
    resource := fun s q => firstFail [(decide (trigBase s (u8 q.arg 1 = 2) + 10000 ≤ u64 q.arg 8), .late)]
    act := fun q s => setTrigger (u8 q.arg 0) (some
      { onTb2 := decide (u8 q.arg 1 = 2), action := trigActionOf (u8 q.arg 2), time := u64 q.arg 8,
        period := u64 q.arg 16, armed := u64 q.arg 8 }) s }
def execTimeTrigArm (q : Request) (s : State) : Out := kenra (.timeTrigArm q) specTimeTrigArm q s

/-- Disarms a trigger; a commit that named it is rejected with STOPPED before tick n_a − 1 (R321, R323). -/
def cancelTrigger (k : Nat) (s : State) : State :=
  let s' := setTrigger k none s
  match s.sched.commit with
  | some c => if c.trigger = some k ∧ s.time.frame + 1 < c.na then rejectCommit .stopped 0 s' else s'
  | none => s'

/-- TIME.TRIG.CANCEL. -/
def specTimeTrigCancel : Spec :=
  { opcode := 0x0207, layout := layoutBad [(0, 1)]
    range := fun _ a => firstBad [(decide (u8 a 0 ≤ 15), 0)]
    act := fun q s => cancelTrigger (u8 q.arg 0) s }
def execTimeTrigCancel (q : Request) (s : State) : Out := kenra (.timeTrigCancel q) specTimeTrigCancel q s

/-- Compass status word (Table 13.6). -/
def compassWord (s : State) : Nat :=
  let c := s.compass
  bit ((List.range 9).any (fun k => (pin s k).stuck)) * 32768 + bit c.chatterSeen * 16384
    + bit (c.relay.isSome && leadOrAlone s) * 8192 + bit c.ptpFreerun * 4096 + bit c.ptpMaster.isSome * 2048
    + bit ((List.range 3).any (fun k => (timingOut s k).driven)) * 1024 + bit c.stepSeen * 512
    + bit (c.stepLeft ≠ 0) * 256 + bit c.disagree * 128 + bit c.forced.isSome * 64 + bit (trained s) * 32
    + bit c.selected.isNone * 16 + c.selected.getD 15

/-- Counters and further content of a source (R326; log 25). -/
def timeValues (s : State) (x : Nat) : List Nat :=
  let c := source s x
  let (sum, n) := estimateSum s
  [counter .disqualified x s, counter .ppsIncoherent x s, counter .steps 0 s, counter .timeStepFlagged 0 s,
   counter .pdelayDropped 0 s, counter .relayLimited 0 s] ++
  (List.range 9).flatMap (fun k => [counter .glitch k s, counter .chatter k s, counter .stuck k s]) ++
  [c.rank, bit c.qualified, bit c.verdictIn, cellOfInt c.offset, cellOfInt (roundTe (sum * 125) n),
   s.time.tb0, s.time.tb1, s.time.tb2, s.time.tb3] ++
  (List.range 16).map (fun k => cellOfOpt ((trigger s k).map (fun t => t.time))) ++
  (List.range 9).map (fun k => bit (pin s k).stuck)

/-- TIME.STATUS (R326, R374): the values of each source that SEL names. -/
def specTimeStatus : Spec :=
  { opcode := 0x0208, layout := statusLayout, sampled := true, rom := true
    range := fun _ a => firstBad [(selOk 7 a, 0)]
    result := fun s q => statusEach q.arg (fun _ => compassWord s) (timeValues s)
    act := fun q s =>
      let s := if statusClear q.arg then
          (List.range 9).foldl (fun s k => clearCtrs [.glitch, .chatter, .stuck] k s)
            (clearCtrs [.steps, .timeStepFlagged, .pdelayDropped, .relayLimited] 0
              (clearShown q.arg (timeValues s) (clearCtrs [.disqualified, .ppsIncoherent]) s)) else s
      if statusAck q.arg then { s with compass.chatterSeen := false, compass.stepSeen := false } else s }
def execTimeStatus (q : Request) (s : State) : Out := kenra (.timeStatus q) specTimeStatus q s

/-- A quad in an Ethernet mode. -/
def ethQuad (s : State) (k : Nat) : Bool :=
  decide (k ≤ 31) && ((quad s k).mode = .eth200 || (quad s k).mode = .eth100)

/-- PTP.CONFIG (R313): an Ethernet quad, or none. -/
def specPtpConfig : Spec :=
  { opcode := 0x0209, layout := layoutBad [(0, 1), (1, 1), (2, 1)]
    range := fun s a => firstBad [(u8 a 0 = 0xFF || ethQuad s (u8 a 0), 0), (decide (u8 a 1 ≤ 127), 1),
      (decide (2 ≤ u8 a 2 ∧ u8 a 2 ≤ 10), 2)]
    act := fun q s =>
      let k := if u8 q.arg 0 = 0xFF then none else some (u8 q.arg 0)
      let same := decide (k = s.compass.ptpQuad) && decide (u8 q.arg 1 = s.compass.ptpDomain)
      { s with compass.ptpQuad := k, compass.ptpDomain := u8 q.arg 1, compass.ptpTimeout := u8 q.arg 2
               compass.ptpMaster := if same then s.compass.ptpMaster else none
               compass.ptpDelay := if same then s.compass.ptpDelay else none
               compass.ptpRaw := if same then s.compass.ptpRaw else none
               compass.ptpPending := if same then s.compass.ptpPending else none
               compass.ptpReq := if same then s.compass.ptpReq else none } }
def execPtpConfig (q : Request) (s : State) : Out := kenra (.ptpConfig q) specPtpConfig q s

/-- PTP.STEP: TB1 steps to the grandmaster's time (R313). -/
def specPtpStep : Spec :=
  { opcode := 0x020A, layout := noArg
    act := fun _ s => if s.compass.ptpMaster.isNone then s else
      { s with time.tb1 := ((s.time.tb1 : Int) + s.compass.ptpOffset).toNat, compass.ptpOffset := 0 } }
def execPtpStep (q : Request) (s : State) : Out := kenra (.ptpStep q) specPtpStep q s

/-- PTP.RELAY.CONFIG (R318): two Ethernet quads, or none. -/
def specPtpRelayConfig : Spec :=
  { opcode := 0x020B, cls := fun _ => .ready, layout := layoutBad [(0, 1), (1, 1)]
    range := fun s a =>
      let none' := decide (u8 a 0 = 0xFF ∧ u8 a 1 = 0xFF)
      firstBad [(none' || ethQuad s (u8 a 0), 0), (none' || (ethQuad s (u8 a 1) && decide (u8 a 0 ≠ u8 a 1)), 1)]
    act := fun q s =>
      let pair := if u8 q.arg 0 = 0xFF then none else some (u8 q.arg 0, u8 q.arg 1)
      { s with compass.relay := pair } }
def execPtpRelayConfig (q : Request) (s : State) : Out := kenra (.ptpRelayConfig q) specPtpRelayConfig q s

end Sys2Proof.Machine
end

