-- ==== Sys2Proof/Machine/Twin.lean ====
section
/-! DEFINITION. Twin pairing (chapter 19): heartbeats, roles, checkpoints, handovers and the TWIN commands. -/

namespace Sys2Proof.Machine

/-! What a twin sends (Table 19.2). -/

/-- Settings of the device and its Compass, DRAM and lanes. -/
def platformWords (s : State) : List Nat :=
  [s.dev.holdoff, s.time.period, cellOfOpt s.compass.forced, s.compass.bandwidth, s.time.slewRate, cellOfOpt s.compass.ptpQuad,
   s.compass.ptpDomain, s.compass.ptpTimeout, cellOfOpt (s.compass.relay.map (fun r => 32 * r.1 + r.2)), cellOfOpt s.dram.speedCap,
   s.dram.excludeNext.toNat] ++
  s.compass.sources.flatMap (fun e => [e.1, e.2.rank, e.2.tolerance, e.2.q, bit e.2.disabled, e.2.inputComp, e.2.stepM,
    cellOfOpt e.2.rclkQuad, e.2.refMHz]) ++
  s.compass.outputs.flatMap (fun e => [e.1, cellOfInt e.2.nextOffset, e.2.nextWidth]) ++
  s.compass.triggers.flatMap (fun e => match e.2 with
    | some t => [e.1, bit t.onTb2, t.action.ctorIdx, t.armed, t.period]
    | none => []) ++
  s.compass.pins.flatMap (fun e => [e.1, e.2.minWidth, e.2.lockout]) ++
  s.lanes.quads.flatMap (fun e => [e.1, e.2.mode.ctorIdx, e.2.rate, e.2.width, e.2.minWidth, e.2.fec, bit e.2.nap, bit e.2.idleOn,
    e.2.idleNs, bit e.2.fixedTaps, e.2.mtu]) ++
  s.lanes.lanes.flatMap (fun e => e.1 :: e.2.taps.map cellOfInt) ++
  s.lanes.busSpeed.flatMap (fun e => [e.1, e.2])

/-- Settings of the data path. -/
def pathWords (s : State) : List Nat :=
  [s.ingest.window, s.sched.stormF, s.clasp.spillTiles, s.pack.reserved, s.pack.opLimit, s.pack.ratio,
   s.store.serviceGiB, s.store.laGiB, s.beam.setCount, s.beam.pool, s.beam.segLen, s.beam.searchBlocks,
   s.chan.preset, s.chan.p, bit s.chan.wide, bit s.chan.gainFixed, s.chan.gainTarget.toNat, cellOfOpt (s.sched.running.map (·.identity)),
   cellOfOpt s.sched.committed, cellOfOpt s.sched.throttle] ++
  s.ingest.streams.flatMap (fun e => [e.1, e.2.cfg.input, e.2.cfg.format, e.2.cfg.nfs, e.2.cfg.dfs, e.2.cfg.firstCh,
    e.2.cfg.chCount, e.2.cfg.np, e.2.allowMs, bit e.2.enabled]) ++
  s.ingest.flows.flatMap (fun e => match e.2 with
    | some (.ingress kind quads _ dport _ base count) => [e.1, kind.ctorIdx, quads.toNat, dport, base, count]
    | some (.egress kind quad vlan _ _ _ dport sport dscp ttl piece age) =>
      [e.1, kind.ctorIdx, quad, cellOfOpt vlan, dport, sport, dscp, ttl, piece, age]
    | none => []) ++
  s.chan.slices.flatMap (fun e => [e.1, e.2.g, bit e.2.tapPre, e.2.z, e.2.interval] ++ ((e.2.bankA.getD []).map cellOfInt) ++
    ((e.2.bankB.getD []).map cellOfInt)) ++
  (numbers 0 4).flatMap (fun a => [bit (array s a).enabled, bit (array s a).checkOn, bit (array s a).wide]) ++
  s.beam.sets.flatMap (fun e => [e.1, e.2.beams, e.2.g, bit e.2.power, e.2.nint, cellOfOpt e.2.nmin]) ++
  s.beam.watches.map (·.1) ++ s.beam.tables.flatMap (fun e => e.1 :: e.2.map (·.toNat)) ++
  s.peg.services.flatMap (fun e => [e.1, e.2]) ++ s.peg.kernels.flatMap (fun e => e.1 :: e.2.map (·.toNat))

/-- Settings of the output side, of health and of what its tables hold. -/
def outputWords (s : State) : List Nat :=
  s.clasp.scale.flatMap (fun e => [e.1, e.2.toNat]) ++ s.clasp.bias.flatMap (fun e => [e.1, e.2.1.toNat, e.2.2.toNat]) ++
  s.clasp.curves.flatMap (fun e => e.1 :: (e.2.getD []).flatMap (fun x => [x.1.toNat, x.2.1.toNat, x.2.2.toNat])) ++
  s.out.streams.flatMap (fun e => match e.2 with
    | some o => [e.1, bit o.beamPipe, o.engine, bit o.ring, o.dest, o.base, o.planning.toNat]
    | none => []) ++
  s.out.quads.flatMap (fun e => [e.1, e.2.share]) ++
  s.out.rings.flatMap (fun e => match e.2 with
    | some r => [e.1, r.dma, r.log2, r.age]
    | none => []) ++
  s.facet.e.flatMap (fun e => [e.1, e.2]) ++
  s.health.zones.flatMap (fun e => e.1 :: [e.2.warning, e.2.throttle, e.2.shutdown, e.2.hyst, e.2.rateLimit].map cellOfInt) ++
  s.health.fans.flatMap (fun e => [e.1, bit e.2.fixed, e.2.fixedDuty, e.2.zones.toNat, e.2.slew, e.2.ppr, e.2.minRpm] ++
    e.2.t.map cellOfInt ++ e.2.d)

/-- What the digest covers: the applied configuration less the twin parameters, the Ethernet addresses and the Tether
(R432; log 26). -/
def configWords (s : State) : List Nat := platformWords s ++ pathWords s ++ outputWords s

/-- Config digest of this twin. -/
def digest (s : State) : BitVec 32 := Config.configDigest (configWords s)

/-- Role byte: LEAD, HOME_LEAD, ACQUIRED_SILENT. -/
def roleByte (s : State) : Byte :=
  BitVec.ofNat 8 (bit s.twin.claiming + 2 * bit s.twin.homeLead + 4 * bit s.twin.acqSilent)

/-- A TWIN frame of this twin for the current frame. -/
def twinMessage (s : State) (piece named : Nat) (body : List Byte) : TwinMessage :=
  { role := roleByte s, piece := BitVec.ofNat 16 piece, epoch := BitVec.ofNat 32 s.twin.epoch
    frame := BitVec.ofNat 64 s.time.frame, identity := Config.deviceIdentity, digest := digest s
    handoverFrame := BitVec.ofNat 64 named, body := body }

/-- Payload of a TWIN frame of type `ty`, big-endian (Table 19.2). -/
def twinBytes (ty : Nat) (m : TwinMessage) : List Byte :=
  [BitVec.ofNat 8 ty, m.role] ++ beBytes 2 m.piece.toNat ++ beBytes 4 m.epoch.toNat ++ beBytes 8 m.frame.toNat ++
    beBytes 8 m.identity.toNat ++ beBytes 4 m.digest.toNat ++ beBytes 8 m.handoverFrame.toNat ++ List.replicate 28 0 ++ m.body

/-- Sends TWIN frames on the twin quad (R421, Table 19.2). -/
def sendTwin (l : List (Nat × TwinMessage)) (s : State) : State :=
  let s := { s with twin.sent := s.twin.sent ++ l }
  match s.twin.quad with
  | some k => sendFrames k 3 (l.map (fun e => twinBytes e.1 e.2)) s
  | none => s

/-- Cuts bytes into pieces of 8192, at most `n`. -/
def pieces : Nat → List Byte → List (List Byte)
  | 0, _ => []
  | n + 1, l => if l.isEmpty then [] else l.take 8192 :: pieces n (l.drop 8192)

/-- The checkpoint of R429: control-frame state by source, the relay, the outputs, the epoch and the frame of capture,
with the CRC-32C of the whole at its end. -/
def checkpointBytes (s : State) : List Byte :=
  let relay := match s.compass.relay with
    | some (a, b) => [(a : Int), (b : Int)]
    | none => [-1, -1]
  let outs := (List.range 3).flatMap (fun k => [(timingOut s k).offset, ((timingOut s k).width : Int)])
  let sent := s.lanes.control.flatMap (fun e => [(e.1 : Int), (e.2.1 : Int)] ++ e.2.2.map (fun b => (b.toNat : Int)))
  let body := (Config.checkpointBody (relay ++ outs ++ [(s.twin.epoch : Int), (s.time.frame : Int)] ++ sent)).take 65532
  body ++ beBytes 4 (crc32c body)

/-- Sends a checkpoint as CHECKPOINT frames (R429). -/
def sendCheckpoint (s : State) : State :=
  let l := pieces 8 (checkpointBytes s)
  count .checkpointsSent 0 (sendTwin (l.zipIdx.map (fun e => (2, twinMessage s e.2 0 e.1)))
    { s with twin.sendCkpt := false, twin.sent := [] })

/-- A lead checkpoints at each TB0 second boundary (R429). -/
def checkpointSecond (s : State) : State := if s.twin.paired && s.twin.lead then sendCheckpoint s else s

/-- A lead that leaves READY or OBSERVING sends HANDOVER with a final checkpoint, naming the tick at which it stops its
duties (R430, R449). -/
def sendHandover (n : Nat) (s : State) : State :=
  if s.twin.paired && s.twin.lead then
    let s := sendCheckpoint s
    sendTwin [(3, twinMessage s 0 n [])] { s with twin.handoverAt := some n }
  else s

/-- Asks for SAFE at the next tick: a lead hands over first, naming that tick (R19, R430, R449). -/
def askSafe (s : State) : State := if s.dev.safeAt.isSome then s else sendHandover (s.time.frame + 1) (callSafe 7 s)

/-- Sends a CONTROL frame upstream on a quad other than the twin quad, which carries only TWIN frames (R419), while the twin that acts as lead has its duties; one past the Tether's limit is
discarded and counted (chapter 12, R425 to R427). -/
def sendControlFrame (k : Nat) (body : List Byte) (s : State) : State :=
  if !leadOrAlone s || s.twin.quad = some k then s
  else if s.tether.controlRate ≤ tabGet 0 s.lanes.controlSent k then count .controlLimited k s
  else sendFrames k 2 [body] { s with
    lanes.controlSent := tabMod 0 s.lanes.controlSent k (· + 1)
    lanes.control := tabMod (0, []) s.lanes.control k (fun x => (x.1 + 1, body)) }

/-! Roles (R423 to R427). -/

/-- Stops acting as lead: the relay and control frames stop; the timing outputs follow at the next second (R317). -/
def stopLead (s : State) : State :=
  { s with twin.lead := false, twin.claiming := false, twin.duties := false, twin.leadRun := 0, twin.takeoverAt := none }

/-- Acquires the lead: the epoch rises past every epoch known (R424). -/
def acquireLead (silent : Bool) (s : State) : State :=
  { s with
    twin.lead := true, twin.claiming := false, twin.epoch := max s.twin.epoch s.twin.heardEpoch + 1
    twin.acqSilent := silent, twin.leadRun := 0, twin.leadRunLink := true, twin.reclaimAt := none, twin.reclaimAcked := false }

/-- TAKEOVER: a follower takes the lead after K frames without a LEAD heartbeat, if it is HOME_LEAD or the frames were
silent (R423, R424). -/
def execTakeover (s : State) : Out :=
  whenOn (fun s =>
    let t := s.twin
    let silent := decide (t.k ≤ t.silentRun)
    if t.paired && !t.lead && decide (t.k ≤ t.noLeadRun) && (t.homeLead || silent) &&
       (s.dev.state = .ready || observing s) then
      { acquireLead silent s with twin.takeoverAt := some s.time.frame, twin.sticky := s.twin.sticky ||| 0x80 }
    else s) s

/-- Base of a checkpoint slot in MRAM (Table 18.2, R429). -/
def ckptBase (second : Bool) : Nat := 0x2C0000 + (if second then 0x20000 else 0)

/-- What an MRAM slot with its valid mark holds: the frame of capture and the bytes (R429). -/
def slotCheckpoint (s : State) (second : Bool) : Option (Nat × List Byte) :=
  (if second then s.twin.slotB else s.twin.slotA).map (fun e => (e.1, memRead s.boot.mram (ckptBase second) e.2))

/-- Newest complete checkpoint: that in SRAM, else that of the newer valid MRAM slot (R429). -/
def newestCheckpoint (s : State) : Option (Nat × List Byte) :=
  (s.twin.ckpt.or (slotCheckpoint s (!s.twin.ckptSlot))).or (slotCheckpoint s s.twin.ckptSlot)

/-- Loads the control frames, the relay and the outputs that a checkpoint gives (R425); without one the twin's own configuration stands and
CHECKPOINT_MISSING is counted (R429). -/
def loadCheckpoint (s : State) : State :=
  match newestCheckpoint s with
  | none => count .checkpointMissing 0 { s with lanes.control := [] }
  | some (_, bytes) =>
    let s := { s with
      compass.relay := Config.checkpointRelay bytes
      lanes.control := (List.range 32).foldl (fun t k => match Config.checkpointControl bytes k with
        | some x => tabSet (0, []) t k x
        | none => t) [] }
    (List.range 3).foldl (fun s k =>
      let c := Config.checkpointOutput bytes k
      modOut k (fun o => { o with nextOffset := c.1, nextWidth := c.2 }) s) s

/-- The duties begin from the newest checkpoint (R425, R429). -/
def beginDuties (s : State) : State := { loadCheckpoint s with twin.duties := true }

/-- A takeover of tick n_t completes (R425): the duties run; the first LEAD claim is that of the tick after. The takeover is counted and
raised with n_t, n_c, the epoch and the frame of the checkpoint. -/
def completeTakeover (nt : Nat) (s : State) : State :=
  let frame := cellOfOpt ((newestCheckpoint s).map (·.1))
  let s := { beginDuties s with twin.takeoverAt := none }
  raise 0x0D00 5 s.twin.epoch [nt, s.time.frame + 1, frame] (count .takeovers 0 s)

/-- TAKEOVER_COMPLETE (R425). -/
def execTakeoverComplete (s : State) : Out :=
  whenOn (fun s =>
    match s.twin.takeoverAt with
    | none => s
    | some nt => completeTakeover nt s) s

/-- A takeover that is still open 5 ms after its tick completes (R425). -/
def boundTakeover (s : State) : State :=
  match s.twin.takeoverAt with
  | some nt => if 5000000 ≤ (s.time.frame - nt) * periodNs s then completeTakeover nt s else s
  | none => s

/-- The twin holds priority (R426). -/
def priority (s : State) : Bool :=
  let t := s.twin
  let theirs := testBit t.partnerRole.toNat 2
  if t.leadRunLink then decide (t.heardEpoch < t.epoch) || (t.epoch = t.heardEpoch && t.homeLead)
  else if t.acqSilent ≠ theirs then t.acqSilent else t.homeLead

/-- YIELD (R426). -/
def execYieldLead (s : State) : Out :=
  whenOn (fun s =>
    if s.twin.paired && s.twin.lead && decide (s.twin.k ≤ s.twin.leadRun) && !priority s then
      let s := stopLead s
      raise 0x0D01 5 s.twin.epoch [] (count .yields 0 { s with twin.sticky := s.twin.sticky ||| 0x100 })
    else s) s

/-- RIDGE_HEARTBEAT_WITHDRAW: the Ridge has not armed the lead's heartbeats for K frames; the relay and control frames
are withdrawn, and heartbeats wait until the Ridge works again, as follower (R427; log 26). -/
def execRidgeHeartbeatWithdraw (s : State) : Out :=
  whenOn (fun s => if s.twin.paired && s.twin.lead then { stopLead s with twin.armed := false } else s) s

/-! Heartbeats (R420 to R422). -/

/-- Place of an edge: its offset in ns in the window that opens T/4 before a tick. -/
def edgePhase (s : State) : Nat := (s.time.tb0 + periodNs s / 4) % periodNs s

/-- The edge belongs to the window of the next frame: it falls in the last quarter of this one. -/
def edgeNext (s : State) : Bool := decide (3 * periodNs s ≤ 4 * (s.time.tb0 % periodNs s))

/-- HB_IN_EDGE: an accepted edge is classed by its phase; a second one in a window is counted; the skew is its distance
from the edge's nominal place (R420, R421). -/
def execHbInEdge (width : Nat) (s : State) : Out :=
  whenOn (fun s =>
    let (ok, s) := filterEdge 8 width s
    if !ok || !s.twin.paired then s
    else
      let p := edgePhase s
      let isLead := decide (2 * p < periodNs s)
      let skew : Int := (p : Int) - (if isLead then (periodNs s / 4 : Nat) else (3 * periodNs s / 4 : Nat))
      let s := { s with twin.skew := skew }
      if edgeNext s then
        let s := if 1 ≤ s.twin.pinNext.1 then count .hbDouble 0 s else s
        { s with twin.pinNext := (s.twin.pinNext.1 + 1, isLead), twin.nextSkew := skew }
      else
        let s := if 1 ≤ s.twin.pinEdges then count .hbDouble 0 s else s
        { s with twin.pinEdges := s.twin.pinEdges + 1, twin.pinLead := isLead, twin.pinSkew := skew }) s

/-- HEARTBEAT received: heard for its frame if it arrives before the tick that ends it (R421); it carries the partner's
role, epoch, identity and digest (Table 19.2). A twin quad that the Tether disables hears nothing (R270). -/
def execHeartbeat (m : TwinMessage) (s : State) : Out :=
  whenOn (fun s =>
    if !s.twin.paired || !(s.twin.quad.all (quadEnabled s)) then s
    else
      let claim := testBit m.role.toNat 0
      let now := decide (m.frame.toNat = s.time.frame)
      let next := decide (m.frame.toNat = s.time.frame + 1)
      { s with
        twin.linkHeard := s.twin.linkHeard || now
        twin.linkLead := if now then claim else s.twin.linkLead
        twin.linkNext := if next then (true, claim) else s.twin.linkNext
        twin.partnerRole := m.role, twin.heardEpoch := m.epoch.toNat, twin.partner := m.identity
        twin.partnerDigest := m.digest
        twin.digestRun := if m.digest = digest s then 0 else s.twin.digestRun + 1 }) s

/-- The skew measured in the frame that ends lies beyond T/8. A frame without exactly one edge measures none (R421; log 26). -/
def skewFar (s : State) : Bool := decide (s.twin.pinEdges = 1) && decide (periodNs s < 8 * s.twin.pinSkew.natAbs)

/-- The run of frames whose skew lies beyond T/8; SKEW and its alarm go with the first frame whose skew does not (R421; log 26). -/
def judgeSkew (s : State) : State :=
  let back := s.twin.skewed && decide (s.twin.pinEdges = 1) && !skewFar s
  let s := { s with twin.skewRun := if skewFar s then s.twin.skewRun + 1 else 0, twin.skewed := s.twin.skewed && !back }
  if back then setAlarm 0x0D80 0 false s else s

/-- What the frame that ends at a tick held on the two paths (R422, R423, R426, R431). -/
def judgeFrame (s : State) : State :=
  let t := s.twin
  let pin := decide (t.pinEdges = 1)
  let link := t.linkHeard
  let claim := (pin && t.pinLead) || (link && t.linkLead)
  let silent := !pin && !link
  let next (c : Bool) (n : Nat) : Nat := if c then n + 1 else 0
  let s := if pin then s else count .hbPinMissed 0 s
  let s := if link then s else count .hbLinkMissed 0 s
  let s := if silent then count .silentFrames 0 s else s
  let s := if t.lead && claim then count .dualLeadFrames 0 s else s
  { s with
    twin.pinMissed := next (!pin) t.pinMissed, twin.linkMissed := next (!link) t.linkMissed
    twin.pinHeardRun := next pin t.pinHeardRun, twin.linkHeardRun := next link t.linkHeardRun
    twin.silentRun := next silent t.silentRun, twin.noLeadRun := next (!claim) t.noLeadRun
    twin.leadRun := if t.lead then next claim t.leadRun else 0
    twin.leadRunLink := if t.lead && claim then (if t.leadRun = 0 then link else t.leadRunLink && link) else true
    twin.bothRun := if !t.lead then next (pin && link && claim) t.bothRun else 0
    twin.reclaimAt := if silent then none else t.reclaimAt
    twin.reclaimAcked := if silent then false else t.reclaimAcked
    twin.pinEdges := t.pinNext.1, twin.pinLead := t.pinNext.2, twin.pinNext := (0, false), twin.pinSkew := t.nextSkew
    twin.linkHeard := t.linkNext.1, twin.linkLead := t.linkNext.2, twin.linkNext := (false, false) }

/-- HB_PATH_DOWN clears once its path has heard K consecutive frames (R422). -/
def clearPaths (s : State) : State :=
  let t := s.twin
  let pinUp := t.pinDown && decide (t.k ≤ t.pinHeardRun)
  let linkUp := t.linkDown && decide (t.k ≤ t.linkHeardRun)
  let s := { s with twin.pinDown := t.pinDown && !pinUp, twin.linkDown := t.linkDown && !linkUp }
  let s := if pinUp then setAlarm 0x0D02 0 false s else s
  if linkUp then setAlarm 0x0D02 1 false s else s

/-- First TB0 second boundary, as a frame, at least 2 frames ahead (R431). -/
def nextSecondFrame (s : State) : Nat :=
  let t := periodNs s
  ceilDiv (ceilDiv ((s.time.frame + 2) * t) 1000000000 * 1000000000) t

/-- Changes of role that name the tick just reached: a handover or reclaim of the partner's lead, whose duties begin at the tick, or the
end of the own one (R430, R431). -/
def namedRoles (s : State) : State :=
  let n := s.time.frame
  let s := match s.twin.handoverAt with
    | some h =>
      if n < h then s
      else
        let s := count .handovers 0 { s with twin.handoverAt := none }
        if s.twin.lead then stopLead s else beginDuties (acquireLead false s)
    | none => s
  match s.twin.reclaimAt with
  | some h =>
    if n < h then s
    else if s.twin.lead then stopLead { s with twin.reclaimAt := none, twin.reclaimAcked := false }
    else if s.twin.reclaimAcked then count .reclaims 0 (beginDuties (acquireLead false s))
    else { s with twin.reclaimAt := none }
  | none => s

/-- A HOME_LEAD follower asks for the lead after H frames (R431). -/
def askReclaim (s : State) : State :=
  let t := s.twin
  if t.revertive && t.homeLead && !t.lead && t.reclaimAt.isNone && decide (t.h ≤ t.bothRun) then
    let n := nextSecondFrame s
    sendTwin [(4, twinMessage s 0 n [])] { s with twin.reclaimAt := some n, twin.reclaimAcked := false, twin.sent := [] }
  else s

/-- The heartbeat of the frame that begins, if armed: a HEARTBEAT frame, and at the tick the HB_OUT edge of a twin whose
heartbeats claim LEAD: from the first tick after its duties began on (R420, R425). -/
def sendHeartbeat (claim : Bool) (s : State) : State :=
  if !s.twin.armed then s
  else
    let s := { s with twin.claiming := claim && s.twin.lead }
    sendTwin [(1, twinMessage s 0 0 [])] { s with twin.hbOut := if s.twin.claiming then !s.twin.hbOut else s.twin.hbOut }

/-- What a tick does for a pair. -/
def twinTick (s : State) : State :=
  if !s.twin.paired then s
  else
    let claim := s.twin.lead && s.twin.duties
    let s := askReclaim (namedRoles (clearPaths (judgeFrame (judgeSkew { s with twin.sent := [] }))))
    let s := boundTakeover (if s.twin.sendCkpt && s.twin.lead then sendCheckpoint s else s)
    sendHeartbeat claim s

/-- FOLLOWER_HEARTBEAT_TOGGLE at tick n + T/2 (R420). -/
def execFollowerHeartbeatToggle (s : State) : Out :=
  whenOn (fun s =>
    if s.twin.paired && s.twin.armed && !s.twin.claiming then
      let s := elapse (tickTime s s.time.frame + periodNs s / 2 - s.time.tb0) s
      { s with twin.hbOut := !s.twin.hbOut }
    else s) s

/-- HB_PATH_DOWN (R422): the path missed K frames while the other heard them. -/
def execHbPathDown (link : Bool) (s : State) : Out :=
  whenOn (fun s =>
    let t := s.twin
    let due := if link then decide (t.k ≤ t.linkMissed) && decide (t.k ≤ t.pinHeardRun) && !t.linkDown
      else decide (t.k ≤ t.pinMissed) && decide (t.k ≤ t.linkHeardRun) && !t.pinDown
    if t.paired && due then
      raise 0x0D02 5 (bit link) [] (setAlarm 0x0D02 (bit link) true
        { s with twin.pinDown := t.pinDown || !link, twin.linkDown := t.linkDown || link })
    else s) s

/-- TWIN_SKEW: a skew that has lain beyond T/8 for K frames sets SKEW and raises an alarm, for which Table 21.2 has no code: its event's
is open (R421; log 26). -/
def execTwinSkew (s : State) : Out :=
  whenOn (fun s =>
    if s.twin.paired && decide (s.twin.k ≤ s.twin.skewRun) && !s.twin.skewed then
      raiseOpen true 0x0D 5 s.twin.skew [] (setAlarm 0x0D80 0 true { s with twin.skewed := true })
    else s) s

/-- CONFIG_MISMATCH (R432): a digest that has differed for K frames. -/
def execConfigMismatch (s : State) : Out :=
  whenOn (fun s =>
    if s.twin.paired && decide (s.twin.k ≤ s.twin.digestRun) then
      raise 0x0D03 5 s.twin.partnerDigest.toNat [] (setAlarm 0x0D03 0 true
        { s with twin.sticky := s.twin.sticky ||| 0x800 })
    else s) s

/-! Checkpoints and planned changes (R429 to R431). -/

/-- The pieces received, in order from 0. -/
def joined (t : Tab (List Byte)) : List Byte := (t.map (·.2)).flatten

/-- The pieces are those from 0 on. -/
def contiguous (t : Tab (List Byte)) : Bool := (t.map (·.1)) == List.range t.length

/-- A whole checkpoint ends with the CRC-32C of the rest. -/
def wholeCheckpoint (l : List Byte) : Bool :=
  decide (4 ≤ l.length) && decide (beVal (l.drop (l.length - 4)) = crc32c (l.take (l.length - 4)))

/-- A complete checkpoint is kept in SRAM and written to the next MRAM slot, its valid mark last (R429). -/
def keepCheckpoint (frame : Nat) (l : List Byte) (s : State) : State :=
  count .checkpointsReceived 0 { s with
    twin.ckpt := some (frame, l), twin.pieces := []
    twin.slotA := if s.twin.ckptSlot then s.twin.slotA else some (frame, l.length)
    twin.slotB := if s.twin.ckptSlot then some (frame, l.length) else s.twin.slotB
    twin.ckptSlot := !s.twin.ckptSlot, twin.stale := false, twin.ckptTime := s.time.tb2
    boot.mram := memWrite s.boot.mram (ckptBase s.twin.ckptSlot) l }

/-- CHECKPOINT piece received by a follower. -/
def execCheckpoint (m : TwinMessage) (s : State) : Out :=
  whenOn (fun s =>
    if !s.twin.paired || s.twin.lead then s
    else if 8 ≤ m.piece.toNat ∨ 8192 < m.body.length then count .checkpointErrors 0 s
    else
      let fresh := decide (m.frame.toNat ≠ s.twin.pieceFrame)
      let s := if fresh && !s.twin.pieces.isEmpty then count .checkpointErrors 0 s else s
      let old := if fresh then [] else s.twin.pieces
      let t := tabSet [] old m.piece.toNat m.body
      let s := { s with twin.pieces := t, twin.pieceFrame := m.frame.toNat }
      if contiguous t && wholeCheckpoint (joined t) then keepCheckpoint m.frame.toNat (joined t) s
      else if t.length = 8 then count .checkpointErrors 0 { s with twin.pieces := [] }
      else s) s

/-- CHECKPOINT_STALE: no complete checkpoint for 3 s of a follower (R429). -/
def execCheckpointStale (s : State) : Out :=
  whenOn (fun s =>
    if s.twin.paired && !s.twin.lead then
      { elapseTo (s.twin.ckptTime + 3000000000) s with twin.stale := true }
    else s) s

/-- HANDOVER: the follower takes the duties up at the tick named (R430). -/
def execHandover (m : TwinMessage) (s : State) : Out :=
  whenOn (fun s => if s.twin.paired && !s.twin.lead then
    { s with twin.handoverAt := some m.handoverFrame.toNat, twin.heardEpoch := m.epoch.toNat } else s) s

/-- RECLAIM: the lead answers with a final checkpoint and stops its duties at n_h (R431). -/
def execReclaim (m : TwinMessage) (s : State) : Out :=
  whenOn (fun s =>
    if s.twin.paired && s.twin.lead then
      let s := sendCheckpoint s
      let n := m.handoverFrame.toNat
      sendTwin [(5, twinMessage s 0 n [])] { s with twin.reclaimAt := some n }
    else s) s

/-- RECLAIM_ACK: the reclaim takes effect at n_h (R431). -/
def execReclaimAck (m : TwinMessage) (s : State) : Out :=
  whenOn (fun s =>
    if s.twin.paired && !s.twin.lead && decide (s.twin.reclaimAt = some m.handoverFrame.toNat) then
      { s with twin.reclaimAcked := true, twin.heardEpoch := m.epoch.toNat }
    else s) s

/-! Commands (Table 16.10). -/

/-- TWIN.CONFIG (R419, Table 19.1). -/
def specTwinConfig : Spec :=
  { opcode := 0x0D00, same := fun a b => cellsCover 0 7 a b
    cls := fun _ => .ready, layout := cellsLayout 7
    range := fun _ a => firstBad [cellRange a 0 0 0 1, cellRange a 0 1 0 31, cellRange a 0 2 0 1, cellRange a 0 3 3 255,
      cellRange a 0 4 0 1, cellRange a 0 5 100 1000000]
    resource := fun s q => firstFail [(cellIn q.arg 0 1 (fun k => (quad s k).mode = .gul && !quadUsed s k), .conflict)]
    act := fun q s =>
      let a := q.arg
      let s := { s with
        twin.quad := if cellOn a 0 1 then some (cellVal a 0 1) else s.twin.quad
        twin.homeLead := if cellOn a 0 2 then decide (cellVal a 0 2 = 0) else s.twin.homeLead
        twin.k := cellOr a 0 3 s.twin.k
        twin.revertive := if cellOn a 0 4 then decide (cellVal a 0 4 = 0) else s.twin.revertive
        twin.h := cellOr a 0 5 s.twin.h
        twin.expect := if cellOn a 0 6 then BitVec.ofNat 64 (cellVal a 0 6) else s.twin.expect }
      if cellOn a 0 0 then
        let p := decide (cellVal a 0 0 = 1)
        { stopLead s with twin.paired := p, twin.noLeadRun := 0, twin.silentRun := 0, twin.bothRun := 0
                          twin.ckptTime := s.time.tb2 }
      else s }
def execTwinConfig (q : Request) (s : State) : Out := kenra (.twinConfig q) specTwinConfig q s

/-- TWIN.CHECKPOINT (R429). -/
def specTwinCheckpoint : Spec :=
  { opcode := 0x0D01, layout := noArg
    act := fun _ s => { s with twin.sendCkpt := s.twin.paired && s.twin.lead } }
def execTwinCheckpoint (q : Request) (s : State) : Out := kenra (.twinCheckpoint q) specTwinCheckpoint q s

/-- Twin status word (Table 19.4). -/
def twinWord (s : State) : Nat :=
  let t := s.twin
  bit (!s.tether.timingOut) * 8192 + bit t.skewed * 4096 + (t.sticky &&& 0x980).toNat + bit t.stale * 1024
    + bit t.reclaimAt.isSome * 512 + bit (t.lead && decide (0 < t.leadRun)) * 64 + bit t.linkDown * 32
    + bit t.pinDown * 16 + bit t.acqSilent * 8 + bit t.homeLead * 4
    + (if !t.paired then 0 else if t.lead then 2 else 1)

/-- Counters of R433 in its order. -/
def twinCtrs : List Ctr :=
  [.takeovers, .yields, .handovers, .reclaims, .checkpointsSent, .checkpointsReceived, .checkpointErrors,
   .checkpointMissing, .hbPinMissed, .hbLinkMissed, .silentFrames, .hbDouble, .dualLeadFrames]

/-- TWIN.STATUS (R433). -/
def specTwinStatus : Spec :=
  { opcode := 0x0D02, layout := statusLayout, sampled := true
    range := fun _ a => firstBad [(selCount a = 0, 2)]
    result := fun s q => statusResult q.arg (fun _ => twinWord s) (fun _ =>
      twinCtrs.map (fun c => counter c 0 s) ++ [s.twin.epoch, s.twin.partner.toNat,
        cellOfOpt ((newestCheckpoint s).map (·.1)), cellOfInt s.twin.skew])
    act := fun q s =>
      let s := if statusClear q.arg then clearCtrs twinCtrs 0 s else s
      if statusAck q.arg then setAlarm 0x0D03 0 false { s with twin.sticky := 0 } else s }
def execTwinStatus (q : Request) (s : State) : Out := kenra (.twinStatus q) specTwinStatus q s

end Sys2Proof.Machine
end

