-- ==== Sys2Proof/Machine/Health.lean ====
section
/-! DEFINITION. Housekeeping (chapter 20): the ADC, injected conversions, calibration, sensors and zones, causes, fans and
the HEALTH commands. Temperatures are in 1/16 °C. -/

namespace Sys2Proof.Machine

/-! The ADC (R434 to R441). -/

/-- Calibration pair of a channel (R441): stored or factory, the nominal pair where neither exists. -/
def calPair (s : State) (c : Nat) : Int × Int :=
  let stored := if 24 ≤ c ∧ c ≤ 31 then tabGet none s.health.cal (c - 24) else none
  (stored.orElse (fun _ => Config.factoryPair c)).getD (2520, 63015)

/-- Reported code and OVR of a raw code of channels 24 to 45, in exact arithmetic; 4095.5 gives 4095 (R435). -/
def calibrate (pair : Int × Int) (a : Nat) : Nat × Bool :=
  let num := (16 * (a : Int) - pair.1) * 4095
  let den := (pair.2 - pair.1).toNat
  if 8191 * (den : Int) < 2 * num then (4095, true)
  else if num < 0 then (0, false)
  else (min 4095 (roundTe num den).toNat, false)

/-- Reported code and OVR of a raw code of any channel. -/
def convert (s : State) (c a : Nat) : Nat × Bool :=
  if c < 24 then (a, decide (a = 4095))
  else if c ≤ 45 then calibrate (calPair s c) a
  else (a, false)

/-- Keeps a code with the number of the round during or after which it was taken (R434). -/
def keepCode (c a : Nat) (s : State) : State :=
  let (v, ovr) := convert s c a
  let s := { s with health.codes := tabSet (0, false, 0) s.health.codes c (v, ovr, s.health.round) }
  if ovr then count .ovrCount 0 { s with health.sticky := s.health.sticky ||| 0x8 } else s

/-- A round's own code of a channel is kept, unless an injected conversion of the channel came after it (R434). -/
def keepRound (c a : Nat) (s : State) : State :=
  if c ∈ s.health.roundNewer then
    (if (convert s c a).2 then count .ovrCount 0 { s with health.sticky := s.health.sticky ||| 0x8 } else s)
  else keepCode c a s

/-- The round has already taken its own conversion of a channel: each converter takes its channels in ascending order, every 0.5 µs,
beside the injected ones (R434, R437). -/
def takenInRound (s : State) (c : Nat) : Bool :=
  s.health.converting && decide (c / 2 + tabGet 0 s.health.roundInj (c % 2) < (s.time.tb2 - s.health.roundAt) / 500)

/-- The 256 conversions of a calibration step have the converter of a channel: even channels are ADC0's (Table 20.1). -/
def calBusy (s : State) (c : Nat) : Bool :=
  match s.health.calRunning, s.health.calStart with
  | some (i, _, _), some _ => i % 2 = c % 2
  | _, _ => false

/-- Injection entries of the converter of channel `c`. -/
def sharing (s : State) (c : Nat) : List Nat := (List.range 4).filter (fun e => (inject s e).channel % 2 = c % 2)

/-- TB2 time at which a round's conversions end on the converter of a channel: 12 µs after its tick, and 0.5 µs more for each injected
conversion that it took (R434). -/
def roundEndAt (s : State) (c : Nat) : Nat := s.health.roundAt + 12000 + 500 * tabGet 0 s.health.roundInj (c % 2)

/-- TB2 time at which the current conversion of a channel's converter ends: those of a round follow each other every 0.5 µs from the
tick, injected ones among them (R434, R437). -/
def converterFree (s : State) (c : Nat) : Nat :=
  let inRound := if s.health.converting && decide (s.time.tb2 < roundEndAt s c) then
      s.health.roundAt + (s.time.tb2 - s.health.roundAt + 499) / 500 * 500 else s.time.tb2
  (sharing s c).foldl (fun t e => max t (inject s e).busyUntil) inRound

/-- Entries that wait on one converter run in ascending entry number (R437). -/
def injectTurn (s : State) (e : Nat) : Bool :=
  (sharing s (inject s e).channel).all (fun k => decide (e ≤ k) || !((inject s k).waiting || (inject s k).latched))

/-- Runs an entry's conversion once its converter is free, 0.5 µs long, with its result and the GTS of its sampling instant; a
latched trigger's is the next (R437, R438). -/
def injectConvert (e raw : Nat) (s : State) : State :=
  let c := (inject s e).channel
  let s := elapseTo (converterFree s c) s
  let (v, ovr) := convert s c raw
  count .injected 0 (keepCode c raw (modInject e (fun x => { x with
    code := v, ovr := ovr, gts := s.time.tb2, busyUntil := s.time.tb2 + 500
    waiting := x.waiting && x.latched, latched := false })
    { s with health.roundNewer := if takenInRound s c then addSource s.health.roundNewer c else s.health.roundNewer
             health.roundInj := if s.health.converting then tabMod 0 s.health.roundInj (c % 2) (· + 1) else s.health.roundInj }))

/-- TB2 time of the coming tick. -/
def nextTickAt (s : State) : Nat := s.time.tb2 + (tickTime s (s.time.frame + 1) - s.time.tb0)

/-- A calibration step that waits begins once no injected conversion waits, runs or is latched on its converter, after the round of a
frame and where its 128 µs fit the frame (R439). -/
def calBegin (s : State) : State :=
  match s.health.calRunning, s.health.calStart with
  | some (i, _, _), none =>
    let t := converterFree s i
    if !s.health.converting && (sharing s i).all (fun e => !(inject s e).waiting && !(inject s e).latched) &&
        decide (t + 128000 ≤ nextTickAt s) then { s with health.calStart := some t } else s
  | _, _ => s

/-- A trigger whose delay expires while the entry's conversion waits or runs is latched; a further one is discarded
(R438). -/
def injectLatch (e : Nat) (s : State) : State :=
  let x := inject s e
  if x.latched then
    count .injOverrun 0 { s with health.sticky := s.health.sticky ||| BitVec.ofNat 32 (2 ^ (4 + e)) }
  else modInject e (fun x => { x with latched := true }) s

/-- An entry's conversion can begin, as a conversion that waits or a latched trigger, before its next delay expires. -/
def injectReady (s : State) (e : Nat) : Bool :=
  let x := inject s e
  (x.waiting || x.latched) && !calBusy s x.channel && injectTurn s e &&
    (match x.due with
     | [] => true
     | t :: _ => decide (converterFree s x.channel ≤ t))

/-- The earliest delay of an entry expires: its trigger is latched while its conversion waits or runs, waits while the converter is
a calibration step's or another entry's, and else runs (R437 to R439). -/
def injectExpire (e raw : Nat) (s : State) : State :=
  let x := inject s e
  match x.due with
  | [] => s
  | t :: rest =>
    let s := modInject e (fun x => { x with due := rest }) (elapseTo t s)
    if x.waiting || x.latched || decide (s.time.tb2 < x.busyUntil) then injectLatch e s
    else if calBusy s x.channel || (sharing s x.channel).any (fun k => k ≠ e &&
        ((inject s k).waiting || (inject s k).latched || decide (s.time.tb2 < (inject s k).busyUntil))) then
      modInject e (fun x => { x with waiting := true }) s
    else injectConvert e raw s

/-- ADC_INJECT_CONVERSION: a conversion that waits runs once its converter is free and its turn has come; else the earliest delay
expires (R437 to R439). A calibration step that waited for it may then begin. -/
def execAdcInjectConversion (entry : BitVec 2) (raw : Nat) (s : State) : Out :=
  whenOn (fun s => calBegin (if injectReady s entry.toNat then injectConvert entry.toNat raw s
    else injectExpire entry.toNat raw s)) s

/-- ADC_INJECT_TIMER: a timer entry fires each period (Table 20.2). -/
def execAdcInjectTimer (entry : BitVec 2) (s : State) : Out :=
  whenOn (fun s =>
    let x := inject s entry.toNat
    if x.trigger = some 0 then
      let t := x.since + x.delay
      modInject entry.toNat (fun x => { x with since := t, due := insertNat t x.due }) (elapseTo t s)
    else s) s

/-- ADC_TRIG_EDGE (R324, Table 20.2). -/
def execAdcTrigEdge (width : Nat) (s : State) : Out :=
  whenOn (fun s =>
    let (ok, s) := filterEdge 3 width s
    if ok then injectStart 3 none s else s) s

/-- FAN_PWM_EDGE: entry e is started by FAN_PWMe (Table 20.2). -/
def execFanPwmEdge (fanNo : BitVec 2) (s : State) : Out := whenOn (injectStart 2 (some fanNo.toNat)) s

/-- MRAM place of an input's stored pair in the configuration partition (log 27). -/
def calOffset (i : Nat) : Nat := 0x280000 + 4 * i

def isHealthCal : Instr → Bool
  | .healthAdcCal _ => true
  | _ => false

/-- ADC_CAL_STEP_DONE: 128 µs after they began, the 256 conversions of a step end; the sum of their raw codes gives a 16-fold average
(R439, R440; its rounding is log 27). -/
def execAdcCalStepDone (sum : Nat) (s : State) : Out :=
  whenOn (fun s =>
    match s.health.calRunning, s.health.calStart with
    | none, _ => s
    | some _, none => s
    | some (i, step, q), some t =>
      let c := roundTe sum 16
      let s := { elapseTo (t + 128000) s with health.calRunning := none, health.calStart := none }
      if step = 0 then
        finish (.healthAdcCal q) 0x0B03 q .ok 0 0 []
          { s with health.calStep0 := tabSet none s.health.calStep0 i (some c) }
      else
        let c0 := (tabGet none s.health.calStep0 i).getD 0
        let span := c - c0
        if (1880 ≤ c0 ∧ c0 ≤ 3160) ∧ (5868112 ≤ 100 * span ∧ 100 * span ≤ 6231088) then
          finish (.healthAdcCal q) 0x0B03 q .ok 0 0 []
            { s with health.calNext := tabSet none s.health.calNext i (some (c0, c))
                     boot.mram := memWrite s.boot.mram (calOffset i) (leInt 2 c0 ++ leInt 2 c) }
        else finish (.healthAdcCal q) 0x0B03 q .range 0 0 [] s) s

/-- Stored pairs apply from the round that begins (R440). -/
def applyCal (s : State) : State :=
  { s with health.cal := s.health.calNext.foldl (fun t e => tabSet none t e.1 e.2) s.health.cal, health.calNext := [] }

/-- The round of a tick begins (R434). -/
def startRound (s : State) : State :=
  applyCal { s with
    health.round := s.time.frame, health.converting := true, health.roundAt := s.time.tb2, health.roundInj := []
    health.roundNewer := [] }

/-! Sensors and zones (Tables 20.3, 20.4, R442 to R447). -/

/-- Sensors of a zone. -/
def zoneSensors (z : Nat) : List Nat :=
  if z = 0 then numbers 0 8 else if z = 1 then numbers 8 8 else if z = 2 then numbers 16 6
  else if z = 3 then [22] else [23]

/-- Zone of a sensor. -/
def zoneOf (t : Nat) : Nat := if t < 8 then 0 else if t < 16 then 1 else if t < 22 then 2 else if t = 22 then 3 else 4

/-- Neighbours of a sensor (Table 20.4). -/
def neighbours (t : Nat) : List Nat :=
  if t < 8 then [(t + 7) % 8, (t + 1) % 8, 22]
  else if t < 16 then [8 + (t + 7 - 8) % 8, 8 + (t + 1 - 8) % 8, 23]
  else if t < 22 then [16 + (t + 5 - 16) % 6, 16 + (t + 1 - 16) % 6]
  else if t = 22 then [1, 2, 5, 6] else [9, 10, 13, 14]

/-- Converter of channel `c` is faulty. -/
def adcFaulty (s : State) (c : Nat) : Bool := tabGet false s.health.adcFault (c % 2)

/-- A sensor counts for its zone (R443, R444). -/
def included (s : State) (t : Nat) : Bool := !(sensor s t).excluded && !adcFaulty s t

/-- Sorted copy of a short list. -/
def sortInts (l : List Int) : List Int :=
  l.foldl (fun acc x => acc.filter (fun y => decide (y ≤ x)) ++ x :: acc.filter (fun y => decide (x < y))) []

/-- Twice the median; that of an even count is the mean of the middle two (R443). -/
def median2 (l : List Int) : Int :=
  let m := sortInts l
  let n := m.length
  if n % 2 = 1 then 2 * m.getD (n / 2) 0 else m.getD (n / 2 - 1) 0 + m.getD (n / 2) 0

/-- Readings of the included neighbours. -/
def nearReadings (s : State) (t : Nat) : List Int :=
  ((neighbours t).filter (included s)).map (fun n => (sensor s n).reading)

/-- The neighbours agree: at least two included, each within 5 °C of their median (R443). -/
def agree (s : State) (t : Nat) : Bool :=
  let l := nearReadings s t
  decide (2 ≤ l.length) && l.all (fun r => decide ((2 * r - median2 l).natAbs ≤ 160))

/-- Run counts of a sensor against its agreeing neighbours' median. -/
def sensorRuns (s : State) (t : Nat) : Nat × Nat :=
  let x := sensor s t
  let ok := agree s t
  let d := (2 * x.reading - median2 (nearReadings s t)).natAbs
  (if ok && decide (480 < d) then x.offRun + 1 else 0, if ok && decide (d ≤ 160) then x.nearRun + 1 else 0)

/-- Exclusion and readmission of one sensor, its runs taken before any of the round's exclusions (R443). -/
def crossCheck (s : State) (r : Nat × Nat × Nat) : State :=
  let t := r.1
  let x := sensor s t
  let s := modSensor t (fun x => { x with offRun := r.2.1, nearRun := r.2.2 }) s
  if !x.excluded && decide (8 ≤ r.2.1) then
    raise 0x0B01 3 t [] (setAlarm 0x0B01 t true (count .exclusions (zoneOf t)
      (modSensor t (fun x => { x with excluded := true, nearRun := 0 }) s)))
  else if x.excluded && decide (1000 ≤ r.2.2) then
    setAlarm 0x0B01 t false (modSensor t (fun x => { x with excluded := false, offRun := 0 }) s)
  else s

/-- The top of the scale, 191.9375 °C. -/
def topReading : Int := 3071

/-- Zone temperature, and whether nothing of the zone can be measured (R442, R444). -/
def zoneTemp (s : State) (z : Nat) : Int × Bool :=
  let l := (zoneSensors z).flatMap (fun t => if included s t then [(sensor s t).reading] else nearReadings s t)
  match l with
  | [] => (topReading, true)
  | x :: t => (t.foldl max x, false)

/-- Thresholds of a zone in order. -/
def thresholds (z : Zone) : List Int := [z.warning, z.throttle, z.shutdown]

/-- Dwell of a zone at a temperature (R446): 4 consecutive rounds at or above reach a threshold; 4 below it less h
leave it. -/
def dwell (t : Int) (z : Zone) : Zone :=
  let up := (List.range 3).map (fun i => if (thresholds z).getD i 0 ≤ t then z.upRuns.getD i 0 + 1 else 0)
  let down := (List.range 3).map (fun i => if t < (thresholds z).getD i 0 - z.hyst then z.downRuns.getD i 0 + 1 else 0)
  let reached := (List.range 3).map (fun i => if z.reached.getD i false then decide (down.getD i 0 < 4)
    else decide (4 ≤ up.getD i 0))
  let state := if reached.getD 2 false then 3 else if reached.getD 1 false then 2 else if reached.getD 0 false then 1 else 0
  { z with upRuns := up, downRuns := down, reached := reached, state := state
           throttleSeen := z.throttleSeen || (reached.getD 1 false && !z.reached.getD 1 false)
           shutdownSeen := z.shutdownSeen || (reached.getD 2 false && !z.reached.getD 2 false) }

/-- Rounds in one second (R447). -/
def roundsPerSecond (s : State) : Nat := 1000000 / max 1 s.time.period

/-- Rate of rise and the cause RATE (R447). With less than a second of rounds there is no rise yet (log 27). -/
def rateOf (n : Nat) (t : Int) (z : Zone) : Zone :=
  let rise := if n ≤ z.history.length then t - z.history.getD (n - 1) t else 0
  let up := if z.rateLimit ≤ rise then z.rateUp + 1 else 0
  let down := if 2 * rise < z.rateLimit then z.rateDown + 1 else 0
  let on := if z.rate then decide (down < 4) else decide (4 ≤ up) && decide (z.throttle - 240 ≤ t)
  { z with rise := rise, rateUp := up, rateDown := down, rate := on, history := (t :: z.history).take n }

/-- Counter of entries to a zone state. -/
def entryCtr (state : Nat) : Option Ctr :=
  if state = 1 then some .warningEntries else if state = 2 then some .throttleEntries
  else if state = 3 then some .shutdownEntries else none

/-- One zone after a round: temperature, states, counters and the ZONE_STATE event, an alarm at WARNING and above. -/
def judgeZone (s : State) (z : Nat) : State :=
  let old := zone s z
  let (t, none') := zoneTemp s z
  let s := modZone z (fun x => { rateOf (roundsPerSecond s) t (dwell t x) with temp := t, unmeasured := none' }) s
  let new := zone s z
  let s := if new.rate && !old.rate then count .rateCauses z s else s
  if new.state = old.state then s
  else
    let s := if old.state < new.state then (match entryCtr new.state with
        | some c => count c z s
        | none => s) else s
    raiseEvent s.time.tb2 0x0B00 3 (decide (1 ≤ new.state)) false t (cells [t, z, new.state, old.state])
      (setAlarm 0x0B00 z (decide (1 ≤ new.state)) s)

/-- Self-check of a converter on the code of its check channel: faulty after 4 rounds out of band, readmitted after 64 in it (R436). -/
def selfCheck (s : State) (k code : Nat) : State :=
  let ok := decide (2032 ≤ code ∧ code ≤ 2064)
  let (o, i) := tabGet (0, 0) s.health.adcRuns k
  let o := if ok then 0 else o + 1
  let i := if ok then i + 1 else 0
  let bad := tabGet false s.health.adcFault k
  let s := { s with health.adcRuns := tabSet (0, 0) s.health.adcRuns k (o, i) }
  if !bad && decide (4 ≤ o) then
    raise 0x0B02 3 code [k] (setAlarm 0x0B02 k true (count .adcFaults 0
      { s with health.adcFault := tabSet false s.health.adcFault k true }))
  else if bad && decide (64 ≤ i) then
    setAlarm 0x0B02 k false { s with health.adcFault := tabSet false s.health.adcFault k false }
  else s

/-- DIMM_HOT: a hub above 95 °C for 4 rounds raises it, every hub at or below 92 °C for 4 clears it (Table 20.7). -/
def judgeDimms (s : State) : State :=
  let s := (List.range 12).foldl (fun s c => if (dramCh s c).trained then
    modDram c (fun d => { d with
      hotRounds := d.hubTemps.foldl (fun t e => tabSet 0 t e.1 (if 1520 < e.2 then tabGet 0 d.hotRounds e.1 + 1 else 0)) []
      coolRounds := if chanAbove 1472 d then 0 else d.coolRounds + 1 }) s else s) s
  let l := (List.range 12).filter (fun c => (dramCh s c).trained)
  let hot := l.any (fun c => (dramCh s c).hotRounds.any (fun e => decide (4 ≤ e.2)))
  let cool := l.all (fun c => decide (4 ≤ (dramCh s c).coolRounds))
  { s with health.dimmHot := hot || (s.health.dimmHot && !cool) }

/-- The causes of Table 20.7; SHUTDOWN calls for SAFE at the next tick, and a lead hands over (R448, R449). -/
def raiseCauses (was : Bool) (s : State) : State :=
  let zs := List.range 5
  let s := setCause .thermal (zs.any (fun z => decide (2 ≤ (zone s z).state))) s
  let s := setCause .rate (zs.any (fun z => (zone s z).rate)) s
  let s := setCause .dimmHot s.health.dimmHot s
  let now := zs.any (fun z => decide ((zone s z).state = 3))
  if now && !was then askSafe s else s

/-- ALERT_N is asserted (R451). -/
def alertAsserted (s : State) : Bool := alarmActive s || (List.range 5).any (fun z => decide (1 ≤ (zone s z).state))

/-- THERMTRIP_N is asserted: with the latched trip (R450). -/
def thermtripAsserted (s : State) : Bool := s.power.tripLatch.isSome

/-! Fans (R452 to R454). -/

/-- Edges of the last second. -/
def fanEdges (s : State) (f : Nat) : Nat :=
  ((fan s f).edges.filter (fun t => decide (s.time.tb2 < t + 1000000000))).length

/-- Speed in rpm. -/
def fanSpeed (s : State) (f : Nat) : Nat := fanEdges s f * 60 / max 1 (fan s f).ppr

/-- The speed is below the minimum; a minimum of 0 disables R454. -/
def fanSlow (s : State) (f : Nat) : Bool :=
  decide (fanEdges s f * 60 < (fan s f).minRpm * max 1 (fan s f).ppr)

/-- A zone is in THROTTLE or SHUTDOWN. -/
def hotZone (s : State) : Bool := (List.range 5).any (fun z => decide (2 ≤ (zone s z).state))

/-- Every fan must run at 100 %, fan `f` among them: a hot zone, or another fan that has failed (R452, R454). -/
def fanFull (s : State) (f : Nat) : Bool :=
  hotZone s || (List.range 4).any (fun g => g != f && (fan s g).fail)

/-- Target duty of a curve at a temperature, between its points (R452; rounding: log 27). -/
def curveAt (t : List Int) (d : List Nat) (x : Int) : Nat :=
  let seg := fun (i : Nat) =>
    let t0 := t.getD i 0
    let t1 := t.getD (i + 1) 0
    let d0 : Int := d.getD i 0
    let d1 : Int := d.getD (i + 1) 0
    (d0 + roundTe ((d1 - d0) * (x - t0)) (max 1 (t1 - t0).toNat)).toNat
  if x ≤ t.getD 0 0 then d.getD 0 0
  else if x < t.getD 1 0 then seg 0
  else if x < t.getD 2 0 then seg 1
  else if x < t.getD 3 0 then seg 2
  else d.getD 3 0

/-- Temperature of a fan's controlling zones: the greatest; with none named, below every point (DESIGN CHOICE 27). -/
def fanTemp (s : State) (f : Nat) : Int :=
  ((List.range 5).filter (fun z => testBit (fan s f).zones.toNat z)).foldl (fun m z => max m (zone s z).temp) (-1024)

/-- Duty of a fan after a cycle (R452): CURVE moves by at most the slew, FIXED takes its duty; never below the Tether's
30 %. -/
def cycleDuty (s : State) (f : Nat) : Nat :=
  let x := fan s f
  let target := curveAt x.t x.d (fanTemp s f)
  let duty := if x.fixed then x.fixedDuty
    else if x.duty < target then min target (x.duty + x.slew) else max target (x.duty - x.slew)
  if fanFull s f then 1000 else max 300 duty

/-- Fans that must run at 100 % do so at once. -/
def forceFans (s : State) : State :=
  (List.range 4).foldl (fun s f => if fanFull s f then modFan f (fun x => { x with duty := 1000 }) s else s) s

/-- FAN_CYCLE of a FAN trigger that has fired (R452, R453). -/
def execFanCycle (s : State) : Out :=
  whenOn (fun s =>
    if s.health.fanDue = 0 then s
    else
      let duties := (List.range 4).map (fun f => (f, cycleDuty s f, curveAt (fan s f).t (fan s f).d (fanTemp s f)))
      let s := duties.foldl (fun s d => modFan d.1 (fun x => { x with
        duty := d.2.1, target := if x.fixed then x.target else d.2.2 }) s) s
      setAlarm 0x0B80 0 false (count .fanCycles 0
        { s with health.fanDue := s.health.fanDue - 1, health.lastFan := some s.time.tb2, health.fanIdle := false })) s

/-- FAN_LOOP_IDLE: no cycle for 10 s, counted from BOOT before the first; its alarm's event has no code in Table 21.2, and its cells
are open (R453, log 23). -/
def execFanLoopIdle (s : State) : Out :=
  whenOn (fun s =>
    let t := s.health.lastFan.getD (s.time.tb2 - s.time.tb3)
    let s := elapseTo (t + 10000000000) s
    let s := if s.health.fanIdle then s else raiseOpen true 0x0B 3 0 [] s
    setAlarm 0x0B80 0 true ((List.range 4).foldl (fun s f => modFan f (fun x => { x with duty := 1000 }) s)
      { s with health.fanIdle := true })) s

/-- FAN_TACH_EDGE (R324, R454). -/
def execFanTachEdge (fanNo : BitVec 2) (width : Nat) (s : State) : Out :=
  whenOn (fun s =>
    let f := fanNo.toNat
    let (ok, s) := filterEdge (4 + f) width s
    if ok then modFan f (fun x => { x with
      edges := s.time.tb2 :: x.edges.filter (fun t => decide (s.time.tb2 < t + 1000000000)) }) s else s) s

/-- What a fan's speed and duty have been: the times since which R454's conditions hold; FAN_FAIL clears after 3 s at or
above the minimum. -/
def watchFan (s : State) (f : Nat) : State :=
  let x := fan s f
  let now := s.time.tb2
  let slow := fanSlow s f
  let low := if slow && decide (500 ≤ x.duty) then some (x.lowSince.getD now) else none
  let good := if x.fail && !slow then some (x.goodSince.getD now) else none
  let clear := match good with
    | some t => decide (t + 3000000000 ≤ now)
    | none => false
  let s := modFan f (fun x => { x with
    lowSince := low, goodSince := if clear then none else good, fail := x.fail && !clear }) s
  if clear then setAlarm 0x0B03 f false s else s

/-- FAN_FAIL: 3 s below the minimum at 50 % or more (R454). -/
def execFanFail (fanNo : BitVec 2) (s : State) : Out :=
  whenOn (fun s =>
    let f := fanNo.toNat
    match (fan s f).lowSince with
    | none => s
    | some t =>
      let s := elapseTo (t + 3000000000) s
      if fanSlow s f && !(fan s f).fail then
        let v := fanSpeed s f
        let s := modFan f (fun x => { x with fail := true, goodSince := none }) s
        raise 0x0B03 3 v [f] (setAlarm 0x0B03 f true (count .fanFails f (forceFans s)))
      else s) s

/-- ADC_ROUND_END, once both converters have taken their 24 channels: the codes of the round, converter self-checks, cross-check, zones,
causes and fans; a calibration step that waits may then begin (R434 to R449). -/
def execAdcRoundEnd (codes : List Nat) (s : State) : Out :=
  whenOn (fun s =>
    if !s.health.converting then s
    else
      let was := (List.range 5).any (fun z => decide ((zone s z).state = 3))
      let raw := fun c => min 4095 (codes.getD c 0)
      let s := (List.range 48).foldl (fun s c => keepRound c (raw c) s)
        (count .rounds 0 { elapseTo (max (roundEndAt s 0) (roundEndAt s 1)) s with health.converting := false })
      let s := (List.range 24).foldl (fun s t =>
        modSensor t (fun x => { x with reading := (raw t : Int) - 1024 }) s) s
      let s := selfCheck (selfCheck s 0 (raw 46)) 1 (raw 47)
      let runs := (List.range 24).map (fun t => (t, sensorRuns s t))
      let s := runs.foldl crossCheck s
      let s := (List.range 5).foldl judgeZone s
      let s := raiseCauses was (judgeDimms s)
      calBegin ((List.range 4).foldl watchFan (forceFans s))) s

/-! Commands (Table 16.10). -/

/-- A zone as the masked cells leave it; a change of threshold or hysteresis restarts its dwell (R445). -/
def zoneWith (a : List Byte) (z : Zone) : Zone :=
  let c := fun (i : Nat) (old : Int) => if cellOn a 8 i then 16 * (cellVal a 8 i : Int) else old
  let changed := (List.range 4).any (fun i => cellOn a 8 i)
  { z with warning := c 0 z.warning, throttle := c 1 z.throttle, shutdown := c 2 z.shutdown, hyst := c 3 z.hyst
           rateLimit := c 4 z.rateLimit
           upRuns := if changed then [0, 0, 0] else z.upRuns, downRuns := if changed then [0, 0, 0] else z.downRuns }

/-- HEALTH.CONFIG (R445, R21): five cells of a zone and the device-wide hold-off. -/
def specHealthConfig : Spec :=
  { opcode := 0x0B00, layout := selCellsLayout 8 6 [] (fun i => i = 5)
    range := fun s a => firstBad [(selOk 5 a, 0), cellRange a 8 0 70 105, cellRange a 8 1 75 110, cellRange a 8 2 80 115,
      cellRange a 8 3 1 10, cellRange a 8 4 1 50, cellRange a 8 5 100 60000,
      ((selected a).all (fun k => let z := zoneWith a (zone s k)
        decide (z.warning < z.throttle) && decide (z.throttle < z.shutdown)), 16)]
    act := fun q s =>
      let s := (selected q.arg).foldl (fun s k => modZone k (zoneWith q.arg) s) s
      { s with dev.holdoff := cellOr q.arg 8 5 s.dev.holdoff } }
def execHealthConfig (q : Request) (s : State) : Out := kenra (.healthConfig q) specHealthConfig q s

/-- HEALTH.ADC.READ (R434): code, flags and round of each channel, 7 bytes each (log 27). -/
def specHealthAdcRead : Spec :=
  { opcode := 0x0B01, layout := layoutBad selForm
    range := fun _ a => firstBad [(selOk 48 a, 0)]
    result := fun s q => (selected q.arg).flatMap (fun c =>
      let (v, ovr, r) := tabGet (0, false, 0) s.health.codes c
      leBytes 2 v ++ [BitVec.ofNat 8 (bit ovr)] ++ leBytes 4 r)
    act := fun _ s => s }
def execHealthAdcRead (q : Request) (s : State) : Out := kenra (.healthAdcRead q) specHealthAdcRead q s

/-- HEALTH.ADC.INJECT (R437, R438): delays count in 10 ns steps; a timer's period is 10 µs to 1 s. -/
def specHealthAdcInject : Spec :=
  { opcode := 0x0B02, layout := layoutBad [(0, 1), (1, 1), (2, 1), (4, 4)]
    range := fun _ a => firstBad [(decide (u8 a 0 ≤ 3), 0), (decide (u8 a 1 ≤ 47), 1), (decide (u8 a 2 ≤ 3), 2),
      (decide (u32 a 4 ≤ 1000000000) && (u8 a 2 ≠ 0 || decide (10000 ≤ u32 a 4)), 4)]
    act := fun q s => modInject (u8 q.arg 0) (fun x => { x with
      channel := u8 q.arg 1, trigger := some (u8 q.arg 2), delay := u32 q.arg 4 / 10 * 10, due := [], latched := false
      since := s.time.tb2 }) s }
def execHealthAdcInject (q : Request) (s : State) : Out := kenra (.healthAdcInject q) specHealthAdcInject q s

/-- HEALTH.ADC.CAL (R439, R440). -/
def specHealthAdcCal : Spec :=
  { opcode := 0x0B03, event := true, layout := layoutBad [(0, 1), (1, 1)]
    range := fun _ a => firstBad [(decide (u8 a 0 ≤ 7), 0), (decide (u8 a 1 ≤ 1), 1)]
    follows := fun s a => decide (u8 a 1 ≠ 1) || (tabGet none s.health.calStep0 (u8 a 0)).isSome
    resource := fun s _ => firstFail [(s.health.calRunning.isNone, .busy)]
    act := fun q s => calBegin { s with health.calRunning := some (u8 q.arg 0, u8 q.arg 1, q), health.calStart := none } }
def execHealthAdcCal (q : Request) (s : State) : Out := kenra (.healthAdcCal q) specHealthAdcCal q s

/-- A fan as the masked cells leave it. -/
def fanWith (a : List Byte) (f : Fan) : Fan :=
  { f with
    fixed := if cellOn a 8 0 then decide (cellVal a 8 0 = 1) else f.fixed
    fixedDuty := cellOr a 8 1 f.fixedDuty
    zones := if cellOn a 8 2 then BitVec.ofNat 5 (cellVal a 8 2) else f.zones
    t := (List.range 4).map (fun i => if cellOn a 8 (3 + i) then 16 * (cellVal a 8 (3 + i) : Int) else f.t.getD i 0)
    d := (List.range 4).map (fun i => cellOr a 8 (7 + i) (f.d.getD i 0))
    slew := cellOr a 8 11 f.slew, ppr := cellOr a 8 12 f.ppr, minRpm := cellOr a 8 13 f.minRpm }

/-- Temperatures strictly rising. -/
def rising (l : List Int) : Bool := (l.zip (l.drop 1)).all (fun p => decide (p.1 < p.2))

/-- HEALTH.FAN.CONFIG (Table 20.9). -/
def specHealthFanConfig : Spec :=
  { opcode := 0x0B04, layout := selCellsLayout 8 14 [] (fun _ => false)
    range := fun s a => firstBad ([(selOk 4 a, 0), cellRange a 8 0 0 1, cellRange a 8 1 300 1000, cellRange a 8 2 0 31] ++
      (numbers 3 4).map (fun i => cellRange a 8 i 0 115) ++ (numbers 7 4).map (fun i => cellRange a 8 i 300 1000) ++
      [cellRange a 8 11 10 1000, cellRange a 8 12 1 4, cellRange a 8 13 0 30000,
       ((selected a).all (fun f => rising (fanWith a (fan s f)).t), 40)])
    act := fun q s => (selected q.arg).foldl (fun s f => modFan f (fanWith q.arg) s) s }
def execHealthFanConfig (q : Request) (s : State) : Out := kenra (.healthFanConfig q) specHealthFanConfig q s

/-- Zone status word (Table 20.10), and for instance 5 the housekeeping status word (Table 20.11). -/
def healthWord (s : State) (i : Nat) : Nat :=
  if i ≤ 4 then
    let z := zone s i
    let ex := ((zoneSensors i).zipIdx.map (fun e => bit (!included s e.1) * 2 ^ (12 + e.2))).sum
    ex + bit z.shutdownSeen * 2048 + bit z.throttleSeen * 1024 + bit z.rate * 512 + bit z.unmeasured * 256 + z.state
  else
    ((List.range 4).map (fun f => bit (fan s f).fail * 2 ^ (10 + f))).sum + bit s.health.fanIdle * 512
      + bit s.health.dimmHot * 256 + (s.health.sticky &&& 0xF8).toNat + bit s.health.calRunning.isSome * 4
      + bit (adcFaulty s 1) * 2 + bit (adcFaulty s 0)

/-- Counters of zones and of instance 5 (R455). -/
def zoneCtrs : List Ctr := [.warningEntries, .throttleEntries, .shutdownEntries, .rateCauses, .exclusions]
def healthCtrs : List Ctr := [.rounds, .injected, .injOverrun, .ovrCount, .adcFaults, .fanCycles]

/-- Counters and further content (R455). -/
def healthValues (s : State) (i : Nat) : List Nat :=
  if i ≤ 4 then
    zoneCtrs.map (fun c => counter c i s) ++ [cellOfInt (zone s i).temp, cellOfInt (zone s i).rise] ++
      (zoneSensors i).map (fun t => cellOfInt (sensor s t).reading)
  else
    healthCtrs.map (fun c => counter c 0 s) ++
      (List.range 4).flatMap (fun e => [(inject s e).code, bit (inject s e).ovr, (inject s e).gts]) ++
      (List.range 4).flatMap (fun f => [(fan s f).duty, fanSpeed s f, counter .fanFails f s])

/-- HEALTH.STATUS (R455). -/
def specHealthStatus : Spec :=
  { opcode := 0x0B05, layout := statusLayout, sampled := true, rom := true
    range := fun _ a => firstBad [(selOk 6 a, 0)]
    result := fun s q => statusEach q.arg (healthWord s) (healthValues s)
    act := fun q s =>
      let v := healthValues s
      let s := clearShown q.arg v (fun i s =>
          if i ≤ 4 then clearCtrs zoneCtrs i s
          else (List.range 4).foldl (fun s f => clearCtr .fanFails f s) (clearCtrs healthCtrs 0 s)) s
      ackShown q.arg v (fun i s =>
          if i ≤ 4 then modZone i (fun z => { z with shutdownSeen := false, throttleSeen := false }) s
          else { s with health.sticky := 0 }) s }
def execHealthStatus (q : Request) (s : State) : Out := kenra (.healthStatus q) specHealthStatus q s

end Sys2Proof.Machine
end

