-- ==== Sys2Proof/Machine/Lanes.lean ====
section
/-! DEFINITION. Serial lanes and modules (chapter 12): quad states and their causes, blocks that steer them, sleep,
Ethernet links, modules, patterns, and the LANE, ETH and MODULE commands. -/

namespace Sys2Proof.Machine

/-- Quad of a lane, and the lane's number in it (R269). -/
def quadOf (l : Nat) : Nat := l / 4
def laneIn (l : Nat) : Nat := l % 4

/-- An Ethernet mode. -/
def isEth (m : QuadMode) : Bool := m = .eth200 || m = .eth100

/-- Tap bounds of R479. -/
def tapsOk (t : List Int) : Bool :=
  let inside := fun (v lo hi : Int) => decide (lo ≤ v) && decide (v ≤ hi)
  match t with
  | [a, b, c, d, e] => inside a 0 7 && inside b (-15) 0 && inside c 24 63 && inside d (-15) 0 && inside e 0 7 &&
      decide (a.natAbs + b.natAbs + c.natAbs + d.natAbs + e.natAbs ≤ 63)
  | _ => false

/-- Presets P0 to P4 (Table 22.8). -/
def preset (n : Nat) : List Int :=
  match n with
  | 0 => [0, 0, 63, 0, 0]
  | 1 => [0, -4, 55, -4, 0]
  | 2 => [0, -6, 49, -8, 0]
  | 3 => [2, -8, 43, -10, 0]
  | _ => [2, -10, 35, -14, 2]

/-- Changes the four lanes of a quad. -/
def modLanes (k : Nat) (f : Lane → Lane) (s : State) : State := (List.range 4).foldl (fun s j => modLane (4 * k + j) f s) s

/-- A lane's lock and deskew are gone: it hunts again from the next candidate (R275). -/
def Lane.unlocked (x : Lane) : Lane :=
  { x with blockLock := false, deskewed := false, codewordLock := false, alignCount := none, alignMissed := 0, huntRun := 0
           winPos := 0, winBad := 0, codewords := 0, badCodewords := [] }

/-- Lock and deskew of a quad's lanes are gone, and with them the frame in progress (R274). -/
def unlockLanes (k : Nat) (s : State) : State :=
  modLanes k Lane.unlocked (modQuad k (fun q => { q with rxPos := 0 }) (abortFrame k s))

/-- A quad starts training: P2 unless its taps are fixed, no RX_READY yet (R279). -/
def startTrain (k : Nat) (s : State) : State :=
  let fixed := (quad s k).fixedTaps
  modLanes k (fun l => { l with taps := if fixed then l.taps else preset 2, atLimit := false, rxReadySent := false,
                                rxReadyGot := false, trainFrom := none })
    (modQuad k (fun q => { q with state := .train, since := s.time.tb2, readySince := none }) (unlockLanes k s))

/-- What a link in use agreed ends with it. -/
def endLink (q : Quad) : Quad :=
  { q with inUse := 0, fecOn := false, napAgreed := false, idleAgreed := false, napTx := false, napRx := false,
           napAsked := false, exitFrom := none, capSeen := 0, capLast := none, ackSent := false, offerWidth := q.width }

/-- A quad goes to a state outside ACTIVE with nothing agreed. -/
def goTo (st : LinkState) (k : Nat) (s : State) : State :=
  drainDown k (unlockLanes k (modQuad k (fun q => { endLink q with state := st, since := s.time.tb2 }) s))

/-- State in which an Ethernet link begins: a module's has its PCS to align, another negotiates first (Table 12.6). -/
def ethStart (q : Quad) : LinkState := if q.modulePresent && !q.moduleLowPower then .lock else .detect

/-- A link leaves ACTIVE (or IDLE) for TRAIN (R282): counted and raised with the state it left. -/
def retrain (k : Nat) (s : State) : State :=
  let q := quad s k
  let code := if q.state = .idle then 6 else 5
  if q.state = .active || q.state = .idle then
    let s := raise 0x0300 (76 + k) code [] (count .retrains k (modQuad k (fun q => { endLink q with retrained := true }) s))
    drainDown k (if isEth q.mode && ethStart q = .lock then goTo .lock k s else startTrain k s)
  else s

/-- A link loss (R270, R282, R290, R475): a GUL link retrains, an Ethernet link goes down and begins anew. -/
def linkLoss (k : Nat) (s : State) : State :=
  let q := quad s k
  if isEth q.mode then (if q.state = .off then s else goTo (ethStart q) k s) else retrain k s

/-- Takes a quad down at once: its enable bit has been cleared (R270). -/
def quadDown (k : Nat) (s : State) : State := goTo .off k (linkLoss k s)

/-- Starts a quad as its mode says; one in pattern mode stays there (R270, R279, R295). -/
def startQuad (k : Nat) (s : State) : State :=
  let q := quad s k
  goTo (if q.mode = .off || !quadEnabled s k || q.pattern then .off else if isEth q.mode then ethStart q else .detect) k s

/-! Bring-up (R275, R276, R279 to R281). -/

/-- Time of `n` blocks of a lane in ns, rounded up: 66 bits each at the rate of CAP index 0 (R271, Table 12.4). -/
def blocksNs (rate n : Nat) : Nat :=
  if rate = 1 then ceilDiv (n * 66 * 1000) 53125 else if rate = 2 then ceilDiv (n * 66 * 10000) 265625
  else ceilDiv (n * 66 * 100000) 2578125

/-- RECEIVER_DETECT: TRAIN once a receiver is present on every configured lane. -/
def execReceiverDetect (quadNo : BitVec 5) (present : BitVec 4) (s : State) : Out :=
  whenOn (fun s =>
    let k := quadNo.toNat
    let q := quad s k
    if q.state ≠ .detect || q.mode ≠ .gul then s
    else
      let s := modQuad k (fun q => { q with detected := present }) s
      if (List.range q.width).all (fun j => testBit present.toNat j) then startTrain k s else s) s

/-- Applies a TRAIN request to transmit taps (R479, Table 12.2): none where it would break a bound. -/
def applyRequest (r : Nat) (t : List Int) : Option (List Int) :=
  let t' :=
    if 0x10 ≤ r ∧ r ≤ 0x14 then preset (r - 0x10)
    else if 0x20 ≤ r ∧ r ≤ 0x24 then t.modify (r - 0x20) (· + 1)
    else if 0x30 ≤ r ∧ r ≤ 0x34 then t.modify (r - 0x30) (· - 1)
    else t
  if tapsOk t' then some t' else none

/-- A TRAIN block in TRAIN: the request, the partner's RX_READY, and the own one after 10^6 blocks (R279; log 30). -/
def trainLane (l request flags : Nat) (s : State) : State :=
  let q := quad s (quadOf l)
  let x := lane s l
  let since := x.trainFrom.getD s.time.tb2
  let ready := x.rxReadySent || decide (since + blocksNs q.rate 1000000 ≤ s.time.tb2)
  let done := if q.fixedTaps then some x.taps else applyRequest request x.taps
  modLane l (fun x => { x with
    taps := done.getD x.taps, atLimit := done.isNone, rxReadyGot := testBit flags 0, rxReadySent := ready
    trainFrom := some since }) s

/-- Every configured lane has sent and received RX_READY. -/
def allReady (s : State) (k : Nat) : Bool :=
  (List.range (quad s k).width).all (fun j => let x := lane s (4 * k + j); x.rxReadySent && x.rxReadyGot)

/-- A TRAIN block on lane `l`: in ACTIVE the partner's TRAIN blocks start a retrain (R282), or where its direction sleeps a fast exit (R284);
in TRAIN, LOCK follows 1 ms of RX_READY on every lane. -/
def trainReceived (l : Nat) (request flags : Byte) (s : State) : State :=
    let k := quadOf l
    let q := quad s k
    if q.mode ≠ .gul then s
    else if q.state = .active || q.state = .idle then
      if q.inUse ≤ laneIn l then s
      else if q.napRx then modQuad k (fun q => { q with exitFrom := some (q.exitFrom.getD s.time.tb2) }) s
      else retrain k s
    else if q.state ≠ .train || decide (q.width ≤ laneIn l) then s
    else
      let s := trainLane l request.toNat flags.toNat s
      if !allReady s k then modQuad k (fun q => { q with readySince := none }) s
      else
        let since := (quad s k).readySince.getD s.time.tb2
        if since + 1000000 ≤ s.time.tb2 then startStream k (unlockLanes k (modQuad k (fun q => { q with
            state := .lock, since := s.time.tb2, readySince := none }) s))
        else modQuad k (fun q => { q with readySince := some since }) s

/-- TRAIN_BLOCK_RECEIVE: a block that is no TRAIN block names nothing here. -/
def execTrainBlockReceive (laneNo : BitVec 7) (b : GulBlock) (s : State) : Out :=
  whenOn (fun s =>
    match controlIn b with
    | some (.train request flags) => trainReceived laneNo.toNat request flags s
    | _ => s) s

/-- TB2 reaches the end of a quad's time in its state: `n` ns from its beginning (Table 12.3; log 6). -/
def stateEnds (k n : Nat) (s : State) : State := elapse ((quad s k).since + n - s.time.tb2) s

/-- TRAIN_TIMEOUT (R279): 500 ms of TRAIN return the quad to DETECT. -/
def execTrainTimeout (quadNo : BitVec 5) (s : State) : Out :=
  whenOn (fun s =>
    let k := quadNo.toNat
    if (quad s k).state = .train && (quad s k).mode = .gul then
      count .trainTimeout k (goTo .detect k (stateEnds k 500000000 s))
    else s) s

/-- LOCK ends in EXCHANGE once the lanes hold block lock, deskew and, with FEC, codeword lock (Table 12.3). -/
def lockDone (k : Nat) (s : State) : State :=
  let q := quad s k
  if q.state = .lock && (List.range q.width).all (fun j =>
      let x := lane s (4 * k + j)
      x.blockLock && x.deskewed && (x.codewordLock || !fecWanted q)) then
    sendCaps k (modQuad k (fun q => { q with
      state := .exchange, since := s.time.tb2, offerWidth := q.width, capSeen := 0, capLast := none, ackSent := false }) s)
  else s

/-- The quad's receivers hunt for blocks: any state from LOCK on (R275). -/
def receiving (q : Quad) : Bool :=
  q.mode = .gul && (q.state = .lock || q.state = .exchange || q.state = .active)

/-- A header at the candidate position of a lane that hunts: an invalid one moves the candidate by one bit, the 128th valid one in a
row declares block lock (R275). -/
def Lane.hunt (x : Lane) (h : BitVec 2) : Lane :=
  if x.blockLock then x
  else if !headerValid h then { x with huntRun := 0, candidate := (x.candidate + 1) % 66 }
  else if x.huntRun < 127 then { x with huntRun := x.huntRun + 1 }
  else { x with huntRun := 0, blockLock := true, winPos := 0, winBad := 0 }

/-- BLOCK_LOCK_ACQUIRED (R275): headers that a hunting lane tests, in their order. -/
def execBlockLockAcquired (laneNo : BitVec 7) (headers : List (BitVec 2)) (s : State) : Out :=
  whenOn (fun s =>
    let l := laneNo.toNat
    if receiving (quad s (quadOf l)) then
      lockDone (quadOf l) (modLane l (fun x => headers.foldl Lane.hunt x) s)
    else s) s

/-- A lane in use of a link that is ACTIVE has lost lock or deskew (R282). -/
def laneFailed (l : Nat) (s : State) : State :=
  let q := quad s (quadOf l)
  if q.state = .active && decide (laneIn l < q.inUse) then retrain (quadOf l) s else s

/-- A header of a locked lane, as received before FEC: invalid ones are counted in windows of 256 headers from lock on, and the 24th of
a window loses lock (R275, R278). -/
def headerSeen (l : Nat) (h : BitVec 2) (s : State) : State :=
  let x := lane s l
  if !(receiving (quad s (quadOf l)) && x.blockLock) then s
  else
    let bad := x.winBad + bit (!headerValid h)
    let s := if headerValid h then s else count .invalidHeaders l s
    if 24 ≤ bad then laneFailed l (modLane l Lane.unlocked (count .lockLoss l s))
    else modLane l (fun x => { x with winPos := (x.winPos + 1) % 256, winBad := if x.winPos = 255 then 0 else bad }) s

/-- BLOCK_LOCK_LOST (R275): headers that a locked lane receives, in their order. -/
def execBlockLockLost (laneNo : BitVec 7) (headers : List (BitVec 2)) (s : State) : Out :=
  whenOn (fun s => headers.foldl (fun s h => headerSeen laneNo.toNat h s) s) s

/-- ALIGN counts of the other lanes of the quad's stream agree with a lane's: equal, or one behind where their block of this period is
still to come. -/
def alignAgrees (s : State) (l c : Nat) : Bool :=
  (List.range (streamWidth (quad s (quadOf l)))).all (fun j => 4 * quadOf l + j = l || match (lane s (4 * quadOf l + j)).alignCount with
    | some x => x = c || (x + 1) % 65536 = c
    | none => true)

/-- An ALIGN block on lane `l` (R276, R277): the first after block lock measures the skew and fixes codeword lock, the second
that agrees completes deskew (Table 12.5); one that disagrees loses it. -/
def alignReceived (l : Nat) (logical width : Byte) (c skew : Nat) (s : State) : State :=
    let k := quadOf l
    let x := lane s l
    if !(receiving (quad s k) && x.blockLock) then s
    else
      let follows := match x.alignCount with
        | some p => (p + 1) % 65536 = c
        | none => true
      let good := follows && logical.toNat = laneIn l && decide (laneIn l < width.toNat) && decide (skew ≤ 256) &&
        alignAgrees s l c
      if good then
        lockDone k (modLane l (fun x => { x with
          alignCount := some c, alignMissed := 0, lastSkew := skew, codewordLock := true, deskewed := x.alignCount.isSome }) s)
      else
        laneFailed l (modLane l (fun x => { x with alignCount := none, alignMissed := 0, deskewed := false }) s)

/-- ALIGN_BLOCK_RECEIVE (R276, R277): a block that is no ALIGN block names nothing here. -/
def execAlignBlockReceive (laneNo : BitVec 7) (b : GulBlock) (skew : Nat) (s : State) : Out :=
  whenOn (fun s =>
    match controlIn b with
    | some (.align logical width c) => alignReceived laneNo.toNat logical width c skew s
    | _ => s) s

/-- ALIGN_MISSING (R276): an alignment period ends without its ALIGN block, which is counted; the second in a row loses deskew. -/
def execAlignMissing (laneNo : BitVec 7) (s : State) : Out :=
  whenOn (fun s =>
    let l := laneNo.toNat
    let x := lane s l
    if !receiving (quad s (quadOf l)) || x.alignCount.isNone then s
    else
      let s := count .alignMissing l s
      if x.alignMissed = 0 then
        modLane l (fun x => { x with alignMissed := 1, alignCount := x.alignCount.map (fun c => (c + 1) % 65536) }) s
      else laneFailed l (modLane l (fun x => { x with alignCount := none, alignMissed := 0, deskewed := false }) s)) s

/-- FEC_CODEWORD: at most 5 bit errors are corrected; an uncorrectable codeword makes its blocks invalid (R278). On an Ethernet quad the Reed-Solomon codewords of Table 12.6:
15 symbols, or 7 under RS(528,514). -/
def execFecCodeword (laneNo : BitVec 7) (w : FecWord) (s : State) : Out :=
  whenOn (fun s =>
    let l := laneNo.toNat
    let k := quadOf l
    let q := quad s k
    match w with
    | .rs n =>
      if !isEth q.mode || !quadEnabled s k then s
      else
        let t := if q.mode = .eth100 && q.rate = 3 then 7 else 15
        let s := countN .symbolErrors l n s
        if n = 0 then s else count (if n ≤ t then .rsCorrected else .rsUncorrectable) k s
    | .gul blocks =>
      if !(receiving q && fecRuns q && (lane s l).codewordLock) then s
      else
        let s := modLane l (fun x => { x with codewords := x.codewords + 1 }) s
        match bchErrors blocks with
        | some n => countN .fecCorrectedBits l n s
        | none => count .fecUncorrectable l (modLane l (fun x => { x with
            badCodewords := x.badCodewords ++ [x.codewords - 1] }) s)) s

/-- The lanes of a quad from `w` on go to electrical idle (R281). -/
def idleLanes (k w : Nat) (s : State) : State := (numbers w (4 - w)).foldl (fun s j => modLane (4 * k + j) Lane.unlocked s) s

/-- LOCK_TIMEOUT (R281): after 1 ms the largest width whose lanes hold lock and deskew, not below MIN_WIDTH, is offered; else TRAIN. -/
def execLockTimeout (quadNo : BitVec 5) (s : State) : Out :=
  whenOn (fun s =>
    let k := quadNo.toNat
    let q := quad s k
    if q.state ≠ .lock || q.mode ≠ .gul then s
    else
      let s := stateEnds k 1000000 s
      let holds := fun (w : Nat) => (List.range w).all (fun j => let x := lane s (4 * k + j); x.blockLock && x.deskewed)
      match [4, 2, 1].find? (fun w => decide (q.minWidth ≤ w) && decide (w ≤ q.width) && holds w) with
      | none => startTrain k (count .lockTimeout k s)
      | some w =>
        let s := sendCaps k (idleLanes k w (modQuad k (fun q => { q with
          state := .exchange, since := s.time.tb2, offerWidth := w, capSeen := 0, capLast := none, ackSent := false }) s))
        if w < q.width then raise 0x0302 (76 + k) w [] (count .widthReduced k s) else s) s

/-- The largest width both offer. -/
def agreedWidth (q : Quad) (c : CapSet) : Option Nat :=
  [4, 2, 1].find? (fun w => offers q w && testBit c.widths.toNat (Nat.log2 w))

/-- FEC of the agreed link; none where REQUIRED meets OFF (R280). -/
def agreedFec (q : Quad) (c : CapSet) : Option Bool :=
  if (q.fec = 2 && c.fec = 0) || (q.fec = 0 && c.fec = 2) then none
  else if q.fec = 2 || c.fec = 2 then some true
  else some (q.fec = 1 && c.fec = 1 && q.rate = 1)

/-- CAP set as numbers: index 0's bytes 2 to 6, the identity, the quad. -/
def capCells (c : CapSet) : List Int :=
  [(c.rate + 256 * c.widths.toNat + 65536 * c.fec + 2 ^ 24 * c.features.toNat + 2 ^ 32 * bit c.ack : Nat),
   (c.identity.toNat : Nat), (c.quad : Nat)]

/-- On the twin quad a CAP set comes from the partner whose identity TWIN.CONFIG gives, if it gives one (R419). -/
def capExpected (s : State) (k : Nat) (c : CapSet) : Bool :=
  decide (s.twin.quad ≠ some k) || decide (s.twin.expect = 0) || decide (c.identity = s.twin.expect)

/-- Judges a CAP set received twice (R280, R419): FAULT on a mismatch, else ACK, and ACTIVE once both have sent it. -/
def judgeCap (k : Nat) (c : CapSet) (s : State) : State :=
  let q := quad s k
  match decide (c.rate = q.rate) && capExpected s k c, agreedWidth q c, agreedFec q c with
  | true, some w, some f =>
    let s := sendCaps k (modQuad k (fun q => { q with ackSent := true }) s)
    if c.ack then
      flushFrames k (idleLanes k w (modQuad k (fun q => { q with
        state := .active, since := s.time.tb2, inUse := w, fecOn := f, napAgreed := q.nap && testBit c.features.toNat 0
        idleAgreed := q.idleOn && testBit c.features.toNat 1 }) s))
    else s
  | _, _, _ =>
    raise 0x0301 (76 + k) c.rate (capCells c) (count .incompatible k (unlockLanes k (modQuad k (fun q => { endLink q with
      state := .fault, since := s.time.tb2, capLast := some c }) s)))

/-- A CAP block's content taken into a set (Table 12.4). -/
def capTake (index : Nat) (l : List Byte) (c : CapSet) : CapSet :=
  if index = 0 then
    { c with rate := u8 l 0, widths := BitVec.ofNat 3 (u8 l 1), fec := u8 l 2, features := BitVec.ofNat 3 (u8 l 3), ack := testBit (u8 l 4) 0 }
  else if index = 1 then { c with identity := BitVec.ofNat 64 (beVal (slice l 0 6) * 65536 + c.identity.toNat % 65536) }
  else { c with identity := BitVec.ofNat 64 (c.identity.toNat / 65536 * 65536 + beVal (slice l 0 2)), quad := u8 l 2 }

/-- A CAP block (R272, R280): the same set twice in a row is judged. The own set goes out anew for every set that has been received: sets
follow one another until ACTIVE. -/
def capReceived (k : Nat) (index : Byte) (content : List Byte) (s : State) : State :=
    let q := quad s k
    let i := index.toNat
    if q.state ≠ .exchange || q.mode ≠ .gul || decide (2 < i) then s
    else
      let c := capTake i content q.capNow
      let seen := q.capSeen ||| BitVec.ofNat 3 (2 ^ i)
      if seen ≠ 7 then modQuad k (fun q => { q with capNow := c, capSeen := seen }) s
      else
        let twice : Bool := match q.capLast with
          | some p => decide ({ p with ack := c.ack } = c)
          | none => false
        let s := modQuad k (fun q => { q with capNow := c, capSeen := 0, capLast := some c }) s
        if twice then judgeCap k c s else sendCaps k s

/-- CAP_BLOCK_RECEIVE (R280): a block that is no CAP block names nothing here. -/
def execCapBlockReceive (quadNo : BitVec 5) (b : GulBlock) (s : State) : Out :=
  whenOn (fun s =>
    match controlIn b with
    | some (.cap index content) => capReceived quadNo.toNat index content s
    | _ => s) s

/-- EXCHANGE_TIMEOUT (Table 12.3). -/
def execExchangeTimeout (quadNo : BitVec 5) (s : State) : Out :=
  whenOn (fun s =>
    let k := quadNo.toNat
    if (quad s k).state = .exchange && (quad s k).mode = .gul then startTrain k (modQuad k endLink (stateEnds k 1000000 s))
    else s) s

/-- QUAD_LOST (R282): a quad in use that has been out of ACTIVE for 10 consecutive frames calls for DEGRADED. -/
def execQuadLost (quadNo : BitVec 5) (s : State) : Out :=
  whenOn (fun s =>
    let k := quadNo.toNat
    if quadUsed s k && !linkUp s k && decide (10 ≤ (quad s k).outFrames) then
      setCause .quadLost true (modQuad k (fun q => { q with lost := true }) s)
    else s) s

/-- At a tick: frames out of ACTIVE of the quads in use; a quad that is back stops counting as lost (R282). -/
def quadsTick (s : State) : State :=
  let s := (List.range 32).foldl (fun s k =>
    if linkUp s k || !quadUsed s k then modQuad k (fun q => { q with outFrames := 0, lost := false }) s
    else modQuad k (fun q => { q with outFrames := q.outFrames + 1 }) s) s
  if (List.range 32).any (fun k => (quad s k).lost) then s else setCause .quadLost false s

/-! Sleep (R283 to R285). -/

/-- Both directions asleep with IDLE agreed: the link is in IDLE. -/
def maybeIdle (k : Nat) (s : State) : State :=
  modQuad k (fun q => { q with state := if q.napTx && q.napRx && q.idleAgreed && q.state = .active then .idle else q.state }) s

/-- NAP blocks act on a link in ACTIVE with NAP agreed. -/
def napOn (q : Quad) : Bool := q.napAgreed && (q.state = .active || q.state = .idle)

/-- NAP_IDLE_TIMER (R283): TB2 reaches the end of the idle time, counted from the last frame. -/
def execNapIdleTimer (quadNo : BitVec 5) (s : State) : Out :=
  whenOn (fun s =>
    let k := quadNo.toNat
    let q := quad s k
    if napOn q && q.nap && decide (0 < q.idleNs) && !q.napTx && !q.napAsked then
      let s := elapse (max (q.lastFrame + q.idleNs) q.wakingUntil - s.time.tb2) s
      sendControl k (.nap 1) (modQuad k (fun q => { q with napAsked := true }) s)
    else s) s

/-- NAP_REQ: NAP_NAK while the own direction is waking, else NAP_ACK (R283). -/
def execNapReq (quadNo : BitVec 5) (s : State) : Out :=
  whenOn (fun s =>
    let k := quadNo.toNat
    let q := quad s k
    if !napOn q then s
    else if s.time.tb2 < q.wakingUntil then sendControl k (.nap 3) s
    else maybeIdle k (modQuad k (fun q => { q with napRx := true }) (sendControl k (.nap 2) s))) s

/-- NAP_ACK (R283). -/
def execNapAck (quadNo : BitVec 5) (s : State) : Out :=
  whenOn (fun s =>
    let k := quadNo.toNat
    let q := quad s k
    if napOn q && q.napAsked then
      maybeIdle k (count .napEntries k (modQuad k (fun q => { q with napTx := true, napAsked := false }) (catchUp k s)))
    else s) s

/-- NAP_NAK (R283). -/
def execNapNak (quadNo : BitVec 5) (s : State) : Out :=
  whenOn (fun s => modQuad quadNo.toNat (fun q => { q with napAsked := false }) s) s

/-- What the lanes in use receive is a fast exit that holds (R284): 32 valid headers on each, and ALIGN blocks that agree, with the next
count. -/
def exitHolds (s : State) (k : Nat) (l : List ExitLane) : Bool :=
  let w := (quad s k).inUse
  decide (l.length = w) && l.zipIdx.all (fun e =>
    decide (e.1.headers.length = 32) && e.1.headers.all headerValid && (match controlIn e.1.align with
      | some (.align logical width c) => decide (logical.toNat = e.2) && decide (width.toNat = w) &&
          (match (lane s (4 * k + e.2)).alignCount with
           | some n => decide ((n + 1) % 65536 = c)
           | none => true)
      | _ => false))

/-- FAST_EXIT (R284, R285): of the own direction, which takes 33 blocks to wake, after which the frames that wait leave, and cancels an
unanswered request; or of the partner's, accepted where it holds. The exit's ALIGN block carries the next count. -/
def execFastExit (quadNo : BitVec 5) (own : Bool) (lanes : List ExitLane) (s : State) : Out :=
  whenOn (fun s =>
    let k := quadNo.toNat
    let q := quad s k
    if !napOn q then s
    else if own then
      if q.napTx then
        flushFrames k (sendWake k (modQuad k (fun q => { q with
          napTx := false, wakingUntil := s.time.tb2 + blocksNs q.rate 33, state := .active }) s))
      else modQuad k (fun q => { q with napAsked := false }) s
    else if !q.napRx then s
    else if exitHolds s k lanes then
      modLanes k (fun l => { l with
          alignCount := l.alignCount.map (fun c => (c + 1) % 65536), alignMissed := 0, codewords := 0, badCodewords := [] })
        (modQuad k (fun q => { q with napRx := false, exitFrom := none, rxPos := 0, state := .active }) s)
    else modQuad k (fun q => { q with exitFrom := some (q.exitFrom.getD s.time.tb2) }) s) s

/-- FAST_EXIT_TIMEOUT (R284): 2 µs from its first TRAIN block the partner's exit has not been accepted. The own direction is woken if it
sleeps, and trains. -/
def execFastExitTimeout (quadNo : BitVec 5) (s : State) : Out :=
  whenOn (fun s =>
    let k := quadNo.toNat
    let q := quad s k
    match q.exitFrom with
    | some t =>
      if napOn q && q.napRx then
        let s := elapse (t + 2000 - s.time.tb2) s
        let s := if q.napTx then sendWake k (modQuad k (fun q => { q with napTx := false, state := .active }) s) else s
        retrain k (count .fastExitFail k (modQuad k (fun q => { q with fastExitFailed := true }) s))
      else s
    | none => s) s

/-! Ethernet links and modules (R286, R289 to R291, R475). -/

/-- The base page that an Ethernet quad sends: its mode with RS-FEC, no pause, no Next Page (Table 12.6). -/
def ethPage (q : Quad) : EthPage := { kr200 := q.mode = .eth200, kr100 := q.mode = .eth100, rsFec := true }

/-- A partner's base page offers the quad's mode; what else it offers is not used (R286, R287). -/
def pageAgrees (q : Quad) (p : EthPage) : Bool := (p.kr200 && (ethPage q).kr200) || (p.kr100 && (ethPage q).kr100)

/-- ETH_LINK_CHANGE (R209, R286, Table 12.9): auto-negotiation ends in training, training in PCS alignment, and alignment in the link, whose
PCS lock the four lanes show. -/
def execEthLinkChange (quadNo : BitVec 5) (change : EthChange) (s : State) : Out :=
  whenOn (fun s =>
    let k := quadNo.toNat
    let q := quad s k
    if !isEth q.mode || !quadEnabled s k || q.pattern then s
    else match change, q.state with
      | .page p, .detect => if pageAgrees q p then goTo .train k s else s
      | .trained, .train => goTo .lock k s
      | .aligned, .lock =>
        modLanes k (fun l => { l with blockLock := true, deskewed := true })
          (modQuad k (fun q => { q with state := .active, since := s.time.tb2, inUse := 4 }) s)
      | .down, _ => linkLoss k s
      | _, _ => s) s

/-- A management master selects the cage of one of its four quads (R289). -/
def selectModule (k : Nat) (s : State) : State := { s with lanes.selected := tabSet none s.lanes.selected (k / 4) (some k) }

/-- Code of a quad mode (Table 12.9). -/
def QuadMode.code : QuadMode → Nat
  | .off => 0 | .gul => 1 | .eth200 => 2 | .eth100 => 3

/-- SFF-8024 host interface code of the AUI of a mode (PRESUMED, log 30). -/
def auiCode (m : QuadMode) : Nat := if m = .eth200 then 0x0F else 0x0C

/-- MODULE_INSERT (R290): on an Ethernet quad the identity is read, the Application that matches the mode is selected, the host-side signal
settings are made and low power is released, so that the PCS aligns; a module without one stays in low power with MODULE_UNSUPPORTED,
an alarm whose event has no code in Table 21.2 (log 30). -/
def execModuleInsert (quadNo : BitVec 5) (identity applications : List Byte) (s : State) : Out :=
  whenOn (fun s =>
    let k := quadNo.toNat
    let q := quad s k
    if testBit s.power.vmodOff.toNat (k / 8) then s
    else
      let s := modQuad k (fun q => { q with
        modulePresent := true, moduleLowPower := true, moduleApp := none, moduleFlags := [], moduleBytes := []
        moduleId := if isEth q.mode then identity else [], moduleSignal := none, moduleInt := false }) s
      if !isEth q.mode then s
      else
        let found := applications.findIdx? (fun b => b.toNat = auiCode q.mode)
        let s := setAlarm 0x0380 k found.isNone s
        let s := if found.isNone then raiseOpen true 3 (76 + k) applications.length [] s else s
        let s := modQuad k (fun q => { q with
          moduleApp := found, moduleLowPower := found.isNone, moduleSignal := found.map (fun _ => Config.hostSignal q.mode.code) }) s
        if q.state = .detect then goTo (ethStart (quad s k)) k s else s) s

/-- A module is gone: a link loss where its quad is in use (R290). -/
def removeModule (k : Nat) (s : State) : State :=
  if !(quad s k).modulePresent then s
  else
    linkLoss k (setAlarm 0x0380 k false (modQuad k (fun q => { q with
      modulePresent := false, moduleLowPower := true, moduleApp := none, moduleFlags := [], moduleId := [], moduleSignal := none
      moduleInt := false, moduleBytes := [] }) s))

/-- MODULE_REMOVE (R290). -/
def execModuleRemove (quadNo : BitVec 5) (s : State) : Out := whenOn (removeModule quadNo.toNat) s

/-- MODULE_POLL (R290): the firmware reads the flags; a module holds MOD_INT_N while one is set. -/
def execModulePoll (quadNo : BitVec 5) (flags : List Byte) (s : State) : Out :=
  whenOn (fun s => modQuad quadNo.toNat (fun q => if q.modulePresent then
    { q with moduleFlags := flags, moduleInt := flags.any (fun b => b ≠ 0) } else q) (selectModule quadNo.toNat s)) s

/-- VMOD_OVERLOAD: the output is off and every module it feeds is absent (R475). -/
def execVmodOverload (k : BitVec 2) (s : State) : Out :=
  whenOn (fun s =>
    let s := { s with power.vmodOff := s.power.vmodOff ||| BitVec.ofNat 4 (2 ^ k.toNat) }
    (numbers (8 * k.toNat) 8).foldl (fun s q => removeModule q s) s) s

/-- VMOD_RETRY: the output is on again; its modules announce themselves by their insertion (R475). -/
def execVmodRetry (k : BitVec 2) (s : State) : Out :=
  whenOn (fun s => { s with power.vmodOff := s.power.vmodOff &&& ~~~ (BitVec.ofNat 4 (2 ^ k.toNat)) }) s

/-! Patterns (R292 to R295). -/

/-- A bit received by a lane's checker (R293). It seeds itself from the bits received; after 1024 correct bits in a row it is locked
and goes on by itself, counting bits and errors, until 256 of 1024 bits in a row are wrong. -/
def checkBit (l : Nat) (p : Nat × Nat) (b : Bool) (s : State) : State :=
  let x := lane s l
  let c := x.checker
  let n := patternDepth p
  if c.hist.length < n then modLane l (fun x => { x with checker := { c with hist := b :: c.hist } }) s
  else
    let want := patternNext p c.hist
    let hist := (want :: c.hist).take n
    if !x.checkLock then
      if b ≠ want then modLane l (fun x => { x with checker := { hist := [b] } }) s
      else if c.run < 1023 then modLane l (fun x => { x with checker := { hist := hist, run := c.run + 1 } }) s
      else modLane l (fun x => { x with checkLock := true, checker := { hist := hist } }) s
    else
      let wrong := (decide (b ≠ want) :: c.wrong).take 1024
      let s := countN .errors l (bit (decide (b ≠ want))) (count .bits l s)
      if (wrong.filter (·)).length < 256 then modLane l (fun x => { x with checker := { hist := hist, wrong := wrong } }) s
      else count .patternRelock l (modLane l (fun x => { x with checkLock := false, checker := {} }) s)

/-- A lane sends the next `n` bits of its pattern, at PAM4 rates two to a symbol (R292, R294). -/
def sendPattern (p : Nat × Nat) (n l : Nat) (s : State) : State :=
  let x := lane s l
  let r := patternBits p n x.genHist
  let s := modLane l (fun x => { x with genHist := r.2 }) (putBits l r.1 s)
  if (quad s (quadOf l)).rate ≠ 1 then s
  else
    let bits := x.genHalf.toList ++ (lane s l).sentBits
    modLane l (fun x => { x with
      sentSymbols := (List.range (bits.length / 2)).map (fun i => pam4 (bits.getD (2 * i) false) (bits.getD (2 * i + 1) false))
      genHalf := if bits.length % 2 = 1 then bits.getLast? else none }) s

/-- PATTERN_CHECK_LOCK (R270, R292, R293): bits that a lane receives in pattern mode, in their order. Meanwhile the lane sends as many of its
own pattern (log 48). -/
def execPatternCheckLock (laneNo : BitVec 7) (bits : List Bool) (s : State) : Out :=
  whenOn (fun s =>
    let l := laneNo.toNat
    match (lane s l).genPattern with
    | some p =>
      if (quad s (quadOf l)).pattern && quadEnabled s (quadOf l) then
        bits.foldl (fun s b => checkBit l p b s) (sendPattern p bits.length l s)
      else s
    | none => s) s

/-- A generator's history as it starts: a square wave begins with its ones; for the others the manual gives no seed, so that it is free,
but not all zeros (R292; log 48). -/
def genStart (p : Nat × Nat) (seed : Nat) : List Bool :=
  let n := patternDepth p
  if p.1 = 5 then List.replicate n false
  else (List.range n).map (fun i => Nat.testBit (1 + seed % (2 ^ n - 1)) i)

/-- The committed schedule, the twin link or the relay uses a quad (R295). -/
def inTraffic (s : State) (k : Nat) : Bool :=
  quadUsed s k || (s.twin.paired && s.twin.quad = some k) ||
  (match s.compass.relay with
   | some (a, b) => a = k || b = k
   | none => false)

/-- Sets pattern mode of a lane's quad, or its injection (R294, R295). -/
def setPattern (a : List Byte) (l : Nat) (s : State) : State :=
  let k := quadOf l
  let inj := if u8 a 11 = 0 then none else some (u8 a 11, u16 a 12, u8 a 14, u8 a 15)
  if u8 a 8 = 0 then
    let s := modLane l (fun x => { x with genPattern := none, inject := none, checkLock := false, checker := {} }) s
    if (quad s k).pattern && (List.range 4).all (fun j => (lane s (4 * k + j)).genPattern.isNone) then
      startQuad k (modQuad k (fun q => { q with pattern := false }) s)
    else s
  else if u8 a 8 = 1 then
    let p := (u8 a 9, u8 a 10)
    let d := draw s
    let s := modLane l (fun x => { x with
      genPattern := some p, genHist := genStart p d.1, genHalf := none, sentBits := [], sentSymbols := [], inject := inj, injPos := 0
      checkLock := false, checker := {} }) d.2
    modQuad k (fun q => { q with pattern := true }) (goTo .off k s)
  else modLane l (fun x => { x with inject := inj, injPos := 0 }) s

/-- LANE.PRBS (R292 to R295). -/
def specLanePrbs : Spec :=
  { opcode := 0x0302, layout := layoutBad (selForm ++ [(8, 8)])
    range := fun _ a =>
      firstBad [(selOk 128 a, 0), (decide (u8 a 8 ≤ 2), 8), (decide (u8 a 9 ≤ 5), 9),
        (u8 a 8 ≠ 1 || u8 a 9 ≠ 5 || decide (1 ≤ u8 a 10 ∧ u8 a 10 ≤ 64), 10), (decide (u8 a 11 ≤ 3), 11),
        (u8 a 11 ≠ 2 || decide (1 ≤ u16 a 12 ∧ u16 a 12 ≤ 1024), 12),
        (u8 a 11 ≠ 3 || decide (1 ≤ u8 a 14 ∧ u8 a 14 ≤ 15), 14), (u8 a 11 ≠ 3 || decide (u8 a 15 ≤ 40), 15)]
    resource := fun s q => firstFail [((selected q.arg).all (fun l => !inTraffic s (quadOf l)), .conflict)]
    act := fun q s => (selected q.arg).foldl (fun s l => setPattern q.arg l s) s }
def execLanePrbs (q : Request) (s : State) : Out := kenra (.lanePrbs q) specLanePrbs q s

/-! LANE, ETH and MODULE commands (Table 16.7). -/

/-- Fixed taps of a cell: five s8, byte 7 bit 0 FIXED. -/
def cellTaps (a : List Byte) : List Int := (List.range 5).map (fun i => s8 a (80 + i))
def cellFixed (a : List Byte) : Bool := testBit (u8 a 87) 0

/-- Mode of an index. -/
def modeOf (i : Nat) : QuadMode := if i = 0 then .off else if i = 1 then .gul else if i = 2 then .eth200 else .eth100

/-- A quad's link settings with a command's cells put in. -/
def configured (a : List Byte) (q : Quad) : Quad :=
  { q with
    mode := if cellOn a 8 0 then modeOf (cellVal a 8 0) else q.mode, rate := cellOr a 8 1 q.rate
    width := cellOr a 8 2 q.width, minWidth := cellOr a 8 3 q.minWidth, fec := cellOr a 8 4 q.fec
    nap := cellOr a 8 5 (bit q.nap) = 1, idleOn := cellOr a 8 6 (bit q.idleOn) = 1
    idleNs := cellOr a 8 7 q.idleNs, fixedTaps := if cellOn a 8 8 then cellFixed a else q.fixedTaps }

/-- Mode, rate and width stand together in Table 12.1, and MIN_WIDTH is not above the width (R269, R281). -/
def modeFits (q : Quad) : Bool :=
  match q.mode with
  | .off => true
  | .gul => decide (1 ≤ q.rate) && decide (q.minWidth ≤ q.width)
  | .eth200 => q.rate = 1 && q.width = 4
  | .eth100 => (q.rate = 2 || q.rate = 3) && q.width = 4

/-- LANE.CONFIG on one quad: FAULT leaves for TRAIN, and a changed link setting restarts any other state (Table 12.3). -/
def configQuad (a : List Byte) (k : Nat) (s : State) : State :=
  let link := (List.range 5).any (cellOn a 8)
  let was := (quad s k).state
  let s := modQuad k (configured a) s
  let s := if cellOn a 8 8 && cellFixed a then modLanes k (fun l => { l with taps := cellTaps a }) s else s
  if (quad s k).pattern then s
  else if was = .fault && (quad s k).mode = .gul then startTrain k s
  else if link then startQuad k s
  else s

/-- LANE.CONFIG (R269, R270, R279). -/
def specLaneConfig : Spec :=
  { opcode := 0x0300, same := fun a b => selCovers a b && cellsCover 8 9 a b
    layout := fun a => (selCellsLayout 8 9 [] (fun _ => false) a).or ((cellSpare a 8 8 5 2).or
      (if cellOn a 8 8 && decide (1 < u8 a 87) then some 87 else none))
    cls := fun a => cellsClass a 8 9 (fun i => if i < 5 then .ready else .live)
    range := fun s a =>
      let w := fun (v : Nat) => v = 1 || v = 2 || v = 4
      firstBad [(selOk 32 a, 0), cellRange a 8 0 0 3, cellRange a 8 1 1 3, (cellIn a 8 2 w, 32), (cellIn a 8 3 w, 40),
        cellRange a 8 4 0 2, cellRange a 8 5 0 1, cellRange a 8 6 0 1,
        (cellIn a 8 7 (fun v => v = 0 || decide (1000 ≤ v ∧ v ≤ 10000000)), 72),
        (!cellOn a 8 8 || !cellFixed a || tapsOk (cellTaps a), 80),
        ((selected a).all (fun k => modeFits (configured a (quad s k))), 16)]
    resource := fun s q => firstFail [(!cellOn q.arg 8 0 || cellVal q.arg 8 0 = 0 ||
      (selected q.arg).all (quadEnabled s), .tether)]
    act := fun q s => (selected q.arg).foldl (fun s k => configQuad q.arg k s) s }
def execLaneConfig (q : Request) (s : State) : Out := kenra (.laneConfig q) specLaneConfig q s

/-- LANE.RETRAIN (R282): quads in ACTIVE or FAULT; an Ethernet link begins anew. -/
def specLaneRetrain : Spec :=
  { opcode := 0x0301, layout := layoutBad selForm, range := fun _ a => firstBad [(selOk 32 a, 0)]
    act := fun q s => (selected q.arg).foldl (fun s k =>
      if (quad s k).state = .fault then startTrain k s else retrain k s) s }
def execLaneRetrain (q : Request) (s : State) : Out := kenra (.laneRetrain q) specLaneRetrain q s

/-- State code of a quad status word (Table 12.9). -/
def LinkState.code : LinkState → Nat
  | .off => 0 | .detect => 1 | .train => 2 | .lock => 3 | .exchange => 4 | .active => 5 | .idle => 6 | .fault => 7

/-- Quad status word (Table 12.9). -/
def laneWord (s : State) (k : Nat) : Nat :=
  let q := quad s k
  let lanes := fun (f : Lane → Nat → Bool) => (List.range 4).foldl (fun v j => v + 2 ^ j * bit (f (lane s (4 * k + j)) j)) 0
  let width := if q.inUse = 1 then 0 else if q.inUse = 2 then 1 else if q.inUse = 4 then 2 else 3
  q.state.code * 2 ^ 20 + q.mode.code * 2 ^ 18 + width * 65536 + bit q.fecOn * 32768 + bit q.napTx * 16384
    + bit q.napRx * 8192 + bit q.pattern * 4096 + bit q.lost * 2048 + bit q.fastExitFailed * 1024 + bit q.retrained * 512
    + bit q.frameErr * 256 + lanes (fun x _ => x.blockLock) * 16 + lanes (fun x j => x.deskewed && decide (j < q.inUse))

/-- Counters of R296 in its order. -/
def laneCtrs : List Ctr :=
  [.invalidHeaders, .lockLoss, .fecCorrectedBits, .fecUncorrectable, .alignMissing, .bits, .errors, .patternRelock]
def quadCtrs : List Ctr :=
  [.framesOk, .fcsError, .lengthError, .aborted, .fecDrop, .stray, .undersize, .oversize, .macFiltered, .controlLimited,
   .retrains, .trainTimeout, .lockTimeout, .incompatible, .widthReduced, .fastExitFail, .napEntries]

/-- Every counter of a quad with its instance. -/
def quadCounters (s : State) (k : Nat) : List (Ctr × Nat) :=
  (List.range 4).flatMap (fun j => laneCtrs.map (fun c => (c, 4 * k + j))) ++ quadCtrs.map (fun c => (c, k)) ++
  (if isEth (quad s k).mode then [(.rsCorrected, k), (.rsUncorrectable, k)] ++
    (List.range 4).map (fun j => (.symbolErrors, 4 * k + j)) else [])

/-- Values of LANE.STATUS: the counters, then the partner's last CAP set (R296). -/
def laneValues (s : State) (k : Nat) : List Nat :=
  (quadCounters s k).map (fun c => counter c.1 c.2 s) ++ (capCells ((quad s k).capLast.getD {})).map cellOfInt

/-- LANE.STATUS (R296). -/
def specLaneStatus : Spec :=
  { opcode := 0x0303, layout := statusLayout, sampled := true, range := fun _ a => firstBad [(selOk 32 a, 0)]
    result := fun s q => statusEach q.arg (laneWord s) (laneValues s)
    act := fun q s =>
      let v := laneValues s
      ackShown q.arg v (fun k s =>
          modQuad k (fun q => { q with fastExitFailed := false, retrained := false, frameErr := false }) s)
        (clearShown q.arg v (fun k s => (quadCounters s k).foldl (fun s c => clearCtr c.1 c.2 s) s) s) }
def execLaneStatus (q : Request) (s : State) : Out := kenra (.laneStatus q) specLaneStatus q s

/-- ETH.CONFIG (R288): MAC, MTU, IPv4 address and prefix, IPv6 address in two cells, the lower half first, and prefix; each is a
little-endian number (R5, R373; log 51). -/
def specEthConfig : Spec :=
  { opcode := 0x0304, same := fun a b => selCovers a b && cellsCover 8 7 a b
    cls := fun _ => .ready, layout := selCellsLayout 8 7 [] (fun _ => false)
    range := fun _ a => firstBad [(selOk 32 a, 0), cellRange a 8 0 0 (2 ^ 48 - 1), cellRange a 8 1 1500 9198,
      cellRange a 8 2 0 (2 ^ 32 - 1), cellRange a 8 3 0 32, cellRange a 8 6 0 128]
    act := fun q s =>
      let a := q.arg
      (selected a).foldl (fun s k => modQuad k (fun x =>
        let old := (x.ipv6.map (·.toNat)).getD 0
        let v6 := cellOr a 8 4 (old % 2 ^ 64) + 2 ^ 64 * cellOr a 8 5 (old / 2 ^ 64)
        { x with
          mac := if cellOn a 8 0 then some (BitVec.ofNat 48 (cellVal a 8 0)) else x.mac, mtu := cellOr a 8 1 x.mtu
          ipv4 := if cellOn a 8 2 then some (BitVec.ofNat 32 (cellVal a 8 2)) else x.ipv4
          prefix4 := cellOr a 8 3 x.prefix4
          ipv6 := if cellOn a 8 4 || cellOn a 8 5 then some (BitVec.ofNat 128 v6) else x.ipv6
          prefix6 := cellOr a 8 6 x.prefix6 }) s) s }
def execEthConfig (q : Request) (s : State) : Out := kenra (.ethConfig q) specEthConfig q s

/-- MODULE.CONFIG (R289). -/
def specModuleConfig : Spec :=
  { opcode := 0x0305, layout := layoutBad (selForm ++ [(8, 1)])
    range := fun _ a => firstBad [(selOk 8 a, 0), (decide (u8 a 8 ≤ 2), 8)]
    act := fun q s => (selected q.arg).foldl (fun s m => { s with
      lanes.busSpeed := tabSet 1 s.lanes.busSpeed m (u8 q.arg 8) }) s }
def execModuleConfig (q : Request) (s : State) : Out := kenra (.moduleConfig q) specModuleConfig q s

/-- Ranges of a module access: quad, then offset and length within 256 bytes. -/
def moduleRange (a : List Byte) : Option Nat :=
  firstBad [(decide (u8 a 0 < 32), 0), (decide (1 ≤ u8 a 4 ∧ u8 a 4 ≤ 128 ∧ u8 a 3 + u8 a 4 ≤ 256), 4)]

/-- Key of a module byte: the lower half is common to every page. -/
def moduleKey (bank page off : Nat) : Nat := if off < 128 then off else (bank * 256 + page) * 256 + off

/-- Bytes of a module access: those that MODULE.WRITE has written, else free, since the manual gives no module's contents (R291; log
30). -/
def moduleRead (a : List Byte) (s : State) : List Byte :=
  (freeBytes (u8 a 4) s).1.zipIdx.map (fun e =>
    (tabGet none (quad s (u8 a 0)).moduleBytes (moduleKey (u8 a 1) (u8 a 2) (u8 a 3 + e.2))).getD e.1)

/-- MODULE.READ (R291): the master of the quad's cage serves one access at a time, in the order of the commands. -/
def specModuleRead : Spec :=
  { opcode := 0x0306, layout := layoutBad [(0, 5)], range := fun _ a => moduleRange a
    result := fun s q => moduleRead q.arg s
    act := fun q s => selectModule (u8 q.arg 0) (freeBytes (u8 q.arg 4) s).2 }
def execModuleRead (q : Request) (s : State) : Out := kenra (.moduleRead q) specModuleRead q s

/-- CMIS bytes of Application selection and data path control on pages 0x10 and 0x11 (PRESUMED, log 30). -/
def cmisControl (page off : Nat) : Bool :=
  (page = 0x10 && (off = 128 || decide (143 ≤ off ∧ off ≤ 152) || decide (178 ≤ off ∧ off ≤ 187))) ||
  (page = 0x11 && decide (206 ≤ off ∧ off ≤ 213))

/-- MODULE.WRITE (R291): while the quad's mode is not OFF, Application selection and data path control bytes conflict. -/
def specModuleWrite : Spec :=
  { opcode := 0x0307, layout := fun a => layoutBad ([(0, 5), (8, u8 a 4)]) a, range := fun _ a => moduleRange a
    resource := fun s q =>
      let a := q.arg
      firstFail [((quad s (u8 a 0)).mode = .off || !((numbers (u8 a 3) (u8 a 4)).any (cmisControl (u8 a 2))), .conflict)]
    act := fun q s =>
      let a := q.arg
      modQuad (u8 a 0) (fun x => { x with
        moduleBytes := (slice a 8 (u8 a 4)).zipIdx.foldl (fun t e =>
          tabSet none t (moduleKey (u8 a 1) (u8 a 2) (u8 a 3 + e.2)) (some e.1)) x.moduleBytes }) (selectModule (u8 a 0) s) }
def execModuleWrite (q : Request) (s : State) : Out := kenra (.moduleWrite q) specModuleWrite q s

end Sys2Proof.Machine
end

