-- ==== Sys2Proof/Machine/PegCore.lean ====
section
/-! DEFINITION. How a peg issues: the exposed pipeline, delay slots, zero-overhead loops, faults, interrupts and memory
accesses (chapter 11, R244 to R261). Instruction addresses count instructions (log 19). -/

namespace Sys2Proof.Machine

/-- What an instruction does to its peg and the rest, or the fault it raises with its address. -/
abbrev PegBody := State → Peg → Except (PegFault × BitVec 32) (Peg × State)

/-- The instruction after the one at an address stands at the next one, as R255's `end + 1` has it (DEDUCED; log 19). -/
def pegStep : BitVec 16 := 1

/-- Register g as an instruction sees it; g0 reads 0 (Table 11.2). -/
def Peg.rg (g : Peg) (r : BitVec 5) : BitVec 32 := if r = 0 then 0 else tabGet 0 g.g r.toNat

/-- Writes bits of stat under a mask. -/
def statBits (st mask bits : BitVec 32) : BitVec 32 := (st &&& ~~~mask) ||| (bits &&& mask)

/-- A result reaches its register. -/
def Peg.land (g : Peg) (w : PegWrite) : Peg :=
  match w.dest with
  | .g r => if r = 0 then g else { g with g := tabSet 0 g.g r.toNat (BitVec.ofInt 32 w.value) }
  | .acc k => { g with accSeen := tabSet 0 g.accSeen k w.value }
  | .stat =>
    { g with stat := statBits g.stat (BitVec.ofInt 32 (w.value / 4294967296)) (BitVec.ofInt 32 w.value) }
  | .loopCount k => { g with lc := tabSet 0 g.lc k (BitVec.ofInt 32 w.value) }
  | .loopStart k => { g with ls := tabSet 0 g.ls k (BitVec.ofInt 16 w.value) }
  | .loopEnd k => { g with le := tabSet 0 g.le k (BitVec.ofInt 16 w.value) }
  | .spc => { g with spc := BitVec.ofInt 16 w.value }
  | .sstat => { g with sstat := BitVec.ofInt 32 w.value }
  | .ivb => { g with ivb := BitVec.ofInt 16 w.value }
  | .fev => { g with fev := BitVec.ofInt 16 w.value }

/-- Every result due by cycle `c` reaches its register, the earlier due first, the later issued last (R248). -/
def Peg.commitTo (c : Nat) (g : Peg) : Peg :=
  let due := g.writes.filter (fun w => decide (w.due ≤ c))
  due.foldl Peg.land { g with writes := g.writes.filter (fun w => decide (c < w.due)) }

/-- Every issued instruction completes (R257, R261). -/
def Peg.drain (g : Peg) : Peg :=
  let last := g.writes.foldl (fun m w => max m w.due) g.cyc
  { g.commitTo last with cyc := last }

/-- Inserts a result after those due no later. -/
def insertWrite (w : PegWrite) : List PegWrite → List PegWrite
  | [] => [w]
  | x :: t => if w.due < x.due then w :: x :: t else x :: insertWrite w t

/-- A result seen by instructions issued at least `delay` cycles later (Table 11.3). -/
def Peg.write (delay : Nat) (d : PegDest) (v : Int) (g : Peg) : Peg :=
  { g with writes := insertWrite { due := g.cyc + delay, dest := d, value := v } g.writes }

/-- An ALU result (delay 1). -/
def Peg.writeG (d : BitVec 5) (v : BitVec 32) (g : Peg) : Peg := g.write 1 (.g d) v.toNat

/-- Sets bits of stat at once. -/
def Peg.setStat (mask : BitVec 32) (g : Peg) : Peg := { g with stat := g.stat ||| mask }

/-- Bit masks of stat (Table 11.8). -/
def statOVR : BitVec 32 := 0x800000
def statOV : BitVec 32 := 0x400000
def statSAT : BitVec 32 := 0x200000
def statQUAD : BitVec 32 := 0x100000
def statLE (k : Nat) : BitVec 32 := if k = 0 then 0x10000 else 0x20000
def statIE : BitVec 32 := 0x8000
def statINH : BitVec 32 := 0x4000
def statIPEND (s : Nat) : BitVec 32 := BitVec.ofNat 32 (2 ^ (8 + s))
def statRW : BitVec 32 := 0x23803F
/-- What RETI restores: all but what the hardware alone writes, which is IPEND, IN_HANDLER and QUAD (R258, Table 11.8). -/
def statSaved : BitVec 32 := statRW ||| statOV ||| statOVR

/-- stat as software reads it: QUAD is the mode of the peg's pitch (R251, Table 11.8), the other bits are held. -/
def readStat (s : State) (p : Nat) (stat : BitVec 32) : BitVec 32 :=
  if tabGet false s.peg.scalar (p / 16) then stat &&& ~~~statQUAD else stat ||| statQUAD

/-- A bit of stat. -/
def Peg.has (g : Peg) (m : BitVec 32) : Bool := g.stat &&& m != 0

/-- One loop's test as the instruction at its end issues: the next address if it goes round (R255). -/
def Peg.loopTest (k : Nat) (g : Peg) : Peg × Option (BitVec 16) :=
  if g.has (statLE k) && tabGet 0 g.le k = g.pc then
    let c := tabGet 0 g.lc k
    if 1 < c.toNat then ({ g with lc := tabSet 0 g.lc k (c - 1) }, some (tabGet 0 g.ls k))
    else ({ g with stat := g.stat &&& ~~~(statLE k) }, none)
  else (g, none)

/-- Next address after the instruction at pc: loop 1's test first, loop 0's when it falls through (R255, R256). -/
def Peg.loops (g : Peg) : Peg :=
  let (g1, n1) := g.loopTest 1
  match n1 with
  | some a => { g1 with pc := a }
  | none =>
    let (g0, n0) := g1.loopTest 0
    match n0 with
    | some a => { g0 with pc := a }
    | none => { g0 with pc := g0.pc + pegStep }

/-- Moves past an issued instruction: delay slots count down to their target, and RETI restores stat at their end
(R249, R258). The delay slots of a LOOP that enters its body take the loop tests as any instruction does (R255). -/
def Peg.advance (g : Peg) : Peg :=
  if g.slots = 0 then g.loops
  else if g.loopSlots then { g.loops with slots := g.slots - 1, loopSlots := decide (g.slots ≠ 1) }
  else if g.slots = 1 then
    let g := { g with slots := 0, pc := g.target.getD (g.pc + pegStep), target := none }
    if g.returning then
      { g with returning := false, stat := statBits (g.stat &&& ~~~statINH) statSaved g.sstat }
    else g
  else { g with slots := g.slots - 1, pc := g.pc + pegStep }

/-- Codes of R261 in its order from 0 (log 12). -/
def PegFault.code : PegFault → Nat
  | .illegal => 0 | .misaligned => 1 | .range => 2 | .dmemUe => 3 | .imemUe => 4

/-- A fault: issue stops, issued instructions complete, code and address are kept, PEG_FAULT is counted and the event
raised (R261). -/
def pegFaultAt (p : Nat) (g : Peg) (code : PegFault) (addr : BitVec 32) (s : State) : State :=
  raise 0x0E02 (108 + p / 16) code.code [p, addr.toNat]
    (count .pegFault p (modPeg p (fun _ => { g.drain with stopped := some (code, addr), lastFault := some (code, addr) }) s))

/-- An error that ECC corrects in a peg's memory is counted (R243, R268). -/
def countEcc (c : Ctr) (p : Nat) (e : Ecc) (s : State) : State := if e = .corrected then count c p s else s

/-- The peg issues instructions: it does not wait, has not stopped on a fault and is not about to start at a tick. -/
def Peg.issues (g : Peg) : Bool := !g.waiting && g.stopped.isNone && !g.start

/-- Issues one instruction of a peg: results due are seen, the body runs, the peg moves on. An uncorrectable word of the
instruction memory is a fault (R261). A peg that waits, has stopped or is about to start issues nothing. -/
def pegIssue (p : PegIssue) (body : PegBody) (s : State) : State :=
  let n := p.peg.toNat
  let g := (peg s n).commitTo (peg s n).cyc
  if !g.issues then s
  else if p.imem = .uncorrectable then pegFaultAt n g .imemUe (g.pc.setWidth 32) s
  else match body (countEcc .imemCe n p.imem s) g with
    | .error (c, a) => pegFaultAt n g c a (countEcc .imemCe n p.imem s)
    | .ok (g', s') =>
      let g'' := if g'.waiting then g' else g'.advance
      count .instructions n (modPeg n (fun _ => { g'' with cyc := g.cyc + 1, ran := true }) s')

/-- An instruction that may not stand in a delay slot (R249). -/
def noSlot (body : PegBody) : PegBody := fun s g =>
  if g.slots ≠ 0 then .error (.illegal, g.pc.setWidth 32) else body s g

/-- The branch at pc, or one of its two delay slots, lies in the last three instructions of an active loop's body (R256). -/
def Peg.nearEnd (g : Peg) (k : Nat) : Bool :=
  g.has (statLE k) && decide ((tabGet 0 g.ls k).toNat ≤ g.pc.toNat) && decide (g.pc.toNat ≤ (tabGet 0 g.le k).toNat) &&
    decide ((tabGet 0 g.le k).toNat ≤ g.pc.toNat + 4)

/-- A branch, call or return: in no delay slot (R249), and ILLEGAL at the end of a loop's body where the hardware detects it, which is
left open (R256, R261; log 2). -/
def branchBody (body : PegBody) : PegBody := noSlot (fun s g =>
  if (g.nearEnd 0 && Config.loopFault g.pc (tabGet 0 g.le 0)) || (g.nearEnd 1 && Config.loopFault g.pc (tabGet 0 g.le 1))
  then .error (.illegal, g.pc.setWidth 32) else body s g)

/-- A branch, call or return: two delay slots, then the target or the next instruction (R249). -/
def branchTo (target : Option (BitVec 16)) (g : Peg) : Peg := { g with slots := 3, target := target, loopSlots := false }

/-- Address of the instruction after two delay slots. -/
def Peg.afterSlots (g : Peg) : BitVec 16 := g.pc + pegStep + pegStep + pegStep

/-- An ALU instruction: writes `f` of the registers. -/
def pegAlu (d : BitVec 5) (f : Peg → BitVec 32) : PegBody := fun s g => .ok (g.writeG d (f g), s)

/-- An ALU instruction whose value the manual may leave open: `none` draws a free value (log 1). -/
def pegAluOpen (d : BitVec 5) (f : Peg → Option (BitVec 32)) : PegBody := fun s g =>
  match f g with
  | some v => .ok (g.writeG d v, s)
  | none => .ok (g.writeG d (BitVec.ofNat 32 (draw s).1), (draw s).2)

/-- Second source of an integer instruction; the 16-bit immediate is widened by `Config.immWiden` (R264, log 2). -/
def Peg.src (g : Peg) : PegSrc → BitVec 32
  | .reg r => g.rg r
  | .imm v => Config.immWiden v

/-- A shift count 0 to 31; a register that holds more has no stated meaning (R264). -/
def Peg.shift (g : Peg) : PegCount → Option Nat
  | .reg r => if (g.rg r).toNat < 32 then some (g.rg r).toNat else none
  | .imm n => some n.toNat

/-- Signed 32-bit value limited to its range. -/
def sat32 (v : Int) : Int := clampInt (-2147483648) 2147483647 v

/-! Memory (R244, R253). -/

/-- Post-modify of pointer `k` (R253). -/
def Peg.postModify (k : Nat) (g : Peg) : Peg :=
  let a := tabGet 0 g.p k + tabGet 0 g.m k
  let cl := tabGet 0 g.cl k
  let cb := tabGet 0 g.cb k
  { g with p := tabSet 0 g.p k (if cl = 0 then a else cb + BitVec.ofInt 32 ((a - cb).toInt % (cl.toNat : Int))) }

/-- Checks an access of `n` bytes: aligned to its size, within data memory (R244, R261). -/
def pegAccess (n : Nat) (a : BitVec 32) : Option PegFault :=
  if a.toNat % n ≠ 0 then some .misaligned
  else if 0x40000 < a.toNat + n then some .range
  else none

/-- A load of `n` bytes through pk with post-modify; little-endian (log 13). An uncorrectable word of data memory is a fault (R261). -/
def pegLoad (e : Ecc) (d : BitVec 5) (k : BitVec 3) (n : Nat) (widen : Nat → BitVec 32) (g : Peg) :
    Except (PegFault × BitVec 32) Peg :=
  let a := tabGet 0 g.p k.toNat
  match pegAccess n a with
  | some c => .error (c, a)
  | none =>
    if e = .uncorrectable then .error (.dmemUe, a)
    else .ok ((g.postModify k.toNat).write 3 (.g d) (widen (leVal (memRead g.data a.toNat n))).toNat)

/-- A load instruction of peg `p`. -/
def pegLoadBody (p : PegIssue) (d : BitVec 5) (k : BitVec 3) (n : Nat) (widen : Nat → BitVec 32) : PegBody := fun s g =>
  match pegLoad p.dmem d k n widen g with
  | .error e => .error e
  | .ok g => .ok (g, countEcc .dmemCe p.peg.toNat p.dmem s)

/-- A store of the low `n` bytes of a register through pk with post-modify. -/
def pegStoreBody (r : BitVec 5) (k : BitVec 3) (n : Nat) : PegBody := fun s g =>
  let a := tabGet 0 g.p k.toNat
  match pegAccess n a with
  | some c => .error (c, a)
  | none => .ok ({ g.postModify k.toNat with data := memWrite g.data a.toNat (leBytes n (g.rg r).toNat) }, s)

/-! Accumulators (R250 to R252). -/

/-- Signed halves of a complex operand. -/
def hiHalf (v : BitVec 32) : Int := (v.extractLsb' 16 16).toInt
def loHalf (v : BitVec 32) : Int := (v.extractLsb' 0 16).toInt

/-- Adds a product into accumulator `k`: 40 bits, wrapping or saturating, OV set when it leaves the range; a reader
sees it after 4 cycles, another MAC after 1 (R248, R252). -/
def Peg.accAdd (k : Nat) (x : Int) (g : Peg) : Peg :=
  let v := tabGet 0 g.acc k + x
  let beyond := decide (v < -549755813888) || decide (549755813887 < v)
  let r := if !beyond then v else if g.has statSAT then clampInt (-549755813888) 549755813887 v
    else signed 40 (v % 1099511627776).toNat
  let g := { g with acc := tabSet 0 g.acc k r, stat := if beyond then g.stat ||| statOV else g.stat }
  g.write 4 (.acc k) r

/-- The four products of QMAC, each added or subtracted in its own accumulator (R250); ILLEGAL in scalar mode (R251). -/
def pegQmacOf (sub : Bool) (a b : BitVec 5) (s : State) (p : Nat) (g : Peg) : Except (PegFault × BitVec 32) Peg :=
  if tabGet false s.peg.scalar (p / 16) then .error (.illegal, g.pc.setWidth 32)
  else
    let x := g.rg a
    let y := g.rg b
    let sg : Int := if sub then -1 else 1
    .ok ((((g.accAdd 0 (sg * (hiHalf x * hiHalf y))).accAdd 1 (sg * (loHalf x * loHalf y))).accAdd 2
      (sg * (loHalf x * hiHalf y))).accAdd 3 (sg * (hiHalf x * loHalf y)))

/-! Interrupts (R257). -/

/-- A source is raised; raised again while pending it counts once. -/
def pegRaise (p src : Nat) (s : State) : State := modPeg p (Peg.setStat (statIPEND src)) s

/-- The highest pending source whose mask bit is set. -/
def Peg.source (g : Peg) : Option Nat :=
  [5, 4, 3, 2, 1, 0].find? (fun k => g.has (statIPEND k) && g.has (BitVec.ofNat 32 (2 ^ k)))

/-- Interrupt entry (R257): issued instructions complete, spc and sstat are written, IE, LE0 and LE1 cleared and the
peg fetches from ivb + 4s. A waiting peg saves the address of its WAIT (R258). -/
def Peg.enter (k : Nat) (read : BitVec 32 → BitVec 32) (g : Peg) : Peg :=
  let g := g.drain
  { g with spc := g.pc, sstat := read g.stat, waiting := false, slots := 0, loopSlots := false
           stat := (g.stat &&& ~~~(statIE ||| statLE 0 ||| statLE 1 ||| statIPEND k)) ||| statINH
           pc := g.ivb + BitVec.ofNat 16 (4 * k) }

/-! Frames (R259). -/

/-- Cycles of a frame on the 1 GHz peg clock. -/
def pegFrame (s : State) : Nat := s.time.period * 1000

/-- The peg goes on at fev. -/
def Peg.atFev (g : Peg) : Peg :=
  { g with pc := g.fev, slots := 0, target := none, returning := false, loopSlots := false, start := false }

/-- One peg at a tick: after WAIT it goes on; a peg that runs a program (`assigned`, or it has issued) and has not executed WAIT is
overrun and goes on at fev (R259). A peg just loaded starts at fev. Its cycle counter stands at the next frame's first cycle
(log 19). -/
def Peg.tick (frame : Nat) (assigned : Bool) (g : Peg) : Peg × Nat × Bool :=
  let next := (g.cyc / frame + 1) * frame
  let runs := assigned || g.ran
  let g := { g with ran := false }
  if g.stopped.isSome then ({ g with cyc := next }, 0, false)
  else if g.start then ({ g.atFev with cyc := next }, 0, false)
  else if g.waiting then
    let g' := ({ g with waiting := false }.commitTo next).advance
    ({ g' with cyc := next }, next - g.cyc, false)
  else if !runs then ({ g with cyc := next }, 0, false)
  else
    let g' := g.drain.atFev
    ({ g' with cyc := next, stat := (g'.stat &&& ~~~(statIE ||| statLE 0 ||| statLE 1)) ||| statOVR }, 0, true)

/-- Words of the service image with which a vendor service peg's data memory is reloaded, of a peg services section (R261). -/
def serviceData (bytes : List Byte) (service : Nat) : Memory :=
  ((List.range 262144).map (fun a => (a, Config.serviceImage bytes service a))).filter (fun e => e.2 ≠ emptyByte)

/-- A stopped peg that runs a vendor service restarts at fev at the next tick, its data memory reloaded (R261). -/
def Peg.restart (bytes : List Byte) (service : Nat) (g : Peg) : Peg :=
  if g.stopped.isSome && !g.customer then
    { g.atFev with stopped := none, data := serviceData bytes service }
  else g

/-- The Ridge loads a service into a peg's memories; the peg starts at fev at the next tick (R244, R394 step 7; log 19). A peg that
holds a customer kernel keeps it. -/
def loadService (k p : Nat) (s : State) : State :=
  if (peg s p).customer then s
  else if k = 0 then modPeg p (fun g => { g with start := false }) s
  else
    let s := modPeg p (fun g => { g with data := serviceData (bundleSection s 2) k, start := true, waiting := false, stopped := none }) s
    { s with peg.imem := memWrite s.peg.imem (p * 65536) ((List.range 65536).map (Config.serviceCode (bundleSection s 2) k)) }

end Sys2Proof.Machine
end

