-- ==== Sys2Proof/Machine/Boot.lean ====
section
/-! DEFINITION. Start-up, firmware and trust (chapter 18): what a reset and a BOOT lose and keep, containers and banks, the
BOOT rows, the update, and the FW commands and SYS.RESTART. -/

namespace Sys2Proof.Machine

/-! What is lost (R396, R412; log 28). -/

/-- The recorder after SRAM is lost: the open epoch's counts, what waits for sealing and the overflow set are gone; held records
survive, the operating seconds go on from the count last written, and a sector that either copy of the map names is bad (R396, R458,
R463; log 52). -/
def recorderLoss (r : RecSt) : RecSt :=
  let r' := { r with live := [], toSeal := [], overflow := [], clearing := false, second := r.secondWritten
                     epochStart := r.secondWritten, badSeen := false
                     badSectors := r.mapCopies.2.foldl addSource r.mapCopies.1 }
  { r' with state := if (nextGood r' r'.nextSlot).isNone then max 1 r'.state else 0 }

/-- Every unit at its reset values. MRAM, OTP, the counts they hold, calibration, the settings of DRAM.CONFIG and the
checkpoint slots stay; so do TB2 and the supply. A hard loss (RESET_N, power) also resets the Tether window, the host
interface and the counters; an orderly BOOT keeps them (R361, R396, R415; log 28). -/
def resetUnits (hard : Bool) (s : State) : State :=
  { ({} : State) with
    power := s.power
    dev.stateChanges := s.dev.stateChanges
    time.tb2 := s.time.tb2
    health.cal := s.health.cal
    dram.speedCap := s.dram.speedCap, dram.excludeNext := s.dram.excludeNext
    twin.slotA := s.twin.slotA, twin.slotB := s.twin.slotB, twin.ckptSlot := s.twin.ckptSlot
    recorder := if hard then recorderLoss s.recorder else s.recorder
    boot := { s.boot with started := none, trying := false, version := 0, security := (0, false), updateLen := none,
                          rebootDue := false, outcomes := [], zeroing := false, arraysPassed := 0, bundle := [], startedAt := 0 }
    host := if hard then { ({} : HostSt) with mem := s.host.mem } else { s.host with owed := [] }
    tether := if hard then {} else s.tether
    counters := if hard then [] else s.counters
    fresh := s.fresh, pending := s.pending }

/-- The entry to BOOT (Table 1.5): TB3 and TB0 start at 0, frames count from 0 at T = 1 ms, and transitions, event
entries and transaction ids count afresh (R12, R236, R315, R355, Table 15.3). -/
def enterBoot (cause : Nat) (s : State) : State :=
  let old := s.dev.state.code
  { resetUnits false s with dev.state := .boot, dev.stateChanges := 0, boot.entry := (old, cause), power.diesOn := true, power.diesOffBy := none }

/-! Containers (R401 to R405, Tables 18.3 and 18.5). -/

/-- Size of a bank and the start of one in MRAM (Table 18.2). -/
def bankSize : Nat := 786432
def bankStart (b : Bool) : Nat := if b then 0x1C0000 else 0x100000

/-- Bytes of a bank. -/
def bankBytes (b : Bool) (n : Nat) (s : State) : List Byte := memRead s.boot.mram (bankStart b) n

/-- Key hash of a container's keys (R405). -/
def keyHash (c : List Byte) : List Byte := Config.sha384 (slice c 128 436)

/-- Hash of a written OTP key slot (Table 18.6). -/
def keySlot (s : State) (k : Nat) : Option (List Byte) :=
  if k = 0 then some Config.vendorKeyHash else tabGet none s.boot.keys k

/-- The anti-rollback version: the last version word written; one that fails its check counts as 2^64 − 1 (R405, R407). -/
def antiRollback (s : State) : Nat :=
  match s.boot.versionWords.getLast? with
  | none => 0
  | some none => 2 ^ 64 - 1
  | some (some v) => v

/-- The signed message (R401). -/
def signedMessage (c : List Byte) : List Byte := c.take 128 ++ c.drop 17184

/-- Check 1 of R402; in a bank, whose container's size is not kept, the lengths must fit it. A security version of 2^64 − 1, outside
the range of Table 18.3, fails here, though R402 does not list that field (DESIGN CHOICE 28). -/
def formatOk (kernel exact : Bool) (c : List Byte) : Bool :=
  let comp := u32 c 24
  decide (u32 c 0 = 0x52464C31) && decide (u16 c 4 = 1) && decide (u16 c 6 = 128) &&
  decide (u8 c 82 = if kernel then 2 else 1) && decide (u8 c 81 < 2) && (slice c 83 45).all (· = 0) &&
  (slice c 17172 12).all (· = 0) && decide (1 ≤ comp ∧ comp ≤ 769248) &&
  decide (1 ≤ u32 c 28 ∧ u32 c 28 ≤ 67108864) && decide (u64 c 16 ≤ 2 ^ 64 - 2) && (!kernel || decide (u64 c 16 = 0)) &&
  (if exact then decide (17184 + comp = c.length) else decide (17184 + comp ≤ c.length))

/-- Outcome of a container (Table 18.5) with its decoded payload and the decoder's reason. -/
structure Verified where
  code : Nat
  payload : List Byte := []
  reason : Nat := 0
deriving DecidableEq, Repr

/-- Check 6: the payload decodes under R403's own limits and its SHA-384 is the payload hash. -/
def checkPayload (c comp : List Byte) : Verified :=
  match inflate { declared := u32 c 28, opBytes := 2 ^ 26, ratio := 64 } comp with
  | .ok p => if Config.sha384 p = slice c 32 48 then { code := 0, payload := p } else { code := 7 }
  | .error e => { code := 6, reason := e.code }

/-- The checks of R402 in order, of a bundle or a kernel; `decode` says whether check 6 is made (R410). A key slot outside Table 18.3's
range fails check 2, as a slot not written does (DESIGN CHOICE 28). -/
def checkContainer (kernel exact decode : Bool) (c : List Byte) (s : State) : Verified :=
  let slot := u8 c 80
  let c := if exact then c else c.take (17184 + u32 c 24)
  let m := signedMessage c
  if !formatOk kernel exact c then { code := 1 }
  else if (if kernel then 3 < slot else slot ≠ 0) || keySlot s slot ≠ some (keyHash c) then { code := 2 }
  else if !kernel && decide (u64 c 16 < antiRollback s) then { code := 3 }
  else if !Config.rsaVerifies (slice c 128 388) m (slice c 564 384) then { code := 4 }
  else if !Config.slhVerifies (slice c 516 48) m (slice c 948 16224) then { code := 5 }
  else if decode then checkPayload c (c.drop 17184) else { code := 0 }

/-- Section kinds of a payload's directory with their ranges (R404). -/
def sections (p : List Byte) : List (Nat × Nat × Nat) :=
  (List.range (min (u32 p 0) p.length)).map (fun i => (u16 p (16 + 16 * i), u32 p (24 + 16 * i), u32 p (28 + 16 * i)))

/-- The bundle holds each required section exactly once and no unknown kind, within its payload (R404, Table 18.4). -/
def sectionsOk (p : List Byte) : Bool :=
  let l := sections p
  decide (16 + 16 * u32 p 0 ≤ p.length) &&
  l.all (fun e => decide (1 ≤ e.1 ∧ e.1 ≤ 6) && decide (e.2.1 + e.2.2 ≤ p.length)) &&
  [1, 2, 3, 4, 6].all (fun k => (l.filter (fun e => e.1 = k)).length = 1)

/-! Banks (R399, R407, R411). -/

/-- The second copy of bank control is in force: it is valid, and the first is not or has a sequence below its own (R399). -/
def secondInForce (s : State) : Bool := s.boot.copy1.valid && (!s.boot.copy0.valid || decide (s.boot.copy0.seq < s.boot.copy1.seq))

/-- The copy of bank control in force (R399). -/
def bankControl (s : State) : BankControl := if secondInForce s then s.boot.copy1 else s.boot.copy0

/-- An update of bank control rewrites the other copy, with the next sequence number; its valid mark is written last (R399, R412). -/
def writeControl (f : BankControl → BankControl) (s : State) : State :=
  let c := { f (bankControl s) with seq := ((bankControl s).seq + 1) % 2 ^ 32, valid := true }
  if secondInForce s then { s with boot.copy0 := c } else { s with boot.copy1 := c }

/-- State of a bank in bank control. -/
def bankState (s : State) (b : Bool) : BankState := if b then (bankControl s).stateB else (bankControl s).stateA

/-- Firmware version of a bank in bank control. -/
def bankVersion (s : State) (b : Bool) : Nat := if b then (bankControl s).versionB else (bankControl s).versionA

/-- The active bank is B. -/
def activeIsB (s : State) : Bool := (bankControl s).activeB

/-- A bank's state in a copy of bank control. -/
def BankControl.mark (b : Bool) (st : BankState) (c : BankControl) : BankControl :=
  if b then { c with stateB := st } else { c with stateA := st }

/-- A bank's firmware version in a copy of bank control. -/
def BankControl.noteVersion (b : Bool) (v : Nat) (c : BankControl) : BankControl :=
  if b then { c with versionB := v } else { c with versionA := v }

/-- Bank control takes a bank's new state. -/
def setBank (b : Bool) (st : BankState) (s : State) : State := writeControl (BankControl.mark b st) s

/-- Banks that BOOT tries, in order (R399). -/
def bankOrder (s : State) : List Bool :=
  let a := activeIsB s
  [a, !a].filter (fun b => bankState s b = .pending) ++
  [a].filter (fun b => bankState s b = .valid) ++ [!a].filter (fun b => bankState s b = .valid)

/-- A bank fails a step: its outcome is kept; a PENDING one is marked FAILED and reported (R411). -/
def bankFails (b : Bool) (code : Nat) (s : State) : State :=
  let version := bankVersion s b
  let s' := { s with boot.outcomes := s.boot.outcomes ++ [(b, code)], boot.started := none, boot.trying := false }
  if bankState s b = .pending then
    raise 0x0E01 0 version [] (setBank b .failed s')
  else s'

/-- Where `n` bytes of staging stand in the service region, past the recentring reserve; the manual does not give the place (R189, R394,
R403; log 1). -/
def stagePlace (n : Nat) (s : State) : Nat × State :=
  let (v, s) := draw s
  (2 ^ 20 + v % max 1 (serviceBytes s - 2 ^ 20 - n), s)

/-- Bytes put in staging. -/
def stageService (bytes : List Byte) (s : State) : State :=
  let x := stagePlace bytes.length s
  queueWrite x.1 4 bytes x.2

/-- The bundle's sections as its directory gives them (R404). -/
def sectionBytes (p : List Byte) : List (Nat × List Byte) := (sections p).map (fun e => (e.1, slice p e.2.1 e.2.2))

/-- The bundle's sections are loaded: the pitches take the services of its default map, and the pegs' memories the services' images
(R394 step 7, Table 18.4). -/
def loadSections (p : List Byte) (s : State) : State :=
  let s := { s with boot.bundle := sectionBytes p }
  let s := { s with peg.services := (List.range 16).foldl (fun t k =>
    tabSet (serviceDefault k) t k (Config.serviceMap (bundleSection s 6) k % 6)) s.peg.services }
  (List.range 256).foldl (fun s p => loadService (serviceOf s (p / 16)) p s) s

/-- A bank whose container and sections pass: its firmware starts (R394 step 7) and tests the arrays (step 8, R115). -/
def startBank (b : Bool) (c payload : List Byte) (s : State) : State :=
  let passed := s.boot.arraysPassed.toNat
  let s := { s with boot.started := some b, boot.trying := bankState s b = .pending, boot.version := u64 c 8
                    boot.security := (u64 c 16, testBit (u8 c 81) 0), boot.startedAt := s.time.tb2, boot.outcomes := s.boot.outcomes ++ [(b, 0)] }
  (List.range 4).foldl (fun s k => modArray k (fun x => { x with
    enabled := testBit passed k, katFail := !testBit passed k }) s) (loadSections payload s)

/-- Step 4 of R394: DMA14 copies a bank's bytes from MRAM to the service region (R353, R384). `bad` says that it fails. -/
def copyBank (n : Nat) (bad : Bool) (s : State) : State :=
  let s := if bad then s else countN .dmaBytes 14 n (countN .grants 3 (n / 256) (countN .grants 4 (n / 256) s))
  noteDesc 14 (if bad then 2 else 0) 0 (if bad then n else 0) s

/-- Tries banks in order from step 4 (R394, R399): the first that reaches step 8 runs. The ROM decodes on PK15 (R403). Which outcome
of Table 18.5 a bank has whose copy from MRAM fails is open: a free value (log 1). -/
def tryBanks : List Bool → State → State
  | [], s => s
  | b :: rest, s =>
    let bad := testBit s.boot.copyBad.toNat (bit b)
    let s := copyBank bankSize bad s
    if bad then
      let (v, s) := draw s
      tryBanks rest (bankFails b (v % 8 + 1) s)
    else
    let c := bankBytes b bankSize s
    let v := checkContainer false false true c s
    let s := stageService (c.take (17184 + u32 c 24)) s
    let s := if v.code = 6 then decodeBad 15 v.reason s else if v.code = 0 ∨ v.code = 7 then decodeGood 15 s else s
    if v.code ≠ 0 then tryBanks rest (bankFails b v.code s)
    else if !sectionsOk v.payload then tryBanks rest (bankFails b 1 (stageService v.payload s))
    else startBank b c v.payload (stageService v.payload s)

/-- BOOT_REPORT, whose payload is kept in MRAM with those of the fifteen boots before (Table 18.2), the first entry of a boot, then
the entry to BOOT that R22 owes: the GTS of both is that of the entry, and they take their places before every other entry of the boot
that is held or due (R395, R398; log 28). A trip that the boot finds is recorded (R450). -/
def bootReport (s : State) : State :=
  let gts := s.time.tb2 - s.time.tb3
  let bank : Int := match s.boot.started with
    | some b => bit b
    | none => 0xFF
  let outcomes := s.boot.outcomes.foldl (fun v e => v * 256 + bit e.1 * 128 + e.2 + 1) 0
  let failed := 15 - s.boot.arraysPassed.toNat
  let trip := match s.power.tripReport with
    | some k => k + 1
    | none => 0
  let body := cells [bank, s.boot.version, s.boot.security.1, (outcomes : Nat),
    (s.boot.trainTime * 65536 + trip * 256 + failed : Nat)]
  let rest := s.evr.due
  let frame := s.time.frame
  let s := { s with boot.reports := (body :: s.boot.reports).take 16 }
  let s := raiseEvent gts 0x0002 0 false false bank body { s with evr.due := [], time.frame := 0 }
  let s := raiseEvent gts 0x0001 0 false false 1 (cells [1, s.boot.entry.1, s.boot.entry.2, 0]) s
  let s := { s with evr.held := s.evr.due ++ s.evr.held, evr.due := rest, time.frame := frame }
  match s.power.tripReport with
  | some k => raise 0x0B05 3 k [] { s with power.tripReport := none }
  | none => s

/-- SAFE on the ROM: no bank reached step 8, or training failed (R394, R399, R400). -/
def romSafe (s : State) : State :=
  let s := bootReport s
  setState .safe 2 { s with dev.romSafe := true }

/-- Where the boot stands after the banks were tried. -/
def afterBanks (s : State) : State := if s.boot.started.isSome then { s with boot.zeroing := true } else romSafe s

/-! BOOT rows (R394, R397, R407, R411). -/

/-- DIMMs of a channel as their SPD describes them (R327). -/
def dimmsOf (b : BootInput) (c : Nat) : List Dimm := b.dimms.getD c []

/-- Capacity of a DIMM in GiB: two subchannels of 32 data bits, in devices of its width and density, ranks and dies (R327). -/
def dimmGiB (d : Dimm) : Nat := 64 / max 1 d.width * d.density * d.ranks * d.dies / 8

/-- The DIMM is one that R327 supports. -/
def dimmOk (d : Dimm) : Bool :=
  d.kind = .registered && d.ecc && decide (d.width ∈ [4, 8]) && decide (d.density ∈ [16, 24, 32]) && decide (d.ranks ∈ [1, 2]) &&
    decide (d.dies ∈ [1, 2, 4]) && decide (16 ≤ dimmGiB d) && decide (dimmGiB d ≤ 256) && decide (d.grade ≤ 4)

/-- Capacity of a channel in GiB. -/
def chanGiB (b : BootInput) (c : Nat) : Nat := ((dimmsOf b c).map dimmGiB).sum

/-- Channels that DRAM.CONFIG leaves in use. -/
def wantedChans (s : State) : List Nat := (List.range 12).filter (fun c => !testBit s.dram.excludeNext.toNat c)

/-- A channel's DIMMs satisfy R327 and Table 14.1: one or two, and two identical in part and SPD contents. -/
def channelPopulated (b : BootInput) (c : Nat) : Bool :=
  (match dimmsOf b c with
   | [_] => true
   | [d, e] => d = e
   | _ => false) && (dimmsOf b c).all dimmOk && decide (chanGiB b c % 16 = 0) && decide (chanGiB b c ≤ 256)

/-- The population satisfies Table 14.1 (R328). -/
def populationOk (b : BootInput) (s : State) : Bool :=
  let l := wantedChans s
  let caps := l.map (fun c => (c, chanGiB b c))
  l.all (channelPopulated b) &&
  decide ((caps.map (·.2)).sum ≤ 3072) && decide ((interleave caps).length ≤ 64) && !l.isEmpty

/-- The one speed of every channel: the highest that each grade, the population and the cap allow (R328). -/
def bootSpeed (b : BootInput) (s : State) : Nat :=
  let l := wantedChans s
  let g := (l.flatMap (dimmsOf b)).foldl (fun m d => min m d.grade) 4
  let g := if l.any (fun c => (dimmsOf b c).length = 2) then min g 2 else g
  match s.dram.speedCap with
  | some cap => min g cap
  | none => g

/-- Channels that pass training: in use, of a population that Table 14.1 allows, through steps 1 to 3, and with every byte lane passing
the sweeps (R328, R330). -/
def bootTrained (b : BootInput) (s : State) : List Nat :=
  if populationOk b s then (wantedChans s).filter (fun c => testBit b.trained.toNat c && channelOk b.lanes c) else []

/-- Steps 1 to 3: straps are read (R476), SPD read, and with a population that passes every channel in use is trained, and zeroed
(R330). -/
def bootDram (b : BootInput) (s : State) : State :=
  let (t, s) := draw s
  let s := { s with power.pwrcap := b.straps, boot.trainTime := t, dram.speed := bootSpeed b s
                    dram.mem := [], dram.queue := [], boot.arraysPassed := b.arraysPassed, boot.copyBad := b.copyBad }
  let s := (List.range 12).foldl (fun s c => modDram c (fun d => { d with
    capGiB := chanGiB b c, dimms := dimmsOf b c, excluded := testBit s.dram.excludeNext.toNat c }) s) s
  (bootTrained b s).foldl (trainChannel b.lanes) s

/-- BOOT: steps 1 to 8 (R394). The boot whose steps have run waits for its end of zeroing. -/
def execBoot (b : BootInput) (s : State) : Out :=
  whenOn (fun s =>
    if s.dev.state ≠ .boot || s.boot.started.isSome then s
    else
      let s := bootDram b s
      if (wantedChans s).all (fun c => (dramCh s c).trained) && !(wantedChans s).isEmpty then afterBanks (tryBanks (bankOrder s) s)
      else romSafe { s with boot.arraysPassed := 15 }) s

/-- The anti-rollback raise of a bundle that reaches READY (R407). RAISE_EXHAUSTED has no code in Table 21.2: its event's is open,
and its alarm stands under 0x0E80 (log 28). -/
def raiseVersion (s : State) : State :=
  let (v, flag) := s.boot.security
  match s.boot.started with
  | none => s
  | some b =>
    if !flag || decide (v ≤ antiRollback s) then s
    else if 32 ≤ s.boot.versionWords.length then raiseOpen true 0x0E 0 v [] (setAlarm 0x0E80 0 true s)
    else
      let s := { s with boot.versionWords := s.boot.versionWords ++ [some v] }
      let other := bankBytes (!b) 24 s
      if bankState s (!b) ≠ .empty && decide (u64 other 16 < v) then setBank (!b) .failed s else s

/-- A PENDING bank that reaches READY becomes VALID and active (R411). -/
def activateBank (s : State) : State :=
  match s.boot.started with
  | some b =>
    if s.boot.trying then writeControl (fun c => { c.mark b .valid with activeB := b }) { s with boot.trying := false } else s
  | none => s

/-- BOOT_ZEROING_DONE: READY (R394 step 9). -/
def execBootZeroingDone (s : State) : Out :=
  whenOn (fun s =>
    if s.dev.state ≠ .boot || !s.boot.zeroing then s
    else
      let s := bootReport s
      raiseVersion (activateBank (setState .ready 1 { s with boot.zeroing := false }))) s

/-- BOOT_TIMEOUT: 30 s after its start the firmware is stopped, BOOT_TIMEOUT is counted, and its bank fails step 7; the next bank is tried
(R397, R399). -/
def execBootTimeout (s : State) : Out :=
  whenOn (fun s =>
    match s.dev.state, s.boot.started with
    | .boot, some b =>
      let s := count .bootTimeout 0 (elapseTo (s.boot.startedAt + 30000000000) s)
      let s := { s with boot.outcomes := s.boot.outcomes.dropLast, boot.zeroing := false, boot.bundle := [], peg := {} }
      let rest := (bankOrder s).filter (fun x => x ≠ b && !(s.boot.outcomes.any (fun e => e.1 = x)))
      afterBanks (tryBanks rest (bankFails b 8 s))
    | _, _ => s) s

/-! The update (R408 to R412). -/

/-- The bank that is not active. -/
def inactive (s : State) : Bool := !activeIsB s

/-- Erases a bank to zero. -/
def eraseBank (b : Bool) (s : State) : State :=
  { s with boot.mram := s.boot.mram.filter (fun e => decide (e.1 < bankStart b) || decide (bankStart b + bankSize ≤ e.1)) }

/-- FW.UPDATE.BEGIN (R408, R430). -/
def specFwUpdateBegin : Spec :=
  { opcode := 0x0E01, rom := true, allowed := fun d => d == .ready || d == .safe
    layout := layoutBad [(0, 8)]
    range := fun _ a => firstBad [(decide (17185 ≤ u64 a 0 ∧ u64 a 0 ≤ 786432), 0)]
    act := fun q s =>
      let s := sealRecorder (endTxnForState (sendHandover (s.time.frame + 1) s))
      let s := setState .update 8 s
      let b := inactive s
      { eraseBank b (writeControl (fun c => (c.mark b .empty).noteVersion b 0) s) with boot.updateLen := some (u64 q.arg 0) } }
def execFwUpdateBegin (q : Request) (s : State) : Out := kenra (.fwUpdateBegin q) specFwUpdateBegin q s

def isUpdateData : Instr → Bool
  | .fwUpdateData _ => true
  | _ => false

/-- A DATA or END is in progress (R376, R409). -/
def updateBusy (s : State) : Bool := s.host.owed.any (fun e => isUpdateData e.1 || isUpdateEnd e.1) || s.boot.rebootDue

/-- FW.UPDATE.DATA (R409). -/
def specFwUpdateData : Spec :=
  { opcode := 0x0E02, event := true, allowed := fun d => d == .update
    layout := layoutBad (bulkForm 0 ++ [(16, 8)])
    range := fun s a =>
      let b := bulk a 0
      firstBad (bulkRange s (if dramTrained s then [1, 2] else [1]) a 0 ++
        [(dramTrained s || decide (b.length ≤ 65536), 4),
         (decide (u64 a 16 + b.length ≤ s.boot.updateLen.getD 0), 16)])
    resource := fun s q => firstFail [(bulkWindow s false q.arg 0, .window), (!updateBusy s, .busy)]
    act := fun _ s => s }
def execFwUpdateData (q : Request) (s : State) : Out := kenra (.fwUpdateData q) specFwUpdateData q s

/-- FW_UPDATE_DATA_DONE (R409): DMA12 brings host data into the service region, or into a buffer of Ridge memory while no channel is
trained; a sector that fails write-verify after its retries marks the bank FAILED; the range's
contents are then free (log 1). -/
def execFwUpdateDataDone (retriesFailed : Bool) (s : State) : Out :=
  whenOn (fun s =>
    match owedOf isUpdateData s with
    | none => s
    | some (c, q) =>
      let x := bulk q.arg 0
      let b := inactive s
      let put := fun (l : List Byte) (s : State) => { s with boot.mram := memWrite s.boot.mram (bankStart b + u64 q.arg 16) l }
      let r := bulkFetch x s
      let s := if x.kind = 1 && dramTrained s && r.2.1.isNone then stageService r.1 r.2.2 else r.2.2
      match r.2.1 with
      | some st => finish c 0x0E02 q st 0 0 [] s
      | none =>
        if retriesFailed then
          let (l, s) := freeBytes x.length s
          finish c 0x0E02 q .noSpace 0 0 [] (setBank b .failed (put l s))
        else finish c 0x0E02 q .ok x.length 0 [] (put r.1 s)) s

/-- FW.UPDATE.END (R410); its decode is a service operation (R186, R403). -/
def specFwUpdateEnd : Spec :=
  { opcode := 0x0E03, event := true, allowed := fun d => d == .update, layout := noArg
    resource := fun s _ => firstFail [(!updateBusy s, .busy)]
    act := fun q s => nextOp { s with services := s.services ++
      [{ cmd := .fwUpdateEnd q, req := q, source := [], dst := 0, dstLen := 0, dynamic := false, seq := s.pack.opSeq }] } }
def execFwUpdateEnd (q : Request) (s : State) : Out := kenra (.fwUpdateEnd q) specFwUpdateEnd q s

/-- Kenra status of an outcome (Table 18.5). -/
def outcomeStatus (code : Nat) : Status :=
  if code = 0 then .ok else if code = 3 then .versionOld else if code = 6 then .decodeFail else .auth

/-- FW_UPDATE_CHECK_DONE (R186, R189, R190, R410): the decode runs on a Pack engine once one serves it, which counts it. -/
def execFwUpdateCheckDone (engine : BitVec 4) (s : State) : Out :=
  whenOn (fun s =>
    match s.services.find? (fun x => isUpdateEnd x.cmd) with
    | none => s
    | some x =>
      if !engineServes s x.seq then s
      else
      let c := x.cmd
      let q := x.req
      let s := { s with services := s.services.erase x }
      let b := inactive s
      let bytes := bankBytes b (s.boot.updateLen.getD 0) s
      let v := checkContainer false true (dramTrained s) bytes s
      let s := if dramTrained s then stageService v.payload s else s
      let s := if v.code = 6 then decodeBad (servedBy s engine) v.reason s
        else if v.code = 0 ∨ v.code = 7 then decodeGood (servedBy s engine) s else s
      let s := if v.code = 0 then { writeControl (fun c => (c.mark b .pending).noteVersion b (u64 bytes 8)) s with
        boot.rebootDue := true, boot.rebootSince := s.time.tb2 } else s
      finish c 0x0E03 q (outcomeStatus v.code) (if v.code = 0 then bytes.length else 0) v.reason [] s) s

/-- The completion of FW.UPDATE.END has yet to reach the event ring. -/
def endUnwritten (s : State) : Bool :=
  let mine := fun (e : Event) => e.completion && decide (u16 e.payload 0 = 0x0E03)
  s.evr.due.any mine || s.evr.held.any mine

/-- UPDATE_REBOOT (R410): at once where the completion is in the ring, else 100 ms after it. -/
def execUpdateReboot (s : State) : Out :=
  whenOn (fun s =>
    if s.dev.state = .update && s.boot.rebootDue then
      enterBoot 9 (if endUnwritten s then elapseTo (s.boot.rebootSince + 100000000) s else s)
    else s) s

/-- A command whose BOOT follows its response (Table 16.6, R412). -/
def bootAfter (cause : Nat) (c : Instr) (k : Spec) (q : Request) (s : State) : Out :=
  whenActive c (fun s =>
    let ok := (checkRequest c k q (touchTxn k q s)).isNone
    let s := kenraStep c k q s
    if ok then enterBoot cause s else s) s

/-- FW.UPDATE.ABORT (R412). -/
def specFwUpdateAbort : Spec :=
  { opcode := 0x0E04, allowed := fun d => d == .update, layout := noArg
    act := fun _ s => writeControl (fun c => (c.mark (inactive s) .empty).noteVersion (inactive s) 0) s }
def execFwUpdateAbort (q : Request) (s : State) : Out := bootAfter 9 (.fwUpdateAbort q) specFwUpdateAbort q s

/-- Every zone lies below its shutdown threshold less h (R449). -/
def zonesCool (s : State) : Bool := (List.range 5).all (fun k => let z := zone s k; decide (z.temp < z.shutdown - z.hyst))

/-- SYS.RESTART (R449, Table 16.6). -/
def specSysRestart : Spec :=
  { opcode := 0x0002, rom := true, allowed := fun d => d == .safe, layout := noArg
    resource := fun s _ => firstFail [(zonesCool s, .conflict)]
    act := fun _ s => s }
def execSysRestart (q : Request) (s : State) : Out := bootAfter 10 (.sysRestart q) specSysRestart q s

/-! Keys and versions (R406, R407). -/

/-- The version that the banks store for the next BOOT: of the PENDING bank, else of the active one. -/
def storedVersion (s : State) : Nat :=
  bankVersion s (if bankState s (inactive s) = .pending then inactive s else activeIsB s)

/-- FW.INFO (R407, Table 16.11). -/
def specFwInfo : Spec :=
  { opcode := 0x0E00, layout := noArg, rom := true, allowed := fun _ => true
    result := fun s _ =>
      let keys := (List.range 4).foldl (fun v k => v + 2 ^ k * bit (keySlot s k).isSome) 0
      leBytes 8 s.boot.version ++ leBytes 8 (storedVersion s) ++ leBytes 8 (antiRollback s) ++ [BitVec.ofNat 8 keys]
    act := fun _ s => s }
def execFwInfo (q : Request) (s : State) : Out := kenra (.fwInfo q) specFwInfo q s

def isEnroll (k : Nat) : Instr × Request → Bool
  | (.fwKeyEnroll _, q) => u8 q.arg 0 = k
  | _ => false

/-- FW.KEY.ENROLL (R406). -/
def specFwKeyEnroll : Spec :=
  { opcode := 0x0E05, same := fun a b => u8 a 0 = u8 b 0
    event := true, cls := fun _ => .ready, allowed := fun d => d == .ready
    layout := layoutBad ((0, 1) :: bulkForm 8)
    range := fun s a => firstBad ((decide (1 ≤ u8 a 0 ∧ u8 a 0 ≤ 3), 0) :: bulkRange s [1, 2] a 8 ++
      [(decide ((bulk a 8).length = 436), 12)])
    resource := fun s q => firstFail [(!s.tether.lock, .tether), (bulkWindow s false q.arg 8, .window),
      ((keySlot s (u8 q.arg 0)).isNone && !s.host.owed.any (isEnroll (u8 q.arg 0)), .busy)]
    act := fun _ s => s }
def execFwKeyEnroll (q : Request) (s : State) : Out := kenra (.fwKeyEnroll q) specFwKeyEnroll q s

/-- FW_KEY_ENROLL_DONE (R406): the hash is burned into an unwritten slot alone and the material copied into its partition. A burn whose
read-back fails leaves a slot that counts as unwritten (R405) and completes like a failed write-verify (log 28). -/
def execFwKeyEnrollDone (verified : Bool) (s : State) : Out :=
  whenOn (fun s =>
    match s.host.owed.find? (fun e => isEnroll 1 e || isEnroll 2 e || isEnroll 3 e) with
    | none => s
    | some (c, q) =>
      let x := bulk q.arg 8
      let r := bulkFetch x s
      let s := r.2.2
      match r.2.1 with
      | some st => finish c 0x0E05 q st 0 0 [] s
      | none =>
        if !verified || (keySlot s (u8 q.arg 0)).isSome then finish c 0x0E05 q .noSpace 0 0 [] s
        else
          let (v, s) := draw s
          finish c 0x0E05 q .ok 436 0 []
            { s with boot.keys := tabSet none s.boot.keys (u8 q.arg 0) (some (Config.sha384 r.1))
                     boot.mram := memWrite s.boot.mram (0x300000 + v % (2 ^ 20 - 436)) r.1 }) s

end Sys2Proof.Machine
end

