-- ==== Sys2Proof/Machine/Dsp.lean ====
section
/-! DEFINITION. The channeliser's exact arithmetic (chapter 03): the sine table, branch sums, the FFT, the cross-fade, the
rotator and the requantiser. -/

namespace Sys2Proof.Machine

/-- A complex integer. -/
abbrev Cpx := Int × Int

/-! Sine table (Table 3.5). -/

/-- π in units of 2^−100, rounded down. -/
def piScaled : Nat := 3982441812995697363688351113952

/-- The sine series from a term on: `x2` the squared angle, `k` the last power taken, all in units of 2^−100. -/
def sineSeries : Nat → Nat → Nat → Int → Int
  | 0, _, _, _ => 0
  | n + 1, x2, k, term => term + sineSeries n x2 (k + 2) (-(term * x2 / 2 ^ 100 / ((k + 1) * (k + 2) : Nat)))

/-- sin of `i` 4096ths of a turn in units of 2^−100, for the first quadrant. -/
def sineScaled (i : Nat) : Int :=
  let x := i * piScaled / 2048
  sineSeries 24 (x * x / 2 ^ 100) 1 x

/-- 2^17 sin(2πi / 4096) to nearest for the first quadrant; exact on the axes. -/
def sineQuarter (i : Nat) : Int :=
  if i = 0 then 0 else if i = 1024 then 131072 else (sineScaled i + 2 ^ 82) / 2 ^ 83

/-- 2^17 sin(2πi / 4096) to nearest, ties away from zero. -/
def sineRound (i : Nat) : Int :=
  let i := i % 4096
  if i ≤ 1024 then sineQuarter i
  else if i ≤ 2048 then sineQuarter (2048 - i)
  else if i ≤ 3072 then -sineQuarter (i - 2048)
  else -sineQuarter (4096 - i)

/-- sin_t and cos_t of Table 3.5. -/
def sinT (i : Nat) : Int := clampInt (-131072) 131071 (sineRound i)
def cosT (i : Nat) : Int := clampInt (-131072) 131071 (sineRound (i + 1024))

/-! Filter bank (R56). -/

/-- A component saturated to ±(2^23 − 1). -/
def sat24 (v : Int) : Int := clampInt (-(2 ^ 23 - 1)) (2 ^ 23 - 1) v

/-- Branch `b`: taps `h`, branch shift `g`, samples by label `x`. -/
def branch (h : Nat → Int) (p t g : Nat) (x : Int → Cpx) (u b : Nat) : Cpx :=
  let v := (List.range t).foldl (fun (v : Cpx) k =>
    let c := h (k * p + b)
    let z := x (((u : Int) - k) * p + b)
    (v.1 + c * z.1, v.2 + c * z.2)) (0, 0)
  (sat24 (roundTe v.1 (2 ^ g)), sat24 (roundTe v.2 (2 ^ g)))

/-- All branches of output `u`. -/
def branchAll (h : Nat → Int) (p t g : Nat) (x : Int → Cpx) (u : Nat) : List Cpx :=
  (List.range p).map (branch h p t g x u)

/-- Output `i` of a fade of length `m` (R66). -/
def fadeMix (m i : Nat) (wa wb : List Cpx) : List Cpx :=
  (wa.zip wb).map (fun e =>
    (roundTe (((m : Int) - 1 - i) * e.1.1 + (i + 1) * e.2.1) m, roundTe (((m : Int) - 1 - i) * e.1.2 + (i + 1) * e.2.2) m))

/-- Reverses the low `n` bits of a number. -/
def revBits : Nat → Nat → Nat
  | 0, _ => 0
  | n + 1, v => v % 2 * 2 ^ n + revBits n (v / 2)

/-- z × e^(−2πi·k/P) (R56): exact for k = 0 and P/4. -/
def twiddle (p : Nat) (z : Cpx) (k : Nat) : Cpx :=
  if k = 0 then z
  else if 4 * k = p then (z.2, -z.1)
  else
    let c := cosT (4096 * k / p)
    let t := sinT (4096 * k / p)
    (roundTe (z.1 * c + z.2 * t) (2 ^ 17), roundTe (z.2 * c - z.1 * t) (2 ^ 17))

/-- One radix-2 stage with butterflies of `half`. -/
def fftStage (p half : Nat) (a : List Cpx) : List Cpx :=
  (List.range p).map (fun i =>
    let j := i % (2 * half)
    let lo := if j < half then i else i - half
    let z := a.getD lo (0, 0)
    let t := twiddle p (a.getD (lo + half) (0, 0)) ((if j < half then j else j - half) * p / (2 * half))
    if j < half then (z.1 + t.1, z.2 + t.2) else (z.1 - t.1, z.2 - t.2))

/-- The P-point FFT of R56. -/
def fft (w : List Cpx) : List Cpx :=
  let p := w.length
  let n := Nat.log2 p
  (List.range n).foldl (fun a k => fftStage p (2 ^ k) a) ((List.range p).map (fun i => w.getD (revBits n i) (0, 0)))

/-! Rotator and requantiser (R70, R72). -/

/-- Table index of a phase in 2^−32 turns: the nearest of 4096 angles. -/
def phaseIndex (phase : Int) : Nat := (((phase % (2 ^ 32 : Int)).toNat + 2 ^ 19) / 2 ^ 20) % 4096

/-- A fine sample rotated to an angle. -/
def rotate (z : Cpx) (k : Nat) : Cpx :=
  (roundTe (z.1 * cosT k - z.2 * sinT k) (2 ^ 17), roundTe (z.1 * sinT k + z.2 * cosT k) (2 ^ 17))

/-- A component scaled by (g_m, e), before its limit. -/
def scaleBy (g e : Nat) (v : Int) : Int := roundTe (v * g) (2 ^ (16 + e))

end Sys2Proof.Machine
end

