-- ==== Sys2Proof/Machine/Channeliser.lean ====
section
/-! DEFINITION. The channeliser (chapter 03): steps with their flags, swaps and fades, rotator tables, gains, statistics,
synchronising resets, and the CHAN commands. -/

namespace Sys2Proof.Machine

/-! Slices and units. -/

/-- Units of a slice, in ascending input, then coarse channel. -/
def sliceUnits (s : State) (k : Nat) : List Nat := (s.chan.units.filter (fun e => e.2.slice = some k)).map (·.1)

/-- A run of a stream carries the unit's samples. -/
def unitFed (s : State) (key : Nat) : Bool :=
  s.ingest.streams.any (fun e => e.2.runs.any (fun r => r.cfg.input = key / 65536 &&
    decide (r.cfg.firstCh ≤ key % 65536) && decide (key % 65536 < r.cfg.firstCh + r.cfg.chCount)))

/-- Next fine output of a unit. -/
def nextOutput (s : State) (key : Nat) : Nat :=
  match (chanUnit s key).hist with
  | (m, _) :: _ => (m + 1) / branches s
  | [] => 0

/-! Coefficient banks (R65 to R68). -/

/-- Coefficient `i` of a bank; a bank that nothing has loaded holds the vendor prototype of the preset. -/
def coefficient (s : State) (b : Option (List Int)) (i : Nat) : Int :=
  match b with
  | some l => l.getD i 0
  | none => Config.vendorPrototype (bundleSection s 4) s.chan.preset s.chan.p i

/-- Bank A or B of a slice. -/
def bankOf (x : Slice) (b : Bool) : Option (List Int) := if b then x.bankB else x.bankA

/-- The bank that the fades begun so far lead to. -/
def leadBank (x : Slice) : Bool :=
  match x.fades with
  | (_, _, b) :: _ => b
  | [] => x.activeB

/-- Begins what the slice's swaps give up to output `u` (R66, R68): the held swap at the first output after the fade, and
each swap at its first output, or held where a fade runs then. -/
def advanceSwaps (u : Nat) : Nat → Slice → Slice
  | 0, x => x
  | n + 1, x =>
    let fadeEnd := (x.fades.head?.map (fun f => f.1 + f.2.1)).getD 0
    let next := x.swaps.head?.filter (fun w => decide (w.us ≤ u))
    let heldNow := decide (fadeEnd ≤ u) && (next.map (fun w => decide (fadeEnd ≤ w.us))).getD true
    match x.heldSwap, heldNow with
    | some h, true =>
      advanceSwaps u n { x with heldSwap := none, fades := (fadeEnd, h.m, !leadBank x) :: x.fades }
    | held, _ =>
      match next with
      | none => x
      | some w =>
        if w.us < fadeEnd then
          advanceSwaps u n { x with swaps := x.swaps.tail, heldSwap := some w, swapReplaced := x.swapReplaced || held.isSome }
        else advanceSwaps u n { x with swaps := x.swaps.tail, fades := (w.us, w.m, !leadBank x) :: x.fades }

/-- Every unit with samples has passed output `u`. -/
def allPassed (s : State) (k u : Nat) : Bool :=
  ((sliceUnits s k).filter (unitFed s)).all (fun key => decide (u ≤ nextOutput s key))

/-- Fades that some unit has still to finish. -/
def openFades (s : State) (k : Nat) : List (Nat × Nat × Bool) :=
  (sliceOf s k).fades.filter (fun f => !allPassed s k (f.1 + f.2.1))

/-- A swap is in force on a slice (R65). -/
def swapInForce (s : State) (k : Nat) : Bool :=
  let x := sliceOf s k
  !x.swaps.isEmpty || x.heldSwap.isSome || !(openFades s k).isEmpty

/-- Bank active after the fades that every unit has finished. -/
def activeBank (s : State) (k : Nat) : Bool :=
  let x := sliceOf s k
  match x.fades.find? (fun f => allPassed s k (f.1 + f.2.1)) with
  | some f => f.2.2
  | none => x.activeB

/-- Drops the fades that every unit has finished; the newest stays while a swap is held behind its end (R68). -/
def settleFades (k : Nat) (s : State) : State :=
  let b := activeBank s k
  let l := openFades s k
  modSlice k (fun x => { x with
    activeB := b, fades := if l.isEmpty && x.heldSwap.isSome then x.fades.take 1 else l }) s

/-- Puts a swap in force on a slice, in order of first output. -/
def addSwap (k : Nat) (w : Swap) (s : State) : State :=
  modSlice k (fun x => { x with
    swaps := x.swaps.filter (fun y => decide (y.us ≤ w.us)) ++ w :: x.swaps.filter (fun y => decide (w.us < y.us)) }) s

/-! Tables of source frames (R70, R71, R74). -/

/-- First output of a source frame for an input: u_n (R70). -/
def firstOutput (s : State) (input n : Nat) : Nat := resetLabel s input n / branches s

/-- Source frame of an output: the newest, from `n` down, whose first output it has reached. -/
def outputFrame (s : State) (input u : Nat) : Nat → Nat
  | 0 => 0
  | n + 1 => if firstOutput s input (n + 1) ≤ u then n + 1 else outputFrame s input u n

/-- Gain of a fine channel for a source frame (R74). -/
def gainAt (x : ChanUnit) (frame j : Nat) : Option (Nat × Nat) :=
  (x.gains.find? (fun g => decide (g.1 ≤ frame))).bind (fun g => g.2.getD j none)

/-- Gains put in place from a source frame on; `l` gives fine channels from `first` (R74). -/
def setGains (key frame first : Nat) (l : List (Nat × Nat)) (s : State) : State :=
  let p := branches s
  modUnit key (fun x =>
    let old := match x.gains.head? with
      | some g => g.2
      | none => []
    let new := (List.range p).map (fun j =>
      if first ≤ j ∧ j < first + l.length then l[j - first]? else old.getD j none)
    { x with gains := (frame, new) :: x.gains.take 1099 }) s

/-- Counts an output whose rotator table was missing or expired, once per unit and frame (R71). -/
def tableFault (key k frame : Nat) (expired : Bool) (s : State) : State :=
  let x := chanUnit s key
  let seen := if expired then x.expired else x.missed
  let s := modSlice k (fun y => { y with tableFault := true }) s
  if seen.contains frame then s
  else
    let s := modUnit key (fun y => if expired then { y with expired := frame :: y.expired.take 63 }
      else { y with missed := frame :: y.missed.take 63 }) s
    count (if expired then .rotatorExpired else .rotatorMissing) k s

/-! Statistics (R75, R76). -/

/-- A statistics set with one more sample. -/
def addStat (clip : Bool) (z : Cpx) (x : StatSet) : StatSet :=
  { n := x.n + 1, sre := x.sre + z.1, sim := x.sim + z.2, sre2 := x.sre2 + (z.1 * z.1).toNat
    sim2 := x.sim2 + (z.2 * z.2).toNat, clip := x.clip + bit clip }

/-- Pairs of a slice and its number of groups (R76). -/
def pairCount (s : State) (k : Nat) : Nat := (sliceUnits s k).length * branches s
def groupCount (s : State) (k : Nat) : Nat := max 1 (ceilDiv (pairCount s k) 8192)

/-- Counts an unflagged sample of fine channel `j` of a unit in its slice's set, if its group is covered (R75, R76). -/
def countStat (key k j : Nat) (clip : Bool) (pre post : Cpx) (s : State) : State :=
  let x := sliceOf s k
  let pair := ((sliceUnits s k).filter (fun y => decide (y < key))).length * branches s + j
  if pair / 8192 ≠ x.statNow % groupCount s k then s
  else
    let sat : Int → Int := fun v => clampInt (-32768) 32767 (roundTe v (2 ^ x.z))
    let z := if x.tapPre then (sat pre.1, sat pre.2) else post
    modSlice k (fun y => { y with statSets := tabMod {} y.statSets (pair % 8192) (addStat clip z) }) s

/-- STATS_INTERVAL_END (R76): at the tick that ends the interval the sets move to the readout bank, and the next group
begins from z0 under the settings set since. -/
def execStatsIntervalEnd (slice' : BitVec 5) (s : State) : Out := whenOn (fun s =>
  let k := slice'.toNat
  let x := sliceOf s k
  if x.statLeft ≠ 0 then s
  else
    let (pre, z, n) := x.nextStats.getD (x.tapPre, x.z, x.interval)
    modSlice k (fun x => { x with
      readout := x.statSets, readoutTag := some (x.statNow, x.statNow % groupCount s k), statSets := []
      readoutSets := min 8192 (pairCount s k - 8192 * (x.statNow % groupCount s k))
      statNow := x.statNow + 1, tapPre := pre, z := z, interval := n, statLeft := n, nextStats := none }) s) s

/-! One output (R56 to R60, R70 to R72). -/

/-- Labels of the window of output `u`. -/
def windowLow (s : State) (u : Nat) : Int := ((u : Int) - presetTaps s.chan.preset + 1) * branches s

/-- Sample at a label as the filter takes it: 0 where flagged, below the reset label, or before the history (R56, R62). -/
def filterSample (x : ChanUnit) (z0 : Nat) (m : Int) : Cpx :=
  if m < z0 then (0, 0)
  else match x.hist.find? (fun e => (e.1 : Int) = m) with
    | some (_, y) => if y.flag then (0, 0) else (y.re, y.im)
    | none => (0, 0)

/-- Fine outputs y[f] of a unit before the rotator, in fine channel order (R56, R57, R58, R66). -/
def fineOutputs (s : State) (key k u : Nat) : List Cpx :=
  let x := chanUnit s key
  if isPass s then [filterSample x 0 u]
  else
    let p := s.chan.p
    let t := presetTaps s.chan.preset
    let y := sliceOf s k
    let z0 := x.resets.foldl (fun m r => if r.2.1 ≤ u then max m r.1 else m) 0
    let run := fun (b : Bool) => branchAll (coefficient s (bankOf y b)) p t y.g (filterSample x z0) u
    let w := match y.fades.find? (fun f => decide (f.1 ≤ u)) with
      | none => run y.activeB
      | some (a, m, b) => if a + m ≤ u ∨ m = 1 then run b else fadeMix m (u - a) (run (!b)) (run b)
    let z := fft w
    (List.range p).map (fun j => z.getD ((j + p / 2) % p) (0, 0))

/-- The output is flagged on the grounds of its labels, of settling or of an abandon (R59). -/
def labelsFlagged (s : State) (key u : Nat) : Bool :=
  let x := chanUnit s key
  x.lateSteps.contains u ||
  (if isPass s then x.hist.any (fun e => e.1 = u && e.2.flag)
   else x.hist.any (fun e => e.2.flag && decide (windowLow s u ≤ e.1) && decide (e.1 < (u + 1) * branches s)) ||
     x.resets.any (fun r => decide (r.2.1 ≤ u) && decide (u < r.2.2)))

/-- The requantiser produces 8+8 bits: only on the direct route, where CHAN.CONFIG selects it; the stored route always takes
4+4 (R73). -/
def wideOut (s : State) : Bool := s.chan.wide && (runningImage s).any (·.direct)

/-- Flag code of a fine sample at the output width (R72, R73). -/
def flagValue (s : State) : Smp := flagSample (wideOut s)

/-- Rotates, scales and limits one fine channel of an output, and counts it in the statistics. -/
def requantise (key k u frame : Nat) (tab : RotTable) (flag : Bool) (j : Nat) (y : Cpx) (s : State) : Smp × State :=
  let first := firstOutput s (key / 65536) frame
  let phase : Int := tab.phi0.toNat + tab.phi1.toNat * ((j : Int) - (branches s / 2 : Nat)) + tab.omega.toNat * ((u : Int) - first)
  let r := rotate y (phaseIndex phase)
  match gainAt (chanUnit s key) frame j with
  | none => (flagValue s, s)
  | some (g, e) =>
    if flag then (flagValue s, s)
    else
      let lim : Int := if wideOut s then 127 else 7
      let a := scaleBy g e r.1
      let b := scaleBy g e r.2
      let q : Smp := { re := clampInt (-lim) lim a, im := clampInt (-lim) lim b, flag := false }
      (q, countStat key k j (decide (q.re ≠ a) || decide (q.im ≠ b)) r (q.re, q.im) s)

/-- Emits output `u` of a unit into the store or the Vestibule. -/
def emitOutput (key k u : Nat) (s : State) : State :=
  let s := modSlice k (fun x => advanceSwaps u (2 * x.swaps.length + 2) x) s
  let frame := outputFrame s (key / 65536) u (s.time.frame + 1)
  let x := chanUnit s key
  let tab := (x.rots.find? (fun r => r.1 = frame)).bind (·.2)
  let s := if tab.isSome then s else tableFault key k frame (decide (frame + 64 ≤ s.time.frame)) s
  let flag := labelsFlagged s key u || tab.isNone
  let t := tab.getD { phi0 := 0, phi1 := 0, omega := 0 }
  let (l, s) := (fineOutputs s key k u).zipIdx.foldl (fun (acc : List Smp × State) e =>
    let (q, s) := requantise key k u frame t flag e.2 e.1 acc.2
    (acc.1 ++ [q], s)) ([], s)
  let s := putOutput key u l s
  modUnit key (fun x => { x with
    resets := x.resets.filter (fun r => decide (u + 1 < r.2.2))
    lateSteps := x.lateSteps.filter (fun v => decide (u < v)) }) s

/-- One labelled sample enters the history, which holds the 512 of the widest window that R52 allows, so that outputs before a start find
their samples also where T grows (R62, R481); the last of a step yields its output. `late` marks an abandoned sample
(R54). -/
def takeSample (late : Bool) (key k : Nat) (s : State) (e : Nat × Smp) : State :=
  let p := branches s
  let u := e.1 / p
  let s := modUnit key (fun x => { x with
    hist := (e :: x.hist).take 512
    granules := if e.1 % 64 = 63 then x.granules.filter (fun g => decide (e.1 / 64 < g.1)) else x.granules
    lateSteps := if late && !x.lateSteps.contains u then u :: x.lateSteps else x.lateSteps }) s
  if (e.1 + 1) % p = 0 then emitOutput key k u s else s

/-- Processes the first `n` of a unit's samples of the frame, in label order. -/
def runUnit (late : Bool) (n key : Nat) (s : State) : State :=
  let l := (chanUnit s key).work
  let s := modUnit key (fun x => { x with work := l.drop n }) s
  match (chanUnit s key).slice with
  | none => s
  | some k => (l.take n).foldl (takeSample late key k) s

/-- The unit that its slice takes next: no unit of the slice that comes before it, in ascending input and then coarse channel,
has samples of the frame left (R54). -/
def unitNext (s : State) (key : Nat) : Bool :=
  match (chanUnit s key).slice with
  | none => false
  | some k => (sliceUnits s k).all (fun u => decide (key ≤ u) || (chanUnit s u).work.isEmpty)

/-- CHANNELISER_STEP (R54, R56): the slice takes `n` more samples of a unit, of those released in the previous frame. The units
of a slice are taken in ascending input and then coarse channel: a step of a unit whose turn has not come cannot occur. -/
def execChanneliserStep (input : BitVec 12) (coarse : BitVec 16) (n : Nat) (s : State) : Out :=
  let key := unitKey input.toNat coarse.toNat
  .next (if observing s && unitNext s key then runUnit false n key s else s)

/-! Ticks. -/

/-- Samples still unprocessed at a tick are abandoned (R54), then those released in the frame that ended become the work
of the new one. -/
def unitTick (key : Nat) (s : State) : State :=
  let x := chanUnit s key
  let s := if x.work.isEmpty then s
    else match x.slice with
      | some k => noteAbandon 6 [k] 1 (count .sliceBehind k (runUnit true x.work.length key
          (modSlice k (fun y => { y with behind := true }) s)))
      | none => s
  modUnit key (fun x => { x with work := x.inbox, inbox := [] }) s

/-- Rotator and gain tables of source frame `n` come into force at its tick, or are missing or stale (R71, R74). -/
def tablesTick (n key : Nat) (s : State) : State :=
  let x := chanUnit s key
  let k := x.slice.getD 0
  let rot := (x.rotBack.filter (fun r => r.1 = n)).map (·.2)
  let s := modUnit key (fun x => { x with rots := (n, rot) :: x.rots.take 63, rotBack := none }) s
  let fresh := x.gainBack.filter (fun g => g.1 = n && !s.chan.gainFixed)
  let s := modUnit key (fun x => { x with gainBack := none }) s
  let s := match fresh with
    | some g => setGains key n 0 g.2 s
    | none => s
  let lacks := (List.range (branches s)).any (fun j => (gainAt (chanUnit s key) n j).isNone)
  if (fresh.isNone && !s.chan.gainFixed) || lacks then
    count .gainStale k (modSlice k (fun y => { y with gainStale := true }) s)
  else s

/-- The channeliser at tick `n`, while the data path runs. DESIGN CHOICE (log 43): a statistics interval counts the frames in which its
slice has units, so that it pauses, its sets kept, while the data path is stopped. -/
def chanTick (n : Nat) (s : State) : State :=
  let keys := (s.chan.units.filter (fun e => e.2.slice.isSome)).map (·.1)
  let s := keys.foldl (fun s key => tablesTick n key (unitTick key s)) s
  (List.range 32).foldl (fun s k =>
    if (sliceUnits s k).isEmpty then s
    else settleFades k (modSlice k (fun x => { x with statLeft := x.statLeft - 1 }) s)) s

/-- Assigns a unit to a slice from tick `n` (R55, R481). -/
def assignUnit (n key k : Nat) (s : State) : State :=
  if (chanUnit s key).slice = some k then s
  else unitStart key n (modUnit key (fun x => { x with slice := some k }) s)

/-- Units leave their slices when the data path stops (log 33). -/
def stopChan (s : State) : State :=
  { s with chan.units := tabMap {} (fun (x : ChanUnit) => { x with slice := none, inbox := [], work := [] }) s.chan.units }

/-! Synchronising resets (R61 to R63). -/

/-- SYNC_IN_EDGE (R61): a qualified rising edge asks for a reset at the first tick at least 1 µs later. -/
def execSyncInEdge (width : Nat) (s : State) : Out := whenOn (fun s =>
  let (ok, s) := filterEdge 2 width s
  if ok then
    let t := ceilDiv (s.time.tb0 + 1000) (periodNs s) * periodNs s
    { s with compass.resets := s.compass.resets ++ [t] }
  else s) s

/-- SYNC_RESET (R61, R62): the resets due at the tick just passed act as one on every unit. -/
def execSyncReset (s : State) : Out := whenOn (fun s =>
  let now := tickTime s s.time.frame
  let due := s.compass.resets.filter (fun t => decide (t ≤ now))
  match due.getLast? with
  | none => s
  | some t =>
    let n := ceilDiv t (periodNs s)
    let s := count .resetCount 0 { s with compass.resets := s.compass.resets.filter (fun t => decide (now < t)) }
    ((s.chan.units.filter (fun e => e.2.slice.isSome)).map (·.1)).foldl (fun s key =>
      if (chanUnit s key).resets.any (fun r => r.1 = resetLabel s (key / 65536) n) then s else unitReset key n s) s) s

/-! Commands. -/

/-- P and preset break R52: P × T over 512, or P does not divide c. -/
def chanBad (s : State) (a : List Byte) : Bool :=
  let preset := cellOr a 8 0 s.chan.preset
  let p := cellOr a 8 1 s.chan.p
  let c := coarseFrame s s.time.period
  decide (512 < p * presetTaps preset) || (preset ≠ 4 && decide (c % p ≠ 0))

/-- A change of preset or P (R482): every unit starts at the tick, under the delays of its source frame (`restartUnits`), both
banks take the vendor prototype, and swaps not begun go. DESIGN CHOICE (log 43): a cross-fade already begun goes on in the
changed filter. -/
def changeFilter (preset p : Nat) (s : State) : State :=
  if preset = s.chan.preset ∧ p = s.chan.p then s
  else
    let s := { s with chan.preset := preset, chan.p := p, chan.restart := true }
    (List.range 32).foldl (fun s k => modSlice k (fun x => { x with
      bankA := none, bankB := none, swaps := [], heldSwap := none
      swapReplaced := x.swapReplaced || !x.swaps.isEmpty || x.heldSwap.isSome }) s) s

/-- After a change of preset or P every unit starts at tick `n`, with the D of source frame `n` in its start label (R481, R482). -/
def restartUnits (n : Nat) (s : State) : State :=
  if s.chan.restart then
    ((s.chan.units.filter (fun e => e.2.slice.isSome)).map (·.1)).foldl (fun s key => unitStart key n s)
      { s with chan.restart := false }
  else s

/-- CHAN.CONFIG (R52, Table 3.6): preset, P and width device-wide, g per slice. -/
def specChanConfig : Spec :=
  { opcode := 0x0500, same := fun a b => selCovers a b && cellsCover 8 4 a b
    layout := selCellsLayout 8 4 [] (fun i => i ≠ 2), cls := fun _ => .txn
    range := fun _ a => firstBad [(selOk 32 a, 0), cellRange a 8 0 0 4,
      (cellIn a 8 1 (fun v => [4, 8, 16, 32, 64].contains v), 24), cellRange a 8 2 0 16, cellRange a 8 3 0 1]
    resource := fun s q => if (cellOn q.arg 8 0 || cellOn q.arg 8 1) && chanBad s q.arg then some (.range, 24) else none
    act := fun q s =>
      let s := changeFilter (cellOr q.arg 8 0 s.chan.preset) (cellOr q.arg 8 1 s.chan.p) s
      let s := { s with chan.wide := cellOr q.arg 8 3 (bit s.chan.wide) = 1 }
      (selected q.arg).foldl (fun s k => modSlice k (fun x => { x with g := cellOr q.arg 8 2 x.g }) s) s }

/-- CHAN_CONFIG. -/
def execChanConfig (q : Request) (s : State) : Out := kenra (.chanConfig q) specChanConfig q s

/-- CHAN.SYNC (R61): its tick is fixed as a TB0 time (R12). -/
def specChanSync : Spec :=
  { opcode := 0x0501, layout := layoutBad [(0, 8)]
    allowed := fun d => d = .ready || d = .observing || d = .degraded
    resource := fun s q => firstFail [(decide (s.time.frame + 2 ≤ u64 q.arg 0), .late)]
    act := fun q s => { s with compass.resets := s.compass.resets ++ [tickTime s (u64 q.arg 0)] } }

/-- CHAN_SYNC. -/
def execChanSync (q : Request) (s : State) : Out := kenra (.chanSync q) specChanSync q s

/-- Loads of coefficients in progress on a slice. -/
def coefLoading (s : State) (k : Nat) : Bool :=
  (loadsOf (fun c => match c with | .chanCoefLoad _ => true | _ => false) s).any (fun q => (selected q.arg).contains k)

/-- CHAN.COEF.LOAD (R65, R376): P × T signed 16-bit values into each idle bank. -/
def specChanCoefLoad : Spec :=
  { opcode := 0x0502, layout := layoutBad (selForm ++ loadForm 8), event := true
    range := fun s a => firstBad ([(selOk 32 a && decide (selCount a ≠ 0), 0)] ++ loadRange s [1, 2] a 8 ++
      [(decide (u32 a 24 = 2 * s.chan.p * presetTaps s.chan.preset) && !isPass s, 24)])
    resource := fun s q => firstFail (loadChecks s q 8 ++
      [((selected q.arg).all (fun k => !swapInForce s k && !coefLoading s k), .busy)])
    act := beginLoad .chanCoefLoad 8 }

/-- CHAN_COEF_LOAD. -/
def execChanCoefLoad (q : Request) (s : State) : Out := kenra (.chanCoefLoad q) specChanCoefLoad q s

/-- Signed 16-bit values of a byte string. -/
def s16List : Nat → List Byte → List Int
  | 0, _ => []
  | n + 1, l => if l.isEmpty then [] else signed 16 (leVal (slice l 0 2)) :: s16List n (l.drop 2)

/-- Applies a coefficient load to the idle bank of each slice. -/
def applyCoef (q : Request) (data : List Byte) (s : State) : State :=
  let l := s16List data.length data
  (selected q.arg).foldl (fun s k =>
    let idle := !activeBank s k
    modSlice k (fun x => if idle then { x with bankB := some l } else { x with bankA := some l }) s) s

/-- First frame that a swap may name in a commit of frame `n` (R67). -/
def swapBound (s : State) (n : Nat) : Nat :=
  let d := (inForce s).map (·.dmax)
  n + 2 + ceilDiv (d.getD 0) (max 1 (coarseFrame s s.time.period))

/-- CHAN.COEF.SWAP (R66, R67): PASS rejects swaps (RANGE: no status is given; log 33). -/
def specChanCoefSwap : Spec :=
  { opcode := 0x0503, layout := layoutBad (selForm ++ [(8, 10)]), cls := fun _ => .txn
    range := fun s a => firstBad [(selOk 32 a && !isPass s, 0),
      (decide (u16 a 16 ≤ 4096) && [1, 2, 4, 8, 16, 32, 64, 128, 256, 512, 1024, 2048, 4096].contains (u16 a 16), 16)]
    resource := fun s q => firstFail [((selected q.arg).all (fun k => !coefLoading s k), .conflict),
      (decide (swapBound s s.time.frame ≤ u64 q.arg 8), .late)]
    same := fun new old => selCovers new old && u64 new 8 = u64 old 8
    act := fun q s =>
      let w : Swap := { frame := u64 q.arg 8, m := u16 q.arg 16, us := u64 q.arg 8 * finePer s s.time.period }
      (selected q.arg).foldl (fun s k => addSwap k w s) s }

/-- CHAN_COEF_SWAP. -/
def execChanCoefSwap (q : Request) (s : State) : Out := kenra (.chanCoefSwap q) specChanCoefSwap q s

/-- A binary32 lies between two positive ones: their codes are in the order of their values. -/
def f32Between (lo hi v : Nat) : Bool := decide (lo ≤ v) && decide (v ≤ hi)

/-- CHAN.GAIN.MODE (R74): target 1.0 to 3.5. -/
def specChanGainMode : Spec :=
  { opcode := 0x0504, layout := layoutBad [(0, 1), (4, 4)], cls := fun _ => .txn
    range := fun _ a => firstBad [(decide (u8 a 0 ≤ 1), 0), (f32Between 0x3F800000 0x40600000 (u32 a 4), 4)]
    act := fun q s => { s with chan.gainFixed := u8 q.arg 0 = 1, chan.gainTarget := BitVec.ofNat 32 (u32 q.arg 4) } }

/-- CHAN_GAIN_MODE. -/
def execChanGainMode (q : Request) (s : State) : Out := kenra (.chanGainMode q) specChanGainMode q s

/-- A load of gains for an input and fine channel that `a` names is in progress (R376). -/
def gainsLoading (a : List Byte) (c : Instr) : Bool :=
  match c with
  | .chanGainSet q => (selected a).any (fun i => (selected q.arg).contains i) &&
      decide (u16 a 32 < u16 q.arg 32 + u16 q.arg 34) && decide (u16 q.arg 32 < u16 a 32 + u16 a 34)
  | _ => false

/-- CHAN.GAIN.SET (R74): per input, then fine channel: u16 g_m, u8 e, reserved. It is none of the commands that chapter 08
lists as accepting compressed data. -/
def specChanGainSet : Spec :=
  { opcode := 0x0505, same := fun a b => selCovers a b && decide (u16 a 32 ≤ u16 b 32) && decide (u16 b 32 + u16 b 34 ≤ u16 a 32 + u16 a 34)
    layout := layoutBad (selForm ++ loadForm 8 ++ [(32, 4)]), cls := fun _ => .txn, event := true, load := true
    bytes := fun a => u32 a 24
    range := fun s a => firstBad ([(selOk 4096 a && decide (selCount a ≠ 0), 0)] ++ loadRange s [1, 2] a 8 ++
      [(decide (u8 a 28 = 0), 28), (decide (u32 a 24 = 4 * selCount a * u16 a 34), 24), (decide (1 ≤ u16 a 34), 34)])
    resource := fun s q => firstFail ((decide (loadsOf (gainsLoading q.arg) s = []), .busy) :: loadChecks s q 8)
    act := beginLoad .chanGainSet 8 }

/-- CHAN_GAIN_SET. -/
def execChanGainSet (q : Request) (s : State) : Out := kenra (.chanGainSet q) specChanGainSet q s

/-- What is wrong with the data of CHAN.GAIN.SET: a reserved byte that is not 0 is MALFORMED (R7), an e above 31 RANGE (R74). -/
def gainDataBad (data : List Byte) : Option Status :=
  if (List.range (data.length / 4)).any (fun i => decide (u8 data (4 * i + 3) ≠ 0)) then some .malformed
  else if (List.range (data.length / 4)).any (fun i => decide (31 < u8 data (4 * i + 2))) then some .range
  else none

/-- Applies fixed gains from the next tick's source frame on. DESIGN CHOICE (log 43): in AUTO mode too they replace the gains in use, until
a table of a later frame does. -/
def applyGains (q : Request) (data : List Byte) (s : State) : State :=
  let first := u16 q.arg 32
  let n := u16 q.arg 34
  let p := branches s
  (selected q.arg).zipIdx.foldl (fun s e =>
    (List.range n).foldl (fun s i =>
      let o := 4 * (e.2 * n + i)
      let fine := first + i
      setGains (unitKey e.1 (fine / p)) (s.time.frame + 1) (fine % p) [(u16 data o, u8 data (o + 2))] s) s) s

/-- A set would count more than 2^32 samples in an interval of `n` frames: s in each (R76). -/
def statsOver (s : State) (n period : Nat) : Bool := decide (2 ^ 32 < n * finePer s period)

/-- CHAN.STATS.CONFIG (R76, R235): tap 0 PRE, 1 POST, from the next interval. While observing, an interval in which a set could count more
than 2^32 samples is CONFLICT. DESIGN CHOICE (log 43): settings given in READY wait for the end of the first interval, which runs under
the old ones. -/
def specChanStatsConfig : Spec :=
  { opcode := 0x0506, layout := selCellsLayout 8 3 [] (fun _ => false)
    range := fun _ a => firstBad [(selOk 32 a, 0), cellRange a 8 0 0 1, cellRange a 8 1 0 16, cellRange a 8 2 1 4096]
    resource := fun s q => firstFail [(!(observing s && cellOn q.arg 8 2 && statsOver s (cellOr q.arg 8 2 0) s.time.period), .conflict)]
    act := fun q s => (selected q.arg).foldl (fun s k => modSlice k (fun x =>
      let (pre, z, n) := x.nextStats.getD (x.tapPre, x.z, x.interval)
      { x with nextStats := some (cellOr q.arg 8 0 (bit (!pre)) = 0, cellOr q.arg 8 1 z, cellOr q.arg 8 2 n) }) s) s }

/-- CHAN_STATS_CONFIG. -/
def execChanStatsConfig (q : Request) (s : State) : Out := kenra (.chanStatsConfig q) specChanStatsConfig q s

/-- A statistics set as CHAN.STATS.READ gives it. -/
def statBytes (x : StatSet) : List Byte :=
  leBytes 8 x.n ++ leInt 8 x.sre ++ leInt 8 x.sim ++ leBytes 8 x.sre2 ++ leBytes 8 x.sim2 ++ leBytes 8 x.clip

/-- The sets of the last completed interval as the readout bank holds them, in the group's order (R77). -/
def readoutBytes (s : State) (k : Nat) : List Byte :=
  let x := sliceOf s k
  (List.range x.readoutSets).flatMap (fun j => statBytes (tabGet {} x.readout j))

/-- CHAN.STATS.READ (R77): the readout bank as it stands when the command begins, with its tag. DESIGN CHOICE (log 43): before any
interval has completed the tag is (0, 0) and there is no set. -/
def specChanStatsRead : Spec :=
  { opcode := 0x0507, layout := layoutBad (selForm ++ bulkForm 8), event := true
    range := fun s a => firstBad ([(selOk 32 a && selCount a = 1, 0)] ++ bulkRange s [1, 2] a 8)
    resource := fun s q => firstFail [(bulkWindow s true q.arg 8, .window)]
    act := fun q s =>
      let k := selFirst q.arg
      let (i, g) := (sliceOf s k).readoutTag.getD (0, 0)
      let bytes := readoutBytes s k
      { s with reads := s.reads ++ [{ cmd := .chanStatsRead q, req := q, bulkOff := 8
                                      bytes := bytes.take (bulk q.arg 8).length
                                      extra := [0, 0, 0] ++ leBytes 4 i ++ leBytes 2 g }] } }

/-- CHAN_STATS_READ. -/
def execChanStatsRead (q : Request) (s : State) : Out := kenra (.chanStatsRead q) specChanStatsRead q s

def isStatsRead : Instr → Bool
  | .chanStatsRead _ => true
  | _ => false

/-- CHAN_STATS_READ_DONE (R77, R353). -/
def execChanStatsReadDone (fail : Bool) (s : State) : Out := whenOn (endRead 0x0507 isStatsRead fail) s

/-- Slice status word (Table 3.4). -/
def sliceWord (s : State) (k : Nat) : Nat :=
  let x := sliceOf s k
  bit x.swapReplaced * 128 + bit x.heldSwap.isSome * 64 + bit (!(openFades s k).isEmpty) * 32 + bit (activeBank s k) * 16
    + bit x.behind * 8 + bit x.tableFault * 4 + bit x.gainStale * 2 + bit (!(sliceUnits s k).isEmpty)

/-- Counters of CHAN.STATUS; RESET_COUNT is one for the device. -/
def sliceCtrs : List Ctr := [.sliceBehind, .settling, .resetCount, .rotatorMissing, .rotatorExpired, .gainStale]
def sliceCtr (s : State) (k : Nat) (c : Ctr) : Nat := counter c (if c = .resetCount then 0 else k) s

/-- CHAN.STATUS (R61, Table 3.4): RESET_COUNT is cleared only with CS0. -/
def specChanStatus : Spec :=
  { opcode := 0x0508, layout := statusLayout, sampled := true
    range := fun _ a => firstBad [(selOk 32 a, 0)]
    result := fun s q => statusEach q.arg (sliceWord s) (fun k => sliceCtrs.map (sliceCtr s k))
    act := fun q s =>
      let v := fun k => sliceCtrs.map (sliceCtr s k)
      ackShown q.arg v (fun k s => modSlice k (fun x => { x with
          swapReplaced := false, behind := false, tableFault := false, gainStale := false }) s)
        (clearShown q.arg v (fun k s =>
          sliceCtrs.foldl (fun s c => if c = .resetCount ∧ k ≠ 0 then s else clearCtr c k s) s) s) }

/-- CHAN_STATUS. -/
def execChanStatus (q : Request) (s : State) : Out := kenra (.chanStatus q) specChanStatus q s

end Sys2Proof.Machine
end

