-- ==== Sys2Proof/Machine/Pegs.lean ====
section
/-! DEFINITION. The peg instructions of Table 11.7 and the events of a peg (chapter 11). The encodings are the
toolchain's, so an instruction is commanded with its peg and operands. -/

namespace Sys2Proof.Machine

/-- Issues an instruction, in every state but OFF. -/
def pegRun (p : PegIssue) (body : PegBody) (s : State) : Out := whenOn (pegIssue p body) s

/-- Frame of a back buffer. -/
def tableFrame : FrameTable → Nat
  | .delay _ n => n
  | .rotator _ _ n => n
  | .gain _ _ n => n

/-- The transfer goes to the back buffer of a source frame whose tick has come (R246). -/
def tableLate (s : State) (t : Transfer) : Bool :=
  match t.table with
  | some x => decide (tableFrame x ≤ s.time.frame)
  | none => false

/-- Spaces of Table 11.1 as a transfer of peg `p` finds them. -/
inductive PegSpace where
  | own (off : Nat) | shared (off : Nat) | window (addr : Nat) | service (off : Nat)
deriving DecidableEq, Repr

/-- Space of an address of the peg address map, and the bytes from it to the space's end; none for the default target (R244, Table
11.1). -/
def pegSpace (s : State) (p addr : Nat) : Option (PegSpace × Nat) :=
  if addr < 0x40000 then some (.own addr, 0x40000 - addr)
  else if 0x100000 ≤ addr ∧ addr < 0x200000 then
    some (.shared (p / 16 * 0x100000 + (addr - 0x100000)), 0x200000 - addr)
  else if 0x1000000 ≤ addr ∧ addr < 0x2000000 then some (.shared (addr - 0x1000000), 0x2000000 - addr)
  else if 0x10000000 ≤ addr ∧ addr < 0x20000000 then
    ((windowsOf s p).find? (fun w => decide (w.1 ≤ addr) && decide (addr < w.1 + w.2))).map (fun w =>
      (.window addr, min 0x20000000 (w.1 + w.2) - addr))
  else if servicePeg ≤ addr ∧ addr < servicePeg + serviceBytes s then
    some (.service (addr - servicePeg), servicePeg + serviceBytes s - addr)
  else none

/-- Target of Table 17.1 that holds a space. -/
def PegSpace.target : PegSpace → Nat
  | .own _ | .shared _ => 1
  | .window _ => 5
  | .service _ => 3

/-- Byte of a register-space window: the readout banks' sets stand where `Config.readoutAt` places them (R77); another register's
contents are open, `v` (log 1). -/
def windowByte (s : State) (v addr : Nat) : Byte :=
  match Config.readoutAt addr with
  | some (k, o) => (readoutBytes s k).getD o 0
  | none => BitVec.ofNat 8 v

/-- Bytes of a register-space window, each open one a free value of its own. -/
def windowBytes : Nat → Nat → State → List Byte × State
  | 0, _, s => ([], s)
  | n + 1, a, s =>
    let r := windowBytes n (a + 1) (draw s).2
    (windowByte s (draw s).1 a :: r.1, r.2)

/-- Bytes read from a space (Table 11.1); in the service region up to a burst that comes back uncorrectable, as that which holds byte
`bad` does (R337). -/
def pegRead (p : Nat) (x : PegSpace) (n : Nat) (bad : Option Nat) (s : State) : List Byte × State :=
  match x with
  | .own o => (memRead (peg s p).data o n, s)
  | .shared o => (memRead s.peg.shared o n, s)
  | .service o =>
    let hit : Nat → Bool := fun a => match bad with
      | some b => decide (a = (o + b) / 64 * 64)
      | none => false
    let r := fetchUntil 4 ((burstAddrs o n).map (fun a => (a, if hit a then [0, 1] else []))) s
    (memRead r.2.dram.mem o (min n (64 * (o / 64 + r.1) - o)), r.2)
  | .window a => windowBytes n a s

/-- Bytes written to a space. What a peg writes through a register-space window is a per-frame table, which `moveTransfer` takes
(R246), or a CONTROL frame for an upstream source (chapter 12; where: log 2); the manual names no other register that a peg writes. -/
def pegPut (p : Nat) (x : PegSpace) (l : List Byte) (s : State) : State :=
  match x with
  | .own o => modPeg p (fun g => { g with data := memWrite g.data o l }) s
  | .shared o => { s with peg.shared := memWrite s.peg.shared o l }
  | .service o => queueWrite o 4 l s
  | .window a => match Config.controlPort a with
    | some k => if 1 ≤ l.length ∧ l.length ≤ 9216 then sendControlFrame (k % 32) l s else s
    | none => s

/-- Gains of a table: per fine channel u16 g_m, u8 e, reserved, as CHAN.GAIN.SET gives them (Table 16.8; log 19). -/
def gainEntries : Nat → List Byte → List (Nat × Nat)
  | 0, _ => []
  | n + 1, l => match l with
    | a :: b :: e :: _ :: t => (leVal [a, b], e.toNat) :: gainEntries n t
    | _ => []

/-- A COMMIT puts a back buffer's contents in place for its frame (R246, R46, R70, R74). DESIGN CHOICE (log 19): a delay value is the
first 4 bytes of its back buffer, little-endian, and a written bit 31 is dropped. -/
def commitTable (t : FrameTable) (l : List Byte) (s : State) : State :=
  match t with
  | .delay i n => modDelay i (fun x => { x with back := some (n, leVal (slice l 0 4) % 2 ^ 31) }) s
  | .rotator i c n =>
    let w (k : Nat) : BitVec 32 := BitVec.ofNat 32 (leVal (slice l (4 * k) 4))
    modUnit (unitKey i c) (fun u => { u with rotBack := some (n, { phi0 := w 0, phi1 := w 1, omega := w 2 }) }) s
  | .gain i c n => modUnit (unitKey i c) (fun u => { u with gainBack := some (n, gainEntries l.length l) }) s

/-- Bytes moved so far into a back buffer. -/
def backBytes (s : State) (t : FrameTable) : List Byte :=
  ((s.peg.back.find? (fun e => e.1 = t)).map (·.2)).getD []

/-- A transfer writes the bytes that it moved (R245); a table's last transfer, moved whole, commits it (R246). -/
def landTransfer (p : Nat) (t : Transfer) (dst : PegSpace) (l : List Byte) (s : State) : State :=
  let s := pegPut p dst l s
  match t.table with
  | none => s
  | some x =>
    let l' := backBytes s x ++ l
    let rest := s.peg.back.filter (fun e => e.1 ≠ x)
    if t.commit && l.length = t.len then commitTable x l' { s with peg.back := rest }
    else { s with peg.back := rest ++ [(x, l')] }

/-- A transfer's shape: 4 to 65 536 bytes, a multiple of 4, one end in own data or own shared memory (R245). -/
def transferOk (p : Nat) (t : Transfer) (ends : List PegSpace) : Bool :=
  decide (4 ≤ t.len) && decide (t.len ≤ 65536) && decide (t.len % 4 = 0) && ends.any (fun x => match x with
    | .own _ => true
    | .shared o => o / 0x100000 = p / 16
    | _ => false)

/-- Bytes that a transfer can move before an end leaves its space (R245). -/
def transferRoom (s : State) (p : Nat) (t : Transfer) : Nat :=
  min (((pegSpace s p t.src).map (·.2)).getD 0) (((pegSpace s p t.dst).map (·.2)).getD 0)

/-- The default target answers a transfer's request past the end of a space (R380). -/
def leaveSpace (p : Nat) (t : Transfer) (s : State) : State :=
  let n := transferRoom s p t
  if n = ((pegSpace s p t.src).map (·.2)).getD 0 then defaultTarget (4 + p / 16) (t.src + n) false s
  else defaultTarget (4 + p / 16) (t.dst + n) true s

/-- The bytes that a transfer moves: up to where it leaves a space, to the error given, or to an uncorrectable burst (R245, R337). Each
end takes its turn at its port (R379, R383). -/
def moveTransfer (p : Nat) (t : Transfer) (src dst : PegSpace) (fail bad : Option Nat) (s : State) : List Byte × State :=
  let m := 4 + p / 16
  let a := portOf m src.target t.src
  let b := portOf m dst.target t.dst
  if targetDown s a then ([], resetAnswer a s)
  else if targetDown s b then ([], resetAnswer b s)
  else
    let r := pegRead p src (min t.len (min (transferRoom s p t) (fail.getD t.len))) bad s
    let n := r.1.length
    (r.1, landTransfer p t dst r.1 (portServe 64 m b t.dst n (portServe 64 m a t.src n r.2)))

/-- A transfer ends with ERROR: its bits in XSTAT, and XFER_ERR (R245). -/
def xferError (p bit : Nat) (s : State) : State :=
  count .xferErrors p (modPeg p (fun g =>
    { g.setStat (statIPEND 3) with xstat := g.xstat ||| BitVec.ofNat 32 (2 * 4 ^ bit) }) s)

/-- The oldest transfer of a peg ends: done, or with ERROR at the point of the first error, after `fail` bytes or in the burst of the
service region that holds byte `bad` of its source (R245). -/
def endTransfer (p : Nat) (fail bad : Option Nat) (s : State) : State :=
  match (peg s p).queue with
  | [] => s
  | q :: rest =>
    let t := q.t
    let s := modPeg p (fun g => { g with queue := rest }) s
    let x := pegSpace s p t.src
    let y := pegSpace s p t.dst
    if !transferOk p t (x.toList ++ y.toList |>.map (·.1)) then xferError p q.bit s
    else match x, y with
      | some a, some b =>
        let r := moveTransfer p t a.1 b.1 fail bad s
        if r.1.length = t.len then
          modPeg p (fun g =>
            let g := if t.interrupt then g.setStat (statIPEND 2) else g
            { g with xstat := g.xstat ||| BitVec.ofNat 32 (4 ^ q.bit) }) r.2
        else xferError p q.bit (if r.1.length = transferRoom s p t then leaveSpace p t r.2 else r.2)
      | _, _ => xferError p q.bit (leaveSpace p t s)

/-- Transfers to the back buffers of frame `n` still in progress at tick `n` are cancelled (R246). -/
def cancelTables (n : Nat) (p : Nat) (s : State) : State :=
  let late := (peg s p).queue.filter (fun q => match q.t.table with
    | some x => decide (tableFrame x ≤ n)
    | none => false)
  if late.isEmpty then s
  else
    countN .xferErrors p late.length (modPeg p (fun g =>
      { (late.foldl (fun (g : Peg) q => { g with xstat := g.xstat ||| BitVec.ofNat 32 (2 * 4 ^ q.bit) }) g).setStat (statIPEND 3) with
        queue := g.queue.filter (fun q => !(late.contains q)) }) s)

/-- ADD: 32-bit sum (R264). -/
def execPegAdd (p : PegIssue) (d a : BitVec 5) (b : PegSrc) (s : State) : Out :=
  pegRun p (pegAlu d (fun g => g.rg a + g.src b)) s

/-- SUB: 32-bit difference (R264). -/
def execPegSub (p : PegIssue) (d a : BitVec 5) (b : PegSrc) (s : State) : Out :=
  pegRun p (pegAlu d (fun g => g.rg a - g.src b)) s

/-- AND (R264). -/
def execPegAnd (p : PegIssue) (d a : BitVec 5) (b : PegSrc) (s : State) : Out :=
  pegRun p (pegAlu d (fun g => g.rg a &&& g.src b)) s

/-- OR (R264). -/
def execPegOr (p : PegIssue) (d a : BitVec 5) (b : PegSrc) (s : State) : Out :=
  pegRun p (pegAlu d (fun g => g.rg a ||| g.src b)) s

/-- XOR (R264). -/
def execPegXor (p : PegIssue) (d a : BitVec 5) (b : PegSrc) (s : State) : Out :=
  pegRun p (pegAlu d (fun g => g.rg a ^^^ g.src b)) s

/-- MIN of two signed values (R264; log 11). -/
def execPegMin (p : PegIssue) (d a : BitVec 5) (b : PegSrc) (s : State) : Out :=
  pegRun p (pegAlu d (fun g => if (g.rg a).slt (g.src b) then g.rg a else g.src b)) s

/-- MAX of two signed values (R264; log 11). -/
def execPegMax (p : PegIssue) (d a : BitVec 5) (b : PegSrc) (s : State) : Out :=
  pegRun p (pegAlu d (fun g => if (g.src b).slt (g.rg a) then g.rg a else g.src b)) s

/-- ABS; of the most negative value the result is open (R264; log 2). -/
def execPegAbs (p : PegIssue) (d a : BitVec 5) (s : State) : Out :=
  pegRun p (pegAlu d (fun g => if g.rg a = 0x80000000 then Config.absOfMin else if (g.rg a).slt 0 then -(g.rg a) else g.rg a)) s

/-- ADDS: saturating signed sum (R264). -/
def execPegAdds (p : PegIssue) (d a : BitVec 5) (b : PegSrc) (s : State) : Out :=
  pegRun p (pegAlu d (fun g => BitVec.ofInt 32 (sat32 ((g.rg a).toInt + (g.src b).toInt)))) s

/-- SHL: shift left by 0 to 31 (R264; a greater count is open, log 1). -/
def execPegShl (p : PegIssue) (d a : BitVec 5) (b : PegCount) (s : State) : Out :=
  pegRun p (pegAluOpen d (fun g => (g.shift b).map (fun n => g.rg a <<< n))) s

/-- SHR: logical shift right (R264; log 1). -/
def execPegShr (p : PegIssue) (d a : BitVec 5) (b : PegCount) (s : State) : Out :=
  pegRun p (pegAluOpen d (fun g => (g.shift b).map (fun n => g.rg a >>> n))) s

/-- SAR: arithmetic shift right (R264; log 1). -/
def execPegSar (p : PegIssue) (d a : BitVec 5) (b : PegCount) (s : State) : Out :=
  pegRun p (pegAluOpen d (fun g => (g.shift b).map (fun n => (g.rg a).sshiftRight n))) s

/-- ROT: rotate left (R264; log 11). -/
def execPegRot (p : PegIssue) (d a : BitVec 5) (b : PegCount) (s : State) : Out :=
  pegRun p (pegAluOpen d (fun g => (g.shift b).map (fun n => (g.rg a).rotateLeft n))) s

/-- CLZ: leading zero bits, 32 for 0 (R264). -/
def execPegClz (p : PegIssue) (d a : BitVec 5) (s : State) : Out :=
  pegRun p (pegAlu d (fun g => BitVec.ofNat 32 (if g.rg a = 0 then 32 else 31 - Nat.log2 (g.rg a).toNat))) s

/-- POPC: number of bits set (R264). -/
def execPegPopc (p : PegIssue) (d a : BitVec 5) (s : State) : Out :=
  pegRun p (pegAlu d (fun g => BitVec.ofNat 32 ((List.range 32).filter (fun i => (g.rg a).getLsbD i)).length)) s

/-- BITREV: bits in reverse order (R264). -/
def execPegBitrev (p : PegIssue) (d a : BitVec 5) (s : State) : Out :=
  pegRun p (pegAlu d (fun g => (g.rg a).reverse)) s

/-- EXT: the field of `len` bits from bit `lsb`; the bits above it are open, as is the whole of a field that leaves the word (R264; log 2). -/
def execPegExt (p : PegIssue) (d a : BitVec 5) (lsb len : BitVec 5) (s : State) : Out :=
  pegRun p (pegAluOpen d (fun g =>
    if 32 < lsb.toNat + len.toNat then none
    else
      let f := (g.rg a >>> lsb.toNat) &&& BitVec.ofNat 32 (2 ^ len.toNat - 1)
      some (f ||| (Config.extUpper f len.toNat <<< len.toNat)))) s

/-- INS: the low `len` bits of a register into bits `lsb` on of another; a field that leaves the word is open (R264; log 1). -/
def execPegIns (p : PegIssue) (d a : BitVec 5) (lsb len : BitVec 5) (s : State) : Out :=
  pegRun p (pegAluOpen d (fun g =>
    if 32 < lsb.toNat + len.toNat then none
    else
      let m := BitVec.ofNat 32 (2 ^ len.toNat - 1) <<< lsb.toNat
      some ((g.rg d &&& ~~~m) ||| ((g.rg a <<< lsb.toNat) &&& m)))) s

/-- PADD: two 16-bit sums at once (R264; log 11). -/
def execPegPadd (p : PegIssue) (d a b : BitVec 5) (s : State) : Out :=
  pegRun p (pegAlu d (fun g => ((g.rg a).extractLsb' 16 16 + (g.rg b).extractLsb' 16 16) ++
    ((g.rg a).extractLsb' 0 16 + (g.rg b).extractLsb' 0 16))) s

/-- PSUB: two 16-bit differences at once (R264; log 11). -/
def execPegPsub (p : PegIssue) (d a b : BitVec 5) (s : State) : Out :=
  pegRun p (pegAlu d (fun g => ((g.rg a).extractLsb' 16 16 - (g.rg b).extractLsb' 16 16) ++
    ((g.rg a).extractLsb' 0 16 - (g.rg b).extractLsb' 0 16))) s

/-- PSAT: packed saturate; its limits are not given (R264; log 2). -/
def execPegPsat (p : PegIssue) (d a b : BitVec 5) (s : State) : Out :=
  pegRun p (pegAlu d (fun g => Config.packedSaturate (g.rg a) (g.rg b))) s

/-- CMP: writes a comparison whose encoding is not given (R264; log 2). -/
def execPegCmp (p : PegIssue) (d a : BitVec 5) (b : PegSrc) (s : State) : Out :=
  pegRun p (pegAlu d (fun g => Config.cmpResult (g.rg a) (g.src b))) s

/-- BR.cc: taken or not, two delay slots (R249; which codes hold is open, log 2). -/
def execPegBrCc (p : PegIssue) (cc : BitVec 4) (a : BitVec 5) (target : BitVec 16) (s : State) : Out :=
  pegRun p (branchBody (fun s g =>
    .ok (branchTo (if Config.condHolds cc (g.rg a) then some target else none) g, s))) s

/-- CALL: writes the return address to g30; two delay slots (R249, Table 11.6). -/
def execPegCall (p : PegIssue) (target : BitVec 16) (s : State) : Out :=
  pegRun p (branchBody (fun s g =>
    .ok (branchTo (some target) (g.writeG 30 (g.afterSlots.setWidth 32)), s))) s

/-- RET: continues at the address in a register; two delay slots (R249). -/
def execPegRet (p : PegIssue) (a : BitVec 5) (s : State) : Out :=
  pegRun p (branchBody (fun s g => .ok (branchTo (some ((g.rg a).setWidth 16)) g, s))) s

/-- JMP: two delay slots (R249). -/
def execPegJmp (p : PegIssue) (target : BitVec 16) (s : State) : Out :=
  pegRun p (branchBody (fun s g => .ok (branchTo (some target) g, s))) s

/-- LD: word load through pk with post-modify (R253). -/
def execPegLd (p : PegIssue) (d : BitVec 5) (k : BitVec 3) (s : State) : Out :=
  pegRun p (pegLoadBody p d k 4 (BitVec.ofNat 32)) s

/-- LDH: halfword load; the upper bits are open (R253; log 2). -/
def execPegLdh (p : PegIssue) (d : BitVec 5) (k : BitVec 3) (s : State) : Out :=
  pegRun p (pegLoadBody p d k 2 (fun v => Config.ldhUpper (BitVec.ofNat 16 v) ++ BitVec.ofNat 16 v)) s

/-- LDB: byte load; the upper bits are open (R253; log 2). -/
def execPegLdb (p : PegIssue) (d : BitVec 5) (k : BitVec 3) (s : State) : Out :=
  pegRun p (pegLoadBody p d k 1 (fun v => Config.ldbUpper (BitVec.ofNat 8 v) ++ BitVec.ofNat 8 v)) s

/-- ST: word store through pk with post-modify (R253). -/
def execPegSt (p : PegIssue) (a : BitVec 5) (k : BitVec 3) (s : State) : Out :=
  pegRun p (pegStoreBody a k 4) s

/-- STH: halfword store (R253). -/
def execPegSth (p : PegIssue) (a : BitVec 5) (k : BitVec 3) (s : State) : Out :=
  pegRun p (pegStoreBody a k 2) s

/-- STB: byte store (R253). -/
def execPegStb (p : PegIssue) (a : BitVec 5) (k : BitVec 3) (s : State) : Out :=
  pegRun p (pegStoreBody a k 1) s

/-- MOVP: move to a pointer register, seen one cycle later (R248, R254). -/
def execPegMovp (p : PegIssue) (k : BitVec 3) (a : BitVec 5) (s : State) : Out :=
  pegRun p (fun s g => .ok ({ g with p := tabSet 0 g.p k.toNat (g.rg a) }, s)) s

/-- MOVM: move to a post-modify step register, seen one cycle later (R248, R254). -/
def execPegMovm (p : PegIssue) (k : BitVec 3) (a : BitVec 5) (s : State) : Out :=
  pegRun p (fun s g => .ok ({ g with m := tabSet 0 g.m k.toNat (g.rg a) }, s)) s

/-- MOVCB: move to a circular base register, seen one cycle later (R248, R254). -/
def execPegMovcb (p : PegIssue) (k : BitVec 3) (a : BitVec 5) (s : State) : Out :=
  pegRun p (fun s g => .ok ({ g with cb := tabSet 0 g.cb k.toNat (g.rg a) }, s)) s

/-- MOVCL: move to a circular length register, seen one cycle later, with no wrap of the pointer at the write (R248, R254). -/
def execPegMovcl (p : PegIssue) (k : BitVec 3) (a : BitVec 5) (s : State) : Out :=
  pegRun p (fun s g => .ok ({ g with cl := tabSet 0 g.cl k.toNat (g.rg a) }, s)) s

/-- QMAC: four products, each into its own accumulator (R250). -/
def execPegQmac (p : PegIssue) (a b : BitVec 5) (s : State) : Out :=
  pegRun p (fun s g =>
    match pegQmacOf false a b s p.peg.toNat g with
    | .error e => .error e
    | .ok g => .ok (g, s)) s

/-- QMAC.L: QMAC with one load fused to it (R250, R253). -/
def execPegQmacL (p : PegIssue) (a b x : BitVec 5) (k : BitVec 3) (s : State) : Out :=
  pegRun p (fun s g =>
    match pegQmacOf false a b s p.peg.toNat g with
    | .error e => .error e
    | .ok g' => match pegLoad p.dmem x k 4 (BitVec.ofNat 32) g' with
      | .error e => .error e
      | .ok g'' => .ok (g'', countEcc .dmemCe p.peg.toNat p.dmem s)) s

/-- QMAC.N: QMAC subtracting its products (R250). -/
def execPegQmacN (p : PegIssue) (a b : BitVec 5) (s : State) : Out :=
  pegRun p (fun s g =>
    match pegQmacOf true a b s p.peg.toNat g with
    | .error e => .error e
    | .ok g => .ok (g, s)) s

/-- SMAC: adds one product of low halves in accumulator k (R250). -/
def execPegSmac (p : PegIssue) (a b : BitVec 5) (k : BitVec 2) (s : State) : Out :=
  pegRun p (fun s g => .ok (g.accAdd k.toNat ((loHalf (g.rg a) * loHalf (g.rg b))), s)) s

/-- SMAC.N: subtracts one product of low halves in accumulator k (R250). -/
def execPegSmacN (p : PegIssue) (a b : BitVec 5) (k : BitVec 2) (s : State) : Out :=
  pegRun p (fun s g => .ok (g.accAdd k.toNat (-(loHalf (g.rg a) * loHalf (g.rg b))), s)) s

/-- ACCRD: an accumulator rounded, shifted and limited to 32 bits, OV set if it limits (R252). -/
def execPegAccrd (p : PegIssue) (d : BitVec 5) (k : BitVec 2) (sh : BitVec 5) (s : State) : Out :=
  pegRun p (fun s g =>
    let v := roundTe (tabGet 0 g.accSeen k.toNat) (2 ^ sh.toNat)
    let r := sat32 v
    let g := if r = v then g else g.setStat statOV
    .ok (g.writeG d (BitVec.ofInt 32 r), s)) s

/-- ACCMV: bits 39:32 sign-extended, or bits 31:0, of an accumulator (R252). -/
def execPegAccmv (p : PegIssue) (d : BitVec 5) (k : BitVec 2) (hi : Bool) (s : State) : Out :=
  pegRun p (fun s g =>
    let v := tabGet 0 g.accSeen k.toNat
    .ok (g.writeG d (BitVec.ofInt 32 (if hi then v.fdiv 4294967296 else v)), s)) s

/-- ACCCLR: clears the named accumulators, seen by a reader after 4 cycles (R248, R252). -/
def execPegAccclr (p : PegIssue) (mask : BitVec 4) (s : State) : Out :=
  pegRun p (fun s g =>
    .ok ((List.range 4).foldl (fun (g : Peg) k => if mask.getLsbD k
      then Peg.write 4 (.acc k) 0 { g with acc := tabSet 0 g.acc k 0 } else g) g, s)) s

/-- LOOP: sets lc, ls, le and LE of a loop; with count 0 the body is skipped after the delay slots and execution goes on at end + 1
(R248, R249, R255). A body that holds no instruction is ILLEGAL where the hardware detects it (R256, log 2). -/
def execPegLoop (p : PegIssue) (k : Bool) (a : BitVec 5) (last : BitVec 16) (s : State) : Out :=
  pegRun p (noSlot (fun s g =>
    let i := bit k
    let n := g.rg a
    let m := (statLE i).toNat
    let g := ((g.write 2 (.loopCount i) n.toNat).write 2 (.loopStart i) g.afterSlots.toNat).write 2 (.loopEnd i) last.toNat
    if n = 0 then .ok (branchTo (some (last + 1)) (g.write 2 .stat (m * 4294967296)), s)
    else if last.toNat < g.afterSlots.toNat && Config.loopFault g.pc last then .error (.illegal, g.pc.setWidth 32)
    else .ok ({ g.write 2 .stat (m * 4294967296 + m) with slots := 3, target := none, loopSlots := true }, s))) s

/-- A special register as a move reads it, a narrower one widened by zeros (Table 11.2). -/
def readSpecial (s : State) (p : Nat) (g : Peg) : PegSpecial → BitVec 32
  | .stat => readStat s p g.stat
  | .lc k => tabGet 0 g.lc (bit k)
  | .ls k => (tabGet 0 g.ls (bit k)).setWidth 32
  | .le k => (tabGet 0 g.le (bit k)).setWidth 32
  | .spc => g.spc.setWidth 32
  | .sstat => g.sstat
  | .ivb => g.ivb.setWidth 32
  | .fev => g.fev.setWidth 32
  | .xstat => g.xstat
  | .cyc hi => BitVec.ofNat 32 (if hi then g.cyc / 4294967296 else g.cyc)
  | .p k => tabGet 0 g.p k.toNat
  | .m k => tabGet 0 g.m k.toNat
  | .cb k => tabGet 0 g.cb k.toNat
  | .cl k => tabGet 0 g.cl k.toNat

/-- A move to a special register. The loop registers and stat are written after 2 cycles and the address registers after 1 (Table 11.3);
the manual gives no delay for spc, sstat, ivb and fev, which take 2 here, and xstat and cyc keep their value (DESIGN CHOICE; log 19). Of
stat the RW bits are written and the W1C bits cleared by a 1 (R265). -/
def writeSpecial (v : BitVec 32) (g : Peg) : PegSpecial → Peg
  | .stat =>
    let m := statRW ||| (v &&& (statOVR ||| statOV))
    g.write 2 .stat (m.toNat * 4294967296 + (v &&& statRW).toNat)
  | .lc k => g.write 2 (.loopCount (bit k)) v.toNat
  | .ls k => g.write 2 (.loopStart (bit k)) v.toNat
  | .le k => g.write 2 (.loopEnd (bit k)) v.toNat
  | .spc => g.write 2 .spc v.toNat
  | .sstat => g.write 2 .sstat v.toNat
  | .ivb => g.write 2 .ivb v.toNat
  | .fev => g.write 2 .fev v.toNat
  | .xstat | .cyc _ => g
  | .p k => { g with p := tabSet 0 g.p k.toNat v }
  | .m k => { g with m := tabSet 0 g.m k.toNat v }
  | .cb k => { g with cb := tabSet 0 g.cb k.toNat v }
  | .cl k => { g with cl := tabSet 0 g.cl k.toNat v }

/-- MOVSTAT: to or from stat (R248, R265). The moves of Table 11.3 to the loop registers, and those of the other special registers of
Table 11.2, which Table 11.7 gives no row, are this one with another register (DESIGN CHOICE; log 19). -/
def execPegMovstat (p : PegIssue) (x : PegSpecial) (toStat : Bool) (r : BitVec 5) (s : State) : Out :=
  pegRun p (fun s g =>
    if toStat then .ok (writeSpecial (g.rg r) g x, s)
    else .ok (g.writeG r (readSpecial s p.peg.toNat g x), s)) s

/-- WAIT: stops issue until the next tick; pc keeps the address of the WAIT (R258, R259). -/
def execPegWait (p : PegIssue) (s : State) : Out :=
  pegRun p (fun s g => .ok ({ g with waiting := true }, s)) s

/-- RETI: after two delay slots stat is restored from sstat and execution continues at spc (R258). -/
def execPegReti (p : PegIssue) (s : State) : Out :=
  pegRun p (noSlot (fun s g => .ok ({ branchTo (some g.spc) g with returning := true }, s))) s

/-- SIGNAL: raises PEER at another peg of the pitch (R257, R264). -/
def execPegSignal (p : PegIssue) (peer : BitVec 4) (s : State) : Out :=
  whenOn (pegIssue p (fun s g =>
    let n := p.peg.toNat / 16 * 16 + peer.toNat
    if n = p.peg.toNat then .ok (g.setStat (statIPEND 1), s) else .ok (g, pegRaise n 1 s))) s

/-- SETTIMER: sets the peg's compare value (R257, R264). -/
def execPegSettimer (p : PegIssue) (a : BitVec 5) (s : State) : Out :=
  pegRun p (fun s g => .ok ({ g with compare := some (g.rg a).toNat }, s)) s

/-- TRAP: named in Table 11.7 with no effect given; it issues (R264; log 10). -/
def execPegTrap (p : PegIssue) (s : State) : Out :=
  pegRun p (fun s g => .ok (g, s)) s

/-- NOP: issues (Table 11.4). -/
def execPegNop (p : PegIssue) (s : State) : Out :=
  pegRun p (fun s g => .ok (g, s)) s

/-- The field of XSTAT that the next transfer takes: the first from the last one's on that no queued transfer has (R245; log 19). -/
def Peg.freeBit (g : Peg) : Nat :=
  (((List.range 4).map (fun i => (g.nextBit + i) % 4)).find? (fun j => g.queue.all (fun q => q.bit ≠ j))).getD g.nextBit

/-- XFER: queues a transfer, writing 1, or 0 when the queue of four is full. A transfer to the back buffer of a frame whose tick has come is cancelled at once with ERROR (R245, R246). -/
def execPegXfer (p : PegIssue) (d : BitVec 5) (t : Transfer) (s : State) : Out :=
  pegRun p (fun s g =>
    let j := g.freeBit
    if 4 ≤ g.queue.length then .ok (g.writeG d 0, s)
    else
      let g := { g.writeG d 1 with nextBit := (j + 1) % 4
                                   xstat := statBits g.xstat (BitVec.ofNat 32 (3 * 4 ^ j)) 0 }
      if tableLate s t then
        .ok ({ g.setStat (statIPEND 3) with xstat := g.xstat ||| BitVec.ofNat 32 (2 * 4 ^ j) }, count .xferErrors p.peg.toNat s)
      else .ok ({ g with queue := g.queue ++ [{ t := t, bit := j }] }, s)) s

/-- XWAIT: branches if a named transfer is neither done nor ended with error (R264; log 11). -/
def execPegXwait (p : PegIssue) (mask : BitVec 4) (target : BitVec 16) (s : State) : Out :=
  pegRun p (branchBody (fun s g =>
    let busy := (List.range 4).any (fun j => mask.getLsbD j && (g.xstat >>> (2 * j)) &&& 3 == 0)
    .ok (branchTo (if busy then some target else none) g, s))) s

/-- Interrupt entry: a pending enabled source is taken at a boundary outside delay slots (R257). -/
def execPegInterruptEntry (p : BitVec 8) (s : State) : Out :=
  whenOn (fun s =>
    let g := peg s p.toNat
    if g.stopped.isSome || g.start || (g.slots ≠ 0 && !g.loopSlots) || !g.has statIE then s
    else match g.source with
      | some k => modPeg p.toNat (Peg.enter k (readStat s p.toNat)) s
      | none => s) s

/-- cyc reaches the compare value and TIMER is raised; with no value set nothing happens (R257). The cycles that a waiting peg has passed
till then are counted (R268). -/
def execPegTimerCompare (p : BitVec 8) (s : State) : Out :=
  whenOn (fun s =>
    let g := peg s p.toNat
    match g.compare with
    | some c =>
      pegRaise p.toNat 0 (modPeg p.toNat (fun g => { g with cyc := max g.cyc c, compare := none })
        (if g.waiting then countN .waitCycles p.toNat (c - g.cyc) s else s))
    | none => s) s

/-- The Ridge signals the peg: DOORBELL (R257). -/
def execPegDoorbell (p : BitVec 8) (s : State) : Out :=
  whenOn (pegRaise p.toNat 4) s

/-- The oldest transfer reads the peg's own data memory. -/
def readsOwn (s : State) (p : Nat) : Bool :=
  match (peg s p).queue with
  | [] => false
  | q :: _ => decide (q.t.src + q.t.len ≤ 0x40000)

/-- Pitch in whose shared memory the oldest transfer of a peg has its source. -/
def sharedSource (s : State) (p : Nat) : Option Nat :=
  match (peg s p).queue with
  | [] => none
  | q :: _ => match pegSpace s p q.t.src with
    | some (.shared o, _) => some (o / 0x100000)
    | _ => none

/-- A transfer completes, or ends with ERROR after some bytes (R245). ECC corrects and counts an error of the peg's own data memory and
of a shared memory; an uncorrectable word ends the transfer with ERROR, and in own data memory raises the fault DMEM_UE at its address
(R243, R261; log 19). `ue` says that the error is an uncorrectable burst of the service region (R337). -/
def execXferComplete (p : PegIssue) (smem : Ecc) (fail : Option Nat) (ue : Bool) (s : State) : Out :=
  let n := p.peg.toNat
  let a := (((peg s n).queue.head?.map (·.t.src)).getD 0) + fail.getD 0
  whenOn (fun s =>
    let ends := fun (e : Ecc) => endTransfer n (if e = .uncorrectable then some (fail.getD 0) else fail) none s
    if readsOwn s n then
      let r := countEcc .dmemCe n p.dmem (ends p.dmem)
      if p.dmem = .uncorrectable && (peg r n).stopped.isNone then pegFaultAt n (peg r n) .dmemUe (BitVec.ofNat 32 a) r else r
    else match sharedSource s n with
      | some k => countEcc .smemCe k smem (ends smem)
      | none => if ue then endTransfer n none (some (fail.getD 0)) s else endTransfer n fail none s) s

/-- The peg runs a program: its kernel, or a service of its pitch (R267). -/
def pegAssigned (s : State) (p : Nat) : Bool := (peg s p).customer || decide (serviceOf s (p / 16) ≠ 0)

/-- The pegs at tick `n`: tables of frame `n` not in place are cancelled, stopped service pegs restart, the others go
on after WAIT or are overrun (R246, R259, R261). -/
def pegsTick (n : Nat) (s : State) : State :=
  let ids := s.peg.pegs.map (·.1)
  let s := ids.foldl (fun s p => cancelTables n p s) s
  let s := { s with peg.back := s.peg.back.filter (fun e => decide (n < tableFrame e.1)) }
  ids.foldl (fun s p =>
    let r := (peg s p).tick (pegFrame s) (pegAssigned s p)
    let s := modPeg p (fun _ => Peg.restart (bundleSection s 2) (serviceOf s (p / 16)) r.1) s
    let s := countN .waitCycles p r.2.1 s
    if r.2.2 then noteAbandon 5 [p] 1 (count .pegOverrun p s) else s) s

/-- The guard begins: GUARD is raised at every peg (Table 11.5). -/
def pegsGuard (s : State) : State := (List.range 256).foldl (fun s p => pegRaise p 5 s) s

end Sys2Proof.Machine
end

