-- ==== Sys2Proof/Machine/Image.lean ====
section
/-! DEFINITION. Schedule images (R219, R377, Table 16.5): decoding, and the checks of form that need no timing. -/

namespace Sys2Proof.Machine

/-! Decoding. -/

/-- An item of 16 bytes. -/
def itemOf (b : List Byte) : SchedItem :=
  { kind := u8 b 0, unit := u8 b 1, chan := u16 b 2, entry := u32 b 4, b8 := u8 b 8, b9 := u8 b 9, h10 := u16 b 10
    b12 := u8 b 12, h12 := u16 b 12, h14 := u16 b 14, w8 := u32 b 8, w12 := u32 b 12 }

/-- A list of numbers rises strictly. -/
def risesStrictly : List Nat → Bool
  | a :: b :: t => decide (a < b) && risesStrictly (b :: t)
  | _ => true

/-- Header cell `i` of an image (R377). -/
def headCell (d : List Byte) (i : Nat) : Nat := u64 d (24 + 8 * i)

/-- First byte of an image's items: after the channel list, at a multiple of 16. -/
def itemsFrom (d : List Byte) : Nat := ceilDiv (96 + 2 * u32 d 12) 16 * 16

/-- An image's layout is whole (R377). -/
def imageWhole (d : List Byte) : Bool :=
  let c := u32 d 12
  let start := itemsFrom d
  u32 d 0 = 0x53434844 && u32 d 4 = 1 && decide (1 ≤ c) && decide (c ≤ 65536) && d.length = start + 16 * u32 d 8 &&
    risesStrictly ((List.range c).map (fun k => u16 d (96 + 2 * k))) &&
    (slice d (96 + 2 * c) (start - (96 + 2 * c))).all (fun b => b = 0) &&
    decide (headCell d 0 ≤ 1) && decide (headCell d 1 ≤ 1) && decide (headCell d 5 ≤ 1)

/-- A decoded image (R377); none where it is malformed. -/
def parseImage (d : List Byte) : Option Image :=
  if imageWhole d then
    some { identity := u64 d 16, throttle := decide (headCell d 0 = 1), direct := decide (headCell d 1 = 1)
           period := headCell d 2, len := headCell d 3, blocks := headCell d 4, wide := decide (headCell d 5 = 1)
           entries := headCell d 6, dmax := headCell d 7, parent := headCell d 8
           channels := (List.range (u32 d 12)).map (fun k => u16 d (96 + 2 * k))
           items := (List.range (u32 d 8)).map (fun k => itemOf ((d.drop (itemsFrom d + 16 * k)).take 16)) }
  else none

/-! Charges (R222). -/

/-- One check of the validator: the check code of Table 10.4, the unit kind (row of Table 10.3 from 0) and instance, the frame
entry, and the amount charged against a budget. It fails where the charge exceeds the budget. -/
structure Charge where
  entry : Nat
  code : Nat
  unit : Nat
  inst : Nat
  used : Nat
  avail : Nat
deriving DecidableEq, Repr

/-- The check fails. -/
def Charge.over (c : Charge) : Bool := decide (c.avail < c.used)

/-- A check that fails where a condition holds. -/
def failIf (code unit inst entry : Nat) (p : Bool) : Charge :=
  { entry := entry, code := code, unit := unit, inst := inst, used := bit p, avail := 0 }

/-- The failing check that a verdict reports: the earliest entry, and there the lowest code (R222). -/
def worst (l : List Charge) : Option Charge :=
  (l.filter Charge.over).foldl (fun (o : Option Charge) c =>
    match o with
    | none => some c
    | some d => if c.entry < d.entry ∨ (c.entry = d.entry ∧ c.code < d.code) then some c else some d) none

/-- Least margin of a unit kind, in millionths of its budget. -/
def marginOf (l : List Charge) (unit : Nat) : Nat :=
  l.foldl (fun m c => if c.unit = unit ∧ 0 < c.avail then min m ((c.avail - c.used) * 1000000 / c.avail) else m) 1000000

/-- The verdict on a list of checks (R222). -/
def verdictOf (l : List Charge) : Verdict :=
  let m := (List.range 14).map (marginOf l)
  match worst l with
  | none => { code := none, entry := 0, unit := 0, inst := 0, used := 0, avail := 0, margins := m }
  | some c => { code := some c.code, entry := c.entry, unit := c.unit, inst := c.inst, used := c.used, avail := c.avail,
                margins := m }

/-- The verdict on an image that is malformed (R377). -/
def formatVerdict : Verdict := verdictOf [failIf 1 3 0 0 true]

/-! Form (FORMAT, R14, R24, R78, R95, R101, R144, R145, R156, R218, R219, R377). A condition for which the manual names no check
code counts as FORMAT (log 38). -/

/-- Section of an item, in Table 10.1's order. -/
def sectionOf (x : SchedItem) : Nat :=
  [0, 3, 3, 2, 4, 1, 1, 5, 6, 7, 4].getD x.kind 0

/-- Unit kind of an item: its row of Table 10.3 from 0. -/
def unitOf (x : SchedItem) : Nat := [3, 5, 5, 3, 6, 1, 1, 4, 8, 11, 6].getD x.kind 3

/-- Item `y` may follow item `x` (R377). -/
def mayFollow (x y : SchedItem) : Bool :=
  if y.kind = 10 then x.kind = 4 && x.entry = y.entry
  else decide (sectionOf x < sectionOf y) || (sectionOf x = sectionOf y && (decide (x.entry < y.entry) ||
    (x.entry = y.entry && (!(x.kind = 4 && y.kind = 4) || decide (x.h10 < y.h10)))))

/-- Every item follows the one before it rightly; a record scale stands between two jobs without unordering them. -/
def itemsOrdered (l : List SchedItem) : Bool :=
  let main := l.filter (fun x => x.kind ≠ 10)
  (main.zip main.tail).all (fun p => mayFollow p.1 p.2) && (l.zip l.tail).all (fun p => p.2.kind ≠ 10 || mayFollow p.1 p.2) &&
    (match l with
     | x :: _ => x.kind ≠ 10
     | [] => true)

/-- Entries of the period: E × B frames (R218). -/
def periodFrames (s : State) (i : Image) : Nat := i.entries * blockFrames s i

/-- Correlation tiles of `b` input blocks (R98). -/
def tileCount (b : Nat) : Nat := b * (b + 1) / 2

/-- L is in the range of Table 5.1 for the mode (R95). -/
def lengthOk (wide : Bool) (n : Nat) : Bool := decide (256 ≤ n) && decide (n ≤ if wide then 32768 else 8388608)

/-- A power of two no more than `m`. -/
def powerTo (m v : Nat) : Bool := (List.range 24).any (fun k => v = 2 ^ k) && decide (v ≤ m)

/-- Sets of the segments that reach a beam job's item. -/
def setsOf (i : Image) (x : SchedItem) : List Nat :=
  ((i.items.filter (fun y => y.kind = 2 && y.chan = x.chan && jobItem i y.entry y.chan y.h10 = some x)).map (·.b8)).dedup

/-- A job with the fused operations enabled names a conversion that its records can carry (R160, R162, R196): int32 for statistics,
int8 for voltages; FORMAT exact is the path with the operations disabled (R163). -/
def fusedForm (s : State) (i : Image) (x : SchedItem) : Bool :=
  let f := x.h14 / 256 % 8
  !testBit x.h14 1 || (decide (1 ≤ f) && (x.b8 ≠ 2 || f = 1) &&
    (x.b8 ≠ 3 || (setsOf i x).all (fun e => (beamSet s e).power || f = 3)))

/-- The fields of an item lie within Table 16.5. -/
def fieldsOk (s : State) (i : Image) (x : SchedItem) : Bool :=
  let eb := periodFrames s i
  let here := decide (x.chan < i.channels.length) && decide (x.entry < eb)
  match x.kind with
  | 1 =>
    let j := 2 ^ x.b9
    here && decide (x.unit ≤ 3) && decide (x.b8 < tileCount i.blocks) && decide (x.b9 ≤ 6) && decide (x.b12 ≤ 3) &&
      i.len % (64 * j) = 0 && decide (256 ≤ i.len / j)
  | 2 =>
    here && decide (1 ≤ x.unit) && decide (x.unit ≤ 15) && decide (x.b8 < s.beam.setCount) && decide (x.b12 ≤ 3) &&
      i.len % max 1 s.beam.segLen = 0 && decide (x.h14 < i.len / max 1 s.beam.segLen)
  | 3 =>
    here && !i.direct && decide (x.unit ≤ 1) && decide (x.b8 < i.blocks) && decide (x.b9 ≤ 3) &&
      decide (x.h10 < i.len / chunkLen i.len) && decide (0 < x.w12)
  | 4 =>
    here && decide (x.unit ≤ 3) && decide (x.b8 ≤ 6) && decide (x.b9 ≤ 127) && decide (x.h12 ≤ 4095) &&
      decide (x.h14 / 4 % 4 ≤ 2) && decide (x.h14 / 256 % 8 ≤ 4) && fusedForm s i x
  | 5 => decide (x.unit ≤ 31) && decide (x.entry < i.entries) && decide (x.w8 % 65536 < 4096)
  | 6 =>
    decide (x.unit ≤ 31) && decide (x.entry < i.entries) && decide (x.w8 < eb) && powerTo 4096 x.h12
  | 7 =>
    decide (x.chan < i.channels.length) && decide (x.entry < i.entries) && decide (x.b8 < tileCount i.blocks) &&
      decide (1 ≤ x.h10)
  | 8 => decide (x.unit ≤ 15) && decide (x.chan ≤ 4095) && decide (x.b9 ≤ 1)
  | 9 => decide (x.unit ≤ 15) && decide (x.chan ≤ 15) && decide (x.entry < eb) && decide (x.b12 ≤ 1)
  | 10 => true
  | _ => false

/-- Entry at which an item's failure counts: a block's first frame for kinds that name a block. -/
def failEntry (s : State) (i : Image) (x : SchedItem) : Nat :=
  if 5 ≤ x.kind ∧ x.kind ≤ 8 then x.entry * blockFrames s i else x.entry

/-- A frame entry holds no more than R219 allows: items by (kind test, limit). -/
def entryLimits (i : Image) : List Charge :=
  let count := fun (p : SchedItem → Bool) (x : SchedItem) => (i.items.filter (fun y => p y && y.entry = x.entry)).length
  i.items.flatMap (fun x =>
    if x.kind = 1 ∨ x.kind = 2 then
      (List.range 4).map (fun a =>
        let on := fun (y : SchedItem) => (y.kind = 1 && y.unit = a) || (y.kind = 2 && testBit y.unit a)
        failIf 1 5 a x.entry (on x && decide (1024 < count on x)))
    else if x.kind = 3 then [failIf 1 3 0 x.entry (decide (65536 < count (fun y => y.kind = 3) x))]
    else if x.kind = 4 then [failIf 1 6 0 x.entry (decide (4096 < count (fun y => y.kind = 4) x))]
    else [])

/-- HALF stands on diagonal tiles only, and the dumps of a job sum to a length of Table 5.1 (R144, R145, R156). -/
def jobForm (i : Image) (x : SchedItem) : Bool :=
  let l := jobDumps i x
  let sum := (l.map (fun y => i.len / 2 ^ y.1.b9)).sum
  let runs := i.items.filter (fun y => y.kind = 7 && y.chan = x.chan)
  !(x.kind = 4 && !(3 ≤ x.b8 && x.b8 ≤ 5)) ||
    ((!testBit x.h14 0 || l.all (fun y => diagonal i.blocks y.1.b8)) && lengthOk i.wide sum &&
      (x.b8 ≠ 6 || runs.all (fun y => lengthOk i.wide (y.h10 * i.len))))

/-- The checks of form. Where s is no whole number, P not dividing c (R14), the spec names no code: the model gives INGEST_RATE, since c
is what ingest and P make it (log 38, DESIGN CHOICE). A set counts s samples of its fine channel per frame, in the interval in force and in the one set for the next (R76). A sample width that differs from the one configured counts as FIXED_PARAMETER while observing (R73,
R229, Table 5.7). -/
def formCharges (s : State) (i : Image) : List Charge :=
  let n := finePer s i.period
  [failIf 3 0 0 0 (decide (n = 0)),
   failIf 1 3 0 0 (!(i.period ∈ [250, 500, 1000, 2000, 4000, 5000, 8000, 10000]) ||
     !(decide (1 ≤ i.blocks) && decide (i.blocks ≤ 16)) || !(decide (1 ≤ i.entries) && decide (i.entries ≤ 256))),
   failIf 1 3 0 0 (decide (0 < n) && decide (i.len % n ≠ 0)),
   failIf 1 3 0 0 (!lengthOk i.wide i.len || (!i.direct && (decide (i.len % 64 ≠ 0) || i.wide))),
   failIf 1 3 0 0 (decide (2 ^ 20 < periodFrames s i)),
   failIf (if observing s then 2 else 1) 5 0 0 ((i.direct && i.wide ≠ s.chan.wide) ||
     (List.range 4).any (fun a => (array s a).enabled && (array s a).wide ≠ i.wide)),
   failIf 1 3 0 0 (!itemsOrdered i.items),
   failIf 1 1 0 0 ((List.range 32).any (fun k => decide (2 ^ 32 < (sliceOf s k).interval * n) ||
     decide (2 ^ 32 < ((sliceOf s k).nextStats.map (·.2.2)).getD 0 * n)))] ++
  i.items.map (fun x => failIf 1 (unitOf x) 0 (failEntry s i x) (!fieldsOk s i x)) ++
  i.items.map (fun x => failIf 1 6 0 (failEntry s i x) (!jobForm i x)) ++ entryLimits i

end Sys2Proof.Machine
end

