-- ==== Sys2Proof/Machine/Pack.lean ====
section
/-! DEFINITION. The Pack engines in service (R180 to R186): arrival of items, encoding, abandoned items, service encodings, and
the PACK commands. -/

namespace Sys2Proof.Machine

/-- Size of an engine's input buffer (R183). -/
def packRoom : Nat := 2 ^ 20

/-- Bytes of the items that an engine's buffer holds, read or not. -/
def itemBytes (e : Engine) : Nat := (e.queue.map (fun x => x.payload.length)).sum

/-- Bytes in an engine's buffer: those written less those read (R183, Table 8.4). -/
def queuedBytes (e : Engine) : Nat := itemBytes e - e.read

/-- An engine has read `n` bytes of the items in its buffer; never fewer than before, and never more than there are. -/
def readUpTo (k n : Nat) (s : State) : State := modEngine k (fun e => { e with read := min (itemBytes e) (max e.read n) }) s

/-- The item next to arrive enters the buffer; one that finds too little room is dropped whole and keeps its place as a
PACK_FULL gap record (R183). -/
def packArrive (k : Nat) (s : State) : State :=
  match (engine s k).incoming with
  | [] => s
  | x :: rest =>
    let full := decide (packRoom < queuedBytes (engine s k) + x.payload.length)
    let y := if full then asGap 0x0B x else x
    let s := modEngine k (fun e => { e with incoming := rest, queue := e.queue ++ [y] }) s
    if full then count .packFull k { s with pack.sticky := s.pack.sticky ||| 2 } else s

/-- PACK_ITEM_ARRIVE (R183): `read` bytes of the items in the buffer have been read by then. -/
def execPackItemArrive (engine : BitVec 4) (read : Nat) (s : State) : Out :=
  whenOn (fun s => packArrive engine.toNat (readUpTo engine.toNat read s)) s

/-- Counters of an item that an engine finishes (R182, R190). -/
def countItem (k : Nat) (x : Item) (packed : Option (List Byte)) (stored : Bool) (s : State) : State :=
  let s := count .items k (countN .bytesIn k x.payload.length (countN .bytesOut k (packed.getD x.payload).length s))
  if stored then count .stored k s else s

/-- An engine finishes the oldest item of its buffer, which record assembly takes from the output buffer (R182 to R184). -/
def packDone (k : Nat) (s : State) : State :=
  match (engine s k).queue with
  | [] => s
  | x :: rest =>
    let on := x.gap.isNone && compressed s x
    let packed := if on then packEncode x.payload else none
    let s := modEngine k (fun e => { e with
      queue := rest, read := e.read - x.payload.length, output := packed.getD x.payload }) s
    assemble x packed (countItem k x packed (on && packed.isNone) s)

/-- PACK_ITEM_DONE (R182). -/
def execPackItemDone (engine : BitVec 4) (s : State) : Out := whenOn (packDone engine.toNat) s

/-- An item not finished when the guard expires becomes a PACK_ABANDONED gap record (R183); gap records pass on. -/
def abandonItem (k : Nat) (s : State) (x : Item) : State :=
  if x.gap.isSome then assemble x none (count .items k s)
  else
    let s := count .packAbandoned k { s with pack.sticky := s.pack.sticky ||| 4 }
    assemble (asGap 0x0C x) none (noteAbandon 4 [k] 1 s)

/-- Puts an item, with its engine, after those of its stream and of lower ones. -/
def insertItem (x : Nat × Item) : List (Nat × Item) → List (Nat × Item)
  | [] => [x]
  | y :: t => if x.2.ostream < y.2.ostream then x :: y :: t else y :: insertItem x t

/-- Every engine empties at the tick (R13, R183): each stream's items in order, and, all in one cycle, the streams in ascending
number (R184, R206). -/
def packTick (s : State) : State :=
  let l := (List.range 16).flatMap (fun k => ((engine s k).queue ++ (engine s k).incoming).map (fun x => (k, x)))
  (l.foldl (fun acc x => insertItem x acc) []).foldl (fun s x => abandonItem x.1 s x.2)
    ((List.range 16).foldl (fun s k => modEngine k (fun _ => {}) s) s)

/-! Service encodings (R185). -/

/-- PACK_ENCODE_DONE (R185, R186): the oldest service encoding ends, if it holds an engine. Its output is written to its
destination; one longer than the destination fails with NO_SPACE and writes nothing. DESIGN CHOICE (log 36): a fixed-mode encoding of
more than 1 MiB is one fixed block with no STORED fallback, and a source that cannot be read fails with DRAM_UE. -/
def execPackEncodeDone (s : State) : Out :=
  whenOn (fun s =>
    match s.services.find? (fun x => !isUpdateEnd x.cmd) with
    | none => s
    | some x =>
      if !engineServes s x.seq then s
      else
      let exporting := decide (x.cmd = .recExport x.req)
      let s := { s with services := s.services.erase x, recorder.clearing := s.recorder.clearing && !exporting }
      let op := if exporting then 0x0C02 else 0x0803
      let r := if exporting then (x.source, none, s) else bulkFetch (bulk x.req.arg 0) s
      match r.2.1 with
      | some st => finish x.cmd op x.req st 0 0 [] r.2.2
      | none =>
        let out := if x.dynamic then deflateDynamic r.1 else deflateFixed r.1
        if x.dstLen < out.length then finish x.cmd op x.req .noSpace 0 0 [] r.2.2
        else finish x.cmd op x.req .ok out.length 0 [] (queueWrite x.dst 4 out r.2.2)) s

/-! PACK commands (Table 16.9). -/

/-- PACK.CONFIG (R186, R188, Table 8.7). -/
def specPackConfig : Spec :=
  { opcode := 0x0802, same := fun a b => cellsCover 0 3 a b
    layout := cellsLayout 3, cls := fun a => cellsClass a 0 3 (fun i => if i = 0 then .ready else .live)
    range := fun _ a => firstBad [cellRange a 0 0 0 16, cellRange a 0 1 1 1024, cellRange a 0 2 4 1024]
    act := fun q s => { s with
      pack.reserved := cellOr q.arg 0 0 s.pack.reserved
      pack.opLimit := cellOr q.arg 0 1 s.pack.opLimit
      pack.ratio := cellOr q.arg 0 2 s.pack.ratio } }
def execPackConfig (q : Request) (s : State) : Out := kenra (.packConfig q) specPackConfig q s

/-- PACK.ENCODE (R185, R186). -/
def specPackEncode : Spec :=
  { opcode := 0x0803, event := true
    layout := fun a => layoutBad (bulkForm 0 ++ bulkForm 16 ++ [(32, 1)]) a
    range := fun s a => firstBad (bulkRange s [2] a 0 ++ bulkRange s [2] a 16 ++ [(decide (u8 a 32 ≤ 1), 32)])
    resource := fun s _ => firstFail [(engineFree s, .busy)]
    act := fun q s => nextOp { s with services := s.services ++
      [{ cmd := .packEncode q, seq := s.pack.opSeq, req := q, source := [], dst := (bulk q.arg 16).addr,
         dstLen := (bulk q.arg 16).length, dynamic := u8 q.arg 32 = 1 }] } }
def execPackEncode (q : Request) (s : State) : Out := kenra (.packEncode q) specPackEncode q s

/-- Service operations accepted and not yet finished. -/
def serviceOps (s : State) : Nat := s.services.length + (s.loads.filter (fun l => l.deflate)).length

/-- Pack status word (Table 8.9). -/
def packWord (s : State) : Nat :=
  s.pack.reserved * 65536 + min (serviceOps s) 255 * 256 + s.pack.lastReason * 16 + s.pack.sticky.toNat
    + bit (match inForce s with
      | some i => !(bindings i).isEmpty
      | none => false)

/-- Counters of an engine in the order of R190; DECODE_FAIL is keyed by engine and reason. -/
def packCtrs (k : Nat) : List (Ctr × Nat) :=
  [(.items, k), (.bytesIn, k), (.bytesOut, k), (.stored, k), (.packFull, k), (.packAbandoned, k), (.decodeOk, k)]
    ++ (numbers 1 7).map (fun r => (.decodeFail, 8 * k + r))

/-- Values of PACK.STATUS. -/
def packValues (s : State) (k : Nat) : List Nat := (packCtrs k).map (fun c => counter c.1 c.2 s)

/-- PACK.STATUS (R190). -/
def specPackStatus : Spec :=
  { opcode := 0x0804, layout := statusLayout, sampled := true, range := fun _ a => firstBad [(selOk 16 a, 0)]
    result := fun s q => statusEach q.arg (fun _ => packWord s) (packValues s)
    act := fun q s => ackShown q.arg (packValues s) (fun _ s => { s with pack.sticky := 0 })
      (clearShown q.arg (packValues s) (fun k s => (packCtrs k).foldl (fun s c => clearCtr c.1 c.2 s) s) s) }
def execPackStatus (q : Request) (s : State) : Out := kenra (.packStatus q) specPackStatus q s

end Sys2Proof.Machine
end

