-- ==== Sys2Proof/Machine/Ingest.lean ====
section
/-! DEFINITION. Ingest (chapter 02): framing checks of received frames, classification, the stream contexts with their
holes and deadlines, the reorder memory, labels, enabling, and the INGEST, STREAM and FLOW commands. -/

namespace Sys2Proof.Machine

/-! Samples (Table 2.4). -/

/-- Bytes per sample of a format; 0 for a code not in Table 2.4. -/
def bytesPerSample (fmt : Nat) : Nat := [0, 1, 2, 4].getD fmt 0

/-- A sample of a format; it is flagged when either component holds the flag code (R34), and then carries no value. -/
def decodeSample (fmt : Nat) (b : List Byte) : Smp :=
  let (re, im, flag) : Int × Int × Int :=
    if fmt = 1 then (signed 4 (u8 b 0 / 16), signed 4 (u8 b 0 % 16), -8)
    else if fmt = 2 then (signed 8 (u8 b 0), signed 8 (u8 b 1), -128)
    else (signed 16 (beVal (slice b 0 2)), signed 16 (beVal (slice b 2 2)), -32768)
  if re = flag ∨ im = flag then { re := 0, im := 0, flag := true } else { re := re, im := im, flag := false }

/-- A flagged sample. -/
def flaggedSmp : Smp := { re := 0, im := 0, flag := true }

/-- `n` samples of a packet in the order of R35; with FLAGGED every one carries the flag code (Table 2.3). -/
def decodeSamples (fmt : Nat) (flagged : Bool) : Nat → List Byte → List Smp
  | 0, _ => []
  | n + 1, b =>
    (if flagged then flaggedSmp else decodeSample fmt b) :: decodeSamples fmt flagged n (b.drop (bytesPerSample fmt))

/-! Position from time (R37). -/

/-- k of a header time in ns. -/
def sampleOf (c : StreamCfg) (t : Nat) : Nat :=
  (2 * t * c.nfs + c.dfs * 1000000000) / (2 * (c.dfs * 1000000000))

/-- The header time lies within a quarter sample of k, and k is a multiple of n_p. -/
def aligned (c : StreamCfg) (t : Nat) : Bool :=
  let k := sampleOf c t
  let d : Int := (t * c.nfs : Nat) - (k * (c.dfs * 1000000000) : Nat)
  decide (4 * d.natAbs ≤ c.dfs * 1000000000) && decide (k % c.np = 0)

/-- Coarse samples per frame of a stream in the period in force. -/
def streamC (c : StreamCfg) (s : State) : Nat := coarsePer c.nfs c.dfs s.time.period

/-- Source frame of a slot (R37). -/
def sourceFrame (c : StreamCfg) (slot : Nat) (s : State) : Nat := slot * c.np / max 1 (streamC c s)

/-- First slot of source frame `n` (R49). -/
def firstSlot (c : StreamCfg) (n : Nat) (s : State) : Nat := n * streamC c s / max 1 c.np

/-- TB0 time in ns just after a slot's last sample (R39). -/
def slotEnd (c : StreamCfg) (slot : Nat) : Nat := ceilDiv ((slot + 1) * c.np * c.dfs * 1000000000) (max 1 c.nfs)

/-- A + W in ns for a stream, as they stand (R39). -/
def allowWindow (sid : Nat) (s : State) : Nat := (stream s sid).allowMs * 1000000 + s.ingest.window * 125000

/-! Handing on (R45 to R48). -/

/-- Samples of one channel of a slot: of the packet's, those from `skip` on; flagged for a hole. -/
def channelSamples (c : StreamCfg) (skip ch : Nat) (l : Option (List Smp)) : List Smp :=
  let is := numbers skip (c.np - skip)
  match l with
  | none => is.map (fun _ => flaggedSmp)
  | some v => is.map (fun i => v.getD (i * c.chCount + ch) flaggedSmp)

/-- A labelled sample enters the granule of its label; with the last label of a granule its bit is handed on, set exactly when
one or more of its samples carry the flag code (R48). It is kept until the slice has taken its samples. -/
def takeGranule (u : ChanUnit) (e : Nat × Smp) : ChanUnit :=
  let bad := e.2.flag || (u.granule.1 = e.1 / 64 && u.granule.2)
  { u with granule := (e.1 / 64, bad)
           granules := if e.1 % 64 = 63 then (e.1 / 64, bad) :: u.granules else u.granules }

/-- Puts labelled samples in a unit's input, with the bits of the granules that they complete, for the slice that carries it
(R48). -/
def feedUnit (key first : Nat) (l : List Smp) (s : State) : State :=
  if (chanUnit s key).slice.isNone then s
  else
    let v := l.zipIdx.map (fun e => (first + e.2, e.1))
    modUnit key (fun u => v.foldl takeGranule { u with inbox := u.inbox ++ v }) s

/-- Hands a slot's samples to the channeliser under their labels (R45 to R47); those of a step frame are flagged (R309). -/
def handOn (sid slot : Nat) (l : Option (List Smp)) (r : Run) (s : State) : Run × State :=
  let c := r.cfg
  let (d, bad) := delayAt s c.input (sourceFrame c slot s)
  let m := slot * c.np + d
  let gap := m - r.nextLabel
  let skip := min c.np (r.nextLabel - m)
  let s := countN .delayInsert sid gap (countN .delayDrop sid skip s)
  if skip = c.np then ({ r with dropped := true }, s)
  else
    let step := stepFrame s (sourceFrame c slot s)
    let fix : List Smp → List Smp := fun v =>
      let v := if bad || step then v.map (fun _ => flaggedSmp) else v
      if r.dropped || decide (0 < skip) then flaggedSmp :: v.drop 1 else v
    let rows := (List.range c.chCount).map (fun ch =>
      (ch, List.replicate gap flaggedSmp ++ fix (channelSamples c skip ch l)))
    let s := rows.foldl (fun s e => feedUnit (unitKey c.input (c.firstCh + e.1)) (m + skip - gap) e.2 s) s
    let n := (rows.map (fun e => e.2.countP (·.flag))).sum
    ({ r with nextLabel := m + c.np, dropped := false }, countN .flaggedSamples sid n s)

/-! Release in order (R39 to R41). -/

/-- Holes above the release point. -/
def clipHoles (release : Nat) (l : List Hole) : List Hole :=
  (l.map (fun h => if h.lo < release then { h with lo := release, point := none } else h)).filter
    (fun h => decide (h.lo < h.hi))

/-- Releases the slot at the release point, with a packet's sequence and samples or flagged. -/
def releaseOne (sid : Nat) (p : Option (Nat × List Smp)) (r : Run) (s : State) : Run × State :=
  let (r, s') := handOn sid r.release (p.map (·.2)) r s
  let next := r.release + 1
  ({ r with
     release := next, pointAW := allowWindow sid s
     holes := clipHoles next r.holes
     recent := ((r.release, p.map (·.1)) :: r.recent).take 128
     held := r.held.filter (fun h => h.slot ≠ r.release) }, s')

/-- The run still resolves its release point. -/
def runLive (r : Run) : Bool :=
  match r.stop with
  | some x => decide (r.release < x)
  | none => true

/-- Releases every held packet at the release point whose source frame has begun, and those that follow it without a
gap (R41). -/
def releaseHeld (sid : Nat) : Nat → Run → State → Run × State
  | 0, r, s => (r, s)
  | n + 1, r, s =>
    match r.held.find? (fun h => h.slot = r.release) with
    | none => (r, s)
    | some h =>
      if runLive r && decide (sourceFrame r.cfg h.slot s ≤ s.time.frame) then
        let (r, s) := releaseOne sid (some (h.seq, h.samples)) r s
        releaseHeld sid n r s
      else (r, s)

/-- Releases the held packets that may go. -/
def cascade (sid : Nat) (r : Run) (s : State) : Run × State := releaseHeld sid r.held.length r s

/-- Releases `n` slots flagged from the release point, each counted HOLE_EXPIRED (R39). DESIGN CHOICE (log 42): a hole of the
next source frame whose deadline comes before that frame's tick is released at once, labelled with the D then in force. -/
def expireSlots (sid : Nat) : Nat → Run → State → Run × State
  | 0, r, s => (r, s)
  | n + 1, r, s =>
    if runLive r then
      let (r, s) := releaseOne sid none r (count .holeExpired sid s)
      expireSlots sid n r s
    else (r, s)

/-- The hole at the release point with packets held behind it. -/
def pointHole (r : Run) : Option Hole := r.holes.find? (fun h => h.lo = r.release)

/-- Deadline of a hole (R39). -/
def holeDeadline (c : StreamCfg) (h : Hole) : Nat :=
  min h.first (slotEnd c (h.hi - 1) + (if h.hi = h.lo + 1 then h.point.getD h.aw else h.aw))

/-- TB0 time at which the release point's slot or hole is released flagged; none while a held packet there waits for its
source frame's tick. -/
def runDeadline (r : Run) : Option Nat :=
  if !runLive r || r.held.any (fun h => h.slot = r.release) then none
  else match pointHole r with
    | some h => some (holeDeadline r.cfg h)
    | none => some (slotEnd r.cfg r.release + r.pointAW)

/-- Expires what stands at the release point: the hole, at most up to `limit`, or one silent slot. -/
def expirePoint (sid : Nat) (limit : Option Nat) (r : Run) (s : State) : Run × State :=
  let hi := match pointHole r with
    | some h => h.hi
    | none => r.release + 1
  let hi := match limit with
    | some x => min hi x
    | none => hi
  let (r, s) := expireSlots sid (hi - r.release) r s
  cascade sid r s

/-- The oldest run of a stream releases the held packets that may go, and once it is idle the next one does: a unit's samples are
handed on in label order, so that a run waits until the one before it has resolved its slots (R48, R49; log 42). -/
def settleRuns (sid : Nat) : Nat → State → State
  | 0, s => s
  | n + 1, s =>
    match (stream s sid).runs with
    | [] => s
    | r :: _ =>
      let x := cascade sid r s
      if runLive x.1 then modStream sid (fun y => { y with runs := y.runs.set 0 x.1 }) x.2
      else settleRuns sid n (modStream sid (fun y => { y with runs := y.runs.drop 1 }) x.2)

/-- Puts run `i` of a stream back, and drops runs that are idle (R49). -/
def putRun (sid i : Nat) (r : Run) (s : State) : State :=
  let s := modStream sid (fun x => { x with runs := (x.runs.set i r).filter runLive }) s
  settleRuns sid (stream s sid).runs.length s

/-- HOLE_DEADLINE (R39): TB0 reaches the deadline of the stream's oldest run, whose release point is released flagged. -/
def holeDue (sid : Nat) (s : State) : State :=
  match (stream s sid).runs with
  | [] => s
  | r :: _ =>
    match runDeadline r with
    | none => s
    | some d =>
      let x := expirePoint sid none r (elapse (d - s.time.tb0) s)
      putRun sid 0 x.1 x.2

/-- Ingest runs: the states in which the data path may be fed. DESIGN CHOICE (log 42): in READY, where Table 1.4 calls all
units idle, ingest classifies, labels and counts, so that what stands at a schedule's first tick is current. -/
def ingestOn (s : State) : Bool := s.dev.state = .ready || observing s

/-- HOLE_DEADLINE (R39). -/
def execHoleDeadline (sid : BitVec 14) (s : State) : Out := .next (if ingestOn s then holeDue sid.toNat s else s)

/-- HELD_PACKET_RELEASE (R41). -/
def execHeldPacketRelease (sid : BitVec 14) (s : State) : Out :=
  .next (if ingestOn s then settleRuns sid.toNat (stream s sid.toNat).runs.length s else s)

/-! The reorder memory (R43). -/

/-- Packets held in the reorder memory. -/
def heldCount (s : State) : Nat := (s.ingest.streams.map (fun e => (e.2.runs.map (·.held.length)).sum)).sum

/-- Holes that an expiry may free a buffer behind: (deadline, stream, run), of the oldest run of each stream. The hole in which the new
packet's own slot is the release point cannot. -/
def expirable (own : Nat × Nat × Nat) (s : State) : List (Nat × Nat × Nat) :=
  s.ingest.streams.flatMap (fun e => e.2.runs.zipIdx.filterMap (fun x =>
    if x.2 ≠ 0 || (e.1 = own.1 && x.2 = own.2.1 && decide (own.2.2 ≤ x.1.release)) then none
    else if (runDeadline x.1).isNone then none
    else (pointHole x.1).map (fun h => (holeDeadline x.1.cfg h, e.1, x.2))))

/-- The earliest; among equals the lowest stream. -/
def earliest (l : List (Nat × Nat × Nat)) : Option (Nat × Nat × Nat) :=
  l.foldl (fun b e => match b with
    | none => some e
    | some x => if e.1 < x.1 ∨ (e.1 = x.1 ∧ e.2.1 < x.2.1) then some e else some x) none

/-- Expires holes until a holding buffer is free, or the new packet's slot is at the release point with its frame begun,
or none is left. REORDER_FULL counts each slot that this releases flagged. -/
def freeBuffer (own : Nat × Nat × Nat) (ready : Bool) : Nat → State → State
  | 0, s => s
  | n + 1, s =>
    let at' := match (stream s own.1).runs[own.2.1]? with
      | some r => ready && decide (r.release = own.2.2)
      | none => true
    if decide (heldCount s < 3840) || at' then s
    else match earliest (expirable own s) with
    | none => s
    | some (_, sid, i) =>
      match (stream s sid).runs[i]? with
      | none => s
      | some r =>
        let before := counter .holeExpired sid s
        let limit := if sid = own.1 ∧ i = own.2.1 then some own.2.2 else none
        let (r, s) := expirePoint sid limit r s
        let s := modStream sid (fun x => { x with runs := x.runs.set i r }) s
        freeBuffer own ready n (countN .reorderFull sid (counter .holeExpired sid s - before) s)

/-- Idle runs are dropped. -/
def dropIdle (s : State) : State :=
  { s with ingest.streams := tabMap {} (fun (x : Stream) => { x with runs := x.runs.filter runLive }) s.ingest.streams }

/-! A placed packet (R38, R41 to R44). -/

/-- A parsed ingest packet: sequence, SATURATED, time and samples. -/
structure Packet where
  seq : Nat
  saturated : Bool
  time : Nat
  samples : List Smp
deriving DecidableEq, Repr

/-- The packet is ACCEPTED: sequence prediction, SATURATED and the arrival offset (R38, R44). DESIGN CHOICE (log 42): only
ACCEPTED packets count for the arrival offset, and a second without any reads 0. -/
def acceptPacket (sid slot : Nat) (p : Packet) (r : Run) (s : State) : Run × State :=
  let s := count .accepted sid s
  let s := if p.saturated then count .saturated sid s else s
  let off : Int := (s.time.tb0 : Int) - (p.time : Int)
  let s := modStream sid (fun x => { x with
    minOff := some (match x.minOff with | some v => min v off | none => off)
    maxOff := some (match x.maxOff with | some v => max v off | none => off) }) s
  match r.base with
  | none => ({ r with base := some (slot, p.seq) }, s)
  | some (s0, q0) =>
    let want := (((q0 : Int) + slot - s0) % (2 ^ 32 : Int)).toNat
    (r, if p.seq = want then s else count .seqMismatch sid s)

/-- Holes with a packet held at `slot`: the hole that holds the slot is split and keeps its times; a packet beyond every
held one opens a hole whose times are fixed now, but for the second time of the slot at the release point, which was fixed when
it became that (R39, R43, R50). -/
def holdHoles (sid slot : Nat) (r : Run) (s : State) : List Hole :=
  if r.holes.any (fun h => decide (h.lo ≤ slot) && decide (slot < h.hi)) then
    r.holes.flatMap (fun h =>
      if h.lo ≤ slot ∧ slot < h.hi then
        [{ h with hi := slot }, { h with lo := slot + 1, point := none }].filter (fun x => decide (x.lo < x.hi))
      else [h])
  else
    let lo := r.held.foldl (fun m h => max m (h.slot + 1)) r.release
    if lo < slot then
      r.holes ++ [{ lo := lo, hi := slot, first := s.time.tb0 + s.ingest.window * 125000, aw := allowWindow sid s
                    point := if lo = r.release then some r.pointAW else none }]
    else r.holes

/-- Places a packet of a run: released at once, held, or dropped (R38 to R43); one of a run that waits for an older one is held. -/
def placePacket (sid i slot : Nat) (p : Packet) (s : State) : State :=
  match (stream s sid).runs[i]? with
  | none => s
  | some r =>
    let frame := sourceFrame r.cfg slot s
    let ready := decide (frame ≤ s.time.frame) && i = 0
    let direct : Run → State → State := fun r s =>
      let (r, s) := acceptPacket sid slot p r s
      let (r, s) := releaseOne sid (some (p.seq, p.samples)) r s
      let (r, s) := cascade sid r s
      putRun sid i r s
    if ready && decide (slot = r.release) then direct r s
    else
      let s := freeBuffer (sid, i, slot) ready ((s.ingest.streams.map (fun e => (e.2.runs.map (·.holes.length)).sum)).sum + 1) s
      match (stream s sid).runs[i]? with
      | none => s
      | some r =>
        if ready && decide (slot = r.release) then dropIdle (direct r s)
        else if 3840 ≤ heldCount s then dropIdle (count .overflow sid s)
        else
          let (r, s) := acceptPacket sid slot p r s
          let r := { r with holes := holdHoles sid slot r s
                            held := { slot := slot, seq := p.seq, samples := p.samples } :: r.held }
          dropIdle (modStream sid (fun x => { x with runs := x.runs.set i r }) s)

/-- Outcome of a copy of a slot already held or released (R42); none where the slot is neither. -/
def copyOutcome (r : Run) (slot seq : Nat) : Option Ctr :=
  match r.held.find? (fun h => h.slot = slot) with
  | some h => some (if h.seq = seq then .duplicate else .collision)
  | none =>
    if r.release ≤ slot then none
    else match (r.recent.find? (fun e => e.1 = slot)).map (·.2) with
      | some (some q) => some (if q = seq then .duplicate else .collision)
      | _ => some .late

/-- The run that a header time falls in: the newest whose first slot it reaches, else the oldest. DESIGN CHOICE (log 42): a
disabled stream that has gone idle has none, and any packet of it is DISABLED, also one for a slot that it once released. -/
def runFor (l : List Run) (t : Nat) : Option Nat :=
  match (l.zipIdx.filter (fun e => decide (e.1.start ≤ sampleOf e.1.cfg t / max 1 e.1.cfg.np))).getLast? with
  | some e => some e.2
  | none => if l.isEmpty then none else some 0

/-- A classified packet of a stream (R33, R37, R41, R42, Table 2.6). DESIGN CHOICE (log 42): where the stream is not enabled
and no run resolves earlier slots, the packet is DISABLED whatever else is wrong with it; while a run still does, MALFORMED and
MISALIGNED come first. -/
def streamPacket (sid : Nat) (b : List Byte) (s : State) : State :=
  let time := beVal (slice b 16 8)
  match runFor (stream s sid).runs time with
  | none => count .disabled sid s
  | some i =>
    match (stream s sid).runs[i]? with
    | none => s
    | some r =>
      let c := r.cfg
      let fmt := u8 b 3 % 16
      let nch := beVal (slice b 10 2)
      let n := beVal (slice b 12 2)
      if bytesPerSample fmt = 0 ∨ b.length - 32 ≠ nch * n * bytesPerSample fmt ∨ fmt ≠ c.format ∨
          beVal (slice b 8 2) ≠ c.firstCh ∨ nch ≠ c.chCount ∨ n ≠ c.np then count .sMalformed sid s
      else if !aligned c time then count .misaligned sid s
      else
        let slot := sampleOf c time / max 1 c.np
        let flags := beVal (slice b 6 2)
        let p : Packet := { seq := beVal (slice b 24 4), saturated := testBit flags 1, time := time,
                            samples := decodeSamples fmt (testBit flags 0) (nch * n) (b.drop 32) }
        if (r.stop.map (fun x => decide (x ≤ slot))).getD false then count .disabled sid s
        else match copyOutcome r slot p.seq with
        | some o => count o sid s
        | none =>
          if s.time.frame + 2 ≤ sourceFrame c slot s then count .early sid s
          else placePacket sid i slot p s

/-! Classification (R30, R51). -/

/-- Source, base and count of the ingress entry whose key matches (R30, R31). -/
def ingressFor (s : State) (k : Nat) (kind : FlowKind) (dst dport : Nat) : Option (Option Nat × Nat × Nat) :=
  (s.ingest.flows.findSome? (fun e => match e.2 with
    | some (.ingress kind' quads dst' dport' src base n) =>
      if kind' = kind && testBit quads.toNat k && (kind = .gul || (dst' = dst && dport' = dport)) then some (src, base, n)
      else none
    | _ => none))

/-- Within the capacity of R51: 25 and 400 packets per µs, 800 000 bytes per µs. DESIGN CHOICE (log 42): the rates are judged
over the running frame, and begin anew at each tick. -/
def withinCapacity (s : State) (k len : Nat) : Bool :=
  decide (tabGet 0 s.ingest.quadPackets k < 25 * s.time.period) && decide (s.ingest.allPackets < 400 * s.time.period) &&
  decide (s.ingest.allBytes + len ≤ 800000 * s.time.period)

/-- Charges a packet against R51 and classifies it with `f`, or counts it OVERRUN. -/
def classified (k len : Nat) (f : State → State) (s : State) : State :=
  if !withinCapacity s k len then count .overrun k s
  else f { s with
    ingest.quadPackets := tabMod 0 s.ingest.quadPackets k (· + 1)
    ingest.allPackets := s.ingest.allPackets + 1, ingest.allBytes := s.ingest.allBytes + len }

/-- Frames that complete in one cycle are classified in ascending quad number, so that the copy from the lower-numbered quad is
the first (R42): a frame that is commanded after one of a higher-numbered quad completes in a later cycle, of 1 ns (Table 1.2). -/
def inTurn (k : Nat) (s : State) : State :=
  let s := match s.ingest.cycle with
    | some (t, q) => if t = s.time.tb2 ∧ k < q then elapse 1 s else s
    | none => s
  { s with ingest.cycle := some (s.time.tb2, k) }

/-- An ingest packet with its framing (R28, R30, R33, R51): classified, and handed to its stream. -/
def ingestPacket (k : Nat) (kind : FlowKind) (dst dport src : Nat) (b : List Byte) (s : State) : State :=
  let s := inTurn k s
  if b.length < 32 then count .qMalformed k s
  else classified k b.length (fun s =>
    let sid := beVal (slice b 4 2) % 16384
    match ingressFor s k kind dst dport with
    | none => count .unclassified k s
    | some (want, base, n) =>
      if (want.map (fun a => decide (a ≠ src))).getD false = true ∨ sid < base ∨ base + n ≤ sid then count .unclassified k s
      else if beVal (slice b 0 2) ≠ 0x5356 ∨ u8 b 2 ≠ 1 then count .qMalformed k s
      else streamPacket sid b s) s

/-! GUL frames (R273, R274). -/

/-- What R274 finds wrong with a frame at its END. The manual gives no order between its cases: a bad block, a wrong length, then the
CRC (log 31). -/
def gulError (f : RxFrame) (pad crc : Nat) : Option Ctr :=
  let n := f.length
  if f.bad then some .fecDrop
  else if n = 0 ∨ 9216 < n ∨ f.bytes.length ≠ n + padOf n ∨ pad ≠ padOf n then some .lengthError
  else if frameCrc f.kind (f.bytes.take n) ≠ crc then some .fcsError
  else none

/-- The block at a place of the stream lies in an uncorrectable codeword of its lane (R277, R278): of each 7935 blocks of the stream
on a lane the ALIGN block before them makes 256 codewords. -/
def inBadCodeword (s : State) (k pos : Nat) : Bool :=
  let w := streamWidth (quad s k)
  let i := pos / w
  (quad s k).fecOn && (lane s (4 * k + pos % w)).badCodewords.contains (i / 7935 * 256 + (i % 7935 + 1) / 31)

/-- A frame that passes its checks goes where its kind says; what a TWIN message does is the row of its type, and the twin quad carries
no other (R272, R274, R419). -/
def deliverFrame (k : Nat) (f : RxFrame) (s : State) : State :=
  let s := count .framesOk k s
  if f.kind = 1 && ingestOn s && decide (s.twin.quad ≠ some k) then ingestPacket k .gul 0 0 0 (f.bytes.take f.length) s else s

/-- One block of a quad's stream reaches the receiver (R272 to R274, R278). -/
def gulBlock (k : Nat) (x : GulBlock) (s : State) : State :=
  let q := quad s k
  let b := plainBlock x
  let bad := blockBad b || inBadCodeword s k q.rxPos
  let put (f : Option RxFrame) (s : State) : State := modQuad k (fun q => { q with rxFrame := f }) s
  let s := modQuad k (fun q => { q with rxPos := q.rxPos + 1 }) s
  if bad then put (q.rxFrame.map (fun f => { f with bad := true })) s
  else if b.header = 1 then
    match q.rxFrame with
    | none => count .stray k s
    | some f => put (some { f with bytes := f.bytes ++ payloadBytes b.payload }) s
  else match controlOf b.payload with
    | some (.start kind n) => put (some { kind := kind, length := n }) (abortFrame k s)
    | some (.fin pad crc) =>
      match q.rxFrame with
      | none => s
      | some f =>
        let s := put none s
        match gulError f pad.toNat crc with
        | some c => dropFrame k c s
        | none => deliverFrame k f s
    | _ => s

/-- Codewords that no block still to come lies in are forgotten. -/
def dropCodewords (k : Nat) (s : State) : State :=
  let i := (quad s k).rxPos / streamWidth (quad s k)
  (List.range 4).foldl (fun s j => modLane (4 * k + j) (fun x => { x with
    badCodewords := x.badCodewords.filter (fun c => decide (i / 7935 * 256 + (i % 7935 + 1) / 31 ≤ c)) }) s) s

/-- GUL_FRAME_RECEIVE (R273, R274): the blocks of a link that is ACTIVE, in the order of its stream. -/
def execGulFrameReceive (quad' : BitVec 5) (f : GulFrame) (s : State) : Out := whenOn (fun s =>
  let k := quad'.toNat
  let q := quad s k
  if q.mode ≠ .gul || !quadEnabled s k || q.state ≠ .active then s
  else
    let s := modQuad k (fun q => { q with rxPos := q.rxPos + f.idle }) s
    dropCodewords k (f.blocks.foldl (fun s b => if (quad s k).state = .active then gulBlock k b s else s) s)) s

/-! Ethernet frames (R29, R288). -/

/-- The quad is a relay port (R318). -/
def relayPort (s : State) (k : Nat) : Bool :=
  match s.compass.relay with
  | some (a, b) => a = k || b = k
  | none => false

/-- Multicast MAC of the solicited-node group of an IPv6 address: 33:33:FF and its low 24 bits. -/
def solicitedMac (a : Nat) : Nat := 0x3333FF000000 + a % 2 ^ 24

/-- Destination MACs that a quad accepts (R288): broadcast for ARP, and the PTP multicast addresses on relay quads. The
manual does not list the PTP addresses; IEEE 1588's are taken (PRESUMED, log 31). -/
def macAccepted (s : State) (k dst ethType : Nat) : Bool :=
  dst = ownMac s k || (dst = 2 ^ 48 - 1 && ethType = 0x0806) ||
  (match (quad s k).ipv6 with
   | some a => dst = solicitedMac a.toNat
   | none => false) ||
  (relayPort s k && (dst = 0x011B19000000 || dst = 0x0180C200000E || dst = 0x01005E000181 || dst = 0x01005E00006B ||
    dst = 0x333300000181 || dst = 0x33330000006B))

/-- Result of the checks on an accepted frame: for the firmware, no UDP datagram, dropped as L3_ERROR, or its addresses, ports
and payload (R29, R288). -/
inductive L3 where
  | firmware | other | error | udp (kind : FlowKind) (src dst sport dport : Nat) (data : List Byte)
deriving DecidableEq, Repr

/-- UDP header and payload of at most `n` bytes, with the pseudo-header's sum (R29). DESIGN CHOICE (log 42): a UDP length below 8
or beyond the IP payload counts as L3_ERROR. -/
def udpOf (kind : FlowKind) (src dst : Nat) (pseudo u : List Byte) : L3 :=
  let len := beVal (slice u 4 2)
  let c := beVal (slice u 6 2)
  if u.length < 8 ∨ len < 8 ∨ u.length < len then .error
  else if c = 0 ∧ kind = .udp6 then .error
  else if c ≠ 0 ∧ inetCheck (pseudo ++ beBytes 2 len ++ u.take len) ≠ 0 then .error
  else .udp kind src dst (beVal (slice u 0 2)) (beVal (slice u 2 2)) ((u.take len).drop 8)

/-- Bytes of an IPv6 extension header of type `next`, none for a header that is none (PRESUMED, the standard's types and
lengths: log 31): Hop-by-Hop, Routing, Destination, Mobility, HIP and Shim6 in 8-byte units, Authentication in 4-byte units. -/
def extensionLength (next : Nat) (b : List Byte) : Option Nat :=
  if [0, 43, 60, 135, 139, 140].contains next then some (8 * (u8 b 1 + 1))
  else if next = 51 then some (4 * (u8 b 1 + 2))
  else none

/-- Walks the IPv6 extension headers, each of which takes at least 8 bytes of the payload: none at a Fragment header, wherever
it stands (R29), else the upper protocol and what follows. -/
def skipIpv6 : Nat → Nat → List Byte → Option (Nat × List Byte)
  | 0, next, b => if next = 44 then none else some (next, b)
  | n + 1, next, b =>
    if next = 44 then none
    else match extensionLength next b with
      | some len => skipIpv6 n (u8 b 0) (b.drop len)
      | none => some (next, b)

/-- ICMP echo for one of the quad's own addresses, or neighbour discovery, goes to the firmware (R288; PRESUMED, the standards'
numbers: log 31). -/
def firmwareIcmp (v6 own : Bool) (typ : Nat) : Bool :=
  if v6 then (own && (typ = 128 || typ = 129)) || (decide (133 ≤ typ) && decide (typ ≤ 137)) else own && (typ = 8 || typ = 0)

/-- IPv4 packet: a fragment of any protocol is L3_ERROR (R29). -/
def ipv4Of (own : Nat → Bool) (b : List Byte) : L3 :=
  let hl := u8 b 0 % 16 * 4
  let frag := beVal (slice b 6 2) % 16384
  let src := slice b 12 4
  let dst := slice b 16 4
  let data := (b.take (beVal (slice b 2 2))).drop hl
  if frag ≠ 0 then .error
  else if u8 b 9 = 17 then udpOf .udp4 (beVal src) (beVal dst) (src ++ dst ++ [0, 17]) data
  else if u8 b 9 = 1 ∧ firmwareIcmp false (own (beVal dst)) (u8 data 0) = true then .firmware
  else .other

/-- IPv6 packet (R29). -/
def ipv6Of (own : Nat → Bool) (b : List Byte) : L3 :=
  let src := slice b 8 16
  let dst := slice b 24 16
  let body := (b.drop 40).take (beVal (slice b 4 2))
  match skipIpv6 body.length (u8 b 6) body with
  | none => .error
  | some (next, u) =>
    if next = 17 then udpOf .udp6 (beVal src) (beVal dst) (src ++ dst ++ [0, 17]) u
    else if next = 58 ∧ firmwareIcmp true (own (beVal dst)) (u8 u 0) = true then .firmware
    else .other

/-- The IP packet is for one of the quad's own addresses, or names none that ingest would know: PTP of the relay goes to
the relay (R318). -/
def ptpPort (p : Nat) : Bool := p = 319 || p = 320

/-- What an accepted frame of EtherType `typ` is (R29, R288). -/
def l3Of (s : State) (k typ : Nat) (body : List Byte) : L3 :=
  if typ = 0x0806 then .firmware
  else if typ = 0x0800 then ipv4Of (fun a => (quad s k).ipv4.map (·.toNat) = some a) body
  else if typ = 0x86DD then ipv6Of (fun a => (quad s k).ipv6.map (·.toNat) = some a) body
  else .other

/-- A frame of the PTP EtherType 0x88F7 goes to the relay (R318; PRESUMED number, log 31). -/
def ptpType (typ : Nat) : Bool := typ = 0x88F7

/-- ETH_FRAME_RECEIVE (R288, R29): the frame from destination MAC to FCS. ARP, neighbour discovery and ICMP echo go to
the firmware, PTP on relay quads to the relay, whose rows say what they do; every other accepted frame goes to ingest, which
finds no entry for one that carries no UDP datagram and counts it UNCLASSIFIED (R30, R44). -/
def execEthFrameReceive (quad' : BitVec 5) (data : List Byte) (s : State) : Out := whenOn (fun s =>
  let k := quad'.toNat
  let q := quad s k
  if !isEth q.mode || !quadEnabled s k || q.state ≠ .active then s
  else
    let n := data.length
    let tagged := beVal (slice data 12 2) = 0x8100
    let head := if tagged then 18 else 14
    let typ := beVal (slice data (head - 2) 2)
    let body := (data.take (n - 4)).drop head
    if n < 64 then dropFrame k .undersize s
    else if q.mtu + (if tagged then 22 else 18) < n then dropFrame k .oversize s
    else if leVal (data.drop (n - 4)) ≠ crc32 (data.take (n - 4)) then dropFrame k .fcsError s
    else if !macAccepted s k (beVal (slice data 0 6)) typ then dropFrame k .macFiltered s
    else
      let s := count .framesOk k s
      if !ingestOn s || (relayPort s k && ptpType typ) then s
      else match l3Of s k typ body with
      | .firmware => s
      | .other => classified k body.length (count .unclassified k) (inTurn k s)
      | .error => count .l3Error k s
      | .udp kind src dst _ dport u =>
        if relayPort s k && ptpPort dport then s else ingestPacket k kind dst dport src u s) s

/-! Ticks (R49, R50). -/

/-- Closes the newest run of a stream at tick `n`: it refuses source frames `n` and later, and held packets of those are
discarded (R49). -/
def closeRun (sid n : Nat) (s : State) : State :=
  match (stream s sid).runs.getLast? with
  | none => s
  | some r =>
    if r.stop.isSome then s
    else
      let x := firstSlot r.cfg n s
      let lost := r.held.countP (fun h => decide (x ≤ h.slot))
      let holes := (r.holes.map (fun h => { h with hi := min h.hi x })).filter (fun h => decide (h.lo < h.hi))
      let r := { r with stop := some x, held := r.held.filter (fun h => decide (h.slot < x)), holes := holes }
      let s := countN .heldDiscarded sid lost s
      modStream sid (fun y => { y with runs := (y.runs.dropLast ++ [r]).filter runLive }) s

/-- Opens a run of a stream at tick `n`: release point, prediction and next label anew, and its units start (R47, R49,
R481). -/
def openRun (sid n : Nat) (s : State) : State :=
  let c := (stream s sid).cfg
  let x := firstSlot c n s
  let l := n * streamC c s + (delayAt s c.input n).1
  let r : Run := { cfg := c, start := x, release := x, pointAW := allowWindow sid s, nextLabel := l }
  let s := modStream sid (fun y => { y with runs := y.runs ++ [r] }) s
  (numbers c.firstCh c.chCount).foldl (fun s ch =>
    let key := unitKey c.input ch
    if (chanUnit s key).slice.isSome then unitStart key n s else s) s

/-- Enables, disables and changed parameters of a stream take effect at tick `n` (R49, R50). -/
def streamTick (sid n : Nat) (s : State) : State :=
  let x := stream s sid
  let cur := x.runs.getLast?.filter (fun r => r.stop.isNone)
  let want := if x.enabled then some x.cfg else none
  if cur.map (·.cfg) = want then s
  else
    let s := if cur.isSome then closeRun sid n s else s
    if want.isSome then openRun sid n s else s

/-- Ingest at tick `n`: streams, and the window of R51 begins anew. -/
def ingestTick (n : Nat) (s : State) : State :=
  let s := { s with ingest.quadPackets := [], ingest.allPackets := 0, ingest.allBytes := 0 }
  if ingestOn s then s.ingest.streams.foldl (fun s e => streamTick e.1 n s) s else s

/-- The data path stops (SAFE, UPDATE, BOOT): every run ends with what it holds (Table 1.4). -/
def stopIngest (s : State) : State :=
  { s with ingest.streams := tabMap {} (fun (x : Stream) => { x with runs := [] }) s.ingest.streams }

/-- Delay values at tick `n` (R46, R84): those in place come into force; a missing one, or one beyond the schedule in force,
keeps the last D and flags. -/
def delayTick (n : Nat) (s : State) : State :=
  let inputs := (s.ingest.streams.filter (fun e => e.2.enabled || !e.2.runs.isEmpty)).map (fun e => e.2.cfg.input)
  inputs.dedup.foldl (fun s i =>
    let x := delayLine s i
    let old := delayAt s i n
    let put := fun (v : Nat × Bool) => modDelay i (fun x => { x with
      back := none
      frames := if v = old then x.frames else (n, v.1, v.2) :: x.frames.take 8191 }) s
    match x.back with
    | some (m, d) =>
      if m ≠ n then count .delayTableMissing i (put (old.1, true))
      else if (runningImage s).any (fun i => !delayWithin s i d) then
        count .delayBeyondDepth (i / 256) (put (old.1, true))
      else put (d, false)
    | none => count .delayTableMissing i (put (old.1, true))) s

/-- At each TB0 second the arrival offsets of the second become those of the last whole second (R44). -/
def offsetsSecond (s : State) : State :=
  { s with ingest.streams := tabMap {} (fun (x : Stream) => { x with
      lastMin := x.minOff.getD 0, lastMax := x.maxOff.getD 0, minOff := none, maxOff := none }) s.ingest.streams }

/-! Commands. -/

/-- INGEST.CONFIG (Table 2.5, R50). -/
def specIngestConfig : Spec :=
  { opcode := 0x0400, layout := layoutBad [(0, 2)], cls := fun _ => .txn
    range := fun _ a => firstBad [(decide (u16 a 0 ≤ 16), 0)]
    act := fun q s => { s with ingest.window := u16 q.arg 0 } }

/-- INGEST_CONFIG. -/
def execIngestConfig (q : Request) (s : State) : Out := kenra (.ingestConfig q) specIngestConfig q s

/-- Per-quad ingest outcomes in Table 2.6 order. -/
def ingestCtrs : List Ctr := [.l3Error, .unclassified, .qMalformed, .overrun]

/-- INGEST.STATUS (R44); ingest has no status word. -/
def specIngestStatus : Spec :=
  { opcode := 0x0401, layout := statusLayout, sampled := true
    range := fun _ a => firstBad [(selOk 32 a, 0)]
    result := fun s q => statusEach q.arg (fun _ => 0) (fun k => ingestCtrs.map (fun c => counter c k s))
    act := fun q s => clearShown q.arg (fun k => ingestCtrs.map (fun c => counter c k s)) (clearCtrs ingestCtrs) s }

/-- INGEST_STATUS. -/
def execIngestStatus (q : Request) (s : State) : Out := kenra (.ingestStatus q) specIngestStatus q s

/-- A stream's parameters with the masked cells of STREAM.CONFIG. -/
def streamCells (a : List Byte) (c : StreamCfg) : StreamCfg :=
  { input := cellOr a 8 0 c.input, format := cellOr a 8 1 c.format, nfs := cellOr a 8 2 c.nfs, dfs := cellOr a 8 3 c.dfs
    firstCh := cellOr a 8 4 c.firstCh, chCount := cellOr a 8 5 c.chCount, np := cellOr a 8 6 c.np }

/-- The configuration of one stream is whole and within Table 2.5 and R36: (check, offset of its cell). -/
def streamChecks (s : State) (c : StreamCfg) : List (Bool × Nat) :=
  [(decide (0 < c.dfs) && decide (1000 * c.dfs ≤ c.nfs) && decide (c.nfs ≤ 250000000 * c.dfs), 16 + 8 * 2),
   (decide (c.firstCh + c.chCount ≤ 65536), 16 + 8 * 5),
   (decide (0 < c.np) && decide (32 + c.chCount * c.np * bytesPerSample c.format ≤ 8192) &&
     decide (0 < coarsePer c.nfs c.dfs s.time.period) && decide (coarsePer c.nfs c.dfs s.time.period % c.np = 0),
     16 + 8 * 6)]

/-- Two streams of one input agree in format and rate, and their channel ranges are apart (R36). -/
def sameInputOk (x y : StreamCfg) : Bool :=
  x.input ≠ y.input || (x.format = y.format && decide (x.nfs * y.dfs = y.nfs * x.dfs) &&
    (decide (x.firstCh + x.chCount ≤ y.firstCh) || decide (y.firstCh + y.chCount ≤ x.firstCh)))

/-- Every pair of configured streams of one input agrees (R36). -/
def inputsOk (l : Tab Stream) : Bool :=
  let l := (l.map (·.2.cfg)).filter (fun c => decide (c.np ≠ 0))
  l.zipIdx.all (fun x => (l.drop (x.2 + 1)).all (fun y => sameInputOk x.1 y))

/-- Streams that are enabled together share one sample rate, whatever their inputs (R36). -/
def ratesOk (l : Tab Stream) : Bool :=
  let on := (l.filter (fun e => e.2.enabled)).map (·.2.cfg)
  on.all (fun c => on.all (fun d => decide (c.nfs * d.dfs = d.nfs * c.dfs)))

/-- Streams after STREAM.CONFIG. -/
def streamConfigAct (a : List Byte) (s : State) : State :=
  (selected a).foldl (fun s k => modStream k (fun x => { x with
    cfg := streamCells a x.cfg, allowMs := cellOr a 8 7 x.allowMs }) s) s

/-- The fill lag that a setting leaves lies above the λ that the committed schedule was last validated with (R235). -/
def allowConflict (s s' : State) : Bool :=
  match runningImage s with
  | some i => decide (s.sched.lag < fillLag s' i)
  | none => false

/-- The configuration `t` that STREAM.CONFIG leads to keeps R36 on the streams that it names: the offset of the first cell at fault. -/
def streamBad (t : State) (a : List Byte) : Option Nat :=
  if cellMask a 8 % 128 = 0 then none
  else firstBad ((selected a).flatMap (fun k => streamChecks t (stream t k).cfg) ++ [(inputsOk t.ingest.streams, 16)])

/-- STREAM.CONFIG (R36, R50): all cells transactional but A, which is live. A configuration that is not whole, or breaks
R36 among the streams of one input, is RANGE at once, or at the commit where the command is staged, for what the commit leaves (R221,
R237; no status is given: log 31); one in which enabled streams differ in rate is rejected with INGEST_RATE, REJECTED with code 0x03
(R36, R368). -/
def specStreamConfig : Spec :=
  { opcode := 0x0402, same := fun a b => selCovers a b && cellsCover 8 8 a b
    layout := selCellsLayout 8 8 [] (fun _ => false)
    cls := fun a => cellsClass a 8 8 (fun i => if i = 7 then .live else .txn)
    range := fun _ a => firstBad [(selOk 16384 a, 0), cellRange a 8 0 0 4095, cellRange a 8 1 1 3,
        cellRange a 8 2 1 (2 ^ 32 - 1), cellRange a 8 3 1 (2 ^ 32 - 1), cellRange a 8 4 0 65535, cellRange a 8 5 1 128,
        (cellIn a 8 6 (fun v => decide (64 ≤ v) && decide (v ≤ 8128) && decide (v % 64 = 0)), 16 + 8 * 6),
        cellRange a 8 7 0 1000]
    resource := fun s q =>
      let t := streamConfigAct q.arg s
      match streamBad t q.arg with
      | some o => some (.range, o)
      | none =>
        if cellMask q.arg 8 % 128 ≠ 0 && !ratesOk t.ingest.streams then some (.rejected, 3)
        else firstFail [(!allowConflict s t, .conflict)]
    act := fun q => streamConfigAct q.arg }

/-- STREAM_CONFIG. -/
def execStreamConfig (q : Request) (s : State) : Out := kenra (.streamConfig q) specStreamConfig q s

/-- Streams after STREAM.ENABLE or STREAM.DISABLE; they take effect at the next tick (R49). -/
def enableStreams (on : Bool) (a : List Byte) (s : State) : State :=
  (selected a).foldl (fun s k => modStream k (fun x => { x with enabled := on }) s) s

/-- STREAM.ENABLE (R49): a stream that has no parameters is RANGE (no status is given: log 31). -/
def specStreamEnable : Spec :=
  { opcode := 0x0403, same := fun a b => selCovers a b
    layout := layoutBad selForm, cls := fun _ => .txn
    range := fun s a => firstBad [(selOk 16384 a && (selected a).all (fun k => decide ((stream s k).cfg.np ≠ 0)), 0)]
    act := fun q => enableStreams true q.arg }

/-- STREAM_ENABLE. -/
def execStreamEnable (q : Request) (s : State) : Out := kenra (.streamEnable q) specStreamEnable q s

/-- STREAM.DISABLE (R49). -/
def specStreamDisable : Spec :=
  { opcode := 0x0404, same := fun a b => selCovers a b
    layout := layoutBad selForm, cls := fun _ => .txn
    range := fun _ a => firstBad [(selOk 16384 a, 0)]
    act := fun q => enableStreams false q.arg }

/-- STREAM_DISABLE. -/
def execStreamDisable (q : Request) (s : State) : Out := kenra (.streamDisable q) specStreamDisable q s

/-- Per-stream counters: the outcomes of Table 2.6 in its order, then those R44 lists. -/
def streamCtrs : List Ctr :=
  [.accepted, .sMalformed, .misaligned, .disabled, .early, .overflow, .duplicate, .collision, .late, .seqMismatch,
   .saturated, .holeExpired, .reorderFull, .delayInsert, .delayDrop, .heldDiscarded, .flaggedSamples]

/-- Values of STREAM.STATUS. -/
def streamValues (s : State) (k : Nat) : List Nat :=
  streamCtrs.map (fun c => counter c k s) ++ [cellOfInt (stream s k).lastMin, cellOfInt (stream s k).lastMax]

/-- STREAM.STATUS (R44): the counters, then the least and greatest arrival offset of the last whole second. -/
def specStreamStatus : Spec :=
  { opcode := 0x0405, layout := statusLayout, sampled := true
    range := fun _ a => firstBad [(selOk 16384 a, 0)]
    result := fun s q => statusEach q.arg (fun _ => 0) (streamValues s)
    act := fun q s => clearShown q.arg (streamValues s) (clearCtrs streamCtrs) s }

/-- STREAM_STATUS. -/
def execStreamStatus (q : Request) (s : State) : Out := kenra (.streamStatus q) specStreamStatus q s

/-- Address of FLOW.SET at an offset: a little-endian number over two cells, IPv4 in the first 4 bytes (R5, Table 16.7; log 51). -/
def flowAddr (v6 : Bool) (a : List Byte) (o : Nat) : Nat := leVal (slice a o (if v6 then 16 else 4))

/-- All 0xFF: "any". -/
def flowAny (a : List Byte) (o : Nat) : Bool := (slice a o 16).all (· = 0xFF)

/-- The entry that a FLOW.SET write carries, its rows from 16 (Table 2.1, Table 9.6; log 31). -/
def flowEntry (a : List Byte) : Flow :=
  let c := fun (o : Nat) => u64 a o
  if u8 a 9 = 0 then
    let kind := if c 16 = 0 then FlowKind.gul else if c 16 = 1 then .udp4 else .udp6
    let v6 := c 16 = 2
    let src := if flowAny a 56 ∨ c 16 = 0 then none else some (flowAddr v6 a 56)
    .ingress kind (BitVec.ofNat 32 (c 24)) (flowAddr v6 a 32) (c 48) src (c 72) (c 80)
  else
    let v6 := c 16 = 1
    .egress (if v6 then .udp6 else .udp4) (c 24) (if c 32 = 0 then none else some (c 32)) (c 40) (flowAddr v6 a 48)
      (flowAddr v6 a 64) (c 80) (c 88) (c 96) (c 104) (c 112) (c 120)

/-- Ranges of Table 2.1. -/
def ingressRange (a : List Byte) : List (Bool × Nat) :=
  let c := fun (o : Nat) => u64 a o
  [(decide (c 16 ≤ 2), 16), (decide (c 24 < 2 ^ 32), 24), (decide (c 48 ≤ 65535), 48), (decide (c 72 < 16384), 72),
   (decide (1 ≤ c 80) && decide (c 72 + c 80 ≤ 16384), 80)]

/-- Ranges of Table 9.6; a VLAN is 0 for none, else its VID in bits 11:0 and PCP in bits 15:13 (log 31). -/
def egressRange (s : State) (a : List Byte) : List (Bool × Nat) :=
  let c := fun (o : Nat) => u64 a o
  let v6 := c 16 = 1
  let k := c 24
  let own := if v6 then (quad s k).ipv6.map (·.toNat) else (quad s k).ipv4.map (·.toNat)
  let ip := c 112 + (if v6 then 72 else 52)
  [(decide (c 16 ≤ 1), 16), (decide (k < 32) && isEth (quad s k).mode, 24),
   (c 32 = 0 || (decide (c 32 < 65536) && decide (1 ≤ c 32 % 4096) && decide (c 32 % 4096 ≤ 4094) &&
     decide (c 32 / 4096 % 2 = 0)), 32),
   (decide (c 40 < 2 ^ 48), 40), (decide (own = some (flowAddr v6 a 48)), 48),
   (decide (1 ≤ c 80) && decide (c 80 ≤ 65535), 80), (decide (1 ≤ c 88) && decide (c 88 ≤ 65535), 88),
   (decide (c 96 ≤ 63), 96), (decide (1 ≤ c 104) && decide (c 104 ≤ 255), 104),
   (decide (256 ≤ c 112) && decide (c 112 ≤ 8192) && decide (c 112 % 8 = 0) && decide (ip ≤ (quad s k).mtu) &&
     decide (ip + 18 + (if c 32 = 0 then 0 else 4) ≤ 9216), 112),
   (decide (1 ≤ c 120) && decide (c 120 ≤ 64), 120)]

/-- Another ingress entry has the key and an overlapping quad mask (R31). -/
def flowOverlap (s : State) (entry : Nat) (f : Flow) : Bool :=
  match f with
  | .ingress kind quads dst dport _ _ _ =>
    s.ingest.flows.any (fun e => match e.2 with
      | some (.ingress kind' quads' dst' dport' _ _ _) =>
        e.1 ≠ entry && kind = kind' && (kind = .gul || (dst = dst' && dport = dport')) && quads &&& quads' ≠ 0
      | _ => false)
  | _ => false

/-- The egress entry's quad is enabled and its destination lies within the allow-list (R202). -/
def flowTether (s : State) (f : Flow) : Bool :=
  match f with
  | .egress kind k _ _ _ dst dport .. => quadEnabled s k && allowed s (kind = .udp6) dst dport
  | _ => true

/-- Layout of FLOW.SET: the rows of the direction it gives; an IPv4 address leaves the rest of its two cells reserved, unless it is
"any" (R7, Table 16.5). -/
def flowLayout (a : List Byte) : Option Nat :=
  layoutBad (selForm ++ [(8, 2)] ++
    (if u8 a 9 = 0 then
      if u64 a 16 = 1 then [(16, 20), (48, 8), (56, if flowAny a 56 then 16 else 4), (72, 16)] else [(16, 72)]
    else if u64 a 16 = 0 then [(16, 36), (64, 4), (80, 48)] else [(16, 112)])) a

/-- FLOW.SET (R31, R202): operation write or delete. Statuses are not given: an overlap is CONFLICT, a quad or
destination outside the Tether is TETHER (log 31). -/
def specFlowSet : Spec :=
  { opcode := 0x0406, same := fun a b => selCovers a b
    layout := flowLayout, cls := fun _ => .txn
    range := fun s a => firstBad ([(selCount a = 1 && decide (selFirst a < 32768), 0), (decide (u8 a 8 ≤ 1), 8),
        (decide (u8 a 9 ≤ 1), 9)] ++
      (if u8 a 8 = 1 then [] else if u8 a 9 = 0 then ingressRange a else egressRange s a))
    resource := fun s q => if u8 q.arg 8 = 1 then none else
      let f := flowEntry q.arg
      firstFail [(flowTether s f, .tether), (!flowOverlap s (selFirst q.arg) f, .conflict)]
    act := fun q s =>
      let f := if u8 q.arg 8 = 1 then none else some (flowEntry q.arg)
      { s with ingest.flows := tabSet none s.ingest.flows (selFirst q.arg) f } }

/-- FLOW_SET. -/
def execFlowSet (q : Request) (s : State) : Out := kenra (.flowSet q) specFlowSet q s

end Sys2Proof.Machine
end

