-- ==== Sys2Proof/Machine/Validate.lean ====
section
/-! DEFINITION. The validator (R220 to R224, Tables 10.3 to 10.5): what each check charges against which budget. Log 38 says how
the model reads the charges that the manual leaves open. -/

namespace Sys2Proof.Machine

/-! Ingest, channeliser, Vestibule, delay and units (R10, R36, R51, R53, R67, R80, R83, R91, R115, R124). -/

/-- Quads on which a stream may arrive (R30). -/
def streamQuads (s : State) (k : Nat) : Nat → Bool := fun q => s.ingest.flows.any (fun e => match e.2 with
  | some (.ingress _ quads _ _ _ base n) => testBit quads.toNat q && decide (base ≤ k) && decide (k < base + n)
  | _ => false)

/-- Ingest (R36, R51): one rate, whole packets per frame, and the packets and bytes of enabled streams per frame of `t` µs. -/
def ingestCharges (s : State) (t : Nat) : List Charge :=
  let on := s.ingest.streams.filter (fun e => e.2.enabled)
  let packets := fun (c : StreamCfg) => coarsePer c.nfs c.dfs t / max 1 c.np
  let size := fun (c : StreamCfg) => 32 + c.chCount * c.np * ([0, 1, 2, 4].getD c.format 0)
  let sum := fun (l : Tab Stream) => (l.map (fun e => packets e.2.cfg)).sum
  on.map (fun e =>
    let c := e.2.cfg
    failIf 3 0 e.1 0 (decide (8192 < size c) || coarsePer c.nfs c.dfs t = 0 || c.np = 0 ||
      decide (coarsePer c.nfs c.dfs t % c.np ≠ 0) || !inputsOk s.ingest.streams ||
      on.any (fun x => decide (x.2.cfg.nfs * c.dfs ≠ c.nfs * x.2.cfg.dfs)))) ++
  (List.range 32).map (fun q => { entry := 0, code := 3, unit := 0, inst := q, avail := 25 * t
                                  used := sum (on.filter (fun e => streamQuads s e.1 q)) }) ++
  [{ entry := 0, code := 3, unit := 0, inst := 32, used := sum on, avail := 400 * t },
   { entry := 0, code := 3, unit := 0, inst := 33, avail := 800000 * t
     used := (on.map (fun e => packets e.2.cfg * size e.2.cfg)).sum }]

/-- Array cycles in a frame (R16), and those that are usable (R220). -/
def frameCycles (i : Image) : Nat := 1500 * i.period
def usableCycles (i : Image) : Nat := frameCycles i * 49 / 50

/-- Samples that a slice takes in a frame (Table 3.1). -/
def sliceRoom (s : State) (i : Image) : Nat := [8, 8, 4, 2, 16].getD s.chan.preset 4 * frameCycles i

/-- Units that an image assigns to a slice in a block of its period. -/
def unitsOn (i : Image) (block slice : Nat) : Nat :=
  (i.items.filter (fun x => x.kind = 5 && x.entry = block && x.unit = slice)).length

/-- Fades as they run (R68): first output, last output, length, over swaps in order of first output. `last` is the end of the
fade that runs, `held` the length of the held swap. -/
def fadeRuns : List (Nat × Nat) → Option Nat → Option Nat → List (Nat × Nat × Nat)
  | [], some e, some m => [(e + 1, e + m, m)]
  | [], _, _ => []
  | (us, m) :: t, none, _ => (us, us + m - 1, m) :: fadeRuns t (some (us + m - 1)) none
  | (us, m) :: t, some e, none =>
    if us ≤ e then fadeRuns t (some e) (some m) else (us, us + m - 1, m) :: fadeRuns t (some (us + m - 1)) none
  | (us, m) :: t, some e, some h =>
    if us ≤ e then fadeRuns t (some e) (some m)
    else if us ≤ e + h then (e + 1, e + h, h) :: fadeRuns t (some (e + h)) (some m)
    else (e + 1, e + h, h) :: (us, us + m - 1, m) :: fadeRuns t (some (us + m - 1)) none

/-- Swaps of a slice that are to come, in order of first output: those of commands in force, and the schedule's in each period from
the present one on until all of them are over (R66, R67). A swap of the running schedule that is in force already is its item's. -/
def swapsAhead (s : State) (i : Image) (k : Nat) : List (Nat × Nat) :=
  let n := finePer s i.period
  let eb := max 1 (periodFrames s i)
  let running := inForce s = some i
  let mine := (sliceOf s k).swaps.filter (fun w => !(w.planned && running))
  let q0 := s.time.frame / eb
  let q1 := mine.foldl (fun m w => max m (w.frame / eb)) q0 + 2
  let items := (numbers q0 (q1 + 1 - q0)).flatMap (fun q =>
    ((i.items.filter (fun x => x.kind = 6 && x.unit = k)).map (fun x => (q * eb + x.w8, x.h12))).filter (fun w =>
      !running || decide (s.time.frame < w.1)))
  (items.map (fun w => (w.1 * n, w.2)) ++ mine.map (fun w => (w.us, w.m))).mergeSort (fun a b => decide (a.1 ≤ b.1))

/-- Fades of a slice as they run: those begun, the held one, and those of the swaps to come (R67, R68). -/
def fadesAhead (s : State) (i : Image) (k : Nat) : List (Nat × Nat × Nat) :=
  let begun := (openFades s k).map (fun f => (f.1, f.1 + f.2.1 - 1, f.2.1))
  let last := begun.foldl (fun (o : Option Nat) f => some (max f.2.1 (o.getD 0))) none
  begun ++ fadeRuns (swapsAhead s i k) last ((sliceOf s k).heldSwap.map (·.m))

/-- Samples per unit by which fades raise a slice's charge in each frame that they touch (R67): (frame, samples). -/
def fadeLoads (s : State) (i : Image) (k : Nat) : List (Nat × Nat) :=
  let n := max 1 (finePer s i.period)
  let lead := ceilDiv i.dmax (max 1 (coarseFrame s i.period))
  (fadesAhead s i k).flatMap (fun f =>
    if f.2.2 ≤ 1 then []
    else (numbers (f.1 / n - lead) (f.2.1 / n + 1 - (f.1 / n - lead))).map (fun e => (e, min f.2.2 n * branches s)))

/-- The channeliser (R53, R67, R68): each slice in each block, and in each frame with fades, those of the frame together; PASS takes no
swap. -/
def sliceCharges (s : State) (i : Image) : List Charge :=
  let c := coarseFrame s i.period
  let b := max 1 (blockFrames s i)
  let eb := max 1 (periodFrames s i)
  (List.range 32).flatMap (fun k =>
    (List.range i.entries).map (fun e =>
      { entry := e * b, code := 4, unit := 1, inst := k, used := unitsOn i e k * c, avail := sliceRoom s i }) ++
    (let l := fadeLoads s i k
     (l.map (·.1)).dedup.map (fun f => { entry := f % eb, code := 4, unit := 1, inst := k, avail := sliceRoom s i
                                         used := unitsOn i (f % eb / b) k *
                                           (c + ((l.filter (fun g => g.1 = f)).map (·.2)).sum) })) ++
    [failIf 4 1 k 0 (isPass s && !(swapsAhead s i k).isEmpty)]) ++
  i.items.map (fun x => failIf 9 1 x.unit (failEntry s i x) (x.kind = 5 && decide (1 < (i.items.filter (fun y =>
    y.kind = 5 && y.entry = x.entry && y.chan = x.chan && y.w8 % 65536 = x.w8 % 65536)).length)))

/-- Vestibule space and the units the store tracks (R25, R80, R81, R109, R124). -/
def spaceCharges (s : State) (i : Image) : List Charge :=
  let n := 256 * i.blocks
  let c := i.channels.length
  let bufs := if !i.direct then 2 * n * i.len + 64 * n * c else (if i.wide then 8 else 4) * n * c * i.len
  let units := ((i.items.filter (fun x => x.kind = 5)).map (fun x => (x.chan, x.w8 % 65536))).dedup.length
  [{ entry := 0, code := 5, unit := 2, inst := 0, used := bufs + 2 ^ 17 * s.beam.pool, avail := 2 ^ 30 },
   failIf 5 2 0 0 (i.items.any (fun x => x.kind = 2) && s.beam.pool = 0),
   failIf 5 2 0 0 (!i.direct && decide (262144 < units))]

/-- The delay model (R10, R83, R91): ⌊D_max / P⌋ against q_lim, and D_max against the 2 ms of the direct route. -/
def delayCharges (s : State) (i : Image) : List Charge :=
  let q : Charge := { entry := 0, code := 16, unit := 13, inst := 0, used := i.dmax / branches s, avail := qLim s i }
  if i.direct then
    [q, { entry := 0, code := 16, unit := 13, inst := 0, used := i.dmax, avail := coarseFrame s i.period * 2000 / i.period },
     failIf 16 13 1 0 (!routeReaches s i i.dmax)]
  else [q, failIf 16 13 1 0 (ringSlots s i = 0 || !routeReaches s i i.dmax)]

/-- Units that are disabled (R115; UNIT_DISABLED): arrays, and quads that bound streams leave by or assigned inputs arrive
on. -/
def unitCharges (s : State) (i : Image) : List Charge :=
  let arrayOn := fun (a : Nat) => (array s a).enabled && !(array s a).katFail
  let offs := i.items.map (fun x => failIf 17 5 x.unit (failEntry s i x)
    ((x.kind = 1 && !arrayOn x.unit) || (x.kind = 2 && !(maskArrays x.unit).all arrayOn)))
  let quads := (bindings i).map (fun b => match flow s b.2.2.2.2 with
    | some (.egress _ q ..) => failIf 17 9 q 0 (b.2.2.2.1 = 0 && !((quad s q).mode = .eth200 || (quad s q).mode = .eth100))
    | _ => failIf 17 9 0 0 false)
  let feeds := (List.range 32).map (fun q => failIf 17 0 q 0 ((quad s q).mode = .off && s.ingest.streams.any (fun e =>
    e.2.enabled && (assignedInputs i).contains e.2.cfg.input &&
      (List.range 32).all (fun p => !streamQuads s e.1 p || (quad s p).mode = .off) && streamQuads s e.1 q)))
  offs ++ quads ++ feeds

/-- The stream's destination exists (R191). -/
def destOk (s : State) (o : OStream) : Bool :=
  if o.ring then (ring s o.dest).isSome
  else match flow s o.dest with
    | some (.egress ..) => true
    | _ => false

/-- Stream bindings agree with the streams; only fixed tables (R185, R186, R191). -/
def bindingCharges (s : State) (i : Image) : List Charge :=
  (bindings i).map (fun b => failIf 12 8 b.1 0 (match ostream s b.2.1 with
    | none => true
    | some o => decide (o.engine ≠ b.1) || decide (bit o.ring ≠ b.2.2.2.1) || decide (o.dest ≠ b.2.2.2.2) || !destOk s o ||
        decide (1 < b.2.2.1) || decide (16 ≤ b.1 + s.pack.reserved)))

/-- Tables that the program of a peg budget's peg writes, with their writer: the peg's kernel, or the service of its pitch (R267). -/
def tablesOf (s : State) (x : SchedItem) : Nat × List Nat :=
  let p := 16 * x.unit + x.chan
  if (peg s p).customer then (p, Config.kernelTables (tabGet [] s.peg.kernels p))
  else (256 + x.unit, Config.serviceTables (serviceOf s x.unit) x.unit)

/-- Writers of tables under a schedule: the kernels of the pegs that its budgets of any entry name, and the services assigned to the
pitches, which run whether or not a budget names their pegs (R259, R267). -/
def writersOf (s : State) (l : List SchedItem) : List (Nat × List Nat) :=
  (l.filter (fun x => (peg s (16 * x.unit + x.chan)).customer)).map (tablesOf s) ++
    (List.range 16).map (fun k => (256 + k, if serviceOf s k = 0 then [] else Config.serviceTables (serviceOf s k) k))

/-- A table that a peg budget's program writes has another writer; a kernel may take one over only where no pitch keeps the service that
writes it (R267). -/
def twoWriters (s : State) (l : List SchedItem) (x : SchedItem) : Bool :=
  let a := tablesOf s x
  (writersOf s l).any (fun b => decide (a.1 ≠ b.1) && a.2.any (fun t => b.2.contains t))

/-- Cycles that a peg budget charges: those it declares, and at least those of its kernel's manifest (R260, R267; log 19). -/
def declaredCycles (s : State) (x : SchedItem) : Nat :=
  let p := 16 * x.unit + x.chan
  if (peg s p).customer then max x.w8 (Config.kernelManifest (tabGet [] s.peg.kernels p)).cycles else x.w8

/-- Peg budgets (R223, R260): declared cycles of each peg in each frame entry; one mode to a pitch; no table with two writers, which
counts as DUPLICATE_WORK (R267; log 19). -/
def pegCharges (s : State) (i : Image) : List Charge :=
  let l := i.items.filter (fun x => x.kind = 9)
  l.map (fun x => { entry := x.entry, code := 14, unit := 11, inst := 16 * x.unit + x.chan, avail := 980 * i.period
                    used := ((l.filter (fun y => y.entry = x.entry && y.unit = x.unit && y.chan = x.chan)).map (declaredCycles s)).sum })
  ++ l.map (fun x => failIf 14 11 (16 * x.unit) x.entry (l.any (fun y => y.entry = x.entry && y.unit = x.unit && y.b12 ≠ x.b12)))
  ++ l.map (fun x => failIf 9 11 (16 * x.unit + x.chan) x.entry (twoWriters s l x))

/-- A throttle schedule is a part of its committed schedule (R230). -/
def throttleCharges (s : State) (i : Image) : List Charge :=
  if !i.throttle then []
  else
    let parent := (List.range 4).findSome? (fun k => match (schedSlot s k).image with
      | some p => if !p.throttle && p.identity = i.parent then some p else none
      | none => none)
    match parent with
    | none => [failIf 18 3 0 0 true]
    | some p =>
      let same := p.direct = i.direct && p.period = i.period && p.len = i.len && p.blocks = i.blocks && p.wide = i.wide &&
        p.entries = i.entries && p.dmax = i.dmax && decide (p.channels = i.channels)
      failIf 18 3 0 0 (!same || (p.items.any (fun x => (x.kind = 5 || x.kind = 6) && !i.items.contains x))) ::
        i.items.map (fun x => failIf 18 (unitOf x) 0 (failEntry s i x) (!p.items.contains x))

/-! The plan of a run of frames (R218, R228). -/

/-- An item in a frame, with its data block and image. -/
structure Put where
  frame : Nat
  item : SchedItem
  block : Nat
  img : Image
deriving DecidableEq, Repr

/-- Passes, segments and chunk reads of an image in frames `lo` to `hi - 1`, of the data blocks kept. -/
def putsOf (s : State) (i : Image) (keep : Nat → Bool) (lo hi : Nat) : List Put :=
  (numbers lo (hi - lo)).flatMap (fun f => i.items.filterMap (fun x =>
    if (x.kind = 1 || x.kind = 2 || x.kind = 3) && x.entry = entryAt s i f then
      (dataBlock s i f x).bind (fun k => if keep k then some { frame := f, item := x, block := k, img := i } else none)
    else none))

/-- Clasp jobs that begin in those frames. -/
def jobPuts (s : State) (i : Image) (keep : Nat → Bool) (lo hi : Nat) : List (Job × Image) :=
  (numbers lo (hi - lo)).flatMap (fun f => i.items.filterMap (fun x =>
    if x.kind = 4 && x.entry = entryAt s i f then
      (jobAt s i f x).bind (fun j => if keep j.block then some (j, i) else none)
    else none))

/-- A chunk read placed in its frame; times in twelfths of a ns. -/
structure Read where
  put : Put
  start : Nat
  stop : Nat
deriving DecidableEq, Repr

/-- Length of a frame in twelfths of a ns, in which an array cycle is 8 and a Pack input byte 3. -/
def frameTime (i : Image) : Nat := i.period * 12000

/-- Time a chunk read lasts: Z over its declared rate (R223). -/
def readTime (i : Image) (x : SchedItem) : Nat := ceilDiv (256 * chunkLen i.len * 12000) (max 1 x.w12)

/-- Chunk reads of one frame, one after another from its tick (R220, R223). -/
def placeReads : Nat → List Put → List Read
  | _, [] => []
  | t, p :: l => { put := p, start := t, stop := t + readTime p.img p.item } :: placeReads (t + readTime p.img p.item) l

/-- Every chunk read, placed. -/
def readsOf (puts : List Put) (lo hi : Nat) : List Read :=
  (numbers lo (hi - lo)).flatMap (fun f =>
    match puts.filter (fun p => p.frame = f && p.item.kind = 3) with
    | [] => []
    | p :: l => placeReads (f * frameTime p.img) (p :: l))

/-- The reads of one channel and data block. -/
def fillReads (reads : List Read) (pos block : Nat) : List Read :=
  reads.filter (fun r => r.put.item.chan = pos && r.put.block = block)

/-- End of the fill of a channel and block, in array cycles; none unless every chunk is read (R86). -/
def fillEnd (reads : List Read) (i : Image) (pos block : Nat) : Option Nat :=
  let l := fillReads reads pos block
  if l.length = i.blocks * (i.len / chunkLen i.len) then some (ceilDiv (l.foldl (fun m r => max m r.stop) 0) 8) else none

/-- An array item placed in its frame; cycles from the first frame. -/
structure Ran where
  put : Put
  start : Nat
  stop : Nat
  sigma : Nat
deriving DecidableEq, Repr

/-- Operand cycles of a dump's or pass's `n` samples (R102, R119). -/
def operandCycles (i : Image) (beam : Bool) (n : Nat) : Nat := if i.wide then (if beam then 2 else 4) * n else n

/-- Words per cycle that a job takes from the landing buffer (Table 5.4). -/
def wordRate (h : Option SchedItem) : Nat :=
  match h with
  | some x => if x.b8 = 6 then 2 else 64
  | none => 64

/-- σ at the boundary of dump `j` of a pass (R107). -/
def sigmaDump (p : Put) (j : Nat) : Nat :=
  65536 / wordRate (dumpJob p.img p.item j) - operandCycles p.img false (p.img.len / 2 ^ p.item.b9)

/-- σ of a pass, the greatest of its dumps' (R107). -/
def sigmaOf (p : Put) : Nat := (List.range (2 ^ p.item.b9)).foldl (fun m j => max m (sigmaDump p j)) 0

/-- Places the array items of one frame in order: cursors and σ of the last dump of the four arrays (R107, R108, R119, R120, R220). -/
def placeItems (s : State) (reads : List Read) : List (Nat × Nat) → List Put → List Ran
  | _, [] => []
  | cur, p :: l =>
    let i := p.img
    let arrays := if p.item.kind = 1 then [p.item.unit] else maskArrays p.item.unit
    let ready := if i.direct then 0 else (fillEnd reads i p.item.chan p.block).getD 0
    let free := arrays.foldl (fun m a => max m (cur.getD a (0, 0)).1) ready
    let sg := if p.item.kind = 1 then sigmaOf p else arrays.foldl (fun m a => max m (cur.getD a (0, 0)).2) 0
    let stop := if p.item.kind = 1 then free + operandCycles i false i.len + 320 + 2 ^ p.item.b9 * sg
      else free + sg + operandCycles i true s.beam.segLen
    let start := if p.item.kind = 1 then free else free + sg
    { put := p, start := start, stop := stop, sigma := sg } ::
      placeItems s reads (cur.zipIdx.map (fun e => if arrays.contains e.2 then
        (stop, if p.item.kind = 1 then sigmaDump p (2 ^ p.item.b9 - 1) else 0) else e.1)) l

/-- Every array item, placed. -/
def ransOf (s : State) (i : Image) (puts : List Put) (reads : List Read) (lo hi : Nat) : List Ran :=
  (numbers lo (hi - lo)).flatMap (fun f =>
    placeItems s reads (List.replicate 4 (f * frameCycles i, 0)) (puts.filter (fun p => p.frame = f && p.item.kind ≠ 3)))

/-- Turnaround cycles of an array (R102). -/
def turnarounds (rans : List Ran) (a : Nat) : List (Nat × Nat) :=
  (rans.filter (fun r => r.put.item.kind = 1 && r.put.item.unit = a)).flatMap (fun r =>
    [(r.start, r.start + 60), (r.stop - 260, r.stop)])

/-- End of a flow of `n` cycles from `t` that skips the busy intervals, which are in order. -/
def moveFrom (t n : Nat) : List (Nat × Nat) → Nat
  | [] => t + n
  | (a, b) :: l =>
    if b ≤ t then moveFrom t n l
    else if t + n ≤ a then t + n
    else moveFrom b (n - (a - t)) l

/-- A dump on its way: its job (frame begun, number), job item, array, claim, and the move out of the landing buffer. -/
structure Landing where
  job : Nat × Nat
  item : SchedItem
  ran : Ran
  index : Nat
  claim : Nat
  start : Nat
  stop : Nat
deriving DecidableEq, Repr

/-- The frame in which a job begins and its number, for an item that names it from frame `f`. -/
def jobKey (f : Nat) (y h : SchedItem) : Nat × Nat := (f + h.entry - y.entry, h.h10)

/-- The dumps of an array in order, each moved on after the one before it (R103, R106, R141, R153). -/
def placeLandings (turn : List (Nat × Nat)) : Nat → List (Ran × Nat) → List Landing
  | _, [] => []
  | free, (r, j) :: l =>
    match dumpJob r.put.img r.put.item j with
    | none => placeLandings turn free l
    | some h =>
      let n := operandCycles r.put.img false (r.put.img.len / 2 ^ r.put.item.b9)
      let claim := r.start + (j + 1) * (n + r.sigma) + 319
      let start := max claim free
      let stop := moveFrom start (65536 / wordRate (some h)) turn
      { job := jobKey r.put.frame r.put.item h, item := h, ran := r, index := j, claim := claim, start := start, stop := stop } ::
        placeLandings turn stop l

/-- Every dump of an array. -/
def landingsOf (rans : List Ran) (a : Nat) : List Landing :=
  placeLandings (turnarounds rans a) 0 ((rans.filter (fun r => r.put.item.kind = 1 && r.put.item.unit = a)).flatMap (fun r =>
    (List.range (2 ^ r.put.item.b9)).map (fun j => (r, j))))

/-! Products. -/

/-- A product as the plan places it: its frame and job number, stream, when its first byte reaches its Pack engine, charged
length, header and count bytes, its data block, whether it is a beam product, and what the Facet needs. -/
structure Prod where
  frame : Nat
  number : Nat
  job : Nat × Nat
  ostream : Nat
  time : Nat
  len : Nat
  extra : Nat
  block : Nat
  beam : Bool
  vis : Bool
  pos : Nat
  key : List (Nat × Nat)
  tile : Nat × Nat
deriving DecidableEq, Repr

/-- Charged length of a Facet payload (R176, R183): blocks narrow for f not 0, wide for f = 0. -/
def facetLength (diag half : Bool) (e : Nat) : Nat :=
  let blocks := if !diag then 4096 else if half then 2040 else 4080
  blocks * (if e = 0 then 128 else 64) + round8 blocks + (if diag then 2048 else 0)

/-- Array cycles of a product's readout (R141, R144). -/
def readoutCycles (j : Job) (diag : Bool) : Nat :=
  (if j.half && diag then 514 else 1024) * (if j.kind = .accStats then 2 else 1)

/-- The job's product is emitted: not of a long accumulation that goes on (R156). -/
def emits (i : Image) (j : Job) : Bool :=
  j.kind ≠ .longAcc || (match laRun i j with
    | some (first, n) => first + n = j.block + 1
    | none => false)

/-- Records of a correlation product: charged length and other bytes of each (Table 9.3, R197). -/
def corrRecords (s : State) (j : Job) (diag : Bool) : List (Nat × Nat) :=
  let counts := if diag then 1036 else 2060
  if j.kind = .accStats then
    (if j.half && diag then [24640, 8256] else [32768, 32768]).map (fun n => (8 + 16 * n, 64 + counts))
  else [(facetLength diag j.half (facetE s j.ostream), 64 + counts)]

/-- The parts of an interval that lie outside others, which are in order. -/
def cutOut : Nat → Nat → List (Nat × Nat) → List (Nat × Nat)
  | a, b, [] => if a < b then [(a, b)] else []
  | a, b, (c, d) :: l =>
    if d ≤ a then cutOut a b l
    else if b ≤ c then (if a < b then [(a, b)] else [])
    else (if a < c then [(a, c)] else []) ++ cutOut d b l

/-- Readouts of one frame's finished jobs in job number order (R155, R153): (job, image, start, stop). `port` is when each
array port is free, `ready` and `last` when lower jobs are finished and have begun. A landing leaves the turnaround cycles free
(R141). -/
def placeReadouts (rans : List Ran) (lands : List Landing) : Nat → Nat → List Nat → List (Job × Image) → List (Job × Image × Nat × Nat)
  | _, _, _, [] => []
  | ready, last, port, (j, i) :: l =>
    let mine := lands.filter (fun x => x.job = (j.frame, j.number))
    let ready := mine.foldl (fun m x => max m x.stop) ready
    let a := j.array
    let busy := (lands.filter (fun x => x.ran.put.item.unit = a)).flatMap (fun x => cutOut x.start x.stop (turnarounds rans a))
    let start := max (max ready last) (port.getD a 0)
    let stop := if j.kind = .longAcc then start else moveFrom start (readoutCycles j (diagonal i.blocks j.corrTile)) busy
    (j, i, start, stop) :: placeReadouts rans lands ready start (port.set a stop) l

/-- Every readout of correlation jobs. -/
def readoutsOf (jobs : List (Job × Image)) (rans : List Ran) (lands : List Landing) (lo hi : Nat) : List (Job × Image × Nat × Nat) :=
  (numbers lo (hi - lo)).flatMap (fun f =>
    placeReadouts rans lands 0 0 [0, 0, 0, 0]
      (((jobs.filter (fun e => isCorr e.1 && e.1.due = f)).mergeSort (fun a b => decide (a.1.number ≤ b.1.number)))))

/-- Products of the correlation jobs (R178: 40 cycles behind the readout). -/
def corrProds (s : State) (outs : List (Job × Image × Nat × Nat)) : List Prod :=
  outs.flatMap (fun o =>
    let j := o.1
    let i := o.2.1
    if !emits i j then []
    else (corrRecords s j (diagonal i.blocks j.corrTile)).map (fun r =>
      { frame := j.due, number := j.number, job := (j.frame, j.number), ostream := j.ostream, time := (o.2.2.1 + 40) * 8
        len := r.1, extra := r.2
        block := (noiseKey i j).foldl (fun m d => max m d.1) j.block
        beam := false, vis := isVis j.kind, pos := j.pos, key := noiseKey i j, tile := tileBlocks i.blocks j.corrTile }))

/-- Last rounds of segments: each segment's readout begins when its last sums are written (R122, R132). -/
def lastRound (i : Image) (r : Ran) : Bool :=
  r.put.item.kind = 2 && r.put.item.b9 + 1 = ceilDiv i.blocks (max 1 (maskArrays r.put.item.unit).length)

/-- First cycle of a segment's readout: the one after its last sum is written (R122, R132, Table 6.3). -/
def segReadout (r : Ran) : Nat := r.stop + 259

/-- Items of the beam runs of a channel and set over one data block of the period, in execution order (R118, R119): those whose entry's
block less their lag is the same. -/
def runItems (s : State) (i : Image) (p : SchedItem → Bool) (x : SchedItem) : List SchedItem :=
  let b := max 1 (blockFrames s i)
  let cls := fun (y : SchedItem) => (y.entry / b + i.entries * 4 - y.b12) % max 1 i.entries
  let at' := fun (y : SchedItem) => y.b12 * b + y.entry % b
  (i.items.filter (fun y => y.kind = 2 && p y && cls y = cls x)).mergeSort (fun y z => decide (at' y ≤ at' z))

/-- Charged lengths of the beam products of a segment's last round: (stream of which job kind, length) (Table 9.3). A peak list is
charged in every block of the period that can end a search interval. -/
def beamLengths (s : State) (i : Image) (r : Ran) (format : Nat) : List (Nat × Nat) :=
  let set := r.put.item.b8
  let x := beamSet s set
  let n := s.beam.segLen
  let nint := max 1 x.nint
  let m := r.put.item.h14
  let main := if !x.power then (voltChunks s set).map (fun c0 =>
      (3, min (2 ^ 18 / max 1 n) (x.beams - c0) * n * 2 + n / 64 * 2))
    else if nint ≤ n then [(4, n / nint * (x.beams * formatBytes 8 format + 4))]
    else if (m + 1) * n % nint = 0 then [(4, x.beams * formatBytes 8 format + 4)] else []
  let block := if (m + 1) * n = i.len then (4, x.beams * 40) ::
      (if (r.put.block + 1) % max 1 (Nat.gcd i.entries s.beam.searchBlocks) = 0 &&
          (runItems s i (fun y => y.b8 = set) r.put.item).getLast? = some r.put.item
       then (watchesOf s set).map (fun _ => (5, 200)) else [])
    else []
  main ++ block

/-- Products of the beam jobs. -/
def beamProds (s : State) (rans : List Ran) (jobs : List (Job × Image)) : List Prod :=
  rans.flatMap (fun r =>
    let i := r.put.img
    if !lastRound i r then []
    else match jobItem i r.put.item.entry r.put.item.chan r.put.item.h10 with
      | none => []
      | some h =>
        let key := jobKey r.put.frame r.put.item h
        match jobs.find? (fun e => e.1.frame = key.1 && e.1.number = key.2) with
        | none => []
        | some (j, _) =>
          (beamLengths s i r (sibling s i j 4).format).map (fun x =>
            { frame := r.put.frame, number := j.number, job := key, ostream := (sibling s i j x.1).ostream
              time := segReadout r * 8, len := x.2, extra := 64, block := r.put.block, beam := true, vis := false
              pos := j.pos, key := [], tile := (0, 0) }))

/-! Checks over the plan. `ent` gives the frame entry at which a frame's failures count; only frames from `from'` on count. -/

/-- Duplicate or missing work (R100, R120, R142). -/
def workCharges (all puts : List Put) (ent : Nat → Nat) : List Charge :=
  let twice := fun (same : Put → Bool) => decide (1 < (all.filter same).length)
  puts.map (fun p =>
    let i := p.img
    let x := p.item
    failIf 9 (unitOf x) x.unit (ent p.frame) (
      if x.kind = 3 then twice (fun q => q.item.kind = 3 && q.item.chan = x.chan && q.block = p.block && q.item.b8 = x.b8 &&
          q.item.h10 = x.h10)
      else if x.kind = 1 then
        twice (fun q => q.item.kind = 1 && q.item.chan = x.chan && q.block = p.block && q.item.b8 = x.b8) ||
        !(List.range (2 ^ x.b9)).all (fun d => match dumpJob i x d with
          | some h => h.chan = x.chan && !(3 ≤ h.b8 && h.b8 ≤ 5) && h.unit = x.unit &&
              (jobDumps i h).all (fun y => y.1.b8 = x.b8) && (takesAll h.b8 || decide ((jobDumps i h).length = 1))
          | none => false)
      else
        let run := all.filter (fun q => q.item.kind = 2 && q.item.chan = x.chan && q.block = p.block && q.item.b8 = x.b8 &&
          q.item.h14 = x.h14)
        let rounds := ceilDiv i.blocks (max 1 (maskArrays x.unit).length)
        !((List.range rounds).all (fun k => (run.filter (fun q => q.item.b9 = k)).length = 1)) || decide (run.length ≠ rounds) ||
        (match jobItem i x.entry x.chan x.h10 with
         | some h => !(h.chan = x.chan && h.b8 = 3)
         | none => true)))

/-- Clasp jobs that no work reaches: a correlation job that no dump names, a block-sum job that no segment names, and a detect or peak
job without a run of its entry and channel to follow (R142, Table 10.4). -/
def idleJobs (i : Image) : List Charge :=
  i.items.map (fun x => failIf 9 6 x.unit x.entry (x.kind = 4 && (
    if x.b8 = 3 then !i.items.any (fun y => y.kind = 2 && decide (jobItem i y.entry y.chan y.h10 = some x))
    else if x.b8 = 4 ∨ x.b8 = 5 then !i.items.any (fun y => y.kind = 4 && y.b8 = 3 && y.entry = x.entry && y.chan = x.chan)
    else (jobDumps i x).isEmpty)))

/-- Beam runs (R118, R119, R133, R134): every segment and round of the run once, in the order m × rounds + round, on one set of arrays
and for one job, which takes no other run (R131, R142); the set's n_min within N, and its n_int within the mode's range and fitting L_s and L. -/
def runCharges (s : State) (i : Image) : List Charge :=
  let n := s.beam.segLen
  (i.items.filter (fun x => x.kind = 2)).flatMap (fun x =>
    let run := runItems s i (fun y => y.b8 = x.b8 && y.chan = x.chan) x
    let rounds := ceilDiv i.blocks (max 1 (maskArrays x.unit).length)
    let e := beamSet s x.b8
    [failIf 9 5 x.unit x.entry (i.items.any (fun y => y.kind = 2 && !run.contains y &&
       (jobItem i y.entry y.chan y.h10).isSome && decide (jobItem i y.entry y.chan y.h10 = jobItem i x.entry x.chan x.h10))),
     failIf 9 5 x.unit x.entry (run.any (fun y => y.unit ≠ x.unit || y.h10 ≠ x.h10 ||
       decide (jobItem i y.entry y.chan y.h10 ≠ jobItem i x.entry x.chan x.h10)) ||
       decide (run.map (fun y => y.h14 * rounds + y.b9) ≠ List.range (rounds * (i.len / max 1 n)))),
     failIf 1 5 x.b8 x.entry (decide (256 * i.blocks < nMin s i x.b8)),
     failIf 1 5 x.b8 x.entry (e.power && (decide (e.nint < 64) || decide ((if i.wide then 256 else 65536) < e.nint) ||
       !(n % max 1 e.nint = 0 || (e.nint % max 1 n = 0 && i.len % max 1 e.nint = 0))))])

/-- Fills, holds and what reads them (R82, R86, R90). -/
def fillCharges (s : State) (i : Image) (reads : List Read) (rans : List Ran) (ent : Nat → Nat) : List Charge :=
  let b := blockFrames s i
  let lag := fillLag s i
  let hold := fun (r : Read) => rans.foldl (fun m x =>
    if x.put.item.chan = r.put.item.chan && x.put.block = r.put.block then max m (x.stop * 8) else m) r.stop
  reads.flatMap (fun r =>
    let k := r.put.block
    [failIf 6 3 r.put.item.unit (ent r.put.frame)
       (decide (r.put.frame < (k + 1) * b + lag) || decide ((k + 2) * b + lag < r.put.frame + 1)),
     { entry := ent r.put.frame, code := 6, unit := 3, inst := r.put.item.unit, used := r.stop - r.put.frame * frameTime i
       avail := frameTime i },
     failIf 6 3 r.put.item.unit (ent r.put.frame) (reads.any (fun q => q.put.item.unit = r.put.item.unit &&
       !(q.put.item.chan = r.put.item.chan && q.put.block = k) && decide (q.start ≤ r.start) && decide (r.start < hold q)) ||
       (fillReads reads r.put.item.chan k).any (fun q => q.put.item.unit ≠ r.put.item.unit))]) ++
  rans.map (fun x => failIf 6 3 0 (ent x.put.frame) (
    let k := x.put.block
    if i.direct then decide (x.put.frame < (k + 1) * b + lag) || decide ((k + 2) * b + lag < x.put.frame + 1)
    else (fillEnd reads i x.put.item.chan k).isNone))

/-- Bytes that the store writes in a frame, and that long accumulation moves (R26, R88, R157). -/
def writeBytes (s : State) (i : Image) : Nat :=
  if i.direct then 0 else i.channels.length * 256 * i.blocks * finePer s i.period
def laState (i : Image) : Nat :=
  let l := ((i.items.filter (fun x => x.kind = 7)).map (fun x => (x.chan, x.b8))).dedup
  l.length * (65536 * 8 + 512) + (l.map (·.1)).dedup.length * (256 * i.blocks * 4)
def laBytes (s : State) (i : Image) : Nat := ceilDiv (2 * laState i) (max 1 (blockFrames s i))

/-- Budget of a rate in MB/s over `t` µs, scaled to the data rate and the channels in use (R18, R329). -/
def dramBudget (s : State) (rate t : Nat) : Nat :=
  rate * t * ([4800, 5200, 5600, 6000, 6400].getD s.dram.speed 4800) * (chansInUse s).length / (6400 * 12)

/-- Charge of a traffic, in all and on the largest channel in use (R88, R329). -/
def dramCharge (s : State) (entry used t : Nat) : List Charge :=
  let top := (chansInUse s).foldl (fun m c => max m c.2) 0
  [{ entry := entry, code := 7, unit := 4, inst := 12, used := used, avail := dramBudget s 430000 t },
   { entry := entry, code := 7, unit := 4, inst := 0, used := ceilDiv (used * top) (max 1 (capacityGiB s)),
     avail := dramBudget s 40960 t }]

/-- DRAM over the plan: each frame's traffic, and each read's moment (R88, R223, R329). -/
def dramCharges (s : State) (i : Image) (la : Nat) (reads : List Read) (from' hi : Nat) (ent : Nat → Nat) : List Charge :=
  let base := writeBytes s i + la
  (numbers from' (hi - from')).flatMap (fun f =>
    dramCharge s (ent f) (base + (reads.filter (fun r => r.put.frame = f)).length * (256 * chunkLen i.len)) i.period) ++
  reads.flatMap (fun r => dramCharge s (ent r.put.frame) (base + r.put.item.w12 * i.period) i.period)

/-- Arrays: every item ends within the usable part of its frame (R107, R220). -/
def arrayCharges (i : Image) (rans : List Ran) (ent : Nat → Nat) : List Charge :=
  rans.map (fun r => { entry := ent r.put.frame, code := 8, unit := 5, inst := r.put.item.unit, avail := usableCycles i
                       used := r.stop - r.put.frame * frameCycles i })

/-- Tiles of a job from its claim to its release, in array cycles: (first tile, count, claim, release, frame, job) (R131, R150). -/
def tileSpans (s : State) (jobs : List (Job × Image)) (rans : List Ran) (lands : List Landing)
    (outs : List (Job × Image × Nat × Nat)) : List (Nat × Nat × Nat × Nat × Nat × (Nat × Nat)) :=
  let corr := outs.filterMap (fun o =>
    let j := o.1
    if j.kind = .longAcc then none
    else
      let mine := lands.filter (fun x => x.job = (j.frame, j.number))
      some (j.tile, if j.kind = .accStats then 2 else 1, mine.foldl (fun m x => min m x.claim) o.2.2.1, o.2.2.2, j.frame,
        (j.frame, j.number)))
  let beams := jobs.filterMap (fun e =>
    let j := e.1
    let mine := rans.filter (fun r => r.put.item.kind = 2 && (match jobItem e.2 r.put.item.entry r.put.item.chan r.put.item.h10 with
      | some h => decide (jobKey r.put.frame r.put.item h = (j.frame, j.number))
      | none => false))
    match mine with
    | [] => none
    | r :: _ => if j.kind ≠ .beamSum then none
        else some (j.tile, s.beam.segLen / 128 + 1, mine.foldl (fun m x => min m x.start) r.start,
          mine.foldl (fun m x => max m (segReadout x + s.beam.segLen)) 0, j.frame, (j.frame, j.number)))
  corr ++ beams

/-- Locket tiles and readouts (R131, R132, R153, R155); the beam pipe carries one segment at a time (R140). -/
def tileCharges (s : State) (i : Image) (spans : List (Nat × Nat × Nat × Nat × Nat × (Nat × Nat)))
    (outs : List (Job × Image × Nat × Nat)) (rans : List Ran) (ent : Nat → Nat) : List Charge :=
  let ends := outs.map (fun o => { entry := ent o.1.due, code := 10, unit := 6, inst := o.1.array, avail := frameCycles i
                                   used := o.2.2.2 - o.1.due * frameCycles i })
  let owners := spans.map (fun x => failIf 10 6 x.1 (ent x.2.2.2.2.1) (decide (128 < x.1 + x.2.1) || spans.any (fun y =>
    y.2.2.2.2.2 ≠ x.2.2.2.2.2 && decide (y.1 < x.1 + x.2.1) && decide (x.1 < y.1 + y.2.1) && decide (y.2.2.1 ≤ x.2.2.1) &&
      decide (x.2.2.1 < y.2.2.2.1))))
  let named := (spans.flatMap (fun x => numbers x.1 x.2.1)).dedup.length
  let segs := (rans.filter (lastRound i)).flatMap (fun r =>
    let out := segReadout r + s.beam.segLen
    [({ entry := ent r.put.frame, code := 10, unit := 6, inst := 4, avail := frameCycles i
        used := out - r.put.frame * frameCycles i } : Charge),
     failIf 10 6 4 (ent r.put.frame) (rans.any (fun q => q.put.item.kind = 2 && q.put.item.chan = r.put.item.chan &&
       q.put.block = r.put.block && q.put.item.b8 = r.put.item.b8 && q.put.item.h14 = r.put.item.h14 + 2 &&
       q.put.item.b9 = 0 && decide (q.start + (if i.wide then 260 else 259) < out))),
     failIf 10 6 4 (ent r.put.frame) (rans.any (fun q => lastRound i q && q ≠ r && decide (segReadout q ≤ segReadout r) &&
       decide (segReadout r < segReadout q + s.beam.segLen)))])
  ends ++ owners ++ segs ++
    [{ entry := 0, code := 10, unit := 6, inst := 5, used := named + s.clasp.spillTiles, avail := 128 }]

/-- The Facet (R163, R168) for products of frames from `from'` on: HALF, noise estimates read out before they are needed, in whatever
frame, and at most 64 noise sets at once, each from its first diagonal product to the last product that names it. -/
def facetCharges (s : State) (prods : List Prod) (jobs : List (Job × Image)) (from' : Nat) (ent : Nat → Nat) : List Charge :=
  let vis := prods.filter (·.vis)
  let names := (jobs.filter (fun e => isVis e.1.kind)).map (fun e => ((e.1.pos, noiseKey e.2 e.1), e.1.due, e.1.number))
  let before := fun (a b : Prod) => decide (a.frame < b.frame) || (a.frame = b.frame && decide (a.number < b.number))
  let job := fun (p : Prod) => (jobs.find? (fun e => decide ((e.1.frame, e.1.number) = p.job))).map (·.1)
  let sets := (vis.map (fun p => (p.pos, p.key))).dedup
  (vis.filter (fun p => decide (from' ≤ p.frame))).flatMap (fun p =>
    let diag := decide (p.tile.1 = p.tile.2)
    let shaved := decide (facetE s p.ostream ≠ 0)
    let supply := fun (ib : Nat) => vis.any (fun d => decide (d.tile = (ib, ib)) && d.pos = p.pos && decide (d.key = p.key) &&
      before d p)
    let live := (sets.filter (fun k => vis.any (fun q => decide ((q.pos, q.key) = k) && decide (q.tile.1 = q.tile.2) && !before p q) &&
      names.any (fun e => decide (e.1 = k) && (decide (p.frame < e.2.1) || (p.frame = e.2.1 && decide (p.number ≤ e.2.2)))))).length
    [failIf 11 7 0 (ent p.frame) (match job p with
       | some j => (diag && shaved && !j.half) || j.fused
       | none => false),
     failIf 11 7 0 (ent p.frame) (!diag && shaved && !(supply p.tile.1 && supply p.tile.2)),
     { entry := ent p.frame, code := 11, unit := 7, inst := 0, used := live, avail := 64 }])

/-- One engine's items of a frame in the order they arrive: room in the buffer, and the end of each (R183). `busy` lists those
before it, (start, end, length); `free` is when the engine is. -/
def engineItems (i : Image) (entry k : Nat) : Nat → List (Nat × Nat × Nat) → List Prod → List Charge
  | _, _, [] => []
  | free, busy, p :: l =>
    let held := (busy.map (fun x => if p.time < x.2.1 then x.2.2 - min x.2.2 ((p.time - x.1) / 3) else 0)).sum
    let start := max free p.time
    let stop := start + 3 * p.len
    { entry := entry, code := 12, unit := 8, inst := k, used := held + p.len, avail := 2 ^ 20 } ::
    { entry := entry, code := 12, unit := 8, inst := k, used := stop - p.frame * frameTime i, avail := frameTime i * 49 / 50 } ::
      engineItems i entry k stop ((start, stop, p.len) :: busy) l
/-- Pack over the plan (R15, R82, R183, R186, R191, R219). -/
def packCharges (s : State) (i : Image) (prods : List Prod) (from' hi : Nat) (ent : Nat → Nat) : List Charge :=
  let b := blockFrames s i
  prods.map (fun p => failIf 6 8 0 (ent p.frame) (decide ((p.block + 2) * b + fillLag s i + 1 < p.frame))) ++
  prods.map (fun p => failIf 12 8 0 (ent p.frame) (match ostream s p.ostream with
    | none => true
    | some o => decide (16 ≤ o.engine + s.pack.reserved) || !destOk s o || o.beamPipe != p.beam || decide (2 ^ 20 < p.len))) ++
  (numbers from' (hi - from')).flatMap (fun f => (List.range 16).flatMap (fun k =>
    let l := (prods.filter (fun p => p.frame = f && (match ostream s p.ostream with
      | some o => decide (o.engine = k)
      | none => false))).mergeSort (fun a b => decide (a.time ≤ b.time))
    failIf 1 8 k (ent f) (decide (4096 < l.length)) ::
    { entry := ent f, code := 12, unit := 8, inst := k, used := (l.map (·.len)).sum, avail := 3920 * i.period } ::
      engineItems i (ent f) k 0 [] l))

/-- Bytes over a planning ratio from 1.0 to 8.0, rounded up (R210). -/
def planned (bytes : Nat) (ratio : BitVec 32) : Nat :=
  let e := ratio.toNat / 2 ^ 23 % 256
  ceilDiv (bytes * 2 ^ (150 - e)) (2 ^ 23 + ratio.toNat % 2 ^ 23)

/-- Raw data rate of the PCIe link in bytes per µs (R344). -/
def rawRate (s : State) : Nat :=
  if s.host.speed = 1 then 250 * s.host.width else if s.host.speed = 2 then 500 * s.host.width
  else s.host.width * 2 ^ (s.host.speed - 3) * 128000 / 130

/-- Bytes on an egress quad of a product whose planned bytes are `b`: with the headers of its datagrams and their frames (R203, R204; log
38: the rule's example counts them). -/
def onQuad (f : Flow) (b : Nat) : Nat :=
  match f with
  | .egress kind _ vlan _ _ _ _ _ _ _ piece _ =>
    b + ceilDiv b (max 1 piece) * (24 + 8 + (if kind = .udp6 then 40 else 20) + 18 + (if vlan.isSome then 4 else 0))
  | _ => b

/-- Egress quads and host rings over the plan (R210, R344). -/
def egressCharges (s : State) (i : Image) (prods : List Prod) (from' hi : Nat) (ent : Nat → Nat) : List Charge :=
  let toRings := fun (f : Nat) => (prods.filterMap (fun x => match ostream s x.ostream with
    | some o => if x.frame = f && o.ring then some (planned (x.len + x.extra) o.planning) else none
    | none => none)).sum
  (numbers from' (hi - from')).flatMap (fun f =>
    (List.range 32).map (fun q =>
      let rate := match rateCap s q with
        | some g => min g (quadGbps s q)
        | none => quadGbps s q
      { entry := ent f, code := 13, unit := 9, inst := q, avail := rate * 125 * i.period * 95 / 100
        used := (prods.filterMap (fun x => match ostream s x.ostream with
          | some o => match flow s o.dest with
            | some (.egress kind k vlan mac src dst dport sport dscp ttl piece age) =>
              if x.frame = f && !o.ring && k = q then
                some (onQuad (.egress kind k vlan mac src dst dport sport dscp ttl piece age) (planned (x.len + x.extra) o.planning))
              else none
            | _ => none
          | none => none)).sum }) ++
    [{ entry := ent f, code := 13, unit := 10, inst := 0, used := toRings f
       avail := rawRate s * i.period * 85 / 100 }])

/-- The plan's checks together, over frames up to `hi`; the jobs go on past it, so that what still names a noise set is seen. -/
def planCharges (s : State) (i : Image) (la : Nat) (puts : List Put) (jobs : List (Job × Image)) (lo from' hi : Nat)
    (ent : Nat → Nat) : List Charge :=
  let reads := readsOf puts lo hi
  let rans := ransOf s i puts reads lo hi
  let lands := (List.range 4).flatMap (landingsOf rans)
  let outs := readoutsOf jobs rans lands lo hi
  let prods := corrProds s outs ++ beamProds s rans jobs
  let on := fun (f : Nat) => decide (from' ≤ f)
  let reads' := reads.filter (fun r => on r.put.frame)
  let rans' := rans.filter (fun r => on r.put.frame)
  workCharges puts (puts.filter (fun p => on p.frame)) ent ++
  fillCharges s i reads rans' ent ++ dramCharges s i la reads' from' hi ent ++ arrayCharges i rans' ent ++
  tileCharges s i (tileSpans s jobs rans lands outs) (outs.filter (fun o => on o.1.due)) rans' ent ++
  facetCharges s prods jobs from' ent ++ packCharges s i (prods.filter (fun p => on p.frame)) from' hi ent ++
  egressCharges s i prods from' hi ent

/-- First frame of the period that the validator follows, far enough from the epoch for every lag. -/
def planStart (s : State) (i : Image) : Nat := 8 * periodFrames s i

/-- Entry of a frame. -/
def entOf (s : State) (i : Image) (f : Nat) : Nat := entryAt s i f

/-! Power (R27, R224, Table 10.5). -/

/-- A part of a charge: `used` of `avail`, times `mw`. -/
def share (mw used avail : Nat) : Nat := ceilDiv (mw * used) (max 1 avail)

/-- Words of a correlation product as it leaves the Clasp, without HALF, and their bytes. -/
def pipeBytes (p : Prod) : Nat := if p.beam then p.len else 65536 * 8

/-- Charged power in mW over `n` frames from `lo` on, with the frame-level items of an image and the other items given (R224). -/
def powerOver (s : State) (i : Image) (la : Nat) (puts : List Put) (jobs : List (Job × Image)) (lo n : Nat) : Nat :=
  let reads := readsOf puts lo (lo + n)
  let rans := ransOf s i puts [] lo (lo + n)
  let outs := readoutsOf jobs rans [] lo (lo + n)
  let prods := corrProds s outs ++ beamProds s rans jobs
  let cycles := fun (k : Nat) => ((rans.filter (fun r => r.put.item.kind = k)).map (fun r =>
    (r.stop - r.start) * (if k = 1 then 1 else (maskArrays r.put.item.unit).length))).sum
  let ns := n * i.period * 1000
  let fills := reads.length * (256 * chunkLen i.len)
  let writes := writeBytes s i * n
  let quads := ((List.range 32).map (fun k =>
    let q := quad s k
    if q.mode = .off then 0 else if q.mode = .eth200 ∨ (q.mode = .gul ∧ q.rate ≤ 1) then 3000 else 2000)).sum
  let pegs := ((List.range 16).map (fun k =>
    let l := i.items.filter (fun x => x.kind = 9 && x.unit = k)
    if l.any (fun x => x.b12 = 1) then 1700 else if l.isEmpty then 100 else 700)).sum
  let units := (i.items.filter (fun x => x.kind = 5)).length * coarseFrame s i.period
  let sum := share 92000 (cycles 1 + cycles 2) (4 * frameCycles i * n)
    + share 15 (cycles 1 * 512 + cycles 2 * 256 + fills + writes) ns + quads
    + 8000 + share 50 (fills + writes + la * n) ns + pegs
    + share 20500 units (32 * sliceRoom s i * i.entries)
    + share 250 ((prods.filter (fun p => decide (lo ≤ p.frame))).map pipeBytes).sum ns + 12000
  sum + ceilDiv sum 10

/-- Charged power in mW over one period. -/
def chargedPower (s : State) (i : Image) : Nat :=
  let lo := planStart s i
  let n := periodFrames s i
  powerOver s i (laBytes s i) (putsOf s i (fun _ => true) lo (lo + n)) (jobPuts s i (fun _ => true) (lo - n) (lo + n)) lo n

/-- Cap of the strap in mW (Table 22.4), never above 320 W. -/
def powerCapMw (s : State) : Nat := (180 + 20 * s.power.pwrcap.toNat) * 1000

/-! Verdicts. -/

/-- Every check on an image against a configuration, seam apart (R221). -/
def imageCharges (s : State) (i : Image) : List Charge :=
  let lo := planStart s i
  let n := periodFrames s i
  ingestCharges s i.period ++ formCharges s i ++ sliceCharges s i ++ spaceCharges s i ++ delayCharges s i ++ unitCharges s i ++
  bindingCharges s i ++ pegCharges s i ++ throttleCharges s i ++ runCharges s i ++ idleJobs i ++
  [failIf 1 4 0 0 (decide (s.store.laGiB * 2 ^ 30 < laState i)),
   { entry := 0, code := 15, unit := 12, inst := 0, used := chargedPower s i, avail := powerCapMw s }] ++
  planCharges s i (laBytes s i) (putsOf s i (fun _ => true) (lo - n - 3 * blockFrames s i) (lo + n))
    (jobPuts s i (fun _ => true) (lo - n - 3 * blockFrames s i) (lo + n + 4 * blockFrames s i)) (lo - n - 3 * blockFrames s i) lo (lo + n) (entOf s i)

/-- READY-only parameters that a switch must leave (R229). -/
def sameFixed (i j : Image) : Bool :=
  i.direct = j.direct && i.period = j.period && i.len = j.len && i.blocks = j.blocks && i.wide = j.wide &&
    decide (i.channels = j.channels)

/-- The verdict on an image (R217, R222); while a schedule runs, one whose READY-only parameters differ from it is REJECTED, a change
of route among them (R9, Table 10.4). -/
def verdict (s : State) (i : Image) : Verdict :=
  let fixed := match s.sched.running with
    | some r => observing s && !sameFixed r i
    | none => false
  verdictOf (failIf 2 3 0 0 fixed :: imageCharges s i)

/-- The schedules that still give items, each with the data blocks that it gives: those that switches have replaced, oldest first, and
the running one (R228). -/
def givers (s : State) : List (Image × Nat × Option Nat) :=
  let l := s.sched.seam
  let starts := 0 :: l.map (·.2)
  (l.zip starts).map (fun e => (e.1.1, e.2, some e.1.2)) ++ (match s.sched.running with
    | some i => [(i, starts.getLastD 0, none)]
    | none => [])

/-- The seam at block `k` (R228): every schedule's items combined in the frames until the last Pack item of block k − 1, against every
charge of Table 10.3. -/
def seamCharges (s : State) (l : List (Image × Nat × Option Nat)) (new : Image) (k : Nat) : List Charge :=
  let b := blockFrames s new
  let from' := k * b
  let lo := from' - 4 * b
  let hi := (k + 1) * b + fillLag s new + 2
  let keep := fun (e : Image × Nat × Option Nat) (m : Nat) =>
    decide (e.2.1 ≤ m) && decide (m < min k (e.2.2.getD k))
  let puts := l.flatMap (fun e => putsOf s e.1 (keep e) lo hi) ++ putsOf s new (fun m => decide (k ≤ m)) from' hi
  let jobs := l.flatMap (fun e => jobPuts s e.1 (keep e) lo (hi + 4 * b)) ++ jobPuts s new (fun m => decide (k ≤ m)) from' (hi + 4 * b)
  let la := l.foldl (fun m e => max m (laBytes s e.1)) (laBytes s new)
  let power : Charge := { entry := entOf s new from', code := 15, unit := 12, inst := 0, avail := powerCapMw s
                          used := powerOver s new la (puts.filter (fun p => decide (from' ≤ p.frame))) jobs from' (hi - from') }
  (power :: planCharges s new la puts jobs lo from' hi (entOf s new)).map (fun c => { c with code := 0x13 })

end Sys2Proof.Machine
end

