-- ==== Sys2Proof/Machine/Settings.lean ====
section
/-! DEFINITION. The settings that a transaction can stage (R234, R237), the settings of the schedule and of the peg services
among them, and their application in doorbell order. -/

namespace Sys2Proof.Machine

/-! SCHED.SELECT (R216, R227). -/

/-- A slot holds a VALID image of a kind (R216). -/
def slotValid (s : State) (k : Nat) (throttle : Bool) : Bool :=
  match (schedSlot s k).image, (schedSlot s k).verdict with
  | some i, some v => v.code.isNone && i.throttle = throttle
  | _, _ => false

/-- A load into a slot that has not completed (R216, R376). -/
def slotLoading (s : State) (k : Nat) : Bool :=
  s.loads.any (fun l => match l.cmd with
    | .schedLoad q => u8 q.arg 24 = k
    | _ => false) || s.sched.verdictQueue.any (fun v => v.1 = k)

/-- SCHED.SELECT (R216, R227): a committed slot, and a throttle slot or 0xFF for NULL. It names the slots; a schedule comes
into force only with the commit that carries the selection. A slot that is being loaded is BUSY (R376), and one that holds no VALID image of its kind
cannot be selected: CONFLICT; both when the selection applies in READY or its commit is accepted (log 39). -/
def specSchedSelect : Spec :=
  { opcode := 0x0601, cls := fun _ => .txn, layout := layoutBad [(0, 1), (1, 1)]
    range := fun _ a => firstBad [(decide (u8 a 0 ≤ 3), 0), (u8 a 1 = 0xFF || decide (u8 a 1 ≤ 3), 1)]
    resource := fun s q =>
      if slotLoading s (u8 q.arg 0) || slotLoading s (u8 q.arg 1) then some (.busy, 0)
      else (firstBad [(slotValid s (u8 q.arg 0) false, 0), (u8 q.arg 1 = 0xFF || slotValid s (u8 q.arg 1) true, 1)]).map
        (fun o => (.conflict, o))
    act := fun q s => { s with
      sched.committed := some (u8 q.arg 0)
      sched.throttle := if u8 q.arg 1 = 0xFF then none else some (u8 q.arg 1) } }

/-- SCHED_SELECT. -/
def execSchedSelect (q : Request) (s : State) : Out := kenra (.schedSelect q) specSchedSelect q s

/-! PEG.SERVICE.CONFIG (R267). -/

/-- PEG.SERVICE.CONFIG (R267): SEL pitches; none, or a service in Table 11.9 order. -/
def specPegServiceConfig : Spec :=
  { opcode := 0x060E, same := fun a b => selCovers a b
    cls := fun _ => .txn, layout := layoutBad (selForm ++ [(8, 1)])
    range := fun _ a => firstBad [(selOk 16 a, 0), (decide (u8 a 8 ≤ 5), 8)]
    act := fun q s => (selected q.arg).foldl (fun s k =>
      let s := { s with peg.services := tabSet (serviceDefault k) s.peg.services k (u8 q.arg 8) }
      (numbers (16 * k) 16).foldl (fun s p => loadService (u8 q.arg 8) p s) s) s }

/-- PEG_SERVICE_CONFIG. -/
def execPegServiceConfig (q : Request) (s : State) : Out := kenra (.pegServiceConfig q) specPegServiceConfig q s

/-! Staged commands. -/

/-- What the tables say of a command that a transaction can stage, with its request. -/
def settingOf (c : Instr) : Option (Spec × Request) :=
  match c with
  | .arrayConfig q => some (specArrayConfig, q)
  | .arrayTest q => some (specArrayTest, q)
  | .beamConfig q => some (specBeamConfig, q)
  | .beamWatch q => some (specBeamWatch, q)
  | .fwKeyEnroll q => some (specFwKeyEnroll, q)
  | .chanConfig q => some (specChanConfig, q)
  | .chanCoefSwap q => some (specChanCoefSwap, q)
  | .chanGainMode q => some (specChanGainMode, q)
  | .chanGainSet q => some (specChanGainSet, q)
  | .claspConfig q => some (specClaspConfig, q)
  | .claspTableLoad q => some (specClaspTableLoad, q)
  | .claspCurveLoad q => some (specClaspCurveLoad, q)
  | .timeSet q => some (specTimeSet, q)
  | .ptpRelayConfig q => some (specPtpRelayConfig, q)
  | .dramConfig q => some (specDramConfig, q)
  | .dramRetrain q => some (specDramRetrain, q)
  | .facetConfig q => some (specFacetConfig, q)
  | .ingestConfig q => some (specIngestConfig, q)
  | .streamConfig q => some (specStreamConfig, q)
  | .streamEnable q => some (specStreamEnable, q)
  | .streamDisable q => some (specStreamDisable, q)
  | .flowSet q => some (specFlowSet, q)
  | .laneConfig q => some (specLaneConfig, q)
  | .ethConfig q => some (specEthConfig, q)
  | .ostreamConfig q => some (specOstreamConfig, q)
  | .egressConfig q => some (specEgressConfig, q)
  | .hostringConfig q => some (specHostringConfig, q)
  | .packConfig q => some (specPackConfig, q)
  | .storeConfig q => some (specStoreConfig, q)
  | .twinConfig q => some (specTwinConfig, q)
  | .schedSelect q => some (specSchedSelect, q)
  | .pegServiceConfig q => some (specPegServiceConfig, q)
  | _ => none

/-- Applies a staged command: a load's decoded data, or the command's own effect; one that completes by event begins with
the commit that applies it (R238). -/
def applyOne (s : State) (e : Instr × List Byte) : State :=
  match e.1, settingOf e.1 with
  | .chanGainSet q, _ => applyGains q e.2 s
  | .claspTableLoad q, _ => applyTable q e.2 s
  | .claspCurveLoad q, _ => applyCurve q e.2 s
  | c, some (k, q) => k.act q (if k.event then owe c q s else s)
  | _, none => s

/-- Staged commands in doorbell order (R237). -/
def applyAll (l : List (Instr × List Byte)) (s : State) : State := l.foldl applyOne s

/-- Resource check of a staged command in a state `s` where those before it stand; of STREAM.CONFIG in the configuration `t` that the
commit leaves, whose rates the commit's validation judges (R36, R221). A load's checks were made when it was begun. -/
def stagedCheck (t s : State) (k : Spec) (q : Request) (c : Instr) : Option (Status × Nat) :=
  match c with
  | .streamConfig _ => match streamBad t q.arg with
    | some o => some (.range, o)
    | none => firstFail [(!allowConflict s (streamConfigAct q.arg s), .conflict)]
  | _ => if k.load then none else k.resource s q

/-- First failing resource check of staged commands, each made once those before it stand (R237; log 37); `t` is the configuration that
the commit leaves. -/
def stagedFail (t : State) : List (Instr × List Byte) → State → Option (Status × Nat)
  | [], _ => none
  | e :: l, s =>
    match settingOf e.1 with
    | none => stagedFail t l (applyOne s e)
    | some (k, q) =>
      match stagedCheck t s k q e.1 with
      | some x => some x
      | none => stagedFail t l (applyOne s e)

/-! The configuration that a commit would leave (R12, R221). -/

/-- The selection among staged commands, the last one standing: committed and throttle slots. -/
def stagedSelect (l : List (Instr × List Byte)) : Option Request :=
  l.foldl (fun (o : Option Request) e => match e.1 with
    | .schedSelect q => some q
    | _ => o) none

/-- The image that staged commands select. -/
def stagedImage (s : State) : Option Image := (stagedSelect s.sched.staged).bind (fun q => (schedSlot s (u8 q.arg 0)).image)

/-- The state at which staged commands are tried: frames are counted in the period of the schedule selected (R12). -/
def trialBase (s : State) : State :=
  match stagedImage s with
  | some i => { s with time.period := i.period, time.frame := s.time.frame * s.time.period / max 1 i.period }
  | none => s

/-- The configuration as the commit would leave it. -/
def trial (s : State) : State := applyAll s.sched.staged (trialBase s)

end Sys2Proof.Machine
end

