-- ==== Sys2Proof/Machine/Txn.lean ====
section
/-! DEFINITION. Transactions (R12, R221, R227 to R229, R236 to R241): their commands, the validation of a commit, and what
tick n_a applies. -/

namespace Sys2Proof.Machine

/-! TXN.BEGIN (R236). -/

/-- The id after `n` given ones: they rise from 1, and skip 0 when they wrap. `lastId` counts them without wrapping. -/
def idOf (n : Nat) : Nat := (n - 1) % (2 ^ 32 - 1) + 1

/-- TXN.BEGIN (R236). -/
def specTxnBegin : Spec :=
  { opcode := 0x0100, layout := noArg
    allowed := fun d => d = .ready || d = .observing || d = .degraded
    resource := fun s _ => firstFail [(decide (s.sched.txn = .none), .busy)]
    txnOut := fun s => idOf (s.sched.lastId + 1)
    act := fun _ s => { s with
      sched.txn := .opened (idOf (s.sched.lastId + 1)), sched.lastId := s.sched.lastId + 1
      sched.staged := [], sched.lastUse := s.time.tb2 } }

/-- TXN_BEGIN. -/
def execTxnBegin (q : Request) (s : State) : Out := kenra (.txnBegin q) specTxnBegin q s

/-! TXN.COMMIT (R238, R323). -/

/-- The image that comes into force with the commit: one selected in READY, or one other than the running one. -/
def newImage (s : State) : Option Image :=
  match stagedImage s with
  | some i => if observing s && s.sched.running = some i then none else some i
  | none => none

/-- A staged command changes the preset or P, or a sample width (R482, Table 5.7). -/
def needsBoundary (s : State) : Bool :=
  (newImage s).isSome || s.sched.staged.any (fun e => match e.1 with
    | .chanConfig q => cellOr q.arg 8 0 s.chan.preset ≠ s.chan.preset || cellOr q.arg 8 1 s.chan.p ≠ s.chan.p
    | .arrayConfig q => (selected q.arg).any (fun k => cellOr q.arg 8 0 (bit (array s k).wide) ≠ bit (array s k).wide)
    | _ => false)

/-- Time between block boundaries in µs: of the schedule selected, under the configuration that the commit leaves, or of the
one in force; without either every tick is one (R12, R238; log 39). -/
def boundarySpan (s : State) : Nat :=
  match newImage s with
  | some i => max 1 (blockFrames (trial s) i) * i.period
  | none => match s.sched.running with
    | some i => max 1 (blockFrames s i) * i.period
    | none => s.time.period

/-- The first block boundary at or after frame `n`, in the present period. -/
def nextBoundary (s : State) (n : Nat) : Nat :=
  let u := boundarySpan s / Nat.gcd (boundarySpan s) s.time.period
  ceilDiv n (max 1 u) * max 1 u

/-- The COMMIT trigger that a commit names, armed on TB0 (R323). -/
def commitTrigger (s : State) (a : List Byte) : Option Trigger :=
  (trigger s (u8 a 8)).filter (fun t => t.action = .commit && !t.onTb2)

/-- n_a of a commit (R238, R323); none where it names a trigger that is not an armed COMMIT trigger. -/
def commitFrame (s : State) (a : List Byte) : Option Nat :=
  if u8 a 8 ≠ 0xFF then (commitTrigger s a).map (fun t => ceilDiv t.time (periodNs s))
  else if u64 a 0 = 2 ^ 64 - 1 then some (nextBoundary s (s.time.frame + 2))
  else some (u64 a 0)

/-- n_a passes a test, or there is none. -/
def commitTest (s : State) (a : List Byte) (p : Nat → Bool) : Bool :=
  match commitFrame s a with
  | some n => p n
  | none => true

/-- TXN.COMMIT (R238, R323): a trigger that is not armed for a commit is CONFLICT (no status is given: log 39). -/
def specTxnCommit : Spec :=
  { opcode := 0x0101, txn := .commit, event := true, layout := layoutBad [(0, 8), (8, 1)]
    range := fun s a => firstBad [(decide (u8 a 8 ≤ 15) || u8 a 8 = 0xFF, 8),
      (commitTest s a (fun n => decide (n ≤ s.time.frame + 2 ^ 20)), 0),
      (!needsBoundary s || commitTest s a (fun n => n * s.time.period % boundarySpan s = 0), 0)]
    resource := fun s q =>
      match firstFail [((commitFrame s q.arg).isSome, .conflict),
          (commitTest s q.arg (fun n => decide (s.time.frame + 2 ≤ n)), .late)] with
      | some x => some x
      | none => stagedFail (trial s) s.sched.staged (trialBase s)
    result := fun s q => leBytes 8 ((commitFrame s q.arg).getD 0)
    act := fun q s => { s with
      sched.txn := .pending q.txnId.toNat
      sched.commit := some { na := (commitFrame s q.arg).getD 0, req := q, accepted := s.time.frame, validated := false
                             trigger := if u8 q.arg 8 = 0xFF then none else some (u8 q.arg 8) } } }

/-- TXN_COMMIT. -/
def execTxnCommit (q : Request) (s : State) : Out := kenra (.txnCommit q) specTxnCommit q s

/-- TXN.ROLLBACK (R239). -/
def specTxnRollback : Spec :=
  { opcode := 0x0102, txn := .rollback, layout := noArg
    resource := fun s _ => firstFail [((match s.sched.commit with
      | some c => decide (s.time.frame + 2 ≤ c.na)
      | none => true), .tooLate)]
    act := fun _ s => match s.sched.txn with
      | .pending _ => rejectCommit .rolledBack 0 s
      | _ => { s with sched.txn := .none, sched.staged := [] } }

/-- TXN_ROLLBACK. -/
def execTxnRollback (q : Request) (s : State) : Out := kenra (.txnRollback q) specTxnRollback q s

/-- TXN_EXPIRY (R240): 10 s after the last command that carried its id an open transaction is rolled back. -/
def execTxnExpiry (s : State) : Out := whenOn (fun s =>
  match s.sched.txn with
  | .opened _ => expireTxn (elapseTo (s.sched.lastUse + 10000000000) s)
  | _ => s) s

/-! Validation of a commit (R221, R229, R241, R482). -/

/-- The throttle slot selected beside a committed schedule is NULL or built for it (R241). -/
def throttleFits (s : State) (q : Request) (i : Image) : Bool :=
  u8 q.arg 1 = 0xFF || slotValid s (u8 q.arg 1) true && (match (schedSlot s (u8 q.arg 1)).image with
    | some t => t.parent = i.identity
    | none => false)

/-- Checks that fail under the configuration left, and did not fail just so before (R221). -/
def newFailures (before after : List Charge) : List Charge :=
  let old := before.filter Charge.over
  (after.filter Charge.over).filter (fun c => !old.contains c)

/-- The throttle schedule that stands beside the committed one after the commit. -/
def throttleAfter (s : State) : Option Image :=
  match stagedSelect s.sched.staged with
  | some q => if u8 q.arg 1 = 0xFF then none else (schedSlot s (u8 q.arg 1)).image
  | none => s.sched.throttle.bind (fun k => (schedSlot s k).image)

/-- Checks that a commit at frame `na` makes (R36, R221, R228, R230, R241, R482; to or from PASS is a change of P, which counts as 1
there): on the schedule that it brings or leaves in force, on the
throttle schedule beside it, and on the streams that it leaves enabled together. -/
def commitCharges (s : State) (na : Nat) : List Charge :=
  let t := trial s
  let held := failIf 2 1 0 0 (observing s && (t.chan.p ≠ s.chan.p || branches t ≠ branches s))
  let fits := match stagedSelect s.sched.staged, stagedImage s with
    | some q, some i => [failIf 0x12 3 0 0 (!throttleFits s q i)]
    | _, _ => []
  held :: failIf 3 0 0 0 (!ratesOk t.ingest.streams) :: fits ++
  (match throttleAfter s with
   | some i => newFailures (imageCharges s i) (imageCharges t i)
   | none => []) ++
  (match newImage s with
   | some i => imageCharges t i ++ (match s.sched.running with
     | some old => failIf 2 3 0 0 (!sameFixed old i) :: seamCharges t (givers s) i (na / max 1 (blockFrames t i))
     | none => [])
   | none => match inForce s with
     | some i => newFailures (imageCharges s i) (imageCharges t i)
     | none => newFailures (ingestCharges s s.time.period) (ingestCharges t s.time.period))

/-- Validation that ends too late (R238). -/
def validationLate (s : State) (c : Commit) : Bool := decide (c.na ≤ s.time.frame + 1)

/-- TXN_VALIDATION_DONE (R221, R238): the pending transaction is rejected with the check code, or stays pending. -/
def validated (s : State) : State :=
  match s.sched.commit with
  | none => s
  | some c =>
    if c.validated then s
    else if validationLate s c then rejectCommit .rejected 0x14 s
    else match (worst (commitCharges s c.na)).map (·.code) with
      | some x => rejectCommit .rejected x s
      | none => { s with sched.commit := some { c with validated := true } }

/-- TXN_VALIDATION_DONE. -/
def execTxnValidationDone (s : State) : Out := whenOn validated s

/-! Tick n_a (R12, R227, R228, R238). -/

/-- A change of state or a report that takes effect at the coming tick carries its frame (R22, R369). -/
def atTick (f : State → State) (s : State) : State :=
  { f { s with time.frame := s.time.frame + 1 } with time.frame := s.time.frame }

/-- A back buffer of the coming frame, under its number in the new period; those of other frames go (R12, R418). -/
def renameBack {α : Type} (coming : Nat) (g : Nat → Nat) (x : Option (Nat × α)) : Option (Nat × α) :=
  (x.filter (fun b => b.1 = coming)).map (fun b => (g b.1, b.2))

/-- Frames renumbered in a new period (R12). -/
def renumber (old new : Nat) (s : State) : State :=
  let g := fun (f : Nat) => f * old / max 1 new
  let rec' := fun (r : Rec) => { r with frame := g r.frame }
  let coming := s.time.frame + 1
  { s with
    time.period := new, time.frame := g (s.time.frame + 1) - 1
    compass.stepFrom := s.compass.stepFrom.map g, compass.stepTo := g s.compass.stepTo
    ingest.delays := tabMap {} (fun (x : DelayLine) => { x with
      back := renameBack coming g x.back, frames := x.frames.map (fun y => (g y.1, y.2)) }) s.ingest.delays
    chan.units := tabMap {} (fun (x : ChanUnit) => { x with
      rots := x.rots.map (fun y => (g y.1, y.2)), gains := x.gains.map (fun y => (g y.1, y.2))
      rotBack := renameBack coming g x.rotBack, gainBack := renameBack coming g x.gainBack, missed := [], expired := [] }) s.chan.units
    chan.slices := tabMap {} (fun (x : Slice) => { x with
      swaps := x.swaps.map (fun w => { w with frame := g w.frame }) }) s.chan.slices
    peg.back := []
    out.quads := tabMap {} (fun (x : EgressQuad) => { x with queue := x.queue.map (fun y => (rec' y.1, y.2)) }) s.out.quads
    out.rings := tabMap none (fun (x : Option HostRing) => x.map (fun r => { r with queue := r.queue.map rec' })) s.out.rings
    twin.takeoverAt := s.twin.takeoverAt.map g, twin.reclaimAt := s.twin.reclaimAt.map g
    twin.handoverAt := s.twin.handoverAt.map g, twin.ckpt := s.twin.ckpt.map (fun x => (g x.1, x.2))
    twin.pieceFrame := g s.twin.pieceFrame }

/-- Compression as the bindings of a schedule give it (Table 8.7). -/
def setCompress (i : Image) (s : State) : State :=
  { s with pack.compress := (bindings i).foldl (fun t b => tabSet false t b.2.1 (b.2.2.1 = 1)) [] }

/-- In READY a schedule selected comes into force at tick n_a: OBSERVING, or DEGRADED where a cause calls for it; not where
SAFE is called for at the same tick (R20, R227). -/
def startSchedule (i : Image) (s : State) : State :=
  if s.dev.safeAt.isSome then s
  else
    let k := (s.time.frame + 1) / max 1 (blockFrames s i)
    let lag := fillLag s i
    let s := setCompress i { s with
      sched.lag := lag, store.directNext := ceilDiv (s.time.frame + 1 - lag) (max 1 (blockFrames s i)) - 1
      beam.begunBlock := none
      sched.running := some i, sched.seam := [], sched.firstBlock := k, sched.cuts := [k], sched.stormRun := []
      sched.shed := [], sched.begun := [], sched.work := [], dev.clearFrames := 0 }
    atTick (setState (if s.dev.causes.isEmpty then .observing else .degraded) 3) s

/-- While observing a new committed schedule takes over block by block; schedules that earlier switches replaced go on with the blocks
that they still hold (R228). -/
def switchSchedule (old i : Image) (s : State) : State :=
  let k := (s.time.frame + 1) / max 1 (blockFrames s i)
  setCompress i (count .seams 0 { s with
    sched.running := some i, sched.seam := s.sched.seam ++ [(old, k)]
    sched.cuts := s.sched.cuts.filter (fun c => decide (k < c + 128)) ++ [k] })

/-- The fill lag that the schedule in force has been validated with (R82, R235). -/
def setLag (s : State) : State :=
  match s.sched.running with
  | some i => { s with sched.lag := fillLag s i }
  | none => s

/-- The transaction is applied whole, and TXN_APPLIED closes its commit (R238). -/
def applyCommit (id : Nat) (c : Commit) (s : State) : State :=
  let new := newImage s
  let staged := s.sched.staged
  let bytes := stagedBytes s
  let s := match new with
    | some i => if i.period = s.time.period then s else renumber s.time.period i.period s
    | none => s
  let s := settle (.txnCommit c.req) c.req { s with sched.txn := .none, sched.commit := none, sched.staged := [] }
  let s := applyAll staged s
  let s := match new, s.sched.running with
    | some i, some old => if observing s then switchSchedule old i s else startSchedule i s
    | some i, none => startSchedule i s
    | none, _ => s
  count .commitsApplied 0 (atTick (complete 0x0100 0 0x0101 c.req id .ok bytes 0 []) (setLag s))

/-- The commit would put a swap in force on a slice with a coefficient load in progress: one staged, or one of the schedule that it
selects (R65). -/
def swapBlocked (s : State) : Bool :=
  s.sched.staged.any (fun e => match e.1 with
    | .chanCoefSwap q => (selected q.arg).any (coefLoading s)
    | _ => false) ||
  (newImage s).any (fun i => i.items.any (fun x => x.kind = 6 && coefLoading s x.unit))

/-- The pending transaction is validated, and its n_a is the coming tick. -/
def commitReady (s : State) : Bool :=
  match s.sched.txn, s.sched.commit with
  | .pending _, some c => c.validated && decide (c.na ≤ s.time.frame + 1)
  | _, _ => false

/-- The pending transaction takes effect at the coming tick: it is validated, and the tick is n_a (R238). A swap that a load begun since
bars rejects it with CONFLICT (R65). -/
def commitDue (s : State) : State :=
  match s.sched.txn, s.sched.commit with
  | .pending id, some c =>
    if !commitReady s then s else if swapBlocked s then rejectCommit .conflict 0 s else applyCommit id c s
  | _, _ => s

/-- A commit whose validation has not ended by tick n_a − 1 is rejected with LATE (R238). -/
def commitLate (s : State) : State :=
  match s.sched.commit with
  | some c => if !c.validated && validationLate s c then rejectCommit .rejected 0x14 s else s
  | none => s

end Sys2Proof.Machine
end

