-- ==== Sys2Proof/Machine/Sched.lean ====
section
/-! DEFINITION. The SCHED commands (R216, R217, R222, R226, R233, R241, R242). -/

namespace Sys2Proof.Machine

/-! SCHED.LOAD (R216, R217). -/

/-- A slot is in use (R216). -/
def slotInUse (s : State) (k : Nat) : Bool :=
  s.sched.committed = some k || s.sched.throttle = some k ||
  (match s.sched.txn, stagedSelect s.sched.staged with
   | .pending _, some q => u8 q.arg 0 = k || u8 q.arg 1 = k
   | _, _ => false)

/-- Images on their way to a slot, with their declared lengths. -/
def loadingImages (s : State) : List (Nat × Nat) :=
  s.loads.filterMap (fun l => match l.cmd with
    | .schedLoad q => some (u8 q.arg 24, u32 q.arg 16)
    | _ => none) ++ s.sched.verdictQueue.map (fun e => (e.1, e.2.2.length))

/-- SCHED.LOAD (R216, R341): its two copies must fit in what is free of the service region. -/
def specSchedLoad : Spec :=
  { opcode := 0x0600, event := true, layout := layoutBad (loadForm 0 ++ [(24, 1)])
    range := fun s a => firstBad (loadRange s [1, 2] a 0 ++
      [(decide (u32 a 16 ≤ 2 ^ 28), 16), (decide (u8 a 24 ≤ 3), 24)])
    resource := fun s q => firstFail ((!slotInUse s (u8 q.arg 24) && !slotLoading s (u8 q.arg 24), .busy) ::
      loadChecks s q 0 ++ [(decide (twoCopies (u32 q.arg 16) ≤ freeService s (u8 q.arg 24) (loadingImages s)), .noSpace)])
    act := beginLoad .schedLoad 0 }

/-- SCHED_LOAD. -/
def execSchedLoad (q : Request) (s : State) : Out := kenra (.schedLoad q) specSchedLoad q s

/-- Least margin of a VALID verdict, or the failing entry (R222, Table 16.8; the margin in millionths: log 38). -/
def verdictReport (v : Verdict) : Nat :=
  match v.code with
  | some _ => v.entry
  | none => v.margins.foldl min 1000000

/-- SCHED_LOAD_VERDICT (R217, R222, R341): the oldest image waiting is validated and stored in its two copies with its verdict, which
completes its load. -/
def execSchedLoadVerdict (s : State) : Out := whenOn (fun s =>
  match s.sched.verdictQueue with
  | [] => s
  | (k, q, data) :: rest =>
    let image := parseImage data
    let v := match image with
      | some i => verdict s i
      | none => formatVerdict
    let s := { s with
      sched.verdictQueue := rest
      sched.slots := tabSet {} s.sched.slots k { image := image, verdict := some v, size := u32 q.arg 16 }
      dram.badCopies := s.dram.badCopies.filter (fun e => e.1 ≠ k) }
    let s := putCopies k data s
    finish (.schedLoad q) 0x0600 q (if v.code.isNone then .ok else .rejected) (u32 q.arg 16) (v.code.getD 0)
      ([0, 0, 0] ++ leBytes 8 (verdictReport v)) s) s

/-! SCHED.CONFIG, SHED and STOP (R226, R233, R241). -/

/-- SCHED.CONFIG (R226): a unit whose run is already as long as the new F meets it at once. -/
def specSchedConfig : Spec :=
  { opcode := 0x0602, layout := layoutBad [(0, 2)]
    range := fun _ a => firstBad [(decide (1 ≤ u16 a 0) && decide (u16 a 0 ≤ 1024), 0)]
    act := fun q s => checkStorms { s with sched.stormF := u16 q.arg 0 } }

/-- SCHED_CONFIG. -/
def execSchedConfig (q : Request) (s : State) : Out := kenra (.schedConfig q) specSchedConfig q s

/-- SCHED.SHED (R233): raises the cause, or withdraws it. -/
def specSchedShed : Spec :=
  { opcode := 0x0603, layout := layoutBad [(0, 1)]
    range := fun _ a => firstBad [(decide (u8 a 0 ≤ 1), 0)]
    act := fun q s => setCause .shed (decide (u8 q.arg 0 = 0)) s }

/-- SCHED_SHED. -/
def execSchedShed (q : Request) (s : State) : Out := kenra (.schedShed q) specSchedShed q s

/-- SCHED.STOP (R12, R61, R241): its tick is fixed as a TB0 time; a commit at or after it is rejected with STOPPED. -/
def specSchedStop : Spec :=
  { opcode := 0x0604, layout := layoutBad [(0, 8)]
    resource := fun s q => firstFail [(decide (s.time.frame + 2 ≤ u64 q.arg 0), .late)]
    act := fun q s =>
      let s := { s with dev.stopAt := some (tickTime s (u64 q.arg 0)) }
      match s.sched.commit with
      | some c => if u64 q.arg 0 ≤ c.na then rejectCommit .stopped 0 s else s
      | none => s }

/-- SCHED_STOP. -/
def execSchedStop (q : Request) (s : State) : Out := kenra (.schedStop q) specSchedStop q s

/-! SCHED.STATUS (R242). -/

/-- Unit kinds that abandon work, in the order of Table 10.3: channeliser, store, arrays with beams, Clasp, Pack, pegs (log 39). -/
def abandonKinds : List Nat := [6, 0, 1, 2, 4, 5]

/-- A load or commit is being validated. -/
def validating (s : State) : Bool :=
  !s.sched.verdictQueue.isEmpty || (match s.sched.commit with
    | some c => !c.validated
    | none => false)

/-- Schedule status word (Table 10.8). -/
def schedWord (s : State) : Nat :=
  bit s.sched.running.isSome * 65536 + s.sched.sticky.toNat + bit (!s.sched.seam.isEmpty) * 8192 + bit s.sched.throttled * 4096
    + bit s.sched.throttle.isNone * 2048 + bit (pendingId s).isSome * 1024 + bit (openId s).isSome * 512
    + bit (validating s) * 256 + s.sched.throttle.getD 0 * 64 + s.sched.committed.getD 0 * 16
    + ((List.range 4).map (fun k => bit (slotValid s k false || slotValid s k true) * 2 ^ k)).sum

/-- Counters of R242, each with its instance. -/
def schedCtrs : List (Ctr × Nat) :=
  abandonKinds.map (fun k => (.abandons, k)) ++ [(.shedProducts, 0), (.commitsApplied, 0)] ++
    (numbers 1 20).map (fun c => (.commitsRejected, c)) ++ [(.txnExpired, 0), (.seams, 0)]

/-- A slot's verdict and report: 0 empty, 1 being validated, 2 VALID, 3 REJECTED; code, entry, unit kind, instance, charged,
available, and the 14 margins (log 39). -/
def slotReport (s : State) (k : Nat) : List Nat :=
  let state := if slotLoading s k then 1 else match (schedSlot s k).verdict with
    | none => 0
    | some v => if v.code.isNone then 2 else 3
  match (schedSlot s k).verdict with
  | none => state :: List.replicate 20 0
  | some v => [state, v.code.getD 0, v.entry, v.unit, v.inst, v.used, v.avail] ++
      (List.range 14).map (fun i => v.margins.getD i 0)

/-- Values of SCHED.STATUS: counters, slot reports, and the transaction's id, n_a and staged bytes. -/
def schedValues (s : State) : List Nat :=
  schedCtrs.map (fun c => counter c.1 c.2 s) ++ (List.range 4).flatMap (slotReport s) ++
    [((openId s).or (pendingId s)).getD 0, (s.sched.commit.map (·.na)).getD 0, stagedBytes s]

/-- SCHED.STATUS (R242). -/
def specSchedStatus : Spec :=
  { opcode := 0x0605, layout := statusLayout, sampled := true, range := fun _ a => firstBad [(selCount a = 0, 2)]
    result := fun s q => statusResult q.arg (fun _ => schedWord s) (fun _ => schedValues s)
    act := fun q s =>
      let s := if statusClear q.arg then schedCtrs.foldl (fun s c => clearCtr c.1 c.2 s) s else s
      if statusAck q.arg then { s with sched.sticky := 0 } else s }

/-- SCHED_STATUS. -/
def execSchedStatus (q : Request) (s : State) : Out := kenra (.schedStatus q) specSchedStatus q s

end Sys2Proof.Machine
end

