-- ==== Sys2Proof/Machine/Stop.lean ====
section
/-! DEFINITION. Work that a frame is given and work that is taken from it: the items of a frame (R218, R228), the throttle with
its SHED products (R231, R232), and the stop of the data path with its STOPPED products (R201). -/

namespace Sys2Proof.Machine

/-! Items of a frame (R218, R228). -/

/-- Items of an image that run at its entry for frame `n`. -/
def entryItems (s : State) (i : Image) (n : Nat) : List SchedItem :=
  i.items.filter (fun x => decide (1 ≤ x.kind) && decide (x.kind ≤ 4) && x.entry = entryAt s i n)

/-- Images whose items a frame runs, each with whether a switch has replaced it and the test of the data blocks that it gives: an old
one those before the switch's first block, the running one those from it on (R228). -/
def sources (s : State) : List (Image × Bool × (Nat → Bool)) :=
  (givers s).map (fun e => (e.1, e.2.2.isSome, fun m => decide (e.2.1 ≤ m) && (match e.2.2 with
    | some k => decide (m < k)
    | none => true)))

/-- Chunk reads, passes and segments of frame `n`, in the schedule's order. -/
def frameWork (s : State) (n : Nat) : List Work :=
  (sources s).flatMap (fun e => ((entryItems s e.1 n).filter (fun x => x.kind ≠ 4)).filterMap (fun x =>
    (dataBlock s e.1 n x).bind (fun m => if e.2.2 m then some { item := x, block := m, old := e.2.1 } else none)))

/-- Clasp jobs that begin in frame `n`, each with its item. Jobs of data blocks before the first form no records (R227). -/
def frameJobs (s : State) (n : Nat) : List (Job × SchedItem) :=
  (sources s).flatMap (fun e => ((entryItems s e.1 n).filter (fun x => x.kind = 4)).filterMap (fun x =>
    (jobAt s e.1 n x).bind (fun j => if e.2.2 j.block then
      some ({ j with silent := decide (j.block < s.sched.firstBlock) }, x) else none)))

/-! The throttle (R231). -/

/-- The throttle runs an item: never with NULL, else where its image holds the same item. -/
def throttleKeeps (s : State) (x : SchedItem) : Bool :=
  match s.sched.throttle with
  | none => false
  | some k => match (schedSlot s k).image with
    | some t => t.items.contains x
    | none => false

/-- The item runs. -/
def itemKept (s : State) (x : SchedItem) : Bool := !s.sched.throttled || throttleKeeps s x

/-- A correlation job's product is SHED (R231). -/
def shedJob (s : State) (id : Nat × Nat) : State :=
  match s.clasp.jobs.find? (isJob id) with
  | none => s
  | some j =>
    match imageOf s j.block with
    | none => s
    | some i =>
      if j.kind = .longAcc then voidLa i j 0x0D s
      else if j.gap.isSome then s
      else
        let s := if j.silent then s else count .shedProducts 0 s
        modJobs (isJob id) (fun j => { j with gap := some 0x0D }) s

/-- Segments' products are SHED, and their gap records take the place that the committed schedule gives them (R201); rounds that the
throttle holds still run (R231, R232). -/
def shedSegments (l : List Work) (s : State) : State :=
  let segs := segsOf s l 0x0D
  let keys := segs.map (fun e => segKey e.job.pos e.job.block e.set e.m)
  let n := (segs.filter (fun e => decide (s.sched.firstBlock ≤ e.job.block))).length
  let s := countN .shedProducts 0 n { s with sched.shed := s.sched.shed ++ keys }
  let kept := segsOf s (s.sched.work.filter (fun w => w.item.kind = 2)) 0
  let ahead := fun (e : LostSeg) => (kept.filter (fun k => lostBefore k e)).map (fun k => (k.job.pos, k.job.block, k.set, k.m))
  let later := (segs.mergeSort lostBefore).map (fun e => ({ job := e.job, set := e.set, m := e.m, before := ahead e } : ShedSeg))
  let s := { s with beam.shedLater := s.beam.shedLater ++ later }
  settleShed s.beam.shedLater s

/-- The throttle omits the job item of a kind that a segment's product of it follows (R231). -/
def siblingShed (s : State) (w : Work) (k : Nat) : Bool :=
  match imageOf s w.block with
  | none => false
  | some i => match segJob s i w with
    | none => false
    | some j => i.items.any (fun x => x.kind = 4 && x.b8 = k && x.entry = entryAt s i j.frame && x.chan = j.pos && !itemKept s x)

/-- A segment whose powers the omitted job item would have detected: none of its products is left (R231). -/
def detectShed (s : State) (w : Work) : Bool := (beamSet s w.item.b8).power && siblingShed s w 4

/-- Products of segments that still run but have lost the job item of their own: the statistics of voltage beams, and peak lists
(R231). -/
def shedSiblings (s : State) (w : Work) : State :=
  match imageOf s w.block with
  | none => s
  | some i => match segJob s i w with
    | none => s
    | some j =>
      let stats := tabMod {} s.beam.stats (statKey w.item.b8 w.item.chan w.block) (fun x => { x with gap := some (x.gap.getD 0x0D) })
      let s := if siblingShed s w 4 then { s with beam.stats := stats } else s
      if !siblingShed s w 5 then s
      else (watchesOf s w.item.b8).foldl (fun s k => modPeaks k w.block (sibling s i j 5).ostream
        (fun y => { y with gap := some (y.gap.getD 0x0D) }) s) s

/-- A channel and data block has lost a chunk read to the throttle. -/
def fillShed (s : State) (w : Work) : Bool := s.sched.shed.contains (w.item.chan, w.block, none)

/-- A segment's run has lost its job to the throttle. -/
def runShed (s : State) (w : Work) : Bool :=
  match imageOf s w.block with
  | none => false
  | some i => match segJob s i w with
    | some j => j.gap.isSome
    | none => false

/-- A pass's products are SHED. -/
def shedPass (s : State) (w : Work) : State :=
  match imageOf s w.block with
  | none => s
  | some i => (List.range (2 ^ w.item.b9)).foldl (fun s j => shedJob s (dumpTarget s i w.item j)) s

/-- The frame's work with the throttle applied: products of what it omits are SHED, and so are those of what has lost its fill; the
other items run (R231, R232). -/
def applyThrottle (l : List Work) (s : State) : State :=
  let out := l.filter (fun w => !itemKept s w.item)
  let fills := (out.filter (fun w => w.item.kind = 3)).map (fun w => (w.item.chan, w.block, (none : Option Nat)))
  let s := { s with sched.shed := s.sched.shed ++ (fills.filter (fun x => !s.sched.shed.contains x)).dedup }
  let s := (l.filter (fun w => w.item.kind = 1 && (!itemKept s w.item || fillShed s w))).foldl shedPass s
  let gone := fun (w : Work) => !itemKept s w.item || fillShed s w || runShed s w || detectShed s w
  let segs := l.filter (fun w => w.item.kind = 2)
  let s := (segHeads (segs.filter (fun w => !gone w))).foldl shedSiblings { s with sched.work := l.filter (fun w => itemKept s w.item) }
  settleJobs (shedSegments (segs.filter gone) s)

/-- The long-accumulation item of a job, if it is of one, is kept (R231). -/
def laKept (s : State) (j : Job) : Bool :=
  j.kind ≠ .longAcc || (match imageOf s j.block with
    | some i => (laItem i j).all (itemKept s)
    | none => true)

/-- A job that begins enters the Clasp's list; one that the throttle omits is SHED. -/
def beginJob (s : State) (e : Job × SchedItem) : State :=
  let s := { s with clasp.jobs := insertJob e.1 s.clasp.jobs }
  if itemKept s e.2 && laKept s e.1 then s
  else if isCorr e.1 then shedJob s (e.1.frame, e.1.number)
  else modJobs (isJob (e.1.frame, e.1.number)) (fun j => { j with gap := some 0x0D }) s

/-- A channel and data block's work is not over. -/
def workLeft (s : State) (x : Nat × Nat) : Bool :=
  s.sched.work.any (fun w => w.item.chan = x.1 && w.block = x.2) ||
  s.clasp.jobs.any (fun j => j.pos = x.1 && j.block = x.2) || laterItem s (fun y => decide (y.kind ≤ 4)) x

/-- A replaced schedule has no work left (R228): its last data blocks are over, and their items have left the Pack engines. -/
def seamOver (s : State) (n : Nat) (e : Image × Nat) : Bool :=
  let b := max 1 (blockFrames s e.1)
  decide (e.2 + e.1.items.foldl (fun m x => max m (itemLag x)) 0 ≤ n / b) &&
    !s.clasp.jobs.any (fun j => decide (j.block < e.2)) && !s.beam.bufs.any (fun x => decide (x.block < e.2)) &&
    !s.beam.behind.any (fun r => decide (r.work.block < e.2)) &&
    !(List.range 16).any (fun k => ((engine s k).queue ++ (engine s k).incoming).any (fun x => decide (x.frame / b < e.2)))

/-- The work of frame `n` begins, `n` being the running frame (R13, R218, R228, R231). -/
def beginWork (n : Nat) (s : State) : State :=
  let s := { s with sched.seam := s.sched.seam.filter (fun e => !seamOver s n e) }
  let s := (frameJobs s n).foldl beginJob s
  let s := (List.range 4).foldl (fun s a => loadNext a s) (applyThrottle (frameWork s n) s)
  let now := (s.sched.work.map (fun w => (w.item.chan, w.block))).dedup
  let begun := s.sched.begun ++ now.filter (fun x => !s.sched.begun.contains x)
  { s with
    sched.begun := begun.filter (workLeft s)
    sched.shed := s.sched.shed.filter (fun x => workLeft s (x.1, x.2.1)) }

/-! The stop of the data path (R201). -/

/-- The gap reason of a product that the stop ends: one already void, SHED or lost stays so. -/
def stopReason (s : State) (j : Job) : Nat :=
  (endGap j).getD (if s.sched.shed.contains (j.pos, j.block, none) then 0x0D else 0x0E)

/-- A correlation product that has begun becomes STOPPED gap records, after which come those of the dumps it has lost (R147, R200); a long
accumulation in progress is ended apart. -/
def stopJob (s : State) (j : Job) : State :=
  match imageOf s j.block with
  | none => s
  | some i =>
    if j.kind = .longAcc && (tabGet none s.clasp.las (laKey j)).isSome then s
    else emitItems j (productGaps s i j (stopReason s j) ++ lostGaps s i j) s

/-- Correlation jobs of later frames for a channel and data block whose work has begun. -/
def laterJobs (s : State) (x : Nat × Nat) : List Job :=
  match imageOf s x.2 with
  | none => []
  | some i =>
    (i.items.filter (fun y => y.kind = 4 && y.chan = x.1 && !(decide (3 ≤ y.b8) && decide (y.b8 ≤ 5)))).filterMap (fun y =>
      match jobDumps i y with
      | [] => none
      | (p, _) :: _ => (frameFor s i x.2 p).bind (fun m =>
          let f := m + y.entry - p.entry
          if s.time.frame < f then (jobAt s i f y).map (fun j => { j with silent := decide (j.block < s.sched.firstBlock) })
          else none))

/-- Blocks that a long accumulation in progress would have covered: to its scheduled end, or to the switch that cuts it (R199, R229). -/
def laEnd (s : State) (l : La) : Nat :=
  (s.sched.seam.filter (fun e => decide (l.first < e.2))).foldl (fun m e => min m e.2) (l.first + l.count)

/-- A long accumulation in progress ends in a STOPPED gap record, over the blocks that its product would have covered (R199, R201). -/
def stopLa (s : State) (e : Nat × Option La) : State :=
  match e.2 with
  | none => s
  | some l =>
    let block := l.first
    match imageOf s block with
    | none => s
    | some i =>
      match i.items.find? (fun x => x.kind = 4 && x.b8 = 6 && x.chan = e.1 / 256 &&
          (jobDumps i x).head?.map (fun p => p.1.b8) = some (e.1 % 256)) with
      | none => s
      | some x =>
        let j := jobBase i s.time.frame x block (e.1 % 256)
        let dumps := laSpan i l (laEnd s l - 1)
        if block < s.sched.firstBlock then s
        else pushItem (asGap (l.void.getD 0x0E) (tileItem s i j 1 0xFFFF dumps false)) s

/-- The data path stops at the coming tick: every product whose work has begun and is not complete becomes STOPPED gap records,
in frame and job order; nothing else forms a record (R201). -/
def stopPath (s : State) : State :=
  let later := (s.sched.begun.flatMap (laterJobs s)).foldl (fun l j => insertJob j l) []
  let jobs := s.clasp.jobs.filter isCorr ++ later.filter (fun j => !s.clasp.jobs.any (isJob (j.frame, j.number)))
  let s := jobs.foldl stopJob s
  let s := stopBeams (s.clasp.las.foldl stopLa s)
  stopChan { s with
    sched.running := none, sched.seam := [], sched.work := [], sched.begun := [], sched.shed := []
    sched.throttled := false, sched.stormRun := []
    clasp.jobs := [], clasp.owners := [], clasp.las := [], clasp.laWords := [], facet.noise := []
    arrays := tabMap {} (fun (x : ArraySt) => { x with mode := 0, dumps := [], beads := [], stalling := false }) s.arrays
    store.held := [], store.waiting := [], store.flagWait := [] }

end Sys2Proof.Machine
end

