-- ==== Sys2Proof/Machine/Frame.lean ====
section
/-! DEFINITION. The frame tick and the guard (R11, R13, R19 to R21, R46, R55, R92, R112, R138, R225 to R232, R259, R308, R336,
R418, R434): what ends with a frame, what changes at the tick, and what begins with the next frame. -/

namespace Sys2Proof.Machine

/-! The guard (R13, R152). -/

/-- The guard of the running frame begins: pegs get GUARD, waiting tile and spill claims are abandoned. -/
def guardWork (s : State) : State :=
  let s := { s with time.inGuard := true }
  let s := if ingestOn s then pegsGuard s else s
  if observing s then beamGuard (claspGuard s) else s

/-- The start of the guard: the last 2 % of the frame (R13). -/
def guardTime (s : State) : Nat := tickTime s s.time.frame + periodNs s * 98 / 100

/-- GUARD_START: time moves on to it; once in a frame. -/
def guardStart (s : State) : State :=
  if s.time.inGuard then s else guardWork (elapse (guardTime s - s.time.tb0) s)

/-- GUARD_START (R13, R152). -/
def execGuardStart (s : State) : Out := whenOn guardStart s

/-! Time (R11, R308, R312). -/

/-- TB0 reaches the tick; the other bases move by the same time and by the step or slew that TB0 does not count (R308, R312:
`owedTime` keeps what is less than 1 ns; log 24). -/
def tickClock (s : State) : State :=
  let t := tickTime s (s.time.frame + 1)
  let (inc, left) := stepIncrement s
  let owed := s.time.owedTime + 5 * inc
  let whole := owed.fdiv 40
  let total : Int := ((t - s.time.tb0 : Nat) : Int) + whole
  let go := total.toNat
  let base := max s.time.tb0 t
  pulseOut 1 base { elapse go s with
    time.tb0 := base, time.owedTime := owed - 40 * whole + 40 * (total - go)
    compass.stepLeft := left, compass.refTaken := refChange inc }

/-! The end of a frame (R13). -/

/-- Chunk reads that have not run, or still wait, are abandoned when the guard expires (R13, R86). -/
def fillsTick (s : State) : State :=
  match s.sched.running with
  | none => s
  | some i =>
    let left := s.sched.work.filter (fun w => w.item.kind = 3)
    let n := left.length + s.store.waiting.length
    let s := { s with sched.work := s.sched.work.filter (fun w => w.item.kind ≠ 3) }
    let s := left.foldl (fun s w => abandonChunk i
      { buffer := w.item.unit = 1, pos := w.item.chan, ib := w.item.b8, chunk := w.item.h10, block := w.block } s) s
    noteAbandon 0 [0] n (abandonWaiting i s)

/-- Samples of the first step frame that ingest had handed on before the switch was decided are lost to the store: the granules
of their outputs join the lost range (R309). -/
def loseStepped (s : State) : State :=
  if s.compass.stepFrom ≠ some s.time.frame then s
  else s.chan.units.foldl (fun s e =>
    let first := resetLabel s (e.1 / 65536) s.time.frame
    let l := (e.2.inbox.filter (fun x => !x.2.flag && decide (first ≤ x.1))).map (fun x => x.1 / branches s / 64)
    l.dedup.foldl (fun s g => loseGranule e.1 g s) s) s

/-- A step frame ends: the inputs that are fed count it (R309). -/
def stepFrameEnd (s : State) : State :=
  if stepFrame s s.time.frame then
    let s := loseStepped s
    countN .timeStepFlagged 0 ((s.ingest.streams.filter (fun e => e.2.runs.length ≠ 0)).map (·.2.cfg.input)).dedup.length s
  else s

/-- The work of the running frame ends: what is not finished is abandoned, in the order in which products flow (R13, R225). -/
def endFrame (s : State) : State :=
  let s := if observing s then
      clearLanding (claspTick s.time.frame (arraysTick (landRounds (fillsTick (packTick s)))))
    else s
  let gts := s.time.tb2
  let len := match s.sched.running with
    | some i => storeLen s i
    | none => 0
  let s := (List.range 12).foldl (fun s c => reportUe len gts c s) s
  stepFrameEnd (reportDiscards gts s)

/-- The hold-off's count of frames without a cause (R21). DESIGN CHOICE (log 40): the causes are looked at where a frame ends, so one
that is raised and withdrawn within a frame does not restart the count. -/
def countClear (s : State) : State :=
  { s with dev.clearFrames := if s.dev.state = .degraded && s.dev.causes.isEmpty then s.dev.clearFrames + 1 else 0 }

/-- Everything up to the coming tick (R13): the guard, if it has not begun; time reaches the tick; the frame's work ends. A command that
acts at the tick comes after it, and the tick itself after that command: neither ends the frame a second time (log 44). -/
def toTick (s : State) : State :=
  if s.time.ended then s
  else
    let s := if s.time.inGuard then s else guardWork s
    { countClear (endFrame (tickClock s)) with time.ended := true }

/-! State transitions (R19 to R21, R231, R449). -/

/-- A cause that calls for the throttle is raised (R231, R448). -/
def throttleCalled (s : State) : Bool :=
  s.dev.causes.any (fun c => c = .thermal || c = .rate || c = .dimmHot || c = .powerCap || c = .shed)

/-- A zone is in SHUTDOWN. -/
def shutdownZone (s : State) : Bool := (List.range 5).any (fun z => (zone s z).state = 3)

/-- SAFE is entered at the coming tick: the data path stops, and after a zone's shutdown the recorder is sealed and the dies are
to be powered down within 20 ms (R201, R241, R449). A SAFE entered from BOOT runs on the ROM (R400), and ends the boot with its report
and the entry to BOOT (R22, R398). -/
def enterSafe (cause : Nat) (s : State) : State :=
  let s := if s.dev.state = .boot then bootReport s else s
  let s := if observing s then stopPath s else s
  let s := stopIngest (stopChan { s with dev.stopAt := none, dev.safeAt := none })
  let rom := s.dev.state = .boot || s.dev.romSafe
  let s := atTick (fun s => setState .safe cause (endTxnForState s)) { s with dev.romSafe := rom }
  if shutdownZone s && s.power.diesOn then
    { sealRecorder s with power.diesOffBy := some (s.time.tb2 + 20000000) }
  else s

/-- No record is still on its way out. -/
def recordsGone (s : State) : Bool :=
  s.out.quads.all (fun e => e.2.queue.isEmpty) && s.out.rings.all (fun e => match e.2 with
    | some r => r.queue.isEmpty
    | none => true) &&
  s.pack.engines.all (fun e => e.2.queue.isEmpty && e.2.incoming.isEmpty)

/-- The dies of a shutdown are powered down once the records have left, or 20 ms after the tick (R449). -/
def diesTick (s : State) : State :=
  match s.power.diesOffBy with
  | none => s
  | some t => if decide (t ≤ s.time.tb2) || recordsGone s then { s with power.diesOn := false, power.diesOffBy := none } else s

/-- The tick that SCHED.STOP named is the coming one (R12): the first at or after the time fixed. -/
def stopNow (s : State) : Bool :=
  match s.dev.stopAt with
  | some t => decide (t ≤ tickTime s (s.time.frame + 1))
  | none => false

/-- The data path, if it runs, stops at the tick that SCHED.STOP named (R12, R201). -/
def stopDue (s : State) : State :=
  if !stopNow s then s
  else if observing s then atTick (setState .ready 6) (stopPath { s with dev.stopAt := none })
  else { s with dev.stopAt := none }

/-- STOP_FRAME_REACHED (R19, R20, R201): the last frame ends, and the data path stops at its tick; where SAFE is called for at the same
tick, that one stands. -/
def execStopFrameReached (s : State) : Out :=
  whenOn (fun s => if stopNow s && observing s && s.dev.safeAt.isNone then stopDue (toTick s) else s) s

/-- TXN_APPLY (R238): the transaction whose n_a is the coming tick is applied, after the frame before it. -/
def execTxnApply (s : State) : Out := whenOn (fun s => if commitReady s then commitDue (toTick s) else s) s

/-- The coming tick is a block boundary of the schedule in force. -/
def boundaryNext (s : State) : Bool :=
  match s.sched.running with
  | none => false
  | some i => decide ((s.time.frame + 1) % max 1 (blockFrames s i) = 0)

/-- The hold-off has passed with no cause, and neither SAFE nor a stop is called for at the coming tick, a block boundary (R20, R21). -/
def holdoffOver (s : State) : Bool :=
  s.dev.state = .degraded && s.dev.causes.isEmpty && decide (s.dev.holdoff ≤ s.dev.clearFrames) && boundaryNext s &&
    s.dev.safeAt.isNone && !stopNow s

/-- The return from DEGRADED (R21, R232). -/
def holdoffEnd (s : State) : State :=
  if holdoffOver s then atTick (setState .observing 5) { s with sched.throttled := false } else s

/-- DEGRADED_HOLDOFF_END (R20, R21): at the tick that ends the frame in which the hold-off has passed. -/
def execDegradedHoldoffEnd (s : State) : Out := whenOn (fun s => if holdoffOver (toTick s) then holdoffEnd (toTick s) else s) s

/-- DEGRADED at the coming tick while a cause stands, with the throttle where one calls for it (R19, R20, R231). -/
def degrade (s : State) : State :=
  if !observing s then s
  else if s.dev.causes.isEmpty then holdoffEnd s
  else
    atTick (setState .degraded 4)
      { s with dev.clearFrames := 0, sched.throttled := s.sched.throttled || throttleCalled s }

/-- The transitions of the coming tick: the most restrictive one stands (R20). -/
def transitions (s : State) : State :=
  diesTick (match s.dev.safeAt with
    | some c => enterSafe c s
    | none => degrade (stopDue s))

/-! The beginning of a frame. -/

/-- Unit assignments of the block that begins at tick `n` (R55). DESIGN CHOICE (log 43): a unit that the new block does not assign leaves
its slice, its waiting samples are discarded, and it starts again when it is assigned once more. -/
def assignUnits (i : Image) (n : Nat) (s : State) : State :=
  let e := n / max 1 (blockFrames s i) % max 1 i.entries
  let l := (i.items.filter (fun x => x.kind = 5 && x.entry = e)).map (fun x => (unitKey (x.w8 % 65536) x.chan, x.unit))
  let gone := (s.chan.units.filter (fun u => u.2.slice.isSome && !l.any (fun a => a.1 = u.1))).map (·.1)
  let s := gone.foldl (fun s k => modUnit k (fun u => { u with slice := none, inbox := [], work := [] }) s) s
  l.foldl (fun s a =>
    let idle := (chanUnit s a.1).slice.isNone
    let s := assignUnit n a.1 a.2 s
    if idle then tablesTick n a.1 s else s) s

/-- Coefficient swaps of the schedule: one for frame m of the period is in force from tick m − 2 − ⌈D_max / c⌉ (R67). DESIGN CHOICE
(log 43): also where a load of its slice is then in progress, since R65 bars commits alone. -/
def scheduleSwaps (i : Image) (n : Nat) (s : State) : State :=
  let m := n + 2 + ceilDiv i.dmax (max 1 (coarseFrame s i.period))
  let period := max 1 (i.entries * blockFrames s i)
  (i.items.filter (fun x => x.kind = 6 && x.w8 = m % period)).foldl (fun s x =>
    addSwap x.unit { frame := m, m := x.h12, us := m * finePer s i.period, planned := true } s) s

/-- The direct-route reads of the blocks whose tick (k + 1) × B + λ has come begin, at most `m` of them (R92). -/
def directStart (i : Image) (n : Nat) : Nat → State → State
  | 0, s => s
  | m + 1, s =>
    if n < directReadFrame s i s.store.directNext then s
    else directStart i n m (directBlockStart i s.store.directNext { s with store.directNext := s.store.directNext + 1 })

/-- The data path begins frame `n`; the delays of its source frame are in force. -/
def beginPath (i : Image) (n : Nat) (s : State) : State :=
  let s := restartUnits n (chanTick n s)
  let s := if n % max 1 (blockFrames s i) = 0 then assignUnits i n s else s
  let s := settleBuffers (beginWork n (scheduleSwaps i n s))
  if i.direct then directStart i n 4 s else s

/-- The schedule whose peg items run in frame `n`: the one in force, or from tick n_a − 1 the one that a validated commit in
READY selects (R418). -/
def pegSchedule (n : Nat) (s : State) : Option Image :=
  match runningImage s with
  | some i => some i
  | none => match s.sched.commit with
    | some c => if c.validated && s.dev.state = .ready && decide (c.na ≤ n + 1) then newImage s else none
    | none => none

/-- Pitches take the mode that the peg items of the frame give (R251), those that the throttle holds while it runs (R231). -/
def pegModes (n : Nat) (s : State) : State :=
  match pegSchedule n s with
  | none => s
  | some i =>
    (i.items.filter (fun x => x.kind = 9 && x.entry = entryAt s i n && itemKept s x)).foldl (fun s x =>
      { s with peg.scalar := tabSet false s.peg.scalar x.unit (x.b12 = 0) }) s

/-! Abandons (R225, R226). -/

/-- Event source of a unit kind that abandons (Table 15.9; log 40). -/
def abandonSource (unit : Nat) : Nat := [63, 40, 44, 40, 46, 108, 8].getD unit 6

/-- Abandons of one unit kind in the frame that ended: counted, and one entry (R225). -/
def reportKind (s : State) (kind : Nat) : State :=
  let n := tabGet 0 s.sched.abandonNow kind
  if n = 0 then s
  else raise 0x0600 (abandonSource kind) n [kind] (countN .abandons kind n { s with sched.sticky := s.sched.sticky ||| 0x4000 })

/-- The units that abandoned work in the frame that ended have one frame more in their runs; the others' runs end, and with them their
alarms (R226). -/
def countRuns (s : State) : State :=
  let run := s.sched.abandonedBy.foldl (fun t k => tabSet 0 t k (tabGet 0 s.sched.stormRun k + 1)) []
  { s with
    sched.stormRun := run
    health.alarms := s.health.alarms.filter (fun a => a.1 ≠ 0x0601 || run.any (fun e => e.1 = a.2)) }

/-- The abandons of the frame that ended are reported, and the next frame's begin at none (R225, R226). -/
def reportAbandons (s : State) : State :=
  { checkStorms (countRuns ((List.range 7).foldl reportKind s)) with sched.abandonNow := [], sched.abandonedBy := [] }

/-- Frame n begins in every unit (R13): the tables of source frame n first, then what starts at its tick under them (R46, R47, R49, R481,
R482). -/
def beginFrame (s : State) : State :=
  let n := s.time.frame
  let s := startRound { s with dma.firstDefault := [] }
  let s := if ingestOn s then delayTick n s else s
  let s := ingestTick n (twinTick (quadsTick s))
  let s := match runningImage s with
    | some i => beginPath i n s
    | none => s
  let s := (s.dma.ports.map (·.1)).foldl (fun s p => portSettle p s) s
  reportAbandons (if ingestOn s then pegsTick n (pegModes n s) else s)

/-- Tick n starts frame n in every unit, once the work of frame n − 1 has ended (R13). -/
def frameTick (s : State) : State :=
  let s := transitions (commitDue (toTick s))
  commitLate (beginFrame { s with time.frame := s.time.frame + 1, time.inGuard := false, time.ended := false })

/-- FRAME_TICK (R13). -/
def execFrameTick (s : State) : Out := whenOn frameTick s

end Sys2Proof.Machine
end

