-- ==== Sys2Proof/Machine/BarRead.lean ====
section
/-! DEFINITION. What the host reads in BAR0 (R6, R7, R345, R347, R361, Tables 15.2 to 15.4, 15.8, 15.10, 16.2): the value of every
register, little-endian, with reserved bits and gaps 0. A read of these changes nothing; the three read-and-clear counts have rows of
their own. -/

namespace Sys2Proof.Machine

/-- The function's configuration as the host finds it (R343, Table 15.1): offset, bytes and value in the header of the PCI standard
(PRESUMED places: log 17): vendor and device, class code, subsystem, and BAR0 as 64-bit and non-prefetchable. -/
def pcieHeader : List (Nat × Nat × Nat) :=
  let dev := if Config.extendedGrade then 0x5305 else 0x5304
  [(0x00, 2, 0x1F4C), (0x02, 2, dev), (0x09, 3, 0x118000), (0x10, 4, 4), (0x2C, 2, 0x1F4C), (0x2E, 2, dev)]

/-- BAR0's bytes, the MSI-X vectors, and the Device Serial Number (R343). -/
def barSize : Nat := 2 ^ 25
def msixVectors : Nat := 64
def deviceSerial : Nat := Config.deviceIdentity.toNat

/-- Bytes of a response: the header of Table 16.2 and the result (R5, R366). -/
def responseBytes (r : Response) : List Byte :=
  leBytes 2 r.opcode.toNat ++ leBytes 2 r.status.code ++ leBytes 4 r.tag.toNat ++ leBytes 4 r.txnId ++
    leBytes 2 r.result.length ++ leBytes 2 r.detail ++ leBytes 8 r.frame ++ leBytes 8 0 ++ r.result

/-- Code of a slot's state (Table 15.5). -/
def SlotState.code : SlotState → Nat
  | .free => 0 | .posted => 1 | .active => 2 | .done => 3

/-- DEVICE_STATUS (Table 15.3). -/
def deviceStatus (s : State) : Nat :=
  bit (alarmActive s) * 0x8000 + bit (decide (s.sched.txn ≠ .none)) * 0x4000 +
    ((List.range 8).filter (fun k => (slot s k).state = .posted || (slot s k).state = .active)).length * 256 + s.dev.state.code

/-- The link is below Gen3 x 8 (R344). A link that has not trained is not below it: the bit resets to 0. -/
def linkReduced (s : State) : Bool :=
  decide (1 ≤ s.host.speed) && decide (s.host.width * (if s.host.speed = 1 then 1 else if s.host.speed = 2 then 2 else
    if s.host.speed = 3 then 4 else if s.host.speed = 4 then 8 else 16) < 32)

/-- Entries are being written: the ring is enabled and the host can be reached (Table 15.8, R345). -/
def evrRunning (s : State) : Bool := s.evr.enable && hostReachable s

/-- HOST_STATUS (Table 15.3). -/
def hostStatus (s : State) : Nat :=
  bit (linkReduced s) * 0x8000 + bit s.tether.lock * 0x4000 + bit s.host.requesterChanged * 0x2000 + bit (evrRunning s) * 0x1000 +
    s.host.speed % 16 * 256 + s.host.width % 16 * 16

/-- RESP_READY: the slots that hold a response. -/
def respReady (s : State) : Nat := (List.range 8).foldl (fun v k => v + 2 ^ k * bit (decide ((slot s k).state = .done))) 0

/-- SLOT_STATE: two bits a slot. -/
def slotStates (s : State) : Nat := (List.range 8).foldl (fun v k => v + 4 ^ k * (slot s k).state.code) 0

/-- EVR_CTRL (Table 15.8). -/
def evrCtrl (s : State) : Nat :=
  bit s.evr.baseDenied * 8 + bit s.evr.overflowed * 4 + bit (evrRunning s) * 2 + bit s.evr.enable

/-- Registers below the Tether window: offset, bytes and value as read (Tables 15.3, 15.4, 15.8). DOORBELL is write-only and reads 0. -/
def barRegisters (s : State) : List (Nat × Nat × Nat) :=
  [(0x0000, 4, 0x53563400), (0x0004, 4, Config.siliconRevision.toNat * 65536 + 1), (0x0008, 8, Config.deviceIdentity.toNat),
   (0x0010, 8, s.boot.version), (0x0018, 4, deviceStatus s), (0x001C, 4, hostStatus s), (0x0020, 8, s.time.tb3Mirror),
   (0x0028, 8, s.time.frame), (0x0030, 8, s.dev.stateChanges), (0x0038, 4, 2),
   (0x1004, 4, slotStates s), (0x1008, 4, respReady s), (0x100C, 4, s.host.intCause.toNat), (0x1010, 4, s.host.intMask.toNat),
   (0x1020, 8, counter .doorbellInvalid 0 s), (0x1028, 8, counter .mailboxWriteLocked 0 s),
   (0x1040, 4, s.host.lastRequester.toNat)] ++
  (List.range 64).map (fun c => (0x1100 + c, 1, (intCause s c).vector)) ++
  (List.range 32).map (fun c => (0x1180 + 4 * c, 4, (intCause s c).count * 1048576 + (intCause s c).timeUs)) ++
  (List.range 16).map (fun k => (0x1200 + 8 * k, 8, ringRead s k)) ++
  [(0x200000, 8, s.evr.base), (0x200008, 4, evrCtrl s), (0x200010, 8, s.evr.read), (0x200018, 8, s.evr.write),
   (0x200020, 4, s.evr.held.length), (0x200028, 8, s.evr.lost)]

/-- `n` bytes of the words of a window's entry as they were last written (R6, R362). -/
def shadowVal (s : State) (o n : Nat) : Nat := leVal (memRead s.tether.shadow o n)

/-- The word of a rate cap as it was last written; until one is, the cap in force (R6, R362; log 15). -/
def capWord (s : State) (k : Nat) : Nat :=
  let g := shadowVal s (0x1000 + 32 * k) 2 % 1024
  if g = 0 then (tabGet none s.tether.rateCaps k).getD (quadGbps s k) else g

/-- Registers of the Tether window (Table 15.10): the words of an entry read as they were last written, control words as they are in
force (R6, R362). -/
def tetherRegisters (s : State) : List (Nat × Nat × Nat) :=
  [(0x0000, 4, bit s.tether.lock), (0x0010, 4, s.tether.quadEnable.toNat), (0x0020, 4, bit s.tether.timingOut),
   (0x0030, 4, s.tether.controlRate), (0x0040, 4, s.power.pwrcap.toNat * 65536 + capWatts s), (0x0048, 4, 30 * 256 + 120)] ++
  (List.range 32).map (fun k => (0x1000 + 32 * k, 4, capWord s k)) ++
  (List.range 16).flatMap (fun w =>
    let x := tabGet {} s.tether.windows w
    [(0x2000 + 32 * w, 8, shadowVal s (0x2000 + 32 * w) 8), (0x2008 + 32 * w, 8, shadowVal s (0x2008 + 32 * w) 8), (0x201C + 32 * w, 4, bit x.valid + 2 * bit x.write + 4 * bit x.read)]) ++
  (List.range 256).flatMap (fun e =>
    let x := tabGet {} s.tether.allow e
    [(0x10000 + 64 * e, 16, shadowVal s (0x10000 + 64 * e) 16), (0x10010 + 64 * e, 4, shadowVal s (0x10010 + 64 * e) 4),
     (0x10014 + 64 * e, 2, shadowVal s (0x10014 + 64 * e) 2), (0x10016 + 64 * e, 2, shadowVal s (0x10016 + 64 * e) 2), (0x1003C + 64 * e, 4, bit x.valid + 2 * bit x.ipv6)])

/-- Byte `o` of a list of registers, 0 in a gap (R347). -/
def registerByte (l : List (Nat × Nat × Nat)) (o : Nat) : Byte :=
  match l.find? (fun r => decide (r.1 ≤ o) && decide (o < r.1 + r.2.1)) with
  | some r => BitVec.ofNat 8 (r.2.2 / 256 ^ (o - r.1))
  | none => 0

/-- Byte of a mailbox slot: its request half is write-only and reads 0, its response half holds the response (R6, R366). -/
def slotByte (s : State) (k o : Nat) : Byte :=
  if o < 4096 then 0 else (((slot s k).response.map responseBytes).getD []).getD (o - 4096) 0

/-- Byte of BAR0 as the host reads it (Table 15.2); in D3hot all ones (R345). -/
def barByte (s : State) (o : Nat) : Byte :=
  if s.host.d3hot then 0xFF
  else if 0x1000000 ≤ o then registerByte (tetherRegisters s) (o - 0x1000000)
  else if 0x10000 ≤ o ∧ o < 0x20000 then slotByte s ((o - 0x10000) / 0x2000) ((o - 0x10000) % 0x2000)
  else if 0x100000 ≤ o ∧ o < 0x100400 then msixByte s (o - 0x100000)
  else if 0x100800 ≤ o ∧ o < 0x100808 then msixByte s (o - 0x100000)
  else registerByte (barRegisters s) o

/-- An access of `n` bytes at an offset, least significant byte first: one consistent value (R347). -/
def barValue (s : State) (o n : Nat) : Nat := leVal ((List.range n).map (fun i => barByte s (o + i)))

end Sys2Proof.Machine
end

