-- ==== Sys2Proof/Machine/PegCmd.lean ====
section
/-! DEFINITION. The Kenra commands of the pegs (R261, R265, R267, R268, R413): restart, status and kernel loads. -/

namespace Sys2Proof.Machine

/-- A stopped customer kernel goes on at fev; any other peg is left as it is (R261). -/
def Peg.resume (g : Peg) : Peg :=
  if g.stopped.isSome && g.customer then
    { g.atFev with stopped := none }
  else g

/-- A kernel load of one of the pegs is in progress (R376). -/
def kernelLoading (a : List Byte) (c : Instr) : Bool :=
  match c with
  | .pegKernelLoad q => (selected q.arg).any (fun p => (selected a).contains p)
  | _ => false

/-- PEG.RESTART (R261): a peg whose kernel is being loaded is BUSY (R376). -/
def specPegRestart : Spec :=
  { opcode := 0x060F, layout := layoutBad selForm
    range := fun _ a => firstBad [(selOk 256 a, 0)]
    resource := fun s q => firstFail [(decide (loadsOf (kernelLoading q.arg) s = []), .busy)]
    act := fun q s => (selected q.arg).foldl (fun s p => modPeg p Peg.resume s) s }

/-- PEG_RESTART. -/
def execPegRestart (q : Request) (s : State) : Out := kenra (.pegRestart q) specPegRestart q s

/-- Counters of R268. -/
def pegCtrs : List Ctr :=
  [.instructions, .waitCycles, .pegOverrun, .pegFault, .xferErrors, .dmemCe, .imemCe, .rfiLate]

/-- stat of a peg as PEG.STATUS returns it. -/
def pegWord (s : State) (p : Nat) : Nat := (readStat s p (peg s p).stat).toNat

/-- Counters of a peg, then its last fault code and address, all ones for none (R268; log 19). -/
def pegValues (s : State) (p : Nat) : List Nat :=
  pegCtrs.map (fun c => counter c p s) ++
    [cellOfOpt ((peg s p).lastFault.map (·.1.code)), cellOfOpt ((peg s p).lastFault.map (·.2.toNat))]

/-- PEG.STATUS (R265, R268): ACK clears OVR and OV. -/
def specPegStatus : Spec :=
  { opcode := 0x0610, layout := statusLayout, sampled := true
    range := fun _ a => firstBad [(selOk 256 a, 0)]
    result := fun s q => statusEach q.arg (pegWord s) (pegValues s)
    act := fun q s =>
      let v := pegValues s
      clearShown q.arg v (clearCtrs pegCtrs)
        (ackShown q.arg v (fun p => modPeg p (fun g => { g with stat := g.stat &&& ~~~(statOVR ||| statOV) })) s) }

/-- PEG_STATUS. -/
def execPegStatus (q : Request) (s : State) : Out := kenra (.pegStatus q) specPegStatus q s

/-! Customer kernels (R267, R413). -/

/-- The schedule in force gives the peg work. -/
def pegUsed (s : State) (p : Nat) : Bool :=
  match inForce s with
  | none => false
  | some i => i.items.any (fun x => x.kind = 9 && 16 * x.unit + x.chan = p)

/-- PEG.KERNEL.LOAD (R413): the DEFLATE byte must be 1. The container is itself the source, so its declared length, which must
be the container's, is that of the BULK. -/
def specPegKernelLoad : Spec :=
  { opcode := 0x0E06, event := true, layout := layoutBad (selForm ++ loadForm 8)
    range := fun s a => firstBad ((selOk 256 a, 0) :: bulkRange s [1, 2] a 8 ++
      [(decide (u32 a 24 = u32 a 12), 24), (decide (u8 a 28 = 1), 28)])
    resource := fun s q => firstFail ((decide (loadsOf (kernelLoading q.arg) s = []), .busy) ::
      ((selected q.arg).all (fun p => !pegUsed s p), .conflict) :: loadChecks s q 8)
    act := beginLoad .pegKernelLoad 8 }

/-- PEG_KERNEL_LOAD. -/
def execPegKernelLoad (q : Request) (s : State) : Out := kenra (.pegKernelLoad q) specPegKernelLoad q s

/-- What a kernel's manifest declares fits the part: its images the peg's memories, its shared memory a pitch's (R243, R267, R413;
log 19). -/
def kernelFits (payload : List Byte) : Bool :=
  let z := Config.kernelManifest payload
  decide (z.code ≤ 65536) && decide (z.data ≤ 262144) && decide (z.shared ≤ 0x100000) &&
    decide (z.size + z.code + z.data ≤ payload.length)

/-- A kernel is applied whole to a peg: its images, the windows granted to it, and a start at fev at the next tick (R267; log 19). -/
def loadKernel (payload : List Byte) (s : State) (p : Nat) : State :=
  let z := Config.kernelManifest payload
  let code := (payload.drop z.size).take z.code
  let data := (payload.drop (z.size + z.code)).take z.data
  let s := { s with
    peg.imem := memWrite s.peg.imem (p * 65536) code
    peg.kernels := tabSet [] s.peg.kernels p payload }
  modPeg p (fun g => { g with
    data := memWrite g.data 0 data, customer := true, stopped := none, waiting := false, start := true }) s

end Sys2Proof.Machine
end

