-- ==== Sys2Proof/Machine/Loads.lean ====
section
/-! DEFINITION. How loads end (R187 to R189, R237, R353): in the order in which they were accepted, each applied whole or
rejected. -/

namespace Sys2Proof.Machine

/-- Opcode of a LOAD command. -/
def loadOpcode (c : Instr) : Nat :=
  match c with
  | .schedLoad _ => specSchedLoad.opcode
  | .chanCoefLoad _ => specChanCoefLoad.opcode
  | .chanGainSet _ => specChanGainSet.opcode
  | .claspTableLoad _ => specClaspTableLoad.opcode
  | .claspCurveLoad _ => specClaspCurveLoad.opcode
  | .beamWeightLoad _ => specBeamWeightLoad.opcode
  | .pegKernelLoad _ => specPegKernelLoad.opcode
  | _ => 0

/-- Completes a load with a status; a failure applies nothing. -/
def endLoad (l : Load) (st : Status) (bytes detail : Nat) (s : State) : State :=
  finish l.cmd (loadOpcode l.cmd) l.req st bytes detail [] s

/-- A load's decode fails on an engine (R189). -/
def decodeFails (e : Nat) (l : Load) (reason : Nat) (s : State) : State := endLoad l .decodeFail 0 reason (decodeBad e reason s)

/-- Decoded data of a transactional load with an id is staged, if its transaction is still open and has room (R237). -/
def stageLoad (l : Load) (data : List Byte) (s : State) : State :=
  if openId s ≠ some l.req.txnId.toNat then endLoad l (idStatus s l.req.txnId.toNat) 0 0 s
  else
    let k := ((settingOf l.cmd).map (·.1)).getD specChanGainSet
    if 2 ^ 20 < listBytes (keptStaged k l.cmd s) + data.length then endLoad l .txnFull 0 0 s
    else endLoad l .staged data.length 0 (stage k l.cmd data s)

/-- What the checks of a load's own command find wrong with its data (R74, R161). -/
def loadBad (c : Instr) (data : List Byte) : Option Status :=
  match c with
  | .chanGainSet _ => gainDataBad data
  | .claspCurveLoad _ => if curveOk data then none else some .range
  | _ => none

/-- A transactional load. -/
def isTxnLoad (c : Instr) : Bool :=
  match c with
  | .chanGainSet _ => true
  | .claspTableLoad _ => true
  | .claspCurveLoad _ => true
  | _ => false

/-- Applies the data of a load to its target, whole (R189). -/
def applyLoad (l : Load) (data : List Byte) (s : State) : State :=
  match l.cmd with
  | .chanCoefLoad q => applyCoef q data s
  | .chanGainSet q => applyGains q data s
  | .claspTableLoad q => applyTable q data s
  | .claspCurveLoad q => applyCurve q data s
  | .beamWeightLoad q => applyWeights q data s
  | _ => s

/-- A load whose data has been decoded (R189, R216, R237). A schedule image goes on to its validation. -/
def dataLoaded (e : Nat) (l : Load) (data : List Byte) (s : State) : State :=
  let s := if l.deflate then decodeGood e s else s
  let s := stageService data s
  match l.cmd with
  | .schedLoad q => { s with sched.verdictQueue := s.sched.verdictQueue ++ [(u8 q.arg 24, q, data)] }
  | _ => match loadBad l.cmd data with
    | some st => endLoad l st 0 0 s
    | none => if isTxnLoad l.cmd && l.req.txnId ≠ 0 then stageLoad l data s
    else endLoad l .ok data.length 0 (applyLoad l data s)

/-- A customer kernel is checked as a container and its images are put in the named pegs (R402, R413). -/
def kernelLoaded (e : Nat) (l : Load) (source : List Byte) (s : State) : State :=
  let v := checkContainer true true true source s
  if v.code = 6 then decodeFails e l v.reason s
  else
    let s := if v.code = 0 ∨ v.code = 7 then decodeGood e s else s
    if v.code ≠ 0 then endLoad l (outcomeStatus v.code) 0 0 s
    else if !kernelFits v.payload then endLoad l .range 0 0 s
    else endLoad l .ok v.payload.length 0 ((selected l.req.arg).foldl (loadKernel v.payload) (stageService v.payload s))

/-- An uncorrectable burst of a load's source in the service region, or else of its staging, is read (R336, R337). -/
def loadUe (b : Bulk) (s : State) : State :=
  let a := stagePlace b.length s
  if b.kind = 2 then (fetchBurst 4 b.addr [0, 1] s).2 else (fetchBurst 4 a.1 [0, 1] a.2).2

/-- The oldest load ends, once a schedule image loaded before it has its verdict (R189, R376) and, where its data is compressed, an
engine has served it (R186). Its transfer has failed or fails now, an uncorrectable word is met in its source or in staging, its decode
fails, or it is applied (R189, R337, R353). -/
def loadEnds (ue : Bool) (engine : BitVec 4) (s : State) : State :=
  match s.loads with
  | [] => s
  | l :: rest =>
    if !s.sched.verdictQueue.isEmpty || (l.deflate && l.failed.isNone && !engineServes s l.seq) then s
    else
    let e := servedBy s engine
    let s := { s with loads := rest }
    match l.failed with
    | some st => endLoad l st 0 0 s
    | none =>
      let r := bulkFetch (loadBulk l) s
      let s := r.2.2
      match r.2.1 with
      | some st => endLoad l st 0 0 s
      | none =>
        if ue then endLoad l .dramUe 0 0 (loadUe (loadBulk l) s)
        else match l.cmd with
          | .pegKernelLoad _ => kernelLoaded e l r.1 s
          | _ => match loadData l r.1 with
            | .error r => decodeFails e l r.code s
            | .ok data => dataLoaded e l data s

/-- LOAD_DECODE_DONE (R189). -/
def execLoadDecodeDone (ue : Bool) (engine : BitVec 4) (s : State) : Out := whenOn (loadEnds ue engine) s

/-! Failed bulk transfers (R346, R353). -/

/-- The first load that matches and has not failed is marked failed with HOST_DMA. -/
def markFailed (p : Load → Bool) : List Load → List Load
  | [] => []
  | l :: rest => if p l && l.failed.isNone then { l with failed := some .hostDma } :: rest else l :: markFailed p rest

/-- A load whose transfer fails: it ends in its turn (R189); the oldest one ends now, if no image before it awaits its verdict. -/
def failLoad (p : Load → Bool) (s : State) : State :=
  match s.loads with
  | [] => s
  | l :: rest =>
    if p l && l.failed.isNone && s.sched.verdictQueue.isEmpty then endLoad l .hostDma 0 0 { s with loads := rest }
    else { s with loads := markFailed p (l :: rest) }

/-- Opcode of a command whose result goes to a bulk destination, or that takes bulk data into MRAM. -/
def bulkOpcode (c : Instr) : Option Nat :=
  match c with
  | .recRead _ => some specRecRead.opcode
  | .chanStatsRead _ => some specChanStatsRead.opcode
  | .fwUpdateData _ => some specFwUpdateData.opcode
  | .fwKeyEnroll _ => some specFwKeyEnroll.opcode
  | _ => none

/-- A command other than a load that owes its completion to a bulk transfer fails with HOST_DMA. -/
def failBulk (p : Request → Bool) (s : State) : State :=
  match s.host.owed.find? (fun e => p e.2 && (bulkOpcode e.1).isSome) with
  | none => s
  | some (c, q) =>
    finish c ((bulkOpcode c).getD 0) q .hostDma 0 0 [] { s with reads := s.reads.filter (fun r => r.req ≠ q) }

/-- BULK_TRANSFER_TIMEOUT (R353): the transfer of the command that a slot carried fails after 50 ms. -/
def execBulkTransferTimeout (k : BitVec 3) (s : State) : Out := whenOn (fun s =>
  if s.loads.any (fun l => l.req.slot = k) then failLoad (fun l => l.req.slot = k) s
  else failBulk (fun q => q.slot = k) s) s

end Sys2Proof.Machine
end

