-- ==== Sys2Proof/Machine/Ports.lean ====
section
/-! DEFINITION. The commands of the crossbar (R379 to R383): a request at a target port, a port that becomes idle, a target that is
reset or powered down, and a master that is reset. -/

namespace Sys2Proof.Machine

/-- Ports that a target number names: target 1 stands for the sixteen pitch ports. -/
def portsOf (t : Nat) : List Nat :=
  if t = 1 then numbers 16 16 else if t ≤ 7 ∨ 16 ≤ t then [t] else []

/-- What an error answer does at the master: the peg transfer that made the request ends with ERROR (R245, R380), a DMA channel ends
under R391. `source` is the peg of the pitch, or the channel. -/
def answerError (m source code : Nat) (s : State) : State :=
  if 4 ≤ m ∧ m ≤ 19 then endTransfer (16 * (m - 4) + source) (some 0) none s
  else if m = 2 ∨ m = 3 then if (running s source).isSome then dmaError source code false s else s
  else s

/-- CROSSBAR_REQUEST (R379 to R383). A request pending for the same master at the target stays the only one (R381). It is granted once
its arrival cycle is past, when every request of that cycle has come. -/
def execCrossbarRequest (master target : BitVec 5) (source : BitVec 4) (addr bytes : Nat) (beats : BitVec 3) (data : List Byte)
    (s : State) : Out :=
  whenOn (fun s =>
    let m := master.toNat
    let p := portOf m target.toNat addr
    if !hasPath s m target.toNat addr bytes then answerError m source.toNat m (defaultTarget m addr (!data.isEmpty) s)
    else if targetDown s p then answerError m source.toNat 7 (resetAnswer p s)
    else
      let s := portSettle p s
      if (port s p).waiting.any (fun r => r.master = m) then s
      else portJoin p { master := m, addr := addr, bytes := bytes, beats := beats.toNat, data := data, arrival := s.time.tb2 } s) s

/-- A port with nothing granted or waiting becomes idle: time moves on to its eighth cycle without a request (R382). -/
def portIdle (p : Nat) (s : State) : State :=
  let s := portSettle p s
  if (port s p).idle || !(port s p).waiting.isEmpty then s
  else modPort p (fun x => { x with idle := true, holder := none }) (elapseTo ((port s p).freeAt + 8) s)

/-- PORT_IDLE (R382). -/
def execPortIdle (target : BitVec 5) (s : State) : Out := whenOn (fun s => (portsOf target.toNat).foldl (fun s p => portIdle p s) s) s

/-- A master is reset: what still waits of it goes, and the replies addressed to it are dropped at its port (R383). -/
def masterReset (m : Nat) (s : State) : State :=
  (s.dma.ports.map (·.1)).foldl (fun s p =>
    let s := portSettle p s
    let dropped := portBusy s p && decide ((port s p).holder = some m)
    countN .repliesDropped p (bit dropped) (modPort p (fun x => { x with
      waiting := x.waiting.filter (fun r => r.master ≠ m), holder := if dropped then none else x.holder }) s)) s

/-- A target is reset, and stays down or comes back (R383). -/
def portReset (down : Bool) (p : Nat) (s : State) : State :=
  modPort p (fun x => { x with down := down }) (portFail p (portSettle p s))

/-- TARGET_RESET (R383): the target answers every request granted and not yet answered, and every pending one, with an
error, and goes on so until it is back. With a pitch its transfer unit, a master, is reset. -/
def execTargetReset (target : BitVec 5) (down : Bool) (s : State) : Out :=
  whenOn (fun s => (portsOf target.toNat).foldl (fun s p =>
    let s := if 16 ≤ p then masterReset (4 + (p - 16)) s else s
    portReset down p s) s) s

end Sys2Proof.Machine
end

