-- ==== Sys2Proof/Machine/HostIf.lean ====
section
/-! DEFINITION. The host interface (chapter 15): BAR0 accesses, mailbox slots, the event ring, interrupts, the Tether window,
and the resets of the interface. -/

namespace Sys2Proof.Machine

/-! Accesses to BAR0 (R345, R347). -/

/-- An access BAR0 accepts: 1, 2, 4, … 64 bytes, naturally aligned (R347; log 15). -/
def accessOk (off len : Nat) : Bool := [1, 2, 4, 8, 16, 32, 64].contains len && off % max 1 len = 0

/-- A write reaches its register: the part is on, the function is in D0 (R345, Table 1.4). -/
def barWrite (f : State → State) (s : State) : Out := whenOn (fun s => if s.host.d3hot then s else f s) s

/-- A read-and-clear access to the count at an offset returns it and clears it (R6); in D3hot it returns all ones and clears nothing
(R345). -/
def barRead (o : Nat) (clear : State → State) (s : State) : Out :=
  whenOn (fun s => { (if s.host.d3hot then s else clear s) with host.readData := barValue s o 8 }) s

/-- Bytes of a register of `width` bytes at `base` after a write of `data` at `off`. -/
def mergeBytes (old base width off : Nat) (data : List Byte) : Nat :=
  leVal ((List.range width).map (fun i =>
    if off ≤ base + i ∧ base + i < off + data.length then data.getD (base + i - off) 0
    else BitVec.ofNat 8 (old / 256 ^ i)))

/-- A write touches the bytes of a register. -/
def touches (base width off len : Nat) : Bool := decide (base < off + len) && decide (off < base + width)

/-! Mailbox slots (R348 to R350, R365). -/

/-- Records the requester of an accepted doorbell (R365). -/
def noteRequester (r : BitVec 16) (s : State) : State :=
  let changed := s.host.anyRequester && s.host.lastRequester ≠ r
  let old := s.host.lastRequester.toNat
  let s := { s with host.lastRequester := r, host.anyRequester := true, host.requesterChanged := changed }
  if changed then raise 0x0005 1 r.toNat [old] s else s

/-- A doorbell posts a FREE slot, or is ignored and counted (R349). -/
def ringDoorbell (r : BitVec 16) (k : Nat) (s : State) : State :=
  if (slot s k).state = .free then
    noteRequester r (modSlot k (fun x => { x with state := .posted }) { s with host.queue := s.host.queue ++ [k] })
  else count .doorbellInvalid 0 s

/-- DOORBELL (R349, R365): bits 2:0 name the slot. -/
def execDoorbell (r : BitVec 16) (v : BitVec 32) (s : State) : Out := barWrite (ringDoorbell r (v.toNat % 8)) s

/-- A write to a slot: its request half while it is FREE; a response half never (R350). -/
def writeSlot (k off : Nat) (data : List Byte) (s : State) : State :=
  if !accessOk off data.length || decide (4096 ≤ off) then s
  else if (slot s k).state = .free then modSlot k (fun x => { x with request := memWrite x.request off data }) s
  else count .mailboxWriteLocked 0 s

/-- MAILBOX_REQUEST_WRITE (R350). -/
def execMailboxRequestWrite (k : BitVec 3) (off : BitVec 13) (data : List Byte) (s : State) : Out :=
  barWrite (writeSlot k.toNat off.toNat data) s

/-- Frees a slot that holds a response (R348). -/
def freeSlot (k : Nat) (s : State) : State :=
  if (slot s k).state = .done then modSlot k (fun x => { x with state := .free, response := none }) s else s

/-- A write to RESP_READY frees the slots whose bits are 1 (R348). -/
def writeRespReady (v : Nat) (s : State) : State :=
  (List.range 8).foldl (fun s k => if testBit v k then freeSlot k s else s) s

/-- RESP_READY_WRITE (R348). -/
def execRespReadyWrite (v : BitVec 32) (s : State) : Out := barWrite (writeRespReady v.toNat) s

/-- DOORBELL_INVALID_READ (R349). -/
def execDoorbellInvalidRead (s : State) : Out := barRead 0x1020 (clearCtr .doorbellInvalid 0) s

/-- MAILBOX_WRITE_LOCKED_READ (R350). -/
def execMailboxWriteLockedRead (s : State) : Out := barRead 0x1028 (clearCtr .mailboxWriteLocked 0) s

/-! Interrupts (R358). -/

/-- A write to INT_CAUSE (Table 15.4, W1C). -/
def writeIntCause (v : BitVec 32) (s : State) : State := { s with host.intCause := s.host.intCause &&& ~~~v }

/-- INT_CAUSE_WRITE (Table 15.4). -/
def execIntCauseWrite (v : BitVec 32) (s : State) : Out := barWrite (writeIntCause v) s

/-- The time threshold of a cause has passed since its first occurrence not yet announced: its message is sent (R358). -/
def coalesceDue (c : Nat) (s : State) : State :=
  let k := intCause s c
  if !coalesced c || k.waiting = 0 then s
  else
    let s := elapseTo (k.since + k.timeUs * 1000) s
    let s := modCause c (fun k => { k with waiting := 0 }) s
    if causeEnabled s c then sendMessage c s else s

/-- INTERRUPT_COALESCE_TIMEOUT (R358). -/
def execInterruptCoalesceTimeout (c : BitVec 5) (s : State) : Out := whenOn (coalesceDue c.toNat) s

/-! Host rings (R211). -/

/-- A write to HOSTRING_READ[k]: space returns, and a suspended ring resumes (R211, R359). The register holds the value whether or
not the ring exists (R6). -/
def writeRingRead (k v : Nat) (s : State) : State :=
  modRing k (fun x => { x with suspended := false }) (setRingRead k v s)

/-- HOSTRING_READ_WRITE (R211, R359). -/
def execHostringReadWrite (k : BitVec 4) (v : BitVec 64) (s : State) : Out := barWrite (writeRingRead k.toNat v.toNat) s

/-! The event ring (R354 to R357). -/

/-- A write to EVR_READ (R355). -/
def writeEvrRead (v : Nat) (s : State) : State := { s with evr.read := v }

/-- EVR_READ_WRITE (R355). -/
def execEvrReadWrite (v : BitVec 64) (s : State) : Out := barWrite (writeEvrRead v.toNat) s

/-- The event ring's base is aligned and its range lies in one window that permits writes (R354). -/
def evrBaseOk (s : State) : Bool :=
  s.evr.base % 4096 = 0 && decide (64 ≤ s.evr.base) && hostRangeOk s true (s.evr.base - 64) (262144 + 64)

/-- A write to EVR_CTRL: its W1C bits, then ENABLE, refused with a bad base (R354). -/
def writeEvrCtrl (v : BitVec 32) (s : State) : State :=
  let b := fun i => testBit v.toNat i
  let s := { s with evr.baseDenied := s.evr.baseDenied && !b 3, evr.overflowed := s.evr.overflowed && !b 2 }
  if !b 0 then { s with evr.enable := false }
  else if s.evr.enable then s
  else if evrBaseOk s then { s with evr.enable := true }
  else interrupt 4 { s with evr.baseDenied := true }

/-- EVR_CTRL_WRITE (R354, Table 15.8). -/
def execEvrCtrlWrite (v : BitVec 32) (s : State) : Out := barWrite (writeEvrCtrl v) s

/-- A write to EVR_BASE: only while ENABLE is 0 (R354). -/
def writeEvrBase (v : Nat) (s : State) : State := if s.evr.enable then s else { s with evr.base := v }

/-- EVR_BASE_WRITE (R354). -/
def execEvrBaseWrite (v : BitVec 64) (s : State) : Out := barWrite (writeEvrBase v.toNat) s

/-- EVR_LOST_READ (R357). -/
def execEvrLostRead (s : State) : Out := barRead 0x200028 (fun s => { s with evr.lost := 0 }) s

/-- An entry may be written now (R345, R355, R357): the ring runs, the host can be reached and there is room. -/
def evrOpen (s : State) : Bool := s.evr.enable && hostReachable s && decide (s.evr.write < s.evr.read + 4096)

/-- Bytes of entry `i` (Table 15.9). -/
def entryBytes (e : Event) (i : Nat) : List Byte :=
  leBytes 8 e.gts ++ leBytes 8 e.frame ++ leBytes 4 (i % 2 ^ 32) ++ leBytes 2 e.code ++
    [BitVec.ofNat 8 e.source, BitVec.ofNat 8 (bit e.alarm + 2 * bit e.completion + 4 * bit e.afterLoss)] ++
    slice e.payload 0 40

/-- Takes a due event into the hold buffer: 64 places are for completions, which are never discarded; any other that finds no
place is discarded and counted (R357; log 16). In BOOT two of the other places wait for BOOT_REPORT and the entry to BOOT (R398;
log 28). -/
def holdEvent (e : Event) (s : State) : State :=
  let kept := if s.dev.state = .boot then 2 else 0
  let room := decide ((s.evr.held.filter (fun x => !x.completion)).length + kept < 960) &&
    decide (s.evr.held.length + kept < 1024)
  if e.completion || room then { s with evr.held := s.evr.held ++ [e] }
  else
    let first := !s.evr.overflowed
    let s := { s with
      evr.lost := s.evr.lost + 1, evr.overflowed := true
      evr.gap := some (match s.evr.gap with
        | some (n, a, _) => (n + 1, a, e.gts)
        | none => (1, e.gts, e.gts)) }
    if first then interrupt 3 s else s

/-- The EVENTS_LOST entry that stands before `e`: its GTS is that of `e`, or 1 ns before it where the source of `e` is below 1, its
own, so that the order of (GTS, source) holds (R356); it is counted as any event (R357, R459; log 16). -/
def lostEvent (g : Nat × Nat × Nat) (e : Event) (s : State) : Event × State :=
  let due := s.evr.due
  let s := raise 0x0003 1 g.1 [g.2.1, g.2.2] s
  ({ gts := if e.source = 0 then e.gts - 1 else e.gts, frame := s.time.frame, code := 0x0003, source := 1, alarm := true, completion := false,
     afterLoss := true, payload := cells [g.1, g.2.1, g.2.2] }, { s with evr.due := due, evr.gap := none })

/-- DMA15 writes an entry and then the count (R355, R384): its code, 0 once both are written. -/
def putEntry (e : Event) (s : State) : Nat × State :=
  let i := s.evr.write
  chanWrite 15 [(s.evr.base + 64 * (i % 4096), entryBytes e i), (s.evr.base - 64, leBytes 8 (i + 1))] s

/-- Writes an entry and then the count, and raises the interrupts that announce them (R355, R358). -/
def writeEntry (e : Event) (s : State) : State :=
  let i := s.evr.write
  let s := interrupt 1 { (putEntry e s).2 with evr.write := i + 1 }
  if e.alarm then interrupt 2 s else s

/-- Writes the oldest held entry, after an EVENTS_LOST entry where some were discarded; BOOT_REPORT is the first of its boot (R398). An
entry whose requests a window no longer covers, or that the port answers with an error, stays held (R362, R383; log 16). -/
def drainHeld (s : State) : State :=
  match s.evr.held with
  | [] => s
  | e :: rest =>
    if !evrOpen s then s
    else if (putEntry e s).1 ≠ 0 then (putEntry e s).2
    else match s.evr.gap with
    | some g =>
      if e.code = 0x0002 then writeEntry e { s with evr.held := rest }
      else
        let (x, s) := lostEvent g e s
        writeEntry x s
    | none => writeEntry e { s with evr.held := rest }

/-- The oldest due event is taken 100 µs after its GTS, and an entry is written where one can be (R356). In BOOT entries are held
(R395): the first entry of a boot is BOOT_REPORT, which ends it (R398). -/
def writeEvents (s : State) : State :=
  let s := match s.evr.due with
    | [] => s
    | e :: rest => holdEvent e (elapseTo (e.gts + 100000) { s with evr.due := rest })
  if s.dev.state = .boot then s else drainHeld s

/-- EVENT_ENTRY_WRITE (R356). -/
def execEventEntryWrite (s : State) : Out := whenOn writeEvents s

/-! The Tether window (R361 to R363). -/

/-- A write to the window: while it is locked it is discarded and counted (R363). -/
def tetherWrite (f : State → State) (s : State) : Out :=
  barWrite (fun s => if s.tether.lock then count .tetherLockedWrite 0 s else f s) s

/-- A rate cap from 1 Gb/s to the quad's line rate takes effect (R208, R362): the bucket holds what it has filled to
at the cap before. Another value leaves the cap as it is (log 15). -/
def applyCap (k : Nat) (s : State) : State :=
  let g := shadowVal s (0x1000 + 32 * k) 2 % 1024
  if 1 ≤ g ∧ g ≤ quadGbps s k then
    let level := bucketNow s k
    modEgress k (fun e => { e with bucket := level, filled := s.time.tb2 })
      { s with tether.rateCaps := tabSet none s.tether.rateCaps k (some g) }
  else s

/-- A DMA host window takes effect, in 4 KiB granules (Table 15.10, R362). -/
def applyWindow (w : Nat) (v : BitVec 32) (s : State) : State :=
  let o := 0x2000 + 32 * w
  let x : Window := { base := shadowVal s o 8 / 4096 * 4096, limit := shadowVal s (o + 8) 8 / 4096 * 4096
                      valid := testBit v.toNat 0, write := testBit v.toNat 1, read := testBit v.toNat 2 }
  { s with tether.windows := tabSet {} s.tether.windows w x }

/-- An allow-list entry takes effect (R205, R362); its address is a little-endian number (R5; log 51). -/
def applyAllow (e : Nat) (v : BitVec 32) (s : State) : State :=
  let o := 0x10000 + 64 * e
  let v6 := testBit v.toNat 1
  let x : Allow := { addr := shadowVal s o (if v6 then 16 else 4), prefixLen := shadowVal s (o + 16) 4
                     portLo := shadowVal s (o + 20) 2, portHi := shadowVal s (o + 22) 2
                     valid := testBit v.toNat 0, ipv6 := v6 }
  { s with tether.allow := tabSet {} s.tether.allow e x }

/-- Writing an entry's control word applies its shadowed words together (R362). -/
def applyControl (o : Nat) (v : BitVec 32) (s : State) : State :=
  if 0x1000 ≤ o ∧ o < 0x1400 ∧ o % 32 = 28 then applyCap ((o - 0x1000) / 32) s
  else if 0x2000 ≤ o ∧ o < 0x2200 ∧ o % 32 = 28 then applyWindow ((o - 0x2000) / 32) v s
  else if 0x10000 ≤ o ∧ o < 0x14000 ∧ o % 64 = 60 then applyAllow ((o - 0x10000) / 64) v s
  else s

/-- TETHER_CONTROL_WORD_WRITE (R362). -/
def execTetherControlWordWrite (o : BitVec 24) (v : BitVec 32) (s : State) : Out := tetherWrite (applyControl o.toNat v) s

/-- LOCK is write 1 only (R363). -/
def writeLock (v : BitVec 32) (s : State) : State := if testBit v.toNat 0 then { s with tether.lock := true } else s

/-- TETHER_LOCK_WRITE (R363). -/
def execTetherLockWrite (v : BitVec 32) (s : State) : Out := tetherWrite (writeLock v) s

/-- QUAD_ENABLE: a quad whose bit is cleared goes down at once, one whose bit is set starts as LANE.CONFIG says (R270). -/
def writeQuads (v : BitVec 32) (s : State) : State :=
  let old := s.tether.quadEnable
  let s := { s with tether.quadEnable := v }
  (List.range 32).foldl (fun s k =>
    if testBit old.toNat k && !testBit v.toNat k then quadDown k s
    else if !testBit old.toNat k && testBit v.toNat k then startQuad k s else s) s

/-- A write to the window's fields (Table 15.10): a value outside a field's range is ignored (log 15), read-only fields are left,
and a control word that lies whole within the write applies its entry after its shadow. -/
def writeTether (o : Nat) (data : List Byte) (s : State) : State :=
  let n := data.length
  if !accessOk o n then s
  else if !(List.range n).any (fun i => tetherMapped (o + i)) then defaultTarget 0 (0x1000000 + o) true s
  else
    let s := if touches 0 4 o n then
        writeLock (BitVec.ofNat 32 (mergeBytes 0 0 4 o data)) s else s
    let s := if touches 0x10 4 o n then
        writeQuads (BitVec.ofNat 32 (mergeBytes s.tether.quadEnable.toNat 0x10 4 o data)) s else s
    let s := if touches 0x20 4 o n then
        { s with tether.timingOut := testBit (mergeBytes (bit s.tether.timingOut) 0x20 4 o data) 0 } else s
    let v := mergeBytes s.tether.controlRate 0x30 4 o data
    let s := if touches 0x30 4 o n && decide (v ≤ 1000000) then { s with tether.controlRate := v } else s
    let s := (List.range n).foldl (fun s i => if shadowed (o + i) then
        { s with tether.shadow := memSet s.tether.shadow (o + i) (data.getD i 0) } else s) s
    (List.range n).foldl (fun s i => if isControl (o + i) && decide (i + 4 ≤ n) then
        applyControl (o + i) (BitVec.ofNat 32 (leVal (slice data i 4))) s else s) s

/-- TETHER_FIELD_WRITE (R361, R363). -/
def execTetherFieldWrite (o : BitVec 24) (data : List Byte) (s : State) : Out := tetherWrite (writeTether o.toNat data) s

/-! Registers with no row of their own (R347). -/

/-- A new coalescing setting is within its ranges (Table 15.4). -/
def coalesceOk (v : Nat) : Bool :=
  decide (1 ≤ v / 1048576) && decide (1 ≤ v % 1048576) && decide (v % 1048576 ≤ 10000)

/-- A write that touches registers with rows of their own, of which it may write a part: a register's other bytes stay, 0 for those
that trigger or clear; a doorbell is its lowest byte, which names the slot (R347, R364; log 15). -/
def writeOwn (r : BitVec 16) (o : Nat) (data : List Byte) (s : State) : State :=
  let n := data.length
  let s := if touches 0x1000 1 o n then ringDoorbell r (mergeBytes 0 0x1000 4 o data % 8) s else s
  let s := if touches 0x1008 4 o n then writeRespReady (mergeBytes 0 0x1008 4 o data) s else s
  let s := if touches 0x100C 4 o n then writeIntCause (BitVec.ofNat 32 (mergeBytes 0 0x100C 4 o data)) s else s
  let s := (List.range 16).foldl (fun s k => if touches (0x1200 + 8 * k) 8 o n then
      writeRingRead k (mergeBytes (ringRead s k) (0x1200 + 8 * k) 8 o data) s else s) s
  let s := if touches 0x200000 8 o n then writeEvrBase (mergeBytes s.evr.base 0x200000 8 o data) s else s
  let s := if touches 0x200008 4 o n then
      writeEvrCtrl (BitVec.ofNat 32 (mergeBytes (bit s.evr.enable) 0x200008 4 o data)) s else s
  let s := if touches 0x200010 8 o n then writeEvrRead (mergeBytes s.evr.read 0x200010 8 o data) s else s
  if 0x10000 ≤ o ∧ o < 0x20000 then writeSlot ((o - 0x10000) / 0x2000) ((o - 0x10000) % 0x2000) data s else s

/-- A write below the Tether window: to registers with rows of their own, to INT_MASK, whose reserved bits stay 0 (R7, Table 15.7),
VECTOR, COALESCE or the MSI-X table; a read-only register is left, a gap is counted (R347). -/
def writeRegister (r : BitVec 16) (o : Nat) (data : List Byte) (s : State) : State :=
  let n := data.length
  if !accessOk o n then s
  else if !(List.range n).any (fun i => barMapped (o + i) || decide (0x10000 ≤ o ∧ o < 0x20000)) then defaultTarget 0 o true s
  else
    let s := writeOwn r o data s
    let s := if touches 0x1010 4 o n then
        { s with host.intMask := BitVec.ofNat 32 (mergeBytes s.host.intMask.toNat 0x1010 4 o data) &&& 0xFFFF001F } else s
    let s := (List.range 64).foldl (fun s c => if touches (0x1100 + c) 1 o n then
        modCause c (fun k => { k with vector := (data.getD (0x1100 + c - o) 0).toNat % 64 }) s else s) s
    let s := (List.range 32).foldl (fun s c =>
      let k := intCause s c
      let v := mergeBytes (k.count * 1048576 + k.timeUs) (0x1180 + 4 * c) 4 o data
      if touches (0x1180 + 4 * c) 4 o n && coalesceOk v then
        modCause c (fun k => { k with count := v / 1048576, timeUs := v % 1048576 }) s
      else s) s
    (List.range n).foldl (fun s i =>
      let a := o + i - 0x100000
      if 0x100000 ≤ o + i ∧ a < 1024 then
        let b := data.getD i 0
        { s with host.msix := memSet s.host.msix a (if a % 16 = 12 then b ^^^ 1 else b) }
      else s) s

/-- A message that was pending while its vector was masked is sent once the mask is cleared and the host can be reached (PCIe;
R345, R358). -/
def unmaskPending (s : State) : State :=
  (List.range 64).foldl (fun s v =>
    let b := memGet s.host.msix (2048 + v / 8)
    if testBit b.toNat (v % 8) && !vectorMasked s v && hostReachable s && s.host.pcie.msixEnable then
      { s with host.messages := v :: s.host.messages
               host.msix := memSet s.host.msix (2048 + v / 8) (b &&& ~~~(BitVec.ofNat 8 (2 ^ (v % 8)))) }
    else s) s

/-- REGISTER_WRITE (R347). A write to the Tether window is TETHER_FIELD_WRITE's. -/
def execRegisterWrite (r : BitVec 16) (o : BitVec 25) (data : List Byte) (s : State) : Out :=
  if o.toNat < 0x1000000 then barWrite (fun s => unmaskPending (writeRegister r o.toNat data s)) s
  else tetherWrite (writeTether (o.toNat - 0x1000000) data) s

/-- A link error raises an event when the event ring runs (R346; its code and cells: log 18). -/
def linkError (m : Int) (rest : List Int) (s : State) : State := if evrRunning s then raiseOpen false 0 1 m rest s else s

/-- An error is reported through AER: bit 12 for a poisoned packet, bit 15 for an error completion (R346; PRESUMED: log 17). -/
def reportAer (poisoned : Bool) (s : State) : State :=
  { s with host.aer := s.host.aer ||| (if poisoned then 0x1000 else 0x8000) }

/-- POISONED_WRITE (R346): discarded, counted, reported and raised. -/
def execPoisonedWrite (o : BitVec 25) (s : State) : Out :=
  whenOn (fun s => linkError o.toNat [0] (reportAer true (count .poisonedWrite 0 s))) s

/-! The link and the resets of the interface (R344, R345, R359). -/

/-- BUS_MASTER_OR_D3 (R343, R345): what the host sets in configuration space, and the AER status bits that it clears. Messages that
waited are sent where they can be (PCIe). -/
def execBusMasterOrD3 (busMaster d3 : Bool) (control : PcieControl) (aerClear : BitVec 32) (s : State) : Out :=
  whenOn (fun s => unmaskPending { s with
    host.busMaster := busMaster, host.d3hot := d3, host.pcie := control, host.aer := s.host.aer &&& ~~~aerClear }) s

/-- PCIE_LINK_TRAINED (R344): Gen1 to Gen5, 1, 2, 4 or 8 lanes. -/
def execPcieLinkTrained (gen : BitVec 3) (width : BitVec 4) (s : State) : Out :=
  whenOn (fun s =>
    if decide (1 ≤ gen.toNat ∧ gen.toNat ≤ 5) && [1, 2, 4, 8].contains width.toNat then
      { s with host.speed := gen.toNat, host.width := width.toNat }
    else s) s

/-- The running descriptor of a channel ends with an error where it moves data to or from the host; the channel goes on with the next
(R346, R359, R383, R391). -/
def failDesc (code ch : Nat) (s : State) : State :=
  match running s ch with
  | some d =>
    if (d.srcSpace = 6 || d.dstSpace = 6) && decide ((dmaCh s ch).issued < d.len) then dmaError ch code false s else s
  | none => s

/-- A command other than a load moves bulk data from the host (R353). -/
def hostSource (c : Instr) : Bool :=
  match c with
  | .fwUpdateData q => (bulk q.arg 0).kind = 1
  | .fwKeyEnroll q => (bulk q.arg 8).kind = 1
  | _ => false

/-- HOST_COMPLETION_ERROR (R346): a read of host memory fails its transfer, a bulk source on DMA12 or a descriptor, and is raised. -/
def execHostCompletionError (ch : BitVec 4) (poisoned : Bool) (s : State) : Out :=
  whenOn (fun s =>
    let s := linkError ch.toNat [1, bit poisoned] (reportAer poisoned s)
    if ch = 12 then
      if s.loads.any (fun l => (loadBulk l).kind = 1 && l.failed.isNone) then failLoad (fun l => (loadBulk l).kind = 1) s
      else failBulk (fun q => s.host.owed.any (fun e => e.2 = q && hostSource e.1)) s
    else
      match (dmaCh s ch.toNat).queue with
      | d :: _ => if d.srcSpace = 6 then failDesc 2 ch.toNat s else s
      | [] => s) s

/-- Bulk transfers to and from the host end with an error (R359). -/
def failHostBulk (s : State) : State :=
  let s := s.loads.foldl (fun s l => if (loadBulk l).kind = 1 && l.failed.isNone then failLoad (fun x => x = l) s else s) s
  let s := s.reads.foldl (fun s r => if (bulk r.req.arg r.bulkOff).kind = 1 then failBulk (fun q => q = r.req) s else s) s
  s.host.owed.foldl (fun s e => if hostSource e.1 then failBulk (fun x => x = e.2) s else s) s

/-- A reset of the host interface alone (R359, R360; what becomes of SPEED and WIDTH: log 17). -/
def resetHost (kind : HostReset) (s : State) : State :=
  let keep := kind = .functionLevel
  let s := failHostBulk ((List.range 16).foldl (fun s c => failDesc 7 c s) s)
  let s := masterReset 0 (portReset (port s 6).down 6 s)
  let s := expireTxn (clearCtrs [.doorbellInvalid, .mailboxWriteLocked] 0 s)
  { s with
    host.slots := tabMap {} (fun (x : Slot) => { x with state := .free, response := none }) s.host.slots
    host.queue := []
    host.active := s.host.active.map (fun a => (a.1, a.2.1, true))
    host.intCause := 0, host.intMask := 0, host.causes := [], host.msix := []
    host.ringReads := s.host.ringReads.filter (fun e => (ring s e.1).isSome)
    host.lastRequester := 0, host.requesterChanged := false, host.anyRequester := false
    host.busMaster := false, host.d3hot := false, host.pcie := {}, host.aer := 0
    host.speed := if keep then s.host.speed else 0
    host.width := if keep then s.host.width else 0
    evr.base := 0, evr.enable := false, evr.overflowed := false, evr.baseDenied := false, evr.read := 0
    out.rings := tabMap none (fun (x : Option HostRing) => x.map (fun r => { r with suspended := true })) s.out.rings }

/-- HOST_INTERFACE_RESET (R359). -/
def execHostInterfaceReset (kind : HostReset) (s : State) : Out := whenOn (resetHost kind) s

end Sys2Proof.Machine
end

