-- ==== Sys2Proof/Machine/Power.lean ====
section
/-! DEFINITION. Supply, reset and the hardware trip (chapters 20 and 22): what switches the part off and brings it back, and
the input power monitor. -/

namespace Sys2Proof.Machine

/-- OFF at once, with no records, gap records or sealing (R19): only the always-on domain keeps anything (Table 1.4). The
transition's entry goes with the SRAM that would hold it (log 28). -/
def goOff (s : State) : State := { resetUnits true s with dev.state := .off }

/-- Every regulator off: PWR_GOOD falls (R450, R474). -/
def powerOff (s : State) : State :=
  let s := goOff s
  { s with power.pwrGood := false, power.diesOn := false, power.diesOffBy := none, power.vmodOff := 0 }

/-- The regulators start and PWR_GOOD rises: TB2 starts at 0 and a power cycle is counted (R314, R458, R472). A latched
trip keeps the part OFF (R474). -/
def rampUp (s : State) : State :=
  if s.power.tripLatch.isSome || s.power.pwrGood then s
  else { s with power.pwrGood := true, power.diesOn := true, time.tb2 := 0, boot.powerCycles := s.boot.powerCycles + 1 }

/-- VIN12_RISE (R472). -/
def execVin12Rise (s : State) : Out := .next (rampUp { s with power.vinOk := true, power.alwaysOn := true })

/-- SUPPLY_RESTART (R474). -/
def execSupplyRestart (s : State) : Out :=
  .next (if s.power.alwaysOn then rampUp { s with power.vinOk := true } else s)

/-- RESET_RELEASE (R473): BOOT, 50 ms after PWR_GOOD at the earliest (Table 22.3). -/
def execResetRelease (s : State) : Out :=
  let s := { s with power.resetN := true }
  .next (if s.dev.state = .off && s.power.pwrGood && s.power.tripLatch.isNone then
      enterBoot 0 { s with time.tb2 := max s.time.tb2 50000000 }
    else s)

/-- RESET_N_ASSERT (R396). Whether it is then held low for the 10 ms that clear a latched trip is not stated: a free value
says (R450; log 1); with the latch gone the regulators start again. -/
def execResetNAssert (s : State) : Out :=
  let s' := { s with power.resetN := false }
  match s.power.tripLatch with
  | some _ =>
    let (v, s') := draw s'
    .next (if v % 2 = 0 && s'.power.vinOk then rampUp { s' with power.tripLatch := none }
      else if v % 2 = 0 then { s' with power.tripLatch := none } else s')
  | none =>
    .next (if s.power.pwrGood then
        goOff { s' with boot.resets := s.boot.resets + 1 }
      else s')

/-- SUPPLY_FAULT (R474). -/
def execSupplyFault (cause : SupplyFault) (s : State) : Out :=
  .next (if s.power.pwrGood then powerOff { s with power.vinOk := cause = .rail } else s)

/-- VIN12_REMOVED (R474): the always-on domain stops and a latched trip clears. -/
def execVin12Removed (s : State) : Out :=
  let s := if s.power.pwrGood then powerOff s else s
  .next { s with power.vinOk := false, power.alwaysOn := false, power.tripLatch := none }

/-- THERMAL_TRIP (R450): sensors T00 to T23. -/
def execThermalTrip (sensor : BitVec 5) (s : State) : Out :=
  .next (if s.power.pwrGood && decide (sensor.toNat < 24) then
      let s := powerOff s
      { s with power.tripLatch := some sensor.toNat, power.tripReport := some sensor.toNat }
    else s)

/-- An average draw stands at a level of the power monitor: by more than 5 % above the strapped cap, by more than 15 %, or below the
first (R416). -/
def drawAt (s : State) (watts : Nat) : PowerLevel → Bool
  | .below => decide (watts * 100 ≤ capWatts s * 105)
  | .above5 => decide (capWatts s * 105 < watts * 100)
  | .above15 => decide (capWatts s * 115 < watts * 100)

/-- POWER_MONITOR_EXCEEDED (R416): above 5 % the cause POWER_CAP, above 15 % a stop as SYS.SAFE's; it clears once the draw
is back below. -/
def execPowerMonitorExceeded (watts : Nat) (level : PowerLevel) (s : State) : Out :=
  whenOn (fun s =>
    if !drawAt s watts level then s else
    match level with
    | .below => setAlarm 0x0B04 0 false (setCause .powerCap false s)
    | .above5 => raise 0x0B04 142 watts [] (setAlarm 0x0B04 0 true (setCause .powerCap true s))
    | .above15 =>
      let s := raise 0x0B04 142 watts [] (setAlarm 0x0B04 0 true s)
      askSafe s) s

end Sys2Proof.Machine
end

