-- ==== Sys2Proof/Machine/System.lean ====
section
/-! DEFINITION. Kenra commands of the system itself (R19, R378, R457): identity, SAFE, the echo and event tests, and the answer
to an opcode that is in no table. -/

namespace Sys2Proof.Machine

/-- DRAM installed, in bytes. -/
def installedBytes (s : State) : Nat := ((s.dram.chans.map (·.2.capGiB)).sum) * 2 ^ 30

/-- Result of SYS.INFO (Table 16.6). The Kenra version is that of the request header, 0x0002 (Table 16.1). -/
def sysInfo (s : State) : List Byte :=
  leBytes 8 Config.deviceIdentity.toNat ++ leBytes 8 s.boot.version ++ leBytes 4 2 ++
    [BitVec.ofNat 8 s.dev.state.code, BitVec.ofNat 8 (bit Config.extendedGrade), 0, 0] ++ leBytes 8 (installedBytes s) ++
    [BitVec.ofNat 8 ((List.range 4).foldl (fun v a => v + 2 ^ a * bit (array s a).enabled) 0)]

/-- SYS.INFO, answered in BOOT and by the ROM too (R395, R400). -/
def specSysInfo : Spec :=
  { opcode := 0x0000, layout := noArg, rom := true, allowed := fun _ => true
    result := fun s _ => sysInfo s
    act := fun _ s => s }

/-- SYS_INFO. -/
def execSysInfo (q : Request) (s : State) : Out := kenra (.sysInfo q) specSysInfo q s

/-- SYS.SAFE: SAFE at the next tick (R19); a lead hands over. -/
def specSysSafe : Spec :=
  { opcode := 0x0001, layout := noArg
    act := fun _ s => askSafe s }

/-- SYS_SAFE. -/
def execSysSafe (q : Request) (s : State) : Out := kenra (.sysSafe q) specSysSafe q s

/-- TEST.ECHO: any argument is its own result. -/
def specTestEcho : Spec :=
  { opcode := 0x0F00, layout := fun _ => none, rom := true, allowed := fun _ => true
    result := fun _ q => q.arg
    act := fun _ s => s }

/-- TEST_ECHO. -/
def execTestEcho (q : Request) (s : State) : Out := kenra (.testEcho q) specTestEcho q s

/-- TEST.EVENT: an entry with a listed code and source 0 (R457). -/
def specTestEvent : Spec :=
  { opcode := 0x0F01, layout := layoutBad [(0, 2)]
    range := fun _ a => firstBad [((eventInfo (u16 a 0)).isSome, 0)]
    act := fun q s => raise (u16 q.arg 0) 0 0 [] s }

/-- TEST_EVENT. -/
def execTestEvent (q : Request) (s : State) : Out := kenra (.testEvent q) specTestEvent q s

/-- A request whose opcode is in no table: its header is checked first (R367, R378). -/
def answerUnknown (op : BitVec 16) (q : Request) (s : State) : State :=
  respond op.toNat q (if headerBad q then .malformed else .unknownOpcode) 0 0 [] s

/-- UNKNOWN_OPCODE. -/
def execUnknownOpcode (op : BitVec 16) (q : Request) (s : State) : Out := whenActive (.unknownOpcode op q) (answerUnknown op q) s

end Sys2Proof.Machine
end

