-- ==== Sys2Proof/Machine/Ridge.lean ====
section
/-! DEFINITION. The Ridge takes requests from the mailbox slots (R349, R351, R366, R367, R378). -/

namespace Sys2Proof.Machine

/-- The Kenra command that carries a request under an opcode (R366, R378). -/
def instrOf (op : Nat) (q : Request) : Instr :=
  match op with
  | 0x0000 => .sysInfo q
  | 0x0001 => .sysSafe q
  | 0x0002 => .sysRestart q
  | 0x0100 => .txnBegin q
  | 0x0101 => .txnCommit q
  | 0x0102 => .txnRollback q
  | 0x0200 => .timeRefConfig q
  | 0x0201 => .timeRefSelect q
  | 0x0202 => .timePllConfig q
  | 0x0203 => .timeSet q
  | 0x0204 => .timeAdjust q
  | 0x0205 => .timeOutConfig q
  | 0x0206 => .timeTrigArm q
  | 0x0207 => .timeTrigCancel q
  | 0x0208 => .timeStatus q
  | 0x0209 => .ptpConfig q
  | 0x020A => .ptpStep q
  | 0x020B => .ptpRelayConfig q
  | 0x020C => .pinFilterConfig q
  | 0x0300 => .laneConfig q
  | 0x0301 => .laneRetrain q
  | 0x0302 => .lanePrbs q
  | 0x0303 => .laneStatus q
  | 0x0304 => .ethConfig q
  | 0x0305 => .moduleConfig q
  | 0x0306 => .moduleRead q
  | 0x0307 => .moduleWrite q
  | 0x0400 => .ingestConfig q
  | 0x0401 => .ingestStatus q
  | 0x0402 => .streamConfig q
  | 0x0403 => .streamEnable q
  | 0x0404 => .streamDisable q
  | 0x0405 => .streamStatus q
  | 0x0406 => .flowSet q
  | 0x0500 => .chanConfig q
  | 0x0501 => .chanSync q
  | 0x0502 => .chanCoefLoad q
  | 0x0503 => .chanCoefSwap q
  | 0x0504 => .chanGainMode q
  | 0x0505 => .chanGainSet q
  | 0x0506 => .chanStatsConfig q
  | 0x0507 => .chanStatsRead q
  | 0x0508 => .chanStatus q
  | 0x0600 => .schedLoad q
  | 0x0601 => .schedSelect q
  | 0x0602 => .schedConfig q
  | 0x0603 => .schedShed q
  | 0x0604 => .schedStop q
  | 0x0605 => .schedStatus q
  | 0x0606 => .arrayConfig q
  | 0x0607 => .arrayTest q
  | 0x0608 => .arrayStatus q
  | 0x0609 => .beamConfig q
  | 0x060A => .beamWeightLoad q
  | 0x060B => .beamWeightMap q
  | 0x060C => .beamWatch q
  | 0x060D => .beamStatus q
  | 0x060E => .pegServiceConfig q
  | 0x060F => .pegRestart q
  | 0x0610 => .pegStatus q
  | 0x0700 => .claspConfig q
  | 0x0701 => .claspTableLoad q
  | 0x0702 => .claspCurveLoad q
  | 0x0703 => .claspStatus q
  | 0x0800 => .facetConfig q
  | 0x0801 => .facetStatus q
  | 0x0802 => .packConfig q
  | 0x0803 => .packEncode q
  | 0x0804 => .packStatus q
  | 0x0805 => .ostreamConfig q
  | 0x0806 => .ostreamStatus q
  | 0x0807 => .egressConfig q
  | 0x0808 => .egressStatus q
  | 0x0809 => .hostringConfig q
  | 0x0900 => .dramConfig q
  | 0x0901 => .dramRetrain q
  | 0x0902 => .dramStatus q
  | 0x0903 => .storeConfig q
  | 0x0904 => .storeStatus q
  | 0x0A00 => .dmaCopy q
  | 0x0A01 => .dmaAbort q
  | 0x0A02 => .dmaStatus q
  | 0x0B00 => .healthConfig q
  | 0x0B01 => .healthAdcRead q
  | 0x0B02 => .healthAdcInject q
  | 0x0B03 => .healthAdcCal q
  | 0x0B04 => .healthFanConfig q
  | 0x0B05 => .healthStatus q
  | 0x0C00 => .recStatus q
  | 0x0C01 => .recRead q
  | 0x0C02 => .recExport q
  | 0x0C03 => .recClear q
  | 0x0D00 => .twinConfig q
  | 0x0D01 => .twinCheckpoint q
  | 0x0D02 => .twinStatus q
  | 0x0E00 => .fwInfo q
  | 0x0E01 => .fwUpdateBegin q
  | 0x0E02 => .fwUpdateData q
  | 0x0E03 => .fwUpdateEnd q
  | 0x0E04 => .fwUpdateAbort q
  | 0x0E05 => .fwKeyEnroll q
  | 0x0E06 => .pegKernelLoad q
  | 0x0F00 => .testEcho q
  | 0x0F01 => .testEvent q
  | _ => .unknownOpcode (BitVec.ofNat 16 op) q

/-- What the tables say of a Kenra command, with its request; none for any other command. -/
def kenraOf (c : Instr) : Option (Spec × Request) :=
  match c with
  | .sysInfo q => some (specSysInfo, q)
  | .sysSafe q => some (specSysSafe, q)
  | .sysRestart q => some (specSysRestart, q)
  | .txnBegin q => some (specTxnBegin, q)
  | .txnCommit q => some (specTxnCommit, q)
  | .txnRollback q => some (specTxnRollback, q)
  | .timeRefConfig q => some (specTimeRefConfig, q)
  | .timeRefSelect q => some (specTimeRefSelect, q)
  | .timePllConfig q => some (specTimePllConfig, q)
  | .timeSet q => some (specTimeSet, q)
  | .timeAdjust q => some (specTimeAdjust, q)
  | .timeOutConfig q => some (specTimeOutConfig, q)
  | .timeTrigArm q => some (specTimeTrigArm, q)
  | .timeTrigCancel q => some (specTimeTrigCancel, q)
  | .timeStatus q => some (specTimeStatus, q)
  | .ptpConfig q => some (specPtpConfig, q)
  | .ptpStep q => some (specPtpStep, q)
  | .ptpRelayConfig q => some (specPtpRelayConfig, q)
  | .pinFilterConfig q => some (specPinFilterConfig, q)
  | .laneConfig q => some (specLaneConfig, q)
  | .laneRetrain q => some (specLaneRetrain, q)
  | .lanePrbs q => some (specLanePrbs, q)
  | .laneStatus q => some (specLaneStatus, q)
  | .ethConfig q => some (specEthConfig, q)
  | .moduleConfig q => some (specModuleConfig, q)
  | .moduleRead q => some (specModuleRead, q)
  | .moduleWrite q => some (specModuleWrite, q)
  | .ingestConfig q => some (specIngestConfig, q)
  | .ingestStatus q => some (specIngestStatus, q)
  | .streamConfig q => some (specStreamConfig, q)
  | .streamEnable q => some (specStreamEnable, q)
  | .streamDisable q => some (specStreamDisable, q)
  | .streamStatus q => some (specStreamStatus, q)
  | .flowSet q => some (specFlowSet, q)
  | .chanConfig q => some (specChanConfig, q)
  | .chanSync q => some (specChanSync, q)
  | .chanCoefLoad q => some (specChanCoefLoad, q)
  | .chanCoefSwap q => some (specChanCoefSwap, q)
  | .chanGainMode q => some (specChanGainMode, q)
  | .chanGainSet q => some (specChanGainSet, q)
  | .chanStatsConfig q => some (specChanStatsConfig, q)
  | .chanStatsRead q => some (specChanStatsRead, q)
  | .chanStatus q => some (specChanStatus, q)
  | .schedLoad q => some (specSchedLoad, q)
  | .schedSelect q => some (specSchedSelect, q)
  | .schedConfig q => some (specSchedConfig, q)
  | .schedShed q => some (specSchedShed, q)
  | .schedStop q => some (specSchedStop, q)
  | .schedStatus q => some (specSchedStatus, q)
  | .arrayConfig q => some (specArrayConfig, q)
  | .arrayTest q => some (specArrayTest, q)
  | .arrayStatus q => some (specArrayStatus, q)
  | .beamConfig q => some (specBeamConfig, q)
  | .beamWeightLoad q => some (specBeamWeightLoad, q)
  | .beamWeightMap q => some (specBeamWeightMap, q)
  | .beamWatch q => some (specBeamWatch, q)
  | .beamStatus q => some (specBeamStatus, q)
  | .pegServiceConfig q => some (specPegServiceConfig, q)
  | .pegRestart q => some (specPegRestart, q)
  | .pegStatus q => some (specPegStatus, q)
  | .claspConfig q => some (specClaspConfig, q)
  | .claspTableLoad q => some (specClaspTableLoad, q)
  | .claspCurveLoad q => some (specClaspCurveLoad, q)
  | .claspStatus q => some (specClaspStatus, q)
  | .facetConfig q => some (specFacetConfig, q)
  | .facetStatus q => some (specFacetStatus, q)
  | .packConfig q => some (specPackConfig, q)
  | .packEncode q => some (specPackEncode, q)
  | .packStatus q => some (specPackStatus, q)
  | .ostreamConfig q => some (specOstreamConfig, q)
  | .ostreamStatus q => some (specOstreamStatus, q)
  | .egressConfig q => some (specEgressConfig, q)
  | .egressStatus q => some (specEgressStatus, q)
  | .hostringConfig q => some (specHostringConfig, q)
  | .dramConfig q => some (specDramConfig, q)
  | .dramRetrain q => some (specDramRetrain, q)
  | .dramStatus q => some (specDramStatus, q)
  | .storeConfig q => some (specStoreConfig, q)
  | .storeStatus q => some (specStoreStatus, q)
  | .dmaCopy q => some (specDmaCopy, q)
  | .dmaAbort q => some (specDmaAbort, q)
  | .dmaStatus q => some (specDmaStatus, q)
  | .healthConfig q => some (specHealthConfig, q)
  | .healthAdcRead q => some (specHealthAdcRead, q)
  | .healthAdcInject q => some (specHealthAdcInject, q)
  | .healthAdcCal q => some (specHealthAdcCal, q)
  | .healthFanConfig q => some (specHealthFanConfig, q)
  | .healthStatus q => some (specHealthStatus, q)
  | .recStatus q => some (specRecStatus, q)
  | .recRead q => some (specRecRead, q)
  | .recExport q => some (specRecExport, q)
  | .recClear q => some (specRecClear, q)
  | .twinConfig q => some (specTwinConfig, q)
  | .twinCheckpoint q => some (specTwinCheckpoint, q)
  | .twinStatus q => some (specTwinStatus, q)
  | .fwInfo q => some (specFwInfo, q)
  | .fwUpdateBegin q => some (specFwUpdateBegin, q)
  | .fwUpdateData q => some (specFwUpdateData, q)
  | .fwUpdateEnd q => some (specFwUpdateEnd, q)
  | .fwUpdateAbort q => some (specFwUpdateAbort, q)
  | .fwKeyEnroll q => some (specFwKeyEnroll, q)
  | .pegKernelLoad q => some (specPegKernelLoad, q)
  | .testEcho q => some (specTestEcho, q)
  | .testEvent q => some (specTestEvent, q)
  | _ => none

/-- The request that slot `k` holds, as the Ridge copies it (Table 16.1): its opcode and its fields; an ARG_LENGTH past the half
takes no argument bytes, which the header check refuses. -/
def copyRequest (k : Nat) (s : State) : Nat × Request :=
  let b := fun o n => leVal (memRead (slot s k).request o n)
  let len := b 12 2
  (b 0 2, { slot := BitVec.ofNat 3 k, flags := BitVec.ofNat 16 (b 2 2), tag := BitVec.ofNat 32 (b 4 4)
            txnId := BitVec.ofNat 32 (b 8 4), argLength := BitVec.ofNat 16 len, version := BitVec.ofNat 16 (b 14 2)
            reserved := BitVec.ofNat 128 (b 16 16)
            arg := if len ≤ 4064 then memRead (slot s k).request 32 len else [] })

/-- A request begun: it becomes the active one, and a request that fails a check is answered at once; any other waits for its own
command, which is the rest of it (R351, R367; log 8). A STATUS is sampled here, and what it clears is cleared (R374). -/
def beginRequest (k : Nat) (s : State) : State :=
  let s := modSlot k (fun x => { x with state := .active }) s
  let (op, q) := copyRequest k s
  let c := instrOf op q
  let s := { s with host.active := some (c, k, false) }
  match kenraOf c with
  | none => s
  | some (spec, _) =>
    if (checkRequest c spec q s).isSome then kenraStep c spec q s
    else if spec.sampled then { spec.act q s with host.sample := some (spec.result s q) }
    else s

/-- RIDGE_BEGINS_REQUEST (R351): the next doorbell-ordered request, once the previous one has been answered. A Ridge that had stalled
has recovered, and arms its heartbeats again (R427; log 26). -/
def execRidgeBeginsRequest (s : State) : Out := whenOn (fun s =>
  match s.host.active, s.host.queue with
  | none, k :: rest => beginRequest k { s with host.queue := rest, twin.armed := true }
  | _, _ => s) s

end Sys2Proof.Machine
end

