-- ==== Sys2Proof/Machine/Scrub.lean ====
section
/-! DEFINITION. Reads of the service port and the patrol scrub (R336), with what an uncorrectable burst does to the schedule slots and
the Ridge's own state, each of which is kept in two copies (R337, R341). -/

namespace Sys2Proof.Machine

/-! The two copies (R341). -/

/-- The granule of an object and the copy of it that lies at a DRAM address: the granules of the two copies are placed one interleave
entry apart, the second copy's behind the first's (R341). Where an object begins is free (log 2). -/
def copyAt (s : State) (addr : Nat) : Option (Nat × Nat × Bool) :=
  (copiedObjects.find? (fun k => decide (Config.copyPlace k ≤ addr) &&
    decide ((addr - Config.copyPlace k) / 4096 * 2048 < copiedSize s k))).map (fun k =>
      let off := addr - Config.copyPlace k
      (k, off / 4096, decide (2048 ≤ off % 4096)))

/-- An uncorrectable burst in a copy: the object is read from the other copy, and where both fail the SV4 goes to SAFE (R337). -/
def copyFails (addr : Nat) (s : State) : State :=
  match copyAt s addr with
  | none => s
  | some (k, g, second) =>
    let s := { s with dram.badCopies := (k, g, second) :: s.dram.badCopies.filter (fun e => e ≠ (k, g, second)) }
    if s.dram.badCopies.contains (k, g, !second) then askSafe s else s

/-- Loads whose source in the service region holds the burst fail whole (R337). -/
def sourceFails (addr : Nat) (s : State) : State :=
  { s with loads := s.loads.map (fun l =>
      let b := loadBulk l
      if b.kind = 2 ∧ b.addr / 64 ≤ addr / 64 ∧ addr / 64 * 64 < b.addr + b.length ∧ l.failed.isNone then
        { l with failed := some .dramUe } else l) }

/-- The service region's owner of an uncorrectable burst meets it. -/
def ueInService (addr : Nat) (s : State) : State :=
  if addr < serviceBytes s then sourceFails addr (copyFails addr s) else s

/-! Commands. -/

/-- DRAM_READ (R87, R334, R336 to R339), a read of class `cls`, served after what goes before it, or put in the queue: `wait`. Its commands
may have been reissued after a parity alert (R338). An address past the channels in use does not exist. -/
def execDramRead (addr : Nat) (devices : List Nat) (cls : BitVec 3) (wait : Bool) (reissues : BitVec 2) (s : State) : Out :=
  if s.dev.state = .off then .next s
  else if dramTop s ≤ addr then .fault .noDram
  else match dramMap s addr with
    | none => .fault .noDram
    | some (c, _) =>
      let s := reissue c reissues s
      if wait && !(dramCh s c).lost then .next (queueReq { cls := cls.toNat, addr := addr, kind := .read devices } s)
      else
        let r := fetchBurst cls.toNat addr devices s
        .next (if r.1 then ueInService addr r.2 else r.2)

/-- One uncorrectable codeword that the scrub met. -/
def scrubUe (addr : Nat) (s : State) : State :=
  match dramMap s addr with
  | some (c, _) => ueInService addr (countUe c addr s)
  | none => s

/-- One correctable codeword that the scrub met; a lost channel answers every read with an uncorrectable error (R338). -/
def scrubCe (addr dev : Nat) (s : State) : State :=
  match dramMap s addr with
  | some (c, _) => if (dramCh s c).lost then scrubUe addr s else countCe c dev s
  | none => s

/-- PATROL_SCRUB: one pass of the service region, as service-port traffic, with the correctable codewords (address, device) and the
uncorrectable ones it met; those outside the region are not its own (R336). -/
def execPatrolScrub (correctable : List (Nat × Nat)) (bad : List Nat) (s : State) : Out :=
  whenOn (fun s =>
    let inRegion := fun (a : Nat) => decide (a < serviceBytes s)
    let s := (chansInUse s).foldl (fun s c => count .scrubPasses c.1 s) (serveFirst 4 (fun _ => true) s)
    let s := (correctable.filter (fun e => inRegion e.1)).foldl (fun s e => scrubCe e.1 e.2 s) s
    (bad.filter inRegion).foldl (fun s a => scrubUe a s) s) s

end Sys2Proof.Machine
end

