-- ==== Sys2Proof/Machine/Second.lean ====
section
/-! DEFINITION. The TB0 second boundary (chapter 13): phases, TB0 loads and slew, outputs, and what counts by the second. -/

namespace Sys2Proof.Machine

/-- A phase measured in a second joins those before it, the longest Q kept; a second without one breaks the run (R300). -/
def addPhase (d : Option Int) (l : List Int) : List Int :=
  match d with
  | some p => (p :: l).take 1001
  | none => []

/-- Phases of a second: those of the sources 0 to 6 that are present, and under 15 that of the resonator (R300, R306). -/
def takePhases (l : List (Nat × Int)) (s : State) : State :=
  let of := fun (x : Nat) => (l.find? (fun e => e.1 = x)).map (·.2)
  sourceIds.foldl (fun s x => modSource x (fun c => { c with phases := addPhase (of x) c.phases }) s)
    { s with compass.resonator := addPhase (of 15) s.compass.resonator }

/-- A TB0 value that TIME.SET loads at this boundary (R311); frames follow TB0 (R11). -/
def loadTb0 (s : State) : State :=
  match s.time.tb0Load with
  | none => s
  | some v => { s with time.tb0 := v, time.tb0Frac := 0, time.frame := v / periodNs s, time.inGuard := false, time.ended := false
                       time.tb0Load := none }

/-- One second of slew: at most the rate, in 0.1 ns, of the offset left; the ticks to come move by it (R312). -/
def slewTb0 (s : State) : State :=
  let m := clampInt (-(s.time.slewRate : Int)) s.time.slewRate s.time.slewLeft
  { s with time.slewLeft := s.time.slewLeft - m, time.owedTime := s.time.owedTime + 4 * m }

/-- The SV4 is unpaired or leads from this boundary on, with which the tick that a handover or a reclaim names may coincide: the
outputs then change hands here, with no gap and no overlap (R317, R430, R431). -/
def leadsFrom (s : State) : Bool :=
  let t := s.twin
  let due := fun h => decide (h * periodNs s ≤ s.time.tb0)
  let heard := decide (t.pinEdges = 1) || t.linkHeard
  !t.paired ||
    (if t.handoverAt.any due then !t.lead
     else if t.reclaimAt.any due && heard then !t.lead && t.reclaimAcked
     else t.lead && t.duties)

/-- Outputs take their settings, and are driven or held, from a second boundary on, with which PPS_OUT and an edge of REF_OUT coincide
(R316, R317). -/
def outputsSecond (s : State) : State :=
  let on := s.tether.timingOut && leadsFrom s
  let s := (List.range 3).foldl (fun s k =>
    modOut k (fun o => { o with offset := o.nextOffset, width := o.nextWidth, driven := on }) s) s
  pulseOut 2 s.time.tb0 (pulseOut 0 s.time.tb0 s)

/-- TB0_SECOND (R300, R306, R311, R312, R316 to R318, R338, R429): time moves on to the boundary. -/
def execTb0Second (phases : List (Nat × Int)) (s : State) : Out :=
  whenOn (fun s =>
    let s := elapse ((1000000000 - s.time.tb0 % 1000000000) % 1000000000) s
    let s := slewTb0 (loadTb0 (takePhases phases s))
    let s := outputsSecond { s with lanes.controlSent := [] }
    let s := (List.range 12).foldl (fun s c => modDram c (fun d => { d with ueSecond := 0 }) s) s
    checkpointSecond (offsetsSecond (slewPtp s))) s

end Sys2Proof.Machine
end

