-- ==== Sys2Proof/Machine/Dispatch.lean ====
section
/-! DEFINITION. What each command does: one arm per constructor of `Instr`, each a direct call of its meaning. -/

namespace Sys2Proof.Machine

/-- The effect of one command on everything but the queue. -/
def exec (i : Instr) (s : State) : Host.Outcome State Fault Refusal :=
  match i with
  | .sysInfo q => Sys2Proof.Machine.execSysInfo q s
  | .sysSafe q => Sys2Proof.Machine.execSysSafe q s
  | .sysRestart q => Sys2Proof.Machine.execSysRestart q s
  | .txnBegin q => Sys2Proof.Machine.execTxnBegin q s
  | .txnCommit q => Sys2Proof.Machine.execTxnCommit q s
  | .txnRollback q => Sys2Proof.Machine.execTxnRollback q s
  | .timeRefConfig q => Sys2Proof.Machine.execTimeRefConfig q s
  | .timeRefSelect q => Sys2Proof.Machine.execTimeRefSelect q s
  | .timePllConfig q => Sys2Proof.Machine.execTimePllConfig q s
  | .timeSet q => Sys2Proof.Machine.execTimeSet q s
  | .timeAdjust q => Sys2Proof.Machine.execTimeAdjust q s
  | .timeOutConfig q => Sys2Proof.Machine.execTimeOutConfig q s
  | .timeTrigArm q => Sys2Proof.Machine.execTimeTrigArm q s
  | .timeTrigCancel q => Sys2Proof.Machine.execTimeTrigCancel q s
  | .timeStatus q => Sys2Proof.Machine.execTimeStatus q s
  | .ptpConfig q => Sys2Proof.Machine.execPtpConfig q s
  | .ptpStep q => Sys2Proof.Machine.execPtpStep q s
  | .ptpRelayConfig q => Sys2Proof.Machine.execPtpRelayConfig q s
  | .pinFilterConfig q => Sys2Proof.Machine.execPinFilterConfig q s
  | .laneConfig q => Sys2Proof.Machine.execLaneConfig q s
  | .laneRetrain q => Sys2Proof.Machine.execLaneRetrain q s
  | .lanePrbs q => Sys2Proof.Machine.execLanePrbs q s
  | .laneStatus q => Sys2Proof.Machine.execLaneStatus q s
  | .ethConfig q => Sys2Proof.Machine.execEthConfig q s
  | .moduleConfig q => Sys2Proof.Machine.execModuleConfig q s
  | .moduleRead q => Sys2Proof.Machine.execModuleRead q s
  | .moduleWrite q => Sys2Proof.Machine.execModuleWrite q s
  | .ingestConfig q => Sys2Proof.Machine.execIngestConfig q s
  | .ingestStatus q => Sys2Proof.Machine.execIngestStatus q s
  | .streamConfig q => Sys2Proof.Machine.execStreamConfig q s
  | .streamEnable q => Sys2Proof.Machine.execStreamEnable q s
  | .streamDisable q => Sys2Proof.Machine.execStreamDisable q s
  | .streamStatus q => Sys2Proof.Machine.execStreamStatus q s
  | .flowSet q => Sys2Proof.Machine.execFlowSet q s
  | .chanConfig q => Sys2Proof.Machine.execChanConfig q s
  | .chanSync q => Sys2Proof.Machine.execChanSync q s
  | .chanCoefLoad q => Sys2Proof.Machine.execChanCoefLoad q s
  | .chanCoefSwap q => Sys2Proof.Machine.execChanCoefSwap q s
  | .chanGainMode q => Sys2Proof.Machine.execChanGainMode q s
  | .chanGainSet q => Sys2Proof.Machine.execChanGainSet q s
  | .chanStatsConfig q => Sys2Proof.Machine.execChanStatsConfig q s
  | .chanStatsRead q => Sys2Proof.Machine.execChanStatsRead q s
  | .chanStatus q => Sys2Proof.Machine.execChanStatus q s
  | .schedLoad q => Sys2Proof.Machine.execSchedLoad q s
  | .schedSelect q => Sys2Proof.Machine.execSchedSelect q s
  | .schedConfig q => Sys2Proof.Machine.execSchedConfig q s
  | .schedShed q => Sys2Proof.Machine.execSchedShed q s
  | .schedStop q => Sys2Proof.Machine.execSchedStop q s
  | .schedStatus q => Sys2Proof.Machine.execSchedStatus q s
  | .arrayConfig q => Sys2Proof.Machine.execArrayConfig q s
  | .arrayTest q => Sys2Proof.Machine.execArrayTest q s
  | .arrayStatus q => Sys2Proof.Machine.execArrayStatus q s
  | .beamConfig q => Sys2Proof.Machine.execBeamConfig q s
  | .beamWeightLoad q => Sys2Proof.Machine.execBeamWeightLoad q s
  | .beamWeightMap q => Sys2Proof.Machine.execBeamWeightMap q s
  | .beamWatch q => Sys2Proof.Machine.execBeamWatch q s
  | .beamStatus q => Sys2Proof.Machine.execBeamStatus q s
  | .pegServiceConfig q => Sys2Proof.Machine.execPegServiceConfig q s
  | .pegRestart q => Sys2Proof.Machine.execPegRestart q s
  | .pegStatus q => Sys2Proof.Machine.execPegStatus q s
  | .claspConfig q => Sys2Proof.Machine.execClaspConfig q s
  | .claspTableLoad q => Sys2Proof.Machine.execClaspTableLoad q s
  | .claspCurveLoad q => Sys2Proof.Machine.execClaspCurveLoad q s
  | .claspStatus q => Sys2Proof.Machine.execClaspStatus q s
  | .facetConfig q => Sys2Proof.Machine.execFacetConfig q s
  | .facetStatus q => Sys2Proof.Machine.execFacetStatus q s
  | .packConfig q => Sys2Proof.Machine.execPackConfig q s
  | .packEncode q => Sys2Proof.Machine.execPackEncode q s
  | .packStatus q => Sys2Proof.Machine.execPackStatus q s
  | .ostreamConfig q => Sys2Proof.Machine.execOstreamConfig q s
  | .ostreamStatus q => Sys2Proof.Machine.execOstreamStatus q s
  | .egressConfig q => Sys2Proof.Machine.execEgressConfig q s
  | .egressStatus q => Sys2Proof.Machine.execEgressStatus q s
  | .hostringConfig q => Sys2Proof.Machine.execHostringConfig q s
  | .dramConfig q => Sys2Proof.Machine.execDramConfig q s
  | .dramRetrain q => Sys2Proof.Machine.execDramRetrain q s
  | .dramStatus q => Sys2Proof.Machine.execDramStatus q s
  | .storeConfig q => Sys2Proof.Machine.execStoreConfig q s
  | .storeStatus q => Sys2Proof.Machine.execStoreStatus q s
  | .dmaCopy q => Sys2Proof.Machine.execDmaCopy q s
  | .dmaAbort q => Sys2Proof.Machine.execDmaAbort q s
  | .dmaStatus q => Sys2Proof.Machine.execDmaStatus q s
  | .healthConfig q => Sys2Proof.Machine.execHealthConfig q s
  | .healthAdcRead q => Sys2Proof.Machine.execHealthAdcRead q s
  | .healthAdcInject q => Sys2Proof.Machine.execHealthAdcInject q s
  | .healthAdcCal q => Sys2Proof.Machine.execHealthAdcCal q s
  | .healthFanConfig q => Sys2Proof.Machine.execHealthFanConfig q s
  | .healthStatus q => Sys2Proof.Machine.execHealthStatus q s
  | .recStatus q => Sys2Proof.Machine.execRecStatus q s
  | .recRead q => Sys2Proof.Machine.execRecRead q s
  | .recExport q => Sys2Proof.Machine.execRecExport q s
  | .recClear q => Sys2Proof.Machine.execRecClear q s
  | .twinConfig q => Sys2Proof.Machine.execTwinConfig q s
  | .twinCheckpoint q => Sys2Proof.Machine.execTwinCheckpoint q s
  | .twinStatus q => Sys2Proof.Machine.execTwinStatus q s
  | .fwInfo q => Sys2Proof.Machine.execFwInfo q s
  | .fwUpdateBegin q => Sys2Proof.Machine.execFwUpdateBegin q s
  | .fwUpdateData q => Sys2Proof.Machine.execFwUpdateData q s
  | .fwUpdateEnd q => Sys2Proof.Machine.execFwUpdateEnd q s
  | .fwUpdateAbort q => Sys2Proof.Machine.execFwUpdateAbort q s
  | .fwKeyEnroll q => Sys2Proof.Machine.execFwKeyEnroll q s
  | .pegKernelLoad q => Sys2Proof.Machine.execPegKernelLoad q s
  | .testEcho q => Sys2Proof.Machine.execTestEcho q s
  | .testEvent q => Sys2Proof.Machine.execTestEvent q s
  | .unknownOpcode op q => Sys2Proof.Machine.execUnknownOpcode op q s
  | .doorbell requester value => Sys2Proof.Machine.execDoorbell requester value s
  | .mailboxRequestWrite slot offset data => Sys2Proof.Machine.execMailboxRequestWrite slot offset data s
  | .respReadyWrite value => Sys2Proof.Machine.execRespReadyWrite value s
  | .intCauseWrite value => Sys2Proof.Machine.execIntCauseWrite value s
  | .hostringReadWrite ring value => Sys2Proof.Machine.execHostringReadWrite ring value s
  | .evrReadWrite value => Sys2Proof.Machine.execEvrReadWrite value s
  | .evrCtrlWrite value => Sys2Proof.Machine.execEvrCtrlWrite value s
  | .evrBaseWrite value => Sys2Proof.Machine.execEvrBaseWrite value s
  | .evrLostRead => Sys2Proof.Machine.execEvrLostRead s
  | .doorbellInvalidRead => Sys2Proof.Machine.execDoorbellInvalidRead s
  | .mailboxWriteLockedRead => Sys2Proof.Machine.execMailboxWriteLockedRead s
  | .tetherControlWordWrite offset value => Sys2Proof.Machine.execTetherControlWordWrite offset value s
  | .tetherLockWrite value => Sys2Proof.Machine.execTetherLockWrite value s
  | .tetherFieldWrite offset data => Sys2Proof.Machine.execTetherFieldWrite offset data s
  | .registerWrite requester offset data => Sys2Proof.Machine.execRegisterWrite requester offset data s
  | .poisonedWrite offset => Sys2Proof.Machine.execPoisonedWrite offset s
  | .hostInterfaceReset kind => Sys2Proof.Machine.execHostInterfaceReset kind s
  | .busMasterOrD3 busMaster d3 control aerClear => Sys2Proof.Machine.execBusMasterOrD3 busMaster d3 control aerClear s
  | .hostCompletionError ch poisoned => Sys2Proof.Machine.execHostCompletionError ch poisoned s
  | .ridgeBeginsRequest => Sys2Proof.Machine.execRidgeBeginsRequest s
  | .eventEntryWrite => Sys2Proof.Machine.execEventEntryWrite s
  | .interruptCoalesceTimeout cause => Sys2Proof.Machine.execInterruptCoalesceTimeout cause s
  | .frameTick => Sys2Proof.Machine.execFrameTick s
  | .guardStart => Sys2Proof.Machine.execGuardStart s
  | .degradedHoldoffEnd => Sys2Proof.Machine.execDegradedHoldoffEnd s
  | .txnApply => Sys2Proof.Machine.execTxnApply s
  | .txnValidationDone => Sys2Proof.Machine.execTxnValidationDone s
  | .txnExpiry => Sys2Proof.Machine.execTxnExpiry s
  | .schedLoadVerdict => Sys2Proof.Machine.execSchedLoadVerdict s
  | .stopFrameReached => Sys2Proof.Machine.execStopFrameReached s
  | .gulFrameReceive quad f => Sys2Proof.Machine.execGulFrameReceive quad f s
  | .ethFrameReceive quad data => Sys2Proof.Machine.execEthFrameReceive quad data s
  | .holeDeadline stream => Sys2Proof.Machine.execHoleDeadline stream s
  | .heldPacketRelease stream => Sys2Proof.Machine.execHeldPacketRelease stream s
  | .channeliserStep input coarse n => Sys2Proof.Machine.execChanneliserStep input coarse n s
  | .syncInEdge width => Sys2Proof.Machine.execSyncInEdge width s
  | .syncReset => Sys2Proof.Machine.execSyncReset s
  | .statsIntervalEnd slice => Sys2Proof.Machine.execStatsIntervalEnd slice s
  | .storeBurstDiscard => Sys2Proof.Machine.execStoreBurstDiscard s
  | .chunkRead c ue => Sys2Proof.Machine.execChunkRead c ue s
  | .rfiFlagWrite input pos granule => Sys2Proof.Machine.execRfiFlagWrite input pos granule s
  | .correlationPass array x ce ue => Sys2Proof.Machine.execCorrelationPass array x ce ue s
  | .chainShift array due => Sys2Proof.Machine.execChainShift array due s
  | .landingBufferMove array turnaround ce ue => Sys2Proof.Machine.execLandingBufferMove array turnaround ce ue s
  | .beamSegment x ce ue ecc => Sys2Proof.Machine.execBeamSegment x ce ue ecc s
  | .segmentReadout set pos m ce ue partialUe => Sys2Proof.Machine.execSegmentReadout set pos m ce ue partialUe s
  | .peakListEmit watch => Sys2Proof.Machine.execPeakListEmit watch s
  | .tileClaim job => Sys2Proof.Machine.execTileClaim job s
  | .spillPlaneTake job => Sys2Proof.Machine.execSpillPlaneTake job s
  | .tileReadout job ce ue => Sys2Proof.Machine.execTileReadout job ce ue s
  | .laDump job complete ue => Sys2Proof.Machine.execLaDump job complete ue s
  | .packItemArrive engine read => Sys2Proof.Machine.execPackItemArrive engine read s
  | .packItemDone engine => Sys2Proof.Machine.execPackItemDone engine s
  | .egressAgeExpiry quad => Sys2Proof.Machine.execEgressAgeExpiry quad s
  | .datagramTransmit quad => Sys2Proof.Machine.execDatagramTransmit quad s
  | .pauseFrameReceive quad => Sys2Proof.Machine.execPauseFrameReceive quad s
  | .hostRingWrite ring => Sys2Proof.Machine.execHostRingWrite ring s
  | .hostringAgeExpiry ring => Sys2Proof.Machine.execHostringAgeExpiry ring s
  | .loadDecodeDone ue engine => Sys2Proof.Machine.execLoadDecodeDone ue engine s
  | .pegAdd p d a b => Sys2Proof.Machine.execPegAdd p d a b s
  | .pegSub p d a b => Sys2Proof.Machine.execPegSub p d a b s
  | .pegAnd p d a b => Sys2Proof.Machine.execPegAnd p d a b s
  | .pegOr p d a b => Sys2Proof.Machine.execPegOr p d a b s
  | .pegXor p d a b => Sys2Proof.Machine.execPegXor p d a b s
  | .pegMin p d a b => Sys2Proof.Machine.execPegMin p d a b s
  | .pegMax p d a b => Sys2Proof.Machine.execPegMax p d a b s
  | .pegAbs p d a => Sys2Proof.Machine.execPegAbs p d a s
  | .pegAdds p d a b => Sys2Proof.Machine.execPegAdds p d a b s
  | .pegShl p d a b => Sys2Proof.Machine.execPegShl p d a b s
  | .pegShr p d a b => Sys2Proof.Machine.execPegShr p d a b s
  | .pegSar p d a b => Sys2Proof.Machine.execPegSar p d a b s
  | .pegRot p d a b => Sys2Proof.Machine.execPegRot p d a b s
  | .pegClz p d a => Sys2Proof.Machine.execPegClz p d a s
  | .pegPopc p d a => Sys2Proof.Machine.execPegPopc p d a s
  | .pegBitrev p d a => Sys2Proof.Machine.execPegBitrev p d a s
  | .pegExt p d a lsb len => Sys2Proof.Machine.execPegExt p d a lsb len s
  | .pegIns p d a lsb len => Sys2Proof.Machine.execPegIns p d a lsb len s
  | .pegPadd p d a b => Sys2Proof.Machine.execPegPadd p d a b s
  | .pegPsub p d a b => Sys2Proof.Machine.execPegPsub p d a b s
  | .pegPsat p d a b => Sys2Proof.Machine.execPegPsat p d a b s
  | .pegCmp p d a b => Sys2Proof.Machine.execPegCmp p d a b s
  | .pegBrCc p cc a target => Sys2Proof.Machine.execPegBrCc p cc a target s
  | .pegCall p target => Sys2Proof.Machine.execPegCall p target s
  | .pegRet p a => Sys2Proof.Machine.execPegRet p a s
  | .pegJmp p target => Sys2Proof.Machine.execPegJmp p target s
  | .pegLd p d k => Sys2Proof.Machine.execPegLd p d k s
  | .pegLdh p d k => Sys2Proof.Machine.execPegLdh p d k s
  | .pegLdb p d k => Sys2Proof.Machine.execPegLdb p d k s
  | .pegSt p a k => Sys2Proof.Machine.execPegSt p a k s
  | .pegSth p a k => Sys2Proof.Machine.execPegSth p a k s
  | .pegStb p a k => Sys2Proof.Machine.execPegStb p a k s
  | .pegMovp p k a => Sys2Proof.Machine.execPegMovp p k a s
  | .pegMovm p k a => Sys2Proof.Machine.execPegMovm p k a s
  | .pegMovcb p k a => Sys2Proof.Machine.execPegMovcb p k a s
  | .pegMovcl p k a => Sys2Proof.Machine.execPegMovcl p k a s
  | .pegQmac p a b => Sys2Proof.Machine.execPegQmac p a b s
  | .pegQmacL p a b x k => Sys2Proof.Machine.execPegQmacL p a b x k s
  | .pegQmacN p a b => Sys2Proof.Machine.execPegQmacN p a b s
  | .pegSmac p a b k => Sys2Proof.Machine.execPegSmac p a b k s
  | .pegSmacN p a b k => Sys2Proof.Machine.execPegSmacN p a b k s
  | .pegAccrd p d k sh => Sys2Proof.Machine.execPegAccrd p d k sh s
  | .pegAccmv p d k hi => Sys2Proof.Machine.execPegAccmv p d k hi s
  | .pegAccclr p mask => Sys2Proof.Machine.execPegAccclr p mask s
  | .pegLoop p k a last => Sys2Proof.Machine.execPegLoop p k a last s
  | .pegXfer p d t => Sys2Proof.Machine.execPegXfer p d t s
  | .pegXwait p mask target => Sys2Proof.Machine.execPegXwait p mask target s
  | .pegWait p => Sys2Proof.Machine.execPegWait p s
  | .pegReti p => Sys2Proof.Machine.execPegReti p s
  | .pegMovstat p x toStat r => Sys2Proof.Machine.execPegMovstat p x toStat r s
  | .pegSignal p peer => Sys2Proof.Machine.execPegSignal p peer s
  | .pegSettimer p a => Sys2Proof.Machine.execPegSettimer p a s
  | .pegTrap p => Sys2Proof.Machine.execPegTrap p s
  | .pegNop p => Sys2Proof.Machine.execPegNop p s
  | .pegInterruptEntry p => Sys2Proof.Machine.execPegInterruptEntry p s
  | .pegTimerCompare p => Sys2Proof.Machine.execPegTimerCompare p s
  | .pegDoorbell p => Sys2Proof.Machine.execPegDoorbell p s
  | .xferComplete p smem fail ue => Sys2Proof.Machine.execXferComplete p smem fail ue s
  | .alignBlockReceive lane b skew => Sys2Proof.Machine.execAlignBlockReceive lane b skew s
  | .alignMissing lane => Sys2Proof.Machine.execAlignMissing lane s
  | .blockLockAcquired lane headers => Sys2Proof.Machine.execBlockLockAcquired lane headers s
  | .blockLockLost lane headers => Sys2Proof.Machine.execBlockLockLost lane headers s
  | .fecCodeword lane w => Sys2Proof.Machine.execFecCodeword lane w s
  | .trainBlockReceive lane b => Sys2Proof.Machine.execTrainBlockReceive lane b s
  | .capBlockReceive quad b => Sys2Proof.Machine.execCapBlockReceive quad b s
  | .napReq quad => Sys2Proof.Machine.execNapReq quad s
  | .napAck quad => Sys2Proof.Machine.execNapAck quad s
  | .napNak quad => Sys2Proof.Machine.execNapNak quad s
  | .napIdleTimer quad => Sys2Proof.Machine.execNapIdleTimer quad s
  | .fastExit quad own lanes => Sys2Proof.Machine.execFastExit quad own lanes s
  | .fastExitTimeout quad => Sys2Proof.Machine.execFastExitTimeout quad s
  | .receiverDetect quad present => Sys2Proof.Machine.execReceiverDetect quad present s
  | .trainTimeout quad => Sys2Proof.Machine.execTrainTimeout quad s
  | .lockTimeout quad => Sys2Proof.Machine.execLockTimeout quad s
  | .exchangeTimeout quad => Sys2Proof.Machine.execExchangeTimeout quad s
  | .quadLost quad => Sys2Proof.Machine.execQuadLost quad s
  | .ethLinkChange quad change => Sys2Proof.Machine.execEthLinkChange quad change s
  | .patternCheckLock lane bits => Sys2Proof.Machine.execPatternCheckLock lane bits s
  | .moduleInsert quad identity applications => Sys2Proof.Machine.execModuleInsert quad identity applications s
  | .moduleRemove quad => Sys2Proof.Machine.execModuleRemove quad s
  | .modulePoll quad flags => Sys2Proof.Machine.execModulePoll quad flags s
  | .ppsEdge inputB width deviation => Sys2Proof.Machine.execPpsEdge inputB width deviation s
  | .tb0Second phases => Sys2Proof.Machine.execTb0Second phases s
  | .refVerdict present => Sys2Proof.Machine.execRefVerdict present s
  | .referenceSwitch step => Sys2Proof.Machine.execReferenceSwitch step s
  | .ptpMessageReceive quad domain m => Sys2Proof.Machine.execPtpMessageReceive quad domain m s
  | .ptpAnnounceTimeout => Sys2Proof.Machine.execPtpAnnounceTimeout s
  | .ptpRelayFrame fromB f => Sys2Proof.Machine.execPtpRelayFrame fromB f s
  | .timeTriggerFire trigger => Sys2Proof.Machine.execTimeTriggerFire trigger s
  | .tb3MirrorUpdate => Sys2Proof.Machine.execTb3MirrorUpdate s
  | .adcTrigEdge width => Sys2Proof.Machine.execAdcTrigEdge width s
  | .fanTachEdge fan width => Sys2Proof.Machine.execFanTachEdge fan width s
  | .pinStuck pin => Sys2Proof.Machine.execPinStuck pin s
  | .dramRead addr devices cls wait reissues => Sys2Proof.Machine.execDramRead addr devices cls wait reissues s
  | .dramWrite ch reissues => Sys2Proof.Machine.execDramWrite ch reissues s
  | .channelLost ch cause => Sys2Proof.Machine.execChannelLost ch cause s
  | .refresh ch bank postpone => Sys2Proof.Machine.execRefresh ch bank postpone s
  | .pageIdleClose ch bank => Sys2Proof.Machine.execPageIdleClose ch bank s
  | .recentre byteLane readCentre writeCentre window ue => Sys2Proof.Machine.execRecentre byteLane readCentre writeCentre window ue s
  | .dimmTempPoll ch dimm temp => Sys2Proof.Machine.execDimmTempPoll ch dimm temp s
  | .patrolScrub correctable bad => Sys2Proof.Machine.execPatrolScrub correctable bad s
  | .crossbarRequest master target source addr bytes beats data => Sys2Proof.Machine.execCrossbarRequest master target source addr bytes beats data s
  | .portIdle target => Sys2Proof.Machine.execPortIdle target s
  | .targetReset target down => Sys2Proof.Machine.execTargetReset target down s
  | .dmaBurst ch part answer => Sys2Proof.Machine.execDmaBurst ch part answer s
  | .dmaDescriptorComplete ch => Sys2Proof.Machine.execDmaDescriptorComplete ch s
  | .vin12Rise => Sys2Proof.Machine.execVin12Rise s
  | .resetRelease => Sys2Proof.Machine.execResetRelease s
  | .resetNAssert => Sys2Proof.Machine.execResetNAssert s
  | .supplyFault cause => Sys2Proof.Machine.execSupplyFault cause s
  | .supplyRestart => Sys2Proof.Machine.execSupplyRestart s
  | .vmodOverload k => Sys2Proof.Machine.execVmodOverload k s
  | .vmodRetry k => Sys2Proof.Machine.execVmodRetry k s
  | .boot b => Sys2Proof.Machine.execBoot b s
  | .bootZeroingDone => Sys2Proof.Machine.execBootZeroingDone s
  | .bootTimeout => Sys2Proof.Machine.execBootTimeout s
  | .updateReboot => Sys2Proof.Machine.execUpdateReboot s
  | .powerMonitorExceeded watts level => Sys2Proof.Machine.execPowerMonitorExceeded watts level s
  | .adcRoundEnd codes => Sys2Proof.Machine.execAdcRoundEnd codes s
  | .adcInjectConversion entry raw => Sys2Proof.Machine.execAdcInjectConversion entry raw s
  | .adcInjectTimer entry => Sys2Proof.Machine.execAdcInjectTimer entry s
  | .adcCalStepDone sum => Sys2Proof.Machine.execAdcCalStepDone sum s
  | .thermalTrip sensor => Sys2Proof.Machine.execThermalTrip sensor s
  | .fanCycle => Sys2Proof.Machine.execFanCycle s
  | .fanLoopIdle => Sys2Proof.Machine.execFanLoopIdle s
  | .fanFail fan => Sys2Proof.Machine.execFanFail fan s
  | .epochEnd => Sys2Proof.Machine.execEpochEnd s
  | .recordSeal v => Sys2Proof.Machine.execRecordSeal v s
  | .hbInEdge width => Sys2Proof.Machine.execHbInEdge width s
  | .heartbeat m => Sys2Proof.Machine.execHeartbeat m s
  | .checkpoint m => Sys2Proof.Machine.execCheckpoint m s
  | .checkpointStale => Sys2Proof.Machine.execCheckpointStale s
  | .handover m => Sys2Proof.Machine.execHandover m s
  | .reclaim m => Sys2Proof.Machine.execReclaim m s
  | .reclaimAck m => Sys2Proof.Machine.execReclaimAck m s
  | .takeover => Sys2Proof.Machine.execTakeover s
  | .takeoverComplete => Sys2Proof.Machine.execTakeoverComplete s
  | .yieldLead => Sys2Proof.Machine.execYieldLead s
  | .ridgeHeartbeatWithdraw => Sys2Proof.Machine.execRidgeHeartbeatWithdraw s
  | .hbPathDown link => Sys2Proof.Machine.execHbPathDown link s
  | .configMismatch => Sys2Proof.Machine.execConfigMismatch s
  | .twinSkew => Sys2Proof.Machine.execTwinSkew s
  | .arrayTestDone passed => Sys2Proof.Machine.execArrayTestDone passed s
  | .dramRetrainDone passed lanes => Sys2Proof.Machine.execDramRetrainDone passed lanes s
  | .packEncodeDone => Sys2Proof.Machine.execPackEncodeDone s
  | .fwUpdateDataDone retriesFailed => Sys2Proof.Machine.execFwUpdateDataDone retriesFailed s
  | .fwUpdateCheckDone engine => Sys2Proof.Machine.execFwUpdateCheckDone engine s
  | .fwKeyEnrollDone verified => Sys2Proof.Machine.execFwKeyEnrollDone verified s
  | .recClearDone => Sys2Proof.Machine.execRecClearDone s
  | .recReadDone fail => Sys2Proof.Machine.execRecReadDone fail s
  | .chanStatsReadDone fail => Sys2Proof.Machine.execChanStatsReadDone fail s
  | .bulkTransferTimeout slot => Sys2Proof.Machine.execBulkTransferTimeout slot s
  | .followerHeartbeatToggle => Sys2Proof.Machine.execFollowerHeartbeatToggle s
  | .pinStuckRelease pin => Sys2Proof.Machine.execPinStuckRelease pin s
  | .vin12Removed => Sys2Proof.Machine.execVin12Removed s
  | .pcieLinkTrained gen width => Sys2Proof.Machine.execPcieLinkTrained gen width s
  | .fanPwmEdge fan => Sys2Proof.Machine.execFanPwmEdge fan s

end Sys2Proof.Machine
end

