-- ==== Sys2Proof/Machine/Tick.lean ====
section
/-! DEFINITION. What happens when no command waits. -/

namespace Sys2Proof.Machine

/-- One count of the 1 GHz time-base counters (Table 1.2, R314, R315); in OFF nothing counts (Table 1.4). Log 5. -/
def idle (s : State) : State := if s.dev.state = .off then s else elapse 1 s

end Sys2Proof.Machine
end

