-- ==== Sys2Proof/Laws/PerInstr.lean ====
section
/-! SUPPORT. Laws stated of every command: the opcode under which the tables list a command is the one that the Ridge reads it
back from (R366, R378). -/

namespace Sys2Proof.Laws.OpcodeRoundTrip

open Sys2Proof.Machine

/-- The command's opcode, with its request, names the command again. -/
def Statement (c : Instr) : Prop := ∀ k q, kenraOf c = some (k, q) → instrOf k.opcode q = c

theorem sysInfo : ∀ x0, Statement (.sysInfo x0) := by intro x0 k q h; cases h; rfl
theorem sysSafe : ∀ x0, Statement (.sysSafe x0) := by intro x0 k q h; cases h; rfl
theorem sysRestart : ∀ x0, Statement (.sysRestart x0) := by intro x0 k q h; cases h; rfl
theorem txnBegin : ∀ x0, Statement (.txnBegin x0) := by intro x0 k q h; cases h; rfl
theorem txnCommit : ∀ x0, Statement (.txnCommit x0) := by intro x0 k q h; cases h; rfl
theorem txnRollback : ∀ x0, Statement (.txnRollback x0) := by intro x0 k q h; cases h; rfl
theorem timeRefConfig : ∀ x0, Statement (.timeRefConfig x0) := by intro x0 k q h; cases h; rfl
theorem timeRefSelect : ∀ x0, Statement (.timeRefSelect x0) := by intro x0 k q h; cases h; rfl
theorem timePllConfig : ∀ x0, Statement (.timePllConfig x0) := by intro x0 k q h; cases h; rfl
theorem timeSet : ∀ x0, Statement (.timeSet x0) := by intro x0 k q h; cases h; rfl
theorem timeAdjust : ∀ x0, Statement (.timeAdjust x0) := by intro x0 k q h; cases h; rfl
theorem timeOutConfig : ∀ x0, Statement (.timeOutConfig x0) := by intro x0 k q h; cases h; rfl
theorem timeTrigArm : ∀ x0, Statement (.timeTrigArm x0) := by intro x0 k q h; cases h; rfl
theorem timeTrigCancel : ∀ x0, Statement (.timeTrigCancel x0) := by intro x0 k q h; cases h; rfl
theorem timeStatus : ∀ x0, Statement (.timeStatus x0) := by intro x0 k q h; cases h; rfl
theorem ptpConfig : ∀ x0, Statement (.ptpConfig x0) := by intro x0 k q h; cases h; rfl
theorem ptpStep : ∀ x0, Statement (.ptpStep x0) := by intro x0 k q h; cases h; rfl
theorem ptpRelayConfig : ∀ x0, Statement (.ptpRelayConfig x0) := by intro x0 k q h; cases h; rfl
theorem pinFilterConfig : ∀ x0, Statement (.pinFilterConfig x0) := by intro x0 k q h; cases h; rfl
theorem laneConfig : ∀ x0, Statement (.laneConfig x0) := by intro x0 k q h; cases h; rfl
theorem laneRetrain : ∀ x0, Statement (.laneRetrain x0) := by intro x0 k q h; cases h; rfl
theorem lanePrbs : ∀ x0, Statement (.lanePrbs x0) := by intro x0 k q h; cases h; rfl
theorem laneStatus : ∀ x0, Statement (.laneStatus x0) := by intro x0 k q h; cases h; rfl
theorem ethConfig : ∀ x0, Statement (.ethConfig x0) := by intro x0 k q h; cases h; rfl
theorem moduleConfig : ∀ x0, Statement (.moduleConfig x0) := by intro x0 k q h; cases h; rfl
theorem moduleRead : ∀ x0, Statement (.moduleRead x0) := by intro x0 k q h; cases h; rfl
theorem moduleWrite : ∀ x0, Statement (.moduleWrite x0) := by intro x0 k q h; cases h; rfl
theorem ingestConfig : ∀ x0, Statement (.ingestConfig x0) := by intro x0 k q h; cases h; rfl
theorem ingestStatus : ∀ x0, Statement (.ingestStatus x0) := by intro x0 k q h; cases h; rfl
theorem streamConfig : ∀ x0, Statement (.streamConfig x0) := by intro x0 k q h; cases h; rfl
theorem streamEnable : ∀ x0, Statement (.streamEnable x0) := by intro x0 k q h; cases h; rfl
theorem streamDisable : ∀ x0, Statement (.streamDisable x0) := by intro x0 k q h; cases h; rfl
theorem streamStatus : ∀ x0, Statement (.streamStatus x0) := by intro x0 k q h; cases h; rfl
theorem flowSet : ∀ x0, Statement (.flowSet x0) := by intro x0 k q h; cases h; rfl
theorem chanConfig : ∀ x0, Statement (.chanConfig x0) := by intro x0 k q h; cases h; rfl
theorem chanSync : ∀ x0, Statement (.chanSync x0) := by intro x0 k q h; cases h; rfl
theorem chanCoefLoad : ∀ x0, Statement (.chanCoefLoad x0) := by intro x0 k q h; cases h; rfl
theorem chanCoefSwap : ∀ x0, Statement (.chanCoefSwap x0) := by intro x0 k q h; cases h; rfl
theorem chanGainMode : ∀ x0, Statement (.chanGainMode x0) := by intro x0 k q h; cases h; rfl
theorem chanGainSet : ∀ x0, Statement (.chanGainSet x0) := by intro x0 k q h; cases h; rfl
theorem chanStatsConfig : ∀ x0, Statement (.chanStatsConfig x0) := by intro x0 k q h; cases h; rfl
theorem chanStatsRead : ∀ x0, Statement (.chanStatsRead x0) := by intro x0 k q h; cases h; rfl
theorem chanStatus : ∀ x0, Statement (.chanStatus x0) := by intro x0 k q h; cases h; rfl
theorem schedLoad : ∀ x0, Statement (.schedLoad x0) := by intro x0 k q h; cases h; rfl
theorem schedSelect : ∀ x0, Statement (.schedSelect x0) := by intro x0 k q h; cases h; rfl
theorem schedConfig : ∀ x0, Statement (.schedConfig x0) := by intro x0 k q h; cases h; rfl
theorem schedShed : ∀ x0, Statement (.schedShed x0) := by intro x0 k q h; cases h; rfl
theorem schedStop : ∀ x0, Statement (.schedStop x0) := by intro x0 k q h; cases h; rfl
theorem schedStatus : ∀ x0, Statement (.schedStatus x0) := by intro x0 k q h; cases h; rfl
theorem arrayConfig : ∀ x0, Statement (.arrayConfig x0) := by intro x0 k q h; cases h; rfl
theorem arrayTest : ∀ x0, Statement (.arrayTest x0) := by intro x0 k q h; cases h; rfl
theorem arrayStatus : ∀ x0, Statement (.arrayStatus x0) := by intro x0 k q h; cases h; rfl
theorem beamConfig : ∀ x0, Statement (.beamConfig x0) := by intro x0 k q h; cases h; rfl
theorem beamWeightLoad : ∀ x0, Statement (.beamWeightLoad x0) := by intro x0 k q h; cases h; rfl
theorem beamWeightMap : ∀ x0, Statement (.beamWeightMap x0) := by intro x0 k q h; cases h; rfl
theorem beamWatch : ∀ x0, Statement (.beamWatch x0) := by intro x0 k q h; cases h; rfl
theorem beamStatus : ∀ x0, Statement (.beamStatus x0) := by intro x0 k q h; cases h; rfl
theorem pegServiceConfig : ∀ x0, Statement (.pegServiceConfig x0) := by intro x0 k q h; cases h; rfl
theorem pegRestart : ∀ x0, Statement (.pegRestart x0) := by intro x0 k q h; cases h; rfl
theorem pegStatus : ∀ x0, Statement (.pegStatus x0) := by intro x0 k q h; cases h; rfl
theorem claspConfig : ∀ x0, Statement (.claspConfig x0) := by intro x0 k q h; cases h; rfl
theorem claspTableLoad : ∀ x0, Statement (.claspTableLoad x0) := by intro x0 k q h; cases h; rfl
theorem claspCurveLoad : ∀ x0, Statement (.claspCurveLoad x0) := by intro x0 k q h; cases h; rfl
theorem claspStatus : ∀ x0, Statement (.claspStatus x0) := by intro x0 k q h; cases h; rfl
theorem facetConfig : ∀ x0, Statement (.facetConfig x0) := by intro x0 k q h; cases h; rfl
theorem facetStatus : ∀ x0, Statement (.facetStatus x0) := by intro x0 k q h; cases h; rfl
theorem packConfig : ∀ x0, Statement (.packConfig x0) := by intro x0 k q h; cases h; rfl
theorem packEncode : ∀ x0, Statement (.packEncode x0) := by intro x0 k q h; cases h; rfl
theorem packStatus : ∀ x0, Statement (.packStatus x0) := by intro x0 k q h; cases h; rfl
theorem ostreamConfig : ∀ x0, Statement (.ostreamConfig x0) := by intro x0 k q h; cases h; rfl
theorem ostreamStatus : ∀ x0, Statement (.ostreamStatus x0) := by intro x0 k q h; cases h; rfl
theorem egressConfig : ∀ x0, Statement (.egressConfig x0) := by intro x0 k q h; cases h; rfl
theorem egressStatus : ∀ x0, Statement (.egressStatus x0) := by intro x0 k q h; cases h; rfl
theorem hostringConfig : ∀ x0, Statement (.hostringConfig x0) := by intro x0 k q h; cases h; rfl
theorem dramConfig : ∀ x0, Statement (.dramConfig x0) := by intro x0 k q h; cases h; rfl
theorem dramRetrain : ∀ x0, Statement (.dramRetrain x0) := by intro x0 k q h; cases h; rfl
theorem dramStatus : ∀ x0, Statement (.dramStatus x0) := by intro x0 k q h; cases h; rfl
theorem storeConfig : ∀ x0, Statement (.storeConfig x0) := by intro x0 k q h; cases h; rfl
theorem storeStatus : ∀ x0, Statement (.storeStatus x0) := by intro x0 k q h; cases h; rfl
theorem dmaCopy : ∀ x0, Statement (.dmaCopy x0) := by intro x0 k q h; cases h; rfl
theorem dmaAbort : ∀ x0, Statement (.dmaAbort x0) := by intro x0 k q h; cases h; rfl
theorem dmaStatus : ∀ x0, Statement (.dmaStatus x0) := by intro x0 k q h; cases h; rfl
theorem healthConfig : ∀ x0, Statement (.healthConfig x0) := by intro x0 k q h; cases h; rfl
theorem healthAdcRead : ∀ x0, Statement (.healthAdcRead x0) := by intro x0 k q h; cases h; rfl
theorem healthAdcInject : ∀ x0, Statement (.healthAdcInject x0) := by intro x0 k q h; cases h; rfl
theorem healthAdcCal : ∀ x0, Statement (.healthAdcCal x0) := by intro x0 k q h; cases h; rfl
theorem healthFanConfig : ∀ x0, Statement (.healthFanConfig x0) := by intro x0 k q h; cases h; rfl
theorem healthStatus : ∀ x0, Statement (.healthStatus x0) := by intro x0 k q h; cases h; rfl
theorem recStatus : ∀ x0, Statement (.recStatus x0) := by intro x0 k q h; cases h; rfl
theorem recRead : ∀ x0, Statement (.recRead x0) := by intro x0 k q h; cases h; rfl
theorem recExport : ∀ x0, Statement (.recExport x0) := by intro x0 k q h; cases h; rfl
theorem recClear : ∀ x0, Statement (.recClear x0) := by intro x0 k q h; cases h; rfl
theorem twinConfig : ∀ x0, Statement (.twinConfig x0) := by intro x0 k q h; cases h; rfl
theorem twinCheckpoint : ∀ x0, Statement (.twinCheckpoint x0) := by intro x0 k q h; cases h; rfl
theorem twinStatus : ∀ x0, Statement (.twinStatus x0) := by intro x0 k q h; cases h; rfl
theorem fwInfo : ∀ x0, Statement (.fwInfo x0) := by intro x0 k q h; cases h; rfl
theorem fwUpdateBegin : ∀ x0, Statement (.fwUpdateBegin x0) := by intro x0 k q h; cases h; rfl
theorem fwUpdateData : ∀ x0, Statement (.fwUpdateData x0) := by intro x0 k q h; cases h; rfl
theorem fwUpdateEnd : ∀ x0, Statement (.fwUpdateEnd x0) := by intro x0 k q h; cases h; rfl
theorem fwUpdateAbort : ∀ x0, Statement (.fwUpdateAbort x0) := by intro x0 k q h; cases h; rfl
theorem fwKeyEnroll : ∀ x0, Statement (.fwKeyEnroll x0) := by intro x0 k q h; cases h; rfl
theorem pegKernelLoad : ∀ x0, Statement (.pegKernelLoad x0) := by intro x0 k q h; cases h; rfl
theorem testEcho : ∀ x0, Statement (.testEcho x0) := by intro x0 k q h; cases h; rfl
theorem testEvent : ∀ x0, Statement (.testEvent x0) := by intro x0 k q h; cases h; rfl
theorem unknownOpcode : ∀ x0 x1, Statement (.unknownOpcode x0 x1) := by intro x0 x1 k q h; cases h
theorem doorbell : ∀ x0 x1, Statement (.doorbell x0 x1) := by intro x0 x1 k q h; cases h
theorem mailboxRequestWrite : ∀ x0 x1 x2, Statement (.mailboxRequestWrite x0 x1 x2) := by intro x0 x1 x2 k q h; cases h
theorem respReadyWrite : ∀ x0, Statement (.respReadyWrite x0) := by intro x0 k q h; cases h
theorem intCauseWrite : ∀ x0, Statement (.intCauseWrite x0) := by intro x0 k q h; cases h
theorem hostringReadWrite : ∀ x0 x1, Statement (.hostringReadWrite x0 x1) := by intro x0 x1 k q h; cases h
theorem evrReadWrite : ∀ x0, Statement (.evrReadWrite x0) := by intro x0 k q h; cases h
theorem evrCtrlWrite : ∀ x0, Statement (.evrCtrlWrite x0) := by intro x0 k q h; cases h
theorem evrBaseWrite : ∀ x0, Statement (.evrBaseWrite x0) := by intro x0 k q h; cases h
theorem evrLostRead : Statement (.evrLostRead) := by intro k q h; cases h
theorem doorbellInvalidRead : Statement (.doorbellInvalidRead) := by intro k q h; cases h
theorem mailboxWriteLockedRead : Statement (.mailboxWriteLockedRead) := by intro k q h; cases h
theorem tetherControlWordWrite : ∀ x0 x1, Statement (.tetherControlWordWrite x0 x1) := by intro x0 x1 k q h; cases h
theorem tetherLockWrite : ∀ x0, Statement (.tetherLockWrite x0) := by intro x0 k q h; cases h
theorem tetherFieldWrite : ∀ x0 x1, Statement (.tetherFieldWrite x0 x1) := by intro x0 x1 k q h; cases h
theorem registerWrite : ∀ x0 x1 x2, Statement (.registerWrite x0 x1 x2) := by intro x0 x1 x2 k q h; cases h
theorem poisonedWrite : ∀ x0, Statement (.poisonedWrite x0) := by intro x0 k q h; cases h
theorem hostInterfaceReset : ∀ x0, Statement (.hostInterfaceReset x0) := by intro x0 k q h; cases h
theorem busMasterOrD3 : ∀ x0 x1 x2 x3, Statement (.busMasterOrD3 x0 x1 x2 x3) := by intro x0 x1 x2 x3 k q h; cases h
theorem hostCompletionError : ∀ x0 x1, Statement (.hostCompletionError x0 x1) := by intro x0 x1 k q h; cases h
theorem ridgeBeginsRequest : Statement (.ridgeBeginsRequest) := by intro k q h; cases h
theorem eventEntryWrite : Statement (.eventEntryWrite) := by intro k q h; cases h
theorem interruptCoalesceTimeout : ∀ x0, Statement (.interruptCoalesceTimeout x0) := by intro x0 k q h; cases h
theorem frameTick : Statement (.frameTick) := by intro k q h; cases h
theorem guardStart : Statement (.guardStart) := by intro k q h; cases h
theorem degradedHoldoffEnd : Statement (.degradedHoldoffEnd) := by intro k q h; cases h
theorem txnApply : Statement (.txnApply) := by intro k q h; cases h
theorem txnValidationDone : Statement (.txnValidationDone) := by intro k q h; cases h
theorem txnExpiry : Statement (.txnExpiry) := by intro k q h; cases h
theorem schedLoadVerdict : Statement (.schedLoadVerdict) := by intro k q h; cases h
theorem stopFrameReached : Statement (.stopFrameReached) := by intro k q h; cases h
theorem gulFrameReceive : ∀ x0 x1, Statement (.gulFrameReceive x0 x1) := by intro x0 x1 k q h; cases h
theorem ethFrameReceive : ∀ x0 x1, Statement (.ethFrameReceive x0 x1) := by intro x0 x1 k q h; cases h
theorem holeDeadline : ∀ x0, Statement (.holeDeadline x0) := by intro x0 k q h; cases h
theorem heldPacketRelease : ∀ x0, Statement (.heldPacketRelease x0) := by intro x0 k q h; cases h
theorem channeliserStep : ∀ x0 x1 x2, Statement (.channeliserStep x0 x1 x2) := by intro x0 x1 x2 k q h; cases h
theorem syncInEdge : ∀ x0, Statement (.syncInEdge x0) := by intro x0 k q h; cases h
theorem syncReset : Statement (.syncReset) := by intro k q h; cases h
theorem statsIntervalEnd : ∀ x0, Statement (.statsIntervalEnd x0) := by intro x0 k q h; cases h
theorem storeBurstDiscard : Statement (.storeBurstDiscard) := by intro k q h; cases h
theorem chunkRead : ∀ x0 x1, Statement (.chunkRead x0 x1) := by intro x0 x1 k q h; cases h
theorem rfiFlagWrite : ∀ x0 x1 x2, Statement (.rfiFlagWrite x0 x1 x2) := by intro x0 x1 x2 k q h; cases h
theorem correlationPass : ∀ x0 x1 x2 x3, Statement (.correlationPass x0 x1 x2 x3) := by intro x0 x1 x2 x3 k q h; cases h
theorem chainShift : ∀ x0 x1, Statement (.chainShift x0 x1) := by intro x0 x1 k q h; cases h
theorem landingBufferMove : ∀ x0 x1 x2 x3, Statement (.landingBufferMove x0 x1 x2 x3) := by intro x0 x1 x2 x3 k q h; cases h
theorem beamSegment : ∀ x0 x1 x2 x3, Statement (.beamSegment x0 x1 x2 x3) := by intro x0 x1 x2 x3 k q h; cases h
theorem segmentReadout : ∀ x0 x1 x2 x3 x4 x5, Statement (.segmentReadout x0 x1 x2 x3 x4 x5) := by intro x0 x1 x2 x3 x4 x5 k q h; cases h
theorem peakListEmit : ∀ x0, Statement (.peakListEmit x0) := by intro x0 k q h; cases h
theorem tileClaim : ∀ x0, Statement (.tileClaim x0) := by intro x0 k q h; cases h
theorem spillPlaneTake : ∀ x0, Statement (.spillPlaneTake x0) := by intro x0 k q h; cases h
theorem tileReadout : ∀ x0 x1 x2, Statement (.tileReadout x0 x1 x2) := by intro x0 x1 x2 k q h; cases h
theorem laDump : ∀ x0 x1 x2, Statement (.laDump x0 x1 x2) := by intro x0 x1 x2 k q h; cases h
theorem packItemArrive : ∀ x0 x1, Statement (.packItemArrive x0 x1) := by intro x0 x1 k q h; cases h
theorem packItemDone : ∀ x0, Statement (.packItemDone x0) := by intro x0 k q h; cases h
theorem egressAgeExpiry : ∀ x0, Statement (.egressAgeExpiry x0) := by intro x0 k q h; cases h
theorem datagramTransmit : ∀ x0, Statement (.datagramTransmit x0) := by intro x0 k q h; cases h
theorem pauseFrameReceive : ∀ x0, Statement (.pauseFrameReceive x0) := by intro x0 k q h; cases h
theorem hostRingWrite : ∀ x0, Statement (.hostRingWrite x0) := by intro x0 k q h; cases h
theorem hostringAgeExpiry : ∀ x0, Statement (.hostringAgeExpiry x0) := by intro x0 k q h; cases h
theorem loadDecodeDone : ∀ x0 x1, Statement (.loadDecodeDone x0 x1) := by intro x0 x1 k q h; cases h
theorem pegAdd : ∀ x0 x1 x2 x3, Statement (.pegAdd x0 x1 x2 x3) := by intro x0 x1 x2 x3 k q h; cases h
theorem pegSub : ∀ x0 x1 x2 x3, Statement (.pegSub x0 x1 x2 x3) := by intro x0 x1 x2 x3 k q h; cases h
theorem pegAnd : ∀ x0 x1 x2 x3, Statement (.pegAnd x0 x1 x2 x3) := by intro x0 x1 x2 x3 k q h; cases h
theorem pegOr : ∀ x0 x1 x2 x3, Statement (.pegOr x0 x1 x2 x3) := by intro x0 x1 x2 x3 k q h; cases h
theorem pegXor : ∀ x0 x1 x2 x3, Statement (.pegXor x0 x1 x2 x3) := by intro x0 x1 x2 x3 k q h; cases h
theorem pegMin : ∀ x0 x1 x2 x3, Statement (.pegMin x0 x1 x2 x3) := by intro x0 x1 x2 x3 k q h; cases h
theorem pegMax : ∀ x0 x1 x2 x3, Statement (.pegMax x0 x1 x2 x3) := by intro x0 x1 x2 x3 k q h; cases h
theorem pegAbs : ∀ x0 x1 x2, Statement (.pegAbs x0 x1 x2) := by intro x0 x1 x2 k q h; cases h
theorem pegAdds : ∀ x0 x1 x2 x3, Statement (.pegAdds x0 x1 x2 x3) := by intro x0 x1 x2 x3 k q h; cases h
theorem pegShl : ∀ x0 x1 x2 x3, Statement (.pegShl x0 x1 x2 x3) := by intro x0 x1 x2 x3 k q h; cases h
theorem pegShr : ∀ x0 x1 x2 x3, Statement (.pegShr x0 x1 x2 x3) := by intro x0 x1 x2 x3 k q h; cases h
theorem pegSar : ∀ x0 x1 x2 x3, Statement (.pegSar x0 x1 x2 x3) := by intro x0 x1 x2 x3 k q h; cases h
theorem pegRot : ∀ x0 x1 x2 x3, Statement (.pegRot x0 x1 x2 x3) := by intro x0 x1 x2 x3 k q h; cases h
theorem pegClz : ∀ x0 x1 x2, Statement (.pegClz x0 x1 x2) := by intro x0 x1 x2 k q h; cases h
theorem pegPopc : ∀ x0 x1 x2, Statement (.pegPopc x0 x1 x2) := by intro x0 x1 x2 k q h; cases h
theorem pegBitrev : ∀ x0 x1 x2, Statement (.pegBitrev x0 x1 x2) := by intro x0 x1 x2 k q h; cases h
theorem pegExt : ∀ x0 x1 x2 x3 x4, Statement (.pegExt x0 x1 x2 x3 x4) := by intro x0 x1 x2 x3 x4 k q h; cases h
theorem pegIns : ∀ x0 x1 x2 x3 x4, Statement (.pegIns x0 x1 x2 x3 x4) := by intro x0 x1 x2 x3 x4 k q h; cases h
theorem pegPadd : ∀ x0 x1 x2 x3, Statement (.pegPadd x0 x1 x2 x3) := by intro x0 x1 x2 x3 k q h; cases h
theorem pegPsub : ∀ x0 x1 x2 x3, Statement (.pegPsub x0 x1 x2 x3) := by intro x0 x1 x2 x3 k q h; cases h
theorem pegPsat : ∀ x0 x1 x2 x3, Statement (.pegPsat x0 x1 x2 x3) := by intro x0 x1 x2 x3 k q h; cases h
theorem pegCmp : ∀ x0 x1 x2 x3, Statement (.pegCmp x0 x1 x2 x3) := by intro x0 x1 x2 x3 k q h; cases h
theorem pegBrCc : ∀ x0 x1 x2 x3, Statement (.pegBrCc x0 x1 x2 x3) := by intro x0 x1 x2 x3 k q h; cases h
theorem pegCall : ∀ x0 x1, Statement (.pegCall x0 x1) := by intro x0 x1 k q h; cases h
theorem pegRet : ∀ x0 x1, Statement (.pegRet x0 x1) := by intro x0 x1 k q h; cases h
theorem pegJmp : ∀ x0 x1, Statement (.pegJmp x0 x1) := by intro x0 x1 k q h; cases h
theorem pegLd : ∀ x0 x1 x2, Statement (.pegLd x0 x1 x2) := by intro x0 x1 x2 k q h; cases h
theorem pegLdh : ∀ x0 x1 x2, Statement (.pegLdh x0 x1 x2) := by intro x0 x1 x2 k q h; cases h
theorem pegLdb : ∀ x0 x1 x2, Statement (.pegLdb x0 x1 x2) := by intro x0 x1 x2 k q h; cases h
theorem pegSt : ∀ x0 x1 x2, Statement (.pegSt x0 x1 x2) := by intro x0 x1 x2 k q h; cases h
theorem pegSth : ∀ x0 x1 x2, Statement (.pegSth x0 x1 x2) := by intro x0 x1 x2 k q h; cases h
theorem pegStb : ∀ x0 x1 x2, Statement (.pegStb x0 x1 x2) := by intro x0 x1 x2 k q h; cases h
theorem pegMovp : ∀ x0 x1 x2, Statement (.pegMovp x0 x1 x2) := by intro x0 x1 x2 k q h; cases h
theorem pegMovm : ∀ x0 x1 x2, Statement (.pegMovm x0 x1 x2) := by intro x0 x1 x2 k q h; cases h
theorem pegMovcb : ∀ x0 x1 x2, Statement (.pegMovcb x0 x1 x2) := by intro x0 x1 x2 k q h; cases h
theorem pegMovcl : ∀ x0 x1 x2, Statement (.pegMovcl x0 x1 x2) := by intro x0 x1 x2 k q h; cases h
theorem pegQmac : ∀ x0 x1 x2, Statement (.pegQmac x0 x1 x2) := by intro x0 x1 x2 k q h; cases h
theorem pegQmacL : ∀ x0 x1 x2 x3 x4, Statement (.pegQmacL x0 x1 x2 x3 x4) := by intro x0 x1 x2 x3 x4 k q h; cases h
theorem pegQmacN : ∀ x0 x1 x2, Statement (.pegQmacN x0 x1 x2) := by intro x0 x1 x2 k q h; cases h
theorem pegSmac : ∀ x0 x1 x2 x3, Statement (.pegSmac x0 x1 x2 x3) := by intro x0 x1 x2 x3 k q h; cases h
theorem pegSmacN : ∀ x0 x1 x2 x3, Statement (.pegSmacN x0 x1 x2 x3) := by intro x0 x1 x2 x3 k q h; cases h
theorem pegAccrd : ∀ x0 x1 x2 x3, Statement (.pegAccrd x0 x1 x2 x3) := by intro x0 x1 x2 x3 k q h; cases h
theorem pegAccmv : ∀ x0 x1 x2 x3, Statement (.pegAccmv x0 x1 x2 x3) := by intro x0 x1 x2 x3 k q h; cases h
theorem pegAccclr : ∀ x0 x1, Statement (.pegAccclr x0 x1) := by intro x0 x1 k q h; cases h
theorem pegLoop : ∀ x0 x1 x2 x3, Statement (.pegLoop x0 x1 x2 x3) := by intro x0 x1 x2 x3 k q h; cases h
theorem pegXfer : ∀ x0 x1 x2, Statement (.pegXfer x0 x1 x2) := by intro x0 x1 x2 k q h; cases h
theorem pegXwait : ∀ x0 x1 x2, Statement (.pegXwait x0 x1 x2) := by intro x0 x1 x2 k q h; cases h
theorem pegWait : ∀ x0, Statement (.pegWait x0) := by intro x0 k q h; cases h
theorem pegReti : ∀ x0, Statement (.pegReti x0) := by intro x0 k q h; cases h
theorem pegMovstat : ∀ x0 x1 x2 x3, Statement (.pegMovstat x0 x1 x2 x3) := by intro x0 x1 x2 x3 k q h; cases h
theorem pegSignal : ∀ x0 x1, Statement (.pegSignal x0 x1) := by intro x0 x1 k q h; cases h
theorem pegSettimer : ∀ x0 x1, Statement (.pegSettimer x0 x1) := by intro x0 x1 k q h; cases h
theorem pegTrap : ∀ x0, Statement (.pegTrap x0) := by intro x0 k q h; cases h
theorem pegNop : ∀ x0, Statement (.pegNop x0) := by intro x0 k q h; cases h
theorem pegInterruptEntry : ∀ x0, Statement (.pegInterruptEntry x0) := by intro x0 k q h; cases h
theorem pegTimerCompare : ∀ x0, Statement (.pegTimerCompare x0) := by intro x0 k q h; cases h
theorem pegDoorbell : ∀ x0, Statement (.pegDoorbell x0) := by intro x0 k q h; cases h
theorem xferComplete : ∀ x0 x1 x2 x3, Statement (.xferComplete x0 x1 x2 x3) := by intro x0 x1 x2 x3 k q h; cases h
theorem alignBlockReceive : ∀ x0 x1 x2, Statement (.alignBlockReceive x0 x1 x2) := by intro x0 x1 x2 k q h; cases h
theorem alignMissing : ∀ x0, Statement (.alignMissing x0) := by intro x0 k q h; cases h
theorem blockLockAcquired : ∀ x0 x1, Statement (.blockLockAcquired x0 x1) := by intro x0 x1 k q h; cases h
theorem blockLockLost : ∀ x0 x1, Statement (.blockLockLost x0 x1) := by intro x0 x1 k q h; cases h
theorem fecCodeword : ∀ x0 x1, Statement (.fecCodeword x0 x1) := by intro x0 x1 k q h; cases h
theorem trainBlockReceive : ∀ x0 x1, Statement (.trainBlockReceive x0 x1) := by intro x0 x1 k q h; cases h
theorem capBlockReceive : ∀ x0 x1, Statement (.capBlockReceive x0 x1) := by intro x0 x1 k q h; cases h
theorem napReq : ∀ x0, Statement (.napReq x0) := by intro x0 k q h; cases h
theorem napAck : ∀ x0, Statement (.napAck x0) := by intro x0 k q h; cases h
theorem napNak : ∀ x0, Statement (.napNak x0) := by intro x0 k q h; cases h
theorem napIdleTimer : ∀ x0, Statement (.napIdleTimer x0) := by intro x0 k q h; cases h
theorem fastExit : ∀ x0 x1 x2, Statement (.fastExit x0 x1 x2) := by intro x0 x1 x2 k q h; cases h
theorem fastExitTimeout : ∀ x0, Statement (.fastExitTimeout x0) := by intro x0 k q h; cases h
theorem receiverDetect : ∀ x0 x1, Statement (.receiverDetect x0 x1) := by intro x0 x1 k q h; cases h
theorem trainTimeout : ∀ x0, Statement (.trainTimeout x0) := by intro x0 k q h; cases h
theorem lockTimeout : ∀ x0, Statement (.lockTimeout x0) := by intro x0 k q h; cases h
theorem exchangeTimeout : ∀ x0, Statement (.exchangeTimeout x0) := by intro x0 k q h; cases h
theorem quadLost : ∀ x0, Statement (.quadLost x0) := by intro x0 k q h; cases h
theorem ethLinkChange : ∀ x0 x1, Statement (.ethLinkChange x0 x1) := by intro x0 x1 k q h; cases h
theorem patternCheckLock : ∀ x0 x1, Statement (.patternCheckLock x0 x1) := by intro x0 x1 k q h; cases h
theorem moduleInsert : ∀ x0 x1 x2, Statement (.moduleInsert x0 x1 x2) := by intro x0 x1 x2 k q h; cases h
theorem moduleRemove : ∀ x0, Statement (.moduleRemove x0) := by intro x0 k q h; cases h
theorem modulePoll : ∀ x0 x1, Statement (.modulePoll x0 x1) := by intro x0 x1 k q h; cases h
theorem ppsEdge : ∀ x0 x1 x2, Statement (.ppsEdge x0 x1 x2) := by intro x0 x1 x2 k q h; cases h
theorem tb0Second : ∀ x0, Statement (.tb0Second x0) := by intro x0 k q h; cases h
theorem refVerdict : ∀ x0, Statement (.refVerdict x0) := by intro x0 k q h; cases h
theorem referenceSwitch : ∀ x0, Statement (.referenceSwitch x0) := by intro x0 k q h; cases h
theorem ptpMessageReceive : ∀ x0 x1 x2, Statement (.ptpMessageReceive x0 x1 x2) := by intro x0 x1 x2 k q h; cases h
theorem ptpAnnounceTimeout : Statement (.ptpAnnounceTimeout) := by intro k q h; cases h
theorem ptpRelayFrame : ∀ x0 x1, Statement (.ptpRelayFrame x0 x1) := by intro x0 x1 k q h; cases h
theorem timeTriggerFire : ∀ x0, Statement (.timeTriggerFire x0) := by intro x0 k q h; cases h
theorem tb3MirrorUpdate : Statement (.tb3MirrorUpdate) := by intro k q h; cases h
theorem adcTrigEdge : ∀ x0, Statement (.adcTrigEdge x0) := by intro x0 k q h; cases h
theorem fanTachEdge : ∀ x0 x1, Statement (.fanTachEdge x0 x1) := by intro x0 x1 k q h; cases h
theorem pinStuck : ∀ x0, Statement (.pinStuck x0) := by intro x0 k q h; cases h
theorem dramRead : ∀ x0 x1 x2 x3 x4, Statement (.dramRead x0 x1 x2 x3 x4) := by intro x0 x1 x2 x3 x4 k q h; cases h
theorem dramWrite : ∀ x0 x1, Statement (.dramWrite x0 x1) := by intro x0 x1 k q h; cases h
theorem channelLost : ∀ x0 x1, Statement (.channelLost x0 x1) := by intro x0 x1 k q h; cases h
theorem refresh : ∀ x0 x1 x2, Statement (.refresh x0 x1 x2) := by intro x0 x1 x2 k q h; cases h
theorem pageIdleClose : ∀ x0 x1, Statement (.pageIdleClose x0 x1) := by intro x0 x1 k q h; cases h
theorem recentre : ∀ x0 x1 x2 x3 x4, Statement (.recentre x0 x1 x2 x3 x4) := by intro x0 x1 x2 x3 x4 k q h; cases h
theorem dimmTempPoll : ∀ x0 x1 x2, Statement (.dimmTempPoll x0 x1 x2) := by intro x0 x1 x2 k q h; cases h
theorem patrolScrub : ∀ x0 x1, Statement (.patrolScrub x0 x1) := by intro x0 x1 k q h; cases h
theorem crossbarRequest : ∀ x0 x1 x2 x3 x4 x5 x6, Statement (.crossbarRequest x0 x1 x2 x3 x4 x5 x6) := by intro x0 x1 x2 x3 x4 x5 x6 k q h; cases h
theorem portIdle : ∀ x0, Statement (.portIdle x0) := by intro x0 k q h; cases h
theorem targetReset : ∀ x0 x1, Statement (.targetReset x0 x1) := by intro x0 x1 k q h; cases h
theorem dmaBurst : ∀ x0 x1 x2, Statement (.dmaBurst x0 x1 x2) := by intro x0 x1 x2 k q h; cases h
theorem dmaDescriptorComplete : ∀ x0, Statement (.dmaDescriptorComplete x0) := by intro x0 k q h; cases h
theorem vin12Rise : Statement (.vin12Rise) := by intro k q h; cases h
theorem resetRelease : Statement (.resetRelease) := by intro k q h; cases h
theorem resetNAssert : Statement (.resetNAssert) := by intro k q h; cases h
theorem supplyFault : ∀ x0, Statement (.supplyFault x0) := by intro x0 k q h; cases h
theorem supplyRestart : Statement (.supplyRestart) := by intro k q h; cases h
theorem vmodOverload : ∀ x0, Statement (.vmodOverload x0) := by intro x0 k q h; cases h
theorem vmodRetry : ∀ x0, Statement (.vmodRetry x0) := by intro x0 k q h; cases h
theorem boot : ∀ x0, Statement (.boot x0) := by intro x0 k q h; cases h
theorem bootZeroingDone : Statement (.bootZeroingDone) := by intro k q h; cases h
theorem bootTimeout : Statement (.bootTimeout) := by intro k q h; cases h
theorem updateReboot : Statement (.updateReboot) := by intro k q h; cases h
theorem powerMonitorExceeded : ∀ x0 x1, Statement (.powerMonitorExceeded x0 x1) := by intro x0 x1 k q h; cases h
theorem adcRoundEnd : ∀ x0, Statement (.adcRoundEnd x0) := by intro x0 k q h; cases h
theorem adcInjectConversion : ∀ x0 x1, Statement (.adcInjectConversion x0 x1) := by intro x0 x1 k q h; cases h
theorem adcInjectTimer : ∀ x0, Statement (.adcInjectTimer x0) := by intro x0 k q h; cases h
theorem adcCalStepDone : ∀ x0, Statement (.adcCalStepDone x0) := by intro x0 k q h; cases h
theorem thermalTrip : ∀ x0, Statement (.thermalTrip x0) := by intro x0 k q h; cases h
theorem fanCycle : Statement (.fanCycle) := by intro k q h; cases h
theorem fanLoopIdle : Statement (.fanLoopIdle) := by intro k q h; cases h
theorem fanFail : ∀ x0, Statement (.fanFail x0) := by intro x0 k q h; cases h
theorem epochEnd : Statement (.epochEnd) := by intro k q h; cases h
theorem recordSeal : ∀ x0, Statement (.recordSeal x0) := by intro x0 k q h; cases h
theorem hbInEdge : ∀ x0, Statement (.hbInEdge x0) := by intro x0 k q h; cases h
theorem heartbeat : ∀ x0, Statement (.heartbeat x0) := by intro x0 k q h; cases h
theorem checkpoint : ∀ x0, Statement (.checkpoint x0) := by intro x0 k q h; cases h
theorem checkpointStale : Statement (.checkpointStale) := by intro k q h; cases h
theorem handover : ∀ x0, Statement (.handover x0) := by intro x0 k q h; cases h
theorem reclaim : ∀ x0, Statement (.reclaim x0) := by intro x0 k q h; cases h
theorem reclaimAck : ∀ x0, Statement (.reclaimAck x0) := by intro x0 k q h; cases h
theorem takeover : Statement (.takeover) := by intro k q h; cases h
theorem takeoverComplete : Statement (.takeoverComplete) := by intro k q h; cases h
theorem yieldLead : Statement (.yieldLead) := by intro k q h; cases h
theorem ridgeHeartbeatWithdraw : Statement (.ridgeHeartbeatWithdraw) := by intro k q h; cases h
theorem hbPathDown : ∀ x0, Statement (.hbPathDown x0) := by intro x0 k q h; cases h
theorem configMismatch : Statement (.configMismatch) := by intro k q h; cases h
theorem twinSkew : Statement .twinSkew := by intro k q h; cases h
theorem arrayTestDone : ∀ x0, Statement (.arrayTestDone x0) := by intro x0 k q h; cases h
theorem dramRetrainDone : ∀ x0 x1, Statement (.dramRetrainDone x0 x1) := by intro x0 x1 k q h; cases h
theorem packEncodeDone : Statement (.packEncodeDone) := by intro k q h; cases h
theorem fwUpdateDataDone : ∀ x0, Statement (.fwUpdateDataDone x0) := by intro x0 k q h; cases h
theorem fwUpdateCheckDone : ∀ x0, Statement (.fwUpdateCheckDone x0) := by intro x0 k q h; cases h
theorem fwKeyEnrollDone : ∀ x0, Statement (.fwKeyEnrollDone x0) := by intro x0 k q h; cases h
theorem recClearDone : Statement (.recClearDone) := by intro k q h; cases h
theorem recReadDone : ∀ x0, Statement (.recReadDone x0) := by intro x0 k q h; cases h
theorem chanStatsReadDone : ∀ x0, Statement (.chanStatsReadDone x0) := by intro x0 k q h; cases h
theorem bulkTransferTimeout : ∀ x0, Statement (.bulkTransferTimeout x0) := by intro x0 k q h; cases h
theorem followerHeartbeatToggle : Statement (.followerHeartbeatToggle) := by intro k q h; cases h
theorem pinStuckRelease : ∀ x0, Statement (.pinStuckRelease x0) := by intro x0 k q h; cases h
theorem vin12Removed : Statement (.vin12Removed) := by intro k q h; cases h
theorem pcieLinkTrained : ∀ x0 x1, Statement (.pcieLinkTrained x0 x1) := by intro x0 x1 k q h; cases h
theorem fanPwmEdge : ∀ x0, Statement (.fanPwmEdge x0) := by intro x0 k q h; cases h

end Sys2Proof.Laws.OpcodeRoundTrip
end

