-- ==== Sys2Proof/WellFormed.lean ====
section
/-! DEFINITION. Which commands can occur: operands within the widths and ranges that the manual gives the row's fields. The
meanings are total; a command that is not well formed names nothing the part has. -/

namespace Sys2Proof

/-- Opcodes of Tables 16.6 to 16.11 (R378). -/
def opcodes : List Nat :=
  [0x0000, 0x0001, 0x0002, 0x0100, 0x0101, 0x0102, 0x0200, 0x0201, 0x0202, 0x0203, 0x0204, 0x0205] ++
  [0x0206, 0x0207, 0x0208, 0x0209, 0x020A, 0x020B, 0x020C, 0x0300, 0x0301, 0x0302, 0x0303, 0x0304] ++
  [0x0305, 0x0306, 0x0307, 0x0400, 0x0401, 0x0402, 0x0403, 0x0404, 0x0405, 0x0406, 0x0500, 0x0501] ++
  [0x0502, 0x0503, 0x0504, 0x0505, 0x0506, 0x0507, 0x0508, 0x0600, 0x0601, 0x0602, 0x0603, 0x0604] ++
  [0x0605, 0x0606, 0x0607, 0x0608, 0x0609, 0x060A, 0x060B, 0x060C, 0x060D, 0x060E, 0x060F, 0x0610] ++
  [0x0700, 0x0701, 0x0702, 0x0703, 0x0800, 0x0801, 0x0802, 0x0803, 0x0804, 0x0805, 0x0806, 0x0807] ++
  [0x0808, 0x0809, 0x0900, 0x0901, 0x0902, 0x0903, 0x0904, 0x0A00, 0x0A01, 0x0A02, 0x0B00, 0x0B01] ++
  [0x0B02, 0x0B03, 0x0B04, 0x0B05, 0x0C00, 0x0C01, 0x0C02, 0x0C03, 0x0D00, 0x0D01, 0x0D02, 0x0E00] ++
  [0x0E01, 0x0E02, 0x0E03, 0x0E04, 0x0E05, 0x0E06, 0x0F00, 0x0F01]

/-- A request fits its half of a slot, and its argument is as long as the Ridge copies (R366): 4064 bytes at most. -/
def requestWf (q : Request) : Bool := decide (q.arg.length ≤ 4064)

/-- Lengths of an access that BAR0 takes (R347). -/
def accessLen (n : Nat) : Bool := [1, 2, 4, 8, 16, 32, 64].contains n

/-- Offsets of the control words of the Tether window (Table 15.10). -/
def controlOffset (o : Nat) : Bool :=
  (decide (0x1000 ≤ o ∧ o < 0x1400) && o % 32 = 28) || (decide (0x2000 ≤ o ∧ o < 0x2200) && o % 32 = 28) ||
    (decide (0x10000 ≤ o ∧ o < 0x14000) && o % 64 = 60)

/-- A peg instruction that reads no data memory meets no ECC error in it. -/
def noDmem (p : PegIssue) : Bool := p.dmem = .ok

/-- A command is well formed. -/
def Instr.wf (c : Instr) : Bool :=
  match c with
  | .sysInfo q => requestWf q
  | .sysSafe q => requestWf q
  | .sysRestart q => requestWf q
  | .txnBegin q => requestWf q
  | .txnCommit q => requestWf q
  | .txnRollback q => requestWf q
  | .timeRefConfig q => requestWf q
  | .timeRefSelect q => requestWf q
  | .timePllConfig q => requestWf q
  | .timeSet q => requestWf q
  | .timeAdjust q => requestWf q
  | .timeOutConfig q => requestWf q
  | .timeTrigArm q => requestWf q
  | .timeTrigCancel q => requestWf q
  | .timeStatus q => requestWf q
  | .ptpConfig q => requestWf q
  | .ptpStep q => requestWf q
  | .ptpRelayConfig q => requestWf q
  | .pinFilterConfig q => requestWf q
  | .laneConfig q => requestWf q
  | .laneRetrain q => requestWf q
  | .lanePrbs q => requestWf q
  | .laneStatus q => requestWf q
  | .ethConfig q => requestWf q
  | .moduleConfig q => requestWf q
  | .moduleRead q => requestWf q
  | .moduleWrite q => requestWf q
  | .ingestConfig q => requestWf q
  | .ingestStatus q => requestWf q
  | .streamConfig q => requestWf q
  | .streamEnable q => requestWf q
  | .streamDisable q => requestWf q
  | .streamStatus q => requestWf q
  | .flowSet q => requestWf q
  | .chanConfig q => requestWf q
  | .chanSync q => requestWf q
  | .chanCoefLoad q => requestWf q
  | .chanCoefSwap q => requestWf q
  | .chanGainMode q => requestWf q
  | .chanGainSet q => requestWf q
  | .chanStatsConfig q => requestWf q
  | .chanStatsRead q => requestWf q
  | .chanStatus q => requestWf q
  | .schedLoad q => requestWf q
  | .schedSelect q => requestWf q
  | .schedConfig q => requestWf q
  | .schedShed q => requestWf q
  | .schedStop q => requestWf q
  | .schedStatus q => requestWf q
  | .arrayConfig q => requestWf q
  | .arrayTest q => requestWf q
  | .arrayStatus q => requestWf q
  | .beamConfig q => requestWf q
  | .beamWeightLoad q => requestWf q
  | .beamWeightMap q => requestWf q
  | .beamWatch q => requestWf q
  | .beamStatus q => requestWf q
  | .pegServiceConfig q => requestWf q
  | .pegRestart q => requestWf q
  | .pegStatus q => requestWf q
  | .claspConfig q => requestWf q
  | .claspTableLoad q => requestWf q
  | .claspCurveLoad q => requestWf q
  | .claspStatus q => requestWf q
  | .facetConfig q => requestWf q
  | .facetStatus q => requestWf q
  | .packConfig q => requestWf q
  | .packEncode q => requestWf q
  | .packStatus q => requestWf q
  | .ostreamConfig q => requestWf q
  | .ostreamStatus q => requestWf q
  | .egressConfig q => requestWf q
  | .egressStatus q => requestWf q
  | .hostringConfig q => requestWf q
  | .dramConfig q => requestWf q
  | .dramRetrain q => requestWf q
  | .dramStatus q => requestWf q
  | .storeConfig q => requestWf q
  | .storeStatus q => requestWf q
  | .dmaCopy q => requestWf q
  | .dmaAbort q => requestWf q
  | .dmaStatus q => requestWf q
  | .healthConfig q => requestWf q
  | .healthAdcRead q => requestWf q
  | .healthAdcInject q => requestWf q
  | .healthAdcCal q => requestWf q
  | .healthFanConfig q => requestWf q
  | .healthStatus q => requestWf q
  | .recStatus q => requestWf q
  | .recRead q => requestWf q
  | .recExport q => requestWf q
  | .recClear q => requestWf q
  | .twinConfig q => requestWf q
  | .twinCheckpoint q => requestWf q
  | .twinStatus q => requestWf q
  | .fwInfo q => requestWf q
  | .fwUpdateBegin q => requestWf q
  | .fwUpdateData q => requestWf q
  | .fwUpdateEnd q => requestWf q
  | .fwUpdateAbort q => requestWf q
  | .fwKeyEnroll q => requestWf q
  | .pegKernelLoad q => requestWf q
  | .testEcho q => requestWf q
  | .testEvent q => requestWf q
  | .unknownOpcode op q => !opcodes.contains op.toNat && requestWf q
  | .doorbell _ _ => true
  | .mailboxRequestWrite _ _ d => accessLen d.length
  | .respReadyWrite _ => true
  | .intCauseWrite _ => true
  | .hostringReadWrite _ _ => true
  | .evrReadWrite _ => true
  | .evrCtrlWrite _ => true
  | .evrBaseWrite _ => true
  | .evrLostRead => true
  | .doorbellInvalidRead => true
  | .mailboxWriteLockedRead => true
  | .tetherControlWordWrite o _ => controlOffset o.toNat
  | .tetherLockWrite _ => true
  | .tetherFieldWrite o d => accessLen d.length && o.toNat % max 1 d.length = 0
  | .registerWrite _ o d => accessLen d.length && o.toNat % max 1 d.length = 0
  | .poisonedWrite _ => true
  | .hostInterfaceReset _ => true
  | .busMasterOrD3 _ _ c _ => decide (c.maxPayload.toNat ≤ 2) && decide (c.maxRead.toNat ≤ 5)
  | .hostCompletionError c _ => c != 13 && c != 15
  | .ridgeBeginsRequest => true
  | .eventEntryWrite => true
  | .interruptCoalesceTimeout c => c = 1 || decide (16 ≤ c.toNat)
  | .frameTick => true
  | .guardStart => true
  | .degradedHoldoffEnd => true
  | .txnApply => true
  | .txnValidationDone => true
  | .txnExpiry => true
  | .schedLoadVerdict => true
  | .stopFrameReached => true
  | .gulFrameReceive _ f => !f.blocks.isEmpty
  | .ethFrameReceive _ _ => true
  | .holeDeadline _ => true
  | .heldPacketRelease _ => true
  | .channeliserStep _ _ _ => true
  | .syncInEdge _ => true
  | .syncReset => true
  | .statsIntervalEnd _ => true
  | .storeBurstDiscard => true
  | .chunkRead c _ => decide (c.pos < 65536) && decide (c.ib < 16)
  | .rfiFlagWrite _ p _ => decide (p < 65536)
  | .correlationPass _ i _ _ => decide (i.pos < 65536) && decide (i.tile < 136) && decide (i.log2J < 16) && decide (i.job < 65536)
  | .chainShift _ _ => true
  | .landingBufferMove _ _ _ _ => true
  | .beamSegment i _ _ _ => i.arrays ≠ 0 && decide (i.pos < 65536) && decide (i.set < 4) && decide (i.job < 65536) && decide (i.m < 65536)
  | .segmentReadout _ p m _ _ _ => decide (p < 65536) && decide (m < 65536)
  | .peakListEmit _ => true
  | .tileClaim _ => true
  | .spillPlaneTake _ => true
  | .tileReadout _ _ _ => true
  | .laDump _ _ ue => decide (ue.getD 0 < 8200)
  | .packItemArrive _ _ => true
  | .packItemDone _ => true
  | .egressAgeExpiry _ => true
  | .datagramTransmit _ => true
  | .pauseFrameReceive _ => true
  | .hostRingWrite _ => true
  | .hostringAgeExpiry _ => true
  | .loadDecodeDone _ _ => true
  | .pegAdd p _ _ _ => noDmem p
  | .pegSub p _ _ _ => noDmem p
  | .pegAnd p _ _ _ => noDmem p
  | .pegOr p _ _ _ => noDmem p
  | .pegXor p _ _ _ => noDmem p
  | .pegMin p _ _ _ => noDmem p
  | .pegMax p _ _ _ => noDmem p
  | .pegAbs p _ _ => noDmem p
  | .pegAdds p _ _ _ => noDmem p
  | .pegShl p _ _ _ => noDmem p
  | .pegShr p _ _ _ => noDmem p
  | .pegSar p _ _ _ => noDmem p
  | .pegRot p _ _ _ => noDmem p
  | .pegClz p _ _ => noDmem p
  | .pegPopc p _ _ => noDmem p
  | .pegBitrev p _ _ => noDmem p
  | .pegExt p _ _ _ _ => noDmem p
  | .pegIns p _ _ _ _ => noDmem p
  | .pegPadd p _ _ _ => noDmem p
  | .pegPsub p _ _ _ => noDmem p
  | .pegPsat p _ _ _ => noDmem p
  | .pegCmp p _ _ _ => noDmem p
  | .pegBrCc p _ _ _ => noDmem p
  | .pegCall p _ => noDmem p
  | .pegRet p _ => noDmem p
  | .pegJmp p _ => noDmem p
  | .pegLd _ _ _ => true
  | .pegLdh _ _ _ => true
  | .pegLdb _ _ _ => true
  | .pegSt p _ _ => noDmem p
  | .pegSth p _ _ => noDmem p
  | .pegStb p _ _ => noDmem p
  | .pegMovp p _ _ => noDmem p
  | .pegMovm p _ _ => noDmem p
  | .pegMovcb p _ _ => noDmem p
  | .pegMovcl p _ _ => noDmem p
  | .pegQmac p _ _ => noDmem p
  | .pegQmacL _ _ _ _ _ => true
  | .pegQmacN p _ _ => noDmem p
  | .pegSmac p _ _ _ => noDmem p
  | .pegSmacN p _ _ _ => noDmem p
  | .pegAccrd p _ _ _ => noDmem p
  | .pegAccmv p _ _ _ => noDmem p
  | .pegAccclr p _ => noDmem p
  | .pegLoop p _ _ _ => noDmem p
  | .pegXfer p _ t => noDmem p && decide (t.src < 2 ^ 48) && decide (t.dst < 2 ^ 48) && (!t.commit || t.table.isSome)
  | .pegXwait p _ _ => noDmem p
  | .pegWait p => noDmem p
  | .pegReti p => noDmem p
  | .pegMovstat p _ _ _ => noDmem p
  | .pegSignal p _ => noDmem p
  | .pegSettimer p _ => noDmem p
  | .pegTrap p => noDmem p
  | .pegNop p => noDmem p
  | .pegInterruptEntry _ => true
  | .pegTimerCompare _ => true
  | .pegDoorbell _ => true
  | .xferComplete p _ f _ => p.imem = .ok && (match f with
    | some n => decide (n ≤ 65536)
    | none => true)
  | .alignBlockReceive _ _ _ => true
  | .alignMissing _ => true
  | .blockLockAcquired _ _ => true
  | .blockLockLost _ _ => true
  | .fecCodeword _ w => (match w with
    | .gul l => decide (l.length = 32)
    | .rs _ => true)
  | .trainBlockReceive _ _ => true
  | .capBlockReceive _ _ => true
  | .napReq _ => true
  | .napAck _ => true
  | .napNak _ => true
  | .napIdleTimer _ => true
  | .fastExit _ _ _ => true
  | .fastExitTimeout _ => true
  | .receiverDetect _ _ => true
  | .trainTimeout _ => true
  | .lockTimeout _ => true
  | .exchangeTimeout _ => true
  | .quadLost _ => true
  | .ethLinkChange _ _ => true
  | .patternCheckLock _ _ => true
  | .moduleInsert _ _ _ => true
  | .moduleRemove _ => true
  | .modulePoll _ _ => true
  | .ppsEdge _ _ _ => true
  | .tb0Second l => l.all (fun e => decide (e.1 < 7) || e.1 = 15)
  | .refVerdict _ => true
  | .referenceSwitch _ => true
  | .ptpMessageReceive _ domain _ => decide (domain ≤ 255)
  | .ptpAnnounceTimeout => true
  | .ptpRelayFrame _ f => decide (f.ingress ≤ f.egress)
  | .timeTriggerFire _ => true
  | .tb3MirrorUpdate => true
  | .adcTrigEdge _ => true
  | .fanTachEdge _ _ => true
  | .pinStuck k => decide (k.toNat ≤ 8)
  | .dramRead _ _ c _ _ => decide (2 ≤ c.toNat) && decide (c.toNat ≤ 4)
  | .dramWrite c _ => decide (c.toNat < 12)
  | .channelLost c _ => decide (c.toNat < 12)
  | .refresh c _ _ => decide (c.toNat < 12)
  | .pageIdleClose c _ => decide (c.toNat < 12)
  | .recentre l _ _ _ ue => decide (l < 120) && decide (ue.getD 0 < 2 ^ 20)
  | .dimmTempPoll c _ _ => decide (c.toNat < 12)
  | .patrolScrub l _ => l.all (fun e => decide (e.2 < 64))
  | .crossbarRequest _ _ _ _ n b l => decide (1 ≤ b.toNat) && decide (b.toNat ≤ 4) && decide (b.toNat ≤ n) && decide (n ≤ 64 * b.toNat) &&
      (l.isEmpty || decide (l.length = n))
  | .portIdle _ => true
  | .targetReset _ _ => true
  | .dmaBurst _ _ _ => true
  | .dmaDescriptorComplete _ => true
  | .vin12Rise => true
  | .resetRelease => true
  | .resetNAssert => true
  | .supplyFault _ => true
  | .supplyRestart => true
  | .vmodOverload _ => true
  | .vmodRetry _ => true
  | .boot b => b.dimms.length = 12 && b.dimms.all (fun l => decide (l.length ≤ 2)) && b.lanes.length = 120
  | .bootZeroingDone => true
  | .bootTimeout => true
  | .updateReboot => true
  | .powerMonitorExceeded _ _ => true
  | .adcRoundEnd l => l.length = 48 && l.all (fun c => decide (c < 4096))
  | .adcInjectConversion _ r => decide (r < 4096)
  | .adcInjectTimer _ => true
  | .adcCalStepDone n => decide (n ≤ 256 * 4095)
  | .thermalTrip k => decide (k.toNat < 24)
  | .fanCycle => true
  | .fanLoopIdle => true
  | .fanFail _ => true
  | .epochEnd => true
  | .recordSeal _ => true
  | .hbInEdge _ => true
  | .heartbeat _ => true
  | .checkpoint _ => true
  | .checkpointStale => true
  | .handover _ => true
  | .reclaim _ => true
  | .reclaimAck _ => true
  | .takeover => true
  | .takeoverComplete => true
  | .yieldLead => true
  | .ridgeHeartbeatWithdraw => true
  | .hbPathDown _ => true
  | .configMismatch => true
  | .twinSkew => true
  | .arrayTestDone _ => true
  | .dramRetrainDone _ l => l.length = 120
  | .packEncodeDone => true
  | .fwUpdateDataDone _ => true
  | .fwUpdateCheckDone _ => true
  | .fwKeyEnrollDone _ => true
  | .recClearDone => true
  | .recReadDone _ => true
  | .chanStatsReadDone _ => true
  | .bulkTransferTimeout _ => true
  | .followerHeartbeatToggle => true
  | .pinStuckRelease k => decide (k.toNat ≤ 8)
  | .vin12Removed => true
  | .pcieLinkTrained g w => decide (1 ≤ g.toNat) && decide (g.toNat ≤ 5) && [1, 2, 4, 8].contains w.toNat
  | .fanPwmEdge _ => true

end Sys2Proof
end

