-- ==== Sys2Proof/Safety.lean ====
section
/-! DEFINITION. What counts as a safe run of the block: the terms in which statements speak of runs and of invariants. -/

namespace Sys2Proof.Machine

/-- A step that goes on: it ends in a next state, not in a fault or a refusal. -/
def goesOn (s : State) : Prop := ∃ t, step s = .next t

/-- The states that a run of `n` steps reaches from `s`, while it goes on. -/
def runN : Nat → State → Host.Outcome State Fault Refusal
  | 0, s => .next s
  | n + 1, s => match step s with
    | .next t => runN n t
    | .fault f => .fault f
    | .refused r => .refused r

/-- What the Tether window holds and firmware cannot change (R361, R363, R415): everything but what is being written. -/
def tetherLimits (s : State) : TetherSt := { s.tether with shadow := [] }

/-- The part is on and its function in D0: accesses to BAR0 reach their registers (Table 1.4, R345). -/
def barLive (s : State) : Prop := s.dev.state ≠ .off ∧ s.host.d3hot = false

/-- The Kenra request, of command `c`, that the Ridge has begun passes every check of R367 and takes its effect at once: it is none to
be staged, and no sample of it waits to be answered. -/
def passes (c : Instr) (k : Spec) (q : Request) (s : State) : Prop :=
  s.dev.state ≠ .off ∧ isActive c s = true ∧ s.host.sample = none ∧ checkRequest c k q (touchTxn k q s) = none ∧
    (staged k (touchTxn k q s) q = false ∨ k.load = true)

/-- The bytes of a request in a slot's request half (Table 16.1), little-endian. -/
def requestBytes (op : Nat) (q : Request) : List Byte :=
  leBytes 2 op ++ leBytes 2 q.flags.toNat ++ leBytes 4 q.tag.toNat ++ leBytes 4 q.txnId.toNat ++
    leBytes 2 q.argLength.toNat ++ leBytes 2 q.version.toNat ++ leBytes 16 q.reserved.toNat ++ q.arg

/-- Peg `p` as an instruction issued now finds it: every result due has reached its register (R248). -/
def pegNow (s : State) (p : BitVec 8) : Peg := (peg s p.toNat).commitTo (peg s p.toNat).cyc

/-- Peg `p` issues: the part is on, and the peg neither waits nor has stopped nor is about to start (R259, R261). -/
def pegIssues (s : State) (p : BitVec 8) : Prop := s.dev.state ≠ .off ∧ (pegNow s p).issues = true

/-- Peg `p` after an instruction has issued that left it as `g`: it has moved on, a cycle has passed, and INSTRUCTIONS has
counted it (R249, R255, R264, R268). -/
def issued (p : BitVec 8) (g : Peg) (s : State) : State :=
  count .instructions p.toNat (modPeg p.toNat (fun x => { g.advance with cyc := x.cyc + 1, ran := true }) s)

end Sys2Proof.Machine
end

