-- ==== Sys2Proof/Certificates/Slice0/Obligations.lean ====
section
/-! DEFINITION. The statements for the provers. Each docstring says what its statement says; OBLIGATIONS.json gives the
rules it rests on. -/

open Sys2Proof Sys2Proof.Machine

/-- O1, spec/95_what_each_step_holds.md, spec/01_architecture.md Table 1.2. For every command c, queue rest and state s: a
step of s with c at the front of its queue is exec of c on s with the rest as its queue. With an empty queue the part
lets its time bases count one nanosecond (log 5, the model's choice) and nothing else changes; in OFF nothing changes. -/
def Obligations.StepTakesFrontCommand : Prop :=
  (∀ (c : Instr) (rest : List Instr) (s : State),
    step { s with pending := c :: rest } = exec c { s with pending := rest }) ∧
  (∀ s : State, s.pending = [] → s.dev.state = .off → step s = .next s) ∧
  (∀ s : State, s.pending = [] → s.dev.state ≠ .off → step s = .next (elapse 1 s))

/-- O2, spec/95_what_each_step_holds.md. For every command c, and all states s and t: if exec of c on s answers the next
state t, the commands that wait in t are those that wait in s. -/
def Obligations.EveryCommandKeepsTheQueue : Prop :=
  ∀ (c : Instr) (s t : State), exec c s = .next t → t.pending = s.pending

/-- O3, spec/95_what_each_step_holds.md, spec/14_dram_controller.md R327. For every command c and state s: exec of c on s
answers a next state, unless the part is not OFF and c is a DRAM_READ at or above the end of the DRAM in use, or at an
address no channel in use holds, which faults with noDram. No command refuses. -/
def Obligations.OnlyDramReadCanStop : Prop :=
  ∀ (c : Instr) (s : State), (∃ t, exec c s = .next t) ∨
    (∃ a l k w r, c = .dramRead a l k w r ∧ s.dev.state ≠ .off ∧ (dramTop s ≤ a ∨ dramMap s a = none) ∧ exec c s = .fault .noDram)

/-- O4, R351, R366, R367, R374, spec/16_kenra_commands.md Tables 16.6 to 16.11. For every Kenra command c, with the row k
of its tables and its request q, other than SYS.RESTART and FW.UPDATE.ABORT, and every state s other than OFF in which
c is the request that the Ridge has begun: where the checks of R367 find nothing and the command is not one to be
staged, or is a load, exec of c answers the state in which the row's effect has been taken and the response stands in
the request's slot, ACCEPTED with a completion owed for a row that completes by event and OK for any other. A STATUS,
which was sampled and took its effect as the Ridge began it (R374), is answered OK with the bytes sampled. A Kenra
command, or an unknown opcode, that is not the active request changes nothing (log 8). -/
def Obligations.KenraCommandCompletes : Prop :=
  (∀ (c : Instr) (k : Spec) (q : Request) (s : State), kenraOf c = some (k, q) →
    (∀ r, c ≠ .sysRestart r) → (∀ r, c ≠ .fwUpdateAbort r) → passes c k q s →
    exec c s = .next (
      let s := touchTxn k q s
      if k.event then respond k.opcode q .accepted 0 0 (k.result s q) (k.act q (owe c q s))
      else respond k.opcode q .ok 0 (k.txnOut s) (k.result s q) (k.act q s))) ∧
  (∀ (c : Instr) (k : Spec) (q : Request) (s : State) (l : List Byte), kenraOf c = some (k, q) →
    (∀ r, c ≠ .sysRestart r) → (∀ r, c ≠ .fwUpdateAbort r) → s.dev.state ≠ .off → isActive c s = true →
    s.host.sample = some l → exec c s = .next (respond k.opcode q .ok 0 0 l (touchTxn k q s))) ∧
  (∀ (c : Instr) (s : State), ((kenraOf c).isSome = true ∨ (∃ op q, c = .unknownOpcode op q)) → isActive c s = false →
    exec c s = .next s)

/-- O5, R237, R352, R367, spec/16_kenra_commands.md Table 16.3. For every Kenra command c with its row k and request q,
and every state s other than OFF in which c is the active request and no sample waits to be answered: where the checks
of R367 fail with a status and a detail, exec of c answers the state in which that response has been given to the
state whose transaction timer the command has touched; the row's effect is not taken. The checks come in their order:
a bad header is MALFORMED with detail 0 whatever else is wrong; then a bad layout MALFORMED with the offset of the bad
field; then a device state that does not allow the command STATE; then the transaction check; then, for a command to
be staged, a load by its declared length, that would take the open transaction past 1 MiB, TXN_FULL; then a value out
of range RANGE with its offset; then, for a command not staged and for a load, its resource check, and BUSY for one
that would owe a 65th completion. Where none of these applies no check fails. -/
def Obligations.KenraRefusalAnswersFirstCheck : Prop :=
  (∀ (c : Instr) (k : Spec) (q : Request) (s : State) (st : Status) (d : Nat), kenraOf c = some (k, q) →
    s.dev.state ≠ .off → isActive c s = true → s.host.sample = none → checkRequest c k q (touchTxn k q s) = some (st, d) →
    exec c s = .next (respond k.opcode q st d 0 [] (touchTxn k q s))) ∧
  (∀ (c : Instr) (k : Spec) (q : Request) (s : State),
    (headerBad q = true → checkRequest c k q s = some (.malformed, 0)) ∧
    (∀ o, headerBad q = false → k.layout q.arg = some o → checkRequest c k q s = some (.malformed, o)) ∧
    (headerBad q = false → k.layout q.arg = none → stateCheck k s q.arg = false → checkRequest c k q s = some (.state, 0)) ∧
    (∀ st, headerBad q = false → k.layout q.arg = none → stateCheck k s q.arg = true → txnCheck k s q = some st →
      checkRequest c k q s = some (st, 0)) ∧
    (headerBad q = false → k.layout q.arg = none → stateCheck k s q.arg = true → txnCheck k s q = none →
      checkRequest c k q s = lateCheck c k q s)) ∧
  (∀ (c : Instr) (k : Spec) (q : Request) (s : State),
    let toStage := staged k s q = true ∧ k.load = false
    let full := staged k s q = true ∧ 2 ^ 20 < listBytes (keptStaged k c s) + k.bytes q.arg
    (full → lateCheck c k q s = some (.txnFull, 0)) ∧
    (∀ o, ¬full → k.range s q.arg = some o → lateCheck c k q s = some (.range, o)) ∧
    (¬full → k.range s q.arg = none → toStage → lateCheck c k q s = none) ∧
    (∀ x, ¬full → ¬toStage → k.range s q.arg = none → k.resource s q = some x → lateCheck c k q s = some x) ∧
    (¬full → ¬toStage → k.range s q.arg = none → k.resource s q = none → k.event = true → 64 ≤ s.host.owed.length →
      lateCheck c k q s = some (.busy, 0)) ∧
    (¬full → ¬toStage → k.range s q.arg = none → k.resource s q = none → (k.event = false ∨ s.host.owed.length < 64) →
      lateCheck c k q s = none))

/-- O6, R237, spec/10_frame_schedule.md Table 10.6. For every Kenra command c with row k and request q, in every state s
other than OFF in which c is the active request and no sample waits: where all checks pass and the command is a
transactional or READY-only setting, not a load, that carries the id of the open transaction, exec of c answers the
state in which the command stands last among those staged, the staged commands that it replaces are gone (those of its
own row that set nothing it does not set; log 45), and the response is STAGED with the id; its effect is not taken. -/
def Obligations.SettingIsStagedInOpenTransaction : Prop :=
  ∀ (c : Instr) (k : Spec) (q : Request) (s : State), kenraOf c = some (k, q) →
    (∀ r, c ≠ .sysRestart r) → (∀ r, c ≠ .fwUpdateAbort r) →
    s.dev.state ≠ .off → isActive c s = true → s.host.sample = none → checkRequest c k q (touchTxn k q s) = none → staged k (touchTxn k q s) q = true → k.load = false →
    exec c s = .next (respond k.opcode q .staged 0 q.txnId.toNat []
      { touchTxn k q s with sched.staged := keptStaged k c (touchTxn k q s) ++ [(c, q.arg)] })

/-- O7, R366, R367, spec/16_kenra_commands.md Tables 16.6, 16.11, spec/01_architecture.md Table 1.5. In every state other
than OFF, of the active request: SYS.RESTART (cause 10 of Table 1.5) and FW.UPDATE.ABORT (cause 9), where their checks
pass, are answered and the part then enters BOOT; a request whose opcode no table lists is answered UNKNOWN_OPCODE, or
MALFORMED where its header is bad. -/
def Obligations.RestartCommandsEnterBoot : Prop :=
  (∀ (q : Request) (s : State), s.dev.state ≠ .off → isActive (.sysRestart q) s = true →
    checkRequest (.sysRestart q) specSysRestart q (touchTxn specSysRestart q s) = none →
    exec (.sysRestart q) s = .next (enterBoot 10 (kenraStep (.sysRestart q) specSysRestart q s)) ∧
    (enterBoot 10 (kenraStep (.sysRestart q) specSysRestart q s)).dev.state = .boot) ∧
  (∀ (q : Request) (s : State), s.dev.state ≠ .off → isActive (.fwUpdateAbort q) s = true →
    checkRequest (.fwUpdateAbort q) specFwUpdateAbort q (touchTxn specFwUpdateAbort q s) = none →
    exec (.fwUpdateAbort q) s = .next (enterBoot 9 (kenraStep (.fwUpdateAbort q) specFwUpdateAbort q s)) ∧
    (enterBoot 9 (kenraStep (.fwUpdateAbort q) specFwUpdateAbort q s)).dev.state = .boot) ∧
  (∀ (op : BitVec 16) (q : Request) (s : State), s.dev.state ≠ .off → isActive (.unknownOpcode op q) s = true →
    exec (.unknownOpcode op q) s =
      .next (respond op.toNat q (if headerBad q then .malformed else .unknownOpcode) 0 0 [] s))

/-- O8, R349, R350. While the part is on and the function is in D0: a doorbell that names a slot that is not FREE changes
nothing but the count DOORBELL_INVALID; one that names a FREE slot makes it POSTED, puts it last in doorbell order,
records the requester and leaves every other slot, DRAM, the Tether and the schedule's state; as long as the queue
lists different slots of the eight and none of them is FREE, a doorbell keeps that, so at most eight are queued. A
well-formed write to the request half of a FREE slot writes those bytes and changes nothing else; one to any other
slot's is discarded and counted MAILBOX_WRITE_LOCKED; a write to a response half changes nothing. A 1 in RESP_READY
frees a slot in DONE and leaves one in any other state, and every other slot. -/
def Obligations.MailboxSlotLife : Prop :=
  ∀ s : State, barLive s →
    (∀ (r : BitVec 16) (v : BitVec 32), (slot s (v.toNat % 8)).state ≠ .free →
      exec (.doorbell r v) s = .next (count .doorbellInvalid 0 s)) ∧
    (∀ (r : BitVec 16) (v : BitVec 32), (slot s (v.toNat % 8)).state = .free → ∃ t, exec (.doorbell r v) s = .next t ∧
      slot t (v.toNat % 8) = { slot s (v.toNat % 8) with state := .posted } ∧ t.host.queue = s.host.queue ++ [v.toNat % 8] ∧
      t.host.lastRequester = r ∧ (∀ j, j ≠ v.toNat % 8 → slot t j = slot s j) ∧ t.dram = s.dram ∧ t.tether = s.tether ∧
      t.sched = s.sched) ∧
    (∀ (r : BitVec 16) (v : BitVec 32), s.host.queue.Nodup → (∀ k ∈ s.host.queue, k < 8 ∧ (slot s k).state ≠ .free) →
      ∃ t, exec (.doorbell r v) s = .next t ∧ t.host.queue.Nodup ∧ (∀ k ∈ t.host.queue, k < 8 ∧ (slot t k).state ≠ .free) ∧
        t.host.queue.length ≤ 8) ∧
    (∀ (k : BitVec 3) (off : BitVec 13) (data : List Byte), accessOk off.toNat data.length = true → off.toNat < 4096 →
      (slot s k.toNat).state ≠ .free →
      exec (.mailboxRequestWrite k off data) s = .next (count .mailboxWriteLocked 0 s)) ∧
    (∀ (k : BitVec 3) (off : BitVec 13) (data : List Byte), accessOk off.toNat data.length = true → off.toNat < 4096 →
      (slot s k.toNat).state = .free → ∃ t, exec (.mailboxRequestWrite k off data) s = .next t ∧
      t = { s with host.slots := t.host.slots } ∧
      slot t k.toNat = { slot s k.toNat with request := memWrite (slot s k.toNat).request off.toNat data } ∧
      (∀ j, j ≠ k.toNat → slot t j = slot s j)) ∧
    (∀ (k : BitVec 3) (off : BitVec 13) (data : List Byte), 4096 ≤ off.toNat →
      exec (.mailboxRequestWrite k off data) s = .next s) ∧
    (∀ k : Nat, k < 8 → ∃ t, exec (.respReadyWrite (BitVec.ofNat 32 (2 ^ k))) s = .next t ∧
      t = { s with host.slots := t.host.slots } ∧
      slot t k = (if (slot s k).state = .done then { slot s k with state := .free, response := none } else slot s k) ∧
      (∀ j, j ≠ k → slot t j = slot s j))

/-- O9, spec/15_host_interface.md Tables 15.3, 15.4, 15.7, 15.8, R354, R355, spec/09_output_records.md R211. While the
part is on and the function is in D0, each of these answers a state that differs from the one before in what is named
alone. EVR_READ takes the count written. EVR_BASE takes the address written while ENABLE is 0 and keeps its value
while it is 1. A write to EVR_CTRL clears OVERFLOWED and BASE_DENIED where it has a 1; ENABLE falls with a 0, stays
with a 1 while it is set, and rises with a 1 where the base is aligned and its range lies in one window that permits
writes; else BASE_DENIED is set and its interrupt raised. INT_CAUSE bits are cleared by ones. HOSTRING_READ takes the
index written whether or not its ring exists; a ring that exists is no longer suspended, and the other rings are left.
Reading EVR_LOST, DOORBELL_INVALID or MAILBOX_WRITE_LOCKED returns the register's 64-bit value and clears the count. -/
def Obligations.RingAndInterruptRegisters : Prop :=
  ∀ s : State, barLive s →
    (∀ v : BitVec 64, exec (.evrReadWrite v) s = .next { s with evr.read := v.toNat }) ∧
    (∀ v : BitVec 64, s.evr.enable = false → exec (.evrBaseWrite v) s = .next { s with evr.base := v.toNat }) ∧
    (∀ v : BitVec 64, s.evr.enable = true → exec (.evrBaseWrite v) s = .next s) ∧
    (∀ v : BitVec 32,
      let s1 : State := { s with evr.baseDenied := s.evr.baseDenied && !testBit v.toNat 3
                                 evr.overflowed := s.evr.overflowed && !testBit v.toNat 2 }
      (testBit v.toNat 0 = false → exec (.evrCtrlWrite v) s = .next { s1 with evr.enable := false }) ∧
      (testBit v.toNat 0 = true → s.evr.enable = true → exec (.evrCtrlWrite v) s = .next s1) ∧
      (testBit v.toNat 0 = true → s.evr.enable = false → evrBaseOk s = true →
        exec (.evrCtrlWrite v) s = .next { s1 with evr.enable := true }) ∧
      (testBit v.toNat 0 = true → s.evr.enable = false → evrBaseOk s = false →
        exec (.evrCtrlWrite v) s = .next (interrupt 4 { s1 with evr.baseDenied := true }))) ∧
    (∀ v : BitVec 32, exec (.intCauseWrite v) s = .next { s with host.intCause := s.host.intCause &&& ~~~v }) ∧
    (∀ (k : BitVec 4) (v : BitVec 64), ∃ t, exec (.hostringReadWrite k v) s = .next t ∧
      t = { s with out.rings := t.out.rings, host.ringReads := t.host.ringReads } ∧ ringRead t k.toNat = v.toNat ∧
      ring t k.toNat = (ring s k.toNat).map (fun x => { x with suspended := false }) ∧
      (∀ j, j ≠ k.toNat → ringRead t j = ringRead s j ∧ ring t j = ring s j)) ∧
    exec .evrLostRead s = .next { s with evr.lost := 0, host.readData := s.evr.lost % 2 ^ 64 } ∧
    exec .doorbellInvalidRead s =
      .next { clearCtr .doorbellInvalid 0 s with host.readData := counter .doorbellInvalid 0 s % 2 ^ 64 } ∧
    exec .mailboxWriteLockedRead s =
      .next { clearCtr .mailboxWriteLocked 0 s with host.readData := counter .mailboxWriteLocked 0 s % 2 ^ 64 }

/-- O10, R354, R355, R356, R357. In every state other than OFF: the oldest event that is due, 100 µs after its GTS, is
taken into the hold buffer, and, outside BOOT, an entry is then written where one can be. A completion always goes to
the end of the hold buffer; any other event does where fewer than 960 such events and fewer than 1024 in all are held,
two fewer in BOOT (that the reserved places are kept so is the model's choice, logs 16 and 28), and else is discarded,
counted in EVR_LOST, and OVERFLOWED is set. With none due and the ring running, reachable and not full (i − EVR_READ <
4096), and PCIe outbound not held in reset, entry i is written at EVR_BASE + 64 × (i mod 4096) and then the count i +
1 at EVR_BASE − 64: the oldest held event, or, where a discard stands before one other than BOOT_REPORT, an
EVENTS_LOST entry with AFTER_LOSS set that gives the number discarded and the GTS of the first and the last (its own
GTS is the model's choice, log 16). With none due and the ring full, disabled or out of reach nothing is written and
the held entries stay; where the entry's range is no longer permitted WINDOW_DENIED counts it and the ring stays as it
is. -/
def Obligations.EventRingWritesInOrder : Prop :=
  (∀ (s : State) (e : Event) (rest : List Event), s.dev.state ≠ .off → s.dev.state ≠ .boot → s.evr.due = e :: rest →
    exec .eventEntryWrite s = .next (drainHeld (holdEvent e (elapseTo (e.gts + 100000) { s with evr.due := rest })))) ∧
  (∀ (s : State) (e : Event) (rest : List Event), s.dev.state ≠ .off → s.dev.state ≠ .boot → s.evr.due = [] →
    s.evr.held = e :: rest → s.evr.gap = none → evrOpen s = true → evrBaseOk s = true → targetDown s 6 = false → ∃ t,
    exec .eventEntryWrite s = .next t ∧ t.evr.held = rest ∧ t.evr.write = s.evr.write + 1 ∧
    (let b := entryBytes e s.evr.write
     memRead t.host.mem (s.evr.base + 64 * (s.evr.write % 4096)) b.length = b) ∧
    memRead t.host.mem (s.evr.base - 64) 8 = leBytes 8 (s.evr.write + 1)) ∧
  (∀ (s : State) (e : Event) (rest : List Event) (n g1 g2 : Nat), s.dev.state ≠ .off → s.dev.state ≠ .boot → s.evr.due = [] →
    s.evr.held = e :: rest → e.code ≠ 2 → s.evr.gap = some (n, g1, g2) → evrOpen s = true → evrBaseOk s = true →
    targetDown s 6 = false → ∃ t,
    exec .eventEntryWrite s = .next t ∧ t.evr.held = e :: rest ∧ t.evr.gap = none ∧ t.evr.write = s.evr.write + 1 ∧
    (let b := entryBytes { gts := if e.source = 0 then e.gts - 1 else e.gts, frame := s.time.frame, code := 0x0003, source := 1, alarm := true
                           completion := false, afterLoss := true, payload := cells [n, g1, g2] } s.evr.write
     memRead t.host.mem (s.evr.base + 64 * (s.evr.write % 4096)) b.length = b) ∧
    memRead t.host.mem (s.evr.base - 64) 8 = leBytes 8 (s.evr.write + 1)) ∧
  (∀ s : State, s.dev.state ≠ .off → s.evr.due = [] → (evrOpen s = false ∨ s.evr.held = []) →
    exec .eventEntryWrite s = .next s) ∧
  (∀ (s : State) (e : Event) (rest : List Event), s.dev.state = .boot → s.evr.due = e :: rest →
    exec .eventEntryWrite s = .next (holdEvent e (elapseTo (e.gts + 100000) { s with evr.due := rest }))) ∧
  (∀ s : State, s.dev.state = .boot → s.evr.due = [] → exec .eventEntryWrite s = .next s) ∧
  (∀ (s : State) (e : Event) (rest : List Event), s.dev.state ≠ .off → s.dev.state ≠ .boot → s.evr.due = [] →
    s.evr.held = e :: rest → evrOpen s = true → s.evr.base % 4096 = 0 →
    hostRangeOk s true (s.evr.base + 64 * (s.evr.write % 4096)) (entryBytes e s.evr.write).length = false →
    ∃ t, exec .eventEntryWrite s = .next t ∧ t.evr = s.evr ∧ t.host = s.host ∧
      counter .windowDenied 0 t = counter .windowDenied 0 s + 1) ∧
  (∀ (s : State) (e : Event), e.completion = false →
    let kept := if s.dev.state = .boot then 2 else 0
    let n := (s.evr.held.filter (fun x => !x.completion)).length + kept
    (n < 960 ∧ s.evr.held.length + kept < 1024 → holdEvent e s = { s with evr.held := s.evr.held ++ [e] }) ∧
    (960 ≤ n ∨ 1024 ≤ s.evr.held.length + kept →
      (holdEvent e s).evr.held = s.evr.held ∧ (holdEvent e s).evr.lost = s.evr.lost + 1 ∧
      (holdEvent e s).evr.overflowed = true)) ∧
  (∀ (s : State) (e : Event), e.completion = true → holdEvent e s = { s with evr.held := s.evr.held ++ [e] })

/-- O11, spec/15_host_interface.md Table 15.10, R347, R361, R362, R363, spec/09_output_records.md R205, R208. While the
part is on, the function is in D0 and the window is unlocked: a 1 written to LOCK locks it and a 0 changes nothing;
writing the control word of a rate cap puts its shadowed cap in force, the bucket holding what it has filled to, where
it lies from 1 Gb/s to the quad's line rate and else changes nothing (log 15); writing the control word of a DMA
window or of an allow-list entry puts its shadowed words in force together with the control word's bits; in each case
nothing else changes. A field write reaches the window's registers; a REGISTER_WRITE at an address of the window does
the same, and one below the window writes the registers of BAR0 and sends the messages that this unmasks. -/
def Obligations.TetherWritesTakeEffect : Prop :=
  ∀ s : State, barLive s → s.tether.lock = false →
    (∀ v : BitVec 32, testBit v.toNat 0 = true →
      exec (.tetherLockWrite v) s = .next { s with tether.lock := true }) ∧
    (∀ v : BitVec 32, testBit v.toNat 0 = false → exec (.tetherLockWrite v) s = .next s) ∧
    (∀ (k : Nat) (v : BitVec 32), k < 32 →
      let g := shadowVal s (0x1000 + 32 * k) 2 % 1024
      let c := Instr.tetherControlWordWrite (BitVec.ofNat 24 (0x1000 + 32 * k + 28)) v
      (1 ≤ g ∧ g ≤ quadGbps s k → ∃ t, exec c s = .next t ∧ t = { s with tether.rateCaps := t.tether.rateCaps, out.quads := t.out.quads } ∧
        tabGet none t.tether.rateCaps k = some g ∧
        egress t k = { egress s k with bucket := bucketNow s k, filled := s.time.tb2 } ∧
        (∀ j, j ≠ k → egress t j = egress s j) ∧
        (∀ j, j ≠ k → tabGet none t.tether.rateCaps j = tabGet none s.tether.rateCaps j)) ∧
      (¬(1 ≤ g ∧ g ≤ quadGbps s k) → exec c s = .next s)) ∧
    (∀ (w : Nat) (v : BitVec 32), w < 16 → ∃ t,
      exec (.tetherControlWordWrite (BitVec.ofNat 24 (0x2000 + 32 * w + 28)) v) s = .next t ∧
      t = { s with tether.windows := t.tether.windows } ∧
      window t w = { base := shadowVal s (0x2000 + 32 * w) 8 / 4096 * 4096
                     limit := shadowVal s (0x2000 + 32 * w + 8) 8 / 4096 * 4096
                     valid := testBit v.toNat 0, write := testBit v.toNat 1, read := testBit v.toNat 2 } ∧
      (∀ j, j ≠ w → window t j = window s j)) ∧
    (∀ (e : Nat) (v : BitVec 32), e < 256 → ∃ t,
      exec (.tetherControlWordWrite (BitVec.ofNat 24 (0x10000 + 64 * e + 60)) v) s = .next t ∧
      t = { s with tether.allow := t.tether.allow } ∧
      tabGet {} t.tether.allow e =
        { addr := shadowVal s (0x10000 + 64 * e) (if testBit v.toNat 1 then 16 else 4)
          prefixLen := shadowVal s (0x10000 + 64 * e + 16) 4, portLo := shadowVal s (0x10000 + 64 * e + 20) 2
          portHi := shadowVal s (0x10000 + 64 * e + 22) 2, valid := testBit v.toNat 0, ipv6 := testBit v.toNat 1 } ∧
      (∀ j, j ≠ e → tabGet {} t.tether.allow j = tabGet {} s.tether.allow j)) ∧
    (∀ (o : BitVec 24) (data : List Byte), exec (.tetherFieldWrite o data) s = .next (writeTether o.toNat data s)) ∧
    (∀ (r : BitVec 16) (o : BitVec 25) (data : List Byte), 0x1000000 ≤ o.toNat →
      exec (.registerWrite r o data) s = .next (writeTether (o.toNat - 0x1000000) data s)) ∧
    (∀ (r : BitVec 16) (o : BitVec 25) (data : List Byte), o.toNat < 0x1000000 →
      exec (.registerWrite r o data) s = .next (unmaskPending (writeRegister r o.toNat data s)))

/-- O12, R363. While the part is on and the function is in D0: writing 1 to LOCK sets it, and TETHER_LOCKED of HOST_STATUS
is set where and only where the window is locked. While LOCK is set, a write to the lock, to a control word, to a
field, or a register write at an address of the window changes nothing but the count TETHER_LOCKED_WRITE, which goes
up by one; and no command at all but RESET_N and the three events that take the power away changes any field of the
window. -/
def Obligations.LockedTetherDiscardsWrites : Prop :=
  (∀ (s : State) (v : BitVec 32), barLive s → s.tether.lock = false → testBit v.toNat 0 = true →
    exec (.tetherLockWrite v) s = .next { s with tether.lock := true }) ∧
  (∀ s : State, testBit (hostStatus s) 14 = s.tether.lock) ∧
  (∀ s : State, barLive s → s.tether.lock = true →
    (∀ v : BitVec 32, exec (.tetherLockWrite v) s = .next (count .tetherLockedWrite 0 s)) ∧
    (∀ (o : BitVec 24) (v : BitVec 32), exec (.tetherControlWordWrite o v) s = .next (count .tetherLockedWrite 0 s)) ∧
    (∀ (o : BitVec 24) (data : List Byte), exec (.tetherFieldWrite o data) s = .next (count .tetherLockedWrite 0 s)) ∧
    (∀ (r : BitVec 16) (o : BitVec 25) (data : List Byte), 0x1000000 ≤ o.toNat →
      exec (.registerWrite r o data) s = .next (count .tetherLockedWrite 0 s))) ∧
  (∀ (c : Instr) (s t : State), s.tether.lock = true → exec c s = .next t →
    c ≠ .resetNAssert → (∀ x, c ≠ .supplyFault x) → c ≠ .vin12Removed → (∀ x, c ≠ .thermalTrip x) → t.tether = s.tether)

/-- O13, R361, R363, spec/15_host_interface.md Table 15.10, spec/20_health_and_thermal.md R450,
spec/22_package_power_pins.md R474. For every state s whose Tether window is locked: if a step answers t, then t holds
exactly the same lock, quad enables, rate caps, DMA windows and allow list, and shadows; unless the command at the
front of the queue was RESET_N_ASSERT, SUPPLY_FAULT, VIN12_REMOVED or THERMAL_TRIP, which take the part's reset or its
power away. In particular no Kenra command, no peg instruction, no DMA burst, no host write, no restart and no reset
of the host interface changes what the host was promised. -/
def Obligations.LockedTetherNeverChanges : Prop :=
  ∀ s t : State, s.tether.lock = true → step s = .next t →
    (∀ c ∈ s.pending.head?, c ≠ .resetNAssert ∧ (∀ x, c ≠ .supplyFault x) ∧ c ≠ .vin12Removed ∧ (∀ x, c ≠ .thermalTrip x)) →
    t.tether = s.tether

/-- O14, R361. For every command c and all states s and t: if exec of c on s answers t and the Tether window of t differs
from that of s, then c is TETHER_LOCK_WRITE, TETHER_CONTROL_WORD_WRITE, TETHER_FIELD_WRITE or a REGISTER_WRITE at an
address of the window, or one of the four commands that take the reset or the power away; and those four leave it
either as it was or at its reset value. -/
def Obligations.OnlyTheHostWritesTheTether : Prop :=
  ∀ (c : Instr) (s t : State), exec c s = .next t → t.tether ≠ s.tether →
    ((∃ v, c = .tetherLockWrite v) ∨ (∃ o v, c = .tetherControlWordWrite o v) ∨ (∃ o d, c = .tetherFieldWrite o d) ∨
      (∃ r o d, c = .registerWrite r o d ∧ 0x1000000 ≤ o.toNat)) ∨
    ((c = .resetNAssert ∨ (∃ x, c = .supplyFault x) ∨ c = .vin12Removed ∨ (∃ x, c = .thermalTrip x)) ∧
      t.tether = State.reset.tether)

/-- O15, R353, R362. For every channel, address, byte string and state: a transfer that a channel writes to host memory,
cut at 4 KiB pages, changes no byte outside its range and no byte that no VALID window permits to be written. Where
one window permits the whole range, the host can be reached and PCIe outbound is not held in reset, it stores exactly
those bytes and ends without error. Where no window permits a range that lies in one page, no byte of host memory
changes and WINDOW_DENIED counts it. -/
def Obligations.HostWriteStaysInItsWindow : Prop :=
  ∀ (ch a : Nat) (l : List Byte) (s : State),
    let t := (chanWrite ch [(a, l)] s).2
    (∀ b, (b < a ∨ a + l.length ≤ b ∨ hostRangeOk s true b 1 = false) → memGet t.host.mem b = memGet s.host.mem b) ∧
    (hostRangeOk s true a l.length = true → hostReachable s = true → targetDown s 6 = false →
      (chanWrite ch [(a, l)] s).1 = 0 ∧ memRead t.host.mem a l.length = l) ∧
    (hostRangeOk s true a l.length = false → l ≠ [] → a % 4096 + l.length ≤ 4096 →
      t.host.mem = s.host.mem ∧ counter .windowDenied 0 t = counter .windowDenied 0 s + 1)

/-- O16, R351, R366, R374, spec/16_kenra_commands.md Tables 16.1, 16.6 to 16.11. For every Kenra command c of the tables
with its request q, whatever the values of its fields, if its argument has the length its header gives and fits a
slot: where the request half of the slot q names holds the bytes of Table 16.1 for the command's opcode and q, written
over any other bytes, copying that slot gives the same opcode and the same request, and the opcode and request give
back c and no other command, as the opcode and request of every Kenra command do. Where the slot is first in doorbell
order and no request is active, RIDGE_BEGINS_REQUEST takes the slot off the queue, makes it ACTIVE and c the active
request and arms the Ridge's heartbeats (log 26); where the checks of R367 pass it changes nothing else, but for a
STATUS, whose result is sampled there and whose effect is taken (R374); where one fails the request is answered at
once. -/
def Obligations.MailboxCarriesEveryRequest : Prop :=
  (∀ c : Instr, Laws.OpcodeRoundTrip.Statement c) ∧
  ∀ (c : Instr) (k : Spec) (q : Request) (s : State) (m : Memory), kenraOf c = some (k, q) →
    q.arg.length = q.argLength.toNat → q.arg.length ≤ 4064 →
    (slot s q.slot.toNat).request = memWrite m 0 (requestBytes k.opcode q) →
    copyRequest q.slot.toNat s = (k.opcode, q) ∧ instrOf k.opcode q = c ∧
    (∀ rest, s.dev.state ≠ .off → s.host.active = none → s.host.queue = q.slot.toNat :: rest →
      ∃ t, t = { s with host.queue := rest, host.slots := t.host.slots, host.active := some (c, q.slot.toNat, false)
                        twin.armed := true } ∧
        slot t q.slot.toNat = { slot s q.slot.toNat with state := .active } ∧
        (∀ j, j ≠ q.slot.toNat → slot t j = slot s j) ∧
        (checkRequest c k q t = none → k.sampled = false → exec .ridgeBeginsRequest s = .next t) ∧
        (checkRequest c k q t = none → k.sampled = true →
          exec .ridgeBeginsRequest s = .next { k.act q t with host.sample := some (k.result t q) }) ∧
        (∀ st d, checkRequest c k q t ≠ none → checkRequest c k q (touchTxn k q t) = some (st, d) → s.host.sample = none →
          exec .ridgeBeginsRequest s = .next (respond k.opcode q st d 0 [] (touchTxn k q t))))

/-- O17, spec/15_host_interface.md R344, R345, R346, R358, R359. In every state other than OFF: BUS_MASTER_OR_D3 sets both
bits and the device's PCIe settings, clears the AER bits named and sends the messages that waited, and nothing else;
PCIE_LINK_TRAINED records a legal generation and width and changes nothing for any other. A poisoned write is
discarded, counted and reported through AER, and while the event ring runs it raises an event (its code is open: log
18). A completion error is reported and raised likewise; on a DMA channel whose first descriptor reads the host it
also ends that descriptor with error 2, on one with no descriptor it does nothing more, and on DMA12 with a bulk load
from the host under way it fails the load. A reset of the host interface frees every slot, empties the doorbell queue,
clears the interrupt and event-ring registers, keeps EVR_WRITE and EVR_LOST, ends the descriptors that move data to or
from the host with error 7 (TARGET_RESET), suspends every host ring and keeps the device state and the Tether window.
A coalesced cause with announcements waiting sends its message, if enabled, once its time threshold has passed since
the first; one with none waiting does nothing. -/
def Obligations.HostInterfaceEvents : Prop :=
  ∀ s : State, s.dev.state ≠ .off →
    (∀ b d x v, exec (.busMasterOrD3 b d x v) s = .next (unmaskPending { s with
      host.busMaster := b, host.d3hot := d, host.pcie := x, host.aer := s.host.aer &&& ~~~v })) ∧
    (∀ (g : BitVec 3) (w : BitVec 4),
      let legal := 1 ≤ g.toNat ∧ g.toNat ≤ 5 ∧ (w = 1 ∨ w = 2 ∨ w = 4 ∨ w = 8)
      (legal → exec (.pcieLinkTrained g w) s = .next { s with host.speed := g.toNat, host.width := w.toNat }) ∧
      (¬legal → exec (.pcieLinkTrained g w) s = .next s)) ∧
    (∀ o : BitVec 25,
      let s1 := reportAer true (count .poisonedWrite 0 s)
      (evrRunning s = false → exec (.poisonedWrite o) s = .next s1) ∧
      (evrRunning s = true → exec (.poisonedWrite o) s = .next (raiseOpen false 0 1 o.toNat [0] s1))) ∧
    (∀ (ch : BitVec 4) (b : Bool), ch ≠ 12 →
      let s1 := if evrRunning s then raiseOpen false 0 1 ch.toNat [1, bit b] (reportAer b s) else reportAer b s
      ((dmaCh s ch.toNat).queue = [] → exec (.hostCompletionError ch b) s = .next s1) ∧
      (∀ d : Desc, running s ch.toNat = some d → d.srcSpace = 6 → (dmaCh s ch.toNat).issued < d.len →
        exec (.hostCompletionError ch b) s = .next (dmaError ch.toNat 2 false s1))) ∧
    (∀ b : Bool, s.loads.any (fun l => (loadBulk l).kind = 1 && l.failed.isNone) = true →
      exec (.hostCompletionError 12 b) s = .next (failLoad (fun l => (loadBulk l).kind = 1)
        (if evrRunning s then raiseOpen false 0 1 12 [1, bit b] (reportAer b s) else reportAer b s))) ∧
    (∀ k, ∃ t, exec (.hostInterfaceReset k) s = .next t ∧ (∀ j, (slot t j).state = .free ∧ (slot t j).response = none) ∧
      t.host.queue = [] ∧ t.host.intCause = 0 ∧ t.host.intMask = 0 ∧ t.host.lastRequester = 0 ∧ t.host.busMaster = false ∧
      t.host.d3hot = false ∧ t.evr.enable = false ∧ t.evr.base = 0 ∧ t.evr.read = 0 ∧ t.evr.overflowed = false ∧
      t.evr.baseDenied = false ∧ t.evr.write = s.evr.write ∧ t.evr.lost = s.evr.lost ∧
      (∀ c d, c < 16 → running s c = some d → (d.srcSpace = 6 ∨ d.dstSpace = 6) → (dmaCh s c).issued < d.len →
        (dmaCh t c).error = some 7) ∧
      (tabWf none s.out.rings = true → ∀ j, ring t j = (ring s j).map (fun r => { r with suspended := true })) ∧ t.dev = s.dev ∧ t.tether = s.tether) ∧
    (∀ c : BitVec 5,
      let k := intCause s c.toNat
      let s1 := modCause c.toNat (fun k => { k with waiting := 0 }) (elapseTo (k.since + k.timeUs * 1000) s)
      (coalesced c.toNat = true → k.waiting ≠ 0 →
        exec (.interruptCoalesceTimeout c) s = .next (if causeEnabled s c.toNat then sendMessage c.toNat s1 else s1)) ∧
      (coalesced c.toNat = false ∨ k.waiting = 0 → exec (.interruptCoalesceTimeout c) s = .next s))

/-- O18, R11, R13, spec/95_what_each_step_holds.md. In every state other than OFF, FRAME_TICK brings the frame to its
tick, applies the commit due, makes the state transition due and begins the work of the frame numbered one higher,
outside the guard. Bringing a frame to its tick runs the guard if it has not begun, moves time, ends the frame's work
and marks the frame ended; a frame that a command at the tick has already ended is not ended again (log 44). TB0
reaches the tick and never runs back. GUARD_START in a frame already in its guard changes nothing; else it moves time
on to the guard and runs it, which in a state without ingest and data path only marks the guard. -/
def Obligations.FrameTickStartsTheNextFrame : Prop :=
  ∀ s : State, s.dev.state ≠ .off →
    exec .frameTick s = .next (
      let a := transitions (commitDue (toTick s))
      commitLate (beginFrame { a with time.frame := a.time.frame + 1, time.inGuard := false, time.ended := false })) ∧
    (s.time.ended = true → toTick s = s) ∧
    (s.time.ended = false → toTick s =
      { countClear (endFrame (tickClock (if s.time.inGuard then s else guardWork s))) with time.ended := true }) ∧
    (tickClock s).time.tb0 = max s.time.tb0 (tickTime s (s.time.frame + 1)) ∧
    (s.time.inGuard = true → exec .guardStart s = .next s) ∧
    (s.time.inGuard = false → exec .guardStart s = .next (guardWork (elapse (guardTime s - s.time.tb0) s))) ∧
    (s.time.inGuard = false → ingestOn s = false → observing s = false →
      exec .guardStart s = .next { elapse (guardTime s - s.time.tb0) s with time.inGuard := true })

/-- O19, R19, R20, R21, R201, R231, R232, spec/01_architecture.md Table 1.5. For every state: a call for SAFE, if one
stands, is followed at the tick whatever else is due; with none, a stop is made if its tick has come and then the part
is degraded or returned. A stop made while observing leaves no schedule running, no work and no Clasp job, the
throttle off, no stop called for and the part READY; one made in another state only ends the call. A degraded part
with no cause, whose hold-off has passed, for which the coming tick is a block boundary and neither SAFE nor a stop is
due, becomes OBSERVING with the throttle off and its schedule running on; an observing one with a cause becomes
DEGRADED, with the throttle on if it was or a cause calls for it. STOP_FRAME_REACHED brings the frame to its tick and
makes the stop where its tick has come, the part observes and SAFE is not called for, and else changes nothing;
DEGRADED_HOLDOFF_END does the same with the return, where at that tick it is due. -/
def Obligations.MostRestrictiveTransitionStands : Prop :=
  (∀ (s : State) (c : Nat), s.dev.safeAt = some c → transitions s = diesTick (enterSafe c s)) ∧
  (∀ s : State, s.dev.safeAt = none → transitions s = diesTick (degrade (stopDue s))) ∧
  (∀ s : State, s.dev.state ≠ .off →
    (stopNow s = true ∧ observing s = true ∧ s.dev.safeAt = none → exec .stopFrameReached s = .next (stopDue (toTick s))) ∧
    (stopNow s = false ∨ observing s = false ∨ s.dev.safeAt ≠ none → exec .stopFrameReached s = .next s) ∧
    (holdoffOver (toTick s) = true → exec .degradedHoldoffEnd s = .next (holdoffEnd (toTick s))) ∧
    (holdoffOver (toTick s) = false → exec .degradedHoldoffEnd s = .next s)) ∧
  (∀ s : State, stopNow s = true ↔ ∃ t, s.dev.stopAt = some t ∧ t ≤ tickTime s (s.time.frame + 1)) ∧
  (∀ s : State, stopNow s = false → stopDue s = s) ∧
  (∀ s : State, stopNow s = true → observing s = false → stopDue s = { s with dev.stopAt := none }) ∧
  (∀ s : State, stopNow s = true → observing s = true → (stopDue s).dev.state = .ready ∧ (stopDue s).sched.running = none ∧
    (stopDue s).sched.work = [] ∧ (stopDue s).clasp.jobs = [] ∧ (stopDue s).sched.throttled = false ∧
    (stopDue s).dev.stopAt = none) ∧
  (∀ s : State, holdoffOver s = true ↔ s.dev.state = .degraded ∧ s.dev.causes = [] ∧ s.dev.holdoff ≤ s.dev.clearFrames ∧
    boundaryNext s = true ∧ s.dev.safeAt = none ∧ stopNow s = false) ∧
  (∀ s : State, holdoffOver s = true → (holdoffEnd s).dev.state = .observing ∧ (holdoffEnd s).sched.throttled = false ∧
    (holdoffEnd s).sched.running = s.sched.running) ∧
  (∀ s : State, observing s = true → s.dev.causes ≠ [] → (degrade s).dev.state = .degraded ∧
    (degrade s).sched.throttled = (s.sched.throttled || throttleCalled s))

/-- O20, R22, spec/01_architecture.md Tables 1.4, 1.5, spec/21_events_errors_guarantees.md R457. For every state s, device
state d and cause: putting the part in d leaves it in d; if it was already there nothing changes, and if not the
number of transitions goes up by one and a STATE_CHANGE event of source 0 with the new state, the old, the cause and
the frame becomes due (the numbers of the causes are the model's choice, log 12). -/
def Obligations.StateChangesAreReported : Prop :=
  ∀ (d : DevState) (cause : Nat) (s : State),
    (setState d cause s).dev.state = d ∧
    (s.dev.state = d → setState d cause s = s) ∧
    (s.dev.state ≠ d → (setState d cause s).dev.stateChanges = s.dev.stateChanges + 1 ∧
      ∃ e ∈ (setState d cause s).evr.due, e.code = 0x0001 ∧ e.source = 0 ∧ e.gts = s.time.tb2 ∧
        e.payload = cells [d.code, s.dev.state.code, cause, s.time.frame])

/-- O21, R65, R238, R240, R241, R221. In every state other than OFF: TXN_EXPIRY with a transaction open ends it 10 s after
its last use with nothing staged, counts it and raises TXN_EXPIRED with its id; with none open nothing changes.
TXN_VALIDATION_DONE with a commit that is not validated: where it comes at tick n_a − 1 or later, or a check fails,
the pending transaction is rejected with the check's code and nothing staged remains, and else the commit stands
validated. TXN_APPLY with a validated commit whose tick is the coming one brings the frame to its tick, where the
commit, if it still stands, is applied, or rejected with CONFLICT where a coefficient load in progress bars one of its
swaps; before that tick, or with the commit not validated, nothing changes. -/
def Obligations.TransactionsEndAsTheRulesSay : Prop :=
  ∀ s : State, s.dev.state ≠ .off →
    (∀ id : Nat, s.sched.txn = .opened id → exec .txnExpiry s = .next (raise 0x0102 0 id [] (count .txnExpired 0
      { elapseTo (s.sched.lastUse + 10000000000) s with sched.txn := .none, sched.staged := [] }))) ∧
    ((∀ id, s.sched.txn ≠ .opened id) → exec .txnExpiry s = .next s) ∧
    (∀ (id : Nat) (c : Commit), s.sched.txn = .pending id → s.sched.commit = some c → c.validated = false →
      c.na ≤ s.time.frame + 1 → ∃ t, exec .txnValidationDone s = .next t ∧ t = rejectCommit .rejected 0x14 s ∧
        t.sched.txn = .none ∧ t.sched.staged = [] ∧ t.sched.commit = none) ∧
    (∀ (id : Nat) (c : Commit) (x : Charge), s.sched.txn = .pending id → s.sched.commit = some c → c.validated = false →
      s.time.frame + 1 < c.na → worst (commitCharges s c.na) = some x → ∃ t, exec .txnValidationDone s = .next t ∧
        t = rejectCommit .rejected x.code s ∧ t.sched.txn = .none ∧ t.sched.staged = [] ∧ t.sched.commit = none) ∧
    (∀ c : Commit, s.sched.commit = some c → c.validated = false → s.time.frame + 1 < c.na →
      worst (commitCharges s c.na) = none →
      exec .txnValidationDone s = .next { s with sched.commit := some { c with validated := true } }) ∧
    (∀ (id : Nat) (c : Commit), s.sched.txn = .pending id → s.sched.commit = some c → c.validated = true →
      c.na ≤ s.time.frame + 1 → exec .txnApply s = .next (commitDue (toTick s))) ∧
    (∀ (id : Nat) (c : Commit), s.sched.txn = .pending id → s.sched.commit = some c →
      (c.validated = false ∨ s.time.frame + 1 < c.na) → exec .txnApply s = .next s) ∧
    (∀ (id : Nat) (c : Commit), s.sched.txn = .pending id → s.sched.commit = some c → c.validated = true →
      c.na ≤ s.time.frame + 1 →
      commitDue s = if swapBlocked s then rejectCommit .conflict 0 s else applyCommit id c s)

/-- O22, R186, R189, R217, R222, R353. In every state other than OFF: with no load, with an image still waiting for its
verdict, or with a compressed load that no engine has served, LOAD_DECODE_DONE changes nothing. Else it takes the
oldest load off the list: one marked failed ends with its status; one whose source cannot be read ends with the status
of that read, one whose source or staging holds an uncorrectable word with DRAM_UE, one whose decode fails with
DECODE_FAIL on the engine that ran it; a customer kernel is checked; and any other whose data decodes goes on: an
image waits for its verdict, and a load that its own checks pass and that no transaction stages is applied and
completes with OK. SCHED_LOAD_VERDICT takes the oldest image that waits, puts it in its slot with its verdict and
leaves the other slots; with none nothing changes. BULK_TRANSFER_TIMEOUT of a slot that carried a load fails that
load, and else a bulk command of that slot. -/
def Obligations.LoadsEndInTheirTurn : Prop :=
  ∀ s : State, s.dev.state ≠ .off →
    (∀ ue e, s.loads = [] ∨ s.sched.verdictQueue ≠ [] ∨
      (∃ l rest, s.loads = l :: rest ∧ l.deflate = true ∧ l.failed = none ∧ engineServes s l.seq = false) →
      exec (.loadDecodeDone ue e) s = .next s) ∧
    (∀ ue e l rest, s.loads = l :: rest → s.sched.verdictQueue = [] →
      (l.deflate = true → l.failed = none → engineServes s l.seq = true) →
      let s1 := { s with loads := rest }
      (∀ st, l.failed = some st → exec (.loadDecodeDone ue e) s = .next (endLoad l st 0 0 s1)) ∧
      let r := bulkFetch (loadBulk l) s1
      (∀ st, l.failed = none → r.2.1 = some st → exec (.loadDecodeDone ue e) s = .next (endLoad l st 0 0 r.2.2)) ∧
      (l.failed = none → r.2.1 = none → ue = true →
        exec (.loadDecodeDone ue e) s = .next (endLoad l .dramUe 0 0 (loadUe (loadBulk l) r.2.2))) ∧
      (l.failed = none → r.2.1 = none → ue = false →
        (∀ q, l.cmd = .pegKernelLoad q → exec (.loadDecodeDone ue e) s = .next (kernelLoaded (servedBy s e) l r.1 r.2.2)) ∧
        (∀ x, (∀ q, l.cmd ≠ .pegKernelLoad q) → loadData l r.1 = .error x →
          exec (.loadDecodeDone ue e) s = .next (endLoad l .decodeFail 0 x.code (decodeBad (servedBy s e) x.code r.2.2))) ∧
        (∀ data, (∀ q, l.cmd ≠ .pegKernelLoad q) → loadData l r.1 = .ok data →
          exec (.loadDecodeDone ue e) s = .next (dataLoaded (servedBy s e) l data r.2.2)))) ∧
    (∀ e l data, let s1 := stageService data (if l.deflate then decodeGood e s else s)
      (∀ q, l.cmd = .schedLoad q → dataLoaded e l data s =
        { s1 with sched.verdictQueue := s1.sched.verdictQueue ++ [(u8 q.arg 24, q, data)] }) ∧
      ((∀ q, l.cmd ≠ .schedLoad q) → loadBad l.cmd data = none → (isTxnLoad l.cmd = false ∨ l.req.txnId = 0) →
        dataLoaded e l data s = endLoad l .ok data.length 0 (applyLoad l data s1))) ∧
    (∀ k q data rest, s.sched.verdictQueue = (k, q, data) :: rest → ∃ t, exec .schedLoadVerdict s = .next t ∧
      t.sched.verdictQueue = rest ∧ (schedSlot t k).image = parseImage data ∧
      (∀ i, parseImage data = some i → (schedSlot t k).verdict = some (verdict s i)) ∧
      (parseImage data = none → (schedSlot t k).verdict = some formatVerdict) ∧ (∀ j, j ≠ k → schedSlot t j = schedSlot s j)) ∧
    (s.sched.verdictQueue = [] → exec .schedLoadVerdict s = .next s) ∧
    (∀ k : BitVec 3, s.loads.any (fun l => l.req.slot = k) = true →
      exec (.bulkTransferTimeout k) s = .next (failLoad (fun l => l.req.slot = k) s)) ∧
    (∀ k : BitVec 3, s.loads.any (fun l => l.req.slot = k) = false →
      exec (.bulkTransferTimeout k) s = .next (failBulk (fun q => q.slot = k) s))

/-- O23, R273, R274, R288, spec/02_ingest_streams.md R29, R30, R44. In every state other than OFF, GUL_FRAME_RECEIVE on a
quad that is not a GUL quad, not enabled or not ACTIVE changes nothing; on one that is, its blocks are taken in order
while the quad stays ACTIVE. Of a block: a bad one marks the frame in progress bad; a data block joins the frame in
progress, or is counted STRAY; a START ends a frame in progress as aborted and begins a new one; an END of a frame
with an error drops it under that error, and of a whole data frame in READY, OBSERVING and DEGRADED counts FRAMES_OK
and hands its payload to ingest. ETH_FRAME_RECEIVE on a quad that is no Ethernet quad, not enabled or not ACTIVE
changes nothing; on one that is, a frame shorter than 64 bytes, longer than the quad's limit, with a bad FCS or for a
MAC the quad does not accept is dropped under its own count; an accepted one counts FRAMES_OK, and then a UDP datagram
that is not the relay's PTP goes to ingest, a packet with an error counts L3_ERROR, what the firmware serves goes no
further, and any other packet is classified and found without an entry. -/
def Obligations.FramesReachIngestOnlyWhole : Prop :=
  ∀ s : State, s.dev.state ≠ .off →
    (∀ (k : BitVec 5) (f : GulFrame), ((quad s k.toNat).mode ≠ .gul ∨ quadEnabled s k.toNat = false ∨
      (quad s k.toNat).state ≠ .active) → exec (.gulFrameReceive k f) s = .next s) ∧
    (∀ (k : BitVec 5) (f : GulFrame), (quad s k.toNat).mode = .gul → quadEnabled s k.toNat = true →
      (quad s k.toNat).state = .active → exec (.gulFrameReceive k f) s = .next (dropCodewords k.toNat
        (f.blocks.foldl (fun s b => if (quad s k.toNat).state = .active then gulBlock k.toNat b s else s)
          (modQuad k.toNat (fun q => { q with rxPos := q.rxPos + f.idle }) s)))) ∧
    (∀ (k : Nat) (x : GulBlock), let b := plainBlock x
      let bad := blockBad b || inBadCodeword s k (quad s k).rxPos
      let s1 := modQuad k (fun q => { q with rxPos := q.rxPos + 1 }) s
      (bad = true → gulBlock k x s = modQuad k (fun q => { q with
        rxFrame := (quad s k).rxFrame.map (fun f => { f with bad := true }) }) s1) ∧
      (bad = false → b.header = 1 → (quad s k).rxFrame = none → gulBlock k x s = count .stray k s1) ∧
      (∀ f, bad = false → b.header = 1 → (quad s k).rxFrame = some f → gulBlock k x s =
        modQuad k (fun q => { q with rxFrame := some { f with bytes := f.bytes ++ payloadBytes b.payload } }) s1) ∧
      (∀ kind n, bad = false → b.header ≠ 1 → controlOf b.payload = some (.start kind n) → gulBlock k x s =
        modQuad k (fun q => { q with rxFrame := some { kind := kind, length := n } }) (abortFrame k s1)) ∧
      (∀ pad crc f c, bad = false → b.header ≠ 1 → controlOf b.payload = some (.fin pad crc) → (quad s k).rxFrame = some f →
        gulError f pad.toNat crc = some c →
        gulBlock k x s = dropFrame k c (modQuad k (fun q => { q with rxFrame := none }) s1)) ∧
      (∀ pad crc f, bad = false → b.header ≠ 1 → controlOf b.payload = some (.fin pad crc) → (quad s k).rxFrame = some f →
        gulError f pad.toNat crc = none → f.kind = 1 → ingestOn s = true →
        gulBlock k x s = ingestPacket k .gul 0 0 0 (f.bytes.take f.length)
          (count .framesOk k (modQuad k (fun q => { q with rxFrame := none }) s1)))) ∧
    (∀ (k : BitVec 5) (d : List Byte), (isEth (quad s k.toNat).mode = false ∨ quadEnabled s k.toNat = false ∨
      (quad s k.toNat).state ≠ .active) → exec (.ethFrameReceive k d) s = .next s) ∧
    (∀ (k : BitVec 5) (d : List Byte), isEth (quad s k.toNat).mode = true → quadEnabled s k.toNat = true →
      (quad s k.toNat).state = .active →
      let tagged : Bool := beVal (slice d 12 2) = 0x8100
      let head := if tagged then 18 else 14
      let typ := beVal (slice d (head - 2) 2)
      let body := (d.take (d.length - 4)).drop head
      let limit := (quad s k.toNat).mtu + (if tagged then 22 else 18)
      let fcsOk := leVal (d.drop (d.length - 4)) = crc32 (d.take (d.length - 4))
      let forUs := macAccepted s k.toNat (beVal (slice d 0 6)) typ = true
      let ok := 64 ≤ d.length ∧ d.length ≤ limit ∧ fcsOk ∧ forUs
      let s1 := count .framesOk k.toNat s
      (d.length < 64 → exec (.ethFrameReceive k d) s = .next (dropFrame k.toNat .undersize s)) ∧
      (64 ≤ d.length → limit < d.length → exec (.ethFrameReceive k d) s = .next (dropFrame k.toNat .oversize s)) ∧
      (64 ≤ d.length → d.length ≤ limit → ¬fcsOk → exec (.ethFrameReceive k d) s = .next (dropFrame k.toNat .fcsError s)) ∧
      (64 ≤ d.length → d.length ≤ limit → fcsOk → ¬forUs →
        exec (.ethFrameReceive k d) s = .next (dropFrame k.toNat .macFiltered s)) ∧
      (ok → (ingestOn s = false ∨ relayPort s k.toNat = true ∧ ptpType typ = true) → exec (.ethFrameReceive k d) s = .next s1) ∧
      (ok → ingestOn s = true → (relayPort s k.toNat = true → ptpType typ = false) →
        (l3Of s1 k.toNat typ body = .firmware → exec (.ethFrameReceive k d) s = .next s1) ∧
        (l3Of s1 k.toNat typ body = .error → exec (.ethFrameReceive k d) s = .next (count .l3Error k.toNat s1)) ∧
        (l3Of s1 k.toNat typ body = .other → exec (.ethFrameReceive k d) s =
          .next (classified k.toNat body.length (count .unclassified k.toNat) (inTurn k.toNat s1))) ∧
        (∀ kind src dst sport dport u, l3Of s1 k.toNat typ body = .udp kind src dst sport dport u →
          exec (.ethFrameReceive k d) s = .next (if relayPort s k.toNat && ptpPort dport then s1
            else ingestPacket k.toNat kind dst dport src u s1))))

/-- O24, R39, R41, spec/02_ingest_streams.md R37 to R43. In READY, OBSERVING and DEGRADED: with no run of the stream, or
its oldest waiting on no deadline, HOLE_DEADLINE changes nothing; else TB0 moves on to the deadline of its oldest run,
that run's release point is released flagged and what it held back follows. HELD_PACKET_RELEASE hands on, of the
oldest run and, as each goes idle, of the next, the held packets whose slot is at the release point and whose source
frame has begun (that a later run waits is the model's choice, log 42). In any other state neither changes anything. -/
def Obligations.HolesAndHeldPacketsRelease : Prop :=
  ∀ (s : State) (sid : BitVec 14),
    let due := fun (r : Run) (d : Nat) =>
      let x := expirePoint sid.toNat none r (elapse (d - s.time.tb0) s)
      putRun sid.toNat 0 x.1 x.2
    (ingestOn s = false → exec (.holeDeadline sid) s = .next s ∧ exec (.heldPacketRelease sid) s = .next s) ∧
    (ingestOn s = true → (∀ r ∈ (stream s sid.toNat).runs.head?, runDeadline r = none) → exec (.holeDeadline sid) s = .next s) ∧
    (ingestOn s = true → ∀ r d, (stream s sid.toNat).runs.head? = some r → runDeadline r = some d →
      exec (.holeDeadline sid) s = .next (due r d)) ∧
    (ingestOn s = true →
      exec (.heldPacketRelease sid) s = .next (settleRuns sid.toNat (stream s sid.toNat).runs.length s)) ∧
    (∀ n, (stream s sid.toNat).runs = [] → settleRuns sid.toNat n s = s) ∧
    (∀ n r rest, (stream s sid.toNat).runs = r :: rest →
      let x := cascade sid.toNat r s
      (runLive x.1 = true → settleRuns sid.toNat (n + 1) s =
        modStream sid.toNat (fun y => { y with runs := y.runs.set 0 x.1 }) x.2) ∧
      (runLive x.1 = false → settleRuns sid.toNat (n + 1) s =
        settleRuns sid.toNat n (modStream sid.toNat (fun y => { y with runs := y.runs.drop 1 }) x.2))) ∧
    (∀ r n, runLive r = true → (∀ h ∈ r.held, h.slot ≠ r.release) → releaseHeld sid.toNat n r s = (r, s)) ∧
    (∀ r n h, r.held.find? (fun h => h.slot = r.release) = some h → runLive r = true →
      sourceFrame r.cfg h.slot s ≤ s.time.frame → releaseHeld sid.toNat (n + 1) r s =
        let x := releaseOne sid.toNat (some (h.seq, h.samples)) r s
        releaseHeld sid.toNat n x.1 x.2)

/-- O25, R54, R56, R61, R62, R76, R77. While observing, CHANNELISER_STEP of the unit whose turn it is in its slice takes n
of its samples of the frame in label order; of another unit, or in another state, it changes nothing.
STATS_INTERVAL_END of a slice whose interval is over moves its sets to the readout bank with their tag, begins the
next interval empty under the settings set since, and leaves every other slice; before that nothing changes.
SYNC_RESET with a reset due at the tick just passed counts one reset, drops those due and resets every assigned unit
that has not had that reset; with none due nothing changes. A qualified SYNC_IN edge asks for a reset at the first
tick at least 1 µs later, and one that the filter refuses is at most counted. CHAN_STATS_READ_DONE ends the oldest
statistics read with OK and its bytes at their destination, with HOST_DMA where the transfer is said to fail, or with
the status of a write that fails; with none it changes nothing. -/
def Obligations.ChanneliserStepsAndResets : Prop :=
  ∀ s : State, s.dev.state ≠ .off →
    (∀ i c n, observing s = true → unitNext s (unitKey i.toNat c.toNat) = true →
      exec (.channeliserStep i c n) s = .next (runUnit false n (unitKey i.toNat c.toNat) s)) ∧
    (∀ i c n, observing s = false ∨ unitNext s (unitKey i.toNat c.toNat) = false →
      exec (.channeliserStep i c n) s = .next s) ∧
    (∀ k : BitVec 5, (sliceOf s k.toNat).statLeft ≠ 0 → exec (.statsIntervalEnd k) s = .next s) ∧
    (∀ k : BitVec 5, (sliceOf s k.toNat).statLeft = 0 → ∃ t, exec (.statsIntervalEnd k) s = .next t ∧
      t = { s with chan.slices := t.chan.slices } ∧
      (let x := sliceOf s k.toNat
       let y := x.nextStats.getD (x.tapPre, x.z, x.interval)
       sliceOf t k.toNat = { x with readout := x.statSets, readoutTag := some (x.statNow, x.statNow % groupCount s k.toNat)
                                    readoutSets := min 8192 (pairCount s k.toNat - 8192 * (x.statNow % groupCount s k.toNat))
                                    statSets := [], statNow := x.statNow + 1, tapPre := y.1, z := y.2.1, interval := y.2.2
                                    statLeft := y.2.2, nextStats := none }) ∧
      (∀ j, j ≠ k.toNat → sliceOf t j = sliceOf s j)) ∧
    ((∀ t ∈ s.compass.resets, tickTime s s.time.frame < t) → exec .syncReset s = .next s) ∧
    (∀ t, (s.compass.resets.filter (fun t => decide (t ≤ tickTime s s.time.frame))).getLast? = some t →
      let n := ceilDiv t (periodNs s)
      exec .syncReset s = .next (((s.chan.units.filter (fun e => e.2.slice.isSome)).map (·.1)).foldl (fun s key =>
          if (chanUnit s key).resets.any (fun r => r.1 = resetLabel s (key / 65536) n) then s else unitReset key n s)
        (count .resetCount 0 { s with
          compass.resets := s.compass.resets.filter (fun x => decide (tickTime s s.time.frame < x)) }))) ∧
    (∀ w : Nat, (filterEdge 2 w s).1 = true → exec (.syncInEdge w) s = .next (
      let u := (filterEdge 2 w s).2
      { u with compass.resets := u.compass.resets ++ [ceilDiv (u.time.tb0 + 1000) (periodNs u) * periodNs u] })) ∧
    (∀ w : Nat, (filterEdge 2 w s).1 = false → exec (.syncInEdge w) s = .next (filterEdge 2 w s).2) ∧
    (∀ f : Bool, s.reads.find? (fun r => isStatsRead r.cmd) = none → exec (.chanStatsReadDone f) s = .next s) ∧
    (∀ (f : Bool) r, s.reads.find? (fun r => isStatsRead r.cmd) = some r →
      let b := bulk r.req.arg r.bulkOff
      let s1 := { s with reads := s.reads.erase r }
      let x := bulkPut b r.bytes s1
      (f = true → exec (.chanStatsReadDone f) s = .next (finish r.cmd 0x0507 r.req .hostDma 0 0 [] s1)) ∧
      (∀ st, f = false → x.1 = some st → exec (.chanStatsReadDone f) s = .next (finish r.cmd 0x0507 r.req st 0 0 [] x.2)) ∧
      (f = false → x.1 = none →
        exec (.chanStatsReadDone f) s = .next (finish r.cmd 0x0507 r.req .ok r.bytes.length 0 r.extra x.2)))

/-- O26, R81, R85, R86, R266. In every state other than OFF STORE_BURST_DISCARD drops the oldest burst that no controller
has accepted, one frame after it was issued: its granule joins the unit's lost range and STORE_LOST of its input block
counts it; with no burst nothing changes. A chunk read that the schedule gives leaves the frame's list; on the direct
route nothing else happens, one whose buffer another channel or block holds waits, and one whose buffer is free or its
own is performed. One that the schedule does not give, or comes with no schedule running, changes nothing. A granule
of a fill whose input no enabled stream carries reads as flagged and counts nothing; one outside its unit's written
range is flagged and counts STORE_UNWRITTEN, within the lost range STORE_LOST, with an uncorrectable read STORE_UE;
otherwise the stored data is read. An RFI write to a written granule of a stored channel, at least 16 frames before
its first fill and with a pitch that runs the service, waits at its controller, a lost channel discarding it; any
other changes nothing. As the fill of a granule begins, the flag writes for it that still wait are cancelled, RFI_LATE
counts each (on which peg is a free value, log 1) and no other request is touched. -/
def Obligations.StoreKeepsWhatItAccepted : Prop :=
  (∀ s : State,
    (s.dev.state ≠ .off → ∀ r unit g b issued, s.dram.queue.find? DramReq.isStore = some r →
      r.kind = .store unit g b issued → ∃ t, exec .storeBurstDiscard s = .next t ∧
      t = count .storeLost (unit / 65536 / 256)
        (loseGranule unit g (elapseTo (issued + periodNs s) { s with dram.queue := s.dram.queue.erase r })) ∧
      lostIn (chanUnit t unit) g = true) ∧
    (s.dev.state ≠ .off → s.dram.queue.find? DramReq.isStore = none → exec .storeBurstDiscard s = .next s) ∧
    (∀ c ue, takeWork (isChunkWork c) s = none ∨ runningImage s = none → exec (.chunkRead c ue) s = .next s) ∧
    (∀ c ue i w u, runningImage s = some i → takeWork (isChunkWork c) s = some (w, u) → i.direct = true →
      exec (.chunkRead c ue) s = .next u) ∧
    (∀ c ue i w u, runningImage s = some i → takeWork (isChunkWork c) s = some (w, u) → i.direct = false →
      heldByOther u c = true →
      exec (.chunkRead c ue) s = .next { u with store.waiting := u.store.waiting ++ [(c, ue)] }) ∧
    (∀ c ue i w u, runningImage s = some i → takeWork (isChunkWork c) s = some (w, u) → i.direct = false →
      heldByOther u c = false → exec (.chunkRead c ue) s = .next (fillChunk i c ue u)) ∧
    (∀ input pos g, runningImage s = none → exec (.rfiFlagWrite input pos g) s = .next s) ∧
    (∀ (input : BitVec 12) (pos g : Nat) (i : Image), runningImage s = some i →
      let ok := i.direct = false ∧ pos < i.channels.length ∧
        writtenIn (chanUnit s (unitKey input.toNat (i.channels.getD pos 0 / max 1 (branches s)))) g = true ∧
        s.time.frame + 16 ≤ firstFill s i (g * 64 / max 1 i.len) ∧ rfiPegs s ≠ []
      let addr := storeBase s + granuleOffset s i input.toNat pos (g * 64)
      (ok → chanLost s addr = false → exec (.rfiFlagWrite input pos g) s =
        .next { s with dram.queue := s.dram.queue ++ [{ cls := 4, addr := addr, kind := .flag }] }) ∧
      (ok → chanLost s addr = true → exec (.rfiFlagWrite input pos g) s = .next s) ∧
      (¬ok → exec (.rfiFlagWrite input pos g) s = .next s))) ∧
  (∀ (s : State) (addr : Nat),
    let late := fun (r : DramReq) => r.kind = .flag ∧ sameBurst r.addr addr = true
    (∀ r, r ∈ (cancelFlags addr s).dram.queue ↔ r ∈ s.dram.queue ∧ ¬late r) ∧
    ((∀ r ∈ s.dram.queue, ¬late r) → cancelFlags addr s = s) ∧
    (∀ r, s.dram.queue.filter (fun x => decide (late x)) = [r] → rfiPegs s ≠ [] → cancelFlags addr s =
      count .rfiLate ((rfiPegs s).getD ((draw s).1 % (rfiPegs s).length) 0)
        { (draw s).2 with dram.queue := s.dram.queue.filter (fun x => !decide (late x)) })) ∧
  (∀ (s : State) (input fine g : Nat) (bad : Bool),
    let x := chanUnit s (unitKey input (fine / max 1 (branches s)))
    (inputFed s input = false → granuleRead s input fine g bad = some none) ∧
    (inputFed s input = true → writtenIn x g = false → granuleRead s input fine g bad = some (some .storeUnwritten)) ∧
    (inputFed s input = true → writtenIn x g = true → lostIn x g = true →
      granuleRead s input fine g bad = some (some .storeLost)) ∧
    (inputFed s input = true → writtenIn x g = true → lostIn x g = false →
      granuleRead s input fine g bad = if bad then some (some .storeUe) else none))

/-- O27, spec/05_filigree_arrays.md R102 to R106, R108, R112, R115, R117, spec/07_clasp_reduction.md R141, R149. In every
state other than OFF. CORRELATION_PASS: once the sums behind the rows have landed (runs that are over leave their
arrays), a pass that the schedule gives runs where its array comes to it next, is enabled, holds no waiting totals and
is in no beam run, on staged operands on the direct route and else on the buffer that holds its channel once its fill
is complete, or, where no buffer holds the channel and the fill is SHED, on flagged operands; in every other case
nothing else happens. CHAIN_SHIFT: with totals waiting and row 0 due, or a stall going on, the next integration's
totals transfer into an empty chain, and a buffer that this frees is released, or else the array stalls for the cycle,
STALL_CYCLES counts it, and the chain shifts by a row; in every other cycle it shifts by a row, with a beam pass that
the row holds up counted as stalled. A row moves only into a landing buffer with room for it, and DUMPS and PASSES
count a dump's and a pass's last row. LANDING_BUFFER_MOVE: nothing moves with no words there, in a turnaround cycle,
or while the job holds the buffer; a dump whose words now call for a spill plane waits; otherwise the job takes its
words of the cycle, and with the last of a dump the dump has landed. ARRAY_TEST_DONE: each array of the oldest test
gets ENABLED if it passed and KAT_FAIL if not, the other arrays stay as they are, and the test is answered; with no
test nothing changes. -/
def Obligations.ArraysPassShiftAndLand : Prop :=
  ∀ (s : State) (a : BitVec 2), s.dev.state ≠ .off →
    (let u := landRounds s;
      (∀ p ce ue, (runningImage u = none ∨ takeWork (isPassWork a.toNat p) u = none ∨ imageOf u p.block = none) →
        exec (.correlationPass a p ce ue) s = .next u) ∧
      (∀ p ce ue r w t i, runningImage u = some r → takeWork (isPassWork a.toNat p) u = some (w, t) →
        imageOf u p.block = some i →
        let ready := u.sched.work.find? (onArray a.toNat) = some w ∧ (array u a.toNat).enabled = true ∧
          (array u a.toNat).beads = [] ∧ inBeam u a.toNat = false
        let result := exec (.correlationPass a p ce ue) s
        let held := holding u (p.pos, p.block)
        (¬ready → result = .next u) ∧
        (ready → i.direct = true → result = .next (runPass a.toNat p ce ue i w none t)) ∧
        (ready → i.direct = false → (∀ k, held = some k →
          (fillDone u (p.pos, p.block) = true → result = .next (runPass a.toNat p ce ue i w (some k) t)) ∧
          (fillDone u (p.pos, p.block) = false → result = .next u)) ∧
          (held = none → (p.pos, p.block, none) ∈ u.sched.shed → result = .next (runPass a.toNat p ce ue i w none t)) ∧
          (held = none → (p.pos, p.block, none) ∉ u.sched.shed → result = .next u)))) ∧
    (∀ due : Bool, let x := array s a.toNat
      let wants := (due = true ∨ x.stalling = true) ∧ x.beads ≠ []
      (wants → inChain x = none → exec (.chainShift a due) s = .next (settleBuffers (transferDump a.toNat s))) ∧
      (wants → inChain x ≠ none → exec (.chainShift a due) s = .next (shiftRow a.toNat (stallCycle a.toNat s))) ∧
      (¬wants → exec (.chainShift a due) s = .next (landRounds (shiftRow a.toNat (if beamStalls s a.toNat then
        count .stallCycles a.toNat (modArray a.toNat (fun x => { x with stalled := true }) s) else s))))) ∧
    (∀ u : State, (inChain (array u a.toNat) = none → shiftRow a.toNat u = u) ∧
      (65536 < landingWords (array u a.toNat) + 256 → shiftRow a.toNat u = u) ∧
      (∀ d, inChain (array u a.toNat) = some d → landingWords (array u a.toNat) + 256 ≤ 65536 →
        let t := shiftRow a.toNat u
        (array t a.toNat).dumps = shiftFirst (array u a.toNat).dumps ∧ (∀ j, j ≠ a.toNat → array t j = array u j) ∧
        t.clasp = u.clasp ∧ counter .dumps a.toNat t = counter .dumps a.toNat u + bit (decide (d.rows.length = 1)) ∧
        counter .passes a.toNat t = counter .passes a.toNat u + bit (decide (d.rows.length = 1) && d.last))) ∧
    (∀ turn ce ue, (array s a.toNat).dumps.find? (fun d => !d.words.isEmpty) = none →
      exec (.landingBufferMove a turn ce ue) s = .next s) ∧
    (∀ d turn ce ue, (array s a.toNat).dumps.find? (fun d => !d.words.isEmpty) = some d →
      let held := turn = true ∨ landingHeld s a.toNat d.job = true
      let n := landingRate s d.job
      let moved : Dump := { d with words := d.words.drop n, moved := (d.words.take n).reverse ++ d.moved }
      let result := exec (.landingBufferMove a turn ce ue) s
      (held → result = .next s) ∧
      (¬held → needsPlane s moved = true → result = .next (waitPlane d.job s)) ∧
      (¬held → needsPlane s moved = false →
        (moved.words = [] → moved.rows = [] → result = .next (dumpLanded a.toNat moved (modArray a.toNat
          (fun x => { x with dumps := x.dumps.erase d }) (addEcc d.job ce ue s)))) ∧
        ((moved.words ≠ [] ∨ moved.rows ≠ []) → result = .next (modArray a.toNat
          (fun x => { x with dumps := x.dumps.map (fun y => if y = d then moved else y) }) (addEcc d.job ce ue s))))) ∧
    (∀ passed, testRunning s = none → exec (.arrayTestDone passed) s = .next s) ∧
    (∀ passed c q, testRunning s = some (c, q) → ∃ t u, exec (.arrayTestDone passed) s = .next t ∧
      t = finish c 0x0607 q .ok 0 0 ([0, 0, 0] ++ [BitVec.ofNat 8 (((selected q.arg).filter
        (fun j => testBit passed.toNat j)).foldl (fun m j => m + 2 ^ j) 0)]) u ∧ u = { s with arrays := u.arrays } ∧
      (∀ j, array t j = if j ∈ selected q.arg then { array s j with
        katFail := !testBit passed.toNat j, enabled := testBit passed.toNat j, mode := 0 } else array s j))

/-- O28, R93, R94, R95, R97, R99, R145. For all sample sequences x and y: the totals over a + b samples are the totals
over the first a plus those over the next b; the totals of (y, x) are the conjugate of those of (x, y) with the same
coincidence count; an autocorrelation has imaginary total 0; a pair of samples of which neither is flagged adds x
times the conjugate of y, and the coincidence count is at most the length; with unflagged components from -m to m the
components of a total over n samples lie within 2 m² n. -/
def Obligations.BeadTotalsAreExactSums : Prop :=
  (∀ (x y : Nat → Smp) (t0 a b : Nat),
      beadTotals x y t0 (a + b) =
        ((beadTotals x y t0 a).1 + (beadTotals x y (t0 + a) b).1,
         (beadTotals x y t0 a).2.1 + (beadTotals x y (t0 + a) b).2.1,
         (beadTotals x y t0 a).2.2 + (beadTotals x y (t0 + a) b).2.2)) ∧
    (∀ (x y : Nat → Smp) (t0 n : Nat),
      beadTotals y x t0 n = ((beadTotals x y t0 n).1, -(beadTotals x y t0 n).2.1, (beadTotals x y t0 n).2.2) ∧
      (beadTotals x x t0 n).2.1 = 0 ∧ (beadTotals x y t0 n).2.2 ≤ n) ∧
    (∀ (x y : Nat → Smp) (t : Nat), (x t).flag = false → (y t).flag = false →
      beadTotals x y t 1 = ((x t).re * (y t).re + (x t).im * (y t).im, (x t).im * (y t).re - (x t).re * (y t).im, 0)) ∧
    (∀ (x y : Nat → Smp) (t0 n : Nat) (m : Int),
      (∀ t, (x t).flag = false → -m ≤ (x t).re ∧ (x t).re ≤ m ∧ -m ≤ (x t).im ∧ (x t).im ≤ m) →
      (∀ t, (y t).flag = false → -m ≤ (y t).re ∧ (y t).re ≤ m ∧ -m ≤ (y t).im ∧ (y t).im ≤ m) → 0 ≤ m →
      -(2 * m * m * n) ≤ (beadTotals x y t0 n).1 ∧ (beadTotals x y t0 n).1 ≤ 2 * m * m * n ∧
      -(2 * m * m * n) ≤ (beadTotals x y t0 n).2.1 ∧ (beadTotals x y t0 n).2.1 ≤ 2 * m * m * n)

/-- O29, spec/07_clasp_reduction.md R149 to R159. TILE_CLAIM: a beam job, or a job words of whose dump have reached its
landing buffer, waits for its tiles, and every tile then free goes to the lowest-numbered job that waits for it
(R151); a job not yet due, or no such job, changes nothing. SPILL_PLANE_TAKE: with the whole reserve in use, or no job
that waits for one, nothing changes; else the waiting job's list moves to a plane and SPILLS counts it. TILE_READOUT:
only the job whose turn it is, full, with a dump and its tile and neither waiting nor given up, leaves: as gap records
of reason 6 where a word is uncorrectable (LOCKET_UE, event 0x0700), otherwise as its product, with JOBS counted; its
tiles are released. LA_DUMP, after the requests queued before it: the dump of a job already given up goes; one of a
void accumulation, or that is not complete, makes it void with reason 7. One that is the last of the accumulation, or
would take the exception list past 64 entries, waits for its job's turn, and for a spill plane past 4096 entries. Then
its accumulation is read: an uncorrectable word makes it void with reason 8; else the dump is added in DRAM and
covered, or closes the accumulation with its product, its words in DRAM going back to zero. -/
def Obligations.JobsClaimSpillAndReadOut : Prop :=
  ∀ (s : State) (n : BitVec 16),
    (let claims := fun (j : Job) => !j.owns && !j.waitTile && !(jobTiles s j).isEmpty;
      (findJob s n.toNat claims = none → exec (.tileClaim n) s = .next s) ∧
      (∀ j, findJob s n.toNat claims = some j →
        let due := j.kind = .beamSum ∨ ∃ d ∈ (array s j.array).dumps, d.job = (j.frame, j.number) ∧
          (d.words ≠ [] ∨ d.moved ≠ []);
        (due → exec (.tileClaim n) s = .next (grantTiles (modJobs (isJob (j.frame, j.number))
          (fun j => { j with waitTile := true }) s))) ∧
        (¬due → exec (.tileClaim n) s = .next s))) ∧
    (findJob s n.toNat (fun j => j.waitSpill) = none → exec (.spillPlaneTake n) s = .next s) ∧
    (∀ j, findJob s n.toNat (fun j => j.waitSpill) = some j →
      (2 * s.clasp.spillTiles ≤ planesUsed s → exec (.spillPlaneTake n) s = .next s) ∧
      (planesUsed s < 2 * s.clasp.spillTiles →
      exec (.spillPlaneTake n) s = .next (count .spills 0 (modJobs (isJob (j.frame, j.number)) (fun j =>
        { j with plane := some j.exc, exc := [], waitSpill := false }) s)))) ∧
    (let ready := fun (j : Job) => j.number = n.toNat ∧ jobFull j = true ∧ j.included ≠ [] ∧ j.owns = true ∧
        j.waitSpill = false ∧ j.gap = none;
      (∀ ce ue, (∀ j i, nextJob s = some j → imageOf s j.block = some i → ¬ready j) →
        exec (.tileReadout n ce ue) s = .next s) ∧
      (∀ j i ce, nextJob s = some j → imageOf s j.block = some i → ready j →
        let u := countN .locketCe 0 ce s
        let lost := raise 0x0700 44 j.tile [] (count .locketUe 0 (claspMark 0x80 u))
        exec (.tileReadout n ce true) s = .next (settleJobs (freeNoise i j (endJob j
          (emitItems j (productGaps lost i j 6 ++ lostGaps lost i j) lost)))) ∧
        exec (.tileReadout n ce false) s = .next (settleJobs (freeNoise i j (endJob j (count .jobs 0 (readProduct i j u))))))) ∧
    (let waits := fun (j : Job) => j.kind = .longAcc && j.arrived.isSome && !j.waitSpill
      let u := serveFirst 3 (fun _ => true) s;
      (∀ complete ue, findJob s n.toNat waits = none → exec (.laDump n complete ue) s = .next s) ∧
      (∀ j complete ue, findJob s n.toNat waits = some j → imageOf u j.block = none →
        exec (.laDump n complete ue) s = .next u) ∧
      (∀ j d i complete ue, findJob s n.toNat waits = some j → j.arrived = some d → imageOf u j.block = some i →
        let result := exec (.laDump n complete ue) s
        let key := laKey j
        let l := laNow u i j
        let read := if l.covered.isEmpty then (false, u) else laRead key ue u
        let exc := mergedExc (halfOf i j) d l.exc
        let next : La := { l with covered := l.covered ++ [(d.block, d.index, d.len)], lsum := l.lsum + d.len, exc := exc
                                  frow := addCounts l.frow d.frow, fcol := addCounts l.fcol d.fcol }
        let lastDump := j.dumps.length ≤ j.included.length + 1
        let closes := laLast u i j = true ∧ lastDump
        let split := 64 < exc.length ∧ ¬closes
        let done := modJobs (isJob (j.frame, j.number)) (fun j =>
          { j with arrived := none, included := j.included ++ [(d.block, d.index, d.len)] })
        let turn := ∃ k, nextJob u = some k ∧ isJob (j.frame, j.number) k = true
        let added := laAdd key l.covered.isEmpty d (laTouch key read.2)
        let whole := j.gap = none ∧ l.void = none ∧ complete = true
        let reads := whole ∧ ((closes ∨ split) → turn ∧ (exc.length ≤ 4096 ∨ j.plane ≠ none))
        let goes := reads ∧ read.1 = false
        (j.gap ≠ none → result = .next (modJobs (isJob (j.frame, j.number)) (fun j => { j with arrived := none }) u)) ∧
        (j.gap = none → (l.void ≠ none ∨ complete = false) → result = .next (voidLa i j 7 u)) ∧
        (whole → (closes ∨ split) → ¬turn → result = .next u) ∧
        (whole → (closes ∨ split) → turn → 4096 < exc.length → j.plane = none → result =
          .next (modJobs (isJob (j.frame, j.number)) (fun j => { j with waitSpill := true }) u)) ∧
        (reads → read.1 = true → result = .next (voidLa i j 8 read.2)) ∧
        (goes → ¬closes → ¬split → (¬lastDump → result = .next (done (setLa key (some next) added))) ∧
          (lastDump → result = .next (settleJobs (endJob j (count .jobs 0 (done (setLa key (some next) added))))))) ∧
        (goes → (closes ∨ split) →
          (let x := facetProduct i (laJob j next) 0xFFFF (decide split) (fun r c =>
              tabGet (0, 0) added.clasp.laWords (key * 65536 + 256 * r + c)) added
            let out := emitItems j [x.1] (setLa key none (laClear key x.2))
            (split → ¬lastDump → result = .next (done (count .laSplit 0 (claspMark 0x20 out)))) ∧
            (split → lastDump → result = .next (settleJobs (freeNoise i j (endJob j (count .jobs 0
              (done (count .laSplit 0 (claspMark 0x20 out)))))))) ∧
            (closes → result = .next (settleJobs (freeNoise i j (endJob j (count .jobs 0 (done out))))))))))

/-- O30, spec/07_clasp_reduction.md R149, R150, R151. For every job j and state s, after the end of j: no tile has j as
its owner, and j is no longer among the jobs. With the table of owners in its canonical form, a tile that another job
owned keeps that owner, and a tile of 0 to 127 that j owned or that was free, and for which jobs other than j wait,
goes to a waiting job of which no waiting job has a lower number. No job waits for a free tile, and a job still waits
only for a tile that is not its own. -/
def Obligations.ReleasedTilesGoToWaitingJobs : Prop :=
  ∀ (j : Job) (s : State),
    (∀ t, ownerOf (endJob j s) t ≠ some (j.frame, j.number)) ∧
    (∀ k ∈ (endJob j s).clasp.jobs, isJob (j.frame, j.number) k = false) ∧
    (∀ t id, tabWf none s.clasp.owners = true → ownerOf s t = some id → id ≠ (j.frame, j.number) →
      ownerOf (endJob j s) t = some id) ∧
    (∀ t k, tabWf none s.clasp.owners = true → t < 128 → (ownerOf s t = none ∨ ownerOf s t = some (j.frame, j.number)) →
      k ∈ s.clasp.jobs → isJob (j.frame, j.number) k = false → k.waitTile = true → t ∈ jobTiles s k →
      ∃ w ∈ s.clasp.jobs, w.waitTile = true ∧ t ∈ jobTiles s w ∧ w.number ≤ k.number ∧
        ownerOf (endJob j s) t = some (w.frame, w.number)) ∧
    (∀ k ∈ (endJob j s).clasp.jobs, k.waitTile = true →
      (∀ t, t < 128 → t ∈ jobTiles s k → ownerOf (endJob j s) t ≠ none) ∧
      (∃ t ∈ jobTiles s k, ownerOf (endJob j s) t ≠ some (k.frame, k.number)))

/-- O31, spec/06_beam_mode.md R118, R119, R128, R131, R132, R136, R137, spec/07_clasp_reduction.md R154. BEAM_SEGMENT,
SEGMENT_READOUT and PEAK_LIST_EMIT first let rounds land whose shadow rows are gone. BEAM_SEGMENT: a segment that the
schedule gives runs where every array of its mask is enabled, holds no waiting totals, is in no beam run and comes to
it next, and its run's job owns its tiles, has none or is SHED: on staged operands on the direct route, else on the
buffer that holds its channel once its fill is complete, or on flagged operands where no buffer holds it and its fill
is SHED; in every other case nothing else happens. SEGMENT_READOUT: the oldest complete buffer, if it is the one
named, is read out with its corrected words counted, or voided where it is void or a word is uncorrectable (LOCKET_UE
and its event), and an uncorrectable word of the run's partials voids the window and the statistics they hold (log
47); then the gap records of SHED segments whose turn has come leave. In every other case nothing else happens.
PEAK_LIST_EMIT: the oldest list of a watch leaves where a schedule runs and its interval is over; in every other case
nothing else changes. A ranked list never holds more than 8 candidates. -/
def Obligations.BeamSegmentsRunReadOutAndPeak : Prop :=
  ∀ s : State, let u := landRounds s
    (∀ x ce ue ecc, (runningImage u = none ∨ takeWork (isSegWork x) u = none ∨ imageOf u x.block = none) →
      exec (.beamSegment x ce ue ecc) s = .next u) ∧
    (∀ x ce ue ecc r w t i, runningImage u = some r → takeWork (isSegWork x) u = some (w, t) →
      imageOf u x.block = some i →
      let ready := ∀ a ∈ maskArrays x.arrays.toNat, (array u a).enabled = true ∧ (array u a).beads = [] ∧
        inBeam u a = false ∧ u.sched.work.find? (onArray a) = some w
      let tiled := fun (j : Job) => j.owns = true ∨ jobTiles u j = [] ∨ segShed u w = true
      let held := holding u (x.pos, x.block)
      let result := exec (.beamSegment x ce ue ecc) s
      (¬ready → result = .next u) ∧ (segJob u i w = none → result = .next u) ∧
      (∀ j, ready → segJob u i w = some j →
        (¬tiled j → result = .next u) ∧
        (tiled j → i.direct = true → result = .next (runSegment x ce ue ecc i j w none t)) ∧
        (tiled j → i.direct = false →
          (∀ k, held = some k →
            (fillDone u (x.pos, x.block) = true → result = .next (runSegment x ce ue ecc i j w (some k) t)) ∧
            (fillDone u (x.pos, x.block) = false → result = .next u)) ∧
          (held = none → (x.pos, x.block, none) ∈ u.sched.shed →
            result = .next (runSegment x ce ue ecc i j w none t)) ∧
          (held = none → (x.pos, x.block, none) ∉ u.sched.shed → result = .next u)))) ∧
    (∀ set pos m ce ue pue, (∀ b, u.beam.bufs.find? bufDone = some b → b.set ≠ set.toNat ∨ b.pos ≠ pos ∨ b.m ≠ m ∨
        imageOf u b.block = none ∨ u.clasp.jobs.find? (isJob b.job) = none) →
      exec (.segmentReadout set pos m ce ue pue) s = .next u) ∧
    (∀ set pos m ce pue b i j, u.beam.bufs.find? bufDone = some b → b.set = set.toNat → b.pos = pos → b.m = m →
      imageOf u b.block = some i → u.clasp.jobs.find? (isJob b.job) = some j →
      let k : Job := { j with block := b.block }
      let v := countN .locketCe 0 ce u
      let shed := fun (t : State) => settleShed t.beam.shedLater t
      exec (.segmentReadout set pos m ce true pue) s =
        .next (shed (voidSegment i k b (locketLost (j.tile + b.m % 2 * (u.beam.segLen / 256)) v))) ∧
      (b.void = true → exec (.segmentReadout set pos m ce false pue) s = .next (shed (voidSegment i k b v))) ∧
      (b.void = false → (pue = false ∨ partialsHeld v b = false) →
        exec (.segmentReadout set pos m ce false pue) s = .next (shed (readSegment i k b v))) ∧
      (b.void = false → pue = true → partialsHeld v b = true →
        exec (.segmentReadout set pos m ce false pue) s = .next (shed (readSegment i k b (voidPartials k b v))))) ∧
    (∀ n i b key x rest, runningImage u = some i → (watch u n.toNat).beam = some b →
      (watch u n.toNat).lists = (key, some x) :: rest → intervalDone u i (b / 256) key = true →
      exec (.peakListEmit n) s = .next (emitPeaks i n.toNat b key x u)) ∧
    (∀ n, (∀ i b key x rest, runningImage u = some i → (watch u n.toNat).beam = some b →
        (watch u n.toNat).lists = (key, some x) :: rest → intervalDone u i (b / 256) key = false) →
      exec (.peakListEmit n) s = .next u) ∧
    (∀ (x : Peak) (l : List Peak), (insertPeak x l).length ≤ 8)

/-- O32, R171, R172, R173, R174, R175, R176. The step search from k upwards ends at the largest exponent it may reach for
which every smaller or equal step above the start passed the test of R171; the quotient of a component is within half
a step of the component, and that of the negated component is the negated quotient; a folded quotient is even for one
that is not negative and odd otherwise, and gives the quotient back; a block of 32 values is 64 bytes when every
quotient lies in -32767 to 32767 and 128 bytes otherwise, and its exponent byte says which. -/
def Obligations.FacetStepsRoundAndFold : Prop :=
  (∀ num den e n k : Nat, k ≤ stepLoop num den e n k ∧ stepLoop num den e n k ≤ k + n ∧
      (∀ j, k < j → j ≤ stepLoop num den e n k → den * 2 ^ (2 * j + 2 * e) ≤ num) ∧
      (stepLoop num den e n k < k + n → num < den * 2 ^ (2 * (stepLoop num den e n k + 1) + 2 * e))) ∧
    (∀ (v : Int) (k : Nat), 2 * (v - roundTe v (2 ^ k) * (2 ^ k : Nat)).natAbs ≤ 2 ^ k ∧
      roundTe (-v) (2 ^ k) = -roundTe v (2 ^ k)) ∧
    (∀ q : Int, q = if foldValue q % 2 = 0 then ((foldValue q / 2 : Nat) : Int) else -(((foldValue q + 1) / 2 : Nat) : Int)) ∧
    (∀ (k reason : Nat) (l : List Int), l.length = 32 → k < 32 → reason < 4 →
      ((∀ v ∈ l, (roundTe v (2 ^ k)).natAbs ≤ 32767) → (facetBlock k reason l).1.length = 64 ∧
        (facetBlock k reason l).2.toNat = 32 * reason + k) ∧
      ((∃ v ∈ l, 32767 < (roundTe v (2 ^ k)).natAbs) → (facetBlock k reason l).1.length = 128 ∧
        (facetBlock k reason l).2.toNat = 128 + 32 * reason + k))

/-- O33, spec/08_facet_and_pack.md R182 to R186, R190, spec/09_output_records.md R192. In every state other than OFF.
PACK_ITEM_ARRIVE: the engine has read what the command says of its buffer, and the next item enters it last, whole
where the buffer has room for it and otherwise as a PACK_FULL gap record that PACK_FULL counts. PACK_ITEM_DONE: the
oldest item of the buffer is encoded where its stream is compressed, counted, and goes through the output buffer to
record assembly. With nothing waiting nothing else changes. Assembly gives the record the stream's next number, which
goes up by one, and no other stream changes; an item of a stream that does not exist forms nothing. PACK_ENCODE_DONE:
the oldest service encoding, if it holds an engine, ends: a source that cannot be read ends it with the status of that
read (log 36); output that fits its destination is queued to be written there and completes OK with its length; longer
output completes NO_SPACE and writes nothing (that reading of NO_SPACE is the model's, log 36); with no encoding, or
one that holds no engine, nothing changes. -/
def Obligations.PackAndAssemblyKeepOrder : Prop :=
  ∀ s : State, s.dev.state ≠ .off →
    (∀ (k : BitVec 4) (read : Nat),
      let u := modEngine k.toNat (fun e => { e with read := min (itemBytes e) (max e.read read) }) s
      let entered := fun (rest : List Item) (y : Item) =>
        modEngine k.toNat (fun e => { e with incoming := rest, queue := e.queue ++ [y] }) u
      ((engine s k.toNat).incoming = [] → exec (.packItemArrive k read) s = .next u) ∧
      (∀ x rest, (engine s k.toNat).incoming = x :: rest →
        (queuedBytes (engine u k.toNat) + x.payload.length ≤ 2 ^ 20 →
          exec (.packItemArrive k read) s = .next (entered rest x)) ∧
        (2 ^ 20 < queuedBytes (engine u k.toNat) + x.payload.length →
          exec (.packItemArrive k read) s = .next (count .packFull k.toNat
            { entered rest (asGap 0x0B x) with pack.sticky := s.pack.sticky ||| 2 })))) ∧
    (∀ (k : BitVec 4), (engine s k.toNat).queue = [] → exec (.packItemDone k) s = .next s) ∧
    (∀ (k : BitVec 4) x rest, (engine s k.toNat).queue = x :: rest →
      let on := x.gap.isNone && compressed s x
      let packed := if on then packEncode x.payload else none
      exec (.packItemDone k) s = .next (assemble x packed (countItem k.toNat x packed (on && packed.isNone)
        (modEngine k.toNat (fun e => { e with queue := rest, read := e.read - x.payload.length
                                              output := packed.getD x.payload }) s)))) ∧
    (∀ (x : Item) (p : Option (List Byte)) (o : OStream), ostream s x.ostream = some o →
      ostream (assemble x p s) x.ostream = some { o with next := o.next + 1, formed := true } ∧
      (∀ j, j ≠ x.ostream → ostream (assemble x p s) j = ostream s j) ∧
      (assemble x p s).out.order = s.out.order + 1) ∧
    (∀ (x : Item) (p : Option (List Byte)), ostream s x.ostream = none → assemble x p s = s) ∧
    (let encoding := s.services.find? (fun x => !isUpdateEnd x.cmd);
      (encoding = none → exec .packEncodeDone s = .next s) ∧
      (∀ x, encoding = some x → engineServes s x.seq = false → exec .packEncodeDone s = .next s) ∧
      (∀ x, encoding = some x → engineServes s x.seq = true →
        let mine : Bool := x.cmd = .recExport x.req
        let op := if mine then 0x0C02 else 0x0803
        let u := { s with services := s.services.erase x, recorder.clearing := s.recorder.clearing && !mine }
        let r := if mine then (x.source, none, u) else bulkFetch (bulk x.req.arg 0) u
        let out := if x.dynamic then deflateDynamic r.1 else deflateFixed r.1
        (∀ st, r.2.1 = some st → exec .packEncodeDone s = .next (finish x.cmd op x.req st 0 0 [] r.2.2)) ∧
        (r.2.1 = none → x.dstLen < out.length → exec .packEncodeDone s = .next (finish x.cmd op x.req .noSpace 0 0 [] r.2.2)) ∧
        (r.2.1 = none → out.length ≤ x.dstLen →
          exec .packEncodeDone s = .next (finish x.cmd op x.req .ok out.length 0 [] (queueWrite x.dst 4 out r.2.2)))))

/-- O34, spec/09_output_records.md R203, R205, R207 to R209, R211 to R213. In every state other than OFF.
EGRESS_AGE_EXPIRY cuts exactly the records of the quad not begun by their age limit to EGRESS_AGED gap records, in
place, and counts them; HOSTRING_AGE_EXPIRY does so in a ring that exists. DATAGRAM_TRANSMIT, after ageing and the
discards of a quad whose link is down, sends the next datagram of the head record only where the allow-list holds its
destination and the bucket holds its frame with preamble and gap, and the record moves on by one datagram or leaves
with its last; a destination not in the list has its record discarded, reason 2; with too little in the bucket, or no
record, nothing leaves. HOST_RING_WRITE, after ageing, takes the head record of a ring whose turn it is: a suspended
ring or less than 64 free bytes discards it, reason 3, one that fits is written, and any other as its HOST_RING_FULL
gap record; a ring that does not exist, waits or has no record changes nothing else. A write goes by the ring's DMA
channel in multiples of 64 bytes, then its new write index, with an interrupt; it ends whole where one window covers
the ring, the host can be reached and PCIe outbound is not held in reset; one that a request's error cuts short is
discarded and the index stays (log 46). A PAUSE frame is counted and marks the quad. -/
def Obligations.OutputLeavesInOrderAndWithinItsLimits : Prop :=
  ∀ s : State, s.dev.state ≠ .off →
    (∀ k : BitVec 5,
      let due := fun (x : Rec × Flow × Nat) => !x.1.gap && x.2.2 = 0 &&
        decide (x.1.frame + entryAge x.2.1 ≤ s.time.frame)
      ∃ t, exec (.egressAgeExpiry k) s = .next t ∧ t = { s with out.quads := t.out.quads, counters := t.counters } ∧
      (egress t k.toNat).queue = (egress s k.toNat).queue.map (fun x => if due x then (gapOf 0x10 x.1, x.2) else x) ∧
      (∀ j, j ≠ k.toNat → egress t j = egress s j) ∧
      counter .egressAged k.toNat t = counter .egressAged k.toNat s + ((egress s k.toNat).queue.filter due).length) ∧
    (∀ k : BitVec 4, ring s k.toNat = none → exec (.hostringAgeExpiry k) s = .next s) ∧
    (∀ (k : BitVec 4) (x : HostRing), ring s k.toNat = some x → ∃ t, exec (.hostringAgeExpiry k) s = .next t ∧
      t = { s with out.rings := t.out.rings, counters := t.counters } ∧
      ring t k.toNat = some { x with queue := x.queue.map (fun r => if !r.gap && decide (r.frame + x.age ≤ s.time.frame)
        then gapOf 0x10 r else r) } ∧ (∀ j, j ≠ k.toNat → ring t j = ring s j)) ∧
    (∀ k : BitVec 5, let u := drainDown k.toNat (ageQuad k.toNat s)
      (nextDatagram u k.toNat = none → exec (.datagramTransmit k) s = .next u) ∧
      (∀ d, nextDatagram u k.toNat = some (d, true) → d.cost ≤ bucketNow u k.toNat →
        exec (.datagramTransmit k) s = .next (sendDatagram k.toNat d u)) ∧
      (∀ d, nextDatagram u k.toNat = some (d, true) → bucketNow u k.toNat < d.cost →
        exec (.datagramTransmit k) s = .next u) ∧
      (∀ d r entry n rest, nextDatagram u k.toNat = some (d, false) → (egress u k.toNat).queue = (r, entry, n) :: rest →
        exec (.datagramTransmit k) s = .next (popQuad k.toNat (discardQuad k.toNat 2 r (count .denied k.toNat
          (modEgress k.toNat (fun e => { e with sticky := e.sticky ||| 0x20 }) u))))) ∧
      (∀ t d, exec (.datagramTransmit k) s = .next t → (egress t k.toNat).sent = some d →
        (egress s k.toNat).sent ≠ some d → nextDatagram u k.toNat = some (d, true) ∧ d.cost ≤ bucketNow u k.toNat)) ∧
    (∀ (k : Nat) (d : Datagram), let t := sendDatagram k d s
      (egress t k).sent = some d ∧ (egress t k).filled = s.time.tb2 ∧ (egress t k).queue = (match (egress s k).queue with
        | (r, entry, i) :: rest => if d.last then rest else (r, entry, i + 1) :: rest
        | [] => []) ∧ (∀ j, j ≠ k → egress t j = egress s j)) ∧
    (∀ k : BitVec 5, exec (.pauseFrameReceive k) s = .next (count .pauseIgnored k.toNat
      (modEgress k.toNat (fun e => { e with sticky := e.sticky ||| 0x80 }) s))) ∧
    (∀ k : BitVec 4, let u := ageRing k.toNat s
      ((∀ x r rest, ring u k.toNat = some x → x.queue = r :: rest → ringTurn u x r = false) →
        exec (.hostRingWrite k) s = .next u) ∧
      (∀ x r rest, ring u k.toNat = some x → x.queue = r :: rest → ringTurn u x r = true →
        let v := modRing k.toNat (fun x => { x with queue := rest }) u
        let free := if hostReachable v then ringFree (ringRead v k.toNat) x else 0
        ((x.suspended = true ∨ free < 64) → exec (.hostRingWrite k) s = .next (discard 3 r v)) ∧
        (x.suspended = false → 64 ≤ free → (pad64 r.bytes).length ≤ free →
          exec (.hostRingWrite k) s = .next (ringRecord k.toNat x r v)) ∧
        (x.suspended = false → 64 ≤ free → free < (pad64 r.bytes).length → exec (.hostRingWrite k) s =
          .next (ringRecord k.toNat x (gapOf 0x11 r) (count .gaps (r.ostream * 64 + 0x11) v))))) ∧
    (∀ (k : Nat) (x : HostRing) (r : Rec), let l := pad64 r.bytes
      let w := x.write + l.length
      let y := chanWrite x.dma (ringRuns x l ++ [(x.base - 64, leBytes 8 w)]) s
      64 ∣ l.length ∧ (y.1 ≠ 0 → ringRecord k x r s = discard 3 r y.2) ∧
      (y.1 = 0 → ringRecord k x r s = interrupt (16 + k) (modRing k (fun z => { z with write := w }) y.2)) ∧
      (64 ≤ x.base → hostRangeOk s true (x.base - 64) (2 ^ x.log2 + 64) = true → hostReachable s = true →
        targetDown s 6 = false → l.length ≤ 2 ^ x.log2 → y.1 = 0))

/-- O35, spec/11_peg_engines.md R243, R248, R264, R268. On a peg that issues, with an instruction word that ECC finds
whole or corrects (and then counts): ADD, SUB, AND, OR, XOR, MIN, MAX, ADDS, CMP, ABS, CLZ, POPC, BITREV, PADD, PSUB,
PSAT, the shifts SHL, SHR, SAR and ROT by 0 to 31, and EXT and INS of a field within the word write gd the value of
the operation, to be seen by instructions issued a cycle later; the peg moves on, its cycle counter goes up by one and
INSTRUCTIONS counts it. The values of CMP, PSAT, a widened immediate, ABS of the most negative value and the bits of
EXT above its field are open: the statement holds for every value of them (logs 1, 2); signed MIN and MAX, rotation to
the left and wrapping packed sums are the model's reading (log 11). A shift count in a register beyond 31, and an EXT
or INS field that leaves the word, write a free value. -/
def Obligations.PegAluInstructionsWriteTheirResult : Prop :=
  ∀ (s : State) (p : PegIssue), pegIssues s p.peg → p.imem ≠ .uncorrectable →
    let g := pegNow s p.peg
    let u := countEcc .imemCe p.peg.toNat p.imem s
    (∀ (d a : BitVec 5) (b : PegSrc),
      exec (.pegAdd p d a b) s = .next (issued p.peg (g.writeG d (g.rg a + g.src b)) u) ∧
      exec (.pegSub p d a b) s = .next (issued p.peg (g.writeG d (g.rg a - g.src b)) u) ∧
      exec (.pegAnd p d a b) s = .next (issued p.peg (g.writeG d (g.rg a &&& g.src b)) u) ∧
      exec (.pegOr p d a b) s = .next (issued p.peg (g.writeG d (g.rg a ||| g.src b)) u) ∧
      exec (.pegXor p d a b) s = .next (issued p.peg (g.writeG d (g.rg a ^^^ g.src b)) u) ∧
      exec (.pegMin p d a b) s = .next (issued p.peg (g.writeG d (if (g.rg a).slt (g.src b) then g.rg a else g.src b)) u) ∧
      exec (.pegMax p d a b) s = .next (issued p.peg (g.writeG d (if (g.src b).slt (g.rg a) then g.rg a else g.src b)) u) ∧
      exec (.pegAdds p d a b) s = .next (issued p.peg (g.writeG d (BitVec.ofInt 32 (clampInt (-2147483648) 2147483647 ((g.rg a).toInt + (g.src b).toInt)))) u) ∧
      exec (.pegCmp p d a b) s = .next (issued p.peg (g.writeG d (Config.cmpResult (g.rg a) (g.src b))) u)) ∧
    (∀ (d a : BitVec 5) (n : PegCount) (k : Nat), g.shift n = some k →
      exec (.pegShl p d a n) s = .next (issued p.peg (g.writeG d (g.rg a <<< k)) u) ∧
      exec (.pegShr p d a n) s = .next (issued p.peg (g.writeG d (g.rg a >>> k)) u) ∧
      exec (.pegSar p d a n) s = .next (issued p.peg (g.writeG d ((g.rg a).sshiftRight k)) u) ∧
      exec (.pegRot p d a n) s = .next (issued p.peg (g.writeG d ((g.rg a).rotateLeft k)) u)) ∧
    (∀ (d a : BitVec 5) (n : PegCount), g.shift n = none →
      let free := .next (issued p.peg (g.writeG d (BitVec.ofNat 32 (draw u).1)) (draw u).2)
      exec (.pegShl p d a n) s = free ∧
      exec (.pegShr p d a n) s = free ∧
      exec (.pegSar p d a n) s = free ∧
      exec (.pegRot p d a n) s = free) ∧
    (∀ (n : BitVec 5), g.shift (.imm n) = some n.toNat) ∧
    (∀ (r : BitVec 5), g.shift (.reg r) = if (g.rg r).toNat < 32 then some (g.rg r).toNat else none) ∧
    (∀ (d a b : BitVec 5), exec (.pegPadd p d a b) s = .next (issued p.peg (g.writeG d
        (((g.rg a).extractLsb' 16 16 + (g.rg b).extractLsb' 16 16) ++
          ((g.rg a).extractLsb' 0 16 + (g.rg b).extractLsb' 0 16))) u) ∧
      exec (.pegPsub p d a b) s = .next (issued p.peg (g.writeG d
        (((g.rg a).extractLsb' 16 16 - (g.rg b).extractLsb' 16 16) ++
          ((g.rg a).extractLsb' 0 16 - (g.rg b).extractLsb' 0 16))) u) ∧
      exec (.pegPsat p d a b) s = .next (issued p.peg (g.writeG d (Config.packedSaturate (g.rg a) (g.rg b))) u)) ∧
    (∀ (d a : BitVec 5),
      (g.rg a ≠ 0x80000000 → exec (.pegAbs p d a) s =
        .next (issued p.peg (g.writeG d (BitVec.ofInt 32 ((g.rg a).toInt.natAbs))) u)) ∧
      (g.rg a = 0x80000000 → exec (.pegAbs p d a) s = .next (issued p.peg (g.writeG d Config.absOfMin) u)) ∧
      (∃ n : BitVec 32, exec (.pegClz p d a) s = .next (issued p.peg (g.writeG d n) u) ∧ n.toNat ≤ 32 ∧
        (∀ i, 32 - n.toNat ≤ i → (g.rg a).getLsbD i = false) ∧ (n.toNat < 32 → (g.rg a).getLsbD (31 - n.toNat) = true)) ∧
      exec (.pegPopc p d a) s = .next (issued p.peg (g.writeG d
        (BitVec.ofNat 32 ((List.range 32).filter (fun i => (g.rg a).getLsbD i)).length)) u) ∧
      (∃ v : BitVec 32, exec (.pegBitrev p d a) s = .next (issued p.peg (g.writeG d v) u) ∧
        (∀ i, i < 32 → v.getLsbD i = (g.rg a).getLsbD (31 - i)))) ∧
    (∀ (d a lsb len : BitVec 5), lsb.toNat + len.toNat ≤ 32 →
      (∃ v : BitVec 32, exec (.pegExt p d a lsb len) s = .next (issued p.peg (g.writeG d v) u) ∧
        (∀ i, i < len.toNat → v.getLsbD i = (g.rg a).getLsbD (lsb.toNat + i))) ∧
      (∃ v : BitVec 32, exec (.pegIns p d a lsb len) s = .next (issued p.peg (g.writeG d v) u) ∧
        (∀ i, i < 32 → v.getLsbD i = if lsb.toNat ≤ i ∧ i < lsb.toNat + len.toNat then (g.rg a).getLsbD (i - lsb.toNat)
          else (g.rg d).getLsbD i))) ∧
    (∀ (d a lsb len : BitVec 5), 32 < lsb.toNat + len.toNat →
      let free := .next (issued p.peg (g.writeG d (BitVec.ofNat 32 (draw u).1)) (draw u).2)
      exec (.pegExt p d a lsb len) s = free ∧ exec (.pegIns p d a lsb len) s = free)

/-- O36, R248, spec/11_peg_engines.md Tables 11.2, 11.3. For a peg whose pending results are listed in rising order of
their cycle: a result written with a delay of n cycles to register d, with no pending result of d due after it, is
read by instructions issued n or more cycles later and not by sooner ones, which read what they would have read
without it; a result to g0 is never read; and every other register of the register file reads at each cycle what it
would have read without it. -/
def Obligations.PegResultsAreSeenAfterTheirDelay : Prop :=
  ∀ (g : Peg) (d : BitVec 5) (v : BitVec 32) (n c : Nat), g.writes.Pairwise (fun a b => a.due ≤ b.due) →
    (c < g.cyc + n → ∀ r, ((g.write n (.g d) v.toNat).commitTo c).rg r = (g.commitTo c).rg r) ∧
    ((∀ w ∈ g.writes, w.dest = .g d → w.due ≤ g.cyc + n) → d ≠ 0 → g.cyc + n ≤ c →
      ((g.write n (.g d) v.toNat).commitTo c).rg d = v) ∧
    (∀ r, r ≠ d → ((g.write n (.g d) v.toNat).commitTo c).rg r = (g.commitTo c).rg r) ∧
    ((g.write n (.g d) v.toNat).commitTo c).rg 0 = 0 ∧
    (g.write n (.g d) v.toNat).writes.Pairwise (fun a b => a.due ≤ b.due)

/-- O37, spec/11_peg_engines.md R249, R255, R256, R258, R261, R264. On a peg that issues, with a whole or corrected
instruction word. Outside delay slots, and where no ILLEGAL is detected at the end of a loop's body (where it is, is
open, log 2): JMP, BR.cc with a condition that holds or not (which codes hold is open, log 2), CALL, RET and XWAIT go
on, after the next two instructions, at their target, or where a branch is not taken, at the third instruction on;
RETI so goes on at spc; CALL writes the address of the third instruction on to g30. LOOP with a count goes on through
two delay slots and, with no result pending, its count, start, end and LE are seen two cycles later; with count 0 it
goes on, after its delay slots, at end + 1; a body that holds no instruction is ILLEGAL where the hardware detects it.
Issued in a delay slot each of these, and a branch where the ILLEGAL is detected, stops the peg with the fault ILLEGAL
at its own address, and PEG_FAULT counts it. An instruction's address counts instructions (log 19, DEDUCED). -/
def Obligations.PegBranchesHaveTwoDelaySlots : Prop :=
  ∀ (s : State) (p : PegIssue), pegIssues s p.peg → p.imem ≠ .uncorrectable →
    let g := pegNow s p.peg
    let u := countEcc .imemCe p.peg.toNat p.imem s
    let nop := Instr.pegNop { peg := p.peg }
    let loopEnd := g.nearEnd 0 = true ∧ Config.loopFault g.pc (tabGet 0 g.le 0) = true ∨
      g.nearEnd 1 = true ∧ Config.loopFault g.pc (tabGet 0 g.le 1) = true
    let after := fun (c : Instr) (a : BitVec 16) => ∃ t v w, exec c s = .next t ∧ exec nop t = .next v ∧
      exec nop v = .next w ∧ (peg t p.peg.toNat).pc = g.pc + 1 ∧ (peg v p.peg.toNat).pc = g.pc + 2 ∧
      (peg w p.peg.toNat).pc = a ∧ (peg w p.peg.toNat).slots = 0
    let stop := pegFaultAt p.peg.toNat g .illegal (g.pc.setWidth 32) u
    let branches := fun (c : Instr) => (∃ x, c = .pegJmp p x) ∨ (∃ cc a x, c = .pegBrCc p cc a x) ∨ (∃ x, c = .pegCall p x) ∨
      (∃ a, c = .pegRet p a) ∨ (∃ m x, c = .pegXwait p m x)
    (g.slots = 0 → ¬loopEnd →
      (∀ x, after (.pegJmp p x) x) ∧
      (∀ cc a x, after (.pegBrCc p cc a x) (if Config.condHolds cc (g.rg a) then x else g.pc + 3)) ∧
      (∀ x, after (.pegCall p x) x) ∧
      (∀ x, exec (.pegCall p x) s =
        .next (issued p.peg (branchTo (some x) (g.writeG 30 ((g.pc + 3).setWidth 32))) u)) ∧
      (∀ a, after (.pegRet p a) ((g.rg a).setWidth 16)) ∧
      (∀ m x, after (.pegXwait p m x)
        (if (List.range 4).any (fun j => m.getLsbD j && (g.xstat >>> (2 * j)) &&& 3 == 0) then x else g.pc + 3))) ∧
    (g.slots = 0 → after (.pegReti p) g.spc ∧
      (∀ k a last, let empty := last.toNat < (g.pc + 3).toNat ∧ Config.loopFault g.pc last = true
        (g.rg a ≠ 0 → ¬empty → ∃ h, exec (.pegLoop p k a last) s = .next (issued p.peg h u) ∧ h.slots = 3 ∧
          h.loopSlots = true ∧
          (∀ c, g.writes = [] → g.cyc + 2 ≤ c → tabGet 0 (h.commitTo c).lc (bit k) = g.rg a ∧
            tabGet 0 (h.commitTo c).ls (bit k) = g.pc + 3 ∧ tabGet 0 (h.commitTo c).le (bit k) = last ∧
            (h.commitTo c).has (statLE (bit k)) = true)) ∧
        (g.rg a ≠ 0 → empty → exec (.pegLoop p k a last) s = .next stop) ∧
        (g.rg a = 0 → after (.pegLoop p k a last) (last + 1)))) ∧
    (∀ c, branches c → (g.slots ≠ 0 ∨ loopEnd) → exec c s = .next stop) ∧
    (g.slots ≠ 0 → exec (.pegReti p) s = .next stop ∧ (∀ k a last, exec (.pegLoop p k a last) s = .next stop)) ∧
    (peg stop p.peg.toNat).stopped = some (.illegal, g.pc.setWidth 32) ∧
    counter .pegFault p.peg.toNat stop = counter .pegFault p.peg.toNat s + 1

/-- O38, spec/11_peg_engines.md R243, R244, R248, R253, R254, R261. On a peg that issues, with a whole or corrected
instruction word: a load through pk of an aligned address within data memory reads the bytes there, little-endian (log
13), a corrected word counted, and writes gd with delay 3 (the bits of LDH and LDB above the data are open, log 2); an
uncorrectable word stops the peg with DMEM_UE. A store writes the low bytes of its register there. Both then post-
modify pk. A misaligned address stops the peg with MISALIGNED and one outside data memory with RANGE, data memory
unchanged. Writing bytes to a memory leaves every other byte. Post-modify adds m to p, and with cl not 0 folds the sum
into the cl bytes from cb. MOVP, MOVM, MOVCB and MOVCL write their address register, with no wrap of the pointer. -/
def Obligations.PegLoadsAndStoresAccessOwnMemory : Prop :=
  (∀ (s : State) (p : PegIssue), pegIssues s p.peg → p.imem ≠ .uncorrectable →
    let g := pegNow s p.peg
    let n := p.peg.toNat
    let u := countEcc .imemCe n p.imem s
    (∀ (d : BitVec 5) (k : BitVec 3), let a := (tabGet 0 g.p k.toNat : BitVec 32)
      let stops := fun (c : Instr) (w : Nat) => ∀ e, pegAccess w a = some e →
        exec c s = .next (pegFaultAt n g e a u) ∧ (peg (pegFaultAt n g e a u) n).data = g.data
      let loaded := fun (c : Instr) (w : Nat) (f : Nat → BitVec 32) => stops c w ∧
        (pegAccess w a = none → p.dmem = .uncorrectable → exec c s = .next (pegFaultAt n g .dmemUe a u)) ∧
        (pegAccess w a = none → p.dmem ≠ .uncorrectable → exec c s = .next (issued p.peg
          ((g.postModify k.toNat).write 3 (.g d) (f (leVal (memRead g.data a.toNat w))).toNat) (countEcc .dmemCe n p.dmem u)))
      loaded (.pegLd p d k) 4 (BitVec.ofNat 32) ∧
      loaded (.pegLdh p d k) 2 (fun v => Config.ldhUpper (BitVec.ofNat 16 v) ++ BitVec.ofNat 16 v) ∧
      loaded (.pegLdb p d k) 1 (fun v => Config.ldbUpper (BitVec.ofNat 8 v) ++ BitVec.ofNat 8 v) ∧
      (∀ c w, (c, w) ∈ [(Instr.pegSt p d k, 4), (.pegSth p d k, 2), (.pegStb p d k, 1)] → stops c w ∧
        (pegAccess w a = none → exec c s = .next (issued p.peg
          { g.postModify k.toNat with data := memWrite g.data a.toNat (leBytes w (g.rg d).toNat) } u)))) ∧
    (∀ (k : BitVec 3) (a : BitVec 5),
      exec (.pegMovp p k a) s = .next (issued p.peg { g with p := tabSet 0 g.p k.toNat (g.rg a) } u) ∧
      exec (.pegMovm p k a) s = .next (issued p.peg { g with m := tabSet 0 g.m k.toNat (g.rg a) } u) ∧
      exec (.pegMovcb p k a) s = .next (issued p.peg { g with cb := tabSet 0 g.cb k.toNat (g.rg a) } u) ∧
      exec (.pegMovcl p k a) s = .next (issued p.peg { g with cl := tabSet 0 g.cl k.toNat (g.rg a) } u))) ∧
    (∀ (n : Nat) (a : BitVec 32), (a.toNat % n ≠ 0 → pegAccess n a = some .misaligned) ∧
      (a.toNat % n = 0 → 0x40000 < a.toNat + n → pegAccess n a = some .range) ∧
      (a.toNat % n = 0 → a.toNat + n ≤ 0x40000 → pegAccess n a = none)) ∧
    (∀ (m : Memory) (a : Nat) (l : List Byte), memRead (memWrite m a l) a l.length = l ∧
      (∀ x, x < a ∨ a + l.length ≤ x → memGet (memWrite m a l) x = memGet m x)) ∧
    (∀ (h : Peg) (k : Nat), let q := (tabGet 0 (h.postModify k).p k : BitVec 32)
      let a := (tabGet 0 h.p k + tabGet 0 h.m k : BitVec 32)
      let cl := (tabGet 0 h.cl k : BitVec 32)
      let cb := (tabGet 0 h.cb k : BitVec 32)
      (cl = 0 → q = a) ∧ (cl ≠ 0 → (q - cb).toNat < cl.toNat ∧ ((a - cb).toInt - (q - cb).toNat) % cl.toNat = 0))

/-- O39, spec/11_peg_engines.md R250, R251, R252, R261. Adding to an accumulator leaves a value in the 40-bit range: the
exact sum where it lies in the range, with stat unchanged; otherwise the sum modulo 2^40 with SAT clear or the nearer
bound with SAT set, and OV set either way; other accumulators keep their values. On a peg that issues, with a whole or
corrected instruction word: QMAC adds the four products of R250 in quad-MAC mode, QMAC.N subtracts them, QMAC.L adds
them and then loads or stops as its load does, and in scalar mode each stops with ILLEGAL; SMAC and SMAC.N add or
subtract the product of the low halves; ACCRD writes the rounded, shifted accumulator limited to 32 bits, with OV set
where it limits; ACCMV writes its high or low bits; ACCCLR clears the named accumulators and no other. -/
def Obligations.PegAccumulatorsHoldFortyBits : Prop :=
  (∀ (g : Peg) (k : Nat) (x : Int), let v := tabGet 0 g.acc k + x
      let h := g.accAdd k x
      let r := tabGet 0 h.acc k
      r ≥ -549755813888 ∧ r ≤ 549755813887 ∧ (∀ j, j ≠ k → tabGet 0 h.acc j = tabGet 0 g.acc j) ∧ h.accSeen = g.accSeen ∧
      (-549755813888 ≤ v → v ≤ 549755813887 → r = v ∧ h.stat = g.stat) ∧
      ((v < -549755813888 ∨ 549755813887 < v) → h.stat = g.stat ||| statOV ∧
        (g.has statSAT = false → (r - v) % 1099511627776 = 0) ∧
        (g.has statSAT = true → r = if v < 0 then -549755813888 else 549755813887))) ∧
    (∀ (s : State) (p : PegIssue), pegIssues s p.peg → p.imem ≠ .uncorrectable →
      let g := pegNow s p.peg
      let u := countEcc .imemCe p.peg.toNat p.imem s
      let illegal := pegFaultAt p.peg.toNat g .illegal (g.pc.setWidth 32) u
      (∀ (a b : BitVec 5), let re := fun (v : BitVec 32) => (v.extractLsb' 16 16).toInt
        let im := fun (v : BitVec 32) => (v.extractLsb' 0 16).toInt
        let mac := fun (n : Int) => (((g.accAdd 0 (n * (re (g.rg a) * re (g.rg b)))).accAdd 1
          (n * (im (g.rg a) * im (g.rg b)))).accAdd 2 (n * (im (g.rg a) * re (g.rg b)))).accAdd 3
          (n * (re (g.rg a) * im (g.rg b)))
        (tabGet false s.peg.scalar (p.peg.toNat / 16) = false →
          exec (.pegQmac p a b) s = .next (issued p.peg (mac 1) u) ∧
          exec (.pegQmacN p a b) s = .next (issued p.peg (mac (-1)) u) ∧
          (∀ (x : BitVec 5) (k : BitVec 3) (h : Peg), pegLoad p.dmem x k 4 (BitVec.ofNat 32) (mac 1) = .ok h →
            exec (.pegQmacL p a b x k) s = .next (issued p.peg h (countEcc .dmemCe p.peg.toNat p.dmem u))) ∧
          (∀ (x : BitVec 5) (k : BitVec 3) e y, pegLoad p.dmem x k 4 (BitVec.ofNat 32) (mac 1) = .error (e, y) →
            exec (.pegQmacL p a b x k) s = .next (pegFaultAt p.peg.toNat g e y u))) ∧
        (tabGet false s.peg.scalar (p.peg.toNat / 16) = true →
          exec (.pegQmac p a b) s = .next illegal ∧ exec (.pegQmacN p a b) s = .next illegal ∧
          (∀ x k, exec (.pegQmacL p a b x k) s = .next illegal)) ∧
        (∀ k : BitVec 2,
          exec (.pegSmac p a b k) s = .next (issued p.peg (g.accAdd k.toNat (im (g.rg a) * im (g.rg b))) u) ∧
          exec (.pegSmacN p a b k) s = .next (issued p.peg (g.accAdd k.toNat (-(im (g.rg a) * im (g.rg b)))) u))) ∧
      (∀ (d sh : BitVec 5) (k : BitVec 2), let v := roundTe (tabGet 0 g.accSeen k.toNat) (2 ^ sh.toNat)
        let r := clampInt (-2147483648) 2147483647 v
        (r = v → exec (.pegAccrd p d k sh) s = .next (issued p.peg (g.writeG d (BitVec.ofInt 32 r)) u)) ∧
        (r ≠ v → exec (.pegAccrd p d k sh) s =
          .next (issued p.peg ((g.setStat statOV).writeG d (BitVec.ofInt 32 r)) u)) ∧
        exec (.pegAccmv p d k true) s = .next (issued p.peg (g.writeG d
          (BitVec.ofInt 32 ((tabGet 0 g.accSeen k.toNat).fdiv 4294967296))) u) ∧
        exec (.pegAccmv p d k false) s = .next (issued p.peg (g.writeG d
          (BitVec.ofInt 32 (tabGet 0 g.accSeen k.toNat))) u)) ∧
      (∀ m : BitVec 4, ∃ h, exec (.pegAccclr p m) s = .next (issued p.peg h u) ∧
        h = { g with acc := h.acc, writes := h.writes } ∧
        (∀ k, k < 4 → tabGet 0 h.acc k = if m.getLsbD k then 0 else tabGet 0 g.acc k)))

/-- O40, spec/11_peg_engines.md R243, R245, R246, R257 to R259, R261, R264, R265. A peg instruction in OFF, or of a peg
that waits, has stopped or is about to start, changes nothing; one whose word ECC cannot correct stops the peg with
IMEM_UE. Else: WAIT stops issue and keeps pc at itself; MOVSTAT writes the RW bits of stat and clears the W1C bits
written 1, or reads stat; with another special register it reads that, or writes it, to be seen two cycles later, an
address register at once (the registers it reaches and the delay of spc, sstat, ivb and fev are the model's choice,
log 19); SIGNAL raises PEER at the named peg of the pitch; SETTIMER sets the compare value; NOP and TRAP (no effect
stated, log 10) only issue; XFER writes 0 where four wait, else 1, and queues the transfer, or ends it with ERROR
where its table's tick has come. While the part is on: the highest pending enabled source is taken where IE is set
outside delay slots other than those of a LOOP: spc and sstat are saved, IE, LE0 and LE1 cleared, and the peg goes on
at ivb + 4s; else nothing is taken. The timer raises TIMER once, a waiting peg's cycles till then counted, the Ridge
DOORBELL. A transfer that ends leaves the queue: moved whole and done, or with ERROR where its ends are not allowed,
where one leaves its space, or after some bytes where it fails; a corrected word of own data memory or of a shared
memory is counted, and an uncorrectable one ends it with ERROR, in own data memory with the fault DMEM_UE. -/
def Obligations.PegSystemInstructionsAndEvents : Prop :=
  (∀ (s : State) (p : PegIssue) (d a x y : BitVec 5) (b : PegSrc) (n : PegCount) (k : BitVec 3) (j : BitVec 2) (m : BitVec 4)
      (w : BitVec 16) (f : Bool) (t : Transfer) (z : PegSpecial), ∀ c ∈ [
      Instr.pegAdd p d a b, .pegSub p d a b, .pegAnd p d a b, .pegOr p d a b, .pegXor p d a b, .pegMin p d a b,
      .pegMax p d a b, .pegAbs p d a, .pegAdds p d a b, .pegShl p d a n, .pegShr p d a n, .pegSar p d a n,
      .pegRot p d a n, .pegClz p d a, .pegPopc p d a, .pegBitrev p d a, .pegExt p d a x y, .pegIns p d a x y,
      .pegPadd p d a x, .pegPsub p d a x, .pegPsat p d a x, .pegCmp p d a b, .pegBrCc p m a w, .pegCall p w,
      .pegRet p a, .pegJmp p w, .pegLd p d k, .pegLdh p d k, .pegLdb p d k, .pegSt p d k, .pegSth p d k,
      .pegStb p d k, .pegMovp p k a, .pegMovm p k a, .pegMovcb p k a, .pegMovcl p k a, .pegQmac p a x,
      .pegQmacL p a x d k, .pegQmacN p a x, .pegSmac p a x j, .pegSmacN p a x j, .pegAccrd p d j x,
      .pegAccmv p d j f, .pegAccclr p m, .pegLoop p f a w, .pegXfer p d t, .pegXwait p m w, .pegWait p, .pegReti p,
      .pegMovstat p z f d, .pegSignal p m, .pegSettimer p a, .pegTrap p, .pegNop p],
      (¬pegIssues s p.peg → exec c s = .next s) ∧
      (pegIssues s p.peg → p.imem = .uncorrectable → exec c s = .next (pegFaultAt p.peg.toNat (pegNow s p.peg) .imemUe
        ((pegNow s p.peg).pc.setWidth 32) s))) ∧
    (∀ (s : State) (p : PegIssue), pegIssues s p.peg → p.imem ≠ .uncorrectable →
      let g := pegNow s p.peg
      let n := p.peg.toNat
      let u := countEcc .imemCe n p.imem s
      exec (.pegWait p) s = .next (count .instructions n (modPeg n (fun _ =>
        { g with waiting := true, cyc := g.cyc + 1, ran := true }) u)) ∧
      (∀ z r, exec (.pegMovstat p z false r) s = .next (issued p.peg (g.writeG r (readSpecial u n g z)) u)) ∧
      readSpecial u n g .stat = readStat u n g.stat ∧
      (∀ z r, ∃ h, exec (.pegMovstat p z true r) s = .next (issued p.peg h u) ∧
        (z = .xstat ∨ (∃ b, z = .cyc b) → h = g) ∧
        (∀ k, (z = .p k → h = { g with p := tabSet 0 g.p k.toNat (g.rg r) }) ∧
          (z = .m k → h = { g with m := tabSet 0 g.m k.toNat (g.rg r) }) ∧
          (z = .cb k → h = { g with cb := tabSet 0 g.cb k.toNat (g.rg r) }) ∧
          (z = .cl k → h = { g with cl := tabSet 0 g.cl k.toNat (g.rg r) })) ∧
        (∀ c, g.writes = [] → g.cyc + 2 ≤ c → let e := h.commitTo c
          (∀ k, (z = .lc k → tabGet 0 e.lc (bit k) = g.rg r) ∧ (z = .ls k → tabGet 0 e.ls (bit k) = (g.rg r).setWidth 16) ∧
            (z = .le k → tabGet 0 e.le (bit k) = (g.rg r).setWidth 16)) ∧
          (z = .spc → e.spc = (g.rg r).setWidth 16) ∧ (z = .sstat → e.sstat = g.rg r) ∧
          (z = .ivb → e.ivb = (g.rg r).setWidth 16) ∧ (z = .fev → e.fev = (g.rg r).setWidth 16))) ∧
      (∀ r, ∃ h, exec (.pegMovstat p .stat true r) s = .next (issued p.peg h u) ∧ h = { g with writes := h.writes } ∧
        (∀ c, g.writes = [] → g.cyc + 2 ≤ c → (h.commitTo c).stat =
          (g.stat &&& ~~~(statRW ||| (g.rg r &&& (statOVR ||| statOV)))) ||| (g.rg r &&& statRW))) ∧
      (∀ j : BitVec 4, n / 16 * 16 + j.toNat ≠ n →
        exec (.pegSignal p j) s = .next (issued p.peg g (pegRaise (n / 16 * 16 + j.toNat) 1 u))) ∧
      (∀ j : BitVec 4, n / 16 * 16 + j.toNat = n → exec (.pegSignal p j) s = .next (issued p.peg (g.setStat (statIPEND 1)) u)) ∧
      (∀ a, exec (.pegSettimer p a) s = .next (issued p.peg { g with compare := some (g.rg a).toNat } u)) ∧
      exec (.pegNop p) s = .next (issued p.peg g u) ∧ exec (.pegTrap p) s = .next (issued p.peg g u) ∧
      (∀ d x, 4 ≤ g.queue.length → exec (.pegXfer p d x) s = .next (issued p.peg (g.writeG d 0) u)) ∧
      (∀ d x, g.queue.length < 4 →
        let h := { g.writeG d 1 with
          nextBit := (g.freeBit + 1) % 4
          xstat := statBits g.xstat (BitVec.ofNat 32 (3 * 4 ^ g.freeBit)) 0 }
        (tableLate u x = false → exec (.pegXfer p d x) s =
          .next (issued p.peg { h with queue := h.queue ++ [{ t := x, bit := g.freeBit }] } u)) ∧
        (tableLate u x = true → exec (.pegXfer p d x) s = .next (issued p.peg { h.setStat (statIPEND 3) with
          xstat := h.xstat ||| BitVec.ofNat 32 (2 * 4 ^ g.freeBit) } (count .xferErrors n u))))) ∧
    (∀ (s : State) (p : BitVec 8), s.dev.state ≠ .off → let g := peg s p.toNat
      let open' := g.stopped = none ∧ g.start = false ∧ (g.slots = 0 ∨ g.loopSlots = true) ∧ g.has statIE = true
      (∀ k, open' → g.source = some k →
        exec (.pegInterruptEntry p) s = .next (modPeg p.toNat (Peg.enter k (readStat s p.toNat)) s)) ∧
      ((¬open' ∨ g.source = none) → exec (.pegInterruptEntry p) s = .next s) ∧
      (∀ c, g.compare = some c → exec (.pegTimerCompare p) s = .next (pegRaise p.toNat 0 (modPeg p.toNat (fun g =>
        { g with cyc := max g.cyc c, compare := none })
        (if g.waiting then countN .waitCycles p.toNat (c - g.cyc) s else s)))) ∧
      (g.compare = none → exec (.pegTimerCompare p) s = .next s) ∧
      exec (.pegDoorbell p) s = .next (modPeg p.toNat (Peg.setStat (statIPEND 4)) s)) ∧
    (∀ (k : Nat) (read : BitVec 32 → BitVec 32) (g : Peg), let h := g.enter k read
      h.spc = g.drain.pc ∧ h.sstat = read g.drain.stat ∧ h.has statIE = false ∧ h.has (statLE 0) = false ∧
      h.has (statLE 1) = false ∧ h.pc = g.drain.ivb + BitVec.ofNat 16 (4 * k)) ∧
    (∀ (s : State) (p : PegIssue) (m : Ecc) (fail : Option Nat) (ue : Bool), s.dev.state ≠ .off →
      let n := p.peg.toNat
      let a := (((peg s n).queue.head?.map (·.t.src)).getD 0) + fail.getD 0
      let result := exec (.xferComplete p m fail ue) s
      let v := endTransfer n fail none s
      let v' := endTransfer n (some (fail.getD 0)) none s
      (readsOwn s n = true → (p.dmem = .ok → result = .next v) ∧
        (p.dmem = .corrected → result = .next (count .dmemCe n v)) ∧
        (p.dmem = .uncorrectable → (peg v' n).stopped ≠ none → result = .next v') ∧
        (p.dmem = .uncorrectable → (peg v' n).stopped = none →
          result = .next (pegFaultAt n (peg v' n) .dmemUe (BitVec.ofNat 32 a) v'))) ∧
      (readsOwn s n = false → ∀ k, sharedSource s n = some k → (m = .ok → result = .next v) ∧
        (m = .corrected → result = .next (count .smemCe k v)) ∧ (m = .uncorrectable → result = .next v')) ∧
      (readsOwn s n = false → sharedSource s n = none →
        result = .next (if ue then endTransfer n none (some (fail.getD 0)) s else v))) ∧
    (∀ (s : State) (n : Nat) (fail bad : Option Nat), ((peg s n).queue = [] → endTransfer n fail bad s = s) ∧
      (∀ x rest, (peg s n).queue = x :: rest →
        let u := modPeg n (fun g => { g with queue := rest }) s
        let err := fun (w : State) => count .xferErrors n (modPeg n (fun g =>
          { g.setStat (statIPEND 3) with xstat := g.xstat ||| BitVec.ofNat 32 (2 * 4 ^ x.bit) }) w)
        let src := pegSpace u n x.t.src
        let dst := pegSpace u n x.t.dst
        let ends := (src.toList ++ dst.toList).map (·.1)
        (transferOk n x.t ends = false → endTransfer n fail bad s = err u) ∧
        (transferOk n x.t ends = true → (src = none ∨ dst = none) → endTransfer n fail bad s = err (leaveSpace n x.t u)) ∧
        (∀ a b, transferOk n x.t ends = true → src = some a → dst = some b →
          let r := moveTransfer n x.t a.1 b.1 fail bad u
          (r.1.length = x.t.len → endTransfer n fail bad s = modPeg n (fun g =>
            let g := if x.t.interrupt then g.setStat (statIPEND 2) else g
            { g with xstat := g.xstat ||| BitVec.ofNat 32 (4 ^ x.bit) }) r.2) ∧
          (r.1.length ≠ x.t.len → endTransfer n fail bad s =
            err (if r.1.length = transferRoom u n x.t then leaveSpace n x.t r.2 else r.2)))))

/-- O41, spec/12_serial_lanes.md R272, R275, R276, R277, R279, R280, R281, R282, Table 12.3. In every state other than
OFF, on a GUL quad: RECEIVER_DETECT in DETECT notes the receivers, and one on every configured lane starts TRAIN. A
TRAIN block on a lane in use of an ACTIVE or IDLE link retrains it, or where its direction sleeps begins a fast exit;
in TRAIN it is answered, and LOCK, with a new stream, follows once RX_READY has stood on every configured lane for 1
ms; 500 ms of TRAIN end in DETECT. Headers tested by a lane from LOCK on move its candidate where invalid, and the
128th valid one in a row gives block lock; of a locked lane the 24th invalid header in a window loses it. An ALIGN
block that fits fixes codeword lock, and deskew from the second on; any other, and the second missing one in a row,
loses deskew; a lane in use of an ACTIVE link that so fails retrains it. LOCK ends in EXCHANGE with its CAP set sent
once every lane is ready; LOCK_TIMEOUT, at 1 ms of LOCK, offers the largest width that holds lock and deskew, not
below MIN_WIDTH, with the other lanes idle, or returns to TRAIN. CAP blocks gather into a set; a set received twice is
judged: unequal rates, no common width, REQUIRED against OFF or, on the twin quad, an identity other than the one that
TWIN.CONFIG gives lead to FAULT, and an agreed set is answered with ACK and, where it carries ACK, makes the link
ACTIVE at the agreed width; any other set is answered with the own one. 1 ms of EXCHANGE returns to TRAIN. A command
out of its state, or with a block of another type, changes nothing. Agreed FEC and width are as R280 has them. -/
def Obligations.GulLinksComeUpInOrder : Prop :=
  (∀ s : State, s.dev.state ≠ .off →
    (∀ (k : BitVec 5) (pr : BitVec 4), let q := quad s k.toNat
      let u := modQuad k.toNat (fun q => { q with detected := pr }) s
      ((q.state ≠ .detect ∨ q.mode ≠ .gul) → exec (.receiverDetect k pr) s = .next s) ∧
      (q.state = .detect → q.mode = .gul → (∀ j, j < q.width → testBit pr.toNat j = true) →
        exec (.receiverDetect k pr) s = .next (startTrain k.toNat u)) ∧
      (q.state = .detect → q.mode = .gul → (∃ j, j < q.width ∧ testBit pr.toNat j = false) →
        exec (.receiverDetect k pr) s = .next u)) ∧
    (∀ k, (quad (startTrain k s) k).state = .train ∧ (∀ j, j ≠ k → quad (startTrain k s) j = quad s j) ∧
      (∀ j, j < 4 → (lane (startTrain k s) (4 * k + j)).taps =
        if (quad s k).fixedTaps then (lane s (4 * k + j)).taps else preset 2)) ∧
    (∀ l b, (∀ r f, controlIn b ≠ some (.train r f)) → exec (.trainBlockReceive l b) s = .next s) ∧
    (∀ (l : BitVec 7) b r f, controlIn b = some (.train r f) → let k := quadOf l.toNat
      let q := quad s k
      let result := exec (.trainBlockReceive l b) s
      let up := q.state = .active ∨ q.state = .idle
      let u := trainLane l.toNat r.toNat f.toNat s
      let since := (quad u k).readySince.getD s.time.tb2
      let trains := q.mode = .gul ∧ q.state = .train ∧ laneIn l.toNat < q.width
      (q.mode = .gul → up → laneIn l.toNat < q.inUse → q.napRx = false → result = .next (retrain k s)) ∧
      (q.mode = .gul → up → laneIn l.toNat < q.inUse → q.napRx = true →
        result = .next (modQuad k (fun q => { q with exitFrom := some (q.exitFrom.getD s.time.tb2) }) s)) ∧
      ((q.mode ≠ .gul ∨ up ∧ q.inUse ≤ laneIn l.toNat ∨ ¬up ∧ ¬trains) → result = .next s) ∧
      (trains → allReady u k = false → result = .next (modQuad k (fun q => { q with readySince := none }) u)) ∧
      (trains → allReady u k = true → s.time.tb2 < since + 1000000 →
        result = .next (modQuad k (fun q => { q with readySince := some since }) u)) ∧
      (trains → allReady u k = true → since + 1000000 ≤ s.time.tb2 → result =
        .next (startStream k (unlockLanes k (modQuad k (fun q =>
          { q with state := .lock, since := s.time.tb2, readySince := none }) u))))) ∧
    (∀ k : BitVec 5, let right := (quad s k.toNat).state = .train ∧ (quad s k.toNat).mode = .gul
      (right → exec (.trainTimeout k) s = .next (count .trainTimeout k.toNat (goTo .detect k.toNat
        (stateEnds k.toNat 500000000 s)))) ∧
      (¬right → exec (.trainTimeout k) s = .next s)) ∧
    (∀ (l : BitVec 7) (hs : List (BitVec 2)), let k := quadOf l.toNat
      (receiving (quad s k) = true → exec (.blockLockAcquired l hs) s =
        .next (lockDone k (modLane l.toNat (fun x => hs.foldl Lane.hunt x) s))) ∧
      (receiving (quad s k) = false → exec (.blockLockAcquired l hs) s = .next s) ∧
      exec (.blockLockLost l hs) s = .next (hs.foldl (fun s h => headerSeen l.toNat h s) s)) ∧
    (∀ l h, let x := lane s l
      let live := receiving (quad s (quadOf l)) = true ∧ x.blockLock = true
      let bad := x.winBad + bit (!headerValid h)
      let u := if headerValid h then s else count .invalidHeaders l s
      (¬live → headerSeen l h s = s) ∧
      (live → 24 ≤ bad → headerSeen l h s = laneFailed l (modLane l Lane.unlocked (count .lockLoss l u))) ∧
      (live → bad < 24 → headerSeen l h s = modLane l (fun x =>
        { x with winPos := (x.winPos + 1) % 256, winBad := if x.winPos = 255 then 0 else bad }) u)) ∧
    (∀ l, let q := quad s (quadOf l)
      (q.state = .active → laneIn l < q.inUse → laneFailed l s = retrain (quadOf l) s) ∧
      ((q.state ≠ .active ∨ q.inUse ≤ laneIn l) → laneFailed l s = s)) ∧
    (∀ l b skew, (∀ g w c, controlIn b ≠ some (.align g w c)) → exec (.alignBlockReceive l b skew) s = .next s) ∧
    (∀ (l : BitVec 7) b skew g w c, controlIn b = some (.align g w c) → let k := quadOf l.toNat
      let x := lane s l.toNat
      let live := receiving (quad s k) = true ∧ x.blockLock = true
      let good := (∀ p, x.alignCount = some p → (p + 1) % 65536 = c) ∧ g.toNat = laneIn l.toNat ∧
        laneIn l.toNat < w.toNat ∧ skew ≤ 256 ∧ alignAgrees s l.toNat c = true
      (¬live → exec (.alignBlockReceive l b skew) s = .next s) ∧
      (live → good → exec (.alignBlockReceive l b skew) s = .next (lockDone k (modLane l.toNat (fun x => { x with
        alignCount := some c, alignMissed := 0, lastSkew := skew, codewordLock := true
        deskewed := x.alignCount.isSome }) s))) ∧
      (live → ¬good → exec (.alignBlockReceive l b skew) s = .next (laneFailed l.toNat (modLane l.toNat
        (fun x => { x with alignCount := none, alignMissed := 0, deskewed := false }) s)))) ∧
    (∀ l : BitVec 7, let x := lane s l.toNat
      let live := receiving (quad s (quadOf l.toNat)) = true ∧ x.alignCount ≠ none
      let u := count .alignMissing l.toNat s
      (¬live → exec (.alignMissing l) s = .next s) ∧
      (live → x.alignMissed = 0 → exec (.alignMissing l) s = .next (modLane l.toNat (fun x =>
        { x with alignMissed := 1, alignCount := x.alignCount.map (fun c => (c + 1) % 65536) }) u)) ∧
      (live → x.alignMissed ≠ 0 → exec (.alignMissing l) s = .next (laneFailed l.toNat (modLane l.toNat
        (fun x => { x with alignCount := none, alignMissed := 0, deskewed := false }) u)))) ∧
    (∀ k, let q := quad s k
      let ready := q.state = .lock ∧ (∀ j, j < q.width → (lane s (4 * k + j)).blockLock = true ∧
        (lane s (4 * k + j)).deskewed = true ∧ ((lane s (4 * k + j)).codewordLock = true ∨ fecWanted q = false))
      (ready → lockDone k s = sendCaps k (modQuad k (fun q => { q with
        state := .exchange, since := s.time.tb2, offerWidth := q.width, capSeen := 0, capLast := none, ackSent := false }) s)) ∧
      (¬ready → lockDone k s = s)) ∧
    (∀ k : BitVec 5, let q := quad s k.toNat
      let right := q.state = .lock ∧ q.mode = .gul
      let fits := fun (w : Nat) => q.minWidth ≤ w ∧ w ≤ q.width ∧
        (∀ j, j < w → (lane s (4 * k.toNat + j)).blockLock = true ∧ (lane s (4 * k.toNat + j)).deskewed = true)
      let e := stateEnds k.toNat 1000000 s
      (¬right → exec (.lockTimeout k) s = .next s) ∧
      (right → (∀ w ∈ [4, 2, 1], ¬fits w) →
        exec (.lockTimeout k) s = .next (startTrain k.toNat (count .lockTimeout k.toNat e))) ∧
      (∀ w ∈ [4, 2, 1], right → fits w → (∀ v ∈ [4, 2, 1], w < v → ¬fits v) →
        let u := sendCaps k.toNat (idleLanes k.toNat w (modQuad k.toNat (fun q => { q with
          state := .exchange, since := e.time.tb2, offerWidth := w, capSeen := 0, capLast := none, ackSent := false }) e))
        (w = q.width → exec (.lockTimeout k) s = .next u) ∧
        (w < q.width → exec (.lockTimeout k) s =
          .next (raise 0x0302 (76 + k.toNat) w [] (count .widthReduced k.toNat u))))) ∧
    (∀ k b, (∀ i d, controlIn b ≠ some (.cap i d)) → exec (.capBlockReceive k b) s = .next s) ∧
    (∀ (k : BitVec 5) b i d, controlIn b = some (.cap i d) → let q := quad s k.toNat
      let right := q.state = .exchange ∧ q.mode = .gul ∧ i.toNat ≤ 2
      let c := capTake i.toNat d q.capNow
      let seen := q.capSeen ||| BitVec.ofNat 3 (2 ^ i.toNat)
      let u := modQuad k.toNat (fun q => { q with capNow := c, capSeen := 0, capLast := some c }) s
      let twice := ∃ p, q.capLast = some p ∧ { p with ack := c.ack } = c
      let result := exec (.capBlockReceive k b) s
      (¬right → result = .next s) ∧
      (right → seen ≠ 7 → result = .next (modQuad k.toNat (fun q => { q with capNow := c, capSeen := seen }) s)) ∧
      (right → seen = 7 → ¬twice → result = .next (sendCaps k.toNat u)) ∧ (right → seen = 7 → twice → result = .next (judgeCap k.toNat c u))) ∧
    (∀ k c, let q := quad s k
      (∀ w f, c.rate = q.rate → capExpected s k c = true → agreedWidth q c = some w → agreedFec q c = some f →
        let u := sendCaps k (modQuad k (fun q => { q with ackSent := true }) s)
        (c.ack = false → judgeCap k c s = u) ∧
        (c.ack = true → judgeCap k c s = flushFrames k (idleLanes k w (modQuad k (fun q => { q with
          state := .active, since := u.time.tb2, inUse := w, fecOn := f, napAgreed := q.nap && testBit c.features.toNat 0
          idleAgreed := q.idleOn && testBit c.features.toNat 1 }) u)))) ∧
      (capExpected s k c = false ↔ s.twin.quad = some k ∧ s.twin.expect ≠ 0 ∧ c.identity ≠ s.twin.expect) ∧
      ((c.rate ≠ q.rate ∨ capExpected s k c = false ∨ agreedWidth q c = none ∨ agreedFec q c = none) → judgeCap k c s =
        raise 0x0301 (76 + k) c.rate (capCells c) (count .incompatible k (unlockLanes k (modQuad k (fun q =>
          { endLink q with state := .fault, since := s.time.tb2, capLast := some c }) s))))) ∧
    (∀ k : BitVec 5, let right := (quad s k.toNat).state = .exchange ∧ (quad s k.toNat).mode = .gul
      (right → exec (.exchangeTimeout k) s = .next (startTrain k.toNat (modQuad k.toNat endLink
        (stateEnds k.toNat 1000000 s)))) ∧
      (¬right → exec (.exchangeTimeout k) s = .next s))) ∧
  (∀ (x : Lane) (h : BitVec 2), (x.blockLock = true → x.hunt h = x) ∧
    (x.blockLock = false → headerValid h = false → x.hunt h = { x with huntRun := 0, candidate := (x.candidate + 1) % 66 }) ∧
    (x.blockLock = false → headerValid h = true → x.huntRun < 127 → x.hunt h = { x with huntRun := x.huntRun + 1 }) ∧
    (x.blockLock = false → headerValid h = true → 127 ≤ x.huntRun →
      x.hunt h = { x with huntRun := 0, blockLock := true, winPos := 0, winBad := 0 })) ∧
  (∀ (q : Quad) (c : CapSet), q.fec ≤ 2 → c.fec ≤ 2 →
    ((q.fec = 2 ∧ c.fec = 0) ∨ (q.fec = 0 ∧ c.fec = 2) → agreedFec q c = none) ∧
    ((q.fec = 2 ∧ c.fec ≠ 0) ∨ (q.fec ≠ 0 ∧ c.fec = 2) → agreedFec q c = some true) ∧
    (q.fec = 1 → c.fec = 1 → agreedFec q c = some (decide (q.rate = 1))) ∧
    ((q.fec = 0 ∧ c.fec ≠ 2) ∨ (q.fec ≠ 2 ∧ c.fec = 0) → agreedFec q c = some false) ∧
    (∀ w, agreedWidth q c = some w → w ∈ [4, 2, 1] ∧ offers q w = true ∧ testBit c.widths.toNat (Nat.log2 w) = true ∧
      (∀ v ∈ [4, 2, 1], w < v → offers q v = true → testBit c.widths.toNat (Nat.log2 v) = false)))

/-- O42, spec/12_serial_lanes.md R278, R282 to R286, R290, R293. In every state other than OFF. With NAP agreed on a link
in ACTIVE or IDLE: NAP_IDLE_TIMER comes when the idle time since the last frame is over and asks by NAP_REQ where it
is set and the direction is awake and has not asked; NAP_REQ is answered NAK while the own direction wakes, else ACK,
and the receive direction sleeps; NAP_ACK to a request puts the transmit direction to sleep; a fast exit wakes its
sleeping direction, the own one by sending its wake sequence and the frames that wait, or cancels an unanswered
request; the partner's is accepted where 32 valid headers and an ALIGN block that agrees came on every lane in use,
and one not accepted within 2 us is counted and retrains. NAP_NAK ends the request. A codeword of a lane in codeword
lock with FEC on has its errors counted where it can be corrected, else counts FEC_UNCORRECTABLE and makes its blocks
bad; an enabled Ethernet quad counts its symbol errors and its codeword. A quad in use and not up that has been out of
ACTIVE for 10 frames is lost and calls for DEGRADED. An Ethernet link goes from DETECT by a page that offers its mode
to training, on to PCS alignment and up with lock on its lanes, and down by a link loss. An inserted module is
present, its identity read, in low power until an Application for its quad's mode is found, and without one raises its
alarm (its event has no code in Table 21.2, log 30); a removed one is absent; its flags follow the polls. A pattern
checker takes the bits of a lane in pattern mode of an enabled quad, which sends as many of its own. In every other
case nothing changes. -/
def Obligations.LinksSleepCorrectAndReport : Prop :=
  ∀ s : State, s.dev.state ≠ .off →
    (∀ k : BitVec 5, let q := quad s k.toNat
      let asks := napOn q = true ∧ q.nap = true ∧ 0 < q.idleNs ∧ q.napTx = false ∧ q.napAsked = false
      (asks → exec (.napIdleTimer k) s = .next (sendControl k.toNat (.nap 1) (modQuad k.toNat (fun q =>
        { q with napAsked := true }) (elapse (max (q.lastFrame + q.idleNs) q.wakingUntil - s.time.tb2) s)))) ∧
      (¬asks → exec (.napIdleTimer k) s = .next s) ∧
      (napOn q = true → s.time.tb2 < q.wakingUntil → exec (.napReq k) s = .next (sendControl k.toNat (.nap 3) s)) ∧
      (napOn q = true → q.wakingUntil ≤ s.time.tb2 → exec (.napReq k) s = .next (maybeIdle k.toNat
        (modQuad k.toNat (fun q => { q with napRx := true }) (sendControl k.toNat (.nap 2) s)))) ∧
      (napOn q = false → exec (.napReq k) s = .next s ∧ (∀ o l, exec (.fastExit k o l) s = .next s)) ∧
      (napOn q = true → q.napAsked = true → exec (.napAck k) s = .next (maybeIdle k.toNat (count .napEntries k.toNat
        (modQuad k.toNat (fun q => { q with napTx := true, napAsked := false }) (catchUp k.toNat s))))) ∧
      ((napOn q = false ∨ q.napAsked = false) → exec (.napAck k) s = .next s) ∧
      exec (.napNak k) s = .next (modQuad k.toNat (fun q => { q with napAsked := false }) s) ∧
      (∀ l, napOn q = true → q.napTx = true → exec (.fastExit k true l) s = .next (flushFrames k.toNat (sendWake k.toNat
        (modQuad k.toNat (fun q => { q with
          napTx := false, wakingUntil := s.time.tb2 + blocksNs q.rate 33, state := .active }) s)))) ∧
      (∀ l, napOn q = true → q.napTx = false →
        exec (.fastExit k true l) s = .next (modQuad k.toNat (fun q => { q with napAsked := false }) s)) ∧
      (∀ l, napOn q = true → q.napRx = true → exitHolds s k.toNat l = false → exec (.fastExit k false l) s =
        .next (modQuad k.toNat (fun q => { q with exitFrom := some (q.exitFrom.getD s.time.tb2) }) s)) ∧
      (∀ l, napOn q = true → q.napRx = true → exitHolds s k.toNat l = true → exec (.fastExit k false l) s = .next (modLanes k.toNat (fun l => { l with
          alignCount := l.alignCount.map (fun c => (c + 1) % 65536), alignMissed := 0, codewords := 0, badCodewords := [] })
        (modQuad k.toNat (fun q => { q with napRx := false, exitFrom := none, rxPos := 0, state := .active }) s))) ∧
      (∀ l, napOn q = true → q.napRx = false → exec (.fastExit k false l) s = .next s) ∧
      (∀ t, napOn q = true → q.napRx = true → q.exitFrom = some t → let e := elapse (t + 2000 - s.time.tb2) s
        let w := if q.napTx then sendWake k.toNat (modQuad k.toNat (fun q => { q with napTx := false, state := .active }) e) else e
        exec (.fastExitTimeout k) s = .next (retrain k.toNat (count .fastExitFail k.toNat
          (modQuad k.toNat (fun q => { q with fastExitFailed := true }) w)))) ∧
      ((napOn q = false ∨ q.napRx = false ∨ q.exitFrom = none) → exec (.fastExitTimeout k) s = .next s)) ∧
    (∀ k, quad (maybeIdle k s) k = (let q := quad s k
      { q with state := if q.napTx && q.napRx && q.idleAgreed && q.state = .active then .idle else q.state })) ∧
    (∀ (l : BitVec 7) (n : Nat), let q := quad s (quadOf l.toNat)
      let u := countN .symbolErrors l.toNat n s
      let t := if q.mode = .eth100 && q.rate = 3 then 7 else 15
      let live := isEth q.mode = true ∧ quadEnabled s (quadOf l.toNat) = true
      ((isEth q.mode = false ∨ quadEnabled s (quadOf l.toNat) = false) → exec (.fecCodeword l (.rs n)) s = .next s) ∧
      (live → n = 0 → exec (.fecCodeword l (.rs n)) s = .next u) ∧
      (live → 0 < n → n ≤ t → exec (.fecCodeword l (.rs n)) s = .next (count .rsCorrected (quadOf l.toNat) u)) ∧
      (live → t < n → exec (.fecCodeword l (.rs n)) s = .next (count .rsUncorrectable (quadOf l.toNat) u))) ∧
    (∀ (l : BitVec 7) (w : List (BitVec 66)), let q := quad s (quadOf l.toNat)
      let live := receiving q = true ∧ fecRuns q = true ∧ (lane s l.toNat).codewordLock = true
      let u := modLane l.toNat (fun x => { x with codewords := x.codewords + 1 }) s
      (¬live → exec (.fecCodeword l (.gul w)) s = .next s) ∧
      (∀ n, live → bchErrors w = some n → exec (.fecCodeword l (.gul w)) s = .next (countN .fecCorrectedBits l.toNat n u)) ∧
      (live → bchErrors w = none → exec (.fecCodeword l (.gul w)) s = .next (count .fecUncorrectable l.toNat
        (modLane l.toNat (fun x => { x with badCodewords := x.badCodewords ++ [x.codewords - 1] }) u)))) ∧
    (∀ k : BitVec 5, let gone := quadUsed s k.toNat = true ∧ linkUp s k.toNat = false ∧ 10 ≤ (quad s k.toNat).outFrames
      (gone → exec (.quadLost k) s = .next (setCause .quadLost true (modQuad k.toNat (fun q => { q with lost := true }) s))) ∧
      (¬gone → exec (.quadLost k) s = .next s)) ∧
    (∀ k : BitVec 5,
      let live := isEth (quad s k.toNat).mode = true ∧ quadEnabled s k.toNat = true ∧
        (quad s k.toNat).pattern = false
      let st := (quad s k.toNat).state
      (∀ p, live → st = .detect → pageAgrees (quad s k.toNat) p = true →
        exec (.ethLinkChange k (.page p)) s = .next (goTo .train k.toNat s)) ∧
      (∀ p, (st ≠ .detect ∨ pageAgrees (quad s k.toNat) p = false) → exec (.ethLinkChange k (.page p)) s = .next s) ∧
      (live → st = .train → exec (.ethLinkChange k .trained) s = .next (goTo .lock k.toNat s)) ∧
      (st ≠ .train → exec (.ethLinkChange k .trained) s = .next s) ∧
      (live → st = .lock → exec (.ethLinkChange k .aligned) s = .next (modLanes k.toNat (fun l =>
        { l with blockLock := true, deskewed := true })
        (modQuad k.toNat (fun q => { q with state := .active, since := s.time.tb2, inUse := 4 }) s))) ∧
      (st ≠ .lock → exec (.ethLinkChange k .aligned) s = .next s) ∧
      (live → exec (.ethLinkChange k .down) s = .next (linkLoss k.toNat s)) ∧
      (∀ c, ¬live → exec (.ethLinkChange k c) s = .next s)) ∧
    (∀ (k : BitVec 5) (d l : List Byte), let q := quad s k.toNat
      let off := testBit s.power.vmodOff.toNat (k.toNat / 8)
      let u := modQuad k.toNat (fun q => { q with
        modulePresent := true, moduleLowPower := true, moduleApp := none, moduleFlags := [], moduleBytes := []
        moduleId := if isEth q.mode then d else [], moduleSignal := none, moduleInt := false }) s
      let aligns := fun (s : State) => if q.state = .detect then goTo (ethStart (quad s k.toNat)) k.toNat s else s
      (off = true → exec (.moduleInsert k d l) s = .next s) ∧
      (off = false → isEth q.mode = false → exec (.moduleInsert k d l) s = .next u) ∧
      (∀ i, off = false → isEth q.mode = true → l.findIdx? (fun b => b.toNat = auiCode q.mode) = some i →
        exec (.moduleInsert k d l) s = .next (aligns (modQuad k.toNat (fun q => { q with
          moduleApp := some i, moduleLowPower := false, moduleSignal := some (Config.hostSignal q.mode.code) })
          (setAlarm 0x0380 k.toNat false u)))) ∧
      (off = false → isEth q.mode = true → l.findIdx? (fun b => b.toNat = auiCode q.mode) = none →
        exec (.moduleInsert k d l) s = .next (aligns (modQuad k.toNat (fun q => { q with
          moduleApp := none, moduleLowPower := true, moduleSignal := none })
          (raiseOpen true 3 (76 + k.toNat) l.length [] (setAlarm 0x0380 k.toNat true u))))) ∧
      (q.modulePresent = false → exec (.moduleRemove k) s = .next s) ∧
      (q.modulePresent = true → exec (.moduleRemove k) s = .next (linkLoss k.toNat (setAlarm 0x0380 k.toNat false
        (modQuad k.toNat (fun q => { q with
          modulePresent := false, moduleLowPower := true, moduleApp := none, moduleFlags := [], moduleId := []
          moduleSignal := none, moduleInt := false, moduleBytes := [] }) s)))) ∧
      exec (.modulePoll k l) s = .next (modQuad k.toNat (fun q => if q.modulePresent then
        { q with moduleFlags := l, moduleInt := l.any (fun b => b ≠ 0) } else q) (selectModule k.toNat s))) ∧
    (∀ (l : BitVec 7) (bits : List Bool),
      let live := (quad s (quadOf l.toNat)).pattern = true ∧
        quadEnabled s (quadOf l.toNat) = true
      (∀ p, live → (lane s l.toNat).genPattern = some p → exec (.patternCheckLock l bits) s =
        .next (bits.foldl (fun s b => checkBit l.toNat p b s) (sendPattern p bits.length l.toNat s))) ∧
      ((¬live ∨ (lane s l.toNat).genPattern = none) → exec (.patternCheckLock l bits) s = .next s))

/-- O43, R299, R302, R304, R307, R308, R309. In every state other than OFF. REF_VERDICT: a source that is absent or
disabled ends unqualified; a present one that was qualified stays so until its run of OUT verdicts reaches Q, and one
that was not becomes so when its run of IN verdicts reaches Q; each loss is counted. Then a source picked for the
switch is qualified, is not the one selected and, with no source forced, has no qualified source of lower rank; with
none qualified nothing is selected. REFERENCE_SWITCH: with no source picked nothing changes; else it becomes the one
selected and what an earlier step has left is discarded; its step is the position of its edge less its input
compensation, and none for a source without phase; a step other than 0 is counted and is what passes through, and
where no earlier step is still to begin its frames are step frames with those M after them. An increment is at most
half the guard, and what is left is the rest. PPS_EDGE: an accepted edge within 2 ns is coherent, one further off is
counted and ignored; the third incoherent one in a row takes the phase and the tenth coherent one gives it back; an
edge that is not accepted does nothing but what the filter counts. -/
def Obligations.ReferencesQualifyAndSwitch : Prop :=
  ∀ s : State, s.dev.state ≠ .off →
    (∀ present : BitVec 7, ∃ t, exec (.refVerdict present) s = .next t ∧
      (∀ x, x < 7 →
        let u := trainEstimate s
        let c := source s x
        let here := sourcePresent u present x
        let outs := if here && verdictOut u x then c.outRun + 1 else 0
        let ins := if here && !verdictOut u x then c.inRun + 1 else 0
        (source t x).qualified = (if !here || c.disabled then false
          else if c.qualified then !decide (c.q ≤ outs) else decide (c.q ≤ ins)) ∧
        counter .disqualified x t = counter .disqualified x s + bit (c.qualified && !(source t x).qualified)) ∧
      (∀ x, t.compass.switchTo = some x → (source t x).qualified = true ∧ t.compass.selected ≠ some x ∧
        (t.compass.forced = none → ∀ y, y < 7 → (source t y).qualified = true → (source t x).rank ≤ (source t y).rank)) ∧
      ((∀ x, x < 7 → (source t x).qualified = false) → t.compass.selected = none)) ∧
    (∀ edge, s.compass.switchTo = none → exec (.referenceSwitch edge) s = .next s) ∧
    (∀ edge x, s.compass.switchTo = some x →
      let step := switchStep x edge s
      (step = if hasPhase s x then edge - (source s x).inputComp else 0) ∧
      (step = 0 → exec (.referenceSwitch edge) s = .next (setAlarm 0x0202 0 false
        { s with compass.selected := some x, compass.switchTo := none, compass.stepLeft := 0 })) ∧
      (step ≠ 0 → ∃ t, exec (.referenceSwitch edge) s = .next t ∧
        t.compass.selected = some x ∧ t.compass.switchTo = none ∧ t.compass.stepLeft = step ∧
        counter .steps 0 t = counter .steps 0 s + 1 ∧
        ((∀ a, s.compass.stepFrom = some a → a ≤ s.time.frame) → ∀ n, s.time.frame ≤ n →
          n + 1 ≤ s.time.frame + ceilDiv step.natAbs (halfGuard s) + (source s x).stepM → stepFrame t n = true))) ∧
    ((stepIncrement s).1.natAbs ≤ halfGuard s ∧ (stepIncrement s).1 + (stepIncrement s).2 = s.compass.stepLeft ∧
      (s.compass.stepLeft.natAbs ≤ halfGuard s → (stepIncrement s).2 = 0)) ∧
    (∀ b w d, (filterEdge (bit b) w s).1 = false → exec (.ppsEdge b w d) s = .next (filterEdge (bit b) w s).2) ∧
    (∀ b w d, (filterEdge (bit b) w s).1 = true → ∃ t, exec (.ppsEdge b w d) s = .next t ∧
      let c := source s (bit b)
      let e := source t (bit b)
      (16 < d.natAbs → e.incoherentRun = c.incoherentRun + 1 ∧ e.coherentRun = 0 ∧
        e.freqOnly = (c.freqOnly || decide (3 ≤ c.incoherentRun + 1)) ∧
        counter .ppsIncoherent (bit b) t = counter .ppsIncoherent (bit b) s + 1) ∧
      (d.natAbs ≤ 16 → e.incoherentRun = 0 ∧ e.coherentRun = c.coherentRun + 1 ∧
        e.freqOnly = (c.freqOnly && decide (c.coherentRun + 1 < 10)) ∧
        counter .ppsIncoherent (bit b) t = counter .ppsIncoherent (bit b) s))

/-- O44, R311, R312, R313, R315, R316, R317, R318, R319, R320, R322. In every state other than OFF. TB0_SECOND moves time
on to the next second of TB0, or loads the value that TIME.SET left and the frame that follows from it; slew takes at
most its rate of what is left; each output takes its next settings and is driven while the Tether enables outputs and
the twin leads from that second on or is alone, a handover or a reclaim that names its tick being counted, and PPS_OUT
and REF_OUT pulse at the second. The announce timeout, where PTP.CONFIG names a quad, moves time to the end of the
receipt timeout and TB1 free-runs. A PTP message acts where it comes on that quad in that domain: the better
grandmaster by the dataset comparison is followed; of the one followed a Sync, or its Follow_Up, sends a Delay_Req and
gives the offset where the delay is known, and the Delay_Resp to it gives delay and offset, by which TB1 steps at its
first lock; others do nothing. The relay, between two quads and with the lead or alone, drops peer-delay frames,
discards past the Tether's rate, corrects Sync and Delay_Req by their residence, and passes every other PTP frame on
as it is. A trigger fires in its turn alone and moves time to its own; a periodic one is armed for whole periods after
its armed time and another is disarmed; its fan action makes one fan step due. The mirror of TB3 follows TB3. -/
def Obligations.SecondsTimeBasesAndTriggers : Prop :=
  ∀ s : State, s.dev.state ≠ .off →
    (∀ l, ∃ t, exec (.tb0Second l) s = .next t ∧
      (s.time.tb0Load = none → t.time.tb0 % 1000000000 = 0 ∧ s.time.tb0 ≤ t.time.tb0 ∧
        t.time.tb0 < s.time.tb0 + 1000000000 ∧ t.time.frame = s.time.frame) ∧
      (∀ v, s.time.tb0Load = some v → t.time.tb0 = v ∧ t.time.frame = v / periodNs s ∧ t.time.tb0Load = none) ∧
      t.time.slewLeft.natAbs = s.time.slewLeft.natAbs - s.time.slewRate ∧
      (∀ k, k < 3 → (timingOut t k).offset = (timingOut s k).nextOffset ∧ (timingOut t k).width = (timingOut s k).nextWidth ∧
        (timingOut t k).driven = (s.tether.timingOut && leadsFrom t)) ∧
      t.twin.lead = s.twin.lead ∧ t.twin.handoverAt = s.twin.handoverAt ∧ t.twin.reclaimAt = s.twin.reclaimAt ∧
      ((∀ h, s.twin.handoverAt = some h ∨ s.twin.reclaimAt = some h → t.time.tb0 < h * periodNs t) →
        leadsFrom t = leadOrAlone s) ∧
      (∀ h, s.twin.paired = true → s.twin.handoverAt = some h → h * periodNs t ≤ t.time.tb0 → leadsFrom t = !s.twin.lead) ∧
      (∀ h, s.twin.paired = true → s.twin.handoverAt = none → s.twin.reclaimAt = some h → h * periodNs t ≤ t.time.tb0 →
        s.twin.linkHeard = true → leadsFrom t = (!s.twin.lead && s.twin.reclaimAcked)) ∧
      (∀ k, k = 0 ∨ k = 2 → (timingOut t k).driven = true →
        (timingOut t k).pulse = some (8 * (t.time.tb0 : Int) + (timingOut t k).offset, (timingOut t k).width))) ∧
    (s.compass.ptpQuad = none → exec .ptpAnnounceTimeout s = .next s) ∧
    (∀ k, s.compass.ptpQuad = some k → exec .ptpAnnounceTimeout s =
      .next { elapseTo (s.compass.ptpLast + s.compass.ptpTimeout * s.compass.ptpInterval) s with
        compass.ptpMaster := none, compass.ptpFreerun := true }) ∧
    (∀ k d m, (s.compass.ptpQuad ≠ some k.toNat ∨ d ≠ s.compass.ptpDomain) → exec (.ptpMessageReceive k d m) s = .next s) ∧
    (∀ (k : BitVec 5) d, s.compass.ptpQuad = some k.toNat → d = s.compass.ptpDomain →
      let heard := { s with compass.ptpLast := s.time.tb2, compass.ptpFreerun := false }
      let follows := fun (g : Nat) => ∃ x, s.compass.ptpMaster = some x ∧ x.identity = g
      (∀ x i, let better := ∀ y, s.compass.ptpMaster = some y → y.identity = x.identity ∨ betterMaster x y = true
        let taken := { heard with compass.ptpMaster := some x, compass.ptpInterval := i }
        (better → follows x.identity → exec (.ptpMessageReceive k d (.announce x i)) s = .next taken) ∧
        (better → ¬follows x.identity → exec (.ptpMessageReceive k d (.announce x i)) s = .next { taken with
          compass.ptpDelay := none, compass.ptpRaw := none, compass.ptpPending := none, compass.ptpReq := none }) ∧
        (¬better → exec (.ptpMessageReceive k d (.announce x i)) s = .next heard)) ∧
      (∀ g, ¬follows g → (∀ o, exec (.ptpMessageReceive k d (.sync g o)) s = .next s) ∧
        (∀ o, exec (.ptpMessageReceive k d (.followUp g o)) s = .next s) ∧
        (∀ n o, exec (.ptpMessageReceive k d (.delayResp g n o)) s = .next s)) ∧
      (∀ g, follows g →
        (∀ o, exec (.ptpMessageReceive k d (.sync g (some o))) s = .next (ptpMeasure o s.time.tb1 s)) ∧
        exec (.ptpMessageReceive k d (.sync g none)) s = .next { s with compass.ptpPending := some s.time.tb1 } ∧
        (∀ o, s.compass.ptpPending = none → exec (.ptpMessageReceive k d (.followUp g o)) s = .next s) ∧
        (∀ o a, s.compass.ptpPending = some a → exec (.ptpMessageReceive k d (.followUp g o)) s = .next (ptpMeasure o a s)) ∧
        (∀ n o, (s.compass.ptpRaw = none ∨ ∀ a, s.compass.ptpReq ≠ some (n, a)) →
          exec (.ptpMessageReceive k d (.delayResp g n o)) s = .next s) ∧
        (∀ n o a r, s.compass.ptpRaw = some r → s.compass.ptpReq = some (n, a) →
          let u := { s with compass.ptpReq := none, compass.ptpDelay := some ((o - a - r).fdiv 2) }
          let offset := (r + (o - a)).fdiv 2
          (s.compass.ptpEverLocked = true → exec (.ptpMessageReceive k d (.delayResp g n o)) s =
            .next { u with compass.ptpOffset := offset }) ∧
          (s.compass.ptpEverLocked = false → exec (.ptpMessageReceive k d (.delayResp g n o)) s =
            .next { u with time.tb1 := ((s.time.tb1 : Int) + offset).toNat, compass.ptpOffset := 0
                           compass.ptpRaw := none, compass.ptpEverLocked := true })))) ∧
    (∀ (o : Int) (a : Nat), let t := ptpMeasure o a s
      let n := (s.compass.ptpSeq + 1) % 65536
      t.compass.ptpReq = some (n, s.time.tb1) ∧ t.compass.ptpSeq = n ∧ t.compass.ptpRaw = some (o - a) ∧
      (∀ d, s.compass.ptpDelay = some d → t.compass.ptpOffset = o - a + d) ∧
      (s.compass.ptpDelay = none → t.compass.ptpOffset = s.compass.ptpOffset)) ∧
    (∀ b f, (s.compass.relay = none ∨ ptpPlace f.bytes = none ∨ leadOrAlone s = false ∨
      (∃ x y, s.compass.relay = some (x, y) ∧ (quadEnabled s x && quadEnabled s y) = false)) → exec (.ptpRelayFrame b f) s = .next s) ∧
    (∀ b f x y p, s.compass.relay = some (x, y) → ptpPlace f.bytes = some p → leadOrAlone s = true →
      quadEnabled s x = true → quadEnabled s y = true →
      let dst := if b then x else y
      let kind := ptpKind (u8 f.bytes p % 16)
      let out := if kind = .sync ∨ kind = .delayReq then corrected p (f.egress - f.ingress) f.bytes else f.bytes
      (kind = .peerDelay → exec (.ptpRelayFrame b f) s = .next (count .pdelayDropped 0 s)) ∧
      (kind ≠ .peerDelay → s.tether.controlRate ≤ tabGet 0 s.lanes.controlSent dst →
        exec (.ptpRelayFrame b f) s = .next (count .relayLimited 0 s)) ∧
      (kind ≠ .peerDelay → tabGet 0 s.lanes.controlSent dst < s.tether.controlRate → exec (.ptpRelayFrame b f) s =
        .next { ethSend dst out s with compass.relaySent := some (!b, out), lanes.controlSent := tabMod 0 s.lanes.controlSent dst (· + 1) })) ∧
    (∀ k : BitVec 4, trigger s k.toNat = none → exec (.timeTriggerFire k) s = .next s) ∧
    (∀ (k : BitVec 4) (x : Trigger), trigger s k.toNat = some x → trigTurn s k.toNat x = false →
      exec (.timeTriggerFire k) s = .next s) ∧
    (∀ (k : BitVec 4) (x : Trigger), trigger s k.toNat = some x → trigTurn s k.toNat x = true →
      ∃ t, exec (.timeTriggerFire k) s = .next t ∧
      trigBase t x.onTb2 = max (trigBase s x.onTb2) x.time ∧ (x.period = 0 → trigger t k.toNat = none) ∧
      (0 < x.period → ∃ (y : Trigger) (n : Nat), trigger t k.toNat = some y ∧ y.time = x.armed + n * x.period ∧
        max (trigBase s x.onTb2) x.time < y.time ∧ y.armed = x.armed) ∧
      (x.action = .fan → t.health.fanDue = s.health.fanDue + 1)) ∧
    exec .tb3MirrorUpdate s = .next { s with time.tb3Mirror := s.time.tb3 }

/-- O45, R324, R325. In every state. The filter refuses an edge of a stuck pin and changes nothing; of another pin it
refuses one held for less than the minimum width and counts GLITCH; then one inside the lockout after the last
accepted edge, and counts CHATTER; any other it accepts and takes as the last one. While the part is on: an ADC_TRIG
edge that is accepted starts the entries that it triggers; a fan tachometer edge that is accepted joins the edges of
the last second; FAN_PWM starts the entry of its number; a pin with a stuck time becomes STUCK, is counted and raises
its alarm, a stuck PPS pin leaving its source frequency-only; a pin that is released is not stuck. -/
def Obligations.PinEdgesAreFiltered : Prop :=
  ∀ s : State,
    (∀ k w, (pin s k).stuck = true → filterEdge k w s = (false, s)) ∧
    (∀ k w, (pin s k).stuck = false → w < (pin s k).minWidth → filterEdge k w s = (false, count .glitch k s)) ∧
    (∀ k w, (pin s k).stuck = false → (pin s k).minWidth ≤ w →
      (∀ a, (pin s k).lastAccepted = some a → s.time.tb2 < a + lockoutOf s k →
        filterEdge k w s = (false, count .chatter k { s with compass.chatterSeen := true })) ∧
      ((∀ a, (pin s k).lastAccepted = some a → a + lockoutOf s k ≤ s.time.tb2) →
        filterEdge k w s = (true, modPin k (fun p => { p with lastAccepted := some s.time.tb2 }) s))) ∧
    (s.dev.state ≠ .off →
      (∀ w, exec (.adcTrigEdge w) s = .next (if (filterEdge 3 w s).1 then injectStart 3 none (filterEdge 3 w s).2
        else (filterEdge 3 w s).2)) ∧
      (∀ (f : BitVec 2) w, (filterEdge (4 + f.toNat) w s).1 = false →
        exec (.fanTachEdge f w) s = .next (filterEdge (4 + f.toNat) w s).2) ∧
      (∀ (f : BitVec 2) w, (filterEdge (4 + f.toNat) w s).1 = true → ∃ t, exec (.fanTachEdge f w) s = .next t ∧
        (fan t f.toNat).edges = s.time.tb2 :: (fan s f.toNat).edges.filter (fun a => decide (s.time.tb2 < a + 1000000000))) ∧
      (∀ f : BitVec 2, ∃ t, exec (.fanPwmEdge f) s = .next t ∧ (∀ e, e ≠ f.toNat → inject t e = inject s e) ∧
        ((inject s f.toNat).trigger = some 2 → (inject t f.toNat).due =
          insertNat (s.time.tb2 + (inject s f.toNat).delay) (inject s f.toNat).due)) ∧
      (∀ k : BitVec 4, (3 < k.toNat ∨ (pin s k.toNat).stuck = true) → exec (.pinStuck k) s = .next s) ∧
      (∀ k : BitVec 4, k.toNat ≤ 3 → (pin s k.toNat).stuck = false → ∃ t, exec (.pinStuck k) s = .next t ∧
        (pin t k.toNat).stuck = true ∧ counter .stuck k.toNat t = counter .stuck k.toNat s + 1 ∧
        (k.toNat ≤ 1 → (source t k.toNat).freqOnly = true)) ∧
      (∀ k : BitVec 4, ∃ t, exec (.pinStuckRelease k) s = .next t ∧ (pin t k.toNat).stuck = false ∧
        (∀ j, j ≠ k.toNat → pin t j = pin s j)))

/-- O46, R339. For every list of distinct channels with capacities in GiB: two addresses that the interleave table takes
to the same channel and channel-local address are the same address; where some capacity is not 0 every address below
the sum of capacities has a place, and it lies inside the capacity of its channel; and an address keeps its place in
its 2 KiB piece. -/
def Obligations.DramAddressesMapOneToOne : Prop :=
  ∀ l : List (Nat × Nat), (l.map (·.1)).Nodup →
    (∀ a b x, mapAddr (interleave l) a = some x → mapAddr (interleave l) b = some x → a = b) ∧
    (∀ a, (∃ e ∈ l, 0 < e.2) → ∃ x, mapAddr (interleave l) a = some x) ∧
    (∀ a x, a < (l.map (·.2)).sum * 2 ^ 30 → mapAddr (interleave l) a = some x →
      ∃ e ∈ l, e.1 = x.1 ∧ x.2 < e.2 * 2 ^ 30) ∧
    (∀ a x, mapAddr (interleave l) a = some x → x.2 % 2048 = a % 2048)

/-- O47, R87, R334, R336, R337, R338. In every state other than OFF. DRAM_READ at or past the end of the channels in use,
or at an address no channel holds, faults; else its reissues are counted and it waits in the queue, or reads its
burst, and an uncorrectable one it meets in the service region reaches its owner. A lost channel answers a read at
once as uncorrectable; elsewhere what is queued on the channel before it and the writes queued to its burst are issued
first, so that none stays queued, and a burst with one device in error is counted CE, with two UE, with none neither;
with more, a free value chooses among uncorrectable, a false correction that leaves free bytes, and none seen (log 1).
DRAM_WRITE counts its reissues and serves the request of the channel that comes next among the writes; reads that come
before it to its burst are served with it; without one nothing changes. The next request is one that can still be
accepted; to its burst goes one of the highest class asked for, and no request to its burst that came earlier writes,
nor any where it writes itself. An issued write stores its bytes and no other, unless its channel is lost, which
discards it. -/
def Obligations.DramReadsAndWritesKeepOrder : Prop :=
  ∀ s : State, s.dev.state ≠ .off →
    (∀ a l m w n, (dramTop s ≤ a ∨ dramMap s a = none) → exec (.dramRead a l m w n) s = .fault .noDram) ∧
    (∀ a l (m : BitVec 3) w n c loc, a < dramTop s → dramMap s a = some (c, loc) →
      let u := countN .parityReissue c n.toNat s
      let r := fetchBurst m.toNat a l u
      (w = true → (dramCh s c).lost = false → exec (.dramRead a l m w n) s =
        .next { u with dram.queue := s.dram.queue ++ [{ cls := m.toNat, addr := a, kind := .read l }] }) ∧
      ((w = false ∨ (dramCh s c).lost = true) → exec (.dramRead a l m w n) s = .next (if r.1 then ueInService a r.2 else r.2))) ∧
    (∀ m a l c loc, dramMap s a = some (c, loc) →
      ((dramCh s c).lost = true → fetchBurst m a l s = (true, countUe c a s)) ∧
      ((dramCh s c).lost = false →
        let u := if writeWaits s a then count .rawWaits c s else s
        let v := drainBurst a (serveFirst m (onChannel u c) u)
        writeWaits v a = false ∧ fetchBurst m a l s = readBurst a l v)) ∧
    (∀ a l c loc, dramMap s a = some (c, loc) →
      ((dramCh s c).lost = true → readBurst a l s = (true, countUe c a s)) ∧
      ((dramCh s c).lost = false →
        let v := bankAccess c loc s
        let x := draw v
        let y := freeBytes 64 x.2
        (l.dedup = [] → readBurst a l s = (false, v)) ∧ (∀ d, l.dedup = [d] → readBurst a l s = (false, countCe c d v)) ∧
        (∀ d e, l.dedup = [d, e] → readBurst a l s = (true, countUe c a v)) ∧
        (∀ d e f rest, l.dedup = d :: e :: f :: rest →
          (x.1 % 3 = 0 → readBurst a l s = (true, countUe c a x.2)) ∧
          (x.1 % 3 = 1 → readBurst a l s =
            (false, countCe c d { y.2 with dram.mem := memWrite y.2.dram.mem (a / 64 * 64) y.1 })) ∧
          (x.1 % 3 = 2 → readBurst a l s = (false, x.2))))) ∧
    (∀ (c : BitVec 4) n, let next := nextReq s (fun r => r.isWrite && onChannel s c.toNat r.addr)
      let u := countN .parityReissue c.toNat n.toNat s
      (next = none → exec (.dramWrite c n) s = .next s) ∧
      (∀ r, next = some r → r.isWrite = true → exec (.dramWrite c n) s = .next (takeReq r u)) ∧
      (∀ r, next = some r → r.isWrite = false →
        let first := fun (x : DramReq) => sameBurst x.addr r.addr
        let v := serveN ((s.dram.queue.filter first).takeWhile (fun x => !x.isWrite)).length first u
        (∀ w, v.dram.queue.find? (fun x => reqAlive v x && first x) = some w → exec (.dramWrite c n) s = .next (takeReq w v)) ∧
        (v.dram.queue.find? (fun x => reqAlive v x && first x) = none → exec (.dramWrite c n) s = .next v))) ∧
    (∀ p, (nextReq s p = none ↔ ∀ r ∈ s.dram.queue, reqAlive s r = true → p r = false) ∧
      (∀ r, nextReq s p = some r → r ∈ s.dram.queue ∧ reqAlive s r = true ∧
        (∃ b ∈ s.dram.queue, p b = true ∧ sameBurst r.addr b.addr = true ∧
          (∀ y ∈ s.dram.queue, reqAlive s y = true → p y = true → b.cls ≤ y.cls)) ∧
        (∀ x ∈ (s.dram.queue.filter (reqAlive s)).takeWhile (fun x => x ≠ r), sameBurst x.addr r.addr = true →
          x.isWrite = false ∧ r.isWrite = false))) ∧
    (∀ r, takeReq r s = issueReq r { s with dram.queue := s.dram.queue.erase r }) ∧
    (∀ a l, (chanLost s a = true → issueWrite a l s = s) ∧
      (chanLost s a = false → memRead (issueWrite a l s).dram.mem a l.length = l ∧
        (∀ x, (x < a ∨ a + l.length ≤ x) → memGet (issueWrite a l s).dram.mem x = memGet s.dram.mem x)))

/-- O48, R330, R331, R332, R333, R335, R336, R337, R338. In every state other than OFF. CHANNEL_LOST marks a trained
channel lost, takes what is queued for it from the queue and calls for DEGRADED; for the third cause only past 4096
uncorrectable codewords in the second; the second cause counts its reissues. A scrub serves what is queued before it,
is counted per channel in use and changes no byte itself. A refresh of a trained channel is postponed at most twice
and only while its bank has work, and counted; otherwise the row is closed and the postponed ones are made up; an idle
row is closed. Recentring a byte lane of a trained channel that is not lost moves its delays one step towards the
centres and sets EYE_LOW below 0.15 UI; a step that meets an uncorrectable burst is skipped and counts it. A poll
keeps the temperature of its DIMM; DIMM_HOT holds while a DIMM of the channel stands above 95 °C, and is raised as it
begins. Retraining trains the named channels that pass and are not excluded, clearing LOST, with the centres and Vrefs
of their lanes' widest windows, and leaves the other channels and their lanes. Recentring and retraining keep every
byte past the first MiB. Where these conditions fail nothing changes. -/
def Obligations.DramChannelsAreKept : Prop :=
  ∀ s : State, s.dev.state ≠ .off →
    (∀ (c : BitVec 4) x, let d := dramCh s c.toNat
      ((d.trained = false ∨ d.lost = true ∨ (x = .uncorrectable ∧ d.ueSecond ≤ 4096)) →
        exec (.channelLost c x) s = .next s) ∧
      (d.trained = true → d.lost = false → (x = .uncorrectable → 4096 < d.ueSecond) → ∃ t,
        exec (.channelLost c x) s = .next t ∧ (dramCh t c.toNat).lost = true ∧ .channelLost ∈ t.dev.causes ∧
        t.dram.queue = s.dram.queue.filter (fun r => !onChannel s c.toNat r.addr) ∧ t.dram.mem = s.dram.mem ∧
        counter .parityReissue c.toNat t = counter .parityReissue c.toNat s + if x = .parity then 3 else 0)) ∧
    (∀ l m, ∃ t, exec (.patrolScrub l m) s = .next t ∧ t.dram.mem = (serveFirst 4 (fun _ => true) s).dram.mem ∧
      (∀ e ∈ chansInUse s, counter .scrubPasses e.1 t = counter .scrubPasses e.1 s + 1)) ∧
    (∀ (c : BitVec 4) b p, let d := dramCh s c.toNat
      let waits := p = true ∧ bankBusy s c.toNat b = true ∧ tabGet 0 d.postponed b < 2
      (d.trained = false → exec (.refresh c b p) s = .next s) ∧
      (d.trained = true → waits → exec (.refresh c b p) s = .next (count .refreshPostponed c.toNat
        (modDram c.toNat (fun d => { d with postponed := tabMod 0 d.postponed b (· + 1) }) s))) ∧
      (d.trained = true → ¬waits → exec (.refresh c b p) s = .next (closeRow c.toNat b
        (modDram c.toNat (fun d => { d with postponed := tabSet 0 d.postponed b 0 }) s)))) ∧
    (∀ (c : BitVec 4) b, exec (.pageIdleClose c b) s = .next (closeRow c.toNat b s)) ∧
    (∀ c b, dramCh (closeRow c b s) c = { dramCh s c with openRow := tabSet none (dramCh s c).openRow b none }) ∧
    (∀ k r w n ue, let d := dramCh s (k / 10)
      ((120 ≤ k ∨ d.trained = false) → exec (.recentre k r w n ue) s = .next s) ∧
      (∀ a, k < 120 → d.trained = true → ue = some a → exec (.recentre k r w n ue) s = .next (countUe (k / 10) a s)) ∧
      (k < 120 → d.trained = true → ue = none → d.lost = true → exec (.recentre k r w n ue) s = .next s) ∧
      (k < 120 → d.trained = true → ue = none → d.lost = false → ∃ t, exec (.recentre k r w n ue) s = .next t ∧
        tabGet (0, 0) t.dram.delays k = (stepTo (tabGet (0, 0) s.dram.delays k).1 r, stepTo (tabGet (0, 0) s.dram.delays k).2 w) ∧
        (∀ j, j ≠ k → tabGet (0, 0) t.dram.delays j = tabGet (0, 0) s.dram.delays j) ∧ t.dram.vrefs = s.dram.vrefs ∧
        (∀ a, 2 ^ 20 ≤ a → memGet t.dram.mem a = memGet s.dram.mem a) ∧
        (dramCh t (k / 10)).eyeLow = (d.eyeLow || decide (n * 100 < 960)))) ∧
    (∀ (c : BitVec 4) (b : Bool) x, let d := dramCh s c.toNat
      let u := modDram c.toNat (fun d => { d with hubTemps := tabSet 0 d.hubTemps (bit b) x }) s
      let e := dramCh u c.toNat
      (d.dimms.length ≤ bit b → exec (.dimmTempPoll c b x) s = .next s) ∧
      (bit b < d.dimms.length → dimmHot e = false → exec (.dimmTempPoll c b x) s = .next (setAlarm 0x0903 c.toNat false u)) ∧
      (bit b < d.dimms.length → dimmHot e = true → exec (.dimmTempPoll c b x) s = .next (if dimmHot d
        then setAlarm 0x0903 c.toNat true u else raise 0x0903 (64 + c.toNat) x [bit b] (setAlarm 0x0903 c.toNat true u)))) ∧
    (∀ (d : DramCh), dimmHot d = true ↔ ∃ e ∈ d.hubTemps, 1520 < e.2) ∧
    (∀ p l, s.host.owed.find? (fun e => isDramRetrain e.1) = none → exec (.dramRetrainDone p l) s = .next s) ∧
    (∀ p (l : List LaneEye) i q, s.host.owed.find? (fun e => isDramRetrain e.1) = some (i, q) → ∃ t,
      exec (.dramRetrainDone p l) s = .next t ∧ (∀ a, 2 ^ 20 ≤ a → memGet t.dram.mem a = memGet s.dram.mem a) ∧
      (∀ c, c < 12 →
        let good := testBit (u16 q.arg 0) c = true ∧ (dramCh s c).excluded = false ∧
          testBit p.toNat c = true ∧ channelOk l c = true
        (good → (dramCh t c).trained = true ∧ (dramCh t c).lost = false ∧ (∀ k, k / 10 = c → ∃ e r w, l[k]? = some e ∧
          bestSweep e.read = some r ∧ bestSweep e.write = some w ∧ tabGet (0, 0) t.dram.vrefs k = (r.vref, w.vref) ∧
          tabGet (0, 0) t.dram.delays k = (sweepCentre r, sweepCentre w))) ∧
        (¬good → dramCh t c = dramCh s c ∧ (∀ k, k / 10 = c → tabGet (0, 0) t.dram.vrefs k = tabGet (0, 0) s.dram.vrefs k ∧
          tabGet (0, 0) t.dram.delays k = tabGet (0, 0) s.dram.delays k))))

/-- O49, R379, R380, R381, R382, R383. In every state other than OFF. A request that has no path goes to the default
target, which counts it against its master and keeps the first address, and no port changes; one whose target is down
is counted as an error; either is answered at the master. One of a master that already waits there adds nothing; any
other joins those that wait, an idle port being free from the cycle after. PORT_IDLE, at each port of its target: one
with nothing granted or waiting becomes idle, eight cycles after its last; another stays. TARGET_RESET: each port of
the target answers all that wait and takes the state named; with a pitch its transfer unit is reset first; a single-
port target leaves every other port. Of those waiting the one granted is that next after the pointer, ascending with
wrap; a lone request at a target that is up is granted in the cycle in which it is due, once that is past, holds the
port one cycle a beat and does at the target what it asks. -/
def Obligations.CrossbarGrantsInTurn : Prop :=
  (∀ s : State, s.dev.state ≠ .off →
    (∀ (m g : BitVec 5) (o : BitVec 4) a n b l, hasPath s m.toNat g.toNat a n = false → exec (.crossbarRequest m g o a n b l) s =
      .next (answerError m.toNat o.toNat m.toNat (defaultTarget m.toNat a (!l.isEmpty) s))) ∧
    (∀ m a w, counter .defaultHits m (defaultTarget m a w s) = counter .defaultHits m s + 1 ∧
      tabGet none (defaultTarget m a w s).dma.firstDefault m = some ((tabGet none s.dma.firstDefault m).getD a) ∧
      (∀ p, port (defaultTarget m a w s) p = port s p)) ∧
    (∀ (m g : BitVec 5) (o : BitVec 4) a n (b : BitVec 3) l, hasPath s m.toNat g.toNat a n = true →
      let p := portOf m.toNat g.toNat a
      let u := portSettle p s
      let there := (port u p).waiting.any (fun r => r.master = m.toNat)
      (targetDown s p = true →
        exec (.crossbarRequest m g o a n b l) s = .next (answerError m.toNat o.toNat 7 (count .resetErrors p s))) ∧
      (targetDown s p = false → there = true → exec (.crossbarRequest m g o a n b l) s = .next u) ∧
      (targetDown s p = false → there = false → exec (.crossbarRequest m g o a n b l) s = .next (portJoin p
        { master := m.toNat, addr := a, bytes := n, beats := b.toNat, data := l, arrival := u.time.tb2 } u))) ∧
    (∀ p (r : PortReq), let x := port s p
      let asleep := x.idle = true ∨ x.waiting = [] ∧ x.freeAt + 8 ≤ r.arrival
      port (portJoin p r s) p = { x with
        idle := false, holder := if asleep then none else x.holder
        freeAt := if asleep then r.arrival + 1 else x.freeAt, waiting := x.waiting ++ [r] } ∧
      (∀ j, j ≠ p → port (portJoin p r s) j = port s j)) ∧
    (∀ g : BitVec 5, exec (.portIdle g) s = .next ((portsOf g.toNat).foldl (fun s p => portIdle p s) s)) ∧
    (∀ p, let u := portSettle p s
      (((port u p).idle = true ∨ (port u p).waiting ≠ []) → portIdle p s = u) ∧
      ((port u p).idle = false → (port u p).waiting = [] → portIdle p s =
        modPort p (fun x => { x with idle := true, holder := none }) (elapseTo ((port u p).freeAt + 8) u))) ∧
    (∀ (g : BitVec 5) d, ∃ t, exec (.targetReset g d) s = .next t ∧
      t = (portsOf g.toNat).foldl (fun s p => portReset d p (if 16 ≤ p then masterReset (4 + (p - 16)) s else s)) s ∧
      (∀ p ∈ portsOf g.toNat, (port t p).down = d ∧ (port t p).waiting = []) ∧
      (g.toNat ≤ 7 → g ≠ 1 → ∀ p, p ≠ g.toNat → port t p = port s p))) ∧
  (∀ (p : Nat) (l : List PortReq) (r : PortReq), rrPick p l = some r → r ∈ l ∧
    ∀ x ∈ l, rrDistance p r.master ≤ rrDistance p x.master) ∧
  (∀ (s : State) (p : Nat) (r : PortReq), targetDown s p = false → (port s p).waiting = [r] → r.arrival ≤ 2 ^ 64 →
    let g := max (port s p).freeAt r.arrival
    (s.time.tb2 ≤ g → portSettle p s = s) ∧
    (g < s.time.tb2 → portSettle p s = portStore p r (portGrant p g r s) ∧ port (portSettle p s) p = { port s p with
      pointer := r.master, holder := some r.master, freeAt := g + r.beats, waiting := [] }))

/-- O50, R386, R387, R388, R389, R390, R391, R392. A burst of a well-formed descriptor that is not whole is 1 to 4096
bytes long, lies inside the copy and inside one 4 KiB page of either address, and writes none of the source bytes
still to be read. Beats leave the holding register in order, each of the destination width, and no byte is lost. In
every state other than OFF: DMA_BURST lets the read engine, the write engine or both serve the channel where it is its
turn: the read engine where a descriptor runs that is not fetched whole and whose burst has room in the share of 32
KiB, the write engine where the share holds a burst. A read that a window, the host, the default target or a target in
reset stops, or that meets an uncorrectable codeword, leaves its error; any other puts its bytes in the share. A write
that a window or the host stops issues nothing; any other is counted, and copies its bytes in beats or leaves its
error, a reset target's range then holding free bytes. DMA_DESCRIPTOR_COMPLETE of a descriptor that has an outcome
takes it and the aborted ones behind it from the queue with their outcomes and writes the record; of any other, or
with nothing queued, it changes nothing. -/
def Obligations.DmaCopiesInBurstsAndCompletes : Prop :=
  (∀ (d : Desc) (k : Nat) ring, descBad ring d = false → k < d.len →
    let b := nextBurst d k
    1 ≤ b.2 ∧ b.2 ≤ 4096 ∧ b.1 + b.2 ≤ d.len ∧
    (d.src + b.1) / 4096 = (d.src + b.1 + b.2 - 1) / 4096 ∧ (d.dst + b.1) / 4096 = (d.dst + b.1 + b.2 - 1) / 4096 ∧
    (d.srcSpace = d.dstSpace → ∀ a, d.dst + b.1 ≤ a → a < d.dst + b.1 + b.2 →
      (descDown d = true → ¬ (d.src ≤ a ∧ a < d.src + b.1)) ∧
      (descDown d = false → ¬ (d.src + b.1 + b.2 ≤ a ∧ a < d.src + d.len)))) ∧
  (∀ (w : Nat) (l : List (List Byte)) (h : List Byte), 0 < w → let r := holdBeats w l h
    r.1.flatten ++ r.2 = h ++ l.flatten ∧ (∀ b ∈ r.1, b.length = w) ∧ (l ≠ [] → r.2.length < w)) ∧
  (∀ s : State, s.dev.state ≠ .off →
    (∀ c, let x := dmaCh s c
      (running s c = none ↔ x.queue = [] ∨ ∃ d l, x.queue = d :: l ∧
        (descBad (ringChannel s c) d = true ∨ d.abort = true ∨ x.error ≠ none)) ∧
      (∀ d, readDesc s c = some d ↔ running s c = some d ∧ x.fetched < d.len ∧ (descOverlap d = true → x.buffer = []) ∧
        (x.buffer.map (fun e => e.2.length)).sum + (nextBurst d x.fetched).2 ≤ 32768) ∧
      (∀ d, writeDesc s c = some d ↔ running s c = some d ∧ x.buffer ≠ [])) ∧
    (∀ (c : BitVec 4) p x, let u := if p = .write then s else dmaReadTurn c.toNat x s
      exec (.dmaBurst c p x) s = .next (if p = .read then u else dmaWriteTurn c.toNat x u)) ∧
    (∀ c x, let turn := engineTurn s.dma.turn c (fun k => (readDesc s k).isSome)
      ((readDesc s c = none ∨ turn = false) → dmaReadTurn c x s = s) ∧
      (∀ d, readDesc s c = some d → turn = true → dmaReadTurn c x s = readBurstOf c d x { s with dma.turn := c })) ∧
    (∀ c x, let turn := engineTurn s.dma.writeTurn c (fun k => (writeDesc s k).isSome)
      ((writeDesc s c = none ∨ turn = false) → dmaWriteTurn c x s = s) ∧
      (∀ d, writeDesc s c = some d → turn = true → dmaWriteTurn c x s = writeBurstOf c d x { s with dma.writeTurn := c })) ∧
    (∀ c (d : Desc) x, let k := (dmaCh s c).fetched
      let b := nextBurst d k
      let u := if k = 0 && descOverlap d then count .overlap c s else s
      let a := d.src + b.1
      let denied := (d.srcSpace = 6 ∧ hostRangeOk u false a b.2 = false) ∨
        (d.dstSpace = 6 ∧ hostRangeOk u true (d.dst + b.1) b.2 = false) ∨ x = .windowDenied
      let stop := targetStop 2 d.srcSpace a b.2 u
      let r := spaceRead d.srcSpace a b.2 (x = .ue) (portServe (2 ^ d.srcWidth) 2 (portOf 2 d.srcSpace a) a b.2 u)
      (denied → readBurstOf c d x s = dmaError c 5 false u) ∧
      (∀ e v, ¬denied → stop = some (e, v) → readBurstOf c d x s = dmaError c e false v) ∧
      (¬denied → stop = none → x = .errorSrc → readBurstOf c d x s = dmaError c 2 false (defaultTarget 2 a false u)) ∧
      (¬denied → stop = none → x ≠ .errorSrc → r.2.1 = true → readBurstOf c d x s = dmaError c 6 false r.2.2) ∧
      (¬denied → stop = none → x ≠ .errorSrc → r.2.1 = false → readBurstOf c d x s =
        modDma c (fun y => { y with fetched := y.fetched + b.2, buffer := y.buffer ++ [(b.1, r.1)] }) r.2.2)) ∧
    (∀ c (d : Desc) x o l rest, (dmaCh s c).buffer = (o, l) :: rest →
      let a := d.dst + o
      let n := l.length
      let last := decide (d.len ≤ (dmaCh s c).issued + n)
      let issued := fun s => countN .dmaBytes c n (modDma c (fun y => { y with issued := y.issued + n, buffer := rest }) s)
      let denied := d.dstSpace = 6 ∧ hostRangeOk s true a n = false
      let gone := d.dstSpace = 6 ∧ hostReachable s = false
      let stop := targetStop 3 d.dstSpace a n s
      let u := issued (portServe (2 ^ d.dstWidth) 3 (portOf 3 d.dstSpace a) a n s)
      let free := freeBytes n u
      let h := holdBeats (2 ^ d.dstWidth) (beatsOf (2 ^ d.srcWidth) n l) (dmaCh u c).holding
      (denied → writeBurstOf c d x s = dmaError c 5 false s) ∧
      (¬denied → gone → writeBurstOf c d x s = dmaError c 3 false s) ∧
      (∀ e v, ¬denied → ¬gone → stop = some (e, v) → writeBurstOf c d x s = dmaError c e last (issued v)) ∧
      (¬denied → ¬gone → stop = none → x = .errorDst →
        writeBurstOf c d x s = dmaError c 3 last (issued (defaultTarget 3 a true s))) ∧
      (¬denied → ¬gone → stop = none → x = .targetReset → writeBurstOf c d x s =
        dmaError c 7 last (count .resetErrors (portOf 3 d.dstSpace a) (spaceWrite d.dstSpace a free.1 free.2))) ∧
      (¬denied → ¬gone → stop = none → x ≠ .errorDst → x ≠ .targetReset → writeBurstOf c d x s =
        modDma c (fun y => { y with holding := h.2 }) (putBeats d.dstSpace a h.1 u))) ∧
    (∀ c : BitVec 4, (dmaCh s c.toNat).queue = [] → exec (.dmaDescriptorComplete c) s = .next s) ∧
    (∀ (c : BitVec 4) d l, (dmaCh s c.toNat).queue = d :: l →
      let out := descOutcome (ringChannel s c.toNat) (dmaCh s c.toNat) d
      (out = none → exec (.dmaDescriptorComplete c) s = .next s) ∧
      (∀ o, out = some o → ∃ t, exec (.dmaDescriptorComplete c) s = .next t ∧
        t = completeAborted c.toNat l.length (completeDesc c.toNat d o.1 o.2 s) ∧
        (dmaCh t c.toNat).queue = l.dropWhile (fun x => x.abort) ∧ (dmaCh t c.toNat).issued = 0 ∧
        (dmaCh t c.toNat).error = none ∧
        ((∀ y r, l = y :: r → y.abort = false) → (dmaCh t c.toNat).record = (o.1, d.tag, o.2)))))

/-- O51, R314, R396, R416, R450, R472, R473, R474, R475. VIN12_RISE, and SUPPLY_RESTART while the always-on domain is
supplied, start the regulators unless a trip is latched: TB2 starts at 0 and a power cycle is counted; with a trip
latched or PWR_GOOD high only the pin is noted. RESET_RELEASE enters BOOT from OFF with PWR_GOOD high and no trip, 50
ms after PWR_GOOD at the earliest, with TB0 and TB3 at 0. RESET_N asserted with no trip latched ends any powered state
in OFF at once and counts a reset; with a trip latched the device state stands. A supply fault, the removal of VIN12
and a trip of sensors 0 to 23 drop PWR_GOOD and enter OFF; the trip is latched, and the removal clears it. Every one
keeps MRAM and the keys; after a reset the operating seconds and the bad-sector map are those of the keys-and-counters
partition (the reading of log 52). While the part is on, an overloaded module supply is off and its modules absent,
and a retry puts it on; an average draw above the cap by more than 5 % calls for DEGRADED, by more than 15 % for SAFE,
and one below clears the cause; a report whose draw is not at its level changes nothing. -/
def Obligations.PowerAndResetSwitchThePart : Prop :=
  ∀ s : State,
    (s.power.tripLatch = none → s.power.pwrGood = false →
      exec .vin12Rise s = .next { s with
        power := { s.power with vinOk := true, alwaysOn := true, pwrGood := true, diesOn := true }
        time.tb2 := 0, boot.powerCycles := s.boot.powerCycles + 1 } ∧
      (s.power.alwaysOn = true → exec .supplyRestart s = .next { s with
        power := { s.power with vinOk := true, pwrGood := true, diesOn := true }
        time.tb2 := 0, boot.powerCycles := s.boot.powerCycles + 1 })) ∧
    ((s.power.tripLatch.isSome = true ∨ s.power.pwrGood = true) →
      exec .vin12Rise s = .next { s with power := { s.power with vinOk := true, alwaysOn := true } }) ∧
    (s.power.alwaysOn = false → exec .supplyRestart s = .next s) ∧
    (s.power.alwaysOn = true → (s.power.tripLatch.isSome = true ∨ s.power.pwrGood = true) →
      exec .supplyRestart s = .next { s with power := { s.power with vinOk := true } }) ∧
    (s.dev.state = .off → s.power.pwrGood = true → s.power.tripLatch = none → ∃ t, exec .resetRelease s = .next t ∧
      t.dev.state = .boot ∧ t.time.tb0 = 0 ∧ t.time.tb3 = 0 ∧ t.time.tb2 = max s.time.tb2 50000000 ∧ t.time.frame = 0 ∧
      t.boot.mram = s.boot.mram ∧ t.boot.keys = s.boot.keys) ∧
    ((s.dev.state ≠ .off ∨ s.power.pwrGood = false ∨ s.power.tripLatch.isSome = true) →
      exec .resetRelease s = .next { s with power.resetN := true }) ∧
    (s.power.tripLatch = none → s.power.pwrGood = false → exec .resetNAssert s = .next { s with power.resetN := false }) ∧
    (s.power.tripLatch = none → s.power.pwrGood = true → ∃ t, exec .resetNAssert s = .next t ∧ t.dev.state = .off ∧
      t.boot.resets = s.boot.resets + 1 ∧ t.boot.powerCycles = s.boot.powerCycles ∧ t.boot.mram = s.boot.mram ∧
      t.boot.keys = s.boot.keys ∧ t.recorder.held = s.recorder.held ∧ t.recorder.live = [] ∧ t.dram.mem = [] ∧
      t.recorder.second = s.recorder.secondWritten ∧
      t.recorder.badSectors = s.recorder.mapCopies.2.foldl addSource s.recorder.mapCopies.1) ∧
    (s.power.tripLatch.isSome = true → ∃ t, exec .resetNAssert s = .next t ∧ t.dev = s.dev ∧ t.boot.mram = s.boot.mram ∧
      t.boot.keys = s.boot.keys ∧ t.power.resetN = false ∧ (t.power.tripLatch = s.power.tripLatch ∨ t.power.tripLatch = none)) ∧
    (∀ c, (s.power.pwrGood = false → exec (.supplyFault c) s = .next s) ∧
      (s.power.pwrGood = true → ∃ t, exec (.supplyFault c) s = .next t ∧ t.dev.state = .off ∧ t.power.pwrGood = false ∧
        t.boot.mram = s.boot.mram ∧ t.boot.keys = s.boot.keys ∧ t.boot.resets = s.boot.resets)) ∧
    (∃ t, exec .vin12Removed s = .next t ∧ t.power.tripLatch = none ∧ t.power.pwrGood = false ∧ t.power.alwaysOn = false ∧
      t.boot.mram = s.boot.mram ∧ t.boot.keys = s.boot.keys ∧ (s.power.pwrGood = true → t.dev.state = .off)) ∧
    (∀ k : BitVec 5, (s.power.pwrGood = true → k.toNat < 24 → ∃ t, exec (.thermalTrip k) s = .next t ∧ t.dev.state = .off ∧
        t.power.pwrGood = false ∧ t.power.tripLatch = some k.toNat ∧ t.power.tripReport = some k.toNat ∧ t.boot.mram = s.boot.mram ∧
        t.boot.keys = s.boot.keys ∧ t.dram.mem = []) ∧
      ((s.power.pwrGood = false ∨ 24 ≤ k.toNat) → exec (.thermalTrip k) s = .next s)) ∧
    (s.dev.state ≠ .off → ∀ k : BitVec 2,
      (∃ t, exec (.vmodOverload k) s = .next t ∧ testBit t.power.vmodOff.toNat k.toNat = true ∧
        (∀ j, 8 * k.toNat ≤ j → j < 8 * k.toNat + 8 → (quad t j).modulePresent = false)) ∧
      (∃ t, exec (.vmodRetry k) s = .next t ∧ testBit t.power.vmodOff.toNat k.toNat = false)) ∧
    (s.dev.state ≠ .off → ∀ w,
      (∀ l, drawAt s w l = false → exec (.powerMonitorExceeded w l) s = .next s) ∧
      (100 * w ≤ 105 * capWatts s → ∃ t, exec (.powerMonitorExceeded w .below) s = .next t ∧ .powerCap ∉ t.dev.causes ∧
        (0x0B04, 0) ∉ t.health.alarms ∧ ∀ c, c ≠ .powerCap → (c ∈ t.dev.causes ↔ c ∈ s.dev.causes)) ∧
      (105 * capWatts s < 100 * w → ∃ t, exec (.powerMonitorExceeded w .above5) s = .next t ∧ .powerCap ∈ t.dev.causes ∧
        (0x0B04, 0) ∈ t.health.alarms ∧ t.dev.safeAt = s.dev.safeAt) ∧
      (115 * capWatts s < 100 * w → ∃ t, exec (.powerMonitorExceeded w .above15) s = .next t ∧
        t.dev.safeAt.isSome = true ∧ (0x0B04, 0) ∈ t.health.alarms))

/-- O52, R394, R397, R399, R402, R404, R407, R411. For every state in BOOT with no firmware started, and every boot input:
after BOOT the part is either still in BOOT with one bank started and zeroing, or in SAFE on the ROM with none. The
bank started was PENDING or VALID, its container passes every check of R402 and its sections those of R404; where the
memory in use is trained and no bank starts, a PENDING bank is FAILED. A BOOT_TIMEOUT comes 30 s after the start at
the earliest, is counted, stops the firmware started, marks its bank FAILED if it was PENDING, does not start it
again, and starts another only by the same checks. The end of zeroing enters READY, where a PENDING bank becomes VALID
and active, and a secure version above the anti-rollback version raises it; with all 32 version words written it
stands and an alarm says so. A write of bank control, below the end of its 32-bit sequence, rewrites the copy that is
not in force, which then is in force. BOOT elsewhere, or once started, and a timeout or an end of zeroing that is not
due, change nothing. -/
def Obligations.OnlyVerifiedFirmwareStarts : Prop :=
  ∀ s : State,
    (∀ b, s.dev.state ≠ .off → (s.dev.state ≠ .boot ∨ s.boot.started.isSome = true) → exec (.boot b) s = .next s) ∧
    (∀ b, s.dev.state = .boot → s.boot.started = none → let u := bootDram b s
      let ready := wantedChans u ≠ [] ∧ ∀ c ∈ wantedChans u, (dramCh u c).trained = true
      ∃ t, exec (.boot b) s = .next t ∧
      (t.boot.started = none → t.dev.state = .safe ∧ t.dev.romSafe = true) ∧
      (¬ready → t.boot.started = none) ∧
      (∀ k, t.boot.started = some k → t.dev.state = .boot ∧ t.boot.zeroing = true ∧
        (bankState s k = .pending ∨ bankState s k = .valid) ∧
        (checkContainer false false true (bankBytes k bankSize s) s).code = 0 ∧
        sectionsOk (checkContainer false false true (bankBytes k bankSize s) s).payload = true) ∧
      (ready → t.boot.started = none → (bankControl s).seq + 2 < 2 ^ 32 → ∀ k, bankState s k = .pending →
        bankState t k = .failed)) ∧
    (s.dev.state ≠ .off → (s.dev.state ≠ .boot ∨ s.boot.started = none) → exec .bootTimeout s = .next s) ∧
    (∀ b, s.dev.state = .boot → s.boot.started = some b → ∃ t, exec .bootTimeout s = .next t ∧
      t.boot.started ≠ some b ∧ counter .bootTimeout 0 t = counter .bootTimeout 0 s + 1 ∧
      s.boot.startedAt + 30000000000 ≤ t.time.tb2 ∧ ((bankControl s).seq + 2 < 2 ^ 32 → bankState s b = .pending →
        bankState t b = .failed) ∧
      (t.boot.started = none → t.dev.state = .safe ∧ t.dev.romSafe = true) ∧
      (∀ k, t.boot.started = some k → t.dev.state = .boot ∧ (bankState s k = .pending ∨ bankState s k = .valid) ∧
        (checkContainer false false true (bankBytes k bankSize s) s).code = 0 ∧ t.boot.zeroing = true ∧
        sectionsOk (checkContainer false false true (bankBytes k bankSize s) s).payload = true)) ∧
    (s.dev.state ≠ .off → (s.dev.state ≠ .boot ∨ s.boot.zeroing = false) → exec .bootZeroingDone s = .next s) ∧
    (∀ f, (bankControl s).seq + 1 < 2 ^ 32 → let c := bankControl s
      bankControl (writeControl f s) = { f c with seq := c.seq + 1, valid := true } ∧
      (c = s.boot.copy0 ∨ c = s.boot.copy1) ∧
      ((writeControl f s).boot.copy0 = s.boot.copy0 ∨ (writeControl f s).boot.copy1 = s.boot.copy1)) ∧
    (s.dev.state = .boot → s.boot.zeroing = true → ∃ t, exec .bootZeroingDone s = .next t ∧ t.dev.state = .ready ∧
      t.boot.zeroing = false ∧
      (∀ b, s.boot.started = some b → s.boot.trying = true → (bankControl s).seq + 2 < 2 ^ 32 →
        activeIsB t = b ∧ bankState t b = .valid) ∧
      (∀ b, s.boot.started = some b → s.boot.trying = false → (bankControl s).seq + 2 < 2 ^ 32 →
        activeIsB t = activeIsB s) ∧
      (∀ b v, s.boot.started = some b → s.boot.security = (v, true) → antiRollback s < v →
        s.boot.versionWords.length < 32 → antiRollback t = v) ∧
      (∀ b v, s.boot.started = some b → s.boot.security = (v, true) → antiRollback s < v →
        32 ≤ s.boot.versionWords.length → t.boot.versionWords = s.boot.versionWords ∧ (0x0E80, 0) ∈ t.health.alarms) ∧
      (s.boot.started = none ∨ s.boot.security.2 = false ∨ s.boot.security.1 ≤ antiRollback s →
        t.boot.versionWords = s.boot.versionWords))

/-- O53, R406, R409, R410. In every state other than OFF. FW_UPDATE_DATA_DONE writes the bytes of the oldest DATA at their
place in the inactive bank and no other byte of MRAM; a failed sector marks the bank FAILED, a read of the source that
fails writes nothing. FW_UPDATE_CHECK_DONE, once a Pack engine serves it, makes the inactive bank PENDING and owes the
reboot where every check passes, and else leaves both banks as they were. UPDATE_REBOOT then enters BOOT, 100 ms later
at the latest where the completion is not yet in the ring, and without one owed changes nothing. FW_KEY_ENROLL_DONE
that verifies writes the hash of the material into its slot where that is not yet written, and else leaves every slot.
The place of the material in its partition is a free value (log 28). -/
def Obligations.UpdatesWriteOnlyTheInactiveBank : Prop :=
  ∀ s : State, s.dev.state ≠ .off →
    (∀ f, owedOf isUpdateData s = none → exec (.fwUpdateDataDone f) s = .next s) ∧
    (∀ f c q, owedOf isUpdateData s = some (c, q) →
      let x := bulk q.arg 0
      let at' := bankStart (inactive s) + u64 q.arg 16
      let r := bulkFetch x s
      ∃ t, exec (.fwUpdateDataDone f) s = .next t ∧
      (∀ a, (a < at' ∨ at' + x.length ≤ a) → memGet t.boot.mram a = memGet s.boot.mram a) ∧
      (r.2.1 ≠ none → t.boot = s.boot) ∧
      (r.2.1 = none → f = true → (bankControl s).seq + 1 < 2 ^ 32 → bankState t (inactive s) = .failed) ∧
      (r.2.1 = none → f = false → memRead t.boot.mram at' r.1.length = r.1 ∧ t.boot.copy0 = s.boot.copy0 ∧ t.boot.copy1 = s.boot.copy1)) ∧
    (∀ e, s.services.find? (fun x => isUpdateEnd x.cmd) = none → exec (.fwUpdateCheckDone e) s = .next s) ∧
    (∀ e x, s.services.find? (fun x => isUpdateEnd x.cmd) = some x →
      (engineServes s x.seq = false → exec (.fwUpdateCheckDone e) s = .next s) ∧
      (engineServes s x.seq = true →
      let v := checkContainer false true (dramTrained s) (bankBytes (inactive s) (s.boot.updateLen.getD 0) s) s
      ∃ t, exec (.fwUpdateCheckDone e) s = .next t ∧ t.boot.mram = s.boot.mram ∧
      (v.code = 0 → t.boot.rebootDue = true ∧ ((bankControl s).seq + 1 < 2 ^ 32 →
        bankState t (inactive s) = .pending ∧ activeIsB t = activeIsB s ∧
        bankVersion t (inactive s) = u64 (bankBytes (inactive s) (s.boot.updateLen.getD 0) s) 8 ∧
        bankState t (activeIsB s) = bankState s (activeIsB s) ∧ bankVersion t (activeIsB s) = bankVersion s (activeIsB s))) ∧
      (v.code ≠ 0 → t.boot = s.boot))) ∧
    ((s.dev.state ≠ .update ∨ s.boot.rebootDue = false) → exec .updateReboot s = .next s) ∧
    (s.dev.state = .update → s.boot.rebootDue = true → ∃ t, exec .updateReboot s = .next t ∧ t.dev.state = .boot ∧
      t.time.tb2 = (if endUnwritten s then max s.time.tb2 (s.boot.rebootSince + 100000000) else s.time.tb2) ∧
      t.boot.mram = s.boot.mram ∧ t.boot.copy0 = s.boot.copy0 ∧ t.boot.copy1 = s.boot.copy1) ∧
    (∀ v, s.host.owed.find? (fun e => isEnroll 1 e || isEnroll 2 e || isEnroll 3 e) = none →
      exec (.fwKeyEnrollDone v) s = .next s) ∧
    (∀ v c q, s.host.owed.find? (fun e => isEnroll 1 e || isEnroll 2 e || isEnroll 3 e) = some (c, q) →
      let r := bulkFetch (bulk q.arg 8) s
      ∃ t, exec (.fwKeyEnrollDone v) s = .next t ∧
      (v = true → r.2.1 = none → keySlot s (u8 q.arg 0) = none → keySlot t (u8 q.arg 0) = some (Config.sha384 r.1)) ∧
      ((v = false ∨ r.2.1 ≠ none ∨ keySlot s (u8 q.arg 0) ≠ none) → t.boot = s.boot) ∧
      (∀ k, (k ≠ u8 q.arg 0 ∨ keySlot s k ≠ none) → keySlot t k = keySlot s k))

/-- O54, R458, R459, R460, R461, R462, R463. In every state other than OFF. EPOCH_END moves the operating seconds to the
next whole hour, writes them to MRAM and starts an empty set; while the recorder runs its classes wait for sealing in
class order after those that waited, and in LOG_FULL and FAILED they are merged into the overflow set. RECORD_SEAL
takes the writer 25 µs, 45 µs where it fails: one that verifies writes the oldest record that waits to the next good
slot and holds it; one that fails names its sector bad in the map and in each copy of it that verifies; with no good
slot the recorder is in LOG_FULL and what waits is merged; with nothing to seal, or while an export or clear holds it
back, nothing changes. REC_CLEAR_DONE erases the good sectors and then holds records of the overflow set alone; with
every sector bad what waits is merged and the recorder stays as it was. REC_READ_DONE ends the oldest read, and one
that the host takes or refuses answers so. Merging two sets adds their counts and keeps the lower minimum and the
higher maximum; a sealed record reads back whole, an unsealed one does not. -/
def Obligations.RecorderKeepsEveryCount : Prop :=
  (∀ s : State, s.dev.state ≠ .off →
    (∃ t, exec .epochEnd s = .next t ∧ t.recorder.live = [] ∧ t.recorder.epochStart = t.recorder.second ∧
      t.recorder.secondWritten = t.recorder.second ∧
      (s.recorder.epochStart / 3600 + 1) * 3600 ≤ t.recorder.second ∧ t.recorder.held = s.recorder.held ∧
      ((s.recorder.state = 0 ∨ s.recorder.clearing = true) →
        t.recorder.toSeal = s.recorder.toSeal ++ epochRecords false s ∧ t.recorder.overflow = s.recorder.overflow) ∧
      (s.recorder.state ≠ 0 → s.recorder.clearing = false → t.recorder.toSeal = s.recorder.toSeal ∧
        t.recorder.overflow = (epochRecords false s).foldl
          (fun o r => tabMod {} o r.cls (fun a => mergeSets a r.set)) s.recorder.overflow)) ∧
    (∀ v, (s.recorder.clearing = true ∨ s.recorder.state ≠ 0 ∨ s.recorder.toSeal = []) →
      exec (.recordSeal v) s = .next s) ∧
    (∀ r l n, s.recorder.clearing = false → s.recorder.state = 0 → s.recorder.toSeal = r :: l →
      nextGood s.recorder s.recorder.nextSlot = some n →
      (∃ t, exec (.recordSeal .good) s = .next t ∧ t.recorder.held = s.recorder.held ++ [(n, r)] ∧
        t.time.tb2 = max s.time.tb2 (s.recorder.writerAt + 25000) ∧
        memRead t.boot.mram (recOffset n) (recBytes true r).length = recBytes true r ∧
        (∀ a, (a < recOffset n ∨ recOffset n + (recBytes true r).length ≤ a) → memGet t.boot.mram a = memGet s.boot.mram a)) ∧
      (∀ a b, ∃ t, exec (.recordSeal (.bad a b)) s = .next t ∧ t.recorder.held = s.recorder.held ∧
        slotGood t.recorder n = false ∧ t.boot.mram = s.boot.mram ∧
        t.recorder.mapCopies = (if a then addSource s.recorder.badSectors (n / 16) else s.recorder.mapCopies.1,
          if b then addSource s.recorder.badSectors (n / 16) else s.recorder.mapCopies.2) ∧
        t.time.tb2 = max s.time.tb2 (s.recorder.writerAt + 45000))) ∧
    (∀ v r l, s.recorder.clearing = false → s.recorder.state = 0 → s.recorder.toSeal = r :: l →
      nextGood s.recorder s.recorder.nextSlot = none → ∃ t, exec (.recordSeal v) s = .next t ∧ t.recorder.state = 1 ∧
      t.recorder.toSeal = [] ∧ t.recorder.held = s.recorder.held ∧ t.recorder.overflow = (r :: l).foldl
        (fun o r => tabMod {} o r.cls (fun a => mergeSets a r.set)) s.recorder.overflow) ∧
    (owedOf isRecClear s = none → exec .recClearDone s = .next s) ∧
    (∀ c q, owedOf isRecClear s = some (c, q) → ∃ t, exec .recClearDone s = .next t ∧ t.recorder.clearing = false ∧
      (∀ e ∈ s.recorder.held, slotGood s.recorder e.1 = false → e ∈ t.recorder.held) ∧
      (∀ e ∈ t.recorder.held, (e ∈ s.recorder.held ∧ slotGood s.recorder e.1 = false) ∨ e.2 ∈ overflowRecords s) ∧
      counter .clears 0 t = counter .clears 0 s + 1 ∧
      (recSectors ≤ s.recorder.badSectors.length → t.recorder.state = s.recorder.state ∧
        t.recorder.toSeal = [] ∧ t.recorder.overflow = s.recorder.toSeal.foldl
          (fun o r => tabMod {} o r.cls (fun a => mergeSets a r.set)) s.recorder.overflow)) ∧
    (∀ f, s.reads.find? (fun r => isRecRead r.cmd) = none → exec (.recReadDone f) s = .next s) ∧
    (∀ f r, s.reads.find? (fun r => isRecRead r.cmd) = some r →
      let p := bulkPut (bulk r.req.arg r.bulkOff) r.bytes { s with reads := s.reads.erase r }
      (f = true → exec (.recReadDone f) s =
        .next (finish r.cmd 0x0C01 r.req .hostDma 0 0 [] { s with reads := s.reads.erase r })) ∧
      (∀ st, f = false → p.1 = some st → exec (.recReadDone f) s = .next (finish r.cmd 0x0C01 r.req st 0 0 [] p.2)) ∧
      (f = false → p.1 = none → exec (.recReadDone f) s =
        .next (finish r.cmd 0x0C01 r.req .ok r.bytes.length 0 r.extra p.2)))) ∧
  (∀ a b : ClassSet, 0 < a.count → (mergeSets a b).count = a.count + b.count ∧ (mergeSets a b).min = min a.min b.min ∧
    (mergeSets a b).max = max a.max b.max ∧ (∀ x, x ∈ (mergeSets a b).sources ↔ x ∈ a.sources ∨ x ∈ b.sources)) ∧
  (∀ r : RecRecord, (recBytes true r).length = 256 ∧ recWhole (recBytes true r) = true ∧ recWhole (recBytes false r) = false)

/-- O55, R434, R435, R437, R438, R439, R440, R442, R446, R448, R452, R453, R454. The reported code is at most 4095, never
falls as the raw code rises, and sets OVR past 4095.5 alone. A zone reaches a threshold only from it or in the fourth
round at or above it, and leaves it only in the fourth below it less h. In every state other than OFF: ADC_ROUND_END
ends the round 12 µs after its tick, 0.5 µs later per injected conversion, and takes the readings, and the codes of
the channels that no later injected conversion has read; a zone whose sensors all count has the greatest of them;
THERMAL, RATE and DIMM_HOT are as the zones and DIMMs say; a zone new in SHUTDOWN asks for SAFE; a zone in THROTTLE
puts every fan at 100 %. A conversion that waits runs in its turn once its converter is free, 0.5 µs long; else the
earliest delay expires: it runs, waits for the converter, or is latched once, a further trigger being counted. A
calibration step ends 128 µs after it began; a pair within bounds is stored, another not. A timer entry fires each
period. A fan cycle gives each fan its duty, at least 30 %, and 100 % under a hot zone; without one for 10 s, and for
the other fans when one has failed, it is 100 %. A row that is not due changes nothing but time. (Where a stored pair
lies in MRAM is log 27's.) -/
def Obligations.HealthRoundsCalibrationsAndFans : Prop :=
  (∀ (p : Int × Int) (a : Nat), p.1 < p.2 → (calibrate p a).1 ≤ 4095 ∧
    ((calibrate p a).2 = true ↔ 8191 * (p.2 - p.1) < 2 * ((16 * (a : Int) - p.1) * 4095)) ∧
    (∀ b, a ≤ b → (calibrate p a).1 ≤ (calibrate p b).1)) ∧
  (∀ (x : Int) (z : Zone) (i : Nat), i < 3 →
    ((dwell x z).reached.getD i false = true →
      z.reached.getD i false = true ∨ ((thresholds z).getD i 0 ≤ x ∧ 3 ≤ z.upRuns.getD i 0)) ∧
    (z.reached.getD i false = true → (dwell x z).reached.getD i false = false →
      x < (thresholds z).getD i 0 - z.hyst ∧ 3 ≤ z.downRuns.getD i 0)) ∧
  (∀ s : State, s.dev.state ≠ .off →
    (∀ l, s.health.converting = false → exec (.adcRoundEnd l) s = .next s) ∧
    (∀ l, s.health.converting = true → ∃ t, exec (.adcRoundEnd l) s = .next t ∧ t.health.converting = false ∧
      t.time.tb2 = max s.time.tb2 (max (roundEndAt s 0) (roundEndAt s 1)) ∧
      (∀ c, c < 24 → (sensor t c).reading = (min 4095 (l.getD c 0) : Nat) - 1024) ∧
      (∀ c, c < 48 → tabGet (0, false, 0) t.health.codes c = (if c ∈ s.health.roundNewer then tabGet (0, false, 0) s.health.codes c
        else ((convert s c (min 4095 (l.getD c 0))).1, (convert s c (min 4095 (l.getD c 0))).2, s.health.round))) ∧
      (∀ z, z < 5 → (zone t z).temp = (zoneTemp t z).1 ∧ ((∀ c ∈ zoneSensors z, included t c = true) →
        (∀ c ∈ zoneSensors z, (sensor t c).reading ≤ (zone t z).temp) ∧
        ∃ c ∈ zoneSensors z, (sensor t c).reading = (zone t z).temp)) ∧
      (.thermal ∈ t.dev.causes ↔ ∃ z, z < 5 ∧ 2 ≤ (zone t z).state) ∧
      (.rate ∈ t.dev.causes ↔ ∃ z, z < 5 ∧ (zone t z).rate = true) ∧
      (.dimmHot ∈ t.dev.causes ↔ t.health.dimmHot = true) ∧
      ((∀ z, z < 5 → (zone s z).state ≠ 3) → (∃ z, z < 5 ∧ (zone t z).state = 3) → t.dev.safeAt.isSome = true) ∧
      (hotZone t = true → ∀ f, f < 4 → (fan t f).duty = 1000)) ∧
    (∀ (e : BitVec 2), (inject s e.toNat).trigger ≠ some 0 → exec (.adcInjectTimer e) s = .next s) ∧
    (∀ (e : BitVec 2), (inject s e.toNat).trigger = some 0 → ∃ t, exec (.adcInjectTimer e) s = .next t ∧
      (inject t e.toNat).since = (inject s e.toNat).since + (inject s e.toNat).delay ∧
      (inject t e.toNat).due = insertNat (inject t e.toNat).since (inject s e.toNat).due ∧
      t.time.tb2 = max s.time.tb2 (inject t e.toNat).since) ∧
    (∀ (e : BitVec 2) raw,
      let x := inject s e.toNat
      (injectReady s e.toNat = true → ∃ t, exec (.adcInjectConversion e raw) s = .next t ∧
        (inject t e.toNat).code = (convert s x.channel raw).1 ∧
        (inject t e.toNat).gts = max s.time.tb2 (converterFree s x.channel) ∧
        (inject t e.toNat).busyUntil = (inject t e.toNat).gts + 500 ∧ (inject t e.toNat).due = x.due ∧
        (inject t e.toNat).latched = false ∧ (inject t e.toNat).waiting = (x.waiting && x.latched) ∧
        counter .injected 0 t = counter .injected 0 s + 1) ∧
      (injectReady s e.toNat = false → x.due = [] → exec (.adcInjectConversion e raw) s = .next (calBegin s)) ∧
      (∀ a l, injectReady s e.toNat = false → x.due = a :: l →
        let now := max s.time.tb2 a
        let taken := calBusy s x.channel || (sharing s x.channel).any (fun k => k ≠ e.toNat &&
          ((inject s k).waiting || (inject s k).latched || decide (now < (inject s k).busyUntil)))
        ∃ t, exec (.adcInjectConversion e raw) s = .next t ∧ (inject t e.toNat).due = l ∧
        ((x.waiting = true ∨ x.latched = true ∨ now < x.busyUntil) → (inject t e.toNat).latched = true ∧
          (inject t e.toNat).code = x.code ∧ (inject t e.toNat).waiting = x.waiting ∧
          counter .injOverrun 0 t = counter .injOverrun 0 s + bit x.latched) ∧
        (x.waiting = false → x.latched = false → x.busyUntil ≤ now →
          (taken = true → (inject t e.toNat).waiting = true ∧ (inject t e.toNat).code = x.code) ∧
          (taken = false → (inject t e.toNat).code = (convert s x.channel raw).1 ∧
            (inject t e.toNat).gts = max now (converterFree (elapseTo a s) x.channel) ∧
            counter .injected 0 t = counter .injected 0 s + 1)))) ∧
    (∀ n : Nat, (s.health.calRunning = none ∨ s.health.calStart = none) → exec (.adcCalStepDone n) s = .next s) ∧
    (∀ (n : Nat) i k q a, s.health.calRunning = some (i, k, q) → s.health.calStart = some a →
      let c := roundTe n 16
      let c0 := (tabGet none s.health.calStep0 i).getD 0
      ∃ t, exec (.adcCalStepDone n) s = .next t ∧ t.health.calRunning = none ∧ t.health.cal = s.health.cal ∧
      t.time.tb2 = max s.time.tb2 (a + 128000) ∧
      (k = 0 → tabGet none t.health.calStep0 i = some c ∧ t.boot.mram = s.boot.mram) ∧
      (k ≠ 0 → 1880 ≤ c0 → c0 ≤ 3160 → 5868112 ≤ 100 * (c - c0) → 100 * (c - c0) ≤ 6231088 →
        tabGet none t.health.calNext i = some (c0, c) ∧
        memRead t.boot.mram (calOffset i) 4 = leInt 2 c0 ++ leInt 2 c) ∧
      (k ≠ 0 → (c0 < 1880 ∨ 3160 < c0 ∨ 100 * (c - c0) < 5868112 ∨ 6231088 < 100 * (c - c0)) →
        t.health.calNext = s.health.calNext ∧ t.boot.mram = s.boot.mram)) ∧
    (s.health.fanDue = 0 → exec .fanCycle s = .next s) ∧
    (0 < s.health.fanDue → ∃ t, exec .fanCycle s = .next t ∧ t.health.fanDue + 1 = s.health.fanDue ∧
      (0x0B80, 0) ∉ t.health.alarms ∧ (∀ f, f < 4 → (fan t f).duty = cycleDuty s f ∧ 300 ≤ (fan t f).duty ∧
        (fanFull s f = true → (fan t f).duty = 1000))) ∧
    (∃ t, exec .fanLoopIdle s = .next t ∧ (0x0B80, 0) ∈ t.health.alarms ∧
      t.time.tb2 = max s.time.tb2 (s.health.lastFan.getD (s.time.tb2 - s.time.tb3) + 10000000000) ∧
      ∀ f, f < 4 → (fan t f).duty = 1000) ∧
    (∀ f : BitVec 2, (fan s f.toNat).lowSince = none → exec (.fanFail f) s = .next s) ∧
    (∀ (f : BitVec 2) a, (fan s f.toNat).lowSince = some a →
      ((fanSlow (elapseTo (a + 3000000000) s) f.toNat = false ∨ (fan s f.toNat).fail = true) →
        exec (.fanFail f) s = .next (elapseTo (a + 3000000000) s)) ∧
      (fanSlow (elapseTo (a + 3000000000) s) f.toNat = true → (fan s f.toNat).fail = false →
        ∃ t, exec (.fanFail f) s = .next t ∧ (fan t f.toNat).fail = true ∧ (0x0B03, f.toNat) ∈ t.health.alarms ∧
        ∀ g, g < 4 → g ≠ f.toNat → (fan t g).duty = 1000)))

/-- O56, R423, R424, R425, R426, R427, R430, R431. Of two twins that have heard each other's last epoch and role, with
opposite home roles and the same path for the LEAD claims, exactly one holds priority. In every state other than OFF:
TAKEOVER makes a paired follower the lead after K frames without a LEAD heartbeat if it is the home lead or they were
silent, while READY or observing; its epoch then exceeds its own and the last one heard; else nothing changes.
TAKEOVER_COMPLETE takes the duties up, from the newest checkpoint if there is one, and the first tick 5 ms after the
takeover began does so where none has. YIELD ends the lead of a twin without priority after K frames of its partner's
claim. A withdrawal ends the lead and its duties. HANDOVER, RECLAIM and RECLAIM_ACK name the tick at which the roles
change, and at that tick, and not before, a follower acquires the lead with its duties and a lead stops. -/
def Obligations.TwinRolesChangeHands : Prop :=
  (∀ s t : State, s.twin.homeLead = !t.twin.homeLead → s.twin.leadRunLink = t.twin.leadRunLink →
    s.twin.heardEpoch = t.twin.epoch → t.twin.heardEpoch = s.twin.epoch →
    testBit s.twin.partnerRole.toNat 2 = t.twin.acqSilent → testBit t.twin.partnerRole.toNat 2 = s.twin.acqSilent →
    priority s = !priority t) ∧
  (∀ s : State, s.dev.state ≠ .off → let w := s.twin
    (w.paired = true → w.lead = false → w.k ≤ w.noLeadRun → (w.homeLead = true ∨ w.k ≤ w.silentRun) →
      (s.dev.state = .ready ∨ observing s = true) → ∃ t, exec .takeover s = .next t ∧ t.twin.lead = true ∧
      w.epoch < t.twin.epoch ∧ w.heardEpoch < t.twin.epoch ∧ t.twin.epoch = max w.epoch w.heardEpoch + 1 ∧
      t.twin.acqSilent = decide (w.k ≤ w.silentRun) ∧ t.twin.takeoverAt = some s.time.frame ∧
      t.twin.duties = w.duties) ∧
    ((w.paired = false ∨ w.lead = true ∨ w.noLeadRun < w.k ∨ (w.homeLead = false ∧ w.silentRun < w.k) ∨
      (s.dev.state ≠ .ready ∧ observing s = false)) →
      exec .takeover s = .next s) ∧
    (w.takeoverAt = none → exec .takeoverComplete s = .next s) ∧
    (∀ n, w.takeoverAt = some n → ∃ t, exec .takeoverComplete s = .next t ∧ t.twin.duties = true ∧
      t.twin.takeoverAt = none ∧ t.twin.epoch = w.epoch ∧
      counter .takeovers 0 t = counter .takeovers 0 s + 1 ∧
      (∀ f l, newestCheckpoint s = some (f, l) → t.compass.relay = Config.checkpointRelay l) ∧
      (newestCheckpoint s = none → t.compass.relay = s.compass.relay ∧ t.lanes.control = [] ∧
        counter .checkpointMissing 0 t = counter .checkpointMissing 0 s + 1)) ∧
    (∀ n, w.takeoverAt = some n → (5000000 ≤ (s.time.frame - n) * periodNs s →
        exec .takeoverComplete s = .next (boundTakeover s)) ∧
      ((s.time.frame - n) * periodNs s < 5000000 → boundTakeover s = s)) ∧
    (w.paired = true → w.lead = true → w.k ≤ w.leadRun → priority s = false → ∃ t, exec .yieldLead s = .next t ∧
      t.twin.lead = false ∧ t.twin.duties = false ∧ counter .yields 0 t = counter .yields 0 s + 1) ∧
    ((w.paired = false ∨ w.lead = false ∨ w.leadRun < w.k ∨ priority s = true) → exec .yieldLead s = .next s) ∧
    (w.paired = true → w.lead = true → ∃ t, exec .ridgeHeartbeatWithdraw s = .next t ∧ t.twin.lead = false ∧
      t.twin.duties = false ∧ t.twin.armed = false ∧ t.twin.epoch = w.epoch) ∧
    ((w.paired = false ∨ w.lead = false) → exec .ridgeHeartbeatWithdraw s = .next s ∧
      (∀ m, exec (.reclaim m) s = .next s)) ∧
    ((w.paired = false ∨ w.lead = true) → ∀ m, exec (.handover m) s = .next s ∧ exec (.reclaimAck m) s = .next s) ∧
    (∀ m, w.paired = true → w.lead = false → exec (.handover m) s = .next { s with
        twin.handoverAt := some m.handoverFrame.toNat, twin.heardEpoch := m.epoch.toNat } ∧
      (w.reclaimAt = some m.handoverFrame.toNat → exec (.reclaimAck m) s = .next { s with
        twin.reclaimAcked := true, twin.heardEpoch := m.epoch.toNat }) ∧
      (w.reclaimAt ≠ some m.handoverFrame.toNat → exec (.reclaimAck m) s = .next s)) ∧
    (∀ m, w.paired = true → w.lead = true → ∃ t, exec (.reclaim m) s = .next t ∧
      t.twin.reclaimAt = some m.handoverFrame.toNat ∧ t.twin.lead = true ∧
      (5, twinMessage (sendCheckpoint s) 0 m.handoverFrame.toNat []) ∈ t.twin.sent) ∧
    ((∀ h, w.handoverAt = some h → s.time.frame < h) → (∀ h, w.reclaimAt = some h → s.time.frame < h) →
      namedRoles s = s) ∧
    (∀ h, w.handoverAt = some h → h ≤ s.time.frame → w.reclaimAt = none →
      counter .handovers 0 (namedRoles s) = counter .handovers 0 s + 1 ∧ (namedRoles s).twin.duties = (namedRoles s).twin.lead ∧
      (namedRoles s).twin.lead = !w.lead ∧ (w.lead = false → w.epoch < (namedRoles s).twin.epoch)) ∧
    (∀ h, w.reclaimAt = some h → h ≤ s.time.frame → w.handoverAt = none →
      (namedRoles s).twin.lead = (!w.lead && w.reclaimAcked)))

/-- O57, R420, R421, R422, R429, R432. The pieces of a checkpoint that a twin sends join to a whole checkpoint of at most
65536 bytes. In every state other than OFF, for a paired twin: an accepted HB_IN edge belongs to the window of this
frame or of the next, is LEAD by its phase, and a second one in a window is counted; an edge refused counts only in
the filter. A HEARTBEAT on a quad that the Tether enables, of this frame or of the next, is heard for it with its
claim; its role, epoch, identity and digest are taken. A follower's toggle turns HB_OUT at mid-frame. A path that
missed K frames while the other heard K is down, with an alarm; an accepted edge measures the skew by its distance
from its nominal place; a skew beyond T/8 for K frames sets SKEW with an alarm, and goes with the first frame whose
skew is not beyond; a digest that differed for K frames raises its alarm. A follower keeps a whole checkpoint in SRAM
and in MRAM and counts a bad piece, pieces that another checkpoint displaces, and eight that do not join to a whole
one; none for 3 s is stale. Unpaired, nothing changes. -/
def Obligations.TwinHeartbeatsAndCheckpoints : Prop :=
  (∀ s : State, wholeCheckpoint (pieces 8 (checkpointBytes s)).flatten = true ∧
    (pieces 8 (checkpointBytes s)).flatten = checkpointBytes s ∧ (checkpointBytes s).length ≤ 65536) ∧
  (∀ s : State, s.dev.state ≠ .off → let w := s.twin
    (∀ x, ((filterEdge 8 x s).1 = false ∨ w.paired = false) → exec (.hbInEdge x) s = .next (filterEdge 8 x s).2) ∧
    (∀ x, (filterEdge 8 x s).1 = true → w.paired = true → ∃ t, exec (.hbInEdge x) s = .next t ∧
      t.twin.skew = (edgePhase s : Int) -
        (if 2 * edgePhase s < periodNs s then ((periodNs s / 4 : Nat) : Int) else ((3 * periodNs s / 4 : Nat) : Int)) ∧
      (edgeNext s = true → t.twin.pinNext = (w.pinNext.1 + 1, decide (2 * edgePhase s < periodNs s)) ∧
        t.twin.nextSkew = t.twin.skew ∧ t.twin.pinSkew = w.pinSkew ∧ t.twin.pinEdges = w.pinEdges ∧
        counter .hbDouble 0 t = counter .hbDouble 0 s + bit (decide (1 ≤ w.pinNext.1))) ∧
      (edgeNext s = false → t.twin.pinEdges = w.pinEdges + 1 ∧ t.twin.pinLead = decide (2 * edgePhase s < periodNs s) ∧
        t.twin.pinSkew = t.twin.skew ∧ t.twin.pinNext = w.pinNext ∧
        counter .hbDouble 0 t = counter .hbDouble 0 s + bit (decide (1 ≤ w.pinEdges)))) ∧
    (w.paired = false → (∀ m, exec (.heartbeat m) s = .next s ∧ exec (.checkpoint m) s = .next s) ∧
      exec .followerHeartbeatToggle s = .next s ∧ (∀ b, exec (.hbPathDown b) s = .next s) ∧
      exec .twinSkew s = .next s ∧ exec .configMismatch s = .next s ∧ exec .checkpointStale s = .next s) ∧
    (∀ m, w.quad.all (quadEnabled s) = false → exec (.heartbeat m) s = .next s) ∧
    (∀ m, w.paired = true → w.quad.all (quadEnabled s) = true → ∃ t, exec (.heartbeat m) s = .next t ∧
      (m.frame.toNat = s.time.frame → t.twin.linkHeard = true ∧ t.twin.linkLead = testBit m.role.toNat 0) ∧
      (m.frame.toNat = s.time.frame + 1 → t.twin.linkNext = (true, testBit m.role.toNat 0)) ∧
      (m.frame.toNat ≠ s.time.frame → t.twin.linkHeard = w.linkHeard ∧ t.twin.linkLead = w.linkLead) ∧
      (m.frame.toNat ≠ s.time.frame + 1 → t.twin.linkNext = w.linkNext) ∧
      t.twin.partnerRole = m.role ∧ t.twin.heardEpoch = m.epoch.toNat ∧
      t.twin.partner = m.identity ∧ t.twin.partnerDigest = m.digest ∧
      t.twin.digestRun = if m.digest = digest s then 0 else w.digestRun + 1) ∧
    (w.paired = true → w.armed = true → w.claiming = false → ∃ t, exec .followerHeartbeatToggle s = .next t ∧
      t.twin.hbOut = !w.hbOut ∧ t.time.tb0 = max s.time.tb0 (tickTime s s.time.frame + periodNs s / 2)) ∧
    ((w.armed = false ∨ w.claiming = true) → exec .followerHeartbeatToggle s = .next s) ∧
    ((w.pinMissed < w.k ∨ w.linkHeardRun < w.k ∨ w.pinDown = true) → exec (.hbPathDown false) s = .next s) ∧
    ((w.linkMissed < w.k ∨ w.pinHeardRun < w.k ∨ w.linkDown = true) → exec (.hbPathDown true) s = .next s) ∧
    (w.paired = true → w.k ≤ w.pinMissed → w.k ≤ w.linkHeardRun → w.pinDown = false → ∃ t,
      exec (.hbPathDown false) s = .next t ∧ t.twin.pinDown = true ∧ t.twin.linkDown = w.linkDown ∧
      (0x0D02, 0) ∈ t.health.alarms) ∧
    (w.paired = true → w.k ≤ w.linkMissed → w.k ≤ w.pinHeardRun → w.linkDown = false → ∃ t,
      exec (.hbPathDown true) s = .next t ∧ t.twin.linkDown = true ∧ t.twin.pinDown = w.pinDown ∧
      (0x0D02, 1) ∈ t.health.alarms) ∧
    (w.paired = true → w.k ≤ w.skewRun → w.skewed = false → ∃ t, exec .twinSkew s = .next t ∧ t.twin.skewed = true ∧
      (0x0D80, 0) ∈ t.health.alarms ∧ t.twin.skew = w.skew) ∧
    ((w.skewRun < w.k ∨ w.skewed = true) → exec .twinSkew s = .next s) ∧
    ((skewFar s = true ↔ w.pinEdges = 1 ∧ periodNs s < 8 * w.pinSkew.natAbs) ∧
      (judgeSkew s).twin.skewRun = (if skewFar s then w.skewRun + 1 else 0) ∧
      (judgeSkew s).twin.skewed = (w.skewed && !(decide (w.pinEdges = 1) && !skewFar s)) ∧
      (w.skewed = true → w.pinEdges = 1 → 8 * w.pinSkew.natAbs ≤ periodNs s → (0x0D80, 0) ∉ (judgeSkew s).health.alarms)) ∧
    (w.paired = true → w.k ≤ w.digestRun → ∃ t, exec .configMismatch s = .next t ∧ (0x0D03, 0) ∈ t.health.alarms) ∧
    (w.digestRun < w.k → exec .configMismatch s = .next s) ∧
    (w.paired = true → w.lead = false → ∃ t, exec .checkpointStale s = .next t ∧ t.twin.stale = true ∧
      t.time.tb2 = max s.time.tb2 (w.ckptTime + 3000000000)) ∧
    (∀ m, w.paired = true → w.lead = false → (8 ≤ m.piece.toNat ∨ 8192 < m.body.length) →
      exec (.checkpoint m) s = .next (count .checkpointErrors 0 s)) ∧
    (w.lead = true → (∀ m, exec (.checkpoint m) s = .next s) ∧ exec .checkpointStale s = .next s) ∧
    (∀ m, w.paired = true → w.lead = false → m.piece.toNat < 8 → m.body.length ≤ 8192 →
      let anew := decide (m.frame.toNat ≠ w.pieceFrame)
      let l := tabSet [] (if anew then [] else w.pieces) m.piece.toNat m.body
      let lost := bit (anew && !w.pieces.isEmpty)
      let whole := contiguous l && wholeCheckpoint (joined l)
      ∃ t, exec (.checkpoint m) s = .next t ∧
      (whole = true → t.twin.ckpt = some (m.frame.toNat, joined l) ∧ t.twin.stale = false ∧ t.twin.pieces = [] ∧
        memRead t.boot.mram (ckptBase w.ckptSlot) (joined l).length = joined l ∧ t.twin.ckptSlot = !w.ckptSlot ∧
        slotCheckpoint t w.ckptSlot = some (m.frame.toNat, joined l) ∧
        counter .checkpointsReceived 0 t = counter .checkpointsReceived 0 s + 1) ∧
      (whole = false → t.twin.ckpt = w.ckpt ∧ t.boot.mram = s.boot.mram ∧
        t.twin.pieces = (if l.length = 8 then [] else l) ∧
        counter .checkpointErrors 0 t = counter .checkpointErrors 0 s + lost + bit (l.length = 8))))

/-- O58, spec/95_what_each_step_holds.md, spec/14_dram_controller.md R339, spec/18_startup_and_trust.md Table 18.2. For
all states s and t: if the lists of host memory, DRAM, MRAM and the pitch shared memories, and the tables of host
rings and of tile owners, are in the canonical form (keys strictly rising, no entry equal to what an unlisted key
reads as) and a step of s answers t, they are in it in t. So equal memories are equal data in every state a run
reaches, and O17 and O30 may assume the form of the two tables. -/
def Obligations.MemoriesStayCanonical : Prop :=
  ∀ s t : State,
    (memWf s.host.mem && memWf s.dram.mem && memWf s.boot.mram && memWf s.peg.shared &&
      tabWf none s.out.rings && tabWf none s.clasp.owners) = true → step s = .next t →
    (memWf t.host.mem && memWf t.dram.mem && memWf t.boot.mram && memWf t.peg.shared &&
      tabWf none t.out.rings && tabWf none t.clasp.owners) = true

/-- O59, R11, R298, R315, R419, spec/01_architecture.md Tables 1.4, 1.5, spec/15_host_interface.md Tables 15.2 to 15.10.
At reset the part enters BOOT with no command waiting: TB0 and TB3 are 0, frames count from 0 at T = 1 ms, the Tether
is unlocked, the mailbox slots are free, no interrupt cause is set or enabled, the event ring is disabled and empty,
the part is UNPAIRED with K = 10 and H = 5000, sources have the tolerances and Q of R298, no transaction is open, no
schedule runs, every memory lists nothing and so is in its canonical form. (That the reset state is the entry to BOOT,
and that MRAM lists nothing, are the model's choices, logs 3 and 7.) -/
def Obligations.ResetHoldsItsValues : Prop :=
  State.reset.pending = [] ∧ State.reset.dev.state = .boot ∧ State.reset.time.tb0 = 0 ∧ State.reset.time.tb3 = 0 ∧
  State.reset.time.frame = 0 ∧ periodNs State.reset = 1000000 ∧ State.reset.tether.lock = false ∧
  (∀ k, k < 8 → (slot State.reset k).state = .free) ∧ State.reset.host.intCause = 0 ∧ State.reset.host.intMask = 0 ∧
  State.reset.evr.enable = false ∧ State.reset.evr.held = [] ∧ State.reset.evr.lost = 0 ∧
  State.reset.twin.paired = false ∧ State.reset.twin.k = 10 ∧ State.reset.twin.h = 5000 ∧
  (source State.reset 0).tolerance = 1000 ∧ (source State.reset 1).tolerance = 1000 ∧
  (∀ x ∈ [2, 3, 4, 5], (source State.reset x).tolerance = 100000) ∧ (source State.reset 6).tolerance = 1000000 ∧
  (∀ x, x < 7 → (source State.reset x).q = 10 ∧ (source State.reset x).qualified = false) ∧
  pendingId State.reset = none ∧ openId State.reset = none ∧ State.reset.sched.running = none ∧
  State.reset.host.mem = [] ∧ State.reset.dram.mem = [] ∧ State.reset.boot.mram = [] ∧ State.reset.peg.shared = [] ∧
  State.reset.out.rings = [] ∧ State.reset.clasp.owners = [] ∧
  memWf State.reset.host.mem = true ∧ memWf State.reset.dram.mem = true ∧ memWf State.reset.boot.mram = true

/-- O60, R19, R305, R311, R312, R313, R321, R374, spec/16_kenra_commands.md Tables 16.6 to 16.11. What the effect of a
Kenra setting sets is the value at its place in the argument, and its range check passes exactly the values of its
rule: the ingest window of at most 16 frames, the PLL bandwidth of 14 choices, the TB0 value loaded at the next
second, a slew of up to 1 s at 0.1 to 10 ns/s, the PTP quad and domain, a trigger that is disarmed, a DRAM speed cap,
an event test with a listed code. SYS.SAFE asks for SAFE; TEST.ECHO returns its argument; a status row with CLEAR set
clears the counters of its table and one without leaves them. -/
def Obligations.SettingsTakeTheirValues : Prop :=
  ∀ (q : Request) (s : State),
    ((specIngestConfig.act q s).ingest.window = u16 q.arg 0 ∧ (specIngestConfig.range s q.arg = none ↔ u16 q.arg 0 ≤ 16)) ∧
    ((specTimePllConfig.act q s).compass.bandwidth = u8 q.arg 0 ∧ (specTimePllConfig.range s q.arg = none ↔ u8 q.arg 0 ≤ 13)) ∧
    (specTimeSet.act q s).time.tb0Load = some (u64 q.arg 0) ∧
    ((specTimeAdjust.act q s).time.slewLeft = 10 * s64 q.arg 0 ∧ (specTimeAdjust.act q s).time.slewRate = u32 q.arg 8 ∧
      (specTimeAdjust.range s q.arg = none ↔
        (s64 q.arg 0).natAbs ≤ 1000000000 ∧ 1 ≤ u32 q.arg 8 ∧ u32 q.arg 8 ≤ 100)) ∧
    ((specPtpConfig.act q s).compass.ptpDomain = u8 q.arg 1 ∧
      (specPtpConfig.act q s).compass.ptpQuad = (if u8 q.arg 0 = 0xFF then none else some (u8 q.arg 0))) ∧
    (trigger (specTimeTrigCancel.act q s) (u8 q.arg 0) = none ∧
      (specTimeTrigCancel.range s q.arg = none ↔ u8 q.arg 0 ≤ 15)) ∧
    (specDramConfig.act q s).dram.speedCap = (if u8 q.arg 0 = 0xFF then none else some (u8 q.arg 0)) ∧
    (specTestEvent.range s q.arg = none ↔ (eventInfo (u16 q.arg 0)).isSome = true) ∧
    (specSysSafe.act q s).dev.safeAt.isSome = true ∧
    specTestEcho.result s q = q.arg ∧
    (∀ c ∈ twinCtrs, counter c 0 (specTwinStatus.act q s) = if statusClear q.arg then 0 else counter c 0 s) ∧
    (∀ c ∈ recCtrs, counter c 0 (specRecStatus.act q s) = if statusClear q.arg then 0 else counter c 0 s) ∧
    ((specTwinConfig.act q s).twin.k = cellOr q.arg 0 3 s.twin.k ∧ (specTwinConfig.act q s).twin.h = cellOr q.arg 0 5 s.twin.h)
end

