-- ==== Sys2Proof/Laws/KeepShared.lean ====
section
/-! SUPPORT. What no command changes: the queue of waiting commands and, but for the writers of the Tether window and the loss of
power, the Tether. One lemma per operation of the shared operations, DRAM, the store, DMA, records, the Clasp, the
arrays and the beams. -/

namespace Sys2Proof.Laws
open Sys2Proof.Machine

set_option linter.unusedTactic false
set_option linter.unreachableTactic false
set_option linter.unusedSimpArgs false
set_option linter.unnecessarySeqFocus false

@[simp] theorem ite_pending (c : Prop) [Decidable c] (a b : State) :
    (if c then a else b).pending = if c then a.pending else b.pending := apply_ite ..
@[simp] theorem ite_tether (c : Prop) [Decidable c] (a b : State) :
    (if c then a else b).tether = if c then a.tether else b.tether := apply_ite ..
@[simp] theorem foldl_pending {α : Type} (f : State → α → State) (h : ∀ s x, (f s x).pending = s.pending) (l : List α)
    (s : State) : (l.foldl f s).pending = s.pending := by
  induction l generalizing s with
  | nil => rfl
  | cons x t ih => simp [List.foldl_cons, ih, h]
@[simp] theorem foldl_tether {α : Type} (f : State → α → State) (h : ∀ s x, (f s x).tether = s.tether) (l : List α)
    (s : State) : (l.foldl f s).tether = s.tether := by
  induction l generalizing s with
  | nil => rfl
  | cons x t ih => simp [List.foldl_cons, ih, h]

/-! Ops. -/

@[simp] theorem draw_keeps (s : State) :
    ((draw s).2).pending = s.pending ∧ ((draw s).2).tether = s.tether := by simp [draw]
@[simp] theorem freeBytes_keeps (a0) (s : State) :
    ((freeBytes a0 s).2).pending = s.pending ∧ ((freeBytes a0 s).2).tether = s.tether := by
  induction a0 generalizing s with
  | zero => exact ⟨rfl, rfl⟩
  | succ n ih => simp [freeBytes, ih]
@[simp] theorem countN_keeps (c) (inst) (n) (s : State) :
    (countN c inst n s).pending = s.pending ∧ (countN c inst n s).tether = s.tether := by simp [countN]
@[simp] theorem count_keeps (c) (inst) (s : State) :
    (count c inst s).pending = s.pending ∧ (count c inst s).tether = s.tether := by simp [count]
@[simp] theorem clearCtr_keeps (c) (inst) (s : State) :
    (clearCtr c inst s).pending = s.pending ∧ (clearCtr c inst s).tether = s.tether := by simp [clearCtr]
@[simp] theorem clearCtrs_keeps (cs) (inst) (s : State) :
    (clearCtrs cs inst s).pending = s.pending ∧ (clearCtrs cs inst s).tether = s.tether := by simp [clearCtrs]
@[simp] theorem modQuad_keeps (k) (f) (s : State) :
    (modQuad k f s).pending = s.pending ∧ (modQuad k f s).tether = s.tether := by simp [modQuad]
@[simp] theorem modLane_keeps (k) (f) (s : State) :
    (modLane k f s).pending = s.pending ∧ (modLane k f s).tether = s.tether := by simp [modLane]
@[simp] theorem modStream_keeps (k) (f) (s : State) :
    (modStream k f s).pending = s.pending ∧ (modStream k f s).tether = s.tether := by simp [modStream]
@[simp] theorem modDelay_keeps (k) (f) (s : State) :
    (modDelay k f s).pending = s.pending ∧ (modDelay k f s).tether = s.tether := by simp [modDelay]
@[simp] theorem modSlice_keeps (k) (f) (s : State) :
    (modSlice k f s).pending = s.pending ∧ (modSlice k f s).tether = s.tether := by simp [modSlice]
@[simp] theorem modUnit_keeps (k) (f) (s : State) :
    (modUnit k f s).pending = s.pending ∧ (modUnit k f s).tether = s.tether := by simp [modUnit]
@[simp] theorem modArray_keeps (k) (f) (s : State) :
    (modArray k f s).pending = s.pending ∧ (modArray k f s).tether = s.tether := by simp [modArray]
@[simp] theorem modEngine_keeps (k) (f) (s : State) :
    (modEngine k f s).pending = s.pending ∧ (modEngine k f s).tether = s.tether := by simp [modEngine]
@[simp] theorem modEgress_keeps (k) (f) (s : State) :
    (modEgress k f s).pending = s.pending ∧ (modEgress k f s).tether = s.tether := by simp [modEgress]
@[simp] theorem setRingRead_keeps (k) (v) (s : State) :
    (setRingRead k v s).pending = s.pending ∧ (setRingRead k v s).tether = s.tether := by
  unfold setRingRead; try dsimp only
  first | (simp; done) | ((repeat' split) <;> simp)
@[simp] theorem modPeg_keeps (k) (f) (s : State) :
    (modPeg k f s).pending = s.pending ∧ (modPeg k f s).tether = s.tether := by simp [modPeg]
@[simp] theorem modDram_keeps (k) (f) (s : State) :
    (modDram k f s).pending = s.pending ∧ (modDram k f s).tether = s.tether := by simp [modDram]
@[simp] theorem modSlot_keeps (k) (f) (s : State) :
    (modSlot k f s).pending = s.pending ∧ (modSlot k f s).tether = s.tether := by simp [modSlot]
@[simp] theorem modDma_keeps (k) (f) (s : State) :
    (modDma k f s).pending = s.pending ∧ (modDma k f s).tether = s.tether := by simp [modDma]
@[simp] theorem modPort_keeps (k) (f) (s : State) :
    (modPort k f s).pending = s.pending ∧ (modPort k f s).tether = s.tether := by simp [modPort]
@[simp] theorem modZone_keeps (k) (f) (s : State) :
    (modZone k f s).pending = s.pending ∧ (modZone k f s).tether = s.tether := by simp [modZone]
@[simp] theorem modSensor_keeps (k) (f) (s : State) :
    (modSensor k f s).pending = s.pending ∧ (modSensor k f s).tether = s.tether := by simp [modSensor]
@[simp] theorem modInject_keeps (k) (f) (s : State) :
    (modInject k f s).pending = s.pending ∧ (modInject k f s).tether = s.tether := by simp [modInject]
@[simp] theorem modFan_keeps (k) (f) (s : State) :
    (modFan k f s).pending = s.pending ∧ (modFan k f s).tether = s.tether := by simp [modFan]
@[simp] theorem modSource_keeps (k) (f) (s : State) :
    (modSource k f s).pending = s.pending ∧ (modSource k f s).tether = s.tether := by simp [modSource]
@[simp] theorem modOut_keeps (k) (f) (s : State) :
    (modOut k f s).pending = s.pending ∧ (modOut k f s).tether = s.tether := by simp [modOut]
@[simp] theorem setTrigger_keeps (k) (a1) (s : State) :
    (setTrigger k a1 s).pending = s.pending ∧ (setTrigger k a1 s).tether = s.tether := by simp [setTrigger]
@[simp] theorem modCause_keeps (c) (f) (s : State) :
    (modCause c f s).pending = s.pending ∧ (modCause c f s).tether = s.tether := by simp [modCause]
@[simp] theorem modPin_keeps (k) (f) (s : State) :
    (modPin k f s).pending = s.pending ∧ (modPin k f s).tether = s.tether := by simp [modPin]
@[simp] theorem elapse_keeps (n) (s : State) :
    (elapse n s).pending = s.pending ∧ (elapse n s).tether = s.tether := by simp [elapse]
@[simp] theorem elapseTo_keeps (a0) (s : State) :
    (elapseTo a0 s).pending = s.pending ∧ (elapseTo a0 s).tether = s.tether := by simp [elapseTo]
@[simp] theorem sendMessage_keeps (c) (s : State) :
    (sendMessage c s).pending = s.pending ∧ (sendMessage c s).tether = s.tether := by simp [sendMessage]
@[simp] theorem interrupt_keeps (c) (s : State) :
    (interrupt c s).pending = s.pending ∧ (interrupt c s).tether = s.tether := by simp [interrupt]
@[simp] theorem raiseEvent_keeps (gts) (code) (src) (alarm) (completion) (m) (payload) (s : State) :
    (raiseEvent gts code src alarm completion m payload s).pending = s.pending ∧ (raiseEvent gts code src alarm completion m payload s).tether = s.tether := by simp [raiseEvent]
@[simp] theorem raise_keeps (code) (src) (m) (rest) (s : State) :
    (raise code src m rest s).pending = s.pending ∧ (raise code src m rest s).tether = s.tether := by simp [raise]
@[simp] theorem raiseOpen_keeps (alarm) (high) (src) (m) (rest) (s : State) :
    (raiseOpen alarm high src m rest s).pending = s.pending ∧ (raiseOpen alarm high src m rest s).tether = s.tether := by
  unfold raiseOpen; try dsimp only
  first | (simp; done) | ((repeat' split) <;> simp)
@[simp] theorem complete_keeps (code) (src) (op) (q) (txn) (st) (bytes) (detail) (extra) (s : State) :
    (complete code src op q txn st bytes detail extra s).pending = s.pending ∧ (complete code src op q txn st bytes detail extra s).tether = s.tether := by simp [complete]
@[simp] theorem respond_keeps (op) (q) (st) (detail) (txn) (result) (s : State) :
    (respond op q st detail txn result s).pending = s.pending ∧ (respond op q st detail txn result s).tether = s.tether := by simp [respond]
@[simp] theorem settle_keeps (c) (q) (s : State) :
    (settle c q s).pending = s.pending ∧ (settle c q s).tether = s.tether := by simp [settle]
@[simp] theorem finish_keeps (c) (op) (q) (st) (bytes) (detail) (extra) (s : State) :
    (finish c op q st bytes detail extra s).pending = s.pending ∧ (finish c op q st bytes detail extra s).tether = s.tether := by simp [finish]
@[simp] theorem portGrant_keeps (p) (g) (r) (s : State) :
    (portGrant p g r s).pending = s.pending ∧ (portGrant p g r s).tether = s.tether := by
  unfold portGrant; try dsimp only
  first | (simp; done) | ((repeat' split) <;> simp)
@[simp] theorem portRunWith_keeps (f) (now) (p) (a3) (s : State)
    (hf : ∀ r s, (f r s).pending = s.pending ∧ (f r s).tether = s.tether) :
    (portRunWith f now p a3 s).pending = s.pending ∧ (portRunWith f now p a3 s).tether = s.tether := by
  induction a3 generalizing s with
  | zero => exact ⟨rfl, rfl⟩
  | succ n ih => unfold portRunWith; (repeat' split) <;> simp [ih, hf]
@[simp] theorem portFail_keeps (p) (s : State) :
    (portFail p s).pending = s.pending ∧ (portFail p s).tether = s.tether := by
  unfold portFail; try dsimp only
  first | (simp; done) | ((repeat' split) <;> simp)
@[simp] theorem setState_keeps (new) (cause) (s : State) :
    (setState new cause s).pending = s.pending ∧ (setState new cause s).tether = s.tether := by simp [setState]
theorem whenOn_keeps (a0) (s : State)
    (h0 : ∀ s, (a0 s).pending = s.pending ∧ (a0 s).tether = s.tether) (t : State) (h : whenOn a0 s = .next t) :
    t.pending = s.pending ∧ t.tether = s.tether := by
  unfold whenOn at h; injection h with h; subst h; split <;> simp [*]
@[simp] theorem setAlarm_keeps (code) (inst) (on) (s : State) :
    (setAlarm code inst on s).pending = s.pending ∧ (setAlarm code inst on s).tether = s.tether := by simp [setAlarm]
@[simp] theorem setCause_keeps (c) (on) (s : State) :
    (setCause c on s).pending = s.pending ∧ (setCause c on s).tether = s.tether := by simp [setCause]
@[simp] theorem noteAbandon_keeps (kind) (insts) (n) (s : State) :
    (noteAbandon kind insts n s).pending = s.pending ∧ (noteAbandon kind insts n s).tether = s.tether := by
  unfold noteAbandon; try dsimp only
  first | (simp; done) | ((repeat' split) <;> simp)
@[simp] theorem checkStorms_keeps (s : State) :
    (checkStorms s).pending = s.pending ∧ (checkStorms s).tether = s.tether := by
  unfold checkStorms; try dsimp only
  first | (simp; done) | ((repeat' split) <;> simp)
@[simp] theorem expireTxn_keeps (s : State) :
    (expireTxn s).pending = s.pending ∧ (expireTxn s).tether = s.tether := by unfold expireTxn; (repeat' split) <;> simp
@[simp] theorem rejectCommit_keeps (st) (detail) (s : State) :
    (rejectCommit st detail s).pending = s.pending ∧ (rejectCommit st detail s).tether = s.tether := by unfold rejectCommit; (repeat' split) <;> simp
@[simp] theorem callSafe_keeps (cause) (s : State) :
    (callSafe cause s).pending = s.pending ∧ (callSafe cause s).tether = s.tether := by simp [callSafe]
@[simp] theorem endTxnForState_keeps (s : State) :
    (endTxnForState s).pending = s.pending ∧ (endTxnForState s).tether = s.tether := by simp [endTxnForState]

/-! DramCore. -/

@[simp] theorem pageAccess_keeps (ch) (bank) (row) (s : State) :
    (pageAccess ch bank row s).pending = s.pending ∧ (pageAccess ch bank row s).tether = s.tether := by simp [pageAccess]
@[simp] theorem bankAccess_keeps (ch) (loc) (s : State) :
    (bankAccess ch loc s).pending = s.pending ∧ (bankAccess ch loc s).tether = s.tether := by simp [bankAccess]
@[simp] theorem countUes_keeps (n) (ch) (addr) (s : State) :
    (countUes n ch addr s).pending = s.pending ∧ (countUes n ch addr s).tether = s.tether := by
  unfold countUes; try dsimp only
  first | (simp; done) | ((repeat' split) <;> simp)
@[simp] theorem countUe_keeps (ch) (addr) (s : State) :
    (countUe ch addr s).pending = s.pending ∧ (countUe ch addr s).tether = s.tether := by simp [countUe]
@[simp] theorem countCe_keeps (ch) (dev) (s : State) :
    (countCe ch dev s).pending = s.pending ∧ (countCe ch dev s).tether = s.tether := by simp [countCe]
@[simp] theorem issueWrite_keeps (addr) (bytes) (s : State) :
    (issueWrite addr bytes s).pending = s.pending ∧ (issueWrite addr bytes s).tether = s.tether := by unfold issueWrite; (repeat' split) <;> simp
@[simp] theorem readBurst_keeps (addr) (devices) (s : State) :
    (readBurst addr devices s).2.pending = s.pending ∧ (readBurst addr devices s).2.tether = s.tether := by
  unfold readBurst; try dsimp only
  first | (simp; done) | ((repeat' split) <;> simp)
@[simp] theorem issueReq_keeps (r) (s : State) :
    (issueReq r s).pending = s.pending ∧ (issueReq r s).tether = s.tether := by
  unfold issueReq; try dsimp only
  first | (simp; done) | ((repeat' split) <;> simp)
@[simp] theorem takeReq_keeps (r) (s : State) :
    (takeReq r s).pending = s.pending ∧ (takeReq r s).tether = s.tether := by
  unfold takeReq; try dsimp only
  first | (simp; done) | ((repeat' split) <;> simp)
@[simp] theorem serveN_keeps (a0) (a1) (s : State) :
    (serveN a0 a1 s).pending = s.pending ∧ (serveN a0 a1 s).tether = s.tether := by
  induction a0 generalizing s with
  | zero => exact ⟨rfl, rfl⟩
  | succ n ih => unfold serveN; split <;> simp [ih]
@[simp] theorem serveFirst_keeps (c) (on) (s : State) :
    (serveFirst c on s).pending = s.pending ∧ (serveFirst c on s).tether = s.tether := by
  unfold serveFirst; try dsimp only
  first | (simp; done) | ((repeat' split) <;> simp)
@[simp] theorem drainBurst_keeps (addr) (s : State) :
    (drainBurst addr s).pending = s.pending ∧ (drainBurst addr s).tether = s.tether := by
  unfold drainBurst; try dsimp only
  first | (simp; done) | ((repeat' split) <;> simp)
@[simp] theorem fetchBurst_keeps (cls) (addr) (devices) (s : State) :
    (fetchBurst cls addr devices s).2.pending = s.pending ∧ (fetchBurst cls addr devices s).2.tether = s.tether := by
  unfold fetchBurst; try dsimp only
  first | (simp; done) | ((repeat' split) <;> simp)
@[simp] theorem fetchBursts_keeps (cls) (a1) (s : State) :
    (fetchBursts cls a1 s).2.pending = s.pending ∧ (fetchBursts cls a1 s).2.tether = s.tether := by
  induction a1 generalizing s with
  | nil => exact ⟨rfl, rfl⟩
  | cons e l ih => simp [fetchBursts, ih]
@[simp] theorem dramFetch_keeps (cls) (addr) (n) (s : State) :
    (dramFetch cls addr n s).2.2.pending = s.pending ∧ (dramFetch cls addr n s).2.2.tether = s.tether := by
  unfold dramFetch; try dsimp only
  first | (simp; done) | ((repeat' split) <;> simp)
@[simp] theorem fetchUntil_keeps (cls) (a1) (s : State) :
    (fetchUntil cls a1 s).2.pending = s.pending ∧ (fetchUntil cls a1 s).2.tether = s.tether := by
  induction a1 generalizing s with
  | nil => exact ⟨rfl, rfl⟩
  | cons e l ih => unfold fetchUntil; dsimp only; split <;> simp [ih]
@[simp] theorem queueReq_keeps (r) (s : State) :
    (queueReq r s).pending = s.pending ∧ (queueReq r s).tether = s.tether := by
  unfold queueReq; try dsimp only
  first | (simp; done) | ((repeat' split) <;> simp)
@[simp] theorem queueWrite_keeps (addr) (cls) (bytes) (s : State) :
    (queueWrite addr cls bytes s).pending = s.pending ∧ (queueWrite addr cls bytes s).tether = s.tether := by simp [queueWrite]
@[simp] theorem putCopies_keeps (k) (l) (s : State) :
    (putCopies k l s).pending = s.pending ∧ (putCopies k l s).tether = s.tether := by
  unfold putCopies; try dsimp only
  first | (simp; done) | ((repeat' split) <;> simp)

/-! Crossbar. -/

@[simp] theorem portStore_keeps (p) (r) (s : State) :
    (portStore p r s).pending = s.pending ∧ (portStore p r s).tether = s.tether := by
  unfold portStore; try dsimp only
  first | (simp; done) | ((repeat' split) <;> simp)
@[simp] theorem portSettle_keeps (p) (s : State) :
    (portSettle p s).pending = s.pending ∧ (portSettle p s).tether = s.tether := by simp [portSettle]
@[simp] theorem portUntil_keeps (m) (p) (a2) (s : State) :
    (portUntil m p a2 s).pending = s.pending ∧ (portUntil m p a2 s).tether = s.tether := by
  induction a2 generalizing s with
  | zero => exact ⟨rfl, rfl⟩
  | succ n ih => unfold portUntil; (repeat' split) <;> simp [ih]
@[simp] theorem portJoin_keeps (p) (r) (s : State) :
    (portJoin p r s).pending = s.pending ∧ (portJoin p r s).tether = s.tether := by
  unfold portJoin; try dsimp only
  first | (simp; done) | ((repeat' split) <;> simp)
@[simp] theorem portServe_keeps (w) (m) (p) (a) (n) (s : State) :
    (portServe w m p a n s).pending = s.pending ∧ (portServe w m p a n s).tether = s.tether := by
  unfold portServe; try dsimp only
  first | (simp; done) | ((repeat' split) <;> simp)
@[simp] theorem defaultTarget_keeps (m) (a) (write) (s : State) :
    (defaultTarget m a write s).pending = s.pending ∧ (defaultTarget m a write s).tether = s.tether := by
  unfold defaultTarget; try dsimp only
  first | (simp; done) | ((repeat' split) <;> simp)
@[simp] theorem resetAnswer_keeps (p) (s : State) :
    (resetAnswer p s).pending = s.pending ∧ (resetAnswer p s).tether = s.tether := by
  unfold resetAnswer; try dsimp only
  first | (simp; done) | ((repeat' split) <;> simp)
@[simp] theorem noteDesc_keeps (ch) (code) (tag) (residue) (s : State) :
    (noteDesc ch code tag residue s).pending = s.pending ∧ (noteDesc ch code tag residue s).tether = s.tether := by
  unfold noteDesc; try dsimp only
  first | (simp; done) | ((repeat' split) <;> simp)
@[simp] theorem countStop_keeps (code) (s : State) :
    (countStop code s).pending = s.pending ∧ (countStop code s).tether = s.tether := by
  unfold countStop; try dsimp only
  first | (simp; done) | ((repeat' split) <;> simp)
@[simp] theorem putPieces_keeps (ch) (a1) (s : State) :
    (putPieces ch a1 s).2.2.pending = s.pending ∧ (putPieces ch a1 s).2.2.tether = s.tether := by
  induction a1 generalizing s with
  | nil => exact ⟨rfl, rfl⟩
  | cons e l ih => unfold putPieces; dsimp only; (repeat' split) <;> simp [ih]
@[simp] theorem chanWrite_keeps (ch) (l) (s : State) :
    (chanWrite ch l s).2.pending = s.pending ∧ (chanWrite ch l s).2.tether = s.tether := by
  unfold chanWrite; try dsimp only
  first | (simp; done) | ((repeat' split) <;> simp)
@[simp] theorem getPieces_keeps (ch) (a1) (s : State) :
    (getPieces ch a1 s).2.pending = s.pending ∧ (getPieces ch a1 s).2.tether = s.tether := by
  induction a1 generalizing s with
  | nil => exact ⟨rfl, rfl⟩
  | cons e l ih => unfold getPieces; (repeat' split) <;> simp [ih]
@[simp] theorem chanRead_keeps (ch) (a) (n) (s : State) :
    (chanRead ch a n s).2.2.pending = s.pending ∧ (chanRead ch a n s).2.2.tether = s.tether := by
  unfold chanRead; try dsimp only
  first | (simp; done) | ((repeat' split) <;> simp)

/-! Operands. -/

@[simp] theorem bulkFetch_keeps (b) (s : State) :
    (bulkFetch b s).2.2.pending = s.pending ∧ (bulkFetch b s).2.2.tether = s.tether := by
  unfold bulkFetch; try dsimp only
  first | (simp; done) | ((repeat' split) <;> simp)
@[simp] theorem bulkPut_keeps (b) (bytes) (s : State) :
    (bulkPut b bytes s).2.pending = s.pending ∧ (bulkPut b bytes s).2.tether = s.tether := by
  unfold bulkPut; try dsimp only
  first | (simp; done) | ((repeat' split) <;> simp)
@[simp] theorem clearShown_keeps (a0) (a1) (a2) (s : State)
    (h2 : ∀ x s, (a2 x s).pending = s.pending ∧ (a2 x s).tether = s.tether) :
    (clearShown a0 a1 a2 s).pending = s.pending ∧ (clearShown a0 a1 a2 s).tether = s.tether := by unfold clearShown; simp [*]
@[simp] theorem ackShown_keeps (a0) (a1) (a2) (s : State)
    (h2 : ∀ x s, (a2 x s).pending = s.pending ∧ (a2 x s).tether = s.tether) :
    (ackShown a0 a1 a2 s).pending = s.pending ∧ (ackShown a0 a1 a2 s).tether = s.tether := by unfold ackShown; simp [*]

/-! Request. -/

@[simp] theorem touchTxn_keeps (k) (q) (s : State) :
    (touchTxn k q s).pending = s.pending ∧ (touchTxn k q s).tether = s.tether := by simp [touchTxn]
@[simp] theorem stage_keeps (k) (c) (bytes) (s : State) :
    (stage k c bytes s).pending = s.pending ∧ (stage k c bytes s).tether = s.tether := by
  unfold stage; try dsimp only
  first | (simp; done) | ((repeat' split) <;> simp)
@[simp] theorem owe_keeps (c) (q) (s : State) :
    (owe c q s).pending = s.pending ∧ (owe c q s).tether = s.tether := by simp [owe]
@[simp] theorem kenraStep_keeps (a0) (a1) (a2) (s : State)
    (hact : ∀ q s, (a1.act q s).pending = s.pending ∧ (a1.act q s).tether = s.tether) :
    (kenraStep a0 a1 a2 s).pending = s.pending ∧ (kenraStep a0 a1 a2 s).tether = s.tether := by
  unfold kenraStep; dsimp only; (repeat' split) <;> simp [hact]
theorem whenActive_keeps (c) (f) (s : State) (t : State)
    (hf : ∀ s, (f s).pending = s.pending ∧ (f s).tether = s.tether) (h : whenActive c f s = .next t) :
    t.pending = s.pending ∧ t.tether = s.tether :=
  whenOn_keeps _ _ (fun s => by split <;> simp [hf]) _ h
theorem kenra_keeps (a0) (a1) (a2) (s : State)
    (hact : ∀ q s, (a1.act q s).pending = s.pending ∧ (a1.act q s).tether = s.tether) (t : State) (h : kenra a0 a1 a2 s = .next t) :
    t.pending = s.pending ∧ t.tether = s.tether :=
  whenActive_keeps _ _ _ _ (fun s => kenraStep_keeps _ _ _ _ hact) h

/-! Dma. -/

@[simp] theorem spaceRead_keeps (space) (addr) (n) (bad) (s : State) :
    (spaceRead space addr n bad s).2.2.pending = s.pending ∧ (spaceRead space addr n bad s).2.2.tether = s.tether := by
  unfold spaceRead; try dsimp only
  first | (simp; done) | ((repeat' split) <;> simp)
@[simp] theorem spaceWrite_keeps (space) (addr) (bytes) (s : State) :
    (spaceWrite space addr bytes s).pending = s.pending ∧ (spaceWrite space addr bytes s).tether = s.tether := by simp [spaceWrite]
@[simp] theorem putBeats_keeps (space) (a1) (l) (s : State) :
    (putBeats space a1 l s).pending = s.pending ∧ (putBeats space a1 l s).tether = s.tether := by
  induction l generalizing a1 s with
  | nil => exact ⟨rfl, rfl⟩
  | cons b t ih => simp [putBeats, ih]
@[simp] theorem dmaError_keeps (ch) (code) (last) (s : State) :
    (dmaError ch code last s).pending = s.pending ∧ (dmaError ch code last s).tether = s.tether := by simp [dmaError]
theorem targetStop_keeps (m space addr n) (s t : State) (c) (h : targetStop m space addr n s = some (c, t)) :
    t.pending = s.pending ∧ t.tether = s.tether := by
  unfold targetStop at h; dsimp only at h
  (repeat' split at h) <;> simp at h <;> obtain ⟨-, rfl⟩ := h <;> simp
@[simp] theorem readBurstOf_keeps (ch) (d) (ans) (s : State) :
    (readBurstOf ch d ans s).pending = s.pending ∧ (readBurstOf ch d ans s).tether = s.tether := by
  unfold readBurstOf; dsimp only
  split
  · split
    · simp
    · split
      · next h => have k := targetStop_keeps _ _ _ _ _ _ _ h; simp [k]
      · (repeat' split) <;> simp
  · split
    · simp
    · split
      · next h => have k := targetStop_keeps _ _ _ _ _ _ _ h; simp [k]
      · (repeat' split) <;> simp
@[simp] theorem writeBurstOf_keeps (ch) (d) (ans) (s : State) :
    (writeBurstOf ch d ans s).pending = s.pending ∧ (writeBurstOf ch d ans s).tether = s.tether := by
  unfold writeBurstOf
  split
  · simp
  · dsimp only; split
    · simp
    · split
      · simp
      · split
        · next h => have k := targetStop_keeps _ _ _ _ _ _ _ h; simp [k]
        · (repeat' split) <;> simp
@[simp] theorem dmaReadTurn_keeps (ch) (ans) (s : State) :
    (dmaReadTurn ch ans s).pending = s.pending ∧ (dmaReadTurn ch ans s).tether = s.tether := by
  unfold dmaReadTurn; try dsimp only
  first | (simp; done) | ((repeat' split) <;> simp)
@[simp] theorem dmaWriteTurn_keeps (ch) (ans) (s : State) :
    (dmaWriteTurn ch ans s).pending = s.pending ∧ (dmaWriteTurn ch ans s).tether = s.tether := by
  unfold dmaWriteTurn; try dsimp only
  first | (simp; done) | ((repeat' split) <;> simp)
theorem execDmaBurst_keeps (ch) (part) (ans) (s : State) (t : State) (h : execDmaBurst ch part ans s = .next t) :
    t.pending = s.pending ∧ t.tether = s.tether := whenOn_keeps _ _ (fun s => by
  try dsimp only
  first | (simp; done) | ((repeat' split) <;> simp)) _ h
@[simp] theorem completeDesc_keeps (ch) (d) (code) (residue) (s : State) :
    (completeDesc ch d code residue s).pending = s.pending ∧ (completeDesc ch d code residue s).tether = s.tether := by simp [completeDesc]
@[simp] theorem completeAborted_keeps (a0) (a1) (s : State) :
    (completeAborted a0 a1 s).pending = s.pending ∧ (completeAborted a0 a1 s).tether = s.tether := by
  induction a1 generalizing s with
  | zero => exact ⟨rfl, rfl⟩
  | succ n ih =>
    unfold completeAborted; try dsimp only
    (repeat' split) <;> (first | exact ⟨rfl, rfl⟩ | (rw [(ih _).1, (ih _).2]; simp) | simp)
theorem execDmaDescriptorComplete_keeps (ch) (s : State) (t : State) (h : execDmaDescriptorComplete ch s = .next t) :
    t.pending = s.pending ∧ t.tether = s.tether := whenOn_keeps _ _ (fun s => by dsimp only; (repeat' split) <;> simp) _ h
@[simp] theorem specDmaCopy_keeps (q : Request) (s : State) :
    (specDmaCopy.act q s).pending = s.pending ∧ (specDmaCopy.act q s).tether = s.tether := by simp [specDmaCopy]
theorem execDmaCopy_keeps (q) (s : State) (t : State) (h : execDmaCopy q s = .next t) :
    t.pending = s.pending ∧ t.tether = s.tether := kenra_keeps _ _ _ _ specDmaCopy_keeps _ h
@[simp] theorem abortChannel_keeps (s : State) (ch) :
    (abortChannel s ch).pending = s.pending ∧ (abortChannel s ch).tether = s.tether := by unfold abortChannel; dsimp only; (repeat' split) <;> simp
@[simp] theorem specDmaAbort_keeps (q : Request) (s : State) :
    (specDmaAbort.act q s).pending = s.pending ∧ (specDmaAbort.act q s).tether = s.tether := by simp [specDmaAbort]
theorem execDmaAbort_keeps (q) (s : State) (t : State) (h : execDmaAbort q s = .next t) :
    t.pending = s.pending ∧ t.tether = s.tether := kenra_keeps _ _ _ _ specDmaAbort_keeps _ h
@[simp] theorem clearDma_keeps (a) (s : State) :
    (clearDma a s).pending = s.pending ∧ (clearDma a s).tether = s.tether := by simp [clearDma]
@[simp] theorem specDmaStatus_keeps (q : Request) (s : State) :
    (specDmaStatus.act q s).pending = s.pending ∧ (specDmaStatus.act q s).tether = s.tether := by simp [specDmaStatus]
theorem execDmaStatus_keeps (q) (s : State) (t : State) (h : execDmaStatus q s = .next t) :
    t.pending = s.pending ∧ t.tether = s.tether := kenra_keeps _ _ _ _ specDmaStatus_keeps _ h

/-! Dram. -/

@[simp] theorem reportUe_keeps (storeLen) (gts) (ch) (s : State) :
    (reportUe storeLen gts ch s).pending = s.pending ∧ (reportUe storeLen gts ch s).tether = s.tether := by unfold reportUe; (repeat' split) <;> simp
theorem execChannelLost_keeps (ch) (cause) (s : State) (t : State) (h : execChannelLost ch cause s = .next t) :
    t.pending = s.pending ∧ t.tether = s.tether := whenOn_keeps _ _ (fun s => by simp) _ h
@[simp] theorem reissue_keeps (ch) (n) (s : State) :
    (reissue ch n s).pending = s.pending ∧ (reissue ch n s).tether = s.tether := by
  unfold reissue; try dsimp only
  first | (simp; done) | ((repeat' split) <;> simp)
theorem execDramWrite_keeps (ch) (reissues) (s : State) (t : State) (h : execDramWrite ch reissues s = .next t) :
    t.pending = s.pending ∧ t.tether = s.tether := whenOn_keeps _ _ (fun s => by
  dsimp only; split
  · simp
  · split
    · simp
    · split <;> simp) _ h
@[simp] theorem closeRow_keeps (ch) (bank) (s : State) :
    (closeRow ch bank s).pending = s.pending ∧ (closeRow ch bank s).tether = s.tether := by simp [closeRow]
theorem execRefresh_keeps (ch) (bank) (postpone) (s : State) (t : State) (h : execRefresh ch bank postpone s = .next t) :
    t.pending = s.pending ∧ t.tether = s.tether := whenOn_keeps _ _ (fun s => by simp) _ h
theorem execPageIdleClose_keeps (ch) (bank) (s : State) (t : State) (h : execPageIdleClose ch bank s = .next t) :
    t.pending = s.pending ∧ t.tether = s.tether := whenOn_keeps _ _ (fun s => by simp) _ h
@[simp] theorem recentreBursts_keeps (c) (s : State) :
    (recentreBursts c s).pending = s.pending ∧ (recentreBursts c s).tether = s.tether := by
  unfold recentreBursts; try dsimp only
  first | (simp; done) | ((repeat' split) <;> simp)
theorem execRecentre_keeps (byteLane) (readCentre) (writeCentre) (window) (ue) (s : State) (t : State) (h : execRecentre byteLane readCentre writeCentre window ue s = .next t) :
    t.pending = s.pending ∧ t.tether = s.tether := whenOn_keeps _ _ (fun s => by
  try dsimp only
  first | (simp; done) | ((repeat' split) <;> simp)) _ h
theorem execDimmTempPoll_keeps (ch) (dimm) (temp) (s : State) (t : State) (h : execDimmTempPoll ch dimm temp s = .next t) :
    t.pending = s.pending ∧ t.tether = s.tether := whenOn_keeps _ _ (fun s => by
  try dsimp only
  first | (simp; done) | ((repeat' split) <;> simp)) _ h
@[simp] theorem centreLane_keeps (lanes) (s : State) (k) :
    (centreLane lanes s k).pending = s.pending ∧ (centreLane lanes s k).tether = s.tether := by
  unfold centreLane; try dsimp only
  first | (simp; done) | ((repeat' split) <;> simp)
@[simp] theorem trainChannel_keeps (lanes) (s : State) (c) :
    (trainChannel lanes s c).pending = s.pending ∧ (trainChannel lanes s c).tether = s.tether := by
  unfold trainChannel; try dsimp only
  first | (simp; done) | ((repeat' split) <;> simp)
@[simp] theorem specDramConfig_keeps (q : Request) (s : State) :
    (specDramConfig.act q s).pending = s.pending ∧ (specDramConfig.act q s).tether = s.tether := by simp [specDramConfig]
theorem execDramConfig_keeps (q) (s : State) (t : State) (h : execDramConfig q s = .next t) :
    t.pending = s.pending ∧ t.tether = s.tether := kenra_keeps _ _ _ _ specDramConfig_keeps _ h
@[simp] theorem specDramRetrain_keeps (q : Request) (s : State) :
    (specDramRetrain.act q s).pending = s.pending ∧ (specDramRetrain.act q s).tether = s.tether := by simp [specDramRetrain]
theorem execDramRetrain_keeps (q) (s : State) (t : State) (h : execDramRetrain q s = .next t) :
    t.pending = s.pending ∧ t.tether = s.tether := kenra_keeps _ _ _ _ specDramRetrain_keeps _ h
theorem execDramRetrainDone_keeps (passed) (lanes) (s : State) (t : State) (h : execDramRetrainDone passed lanes s = .next t) :
    t.pending = s.pending ∧ t.tether = s.tether := whenOn_keeps _ _ (fun s => by
  try dsimp only
  first | (simp; done) | ((repeat' split) <;> simp)) _ h
@[simp] theorem specDramStatus_keeps (q : Request) (s : State) :
    (specDramStatus.act q s).pending = s.pending ∧ (specDramStatus.act q s).tether = s.tether := by simp [specDramStatus]
theorem execDramStatus_keeps (q) (s : State) (t : State) (h : execDramStatus q s = .next t) :
    t.pending = s.pending ∧ t.tether = s.tether := kenra_keeps _ _ _ _ specDramStatus_keeps _ h

/-! Geometry. -/

@[simp] theorem unitReset_keeps (key) (n) (s : State) :
    (unitReset key n s).pending = s.pending ∧ (unitReset key n s).tether = s.tether := by simp [unitReset]
@[simp] theorem unitStart_keeps (key) (n) (s : State) :
    (unitStart key n s).pending = s.pending ∧ (unitStart key n s).tether = s.tether := by simp [unitStart]

/-! Gul. -/

@[simp] theorem putBlock_keeps (l) (parity) (w) (s : State) :
    (putBlock l parity w s).pending = s.pending ∧ (putBlock l parity w s).tether = s.tether := by
  unfold putBlock; try dsimp only
  first | (simp; done) | ((repeat' split) <;> simp)
@[simp] theorem putPlain_keeps (l) (b) (s : State) :
    (putPlain l b s).pending = s.pending ∧ (putPlain l b s).tether = s.tether := by
  unfold putPlain; try dsimp only
  first | (simp; done) | ((repeat' split) <;> simp)
@[simp] theorem putLane_keeps (fec) (width) (r) (count) (l) (b) (s : State) :
    (putLane fec width r count l b s).pending = s.pending ∧ (putLane fec width r count l b s).tether = s.tether := by
  unfold putLane; try dsimp only
  first | (simp; done) | ((repeat' split) <;> simp)
@[simp] theorem putRow_keeps (k) (fec) (w) (b) (s : State) :
    (putRow k fec w b s).pending = s.pending ∧ (putRow k fec w b s).tether = s.tether := by
  unfold putRow; try dsimp only
  first | (simp; done) | ((repeat' split) <;> simp)
@[simp] theorem putDue_keeps (k) (fec) (w) (s : State) :
    (putDue k fec w s).pending = s.pending ∧ (putDue k fec w s).tether = s.tether := by
  unfold putDue; try dsimp only
  first | (simp; done) | ((repeat' split) <;> simp)
@[simp] theorem putStream_keeps (k) (fec) (w) (b) (s : State) :
    (putStream k fec w b s).pending = s.pending ∧ (putStream k fec w b s).tether = s.tether := by
  unfold putStream; try dsimp only
  first | (simp; done) | ((repeat' split) <;> simp)
@[simp] theorem idleRows_keeps (k) (fec) (w) (a3) (s : State) :
    (idleRows k fec w a3 s).pending = s.pending ∧ (idleRows k fec w a3 s).tether = s.tether := by
  induction a3 generalizing s with
  | zero => exact ⟨rfl, rfl⟩
  | succ n ih => simp [idleRows, ih]
@[simp] theorem clearSent_keeps (k) (s : State) :
    (clearSent k s).pending = s.pending ∧ (clearSent k s).tether = s.tether := by
  unfold clearSent; try dsimp only
  first | (simp; done) | ((repeat' split) <;> simp)
@[simp] theorem startStream_keeps (k) (s : State) :
    (startStream k s).pending = s.pending ∧ (startStream k s).tether = s.tether := by
  unfold startStream; try dsimp only
  first | (simp; done) | ((repeat' split) <;> simp)
@[simp] theorem skipTo_keeps (k) (w) (r) (s : State) :
    (skipTo k w r s).pending = s.pending ∧ (skipTo k w r s).tether = s.tether := by
  unfold skipTo; try dsimp only
  first | (simp; done) | ((repeat' split) <;> simp)
@[simp] theorem catchUp_keeps (k) (s : State) :
    (catchUp k s).pending = s.pending ∧ (catchUp k s).tether = s.tether := by
  unfold catchUp; try dsimp only
  first | (simp; done) | ((repeat' split) <;> simp)
@[simp] theorem sendBlocks_keeps (k) (l) (s : State) :
    (sendBlocks k l s).pending = s.pending ∧ (sendBlocks k l s).tether = s.tether := by
  unfold sendBlocks; try dsimp only
  first | (simp; done) | ((repeat' split) <;> simp)
@[simp] theorem sendWake_keeps (k) (s : State) :
    (sendWake k s).pending = s.pending ∧ (sendWake k s).tether = s.tether := by
  unfold sendWake; try dsimp only
  first | (simp; done) | ((repeat' split) <;> simp)
@[simp] theorem sendControl_keeps (k) (c) (s : State) :
    (sendControl k c s).pending = s.pending ∧ (sendControl k c s).tether = s.tether := by
  unfold sendControl; try dsimp only
  first | (simp; done) | ((repeat' split) <;> simp)
@[simp] theorem sendCaps_keeps (k) (s : State) :
    (sendCaps k s).pending = s.pending ∧ (sendCaps k s).tether = s.tether := by
  unfold sendCaps; try dsimp only
  first | (simp; done) | ((repeat' split) <;> simp)
@[simp] theorem dropFrame_keeps (k) (c) (s : State) :
    (dropFrame k c s).pending = s.pending ∧ (dropFrame k c s).tether = s.tether := by simp [dropFrame]
@[simp] theorem abortFrame_keeps (k) (s : State) :
    (abortFrame k s).pending = s.pending ∧ (abortFrame k s).tether = s.tether := by
  unfold abortFrame; try dsimp only
  first | (simp; done) | ((repeat' split) <;> simp)
@[simp] theorem flushFrames_keeps (k) (s : State) :
    (flushFrames k s).pending = s.pending ∧ (flushFrames k s).tether = s.tether := by
  unfold flushFrames; try dsimp only
  first | (simp; done) | ((repeat' split) <;> simp)
@[simp] theorem sendFrames_keeps (k) (kind) (l) (s : State) :
    (sendFrames k kind l s).pending = s.pending ∧ (sendFrames k kind l s).tether = s.tether := by
  unfold sendFrames; try dsimp only
  first | (simp; done) | ((repeat' split) <;> simp)
@[simp] theorem putBits_keeps (l) (bits) (s : State) :
    (putBits l bits s).pending = s.pending ∧ (putBits l bits s).tether = s.tether := by
  unfold putBits; try dsimp only
  first | (simp; done) | ((repeat' split) <;> simp)
@[simp] theorem ethSend_keeps (k) (frame) (s : State) :
    (ethSend k frame s).pending = s.pending ∧ (ethSend k frame s).tether = s.tether := by
  unfold ethSend; try dsimp only
  first | (simp; done) | ((repeat' split) <;> simp)

/-! Output. -/

@[simp] theorem discard_keeps (reason) (r) (s : State) :
    (Machine.discard reason r s).pending = s.pending ∧ (Machine.discard reason r s).tether = s.tether := by
  unfold Machine.discard; dsimp only; split <;> simp
@[simp] theorem discardQuad_keeps (q) (reason) (r) (s : State) :
    (discardQuad q reason r s).pending = s.pending ∧ (discardQuad q reason r s).tether = s.tether := by simp [discardQuad]
@[simp] theorem reportDiscards_keeps (gts) (s : State) :
    (reportDiscards gts s).pending = s.pending ∧ (reportDiscards gts s).tether = s.tether := by simp [reportDiscards]
@[simp] theorem drainDown_keeps (k) (s : State) :
    (drainDown k s).pending = s.pending ∧ (drainDown k s).tether = s.tether := by simp [drainDown]
@[simp] theorem admitEgress_keeps (k) (entry) (r) (s : State) :
    (admitEgress k entry r s).pending = s.pending ∧ (admitEgress k entry r s).tether = s.tether := by simp [admitEgress]
@[simp] theorem ageQuad_keeps (k) (s : State) :
    (ageQuad k s).pending = s.pending ∧ (ageQuad k s).tether = s.tether := by simp [ageQuad]
theorem execEgressAgeExpiry_keeps (k) (s : State) (t : State) (h : execEgressAgeExpiry k s = .next t) :
    t.pending = s.pending ∧ t.tether = s.tether := whenOn_keeps _ _ (fun s => by simp) _ h
@[simp] theorem modRing_keeps (k) (f) (s : State) :
    (modRing k f s).pending = s.pending ∧ (modRing k f s).tether = s.tether := by simp [modRing]
@[simp] theorem admitRing_keeps (k) (r) (s : State) :
    (admitRing k r s).pending = s.pending ∧ (admitRing k r s).tether = s.tether := by unfold admitRing; (repeat' split) <;> simp
@[simp] theorem assemble_keeps (i) (packed) (s : State) :
    (assemble i packed s).pending = s.pending ∧ (assemble i packed s).tether = s.tether := by unfold assemble; dsimp only; (repeat' split) <;> simp
@[simp] theorem ageRing_keeps (k) (s : State) :
    (ageRing k s).pending = s.pending ∧ (ageRing k s).tether = s.tether := by unfold ageRing; (repeat' split) <;> simp
theorem execHostringAgeExpiry_keeps (k) (s : State) (t : State) (h : execHostringAgeExpiry k s = .next t) :
    t.pending = s.pending ∧ t.tether = s.tether := whenOn_keeps _ _ (fun s => by simp) _ h
@[simp] theorem ringRecord_keeps (k) (x) (r) (s : State) :
    (ringRecord k x r s).pending = s.pending ∧ (ringRecord k x r s).tether = s.tether := by simp [ringRecord]
theorem execHostRingWrite_keeps (ringNo) (s : State) (t : State) (h : execHostRingWrite ringNo s = .next t) :
    t.pending = s.pending ∧ t.tether = s.tether := whenOn_keeps _ _ (fun s => by dsimp only; (repeat' split) <;> simp) _ h
@[simp] theorem popQuad_keeps (k) (s : State) :
    (popQuad k s).pending = s.pending ∧ (popQuad k s).tether = s.tether := by simp [popQuad]
@[simp] theorem sendDatagram_keeps (k) (d) (s : State) :
    (sendDatagram k d s).pending = s.pending ∧ (sendDatagram k d s).tether = s.tether := by
  unfold sendDatagram; try dsimp only
  first | (simp; done) | ((repeat' split) <;> simp)
theorem execDatagramTransmit_keeps (quadNo) (s : State) (t : State) (h : execDatagramTransmit quadNo s = .next t) :
    t.pending = s.pending ∧ t.tether = s.tether := whenOn_keeps _ _ (fun s => by dsimp only; (repeat' split) <;> simp) _ h
theorem execPauseFrameReceive_keeps (k) (s : State) (t : State) (h : execPauseFrameReceive k s = .next t) :
    t.pending = s.pending ∧ t.tether = s.tether := whenOn_keeps _ _ (fun s => by simp) _ h
@[simp] theorem specOstreamConfig_keeps (q : Request) (s : State) :
    (specOstreamConfig.act q s).pending = s.pending ∧ (specOstreamConfig.act q s).tether = s.tether := by simp [specOstreamConfig]
theorem execOstreamConfig_keeps (q) (s : State) (t : State) (h : execOstreamConfig q s = .next t) :
    t.pending = s.pending ∧ t.tether = s.tether := kenra_keeps _ _ _ _ specOstreamConfig_keeps _ h
@[simp] theorem specOstreamStatus_keeps (q : Request) (s : State) :
    (specOstreamStatus.act q s).pending = s.pending ∧ (specOstreamStatus.act q s).tether = s.tether := by simp [specOstreamStatus]
theorem execOstreamStatus_keeps (q) (s : State) (t : State) (h : execOstreamStatus q s = .next t) :
    t.pending = s.pending ∧ t.tether = s.tether := kenra_keeps _ _ _ _ specOstreamStatus_keeps _ h
@[simp] theorem specEgressConfig_keeps (q : Request) (s : State) :
    (specEgressConfig.act q s).pending = s.pending ∧ (specEgressConfig.act q s).tether = s.tether := by simp [specEgressConfig]
theorem execEgressConfig_keeps (q) (s : State) (t : State) (h : execEgressConfig q s = .next t) :
    t.pending = s.pending ∧ t.tether = s.tether := kenra_keeps _ _ _ _ specEgressConfig_keeps _ h
@[simp] theorem specEgressStatus_keeps (q : Request) (s : State) :
    (specEgressStatus.act q s).pending = s.pending ∧ (specEgressStatus.act q s).tether = s.tether := by simp [specEgressStatus]
theorem execEgressStatus_keeps (q) (s : State) (t : State) (h : execEgressStatus q s = .next t) :
    t.pending = s.pending ∧ t.tether = s.tether := kenra_keeps _ _ _ _ specEgressStatus_keeps _ h
@[simp] theorem specHostringConfig_keeps (q : Request) (s : State) :
    (specHostringConfig.act q s).pending = s.pending ∧ (specHostringConfig.act q s).tether = s.tether := by
  unfold specHostringConfig; dsimp only
  rw [foldl_pending, foldl_tether]
  · exact ⟨rfl, rfl⟩
  all_goals (intro s x; (repeat' split) <;> simp)
theorem execHostringConfig_keeps (q) (s : State) (t : State) (h : execHostringConfig q s = .next t) :
    t.pending = s.pending ∧ t.tether = s.tether := kenra_keeps _ _ _ _ specHostringConfig_keeps _ h

/-! Store. -/

@[simp] theorem vestSet_keeps (buffer) (input) (index) (x) (s : State) :
    (vestSet buffer input index x s).pending = s.pending ∧ (vestSet buffer input index x s).tether = s.tether := by simp [vestSet]
@[simp] theorem directSet_keeps (len) (pos) (input) (u) (x) (s : State) :
    (directSet len pos input u x s).pending = s.pending ∧ (directSet len pos input u x s).tether = s.tether := by simp [directSet]
@[simp] theorem openRange_keeps (key) (u) (s : State) :
    (openRange key u s).pending = s.pending ∧ (openRange key u s).tether = s.tether := by simp [openRange]
@[simp] theorem loseGranule_keeps (key) (g) (s : State) :
    (loseGranule key g s).pending = s.pending ∧ (loseGranule key g s).tether = s.tether := by simp [loseGranule]
@[simp] theorem putSample_keeps (i) (key) (fine) (u) (x) (s : State) :
    (putSample i key fine u x s).pending = s.pending ∧ (putSample i key fine u x s).tether = s.tether := by unfold putSample; (repeat' split) <;> simp
@[simp] theorem putOutput_keeps (key) (u) (l) (s : State) :
    (putOutput key u l s).pending = s.pending ∧ (putOutput key u l s).tether = s.tether := by unfold putOutput; (repeat' split) <;> simp
theorem execStoreBurstDiscard_keeps (s : State) (t : State) (h : execStoreBurstDiscard s = .next t) :
    t.pending = s.pending ∧ t.tether = s.tether := whenOn_keeps _ _ (fun s => by (repeat' split) <;> simp) _ h
@[simp] theorem fillGranule_keeps (buffer) (input) (index) (l) (s : State) :
    (fillGranule buffer input index l s).pending = s.pending ∧ (fillGranule buffer input index l s).tether = s.tether := by simp [fillGranule]
@[simp] theorem cancelFlags_keeps (addr) (s : State) :
    (cancelFlags addr s).pending = s.pending ∧ (cancelFlags addr s).tether = s.tether := by
  unfold cancelFlags; try dsimp only
  first | (simp; done) | ((repeat' split) <;> simp)
@[simp] theorem readGranule_keeps (i) (c) (ue) (ii) (g) (s : State) :
    (readGranule i c ue ii g s).pending = s.pending ∧ (readGranule i c ue ii g s).tether = s.tether := by unfold readGranule; dsimp only; (repeat' split) <;> simp
@[simp] theorem forChunk_keeps (a0) (a1) (s : State)
    (h1 : ∀ x y s, (a1 x y s).pending = s.pending ∧ (a1 x y s).tether = s.tether) :
    (forChunk a0 a1 s).pending = s.pending ∧ (forChunk a0 a1 s).tether = s.tether := by unfold forChunk; simp [*]
@[simp] theorem fillChunk_keeps (i) (c) (ue) (s : State) :
    (fillChunk i c ue s).pending = s.pending ∧ (fillChunk i c ue s).tether = s.tether := by simp [fillChunk]
@[simp] theorem flagChunk_keeps (i) (c) (s : State) :
    (flagChunk i c s).pending = s.pending ∧ (flagChunk i c s).tether = s.tether := by simp [flagChunk]
@[simp] theorem abandonChunk_keeps (i) (c) (s : State) :
    (abandonChunk i c s).pending = s.pending ∧ (abandonChunk i c s).tether = s.tether := by simp [abandonChunk]
theorem takeWork_keeps (p : Work → Bool) (s : State) (w : Work) (t : State) (h : takeWork p s = some (w, t)) :
    t.pending = s.pending ∧ t.tether = s.tether := by
  unfold takeWork at h
  split at h
  · cases h; exact ⟨rfl, rfl⟩
  · cases h
theorem execChunkRead_keeps (a0) (a1) (s : State) (t : State) (h : execChunkRead a0 a1 s = .next t) :
    t.pending = s.pending ∧ t.tether = s.tether := by
  have h := Host.Outcome.next.inj h; subst h
  split
  · have k := takeWork_keeps _ _ _ _ ‹takeWork _ _ = _›
    (repeat' split) <;> simp [k.1, k.2]
  all_goals simp
@[simp] theorem releaseBuffer_keeps (later) (k) (s : State) :
    (releaseBuffer later k s).pending = s.pending ∧ (releaseBuffer later k s).tether = s.tether := by unfold releaseBuffer; dsimp only; (repeat' split) <;> simp
@[simp] theorem abandonWaiting_keeps (i) (s : State) :
    (abandonWaiting i s).pending = s.pending ∧ (abandonWaiting i s).tether = s.tether := by simp [abandonWaiting]
@[simp] theorem directBlockStart_keeps (i) (block) (s : State) :
    (directBlockStart i block s).pending = s.pending ∧ (directBlockStart i block s).tether = s.tether := by
  unfold directBlockStart
  repeat' first
    | (simp; done)
    | (refine And.intro ?_ ?_)
    | intro _
    | split
    | rw [foldl_pending]
    | rw [foldl_tether]
    | simp
theorem execRfiFlagWrite_keeps (input) (pos) (granule) (s : State) (t : State) (h : execRfiFlagWrite input pos granule s = .next t) :
    t.pending = s.pending ∧ t.tether = s.tether := by cases h; try dsimp only; (repeat' split) <;> simp
@[simp] theorem specStoreConfig_keeps (q : Request) (s : State) :
    (specStoreConfig.act q s).pending = s.pending ∧ (specStoreConfig.act q s).tether = s.tether := by simp [specStoreConfig]
theorem execStoreConfig_keeps (q) (s : State) (t : State) (h : execStoreConfig q s = .next t) :
    t.pending = s.pending ∧ t.tether = s.tether := kenra_keeps _ _ _ _ specStoreConfig_keeps _ h
@[simp] theorem specStoreStatus_keeps (q : Request) (s : State) :
    (specStoreStatus.act q s).pending = s.pending ∧ (specStoreStatus.act q s).tether = s.tether := by simp [specStoreStatus]
theorem execStoreStatus_keeps (q) (s : State) (t : State) (h : execStoreStatus q s = .next t) :
    t.pending = s.pending ∧ t.tether = s.tether := kenra_keeps _ _ _ _ specStoreStatus_keeps _ h

/-! Plan. -/

@[simp] theorem settleBuffers_keeps (s : State) :
    (settleBuffers s).pending = s.pending ∧ (settleBuffers s).tether = s.tether := by simp [settleBuffers]
@[simp] theorem modJobs_keeps (p) (f) (s : State) :
    (modJobs p f s).pending = s.pending ∧ (modJobs p f s).tether = s.tether := by simp [modJobs]

/-! Facet. -/

@[simp] theorem pushItem_keeps (x) (s : State) :
    (pushItem x s).pending = s.pending ∧ (pushItem x s).tether = s.tether := by unfold pushItem; (repeat' split) <;> simp
@[simp] theorem writeNoise_keeps (pos) (key) (ib) (v) (s : State) :
    (writeNoise pos key ib v s).pending = s.pending ∧ (writeNoise pos key ib v s).tether = s.tether := by simp [writeNoise]
@[simp] theorem freeNoise_keeps (i) (j) (s : State) :
    (freeNoise i j s).pending = s.pending ∧ (freeNoise i j s).tether = s.tether := by simp [freeNoise]
@[simp] theorem facetProduct_keeps (i) (j) (sub) (split) (tot) (s : State) :
    ((facetProduct i j sub split tot s).2).pending = s.pending ∧ ((facetProduct i j sub split tot s).2).tether = s.tether := by simp [facetProduct]
@[simp] theorem specFacetConfig_keeps (q : Request) (s : State) :
    (specFacetConfig.act q s).pending = s.pending ∧ (specFacetConfig.act q s).tether = s.tether := by simp [specFacetConfig]
theorem execFacetConfig_keeps (q) (s : State) (t : State) (h : execFacetConfig q s = .next t) :
    t.pending = s.pending ∧ t.tether = s.tether := kenra_keeps _ _ _ _ specFacetConfig_keeps _ h
@[simp] theorem specFacetStatus_keeps (q : Request) (s : State) :
    (specFacetStatus.act q s).pending = s.pending ∧ (specFacetStatus.act q s).tether = s.tether := by simp [specFacetStatus]
theorem execFacetStatus_keeps (q) (s : State) (t : State) (h : execFacetStatus q s = .next t) :
    t.pending = s.pending ∧ t.tether = s.tether := kenra_keeps _ _ _ _ specFacetStatus_keeps _ h

/-! Recorder. -/

@[simp] theorem mergeOverflow_keeps (l) (s : State) :
    (mergeOverflow l s).pending = s.pending ∧ (mergeOverflow l s).tether = s.tether := by simp [mergeOverflow]
@[simp] theorem endEpoch_keeps (part) (s : State) :
    (endEpoch part s).pending = s.pending ∧ (endEpoch part s).tether = s.tether := by simp [endEpoch]
theorem execEpochEnd_keeps (s : State) (t : State) (h : execEpochEnd s = .next t) :
    t.pending = s.pending ∧ t.tether = s.tether := whenOn_keeps _ _ (fun s => by simp) _ h
@[simp] theorem recStop_keeps (st) (code) (m) (s : State) :
    (recStop st code m s).pending = s.pending ∧ (recStop st code m s).tether = s.tether := by simp [recStop]
@[simp] theorem sealGood_keeps (slot) (r) (s : State) :
    (sealGood slot r s).pending = s.pending ∧ (sealGood slot r s).tether = s.tether := by simp [sealGood]
@[simp] theorem sealBad_keeps (slot) (map1) (map2) (s : State) :
    (sealBad slot map1 map2 s).pending = s.pending ∧ (sealBad slot map1 map2 s).tether = s.tether := by simp [sealBad]
@[simp] theorem sealNext_keeps (v) (s : State) :
    (sealNext v s).pending = s.pending ∧ (sealNext v s).tether = s.tether := by unfold sealNext; (repeat' split) <;> simp
theorem execRecordSeal_keeps (v) (s : State) (t : State) (h : execRecordSeal v s = .next t) :
    t.pending = s.pending ∧ t.tether = s.tether := whenOn_keeps _ _ (fun s => by simp) _ h
@[simp] theorem sealAll_keeps (a0) (s : State) :
    (sealAll a0 s).pending = s.pending ∧ (sealAll a0 s).tether = s.tether := by
  induction a0 generalizing s with
  | zero => exact ⟨rfl, rfl⟩
  | succ n ih =>
    unfold sealAll; try dsimp only
    (repeat' split) <;> (first | exact ⟨rfl, rfl⟩ | (rw [(ih _).1, (ih _).2]; simp) | simp)
@[simp] theorem sealRecorder_keeps (s : State) :
    (sealRecorder s).pending = s.pending ∧ (sealRecorder s).tether = s.tether := by simp [sealRecorder]
@[simp] theorem eraseGood_keeps (s : State) :
    (eraseGood s).pending = s.pending ∧ (eraseGood s).tether = s.tether := by simp [eraseGood]
theorem execRecClearDone_keeps (s : State) (t : State) (h : execRecClearDone s = .next t) :
    t.pending = s.pending ∧ t.tether = s.tether := whenOn_keeps _ _ (fun s => by (repeat' split) <;> simp) _ h
@[simp] theorem nextOp_keeps (s : State) :
    (nextOp s).pending = s.pending ∧ (nextOp s).tether = s.tether := by
  unfold nextOp; try dsimp only
  first | (simp; done) | ((repeat' split) <;> simp)
@[simp] theorem decodeGood_keeps (e) (s : State) :
    (decodeGood e s).pending = s.pending ∧ (decodeGood e s).tether = s.tether := by
  unfold decodeGood; try dsimp only
  first | (simp; done) | ((repeat' split) <;> simp)
@[simp] theorem decodeBad_keeps (e) (reason) (s : State) :
    (decodeBad e reason s).pending = s.pending ∧ (decodeBad e reason s).tether = s.tether := by
  unfold decodeBad; try dsimp only
  first | (simp; done) | ((repeat' split) <;> simp)
@[simp] theorem specRecStatus_keeps (q : Request) (s : State) :
    (specRecStatus.act q s).pending = s.pending ∧ (specRecStatus.act q s).tether = s.tether := by simp [specRecStatus]
theorem execRecStatus_keeps (q) (s : State) (t : State) (h : execRecStatus q s = .next t) :
    t.pending = s.pending ∧ t.tether = s.tether := kenra_keeps _ _ _ _ specRecStatus_keeps _ h
@[simp] theorem specRecRead_keeps (q : Request) (s : State) :
    (specRecRead.act q s).pending = s.pending ∧ (specRecRead.act q s).tether = s.tether := by simp [specRecRead]
theorem execRecRead_keeps (q) (s : State) (t : State) (h : execRecRead q s = .next t) :
    t.pending = s.pending ∧ t.tether = s.tether := kenra_keeps _ _ _ _ specRecRead_keeps _ h
@[simp] theorem endRead_keeps (op) (p) (fail) (s : State) :
    (endRead op p fail s).pending = s.pending ∧ (endRead op p fail s).tether = s.tether := by
  unfold endRead; split
  · simp
  · dsimp only; split
    · simp
    · split <;> simp
theorem execRecReadDone_keeps (fail) (s : State) (t : State) (h : execRecReadDone fail s = .next t) :
    t.pending = s.pending ∧ t.tether = s.tether := whenOn_keeps _ _ (fun s => by simp) _ h
@[simp] theorem specRecExport_keeps (q : Request) (s : State) :
    (specRecExport.act q s).pending = s.pending ∧ (specRecExport.act q s).tether = s.tether := by simp [specRecExport]
theorem execRecExport_keeps (q) (s : State) (t : State) (h : execRecExport q s = .next t) :
    t.pending = s.pending ∧ t.tether = s.tether := kenra_keeps _ _ _ _ specRecExport_keeps _ h
@[simp] theorem specRecClear_keeps (q : Request) (s : State) :
    (specRecClear.act q s).pending = s.pending ∧ (specRecClear.act q s).tether = s.tether := by simp [specRecClear]
theorem execRecClear_keeps (q) (s : State) (t : State) (h : execRecClear q s = .next t) :
    t.pending = s.pending ∧ t.tether = s.tether := kenra_keeps _ _ _ _ specRecClear_keeps _ h

/-! LoadCore. -/

@[simp] theorem beginLoad_keeps (c) (o) (q) (s : State) :
    (beginLoad c o q s).pending = s.pending ∧ (beginLoad c o q s).tether = s.tether := by simp [beginLoad]

/-! Clasp. -/

@[simp] theorem claspMark_keeps (b) (s : State) :
    (claspMark b s).pending = s.pending ∧ (claspMark b s).tether = s.tether := by simp [claspMark]
@[simp] theorem takeTile_keeps (j) (t) (s : State) :
    (takeTile j t s).pending = s.pending ∧ (takeTile j t s).tether = s.tether := by
  unfold takeTile; try dsimp only
  first | (simp; done) | ((repeat' split) <;> simp)
@[simp] theorem grantTile_keeps (s : State) (t) :
    (grantTile s t).pending = s.pending ∧ (grantTile s t).tether = s.tether := by
  unfold grantTile; try dsimp only
  first | (simp; done) | ((repeat' split) <;> simp)
@[simp] theorem settleOwner_keeps (s : State) (j) :
    (settleOwner s j).pending = s.pending ∧ (settleOwner s j).tether = s.tether := by
  unfold settleOwner; try dsimp only
  first | (simp; done) | ((repeat' split) <;> simp)
@[simp] theorem grantTiles_keeps (s : State) :
    (grantTiles s).pending = s.pending ∧ (grantTiles s).tether = s.tether := by
  unfold grantTiles; try dsimp only
  first | (simp; done) | ((repeat' split) <;> simp)
@[simp] theorem endJob_keeps (j) (s : State) :
    (endJob j s).pending = s.pending ∧ (endJob j s).tether = s.tether := by simp [endJob]
theorem execTileClaim_keeps (job) (s : State) (t : State) (h : execTileClaim job s = .next t) :
    t.pending = s.pending ∧ t.tether = s.tether := by cases h; (repeat' split) <;> simp
@[simp] theorem emitItems_keeps (j) (l) (s : State) :
    (emitItems j l s).pending = s.pending ∧ (emitItems j l s).tether = s.tether := by simp [emitItems]
@[simp] theorem gapJob_keeps (i) (j) (reason) (s : State) :
    (gapJob i j reason s).pending = s.pending ∧ (gapJob i j reason s).tether = s.tether := by simp [gapJob]
@[simp] theorem flushJobs_keeps (a0) (s : State) :
    (flushJobs a0 s).pending = s.pending ∧ (flushJobs a0 s).tether = s.tether := by
  induction a0 generalizing s with
  | zero => exact ⟨rfl, rfl⟩
  | succ n ih =>
    unfold flushJobs; try dsimp only
    (repeat' split) <;> (first | exact ⟨rfl, rfl⟩ | (rw [(ih _).1, (ih _).2]; simp) | simp)
@[simp] theorem settleJobs_keeps (s : State) :
    (settleJobs s).pending = s.pending ∧ (settleJobs s).tether = s.tether := by simp [settleJobs]
@[simp] theorem noteLoss_keeps (id) (d) (reason) (s : State) :
    (noteLoss id d reason s).pending = s.pending ∧ (noteLoss id d reason s).tether = s.tether := by
  unfold noteLoss; try dsimp only
  first | (simp; done) | ((repeat' split) <;> simp)
@[simp] theorem loseDump_keeps (id) (d) (reason) (s : State) :
    (loseDump id d reason s).pending = s.pending ∧ (loseDump id d reason s).tether = s.tether := by simp [loseDump]
@[simp] theorem locketLost_keeps (tile) (s : State) :
    (locketLost tile s).pending = s.pending ∧ (locketLost tile s).tether = s.tether := by
  unfold locketLost; try dsimp only
  first | (simp; done) | ((repeat' split) <;> simp)
@[simp] theorem addWords_keeps (j) (half) (d) (s : State) :
    (addWords j half d s).pending = s.pending ∧ (addWords j half d s).tether = s.tether := by simp [addWords]
@[simp] theorem includeDump_keeps (i) (j) (d) (s : State) :
    (includeDump i j d s).pending = s.pending ∧ (includeDump i j d s).tether = s.tether := by simp [includeDump]
@[simp] theorem landDump_keeps (d) (s : State) :
    (landDump d s).pending = s.pending ∧ (landDump d s).tether = s.tether := by unfold landDump; (repeat' split) <;> simp
@[simp] theorem waitPlane_keeps (id) (s : State) :
    (waitPlane id s).pending = s.pending ∧ (waitPlane id s).tether = s.tether := by
  unfold waitPlane; try dsimp only
  first | (simp; done) | ((repeat' split) <;> simp)
@[simp] theorem addEcc_keeps (id) (ce) (ue) (s : State) :
    (addEcc id ce ue s).pending = s.pending ∧ (addEcc id ce ue s).tether = s.tether := by
  unfold addEcc; try dsimp only
  first | (simp; done) | ((repeat' split) <;> simp)
theorem execSpillPlaneTake_keeps (job) (s : State) (t : State) (h : execSpillPlaneTake job s = .next t) :
    t.pending = s.pending ∧ t.tether = s.tether := by cases h; (repeat' split) <;> simp
@[simp] theorem countLimits_keeps (l) (s : State) :
    (countLimits l s).pending = s.pending ∧ (countLimits l s).tether = s.tether := by simp [countLimits]
@[simp] theorem readProduct_keeps (i) (j) (s : State) :
    (readProduct i j s).pending = s.pending ∧ (readProduct i j s).tether = s.tether := by simp [readProduct]
theorem execTileReadout_keeps (job) (ce) (ue) (s : State) (t : State) (h : execTileReadout job ce ue s = .next t) :
    t.pending = s.pending ∧ t.tether = s.tether := by cases h; (repeat' split) <;> simp
@[simp] theorem laAdd_keeps (key) (first) (d) (s : State) :
    (laAdd key first d s).pending = s.pending ∧ (laAdd key first d s).tether = s.tether := by simp [laAdd]
@[simp] theorem laClear_keeps (key) (s : State) :
    (laClear key s).pending = s.pending ∧ (laClear key s).tether = s.tether := by simp [laClear]
@[simp] theorem setLa_keeps (key) (v) (s : State) :
    (setLa key v s).pending = s.pending ∧ (setLa key v s).tether = s.tether := by simp [setLa]
@[simp] theorem voidLa_keeps (i) (j) (reason) (s : State) :
    (voidLa i j reason s).pending = s.pending ∧ (voidLa i j reason s).tether = s.tether := by simp [voidLa]
@[simp] theorem laRead_keeps (key) (ue) (s : State) :
    (laRead key ue s).2.pending = s.pending ∧ (laRead key ue s).2.tether = s.tether := by
  unfold laRead; try dsimp only
  first | (simp; done) | ((repeat' split) <;> simp)
@[simp] theorem laTouch_keeps (key) (s : State) :
    (laTouch key s).pending = s.pending ∧ (laTouch key s).tether = s.tether := by
  unfold laTouch
  rw [foldl_pending, foldl_tether]
  · simp
  all_goals (intro s x; (repeat' split) <;> simp)
@[simp] theorem ite_snd_pending (c : Prop) [Decidable c] (a b : Bool × State) :
    (if c then a else b).2.pending = if c then a.2.pending else b.2.pending := by split <;> rfl
@[simp] theorem ite_snd_tether (c : Prop) [Decidable c] (a b : Bool × State) :
    (if c then a else b).2.tether = if c then a.2.tether else b.2.tether := by split <;> rfl
theorem execLaDump_keeps (job) (complete) (ue) (s : State) (t : State) (h : execLaDump job complete ue s = .next t) :
    t.pending = s.pending ∧ t.tether = s.tether := by
  cases h; split
  · simp
  dsimp only; split
  · simp only [apply_ite State.pending, apply_ite State.tether]
    (repeat' split) <;> simp
  · simp
@[simp] theorem dropDumps_keeps (id) (a) (s : State) :
    (dropDumps id a s).pending = s.pending ∧ (dropDumps id a s).tether = s.tether := by simp [dropDumps]
@[simp] theorem dropClaim_keeps (j) (s : State) :
    (dropClaim j s).pending = s.pending ∧ (dropClaim j s).tether = s.tether := by
  unfold dropClaim; try dsimp only
  first | (simp; done) | ((repeat' split) <;> simp)
@[simp] theorem guardTile_keeps (s : State) (j) :
    (guardTile s j).pending = s.pending ∧ (guardTile s j).tether = s.tether := by unfold guardTile; dsimp only; (repeat' split) <;> simp
@[simp] theorem guardSpill_keeps (s : State) (j) :
    (guardSpill s j).pending = s.pending ∧ (guardSpill s j).tether = s.tether := by unfold guardSpill; dsimp only; (repeat' split) <;> simp
@[simp] theorem guardLa_keeps (s : State) (j) :
    (guardLa s j).pending = s.pending ∧ (guardLa s j).tether = s.tether := by unfold guardLa; (repeat' split) <;> simp
@[simp] theorem claspGuard_keeps (s : State) :
    (claspGuard s).pending = s.pending ∧ (claspGuard s).tether = s.tether := by simp [claspGuard]
@[simp] theorem endReadout_keeps (s : State) (j) :
    (endReadout s j).pending = s.pending ∧ (endReadout s j).tether = s.tether := by unfold endReadout; (repeat' split) <;> simp
@[simp] theorem specClaspConfig_keeps (q : Request) (s : State) :
    (specClaspConfig.act q s).pending = s.pending ∧ (specClaspConfig.act q s).tether = s.tether := by simp [specClaspConfig]
theorem execClaspConfig_keeps (q) (s : State) (t : State) (h : execClaspConfig q s = .next t) :
    t.pending = s.pending ∧ t.tether = s.tether := kenra_keeps _ _ _ _ specClaspConfig_keeps _ h
@[simp] theorem specClaspTableLoad_keeps (q : Request) (s : State) :
    (specClaspTableLoad.act q s).pending = s.pending ∧ (specClaspTableLoad.act q s).tether = s.tether := by simp [specClaspTableLoad]
theorem execClaspTableLoad_keeps (q) (s : State) (t : State) (h : execClaspTableLoad q s = .next t) :
    t.pending = s.pending ∧ t.tether = s.tether := kenra_keeps _ _ _ _ specClaspTableLoad_keeps _ h
@[simp] theorem applyTable_keeps (q) (data) (s : State) :
    (applyTable q data s).pending = s.pending ∧ (applyTable q data s).tether = s.tether := by simp [applyTable]
@[simp] theorem specClaspCurveLoad_keeps (q : Request) (s : State) :
    (specClaspCurveLoad.act q s).pending = s.pending ∧ (specClaspCurveLoad.act q s).tether = s.tether := by simp [specClaspCurveLoad]
theorem execClaspCurveLoad_keeps (q) (s : State) (t : State) (h : execClaspCurveLoad q s = .next t) :
    t.pending = s.pending ∧ t.tether = s.tether := kenra_keeps _ _ _ _ specClaspCurveLoad_keeps _ h
@[simp] theorem applyCurve_keeps (q) (data) (s : State) :
    (applyCurve q data s).pending = s.pending ∧ (applyCurve q data s).tether = s.tether := by simp [applyCurve]
@[simp] theorem specClaspStatus_keeps (q : Request) (s : State) :
    (specClaspStatus.act q s).pending = s.pending ∧ (specClaspStatus.act q s).tether = s.tether := by simp [specClaspStatus]
theorem execClaspStatus_keeps (q) (s : State) (t : State) (h : execClaspStatus q s = .next t) :
    t.pending = s.pending ∧ t.tether = s.tether := kenra_keeps _ _ _ _ specClaspStatus_keeps _ h

/-! Arrays. -/

@[simp] theorem operandSet_keeps (i) (pos) (block) (buffer) (input) (t) (x) (s : State) :
    (operandSet i pos block buffer input t x s).pending = s.pending ∧
      (operandSet i pos block buffer input t x s).tether = s.tether := by
  unfold operandSet; (repeat' split) <;> simp
@[simp] theorem flagLines_keeps (i) (pos) (block) (buffer) (a) (lines) (s : State) :
    (flagLines i pos block buffer a lines s).pending = s.pending ∧ (flagLines i pos block buffer a lines s).tether = s.tether := by simp [flagLines]
@[simp] theorem loadStandby_keeps (a) (slot) (s : State) :
    (loadStandby a slot s).pending = s.pending ∧ (loadStandby a slot s).tether = s.tether := by
  unfold loadStandby; try dsimp only
  first | (simp; done) | ((repeat' split) <;> simp)
@[simp] theorem settleStandby_keeps (a) (slot) (bad) (s : State) :
    (settleStandby a slot bad s).pending = s.pending ∧ (settleStandby a slot bad s).tether = s.tether := by
  unfold settleStandby; try dsimp only
  first | (simp; done) | ((repeat' split) <;> simp)
@[simp] theorem activate_keeps (a) (s : State) :
    (activate a s).pending = s.pending ∧ (activate a s).tether = s.tether := by
  unfold activate; try dsimp only
  first | (simp; done) | ((repeat' split) <;> simp)
@[simp] theorem loadNext_keeps (a) (s : State) :
    (loadNext a s).pending = s.pending ∧ (loadNext a s).tether = s.tether := by
  unfold loadNext; try dsimp only
  first | (simp; done) | ((repeat' split) <;> simp)
@[simp] theorem runPass_keeps (a) (p) (stalls) (ue) (i) (w) (buffer) (s : State) :
    (runPass a p stalls ue i w buffer s).pending = s.pending ∧ (runPass a p stalls ue i w buffer s).tether = s.tether := by simp [runPass]
@[simp] theorem roundEcc_keeps (r) (s : State) :
    (roundEcc r s).pending = s.pending ∧ (roundEcc r s).tether = s.tether := by
  unfold roundEcc; try dsimp only
  first | (simp; done) | ((repeat' split) <;> simp)
@[simp] theorem writeRound_keeps (r) (s : State) :
    (writeRound r s).pending = s.pending ∧ (writeRound r s).tether = s.tether := by
  unfold writeRound; try dsimp only
  first | (simp; done) | ((repeat' split) <;> simp)
@[simp] theorem freeGens_keeps (s : State) :
    (freeGens s).pending = s.pending ∧ (freeGens s).tether = s.tether := by unfold freeGens; (repeat' split) <;> simp
@[simp] theorem endRound_keeps (s : State) (r) :
    (endRound s r).pending = s.pending ∧ (endRound s r).tether = s.tether := by
  unfold endRound; try dsimp only
  first | (simp; done) | ((repeat' split) <;> simp)
@[simp] theorem landRounds_keeps (s : State) :
    (landRounds s).pending = s.pending ∧ (landRounds s).tether = s.tether := by
  unfold landRounds; try dsimp only
  first | (simp; done) | ((repeat' split) <;> simp)
theorem execCorrelationPass_keeps (a0) (a1) (a2) (a3) (s : State) (t : State) (h : execCorrelationPass a0 a1 a2 a3 s = .next t) :
    t.pending = s.pending ∧ t.tether = s.tether := by
  have h := Host.Outcome.next.inj h; subst h
  dsimp only; split
  · have k := takeWork_keeps _ _ _ _ ‹takeWork _ _ = _›
    (repeat' split) <;> simp [k.1, k.2]
  · simp
@[simp] theorem shiftRow_keeps (a) (s : State) :
    (shiftRow a s).pending = s.pending ∧ (shiftRow a s).tether = s.tether := by
  unfold shiftRow; try dsimp only
  first | (simp; done) | ((repeat' split) <;> simp)
@[simp] theorem transferDump_keeps (a) (s : State) :
    (transferDump a s).pending = s.pending ∧ (transferDump a s).tether = s.tether := by
  unfold transferDump; try dsimp only
  first | (simp; done) | ((repeat' split) <;> simp)
@[simp] theorem stallCycle_keeps (a) (s : State) :
    (stallCycle a s).pending = s.pending ∧ (stallCycle a s).tether = s.tether := by
  unfold stallCycle; try dsimp only
  first | (simp; done) | ((repeat' split) <;> simp)
theorem execChainShift_keeps (array') (due) (s : State) (t : State) (h : execChainShift array' due s = .next t) :
    t.pending = s.pending ∧ t.tether = s.tether := whenOn_keeps _ _ (fun s => by
  try dsimp only
  first | (simp; done) | ((repeat' split) <;> simp)) _ h
@[simp] theorem dumpLanded_keeps (a) (d) (s : State) :
    (dumpLanded a d s).pending = s.pending ∧ (dumpLanded a d s).tether = s.tether := by unfold dumpLanded; (repeat' split) <;> simp
theorem execLandingBufferMove_keeps (array') (turnaround) (ce) (ue) (s : State) (t : State) (h : execLandingBufferMove array' turnaround ce ue s = .next t) :
    t.pending = s.pending ∧ t.tether = s.tether := whenOn_keeps _ _ (fun s => by
  try dsimp only
  first | (simp; done) | ((repeat' split) <;> simp)) _ h
@[simp] theorem abandonPass_keeps (s : State) (w) :
    (abandonPass s w).pending = s.pending ∧ (abandonPass s w).tether = s.tether := by unfold abandonPass; (repeat' split) <;> simp
@[simp] theorem abandonChain_keeps (s : State) (a) :
    (abandonChain s a).pending = s.pending ∧ (abandonChain s a).tether = s.tether := by simp [abandonChain]
@[simp] theorem arraysTick_keeps (s : State) :
    (arraysTick s).pending = s.pending ∧ (arraysTick s).tether = s.tether := by simp [arraysTick]
@[simp] theorem clearLanding_keeps (s : State) :
    (clearLanding s).pending = s.pending ∧ (clearLanding s).tether = s.tether := by simp [clearLanding]
@[simp] theorem specArrayConfig_keeps (q : Request) (s : State) :
    (specArrayConfig.act q s).pending = s.pending ∧ (specArrayConfig.act q s).tether = s.tether := by simp [specArrayConfig]
theorem execArrayConfig_keeps (q) (s : State) (t : State) (h : execArrayConfig q s = .next t) :
    t.pending = s.pending ∧ t.tether = s.tether := kenra_keeps _ _ _ _ specArrayConfig_keeps _ h
@[simp] theorem specArrayTest_keeps (q : Request) (s : State) :
    (specArrayTest.act q s).pending = s.pending ∧ (specArrayTest.act q s).tether = s.tether := by simp [specArrayTest]
theorem execArrayTest_keeps (q) (s : State) (t : State) (h : execArrayTest q s = .next t) :
    t.pending = s.pending ∧ t.tether = s.tether := kenra_keeps _ _ _ _ specArrayTest_keeps _ h
theorem execArrayTestDone_keeps (passed) (s : State) (t : State) (h : execArrayTestDone passed s = .next t) :
    t.pending = s.pending ∧ t.tether = s.tether := whenOn_keeps _ _ (fun s => by (repeat' split) <;> simp) _ h
@[simp] theorem specArrayStatus_keeps (q : Request) (s : State) :
    (specArrayStatus.act q s).pending = s.pending ∧ (specArrayStatus.act q s).tether = s.tether := by simp [specArrayStatus]
theorem execArrayStatus_keeps (q) (s : State) (t : State) (h : execArrayStatus q s = .next t) :
    t.pending = s.pending ∧ t.tether = s.tether := kenra_keeps _ _ _ _ specArrayStatus_keeps _ h

/-! Beam. -/

@[simp] theorem beamMark_keeps (b) (s : State) :
    (beamMark b s).pending = s.pending ∧ (beamMark b s).tether = s.tether := by simp [beamMark]
@[simp] theorem markWeights_keeps (bad) (s : State) :
    (markWeights bad s).pending = s.pending ∧ (markWeights bad s).tether = s.tether := by simp [markWeights]
@[simp] theorem modPeaks_keeps (k) (block) (ostream) (f) (s : State) :
    (modPeaks k block ostream f s).pending = s.pending ∧ (modPeaks k block ostream f s).tether = s.tether := by simp [modPeaks]
@[simp] theorem loadRound_keeps (i) (x) (wce) (badW) (s : State) :
    (loadRound i x wce badW s).pending = s.pending ∧ (loadRound i x wce badW s).tether = s.tether := by
  unfold loadRound; try dsimp only
  first | (simp; done) | ((repeat' split) <;> simp)
@[simp] theorem fetchRound_keeps (i) (x) (buffer) (ce) (ue) (s : State) :
    (fetchRound i x buffer ce ue s).pending = s.pending ∧ (fetchRound i x buffer ce ue s).tether = s.tether := by
  unfold fetchRound; try dsimp only
  first | (simp; done) | ((repeat' split) <;> simp)
@[simp] theorem runSegment_keeps (x) (ce) (ue) (ecc) (i) (j) (w) (buffer) (s : State) :
    (runSegment x ce ue ecc i j w buffer s).pending = s.pending ∧ (runSegment x ce ue ecc i j w buffer s).tether = s.tether := by
  unfold runSegment; try dsimp only
  first | (simp; done) | ((repeat' split) <;> simp)
theorem execBeamSegment_keeps (x) (ce) (ue) (ecc) (s : State) (t : State)
    (h : execBeamSegment x ce ue ecc s = .next t) : t.pending = s.pending ∧ t.tether = s.tether := by
  have h := Host.Outcome.next.inj h; subst h
  dsimp only; split
  · have k := takeWork_keeps _ _ _ _ ‹takeWork _ _ = _›
    (repeat' split) <;> simp [k.1, k.2]
  · simp
@[simp] theorem emitBeam_keeps (block) (x) (s : State) :
    (emitBeam block x s).pending = s.pending ∧ (emitBeam block x s).tether = s.tether := by simp [emitBeam]
@[simp] theorem emitVoltage_keeps (i) (j) (b) (s : State) :
    (emitVoltage i j b s).pending = s.pending ∧ (emitVoltage i j b s).tether = s.tether := by simp [emitVoltage]
@[simp] theorem emitPower_keeps (j) (block) (bad) (x) (l) (s : State) :
    (emitPower j block bad x l s).pending = s.pending ∧ (emitPower j block bad x l s).tether = s.tether := by simp [emitPower]
@[simp] theorem watchPower_keeps (set) (block) (ostream) (ch) (u) (nint) (bad) (w) (s : State) :
    (watchPower set block ostream ch u nint bad w s).pending = s.pending ∧ (watchPower set block ostream ch u nint bad w s).tether = s.tether := by
  unfold watchPower; try dsimp only
  repeat' first | (simp; done) | (refine And.intro ?_ ?_) | intro _ | split | rw [foldl_pending] | rw [foldl_tether] | simp
@[simp] theorem closeWindow_keeps (i) (j) (b) (s : State) :
    (closeWindow i j b s).pending = s.pending ∧ (closeWindow i j b s).tether = s.tether := by unfold closeWindow; dsimp only; (repeat' split) <;> simp
@[simp] theorem readPower_keeps (i) (j) (b) (s : State) :
    (readPower i j b s).pending = s.pending ∧ (readPower i j b s).tether = s.tether := by simp [readPower]
@[simp] theorem addStats_keeps (i) (b) (s : State) :
    (addStats i b s).pending = s.pending ∧ (addStats i b s).tether = s.tether := by simp [addStats]
@[simp] theorem gapStats_keeps (i) (j) (a2) (block) (reason) (s : State) :
    (gapStats i j a2 block reason s).pending = s.pending ∧ (gapStats i j a2 block reason s).tether = s.tether := by simp [gapStats]
@[simp] theorem closeStats_keeps (i) (j) (a2) (block) (s : State) :
    (closeStats i j a2 block s).pending = s.pending ∧ (closeStats i j a2 block s).tether = s.tether := by unfold closeStats; dsimp only; (repeat' split) <;> simp
@[simp] theorem endRun_keeps (j) (s : State) :
    (endRun j s).pending = s.pending ∧ (endRun j s).tether = s.tether := by simp [endRun]
@[simp] theorem includeSegment_keeps (j) (b) (s : State) :
    (includeSegment j b s).pending = s.pending ∧ (includeSegment j b s).tether = s.tether := by
  unfold includeSegment; try dsimp only
  first | (simp; done) | ((repeat' split) <;> simp)
@[simp] theorem readSegment_keeps (i) (j) (b) (s : State) :
    (readSegment i j b s).pending = s.pending ∧ (readSegment i j b s).tether = s.tether := by
  unfold readSegment; dsimp only; (repeat' split) <;> simp
@[simp] theorem loseProducts_keeps (i) (j) (a2) (m) (reason) (s : State) :
    (loseProducts i j a2 m reason s).pending = s.pending ∧ (loseProducts i j a2 m reason s).tether = s.tether := by simp [loseProducts]
@[simp] theorem loseSums_keeps (i) (j) (set) (m) (reason) (s : State) :
    (loseSums i j set m reason s).pending = s.pending ∧ (loseSums i j set m reason s).tether = s.tether := by
  unfold loseSums; try dsimp only
  first | (simp; done) | ((repeat' split) <;> simp)
@[simp] theorem loseSegments_keeps (l) (s : State) :
    (loseSegments l s).pending = s.pending ∧ (loseSegments l s).tether = s.tether := by
  unfold loseSegments; try dsimp only
  first | (simp; done) | ((repeat' split) <;> simp)
@[simp] theorem voidSegment_keeps (i) (j) (b) (s : State) :
    (voidSegment i j b s).pending = s.pending ∧ (voidSegment i j b s).tether = s.tether := by
  unfold voidSegment; try dsimp only
  first | (simp; done) | ((repeat' split) <;> simp)
@[simp] theorem voidPartials_keeps (j) (b) (s : State) :
    (voidPartials j b s).pending = s.pending ∧ (voidPartials j b s).tether = s.tether := by
  unfold voidPartials; try dsimp only
  first | (simp; done) | ((repeat' split) <;> simp)
@[simp] theorem settleShed_keeps (l) (s : State) :
    (settleShed l s).pending = s.pending ∧ (settleShed l s).tether = s.tether := by
  induction l generalizing s with
  | nil => exact ⟨rfl, rfl⟩
  | cons e l ih => unfold settleShed; split <;> simp [ih]
theorem execSegmentReadout_keeps (set) (pos) (m) (ce) (ue) (partialUe) (s : State) (t : State)
    (h : execSegmentReadout set pos m ce ue partialUe s = .next t) : t.pending = s.pending ∧ t.tether = s.tether := by
  cases h; dsimp only; split
  · simp
  · split
    · simp
    · split
      · rw [(settleShed_keeps _ _).1, (settleShed_keeps _ _).2]; (repeat' split) <;> simp
      · simp
@[simp] theorem emitPeaks_keeps (i) (k) (b) (key) (x) (s : State) :
    (emitPeaks i k b key x s).pending = s.pending ∧ (emitPeaks i k b key x s).tether = s.tether := by unfold emitPeaks; (repeat' split) <;> simp
theorem execPeakListEmit_keeps (watchNo) (s : State) (t : State) (h : execPeakListEmit watchNo s = .next t) :
    t.pending = s.pending ∧ t.tether = s.tether := by cases h; dsimp only; (repeat' split) <;> simp
@[simp] theorem countAbandoned_keeps (l) (s : State) :
    (countAbandoned l s).pending = s.pending ∧ (countAbandoned l s).tether = s.tether := by
  unfold countAbandoned; try dsimp only
  first | (simp; done) | ((repeat' split) <;> simp)
@[simp] theorem abandonSegments_keeps (l) (s : State) :
    (abandonSegments l s).pending = s.pending ∧ (abandonSegments l s).tether = s.tether := by
  unfold abandonSegments; try dsimp only
  first | (simp; done) | ((repeat' split) <;> simp)
@[simp] theorem claspTick_keeps (n) (s : State) :
    (claspTick n s).pending = s.pending ∧ (claspTick n s).tether = s.tether := by simp [claspTick]
@[simp] theorem beamGuard_keeps (s : State) :
    (beamGuard s).pending = s.pending ∧ (beamGuard s).tether = s.tether := by simp [beamGuard]
@[simp] theorem stopBeamsOf_keeps (s : State) (x) :
    (stopBeamsOf s x).pending = s.pending ∧ (stopBeamsOf s x).tether = s.tether := by
  unfold stopBeamsOf
  repeat' first
    | (simp; done)
    | (refine And.intro ?_ ?_)
    | intro _
    | split
    | rw [foldl_pending]
    | rw [foldl_tether]
    | simp
@[simp] theorem stopBeams_keeps (s : State) :
    (stopBeams s).pending = s.pending ∧ (stopBeams s).tether = s.tether := by
  unfold stopBeams
  repeat' first
    | (simp; done)
    | (refine And.intro ?_ ?_)
    | intro _
    | split
    | rw [foldl_pending]
    | rw [foldl_tether]
    | simp
@[simp] theorem specBeamConfig_keeps (q : Request) (s : State) :
    (specBeamConfig.act q s).pending = s.pending ∧ (specBeamConfig.act q s).tether = s.tether := by simp [specBeamConfig]
theorem execBeamConfig_keeps (q) (s : State) (t : State) (h : execBeamConfig q s = .next t) :
    t.pending = s.pending ∧ t.tether = s.tether := kenra_keeps _ _ _ _ specBeamConfig_keeps _ h
@[simp] theorem specBeamWeightLoad_keeps (q : Request) (s : State) :
    (specBeamWeightLoad.act q s).pending = s.pending ∧ (specBeamWeightLoad.act q s).tether = s.tether := by simp [specBeamWeightLoad]
theorem execBeamWeightLoad_keeps (q) (s : State) (t : State) (h : execBeamWeightLoad q s = .next t) :
    t.pending = s.pending ∧ t.tether = s.tether := kenra_keeps _ _ _ _ specBeamWeightLoad_keeps _ h
@[simp] theorem applyWeights_keeps (q) (data) (s : State) :
    (applyWeights q data s).pending = s.pending ∧ (applyWeights q data s).tether = s.tether := by simp [applyWeights]
@[simp] theorem specBeamWeightMap_keeps (q : Request) (s : State) :
    (specBeamWeightMap.act q s).pending = s.pending ∧ (specBeamWeightMap.act q s).tether = s.tether := by simp [specBeamWeightMap]
theorem execBeamWeightMap_keeps (q) (s : State) (t : State) (h : execBeamWeightMap q s = .next t) :
    t.pending = s.pending ∧ t.tether = s.tether := kenra_keeps _ _ _ _ specBeamWeightMap_keeps _ h
@[simp] theorem specBeamWatch_keeps (q : Request) (s : State) :
    (specBeamWatch.act q s).pending = s.pending ∧ (specBeamWatch.act q s).tether = s.tether := by simp [specBeamWatch]
theorem execBeamWatch_keeps (q) (s : State) (t : State) (h : execBeamWatch q s = .next t) :
    t.pending = s.pending ∧ t.tether = s.tether := kenra_keeps _ _ _ _ specBeamWatch_keeps _ h
@[simp] theorem specBeamStatus_keeps (q : Request) (s : State) :
    (specBeamStatus.act q s).pending = s.pending ∧ (specBeamStatus.act q s).tether = s.tether := by simp [specBeamStatus]
theorem execBeamStatus_keeps (q) (s : State) (t : State) (h : execBeamStatus q s = .next t) :
    t.pending = s.pending ∧ t.tether = s.tether := kenra_keeps _ _ _ _ specBeamStatus_keeps _ h

end Sys2Proof.Laws
end

