-- ==== Sys2Proof/Laws/KeepUnits.lean ====
section
/-! SUPPORT. What no command changes: the queue of waiting commands and, but for the writers of the Tether window and the loss of
power, the Tether. One lemma per operation of the lanes, the Compass, the twin, health, BOOT, the channeliser, the
Pack engines, ingest and the pegs. -/

namespace Sys2Proof.Laws
open Sys2Proof.Machine

set_option linter.unusedTactic false
set_option linter.unreachableTactic false
set_option linter.unusedSimpArgs false
set_option linter.unnecessarySeqFocus false

/-! Pins. -/

@[simp] theorem filterEdge_keeps (k) (width) (s : State) :
    ((filterEdge k width s).2).pending = s.pending ∧ ((filterEdge k width s).2).tether = s.tether := by unfold filterEdge; dsimp only; (repeat' split) <;> simp
@[simp] theorem specPinFilterConfig_keeps (q : Request) (s : State) :
    (specPinFilterConfig.act q s).pending = s.pending ∧ (specPinFilterConfig.act q s).tether = s.tether := by simp [specPinFilterConfig]
theorem execPinFilterConfig_keeps (q) (s : State) (t : State) (h : execPinFilterConfig q s = .next t) :
    t.pending = s.pending ∧ t.tether = s.tether := kenra_keeps _ _ _ _ specPinFilterConfig_keeps _ h
theorem execPinStuck_keeps (k) (s : State) (t : State) (h : execPinStuck k s = .next t) :
    t.pending = s.pending ∧ t.tether = s.tether := whenOn_keeps _ _ (fun s => by simp) _ h
theorem execPinStuckRelease_keeps (k) (s : State) (t : State) (h : execPinStuckRelease k s = .next t) :
    t.pending = s.pending ∧ t.tether = s.tether := whenOn_keeps _ _ (fun s => by simp) _ h

/-! Compass. -/

@[simp] theorem disqualify_keeps (x) (s : State) :
    (disqualify x s).pending = s.pending ∧ (disqualify x s).tether = s.tether := by simp [disqualify]
@[simp] theorem applyVerdict_keeps (x) (pres) (out) (s : State) :
    (applyVerdict x pres out s).pending = s.pending ∧ (applyVerdict x pres out s).tether = s.tether := by simp [applyVerdict]
@[simp] theorem trainEstimate_keeps (s : State) :
    (trainEstimate s).pending = s.pending ∧ (trainEstimate s).tether = s.tether := by unfold trainEstimate; (repeat' split) <;> simp
@[simp] theorem selectSource_keeps (pairs) (s : State) :
    (selectSource pairs s).pending = s.pending ∧ (selectSource pairs s).tether = s.tether := by unfold selectSource; dsimp only; (repeat' split) <;> simp
theorem execRefVerdict_keeps (present) (s : State) (t : State) (h : execRefVerdict present s = .next t) :
    t.pending = s.pending ∧ t.tether = s.tether := whenOn_keeps _ _ (fun s => by simp) _ h
theorem execPpsEdge_keeps (inputB) (width) (deviation) (s : State) (t : State) (h : execPpsEdge inputB width deviation s = .next t) :
    t.pending = s.pending ∧ t.tether = s.tether := whenOn_keeps _ _ (fun s => by simp) _ h
theorem execReferenceSwitch_keeps (step) (s : State) (t : State) (h : execReferenceSwitch step s = .next t) :
    t.pending = s.pending ∧ t.tether = s.tether := whenOn_keeps _ _ (fun s => by (repeat' split) <;> simp) _ h
@[simp] theorem pulseOut_keeps (k) (at') (s : State) :
    (pulseOut k at' s).pending = s.pending ∧ (pulseOut k at' s).tether = s.tether := by
  unfold pulseOut; try dsimp only
  first | (simp; done) | ((repeat' split) <;> simp)
@[simp] theorem ptpMeasure_keeps (t1) (t2) (s : State) :
    (ptpMeasure t1 t2 s).pending = s.pending ∧ (ptpMeasure t1 t2 s).tether = s.tether := by
  unfold ptpMeasure; try dsimp only
  first | (simp; done) | ((repeat' split) <;> simp)
@[simp] theorem ptpDelayed_keeps (t3) (t4) (raw) (s : State) :
    (ptpDelayed t3 t4 raw s).pending = s.pending ∧ (ptpDelayed t3 t4 raw s).tether = s.tether := by
  unfold ptpDelayed; try dsimp only
  first | (simp; done) | ((repeat' split) <;> simp)
@[simp] theorem ptpReceive_keeps (m) (s : State) :
    (ptpReceive m s).pending = s.pending ∧ (ptpReceive m s).tether = s.tether := by unfold ptpReceive; (repeat' split) <;> simp
theorem execPtpMessageReceive_keeps (quad') (domain) (m) (s : State) (t : State) (h : execPtpMessageReceive quad' domain m s = .next t) :
    t.pending = s.pending ∧ t.tether = s.tether := whenOn_keeps _ _ (fun s => by
  try dsimp only
  first | (simp; done) | ((repeat' split) <;> simp)) _ h
theorem execPtpAnnounceTimeout_keeps (s : State) (t : State) (h : execPtpAnnounceTimeout s = .next t) :
    t.pending = s.pending ∧ t.tether = s.tether := whenOn_keeps _ _ (fun s => by simp) _ h
@[simp] theorem slewPtp_keeps (s : State) :
    (slewPtp s).pending = s.pending ∧ (slewPtp s).tether = s.tether := by simp [slewPtp]
@[simp] theorem relayFrame_keeps (fromB) (f) (s : State) :
    (relayFrame fromB f s).pending = s.pending ∧ (relayFrame fromB f s).tether = s.tether := by unfold relayFrame; (repeat' split) <;> simp
theorem execPtpRelayFrame_keeps (fromB) (f) (s : State) (t : State) (h : execPtpRelayFrame fromB f s = .next t) :
    t.pending = s.pending ∧ t.tether = s.tether := whenOn_keeps _ _ (fun s => by simp) _ h
theorem execTb3MirrorUpdate_keeps (s : State) (t : State) (h : execTb3MirrorUpdate s = .next t) :
    t.pending = s.pending ∧ t.tether = s.tether := whenOn_keeps _ _ (fun s => by simp) _ h
@[simp] theorem injectStart_keeps (kind) (only) (s : State) :
    (injectStart kind only s).pending = s.pending ∧ (injectStart kind only s).tether = s.tether := by simp [injectStart]
theorem execTimeTriggerFire_keeps (trig) (s : State) (t : State) (h : execTimeTriggerFire trig s = .next t) :
    t.pending = s.pending ∧ t.tether = s.tether := whenOn_keeps _ _ (fun s => by (repeat' split) <;> simp) _ h
@[simp] theorem disableSource_keeps (x) (s : State) :
    (disableSource x s).pending = s.pending ∧ (disableSource x s).tether = s.tether := by
  unfold disableSource; try dsimp only
  first | (simp; done) | ((repeat' split) <;> simp)
@[simp] theorem specTimeRefConfig_keeps (q : Request) (s : State) :
    (specTimeRefConfig.act q s).pending = s.pending ∧ (specTimeRefConfig.act q s).tether = s.tether := by simp [specTimeRefConfig]
theorem execTimeRefConfig_keeps (q) (s : State) (t : State) (h : execTimeRefConfig q s = .next t) :
    t.pending = s.pending ∧ t.tether = s.tether := kenra_keeps _ _ _ _ specTimeRefConfig_keeps _ h
@[simp] theorem specTimeRefSelect_keeps (q : Request) (s : State) :
    (specTimeRefSelect.act q s).pending = s.pending ∧ (specTimeRefSelect.act q s).tether = s.tether := by simp [specTimeRefSelect]
theorem execTimeRefSelect_keeps (q) (s : State) (t : State) (h : execTimeRefSelect q s = .next t) :
    t.pending = s.pending ∧ t.tether = s.tether := kenra_keeps _ _ _ _ specTimeRefSelect_keeps _ h
@[simp] theorem specTimePllConfig_keeps (q : Request) (s : State) :
    (specTimePllConfig.act q s).pending = s.pending ∧ (specTimePllConfig.act q s).tether = s.tether := by simp [specTimePllConfig]
theorem execTimePllConfig_keeps (q) (s : State) (t : State) (h : execTimePllConfig q s = .next t) :
    t.pending = s.pending ∧ t.tether = s.tether := kenra_keeps _ _ _ _ specTimePllConfig_keeps _ h
@[simp] theorem specTimeSet_keeps (q : Request) (s : State) :
    (specTimeSet.act q s).pending = s.pending ∧ (specTimeSet.act q s).tether = s.tether := by simp [specTimeSet]
theorem execTimeSet_keeps (q) (s : State) (t : State) (h : execTimeSet q s = .next t) :
    t.pending = s.pending ∧ t.tether = s.tether := kenra_keeps _ _ _ _ specTimeSet_keeps _ h
@[simp] theorem specTimeAdjust_keeps (q : Request) (s : State) :
    (specTimeAdjust.act q s).pending = s.pending ∧ (specTimeAdjust.act q s).tether = s.tether := by simp [specTimeAdjust]
theorem execTimeAdjust_keeps (q) (s : State) (t : State) (h : execTimeAdjust q s = .next t) :
    t.pending = s.pending ∧ t.tether = s.tether := kenra_keeps _ _ _ _ specTimeAdjust_keeps _ h
@[simp] theorem specTimeOutConfig_keeps (q : Request) (s : State) :
    (specTimeOutConfig.act q s).pending = s.pending ∧ (specTimeOutConfig.act q s).tether = s.tether := by simp [specTimeOutConfig]
theorem execTimeOutConfig_keeps (q) (s : State) (t : State) (h : execTimeOutConfig q s = .next t) :
    t.pending = s.pending ∧ t.tether = s.tether := kenra_keeps _ _ _ _ specTimeOutConfig_keeps _ h
@[simp] theorem specTimeTrigArm_keeps (q : Request) (s : State) :
    (specTimeTrigArm.act q s).pending = s.pending ∧ (specTimeTrigArm.act q s).tether = s.tether := by simp [specTimeTrigArm]
theorem execTimeTrigArm_keeps (q) (s : State) (t : State) (h : execTimeTrigArm q s = .next t) :
    t.pending = s.pending ∧ t.tether = s.tether := kenra_keeps _ _ _ _ specTimeTrigArm_keeps _ h
@[simp] theorem cancelTrigger_keeps (k) (s : State) :
    (cancelTrigger k s).pending = s.pending ∧ (cancelTrigger k s).tether = s.tether := by unfold cancelTrigger; (repeat' split) <;> simp
@[simp] theorem specTimeTrigCancel_keeps (q : Request) (s : State) :
    (specTimeTrigCancel.act q s).pending = s.pending ∧ (specTimeTrigCancel.act q s).tether = s.tether := by simp [specTimeTrigCancel]
theorem execTimeTrigCancel_keeps (q) (s : State) (t : State) (h : execTimeTrigCancel q s = .next t) :
    t.pending = s.pending ∧ t.tether = s.tether := kenra_keeps _ _ _ _ specTimeTrigCancel_keeps _ h
@[simp] theorem specTimeStatus_keeps (q : Request) (s : State) :
    (specTimeStatus.act q s).pending = s.pending ∧ (specTimeStatus.act q s).tether = s.tether := by simp [specTimeStatus]
theorem execTimeStatus_keeps (q) (s : State) (t : State) (h : execTimeStatus q s = .next t) :
    t.pending = s.pending ∧ t.tether = s.tether := kenra_keeps _ _ _ _ specTimeStatus_keeps _ h
@[simp] theorem specPtpConfig_keeps (q : Request) (s : State) :
    (specPtpConfig.act q s).pending = s.pending ∧ (specPtpConfig.act q s).tether = s.tether := by simp [specPtpConfig]
theorem execPtpConfig_keeps (q) (s : State) (t : State) (h : execPtpConfig q s = .next t) :
    t.pending = s.pending ∧ t.tether = s.tether := kenra_keeps _ _ _ _ specPtpConfig_keeps _ h
@[simp] theorem specPtpStep_keeps (q : Request) (s : State) :
    (specPtpStep.act q s).pending = s.pending ∧ (specPtpStep.act q s).tether = s.tether := by simp [specPtpStep]
theorem execPtpStep_keeps (q) (s : State) (t : State) (h : execPtpStep q s = .next t) :
    t.pending = s.pending ∧ t.tether = s.tether := kenra_keeps _ _ _ _ specPtpStep_keeps _ h
@[simp] theorem specPtpRelayConfig_keeps (q : Request) (s : State) :
    (specPtpRelayConfig.act q s).pending = s.pending ∧ (specPtpRelayConfig.act q s).tether = s.tether := by simp [specPtpRelayConfig]
theorem execPtpRelayConfig_keeps (q) (s : State) (t : State) (h : execPtpRelayConfig q s = .next t) :
    t.pending = s.pending ∧ t.tether = s.tether := kenra_keeps _ _ _ _ specPtpRelayConfig_keeps _ h

/-! Twin. -/

@[simp] theorem sendTwin_keeps (l) (s : State) :
    (sendTwin l s).pending = s.pending ∧ (sendTwin l s).tether = s.tether := by
  unfold sendTwin; try dsimp only
  first | (simp; done) | ((repeat' split) <;> simp)
@[simp] theorem sendCheckpoint_keeps (s : State) :
    (sendCheckpoint s).pending = s.pending ∧ (sendCheckpoint s).tether = s.tether := by simp [sendCheckpoint]
@[simp] theorem checkpointSecond_keeps (s : State) :
    (checkpointSecond s).pending = s.pending ∧ (checkpointSecond s).tether = s.tether := by simp [checkpointSecond]
@[simp] theorem sendHandover_keeps (n) (s : State) :
    (sendHandover n s).pending = s.pending ∧ (sendHandover n s).tether = s.tether := by simp [sendHandover]
@[simp] theorem askSafe_keeps (s : State) :
    (askSafe s).pending = s.pending ∧ (askSafe s).tether = s.tether := by simp [askSafe]
@[simp] theorem sendControlFrame_keeps (k) (body) (s : State) :
    (sendControlFrame k body s).pending = s.pending ∧ (sendControlFrame k body s).tether = s.tether := by
  unfold sendControlFrame; try dsimp only
  first | (simp; done) | ((repeat' split) <;> simp)
@[simp] theorem stopLead_keeps (s : State) :
    (stopLead s).pending = s.pending ∧ (stopLead s).tether = s.tether := by simp [stopLead]
@[simp] theorem acquireLead_keeps (silent) (s : State) :
    (acquireLead silent s).pending = s.pending ∧ (acquireLead silent s).tether = s.tether := by
  unfold acquireLead; try dsimp only
  first | (simp; done) | ((repeat' split) <;> simp)
theorem execTakeover_keeps (s : State) (t : State) (h : execTakeover s = .next t) :
    t.pending = s.pending ∧ t.tether = s.tether := whenOn_keeps _ _ (fun s => by simp) _ h
@[simp] theorem loadCheckpoint_keeps (s : State) :
    (loadCheckpoint s).pending = s.pending ∧ (loadCheckpoint s).tether = s.tether := by unfold loadCheckpoint; (repeat' split) <;> simp
@[simp] theorem beginDuties_keeps (s : State) :
    (beginDuties s).pending = s.pending ∧ (beginDuties s).tether = s.tether := by
  unfold beginDuties; try dsimp only
  first | (simp; done) | ((repeat' split) <;> simp)
@[simp] theorem completeTakeover_keeps (nt) (s : State) :
    (completeTakeover nt s).pending = s.pending ∧ (completeTakeover nt s).tether = s.tether := by
  unfold completeTakeover; try dsimp only
  first | (simp; done) | ((repeat' split) <;> simp)
theorem execTakeoverComplete_keeps (s : State) (t : State) (h : execTakeoverComplete s = .next t) :
    t.pending = s.pending ∧ t.tether = s.tether := whenOn_keeps _ _ (fun s => by (repeat' split) <;> simp) _ h
@[simp] theorem boundTakeover_keeps (s : State) :
    (boundTakeover s).pending = s.pending ∧ (boundTakeover s).tether = s.tether := by
  unfold boundTakeover; try dsimp only
  first | (simp; done) | ((repeat' split) <;> simp)
theorem execYieldLead_keeps (s : State) (t : State) (h : execYieldLead s = .next t) :
    t.pending = s.pending ∧ t.tether = s.tether := whenOn_keeps _ _ (fun s => by simp) _ h
theorem execRidgeHeartbeatWithdraw_keeps (s : State) (t : State) (h : execRidgeHeartbeatWithdraw s = .next t) :
    t.pending = s.pending ∧ t.tether = s.tether := whenOn_keeps _ _ (fun s => by simp) _ h
theorem execHbInEdge_keeps (width) (s : State) (t : State) (h : execHbInEdge width s = .next t) :
    t.pending = s.pending ∧ t.tether = s.tether := whenOn_keeps _ _ (fun s => by simp) _ h
theorem execHeartbeat_keeps (m) (s : State) (t : State) (h : execHeartbeat m s = .next t) :
    t.pending = s.pending ∧ t.tether = s.tether := whenOn_keeps _ _ (fun s => by simp) _ h
@[simp] theorem judgeSkew_keeps (s : State) :
    (judgeSkew s).pending = s.pending ∧ (judgeSkew s).tether = s.tether := by
  unfold judgeSkew; try dsimp only
  first | (simp; done) | ((repeat' split) <;> simp)
@[simp] theorem judgeFrame_keeps (s : State) :
    (judgeFrame s).pending = s.pending ∧ (judgeFrame s).tether = s.tether := by simp [judgeFrame]
@[simp] theorem clearPaths_keeps (s : State) :
    (clearPaths s).pending = s.pending ∧ (clearPaths s).tether = s.tether := by simp [clearPaths]
@[simp] theorem namedRoles_keeps (s : State) :
    (namedRoles s).pending = s.pending ∧ (namedRoles s).tether = s.tether := by unfold namedRoles; dsimp only; (repeat' split) <;> simp
@[simp] theorem askReclaim_keeps (s : State) :
    (askReclaim s).pending = s.pending ∧ (askReclaim s).tether = s.tether := by simp [askReclaim]
@[simp] theorem sendHeartbeat_keeps (claim) (s : State) :
    (sendHeartbeat claim s).pending = s.pending ∧ (sendHeartbeat claim s).tether = s.tether := by
  unfold sendHeartbeat; try dsimp only
  first | (simp; done) | ((repeat' split) <;> simp)
@[simp] theorem twinTick_keeps (s : State) :
    (twinTick s).pending = s.pending ∧ (twinTick s).tether = s.tether := by simp [twinTick]
theorem execFollowerHeartbeatToggle_keeps (s : State) (t : State) (h : execFollowerHeartbeatToggle s = .next t) :
    t.pending = s.pending ∧ t.tether = s.tether := whenOn_keeps _ _ (fun s => by simp) _ h
theorem execHbPathDown_keeps (link) (s : State) (t : State) (h : execHbPathDown link s = .next t) :
    t.pending = s.pending ∧ t.tether = s.tether := whenOn_keeps _ _ (fun s => by simp) _ h
theorem execTwinSkew_keeps (s : State) (t : State) (h : execTwinSkew s = .next t) :
    t.pending = s.pending ∧ t.tether = s.tether := whenOn_keeps _ _ (fun s => by
  try dsimp only
  first | (simp; done) | ((repeat' split) <;> simp)) _ h
theorem execConfigMismatch_keeps (s : State) (t : State) (h : execConfigMismatch s = .next t) :
    t.pending = s.pending ∧ t.tether = s.tether := whenOn_keeps _ _ (fun s => by simp) _ h
@[simp] theorem keepCheckpoint_keeps (frame) (l) (s : State) :
    (keepCheckpoint frame l s).pending = s.pending ∧ (keepCheckpoint frame l s).tether = s.tether := by simp [keepCheckpoint]
theorem execCheckpoint_keeps (m) (s : State) (t : State) (h : execCheckpoint m s = .next t) :
    t.pending = s.pending ∧ t.tether = s.tether := whenOn_keeps _ _ (fun s => by simp) _ h
theorem execCheckpointStale_keeps (s : State) (t : State) (h : execCheckpointStale s = .next t) :
    t.pending = s.pending ∧ t.tether = s.tether := whenOn_keeps _ _ (fun s => by simp) _ h
theorem execHandover_keeps (m) (s : State) (t : State) (h : execHandover m s = .next t) :
    t.pending = s.pending ∧ t.tether = s.tether := whenOn_keeps _ _ (fun s => by simp) _ h
theorem execReclaim_keeps (m) (s : State) (t : State) (h : execReclaim m s = .next t) :
    t.pending = s.pending ∧ t.tether = s.tether := whenOn_keeps _ _ (fun s => by simp) _ h
theorem execReclaimAck_keeps (m) (s : State) (t : State) (h : execReclaimAck m s = .next t) :
    t.pending = s.pending ∧ t.tether = s.tether := whenOn_keeps _ _ (fun s => by simp) _ h
@[simp] theorem specTwinConfig_keeps (q : Request) (s : State) :
    (specTwinConfig.act q s).pending = s.pending ∧ (specTwinConfig.act q s).tether = s.tether := by simp [specTwinConfig]
theorem execTwinConfig_keeps (q) (s : State) (t : State) (h : execTwinConfig q s = .next t) :
    t.pending = s.pending ∧ t.tether = s.tether := kenra_keeps _ _ _ _ specTwinConfig_keeps _ h
@[simp] theorem specTwinCheckpoint_keeps (q : Request) (s : State) :
    (specTwinCheckpoint.act q s).pending = s.pending ∧ (specTwinCheckpoint.act q s).tether = s.tether := by simp [specTwinCheckpoint]
theorem execTwinCheckpoint_keeps (q) (s : State) (t : State) (h : execTwinCheckpoint q s = .next t) :
    t.pending = s.pending ∧ t.tether = s.tether := kenra_keeps _ _ _ _ specTwinCheckpoint_keeps _ h
@[simp] theorem specTwinStatus_keeps (q : Request) (s : State) :
    (specTwinStatus.act q s).pending = s.pending ∧ (specTwinStatus.act q s).tether = s.tether := by simp [specTwinStatus]
theorem execTwinStatus_keeps (q) (s : State) (t : State) (h : execTwinStatus q s = .next t) :
    t.pending = s.pending ∧ t.tether = s.tether := kenra_keeps _ _ _ _ specTwinStatus_keeps _ h

/-! Health. -/

@[simp] theorem keepCode_keeps (c) (a) (s : State) :
    (keepCode c a s).pending = s.pending ∧ (keepCode c a s).tether = s.tether := by simp [keepCode]
@[simp] theorem keepRound_keeps (c) (a) (s : State) :
    (keepRound c a s).pending = s.pending ∧ (keepRound c a s).tether = s.tether := by
  unfold keepRound; try dsimp only
  first | (simp; done) | ((repeat' split) <;> simp)
@[simp] theorem injectConvert_keeps (e) (raw) (s : State) :
    (injectConvert e raw s).pending = s.pending ∧ (injectConvert e raw s).tether = s.tether := by simp [injectConvert]
@[simp] theorem calBegin_keeps (s : State) :
    (calBegin s).pending = s.pending ∧ (calBegin s).tether = s.tether := by
  unfold calBegin; try dsimp only
  first | (simp; done) | ((repeat' split) <;> simp)
@[simp] theorem injectLatch_keeps (e) (s : State) :
    (injectLatch e s).pending = s.pending ∧ (injectLatch e s).tether = s.tether := by simp [injectLatch]
@[simp] theorem injectExpire_keeps (e) (raw) (s : State) :
    (injectExpire e raw s).pending = s.pending ∧ (injectExpire e raw s).tether = s.tether := by
  unfold injectExpire; try dsimp only
  first | (simp; done) | ((repeat' split) <;> simp)
theorem execAdcInjectConversion_keeps (entry) (raw) (s : State) (t : State) (h : execAdcInjectConversion entry raw s = .next t) :
    t.pending = s.pending ∧ t.tether = s.tether := whenOn_keeps _ _ (fun s => by (repeat' split) <;> simp) _ h
theorem execAdcInjectTimer_keeps (entry) (s : State) (t : State) (h : execAdcInjectTimer entry s = .next t) :
    t.pending = s.pending ∧ t.tether = s.tether := whenOn_keeps _ _ (fun s => by simp) _ h
theorem execAdcTrigEdge_keeps (width) (s : State) (t : State) (h : execAdcTrigEdge width s = .next t) :
    t.pending = s.pending ∧ t.tether = s.tether := whenOn_keeps _ _ (fun s => by simp) _ h
theorem execFanPwmEdge_keeps (fanNo) (s : State) (t : State) (h : execFanPwmEdge fanNo s = .next t) :
    t.pending = s.pending ∧ t.tether = s.tether := whenOn_keeps _ _ (fun s => by simp) _ h
theorem execAdcCalStepDone_keeps (sum) (s : State) (t : State) (h : execAdcCalStepDone sum s = .next t) :
    t.pending = s.pending ∧ t.tether = s.tether := whenOn_keeps _ _ (fun s => by (repeat' split) <;> simp) _ h
@[simp] theorem applyCal_keeps (s : State) :
    (applyCal s).pending = s.pending ∧ (applyCal s).tether = s.tether := by simp [applyCal]
@[simp] theorem startRound_keeps (s : State) :
    (startRound s).pending = s.pending ∧ (startRound s).tether = s.tether := by simp [startRound]
@[simp] theorem crossCheck_keeps (s : State) (r) :
    (crossCheck s r).pending = s.pending ∧ (crossCheck s r).tether = s.tether := by simp [crossCheck]
@[simp] theorem judgeZone_keeps (s : State) (z) :
    (judgeZone s z).pending = s.pending ∧ (judgeZone s z).tether = s.tether := by unfold judgeZone; dsimp only; (repeat' split) <;> simp
@[simp] theorem selfCheck_keeps (s : State) (k) (code) :
    (selfCheck s k code).pending = s.pending ∧ (selfCheck s k code).tether = s.tether := by
  unfold selfCheck; try dsimp only
  first | (simp; done) | ((repeat' split) <;> simp)
@[simp] theorem judgeDimms_keeps (s : State) :
    (judgeDimms s).pending = s.pending ∧ (judgeDimms s).tether = s.tether := by simp [judgeDimms]
@[simp] theorem raiseCauses_keeps (was) (s : State) :
    (raiseCauses was s).pending = s.pending ∧ (raiseCauses was s).tether = s.tether := by simp [raiseCauses]
@[simp] theorem forceFans_keeps (s : State) :
    (forceFans s).pending = s.pending ∧ (forceFans s).tether = s.tether := by simp [forceFans]
theorem execFanCycle_keeps (s : State) (t : State) (h : execFanCycle s = .next t) :
    t.pending = s.pending ∧ t.tether = s.tether := whenOn_keeps _ _ (fun s => by simp) _ h
theorem execFanLoopIdle_keeps (s : State) (t : State) (h : execFanLoopIdle s = .next t) :
    t.pending = s.pending ∧ t.tether = s.tether := whenOn_keeps _ _ (fun s => by simp) _ h
theorem execFanTachEdge_keeps (fanNo) (width) (s : State) (t : State) (h : execFanTachEdge fanNo width s = .next t) :
    t.pending = s.pending ∧ t.tether = s.tether := whenOn_keeps _ _ (fun s => by simp) _ h
@[simp] theorem watchFan_keeps (s : State) (f) :
    (watchFan s f).pending = s.pending ∧ (watchFan s f).tether = s.tether := by simp [watchFan]
theorem execFanFail_keeps (fanNo) (s : State) (t : State) (h : execFanFail fanNo s = .next t) :
    t.pending = s.pending ∧ t.tether = s.tether := whenOn_keeps _ _ (fun s => by dsimp only; (repeat' split) <;> simp) _ h
theorem execAdcRoundEnd_keeps (codes) (s : State) (t : State) (h : execAdcRoundEnd codes s = .next t) :
    t.pending = s.pending ∧ t.tether = s.tether := whenOn_keeps _ _ (fun s => by simp) _ h
@[simp] theorem specHealthConfig_keeps (q : Request) (s : State) :
    (specHealthConfig.act q s).pending = s.pending ∧ (specHealthConfig.act q s).tether = s.tether := by simp [specHealthConfig]
theorem execHealthConfig_keeps (q) (s : State) (t : State) (h : execHealthConfig q s = .next t) :
    t.pending = s.pending ∧ t.tether = s.tether := kenra_keeps _ _ _ _ specHealthConfig_keeps _ h
@[simp] theorem specHealthAdcRead_keeps (q : Request) (s : State) :
    (specHealthAdcRead.act q s).pending = s.pending ∧ (specHealthAdcRead.act q s).tether = s.tether := by simp [specHealthAdcRead]
theorem execHealthAdcRead_keeps (q) (s : State) (t : State) (h : execHealthAdcRead q s = .next t) :
    t.pending = s.pending ∧ t.tether = s.tether := kenra_keeps _ _ _ _ specHealthAdcRead_keeps _ h
@[simp] theorem specHealthAdcInject_keeps (q : Request) (s : State) :
    (specHealthAdcInject.act q s).pending = s.pending ∧ (specHealthAdcInject.act q s).tether = s.tether := by simp [specHealthAdcInject]
theorem execHealthAdcInject_keeps (q) (s : State) (t : State) (h : execHealthAdcInject q s = .next t) :
    t.pending = s.pending ∧ t.tether = s.tether := kenra_keeps _ _ _ _ specHealthAdcInject_keeps _ h
@[simp] theorem specHealthAdcCal_keeps (q : Request) (s : State) :
    (specHealthAdcCal.act q s).pending = s.pending ∧ (specHealthAdcCal.act q s).tether = s.tether := by simp [specHealthAdcCal]
theorem execHealthAdcCal_keeps (q) (s : State) (t : State) (h : execHealthAdcCal q s = .next t) :
    t.pending = s.pending ∧ t.tether = s.tether := kenra_keeps _ _ _ _ specHealthAdcCal_keeps _ h
@[simp] theorem specHealthFanConfig_keeps (q : Request) (s : State) :
    (specHealthFanConfig.act q s).pending = s.pending ∧ (specHealthFanConfig.act q s).tether = s.tether := by simp [specHealthFanConfig]
theorem execHealthFanConfig_keeps (q) (s : State) (t : State) (h : execHealthFanConfig q s = .next t) :
    t.pending = s.pending ∧ t.tether = s.tether := kenra_keeps _ _ _ _ specHealthFanConfig_keeps _ h
@[simp] theorem specHealthStatus_keeps (q : Request) (s : State) :
    (specHealthStatus.act q s).pending = s.pending ∧ (specHealthStatus.act q s).tether = s.tether := by simp [specHealthStatus]
theorem execHealthStatus_keeps (q) (s : State) (t : State) (h : execHealthStatus q s = .next t) :
    t.pending = s.pending ∧ t.tether = s.tether := kenra_keeps _ _ _ _ specHealthStatus_keeps _ h

/-! Lanes. -/

@[simp] theorem modLanes_keeps (k) (f) (s : State) :
    (modLanes k f s).pending = s.pending ∧ (modLanes k f s).tether = s.tether := by simp [modLanes]
@[simp] theorem unlockLanes_keeps (k) (s : State) :
    (unlockLanes k s).pending = s.pending ∧ (unlockLanes k s).tether = s.tether := by simp [unlockLanes]
@[simp] theorem startTrain_keeps (k) (s : State) :
    (startTrain k s).pending = s.pending ∧ (startTrain k s).tether = s.tether := by simp [startTrain]
@[simp] theorem goTo_keeps (st) (k) (s : State) :
    (goTo st k s).pending = s.pending ∧ (goTo st k s).tether = s.tether := by simp [goTo]
@[simp] theorem retrain_keeps (k) (s : State) :
    (retrain k s).pending = s.pending ∧ (retrain k s).tether = s.tether := by simp [retrain]
@[simp] theorem linkLoss_keeps (k) (s : State) :
    (linkLoss k s).pending = s.pending ∧ (linkLoss k s).tether = s.tether := by simp [linkLoss]
@[simp] theorem quadDown_keeps (k) (s : State) :
    (quadDown k s).pending = s.pending ∧ (quadDown k s).tether = s.tether := by simp [quadDown]
@[simp] theorem startQuad_keeps (k) (s : State) :
    (startQuad k s).pending = s.pending ∧ (startQuad k s).tether = s.tether := by simp [startQuad]
theorem execReceiverDetect_keeps (quadNo) (present) (s : State) (t : State) (h : execReceiverDetect quadNo present s = .next t) :
    t.pending = s.pending ∧ t.tether = s.tether := whenOn_keeps _ _ (fun s => by simp) _ h
@[simp] theorem trainLane_keeps (l) (request) (flags) (s : State) :
    (trainLane l request flags s).pending = s.pending ∧ (trainLane l request flags s).tether = s.tether := by simp [trainLane]
@[simp] theorem trainReceived_keeps (l) (request) (flags) (s : State) :
    (trainReceived l request flags s).pending = s.pending ∧ (trainReceived l request flags s).tether = s.tether := by
  unfold trainReceived; try dsimp only
  first | (simp; done) | ((repeat' split) <;> simp)
theorem execTrainBlockReceive_keeps (laneNo) (b) (s : State) (t : State) (h : execTrainBlockReceive laneNo b s = .next t) :
    t.pending = s.pending ∧ t.tether = s.tether := whenOn_keeps _ _ (fun s => by
  try dsimp only
  first | (simp; done) | ((repeat' split) <;> simp)) _ h
@[simp] theorem stateEnds_keeps (k) (n) (s : State) :
    (stateEnds k n s).pending = s.pending ∧ (stateEnds k n s).tether = s.tether := by
  unfold stateEnds; try dsimp only
  first | (simp; done) | ((repeat' split) <;> simp)
theorem execTrainTimeout_keeps (quadNo) (s : State) (t : State) (h : execTrainTimeout quadNo s = .next t) :
    t.pending = s.pending ∧ t.tether = s.tether := whenOn_keeps _ _ (fun s => by simp) _ h
@[simp] theorem lockDone_keeps (k) (s : State) :
    (lockDone k s).pending = s.pending ∧ (lockDone k s).tether = s.tether := by simp [lockDone]
theorem execBlockLockAcquired_keeps (laneNo) (headers) (s : State) (t : State) (h : execBlockLockAcquired laneNo headers s = .next t) :
    t.pending = s.pending ∧ t.tether = s.tether := whenOn_keeps _ _ (fun s => by
  try dsimp only
  first | (simp; done) | ((repeat' split) <;> simp)) _ h
@[simp] theorem laneFailed_keeps (l) (s : State) :
    (laneFailed l s).pending = s.pending ∧ (laneFailed l s).tether = s.tether := by simp [laneFailed]
@[simp] theorem headerSeen_keeps (l) (h) (s : State) :
    (headerSeen l h s).pending = s.pending ∧ (headerSeen l h s).tether = s.tether := by
  unfold headerSeen; try dsimp only
  first | (simp; done) | ((repeat' split) <;> simp)
theorem execBlockLockLost_keeps (laneNo) (headers) (s : State) (t : State) (h : execBlockLockLost laneNo headers s = .next t) :
    t.pending = s.pending ∧ t.tether = s.tether := whenOn_keeps _ _ (fun s => by
  try dsimp only
  first | (simp; done) | ((repeat' split) <;> simp)) _ h
@[simp] theorem alignReceived_keeps (l) (logical) (width) (c) (skew) (s : State) :
    (alignReceived l logical width c skew s).pending = s.pending ∧ (alignReceived l logical width c skew s).tether = s.tether := by
  unfold alignReceived; try dsimp only
  first | (simp; done) | ((repeat' split) <;> simp)
theorem execAlignBlockReceive_keeps (laneNo) (b) (skew) (s : State) (t : State) (h : execAlignBlockReceive laneNo b skew s = .next t) :
    t.pending = s.pending ∧ t.tether = s.tether := whenOn_keeps _ _ (fun s => by
  try dsimp only
  first | (simp; done) | ((repeat' split) <;> simp)) _ h
theorem execAlignMissing_keeps (laneNo) (s : State) (t : State) (h : execAlignMissing laneNo s = .next t) :
    t.pending = s.pending ∧ t.tether = s.tether := whenOn_keeps _ _ (fun s => by simp) _ h
theorem execFecCodeword_keeps (laneNo) (w) (s : State) (t : State) (h : execFecCodeword laneNo w s = .next t) :
    t.pending = s.pending ∧ t.tether = s.tether := whenOn_keeps _ _ (fun s => by (repeat' split) <;> simp) _ h
@[simp] theorem idleLanes_keeps (k) (w) (s : State) :
    (idleLanes k w s).pending = s.pending ∧ (idleLanes k w s).tether = s.tether := by
  unfold idleLanes; try dsimp only
  first | (simp; done) | ((repeat' split) <;> simp)
theorem execLockTimeout_keeps (quadNo) (s : State) (t : State) (h : execLockTimeout quadNo s = .next t) :
    t.pending = s.pending ∧ t.tether = s.tether := whenOn_keeps _ _ (fun s => by dsimp only; (repeat' split) <;> simp) _ h
@[simp] theorem judgeCap_keeps (k) (c) (s : State) :
    (judgeCap k c s).pending = s.pending ∧ (judgeCap k c s).tether = s.tether := by unfold judgeCap; dsimp only; (repeat' split) <;> simp
@[simp] theorem capReceived_keeps (k) (index) (content) (s : State) :
    (capReceived k index content s).pending = s.pending ∧ (capReceived k index content s).tether = s.tether := by
  unfold capReceived; try dsimp only
  first | (simp; done) | ((repeat' split) <;> simp)
theorem execCapBlockReceive_keeps (quadNo) (b) (s : State) (t : State) (h : execCapBlockReceive quadNo b s = .next t) :
    t.pending = s.pending ∧ t.tether = s.tether := whenOn_keeps _ _ (fun s => by
  try dsimp only
  first | (simp; done) | ((repeat' split) <;> simp)) _ h
theorem execExchangeTimeout_keeps (quadNo) (s : State) (t : State) (h : execExchangeTimeout quadNo s = .next t) :
    t.pending = s.pending ∧ t.tether = s.tether := whenOn_keeps _ _ (fun s => by simp) _ h
theorem execQuadLost_keeps (quadNo) (s : State) (t : State) (h : execQuadLost quadNo s = .next t) :
    t.pending = s.pending ∧ t.tether = s.tether := whenOn_keeps _ _ (fun s => by simp) _ h
@[simp] theorem quadsTick_keeps (s : State) :
    (quadsTick s).pending = s.pending ∧ (quadsTick s).tether = s.tether := by simp [quadsTick]
@[simp] theorem maybeIdle_keeps (k) (s : State) :
    (maybeIdle k s).pending = s.pending ∧ (maybeIdle k s).tether = s.tether := by simp [maybeIdle]
theorem execNapIdleTimer_keeps (quadNo) (s : State) (t : State) (h : execNapIdleTimer quadNo s = .next t) :
    t.pending = s.pending ∧ t.tether = s.tether := whenOn_keeps _ _ (fun s => by simp) _ h
theorem execNapReq_keeps (quadNo) (s : State) (t : State) (h : execNapReq quadNo s = .next t) :
    t.pending = s.pending ∧ t.tether = s.tether := whenOn_keeps _ _ (fun s => by simp) _ h
theorem execNapAck_keeps (quadNo) (s : State) (t : State) (h : execNapAck quadNo s = .next t) :
    t.pending = s.pending ∧ t.tether = s.tether := whenOn_keeps _ _ (fun s => by simp) _ h
theorem execNapNak_keeps (quadNo) (s : State) (t : State) (h : execNapNak quadNo s = .next t) :
    t.pending = s.pending ∧ t.tether = s.tether := whenOn_keeps _ _ (fun s => by simp) _ h
theorem execFastExit_keeps (quadNo) (own) (lanes) (s : State) (t : State) (h : execFastExit quadNo own lanes s = .next t) :
    t.pending = s.pending ∧ t.tether = s.tether := whenOn_keeps _ _ (fun s => by
  try dsimp only
  first | (simp; done) | ((repeat' split) <;> simp)) _ h
theorem execFastExitTimeout_keeps (quadNo) (s : State) (t : State) (h : execFastExitTimeout quadNo s = .next t) :
    t.pending = s.pending ∧ t.tether = s.tether := whenOn_keeps _ _ (fun s => by dsimp only; (repeat' split) <;> simp) _ h
theorem execEthLinkChange_keeps (quadNo) (up) (s : State) (t : State) (h : execEthLinkChange quadNo up s = .next t) :
    t.pending = s.pending ∧ t.tether = s.tether := whenOn_keeps _ _ (fun s => by dsimp only; (repeat' split) <;> simp) _ h
@[simp] theorem selectModule_keeps (k) (s : State) :
    (selectModule k s).pending = s.pending ∧ (selectModule k s).tether = s.tether := by
  unfold selectModule; try dsimp only
  first | (simp; done) | ((repeat' split) <;> simp)
theorem execModuleInsert_keeps (quadNo) (identity) (applications) (s : State) (t : State) (h : execModuleInsert quadNo identity applications s = .next t) :
    t.pending = s.pending ∧ t.tether = s.tether := whenOn_keeps _ _ (fun s => by
  try dsimp only
  first | (simp; done) | ((repeat' split) <;> simp)) _ h
@[simp] theorem removeModule_keeps (k) (s : State) :
    (removeModule k s).pending = s.pending ∧ (removeModule k s).tether = s.tether := by simp [removeModule]
theorem execModuleRemove_keeps (quadNo) (s : State) (t : State) (h : execModuleRemove quadNo s = .next t) :
    t.pending = s.pending ∧ t.tether = s.tether := whenOn_keeps _ _ (fun s => by simp) _ h
theorem execModulePoll_keeps (quadNo) (flags) (s : State) (t : State) (h : execModulePoll quadNo flags s = .next t) :
    t.pending = s.pending ∧ t.tether = s.tether := whenOn_keeps _ _ (fun s => by simp) _ h
theorem execVmodOverload_keeps (k) (s : State) (t : State) (h : execVmodOverload k s = .next t) :
    t.pending = s.pending ∧ t.tether = s.tether := whenOn_keeps _ _ (fun s => by simp) _ h
theorem execVmodRetry_keeps (k) (s : State) (t : State) (h : execVmodRetry k s = .next t) :
    t.pending = s.pending ∧ t.tether = s.tether := whenOn_keeps _ _ (fun s => by simp) _ h
@[simp] theorem checkBit_keeps (l) (p) (b) (s : State) :
    (checkBit l p b s).pending = s.pending ∧ (checkBit l p b s).tether = s.tether := by
  unfold checkBit; try dsimp only
  first | (simp; done) | ((repeat' split) <;> simp)
@[simp] theorem sendPattern_keeps (p) (n) (l) (s : State) :
    (sendPattern p n l s).pending = s.pending ∧ (sendPattern p n l s).tether = s.tether := by
  unfold sendPattern; try dsimp only
  first | (simp; done) | ((repeat' split) <;> simp)
theorem execPatternCheckLock_keeps (laneNo) (bits) (s : State) (t : State) (h : execPatternCheckLock laneNo bits s = .next t) :
    t.pending = s.pending ∧ t.tether = s.tether := whenOn_keeps _ _ (fun s => by
  try dsimp only
  first | (simp; done) | ((repeat' split) <;> simp)) _ h
@[simp] theorem setPattern_keeps (a) (l) (s : State) :
    (setPattern a l s).pending = s.pending ∧ (setPattern a l s).tether = s.tether := by simp [setPattern]
@[simp] theorem specLanePrbs_keeps (q : Request) (s : State) :
    (specLanePrbs.act q s).pending = s.pending ∧ (specLanePrbs.act q s).tether = s.tether := by simp [specLanePrbs]
theorem execLanePrbs_keeps (q) (s : State) (t : State) (h : execLanePrbs q s = .next t) :
    t.pending = s.pending ∧ t.tether = s.tether := kenra_keeps _ _ _ _ specLanePrbs_keeps _ h
@[simp] theorem configQuad_keeps (a) (k) (s : State) :
    (configQuad a k s).pending = s.pending ∧ (configQuad a k s).tether = s.tether := by simp [configQuad]
@[simp] theorem specLaneConfig_keeps (q : Request) (s : State) :
    (specLaneConfig.act q s).pending = s.pending ∧ (specLaneConfig.act q s).tether = s.tether := by simp [specLaneConfig]
theorem execLaneConfig_keeps (q) (s : State) (t : State) (h : execLaneConfig q s = .next t) :
    t.pending = s.pending ∧ t.tether = s.tether := kenra_keeps _ _ _ _ specLaneConfig_keeps _ h
@[simp] theorem specLaneRetrain_keeps (q : Request) (s : State) :
    (specLaneRetrain.act q s).pending = s.pending ∧ (specLaneRetrain.act q s).tether = s.tether := by simp [specLaneRetrain]
theorem execLaneRetrain_keeps (q) (s : State) (t : State) (h : execLaneRetrain q s = .next t) :
    t.pending = s.pending ∧ t.tether = s.tether := kenra_keeps _ _ _ _ specLaneRetrain_keeps _ h
@[simp] theorem specLaneStatus_keeps (q : Request) (s : State) :
    (specLaneStatus.act q s).pending = s.pending ∧ (specLaneStatus.act q s).tether = s.tether := by simp [specLaneStatus]
theorem execLaneStatus_keeps (q) (s : State) (t : State) (h : execLaneStatus q s = .next t) :
    t.pending = s.pending ∧ t.tether = s.tether := kenra_keeps _ _ _ _ specLaneStatus_keeps _ h
@[simp] theorem specEthConfig_keeps (q : Request) (s : State) :
    (specEthConfig.act q s).pending = s.pending ∧ (specEthConfig.act q s).tether = s.tether := by simp [specEthConfig]
theorem execEthConfig_keeps (q) (s : State) (t : State) (h : execEthConfig q s = .next t) :
    t.pending = s.pending ∧ t.tether = s.tether := kenra_keeps _ _ _ _ specEthConfig_keeps _ h
@[simp] theorem specModuleConfig_keeps (q : Request) (s : State) :
    (specModuleConfig.act q s).pending = s.pending ∧ (specModuleConfig.act q s).tether = s.tether := by simp [specModuleConfig]
theorem execModuleConfig_keeps (q) (s : State) (t : State) (h : execModuleConfig q s = .next t) :
    t.pending = s.pending ∧ t.tether = s.tether := kenra_keeps _ _ _ _ specModuleConfig_keeps _ h
@[simp] theorem specModuleRead_keeps (q : Request) (s : State) :
    (specModuleRead.act q s).pending = s.pending ∧ (specModuleRead.act q s).tether = s.tether := by simp [specModuleRead]
theorem execModuleRead_keeps (q) (s : State) (t : State) (h : execModuleRead q s = .next t) :
    t.pending = s.pending ∧ t.tether = s.tether := kenra_keeps _ _ _ _ specModuleRead_keeps _ h
@[simp] theorem specModuleWrite_keeps (q : Request) (s : State) :
    (specModuleWrite.act q s).pending = s.pending ∧ (specModuleWrite.act q s).tether = s.tether := by simp [specModuleWrite]
theorem execModuleWrite_keeps (q) (s : State) (t : State) (h : execModuleWrite q s = .next t) :
    t.pending = s.pending ∧ t.tether = s.tether := kenra_keeps _ _ _ _ specModuleWrite_keeps _ h

/-! PegCore. -/

@[simp] theorem pegFaultAt_keeps (p) (g) (code) (addr) (s : State) :
    (pegFaultAt p g code addr s).pending = s.pending ∧ (pegFaultAt p g code addr s).tether = s.tether := by simp [pegFaultAt]
@[simp] theorem countEcc_keeps (c) (p) (e) (s : State) :
    (countEcc c p e s).pending = s.pending ∧ (countEcc c p e s).tether = s.tether := by
  unfold countEcc; try dsimp only
  first | (simp; done) | ((repeat' split) <;> simp)
/-- An instruction's body leaves the queue and the Tether. -/
def BodyKeeps (b : PegBody) : Prop :=
  ∀ s g g' t, b s g = .ok (g', t) → t.pending = s.pending ∧ t.tether = s.tether
@[simp] theorem pegIssue_keeps (p) (body) (s : State) (hb : BodyKeeps body) :
    (pegIssue p body s).pending = s.pending ∧ (pegIssue p body s).tether = s.tether := by
  unfold pegIssue; dsimp only
  split
  · exact ⟨rfl, rfl⟩
  split
  · simp
  split
  · simp
  · next h => have k := hb _ _ _ _ h; simp [k.1, k.2]
@[simp] theorem pegRaise_keeps (p) (src) (s : State) :
    (pegRaise p src s).pending = s.pending ∧ (pegRaise p src s).tether = s.tether := by simp [pegRaise]
@[simp] theorem loadService_keeps (k) (p) (s : State) :
    (loadService k p s).pending = s.pending ∧ (loadService k p s).tether = s.tether := by
  unfold loadService; try dsimp only
  first | (simp; done) | ((repeat' split) <;> simp)

/-! Boot. -/

@[simp] theorem enterBoot_keeps (n : Nat) (s : State) :
    (enterBoot n s).pending = s.pending ∧ (enterBoot n s).tether = s.tether := by
  simp [enterBoot, resetUnits]
@[simp] theorem writeControl_keeps (f) (s : State) :
    (writeControl f s).pending = s.pending ∧ (writeControl f s).tether = s.tether := by
  unfold writeControl; try dsimp only
  first | (simp; done) | ((repeat' split) <;> simp)
@[simp] theorem setBank_keeps (b) (st) (s : State) :
    (setBank b st s).pending = s.pending ∧ (setBank b st s).tether = s.tether := by simp [setBank]
@[simp] theorem bankFails_keeps (a0) (a1) (s : State) :
    (bankFails a0 a1 s).pending = s.pending ∧ (bankFails a0 a1 s).tether = s.tether := by
  unfold bankFails; dsimp only
  split
  · rw [(raise_keeps ..).1, (raise_keeps ..).2, (setBank_keeps ..).1, (setBank_keeps ..).2]; exact ⟨rfl, rfl⟩
  · exact ⟨rfl, rfl⟩
@[simp] theorem stagePlace_keeps (n) (s : State) :
    (stagePlace n s).2.pending = s.pending ∧ (stagePlace n s).2.tether = s.tether := by
  unfold stagePlace; try dsimp only
  first | (simp; done) | ((repeat' split) <;> simp)
@[simp] theorem stageService_keeps (bytes) (s : State) :
    (stageService bytes s).pending = s.pending ∧ (stageService bytes s).tether = s.tether := by simp [stageService]
@[simp] theorem loadSections_keeps (p) (s : State) :
    (loadSections p s).pending = s.pending ∧ (loadSections p s).tether = s.tether := by
  unfold loadSections; try dsimp only
  first | (simp; done) | ((repeat' split) <;> simp)
@[simp] theorem startBank_keeps (b) (c) (payload) (s : State) :
    (startBank b c payload s).pending = s.pending ∧ (startBank b c payload s).tether = s.tether := by
  unfold startBank; try dsimp only
  first | (simp; done) | ((repeat' split) <;> simp)
@[simp] theorem copyBank_keeps (n) (bad) (s : State) :
    (copyBank n bad s).pending = s.pending ∧ (copyBank n bad s).tether = s.tether := by
  unfold copyBank; try dsimp only
  first | (simp; done) | ((repeat' split) <;> simp)
@[simp] theorem tryBanks_keeps (a0) (s : State) :
    (tryBanks a0 s).pending = s.pending ∧ (tryBanks a0 s).tether = s.tether := by
  induction a0 generalizing s with
  | nil => exact ⟨rfl, rfl⟩
  | cons b t ih =>
    unfold tryBanks; dsimp only
    (repeat' split) <;> (first | (rw [(ih _).1, (ih _).2]; simp) | simp)
@[simp] theorem bootReport_keeps (s : State) :
    (bootReport s).pending = s.pending ∧ (bootReport s).tether = s.tether := by unfold bootReport; dsimp only; (repeat' split) <;> simp
@[simp] theorem romSafe_keeps (s : State) :
    (romSafe s).pending = s.pending ∧ (romSafe s).tether = s.tether := by simp [romSafe]
@[simp] theorem afterBanks_keeps (s : State) :
    (afterBanks s).pending = s.pending ∧ (afterBanks s).tether = s.tether := by simp [afterBanks]
@[simp] theorem bootDram_keeps (b) (s : State) :
    (bootDram b s).pending = s.pending ∧ (bootDram b s).tether = s.tether := by simp [bootDram]
theorem execBoot_keeps (b) (s : State) (t : State) (h : execBoot b s = .next t) :
    t.pending = s.pending ∧ t.tether = s.tether := whenOn_keeps _ _ (fun s => by simp) _ h
@[simp] theorem raiseVersion_keeps (s : State) :
    (raiseVersion s).pending = s.pending ∧ (raiseVersion s).tether = s.tether := by unfold raiseVersion; (repeat' split) <;> simp
@[simp] theorem activateBank_keeps (s : State) :
    (activateBank s).pending = s.pending ∧ (activateBank s).tether = s.tether := by unfold activateBank; (repeat' split) <;> simp
theorem execBootZeroingDone_keeps (s : State) (t : State) (h : execBootZeroingDone s = .next t) :
    t.pending = s.pending ∧ t.tether = s.tether := whenOn_keeps _ _ (fun s => by simp) _ h
theorem execBootTimeout_keeps (s : State) (t : State) (h : execBootTimeout s = .next t) :
    t.pending = s.pending ∧ t.tether = s.tether := whenOn_keeps _ _ (fun s => by (repeat' split) <;> simp) _ h
@[simp] theorem eraseBank_keeps (b) (s : State) :
    (eraseBank b s).pending = s.pending ∧ (eraseBank b s).tether = s.tether := by simp [eraseBank]
@[simp] theorem specFwUpdateBegin_keeps (q : Request) (s : State) :
    (specFwUpdateBegin.act q s).pending = s.pending ∧ (specFwUpdateBegin.act q s).tether = s.tether := by simp [specFwUpdateBegin]
theorem execFwUpdateBegin_keeps (q) (s : State) (t : State) (h : execFwUpdateBegin q s = .next t) :
    t.pending = s.pending ∧ t.tether = s.tether := kenra_keeps _ _ _ _ specFwUpdateBegin_keeps _ h
@[simp] theorem specFwUpdateData_keeps (q : Request) (s : State) :
    (specFwUpdateData.act q s).pending = s.pending ∧ (specFwUpdateData.act q s).tether = s.tether := by simp [specFwUpdateData]
theorem execFwUpdateData_keeps (q) (s : State) (t : State) (h : execFwUpdateData q s = .next t) :
    t.pending = s.pending ∧ t.tether = s.tether := kenra_keeps _ _ _ _ specFwUpdateData_keeps _ h
theorem execFwUpdateDataDone_keeps (retriesFailed) (s : State) (t : State) (h : execFwUpdateDataDone retriesFailed s = .next t) :
    t.pending = s.pending ∧ t.tether = s.tether := whenOn_keeps _ _ (fun s => by dsimp only; (repeat' split) <;> simp) _ h
@[simp] theorem specFwUpdateEnd_keeps (q : Request) (s : State) :
    (specFwUpdateEnd.act q s).pending = s.pending ∧ (specFwUpdateEnd.act q s).tether = s.tether := by simp [specFwUpdateEnd]
theorem execFwUpdateEnd_keeps (q) (s : State) (t : State) (h : execFwUpdateEnd q s = .next t) :
    t.pending = s.pending ∧ t.tether = s.tether := kenra_keeps _ _ _ _ specFwUpdateEnd_keeps _ h
theorem execFwUpdateCheckDone_keeps (engine) (s : State) (t : State) (h : execFwUpdateCheckDone engine s = .next t) :
    t.pending = s.pending ∧ t.tether = s.tether := whenOn_keeps _ _ (fun s => by
  try dsimp only
  first | (simp; done) | ((repeat' split) <;> simp)) _ h
theorem execUpdateReboot_keeps (s : State) (t : State) (h : execUpdateReboot s = .next t) :
    t.pending = s.pending ∧ t.tether = s.tether := whenOn_keeps _ _ (fun s => by simp) _ h
theorem bootAfter_keeps (a0) (a1) (a2) (a3) (s : State)
    (hact : ∀ q s, (a2.act q s).pending = s.pending ∧ (a2.act q s).tether = s.tether) (t : State) (h : bootAfter a0 a1 a2 a3 s = .next t) :
    t.pending = s.pending ∧ t.tether = s.tether := by
  unfold bootAfter at h
  refine whenOn_keeps _ _ (fun s => ?_) _ h
  have k := kenraStep_keeps a1 a2 a3 s hact
  dsimp only; split <;> simp [k.1, k.2]
@[simp] theorem specFwUpdateAbort_keeps (q : Request) (s : State) :
    (specFwUpdateAbort.act q s).pending = s.pending ∧ (specFwUpdateAbort.act q s).tether = s.tether := by simp [specFwUpdateAbort]
theorem execFwUpdateAbort_keeps (a0) (s : State) (t : State) (h : execFwUpdateAbort a0 s = .next t) :
    t.pending = s.pending ∧ t.tether = s.tether := bootAfter_keeps _ _ _ _ _ specFwUpdateAbort_keeps _ h
@[simp] theorem specSysRestart_keeps (q : Request) (s : State) :
    (specSysRestart.act q s).pending = s.pending ∧ (specSysRestart.act q s).tether = s.tether := by simp [specSysRestart]
theorem execSysRestart_keeps (a0) (s : State) (t : State) (h : execSysRestart a0 s = .next t) :
    t.pending = s.pending ∧ t.tether = s.tether := bootAfter_keeps _ _ _ _ _ specSysRestart_keeps _ h
@[simp] theorem specFwInfo_keeps (q : Request) (s : State) :
    (specFwInfo.act q s).pending = s.pending ∧ (specFwInfo.act q s).tether = s.tether := by simp [specFwInfo]
theorem execFwInfo_keeps (q) (s : State) (t : State) (h : execFwInfo q s = .next t) :
    t.pending = s.pending ∧ t.tether = s.tether := kenra_keeps _ _ _ _ specFwInfo_keeps _ h
@[simp] theorem specFwKeyEnroll_keeps (q : Request) (s : State) :
    (specFwKeyEnroll.act q s).pending = s.pending ∧ (specFwKeyEnroll.act q s).tether = s.tether := by simp [specFwKeyEnroll]
theorem execFwKeyEnroll_keeps (q) (s : State) (t : State) (h : execFwKeyEnroll q s = .next t) :
    t.pending = s.pending ∧ t.tether = s.tether := kenra_keeps _ _ _ _ specFwKeyEnroll_keeps _ h
theorem execFwKeyEnrollDone_keeps (verified) (s : State) (t : State) (h : execFwKeyEnrollDone verified s = .next t) :
    t.pending = s.pending ∧ t.tether = s.tether := whenOn_keeps _ _ (fun s => by dsimp only; (repeat' split) <;> simp) _ h

/-! Channeliser. -/

@[simp] theorem settleFades_keeps (k) (s : State) :
    (settleFades k s).pending = s.pending ∧ (settleFades k s).tether = s.tether := by simp [settleFades]
@[simp] theorem addSwap_keeps (k) (w) (s : State) :
    (addSwap k w s).pending = s.pending ∧ (addSwap k w s).tether = s.tether := by simp [addSwap]
@[simp] theorem setGains_keeps (key) (frame) (first) (l) (s : State) :
    (setGains key frame first l s).pending = s.pending ∧ (setGains key frame first l s).tether = s.tether := by simp [setGains]
@[simp] theorem tableFault_keeps (key) (k) (frame) (expired) (s : State) :
    (tableFault key k frame expired s).pending = s.pending ∧ (tableFault key k frame expired s).tether = s.tether := by simp [tableFault]
@[simp] theorem countStat_keeps (key) (k) (j) (clip) (pre) (post) (s : State) :
    (countStat key k j clip pre post s).pending = s.pending ∧ (countStat key k j clip pre post s).tether = s.tether := by simp [countStat]
theorem execStatsIntervalEnd_keeps (slice') (s : State) (t : State) (h : execStatsIntervalEnd slice' s = .next t) :
    t.pending = s.pending ∧ t.tether = s.tether := whenOn_keeps _ _ (fun s => by simp) _ h
@[simp] theorem requantise_keeps (key) (k) (u) (frame) (tab) (flag) (j) (y) (s : State) :
    ((requantise key k u frame tab flag j y s).2).pending = s.pending ∧ ((requantise key k u frame tab flag j y s).2).tether = s.tether := by unfold requantise; (repeat' split) <;> simp
theorem foldl_pair {α β : Type} (f : β × State → α → β × State)
    (h : ∀ a x, (f a x).2.pending = a.2.pending ∧ (f a x).2.tether = a.2.tether) (l : List α) (a : β × State) :
    (l.foldl f a).2.pending = a.2.pending ∧ (l.foldl f a).2.tether = a.2.tether := by
  induction l generalizing a with
  | nil => exact ⟨rfl, rfl⟩
  | cons x t ih => simp [List.foldl_cons, ih, h]
@[simp] theorem emitOutput_keeps (a0) (a1) (a2) (s : State) :
    (emitOutput a0 a1 a2 s).pending = s.pending ∧ (emitOutput a0 a1 a2 s).tether = s.tether := by
  unfold emitOutput; dsimp only
  simp only [modUnit_keeps, putOutput_keeps]
  rw [(foldl_pair _ (fun a x => by simp) _ _).1, (foldl_pair _ (fun a x => by simp) _ _).2]
  split <;> simp
@[simp] theorem takeSample_keeps (late) (key) (k) (s : State) (e) :
    (takeSample late key k s e).pending = s.pending ∧ (takeSample late key k s e).tether = s.tether := by simp [takeSample]
@[simp] theorem runUnit_keeps (late) (n) (key) (s : State) :
    (runUnit late n key s).pending = s.pending ∧ (runUnit late n key s).tether = s.tether := by
  unfold runUnit; try dsimp only
  first | (simp; done) | ((repeat' split) <;> simp)
theorem execChanneliserStep_keeps (input) (coarse) (n) (s : State) (t : State)
    (h : execChanneliserStep input coarse n s = .next t) : t.pending = s.pending ∧ t.tether = s.tether := by
  cases h; split <;> simp
@[simp] theorem unitTick_keeps (key) (s : State) :
    (unitTick key s).pending = s.pending ∧ (unitTick key s).tether = s.tether := by unfold unitTick; dsimp only; (repeat' split) <;> simp
@[simp] theorem tablesTick_keeps (n) (key) (s : State) :
    (tablesTick n key s).pending = s.pending ∧ (tablesTick n key s).tether = s.tether := by unfold tablesTick; dsimp only; (repeat' split) <;> simp
@[simp] theorem chanTick_keeps (n) (s : State) :
    (chanTick n s).pending = s.pending ∧ (chanTick n s).tether = s.tether := by simp [chanTick]
@[simp] theorem assignUnit_keeps (n) (key) (k) (s : State) :
    (assignUnit n key k s).pending = s.pending ∧ (assignUnit n key k s).tether = s.tether := by simp [assignUnit]
@[simp] theorem stopChan_keeps (s : State) :
    (stopChan s).pending = s.pending ∧ (stopChan s).tether = s.tether := by simp [stopChan]
theorem execSyncInEdge_keeps (width) (s : State) (t : State) (h : execSyncInEdge width s = .next t) :
    t.pending = s.pending ∧ t.tether = s.tether := whenOn_keeps _ _ (fun s => by simp) _ h
theorem execSyncReset_keeps (s : State) (t : State) (h : execSyncReset s = .next t) :
    t.pending = s.pending ∧ t.tether = s.tether := whenOn_keeps _ _ (fun s => by dsimp only; (repeat' split) <;> simp) _ h
@[simp] theorem changeFilter_keeps (preset) (p) (s : State) :
    (changeFilter preset p s).pending = s.pending ∧ (changeFilter preset p s).tether = s.tether := by simp [changeFilter]
@[simp] theorem restartUnits_keeps (n) (s : State) :
    (restartUnits n s).pending = s.pending ∧ (restartUnits n s).tether = s.tether := by
  unfold restartUnits; try dsimp only
  first | (simp; done) | ((repeat' split) <;> simp)
@[simp] theorem specChanConfig_keeps (q : Request) (s : State) :
    (specChanConfig.act q s).pending = s.pending ∧ (specChanConfig.act q s).tether = s.tether := by simp [specChanConfig]
theorem execChanConfig_keeps (q) (s : State) (t : State) (h : execChanConfig q s = .next t) :
    t.pending = s.pending ∧ t.tether = s.tether := kenra_keeps _ _ _ _ specChanConfig_keeps _ h
@[simp] theorem specChanSync_keeps (q : Request) (s : State) :
    (specChanSync.act q s).pending = s.pending ∧ (specChanSync.act q s).tether = s.tether := by simp [specChanSync]
theorem execChanSync_keeps (q) (s : State) (t : State) (h : execChanSync q s = .next t) :
    t.pending = s.pending ∧ t.tether = s.tether := kenra_keeps _ _ _ _ specChanSync_keeps _ h
@[simp] theorem specChanCoefLoad_keeps (q : Request) (s : State) :
    (specChanCoefLoad.act q s).pending = s.pending ∧ (specChanCoefLoad.act q s).tether = s.tether := by simp [specChanCoefLoad]
theorem execChanCoefLoad_keeps (q) (s : State) (t : State) (h : execChanCoefLoad q s = .next t) :
    t.pending = s.pending ∧ t.tether = s.tether := kenra_keeps _ _ _ _ specChanCoefLoad_keeps _ h
@[simp] theorem applyCoef_keeps (q) (data) (s : State) :
    (applyCoef q data s).pending = s.pending ∧ (applyCoef q data s).tether = s.tether := by simp [applyCoef]
@[simp] theorem specChanCoefSwap_keeps (q : Request) (s : State) :
    (specChanCoefSwap.act q s).pending = s.pending ∧ (specChanCoefSwap.act q s).tether = s.tether := by simp [specChanCoefSwap]
theorem execChanCoefSwap_keeps (q) (s : State) (t : State) (h : execChanCoefSwap q s = .next t) :
    t.pending = s.pending ∧ t.tether = s.tether := kenra_keeps _ _ _ _ specChanCoefSwap_keeps _ h
@[simp] theorem specChanGainMode_keeps (q : Request) (s : State) :
    (specChanGainMode.act q s).pending = s.pending ∧ (specChanGainMode.act q s).tether = s.tether := by simp [specChanGainMode]
theorem execChanGainMode_keeps (q) (s : State) (t : State) (h : execChanGainMode q s = .next t) :
    t.pending = s.pending ∧ t.tether = s.tether := kenra_keeps _ _ _ _ specChanGainMode_keeps _ h
@[simp] theorem specChanGainSet_keeps (q : Request) (s : State) :
    (specChanGainSet.act q s).pending = s.pending ∧ (specChanGainSet.act q s).tether = s.tether := by simp [specChanGainSet]
theorem execChanGainSet_keeps (q) (s : State) (t : State) (h : execChanGainSet q s = .next t) :
    t.pending = s.pending ∧ t.tether = s.tether := kenra_keeps _ _ _ _ specChanGainSet_keeps _ h
@[simp] theorem applyGains_keeps (q) (data) (s : State) :
    (applyGains q data s).pending = s.pending ∧ (applyGains q data s).tether = s.tether := by simp [applyGains]
@[simp] theorem specChanStatsConfig_keeps (q : Request) (s : State) :
    (specChanStatsConfig.act q s).pending = s.pending ∧ (specChanStatsConfig.act q s).tether = s.tether := by simp [specChanStatsConfig]
theorem execChanStatsConfig_keeps (q) (s : State) (t : State) (h : execChanStatsConfig q s = .next t) :
    t.pending = s.pending ∧ t.tether = s.tether := kenra_keeps _ _ _ _ specChanStatsConfig_keeps _ h
@[simp] theorem specChanStatsRead_keeps (q : Request) (s : State) :
    (specChanStatsRead.act q s).pending = s.pending ∧ (specChanStatsRead.act q s).tether = s.tether := by simp [specChanStatsRead]
theorem execChanStatsRead_keeps (q) (s : State) (t : State) (h : execChanStatsRead q s = .next t) :
    t.pending = s.pending ∧ t.tether = s.tether := kenra_keeps _ _ _ _ specChanStatsRead_keeps _ h
theorem execChanStatsReadDone_keeps (fail) (s : State) (t : State) (h : execChanStatsReadDone fail s = .next t) :
    t.pending = s.pending ∧ t.tether = s.tether := whenOn_keeps _ _ (fun s => by simp) _ h
@[simp] theorem specChanStatus_keeps (q : Request) (s : State) :
    (specChanStatus.act q s).pending = s.pending ∧ (specChanStatus.act q s).tether = s.tether := by simp [specChanStatus]
theorem execChanStatus_keeps (q) (s : State) (t : State) (h : execChanStatus q s = .next t) :
    t.pending = s.pending ∧ t.tether = s.tether := kenra_keeps _ _ _ _ specChanStatus_keeps _ h

/-! Pegs. -/

theorem pegRun_keeps (p) (body) (s : State) (t : State) (hb : BodyKeeps body) (h : pegRun p body s = .next t) :
    t.pending = s.pending ∧ t.tether = s.tether := whenOn_keeps _ _ (fun s => pegIssue_keeps _ _ _ hb) _ h
@[simp] theorem windowBytes_keeps (n) (a) (s : State) :
    (windowBytes n a s).2.pending = s.pending ∧ (windowBytes n a s).2.tether = s.tether := by
  induction n generalizing a s with
  | zero => exact ⟨rfl, rfl⟩
  | succ n ih => simp [windowBytes, ih]
@[simp] theorem pegRead_keeps (p) (x) (n) (bad) (s : State) :
    (pegRead p x n bad s).2.pending = s.pending ∧ (pegRead p x n bad s).2.tether = s.tether := by
  cases x <;> simp [pegRead]
@[simp] theorem pegPut_keeps (p) (x) (l) (s : State) :
    (pegPut p x l s).pending = s.pending ∧ (pegPut p x l s).tether = s.tether := by unfold pegPut; (repeat' split) <;> simp
@[simp] theorem commitTable_keeps (a0) (l) (s : State) :
    (commitTable a0 l s).pending = s.pending ∧ (commitTable a0 l s).tether = s.tether := by unfold commitTable; (repeat' split) <;> simp
@[simp] theorem landTransfer_keeps (p) (t) (dst) (l) (s : State) :
    (landTransfer p t dst l s).pending = s.pending ∧ (landTransfer p t dst l s).tether = s.tether := by
  unfold landTransfer; try dsimp only
  first | (simp; done) | ((repeat' split) <;> simp)
@[simp] theorem leaveSpace_keeps (p) (t) (s : State) :
    (leaveSpace p t s).pending = s.pending ∧ (leaveSpace p t s).tether = s.tether := by
  unfold leaveSpace; try dsimp only
  first | (simp; done) | ((repeat' split) <;> simp)
@[simp] theorem moveTransfer_keeps (p) (a1) (src) (dst) (fail) (bad) (s : State) :
    (moveTransfer p a1 src dst fail bad s).2.pending = s.pending ∧ (moveTransfer p a1 src dst fail bad s).2.tether = s.tether := by
  unfold moveTransfer; dsimp only; (repeat' split) <;> simp
@[simp] theorem xferError_keeps (p) (bit) (s : State) :
    (xferError p bit s).pending = s.pending ∧ (xferError p bit s).tether = s.tether := by
  unfold xferError; try dsimp only
  first | (simp; done) | ((repeat' split) <;> simp)
@[simp] theorem endTransfer_keeps (p) (fail) (bad) (s : State) :
    (endTransfer p fail bad s).pending = s.pending ∧ (endTransfer p fail bad s).tether = s.tether := by
  unfold endTransfer; split
  · simp
  · dsimp only; split
    · simp
    · (repeat' split) <;> simp
@[simp] theorem cancelTables_keeps (n) (p) (s : State) :
    (cancelTables n p s).pending = s.pending ∧ (cancelTables n p s).tether = s.tether := by simp [cancelTables]
theorem execPegAdd_keeps (a0) (a1) (a2) (a3) (s : State) (t : State) (h : execPegAdd a0 a1 a2 a3 s = .next t) :
    t.pending = s.pending ∧ t.tether = s.tether := by
  refine whenOn_keeps _ _ (fun s => pegIssue_keeps _ _ _ ?_) _ h
  intro s g g' t h
  simp only [pegAlu, pegAluOpen, branchBody, noSlot, pegLoadBody, pegStoreBody] at h
  (repeat' split at h) <;> (first | (cases h; done) | (cases h; simp))
theorem execPegSub_keeps (a0) (a1) (a2) (a3) (s : State) (t : State) (h : execPegSub a0 a1 a2 a3 s = .next t) :
    t.pending = s.pending ∧ t.tether = s.tether := by
  refine whenOn_keeps _ _ (fun s => pegIssue_keeps _ _ _ ?_) _ h
  intro s g g' t h
  simp only [pegAlu, pegAluOpen, branchBody, noSlot, pegLoadBody, pegStoreBody] at h
  (repeat' split at h) <;> (first | (cases h; done) | (cases h; simp))
theorem execPegAnd_keeps (a0) (a1) (a2) (a3) (s : State) (t : State) (h : execPegAnd a0 a1 a2 a3 s = .next t) :
    t.pending = s.pending ∧ t.tether = s.tether := by
  refine whenOn_keeps _ _ (fun s => pegIssue_keeps _ _ _ ?_) _ h
  intro s g g' t h
  simp only [pegAlu, pegAluOpen, branchBody, noSlot, pegLoadBody, pegStoreBody] at h
  (repeat' split at h) <;> (first | (cases h; done) | (cases h; simp))
theorem execPegOr_keeps (a0) (a1) (a2) (a3) (s : State) (t : State) (h : execPegOr a0 a1 a2 a3 s = .next t) :
    t.pending = s.pending ∧ t.tether = s.tether := by
  refine whenOn_keeps _ _ (fun s => pegIssue_keeps _ _ _ ?_) _ h
  intro s g g' t h
  simp only [pegAlu, pegAluOpen, branchBody, noSlot, pegLoadBody, pegStoreBody] at h
  (repeat' split at h) <;> (first | (cases h; done) | (cases h; simp))
theorem execPegXor_keeps (a0) (a1) (a2) (a3) (s : State) (t : State) (h : execPegXor a0 a1 a2 a3 s = .next t) :
    t.pending = s.pending ∧ t.tether = s.tether := by
  refine whenOn_keeps _ _ (fun s => pegIssue_keeps _ _ _ ?_) _ h
  intro s g g' t h
  simp only [pegAlu, pegAluOpen, branchBody, noSlot, pegLoadBody, pegStoreBody] at h
  (repeat' split at h) <;> (first | (cases h; done) | (cases h; simp))
theorem execPegMin_keeps (a0) (a1) (a2) (a3) (s : State) (t : State) (h : execPegMin a0 a1 a2 a3 s = .next t) :
    t.pending = s.pending ∧ t.tether = s.tether := by
  refine whenOn_keeps _ _ (fun s => pegIssue_keeps _ _ _ ?_) _ h
  intro s g g' t h
  simp only [pegAlu, pegAluOpen, branchBody, noSlot, pegLoadBody, pegStoreBody] at h
  (repeat' split at h) <;> (first | (cases h; done) | (cases h; simp))
theorem execPegMax_keeps (a0) (a1) (a2) (a3) (s : State) (t : State) (h : execPegMax a0 a1 a2 a3 s = .next t) :
    t.pending = s.pending ∧ t.tether = s.tether := by
  refine whenOn_keeps _ _ (fun s => pegIssue_keeps _ _ _ ?_) _ h
  intro s g g' t h
  simp only [pegAlu, pegAluOpen, branchBody, noSlot, pegLoadBody, pegStoreBody] at h
  (repeat' split at h) <;> (first | (cases h; done) | (cases h; simp))
theorem execPegAbs_keeps (a0) (a1) (a2) (s : State) (t : State) (h : execPegAbs a0 a1 a2 s = .next t) :
    t.pending = s.pending ∧ t.tether = s.tether := by
  refine whenOn_keeps _ _ (fun s => pegIssue_keeps _ _ _ ?_) _ h
  intro s g g' t h
  simp only [pegAlu, pegAluOpen, branchBody, noSlot, pegLoadBody, pegStoreBody] at h
  (repeat' split at h) <;> (first | (cases h; done) | (cases h; simp))
theorem execPegAdds_keeps (a0) (a1) (a2) (a3) (s : State) (t : State) (h : execPegAdds a0 a1 a2 a3 s = .next t) :
    t.pending = s.pending ∧ t.tether = s.tether := by
  refine whenOn_keeps _ _ (fun s => pegIssue_keeps _ _ _ ?_) _ h
  intro s g g' t h
  simp only [pegAlu, pegAluOpen, branchBody, noSlot, pegLoadBody, pegStoreBody] at h
  (repeat' split at h) <;> (first | (cases h; done) | (cases h; simp))
theorem execPegShl_keeps (a0) (a1) (a2) (a3) (s : State) (t : State) (h : execPegShl a0 a1 a2 a3 s = .next t) :
    t.pending = s.pending ∧ t.tether = s.tether := by
  refine whenOn_keeps _ _ (fun s => pegIssue_keeps _ _ _ ?_) _ h
  intro s g g' t h
  simp only [pegAlu, pegAluOpen, branchBody, noSlot, pegLoadBody, pegStoreBody] at h
  (repeat' split at h) <;> (first | (cases h; done) | (cases h; simp))
theorem execPegShr_keeps (a0) (a1) (a2) (a3) (s : State) (t : State) (h : execPegShr a0 a1 a2 a3 s = .next t) :
    t.pending = s.pending ∧ t.tether = s.tether := by
  refine whenOn_keeps _ _ (fun s => pegIssue_keeps _ _ _ ?_) _ h
  intro s g g' t h
  simp only [pegAlu, pegAluOpen, branchBody, noSlot, pegLoadBody, pegStoreBody] at h
  (repeat' split at h) <;> (first | (cases h; done) | (cases h; simp))
theorem execPegSar_keeps (a0) (a1) (a2) (a3) (s : State) (t : State) (h : execPegSar a0 a1 a2 a3 s = .next t) :
    t.pending = s.pending ∧ t.tether = s.tether := by
  refine whenOn_keeps _ _ (fun s => pegIssue_keeps _ _ _ ?_) _ h
  intro s g g' t h
  simp only [pegAlu, pegAluOpen, branchBody, noSlot, pegLoadBody, pegStoreBody] at h
  (repeat' split at h) <;> (first | (cases h; done) | (cases h; simp))
theorem execPegRot_keeps (a0) (a1) (a2) (a3) (s : State) (t : State) (h : execPegRot a0 a1 a2 a3 s = .next t) :
    t.pending = s.pending ∧ t.tether = s.tether := by
  refine whenOn_keeps _ _ (fun s => pegIssue_keeps _ _ _ ?_) _ h
  intro s g g' t h
  simp only [pegAlu, pegAluOpen, branchBody, noSlot, pegLoadBody, pegStoreBody] at h
  (repeat' split at h) <;> (first | (cases h; done) | (cases h; simp))
theorem execPegClz_keeps (a0) (a1) (a2) (s : State) (t : State) (h : execPegClz a0 a1 a2 s = .next t) :
    t.pending = s.pending ∧ t.tether = s.tether := by
  refine whenOn_keeps _ _ (fun s => pegIssue_keeps _ _ _ ?_) _ h
  intro s g g' t h
  simp only [pegAlu, pegAluOpen, branchBody, noSlot, pegLoadBody, pegStoreBody] at h
  (repeat' split at h) <;> (first | (cases h; done) | (cases h; simp))
theorem execPegPopc_keeps (a0) (a1) (a2) (s : State) (t : State) (h : execPegPopc a0 a1 a2 s = .next t) :
    t.pending = s.pending ∧ t.tether = s.tether := by
  refine whenOn_keeps _ _ (fun s => pegIssue_keeps _ _ _ ?_) _ h
  intro s g g' t h
  simp only [pegAlu, pegAluOpen, branchBody, noSlot, pegLoadBody, pegStoreBody] at h
  (repeat' split at h) <;> (first | (cases h; done) | (cases h; simp))
theorem execPegBitrev_keeps (a0) (a1) (a2) (s : State) (t : State) (h : execPegBitrev a0 a1 a2 s = .next t) :
    t.pending = s.pending ∧ t.tether = s.tether := by
  refine whenOn_keeps _ _ (fun s => pegIssue_keeps _ _ _ ?_) _ h
  intro s g g' t h
  simp only [pegAlu, pegAluOpen, branchBody, noSlot, pegLoadBody, pegStoreBody] at h
  (repeat' split at h) <;> (first | (cases h; done) | (cases h; simp))
theorem execPegExt_keeps (a0) (a1) (a2) (a3) (a4) (s : State) (t : State) (h : execPegExt a0 a1 a2 a3 a4 s = .next t) :
    t.pending = s.pending ∧ t.tether = s.tether := by
  refine whenOn_keeps _ _ (fun s => pegIssue_keeps _ _ _ ?_) _ h
  intro s g g' t h
  simp only [pegAlu, pegAluOpen, branchBody, noSlot, pegLoadBody, pegStoreBody] at h
  (repeat' split at h) <;> (first | (cases h; done) | (cases h; simp))
theorem execPegIns_keeps (a0) (a1) (a2) (a3) (a4) (s : State) (t : State) (h : execPegIns a0 a1 a2 a3 a4 s = .next t) :
    t.pending = s.pending ∧ t.tether = s.tether := by
  refine whenOn_keeps _ _ (fun s => pegIssue_keeps _ _ _ ?_) _ h
  intro s g g' t h
  simp only [pegAlu, pegAluOpen, branchBody, noSlot, pegLoadBody, pegStoreBody] at h
  (repeat' split at h) <;> (first | (cases h; done) | (cases h; simp))
theorem execPegPadd_keeps (a0) (a1) (a2) (a3) (s : State) (t : State) (h : execPegPadd a0 a1 a2 a3 s = .next t) :
    t.pending = s.pending ∧ t.tether = s.tether := by
  refine whenOn_keeps _ _ (fun s => pegIssue_keeps _ _ _ ?_) _ h
  intro s g g' t h
  simp only [pegAlu, pegAluOpen, branchBody, noSlot, pegLoadBody, pegStoreBody] at h
  (repeat' split at h) <;> (first | (cases h; done) | (cases h; simp))
theorem execPegPsub_keeps (a0) (a1) (a2) (a3) (s : State) (t : State) (h : execPegPsub a0 a1 a2 a3 s = .next t) :
    t.pending = s.pending ∧ t.tether = s.tether := by
  refine whenOn_keeps _ _ (fun s => pegIssue_keeps _ _ _ ?_) _ h
  intro s g g' t h
  simp only [pegAlu, pegAluOpen, branchBody, noSlot, pegLoadBody, pegStoreBody] at h
  (repeat' split at h) <;> (first | (cases h; done) | (cases h; simp))
theorem execPegPsat_keeps (a0) (a1) (a2) (a3) (s : State) (t : State) (h : execPegPsat a0 a1 a2 a3 s = .next t) :
    t.pending = s.pending ∧ t.tether = s.tether := by
  refine whenOn_keeps _ _ (fun s => pegIssue_keeps _ _ _ ?_) _ h
  intro s g g' t h
  simp only [pegAlu, pegAluOpen, branchBody, noSlot, pegLoadBody, pegStoreBody] at h
  (repeat' split at h) <;> (first | (cases h; done) | (cases h; simp))
theorem execPegCmp_keeps (a0) (a1) (a2) (a3) (s : State) (t : State) (h : execPegCmp a0 a1 a2 a3 s = .next t) :
    t.pending = s.pending ∧ t.tether = s.tether := by
  refine whenOn_keeps _ _ (fun s => pegIssue_keeps _ _ _ ?_) _ h
  intro s g g' t h
  simp only [pegAlu, pegAluOpen, branchBody, noSlot, pegLoadBody, pegStoreBody] at h
  (repeat' split at h) <;> (first | (cases h; done) | (cases h; simp))
theorem execPegBrCc_keeps (a0) (a1) (a2) (a3) (s : State) (t : State) (h : execPegBrCc a0 a1 a2 a3 s = .next t) :
    t.pending = s.pending ∧ t.tether = s.tether := by
  refine whenOn_keeps _ _ (fun s => pegIssue_keeps _ _ _ ?_) _ h
  intro s g g' t h
  simp only [pegAlu, pegAluOpen, branchBody, noSlot, pegLoadBody, pegStoreBody] at h
  (repeat' split at h) <;> (first | (cases h; done) | (cases h; simp))
theorem execPegCall_keeps (a0) (a1) (s : State) (t : State) (h : execPegCall a0 a1 s = .next t) :
    t.pending = s.pending ∧ t.tether = s.tether := by
  refine whenOn_keeps _ _ (fun s => pegIssue_keeps _ _ _ ?_) _ h
  intro s g g' t h
  simp only [pegAlu, pegAluOpen, branchBody, noSlot, pegLoadBody, pegStoreBody] at h
  (repeat' split at h) <;> (first | (cases h; done) | (cases h; simp))
theorem execPegRet_keeps (a0) (a1) (s : State) (t : State) (h : execPegRet a0 a1 s = .next t) :
    t.pending = s.pending ∧ t.tether = s.tether := by
  refine whenOn_keeps _ _ (fun s => pegIssue_keeps _ _ _ ?_) _ h
  intro s g g' t h
  simp only [pegAlu, pegAluOpen, branchBody, noSlot, pegLoadBody, pegStoreBody] at h
  (repeat' split at h) <;> (first | (cases h; done) | (cases h; simp))
theorem execPegJmp_keeps (a0) (a1) (s : State) (t : State) (h : execPegJmp a0 a1 s = .next t) :
    t.pending = s.pending ∧ t.tether = s.tether := by
  refine whenOn_keeps _ _ (fun s => pegIssue_keeps _ _ _ ?_) _ h
  intro s g g' t h
  simp only [pegAlu, pegAluOpen, branchBody, noSlot, pegLoadBody, pegStoreBody] at h
  (repeat' split at h) <;> (first | (cases h; done) | (cases h; simp))
theorem execPegLd_keeps (a0) (a1) (a2) (s : State) (t : State) (h : execPegLd a0 a1 a2 s = .next t) :
    t.pending = s.pending ∧ t.tether = s.tether := by
  refine whenOn_keeps _ _ (fun s => pegIssue_keeps _ _ _ ?_) _ h
  intro s g g' t h
  simp only [pegAlu, pegAluOpen, branchBody, noSlot, pegLoadBody, pegStoreBody] at h
  (repeat' split at h) <;> (first | (cases h; done) | (cases h; simp))
theorem execPegLdh_keeps (a0) (a1) (a2) (s : State) (t : State) (h : execPegLdh a0 a1 a2 s = .next t) :
    t.pending = s.pending ∧ t.tether = s.tether := by
  refine whenOn_keeps _ _ (fun s => pegIssue_keeps _ _ _ ?_) _ h
  intro s g g' t h
  simp only [pegAlu, pegAluOpen, branchBody, noSlot, pegLoadBody, pegStoreBody] at h
  (repeat' split at h) <;> (first | (cases h; done) | (cases h; simp))
theorem execPegLdb_keeps (a0) (a1) (a2) (s : State) (t : State) (h : execPegLdb a0 a1 a2 s = .next t) :
    t.pending = s.pending ∧ t.tether = s.tether := by
  refine whenOn_keeps _ _ (fun s => pegIssue_keeps _ _ _ ?_) _ h
  intro s g g' t h
  simp only [pegAlu, pegAluOpen, branchBody, noSlot, pegLoadBody, pegStoreBody] at h
  (repeat' split at h) <;> (first | (cases h; done) | (cases h; simp))
theorem execPegSt_keeps (a0) (a1) (a2) (s : State) (t : State) (h : execPegSt a0 a1 a2 s = .next t) :
    t.pending = s.pending ∧ t.tether = s.tether := by
  refine whenOn_keeps _ _ (fun s => pegIssue_keeps _ _ _ ?_) _ h
  intro s g g' t h
  simp only [pegAlu, pegAluOpen, branchBody, noSlot, pegLoadBody, pegStoreBody] at h
  (repeat' split at h) <;> (first | (cases h; done) | (cases h; simp))
theorem execPegSth_keeps (a0) (a1) (a2) (s : State) (t : State) (h : execPegSth a0 a1 a2 s = .next t) :
    t.pending = s.pending ∧ t.tether = s.tether := by
  refine whenOn_keeps _ _ (fun s => pegIssue_keeps _ _ _ ?_) _ h
  intro s g g' t h
  simp only [pegAlu, pegAluOpen, branchBody, noSlot, pegLoadBody, pegStoreBody] at h
  (repeat' split at h) <;> (first | (cases h; done) | (cases h; simp))
theorem execPegStb_keeps (a0) (a1) (a2) (s : State) (t : State) (h : execPegStb a0 a1 a2 s = .next t) :
    t.pending = s.pending ∧ t.tether = s.tether := by
  refine whenOn_keeps _ _ (fun s => pegIssue_keeps _ _ _ ?_) _ h
  intro s g g' t h
  simp only [pegAlu, pegAluOpen, branchBody, noSlot, pegLoadBody, pegStoreBody] at h
  (repeat' split at h) <;> (first | (cases h; done) | (cases h; simp))
theorem execPegMovp_keeps (a0) (a1) (a2) (s : State) (t : State) (h : execPegMovp a0 a1 a2 s = .next t) :
    t.pending = s.pending ∧ t.tether = s.tether := by
  refine whenOn_keeps _ _ (fun s => pegIssue_keeps _ _ _ ?_) _ h
  intro s g g' t h
  simp only [pegAlu, pegAluOpen, branchBody, noSlot, pegLoadBody, pegStoreBody] at h
  (repeat' split at h) <;> (first | (cases h; done) | (cases h; simp))
theorem execPegMovm_keeps (a0) (a1) (a2) (s : State) (t : State) (h : execPegMovm a0 a1 a2 s = .next t) :
    t.pending = s.pending ∧ t.tether = s.tether := by
  refine whenOn_keeps _ _ (fun s => pegIssue_keeps _ _ _ ?_) _ h
  intro s g g' t h
  simp only [pegAlu, pegAluOpen, branchBody, noSlot, pegLoadBody, pegStoreBody] at h
  (repeat' split at h) <;> (first | (cases h; done) | (cases h; simp))
theorem execPegMovcb_keeps (a0) (a1) (a2) (s : State) (t : State) (h : execPegMovcb a0 a1 a2 s = .next t) :
    t.pending = s.pending ∧ t.tether = s.tether := by
  refine whenOn_keeps _ _ (fun s => pegIssue_keeps _ _ _ ?_) _ h
  intro s g g' t h
  simp only [pegAlu, pegAluOpen, branchBody, noSlot, pegLoadBody, pegStoreBody] at h
  (repeat' split at h) <;> (first | (cases h; done) | (cases h; simp))
theorem execPegMovcl_keeps (a0) (a1) (a2) (s : State) (t : State) (h : execPegMovcl a0 a1 a2 s = .next t) :
    t.pending = s.pending ∧ t.tether = s.tether := by
  refine whenOn_keeps _ _ (fun s => pegIssue_keeps _ _ _ ?_) _ h
  intro s g g' t h
  simp only [pegAlu, pegAluOpen, branchBody, noSlot, pegLoadBody, pegStoreBody] at h
  (repeat' split at h) <;> (first | (cases h; done) | (cases h; simp))
theorem execPegQmac_keeps (a0) (a1) (a2) (s : State) (t : State) (h : execPegQmac a0 a1 a2 s = .next t) :
    t.pending = s.pending ∧ t.tether = s.tether := by
  refine whenOn_keeps _ _ (fun s => pegIssue_keeps _ _ _ ?_) _ h
  intro s g g' t h
  simp only [pegAlu, pegAluOpen, branchBody, noSlot, pegLoadBody, pegStoreBody] at h
  (repeat' split at h) <;> (first | (cases h; done) | (cases h; simp))
theorem execPegQmacL_keeps (a0) (a1) (a2) (a3) (a4) (s : State) (t : State) (h : execPegQmacL a0 a1 a2 a3 a4 s = .next t) :
    t.pending = s.pending ∧ t.tether = s.tether := by
  refine whenOn_keeps _ _ (fun s => pegIssue_keeps _ _ _ ?_) _ h
  intro s g g' t h
  simp only [pegAlu, pegAluOpen, branchBody, noSlot, pegLoadBody, pegStoreBody] at h
  (repeat' split at h) <;> (first | (cases h; done) | (cases h; simp))
theorem execPegQmacN_keeps (a0) (a1) (a2) (s : State) (t : State) (h : execPegQmacN a0 a1 a2 s = .next t) :
    t.pending = s.pending ∧ t.tether = s.tether := by
  refine whenOn_keeps _ _ (fun s => pegIssue_keeps _ _ _ ?_) _ h
  intro s g g' t h
  simp only [pegAlu, pegAluOpen, branchBody, noSlot, pegLoadBody, pegStoreBody] at h
  (repeat' split at h) <;> (first | (cases h; done) | (cases h; simp))
theorem execPegSmac_keeps (a0) (a1) (a2) (a3) (s : State) (t : State) (h : execPegSmac a0 a1 a2 a3 s = .next t) :
    t.pending = s.pending ∧ t.tether = s.tether := by
  refine whenOn_keeps _ _ (fun s => pegIssue_keeps _ _ _ ?_) _ h
  intro s g g' t h
  simp only [pegAlu, pegAluOpen, branchBody, noSlot, pegLoadBody, pegStoreBody] at h
  (repeat' split at h) <;> (first | (cases h; done) | (cases h; simp))
theorem execPegSmacN_keeps (a0) (a1) (a2) (a3) (s : State) (t : State) (h : execPegSmacN a0 a1 a2 a3 s = .next t) :
    t.pending = s.pending ∧ t.tether = s.tether := by
  refine whenOn_keeps _ _ (fun s => pegIssue_keeps _ _ _ ?_) _ h
  intro s g g' t h
  simp only [pegAlu, pegAluOpen, branchBody, noSlot, pegLoadBody, pegStoreBody] at h
  (repeat' split at h) <;> (first | (cases h; done) | (cases h; simp))
theorem execPegAccrd_keeps (a0) (a1) (a2) (a3) (s : State) (t : State) (h : execPegAccrd a0 a1 a2 a3 s = .next t) :
    t.pending = s.pending ∧ t.tether = s.tether := by
  refine whenOn_keeps _ _ (fun s => pegIssue_keeps _ _ _ ?_) _ h
  intro s g g' t h
  simp only [pegAlu, pegAluOpen, branchBody, noSlot, pegLoadBody, pegStoreBody] at h
  (repeat' split at h) <;> (first | (cases h; done) | (cases h; simp))
theorem execPegAccmv_keeps (a0) (a1) (a2) (a3) (s : State) (t : State) (h : execPegAccmv a0 a1 a2 a3 s = .next t) :
    t.pending = s.pending ∧ t.tether = s.tether := by
  refine whenOn_keeps _ _ (fun s => pegIssue_keeps _ _ _ ?_) _ h
  intro s g g' t h
  simp only [pegAlu, pegAluOpen, branchBody, noSlot, pegLoadBody, pegStoreBody] at h
  (repeat' split at h) <;> (first | (cases h; done) | (cases h; simp))
theorem execPegAccclr_keeps (a0) (a1) (s : State) (t : State) (h : execPegAccclr a0 a1 s = .next t) :
    t.pending = s.pending ∧ t.tether = s.tether := by
  refine whenOn_keeps _ _ (fun s => pegIssue_keeps _ _ _ ?_) _ h
  intro s g g' t h
  simp only [pegAlu, pegAluOpen, branchBody, noSlot, pegLoadBody, pegStoreBody] at h
  (repeat' split at h) <;> (first | (cases h; done) | (cases h; simp))
theorem execPegLoop_keeps (a0) (a1) (a2) (a3) (s : State) (t : State) (h : execPegLoop a0 a1 a2 a3 s = .next t) :
    t.pending = s.pending ∧ t.tether = s.tether := by
  refine whenOn_keeps _ _ (fun s => pegIssue_keeps _ _ _ ?_) _ h
  intro s g g' t h
  simp only [pegAlu, pegAluOpen, branchBody, noSlot, pegLoadBody, pegStoreBody] at h
  (repeat' split at h) <;> (first | (cases h; done) | (cases h; simp))
theorem execPegMovstat_keeps (p) (x) (toStat) (r) (s : State) (t : State) (h : execPegMovstat p x toStat r s = .next t) :
    t.pending = s.pending ∧ t.tether = s.tether := by
  refine whenOn_keeps _ _ (fun s => pegIssue_keeps _ _ _ ?_) _ h
  intro s g g' t h
  split at h <;> cases h <;> exact ⟨rfl, rfl⟩
theorem execPegWait_keeps (a0) (s : State) (t : State) (h : execPegWait a0 s = .next t) :
    t.pending = s.pending ∧ t.tether = s.tether := by
  refine whenOn_keeps _ _ (fun s => pegIssue_keeps _ _ _ ?_) _ h
  intro s g g' t h
  simp only [pegAlu, pegAluOpen, branchBody, noSlot, pegLoadBody, pegStoreBody] at h
  (repeat' split at h) <;> (first | (cases h; done) | (cases h; simp))
theorem execPegReti_keeps (a0) (s : State) (t : State) (h : execPegReti a0 s = .next t) :
    t.pending = s.pending ∧ t.tether = s.tether := by
  refine whenOn_keeps _ _ (fun s => pegIssue_keeps _ _ _ ?_) _ h
  intro s g g' t h
  simp only [pegAlu, pegAluOpen, branchBody, noSlot, pegLoadBody, pegStoreBody] at h
  (repeat' split at h) <;> (first | (cases h; done) | (cases h; simp))
theorem execPegSignal_keeps (a0) (a1) (s : State) (t : State) (h : execPegSignal a0 a1 s = .next t) :
    t.pending = s.pending ∧ t.tether = s.tether := by
  refine whenOn_keeps _ _ (fun s => pegIssue_keeps _ _ _ ?_) _ h
  intro s g g' t h
  simp only [pegAlu, pegAluOpen, branchBody, noSlot, pegLoadBody, pegStoreBody] at h
  (repeat' split at h) <;> (first | (cases h; done) | (cases h; simp))
theorem execPegSettimer_keeps (a0) (a1) (s : State) (t : State) (h : execPegSettimer a0 a1 s = .next t) :
    t.pending = s.pending ∧ t.tether = s.tether := by
  refine whenOn_keeps _ _ (fun s => pegIssue_keeps _ _ _ ?_) _ h
  intro s g g' t h
  simp only [pegAlu, pegAluOpen, branchBody, noSlot, pegLoadBody, pegStoreBody] at h
  (repeat' split at h) <;> (first | (cases h; done) | (cases h; simp))
theorem execPegTrap_keeps (a0) (s : State) (t : State) (h : execPegTrap a0 s = .next t) :
    t.pending = s.pending ∧ t.tether = s.tether := by
  refine whenOn_keeps _ _ (fun s => pegIssue_keeps _ _ _ ?_) _ h
  intro s g g' t h
  simp only [pegAlu, pegAluOpen, branchBody, noSlot, pegLoadBody, pegStoreBody] at h
  (repeat' split at h) <;> (first | (cases h; done) | (cases h; simp))
theorem execPegNop_keeps (a0) (s : State) (t : State) (h : execPegNop a0 s = .next t) :
    t.pending = s.pending ∧ t.tether = s.tether := by
  refine whenOn_keeps _ _ (fun s => pegIssue_keeps _ _ _ ?_) _ h
  intro s g g' t h
  simp only [pegAlu, pegAluOpen, branchBody, noSlot, pegLoadBody, pegStoreBody] at h
  (repeat' split at h) <;> (first | (cases h; done) | (cases h; simp))
theorem execPegXfer_keeps (a0) (a1) (a2) (s : State) (t : State) (h : execPegXfer a0 a1 a2 s = .next t) :
    t.pending = s.pending ∧ t.tether = s.tether := by
  refine whenOn_keeps _ _ (fun s => pegIssue_keeps _ _ _ ?_) _ h
  intro s g g' t h
  simp only [pegAlu, pegAluOpen, branchBody, noSlot, pegLoadBody, pegStoreBody] at h
  (repeat' split at h) <;> (first | (cases h; done) | (cases h; simp))
theorem execPegXwait_keeps (a0) (a1) (a2) (s : State) (t : State) (h : execPegXwait a0 a1 a2 s = .next t) :
    t.pending = s.pending ∧ t.tether = s.tether := by
  refine whenOn_keeps _ _ (fun s => pegIssue_keeps _ _ _ ?_) _ h
  intro s g g' t h
  simp only [pegAlu, pegAluOpen, branchBody, noSlot, pegLoadBody, pegStoreBody] at h
  (repeat' split at h) <;> (first | (cases h; done) | (cases h; simp))
theorem execPegInterruptEntry_keeps (p) (s : State) (t : State) (h : execPegInterruptEntry p s = .next t) :
    t.pending = s.pending ∧ t.tether = s.tether := whenOn_keeps _ _ (fun s => by dsimp only; (repeat' split) <;> simp) _ h
theorem execPegTimerCompare_keeps (p) (s : State) (t : State) (h : execPegTimerCompare p s = .next t) :
    t.pending = s.pending ∧ t.tether = s.tether := whenOn_keeps _ _ (fun s => by dsimp only; (repeat' split) <;> simp) _ h
theorem execPegDoorbell_keeps (p) (s : State) (t : State) (h : execPegDoorbell p s = .next t) :
    t.pending = s.pending ∧ t.tether = s.tether := whenOn_keeps _ _ (fun s => by simp) _ h
theorem execXferComplete_keeps (p) (smem) (fail) (ue) (s : State) (t : State) (h : execXferComplete p smem fail ue s = .next t) :
    t.pending = s.pending ∧ t.tether = s.tether := by
  unfold execXferComplete at h
  exact whenOn_keeps _ _ (fun s => by (repeat' split) <;> simp) _ h
@[simp] theorem pegsTick_keeps (n) (s : State) :
    (pegsTick n s).pending = s.pending ∧ (pegsTick n s).tether = s.tether := by simp [pegsTick]
@[simp] theorem pegsGuard_keeps (s : State) :
    (pegsGuard s).pending = s.pending ∧ (pegsGuard s).tether = s.tether := by simp [pegsGuard]

/-! Pack. -/

@[simp] theorem readUpTo_keeps (k) (n) (s : State) :
    (readUpTo k n s).pending = s.pending ∧ (readUpTo k n s).tether = s.tether := by
  unfold readUpTo; try dsimp only
  first | (simp; done) | ((repeat' split) <;> simp)
@[simp] theorem packArrive_keeps (k) (s : State) :
    (packArrive k s).pending = s.pending ∧ (packArrive k s).tether = s.tether := by unfold packArrive; (repeat' split) <;> simp
theorem execPackItemArrive_keeps (engine) (read) (s : State) (t : State) (h : execPackItemArrive engine read s = .next t) :
    t.pending = s.pending ∧ t.tether = s.tether := whenOn_keeps _ _ (fun s => by
  try dsimp only
  first | (simp; done) | ((repeat' split) <;> simp)) _ h
@[simp] theorem countItem_keeps (k) (x) (packed) (stored) (s : State) :
    (countItem k x packed stored s).pending = s.pending ∧ (countItem k x packed stored s).tether = s.tether := by simp [countItem]
@[simp] theorem packDone_keeps (k) (s : State) :
    (packDone k s).pending = s.pending ∧ (packDone k s).tether = s.tether := by unfold packDone; (repeat' split) <;> simp
theorem execPackItemDone_keeps (engine) (s : State) (t : State) (h : execPackItemDone engine s = .next t) :
    t.pending = s.pending ∧ t.tether = s.tether := whenOn_keeps _ _ (fun s => by simp) _ h
@[simp] theorem abandonItem_keeps (k) (s : State) (x) :
    (abandonItem k s x).pending = s.pending ∧ (abandonItem k s x).tether = s.tether := by simp [abandonItem]
@[simp] theorem packTick_keeps (s : State) :
    (packTick s).pending = s.pending ∧ (packTick s).tether = s.tether := by simp [packTick]
theorem execPackEncodeDone_keeps (s : State) (t : State) (h : execPackEncodeDone s = .next t) :
    t.pending = s.pending ∧ t.tether = s.tether := whenOn_keeps _ _ (fun s => by dsimp only; (repeat' split) <;> simp) _ h
@[simp] theorem specPackConfig_keeps (q : Request) (s : State) :
    (specPackConfig.act q s).pending = s.pending ∧ (specPackConfig.act q s).tether = s.tether := ⟨rfl, rfl⟩
theorem execPackConfig_keeps (q) (s : State) (t : State) (h : execPackConfig q s = .next t) :
    t.pending = s.pending ∧ t.tether = s.tether := kenra_keeps _ _ _ _ specPackConfig_keeps _ h
@[simp] theorem specPackEncode_keeps (q : Request) (s : State) :
    (specPackEncode.act q s).pending = s.pending ∧ (specPackEncode.act q s).tether = s.tether := by simp [specPackEncode]
theorem execPackEncode_keeps (q) (s : State) (t : State) (h : execPackEncode q s = .next t) :
    t.pending = s.pending ∧ t.tether = s.tether := kenra_keeps _ _ _ _ specPackEncode_keeps _ h
@[simp] theorem specPackStatus_keeps (q : Request) (s : State) :
    (specPackStatus.act q s).pending = s.pending ∧ (specPackStatus.act q s).tether = s.tether := by simp [specPackStatus]
theorem execPackStatus_keeps (q) (s : State) (t : State) (h : execPackStatus q s = .next t) :
    t.pending = s.pending ∧ t.tether = s.tether := kenra_keeps _ _ _ _ specPackStatus_keeps _ h

/-! Ingest. -/

@[simp] theorem feedUnit_keeps (key) (first) (l) (s : State) :
    (feedUnit key first l s).pending = s.pending ∧ (feedUnit key first l s).tether = s.tether := by simp [feedUnit]
@[simp] theorem handOn_keeps (sid) (slot) (l) (r) (s : State) :
    ((handOn sid slot l r s).2).pending = s.pending ∧ ((handOn sid slot l r s).2).tether = s.tether := by unfold handOn; dsimp only; (repeat' split) <;> simp
@[simp] theorem releaseOne_keeps (sid) (p) (r) (s : State) :
    ((releaseOne sid p r s).2).pending = s.pending ∧ ((releaseOne sid p r s).2).tether = s.tether := by simp [releaseOne]
@[simp] theorem releaseHeld_keeps (a0) (a1) (a2) (s : State) :
    ((releaseHeld a0 a1 a2 s).2).pending = s.pending ∧ ((releaseHeld a0 a1 a2 s).2).tether = s.tether := by
  induction a1 generalizing a2 s with
  | zero => exact ⟨rfl, rfl⟩
  | succ n ih =>
    unfold releaseHeld; dsimp only
    (repeat' split) <;> (first | exact ⟨rfl, rfl⟩ | (rw [(ih _ _).1, (ih _ _).2]; simp))
@[simp] theorem cascade_keeps (sid) (r) (s : State) :
    ((cascade sid r s).2).pending = s.pending ∧ ((cascade sid r s).2).tether = s.tether := by simp [cascade]
@[simp] theorem expireSlots_keeps (a0) (a1) (a2) (s : State) :
    ((expireSlots a0 a1 a2 s).2).pending = s.pending ∧ ((expireSlots a0 a1 a2 s).2).tether = s.tether := by
  induction a1 generalizing a2 s with
  | zero => exact ⟨rfl, rfl⟩
  | succ n ih =>
    unfold expireSlots; dsimp only
    (repeat' split) <;> (first | exact ⟨rfl, rfl⟩ | (rw [(ih _ _).1, (ih _ _).2]; simp))
@[simp] theorem expirePoint_keeps (sid) (limit) (r) (s : State) :
    ((expirePoint sid limit r s).2).pending = s.pending ∧ ((expirePoint sid limit r s).2).tether = s.tether := by simp [expirePoint]
@[simp] theorem settleRuns_keeps (sid) (a1) (s : State) :
    (settleRuns sid a1 s).pending = s.pending ∧ (settleRuns sid a1 s).tether = s.tether := by
  induction a1 generalizing s with
  | zero => exact ⟨rfl, rfl⟩
  | succ n ih => unfold settleRuns; (repeat' split) <;> simp [ih]
@[simp] theorem putRun_keeps (sid) (i) (r) (s : State) :
    (putRun sid i r s).pending = s.pending ∧ (putRun sid i r s).tether = s.tether := by simp [putRun]
@[simp] theorem holeDue_keeps (sid) (s : State) :
    (holeDue sid s).pending = s.pending ∧ (holeDue sid s).tether = s.tether := by unfold holeDue; dsimp only; (repeat' split) <;> simp
theorem execHoleDeadline_keeps (sid) (s : State) (t : State) (h : execHoleDeadline sid s = .next t) :
    t.pending = s.pending ∧ t.tether = s.tether := by cases h; simp
theorem execHeldPacketRelease_keeps (sid) (s : State) (t : State) (h : execHeldPacketRelease sid s = .next t) :
    t.pending = s.pending ∧ t.tether = s.tether := by
  have h := Host.Outcome.next.inj h; subst h
  repeat' first
    | (simp; done)
    | (refine And.intro ?_ ?_)
    | intro _
    | split
    | rw [foldl_pending]
    | rw [foldl_tether]
    | simp
@[simp] theorem freeBuffer_keeps (a0) (a1) (a2) (s : State) :
    (freeBuffer a0 a1 a2 s).pending = s.pending ∧ (freeBuffer a0 a1 a2 s).tether = s.tether := by
  induction a2 generalizing s with
  | zero => exact ⟨rfl, rfl⟩
  | succ n ih =>
    unfold freeBuffer; try dsimp only
    (repeat' split) <;> (first | exact ⟨rfl, rfl⟩ | (rw [(ih _).1, (ih _).2]; simp) | simp)
@[simp] theorem dropIdle_keeps (s : State) :
    (dropIdle s).pending = s.pending ∧ (dropIdle s).tether = s.tether := by simp [dropIdle]
@[simp] theorem acceptPacket_keeps (sid) (slot) (p) (r) (s : State) :
    ((acceptPacket sid slot p r s).2).pending = s.pending ∧ ((acceptPacket sid slot p r s).2).tether = s.tether := by unfold acceptPacket; (repeat' split) <;> simp
@[simp] theorem placePacket_keeps (sid) (i) (slot) (p) (s : State) :
    (placePacket sid i slot p s).pending = s.pending ∧ (placePacket sid i slot p s).tether = s.tether := by unfold placePacket; dsimp only; (repeat' split) <;> simp
@[simp] theorem streamPacket_keeps (sid) (b) (s : State) :
    (streamPacket sid b s).pending = s.pending ∧ (streamPacket sid b s).tether = s.tether := by unfold streamPacket; dsimp only; (repeat' split) <;> simp
@[simp] theorem classified_keeps (k) (len) (f) (s : State)
    (hf : ∀ s, (f s).pending = s.pending ∧ (f s).tether = s.tether) :
    (classified k len f s).pending = s.pending ∧ (classified k len f s).tether = s.tether := by
  unfold classified; split <;> simp [hf]
@[simp] theorem inTurn_keeps (k) (s : State) :
    (inTurn k s).pending = s.pending ∧ (inTurn k s).tether = s.tether := by
  unfold inTurn; try dsimp only
  first | (simp; done) | ((repeat' split) <;> simp)
@[simp] theorem ingestPacket_keeps (k) (kind) (dst) (dport) (src) (b) (s : State) :
    (ingestPacket k kind dst dport src b s).pending = s.pending ∧
      (ingestPacket k kind dst dport src b s).tether = s.tether := by
  unfold ingestPacket; dsimp only
  split
  · simp
  · rw [(classified_keeps _ _ _ _ (fun s => by (repeat' split) <;> simp)).1,
      (classified_keeps _ _ _ _ (fun s => by (repeat' split) <;> simp)).2]
    simp
@[simp] theorem deliverFrame_keeps (k) (f) (s : State) :
    (deliverFrame k f s).pending = s.pending ∧ (deliverFrame k f s).tether = s.tether := by
  unfold deliverFrame; try dsimp only
  first | (simp; done) | ((repeat' split) <;> simp)
@[simp] theorem gulBlock_keeps (k) (x) (s : State) :
    (gulBlock k x s).pending = s.pending ∧ (gulBlock k x s).tether = s.tether := by
  unfold gulBlock; try dsimp only
  first | (simp; done) | ((repeat' split) <;> simp)
@[simp] theorem dropCodewords_keeps (k) (s : State) :
    (dropCodewords k s).pending = s.pending ∧ (dropCodewords k s).tether = s.tether := by
  unfold dropCodewords; try dsimp only
  first | (simp; done) | ((repeat' split) <;> simp)
theorem execGulFrameReceive_keeps (quad') (f) (s : State) (t : State) (h : execGulFrameReceive quad' f s = .next t) :
    t.pending = s.pending ∧ t.tether = s.tether := whenOn_keeps _ _ (fun s => by (repeat' split) <;> simp) _ h
theorem execEthFrameReceive_keeps (quad') (data) (s : State) (t : State) (h : execEthFrameReceive quad' data s = .next t) :
    t.pending = s.pending ∧ t.tether = s.tether := whenOn_keeps _ _ (fun s => by dsimp only; (repeat' split) <;> simp) _ h
@[simp] theorem closeRun_keeps (sid) (n) (s : State) :
    (closeRun sid n s).pending = s.pending ∧ (closeRun sid n s).tether = s.tether := by unfold closeRun; (repeat' split) <;> simp
@[simp] theorem openRun_keeps (sid) (n) (s : State) :
    (openRun sid n s).pending = s.pending ∧ (openRun sid n s).tether = s.tether := by simp [openRun]
@[simp] theorem streamTick_keeps (sid) (n) (s : State) :
    (streamTick sid n s).pending = s.pending ∧ (streamTick sid n s).tether = s.tether := by simp [streamTick]
@[simp] theorem ingestTick_keeps (n) (s : State) :
    (ingestTick n s).pending = s.pending ∧ (ingestTick n s).tether = s.tether := by simp [ingestTick]
@[simp] theorem stopIngest_keeps (s : State) :
    (stopIngest s).pending = s.pending ∧ (stopIngest s).tether = s.tether := by simp [stopIngest]
@[simp] theorem delayTick_keeps (n) (s : State) :
    (delayTick n s).pending = s.pending ∧ (delayTick n s).tether = s.tether := by
  unfold delayTick; try dsimp only
  repeat' first | (simp; done) | (refine And.intro ?_ ?_) | intro _ | split | rw [foldl_pending] | rw [foldl_tether] | simp
@[simp] theorem offsetsSecond_keeps (s : State) :
    (offsetsSecond s).pending = s.pending ∧ (offsetsSecond s).tether = s.tether := by simp [offsetsSecond]
@[simp] theorem specIngestConfig_keeps (q : Request) (s : State) :
    (specIngestConfig.act q s).pending = s.pending ∧ (specIngestConfig.act q s).tether = s.tether := by simp [specIngestConfig]
theorem execIngestConfig_keeps (q) (s : State) (t : State) (h : execIngestConfig q s = .next t) :
    t.pending = s.pending ∧ t.tether = s.tether := kenra_keeps _ _ _ _ specIngestConfig_keeps _ h
@[simp] theorem specIngestStatus_keeps (q : Request) (s : State) :
    (specIngestStatus.act q s).pending = s.pending ∧ (specIngestStatus.act q s).tether = s.tether := by simp [specIngestStatus]
theorem execIngestStatus_keeps (q) (s : State) (t : State) (h : execIngestStatus q s = .next t) :
    t.pending = s.pending ∧ t.tether = s.tether := kenra_keeps _ _ _ _ specIngestStatus_keeps _ h
@[simp] theorem streamConfigAct_keeps (a) (s : State) :
    (streamConfigAct a s).pending = s.pending ∧ (streamConfigAct a s).tether = s.tether := by simp [streamConfigAct]
@[simp] theorem specStreamConfig_keeps (q : Request) (s : State) :
    (specStreamConfig.act q s).pending = s.pending ∧ (specStreamConfig.act q s).tether = s.tether := by simp [specStreamConfig]
theorem execStreamConfig_keeps (q) (s : State) (t : State) (h : execStreamConfig q s = .next t) :
    t.pending = s.pending ∧ t.tether = s.tether := kenra_keeps _ _ _ _ specStreamConfig_keeps _ h
@[simp] theorem enableStreams_keeps (on) (a) (s : State) :
    (enableStreams on a s).pending = s.pending ∧ (enableStreams on a s).tether = s.tether := by simp [enableStreams]
@[simp] theorem specStreamEnable_keeps (q : Request) (s : State) :
    (specStreamEnable.act q s).pending = s.pending ∧ (specStreamEnable.act q s).tether = s.tether := by simp [specStreamEnable]
theorem execStreamEnable_keeps (q) (s : State) (t : State) (h : execStreamEnable q s = .next t) :
    t.pending = s.pending ∧ t.tether = s.tether := kenra_keeps _ _ _ _ specStreamEnable_keeps _ h
@[simp] theorem specStreamDisable_keeps (q : Request) (s : State) :
    (specStreamDisable.act q s).pending = s.pending ∧ (specStreamDisable.act q s).tether = s.tether := by simp [specStreamDisable]
theorem execStreamDisable_keeps (q) (s : State) (t : State) (h : execStreamDisable q s = .next t) :
    t.pending = s.pending ∧ t.tether = s.tether := kenra_keeps _ _ _ _ specStreamDisable_keeps _ h
@[simp] theorem specStreamStatus_keeps (q : Request) (s : State) :
    (specStreamStatus.act q s).pending = s.pending ∧ (specStreamStatus.act q s).tether = s.tether := by simp [specStreamStatus]
theorem execStreamStatus_keeps (q) (s : State) (t : State) (h : execStreamStatus q s = .next t) :
    t.pending = s.pending ∧ t.tether = s.tether := kenra_keeps _ _ _ _ specStreamStatus_keeps _ h
@[simp] theorem specFlowSet_keeps (q : Request) (s : State) :
    (specFlowSet.act q s).pending = s.pending ∧ (specFlowSet.act q s).tether = s.tether := by simp [specFlowSet]
theorem execFlowSet_keeps (q) (s : State) (t : State) (h : execFlowSet q s = .next t) :
    t.pending = s.pending ∧ t.tether = s.tether := kenra_keeps _ _ _ _ specFlowSet_keeps _ h

end Sys2Proof.Laws
end

