-- ==== Sys2Proof/Laws/KeepHost.lean ====
section
/-! SUPPORT. What no command changes: the queue of waiting commands and, but for the writers of the Tether window and the loss of
power, the Tether. One lemma per operation of transactions, frames, loads, the host interface, the supply and the
Ridge. -/

namespace Sys2Proof.Laws
open Sys2Proof.Machine

set_option linter.unusedTactic false
set_option linter.unreachableTactic false
set_option linter.unusedSimpArgs false
set_option linter.unnecessarySeqFocus false

/-! Settings. -/

@[simp] theorem specSchedSelect_keeps (q : Request) (s : State) :
    (specSchedSelect.act q s).pending = s.pending ∧ (specSchedSelect.act q s).tether = s.tether := by simp [specSchedSelect]
theorem execSchedSelect_keeps (q) (s : State) (t : State) (h : execSchedSelect q s = .next t) :
    t.pending = s.pending ∧ t.tether = s.tether := kenra_keeps _ _ _ _ specSchedSelect_keeps _ h
@[simp] theorem specPegServiceConfig_keeps (q : Request) (s : State) :
    (specPegServiceConfig.act q s).pending = s.pending ∧ (specPegServiceConfig.act q s).tether = s.tether := by simp [specPegServiceConfig]
theorem execPegServiceConfig_keeps (q) (s : State) (t : State) (h : execPegServiceConfig q s = .next t) :
    t.pending = s.pending ∧ t.tether = s.tether := kenra_keeps _ _ _ _ specPegServiceConfig_keeps _ h
theorem settingOf_keeps (c : Instr) (k : Spec) (q : Request) (h : settingOf c = some (k, q)) (r : Request) (s : State) :
    (k.act r s).pending = s.pending ∧ (k.act r s).tether = s.tether := by
  unfold settingOf at h
  split at h <;> first | (cases h; done) | (obtain ⟨rfl, rfl⟩ := Prod.mk.inj (Option.some.inj h); simp)
@[simp] theorem applyOne_keeps (s : State) (a1) :
    (applyOne s a1).pending = s.pending ∧ (applyOne s a1).tether = s.tether := by
  unfold applyOne
  split
  · simp
  · simp
  · simp
  · have k := settingOf_keeps _ _ _ ‹settingOf _ = _›
    rw [(k _ _).1, (k _ _).2]; split <;> simp
  · simp
@[simp] theorem applyAll_keeps (l) (s : State) :
    (applyAll l s).pending = s.pending ∧ (applyAll l s).tether = s.tether := by simp [applyAll]
@[simp] theorem trialBase_keeps (s : State) :
    (trialBase s).pending = s.pending ∧ (trialBase s).tether = s.tether := by unfold trialBase; (repeat' split) <;> simp
@[simp] theorem trial_keeps (s : State) :
    (trial s).pending = s.pending ∧ (trial s).tether = s.tether := by simp [trial]

/-! Txn. -/

@[simp] theorem specTxnBegin_keeps (q : Request) (s : State) :
    (specTxnBegin.act q s).pending = s.pending ∧ (specTxnBegin.act q s).tether = s.tether := by simp [specTxnBegin]
theorem execTxnBegin_keeps (q) (s : State) (t : State) (h : execTxnBegin q s = .next t) :
    t.pending = s.pending ∧ t.tether = s.tether := kenra_keeps _ _ _ _ specTxnBegin_keeps _ h
@[simp] theorem specTxnCommit_keeps (q : Request) (s : State) :
    (specTxnCommit.act q s).pending = s.pending ∧ (specTxnCommit.act q s).tether = s.tether := by simp [specTxnCommit]
theorem execTxnCommit_keeps (q) (s : State) (t : State) (h : execTxnCommit q s = .next t) :
    t.pending = s.pending ∧ t.tether = s.tether := kenra_keeps _ _ _ _ specTxnCommit_keeps _ h
@[simp] theorem specTxnRollback_keeps (q : Request) (s : State) :
    (specTxnRollback.act q s).pending = s.pending ∧ (specTxnRollback.act q s).tether = s.tether := by unfold specTxnRollback; dsimp only; (repeat' split) <;> simp
theorem execTxnRollback_keeps (q) (s : State) (t : State) (h : execTxnRollback q s = .next t) :
    t.pending = s.pending ∧ t.tether = s.tether := kenra_keeps _ _ _ _ specTxnRollback_keeps _ h
theorem execTxnExpiry_keeps (s : State) (t : State) (h : execTxnExpiry s = .next t) :
    t.pending = s.pending ∧ t.tether = s.tether := whenOn_keeps _ _ (fun s => by (repeat' split) <;> simp) _ h
@[simp] theorem validated_keeps (s : State) :
    (validated s).pending = s.pending ∧ (validated s).tether = s.tether := by unfold validated; (repeat' split) <;> simp
theorem execTxnValidationDone_keeps (s : State) (t : State) (h : execTxnValidationDone s = .next t) :
    t.pending = s.pending ∧ t.tether = s.tether := whenOn_keeps _ _ (fun s => by simp) _ h
@[simp] theorem atTick_keeps (a0) (s : State)
    (h0 : ∀ s, (a0 s).pending = s.pending ∧ (a0 s).tether = s.tether) :
    (atTick a0 s).pending = s.pending ∧ (atTick a0 s).tether = s.tether := by unfold atTick; simp [*]
@[simp] theorem renumber_keeps (old) (new) (s : State) :
    (renumber old new s).pending = s.pending ∧ (renumber old new s).tether = s.tether := by simp [renumber]
@[simp] theorem setCompress_keeps (i) (s : State) :
    (setCompress i s).pending = s.pending ∧ (setCompress i s).tether = s.tether := by simp [setCompress]
@[simp] theorem startSchedule_keeps (i) (s : State) :
    (startSchedule i s).pending = s.pending ∧ (startSchedule i s).tether = s.tether := by simp [startSchedule]
@[simp] theorem switchSchedule_keeps (old) (i) (s : State) :
    (switchSchedule old i s).pending = s.pending ∧ (switchSchedule old i s).tether = s.tether := by simp [switchSchedule]
@[simp] theorem setLag_keeps (s : State) :
    (setLag s).pending = s.pending ∧ (setLag s).tether = s.tether := by
  unfold setLag; try dsimp only
  first | (simp; done) | ((repeat' split) <;> simp)
@[simp] theorem applyCommit_keeps (id) (c) (s : State) :
    (applyCommit id c s).pending = s.pending ∧ (applyCommit id c s).tether = s.tether := by unfold applyCommit; dsimp only; (repeat' split) <;> simp
@[simp] theorem commitDue_keeps (s : State) :
    (commitDue s).pending = s.pending ∧ (commitDue s).tether = s.tether := by unfold commitDue; (repeat' split) <;> simp
@[simp] theorem commitLate_keeps (s : State) :
    (commitLate s).pending = s.pending ∧ (commitLate s).tether = s.tether := by unfold commitLate; (repeat' split) <;> simp

/-! Sched. -/

@[simp] theorem specSchedLoad_keeps (q : Request) (s : State) :
    (specSchedLoad.act q s).pending = s.pending ∧ (specSchedLoad.act q s).tether = s.tether := by simp [specSchedLoad]
theorem execSchedLoad_keeps (q) (s : State) (t : State) (h : execSchedLoad q s = .next t) :
    t.pending = s.pending ∧ t.tether = s.tether := kenra_keeps _ _ _ _ specSchedLoad_keeps _ h
theorem execSchedLoadVerdict_keeps (s : State) (t : State) (h : execSchedLoadVerdict s = .next t) :
    t.pending = s.pending ∧ t.tether = s.tether := whenOn_keeps _ _ (fun s => by (repeat' split) <;> simp) _ h
@[simp] theorem specSchedConfig_keeps (q : Request) (s : State) :
    (specSchedConfig.act q s).pending = s.pending ∧ (specSchedConfig.act q s).tether = s.tether := by simp [specSchedConfig]
theorem execSchedConfig_keeps (q) (s : State) (t : State) (h : execSchedConfig q s = .next t) :
    t.pending = s.pending ∧ t.tether = s.tether := kenra_keeps _ _ _ _ specSchedConfig_keeps _ h
@[simp] theorem specSchedShed_keeps (q : Request) (s : State) :
    (specSchedShed.act q s).pending = s.pending ∧ (specSchedShed.act q s).tether = s.tether := by simp [specSchedShed]
theorem execSchedShed_keeps (q) (s : State) (t : State) (h : execSchedShed q s = .next t) :
    t.pending = s.pending ∧ t.tether = s.tether := kenra_keeps _ _ _ _ specSchedShed_keeps _ h
@[simp] theorem specSchedStop_keeps (q : Request) (s : State) :
    (specSchedStop.act q s).pending = s.pending ∧ (specSchedStop.act q s).tether = s.tether := by unfold specSchedStop; dsimp only; (repeat' split) <;> simp
theorem execSchedStop_keeps (q) (s : State) (t : State) (h : execSchedStop q s = .next t) :
    t.pending = s.pending ∧ t.tether = s.tether := kenra_keeps _ _ _ _ specSchedStop_keeps _ h
@[simp] theorem specSchedStatus_keeps (q : Request) (s : State) :
    (specSchedStatus.act q s).pending = s.pending ∧ (specSchedStatus.act q s).tether = s.tether := by simp [specSchedStatus]
theorem execSchedStatus_keeps (q) (s : State) (t : State) (h : execSchedStatus q s = .next t) :
    t.pending = s.pending ∧ t.tether = s.tether := kenra_keeps _ _ _ _ specSchedStatus_keeps _ h

/-! Stop. -/

@[simp] theorem shedJob_keeps (s : State) (id) :
    (shedJob s id).pending = s.pending ∧ (shedJob s id).tether = s.tether := by unfold shedJob; (repeat' split) <;> simp
@[simp] theorem shedSegments_keeps (l) (s : State) :
    (shedSegments l s).pending = s.pending ∧ (shedSegments l s).tether = s.tether := by
  unfold shedSegments; try dsimp only
  first | (simp; done) | ((repeat' split) <;> simp)
@[simp] theorem shedSiblings_keeps (s : State) (w) :
    (shedSiblings s w).pending = s.pending ∧ (shedSiblings s w).tether = s.tether := by
  unfold shedSiblings; try dsimp only
  first | (simp; done) | ((repeat' split) <;> simp)
@[simp] theorem shedPass_keeps (s : State) (w) :
    (shedPass s w).pending = s.pending ∧ (shedPass s w).tether = s.tether := by unfold shedPass; (repeat' split) <;> simp
@[simp] theorem applyThrottle_keeps (l) (s : State) :
    (applyThrottle l s).pending = s.pending ∧ (applyThrottle l s).tether = s.tether := by simp [applyThrottle]
@[simp] theorem beginJob_keeps (s : State) (e) :
    (beginJob s e).pending = s.pending ∧ (beginJob s e).tether = s.tether := by simp [beginJob]
@[simp] theorem beginWork_keeps (n) (s : State) :
    (beginWork n s).pending = s.pending ∧ (beginWork n s).tether = s.tether := by simp [beginWork]
@[simp] theorem stopJob_keeps (s : State) (j) :
    (stopJob s j).pending = s.pending ∧ (stopJob s j).tether = s.tether := by unfold stopJob; (repeat' split) <;> simp
@[simp] theorem stopLa_keeps (s : State) (e) :
    (stopLa s e).pending = s.pending ∧ (stopLa s e).tether = s.tether := by unfold stopLa; dsimp only; (repeat' split) <;> simp
@[simp] theorem stopPath_keeps (s : State) :
    (stopPath s).pending = s.pending ∧ (stopPath s).tether = s.tether := by simp [stopPath]

/-! Frame. -/

@[simp] theorem guardWork_keeps (s : State) :
    (guardWork s).pending = s.pending ∧ (guardWork s).tether = s.tether := by simp [guardWork]
@[simp] theorem guardStart_keeps (s : State) :
    (guardStart s).pending = s.pending ∧ (guardStart s).tether = s.tether := by simp [guardStart]
theorem execGuardStart_keeps (s : State) (t : State) (h : execGuardStart s = .next t) :
    t.pending = s.pending ∧ t.tether = s.tether := whenOn_keeps _ _ (fun s => by simp) _ h
@[simp] theorem tickClock_keeps (s : State) :
    (tickClock s).pending = s.pending ∧ (tickClock s).tether = s.tether := by simp [tickClock]
@[simp] theorem fillsTick_keeps (s : State) :
    (fillsTick s).pending = s.pending ∧ (fillsTick s).tether = s.tether := by unfold fillsTick; (repeat' split) <;> simp
@[simp] theorem loseStepped_keeps (s : State) :
    (loseStepped s).pending = s.pending ∧ (loseStepped s).tether = s.tether := by simp [loseStepped]
@[simp] theorem stepFrameEnd_keeps (s : State) :
    (stepFrameEnd s).pending = s.pending ∧ (stepFrameEnd s).tether = s.tether := by simp [stepFrameEnd]
@[simp] theorem endFrame_keeps (s : State) :
    (endFrame s).pending = s.pending ∧ (endFrame s).tether = s.tether := by simp [endFrame]
@[simp] theorem countClear_keeps (s : State) :
    (countClear s).pending = s.pending ∧ (countClear s).tether = s.tether := by
  unfold countClear; try dsimp only
  first | (simp; done) | ((repeat' split) <;> simp)
@[simp] theorem toTick_keeps (s : State) :
    (toTick s).pending = s.pending ∧ (toTick s).tether = s.tether := by
  unfold toTick; try dsimp only
  first | (simp; done) | ((repeat' split) <;> simp)
@[simp] theorem enterSafe_keeps (cause) (s : State) :
    (enterSafe cause s).pending = s.pending ∧ (enterSafe cause s).tether = s.tether := by simp [enterSafe]
@[simp] theorem diesTick_keeps (s : State) :
    (diesTick s).pending = s.pending ∧ (diesTick s).tether = s.tether := by unfold diesTick; (repeat' split) <;> simp
@[simp] theorem stopDue_keeps (s : State) :
    (stopDue s).pending = s.pending ∧ (stopDue s).tether = s.tether := by unfold stopDue; (repeat' split) <;> simp
theorem execStopFrameReached_keeps (s : State) (t : State) (h : execStopFrameReached s = .next t) :
    t.pending = s.pending ∧ t.tether = s.tether := whenOn_keeps _ _ (fun s => by simp) _ h
theorem execTxnApply_keeps (s : State) (t : State) (h : execTxnApply s = .next t) :
    t.pending = s.pending ∧ t.tether = s.tether := whenOn_keeps _ _ (fun s => by simp) _ h
@[simp] theorem holdoffEnd_keeps (s : State) :
    (holdoffEnd s).pending = s.pending ∧ (holdoffEnd s).tether = s.tether := by simp [holdoffEnd]
theorem execDegradedHoldoffEnd_keeps (s : State) (t : State) (h : execDegradedHoldoffEnd s = .next t) :
    t.pending = s.pending ∧ t.tether = s.tether := whenOn_keeps _ _ (fun s => by simp) _ h
@[simp] theorem degrade_keeps (s : State) :
    (degrade s).pending = s.pending ∧ (degrade s).tether = s.tether := by simp [degrade]
@[simp] theorem transitions_keeps (s : State) :
    (transitions s).pending = s.pending ∧ (transitions s).tether = s.tether := by unfold transitions; (repeat' split) <;> simp
@[simp] theorem assignUnits_keeps (i) (n) (s : State) :
    (assignUnits i n s).pending = s.pending ∧ (assignUnits i n s).tether = s.tether := by simp [assignUnits]
@[simp] theorem scheduleSwaps_keeps (i) (n) (s : State) :
    (scheduleSwaps i n s).pending = s.pending ∧ (scheduleSwaps i n s).tether = s.tether := by simp [scheduleSwaps]
@[simp] theorem directStart_keeps (i) (n) (m) (s : State) :
    (directStart i n m s).pending = s.pending ∧ (directStart i n m s).tether = s.tether := by
  induction m generalizing s with
  | zero => exact ⟨rfl, rfl⟩
  | succ m ih => unfold directStart; split <;> simp [ih]
@[simp] theorem beginPath_keeps (i) (n) (s : State) :
    (beginPath i n s).pending = s.pending ∧ (beginPath i n s).tether = s.tether := by
  unfold beginPath; dsimp only; (repeat' split) <;> simp
@[simp] theorem pegModes_keeps (n) (s : State) :
    (pegModes n s).pending = s.pending ∧ (pegModes n s).tether = s.tether := by unfold pegModes; (repeat' split) <;> simp
@[simp] theorem reportKind_keeps (s : State) (kind) :
    (reportKind s kind).pending = s.pending ∧ (reportKind s kind).tether = s.tether := by
  unfold reportKind; try dsimp only
  first | (simp; done) | ((repeat' split) <;> simp)
@[simp] theorem countRuns_keeps (s : State) :
    (countRuns s).pending = s.pending ∧ (countRuns s).tether = s.tether := by
  unfold countRuns; try dsimp only
  first | (simp; done) | ((repeat' split) <;> simp)
@[simp] theorem reportAbandons_keeps (s : State) :
    (reportAbandons s).pending = s.pending ∧ (reportAbandons s).tether = s.tether := by
  unfold reportAbandons; try dsimp only
  first | (simp; done) | ((repeat' split) <;> simp)
@[simp] theorem beginFrame_keeps (s : State) :
    (beginFrame s).pending = s.pending ∧ (beginFrame s).tether = s.tether := by unfold beginFrame; dsimp only; (repeat' split) <;> simp
@[simp] theorem frameTick_keeps (s : State) :
    (frameTick s).pending = s.pending ∧ (frameTick s).tether = s.tether := by simp [frameTick]
theorem execFrameTick_keeps (s : State) (t : State) (h : execFrameTick s = .next t) :
    t.pending = s.pending ∧ t.tether = s.tether := whenOn_keeps _ _ (fun s => by simp) _ h

/-! PegCmd. -/

@[simp] theorem specPegRestart_keeps (q : Request) (s : State) :
    (specPegRestart.act q s).pending = s.pending ∧ (specPegRestart.act q s).tether = s.tether := by simp [specPegRestart]
theorem execPegRestart_keeps (q) (s : State) (t : State) (h : execPegRestart q s = .next t) :
    t.pending = s.pending ∧ t.tether = s.tether := kenra_keeps _ _ _ _ specPegRestart_keeps _ h
@[simp] theorem specPegStatus_keeps (q : Request) (s : State) :
    (specPegStatus.act q s).pending = s.pending ∧ (specPegStatus.act q s).tether = s.tether := by simp [specPegStatus]
theorem execPegStatus_keeps (q) (s : State) (t : State) (h : execPegStatus q s = .next t) :
    t.pending = s.pending ∧ t.tether = s.tether := kenra_keeps _ _ _ _ specPegStatus_keeps _ h
@[simp] theorem specPegKernelLoad_keeps (q : Request) (s : State) :
    (specPegKernelLoad.act q s).pending = s.pending ∧ (specPegKernelLoad.act q s).tether = s.tether := by simp [specPegKernelLoad]
theorem execPegKernelLoad_keeps (q) (s : State) (t : State) (h : execPegKernelLoad q s = .next t) :
    t.pending = s.pending ∧ t.tether = s.tether := kenra_keeps _ _ _ _ specPegKernelLoad_keeps _ h
@[simp] theorem loadKernel_keeps (payload) (s : State) (p) :
    (loadKernel payload s p).pending = s.pending ∧ (loadKernel payload s p).tether = s.tether := by simp [loadKernel]

/-! Loads. -/

@[simp] theorem endLoad_keeps (l) (st) (bytes) (detail) (s : State) :
    (endLoad l st bytes detail s).pending = s.pending ∧ (endLoad l st bytes detail s).tether = s.tether := by simp [endLoad]
@[simp] theorem decodeFails_keeps (e) (l) (reason) (s : State) :
    (decodeFails e l reason s).pending = s.pending ∧ (decodeFails e l reason s).tether = s.tether := by
  unfold decodeFails; try dsimp only
  first | (simp; done) | ((repeat' split) <;> simp)
@[simp] theorem stageLoad_keeps (l) (data) (s : State) :
    (stageLoad l data s).pending = s.pending ∧ (stageLoad l data s).tether = s.tether := by simp [stageLoad]
@[simp] theorem applyLoad_keeps (l) (data) (s : State) :
    (applyLoad l data s).pending = s.pending ∧ (applyLoad l data s).tether = s.tether := by unfold applyLoad; (repeat' split) <;> simp
@[simp] theorem dataLoaded_keeps (e) (l) (data) (s : State) :
    (dataLoaded e l data s).pending = s.pending ∧ (dataLoaded e l data s).tether = s.tether := by
  unfold dataLoaded; try dsimp only
  first | (simp; done) | ((repeat' split) <;> simp)
@[simp] theorem kernelLoaded_keeps (e) (l) (source) (s : State) :
    (kernelLoaded e l source s).pending = s.pending ∧ (kernelLoaded e l source s).tether = s.tether := by
  unfold kernelLoaded; try dsimp only
  first | (simp; done) | ((repeat' split) <;> simp)
@[simp] theorem loadUe_keeps (b) (s : State) :
    (loadUe b s).pending = s.pending ∧ (loadUe b s).tether = s.tether := by
  unfold loadUe; try dsimp only
  first | (simp; done) | ((repeat' split) <;> simp)
@[simp] theorem loadEnds_keeps (ue) (engine) (s : State) :
    (loadEnds ue engine s).pending = s.pending ∧ (loadEnds ue engine s).tether = s.tether := by
  unfold loadEnds; try dsimp only
  first | (simp; done) | ((repeat' split) <;> simp)
theorem execLoadDecodeDone_keeps (ue) (engine) (s : State) (t : State) (h : execLoadDecodeDone ue engine s = .next t) :
    t.pending = s.pending ∧ t.tether = s.tether := whenOn_keeps _ _ (fun s => by
  try dsimp only
  first | (simp; done) | ((repeat' split) <;> simp)) _ h
@[simp] theorem failLoad_keeps (p) (s : State) :
    (failLoad p s).pending = s.pending ∧ (failLoad p s).tether = s.tether := by unfold failLoad; (repeat' split) <;> simp
@[simp] theorem failBulk_keeps (p) (s : State) :
    (failBulk p s).pending = s.pending ∧ (failBulk p s).tether = s.tether := by unfold failBulk; (repeat' split) <;> simp
theorem execBulkTransferTimeout_keeps (k) (s : State) (t : State) (h : execBulkTransferTimeout k s = .next t) :
    t.pending = s.pending ∧ t.tether = s.tether := whenOn_keeps _ _ (fun s => by simp) _ h

/-! Ports. -/

@[simp] theorem answerError_keeps (m) (source) (code) (s : State) :
    (answerError m source code s).pending = s.pending ∧ (answerError m source code s).tether = s.tether := by
  unfold answerError; try dsimp only
  first | (simp; done) | ((repeat' split) <;> simp)
theorem execCrossbarRequest_keeps (master) (target) (source) (addr) (bytes) (beats) (data) (s : State) (t : State) (h : execCrossbarRequest master target source addr bytes beats data s = .next t) :
    t.pending = s.pending ∧ t.tether = s.tether := whenOn_keeps _ _ (fun s => by
  try dsimp only
  first | (simp; done) | ((repeat' split) <;> simp)) _ h
@[simp] theorem portIdle_keeps (p) (s : State) :
    (portIdle p s).pending = s.pending ∧ (portIdle p s).tether = s.tether := by
  unfold portIdle; try dsimp only
  first | (simp; done) | ((repeat' split) <;> simp)
theorem execPortIdle_keeps (target) (s : State) (t : State) (h : execPortIdle target s = .next t) :
    t.pending = s.pending ∧ t.tether = s.tether := whenOn_keeps _ _ (fun s => by simp) _ h
@[simp] theorem masterReset_keeps (m) (s : State) :
    (masterReset m s).pending = s.pending ∧ (masterReset m s).tether = s.tether := by
  unfold masterReset; try dsimp only
  first | (simp; done) | ((repeat' split) <;> simp)
@[simp] theorem portReset_keeps (down) (p) (s : State) :
    (portReset down p s).pending = s.pending ∧ (portReset down p s).tether = s.tether := by
  unfold portReset; try dsimp only
  first | (simp; done) | ((repeat' split) <;> simp)
theorem execTargetReset_keeps (target) (down) (s : State) (t : State) (h : execTargetReset target down s = .next t) :
    t.pending = s.pending ∧ t.tether = s.tether := whenOn_keeps _ _ (fun s => by simp) _ h

/-! HostIf. -/

theorem barWrite_keeps (a0) (s : State)
    (h0 : ∀ s, (a0 s).pending = s.pending ∧ (a0 s).tether = s.tether) (t : State) (h : barWrite a0 s = .next t) :
    t.pending = s.pending ∧ t.tether = s.tether := whenOn_keeps _ _ (fun s => by (repeat' split) <;> simp_all) _ h
theorem barRead_keeps (a0) (a1) (s : State)
    (h1 : ∀ s, (a1 s).pending = s.pending ∧ (a1 s).tether = s.tether) (t : State) (h : barRead a0 a1 s = .next t) :
    t.pending = s.pending ∧ t.tether = s.tether := whenOn_keeps _ _ (fun s => by (repeat' split) <;> simp_all) _ h
@[simp] theorem noteRequester_keeps (r) (s : State) :
    (noteRequester r s).pending = s.pending ∧ (noteRequester r s).tether = s.tether := by simp [noteRequester]
@[simp] theorem ringDoorbell_keeps (r) (k) (s : State) :
    (ringDoorbell r k s).pending = s.pending ∧ (ringDoorbell r k s).tether = s.tether := by simp [ringDoorbell]
theorem execDoorbell_keeps (r) (v) (s : State) (t : State) (h : execDoorbell r v s = .next t) :
    t.pending = s.pending ∧ t.tether = s.tether := by cases h; simp
@[simp] theorem writeSlot_keeps (k) (off) (data) (s : State) :
    (writeSlot k off data s).pending = s.pending ∧ (writeSlot k off data s).tether = s.tether := by simp [writeSlot]
theorem execMailboxRequestWrite_keeps (k) (off) (data) (s : State) (t : State) (h : execMailboxRequestWrite k off data s = .next t) :
    t.pending = s.pending ∧ t.tether = s.tether := by cases h; simp
@[simp] theorem freeSlot_keeps (k) (s : State) :
    (freeSlot k s).pending = s.pending ∧ (freeSlot k s).tether = s.tether := by simp [freeSlot]
@[simp] theorem writeRespReady_keeps (v) (s : State) :
    (writeRespReady v s).pending = s.pending ∧ (writeRespReady v s).tether = s.tether := by
  unfold writeRespReady; try dsimp only
  first | (simp; done) | ((repeat' split) <;> simp)
theorem execRespReadyWrite_keeps (v) (s : State) (t : State) (h : execRespReadyWrite v s = .next t) :
    t.pending = s.pending ∧ t.tether = s.tether := by cases h; simp
theorem execDoorbellInvalidRead_keeps (s : State) (t : State) (h : execDoorbellInvalidRead s = .next t) :
    t.pending = s.pending ∧ t.tether = s.tether := by cases h; simp
theorem execMailboxWriteLockedRead_keeps (s : State) (t : State) (h : execMailboxWriteLockedRead s = .next t) :
    t.pending = s.pending ∧ t.tether = s.tether := by cases h; simp
@[simp] theorem writeIntCause_keeps (v) (s : State) :
    (writeIntCause v s).pending = s.pending ∧ (writeIntCause v s).tether = s.tether := by
  unfold writeIntCause; try dsimp only
  first | (simp; done) | ((repeat' split) <;> simp)
theorem execIntCauseWrite_keeps (v) (s : State) (t : State) (h : execIntCauseWrite v s = .next t) :
    t.pending = s.pending ∧ t.tether = s.tether := by cases h; simp
@[simp] theorem coalesceDue_keeps (c) (s : State) :
    (coalesceDue c s).pending = s.pending ∧ (coalesceDue c s).tether = s.tether := by simp [coalesceDue]
theorem execInterruptCoalesceTimeout_keeps (c) (s : State) (t : State) (h : execInterruptCoalesceTimeout c s = .next t) :
    t.pending = s.pending ∧ t.tether = s.tether := whenOn_keeps _ _ (fun s => by simp) _ h
@[simp] theorem writeRingRead_keeps (k) (v) (s : State) :
    (writeRingRead k v s).pending = s.pending ∧ (writeRingRead k v s).tether = s.tether := by
  unfold writeRingRead; try dsimp only
  first | (simp; done) | ((repeat' split) <;> simp)
theorem execHostringReadWrite_keeps (k) (v) (s : State) (t : State) (h : execHostringReadWrite k v s = .next t) :
    t.pending = s.pending ∧ t.tether = s.tether := by cases h; simp
@[simp] theorem writeEvrRead_keeps (v) (s : State) :
    (writeEvrRead v s).pending = s.pending ∧ (writeEvrRead v s).tether = s.tether := by
  unfold writeEvrRead; try dsimp only
  first | (simp; done) | ((repeat' split) <;> simp)
theorem execEvrReadWrite_keeps (v) (s : State) (t : State) (h : execEvrReadWrite v s = .next t) :
    t.pending = s.pending ∧ t.tether = s.tether := by cases h; simp
@[simp] theorem writeEvrCtrl_keeps (v) (s : State) :
    (writeEvrCtrl v s).pending = s.pending ∧ (writeEvrCtrl v s).tether = s.tether := by simp [writeEvrCtrl]
theorem execEvrCtrlWrite_keeps (v) (s : State) (t : State) (h : execEvrCtrlWrite v s = .next t) :
    t.pending = s.pending ∧ t.tether = s.tether := by cases h; simp
@[simp] theorem writeEvrBase_keeps (v) (s : State) :
    (writeEvrBase v s).pending = s.pending ∧ (writeEvrBase v s).tether = s.tether := by
  unfold writeEvrBase; try dsimp only
  first | (simp; done) | ((repeat' split) <;> simp)
theorem execEvrBaseWrite_keeps (v) (s : State) (t : State) (h : execEvrBaseWrite v s = .next t) :
    t.pending = s.pending ∧ t.tether = s.tether := by cases h; simp
theorem execEvrLostRead_keeps (s : State) (t : State) (h : execEvrLostRead s = .next t) :
    t.pending = s.pending ∧ t.tether = s.tether := by cases h; simp
@[simp] theorem holdEvent_keeps (e) (s : State) :
    (holdEvent e s).pending = s.pending ∧ (holdEvent e s).tether = s.tether := by simp [holdEvent]
@[simp] theorem lostEvent_keeps (g) (e) (s : State) :
    ((lostEvent g e s).2).pending = s.pending ∧ ((lostEvent g e s).2).tether = s.tether := by simp [lostEvent]
@[simp] theorem putEntry_keeps (e) (s : State) :
    (putEntry e s).2.pending = s.pending ∧ (putEntry e s).2.tether = s.tether := by
  unfold putEntry; try dsimp only
  first | (simp; done) | ((repeat' split) <;> simp)
@[simp] theorem writeEntry_keeps (e) (s : State) :
    (writeEntry e s).pending = s.pending ∧ (writeEntry e s).tether = s.tether := by simp [writeEntry]
@[simp] theorem drainHeld_keeps (s : State) :
    (drainHeld s).pending = s.pending ∧ (drainHeld s).tether = s.tether := by unfold drainHeld; dsimp only; (repeat' split) <;> simp
@[simp] theorem writeEvents_keeps (s : State) :
    (writeEvents s).pending = s.pending ∧ (writeEvents s).tether = s.tether := by
  unfold writeEvents; dsimp only
  cases s.evr.due <;> (split <;> simp)
theorem execEventEntryWrite_keeps (s : State) (t : State) (h : execEventEntryWrite s = .next t) :
    t.pending = s.pending ∧ t.tether = s.tether := whenOn_keeps _ _ (fun s => by simp) _ h
@[simp] theorem writeOwn_keeps (r) (o) (data) (s : State) :
    (writeOwn r o data s).pending = s.pending ∧ (writeOwn r o data s).tether = s.tether := by
  unfold writeOwn; try dsimp only
  first | (simp; done) | ((repeat' split) <;> simp)
@[simp] theorem writeRegister_keeps (r) (o) (data) (s : State) :
    (writeRegister r o data s).pending = s.pending ∧ (writeRegister r o data s).tether = s.tether := by
  unfold writeRegister; try dsimp only
  first | (simp; done) | ((repeat' split) <;> simp)
@[simp] theorem unmaskPending_keeps (s : State) :
    (unmaskPending s).pending = s.pending ∧ (unmaskPending s).tether = s.tether := by simp [unmaskPending]
@[simp] theorem linkError_keeps (m) (rest) (s : State) :
    (linkError m rest s).pending = s.pending ∧ (linkError m rest s).tether = s.tether := by
  unfold linkError; try dsimp only
  first | (simp; done) | ((repeat' split) <;> simp)
@[simp] theorem reportAer_keeps (poisoned) (s : State) :
    (reportAer poisoned s).pending = s.pending ∧ (reportAer poisoned s).tether = s.tether := by
  unfold reportAer; try dsimp only
  first | (simp; done) | ((repeat' split) <;> simp)
theorem execPoisonedWrite_keeps (a0) (s : State) (t : State) (h : execPoisonedWrite a0 s = .next t) :
    t.pending = s.pending ∧ t.tether = s.tether := whenOn_keeps _ _ (fun s => by simp) _ h
theorem execBusMasterOrD3_keeps (busMaster) (d3) (control) (aerClear) (s : State) (t : State) (h : execBusMasterOrD3 busMaster d3 control aerClear s = .next t) :
    t.pending = s.pending ∧ t.tether = s.tether := whenOn_keeps _ _ (fun s => by
  try dsimp only
  first | (simp; done) | ((repeat' split) <;> simp)) _ h
theorem execPcieLinkTrained_keeps (gen) (width) (s : State) (t : State) (h : execPcieLinkTrained gen width s = .next t) :
    t.pending = s.pending ∧ t.tether = s.tether := whenOn_keeps _ _ (fun s => by simp) _ h
@[simp] theorem failDesc_keeps (code) (ch) (s : State) :
    (failDesc code ch s).pending = s.pending ∧ (failDesc code ch s).tether = s.tether := by
  unfold failDesc; try dsimp only
  first | (simp; done) | ((repeat' split) <;> simp)
theorem execHostCompletionError_keeps (ch) (a) (s : State) (t : State) (h : execHostCompletionError ch a s = .next t) :
    t.pending = s.pending ∧ t.tether = s.tether :=
  whenOn_keeps _ _ (fun s => by dsimp only; (repeat' split) <;> simp) _ h
@[simp] theorem failHostBulk_keeps (s : State) :
    (failHostBulk s).pending = s.pending ∧ (failHostBulk s).tether = s.tether := by
  unfold failHostBulk
  repeat' first
    | (simp; done)
    | (refine And.intro ?_ ?_)
    | intro _
    | split
    | rw [foldl_pending]
    | rw [foldl_tether]
    | simp
@[simp] theorem resetHost_keeps (kind) (s : State) :
    (resetHost kind s).pending = s.pending ∧ (resetHost kind s).tether = s.tether := by simp [resetHost]
theorem execHostInterfaceReset_keeps (kind) (s : State) (t : State) (h : execHostInterfaceReset kind s = .next t) :
    t.pending = s.pending ∧ t.tether = s.tether := whenOn_keeps _ _ (fun s => by simp) _ h

/-! Power. -/

@[simp] theorem rampUp_keeps (s : State) :
    (rampUp s).pending = s.pending ∧ (rampUp s).tether = s.tether := by simp [rampUp]
theorem execVin12Rise_keeps (s : State) (t : State) (h : execVin12Rise s = .next t) :
    t.pending = s.pending ∧ t.tether = s.tether := by cases h; simp
theorem execSupplyRestart_keeps (s : State) (t : State) (h : execSupplyRestart s = .next t) :
    t.pending = s.pending ∧ t.tether = s.tether := by cases h; simp
theorem execResetRelease_keeps (s : State) (t : State) (h : execResetRelease s = .next t) :
    t.pending = s.pending ∧ t.tether = s.tether := by cases h; simp
theorem execPowerMonitorExceeded_keeps (watts) (level) (s : State) (t : State) (h : execPowerMonitorExceeded watts level s = .next t) :
    t.pending = s.pending ∧ t.tether = s.tether := whenOn_keeps _ _ (fun s => by (repeat' split) <;> simp) _ h

/-! System. -/

@[simp] theorem specSysInfo_keeps (q : Request) (s : State) :
    (specSysInfo.act q s).pending = s.pending ∧ (specSysInfo.act q s).tether = s.tether := by simp [specSysInfo]
theorem execSysInfo_keeps (q) (s : State) (t : State) (h : execSysInfo q s = .next t) :
    t.pending = s.pending ∧ t.tether = s.tether := kenra_keeps _ _ _ _ specSysInfo_keeps _ h
@[simp] theorem specSysSafe_keeps (q : Request) (s : State) :
    (specSysSafe.act q s).pending = s.pending ∧ (specSysSafe.act q s).tether = s.tether := by simp [specSysSafe]
theorem execSysSafe_keeps (q) (s : State) (t : State) (h : execSysSafe q s = .next t) :
    t.pending = s.pending ∧ t.tether = s.tether := kenra_keeps _ _ _ _ specSysSafe_keeps _ h
@[simp] theorem specTestEcho_keeps (q : Request) (s : State) :
    (specTestEcho.act q s).pending = s.pending ∧ (specTestEcho.act q s).tether = s.tether := by simp [specTestEcho]
theorem execTestEcho_keeps (q) (s : State) (t : State) (h : execTestEcho q s = .next t) :
    t.pending = s.pending ∧ t.tether = s.tether := kenra_keeps _ _ _ _ specTestEcho_keeps _ h
@[simp] theorem specTestEvent_keeps (q : Request) (s : State) :
    (specTestEvent.act q s).pending = s.pending ∧ (specTestEvent.act q s).tether = s.tether := by simp [specTestEvent]
theorem execTestEvent_keeps (q) (s : State) (t : State) (h : execTestEvent q s = .next t) :
    t.pending = s.pending ∧ t.tether = s.tether := kenra_keeps _ _ _ _ specTestEvent_keeps _ h
@[simp] theorem answerUnknown_keeps (op) (q) (s : State) :
    (answerUnknown op q s).pending = s.pending ∧ (answerUnknown op q s).tether = s.tether := by simp [answerUnknown]
theorem execUnknownOpcode_keeps (op) (q) (s : State) (t : State) (h : execUnknownOpcode op q s = .next t) :
    t.pending = s.pending ∧ t.tether = s.tether := whenActive_keeps _ _ _ _ (fun s => by simp) h

/-! Ridge. -/

theorem kenraOf_keeps (c : Instr) (k : Spec) (q : Request) (h : kenraOf c = some (k, q)) (r : Request) (s : State) :
    (k.act r s).pending = s.pending ∧ (k.act r s).tether = s.tether := by
  unfold kenraOf at h
  split at h <;> first | (cases h; done) | (obtain ⟨rfl, rfl⟩ := Prod.mk.inj (Option.some.inj h); simp)
@[simp] theorem beginRequest_keeps (a0) (s : State) :
    (beginRequest a0 s).pending = s.pending ∧ (beginRequest a0 s).tether = s.tether := by
  unfold beginRequest; dsimp only
  split
  · simp
  · next h =>
    split
    · simp only [kenraStep_keeps _ _ _ _ (kenraOf_keeps _ _ _ h)]; simp
    · split
      · simp only [kenraOf_keeps _ _ _ h]; simp
      · simp
theorem execRidgeBeginsRequest_keeps (s : State) (t : State) (h : execRidgeBeginsRequest s = .next t) :
    t.pending = s.pending ∧ t.tether = s.tether := whenOn_keeps _ _ (fun s => by (repeat' split) <;> simp) _ h

/-! Scrub. -/

@[simp] theorem copyFails_keeps (addr) (s : State) :
    (copyFails addr s).pending = s.pending ∧ (copyFails addr s).tether = s.tether := by
  unfold copyFails; try dsimp only
  first | (simp; done) | ((repeat' split) <;> simp)
@[simp] theorem sourceFails_keeps (addr) (s : State) :
    (sourceFails addr s).pending = s.pending ∧ (sourceFails addr s).tether = s.tether := by
  unfold sourceFails; try dsimp only
  first | (simp; done) | ((repeat' split) <;> simp)
@[simp] theorem ueInService_keeps (addr) (s : State) :
    (ueInService addr s).pending = s.pending ∧ (ueInService addr s).tether = s.tether := by
  unfold ueInService; try dsimp only
  first | (simp; done) | ((repeat' split) <;> simp)
theorem execDramRead_keeps (addr) (devices) (cls) (wait) (reissues) (s : State) (t : State)
    (h : execDramRead addr devices cls wait reissues s = .next t) : t.pending = s.pending ∧ t.tether = s.tether := by
  unfold execDramRead at h
  dsimp only at h
  (repeat' split at h) <;> cases h <;> (try split) <;> simp
@[simp] theorem scrubUe_keeps (addr) (s : State) :
    (scrubUe addr s).pending = s.pending ∧ (scrubUe addr s).tether = s.tether := by
  unfold scrubUe; try dsimp only
  first | (simp; done) | ((repeat' split) <;> simp)
@[simp] theorem scrubCe_keeps (addr) (dev) (s : State) :
    (scrubCe addr dev s).pending = s.pending ∧ (scrubCe addr dev s).tether = s.tether := by
  unfold scrubCe; try dsimp only
  first | (simp; done) | ((repeat' split) <;> simp)
theorem execPatrolScrub_keeps (correctable) (bad) (s : State) (t : State) (h : execPatrolScrub correctable bad s = .next t) :
    t.pending = s.pending ∧ t.tether = s.tether := by
  have h := Host.Outcome.next.inj h; subst h
  repeat' first
    | (simp; done)
    | (refine And.intro ?_ ?_)
    | intro _
    | split
    | rw [foldl_pending]
    | rw [foldl_tether]
    | simp

/-! Second. -/

@[simp] theorem takePhases_keeps (l) (s : State) :
    (takePhases l s).pending = s.pending ∧ (takePhases l s).tether = s.tether := by simp [takePhases]
@[simp] theorem loadTb0_keeps (s : State) :
    (loadTb0 s).pending = s.pending ∧ (loadTb0 s).tether = s.tether := by unfold loadTb0; (repeat' split) <;> simp
@[simp] theorem slewTb0_keeps (s : State) :
    (slewTb0 s).pending = s.pending ∧ (slewTb0 s).tether = s.tether := by simp [slewTb0]
@[simp] theorem outputsSecond_keeps (s : State) :
    (outputsSecond s).pending = s.pending ∧ (outputsSecond s).tether = s.tether := by simp [outputsSecond]
theorem execTb0Second_keeps (phases) (s : State) (t : State) (h : execTb0Second phases s = .next t) :
    t.pending = s.pending ∧ t.tether = s.tether := whenOn_keeps _ _ (fun s => by simp) _ h

/-! Tick. -/

@[simp] theorem idle_keeps (s : State) :
    (idle s).pending = s.pending ∧ (idle s).tether = s.tether := by simp [idle]

end Sys2Proof.Laws
end

