-- ==== Sys2Proof/Laws/KeepTether.lean ====
section
/-! SUPPORT. The commands that may change the Tether window: the queue stays as it is, a locked window too, and a loss of power or a
reset leaves the window at its reset value. -/

namespace Sys2Proof.Laws
open Sys2Proof.Machine

/-! Writes to the window. -/

@[simp] theorem applyControl_pending (o v) (s : State) : (applyControl o v s).pending = s.pending := by
  unfold applyControl applyCap applyWindow applyAllow; dsimp only; (repeat' split) <;> rfl
@[simp] theorem writeLock_pending (v) (s : State) : (writeLock v s).pending = s.pending := by
  unfold writeLock; split <;> rfl
@[simp] theorem writeQuads_pending (v) (s : State) : (writeQuads v s).pending = s.pending := by
  unfold writeQuads; dsimp only; rw [foldl_pending]; intro s x; (repeat' split) <;> simp
@[simp] theorem writeTether_pending (o data) (s : State) : (writeTether o data s).pending = s.pending := by
  unfold writeTether; dsimp only
  split
  · rfl
  split
  · simp
  rw [foldl_pending, foldl_pending]
  · (repeat' split) <;> simp
  all_goals (intro s x; split <;> simp)

theorem tetherWrite_pending (f : State → State) (s t : State) (hf : ∀ s, (f s).pending = s.pending)
    (h : tetherWrite f s = .next t) : t.pending = s.pending := by
  unfold tetherWrite barWrite whenOn at h; cases h; (repeat' split) <;> simp [hf]

/-- A locked window is left as it is (R363). -/
theorem tetherWrite_locked (f : State → State) (s t : State) (hl : s.tether.lock = true)
    (h : tetherWrite f s = .next t) : t.tether = s.tether := by
  unfold tetherWrite barWrite whenOn at h; cases h; (repeat' split) <;> simp_all

theorem execTetherLockWrite_pending (v) (s t : State) (h : execTetherLockWrite v s = .next t) : t.pending = s.pending :=
  tetherWrite_pending _ s t (by simp) h
theorem execTetherControlWordWrite_pending (o v) (s t : State) (h : execTetherControlWordWrite o v s = .next t) :
    t.pending = s.pending := tetherWrite_pending _ s t (by simp) h
theorem execTetherFieldWrite_pending (o d) (s t : State) (h : execTetherFieldWrite o d s = .next t) :
    t.pending = s.pending := tetherWrite_pending _ s t (by simp) h
theorem execRegisterWrite_pending (r o d) (s t : State) (h : execRegisterWrite r o d s = .next t) :
    t.pending = s.pending := by
  unfold execRegisterWrite at h
  split at h
  · exact (barWrite_keeps _ _ (fun s => by simp) _ h).1
  · exact tetherWrite_pending _ s t (by simp) h
/-- A register write below the window leaves the window; one at the window leaves a locked one. -/
theorem execRegisterWrite_tether (r o d) (s t : State) (h : execRegisterWrite r o d s = .next t)
    (hl : s.tether.lock = true ∨ o.toNat < 0x1000000) : t.tether = s.tether := by
  unfold execRegisterWrite at h
  split at h
  · exact (barWrite_keeps _ _ (fun s => by simp) _ h).2
  · exact tetherWrite_locked _ s t (by simp_all) h

/-! Reset and loss of power: the window goes to its reset value (R361). -/

@[simp] theorem resetUnits_pending (hard : Bool) (s : State) : (resetUnits hard s).pending = s.pending := rfl
@[simp] theorem goOff_pending (s : State) : (goOff s).pending = s.pending := rfl
@[simp] theorem goOff_tether (s : State) : (goOff s).tether = {} := rfl
@[simp] theorem powerOff_pending (s : State) : (powerOff s).pending = s.pending := rfl
@[simp] theorem powerOff_tether (s : State) : (powerOff s).tether = {} := rfl

theorem execResetNAssert_outcome (s t : State) (h : execResetNAssert s = .next t) :
    t.pending = s.pending ∧ (t.tether = s.tether ∨ t.tether = {}) := by
  unfold execResetNAssert at h; (repeat' split at h) <;> (cases h; (repeat' split) <;> simp)
theorem execSupplyFault_outcome (c) (s t : State) (h : execSupplyFault c s = .next t) :
    t.pending = s.pending ∧ (t.tether = s.tether ∨ t.tether = {}) := by
  unfold execSupplyFault at h; cases h; split <;> simp
theorem execVin12Removed_outcome (s t : State) (h : execVin12Removed s = .next t) :
    t.pending = s.pending ∧ (t.tether = s.tether ∨ t.tether = {}) := by
  unfold execVin12Removed at h; cases h; dsimp only; split <;> simp
theorem execThermalTrip_outcome (n) (s t : State) (h : execThermalTrip n s = .next t) :
    t.pending = s.pending ∧ (t.tether = s.tether ∨ t.tether = {}) := by
  unfold execThermalTrip at h; cases h; split <;> simp

end Sys2Proof.Laws
end

