-- ==== Sys2Proof/Laws/Tables.lean ====
section
/-! SUPPORT. Laws of the sparse tables and memories of State: reading after writing, the canonical form, and
little-endian byte strings. -/

namespace Sys2Proof.Laws
open Sys2Proof.Machine

/-! Reading after writing. -/

theorem tabGet_tabErase_same {α : Type} (d : α) (t : Tab α) (i : Nat) : tabGet d (tabErase t i) i = d := by
  induction t with
  | nil => rfl
  | cons e t ih =>
    obtain ⟨k, v⟩ := e
    by_cases h : k = i
    · simpa [tabErase, h] using ih
    · simp only [tabErase, List.filter_cons, bne_iff_ne, ne_eq, h, not_false_eq_true, if_true, tabGet, if_false]
      exact ih

theorem tabGet_tabErase_ne {α : Type} (d : α) (t : Tab α) {i j : Nat} (h : j ≠ i) :
    tabGet d (tabErase t i) j = tabGet d t j := by
  induction t with
  | nil => rfl
  | cons e t ih =>
    obtain ⟨k, v⟩ := e
    by_cases hk : k = i
    · subst hk
      have : tabErase ((k, v) :: t) k = tabErase t k := by simp [tabErase]
      rw [this, ih, tabGet, if_neg (Ne.symm h)]
    · have : tabErase ((k, v) :: t) i = (k, v) :: tabErase t i := by simp [tabErase, hk]
      simp only [this, tabGet, ih]

theorem tabGet_tabInsert_same {α : Type} (d : α) (t : Tab α) (i : Nat) (v : α) (h : ∀ e ∈ t, e.1 ≠ i) :
    tabGet d (tabInsert i v t) i = v := by
  induction t with
  | nil => simp [tabInsert, tabGet]
  | cons e t ih =>
    obtain ⟨k, w⟩ := e
    have hk : k ≠ i := h (k, w) (by simp)
    unfold tabInsert
    split
    · simp [tabGet]
    · rw [tabGet, if_neg hk]; exact ih (fun e he => h e (by simp [he]))

theorem tabGet_tabInsert_ne {α : Type} (d : α) (t : Tab α) {i j : Nat} (v : α) (h : j ≠ i) :
    tabGet d (tabInsert i v t) j = tabGet d t j := by
  induction t with
  | nil => simp [tabInsert, tabGet, Ne.symm h]
  | cons e t ih =>
    obtain ⟨k, w⟩ := e
    unfold tabInsert
    split
    · rw [tabGet, if_neg (Ne.symm h)]
    · simp only [tabGet, ih]

/-- Entry `i` after a write of entry `i`. -/
@[simp] theorem tabGet_tabSet_same {α : Type} [DecidableEq α] (d : α) (t : Tab α) (i : Nat) (v : α) :
    tabGet d (tabSet d t i v) i = v := by
  unfold tabSet
  split
  · next h => rw [h]; exact tabGet_tabErase_same d t i
  · refine tabGet_tabInsert_same d _ i v (fun e he => ?_)
    simpa [tabErase] using (List.mem_filter.mp he).2

/-- Any other entry after a write of entry `i`. -/
theorem tabGet_tabSet_ne {α : Type} [DecidableEq α] (d : α) (t : Tab α) {i j : Nat} (v : α) (h : j ≠ i) :
    tabGet d (tabSet d t i v) j = tabGet d t j := by
  unfold tabSet
  split
  · exact tabGet_tabErase_ne d t h
  · rw [tabGet_tabInsert_ne d _ v h, tabGet_tabErase_ne d t h]

@[simp] theorem tabGet_tabMod_same {α : Type} [DecidableEq α] (d : α) (t : Tab α) (i : Nat) (f : α → α) :
    tabGet d (tabMod d t i f) i = f (tabGet d t i) := tabGet_tabSet_same ..

theorem tabGet_tabMod_ne {α : Type} [DecidableEq α] (d : α) (t : Tab α) {i j : Nat} (f : α → α) (h : j ≠ i) :
    tabGet d (tabMod d t i f) j = tabGet d t j := tabGet_tabSet_ne d t _ h

/-! The canonical form. -/

theorem tabSorted_cons {α : Type} (k : Nat) (v : α) (t : Tab α) :
    tabSorted ((k, v) :: t) = (t.head?.all (fun e => decide (k < e.1)) && tabSorted t) := by
  cases t with
  | nil => rfl
  | cons e t => obtain ⟨a, b⟩ := e; simp [tabSorted]

theorem tabSorted_iff {α : Type} (t : Tab α) : tabSorted t = true ↔ t.Pairwise (fun a b => a.1 < b.1) := by
  induction t with
  | nil => simp [tabSorted]
  | cons e t ih =>
    obtain ⟨k, v⟩ := e
    rw [tabSorted_cons, Bool.and_eq_true, ih, List.pairwise_cons]
    constructor
    · rintro ⟨h, p⟩
      refine ⟨fun x hx => ?_, p⟩
      cases t with
      | nil => simp at hx
      | cons y t =>
        have hk : k < y.1 := by simpa using h
        rcases List.mem_cons.mp hx with rfl | hx
        · exact hk
        · exact hk.trans ((List.pairwise_cons.mp p).1 x hx)
    · rintro ⟨h, p⟩
      refine ⟨?_, p⟩
      cases t with
      | nil => rfl
      | cons y t => simpa using h y (by simp)

theorem mem_tabInsert {α : Type} (i : Nat) (v : α) (t : Tab α) (e : Nat × α) :
    e ∈ tabInsert i v t ↔ e = (i, v) ∨ e ∈ t := by
  induction t with
  | nil => simp [tabInsert]
  | cons x t ih =>
    obtain ⟨k, w⟩ := x
    unfold tabInsert
    split
    · simp
    · simp [ih, or_left_comm]

theorem pairwise_tabInsert {α : Type} (i : Nat) (v : α) (t : Tab α) (h : t.Pairwise (fun a b => a.1 < b.1))
    (hi : ∀ e ∈ t, e.1 ≠ i) : (tabInsert i v t).Pairwise (fun a b => a.1 < b.1) := by
  induction t with
  | nil => simp [tabInsert]
  | cons x t ih =>
    obtain ⟨k, w⟩ := x
    have hx := List.pairwise_cons.mp h
    have hk : k ≠ i := hi (k, w) (by simp)
    unfold tabInsert
    split
    · next hlt =>
      refine List.pairwise_cons.mpr ⟨fun e he => ?_, h⟩
      rcases List.mem_cons.mp he with rfl | he
      · exact hlt
      · exact hlt.trans (hx.1 e he)
    · next hlt =>
      refine List.pairwise_cons.mpr ⟨fun e he => ?_, ih hx.2 (fun e he => hi e (by simp [he]))⟩
      rcases (mem_tabInsert i v t e).mp he with rfl | he
      · show k < i; omega
      · exact hx.1 e he

/-- Writing an entry keeps the canonical form. -/
theorem tabWf_tabSet {α : Type} [DecidableEq α] (d : α) (t : Tab α) (i : Nat) (v : α) (h : tabWf d t = true) :
    tabWf d (tabSet d t i v) = true := by
  simp only [tabWf, Bool.and_eq_true, tabSorted_iff, List.all_eq_true, decide_eq_true_eq] at h ⊢
  have he : (tabErase t i).Pairwise (fun a b => a.1 < b.1) := h.1.sublist List.filter_sublist
  have hd : ∀ e ∈ tabErase t i, e.2 ≠ d := fun e he => h.2 e (List.mem_filter.mp he).1
  unfold tabSet
  split
  · exact ⟨he, hd⟩
  · next hv =>
    refine ⟨pairwise_tabInsert i v _ he (fun e hm => by simpa [tabErase] using (List.mem_filter.mp hm).2), fun e hm => ?_⟩
    rcases (mem_tabInsert i v _ e).mp hm with rfl | hm
    · exact hv
    · exact hd e hm

/-- Two tables in canonical form that read alike everywhere are the same data. -/
theorem tab_ext {α : Type} [DecidableEq α] (d : α) (t u : Tab α) (ht : tabWf d t = true) (hu : tabWf d u = true)
    (h : ∀ i, tabGet d t i = tabGet d u i) : t = u := by
  induction t generalizing u with
  | nil =>
    cases u with
    | nil => rfl
    | cons e u =>
      obtain ⟨k, v⟩ := e
      have := h k
      simp [tabWf, tabGet] at hu this
      exact absurd this.symm hu.2.1
  | cons e t ih =>
    obtain ⟨k, v⟩ := e
    have low : ∀ (a : Tab α) (k j : Nat) (v : α), tabWf d ((k, v) :: a) = true → j < k → tabGet d ((k, v) :: a) j = d := by
      intro a
      induction a with
      | nil => intro k j v _ hj; simp [tabGet]; omega
      | cons x a iha =>
        intro k j v hw hj
        obtain ⟨y, w⟩ := x
        have hw' : tabWf d ((y, w) :: a) = true := by
          simp [tabWf, tabSorted] at hw ⊢; exact ⟨hw.1.2, hw.2.2.1, hw.2.2.2⟩
        have hy : k < y := by simp [tabWf, tabSorted] at hw; exact hw.1.1
        rw [tabGet, if_neg (by omega)]
        exact iha y j w hw' (by omega)
    have tailWf : ∀ (a : Tab α) (k : Nat) (v : α), tabWf d ((k, v) :: a) = true → tabWf d a = true := by
      intro a k v hw
      cases a with
      | nil => rfl
      | cons x a => obtain ⟨y, w⟩ := x; simp [tabWf, tabSorted] at hw ⊢; exact ⟨hw.1.2, hw.2.2.1, hw.2.2.2⟩
    have tailLow : ∀ (a : Tab α) (k : Nat) (v : α), tabWf d ((k, v) :: a) = true → tabGet d a k = d := by
      intro a k v hw
      cases a with
      | nil => rfl
      | cons x a =>
        obtain ⟨y, w⟩ := x
        exact low a y k w (tailWf _ _ _ hw) (by simp [tabWf, tabSorted] at hw; exact hw.1.1)
    cases u with
    | nil =>
      have := h k
      simp [tabWf, tabGet] at ht this
      exact absurd this ht.2.1
    | cons x u =>
      obtain ⟨y, w⟩ := x
      have hv : v ≠ d := by simp [tabWf] at ht; exact ht.2.1
      have hw : w ≠ d := by simp [tabWf] at hu; exact hu.2.1
      have hky : k = y := by
        rcases lt_trichotomy k y with hlt | heq | hgt
        · have := h k; rw [low u y k w hu hlt] at this; simp [tabGet] at this; exact absurd this hv
        · exact heq
        · have := h y; rw [low t k y v ht hgt] at this; simp [tabGet] at this; exact absurd this.symm hw
      subst hky
      have hvw : v = w := by have := h k; simpa [tabGet] using this
      subst hvw
      have : t = u := by
        refine ih u (tailWf _ _ _ ht) (tailWf _ _ _ hu) (fun i => ?_)
        by_cases hi : k = i
        · subst hi; rw [tailLow _ _ _ ht, tailLow _ _ _ hu]
        · have := h i; simpa [tabGet, hi] using this
      rw [this]

/-! Memories. -/

@[simp] theorem memGet_memSet_same (m : Memory) (a : Nat) (b : Byte) : memGet (memSet m a b) a = b :=
  tabGet_tabSet_same ..

theorem memGet_memSet_ne (m : Memory) {a c : Nat} (b : Byte) (h : c ≠ a) : memGet (memSet m a b) c = memGet m c :=
  tabGet_tabSet_ne _ _ _ h

/-- Every memory operation keeps the canonical form. -/
theorem memWf_memSet (m : Memory) (a : Nat) (b : Byte) (h : memWf m = true) : memWf (memSet m a b) = true :=
  tabWf_tabSet _ _ _ _ h

theorem memWf_memWrite (m : Memory) (a : Nat) (l : List Byte) (h : memWf m = true) : memWf (memWrite m a l) = true := by
  induction l generalizing m a with
  | nil => exact h
  | cons b l ih => exact ih _ _ (memWf_memSet m a b h)

/-- A byte outside the bytes written reads as before. -/
theorem memGet_memWrite_outside (m : Memory) (a : Nat) (l : List Byte) (c : Nat) (h : c < a ∨ a + l.length ≤ c) :
    memGet (memWrite m a l) c = memGet m c := by
  induction l generalizing m a with
  | nil => rfl
  | cons b l ih =>
    rw [memWrite, ih _ _ (by simp at h; omega), memGet_memSet_ne _ _ (by simp at h; omega)]

/-- A byte within the bytes written reads as written. -/
theorem memGet_memWrite_inside (m : Memory) (a : Nat) (l : List Byte) (i : Nat) (h : i < l.length) :
    memGet (memWrite m a l) (a + i) = l[i] := by
  induction l generalizing m a i with
  | nil => simp at h
  | cons b l ih =>
    rw [memWrite]
    cases i with
    | zero => rw [memGet_memWrite_outside _ _ _ _ (by omega)]; simp
    | succ i =>
      have := ih (memSet m a b) (a + 1) i (by simpa using h)
      rw [show a + (i + 1) = a + 1 + i by omega, this]; simp

@[simp] theorem memRead_length (m : Memory) (a n : Nat) : (memRead m a n).length = n := by
  induction n generalizing a with
  | zero => rfl
  | succ n ih => simp [memRead, ih]

theorem memRead_getElem (m : Memory) (a n i : Nat) (h : i < (memRead m a n).length) :
    (memRead m a n)[i] = memGet m (a + i) := by
  induction n generalizing a i with
  | zero => simp [memRead] at h
  | succ n ih =>
    cases i with
    | zero => simp [memRead]
    | succ i => simp only [memRead, List.getElem_cons_succ]; rw [ih]; congr 1; omega

/-- Reading back what was written. -/
@[simp] theorem memRead_memWrite (m : Memory) (a : Nat) (l : List Byte) : memRead (memWrite m a l) a l.length = l := by
  apply List.ext_getElem (by simp)
  intro i h1 h2
  rw [memRead_getElem, memGet_memWrite_inside _ _ _ _ h2]

/-- Reading a part of what was written. -/
theorem memRead_memWrite_part (m : Memory) (a : Nat) (l : List Byte) (o n : Nat) (h : o + n ≤ l.length) :
    memRead (memWrite m a l) (a + o) n = (l.drop o).take n := by
  apply List.ext_getElem (by simp; omega)
  intro i h1 h2
  have hi : i < n := by simpa using h1
  rw [memRead_getElem, Nat.add_assoc, memGet_memWrite_inside _ _ _ _ (by omega)]
  simp

/-! Byte strings. -/

@[simp] theorem leBytes_length (n v : Nat) : (leBytes n v).length = n := by
  induction n generalizing v with
  | zero => rfl
  | succ n ih => simp [leBytes, ih]

/-- The little-endian bytes of a number that fits give it back. -/
theorem leVal_leBytes (n v : Nat) (h : v < 256 ^ n) : leVal (leBytes n v) = v := by
  induction n generalizing v with
  | zero => simp at h; simp [leBytes, leVal, h]
  | succ n ih =>
    rw [leBytes, leVal, ih _ (by rw [pow_succ] at h; omega)]
    simp only [BitVec.toNat_ofNat]
    omega

end Sys2Proof.Laws
end

