-- ==== Sys2Proof/Laws/State.lean ====
section
/-! SUPPORT. What each shared operation leaves of State, field by field, and what its accessor reads afterwards, so that no
later proof unfolds a record update. -/

namespace Sys2Proof.Laws
open Sys2Proof.Machine

/-- Writing an entry under one default leaves what another entry reads as under its own. -/
theorem tabGet_tabMod_dep {α : Type} [DecidableEq α] (d e : α) (t : Tab α) {i j : Nat} (f : α → α) (h : j ≠ i) :
    tabGet e (tabMod d t i f) j = tabGet e t j := by
  unfold tabMod tabSet
  split
  · exact tabGet_tabErase_ne e t h
  · rw [tabGet_tabInsert_ne e _ _ h, tabGet_tabErase_ne e t h]

@[simp] theorem modQuad_fields (k : Nat) (f : Quad → Quad) (s : State) :
    (modQuad k f s).power = s.power ∧ (modQuad k f s).dev = s.dev ∧ (modQuad k f s).time = s.time ∧ (modQuad k f
    s).compass = s.compass ∧ (modQuad k f s).ingest = s.ingest ∧ (modQuad k f s).chan = s.chan ∧ (modQuad k f
    s).store = s.store ∧ (modQuad k f s).arrays = s.arrays ∧ (modQuad k f s).beam = s.beam ∧ (modQuad k f s).clasp =
    s.clasp ∧ (modQuad k f s).facet = s.facet ∧ (modQuad k f s).pack = s.pack ∧ (modQuad k f s).out = s.out ∧
    (modQuad k f s).sched = s.sched ∧ (modQuad k f s).peg = s.peg ∧ (modQuad k f s).dram = s.dram ∧ (modQuad k f
    s).host = s.host ∧ (modQuad k f s).evr = s.evr ∧ (modQuad k f s).tether = s.tether ∧ (modQuad k f s).dma = s.dma
    ∧ (modQuad k f s).boot = s.boot ∧ (modQuad k f s).health = s.health ∧ (modQuad k f s).recorder = s.recorder ∧
    (modQuad k f s).twin = s.twin ∧ (modQuad k f s).loads = s.loads ∧ (modQuad k f s).services = s.services ∧
    (modQuad k f s).reads = s.reads ∧ (modQuad k f s).counters = s.counters ∧ (modQuad k f s).fresh = s.fresh ∧
    (modQuad k f s).pending = s.pending := ⟨rfl, rfl, rfl, rfl, rfl, rfl, rfl, rfl, rfl, rfl, rfl, rfl, rfl, rfl, rfl, rfl, rfl, rfl, rfl, rfl, rfl, rfl, rfl, rfl, rfl, rfl, rfl, rfl, rfl, rfl⟩
@[simp] theorem quad_modQuad (k : Nat) (f : Quad → Quad) (s : State) :
    quad (modQuad k f s) k = f (quad s k) := tabGet_tabMod_same ..
theorem quad_modQuad_ne (k j : Nat) (f : Quad → Quad) (s : State) (h : j ≠ k) :
    quad (modQuad k f s) j = quad s j := tabGet_tabMod_ne _ _ _ h

@[simp] theorem modLane_fields (k : Nat) (f : Lane → Lane) (s : State) :
    (modLane k f s).power = s.power ∧ (modLane k f s).dev = s.dev ∧ (modLane k f s).time = s.time ∧ (modLane k f
    s).compass = s.compass ∧ (modLane k f s).ingest = s.ingest ∧ (modLane k f s).chan = s.chan ∧ (modLane k f
    s).store = s.store ∧ (modLane k f s).arrays = s.arrays ∧ (modLane k f s).beam = s.beam ∧ (modLane k f s).clasp =
    s.clasp ∧ (modLane k f s).facet = s.facet ∧ (modLane k f s).pack = s.pack ∧ (modLane k f s).out = s.out ∧
    (modLane k f s).sched = s.sched ∧ (modLane k f s).peg = s.peg ∧ (modLane k f s).dram = s.dram ∧ (modLane k f
    s).host = s.host ∧ (modLane k f s).evr = s.evr ∧ (modLane k f s).tether = s.tether ∧ (modLane k f s).dma = s.dma
    ∧ (modLane k f s).boot = s.boot ∧ (modLane k f s).health = s.health ∧ (modLane k f s).recorder = s.recorder ∧
    (modLane k f s).twin = s.twin ∧ (modLane k f s).loads = s.loads ∧ (modLane k f s).services = s.services ∧
    (modLane k f s).reads = s.reads ∧ (modLane k f s).counters = s.counters ∧ (modLane k f s).fresh = s.fresh ∧
    (modLane k f s).pending = s.pending := ⟨rfl, rfl, rfl, rfl, rfl, rfl, rfl, rfl, rfl, rfl, rfl, rfl, rfl, rfl, rfl, rfl, rfl, rfl, rfl, rfl, rfl, rfl, rfl, rfl, rfl, rfl, rfl, rfl, rfl, rfl⟩
@[simp] theorem lane_modLane (k : Nat) (f : Lane → Lane) (s : State) :
    lane (modLane k f s) k = f (lane s k) := tabGet_tabMod_same ..
theorem lane_modLane_ne (k j : Nat) (f : Lane → Lane) (s : State) (h : j ≠ k) :
    lane (modLane k f s) j = lane s j := tabGet_tabMod_ne _ _ _ h

@[simp] theorem modStream_fields (k : Nat) (f : Stream → Stream) (s : State) :
    (modStream k f s).power = s.power ∧ (modStream k f s).dev = s.dev ∧ (modStream k f s).time = s.time ∧ (modStream
    k f s).compass = s.compass ∧ (modStream k f s).lanes = s.lanes ∧ (modStream k f s).chan = s.chan ∧ (modStream k
    f s).store = s.store ∧ (modStream k f s).arrays = s.arrays ∧ (modStream k f s).beam = s.beam ∧ (modStream k f
    s).clasp = s.clasp ∧ (modStream k f s).facet = s.facet ∧ (modStream k f s).pack = s.pack ∧ (modStream k f s).out
    = s.out ∧ (modStream k f s).sched = s.sched ∧ (modStream k f s).peg = s.peg ∧ (modStream k f s).dram = s.dram ∧
    (modStream k f s).host = s.host ∧ (modStream k f s).evr = s.evr ∧ (modStream k f s).tether = s.tether ∧
    (modStream k f s).dma = s.dma ∧ (modStream k f s).boot = s.boot ∧ (modStream k f s).health = s.health ∧
    (modStream k f s).recorder = s.recorder ∧ (modStream k f s).twin = s.twin ∧ (modStream k f s).loads = s.loads ∧
    (modStream k f s).services = s.services ∧ (modStream k f s).reads = s.reads ∧ (modStream k f s).counters =
    s.counters ∧ (modStream k f s).fresh = s.fresh ∧ (modStream k f s).pending = s.pending := ⟨rfl, rfl, rfl, rfl, rfl, rfl, rfl, rfl, rfl, rfl, rfl, rfl, rfl, rfl, rfl, rfl, rfl, rfl, rfl, rfl, rfl, rfl, rfl, rfl, rfl, rfl, rfl, rfl, rfl, rfl⟩
@[simp] theorem stream_modStream (k : Nat) (f : Stream → Stream) (s : State) :
    stream (modStream k f s) k = f (stream s k) := tabGet_tabMod_same ..
theorem stream_modStream_ne (k j : Nat) (f : Stream → Stream) (s : State) (h : j ≠ k) :
    stream (modStream k f s) j = stream s j := tabGet_tabMod_ne _ _ _ h

@[simp] theorem modDelay_fields (k : Nat) (f : DelayLine → DelayLine) (s : State) :
    (modDelay k f s).power = s.power ∧ (modDelay k f s).dev = s.dev ∧ (modDelay k f s).time = s.time ∧ (modDelay k f
    s).compass = s.compass ∧ (modDelay k f s).lanes = s.lanes ∧ (modDelay k f s).chan = s.chan ∧ (modDelay k f
    s).store = s.store ∧ (modDelay k f s).arrays = s.arrays ∧ (modDelay k f s).beam = s.beam ∧ (modDelay k f
    s).clasp = s.clasp ∧ (modDelay k f s).facet = s.facet ∧ (modDelay k f s).pack = s.pack ∧ (modDelay k f s).out =
    s.out ∧ (modDelay k f s).sched = s.sched ∧ (modDelay k f s).peg = s.peg ∧ (modDelay k f s).dram = s.dram ∧
    (modDelay k f s).host = s.host ∧ (modDelay k f s).evr = s.evr ∧ (modDelay k f s).tether = s.tether ∧ (modDelay k
    f s).dma = s.dma ∧ (modDelay k f s).boot = s.boot ∧ (modDelay k f s).health = s.health ∧ (modDelay k f
    s).recorder = s.recorder ∧ (modDelay k f s).twin = s.twin ∧ (modDelay k f s).loads = s.loads ∧ (modDelay k f
    s).services = s.services ∧ (modDelay k f s).reads = s.reads ∧ (modDelay k f s).counters = s.counters ∧ (modDelay
    k f s).fresh = s.fresh ∧ (modDelay k f s).pending = s.pending := ⟨rfl, rfl, rfl, rfl, rfl, rfl, rfl, rfl, rfl, rfl, rfl, rfl, rfl, rfl, rfl, rfl, rfl, rfl, rfl, rfl, rfl, rfl, rfl, rfl, rfl, rfl, rfl, rfl, rfl, rfl⟩
@[simp] theorem delayLine_modDelay (k : Nat) (f : DelayLine → DelayLine) (s : State) :
    delayLine (modDelay k f s) k = f (delayLine s k) := tabGet_tabMod_same ..
theorem delayLine_modDelay_ne (k j : Nat) (f : DelayLine → DelayLine) (s : State) (h : j ≠ k) :
    delayLine (modDelay k f s) j = delayLine s j := tabGet_tabMod_ne _ _ _ h

@[simp] theorem modSlice_fields (k : Nat) (f : Slice → Slice) (s : State) :
    (modSlice k f s).power = s.power ∧ (modSlice k f s).dev = s.dev ∧ (modSlice k f s).time = s.time ∧ (modSlice k f
    s).compass = s.compass ∧ (modSlice k f s).lanes = s.lanes ∧ (modSlice k f s).ingest = s.ingest ∧ (modSlice k f
    s).store = s.store ∧ (modSlice k f s).arrays = s.arrays ∧ (modSlice k f s).beam = s.beam ∧ (modSlice k f
    s).clasp = s.clasp ∧ (modSlice k f s).facet = s.facet ∧ (modSlice k f s).pack = s.pack ∧ (modSlice k f s).out =
    s.out ∧ (modSlice k f s).sched = s.sched ∧ (modSlice k f s).peg = s.peg ∧ (modSlice k f s).dram = s.dram ∧
    (modSlice k f s).host = s.host ∧ (modSlice k f s).evr = s.evr ∧ (modSlice k f s).tether = s.tether ∧ (modSlice k
    f s).dma = s.dma ∧ (modSlice k f s).boot = s.boot ∧ (modSlice k f s).health = s.health ∧ (modSlice k f
    s).recorder = s.recorder ∧ (modSlice k f s).twin = s.twin ∧ (modSlice k f s).loads = s.loads ∧ (modSlice k f
    s).services = s.services ∧ (modSlice k f s).reads = s.reads ∧ (modSlice k f s).counters = s.counters ∧ (modSlice
    k f s).fresh = s.fresh ∧ (modSlice k f s).pending = s.pending := ⟨rfl, rfl, rfl, rfl, rfl, rfl, rfl, rfl, rfl, rfl, rfl, rfl, rfl, rfl, rfl, rfl, rfl, rfl, rfl, rfl, rfl, rfl, rfl, rfl, rfl, rfl, rfl, rfl, rfl, rfl⟩
@[simp] theorem sliceOf_modSlice (k : Nat) (f : Slice → Slice) (s : State) :
    sliceOf (modSlice k f s) k = f (sliceOf s k) := tabGet_tabMod_same ..
theorem sliceOf_modSlice_ne (k j : Nat) (f : Slice → Slice) (s : State) (h : j ≠ k) :
    sliceOf (modSlice k f s) j = sliceOf s j := tabGet_tabMod_ne _ _ _ h

@[simp] theorem modUnit_fields (k : Nat) (f : ChanUnit → ChanUnit) (s : State) :
    (modUnit k f s).power = s.power ∧ (modUnit k f s).dev = s.dev ∧ (modUnit k f s).time = s.time ∧ (modUnit k f
    s).compass = s.compass ∧ (modUnit k f s).lanes = s.lanes ∧ (modUnit k f s).ingest = s.ingest ∧ (modUnit k f
    s).store = s.store ∧ (modUnit k f s).arrays = s.arrays ∧ (modUnit k f s).beam = s.beam ∧ (modUnit k f s).clasp =
    s.clasp ∧ (modUnit k f s).facet = s.facet ∧ (modUnit k f s).pack = s.pack ∧ (modUnit k f s).out = s.out ∧
    (modUnit k f s).sched = s.sched ∧ (modUnit k f s).peg = s.peg ∧ (modUnit k f s).dram = s.dram ∧ (modUnit k f
    s).host = s.host ∧ (modUnit k f s).evr = s.evr ∧ (modUnit k f s).tether = s.tether ∧ (modUnit k f s).dma = s.dma
    ∧ (modUnit k f s).boot = s.boot ∧ (modUnit k f s).health = s.health ∧ (modUnit k f s).recorder = s.recorder ∧
    (modUnit k f s).twin = s.twin ∧ (modUnit k f s).loads = s.loads ∧ (modUnit k f s).services = s.services ∧
    (modUnit k f s).reads = s.reads ∧ (modUnit k f s).counters = s.counters ∧ (modUnit k f s).fresh = s.fresh ∧
    (modUnit k f s).pending = s.pending := ⟨rfl, rfl, rfl, rfl, rfl, rfl, rfl, rfl, rfl, rfl, rfl, rfl, rfl, rfl, rfl, rfl, rfl, rfl, rfl, rfl, rfl, rfl, rfl, rfl, rfl, rfl, rfl, rfl, rfl, rfl⟩
@[simp] theorem chanUnit_modUnit (k : Nat) (f : ChanUnit → ChanUnit) (s : State) :
    chanUnit (modUnit k f s) k = f (chanUnit s k) := tabGet_tabMod_same ..
theorem chanUnit_modUnit_ne (k j : Nat) (f : ChanUnit → ChanUnit) (s : State) (h : j ≠ k) :
    chanUnit (modUnit k f s) j = chanUnit s j := tabGet_tabMod_ne _ _ _ h

@[simp] theorem modArray_fields (k : Nat) (f : ArraySt → ArraySt) (s : State) :
    (modArray k f s).power = s.power ∧ (modArray k f s).dev = s.dev ∧ (modArray k f s).time = s.time ∧ (modArray k f
    s).compass = s.compass ∧ (modArray k f s).lanes = s.lanes ∧ (modArray k f s).ingest = s.ingest ∧ (modArray k f
    s).chan = s.chan ∧ (modArray k f s).store = s.store ∧ (modArray k f s).beam = s.beam ∧ (modArray k f s).clasp =
    s.clasp ∧ (modArray k f s).facet = s.facet ∧ (modArray k f s).pack = s.pack ∧ (modArray k f s).out = s.out ∧
    (modArray k f s).sched = s.sched ∧ (modArray k f s).peg = s.peg ∧ (modArray k f s).dram = s.dram ∧ (modArray k f
    s).host = s.host ∧ (modArray k f s).evr = s.evr ∧ (modArray k f s).tether = s.tether ∧ (modArray k f s).dma =
    s.dma ∧ (modArray k f s).boot = s.boot ∧ (modArray k f s).health = s.health ∧ (modArray k f s).recorder =
    s.recorder ∧ (modArray k f s).twin = s.twin ∧ (modArray k f s).loads = s.loads ∧ (modArray k f s).services =
    s.services ∧ (modArray k f s).reads = s.reads ∧ (modArray k f s).counters = s.counters ∧ (modArray k f s).fresh
    = s.fresh ∧ (modArray k f s).pending = s.pending := ⟨rfl, rfl, rfl, rfl, rfl, rfl, rfl, rfl, rfl, rfl, rfl, rfl, rfl, rfl, rfl, rfl, rfl, rfl, rfl, rfl, rfl, rfl, rfl, rfl, rfl, rfl, rfl, rfl, rfl, rfl⟩
@[simp] theorem array_modArray (k : Nat) (f : ArraySt → ArraySt) (s : State) :
    array (modArray k f s) k = f (array s k) := tabGet_tabMod_same ..
theorem array_modArray_ne (k j : Nat) (f : ArraySt → ArraySt) (s : State) (h : j ≠ k) :
    array (modArray k f s) j = array s j := tabGet_tabMod_ne _ _ _ h

@[simp] theorem modEngine_fields (k : Nat) (f : Engine → Engine) (s : State) :
    (modEngine k f s).power = s.power ∧ (modEngine k f s).dev = s.dev ∧ (modEngine k f s).time = s.time ∧ (modEngine
    k f s).compass = s.compass ∧ (modEngine k f s).lanes = s.lanes ∧ (modEngine k f s).ingest = s.ingest ∧
    (modEngine k f s).chan = s.chan ∧ (modEngine k f s).store = s.store ∧ (modEngine k f s).arrays = s.arrays ∧
    (modEngine k f s).beam = s.beam ∧ (modEngine k f s).clasp = s.clasp ∧ (modEngine k f s).facet = s.facet ∧
    (modEngine k f s).out = s.out ∧ (modEngine k f s).sched = s.sched ∧ (modEngine k f s).peg = s.peg ∧ (modEngine k
    f s).dram = s.dram ∧ (modEngine k f s).host = s.host ∧ (modEngine k f s).evr = s.evr ∧ (modEngine k f s).tether
    = s.tether ∧ (modEngine k f s).dma = s.dma ∧ (modEngine k f s).boot = s.boot ∧ (modEngine k f s).health =
    s.health ∧ (modEngine k f s).recorder = s.recorder ∧ (modEngine k f s).twin = s.twin ∧ (modEngine k f s).loads =
    s.loads ∧ (modEngine k f s).services = s.services ∧ (modEngine k f s).reads = s.reads ∧ (modEngine k f
    s).counters = s.counters ∧ (modEngine k f s).fresh = s.fresh ∧ (modEngine k f s).pending = s.pending := ⟨rfl, rfl, rfl, rfl, rfl, rfl, rfl, rfl, rfl, rfl, rfl, rfl, rfl, rfl, rfl, rfl, rfl, rfl, rfl, rfl, rfl, rfl, rfl, rfl, rfl, rfl, rfl, rfl, rfl, rfl⟩
@[simp] theorem engine_modEngine (k : Nat) (f : Engine → Engine) (s : State) :
    engine (modEngine k f s) k = f (engine s k) := tabGet_tabMod_same ..
theorem engine_modEngine_ne (k j : Nat) (f : Engine → Engine) (s : State) (h : j ≠ k) :
    engine (modEngine k f s) j = engine s j := tabGet_tabMod_ne _ _ _ h

@[simp] theorem modEgress_fields (k : Nat) (f : EgressQuad → EgressQuad) (s : State) :
    (modEgress k f s).power = s.power ∧ (modEgress k f s).dev = s.dev ∧ (modEgress k f s).time = s.time ∧ (modEgress
    k f s).compass = s.compass ∧ (modEgress k f s).lanes = s.lanes ∧ (modEgress k f s).ingest = s.ingest ∧
    (modEgress k f s).chan = s.chan ∧ (modEgress k f s).store = s.store ∧ (modEgress k f s).arrays = s.arrays ∧
    (modEgress k f s).beam = s.beam ∧ (modEgress k f s).clasp = s.clasp ∧ (modEgress k f s).facet = s.facet ∧
    (modEgress k f s).pack = s.pack ∧ (modEgress k f s).sched = s.sched ∧ (modEgress k f s).peg = s.peg ∧ (modEgress
    k f s).dram = s.dram ∧ (modEgress k f s).host = s.host ∧ (modEgress k f s).evr = s.evr ∧ (modEgress k f
    s).tether = s.tether ∧ (modEgress k f s).dma = s.dma ∧ (modEgress k f s).boot = s.boot ∧ (modEgress k f
    s).health = s.health ∧ (modEgress k f s).recorder = s.recorder ∧ (modEgress k f s).twin = s.twin ∧ (modEgress k
    f s).loads = s.loads ∧ (modEgress k f s).services = s.services ∧ (modEgress k f s).reads = s.reads ∧ (modEgress
    k f s).counters = s.counters ∧ (modEgress k f s).fresh = s.fresh ∧ (modEgress k f s).pending = s.pending := ⟨rfl, rfl, rfl, rfl, rfl, rfl, rfl, rfl, rfl, rfl, rfl, rfl, rfl, rfl, rfl, rfl, rfl, rfl, rfl, rfl, rfl, rfl, rfl, rfl, rfl, rfl, rfl, rfl, rfl, rfl⟩
@[simp] theorem egress_modEgress (k : Nat) (f : EgressQuad → EgressQuad) (s : State) :
    egress (modEgress k f s) k = f (egress s k) := tabGet_tabMod_same ..
theorem egress_modEgress_ne (k j : Nat) (f : EgressQuad → EgressQuad) (s : State) (h : j ≠ k) :
    egress (modEgress k f s) j = egress s j := tabGet_tabMod_ne _ _ _ h

@[simp] theorem modPeg_fields (k : Nat) (f : Peg → Peg) (s : State) :
    (modPeg k f s).power = s.power ∧ (modPeg k f s).dev = s.dev ∧ (modPeg k f s).time = s.time ∧ (modPeg k f
    s).compass = s.compass ∧ (modPeg k f s).lanes = s.lanes ∧ (modPeg k f s).ingest = s.ingest ∧ (modPeg k f s).chan
    = s.chan ∧ (modPeg k f s).store = s.store ∧ (modPeg k f s).arrays = s.arrays ∧ (modPeg k f s).beam = s.beam ∧
    (modPeg k f s).clasp = s.clasp ∧ (modPeg k f s).facet = s.facet ∧ (modPeg k f s).pack = s.pack ∧ (modPeg k f
    s).out = s.out ∧ (modPeg k f s).sched = s.sched ∧ (modPeg k f s).dram = s.dram ∧ (modPeg k f s).host = s.host ∧
    (modPeg k f s).evr = s.evr ∧ (modPeg k f s).tether = s.tether ∧ (modPeg k f s).dma = s.dma ∧ (modPeg k f s).boot
    = s.boot ∧ (modPeg k f s).health = s.health ∧ (modPeg k f s).recorder = s.recorder ∧ (modPeg k f s).twin =
    s.twin ∧ (modPeg k f s).loads = s.loads ∧ (modPeg k f s).services = s.services ∧ (modPeg k f s).reads = s.reads
    ∧ (modPeg k f s).counters = s.counters ∧ (modPeg k f s).fresh = s.fresh ∧ (modPeg k f s).pending = s.pending := ⟨rfl, rfl, rfl, rfl, rfl, rfl, rfl, rfl, rfl, rfl, rfl, rfl, rfl, rfl, rfl, rfl, rfl, rfl, rfl, rfl, rfl, rfl, rfl, rfl, rfl, rfl, rfl, rfl, rfl, rfl⟩
@[simp] theorem peg_modPeg (k : Nat) (f : Peg → Peg) (s : State) :
    peg (modPeg k f s) k = f (peg s k) := tabGet_tabMod_same ..
theorem peg_modPeg_ne (k j : Nat) (f : Peg → Peg) (s : State) (h : j ≠ k) :
    peg (modPeg k f s) j = peg s j := tabGet_tabMod_ne _ _ _ h

@[simp] theorem modDram_fields (k : Nat) (f : DramCh → DramCh) (s : State) :
    (modDram k f s).power = s.power ∧ (modDram k f s).dev = s.dev ∧ (modDram k f s).time = s.time ∧ (modDram k f
    s).compass = s.compass ∧ (modDram k f s).lanes = s.lanes ∧ (modDram k f s).ingest = s.ingest ∧ (modDram k f
    s).chan = s.chan ∧ (modDram k f s).store = s.store ∧ (modDram k f s).arrays = s.arrays ∧ (modDram k f s).beam =
    s.beam ∧ (modDram k f s).clasp = s.clasp ∧ (modDram k f s).facet = s.facet ∧ (modDram k f s).pack = s.pack ∧
    (modDram k f s).out = s.out ∧ (modDram k f s).sched = s.sched ∧ (modDram k f s).peg = s.peg ∧ (modDram k f
    s).host = s.host ∧ (modDram k f s).evr = s.evr ∧ (modDram k f s).tether = s.tether ∧ (modDram k f s).dma = s.dma
    ∧ (modDram k f s).boot = s.boot ∧ (modDram k f s).health = s.health ∧ (modDram k f s).recorder = s.recorder ∧
    (modDram k f s).twin = s.twin ∧ (modDram k f s).loads = s.loads ∧ (modDram k f s).services = s.services ∧
    (modDram k f s).reads = s.reads ∧ (modDram k f s).counters = s.counters ∧ (modDram k f s).fresh = s.fresh ∧
    (modDram k f s).pending = s.pending := ⟨rfl, rfl, rfl, rfl, rfl, rfl, rfl, rfl, rfl, rfl, rfl, rfl, rfl, rfl, rfl, rfl, rfl, rfl, rfl, rfl, rfl, rfl, rfl, rfl, rfl, rfl, rfl, rfl, rfl, rfl⟩
@[simp] theorem dramCh_modDram (k : Nat) (f : DramCh → DramCh) (s : State) :
    dramCh (modDram k f s) k = f (dramCh s k) := tabGet_tabMod_same ..
theorem dramCh_modDram_ne (k j : Nat) (f : DramCh → DramCh) (s : State) (h : j ≠ k) :
    dramCh (modDram k f s) j = dramCh s j := tabGet_tabMod_ne _ _ _ h

@[simp] theorem modSlot_fields (k : Nat) (f : Slot → Slot) (s : State) :
    (modSlot k f s).power = s.power ∧ (modSlot k f s).dev = s.dev ∧ (modSlot k f s).time = s.time ∧ (modSlot k f
    s).compass = s.compass ∧ (modSlot k f s).lanes = s.lanes ∧ (modSlot k f s).ingest = s.ingest ∧ (modSlot k f
    s).chan = s.chan ∧ (modSlot k f s).store = s.store ∧ (modSlot k f s).arrays = s.arrays ∧ (modSlot k f s).beam =
    s.beam ∧ (modSlot k f s).clasp = s.clasp ∧ (modSlot k f s).facet = s.facet ∧ (modSlot k f s).pack = s.pack ∧
    (modSlot k f s).out = s.out ∧ (modSlot k f s).sched = s.sched ∧ (modSlot k f s).peg = s.peg ∧ (modSlot k f
    s).dram = s.dram ∧ (modSlot k f s).evr = s.evr ∧ (modSlot k f s).tether = s.tether ∧ (modSlot k f s).dma = s.dma
    ∧ (modSlot k f s).boot = s.boot ∧ (modSlot k f s).health = s.health ∧ (modSlot k f s).recorder = s.recorder ∧
    (modSlot k f s).twin = s.twin ∧ (modSlot k f s).loads = s.loads ∧ (modSlot k f s).services = s.services ∧
    (modSlot k f s).reads = s.reads ∧ (modSlot k f s).counters = s.counters ∧ (modSlot k f s).fresh = s.fresh ∧
    (modSlot k f s).pending = s.pending := ⟨rfl, rfl, rfl, rfl, rfl, rfl, rfl, rfl, rfl, rfl, rfl, rfl, rfl, rfl, rfl, rfl, rfl, rfl, rfl, rfl, rfl, rfl, rfl, rfl, rfl, rfl, rfl, rfl, rfl, rfl⟩
@[simp] theorem slot_modSlot (k : Nat) (f : Slot → Slot) (s : State) :
    slot (modSlot k f s) k = f (slot s k) := tabGet_tabMod_same ..
theorem slot_modSlot_ne (k j : Nat) (f : Slot → Slot) (s : State) (h : j ≠ k) :
    slot (modSlot k f s) j = slot s j := tabGet_tabMod_ne _ _ _ h

@[simp] theorem modDma_fields (k : Nat) (f : DmaCh → DmaCh) (s : State) :
    (modDma k f s).power = s.power ∧ (modDma k f s).dev = s.dev ∧ (modDma k f s).time = s.time ∧ (modDma k f
    s).compass = s.compass ∧ (modDma k f s).lanes = s.lanes ∧ (modDma k f s).ingest = s.ingest ∧ (modDma k f s).chan
    = s.chan ∧ (modDma k f s).store = s.store ∧ (modDma k f s).arrays = s.arrays ∧ (modDma k f s).beam = s.beam ∧
    (modDma k f s).clasp = s.clasp ∧ (modDma k f s).facet = s.facet ∧ (modDma k f s).pack = s.pack ∧ (modDma k f
    s).out = s.out ∧ (modDma k f s).sched = s.sched ∧ (modDma k f s).peg = s.peg ∧ (modDma k f s).dram = s.dram ∧
    (modDma k f s).host = s.host ∧ (modDma k f s).evr = s.evr ∧ (modDma k f s).tether = s.tether ∧ (modDma k f
    s).boot = s.boot ∧ (modDma k f s).health = s.health ∧ (modDma k f s).recorder = s.recorder ∧ (modDma k f s).twin
    = s.twin ∧ (modDma k f s).loads = s.loads ∧ (modDma k f s).services = s.services ∧ (modDma k f s).reads =
    s.reads ∧ (modDma k f s).counters = s.counters ∧ (modDma k f s).fresh = s.fresh ∧ (modDma k f s).pending =
    s.pending := ⟨rfl, rfl, rfl, rfl, rfl, rfl, rfl, rfl, rfl, rfl, rfl, rfl, rfl, rfl, rfl, rfl, rfl, rfl, rfl, rfl, rfl, rfl, rfl, rfl, rfl, rfl, rfl, rfl, rfl, rfl⟩
@[simp] theorem dmaCh_modDma (k : Nat) (f : DmaCh → DmaCh) (s : State) :
    dmaCh (modDma k f s) k = f (dmaCh s k) := tabGet_tabMod_same ..
theorem dmaCh_modDma_ne (k j : Nat) (f : DmaCh → DmaCh) (s : State) (h : j ≠ k) :
    dmaCh (modDma k f s) j = dmaCh s j := tabGet_tabMod_ne _ _ _ h

@[simp] theorem modPort_fields (k : Nat) (f : Port → Port) (s : State) :
    (modPort k f s).power = s.power ∧ (modPort k f s).dev = s.dev ∧ (modPort k f s).time = s.time ∧ (modPort k f
    s).compass = s.compass ∧ (modPort k f s).lanes = s.lanes ∧ (modPort k f s).ingest = s.ingest ∧ (modPort k f
    s).chan = s.chan ∧ (modPort k f s).store = s.store ∧ (modPort k f s).arrays = s.arrays ∧ (modPort k f s).beam =
    s.beam ∧ (modPort k f s).clasp = s.clasp ∧ (modPort k f s).facet = s.facet ∧ (modPort k f s).pack = s.pack ∧
    (modPort k f s).out = s.out ∧ (modPort k f s).sched = s.sched ∧ (modPort k f s).peg = s.peg ∧ (modPort k f
    s).dram = s.dram ∧ (modPort k f s).host = s.host ∧ (modPort k f s).evr = s.evr ∧ (modPort k f s).tether =
    s.tether ∧ (modPort k f s).boot = s.boot ∧ (modPort k f s).health = s.health ∧ (modPort k f s).recorder =
    s.recorder ∧ (modPort k f s).twin = s.twin ∧ (modPort k f s).loads = s.loads ∧ (modPort k f s).services =
    s.services ∧ (modPort k f s).reads = s.reads ∧ (modPort k f s).counters = s.counters ∧ (modPort k f s).fresh =
    s.fresh ∧ (modPort k f s).pending = s.pending := ⟨rfl, rfl, rfl, rfl, rfl, rfl, rfl, rfl, rfl, rfl, rfl, rfl, rfl, rfl, rfl, rfl, rfl, rfl, rfl, rfl, rfl, rfl, rfl, rfl, rfl, rfl, rfl, rfl, rfl, rfl⟩
@[simp] theorem port_modPort (k : Nat) (f : Port → Port) (s : State) :
    port (modPort k f s) k = f (port s k) := tabGet_tabMod_same ..
theorem port_modPort_ne (k j : Nat) (f : Port → Port) (s : State) (h : j ≠ k) :
    port (modPort k f s) j = port s j := tabGet_tabMod_ne _ _ _ h

@[simp] theorem modZone_fields (k : Nat) (f : Zone → Zone) (s : State) :
    (modZone k f s).power = s.power ∧ (modZone k f s).dev = s.dev ∧ (modZone k f s).time = s.time ∧ (modZone k f
    s).compass = s.compass ∧ (modZone k f s).lanes = s.lanes ∧ (modZone k f s).ingest = s.ingest ∧ (modZone k f
    s).chan = s.chan ∧ (modZone k f s).store = s.store ∧ (modZone k f s).arrays = s.arrays ∧ (modZone k f s).beam =
    s.beam ∧ (modZone k f s).clasp = s.clasp ∧ (modZone k f s).facet = s.facet ∧ (modZone k f s).pack = s.pack ∧
    (modZone k f s).out = s.out ∧ (modZone k f s).sched = s.sched ∧ (modZone k f s).peg = s.peg ∧ (modZone k f
    s).dram = s.dram ∧ (modZone k f s).host = s.host ∧ (modZone k f s).evr = s.evr ∧ (modZone k f s).tether =
    s.tether ∧ (modZone k f s).dma = s.dma ∧ (modZone k f s).boot = s.boot ∧ (modZone k f s).recorder = s.recorder ∧
    (modZone k f s).twin = s.twin ∧ (modZone k f s).loads = s.loads ∧ (modZone k f s).services = s.services ∧
    (modZone k f s).reads = s.reads ∧ (modZone k f s).counters = s.counters ∧ (modZone k f s).fresh = s.fresh ∧
    (modZone k f s).pending = s.pending := ⟨rfl, rfl, rfl, rfl, rfl, rfl, rfl, rfl, rfl, rfl, rfl, rfl, rfl, rfl, rfl, rfl, rfl, rfl, rfl, rfl, rfl, rfl, rfl, rfl, rfl, rfl, rfl, rfl, rfl, rfl⟩
@[simp] theorem zone_modZone (k : Nat) (f : Zone → Zone) (s : State) :
    zone (modZone k f s) k = f (zone s k) := tabGet_tabMod_same ..
theorem zone_modZone_ne (k j : Nat) (f : Zone → Zone) (s : State) (h : j ≠ k) :
    zone (modZone k f s) j = zone s j := tabGet_tabMod_ne _ _ _ h

@[simp] theorem modSensor_fields (k : Nat) (f : Sensor → Sensor) (s : State) :
    (modSensor k f s).power = s.power ∧ (modSensor k f s).dev = s.dev ∧ (modSensor k f s).time = s.time ∧ (modSensor
    k f s).compass = s.compass ∧ (modSensor k f s).lanes = s.lanes ∧ (modSensor k f s).ingest = s.ingest ∧
    (modSensor k f s).chan = s.chan ∧ (modSensor k f s).store = s.store ∧ (modSensor k f s).arrays = s.arrays ∧
    (modSensor k f s).beam = s.beam ∧ (modSensor k f s).clasp = s.clasp ∧ (modSensor k f s).facet = s.facet ∧
    (modSensor k f s).pack = s.pack ∧ (modSensor k f s).out = s.out ∧ (modSensor k f s).sched = s.sched ∧ (modSensor
    k f s).peg = s.peg ∧ (modSensor k f s).dram = s.dram ∧ (modSensor k f s).host = s.host ∧ (modSensor k f s).evr =
    s.evr ∧ (modSensor k f s).tether = s.tether ∧ (modSensor k f s).dma = s.dma ∧ (modSensor k f s).boot = s.boot ∧
    (modSensor k f s).recorder = s.recorder ∧ (modSensor k f s).twin = s.twin ∧ (modSensor k f s).loads = s.loads ∧
    (modSensor k f s).services = s.services ∧ (modSensor k f s).reads = s.reads ∧ (modSensor k f s).counters =
    s.counters ∧ (modSensor k f s).fresh = s.fresh ∧ (modSensor k f s).pending = s.pending := ⟨rfl, rfl, rfl, rfl, rfl, rfl, rfl, rfl, rfl, rfl, rfl, rfl, rfl, rfl, rfl, rfl, rfl, rfl, rfl, rfl, rfl, rfl, rfl, rfl, rfl, rfl, rfl, rfl, rfl, rfl⟩
@[simp] theorem sensor_modSensor (k : Nat) (f : Sensor → Sensor) (s : State) :
    sensor (modSensor k f s) k = f (sensor s k) := tabGet_tabMod_same ..
theorem sensor_modSensor_ne (k j : Nat) (f : Sensor → Sensor) (s : State) (h : j ≠ k) :
    sensor (modSensor k f s) j = sensor s j := tabGet_tabMod_ne _ _ _ h

@[simp] theorem modInject_fields (k : Nat) (f : Inject → Inject) (s : State) :
    (modInject k f s).power = s.power ∧ (modInject k f s).dev = s.dev ∧ (modInject k f s).time = s.time ∧ (modInject
    k f s).compass = s.compass ∧ (modInject k f s).lanes = s.lanes ∧ (modInject k f s).ingest = s.ingest ∧
    (modInject k f s).chan = s.chan ∧ (modInject k f s).store = s.store ∧ (modInject k f s).arrays = s.arrays ∧
    (modInject k f s).beam = s.beam ∧ (modInject k f s).clasp = s.clasp ∧ (modInject k f s).facet = s.facet ∧
    (modInject k f s).pack = s.pack ∧ (modInject k f s).out = s.out ∧ (modInject k f s).sched = s.sched ∧ (modInject
    k f s).peg = s.peg ∧ (modInject k f s).dram = s.dram ∧ (modInject k f s).host = s.host ∧ (modInject k f s).evr =
    s.evr ∧ (modInject k f s).tether = s.tether ∧ (modInject k f s).dma = s.dma ∧ (modInject k f s).boot = s.boot ∧
    (modInject k f s).recorder = s.recorder ∧ (modInject k f s).twin = s.twin ∧ (modInject k f s).loads = s.loads ∧
    (modInject k f s).services = s.services ∧ (modInject k f s).reads = s.reads ∧ (modInject k f s).counters =
    s.counters ∧ (modInject k f s).fresh = s.fresh ∧ (modInject k f s).pending = s.pending := ⟨rfl, rfl, rfl, rfl, rfl, rfl, rfl, rfl, rfl, rfl, rfl, rfl, rfl, rfl, rfl, rfl, rfl, rfl, rfl, rfl, rfl, rfl, rfl, rfl, rfl, rfl, rfl, rfl, rfl, rfl⟩
@[simp] theorem inject_modInject (k : Nat) (f : Inject → Inject) (s : State) :
    inject (modInject k f s) k = f (inject s k) := tabGet_tabMod_same ..
theorem inject_modInject_ne (k j : Nat) (f : Inject → Inject) (s : State) (h : j ≠ k) :
    inject (modInject k f s) j = inject s j := tabGet_tabMod_ne _ _ _ h

@[simp] theorem modFan_fields (k : Nat) (f : Fan → Fan) (s : State) :
    (modFan k f s).power = s.power ∧ (modFan k f s).dev = s.dev ∧ (modFan k f s).time = s.time ∧ (modFan k f
    s).compass = s.compass ∧ (modFan k f s).lanes = s.lanes ∧ (modFan k f s).ingest = s.ingest ∧ (modFan k f s).chan
    = s.chan ∧ (modFan k f s).store = s.store ∧ (modFan k f s).arrays = s.arrays ∧ (modFan k f s).beam = s.beam ∧
    (modFan k f s).clasp = s.clasp ∧ (modFan k f s).facet = s.facet ∧ (modFan k f s).pack = s.pack ∧ (modFan k f
    s).out = s.out ∧ (modFan k f s).sched = s.sched ∧ (modFan k f s).peg = s.peg ∧ (modFan k f s).dram = s.dram ∧
    (modFan k f s).host = s.host ∧ (modFan k f s).evr = s.evr ∧ (modFan k f s).tether = s.tether ∧ (modFan k f
    s).dma = s.dma ∧ (modFan k f s).boot = s.boot ∧ (modFan k f s).recorder = s.recorder ∧ (modFan k f s).twin =
    s.twin ∧ (modFan k f s).loads = s.loads ∧ (modFan k f s).services = s.services ∧ (modFan k f s).reads = s.reads
    ∧ (modFan k f s).counters = s.counters ∧ (modFan k f s).fresh = s.fresh ∧ (modFan k f s).pending = s.pending := ⟨rfl, rfl, rfl, rfl, rfl, rfl, rfl, rfl, rfl, rfl, rfl, rfl, rfl, rfl, rfl, rfl, rfl, rfl, rfl, rfl, rfl, rfl, rfl, rfl, rfl, rfl, rfl, rfl, rfl, rfl⟩
@[simp] theorem fan_modFan (k : Nat) (f : Fan → Fan) (s : State) :
    fan (modFan k f s) k = f (fan s k) := tabGet_tabMod_same ..
theorem fan_modFan_ne (k j : Nat) (f : Fan → Fan) (s : State) (h : j ≠ k) :
    fan (modFan k f s) j = fan s j := tabGet_tabMod_ne _ _ _ h

@[simp] theorem modSource_fields (k : Nat) (f : Source → Source) (s : State) :
    (modSource k f s).power = s.power ∧ (modSource k f s).dev = s.dev ∧ (modSource k f s).time = s.time ∧ (modSource
    k f s).lanes = s.lanes ∧ (modSource k f s).ingest = s.ingest ∧ (modSource k f s).chan = s.chan ∧ (modSource k f
    s).store = s.store ∧ (modSource k f s).arrays = s.arrays ∧ (modSource k f s).beam = s.beam ∧ (modSource k f
    s).clasp = s.clasp ∧ (modSource k f s).facet = s.facet ∧ (modSource k f s).pack = s.pack ∧ (modSource k f s).out
    = s.out ∧ (modSource k f s).sched = s.sched ∧ (modSource k f s).peg = s.peg ∧ (modSource k f s).dram = s.dram ∧
    (modSource k f s).host = s.host ∧ (modSource k f s).evr = s.evr ∧ (modSource k f s).tether = s.tether ∧
    (modSource k f s).dma = s.dma ∧ (modSource k f s).boot = s.boot ∧ (modSource k f s).health = s.health ∧
    (modSource k f s).recorder = s.recorder ∧ (modSource k f s).twin = s.twin ∧ (modSource k f s).loads = s.loads ∧
    (modSource k f s).services = s.services ∧ (modSource k f s).reads = s.reads ∧ (modSource k f s).counters =
    s.counters ∧ (modSource k f s).fresh = s.fresh ∧ (modSource k f s).pending = s.pending := ⟨rfl, rfl, rfl, rfl, rfl, rfl, rfl, rfl, rfl, rfl, rfl, rfl, rfl, rfl, rfl, rfl, rfl, rfl, rfl, rfl, rfl, rfl, rfl, rfl, rfl, rfl, rfl, rfl, rfl, rfl⟩
@[simp] theorem source_modSource (k : Nat) (f : Source → Source) (s : State) :
    source (modSource k f s) k = f (source s k) := tabGet_tabMod_same ..
theorem source_modSource_ne (k j : Nat) (f : Source → Source) (s : State) (h : j ≠ k) :
    source (modSource k f s) j = source s j := tabGet_tabMod_dep _ _ _ _ h

@[simp] theorem modOut_fields (k : Nat) (f : OutCfg → OutCfg) (s : State) :
    (modOut k f s).power = s.power ∧ (modOut k f s).dev = s.dev ∧ (modOut k f s).time = s.time ∧ (modOut k f
    s).lanes = s.lanes ∧ (modOut k f s).ingest = s.ingest ∧ (modOut k f s).chan = s.chan ∧ (modOut k f s).store =
    s.store ∧ (modOut k f s).arrays = s.arrays ∧ (modOut k f s).beam = s.beam ∧ (modOut k f s).clasp = s.clasp ∧
    (modOut k f s).facet = s.facet ∧ (modOut k f s).pack = s.pack ∧ (modOut k f s).out = s.out ∧ (modOut k f
    s).sched = s.sched ∧ (modOut k f s).peg = s.peg ∧ (modOut k f s).dram = s.dram ∧ (modOut k f s).host = s.host ∧
    (modOut k f s).evr = s.evr ∧ (modOut k f s).tether = s.tether ∧ (modOut k f s).dma = s.dma ∧ (modOut k f s).boot
    = s.boot ∧ (modOut k f s).health = s.health ∧ (modOut k f s).recorder = s.recorder ∧ (modOut k f s).twin =
    s.twin ∧ (modOut k f s).loads = s.loads ∧ (modOut k f s).services = s.services ∧ (modOut k f s).reads = s.reads
    ∧ (modOut k f s).counters = s.counters ∧ (modOut k f s).fresh = s.fresh ∧ (modOut k f s).pending = s.pending := ⟨rfl, rfl, rfl, rfl, rfl, rfl, rfl, rfl, rfl, rfl, rfl, rfl, rfl, rfl, rfl, rfl, rfl, rfl, rfl, rfl, rfl, rfl, rfl, rfl, rfl, rfl, rfl, rfl, rfl, rfl⟩
@[simp] theorem timingOut_modOut (k : Nat) (f : OutCfg → OutCfg) (s : State) :
    timingOut (modOut k f s) k = f (timingOut s k) := tabGet_tabMod_same ..
theorem timingOut_modOut_ne (k j : Nat) (f : OutCfg → OutCfg) (s : State) (h : j ≠ k) :
    timingOut (modOut k f s) j = timingOut s j := tabGet_tabMod_dep _ _ _ _ h

@[simp] theorem modCause_fields (k : Nat) (f : IntCause → IntCause) (s : State) :
    (modCause k f s).power = s.power ∧ (modCause k f s).dev = s.dev ∧ (modCause k f s).time = s.time ∧ (modCause k f
    s).compass = s.compass ∧ (modCause k f s).lanes = s.lanes ∧ (modCause k f s).ingest = s.ingest ∧ (modCause k f
    s).chan = s.chan ∧ (modCause k f s).store = s.store ∧ (modCause k f s).arrays = s.arrays ∧ (modCause k f s).beam
    = s.beam ∧ (modCause k f s).clasp = s.clasp ∧ (modCause k f s).facet = s.facet ∧ (modCause k f s).pack = s.pack
    ∧ (modCause k f s).out = s.out ∧ (modCause k f s).sched = s.sched ∧ (modCause k f s).peg = s.peg ∧ (modCause k f
    s).dram = s.dram ∧ (modCause k f s).evr = s.evr ∧ (modCause k f s).tether = s.tether ∧ (modCause k f s).dma =
    s.dma ∧ (modCause k f s).boot = s.boot ∧ (modCause k f s).health = s.health ∧ (modCause k f s).recorder =
    s.recorder ∧ (modCause k f s).twin = s.twin ∧ (modCause k f s).loads = s.loads ∧ (modCause k f s).services =
    s.services ∧ (modCause k f s).reads = s.reads ∧ (modCause k f s).counters = s.counters ∧ (modCause k f s).fresh
    = s.fresh ∧ (modCause k f s).pending = s.pending := ⟨rfl, rfl, rfl, rfl, rfl, rfl, rfl, rfl, rfl, rfl, rfl, rfl, rfl, rfl, rfl, rfl, rfl, rfl, rfl, rfl, rfl, rfl, rfl, rfl, rfl, rfl, rfl, rfl, rfl, rfl⟩
@[simp] theorem intCause_modCause (k : Nat) (f : IntCause → IntCause) (s : State) :
    intCause (modCause k f s) k = f (intCause s k) := tabGet_tabMod_same ..
theorem intCause_modCause_ne (k j : Nat) (f : IntCause → IntCause) (s : State) (h : j ≠ k) :
    intCause (modCause k f s) j = intCause s j := tabGet_tabMod_dep _ _ _ _ h

@[simp] theorem modPin_fields (k : Nat) (f : PinSt → PinSt) (s : State) :
    (modPin k f s).power = s.power ∧ (modPin k f s).dev = s.dev ∧ (modPin k f s).time = s.time ∧ (modPin k f
    s).lanes = s.lanes ∧ (modPin k f s).ingest = s.ingest ∧ (modPin k f s).chan = s.chan ∧ (modPin k f s).store =
    s.store ∧ (modPin k f s).arrays = s.arrays ∧ (modPin k f s).beam = s.beam ∧ (modPin k f s).clasp = s.clasp ∧
    (modPin k f s).facet = s.facet ∧ (modPin k f s).pack = s.pack ∧ (modPin k f s).out = s.out ∧ (modPin k f
    s).sched = s.sched ∧ (modPin k f s).peg = s.peg ∧ (modPin k f s).dram = s.dram ∧ (modPin k f s).host = s.host ∧
    (modPin k f s).evr = s.evr ∧ (modPin k f s).tether = s.tether ∧ (modPin k f s).dma = s.dma ∧ (modPin k f s).boot
    = s.boot ∧ (modPin k f s).health = s.health ∧ (modPin k f s).recorder = s.recorder ∧ (modPin k f s).twin =
    s.twin ∧ (modPin k f s).loads = s.loads ∧ (modPin k f s).services = s.services ∧ (modPin k f s).reads = s.reads
    ∧ (modPin k f s).counters = s.counters ∧ (modPin k f s).fresh = s.fresh ∧ (modPin k f s).pending = s.pending := ⟨rfl, rfl, rfl, rfl, rfl, rfl, rfl, rfl, rfl, rfl, rfl, rfl, rfl, rfl, rfl, rfl, rfl, rfl, rfl, rfl, rfl, rfl, rfl, rfl, rfl, rfl, rfl, rfl, rfl, rfl⟩
@[simp] theorem pin_modPin (k : Nat) (f : PinSt → PinSt) (s : State) :
    pin (modPin k f s) k = f (pin s k) := tabGet_tabMod_same ..
theorem pin_modPin_ne (k j : Nat) (f : PinSt → PinSt) (s : State) (h : j ≠ k) :
    pin (modPin k f s) j = pin s j := tabGet_tabMod_dep _ _ _ _ h

@[simp] theorem countN_fields (c : Ctr) (i n : Nat) (s : State) :
    (countN c i n s).power = s.power ∧ (countN c i n s).dev = s.dev ∧ (countN c i n s).time = s.time ∧ (countN c i n
    s).compass = s.compass ∧ (countN c i n s).lanes = s.lanes ∧ (countN c i n s).ingest = s.ingest ∧ (countN c i n
    s).chan = s.chan ∧ (countN c i n s).store = s.store ∧ (countN c i n s).arrays = s.arrays ∧ (countN c i n s).beam
    = s.beam ∧ (countN c i n s).clasp = s.clasp ∧ (countN c i n s).facet = s.facet ∧ (countN c i n s).pack = s.pack
    ∧ (countN c i n s).out = s.out ∧ (countN c i n s).sched = s.sched ∧ (countN c i n s).peg = s.peg ∧ (countN c i n
    s).dram = s.dram ∧ (countN c i n s).host = s.host ∧ (countN c i n s).evr = s.evr ∧ (countN c i n s).tether =
    s.tether ∧ (countN c i n s).dma = s.dma ∧ (countN c i n s).boot = s.boot ∧ (countN c i n s).health = s.health ∧
    (countN c i n s).recorder = s.recorder ∧ (countN c i n s).twin = s.twin ∧ (countN c i n s).loads = s.loads ∧
    (countN c i n s).services = s.services ∧ (countN c i n s).reads = s.reads ∧ (countN c i n s).fresh = s.fresh ∧
    (countN c i n s).pending = s.pending := ⟨rfl, rfl, rfl, rfl, rfl, rfl, rfl, rfl, rfl, rfl, rfl, rfl, rfl, rfl, rfl, rfl, rfl, rfl, rfl, rfl, rfl, rfl, rfl, rfl, rfl, rfl, rfl, rfl, rfl, rfl⟩

@[simp] theorem count_fields (c : Ctr) (i : Nat) (s : State) :
    (count c i s).power = s.power ∧ (count c i s).dev = s.dev ∧ (count c i s).time = s.time ∧ (count c i s).compass
    = s.compass ∧ (count c i s).lanes = s.lanes ∧ (count c i s).ingest = s.ingest ∧ (count c i s).chan = s.chan ∧
    (count c i s).store = s.store ∧ (count c i s).arrays = s.arrays ∧ (count c i s).beam = s.beam ∧ (count c i
    s).clasp = s.clasp ∧ (count c i s).facet = s.facet ∧ (count c i s).pack = s.pack ∧ (count c i s).out = s.out ∧
    (count c i s).sched = s.sched ∧ (count c i s).peg = s.peg ∧ (count c i s).dram = s.dram ∧ (count c i s).host =
    s.host ∧ (count c i s).evr = s.evr ∧ (count c i s).tether = s.tether ∧ (count c i s).dma = s.dma ∧ (count c i
    s).boot = s.boot ∧ (count c i s).health = s.health ∧ (count c i s).recorder = s.recorder ∧ (count c i s).twin =
    s.twin ∧ (count c i s).loads = s.loads ∧ (count c i s).services = s.services ∧ (count c i s).reads = s.reads ∧
    (count c i s).fresh = s.fresh ∧ (count c i s).pending = s.pending := ⟨rfl, rfl, rfl, rfl, rfl, rfl, rfl, rfl, rfl, rfl, rfl, rfl, rfl, rfl, rfl, rfl, rfl, rfl, rfl, rfl, rfl, rfl, rfl, rfl, rfl, rfl, rfl, rfl, rfl, rfl⟩

@[simp] theorem clearCtr_fields (c : Ctr) (i : Nat) (s : State) :
    (clearCtr c i s).power = s.power ∧ (clearCtr c i s).dev = s.dev ∧ (clearCtr c i s).time = s.time ∧ (clearCtr c i
    s).compass = s.compass ∧ (clearCtr c i s).lanes = s.lanes ∧ (clearCtr c i s).ingest = s.ingest ∧ (clearCtr c i
    s).chan = s.chan ∧ (clearCtr c i s).store = s.store ∧ (clearCtr c i s).arrays = s.arrays ∧ (clearCtr c i s).beam
    = s.beam ∧ (clearCtr c i s).clasp = s.clasp ∧ (clearCtr c i s).facet = s.facet ∧ (clearCtr c i s).pack = s.pack
    ∧ (clearCtr c i s).out = s.out ∧ (clearCtr c i s).sched = s.sched ∧ (clearCtr c i s).peg = s.peg ∧ (clearCtr c i
    s).dram = s.dram ∧ (clearCtr c i s).host = s.host ∧ (clearCtr c i s).evr = s.evr ∧ (clearCtr c i s).tether =
    s.tether ∧ (clearCtr c i s).dma = s.dma ∧ (clearCtr c i s).boot = s.boot ∧ (clearCtr c i s).health = s.health ∧
    (clearCtr c i s).recorder = s.recorder ∧ (clearCtr c i s).twin = s.twin ∧ (clearCtr c i s).loads = s.loads ∧
    (clearCtr c i s).services = s.services ∧ (clearCtr c i s).reads = s.reads ∧ (clearCtr c i s).fresh = s.fresh ∧
    (clearCtr c i s).pending = s.pending := ⟨rfl, rfl, rfl, rfl, rfl, rfl, rfl, rfl, rfl, rfl, rfl, rfl, rfl, rfl, rfl, rfl, rfl, rfl, rfl, rfl, rfl, rfl, rfl, rfl, rfl, rfl, rfl, rfl, rfl, rfl⟩

@[simp] theorem elapse_fields (n : Nat) (s : State) :
    (elapse n s).power = s.power ∧ (elapse n s).dev = s.dev ∧ (elapse n s).compass = s.compass ∧ (elapse n s).lanes
    = s.lanes ∧ (elapse n s).ingest = s.ingest ∧ (elapse n s).chan = s.chan ∧ (elapse n s).store = s.store ∧ (elapse
    n s).arrays = s.arrays ∧ (elapse n s).beam = s.beam ∧ (elapse n s).clasp = s.clasp ∧ (elapse n s).facet =
    s.facet ∧ (elapse n s).pack = s.pack ∧ (elapse n s).out = s.out ∧ (elapse n s).sched = s.sched ∧ (elapse n
    s).peg = s.peg ∧ (elapse n s).dram = s.dram ∧ (elapse n s).host = s.host ∧ (elapse n s).evr = s.evr ∧ (elapse n
    s).tether = s.tether ∧ (elapse n s).dma = s.dma ∧ (elapse n s).boot = s.boot ∧ (elapse n s).health = s.health ∧
    (elapse n s).twin = s.twin ∧ (elapse n s).loads = s.loads ∧ (elapse n s).services = s.services ∧ (elapse n
    s).reads = s.reads ∧ (elapse n s).counters = s.counters ∧ (elapse n s).fresh = s.fresh ∧ (elapse n s).pending =
    s.pending := ⟨rfl, rfl, rfl, rfl, rfl, rfl, rfl, rfl, rfl, rfl, rfl, rfl, rfl, rfl, rfl, rfl, rfl, rfl, rfl, rfl, rfl, rfl, rfl, rfl, rfl, rfl, rfl, rfl, rfl⟩

@[simp] theorem elapseTo_fields (n : Nat) (s : State) :
    (elapseTo n s).power = s.power ∧ (elapseTo n s).dev = s.dev ∧ (elapseTo n s).compass = s.compass ∧ (elapseTo n
    s).lanes = s.lanes ∧ (elapseTo n s).ingest = s.ingest ∧ (elapseTo n s).chan = s.chan ∧ (elapseTo n s).store =
    s.store ∧ (elapseTo n s).arrays = s.arrays ∧ (elapseTo n s).beam = s.beam ∧ (elapseTo n s).clasp = s.clasp ∧
    (elapseTo n s).facet = s.facet ∧ (elapseTo n s).pack = s.pack ∧ (elapseTo n s).out = s.out ∧ (elapseTo n
    s).sched = s.sched ∧ (elapseTo n s).peg = s.peg ∧ (elapseTo n s).dram = s.dram ∧ (elapseTo n s).host = s.host ∧
    (elapseTo n s).evr = s.evr ∧ (elapseTo n s).tether = s.tether ∧ (elapseTo n s).dma = s.dma ∧ (elapseTo n s).boot
    = s.boot ∧ (elapseTo n s).health = s.health ∧ (elapseTo n s).twin = s.twin ∧ (elapseTo n s).loads = s.loads ∧
    (elapseTo n s).services = s.services ∧ (elapseTo n s).reads = s.reads ∧ (elapseTo n s).counters = s.counters ∧
    (elapseTo n s).fresh = s.fresh ∧ (elapseTo n s).pending = s.pending := ⟨rfl, rfl, rfl, rfl, rfl, rfl, rfl, rfl, rfl, rfl, rfl, rfl, rfl, rfl, rfl, rfl, rfl, rfl, rfl, rfl, rfl, rfl, rfl, rfl, rfl, rfl, rfl, rfl, rfl⟩

@[simp] theorem sendMessage_fields (c : Nat) (s : State) :
    (sendMessage c s).power = s.power ∧ (sendMessage c s).dev = s.dev ∧ (sendMessage c s).time = s.time ∧
    (sendMessage c s).compass = s.compass ∧ (sendMessage c s).lanes = s.lanes ∧ (sendMessage c s).ingest = s.ingest
    ∧ (sendMessage c s).chan = s.chan ∧ (sendMessage c s).store = s.store ∧ (sendMessage c s).arrays = s.arrays ∧
    (sendMessage c s).beam = s.beam ∧ (sendMessage c s).clasp = s.clasp ∧ (sendMessage c s).facet = s.facet ∧
    (sendMessage c s).pack = s.pack ∧ (sendMessage c s).out = s.out ∧ (sendMessage c s).sched = s.sched ∧
    (sendMessage c s).peg = s.peg ∧ (sendMessage c s).dram = s.dram ∧ (sendMessage c s).evr = s.evr ∧ (sendMessage c
    s).tether = s.tether ∧ (sendMessage c s).dma = s.dma ∧ (sendMessage c s).boot = s.boot ∧ (sendMessage c
    s).health = s.health ∧ (sendMessage c s).recorder = s.recorder ∧ (sendMessage c s).twin = s.twin ∧ (sendMessage
    c s).loads = s.loads ∧ (sendMessage c s).services = s.services ∧ (sendMessage c s).reads = s.reads ∧
    (sendMessage c s).counters = s.counters ∧ (sendMessage c s).fresh = s.fresh ∧ (sendMessage c s).pending =
    s.pending := ⟨rfl, rfl, rfl, rfl, rfl, rfl, rfl, rfl, rfl, rfl, rfl, rfl, rfl, rfl, rfl, rfl, rfl, rfl, rfl, rfl, rfl, rfl, rfl, rfl, rfl, rfl, rfl, rfl, rfl, rfl⟩

/-- An interrupt touches the host interface alone (R358). -/
theorem interrupt_host (c : Nat) (s : State) : ∃ h, interrupt c s = { s with host := h } := by
  unfold interrupt sendMessage modCause; dsimp only
  (repeat' split) <;> exact ⟨_, rfl⟩
@[simp] theorem interrupt_fields (c : Nat) (s : State) :
    (interrupt c s).power = s.power ∧ (interrupt c s).dev = s.dev ∧ (interrupt c s).time = s.time ∧ (interrupt c
    s).compass = s.compass ∧ (interrupt c s).lanes = s.lanes ∧ (interrupt c s).ingest = s.ingest ∧ (interrupt c
    s).chan = s.chan ∧ (interrupt c s).store = s.store ∧ (interrupt c s).arrays = s.arrays ∧ (interrupt c s).beam =
    s.beam ∧ (interrupt c s).clasp = s.clasp ∧ (interrupt c s).facet = s.facet ∧ (interrupt c s).pack = s.pack ∧
    (interrupt c s).out = s.out ∧ (interrupt c s).sched = s.sched ∧ (interrupt c s).peg = s.peg ∧ (interrupt c
    s).dram = s.dram ∧ (interrupt c s).evr = s.evr ∧ (interrupt c s).tether = s.tether ∧ (interrupt c s).dma = s.dma
    ∧ (interrupt c s).boot = s.boot ∧ (interrupt c s).health = s.health ∧ (interrupt c s).recorder = s.recorder ∧
    (interrupt c s).twin = s.twin ∧ (interrupt c s).loads = s.loads ∧ (interrupt c s).services = s.services ∧
    (interrupt c s).reads = s.reads ∧ (interrupt c s).counters = s.counters ∧ (interrupt c s).fresh = s.fresh ∧
    (interrupt c s).pending = s.pending := by
  obtain ⟨x, e⟩ := interrupt_host c s; rw [e]
  exact ⟨rfl, rfl, rfl, rfl, rfl, rfl, rfl, rfl, rfl, rfl, rfl, rfl, rfl, rfl, rfl, rfl, rfl, rfl, rfl, rfl, rfl, rfl, rfl, rfl, rfl, rfl, rfl, rfl, rfl, rfl⟩

@[simp] theorem raiseEvent_fields (g c r : Nat) (a e : Bool) (m : Int) (l : List Byte) (s : State) :
    (raiseEvent g c r a e m l s).power = s.power ∧ (raiseEvent g c r a e m l s).dev = s.dev ∧ (raiseEvent g c r a e
    m l s).time = s.time ∧ (raiseEvent g c r a e m l s).compass = s.compass ∧ (raiseEvent g c r a e m l s).lanes =
    s.lanes ∧ (raiseEvent g c r a e m l s).ingest = s.ingest ∧ (raiseEvent g c r a e m l s).chan = s.chan ∧
    (raiseEvent g c r a e m l s).store = s.store ∧ (raiseEvent g c r a e m l s).arrays = s.arrays ∧ (raiseEvent g c
    r a e m l s).beam = s.beam ∧ (raiseEvent g c r a e m l s).clasp = s.clasp ∧ (raiseEvent g c r a e m l s).facet =
    s.facet ∧ (raiseEvent g c r a e m l s).pack = s.pack ∧ (raiseEvent g c r a e m l s).out = s.out ∧ (raiseEvent g
    c r a e m l s).sched = s.sched ∧ (raiseEvent g c r a e m l s).peg = s.peg ∧ (raiseEvent g c r a e m l s).dram =
    s.dram ∧ (raiseEvent g c r a e m l s).host = s.host ∧ (raiseEvent g c r a e m l s).tether = s.tether ∧
    (raiseEvent g c r a e m l s).dma = s.dma ∧ (raiseEvent g c r a e m l s).boot = s.boot ∧ (raiseEvent g c r a e m
    l s).health = s.health ∧ (raiseEvent g c r a e m l s).twin = s.twin ∧ (raiseEvent g c r a e m l s).loads =
    s.loads ∧ (raiseEvent g c r a e m l s).services = s.services ∧ (raiseEvent g c r a e m l s).reads = s.reads ∧
    (raiseEvent g c r a e m l s).fresh = s.fresh ∧ (raiseEvent g c r a e m l s).pending = s.pending := ⟨rfl, rfl, rfl, rfl, rfl, rfl, rfl, rfl, rfl, rfl, rfl, rfl, rfl, rfl, rfl, rfl, rfl, rfl, rfl, rfl, rfl, rfl, rfl, rfl, rfl, rfl, rfl, rfl⟩

@[simp] theorem raise_fields (c r : Nat) (m : Int) (l : List Int) (s : State) :
    (raise c r m l s).power = s.power ∧ (raise c r m l s).dev = s.dev ∧ (raise c r m l s).time = s.time ∧ (raise c r
    m l s).compass = s.compass ∧ (raise c r m l s).lanes = s.lanes ∧ (raise c r m l s).ingest = s.ingest ∧ (raise c
    r m l s).chan = s.chan ∧ (raise c r m l s).store = s.store ∧ (raise c r m l s).arrays = s.arrays ∧ (raise c r m
    l s).beam = s.beam ∧ (raise c r m l s).clasp = s.clasp ∧ (raise c r m l s).facet = s.facet ∧ (raise c r m l
    s).pack = s.pack ∧ (raise c r m l s).out = s.out ∧ (raise c r m l s).sched = s.sched ∧ (raise c r m l s).peg =
    s.peg ∧ (raise c r m l s).dram = s.dram ∧ (raise c r m l s).host = s.host ∧ (raise c r m l s).tether = s.tether
    ∧ (raise c r m l s).dma = s.dma ∧ (raise c r m l s).boot = s.boot ∧ (raise c r m l s).health = s.health ∧ (raise
    c r m l s).twin = s.twin ∧ (raise c r m l s).loads = s.loads ∧ (raise c r m l s).services = s.services ∧ (raise
    c r m l s).reads = s.reads ∧ (raise c r m l s).fresh = s.fresh ∧ (raise c r m l s).pending = s.pending := ⟨rfl, rfl, rfl, rfl, rfl, rfl, rfl, rfl, rfl, rfl, rfl, rfl, rfl, rfl, rfl, rfl, rfl, rfl, rfl, rfl, rfl, rfl, rfl, rfl, rfl, rfl, rfl, rfl⟩

@[simp] theorem complete_fields (c r o : Nat) (q : Request) (n : Nat) (st : Status) (b d : Nat) (e : List Byte) (s : State) :
    (complete c r o q n st b d e s).power = s.power ∧ (complete c r o q n st b d e s).dev = s.dev ∧ (complete c r o
    q n st b d e s).time = s.time ∧ (complete c r o q n st b d e s).compass = s.compass ∧ (complete c r o q n st b d
    e s).lanes = s.lanes ∧ (complete c r o q n st b d e s).ingest = s.ingest ∧ (complete c r o q n st b d e s).chan
    = s.chan ∧ (complete c r o q n st b d e s).store = s.store ∧ (complete c r o q n st b d e s).arrays = s.arrays ∧
    (complete c r o q n st b d e s).beam = s.beam ∧ (complete c r o q n st b d e s).clasp = s.clasp ∧ (complete c r
    o q n st b d e s).facet = s.facet ∧ (complete c r o q n st b d e s).pack = s.pack ∧ (complete c r o q n st b d e
    s).out = s.out ∧ (complete c r o q n st b d e s).sched = s.sched ∧ (complete c r o q n st b d e s).peg = s.peg ∧
    (complete c r o q n st b d e s).dram = s.dram ∧ (complete c r o q n st b d e s).host = s.host ∧ (complete c r o
    q n st b d e s).tether = s.tether ∧ (complete c r o q n st b d e s).dma = s.dma ∧ (complete c r o q n st b d e
    s).boot = s.boot ∧ (complete c r o q n st b d e s).health = s.health ∧ (complete c r o q n st b d e s).twin =
    s.twin ∧ (complete c r o q n st b d e s).loads = s.loads ∧ (complete c r o q n st b d e s).services = s.services
    ∧ (complete c r o q n st b d e s).reads = s.reads ∧ (complete c r o q n st b d e s).fresh = s.fresh ∧ (complete
    c r o q n st b d e s).pending = s.pending := ⟨rfl, rfl, rfl, rfl, rfl, rfl, rfl, rfl, rfl, rfl, rfl, rfl, rfl, rfl, rfl, rfl, rfl, rfl, rfl, rfl, rfl, rfl, rfl, rfl, rfl, rfl, rfl, rfl⟩

/-- A response touches the host interface and, with NOTIFY, the event ring and the recorder's counts (R351, R369). -/
theorem respond_touches (o : Nat) (q : Request) (st : Status) (d n : Nat) (l : List Byte) (s : State) :
    ∃ x y z w, respond o q st d n l s = { s with host := x, evr := y, recorder := z, counters := w } := by
  unfold respond; dsimp only
  have k := interrupt_host 0 (modSlot q.slot.toNat (fun x => { x with
    state := .done, response := some { opcode := BitVec.ofNat 16 o, status := st, tag := q.tag, txnId := n, detail := d,
                                       frame := s.time.frame, result := l } }) { s with host.active := none, host.sample := none })
  obtain ⟨h, e⟩ := k
  rw [e]
  (repeat' split) <;> exact ⟨_, _, _, _, rfl⟩
@[simp] theorem respond_fields (o : Nat) (q : Request) (st : Status) (d n : Nat) (l : List Byte) (s : State) :
    (respond o q st d n l s).power = s.power ∧ (respond o q st d n l s).dev = s.dev ∧ (respond o q st d n l s).time
    = s.time ∧ (respond o q st d n l s).compass = s.compass ∧ (respond o q st d n l s).lanes = s.lanes ∧ (respond o
    q st d n l s).ingest = s.ingest ∧ (respond o q st d n l s).chan = s.chan ∧ (respond o q st d n l s).store =
    s.store ∧ (respond o q st d n l s).arrays = s.arrays ∧ (respond o q st d n l s).beam = s.beam ∧ (respond o q st
    d n l s).clasp = s.clasp ∧ (respond o q st d n l s).facet = s.facet ∧ (respond o q st d n l s).pack = s.pack ∧
    (respond o q st d n l s).out = s.out ∧ (respond o q st d n l s).sched = s.sched ∧ (respond o q st d n l s).peg =
    s.peg ∧ (respond o q st d n l s).dram = s.dram ∧ (respond o q st d n l s).tether = s.tether ∧ (respond o q st d
    n l s).dma = s.dma ∧ (respond o q st d n l s).boot = s.boot ∧ (respond o q st d n l s).health = s.health ∧
    (respond o q st d n l s).twin = s.twin ∧ (respond o q st d n l s).loads = s.loads ∧ (respond o q st d n l
    s).services = s.services ∧ (respond o q st d n l s).reads = s.reads ∧ (respond o q st d n l s).fresh = s.fresh ∧
    (respond o q st d n l s).pending = s.pending := by
  obtain ⟨x, y, z, w, e⟩ := respond_touches o q st d n l s; rw [e]
  exact ⟨rfl, rfl, rfl, rfl, rfl, rfl, rfl, rfl, rfl, rfl, rfl, rfl, rfl, rfl, rfl, rfl, rfl, rfl, rfl, rfl, rfl, rfl, rfl, rfl, rfl, rfl, rfl⟩

@[simp] theorem settle_fields (c : Instr) (q : Request) (s : State) :
    (settle c q s).power = s.power ∧ (settle c q s).dev = s.dev ∧ (settle c q s).time = s.time ∧ (settle c q
    s).compass = s.compass ∧ (settle c q s).lanes = s.lanes ∧ (settle c q s).ingest = s.ingest ∧ (settle c q s).chan
    = s.chan ∧ (settle c q s).store = s.store ∧ (settle c q s).arrays = s.arrays ∧ (settle c q s).beam = s.beam ∧
    (settle c q s).clasp = s.clasp ∧ (settle c q s).facet = s.facet ∧ (settle c q s).pack = s.pack ∧ (settle c q
    s).out = s.out ∧ (settle c q s).sched = s.sched ∧ (settle c q s).peg = s.peg ∧ (settle c q s).dram = s.dram ∧
    (settle c q s).evr = s.evr ∧ (settle c q s).tether = s.tether ∧ (settle c q s).dma = s.dma ∧ (settle c q s).boot
    = s.boot ∧ (settle c q s).health = s.health ∧ (settle c q s).recorder = s.recorder ∧ (settle c q s).twin =
    s.twin ∧ (settle c q s).loads = s.loads ∧ (settle c q s).services = s.services ∧ (settle c q s).reads = s.reads
    ∧ (settle c q s).counters = s.counters ∧ (settle c q s).fresh = s.fresh ∧ (settle c q s).pending = s.pending := ⟨rfl, rfl, rfl, rfl, rfl, rfl, rfl, rfl, rfl, rfl, rfl, rfl, rfl, rfl, rfl, rfl, rfl, rfl, rfl, rfl, rfl, rfl, rfl, rfl, rfl, rfl, rfl, rfl, rfl, rfl⟩

@[simp] theorem finish_fields (c : Instr) (o : Nat) (q : Request) (st : Status) (b d : Nat) (e : List Byte) (s : State) :
    (finish c o q st b d e s).power = s.power ∧ (finish c o q st b d e s).dev = s.dev ∧ (finish c o q st b d e
    s).time = s.time ∧ (finish c o q st b d e s).compass = s.compass ∧ (finish c o q st b d e s).lanes = s.lanes ∧
    (finish c o q st b d e s).ingest = s.ingest ∧ (finish c o q st b d e s).chan = s.chan ∧ (finish c o q st b d e
    s).store = s.store ∧ (finish c o q st b d e s).arrays = s.arrays ∧ (finish c o q st b d e s).beam = s.beam ∧
    (finish c o q st b d e s).clasp = s.clasp ∧ (finish c o q st b d e s).facet = s.facet ∧ (finish c o q st b d e
    s).pack = s.pack ∧ (finish c o q st b d e s).out = s.out ∧ (finish c o q st b d e s).sched = s.sched ∧ (finish c
    o q st b d e s).peg = s.peg ∧ (finish c o q st b d e s).dram = s.dram ∧ (finish c o q st b d e s).tether =
    s.tether ∧ (finish c o q st b d e s).dma = s.dma ∧ (finish c o q st b d e s).boot = s.boot ∧ (finish c o q st b
    d e s).health = s.health ∧ (finish c o q st b d e s).twin = s.twin ∧ (finish c o q st b d e s).loads = s.loads ∧
    (finish c o q st b d e s).services = s.services ∧ (finish c o q st b d e s).reads = s.reads ∧ (finish c o q st b
    d e s).fresh = s.fresh ∧ (finish c o q st b d e s).pending = s.pending := ⟨rfl, rfl, rfl, rfl, rfl, rfl, rfl, rfl, rfl, rfl, rfl, rfl, rfl, rfl, rfl, rfl, rfl, rfl, rfl, rfl, rfl, rfl, rfl, rfl, rfl, rfl, rfl⟩

@[simp] theorem owe_fields (c : Instr) (q : Request) (s : State) :
    (owe c q s).power = s.power ∧ (owe c q s).dev = s.dev ∧ (owe c q s).time = s.time ∧ (owe c q s).compass =
    s.compass ∧ (owe c q s).lanes = s.lanes ∧ (owe c q s).ingest = s.ingest ∧ (owe c q s).chan = s.chan ∧ (owe c q
    s).store = s.store ∧ (owe c q s).arrays = s.arrays ∧ (owe c q s).beam = s.beam ∧ (owe c q s).clasp = s.clasp ∧
    (owe c q s).facet = s.facet ∧ (owe c q s).pack = s.pack ∧ (owe c q s).out = s.out ∧ (owe c q s).sched = s.sched
    ∧ (owe c q s).peg = s.peg ∧ (owe c q s).dram = s.dram ∧ (owe c q s).evr = s.evr ∧ (owe c q s).tether = s.tether
    ∧ (owe c q s).dma = s.dma ∧ (owe c q s).boot = s.boot ∧ (owe c q s).health = s.health ∧ (owe c q s).recorder =
    s.recorder ∧ (owe c q s).twin = s.twin ∧ (owe c q s).loads = s.loads ∧ (owe c q s).services = s.services ∧ (owe
    c q s).reads = s.reads ∧ (owe c q s).counters = s.counters ∧ (owe c q s).fresh = s.fresh ∧ (owe c q s).pending =
    s.pending := ⟨rfl, rfl, rfl, rfl, rfl, rfl, rfl, rfl, rfl, rfl, rfl, rfl, rfl, rfl, rfl, rfl, rfl, rfl, rfl, rfl, rfl, rfl, rfl, rfl, rfl, rfl, rfl, rfl, rfl, rfl⟩

@[simp] theorem stage_fields (k : Spec) (c : Instr) (b : List Byte) (s : State) :
    (stage k c b s).power = s.power ∧ (stage k c b s).dev = s.dev ∧ (stage k c b s).time = s.time ∧ (stage k c b
    s).compass = s.compass ∧ (stage k c b s).lanes = s.lanes ∧ (stage k c b s).ingest = s.ingest ∧ (stage k c b
    s).chan = s.chan ∧ (stage k c b s).store = s.store ∧ (stage k c b s).arrays = s.arrays ∧ (stage k c b s).beam =
    s.beam ∧ (stage k c b s).clasp = s.clasp ∧ (stage k c b s).facet = s.facet ∧ (stage k c b s).pack = s.pack ∧
    (stage k c b s).out = s.out ∧ (stage k c b s).peg = s.peg ∧ (stage k c b s).dram = s.dram ∧ (stage k c b s).host
    = s.host ∧ (stage k c b s).evr = s.evr ∧ (stage k c b s).tether = s.tether ∧ (stage k c b s).dma = s.dma ∧
    (stage k c b s).boot = s.boot ∧ (stage k c b s).health = s.health ∧ (stage k c b s).recorder = s.recorder ∧
    (stage k c b s).twin = s.twin ∧ (stage k c b s).loads = s.loads ∧ (stage k c b s).services = s.services ∧ (stage
    k c b s).reads = s.reads ∧ (stage k c b s).counters = s.counters ∧ (stage k c b s).fresh = s.fresh ∧ (stage k c
    b s).pending = s.pending := ⟨rfl, rfl, rfl, rfl, rfl, rfl, rfl, rfl, rfl, rfl, rfl, rfl, rfl, rfl, rfl, rfl, rfl, rfl, rfl, rfl, rfl, rfl, rfl, rfl, rfl, rfl, rfl, rfl, rfl, rfl⟩

@[simp] theorem touchTxn_fields (k : Spec) (q : Request) (s : State) :
    (touchTxn k q s).power = s.power ∧ (touchTxn k q s).dev = s.dev ∧ (touchTxn k q s).time = s.time ∧ (touchTxn k q
    s).compass = s.compass ∧ (touchTxn k q s).lanes = s.lanes ∧ (touchTxn k q s).ingest = s.ingest ∧ (touchTxn k q
    s).chan = s.chan ∧ (touchTxn k q s).store = s.store ∧ (touchTxn k q s).arrays = s.arrays ∧ (touchTxn k q s).beam
    = s.beam ∧ (touchTxn k q s).clasp = s.clasp ∧ (touchTxn k q s).facet = s.facet ∧ (touchTxn k q s).pack = s.pack
    ∧ (touchTxn k q s).out = s.out ∧ (touchTxn k q s).peg = s.peg ∧ (touchTxn k q s).dram = s.dram ∧ (touchTxn k q
    s).host = s.host ∧ (touchTxn k q s).evr = s.evr ∧ (touchTxn k q s).tether = s.tether ∧ (touchTxn k q s).dma =
    s.dma ∧ (touchTxn k q s).boot = s.boot ∧ (touchTxn k q s).health = s.health ∧ (touchTxn k q s).recorder =
    s.recorder ∧ (touchTxn k q s).twin = s.twin ∧ (touchTxn k q s).loads = s.loads ∧ (touchTxn k q s).services =
    s.services ∧ (touchTxn k q s).reads = s.reads ∧ (touchTxn k q s).counters = s.counters ∧ (touchTxn k q s).fresh
    = s.fresh ∧ (touchTxn k q s).pending = s.pending := ⟨rfl, rfl, rfl, rfl, rfl, rfl, rfl, rfl, rfl, rfl, rfl, rfl, rfl, rfl, rfl, rfl, rfl, rfl, rfl, rfl, rfl, rfl, rfl, rfl, rfl, rfl, rfl, rfl, rfl, rfl⟩

@[simp] theorem setAlarm_fields (c i : Nat) (b : Bool) (s : State) :
    (setAlarm c i b s).power = s.power ∧ (setAlarm c i b s).dev = s.dev ∧ (setAlarm c i b s).time = s.time ∧
    (setAlarm c i b s).compass = s.compass ∧ (setAlarm c i b s).lanes = s.lanes ∧ (setAlarm c i b s).ingest =
    s.ingest ∧ (setAlarm c i b s).chan = s.chan ∧ (setAlarm c i b s).store = s.store ∧ (setAlarm c i b s).arrays =
    s.arrays ∧ (setAlarm c i b s).beam = s.beam ∧ (setAlarm c i b s).clasp = s.clasp ∧ (setAlarm c i b s).facet =
    s.facet ∧ (setAlarm c i b s).pack = s.pack ∧ (setAlarm c i b s).out = s.out ∧ (setAlarm c i b s).sched = s.sched
    ∧ (setAlarm c i b s).peg = s.peg ∧ (setAlarm c i b s).dram = s.dram ∧ (setAlarm c i b s).host = s.host ∧
    (setAlarm c i b s).evr = s.evr ∧ (setAlarm c i b s).tether = s.tether ∧ (setAlarm c i b s).dma = s.dma ∧
    (setAlarm c i b s).boot = s.boot ∧ (setAlarm c i b s).recorder = s.recorder ∧ (setAlarm c i b s).twin = s.twin ∧
    (setAlarm c i b s).loads = s.loads ∧ (setAlarm c i b s).services = s.services ∧ (setAlarm c i b s).reads =
    s.reads ∧ (setAlarm c i b s).counters = s.counters ∧ (setAlarm c i b s).fresh = s.fresh ∧ (setAlarm c i b
    s).pending = s.pending := ⟨rfl, rfl, rfl, rfl, rfl, rfl, rfl, rfl, rfl, rfl, rfl, rfl, rfl, rfl, rfl, rfl, rfl, rfl, rfl, rfl, rfl, rfl, rfl, rfl, rfl, rfl, rfl, rfl, rfl, rfl⟩

@[simp] theorem setCause_fields (c : Cause) (b : Bool) (s : State) :
    (setCause c b s).power = s.power ∧ (setCause c b s).time = s.time ∧ (setCause c b s).compass = s.compass ∧
    (setCause c b s).lanes = s.lanes ∧ (setCause c b s).ingest = s.ingest ∧ (setCause c b s).chan = s.chan ∧
    (setCause c b s).store = s.store ∧ (setCause c b s).arrays = s.arrays ∧ (setCause c b s).beam = s.beam ∧
    (setCause c b s).clasp = s.clasp ∧ (setCause c b s).facet = s.facet ∧ (setCause c b s).pack = s.pack ∧ (setCause
    c b s).out = s.out ∧ (setCause c b s).sched = s.sched ∧ (setCause c b s).peg = s.peg ∧ (setCause c b s).dram =
    s.dram ∧ (setCause c b s).host = s.host ∧ (setCause c b s).evr = s.evr ∧ (setCause c b s).tether = s.tether ∧
    (setCause c b s).dma = s.dma ∧ (setCause c b s).boot = s.boot ∧ (setCause c b s).health = s.health ∧ (setCause c
    b s).recorder = s.recorder ∧ (setCause c b s).twin = s.twin ∧ (setCause c b s).loads = s.loads ∧ (setCause c b
    s).services = s.services ∧ (setCause c b s).reads = s.reads ∧ (setCause c b s).counters = s.counters ∧ (setCause
    c b s).fresh = s.fresh ∧ (setCause c b s).pending = s.pending := ⟨rfl, rfl, rfl, rfl, rfl, rfl, rfl, rfl, rfl, rfl, rfl, rfl, rfl, rfl, rfl, rfl, rfl, rfl, rfl, rfl, rfl, rfl, rfl, rfl, rfl, rfl, rfl, rfl, rfl, rfl⟩

@[simp] theorem setTrigger_fields (k : Nat) (x : Option Trigger) (s : State) :
    (setTrigger k x s).power = s.power ∧ (setTrigger k x s).dev = s.dev ∧ (setTrigger k x s).time = s.time ∧
    (setTrigger k x s).lanes = s.lanes ∧ (setTrigger k x s).ingest = s.ingest ∧ (setTrigger k x s).chan = s.chan ∧
    (setTrigger k x s).store = s.store ∧ (setTrigger k x s).arrays = s.arrays ∧ (setTrigger k x s).beam = s.beam ∧
    (setTrigger k x s).clasp = s.clasp ∧ (setTrigger k x s).facet = s.facet ∧ (setTrigger k x s).pack = s.pack ∧
    (setTrigger k x s).out = s.out ∧ (setTrigger k x s).sched = s.sched ∧ (setTrigger k x s).peg = s.peg ∧
    (setTrigger k x s).dram = s.dram ∧ (setTrigger k x s).host = s.host ∧ (setTrigger k x s).evr = s.evr ∧
    (setTrigger k x s).tether = s.tether ∧ (setTrigger k x s).dma = s.dma ∧ (setTrigger k x s).boot = s.boot ∧
    (setTrigger k x s).health = s.health ∧ (setTrigger k x s).recorder = s.recorder ∧ (setTrigger k x s).twin =
    s.twin ∧ (setTrigger k x s).loads = s.loads ∧ (setTrigger k x s).services = s.services ∧ (setTrigger k x
    s).reads = s.reads ∧ (setTrigger k x s).counters = s.counters ∧ (setTrigger k x s).fresh = s.fresh ∧ (setTrigger
    k x s).pending = s.pending := ⟨rfl, rfl, rfl, rfl, rfl, rfl, rfl, rfl, rfl, rfl, rfl, rfl, rfl, rfl, rfl, rfl, rfl, rfl, rfl, rfl, rfl, rfl, rfl, rfl, rfl, rfl, rfl, rfl, rfl, rfl⟩

/-! Counters. -/

@[simp] theorem counter_count (c : Ctr) (i : Nat) (s : State) : counter c i (count c i s) = counter c i s + 1 := by
  simp only [counter, count, countN, tabGet_tabMod_same]
@[simp] theorem counter_countN (c : Ctr) (i n : Nat) (s : State) : counter c i (countN c i n s) = counter c i s + n := by
  simp only [counter, countN, tabGet_tabMod_same]
@[simp] theorem counter_clearCtr (c : Ctr) (i : Nat) (s : State) : counter c i (clearCtr c i s) = 0 := by
  simp only [counter, clearCtr, tabGet_tabSet_same]

end Sys2Proof.Laws
end

