-- ==== Sys2Proof/Machine/Package.lean ====
section
/-! DEFINITION. Balls of the package, ratings, input levels and the lid's limit (chapter 22). -/

namespace Sys2Proof.Machine

/-- The 19 letters of ball rows (R469). -/
def rowLetters : List String :=
  ["A", "B", "C", "D", "E", "F", "G", "H", "J", "K", "L", "M", "N", "P", "T", "U", "V", "W", "Y"]

/-- Name of row `i`, from 0 at the edge of the I/O die's lanes: A to Y, AA to AY, BA to BY, CA to CY, DA to DD (R469). -/
def rowName (i : Nat) : String :=
  let last := rowLetters.getD (i % 19) ""
  if i < 19 then last else rowLetters.getD (i / 19 - 1) "" ++ last

/-- Signals of a lane. -/
inductive LaneSignal where
  | txp | txn | rxp | rxn
deriving DecidableEq, Repr

/-- Row of a lane's signal on quads Q00 to Q15, and on Q16 to Q31 (R471). -/
def laneRow (upper : Bool) : LaneSignal → String
  | .txp => if upper then "DC" else "B"
  | .txn => if upper then "DB" else "C"
  | .rxp => if upper then "CY" else "E"
  | .rxn => if upper then "CW" else "F"

/-- Row and column of a signal of lane `j` of quad `k` (R471). -/
def laneBall (k j : Nat) (sig : LaneSignal) : String × Nat := (laneRow (decide (16 ≤ k)) sig, 5 * (k % 16) + 1 + j)

/-- Ball of the central field is VIN12, else GND: the row's position, A being 1, plus the column is even (Table 22.2). -/
def centreIsVin12 (row column : Nat) : Bool := decide ((row + column) % 2 = 0)

/-- Groups of balls (Table 22.2). -/
inductive BallGroup where
  | lanes (quad : Nat) (place : Option (Nat × LaneSignal))
  | dram (channel : Nat)
  | pcie
  | timing
  | control
  | modules
  | vin12
  | gnd
deriving DecidableEq, Repr

/-- A ball of a lane range: the lane and signal it carries, or none where it is GND (R470, R471). -/
def lanePlace (upper : Bool) (row column : Nat) : Option (Nat × LaneSignal) :=
  let j := (column - 1) % 5
  if 4 ≤ j then none
  else ([.txp, .txn, .rxp, .rxn].find? (fun x => laneRow upper x = rowName (row - 1))).map (fun x => (j, x))

/-- Group of the ball in row position `row` and column `column`, both from 1 (R470, Table 22.2): the lanes' rows at the two edges, the
DRAM channels on the two flanks of rows J to CL, ten rows each, and the blocks between them. Which ball of a block carries which of its
signals the manual gives for lanes and the centre alone. -/
def ballGroup (row column : Nat) : BallGroup :=
  let upper := decide (73 ≤ row)
  if row ≤ 8 ∨ 73 ≤ row then .lanes ((column - 1) / 5 + (if upper then 16 else 0)) (lanePlace upper row column)
  else if column ≤ 20 ∨ 61 ≤ column then
    if 69 ≤ row then .gnd else .dram ((row - 9) / 10 + (if 61 ≤ column then 6 else 0))
  else if row ≤ 13 then (if column ≤ 40 then .pcie else .timing)
  else if row ≤ 19 then .control
  else if 66 ≤ row then .modules
  else if column ≤ 25 ∨ 56 ≤ column then .gnd
  else if centreIsVin12 row column then .vin12
  else .gnd

/-! Ratings and pin classes (R477, R478). Voltages are in mV and temperatures in degC. -/

/-- Pins that Table 22.5 rates by voltage. -/
inductive RatedPin where
  | vin12 | logic33 | tolerant5 | analogue
deriving DecidableEq, Repr

/-- Absolute maximum range of a pin (Table 22.5). -/
def absoluteRange : RatedPin → Int × Int
  | .vin12 => (-500, 14000)
  | .logic33 => (-500, 3600)
  | .tolerant5 => (-500, 5500)
  | .analogue => (-500, 3600)

/-- A level beyond the absolute maximum ratings, which may damage the part whatever its state (R477). -/
def overstressed (p : RatedPin) (mv : Int) : Bool := !(decide ((absoluteRange p).1 ≤ mv) && decide (mv ≤ (absoluteRange p).2))

/-- Grades of the part (Table 22.6). -/
inductive PartGrade where
  | c | e
deriving DecidableEq, Repr

/-- Supply and junction lie in the operating conditions (Table 22.6), under which the other figures hold (R467, R477). -/
def operable (g : PartGrade) (vin12 ripple junction : Int) : Bool :=
  decide (11400 ≤ vin12 ∧ vin12 ≤ 12600) && decide (ripple ≤ 120) && decide (junction ≤ 100) &&
    decide ((if g = .c then 0 else -20) ≤ junction)

/-- Input classes whose levels Table 22.7 gives. -/
inductive InputClass where
  | pulse | lvcmos | tach
deriving DecidableEq, Repr

/-- What an input reads at a level: high from VIH on, low up to VIL, and between them, or where the table gives no VIL, neither is
stated (R478). -/
def inputReads : InputClass → Int → Option Bool
  | .pulse, mv => if 1200 ≤ mv then some true else if mv ≤ 600 then some false else none
  | .lvcmos, mv => if 2000 ≤ mv then some true else if mv ≤ 800 then some false else none
  | .tach, mv => if 2000 ≤ mv then some true else none

/-- Level of a pulse output of 50 Ω source: 3.3 V open circuit, half of it into 50 Ω; one at high impedance drives nothing (R317, R478). -/
def pulseLevel (driven high terminated : Bool) : Option Nat :=
  if !driven then none else some (if !high then 0 else if terminated then 1650 else 3300)

/-- Greatest lid temperature at `watts`, in 0.01 °C (R480). -/
def lidLimit (watts : Nat) : Nat := 10000 - 5 * watts

end Sys2Proof.Machine
end

