-- ==== Sys2Proof/Tests/Slice0.lean ====
section
/-! SUPPORT. Tests of the model. First the terms that `Instr.wf` refuses, one for each of its checks; then one-step tests on
values that the manual works out or states; then, for each statement with hypotheses, a witness: concrete states and operands
that meet the hypotheses of each of its clauses, at the boundary of a range where there is one. -/

set_option maxRecDepth 20000

namespace Sys2Proof.Tests
open Sys2Proof.Machine

/-! States and operands of the tests. -/

/-- READY, and otherwise as after reset. -/
def on : State := { State.reset with dev.state := .ready }
/-- OFF. -/
def off : State := { State.reset with dev.state := .off }
/-- A request with an argument. -/
def req (l : List Byte) : Request := { argLength := BitVec.ofNat 16 l.length, arg := l }
/-- An image with nothing in it. -/
def img : Image :=
  { identity := 1, throttle := false, direct := false, period := 1000, len := 4096, blocks := 1, wide := false, entries := 1,
    dmax := 0, parent := 0, channels := [0], items := [] }
/-- Its direct-route twin. -/
def imgDirect : Image := { img with direct := true }
/-- OBSERVING with a schedule. -/
def obs (i : Image) : State := { State.reset with dev.state := .observing, sched.running := some i }
/-- An event. -/
def ev (c : Bool) : Event :=
  { gts := 0, frame := 0, code := 4, source := 1, alarm := false, completion := c, afterLoss := false, payload := [] }
/-- Blocks of a frame: none. -/
def gul : GulFrame := { idle := 0, blocks := [] }
/-- A block of zeros after zeros. -/
def blk : GulBlock := { header := 2, payload := 0, before := 0 }
/-- Peg 255 issues. -/
def at255 : PegIssue := { peg := 255 }
/-- A descriptor of 64 bytes within DRAM. -/
def desc : Desc := { src := 0, dst := 4096, len := 64, srcSpace := 3, dstSpace := 3, tag := 0, req := req [] }
/-- A TWIN frame. -/
def twinMsg (l : List Byte) : TwinMessage :=
  { role := 1, piece := 0, epoch := 3, frame := 0, identity := 9, digest := 0, handoverFrame := 5, body := l }
/-- Quad 0 as given. -/
def withQuad (q : Quad) : State := { on with lanes.quads := [(0, q)] }
/-- Peg 0 as given. -/
def withPeg (g : Peg) : State := { on with peg.pegs := [(0, g)] }
/-- An item of a product. -/
def item : Item :=
  { ostream := 0, rtype := 1, gap := none, frame := 0, span := 1, firstCh := 0, chCount := 1, firstObj := 0, objCount := 1, sub := 0,
    flags := 0, expOff := 0, autoOff := 0, payload := [], counts := [] }
/-- A record. -/
def rec' : Rec :=
  { ostream := 0, seq := 0, header := List.replicate 64 0, payload := [], counts := [], gap := false, frame := 0, item := item,
    order := 0 }
/-! More states and operands of the witnesses. -/

/-- A command is the active request. -/
def active (c : Instr) (s : State) : State := { s with host.active := some (c, 0, false) }
/-- A request with an argument of 8 bytes, the first as given. -/
def arg8 (b : Byte) : Request := req (b :: List.replicate 7 0)
/-- A schedule item of a kind with zeros elsewhere. -/
def sItem (k : Nat) : SchedItem :=
  { kind := k, unit := 0, chan := 0, entry := 0, b8 := 0, b9 := 0, h10 := 0, b12 := 0, h12 := 0, h14 := 0, w8 := 0, w12 := 0 }
/-- Work of a kind. -/
def wk (k : Nat) : Work := { item := sItem k, block := 0, old := false }
/-- OBSERVING with one work item. -/
def working (i : Image) (w : Work) : State := { obs i with sched.work := [w] }
/-- A dump. -/
def dump : Dump :=
  { job := (0, 0), pos := 0, tile := 0, block := 0, index := 0, len := 256, frow := [], fcol := [], grow := [], gcol := [], last := true, rows := [] }
/-- A job. -/
def job : Job :=
  { frame := 0, number := 0, due := 0, kind := .store, array := 0, pos := 0, tile := 0, corrTile := 0, block := 0, ostream := 0 }
/-- A load that has its data at hand. -/
def load : Load :=
  { cmd := .claspTableLoad (req []), req := req [], bulkAt := 0, declared := 0, deflate := false
    limits := { declared := 0, opBytes := 0, ratio := 0 } }
/-- A request as bytes of kind 1 (host) or 2 (service region) with nothing else. -/
def bulkReq (kind : Byte) : Request := req (kind :: List.replicate 31 0)
/-- A request as 64 bytes of host memory at address 0. -/
def hostReq : Request := req ([1, 0, 0, 0, 64] ++ List.replicate 27 0)
/-- The event ring is enabled over an open window at 4096. -/
def ringOn : State :=
  { on with
    evr := { base := 4096, enable := true }, host.busMaster := true
    tether.windows := [(0, { base := 0, limit := 1048576, valid := true, write := true, read := true })] }
/-- A window with beams. -/
def buf : SegBuf := { pos := 0, set := 0, block := 0, m := 0, job := (0, 0), need := 1, rounds := 1 }
/-- An output stream. -/
def ostr : OStream := { beamPipe := false, engine := 0, ring := true, dest := 0, base := 0, planning := 0, next := 0 }
/-- A host ring. -/
def hring : HostRing := { dma := 0, log2 := 20, age := 4, base := 0 }
/-- Its record. -/
def recd : Rec :=
  { ostream := 0, seq := 0, header := [], payload := [], counts := [], gap := false, frame := 0, item := item, order := 0 }
/-- A transfer from a peg's own memory to its pitch's. -/
def xfer : Transfer := { src := 0, dst := 0x01000000, len := 4, interrupt := false, table := none, commit := false }
/-- A burst of the store. -/
def burst : DramReq := { cls := 0, addr := 0, kind := .store 0 0 [1] 50000000 }
/-- One DRAM channel of 1 GiB in use. -/
def dramOn : State := { on with dram.chans := [(0, { capGiB := 1, trained := true })] }
/-- Paired as follower, or as lead. -/
def pairedAs (l : Bool) : State := { on with twin.paired := true, twin.lead := l, twin.homeLead := true }
/-- Peg 255 has a register beyond 31, a pointer at the last word of its memory and one past it. -/
def busyPeg : Peg := { g := [(1, 32), (2, 0x80000000)], p := [(0, 0x3FFFC), (1, 0x40000), (2, 2)] }
/-- The state of peg 255 as given. -/
def pegState (g : Peg) : State := { on with peg.pegs := [(255, g)] }
/-- Quad 31 in a state of a GUL link of one lane. -/
def gulQuad (st : LinkState) (l : Lane) : State :=
  { on with lanes.quads := [(31, { mode := .gul, state := st, width := 1, minWidth := 1, inUse := 1 })], lanes.lanes := [(124, l)] }
/-- A 64-byte frame with a UDP datagram of port 1000 to 2000, its FCS at its end. -/
def udpFrame : List Byte :=
  [2, 0, 0, 0, 0, 1, 2, 0, 0, 0, 0, 2, 8, 0, 69, 0, 0, 46, 0, 0, 0, 0, 64, 17, 0, 0, 10, 0, 0, 2, 10, 0, 0, 1, 3, 232, 7, 208,
   0, 26, 0, 0] ++ List.replicate 18 0 ++ [226, 229, 10, 104]
/-- One MiB of zeros. -/
@[irreducible] def mib : List Byte := List.replicate 1048576 0
theorem mib_length : mib.length = 1048576 := by rw [mib, List.length_replicate]
/-- A service encoding. -/
def service : ServiceOp := { cmd := .packEncode (req []), req := req [], source := [], dst := 0, dstLen := 0, dynamic := false }
/-- More words than fit a landing buffer beside a row of 256. -/
@[irreducible] def wide : List (Nat × Int × Int × Nat) := List.replicate 65281 (0, 0, 0, 0)
theorem wide_length : wide.length = 65281 := by rw [wide, List.length_replicate]
/-- More exceptions than the short list of a job holds. -/
@[irreducible] def bigExc : Tab Nat := List.replicate 4097 (0, 1)
theorem bigExc_length : bigExc.length = 4097 := by rw [bigExc, List.length_replicate]
/-- An image with one long accumulation of two blocks, and a job of it whose dump has arrived. -/
def imgLa : Image := { img with items := [{ sItem 7 with h10 := 2 }], entries := 2 }
def jobLa : Job := { job with kind := .longAcc, arrived := some dump, dumps := [(0, 0, 256), (0, 1, 256)] }
def laState (j : Job) (l : Option La) : State := { obs imgLa with clasp.jobs := [j], clasp.las := [(laKey j, l)] }
def planeState : State :=
  { obs img with arrays := [(0, { dumps := [{ dump with words := [(0, 0, 0, 0)] }] })], clasp.jobs := [{ job with owns := true, exc := bigExc }] }
/-! Ill-formed commands: one for each check. -/

theorem wf_request : (Instr.sysInfo (req (List.replicate 4065 0))).wf = false := by decide
theorem wf_unknownOpcode : (Instr.unknownOpcode 0x0F01 (req [])).wf = false := by decide
theorem wf_mailbox_length : (Instr.mailboxRequestWrite 0 0 [1, 2, 3]).wf = false := by decide
theorem wf_controlOffset : (Instr.tetherControlWordWrite 0x1018 0).wf = false := by decide
theorem wf_tether_length : (Instr.tetherFieldWrite 0 [1, 2, 3]).wf = false := by decide
theorem wf_tether_align : (Instr.tetherFieldWrite 2 [1, 2, 3, 4]).wf = false := by decide
theorem wf_register_length : (Instr.registerWrite 0 0 []).wf = false := by decide
theorem wf_register_align : (Instr.registerWrite 0 0x1001 [1, 2]).wf = false := by decide
theorem wf_payload : (Instr.busMasterOrD3 true false { maxPayload := 3 } 0).wf = false := by decide
theorem wf_readRequest : (Instr.busMasterOrD3 true false { maxRead := 6 } 0).wf = false := by decide
theorem wf_completionError : (Instr.hostCompletionError 13 true).wf = false := by decide
theorem wf_coalesce : (Instr.interruptCoalesceTimeout 2).wf = false := by decide
theorem wf_gulBlocks : (Instr.gulFrameReceive 0 gul).wf = false := by decide
theorem wf_chunk_pos : (Instr.chunkRead ⟨false, 65536, 0, 0, 0⟩ []).wf = false := by decide
theorem wf_chunk_block : (Instr.chunkRead ⟨false, 0, 16, 0, 0⟩ []).wf = false := by decide
theorem wf_rfi : (Instr.rfiFlagWrite 0 65536 0).wf = false := by decide
theorem wf_pass_pos : (Instr.correlationPass 0 ⟨65536, 0, 0, 0, 0, false⟩ 0 []).wf = false := by decide
theorem wf_pass_tile : (Instr.correlationPass 0 ⟨0, 136, 0, 0, 0, false⟩ 0 []).wf = false := by decide
theorem wf_pass_log : (Instr.correlationPass 0 ⟨0, 0, 16, 0, 0, false⟩ 0 []).wf = false := by decide
theorem wf_pass_job : (Instr.correlationPass 0 ⟨0, 0, 0, 65536, 0, false⟩ 0 []).wf = false := by decide
theorem wf_pinStuck : (Instr.pinStuck 9).wf = false := by decide
theorem wf_pinRelease : (Instr.pinStuckRelease 9).wf = false := by decide
theorem wf_dramWrite : (Instr.dramWrite 12 0).wf = false := by decide
theorem wf_channelLost : (Instr.channelLost 12 .parity).wf = false := by decide
theorem wf_refresh : (Instr.refresh 12 0 false).wf = false := by decide
theorem wf_pageIdle : (Instr.pageIdleClose 12 0).wf = false := by decide
theorem wf_dimmTemp : (Instr.dimmTempPoll 12 false 0).wf = false := by decide
theorem wf_scrub : (Instr.patrolScrub [(0, 64)] []).wf = false := by decide
theorem wf_readClass_low : (Instr.dramRead 0 [] 1 false 0).wf = false := by decide
theorem wf_readClass_high : (Instr.dramRead 0 [] 5 false 0).wf = false := by decide
theorem wf_beats_low : (Instr.crossbarRequest 0 0 0 0 1 0 []).wf = false := by decide
theorem wf_beats_high : (Instr.crossbarRequest 0 0 0 0 8 5 []).wf = false := by decide
theorem wf_beats_few : (Instr.crossbarRequest 0 0 0 0 1 2 []).wf = false := by decide
theorem wf_beats_many : (Instr.crossbarRequest 0 0 0 0 65 1 []).wf = false := by decide
theorem wf_beats_data : (Instr.crossbarRequest 0 0 0 0 2 1 [0]).wf = false := by decide
theorem wf_boot_channels : (Instr.boot ⟨0, [], 0, List.replicate 120 ⟨[], [], 0⟩, 0, 0⟩).wf = false := by decide
theorem wf_boot_dimms : (Instr.boot ⟨0, List.replicate 12 [{}, {}, {}], 0, List.replicate 120 ⟨[], [], 0⟩, 0, 0⟩).wf = false := by
  decide
theorem wf_boot_lanes : (Instr.boot ⟨0, List.replicate 12 [], 0, [], 0, 0⟩).wf = false := by decide
theorem wf_retrain_lanes : (Instr.dramRetrainDone 0 []).wf = false := by decide
theorem wf_laDump : (Instr.laDump 0 true (some 8200)).wf = false := by decide
theorem wf_round_length : (Instr.adcRoundEnd []).wf = false := by decide
theorem wf_round_code : (Instr.adcRoundEnd (List.replicate 48 4096)).wf = false := by decide
theorem wf_inject : (Instr.adcInjectConversion 0 4096).wf = false := by decide
theorem wf_cal : (Instr.adcCalStepDone 1048321).wf = false := by decide
theorem wf_trip : (Instr.thermalTrip 24).wf = false := by decide
theorem wf_link_speed : (Instr.pcieLinkTrained 0 1).wf = false := by decide
theorem wf_link_speed_high : (Instr.pcieLinkTrained 6 1).wf = false := by decide
theorem wf_link_width : (Instr.pcieLinkTrained 1 3).wf = false := by decide
theorem wf_seg_arrays : (Instr.beamSegment ⟨0, 0, 0, 0, 0, 0, 0, false⟩ [] [] {}).wf = false := by decide
theorem wf_seg_pos : (Instr.beamSegment ⟨1, 65536, 0, 0, 0, 0, 0, false⟩ [] [] {}).wf = false := by decide
theorem wf_seg_set : (Instr.beamSegment ⟨1, 0, 4, 0, 0, 0, 0, false⟩ [] [] {}).wf = false := by decide
theorem wf_seg_job : (Instr.beamSegment ⟨1, 0, 0, 0, 0, 65536, 0, false⟩ [] [] {}).wf = false := by decide
theorem wf_seg_m : (Instr.beamSegment ⟨1, 0, 0, 0, 65536, 0, 0, false⟩ [] [] {}).wf = false := by decide
theorem wf_readout_pos : (Instr.segmentReadout 0 65536 0 0 false false).wf = false := by decide
theorem wf_readout_m : (Instr.segmentReadout 0 0 65536 0 false false).wf = false := by decide
theorem wf_noDmem : (Instr.pegNop { peg := 0, dmem := .corrected }).wf = false := by decide
theorem wf_xfer_src : (Instr.pegXfer { peg := 0 } 0 ⟨2 ^ 48, 0, 0, false, none, false⟩).wf = false := by decide
theorem wf_xfer_dst : (Instr.pegXfer { peg := 0 } 0 ⟨0, 2 ^ 48, 0, false, none, false⟩).wf = false := by decide
theorem wf_xfer_commit : (Instr.pegXfer { peg := 0 } 0 ⟨0, 0, 0, false, none, true⟩).wf = false := by decide
theorem wf_xferComplete : (Instr.xferComplete { peg := 0 } .ok (some 65537) false).wf = false := by decide
theorem wf_xferComplete_imem : (Instr.xferComplete { peg := 0, imem := .corrected } .ok none false).wf = false := by decide
theorem wf_fecCodeword : (Instr.fecCodeword 0 (.gul [0])).wf = false := by decide
theorem wf_recentre_lane : (Instr.recentre 120 0 0 0 none).wf = false := by decide
theorem wf_recentre_ue : (Instr.recentre 0 0 0 0 (some 1048576)).wf = false := by decide
theorem wf_second : (Instr.tb0Second [(7, 0)]).wf = false := by decide
theorem wf_ptp_domain : (Instr.ptpMessageReceive 0 256 (.sync 0 none)).wf = false := by decide
theorem wf_ptp_relay : (Instr.ptpRelayFrame false { bytes := [], ingress := 1, egress := 0 }).wf = false := by decide

/-! One step each, on values that the manual states or works out. -/

/-- The worked input of R441: AIN3 averages 161.25 and 3949.75, so C0 = 2580 and C1 = 63196; a raw 2050 reports 2042. -/
theorem test_calibrate_worked : calibrate (2580, 63196) 2050 = (2042, false) := by decide
/-- The same input: 4095.27 reports 4095 without OVR, 4096.35 with it (R441). -/
theorem test_calibrate_top : calibrate (2580, 63196) 3950 = (4095, false) ∧ calibrate (2580, 63196) 3951 = (4095, true) := by
  decide
/-- The CRC-32C check value of its polynomial, over the digits 1 to 9. -/
theorem test_crc32c : crc32c [0x31, 0x32, 0x33, 0x34, 0x35, 0x36, 0x37, 0x38, 0x39] = 0xE3069283 := by decide
/-- Ties go to even (R6). -/
theorem test_roundTe : roundTe 5 2 = 2 ∧ roundTe 7 2 = 4 ∧ roundTe (-5) 2 = -2 := by decide
/-- SYS.SAFE from READY asks for SAFE at the next tick (R19). -/
theorem test_safe : (askSafe on).dev.safeAt = some 7 := by decide
/-- Half the guard is 10 µs at T = 1 ms, in 125 ps (R308). -/
theorem test_halfGuard : halfGuard on = 80000 := by decide
/-- A doorbell to a free slot posts it, and the queue of posted slots names it (R349). -/
theorem test_doorbell : exec (.doorbell 0 3) on = .next (ringDoorbell 0 3 on) ∧ (slot (ringDoorbell 0 3 on) 3).state = .posted ∧
    (ringDoorbell 0 3 on).host.queue = [3] := ⟨rfl, by decide, by decide⟩
/-- Nothing is done in OFF (Table 1.4). -/
theorem test_off : exec .frameTick off = .next off := by simp [exec, execFrameTick, whenOn, off]

/-- The worked lane of R471: L020 transmits on B26 and C26 and receives on E26 and F26; J1 is DC0's, CH55 is VIN12 or GND by parity. -/
theorem test_balls : ballGroup 2 26 = .lanes 5 (some (0, .txp)) ∧ ballGroup 3 26 = .lanes 5 (some (0, .txn)) ∧
    ballGroup 5 26 = .lanes 5 (some (0, .rxp)) ∧ ballGroup 6 26 = .lanes 5 (some (0, .rxn)) ∧ ballGroup 1 26 = .lanes 5 none ∧
    ballGroup 9 1 = .dram 0 ∧ ballGroup 68 80 = .dram 11 ∧ ballGroup 65 55 = .vin12 ∧ ballGroup 65 54 = .gnd ∧
    rowName 64 = "CH" ∧ rowName 79 = "DD" := by decide

/-! Witnesses: one theorem for each statement, its clauses in their order. -/

theorem witness_StepTakesFrontCommand :
    (off.pending = [] ∧ off.dev.state = .off) ∧ (on.pending = [] ∧ on.dev.state ≠ .off) := by and_intros <;> decide
theorem witness_EveryCommandKeepsTheQueue :
    exec .evrLostRead on = .next { on with evr.lost := 0, host.readData := 0 } ∧
    exec .evrLostRead { on with pending := [.frameTick] } =
      .next { on with pending := [.frameTick], evr.lost := 0, host.readData := 0 } := by and_intros <;> rfl
theorem witness_OnlyDramReadCanStop : on.dev.state ≠ .off ∧ dramTop on ≤ 0 ∧ dramTop dramOn ≤ 2 ^ 30 := by
  and_intros <;> decide
theorem witness_KenraCommandCompletes :
    (kenraOf (.testEcho (req [])) = some (specTestEcho, req []) ∧ (∀ r, Instr.testEcho (req []) ≠ .sysRestart r) ∧
      (∀ r, Instr.testEcho (req []) ≠ .fwUpdateAbort r) ∧
      passes (.testEcho (req [])) specTestEcho (req []) (active (.testEcho (req [])) on)) ∧
    (kenraOf (.recClear (arg8 0)) = some (specRecClear, arg8 0) ∧ specRecClear.event = true ∧
      passes (.recClear (arg8 0)) specRecClear (arg8 0) (active (.recClear (arg8 0)) on)) ∧
    (let s := { active (.twinStatus (arg8 0)) on with host.sample := some [1] }
     kenraOf (.twinStatus (arg8 0)) = some (specTwinStatus, arg8 0) ∧ s.dev.state ≠ .off ∧
     isActive (.twinStatus (arg8 0)) s = true ∧ s.host.sample = some [1]) ∧
    (isActive (.testEcho (req [])) on = false ∧ isActive (.testEcho (req [1])) (active (.testEcho (req [])) on) = false) := by
  refine ⟨⟨rfl, nofun, nofun, ?_⟩, ⟨rfl, rfl, ?_⟩, ⟨rfl, by decide, by decide, rfl⟩, by decide, by decide⟩ <;>
    exact ⟨by decide, by decide, rfl, by decide, Or.inl (by decide)⟩
theorem witness_KenraRefusalAnswersFirstCheck :
    (kenraOf (.testEcho { version := 1 }) = some (specTestEcho, { version := 1 }) ∧ on.dev.state ≠ .off ∧
      checkRequest (.testEcho { version := 1 }) specTestEcho { version := 1 }
        (touchTxn specTestEcho { version := 1 } (active (.testEcho { version := 1 }) on)) = some (.malformed, 0) ∧
      isActive (.testEcho { version := 1 }) (active (.testEcho { version := 1 }) on) = true ∧ on.host.sample = none) ∧
    headerBad { version := 1 } = true ∧
    (headerBad (req [0]) = false ∧ specIngestConfig.layout (req [0]).arg = some 0) ∧
    (headerBad (arg8 0) = false ∧ specIngestConfig.layout (arg8 0).arg = none ∧
      stateCheck specIngestConfig { on with dev.state := .safe } (arg8 0).arg = false) ∧
    (stateCheck specIngestConfig on (arg8 0).arg = true ∧
      txnCheck specIngestConfig on { arg8 0 with txnId := 5 } = some .txnUnknown) ∧
    txnCheck specIngestConfig on (arg8 0) = none ∧
    (staged specIngestConfig on (arg8 17) = false ∧ specIngestConfig.range on (arg8 17).arg = some 0) ∧
    (let s := { on with sched.txn := .opened 1, sched.lastId := 1 }
     staged specIngestConfig s { arg8 16 with txnId := 1 } = true ∧ specIngestConfig.load = false ∧
     listBytes (keptStaged specIngestConfig (.ingestConfig (arg8 16)) s) + specIngestConfig.bytes (arg8 16).arg ≤ 2 ^ 20 ∧
     specIngestConfig.range s (arg8 16).arg = none ∧ specIngestConfig.range s (arg8 17).arg = some 0) ∧
    (staged specRecClear on (arg8 1) = false ∧ specRecClear.range on (arg8 1).arg = none ∧
      specRecClear.resource on (arg8 1) = some (.conflict, 0)) ∧
    (staged specRecClear on (arg8 0) = false ∧ specRecClear.range on (arg8 0).arg = none ∧
      specRecClear.resource on (arg8 0) = none ∧ specRecClear.event = true ∧
      64 ≤ ({ on with host.owed := List.replicate 64 (.testEcho (req []), req []) } : State).host.owed.length ∧
      ({ on with host.owed := List.replicate 63 (.testEcho (req []), req []) } : State).host.owed.length < 64) := by
  and_intros <;> first | rfl | decide
/-- A transaction that holds 1 MiB already. -/
theorem witness_KenraRefusalAnswersFirstCheck_full :
    let s := { on with sched.txn := .opened 1, sched.lastId := 1, sched.staged := [(.twinConfig (req []), mib)] }
    staged specIngestConfig s { arg8 0 with txnId := 1 } = true ∧ specIngestConfig.load = false ∧
    2 ^ 20 < listBytes (keptStaged specIngestConfig (.ingestConfig (arg8 0)) s) + specIngestConfig.bytes (arg8 0).arg := by
  refine ⟨by decide, rfl, ?_⟩
  have k : keptStaged specIngestConfig (.ingestConfig (arg8 0))
    { on with sched.txn := .opened 1, sched.lastId := 1, sched.staged := [(.twinConfig (req []), mib)] } =
      [(.twinConfig (req []), mib)] := by rfl
  rw [k]
  simp [listBytes, mib_length, arg8, req, specIngestConfig]
theorem witness_SettingIsStagedInOpenTransaction :
    let q := { arg8 16 with txnId := 1 }
    let s := { active (.ingestConfig q) on with sched.txn := .opened 1, sched.lastId := 1 }
    kenraOf (.ingestConfig q) = some (specIngestConfig, q) ∧ (∀ r, Instr.ingestConfig q ≠ .sysRestart r) ∧
    (∀ r, Instr.ingestConfig q ≠ .fwUpdateAbort r) ∧ s.dev.state ≠ .off ∧
    isActive (.ingestConfig q) s = true ∧ s.host.sample = none ∧
    checkRequest (.ingestConfig q) specIngestConfig q (touchTxn specIngestConfig q s) = none ∧
    staged specIngestConfig (touchTxn specIngestConfig q s) q = true ∧ specIngestConfig.load = false :=
  ⟨rfl, nofun, nofun, by decide, by decide, rfl, by decide, by decide, rfl⟩
theorem witness_RestartCommandsEnterBoot :
    (let s := active (.sysRestart (req [])) { on with dev.state := .safe }
     s.dev.state ≠ .off ∧ isActive (.sysRestart (req [])) s = true ∧
     checkRequest (.sysRestart (req [])) specSysRestart (req []) (touchTxn specSysRestart (req []) s) = none) ∧
    (let s := active (.fwUpdateAbort (req [])) { on with dev.state := .update }
     s.dev.state ≠ .off ∧ isActive (.fwUpdateAbort (req [])) s = true ∧
     checkRequest (.fwUpdateAbort (req [])) specFwUpdateAbort (req []) (touchTxn specFwUpdateAbort (req []) s) = none) ∧
    isActive (.unknownOpcode 0xFFFF (req [])) (active (.unknownOpcode 0xFFFF (req [])) on) = true := by
  and_intros <;> decide
/-- Slot 7 is not free in the first state, and free after reset. -/
theorem witness_MailboxSlotLife :
    let s := { on with host.slots := [(7, { state := .done })], host.queue := [7] }
    barLive s ∧ (slot s ((0xFFFFFFFF : BitVec 32).toNat % 8)).state ≠ .free ∧ (slot on 7).state = .free ∧
    (s.host.queue.Nodup ∧ ∀ k ∈ s.host.queue, k < 8 ∧ (slot s k).state ≠ .free) ∧
    accessOk (4092 : BitVec 13).toNat 4 = true ∧ (4092 : BitVec 13).toNat < 4096 ∧ 4096 ≤ (4096 : BitVec 13).toNat := by
  refine ⟨⟨by decide, by decide⟩, ?_⟩
  and_intros <;> decide
theorem witness_RingAndInterruptRegisters :
    barLive on ∧ on.evr.enable = false ∧ (barLive ringOn ∧ ringOn.evr.enable = true) ∧
    ring { on with out.rings := [(15, some hring)] } 15 = some hring ∧ testBit (0 : BitVec 32).toNat 0 = false ∧
    testBit (1 : BitVec 32).toNat 0 = true ∧ evrBaseOk on = false := by
  refine ⟨⟨by decide, by decide⟩, by decide, ⟨⟨by decide, by decide⟩, by decide⟩, ?_⟩
  and_intros <;> decide
theorem witness_EventRingWritesInOrder :
    ({ on with evr.due := [ev false] } : State).evr.due = ev false :: [] ∧ on.dev.state ≠ .off ∧ on.dev.state ≠ .boot ∧
    (let s := { ringOn with evr.held := [ev true] }
     s.evr.due = [] ∧ s.evr.held = ev true :: [] ∧ s.evr.gap = none ∧ evrOpen s = true ∧ evrBaseOk s = true ∧
     evrBaseOk { s with tether.windows := [] } = false ∧ evrOpen { s with tether.windows := [] } = true ∧
     ({ s with evr.gap := some (1, 2, 3) } : State).evr.gap = some (1, 2, 3) ∧
     targetDown s 6 = false ∧ (ev true).code ≠ 2 ∧ s.evr.base % 4096 = 0 ∧
     hostRangeOk { s with tether.windows := [] } true 4096 (entryBytes (ev true) 0).length = false ∧
     evrOpen { s with evr.enable := false } = false ∧ evrOpen { s with evr.write := 4096 } = false) ∧
    State.reset.dev.state = .boot ∧
    (ev false).completion = false ∧ ((List.replicate 959 (ev false)).filter (fun x => !x.completion)).length < 960 ∧
    960 ≤ ((List.replicate 960 (ev false)).filter (fun x => !x.completion)).length ∧
    1024 ≤ (List.replicate 1024 (ev true)).length ∧ (ev true).completion = true := by
  refine ⟨rfl, by decide, by decide, ⟨rfl, rfl, rfl, ?_⟩, rfl, rfl, ?_, ?_, by simp, rfl⟩
  · and_intros <;> decide
  · simp [ev]
  · simp [ev]
theorem witness_TetherWritesTakeEffect :
    (barLive on ∧ on.tether.lock = false) ∧ testBit (0x80000001 : BitVec 32).toNat 0 = true ∧
    testBit (0xFFFFFFFE : BitVec 32).toNat 0 = false ∧ 31 < 32 ∧ 15 < 16 ∧ 255 < 256 ∧
    (let s := withQuad { mode := .gul, width := 4, rate := 2 }
     let t := { s with tether.shadow := [(0x1000, 1)] }
     1 ≤ shadowVal t 0x1000 2 % 1024 ∧ shadowVal t 0x1000 2 % 1024 ≤ quadGbps t 0 ∧ ¬(1 ≤ shadowVal s 0x1000 2 % 1024)) ∧
    0x1000000 ≤ (0x1000000 : BitVec 25).toNat ∧ (0xFFFFFF : BitVec 25).toNat < 0x1000000 := by
  refine ⟨⟨⟨by decide, by decide⟩, by decide⟩, ?_⟩
  and_intros <;> decide
theorem witness_LockedTetherDiscardsWrites :
    barLive { on with tether.lock := true } ∧ ({ on with tether.lock := true } : State).tether.lock = true ∧
    (barLive on ∧ on.tether.lock = false ∧ testBit (1 : BitVec 32).toNat 0 = true) ∧
    0x1000000 ≤ (0x1FFFFFF : BitVec 25).toNat ∧
    (exec (.tetherLockWrite 0) { on with tether.lock := true } =
      .next (count .tetherLockedWrite 0 { on with tether.lock := true })) :=
  ⟨⟨by decide, by decide⟩, rfl, ⟨⟨by decide, by decide⟩, rfl, by decide⟩, by decide, rfl⟩
theorem witness_LockedTetherNeverChanges :
    let s := { on with tether.lock := true, pending := [.tetherLockWrite 0] }
    s.tether.lock = true ∧ step s = .next (count .tetherLockedWrite 0 { s with pending := [] }) ∧
    (∀ c ∈ s.pending.head?, c ≠ .resetNAssert ∧ (∀ x, c ≠ .supplyFault x) ∧ c ≠ .vin12Removed ∧ (∀ x, c ≠ .thermalTrip x)) := by
  refine ⟨rfl, rfl, fun c h => ?_⟩
  cases h
  exact ⟨nofun, nofun, nofun, nofun⟩
theorem witness_OnlyTheHostWritesTheTether :
    exec (.tetherLockWrite 1) on = .next { on with tether.lock := true } ∧
    ({ on with tether.lock := true } : State).tether ≠ on.tether := ⟨rfl, by decide⟩
theorem witness_HostWriteStaysInItsWindow :
    hostRangeOk ringOn true 1052671 1 = true ∧ hostRangeOk ringOn true 1052672 1 = false ∧
    hostRangeOk ringOn true 1052671 2 = false ∧
    hostReachable ringOn = true ∧ targetDown ringOn 6 = false ∧ (1052672 % 4096 + 1 ≤ 4096) := by and_intros <;> decide
theorem witness_MailboxCarriesEveryRequest :
    let q := { req [7] with slot := 3 }
    let c := Instr.testEcho q
    let s := { on with host.slots := [(3, { state := .posted, request := memWrite [] 0 (requestBytes specTestEcho.opcode q) })]
                       host.queue := [3] }
    let begun := fun (c : Instr) => modSlot 3 (fun x => { x with state := .active })
      { s with host.queue := [], host.active := some (c, 3, false), twin.armed := true }
    kenraOf c = some (specTestEcho, q) ∧ q.arg.length = q.argLength.toNat ∧ q.arg.length ≤ 4064 ∧
    (slot s q.slot.toNat).request = memWrite [] 0 (requestBytes specTestEcho.opcode q) ∧ s.dev.state ≠ .off ∧
    s.host.active = none ∧ s.host.queue = q.slot.toNat :: [] ∧ s.host.sample = none ∧
    (checkRequest c specTestEcho q (begun c) = none ∧ specTestEcho.sampled = false) ∧
    (let r := { req (List.replicate 16 0) with slot := 3 }
     checkRequest (.twinStatus r) specTwinStatus r (begun (.twinStatus r)) = none ∧ specTwinStatus.sampled = true) ∧
    (let r := { req [7] with slot := 3, version := 1 }
     checkRequest (.testEcho r) specTestEcho r (begun (.testEcho r)) ≠ none ∧
     checkRequest (.testEcho r) specTestEcho r (touchTxn specTestEcho r (begun (.testEcho r))) = some (.malformed, 0)) :=
  ⟨rfl, by decide, by decide, rfl, by decide, rfl, rfl, rfl, ⟨by decide, rfl⟩, ⟨by decide, rfl⟩, by decide, by decide⟩
theorem witness_HostInterfaceEvents :
    on.dev.state ≠ .off ∧
    (1 ≤ (5 : BitVec 3).toNat ∧ (5 : BitVec 3).toNat ≤ 5 ∧ ((8 : BitVec 4) = 1 ∨ (8 : BitVec 4) = 2 ∨ (8 : BitVec 4) = 4 ∨ (8 : BitVec 4) = 8)) ∧
    ¬((6 : BitVec 3).toNat ≤ 5) ∧ evrRunning on = false ∧ evrRunning ringOn = true ∧ (dmaCh on 15).queue = [] ∧
    (let d := { desc with srcSpace := 6 }
     let s := { on with dma.chans := [(0, { queue := [d] })] }
     (0 : BitVec 4) ≠ 12 ∧ (dmaCh s 0).queue = d :: [] ∧ d.srcSpace = 6 ∧ running s 0 = some d ∧ (dmaCh s 0).issued < d.len) ∧
    (let l := { load with cmd := .claspTableLoad (bulkReq 1), req := bulkReq 1 }
     [l].any (fun l => (loadBulk l).kind = 1 && l.failed.isNone) = true) ∧
    tabWf none ({ on with out.rings := [(15, some hring)] } : State).out.rings = true ∧
    (coalesced (16 : BitVec 5).toNat = true ∧
      (intCause { on with host.causes := [(16, { vector := 0, count := 4, timeUs := 50, waiting := 1 })] } 16).waiting ≠ 0) ∧
    coalesced (0 : BitVec 5).toNat = false ∧ (intCause on 31).waiting = 0 := by
  and_intros <;> first | rfl | decide
theorem witness_FrameTickStartsTheNextFrame :
    on.dev.state ≠ .off ∧ ({ on with time.ended := true } : State).time.ended = true ∧ on.time.ended = false ∧
    ({ on with time.inGuard := true } : State).time.inGuard = true ∧ on.time.inGuard = false ∧
    (let s := { on with dev.state := .safe }
     s.dev.state ≠ .off ∧ s.time.inGuard = false ∧ ingestOn s = false ∧ observing s = false) := by and_intros <;> decide
theorem witness_MostRestrictiveTransitionStands :
    ({ on with dev.safeAt := some 7 } : State).dev.safeAt = some 7 ∧ on.dev.safeAt = none ∧ stopNow on = false ∧
    (let s := { obs img with dev.stopAt := some 1000000 }
     s.dev.state ≠ .off ∧ stopNow s = true ∧ observing s = true ∧ s.dev.safeAt = none) ∧
    (let s := { on with dev.stopAt := some 1000000 }
     stopNow s = true ∧ observing s = false) ∧
    stopNow { obs img with dev.stopAt := some 1000001 } = false ∧
    (let s := { obs img with dev.state := .degraded, dev.clearFrames := 1000, time.frame := 4095, time.ended := true }
     holdoffOver (toTick s) = true ∧ holdoffOver s = true ∧ holdoffOver (toTick { s with dev.safeAt := some 7 }) = false) ∧
    (let s := { obs img with dev.causes := [.thermal] }
     observing s = true ∧ s.dev.causes ≠ []) := by and_intros <;> first | rfl | decide
theorem witness_StateChangesAreReported : on.dev.state = .ready ∧ on.dev.state ≠ .off := by and_intros <;> decide
theorem witness_TransactionsEndAsTheRulesSay :
    let c : Commit := { na := 5, req := req [], trigger := none, accepted := 0, validated := false }
    let p := fun (c : Commit) (f : Nat) => { on with sched.txn := .pending 1, sched.commit := some c, time.frame := f }
    let st := fun (n : Nat) => ({ cfg := { nfs := n, dfs := 1 }, enabled := true } : Stream)
    on.dev.state ≠ .off ∧
    ({ on with sched.txn := .opened 1 } : State).sched.txn = .opened 1 ∧ (∀ id, on.sched.txn ≠ .opened id) ∧
    ((p c 4).sched.txn = .pending 1 ∧ (p c 4).sched.commit = some c ∧ c.validated = false ∧ c.na ≤ (p c 4).time.frame + 1) ∧
    ((p c 3).time.frame + 1 < c.na ∧ worst (commitCharges (p c 3) c.na) = none) ∧
    (worst (commitCharges { p c 3 with ingest.streams := [(0, st 1), (1, st 2)] } c.na) ≠ none) ∧
    ({ c with validated := true }.validated = true ∧ c.na ≤ (p { c with validated := true } 4).time.frame + 1) := by
  refine ⟨by decide, rfl, nofun, ?_, ?_, ?_, ?_⟩ <;> and_intros <;> first | rfl | decide
theorem witness_LoadsEndInTheirTurn :
    on.dev.state ≠ .off ∧ on.loads = [] ∧ on.sched.verdictQueue = [] ∧
    (let l := { load with deflate := true }
     let s := { on with loads := [l] }
     s.loads = l :: [] ∧ l.deflate = true ∧ l.failed = none ∧ engineServes s l.seq = true ∧
     engineServes { s with services := List.replicate 16 service } 1 = false ∧ (bulkFetch (loadBulk l) on).2.1 = none ∧
     loadData l (bulkFetch (loadBulk l) on).1 = .error .truncated) ∧
    ({ load with failed := some .hostDma } : Load).failed = some .hostDma ∧ load.failed = none ∧
    (let l := { load with cmd := .claspTableLoad hostReq, req := hostReq }
     l.failed = none ∧ (bulkFetch (loadBulk l) on).2.1 = some .hostDma) ∧
    (let l := { load with cmd := .claspTableLoad (bulkReq 2), req := bulkReq 2 }
     (bulkFetch (loadBulk l) on).2.1 = none ∧ (∀ q, l.cmd ≠ .pegKernelLoad q) ∧ loadData l (bulkFetch (loadBulk l) on).1 = .ok [] ∧
     (∀ q, l.cmd ≠ .schedLoad q) ∧ loadBad l.cmd [] = none ∧ l.req.txnId = 0) ∧
    ((∃ q, ({ load with cmd := .pegKernelLoad (req []) } : Load).cmd = .pegKernelLoad q) ∧
      (∃ q, ({ load with cmd := .schedLoad (req []) } : Load).cmd = .schedLoad q)) ∧
    ({ on with sched.verdictQueue := [(3, req [], []), (4, req [], [1])] } : State).sched.verdictQueue =
      (3, req [], []) :: [(4, req [], [1])] ∧
    ({ on with loads := [load] } : State).loads.any (fun l => l.req.slot = 0) = true ∧
    on.loads.any (fun l => l.req.slot = 0) = false := by
  refine ⟨by decide, rfl, rfl, ⟨rfl, rfl, rfl, by decide, by decide, by decide, rfl⟩, rfl, rfl, ⟨rfl, by decide⟩,
    ⟨by decide, nofun, by decide, nofun, rfl, rfl⟩, ⟨⟨_, rfl⟩, _, rfl⟩, rfl, by decide, by decide⟩
/-- The GUL blocks: a data block, a START, an END with its frame whole, short of bytes, and one whose header is none. -/
theorem witness_FramesReachIngestOnlyWhole :
    (quad on 31).mode ≠ .gul ∧
    (let s := withQuad { mode := .gul, state := .active }
     (quad s 0).mode = .gul ∧ quadEnabled s 0 = true ∧ (quad s 0).state = .active ∧ ingestOn s = true ∧
     inBadCodeword s 0 (quad s 0).rxPos = false) ∧
    (let d := plainBlock (received 5 { header := 1, payload := 7 })
     blockBad d = false ∧ d.header = 1 ∧ d.payload = 7) ∧
    (let d := plainBlock (received 5 { header := 2, payload := payloadOf (controlBytes (.start 1 8)) })
     blockBad d = false ∧ d.header ≠ 1 ∧ controlOf d.payload = some (.start 1 8)) ∧
    (let d := plainBlock (received 5 { header := 2, payload := payloadOf (controlBytes (.fin 0 0x85D3B3AE)) })
     let f : RxFrame := { kind := 1, length := 8, bytes := List.replicate 8 0 }
     blockBad d = false ∧ d.header ≠ 1 ∧ controlOf d.payload = some (.fin 0 0x85D3B3AE) ∧
     gulError f 0 0x85D3B3AE = none ∧ f.kind = 1 ∧ gulError { f with bad := true } 0 0x85D3B3AE = some .fecDrop ∧
     gulError { f with bytes := [] } 0 0 = some .lengthError ∧ gulError f 0 0 = some .fcsError) ∧
    blockBad (plainBlock (received 5 { header := 3, payload := 7 })) = true ∧
    isEth (quad on 0).mode = false := by and_intros <;> decide
theorem witness_FramesReachIngestOnlyWhole_eth :
    let s := withQuad { mode := .eth100, state := .active, mac := some 0x020000000001, ipv4 := some 0x0A000001 }
    let d := udpFrame
    isEth (quad s 0).mode = true ∧ quadEnabled s 0 = true ∧ (quad s 0).state = .active ∧ ingestOn s = true ∧
    (List.replicate 63 (0 : Byte)).length < 64 ∧ 64 ≤ d.length ∧ d.length ≤ (quad s 0).mtu + 18 ∧
    (quad (withQuad { mode := .eth100, state := .active, mtu := 40 }) 0).mtu + 18 < d.length ∧
    leVal ((0 :: d.drop 1).drop (d.length - 4)) ≠ crc32 ((0 :: d.drop 1).take (d.length - 4)) ∧
    leVal (d.drop (d.length - 4)) = crc32 (d.take (d.length - 4)) ∧ beVal (slice d 12 2) = 0x0800 ∧
    macAccepted s 0 (beVal (slice d 0 6)) 0x0800 = true ∧ macAccepted s 0 5 0x0800 = false ∧
    l3Of s 0 0x0806 [] = .firmware ∧ l3Of s 0 0x0800 ([69, 0, 0, 46, 0, 0, 32, 0, 64, 17, 0, 0, 10, 0, 0, 2, 10, 0, 0, 1] ++ List.replicate 26 0) = .error ∧ l3Of s 0 0x88F7 [] = .other ∧
    l3Of (count .framesOk 0 s) 0 0x0800 ((d.take (d.length - 4)).drop 14) =
      .udp .udp4 0x0A000002 0x0A000001 1000 2000 (List.replicate 18 0) ∧
    relayPort s 0 = false ∧ relayPort { s with compass.relay := some (0, 1) } 0 = true ∧ ptpType 0x88F7 = true ∧
    ptpPort 319 = true ∧ ptpPort 2000 = false := by and_intros <;> decide
theorem witness_HolesAndHeldPacketsRelease :
    let r : Run := { cfg := { nfs := 1000, dfs := 1, np := 1 }, start := 0, release := 0, pointAW := 0, nextLabel := 0, stop := some 0 }
    let h : Held := { slot := 0, seq := 0, samples := [] }
    ingestOn { on with dev.state := .safe } = false ∧ ingestOn on = true ∧ (stream on 16383).runs = [] ∧
    (let s := { on with ingest.streams := [(16383, { runs := [r] })] }
     (stream s 16383).runs = [r] ∧ ∀ x ∈ (stream s 16383).runs, runDeadline x = none) ∧
    (let r0 := { r with stop := none }
     let s := { on with ingest.streams := [(16383, { runs := [r0, { r0 with release := 1 }] })] }
     (stream s 16383).runs[0]? = some r0 ∧ runDeadline r0 = some 1000000 ∧
     runDeadline { r0 with release := 1 } = some 2000000 ∧ runLive r0 = true ∧ (∀ h ∈ r0.held, h.slot ≠ r0.release) ∧
     ({ r0 with held := [h] } : Run).held.find? (fun h => h.slot = r0.release) = some h ∧
     sourceFrame r0.cfg h.slot s ≤ s.time.frame) := by and_intros <;> decide
theorem witness_ChanneliserStepsAndResets :
    on.dev.state ≠ .off ∧ observing (obs img) = true ∧ observing on = false ∧
    (let s := { obs img with chan.units := [(unitKey 4095 65535, { slice := some 31 })] }
     unitNext s (unitKey 4095 65535) = true ∧ unitNext s (unitKey 0 0) = false) ∧ (sliceOf on 31).statLeft ≠ 0 ∧
    (sliceOf { on with chan.slices := [(31, { statLeft := 0 })] } 31).statLeft = 0 ∧
    (∀ t ∈ on.compass.resets, tickTime on on.time.frame < t) ∧
    (let s := { on with compass.resets := [0] }
     (s.compass.resets.filter (fun t => decide (t ≤ tickTime s s.time.frame))).getLast? = some 0) ∧
    (filterEdge 2 100 on).1 = true ∧ (filterEdge 2 99 on).1 = false ∧
    on.reads.find? (fun r => isStatsRead r.cmd) = none ∧
    (let r : ReadOut := { cmd := .chanStatsRead (bulkReq 2), req := bulkReq 2, bulkOff := 8, bytes := [1], extra := [] }
     ({ on with reads := [r] } : State).reads.find? (fun r => isStatsRead r.cmd) = some r ∧
     (bulkPut (bulk r.req.arg r.bulkOff) r.bytes on).1 = none ∧
     (bulkPut (bulk hostReq.arg 0) r.bytes on).1 = some .hostDma) := by and_intros <;> decide
theorem witness_StoreKeepsWhatItAccepted :
    (({ on with dram.queue := [burst] } : State).dram.queue.find? DramReq.isStore = some burst ∧ burst.kind = .store 0 0 [1] 50000000) ∧
    on.dram.queue.find? DramReq.isStore = none ∧ on.dev.state ≠ .off ∧
    takeWork (isChunkWork ⟨false, 0, 0, 0, 0⟩) on = none ∧
    (let s := working imgDirect (wk 3)
     runningImage s = some imgDirect ∧
     takeWork (isChunkWork ⟨false, 0, 0, 0, 0⟩) s = some (wk 3, { s with sched.work := [] }) ∧ imgDirect.direct = true) ∧
    (let s := { working img (wk 3) with store.held := [(0, some (1, 0))] }
     takeWork (isChunkWork ⟨false, 0, 0, 0, 0⟩) s = some (wk 3, { s with sched.work := [] }) ∧ img.direct = false ∧
     heldByOther { s with sched.work := [] } ⟨false, 0, 0, 0, 0⟩ = true) ∧
    (takeWork (isChunkWork ⟨false, 0, 0, 0, 0⟩) (working img (wk 3)) = some (wk 3, obs img) ∧
     heldByOther (obs img) ⟨false, 0, 0, 0, 0⟩ = false) ∧
    runningImage on = none ∧
    (let s := { obs img with chan.units := [(unitKey 0 0, { w0 := some 0, w1 := 1 })], peg.services := [(0, 3)] }
     runningImage s = some img ∧ img.direct = false ∧ 0 < img.channels.length ∧
     writtenIn (chanUnit s (unitKey 0 (img.channels.getD 0 0 / max 1 (branches s)))) 0 = true ∧
     s.time.frame + 16 ≤ firstFill s img (0 * 64 / max 1 img.len) ∧ rfiPegs s ≠ [] ∧ ¬(1 < img.channels.length) ∧
     chanLost s (storeBase s + granuleOffset s img 0 0 0) = true ∧
     (let t := { s with dram.chans := [(0, { capGiB := 1, trained := true })] }
      chanLost t (storeBase t + granuleOffset t img 0 0 0) = false)) ∧
    (let r : DramReq := { cls := 4, addr := 64, kind := .flag }
     let s := { on with dram.queue := [r], peg.services := [(0, 3)] }
     s.dram.queue.filter (fun x => decide (x.kind = .flag ∧ sameBurst x.addr 127 = true)) = [r] ∧ rfiPegs s ≠ [] ∧
     (∀ r ∈ s.dram.queue, ¬(r.kind = .flag ∧ sameBurst r.addr 128 = true))) ∧
    inputFed on 4095 = false ∧
    (inputFed { on with ingest.streams := [(0, { runs := [{ cfg := {}, start := 0, release := 0, pointAW := 0, nextLabel := 0 }] })] } 0 = true ∧ writtenIn {} 0 = false ∧
      writtenIn { w0 := some 0, w1 := 1, lost := some (0, 0) } 0 = true ∧ lostIn { lost := some (0, 0) } 0 = true ∧
      lostIn {} 0 = false) := by and_intros <;> first | rfl | decide
theorem witness_ArraysPassShiftAndLand_pass :
    (let s := { working imgDirect (wk 1) with arrays := [(0, { enabled := true })] }
     let u := landRounds s
     s.dev.state ≠ .off ∧ runningImage u = some imgDirect ∧
     takeWork (isPassWork 0 ⟨0, 0, 0, 0, 0, false⟩) u = some (wk 1, { u with sched.work := [] }) ∧
     imageOf u 0 = some imgDirect ∧ u.sched.work.find? (onArray 0) = some (wk 1) ∧ (array u 0).enabled = true ∧
     (array u 0).beads = [] ∧ inBeam u 0 = false ∧ imgDirect.direct = true ∧
     (array (landRounds { s with arrays := [] }) 0).enabled = false) ∧
    (let s := { working img (wk 1) with arrays := [(0, { enabled := true })], store.held := [(1, some (0, 0))] }
     let t := { s with sched.work := [wk 1, wk 3] }
     let v := { s with store.held := [], sched.shed := [(0, 0, none)] }
     img.direct = false ∧ holding (landRounds s) (0, 0) = some 1 ∧ fillDone (landRounds s) (0, 0) = true ∧
     holding (landRounds t) (0, 0) = some 1 ∧ fillDone (landRounds t) (0, 0) = false ∧
     holding (landRounds v) (0, 0) = none ∧ (0, 0, none) ∈ (landRounds v).sched.shed ∧
     (0, 0, none) ∉ (landRounds { v with sched.shed := [] }).sched.shed) ∧
    takeWork (isPassWork 3 ⟨65535, 135, 15, 65535, 0, false⟩) (landRounds on) = none := by
  and_intros <;> first | rfl | decide
theorem witness_ArraysPassShiftAndLand_shift :
    (let x : ArraySt := { beads := [dump] }
     x.beads ≠ [] ∧ inChain x = none ∧ ({ x with stalling := true } : ArraySt).stalling = true ∧
     inChain { x with dumps := [{ dump with rows := [[]] }] } ≠ none) ∧ (array on 3).beads = [] ∧
    inChain (array on 3) = none ∧
    (let d := { dump with rows := [[]] }
     inChain { dumps := [d] } = some d ∧ landingWords { dumps := [d] } + 256 ≤ 65536) := by and_intros <;> decide
theorem witness_ArraysPassShiftAndLand :
    (array on 3).dumps.find? (fun d => !d.words.isEmpty) = none ∧
    (let d := { dump with words := [(0, 0, 0, 0)] }
     let s := { on with arrays := [(3, { dumps := [d] })] }
     let moved : Dump := { d with words := d.words.drop (landingRate s d.job), moved := d.words.take (landingRate s d.job) }
     (array s 3).dumps.find? (fun d => !d.words.isEmpty) = some d ∧ landingHeld s 3 d.job = false ∧
     needsPlane s moved = false ∧ moved.words = [] ∧ moved.rows = []) ∧
    (let d := { dump with words := [(0, 0, 0, 0)], rows := [[]] }
     let s := { on with arrays := [(3, { dumps := [d] })], clasp.jobs := [job] }
     landingHeld s 3 d.job = true ∧ landingHeld { s with clasp.jobs := [] } 3 d.job = false ∧
     needsPlane { s with clasp.jobs := [] } d = false ∧ d.rows ≠ []) ∧
    testRunning on = none ∧
    testRunning { on with host.owed := [(.arrayTest (arg8 15), arg8 15)] } = some (.arrayTest (arg8 15), arg8 15) := by
  and_intros <;> first | rfl | decide
/-- A full landing buffer: 65 281 words with a row of 256 in the chain. -/
theorem witness_ArraysPassShiftAndLand_full :
    inChain { dumps := [{ dump with rows := [[]], words := wide }] } = some { dump with rows := [[]], words := wide } ∧
    65536 < landingWords { dumps := [{ dump with rows := [[]], words := wide }] } + 256 := by
  refine ⟨rfl, ?_⟩
  simp [landingWords, wide_length]
/-- A dump of a job whose 4097 exceptions call for a spill plane. -/
theorem witness_ArraysPassShiftAndLand_plane :
    landingHeld planeState 0 dump.job = false ∧ needsPlane planeState { dump with moved := [(0, 0, 0, 0)] } = true := by
  refine ⟨rfl, ?_⟩
  have h : needsPlane planeState { dump with moved := [(0, 0, 0, 0)] } = decide (4096 < bigExc.length) := rfl
  rw [h, bigExc_length]
  rfl
theorem witness_BeadTotalsAreExactSums :
    let x : Nat → Smp := fun _ => { re := 127, im := -127, flag := false }
    (x 0).flag = false ∧ (∀ t, (x t).flag = false → -127 ≤ (x t).re ∧ (x t).re ≤ 127 ∧ -127 ≤ (x t).im ∧ (x t).im ≤ 127) ∧
    (0 : Int) ≤ 127 := by
  refine ⟨rfl, fun _ _ => ?_, by decide⟩
  simp
theorem witness_JobsClaimSpillAndReadOut_tiles :
    findJob on 65535 (fun j => !j.owns && !j.waitTile && !(jobTiles on j).isEmpty) = none ∧
    (let d := { dump with words := [(0, 0, 0, 0)] }
     let s := { on with clasp.jobs := [job], arrays := [(0, { dumps := [d] })] }
     findJob s 0 (fun j => !j.owns && !j.waitTile && !(jobTiles s j).isEmpty) = some job ∧ d ∈ (array s job.array).dumps ∧
     d.job = (job.frame, job.number) ∧ d.words ≠ [] ∧ job.kind ≠ .beamSum ∧ (array on job.array).dumps = [] ∧
     ({ job with kind := .beamSum } : Job).kind = .beamSum) ∧
    findJob on 65535 (fun j => j.waitSpill) = none ∧
    (let j := { job with waitSpill := true }
     let s := { on with clasp.jobs := [j] }
     findJob s 0 (fun j => j.waitSpill) = some j ∧ planesUsed s < 2 * s.clasp.spillTiles ∧
     2 * ({ s with clasp.spillTiles := 0 } : State).clasp.spillTiles ≤ planesUsed { s with clasp.spillTiles := 0 }) := by
  and_intros <;> decide
theorem witness_JobsClaimSpillAndReadOut :
    (let j := { job with owns := true, dumps := [(0, 0, 256)], included := [(0, 0, 256)] }
     let s := { obs img with clasp.jobs := [j] }
     nextJob s = some j ∧ imageOf s j.block = some img ∧ j.number = (0 : BitVec 16).toNat ∧ jobFull j = true ∧ j.included ≠ [] ∧
     j.owns = true ∧ j.waitSpill = false ∧ j.gap = none) ∧ nextJob on = none ∧
    findJob on 0 (fun j => j.kind = .longAcc && j.arrived.isSome && !j.waitSpill) = none ∧
    (let s := laState jobLa none
     let u := serveFirst 3 (fun _ => true) s
     findJob s 0 (fun j => j.kind = .longAcc && j.arrived.isSome && !j.waitSpill) = some jobLa ∧ jobLa.arrived = some dump ∧
     imageOf u jobLa.block = some imgLa ∧ (laNow u imgLa jobLa).void = none ∧ (laNow u imgLa jobLa).covered = [] ∧
     laLast u imgLa jobLa = false ∧ (mergedExc (halfOf imgLa jobLa) dump (laNow u imgLa jobLa).exc).length ≤ 64 ∧
     ¬(jobLa.dumps.length ≤ jobLa.included.length + 1) ∧ jobLa.gap = none ∧
     (∃ k, nextJob u = some k ∧ isJob (jobLa.frame, jobLa.number) k = true)) ∧
    imageOf (serveFirst 3 (fun _ => true) { on with clasp.jobs := [jobLa] }) 0 = none ∧
    (let s := laState jobLa (some { first := 0, count := 2, covered := [(0, 0, 256)], void := some 7 })
     let u := serveFirst 3 (fun _ => true) s
     (laNow u imgLa jobLa).void ≠ none ∧ (laNow u imgLa jobLa).covered ≠ []) ∧
    (let s := laState jobLa (some { first := 0, count := 2, covered := [(0, 0, 256)] })
     let u := serveFirst 3 (fun _ => true) s
     (laNow u imgLa jobLa).covered ≠ [] ∧ (laNow u imgLa jobLa).void = none) ∧
    (let j := { jobLa with included := [(0, 0, 256)] }
     j.dumps.length ≤ j.included.length + 1 ∧ ({ j with gap := some 7 } : Job).gap ≠ none ∧ laLast (laState j none) imgLa j = false) ∧
    (let j := { jobLa with included := [(0, 0, 256)], block := 1, due := 9 }
     let u := serveFirst 3 (fun _ => true) (laState j none)
     imageOf u j.block = some imgLa ∧ laLast u imgLa j = true ∧ j.dumps.length ≤ j.included.length + 1 ∧ nextJob u = none) ∧
    (let u := serveFirst 3 (fun _ => true) (laState jobLa (some { first := 0, count := 2, exc := List.replicate 65 (0, 1) }))
     64 < (mergedExc (halfOf imgLa jobLa) dump (laNow u imgLa jobLa).exc).length ∧
     (mergedExc (halfOf imgLa jobLa) dump (laNow u imgLa jobLa).exc).length ≤ 4096 ∧ jobLa.plane = none) := by
  and_intros <;> decide
/-- An accumulation whose exception list has passed 4096 entries, of a job without a spill plane. -/
theorem witness_JobsClaimSpillAndReadOut_plane :
    let l : La := { first := 0, count := 2, exc := bigExc }
    let u := serveFirst 3 (fun _ => true) (laState jobLa (some l))
    laNow u imgLa jobLa = l ∧ 4096 < (mergedExc (halfOf imgLa jobLa) dump l.exc).length ∧ jobLa.plane = none := by
  have h : mergedExc (halfOf imgLa jobLa) dump bigExc = bigExc := rfl
  refine ⟨rfl, ?_, rfl⟩
  simp [h, bigExc_length]
theorem noDram_map (s : State) (h : chansInUse s = []) (a : Nat) : dramMap s a = none := by
  simp [dramMap, h, interleave, mapAddr]
theorem noDram_fetch (c : Nat) (l : List (Nat × List Nat)) (s : State) (h : chansInUse s = []) (hl : l ≠ []) :
    (fetchBursts c l s).1 = true := by
  cases l with
  | nil => exact absurd rfl hl
  | cons e l => simp [fetchBursts, fetchBurst, chanLost, readBurst, noDram_map s h]
/-- Without DRAM the first burst of an accumulation comes back uncorrectable. -/
theorem witness_JobsClaimSpillAndReadOut_ue :
    let u := serveFirst 3 (fun _ => true) (laState jobLa (some { first := 0, count := 2, covered := [(0, 0, 256)] }))
    (laRead (laKey jobLa) (some 0) u).1 = true := by
  refine noDram_fetch 3 _ _ rfl fun h => ?_
  have h := congrArg List.length h
  simp only [laBursts, burstAddrs, numbers, List.length_map, List.length_zipIdx, List.length_range, List.length_nil] at h
  omega
/-- Tile 0 is the ending job's and tile 1 another's; job 1 waits for tile 0. -/
theorem witness_ReleasedTilesGoToWaitingJobs :
    let k := { job with number := 1, waitTile := true }
    let s := { on with clasp.jobs := [k], clasp.owners := [(0, some (0, 0)), (1, some (0, 2))] }
    tabWf none s.clasp.owners = true ∧ ownerOf s 1 = some (0, 2) ∧ ((0, 2) : Nat × Nat) ≠ (job.frame, job.number) ∧
    0 < 128 ∧ ownerOf s 0 = some (job.frame, job.number) ∧ ownerOf s 127 = none ∧ k ∈ s.clasp.jobs ∧
    isJob (job.frame, job.number) k = false ∧ k.waitTile = true ∧ 0 ∈ jobTiles s k := by and_intros <;> decide
theorem witness_BeamSegmentsRunReadOutAndPeak :
    (let i := { imgDirect with items := [sItem 4] }
     let w : Work := { item := { sItem 2 with unit := 1 }, block := 0, old := false }
     let x : SegItem := ⟨1, 0, 0, 0, 0, 0, 0, false⟩
     let j := { job with kind := .detect }
     let s := { working i w with arrays := [(0, { enabled := true })], clasp.jobs := [j] }
     let u := landRounds s
     runningImage u = some i ∧ takeWork (isSegWork x) u = some (w, { u with sched.work := [] }) ∧ imageOf u x.block = some i ∧
     (∀ a ∈ maskArrays x.arrays.toNat, (array u a).enabled = true ∧ (array u a).beads = [] ∧ inBeam u a = false ∧
       u.sched.work.find? (onArray a) = some w) ∧
     segJob u i w = some j ∧ jobTiles u j = [] ∧ i.direct = true ∧
     segJob { u with clasp.jobs := [] } i w = none ∧ ¬(array (landRounds { s with arrays := [] }) 0).enabled = true ∧
     (let k := { job with kind := .beamSum }
      segJob { u with clasp.jobs := [k] } i w = some k ∧ k.owns = false ∧ jobTiles u k ≠ [] ∧ segShed u w = false ∧
      ({ k with owns := true } : Job).owns = true ∧
      segShed { u with sched.shed := [segKey w.item.chan w.block w.item.b8 w.item.h14] } w = true)) ∧
    (let s := { obs img with store.held := [(0, some (0, 0))] }
     img.direct = false ∧ holding s (0, 0) = some 0 ∧ fillDone s (0, 0) = true ∧ fillDone { s with sched.work := [wk 3] } (0, 0) = false ∧
     holding (obs img) (0, 0) = none ∧ (0, 0, none) ∈ ({ obs img with sched.shed := [(0, 0, none)] } : State).sched.shed ∧
     (0, 0, none) ∉ (obs img).sched.shed) ∧
    takeWork (isSegWork ⟨15, 0, 0, 0, 0, 0, 0, false⟩) (landRounds on) = none ∧
    (let s := { obs img with beam.bufs := [buf], clasp.jobs := [job] }
     let u := landRounds s
     u.beam.bufs.find? bufDone = some buf ∧ buf.set = (0 : BitVec 2).toNat ∧ imageOf u buf.block = some img ∧
     u.clasp.jobs.find? (isJob buf.job) = some job ∧ buf.void = false ∧ partialsHeld u buf = false ∧
     ({ buf with void := true } : SegBuf).void = true ∧
     partialsHeld { u with beam.stats := [(statKey buf.set buf.pos buf.block, { segs := 1 })] } buf = true) ∧
    (landRounds on).beam.bufs.find? bufDone = none ∧
    (let s := { obs img with beam.watches := [(15, { beam := some 0, lists := [(0, some {})] })] }
     runningImage s = some img ∧ (watch s 15).beam = some 0 ∧ (watch s 15).lists = (0, some {}) :: [] ∧
     intervalDone s img (0 / 256) 0 = false ∧ intervalDone { s with time.frame := 40960 } img (0 / 256) 0 = true) ∧
    (watch on 15).lists = [] := by
  and_intros <;> decide
theorem witness_FacetStepsRoundAndFold :
    (List.replicate 32 (0 : Int)).length = 32 ∧ 31 < 32 ∧ 3 < 4 ∧
    (∀ v ∈ List.replicate 32 (32767 : Int), (roundTe v (2 ^ 0)).natAbs ≤ 32767) ∧
    (∃ v ∈ List.replicate 32 (32768 : Int), 32767 < (roundTe v (2 ^ 0)).natAbs) := by and_intros <;> decide
theorem witness_PackAndAssemblyKeepOrder :
    on.dev.state ≠ .off ∧ (engine on 15).incoming = [] ∧ (engine on 15).queue = [] ∧ on.services = [] ∧ ostream on 0 = none ∧
    (let s := { on with pack.engines := [(15, { incoming := [item], queue := [item] })], out.streams := [(0, some ostr)] }
     (engine s 15).incoming = item :: [] ∧ queuedBytes (engine s 15) + item.payload.length ≤ 2 ^ 20 ∧
     (engine s 15).queue = item :: [] ∧ ostream s item.ostream = some ostr) ∧
    (let s := { on with services := [service] }
     s.services = service :: [] ∧ engineServes s service.seq = true ∧
     engineServes { s with services := List.replicate 16 { service with seq := 0 } } 1 = false ∧
     s.services.find? (fun x => !isUpdateEnd x.cmd) = some service ∧ (bulkFetch (bulk service.req.arg 0) on).2.1 = none ∧
     service.dstLen < (deflateFixed []).length ∧ (bulkFetch (bulk hostReq.arg 0) on).2.1 = some .hostDma) := by and_intros <;> decide
/-- An item of one byte that finds a full buffer. -/
theorem full_of_length (l : List Byte) (h : l.length = 1048576) :
    let x := { item with payload := [0] }
    let e : Engine := { incoming := [x], queue := [{ item with payload := l }] }
    e.incoming = x :: [] ∧ 2 ^ 20 < queuedBytes e + x.payload.length := by
  refine ⟨rfl, ?_⟩
  simp [queuedBytes, itemBytes, h]
theorem witness_PackAndAssemblyKeepOrder_full :
    let x := { item with payload := [0] }
    let e : Engine := { incoming := [x], queue := [{ item with payload := mib }] }
    e.incoming = x :: [] ∧ 2 ^ 20 < queuedBytes e + x.payload.length := full_of_length mib mib_length
/-- An entry to 10.0.0.1 port 2000, and the state in which one record waits for it on quad 0. -/
def entry : Flow := .egress .udp4 0 none 0 0 0x0A000001 2000 1000 0 64 1408 8
def sending : State :=
  { withQuad { mode := .eth100, state := .active, mac := some 2, ipv4 := some 1, prefix4 := 24 } with
    out.quads := [(0, { queue := [(recd, entry, 0)] })] }
def permitted : State := { sending with tether.allow := [(0, { addr := 0x0A000000, prefixLen := 8, portHi := 65535, valid := true })] }
theorem witness_OutputLeavesInOrderAndWithinItsLimits :
    ring { on with out.rings := [(15, some hring)] } 15 = some hring ∧ ring on 15 = none ∧
    nextDatagram (drainDown 31 (ageQuad 31 on)) 31 = none ∧
    (let u := drainDown 0 (ageQuad 0 sending)
     (nextDatagram u 0).any (fun x => !x.2) = true ∧ (egress u 0).queue = (recd, entry, 0) :: []) ∧
    (let u := drainDown 0 (ageQuad 0 permitted)
     (nextDatagram u 0).any (fun x => x.2 && decide (x.1.cost ≤ bucketNow u 0)) = true) ∧
    (let s := { permitted with tether.rateCaps := [(0, some 0)], out.quads := [(0, { queue := [(recd, entry, 0)], bucket := 0 })] }
     let u := drainDown 0 (ageQuad 0 s)
     (nextDatagram u 0).any (fun x => x.2 && decide (bucketNow u 0 < x.1.cost)) = true) := by and_intros <;> decide
theorem witness_OutputLeavesInOrderAndWithinItsLimits_ring :
    let x := { hring with queue := [recd] }
    let s := { on with out.rings := [(15, some x)], host.busMaster := true }
    let u := ageRing 15 s
    ring u 15 = some x ∧ ringTurn u x recd = true ∧ hostReachable u = true ∧ x.suspended = false ∧
    64 ≤ ringFree (ringRead u 15) x ∧ (pad64 recd.bytes).length ≤ ringFree (ringRead u 15) x ∧ hostReachable on = false ∧
    ({ x with suspended := true } : HostRing).suspended = true ∧
    (let r := { recd with payload := List.replicate 65 0 }
     64 ≤ ringFree 0 { x with log2 := 6 } ∧ ringFree 0 { x with log2 := 6 } < (pad64 r.bytes).length) ∧
    ringTurn { u with out.rings := [(15, some { x with queue := [{ recd with order := 1 }] }), (14, some { hring with queue := [recd] })] }
      x { recd with order := 1 } = false ∧
    (chanWrite 0 [(0, [1])] on).1 ≠ 0 ∧ hostRangeOk ringOn true (64 - 64) (2 ^ hring.log2 + 64) = true ∧
    hostReachable ringOn = true ∧ targetDown ringOn 6 = false ∧ (pad64 recd.bytes).length ≤ 2 ^ hring.log2 := by and_intros <;> decide
theorem witness_PegAluInstructionsWriteTheirResult :
    pegIssues (pegState busyPeg) at255.peg ∧ at255.imem ≠ .uncorrectable ∧
    (pegNow (pegState busyPeg) 255).shift (.imm 31) = some 31 ∧
    (pegNow (pegState busyPeg) 255).shift (.reg 1) = none ∧ (pegNow (pegState busyPeg) 255).rg 1 ≠ 0x80000000 ∧
    (pegNow (pegState busyPeg) 255).rg 2 = 0x80000000 ∧ (16 : BitVec 5).toNat + (16 : BitVec 5).toNat ≤ 32 ∧
    32 < (31 : BitVec 5).toNat + (2 : BitVec 5).toNat := by
  refine ⟨⟨by decide, by decide⟩, ?_⟩
  and_intros <;> decide
theorem witness_PegResultsAreSeenAfterTheirDelay :
    let g : Peg := { writes := [{ due := 3, dest := .g 5, value := 1 }, { due := 4, dest := .g 6, value := 2 }], cyc := 3 }
    g.writes.Pairwise (fun a b => a.due ≤ b.due) ∧ 3 < g.cyc + 1 ∧ (∀ w ∈ g.writes, w.dest = .g 5 → w.due ≤ g.cyc + 1) ∧
    (5 : BitVec 5) ≠ 0 ∧ g.cyc + 1 ≤ 4 ∧ (6 : BitVec 5) ≠ 5 := by and_intros <;> decide
/-- The last two lines are for a slot's and a loop's ILLEGAL; that the hardware detects the latter is open. -/
theorem witness_PegBranchesHaveTwoDelaySlots :
    let g := pegNow (pegState busyPeg) 255
    pegIssues (pegState busyPeg) at255.peg ∧ at255.imem ≠ .uncorrectable ∧ g.slots = 0 ∧
    g.nearEnd 0 = false ∧ g.nearEnd 1 = false ∧ g.rg 1 ≠ 0 ∧ g.rg 3 = 0 ∧ g.writes = [] ∧ g.cyc + 2 ≤ 2 ∧
    ¬((3 : BitVec 16).toNat < (g.pc + 3).toNat) ∧ (2 : BitVec 16).toNat < (g.pc + 3).toNat ∧
    pegIssues (pegState { slots := 1 }) 255 ∧ (pegNow (pegState { slots := 1 }) 255).slots ≠ 0 ∧
    (pegNow (pegState { stat := statLE 1, ls := [(1, 1)], le := [(1, 4)], pc := 1 }) 255).nearEnd 1 = true := by
  refine ⟨⟨by decide, by decide⟩, by decide, by decide, by decide, by decide, by decide, by decide, by decide, by decide,
    by decide, by decide, ⟨by decide, by decide⟩, by decide, by decide⟩
theorem witness_PegLoadsAndStoresAccessOwnMemory :
    let g := pegNow (pegState busyPeg) 255
    pegIssues (pegState busyPeg) at255.peg ∧ at255.imem ≠ .uncorrectable ∧ pegAccess 4 (tabGet 0 g.p 0) = none ∧
    at255.dmem ≠ .uncorrectable ∧ ({ at255 with dmem := .uncorrectable } : PegIssue).dmem = .uncorrectable ∧
    pegAccess 4 (tabGet 0 g.p 1) = some .range ∧ pegAccess 4 (tabGet 0 g.p 2) = some .misaligned ∧
    (2 : BitVec 32).toNat % 4 ≠ 0 ∧ ((0x40000 : BitVec 32).toNat % 4 = 0 ∧ 0x40000 < (0x40000 : BitVec 32).toNat + 4) ∧
    ((0x3FFFC : BitVec 32).toNat % 4 = 0 ∧ (0x3FFFC : BitVec 32).toNat + 4 ≤ 0x40000) ∧
    (tabGet 0 busyPeg.cl 0 : BitVec 32) = 0 ∧ (tabGet 0 ({ cl := [(0, 16)] } : Peg).cl 0 : BitVec 32) ≠ 0 := by
  refine ⟨⟨by decide, by decide⟩, ?_⟩
  and_intros <;> decide
theorem witness_PegAccumulatorsHoldFortyBits :
    (let g : Peg := { acc := [(0, 549755813887)] }
     (-549755813888 : Int) ≤ tabGet 0 g.acc 0 + 0 ∧ tabGet 0 g.acc 0 + 0 ≤ 549755813887 ∧ 549755813887 < tabGet 0 g.acc 0 + 1 ∧
     g.has statSAT = false ∧ ({ g with stat := statSAT } : Peg).has statSAT = true) ∧
    pegIssues (pegState busyPeg) at255.peg ∧ at255.imem ≠ .uncorrectable ∧
    tabGet false (pegState busyPeg).peg.scalar ((255 : BitVec 8).toNat / 16) = false ∧
    tabGet false ({ pegState busyPeg with peg.scalar := [(15, true)] } : State).peg.scalar ((255 : BitVec 8).toNat / 16) = true ∧
    (∃ h, pegLoad .ok 3 0 4 (BitVec.ofNat 32) (pegNow (pegState busyPeg) 255) = .ok h) ∧
    (∃ e y, pegLoad .ok 3 1 4 (BitVec.ofNat 32) (pegNow (pegState busyPeg) 255) = .error (e, y)) ∧
    (let v := roundTe (tabGet 0 (pegNow (pegState busyPeg) 255).accSeen 0) (2 ^ (0 : BitVec 5).toNat)
     clampInt (-2147483648) 2147483647 v = v) ∧
    (let v := roundTe (tabGet 0 (pegNow (pegState { accSeen := [(0, 2147483648)] }) 255).accSeen 0) (2 ^ (0 : BitVec 5).toNat)
     clampInt (-2147483648) 2147483647 v ≠ v) := by
  refine ⟨?_, ⟨by decide, by decide⟩, by decide, by decide, by decide, ⟨_, rfl⟩, ⟨_, _, rfl⟩, by decide, by decide⟩
  and_intros <;> decide
theorem witness_PegSystemInstructionsAndEvents :
    pegIssues (pegState busyPeg) at255.peg ∧ at255.imem ≠ .uncorrectable ∧
    ({ at255 with imem := .uncorrectable } : PegIssue).imem = .uncorrectable ∧
    (pegNow (pegState { waiting := true }) 255).issues = false ∧
    ((pegNow (pegState busyPeg) 255).writes = [] ∧ (pegNow (pegState busyPeg) 255).cyc + 2 ≤ 2) ∧
    (255 : BitVec 8).toNat / 16 * 16 + (14 : BitVec 4).toNat ≠ (255 : BitVec 8).toNat ∧
    (255 : BitVec 8).toNat / 16 * 16 + (15 : BitVec 4).toNat = (255 : BitVec 8).toNat ∧
    (let q : QueuedXfer := { t := xfer, bit := 0 }
     4 ≤ (pegNow (pegState { queue := [q, q, q, q] }) 255).queue.length ∧ (pegNow (pegState { queue := [q, q, q] }) 255).queue.length < 4 ∧
     tableLate on xfer = false ∧ tableLate on { xfer with table := some (.delay 0 1) } = false ∧
     tableLate on { xfer with table := some (.delay 0 0) } = true) ∧
    (let g : Peg := { stat := statIE ||| statIPEND 5 ||| 0x20 }
     g.stopped = none ∧ g.start = false ∧ g.slots = 0 ∧ g.has statIE = true ∧ g.source = some 5 ∧
     ({ g with slots := 2, loopSlots := true } : Peg).loopSlots = true) ∧
    (({} : Peg).has statIE = false ∧ ({} : Peg).source = none ∧ ({} : Peg).compare = none ∧
      ({ compare := some 7 } : Peg).compare = some 7 ∧ ({} : Peg).queue = []) := by
  refine ⟨⟨by decide, by decide⟩, ?_⟩
  and_intros <;> decide
theorem witness_PegSystemInstructionsAndEvents_xfer :
    let q : QueuedXfer := { t := { xfer with dst := 0x01F00000 }, bit := 3 }
    let s := pegState { queue := [q] }
    let ends : List PegSpace := [.own 0, .shared 0xF00000]
    (peg s 255).queue = q :: [] ∧ (pegSpace s 255 q.t.src).map (·.1) = some (.own 0) ∧
    (pegSpace s 255 q.t.dst).map (·.1) = some (.shared 0xF00000) ∧ pegSpace s 255 0xFFFFFFFFFFFC = none ∧
    transferOk 255 q.t ends = true ∧ transferOk 255 { q.t with len := 2 } ends = false ∧
    transferOk 255 { q.t with dst := 0xFFFFFFFFFFFC } [.own 0] = true ∧
    (moveTransfer 255 q.t (.own 0) (.shared 0xF00000) none none s).1.length = q.t.len ∧
    (moveTransfer 255 q.t (.own 0) (.shared 0xF00000) (some 2) none s).1.length ≠ q.t.len ∧
    transferRoom s 255 { q.t with src := 0x3FFFE } ≠ q.t.len ∧
    readsOwn s 255 = true ∧ readsOwn (pegState {}) 255 = false ∧ sharedSource (pegState {}) 255 = none ∧
    (sharedSource (pegState { queue := [{ q with t := { xfer with src := 0x01000000, dst := 0 } }] }) 255).isSome = true ∧
    (peg (endTransfer 255 (some 0) none s) 255).stopped = none ∧
    (peg (endTransfer 255 (some 0) none (pegState { queue := [q], stopped := some (.range, 0) })) 255).stopped ≠ none := by
  and_intros <;> decide
/-- Control blocks as they are received on a lane. -/
def ctl (c : Control) : GulBlock := received 0 { header := 2, payload := payloadOf (controlBytes c) }
theorem witness_GulLinksComeUpInOrder_detect :
    (let s := gulQuad .detect {}
     s.dev.state ≠ .off ∧ (quad s 31).state = .detect ∧ (quad s 31).mode = .gul ∧
     (∀ j, j < (quad s 31).width → testBit (1 : BitVec 4).toNat j = true) ∧
     (∃ j, j < (quad s 31).width ∧ testBit (0 : BitVec 4).toNat j = false)) ∧
    (quad on 31).state ≠ .detect ∧ (quad on 31).mode ≠ .gul := by
  refine ⟨⟨by decide, by decide, by decide, by decide, 0, by decide, by decide⟩, by decide, by decide⟩
theorem witness_GulLinksComeUpInOrder_train :
    controlIn (ctl (.train 0 1)) = some (.train 0 1) ∧ controlIn (ctl .idle) = some .idle ∧ controlIn blk = none ∧
    (let s := gulQuad .active {}
     (quad s 31).state = .active ∧ (quad s 31).mode = .gul ∧ laneIn 124 < (quad s 31).inUse ∧ ¬(laneIn 127 < (quad s 31).inUse) ∧
     (quad s 31).napRx = false ∧ (quad (modQuad 31 (fun q => { q with napRx := true }) s) 31).napRx = true) ∧
    (let s := gulQuad .train { rxReadySent := true }
     quadOf (124 : BitVec 7).toNat = 31 ∧ (quad s 31).mode = .gul ∧ (quad s 31).state = .train ∧
     laneIn (124 : BitVec 7).toNat < (quad s 31).width ∧ allReady (trainLane 124 0 1 s) 31 = true ∧
     s.time.tb2 < (quad (trainLane 124 0 1 s) 31).readySince.getD s.time.tb2 + 1000000 ∧
     allReady (trainLane 124 0 0 s) 31 = false ∧
     (let t := modQuad 31 (fun q => { q with readySince := some 0 }) s
      allReady (trainLane 124 0 1 t) 31 = true ∧ (quad (trainLane 124 0 1 t) 31).readySince.getD t.time.tb2 + 1000000 ≤ t.time.tb2)) := by
  and_intros <;> decide
theorem witness_GulLinksComeUpInOrder_lock :
    (let x : Lane := { huntRun := 127 }
     x.blockLock = false ∧ headerValid 1 = true ∧ headerValid 3 = false ∧ 127 ≤ x.huntRun ∧ ({} : Lane).huntRun < 127 ∧
     ({ blockLock := true } : Lane).blockLock = true) ∧
    (let s := gulQuad .lock { blockLock := true, winBad := 23 }
     receiving (quad s 31) = true ∧ (lane s 124).blockLock = true ∧ 24 ≤ (lane s 124).winBad + bit (!headerValid 0) ∧
     (lane s 124).winBad + bit (!headerValid 2) < 24 ∧ receiving (quad on 31) = false) ∧
    (let s := gulQuad .lock { blockLock := true, alignCount := some 65535, alignMissed := 1 }
     controlIn (ctl (.align 0 1 0)) = some (.align 0 1 0) ∧ receiving (quad s 31) = true ∧ (lane s 124).blockLock = true ∧
     (∀ p, (lane s 124).alignCount = some p → (p + 1) % 65536 = 0) ∧ (0 : Byte).toNat = laneIn 124 ∧
     laneIn 124 < (1 : Byte).toNat ∧ 256 ≤ 256 ∧ alignAgrees s 124 0 = true ∧ ¬(laneIn 124 < (0 : Byte).toNat) ∧
     (lane s 124).alignCount ≠ none ∧ (lane s 124).alignMissed ≠ 0 ∧
     (lane (gulQuad .lock { alignCount := some 0 }) 124).alignMissed = 0 ∧ (lane on 124).alignCount = none) ∧
    (let s := gulQuad .lock { blockLock := true, deskewed := true, codewordLock := true }
     (quad s 31).state = .lock ∧ (quad s 31).mode = .gul ∧ (∀ j, j < (quad s 31).width → (lane s (4 * 31 + j)).blockLock = true ∧
       (lane s (4 * 31 + j)).deskewed = true ∧ ((lane s (4 * 31 + j)).codewordLock = true ∨ fecWanted (quad s 31) = false)) ∧
     ((quad s 31).minWidth ≤ 1 ∧ 1 ≤ (quad s 31).width) ∧ ¬(2 ≤ (quad s 31).width) ∧ 1 = (quad s 31).width) ∧
    (let s := { on with lanes.quads := [(31, { mode := .gul, state := .lock, width := 2, minWidth := 1 })],
                        lanes.lanes := [(124, { blockLock := true, deskewed := true })] }
     (quad s 31).minWidth ≤ 1 ∧ 1 < (quad s 31).width ∧ (∀ j, j < 1 → (lane s (4 * 31 + j)).blockLock = true ∧
       (lane s (4 * 31 + j)).deskewed = true) ∧ ¬(∀ j, j < 2 → (lane s (4 * 31 + j)).blockLock = true)) ∧
    ¬(∀ j, j < 1 → (lane (gulQuad .lock {}) (4 * 31 + j)).blockLock = true) := by and_intros <;> decide
theorem witness_GulLinksComeUpInOrder :
    controlIn (ctl (.cap 2 (List.replicate 6 0))) = some (.cap 2 (List.replicate 6 0)) ∧
    (let c : CapSet := { widths := 1, fec := 2 }
     let q : Quad := { mode := .gul, state := .exchange, width := 1, minWidth := 1, offerWidth := 1, capSeen := 3, capNow := c }
     q.state = .exchange ∧ q.mode = .gul ∧
     (2 : Byte).toNat ≤ 2 ∧ q.capSeen ||| BitVec.ofNat 3 (2 ^ (2 : Byte).toNat) = 7 ∧ q.capLast = none ∧
     capTake 2 (List.replicate 6 0) c = c ∧ ({ q with capLast := some c } : Quad).capLast = some c ∧ { c with ack := c.ack } = c ∧
     (0 : BitVec 3) ||| BitVec.ofNat 3 (2 ^ (2 : Byte).toNat) ≠ 7 ∧ c.rate = q.rate ∧
     agreedWidth q c = some 1 ∧ agreedFec q c = some true ∧ c.ack = false ∧ ({ c with ack := true } : CapSet).ack = true ∧
     agreedFec q { c with fec := 0 } = none ∧ agreedWidth q { c with widths := 0 } = none ∧ q.fec ≤ 2 ∧ c.fec ≤ 2) ∧
    (let s := { on with twin.quad := some 31, twin.expect := 7 }
     capExpected s 31 { identity := 8 } = false ∧ capExpected s 31 { identity := 7 } = true ∧ s.twin.quad = some 31 ∧ s.twin.expect ≠ 0) ∧
    (quad (gulQuad .exchange {}) 31).state = .exchange := by and_intros <;> decide
theorem witness_LinksSleepCorrectAndReport :
    (let q : Quad := { mode := .gul, state := .active, nap := true, idleNs := 1000, napAgreed := true }
     napOn q = true ∧ q.nap = true ∧ 0 < q.idleNs ∧ q.napTx = false ∧ q.napAsked = false ∧ q.wakingUntil ≤ on.time.tb2 ∧
     on.time.tb2 < ({ q with wakingUntil := 50000001 } : Quad).wakingUntil ∧ ({ q with napAsked := true } : Quad).napAsked = true ∧
     ({ q with napTx := true } : Quad).napTx = true ∧ ({ q with napRx := true } : Quad).napRx = true ∧ q.napRx = false ∧
     q.exitFrom = none ∧ ({ q with exitFrom := some 49999000 } : Quad).exitFrom = some 49999000) ∧
    (let s := gulQuad .active { alignCount := some 65535 }
     let x : ExitLane := { headers := List.replicate 32 2, align := received 0 { header := 2, payload := payloadOf (controlBytes (.align 0 1 0)) } }
     exitHolds s 31 [x] = true ∧ exitHolds s 31 [{ x with headers := [2] }] = false ∧ exitHolds s 31 [] = false) ∧
    napOn (quad on 31) = false ∧
    (let q : Quad := { mode := .gul, state := .active, fecOn := true }
     isEth q.mode = false ∧ receiving q = true ∧ fecRuns q = true ∧ ({ codewordLock := true } : Lane).codewordLock = true ∧
     ({} : Lane).codewordLock = false) ∧
    (isEth (quad (withQuad { mode := .eth200 }) 0).mode = true ∧ quadEnabled (withQuad { mode := .eth200 }) 0 = true ∧
      quadEnabled { on with tether.quadEnable := 0 } 0 = false) ∧
    (let q : Quad := { mode := .eth200, state := .detect }
     pageAgrees q (ethPage q) = true ∧ pageAgrees q (ethPage { q with mode := .eth100 }) = false ∧ q.state = .detect ∧
     ({ q with state := .train } : Quad).state = .train ∧ ({ q with state := .lock } : Quad).state = .lock) ∧
    (let o : OStream := { ostr with ring := false, dest := 3 }
     let f : Flow := .egress .udp4 31 none 0 0 0 0 0 0 64 1408 8
     let i := { img with items := [{ sItem 8 with h10 := 3 }] }
     let s := { obs i with ingest.flows := [(3, some f)], out.streams := [(0, some o)], lanes.quads := [(31, { outFrames := 10 })] }
     quadUsed s 31 = true ∧ linkUp s 31 = false ∧ 10 ≤ (quad s 31).outFrames) ∧
    quadUsed on 31 = false ∧
    (let s := withQuad { mode := .eth100, state := .active }
     isEth (quad s 0).mode = true ∧ quadEnabled s 0 = true ∧ (quad s 0).pattern = false) ∧
    testBit on.power.vmodOff.toNat ((31 : BitVec 5).toNat / 8) = false ∧
    testBit ({ on with power.vmodOff := 8 } : State).power.vmodOff.toNat ((31 : BitVec 5).toNat / 8) = true ∧
    [1, 0x0C].findIdx? (fun b : Byte => b.toNat = auiCode .eth100) = some 1 ∧
    [1].findIdx? (fun b : Byte => b.toNat = auiCode .eth100) = none ∧
    (quad on 31).modulePresent = false ∧
    (quad (withQuad { modulePresent := true }) 0).modulePresent = true ∧
    (let s := { on with lanes.quads := [(0, { mode := .gul, pattern := true })], lanes.lanes := [(0, { genPattern := some (0, 0) })] }
     (quad s (quadOf 0)).pattern = true ∧ quadEnabled s (quadOf 0) = true ∧ (lane s 0).genPattern = some (0, 0)) := by
  and_intros <;> decide
/-- No bits are whole; a word of which the generator's first three factors are the divisors needs a locator of degree 7. -/
theorem witness_LinksSleepCorrectAndReport_fec :
    bchErrors [] = some 0 ∧ bchErrors [37567215033894567936] = none := by and_intros <;> decide +kernel
theorem witness_ReferencesQualifyAndSwitch :
    on.dev.state ≠ .off ∧ on.compass.switchTo = none ∧
    (let s := { on with compass.switchTo := some 0 }
     s.compass.switchTo = some 0 ∧ hasPhase s 0 = true ∧ switchStep 0 1 s ≠ 0 ∧ switchStep 0 0 s = 0 ∧ hasPhase s 2 = false ∧
     (∀ a, s.compass.stepFrom = some a → a ≤ s.time.frame) ∧ s.time.frame ≤ 0 ∧
     0 + 1 ≤ s.time.frame + ceilDiv (switchStep 0 1 s).natAbs (halfGuard s) + (source s 0).stepM) ∧
    on.compass.stepLeft.natAbs ≤ halfGuard on ∧ (filterEdge (bit true) 99 on).1 = false ∧ (filterEdge (bit true) 100 on).1 = true ∧
    16 < (17 : Int).natAbs ∧ (-16 : Int).natAbs ≤ 16 ∧ (∀ x, x < 7 → (source on x).qualified = false) ∧
    on.compass.forced = none := by
  and_intros <;> decide
theorem witness_SecondsTimeBasesAndTriggers :
    on.dev.state ≠ .off ∧
    (let s := { pairedAs false with time.tb0 := 2000000000, twin.handoverAt := some 2000 }
     let r := { pairedAs true with time.tb0 := 2000000000, twin.reclaimAt := some 2000, twin.linkHeard := true }
     s.twin.paired = true ∧ 2000 * periodNs s ≤ s.time.tb0 ∧ leadsFrom s = true ∧ leadsFrom r = false ∧
     r.twin.handoverAt = none ∧ r.twin.linkHeard = true ∧ s.time.tb0 < 2001 * periodNs s ∧
     leadsFrom { s with twin.handoverAt := some 2001 } = leadOrAlone s) ∧
    on.time.tb0Load = none ∧ ({ on with time.tb0Load := some 5 } : State).time.tb0Load = some 5 ∧ on.compass.ptpQuad = none ∧
    (let s := { on with compass.ptpQuad := some 31 }
     let x : PtpDataset := { priority1 := 128, identity := 1 }
     let y : PtpDataset := { priority1 := 127, identity := 2 }
     let t := { s with compass.ptpMaster := some x, compass.ptpEverLocked := true, compass.ptpPending := some 9
                       compass.ptpRaw := some (-3), compass.ptpReq := some (65535, 7), compass.ptpDelay := some 0 }
     s.compass.ptpQuad = some (31 : BitVec 5).toNat ∧ s.compass.ptpDomain = 0 ∧ s.compass.ptpQuad ≠ some (0 : BitVec 5).toNat ∧
     s.compass.ptpMaster = none ∧ s.compass.ptpEverLocked = false ∧ s.compass.ptpPending = none ∧ s.compass.ptpRaw = none ∧
     s.compass.ptpDelay = none ∧
     t.compass.ptpMaster = some x ∧ x.identity = 1 ∧ y.identity ≠ x.identity ∧ betterMaster y x = true ∧ betterMaster x y = false ∧
     t.compass.ptpEverLocked = true ∧ t.compass.ptpPending = some 9 ∧ t.compass.ptpRaw = some (-3) ∧
     t.compass.ptpReq = some (65535, 7) ∧ t.compass.ptpReq ≠ some (0, 7) ∧ t.compass.ptpDelay = some 0) ∧
    (let t := { on with compass.outputs := [(2, { driven := true })] }
     (timingOut t 2).driven = true) ∧
    on.compass.relay = none ∧
    (let s := { on with compass.relay := some (0, 1), tether.quadEnable := 1 }
     (quadEnabled s 0 && quadEnabled s 1) = false) ∧
    (let f := List.replicate 12 0 ++ [0x88, 0xF7] ++ List.replicate 60 0
     let s := { on with compass.relay := some (0, 1), tether.quadEnable := 3 }
     s.compass.relay = some (0, 1) ∧ quadEnabled s 0 = true ∧ quadEnabled s 1 = true ∧ leadOrAlone s = true ∧ leadOrAlone (pairedAs false) = false ∧ ptpPlace f = some 14 ∧
     ptpPlace [] = none ∧ ptpKind (u8 f 14 % 16) = .sync ∧ ptpKind 2 = .peerDelay ∧
     tabGet 0 s.lanes.controlSent 0 < s.tether.controlRate ∧
     ({ s with tether.controlRate := 0 } : State).tether.controlRate ≤ tabGet 0 s.lanes.controlSent 0) ∧
    trigger on 15 = none ∧
    (let x : Trigger := { onTb2 := false, action := .fan, time := 0, period := 1000, armed := 0 }
     let s := { on with compass.triggers := [(15, some x)] }
     trigger s 15 = some x ∧ trigTurn s 15 x = true ∧ 0 < x.period ∧ x.action = .fan ∧
     trigTurn { on with compass.triggers := [(0, some x), (15, some x)] } 15 x = false ∧
     ({ x with period := 0 } : Trigger).period = 0) := by and_intros <;> decide
theorem witness_PinEdgesAreFiltered :
    (let s := { on with compass.pins := [(2, { pinDefault 2 with stuck := true })] }
     (pin s 2).stuck = true) ∧
    (pin on 2).stuck = false ∧ 99 < (pin on 2).minWidth ∧ (pin on 2).minWidth ≤ 100 ∧
    (let s := { on with compass.pins := [(2, { pinDefault 2 with lastAccepted := some 50000000 })] }
     (pin s 2).lastAccepted = some 50000000 ∧ s.time.tb2 < 50000000 + lockoutOf s 2 ∧
     50000000 + lockoutOf s 2 ≤ ({ s with time.tb2 := 150000000 } : State).time.tb2) ∧
    (filterEdge (4 + 3) 9999 on).1 = false ∧ (filterEdge (4 + 3) 10000 on).1 = true ∧
    (inject { on with health.injects := [(3, { trigger := some 2 })] } 3).trigger = some 2 ∧
    3 < (4 : BitVec 4).toNat ∧ (3 : BitVec 4).toNat ≤ 3 ∧ (pin on 3).stuck = false ∧ (1 : BitVec 4).toNat ≤ 1 := by
  and_intros <;> decide
theorem witness_DramAddressesMapOneToOne :
    let l := [(0, 1), (5, 2)]
    (l.map (·.1)).Nodup ∧ (∃ e ∈ l, 0 < e.2) ∧ 3 * 2 ^ 30 - 1 < (l.map (·.2)).sum * 2 ^ 30 ∧
    mapAddr (interleave l) (3 * 2 ^ 30 - 1) = some (5, 2 * 2 ^ 30 - 1) := by and_intros <;> decide
theorem witness_DramReadsAndWritesKeepOrder :
    dramTop on ≤ 0 ∧ dramMap on 0 = none ∧ dramTop dramOn ≤ 2 ^ 30 ∧
    (2 ^ 30 - 1 < dramTop dramOn ∧ dramMap dramOn (2 ^ 30 - 1) = some (0, 2 ^ 30 - 1) ∧ (dramCh dramOn 0).lost = false) ∧
    ([] : List Nat).dedup = [] ∧ [3, 3].dedup = [3] ∧ [3, 4].dedup = [3, 4] ∧ [3, 4, 5].dedup = 3 :: 4 :: 5 :: [] ∧
    (let s := { on with dram.chans := [(0, { capGiB := 1, trained := true, lost := true })] }
     dramMap s 0 = some (0, 0) ∧ (dramCh s 0).lost = true ∧ chanLost s 0 = true) ∧ chanLost dramOn 0 = false ∧
    (let r : DramReq := { cls := 4, addr := 0, kind := .read [] }
     let w : DramReq := { cls := 2, addr := 8, kind := .write [1] }
     let x : DramReq := { cls := 3, addr := 64, kind := .flag }
     let s := { dramOn with dram.queue := [r, x, w] }
     let p := fun (r : DramReq) => r.isWrite && onChannel s 0 r.addr
     nextReq dramOn p = none ∧ nextReq s p = some r ∧ r.isWrite = false ∧ writeWaits s 0 = true ∧ writeWaits dramOn 0 = false ∧
     s.dram.queue.filter (fun x => sameBurst x.addr r.addr) = [r, w] ∧
     [w, x].find? (fun y => reqAlive s y && sameBurst y.addr r.addr) = some w ∧
     [x].find? (fun y => reqAlive s y && sameBurst y.addr r.addr) = none) ∧
    (let s := { dramOn with dram.queue := [burst] }
     let p := fun (r : DramReq) => r.isWrite && onChannel s 0 r.addr
     nextReq s p = some burst ∧ burst.isWrite = true ∧ reqAlive s burst = true ∧ nextReq s (fun r => r.cls = 1) = none) := by
  and_intros <;> decide
theorem witness_DramChannelsAreKept :
    on.dev.state ≠ .off ∧ chansInUse dramOn ≠ [] ∧ (dramCh on 11).trained = false ∧ (dramCh dramOn 0).trained = true ∧ (dramCh dramOn 0).lost = false ∧
    (let s := { on with dram.chans := [(0, { capGiB := 1, trained := true, ueSecond := 4097, lost := true })] }
     4096 < (dramCh s 0).ueSecond ∧ (dramCh s 0).lost = true) ∧ (dramCh dramOn 0).ueSecond ≤ 4096 ∧
    tabGet 0 (dramCh dramOn 0).postponed 0 < 2 ∧
    2 ≤ tabGet 0 (dramCh { on with dram.chans := [(0, { trained := true, postponed := [(0, 2)] })] } 0).postponed 0 ∧
    bankBusy dramOn 0 0 = false ∧
    (let s := { dramOn with dram.chans := [(0, { capGiB := 1, trained := true, dimms := [{}, {}], hubTemps := [(1, 1521)] })] }
     bit true < (dramCh s 0).dimms.length ∧ dimmHot (dramCh s 0) = true ∧ (dramCh dramOn 0).dimms.length ≤ bit false ∧
     dimmHot (dramCh dramOn 0) = false) ∧ 120 ≤ 120 ∧ 9 < 120 ∧ (dramCh dramOn (9 / 10)).trained = true ∧
    12 ≤ (12 : BitVec 4).toNat ∧ (11 : BitVec 4).toNat < 12 ∧ on.host.owed.find? (fun e => isDramRetrain e.1) = none ∧
    (let q := arg8 1
     let s := { dramOn with host.owed := [(.dramRetrain q, q)] }
     s.host.owed.find? (fun e => isDramRetrain e.1) = some (.dramRetrain q, q) ∧ testBit (u16 q.arg 0) 0 = true ∧
     (dramCh s 0).excluded = false ∧ testBit (1 : BitVec 12).toNat 0 = true ∧ testBit (u16 q.arg 0) 11 = false ∧
     (let e : LaneEye := { read := [{ vref := 5, lo := -8, hi := 8 }], write := [{ vref := 6, lo := 0, hi := 16 }], height := 30 }
      channelOk (List.replicate 120 e) 0 = true ∧ channelOk (List.replicate 120 { e with height := 29 }) 0 = false ∧
      channelOk [] 0 = false)) := by
  and_intros <;> decide
/-- A request waits at the bank of its address. -/
theorem busy_of_request (s : State) (r : DramReq) (c loc : Nat) (h : s.dram.queue = [r]) (hm : dramMap s r.addr = some (c, loc)) :
    bankBusy s c (bankRow s c loc).1 = true := by
  simp [bankBusy, h, hm]
theorem witness_DramChannelsAreKept_busy :
    let s := { dramOn with dram.queue := [burst] }
    bankBusy s 0 (bankRow s 0 0).1 = true :=
  busy_of_request _ burst 0 0 rfl (by decide)
theorem witness_CrossbarGrantsInTurn :
    on.dev.state ≠ .off ∧ hasPath on 20 5 0 4 = false ∧ hasPath on 2 6 (2 ^ 64 - 8) 9 = false ∧
    hasPath on 2 6 (2 ^ 64 - 8) 8 = true ∧ targetDown on (portOf 2 6 0) = false ∧
    (let s := { on with dma.ports := [(6, { down := true })] }
     hasPath s 2 6 0 8 = true ∧ targetDown s (portOf 2 6 0) = true) ∧
    (let r : PortReq := { master := 0, addr := 0, bytes := 8, beats := 1, data := [], arrival := 50000000 }
     let s := { on with dma.ports := [(5, { idle := false, freeAt := 50000001, waiting := [r] })] }
     (port (portSettle 5 s) 5).waiting.any (fun r => r.master = 0) = true ∧
     (port (portSettle 5 on) 5).waiting.any (fun r => r.master = 0) = false ∧ rrPick 22 [r] = some r ∧
     (port on 5).idle = true ∧ ¬((port s 5).idle = true ∨ (port s 5).waiting = [] ∧ (port s 5).freeAt + 8 ≤ r.arrival)) ∧
    (let s := { on with dma.ports := [(5, { idle := false, freeAt := 50000001 })] }
     (port (portSettle 5 s) 5).idle = false ∧ (port (portSettle 5 s) 5).waiting = [] ∧ (port (portSettle 5 on) 5).idle = true) ∧
    (portsOf (7 : BitVec 5).toNat ≠ [] ∧ (7 : BitVec 5).toNat ≤ 7 ∧ (7 : BitVec 5) ≠ 1) ∧
    (let r : PortReq := { master := 22, addr := 0, bytes := 256, beats := 4, data := [], arrival := 49999999 }
     let s := { on with dma.ports := [(5, { idle := false, waiting := [r] })] }
     targetDown s 5 = false ∧ (port s 5).waiting = [r] ∧ r.arrival ≤ 2 ^ 64 ∧ max (port s 5).freeAt r.arrival < s.time.tb2 ∧
     ({ s with time.tb2 := 49999999 } : State).time.tb2 ≤ max (port s 5).freeAt r.arrival) := by
  and_intros <;> decide
theorem witness_DmaCopiesInBurstsAndCompletes :
    (descBad false desc = false ∧ 63 < desc.len) ∧
    (let d := { desc with src := 0, dst := 64, len := 128 }
     descBad true d = false ∧ d.srcSpace = d.dstSpace ∧ descDown d = true ∧ descDown desc = false) ∧
    (0 < 1 ∧ ([[1]] : List (List Byte)) ≠ []) ∧
    on.dev.state ≠ .off ∧ (dmaCh on 15).queue = [] ∧ running on 15 = none ∧ readDesc on 15 = none ∧ writeDesc on 15 = none ∧
    (let s := { dramOn with dma.chans := [(15, { queue := [desc] })] }
     let t := { s with dma.chans := [(14, { queue := [desc] }), (15, { queue := [desc] })], dma.turn := 13 }
     let part := { s with dma.chans := [(15, { queue := [desc], fetched := 64, buffer := [(0, List.replicate 64 7)] })] }
     readDesc s 15 = some desc ∧ engineTurn s.dma.turn 15 (fun k => (readDesc s k).isSome) = true ∧
     readDesc t 15 = some desc ∧ engineTurn t.dma.turn 15 (fun k => (readDesc t k).isSome) = false ∧
     (dmaCh s 15).queue = desc :: [] ∧ targetStop 2 3 0 64 s = none ∧
     writeDesc part 15 = some desc ∧ engineTurn part.dma.writeTurn 15 (fun k => (writeDesc part k).isSome) = true ∧
     (dmaCh part 15).buffer = (0, List.replicate 64 7) :: [] ∧ readDesc part 15 = none ∧ targetStop 3 3 4096 64 part = none ∧
     descOutcome (ringChannel s 15) (dmaCh s 15) desc = none) ∧
    (let s := { dramOn with dma.chans := [(15, { queue := [desc] })] }
     (spaceRead 3 0 64 true s).2.1 = true ∧ (spaceRead 3 0 64 false s).2.1 = false) ∧
    (let s := { on with dma.ports := [(3, { down := true })] }
     (targetStop 2 3 0 64 s).isSome = true) ∧
    (let d := { desc with srcSpace := 6, dstSpace := 6 }
     hostReachable off = false ∧ d.dstSpace = 6 ∧ hostRangeOk on false (2 ^ 63) 64 = false ∧ hostRangeOk on true (2 ^ 63) 64 = false) ∧
    descBad false { desc with len := 63 } = true ∧ ({ desc with abort := true } : Desc).abort = true ∧
    (let x : DmaCh := { queue := [desc], fetched := 64, issued := 64 }
     descOutcome false x desc = some (0, 0)) := by and_intros <;> decide
theorem witness_PowerAndResetSwitchThePart :
    (let s := { off with power.pwrGood := false }
     s.power.tripLatch = none ∧ s.power.pwrGood = false ∧ s.power.alwaysOn = true) ∧
    ({ off with power.alwaysOn := false } : State).power.alwaysOn = false ∧
    (off.dev.state = .off ∧ off.power.pwrGood = true ∧ off.power.tripLatch = none) ∧
    ({ off with power.tripLatch := some 23 } : State).power.tripLatch.isSome = true ∧ on.power.pwrGood = true ∧
    on.dev.state ≠ .off ∧ (23 : BitVec 5).toNat < 24 ∧ 24 ≤ (24 : BitVec 5).toNat ∧
    drawAt on 0 .above5 = false ∧ 100 * 0 ≤ 105 * capWatts on ∧ 105 * capWatts on < 100 * 400 ∧ 115 * capWatts on < 100 * 400 := by and_intros <;> decide
theorem witness_OnlyVerifiedFirmwareStarts :
    (on.dev.state ≠ .off ∧ on.dev.state ≠ .boot) ∧ (State.reset.dev.state = .boot ∧ State.reset.boot.started = none) ∧
    (let s := { State.reset with boot.started := some true, boot.zeroing := true, boot.trying := true, boot.security := (5, true) }
     s.dev.state = .boot ∧ s.boot.started = some true ∧ s.boot.zeroing = true ∧ s.boot.trying = true ∧ antiRollback s < 5 ∧
     s.boot.versionWords.length < 32) ∧
    (let s := { State.reset with boot.started := some false, boot.versionWords := List.replicate 32 (some 4), boot.security := (5, true) }
     antiRollback s < 5 ∧ 32 ≤ s.boot.versionWords.length ∧ s.boot.trying = false ∧ s.boot.security.1 = 5) ∧
    State.reset.boot.zeroing = false ∧ on.boot.started = none ∧
    (let e : LaneEye := { read := [{ vref := 5, lo := -8, hi := 8 }], write := [{ vref := 6, lo := 0, hi := 16 }], height := 30 }
     let u := bootDram ⟨0, [{}] :: List.replicate 11 [], 1, List.replicate 10 e, 0, 0⟩ { State.reset with dram.excludeNext := 0xFFE }
     wantedChans u = [0] ∧ (dramCh u 0).trained = true) ∧ State.reset.boot.security.2 = false ∧
    wantedChans (bootDram ⟨0, [], 0, [], 0, 0⟩ { State.reset with dram.excludeNext := 0xFFF }) = [] ∧
    (let u := bootDram ⟨0, [], 0, [], 0, 0⟩ State.reset
     11 ∈ wantedChans u ∧ (dramCh u 11).trained = false) ∧
    bankState { State.reset with boot.copy0 := { valid := true, stateB := .pending } } true = .pending ∧
    bankState { State.reset with boot.copy1 := { valid := true, seq := 1, stateB := .pending } } true = .pending ∧
    (bankControl { State.reset with boot.copy0 := { valid := true, seq := 2 ^ 32 - 3 } }).seq + 2 < 2 ^ 32 ∧
    (bankControl State.reset).seq + 1 < 2 ^ 32 := by and_intros <;> decide
/-- A bank that no container stands in: no firmware starts from it, and BOOT ends on the ROM. -/
theorem witness_OnlyVerifiedFirmwareStarts_bad :
    formatOk false false (bankBytes true 128 State.reset) = false := by decide
theorem witness_UpdatesWriteOnlyTheInactiveBank :
    owedOf isUpdateData on = none ∧ owedOf isUpdateEnd on = none ∧
    (let q := bulkReq 2
     let s := { on with host.owed := [(.fwUpdateData q, q)] }
     owedOf isUpdateData s = some (.fwUpdateData q, q) ∧ (bulkFetch (bulk q.arg 0) s).2.1 = none ∧ (bulk q.arg 0).kind = 2 ∧
     (bulkFetch (bulk hostReq.arg 0) off).2.1 ≠ none) ∧
    on.services.find? (fun x => isUpdateEnd x.cmd) = none ∧
    (let x : ServiceOp := { service with cmd := .fwUpdateEnd (req []), seq := 1 }
     let s := { on with services := [x] }
     s.services.find? (fun x => isUpdateEnd x.cmd) = some x ∧ engineServes s x.seq = true) ∧
    (checkContainer false true (dramTrained on) (bankBytes (inactive on) (on.boot.updateLen.getD 0) on) on).code ≠ 0 ∧
    on.dev.state ≠ .update ∧
    (let s := { on with dev.state := .update, boot.rebootDue := true }
     s.dev.state = .update ∧ s.boot.rebootDue = true ∧ endUnwritten s = false ∧
     endUnwritten { s with evr.due := [{ ev true with payload := [3, 14] }] } = true) ∧
    on.host.owed.find? (fun e => isEnroll 1 e || isEnroll 2 e || isEnroll 3 e) = none ∧
    (let q := bulkReq 3
     let s := { on with host.owed := [(.fwKeyEnroll q, q)] }
     s.host.owed.find? (fun e => isEnroll 1 e || isEnroll 2 e || isEnroll 3 e) = some (.fwKeyEnroll q, q) ∧
     (bulkFetch (bulk q.arg 8) s).2.1 = none ∧ 0 ≠ u8 q.arg 0 ∧ keySlot s (u8 q.arg 0) = none ∧ keySlot s 0 ≠ none ∧
     (bulkFetch (bulk (List.replicate 8 0 ++ hostReq.arg) 8) off).2.1 ≠ none) := by and_intros <;> decide
theorem witness_RecorderKeepsEveryCount :
    on.recorder.state = 0 ∧ on.recorder.clearing = false ∧ on.recorder.toSeal = [] ∧
    ({ on with recorder.state := 1 } : State).recorder.state ≠ 0 ∧
    (let r : RecRecord := { cls := 1, partialEpoch := false, hour := 0, power := 0, resets := 0, set := {} }
     let s := { on with recorder.toSeal := [r] }
     s.recorder.clearing = false ∧ s.recorder.state = 0 ∧ s.recorder.toSeal = r :: []) ∧
    owedOf isRecClear on = none ∧
    owedOf isRecClear { on with host.owed := [(.recClear (arg8 0), arg8 0)] } = some (.recClear (arg8 0), arg8 0) ∧
    on.reads.find? (fun r => isRecRead r.cmd) = none ∧
    (let q := bulkReq 2
     let r : ReadOut := { cmd := .recRead q, req := q, bulkOff := 0, bytes := [1], extra := [] }
     let s := { on with reads := [r] }
     s.reads.find? (fun r => isRecRead r.cmd) = some r ∧ (bulkPut (bulk q.arg 0) [1] s).1 = none ∧
     (bulkPut (bulk hostReq.arg 0) [1] ringOn).1 = none ∧ (bulkPut (bulk hostReq.arg 0) [1] off).1 = some .hostDma) ∧ 0 < ({ count := 1 } : ClassSet).count := by and_intros <;> decide
/-- The first slot of an empty log is good. -/
theorem witness_RecorderKeepsEveryCount_slot : nextGood on.recorder 0 = some 0 ∧
    nextGood on.recorder (recSectors * slotsPerSector) = none := by and_intros <;> decide
/-- Every sector bad. -/
theorem witness_RecorderKeepsEveryCount_bad :
    recSectors ≤ ({ on with recorder.badSectors := List.range recSectors } : State).recorder.badSectors.length := by simp
theorem witness_HealthRoundsCalibrationsAndFans :
    (2580 : Int) < 63196 ∧ 2 < 3 ∧
    (dwell 1760 { upRuns := [3, 3, 3] }).reached.getD 2 false = true ∧
    on.health.converting = false ∧ ({ on with health.converting := true } : State).health.converting = true ∧
    (inject on 3).trigger ≠ some 0 ∧ (inject { on with health.injects := [(3, { trigger := some 0 })] } 3).trigger = some 0 ∧
    (injectReady on 3 = false ∧ (inject on 3).due = []) ∧
    (let s := { on with health.injects := [(3, { waiting := true })] }
     injectReady s 3 = true) ∧
    (let s := { on with health.injects := [(3, { due := [7, 9] })] }
     injectReady s 3 = false ∧ (inject s 3).due = 7 :: [9] ∧ (inject s 3).waiting = false ∧ (inject s 3).latched = false ∧
     (inject s 3).busyUntil ≤ max s.time.tb2 7 ∧ calBusy s (inject s 3).channel = false ∧
     (sharing s (inject s 3).channel).any (fun k => k ≠ 3 && ((inject s k).waiting || (inject s k).latched ||
       decide (max s.time.tb2 7 < (inject s k).busyUntil))) = false) ∧
    (let s := { on with health.injects := [(3, { due := [7] })], health.calRunning := some (0, 0, arg8 0), health.calStart := some 0 }
     injectReady s 3 = false ∧ calBusy s (inject s 3).channel = true) ∧
    (let s := { on with health.injects := [(3, { due := [7], busyUntil := 50000001 })] }
     injectReady s 3 = false ∧ max s.time.tb2 7 < (inject s 3).busyUntil) ∧
    on.health.calRunning = none ∧
    (let s := { on with health.calRunning := some (0, 1, arg8 0), health.calStart := some 0, health.calStep0 := [(0, some 2580)] }
     s.health.calRunning = some (0, 1, arg8 0) ∧ s.health.calStart = some 0 ∧ (tabGet none s.health.calStep0 0).getD 0 = 2580 ∧ (1880 : Int) ≤ 2580 ∧
     (2580 : Int) ≤ 3160 ∧ (5868112 : Int) ≤ 100 * (roundTe 1011136 16 - 2580) ∧ 100 * (roundTe 1011136 16 - 2580) ≤ 6231088 ∧
     6231088 < 100 * (roundTe 1048320 16 - 2580)) ∧
    on.health.fanDue = 0 ∧ 0 < ({ on with health.fanDue := 1 } : State).health.fanDue ∧ (fan on 3).lowSince = none ∧
    (let s := { on with health.fans := [(3, { lowSince := some 0 })] }
     (fan s 3).lowSince = some 0 ∧ fanSlow (elapseTo (0 + 3000000000) s) 3 = true ∧ (fan s 3).fail = false ∧
     fanFull { s with health.fans := [(3, { fail := true })] } 0 = true) := by
  and_intros <;> decide
theorem witness_TwinRolesChangeHands :
    (let s := { on with twin.homeLead := true, twin.epoch := 3, twin.heardEpoch := 3 }
     let t := { on with twin.epoch := 3, twin.heardEpoch := 3 }
     s.twin.homeLead = !t.twin.homeLead ∧ s.twin.leadRunLink = t.twin.leadRunLink ∧ s.twin.heardEpoch = t.twin.epoch ∧
     t.twin.heardEpoch = s.twin.epoch ∧ testBit s.twin.partnerRole.toNat 2 = t.twin.acqSilent ∧
     testBit t.twin.partnerRole.toNat 2 = s.twin.acqSilent) ∧
    (let s := { pairedAs false with twin.noLeadRun := 10 }
     s.dev.state ≠ .off ∧ s.twin.paired = true ∧ s.twin.lead = false ∧ s.twin.k ≤ s.twin.noLeadRun ∧ s.twin.homeLead = true ∧
     s.dev.state = .ready ∧
     ({ s with twin.homeLead := false, twin.silentRun := 10 } : State).twin.k ≤ 10) ∧
    (on.twin.paired = false ∧ on.twin.takeoverAt = none ∧ newestCheckpoint on = none) ∧
    (let s := { pairedAs true with twin.takeoverAt := some 4, twin.ckpt := some (3, []) }
     s.twin.takeoverAt = some 4 ∧ newestCheckpoint s = some (3, []) ∧ 5000000 ≤ (9 - 4) * periodNs s ∧ (8 - 4) * periodNs s < 5000000) ∧
    (let s := { pairedAs true with twin.leadRun := 10, twin.heardEpoch := 1 }
     s.twin.paired = true ∧ s.twin.lead = true ∧ s.twin.k ≤ s.twin.leadRun ∧ priority s = false) ∧
    (let s := { pairedAs false with twin.reclaimAt := some 5 }
     s.twin.paired = true ∧ s.twin.lead = false ∧ s.twin.reclaimAt = some (twinMsg []).handoverFrame.toNat ∧
     (pairedAs false).twin.reclaimAt ≠ some (twinMsg []).handoverFrame.toNat) ∧
    (∀ h, on.twin.handoverAt = some h → on.time.frame < h) ∧ (∀ h, on.twin.reclaimAt = some h → on.time.frame < h) ∧
    (let s := { pairedAs true with twin.handoverAt := some 5, time.frame := 5 }
     s.twin.handoverAt = some 5 ∧ 5 ≤ s.time.frame ∧ s.twin.reclaimAt = none) ∧
    (let s := { pairedAs true with twin.reclaimAt := some 5, twin.reclaimAcked := true, time.frame := 5 }
     s.twin.reclaimAt = some 5 ∧ 5 ≤ s.time.frame ∧ s.twin.handoverAt = none) := by and_intros <;> decide
theorem witness_TwinHeartbeatsAndCheckpoints :
    (filterEdge 8 999 on).1 = false ∧ ((filterEdge 8 1000 (pairedAs true)).1 = true ∧ (pairedAs true).twin.paired = true) ∧
    edgeNext { pairedAs true with time.tb0 := 750000 } = true ∧ edgeNext { pairedAs true with time.tb0 := 749999 } = false ∧
    on.twin.paired = false ∧ on.dev.state ≠ .off ∧ (twinMsg []).frame.toNat = (pairedAs true).time.frame ∧
    (pairedAs true).twin.quad.all (quadEnabled (pairedAs true)) = true ∧
    (let s := { pairedAs true with twin.quad := some 0, tether.quadEnable := 2 }
     s.twin.quad.all (quadEnabled s) = false) ∧
    ({ twinMsg [] with frame := 1 } : TwinMessage).frame.toNat = (pairedAs true).time.frame + 1 ∧
    ((pairedAs false).twin.armed = true ∧ (pairedAs false).twin.claiming = false) ∧
    (let s := { pairedAs true with twin.pinMissed := 10, twin.linkHeardRun := 10 }
     s.twin.k ≤ s.twin.pinMissed ∧ s.twin.k ≤ s.twin.linkHeardRun ∧ s.twin.pinDown = false) ∧
    (let s := { pairedAs true with twin.linkMissed := 10, twin.pinHeardRun := 10 }
     s.twin.k ≤ s.twin.linkMissed ∧ s.twin.k ≤ s.twin.pinHeardRun ∧ s.twin.linkDown = false) ∧
    (let s := { pairedAs true with twin.pinEdges := 1, twin.pinSkew := -125001, twin.skewRun := 10 }
     skewFar s = true ∧ skewFar { s with twin.pinSkew := 125000 } = false ∧ skewFar { s with twin.pinEdges := 2 } = false ∧
     s.twin.k ≤ s.twin.skewRun ∧ s.twin.skewed = false ∧ (pairedAs true).twin.skewRun < (pairedAs true).twin.k ∧
     ({ s with twin.skewed := true } : State).twin.skewed = true ∧ 8 * (125000 : Int).natAbs ≤ periodNs s) ∧
    (let s := { pairedAs true with twin.digestRun := 10 }
     s.twin.k ≤ s.twin.digestRun ∧ on.twin.digestRun < on.twin.k) ∧ (pairedAs false).twin.lead = false ∧
    (let m := { twinMsg [] with piece := 8 }
     8 ≤ m.piece.toNat) ∧
    (let l : List Byte := [0, 0, 0, 0]
     (pairedAs false).twin.pieces = [] ∧ ({ twinMsg l with piece := 0 } : TwinMessage).piece.toNat = 0 ∧ l.length ≤ 8192 ∧
     contiguous (tabSet [] [] 0 l) = true ∧ wholeCheckpoint (joined (tabSet [] [] 0 l)) = true ∧ wholeCheckpoint [1] = false) := by and_intros <;> decide
/-- A piece larger than a checkpoint's limit. -/
theorem witness_TwinHeartbeatsAndCheckpoints_large : 8192 < (List.replicate 8193 (0 : Byte)).length := by
  rw [List.length_replicate]; omega
theorem witness_MemoriesStayCanonical :
    let s := { on with pending := [.poisonedWrite 0], host.mem := [(3, 1)], out.rings := [(15, some hring)],
                       clasp.owners := [(0, some (0, 0))] }
    (memWf s.host.mem && memWf s.dram.mem && memWf s.boot.mram && memWf s.peg.shared &&
      tabWf none s.out.rings && tabWf none s.clasp.owners) = true ∧
    step s = .next (linkError 0 [0] (reportAer true (count .poisonedWrite 0 { s with pending := [] }))) := ⟨by decide, rfl⟩
theorem witness_SettingsTakeTheirValues :
    (∃ c, c ∈ twinCtrs) ∧ (∃ c, c ∈ recCtrs) ∧ u8 (arg8 255).arg 0 = 0xFF ∧ u8 (arg8 1).arg 0 ≠ 0xFF := by
  refine ⟨⟨.takeovers, by decide⟩, ?_⟩
  simp [recCtrs]
  decide


end Sys2Proof.Tests
end

section
/-! SUPPORT. Operations that leave the device's own state (`State.dev`: its state, the calls for SAFE and for a stop, the causes) as it
is: what the stop of the data path does, and what sends a message to the twin. -/

namespace Sys2Proof.Laws
open Sys2Proof.Machine

@[simp] theorem ite_dev (c : Prop) [Decidable c] (a b : State) :
    (if c then a else b).dev = if c then a.dev else b.dev := apply_ite ..
@[simp] theorem foldl_dev {α : Type} (f : State → α → State) (h : ∀ s x, (f s x).dev = s.dev) (l : List α) (s : State) :
    (l.foldl f s).dev = s.dev := by
  induction l generalizing s with
  | nil => rfl
  | cons x t ih => rw [List.foldl_cons, ih, h]

/-! Items and beams that the stop ends (R201). -/

@[simp] theorem pushItem_dev (x : Item) (s : State) : (pushItem x s).dev = s.dev := by
  unfold pushItem; split <;> simp
@[simp] theorem emitItems_dev (j : Job) (l : List Item) (s : State) : (emitItems j l s).dev = s.dev := by
  simp [emitItems]
@[simp] theorem stopJob_dev (s : State) (j : Job) : (stopJob s j).dev = s.dev := by
  unfold stopJob; (repeat' split) <;> simp
@[simp] theorem stopLa_dev (s : State) (e : Nat × Option La) : (stopLa s e).dev = s.dev := by
  unfold stopLa; dsimp only; (repeat' split) <;> simp
@[simp] theorem stopChan_dev (s : State) : (stopChan s).dev = s.dev := rfl
@[simp] theorem locketLost_dev (tile : Nat) (s : State) : (locketLost tile s).dev = s.dev := rfl
@[simp] theorem roundEcc_dev (r : BeamRound) (s : State) : (roundEcc r s).dev = s.dev := by
  unfold roundEcc; simp
@[simp] theorem writeRound_dev (r : BeamRound) (s : State) : (writeRound r s).dev = s.dev := by
  unfold writeRound; dsimp only; (repeat' split) <;> simp
@[simp] theorem endRound_dev (s : State) (r : BeamRound) : (endRound s r).dev = s.dev := by
  simp [endRound]
@[simp] theorem emitBeam_dev (b : Nat) (x : Item) (s : State) : (emitBeam b x s).dev = s.dev := by
  simp [emitBeam]
@[simp] theorem emitPower_dev (j : Job) (b : Nat) (bad : Bool) (x : Item) (l : List (List Nat × Nat)) (s : State) :
    (emitPower j b bad x l s).dev = s.dev := by
  simp [emitPower, countLimits, claspMark]
@[simp] theorem modPeaks_dev (k b o : Nat) (f : PeakList → PeakList) (s : State) : (modPeaks k b o f s).dev = s.dev := by
  simp [modPeaks]
@[simp] theorem watchPower_dev (set b o ch u n : Nat) (bad : List Nat) (w : List Nat × Nat) (s : State) :
    (watchPower set b o ch u n bad w s).dev = s.dev :=
  foldl_dev _ (fun s k => by (repeat' split) <;> simp) _ s
@[simp] theorem closeWindow_dev (i : Image) (j : Job) (b : SegBuf) (s : State) : (closeWindow i j b s).dev = s.dev := by
  unfold closeWindow; dsimp only; (repeat' split) <;> simp
@[simp] theorem loseProducts_dev (i : Image) (j : Job) (set m reason : Nat) (s : State) :
    (loseProducts i j set m reason s).dev = s.dev := by
  simp [loseProducts]
@[simp] theorem gapStats_dev (i : Image) (j : Job) (set b reason : Nat) (s : State) :
    (gapStats i j set b reason s).dev = s.dev := by
  simp [gapStats]
@[simp] theorem emitPeaks_dev (i : Image) (k b key : Nat) (x : PeakList) (s : State) :
    (emitPeaks i k b key x s).dev = s.dev := by
  unfold emitPeaks; dsimp only; (repeat' split) <;> simp [beamMark]

theorem stopBeamsOf_dev (s : State) (x : Nat × Nat) : (stopBeamsOf s x).dev = s.dev := by
  unfold stopBeamsOf
  split
  · rfl
  · dsimp only
    rw [foldl_dev, foldl_dev, foldl_dev]
    · intro s b; split <;> simp
    · intro s e; split <;> simp
    · intro s set; (repeat' split) <;> simp

@[simp] theorem stopBeams_dev (s : State) : (stopBeams s).dev = s.dev := by
  unfold stopBeams; dsimp only
  rw [foldl_dev, foldl_dev _ stopBeamsOf_dev, foldl_dev _ endRound_dev]
  intro s k
  split
  · exact foldl_dev _ (fun s e => by split <;> simp) _ s
  · rfl

/-- The stop of the data path leaves the device state, its causes and the calls that stand (R201). -/
@[simp] theorem stopPath_dev (s : State) : (stopPath s).dev = s.dev := by
  simp [stopPath]

/-! What is sent to the twin over a Guleruo quad (R421, R434). -/

@[simp] theorem putBlock_dev (l : Nat) (p : Bool) (w : BitVec 66) (s : State) : (putBlock l p w s).dev = s.dev := rfl
@[simp] theorem putLane_dev (fec : Bool) (w r c l : Nat) (b : Block) (s : State) : (putLane fec w r c l b s).dev = s.dev := by
  unfold putLane; split <;> simp
@[simp] theorem putRow_dev (k : Nat) (fec : Bool) (w : Nat) (b : Nat → Block) (s : State) :
    (putRow k fec w b s).dev = s.dev := by
  simp [putRow]
@[simp] theorem idleRows_dev (k : Nat) (fec : Bool) (w n : Nat) (s : State) : (idleRows k fec w n s).dev = s.dev := by
  induction n generalizing s with
  | zero => rfl
  | succ n ih => simp [idleRows, ih]
@[simp] theorem skipTo_dev (k w r : Nat) (s : State) : (skipTo k w r s).dev = s.dev := by
  simp [skipTo, draw]
@[simp] theorem catchUp_dev (k : Nat) (s : State) : (catchUp k s).dev = s.dev := by
  simp [catchUp]
@[simp] theorem putDue_dev (k : Nat) (fec : Bool) (w : Nat) (s : State) : (putDue k fec w s).dev = s.dev := by
  unfold putDue; split <;> simp
@[simp] theorem putStream_dev (k : Nat) (fec : Bool) (w : Nat) (b : Nat → Block) (s : State) :
    (putStream k fec w b s).dev = s.dev := by
  simp [putStream]
@[simp] theorem sendBlocks_dev (k : Nat) (l : List Block) (s : State) : (sendBlocks k l s).dev = s.dev := by
  simp [sendBlocks, clearSent]
@[simp] theorem sendFrames_dev (k : Nat) (kind : Byte) (l : List (List Byte)) (s : State) :
    (sendFrames k kind l s).dev = s.dev := by
  simp [sendFrames, flushFrames]
@[simp] theorem sendTwin_dev (l : List (Nat × TwinMessage)) (s : State) : (sendTwin l s).dev = s.dev := by
  unfold sendTwin; dsimp only; split <;> simp
@[simp] theorem sendHandover_dev (n : Nat) (s : State) : (sendHandover n s).dev = s.dev := by
  simp [sendHandover, sendCheckpoint]

end Sys2Proof.Laws
end

section
/-! SUPPORT. A change of device state (R22), at once or at the coming tick. -/

namespace Sys2Proof.Laws
open Sys2Proof.Machine

theorem portRunWith_id_touches (now p n : Nat) (s : State) :
    ∃ x y, portRunWith (fun _ s => s) now p n s = { s with dma := x, counters := y } := by
  induction n generalizing s with
  | zero => exact ⟨_, _, rfl⟩
  | succ n ih =>
    unfold portRunWith
    split
    · split
      · obtain ⟨x, y, e⟩ := ih (portGrant p _ _ s)
        exact ⟨x, y, e⟩
      · exact ⟨_, _, rfl⟩
    · exact ⟨_, _, rfl⟩

/-- A change of device state: the requests at the Lockets' port fail where their power goes, the change is counted and its event is
raised (R22). -/
theorem setState_of_ne (new : DevState) (cause : Nat) (s : State) (h : s.dev.state ≠ new) :
    ∃ x y, setState new cause s = raise 0x0001 0 new.code [s.dev.state.code, cause, s.time.frame]
      { s with dma := x, counters := y, dev.state := new, dev.stateChanges := s.dev.stateChanges + 1 } := by
  unfold setState
  rw [if_neg h]
  cases locketOff new with
  | false => exact ⟨_, _, rfl⟩
  | true =>
    obtain ⟨x, y, e⟩ := portRunWith_id_touches s.time.tb2 2 (port s 2).waiting.length s
    dsimp only
    rw [if_pos rfl, e]
    exact ⟨_, _, rfl⟩

theorem setState_same (new : DevState) (cause : Nat) (s : State) (h : s.dev.state = new) : setState new cause s = s := if_pos h

@[simp] theorem setState_state (new : DevState) (cause : Nat) (s : State) : (setState new cause s).dev.state = new := by
  by_cases h : s.dev.state = new
  · rw [setState_same new cause s h, h]
  · obtain ⟨x, y, e⟩ := setState_of_ne new cause s h
    rw [e]; rfl

/-- A change of device state leaves the schedule, the Clasp and the call for a stop. -/
@[simp] theorem setState_fields (new : DevState) (cause : Nat) (s : State) :
    (setState new cause s).sched = s.sched ∧ (setState new cause s).clasp = s.clasp ∧
    (setState new cause s).dev.stopAt = s.dev.stopAt := by
  by_cases h : s.dev.state = new
  · rw [setState_same new cause s h]; exact ⟨rfl, rfl, rfl⟩
  · obtain ⟨x, y, e⟩ := setState_of_ne new cause s h
    rw [e]; exact ⟨rfl, rfl, rfl⟩

/-- An operation at the coming tick leaves what it does, but for the number of the running frame. -/
@[simp] theorem atTick_fields (f : State → State) (s : State) :
    (atTick f s).dev = (f { s with time.frame := s.time.frame + 1 }).dev ∧
    (atTick f s).sched = (f { s with time.frame := s.time.frame + 1 }).sched ∧
    (atTick f s).clasp = (f { s with time.frame := s.time.frame + 1 }).clasp := ⟨rfl, rfl, rfl⟩

theorem mem_insertEvent (e : Event) (l : List Event) : e ∈ insertEvent e l := by
  induction l with
  | nil => exact List.mem_singleton_self e
  | cons x t ih => unfold insertEvent; split <;> simp [ih]

end Sys2Proof.Laws
end

section
/-! The device states, the frame tick, the state after a reset and the settings (spec/01_architecture.md). -/

namespace Sys2Proof.Proofs
open Sys2Proof Sys2Proof.Machine Sys2Proof.Laws

/-! Changes of device state. -/

/-- Settles O20: a change of state is one `raise` on the state that `setState_of_ne` gives. -/
theorem stateChangesAreReported : Obligations.StateChangesAreReported := by
  intro d cause s
  refine ⟨setState_state d cause s, setState_same d cause s, fun h => ?_⟩
  obtain ⟨x, y, e⟩ := setState_of_ne d cause s h
  rw [e]
  exact ⟨rfl, _, mem_insertEvent _ _, rfl, rfl, rfl, rfl⟩

/-! Transitions at the tick. -/

theorem whenOn_of_on (f : State → State) (s : State) (h : s.dev.state ≠ .off) : whenOn f s = .next (f s) := by
  rw [whenOn, if_neg h]

theorem stopNow_iff (s : State) : stopNow s = true ↔ ∃ t, s.dev.stopAt = some t ∧ t ≤ tickTime s (s.time.frame + 1) := by
  cases h : s.dev.stopAt <;> simp [stopNow, h]

theorem holdoffOver_iff (s : State) : holdoffOver s = true ↔ s.dev.state = .degraded ∧ s.dev.causes = [] ∧
    s.dev.holdoff ≤ s.dev.clearFrames ∧ boundaryNext s = true ∧ s.dev.safeAt = none ∧ stopNow s = false := by
  simp [holdoffOver, and_assoc]

/-- The stop of the data path leaves nothing of the schedule's work and of the Clasp's (R201). -/
theorem stopPath_sched (s : State) : (stopPath s).sched.running = none ∧ (stopPath s).sched.work = [] ∧
    (stopPath s).clasp.jobs = [] ∧ (stopPath s).sched.throttled = false := ⟨rfl, rfl, rfl, rfl⟩

theorem stopDue_not_now (s : State) (h : stopNow s = false) : stopDue s = s := by
  simp [stopDue, h]

theorem stopDue_not_observing (s : State) (h : stopNow s = true) (ho : observing s = false) :
    stopDue s = { s with dev.stopAt := none } := by
  simp [stopDue, h, ho]

theorem stopDue_observing (s : State) (h : stopNow s = true) (ho : observing s = true) :
    stopDue s = atTick (setState .ready 6) (stopPath { s with dev.stopAt := none }) := by
  simp [stopDue, h, ho]

theorem holdoffEnd_of_over (s : State) (h : holdoffOver s = true) :
    holdoffEnd s = atTick (setState .observing 5) { s with sched.throttled := false } := if_pos h

theorem degrade_of_cause (s : State) (ho : observing s = true) (hc : s.dev.causes ≠ []) :
    degrade s = atTick (setState .degraded 4)
      { s with dev.clearFrames := 0, sched.throttled := s.sched.throttled || throttleCalled s } := by
  simp [degrade, ho, hc]

theorem exec_stopFrameReached (s : State) : exec .stopFrameReached s =
    whenOn (fun s => if stopNow s && observing s && s.dev.safeAt.isNone then stopDue (toTick s) else s) s := rfl

theorem exec_degradedHoldoffEnd (s : State) : exec .degradedHoldoffEnd s =
    whenOn (fun s => if holdoffOver (toTick s) then holdoffEnd (toTick s) else s) s := rfl

/-- STOP_FRAME_REACHED acts where the stop's tick has come, the part observes and SAFE is not called for (R19, R20). -/
theorem exec_stopFrameReached_iff (s : State) (hOn : s.dev.state ≠ .off) :
    (stopNow s = true ∧ observing s = true ∧ s.dev.safeAt = none → exec .stopFrameReached s = .next (stopDue (toTick s))) ∧
    (stopNow s = false ∨ observing s = false ∨ s.dev.safeAt ≠ none → exec .stopFrameReached s = .next s) := by
  rw [exec_stopFrameReached, whenOn_of_on _ s hOn]
  constructor
  · rintro ⟨hn, ho, hs⟩
    simp [hn, ho, hs]
  · rintro (hn | ho | hs)
    · simp [hn]
    · simp [ho]
    · simp [hs]

/-- DEGRADED_HOLDOFF_END acts where the return is due at the tick to which it brings the frame (R20, R21). -/
theorem exec_degradedHoldoffEnd_iff (s : State) (hOn : s.dev.state ≠ .off) :
    (holdoffOver (toTick s) = true → exec .degradedHoldoffEnd s = .next (holdoffEnd (toTick s))) ∧
    (holdoffOver (toTick s) = false → exec .degradedHoldoffEnd s = .next s) := by
  rw [exec_degradedHoldoffEnd, whenOn_of_on _ s hOn]
  constructor <;> intro h <;> simp [h]

/-- Settles O19: each transition is the data path's stop or a change of the throttle followed by `setState`, which leaves the
schedule and the Clasp as they are. -/
theorem mostRestrictiveTransitionStands : Obligations.MostRestrictiveTransitionStands := by
  refine ⟨?safe, ?noSafe, ?commands, stopNow_iff, stopDue_not_now, stopDue_not_observing, ?stop, holdoffOver_iff, ?back, ?degrade⟩
  case safe => intro s c h; simp only [transitions, h]
  case noSafe => intro s h; simp only [transitions, h]
  case commands =>
    intro s hOn
    obtain ⟨hStop, hNoStop⟩ := exec_stopFrameReached_iff s hOn
    obtain ⟨hBack, hNoBack⟩ := exec_degradedHoldoffEnd_iff s hOn
    exact ⟨hStop, hNoStop, hBack, hNoBack⟩
  case stop =>
    intro s h ho
    rw [stopDue_observing s h ho]
    simp [stopPath_sched]
  case back => intro s h; simp [holdoffEnd_of_over s h]
  case degrade => intro s ho hc; simp [degrade_of_cause s ho hc]

/-! The frame tick (R11, R13). -/

theorem pulseOut_time (k t : Nat) (s : State) : (pulseOut k t s).time = s.time := rfl

theorem tickClock_tb0 (s : State) : (tickClock s).time.tb0 = max s.time.tb0 (tickTime s (s.time.frame + 1)) := by
  simp only [tickClock, pulseOut_time]

theorem toTick_ended (s : State) (h : s.time.ended = true) : toTick s = s := if_pos h

theorem toTick_not_ended (s : State) (h : s.time.ended = false) : toTick s =
    { countClear (endFrame (tickClock (if s.time.inGuard then s else guardWork s))) with time.ended := true } := by
  simp [toTick, h]

theorem exec_frameTick (s : State) : exec .frameTick s = whenOn frameTick s := rfl

theorem exec_guardStart (s : State) : exec .guardStart s = whenOn guardStart s := rfl

theorem guardStart_inGuard (s : State) (h : s.time.inGuard = true) : guardStart s = s := if_pos h

theorem guardStart_not_inGuard (s : State) (h : s.time.inGuard = false) :
    guardStart s = guardWork (elapse (guardTime s - s.time.tb0) s) := by
  simp [guardStart, h]

/-- Without ingest and data path the guard has no work. -/
theorem guardWork_idle (s : State) (hi : ingestOn s = false) (ho : observing s = false) :
    guardWork s = { s with time.inGuard := true } := by
  have hi' : ingestOn { s with time.inGuard := true } = false := hi
  have ho' : observing { s with time.inGuard := true } = false := ho
  simp [guardWork, hi', ho']

/-- Settles O18: each clause is the equation of the operation it speaks of. -/
theorem frameTickStartsTheNextFrame : Obligations.FrameTickStartsTheNextFrame := by
  intro s hOn
  rw [exec_frameTick, exec_guardStart, whenOn_of_on _ s hOn, whenOn_of_on _ s hOn]
  refine ⟨rfl, toTick_ended s, toTick_not_ended s, tickClock_tb0 s, ?_, ?_, ?_⟩
  · intro h; rw [guardStart_inGuard s h]
  · intro h; rw [guardStart_not_inGuard s h]
  · intro h hi ho
    rw [guardStart_not_inGuard s h, guardWork_idle (elapse _ s) hi ho]

/-! The state after a reset. -/

/-- At reset no slot has been written, so that each is free (Table 15.3). -/
theorem reset_slot (k : Nat) : slot State.reset k = {} := rfl

/-- At reset every source has what R298 gives its number. -/
theorem reset_source (k : Nat) : source State.reset k = sourceDefault k := rfl

/-- Settles O59: every field of the reset state has its default. -/
theorem resetHoldsItsValues : Obligations.ResetHoldsItsValues := by
  refine ⟨rfl, rfl, rfl, rfl, rfl, rfl, rfl, ?slots, rfl, rfl, rfl, rfl, rfl, rfl, rfl, rfl, rfl, rfl, ?recovered, rfl, ?sources,
    rfl, rfl, rfl, rfl, rfl, rfl, rfl, rfl, rfl, rfl, rfl, rfl⟩
  case slots => intro k _; rw [reset_slot]
  case recovered => simp only [reset_source]; decide
  case sources => intro k _; rw [reset_source]; exact ⟨rfl, rfl⟩

/-! Settings. -/

theorem firstBad_eq_none (l : List (Bool × Nat)) : firstBad l = none ↔ ∀ e ∈ l, e.1 = true := by
  induction l with
  | nil => simp [firstBad]
  | cons e t ih =>
    obtain ⟨ok, o⟩ := e
    cases ok <;> simp [firstBad, ih]

theorem trigger_setTrigger (k : Nat) (t : Option Trigger) (s : State) : trigger (setTrigger k t s) k = t :=
  tabGet_tabSet_same none s.compass.triggers k t

theorem setTrigger_none_of_none (j k : Nat) (s : State) (h : trigger s k = none) : trigger (setTrigger j none s) k = none := by
  by_cases e : k = j
  · subst e; exact trigger_setTrigger k none s
  · exact (tabGet_tabSet_ne (α := Option Trigger) none s.compass.triggers none e).trans h

/-- A commit that is rejected disarms its own trigger at most. -/
theorem rejectCommit_trigger_none (st : Status) (d k : Nat) (s : State) (h : trigger s k = none) :
    trigger (rejectCommit st d s) k = none := by
  unfold rejectCommit
  split
  · dsimp only
    split
    · split <;> exact setTrigger_none_of_none _ k s h
    · split <;> exact h
  · exact h

theorem cancelTrigger_trigger (k : Nat) (s : State) : trigger (cancelTrigger k s) k = none := by
  have h : trigger (setTrigger k none s) k = none := trigger_setTrigger k none s
  unfold cancelTrigger
  dsimp only
  split
  · split
    · exact rejectCommit_trigger_none _ _ _ _ h
    · exact h
  · exact h

theorem callSafe_safeAt (c : Nat) (s : State) : (callSafe c s).dev.safeAt.isSome = true := by
  simp only [callSafe]
  generalize State.dev _ = d
  cases d.safeAt <;> rfl

theorem askSafe_safeAt (s : State) : (askSafe s).dev.safeAt.isSome = true := by
  unfold askSafe
  split
  · assumption
  · rw [sendHandover_dev]; exact callSafe_safeAt 7 s

/-- Clearing a counter leaves the others, and one that is 0. -/
theorem counter_clearCtr_zero (c d : Ctr) (i j : Nat) (s : State) (h : counter c i s = 0) :
    counter c i (clearCtr d j s) = 0 := by
  by_cases e : ctrKey c i = ctrKey d j
  · rw [counter, e]; exact tabGet_tabSet_same 0 s.counters _ 0
  · exact (tabGet_tabSet_ne 0 s.counters 0 e).trans h

theorem counter_clearCtrs_zero (cs : List Ctr) (c : Ctr) (i : Nat) (s : State) (h : counter c i s = 0) :
    counter c i (clearCtrs cs i s) = 0 := by
  induction cs generalizing s with
  | nil => exact h
  | cons d t ih => exact ih _ (counter_clearCtr_zero c d i i s h)

theorem counter_clearCtrs (cs : List Ctr) (c : Ctr) (i : Nat) (s : State) (h : c ∈ cs) :
    counter c i (clearCtrs cs i s) = 0 := by
  induction cs generalizing s with
  | nil => cases h
  | cons d t ih =>
    rcases List.mem_cons.mp h with rfl | ht
    · exact counter_clearCtrs_zero t c i _ (counter_clearCtr c i s)
    · exact ih _ ht

/-- A status row's clearing of its table's counters, where it is asked for (R374). -/
theorem counter_clearIf (b : Bool) (cs : List Ctr) (c : Ctr) (s : State) (h : c ∈ cs) :
    counter c 0 (if b then clearCtrs cs 0 s else s) = if b then 0 else counter c 0 s := by
  cases b with
  | false => rfl
  | true => exact counter_clearCtrs cs c 0 s h

theorem counter_twinStatus (c : Ctr) (h : c ∈ twinCtrs) (q : Request) (s : State) :
    counter c 0 (specTwinStatus.act q s) = if statusClear q.arg then 0 else counter c 0 s := by
  rw [← counter_clearIf (statusClear q.arg) twinCtrs c s h]
  simp only [specTwinStatus]
  split <;> rfl

theorem counter_recStatus (c : Ctr) (h : c ∈ recCtrs) (q : Request) (s : State) :
    counter c 0 (specRecStatus.act q s) = if statusClear q.arg then 0 else counter c 0 s := by
  rw [← counter_clearIf (statusClear q.arg) recCtrs c s h]
  simp only [specRecStatus]
  split <;> rfl

/-- TWIN.CONFIG sets K and H by their cells, also where it unpairs or pairs the part (R419). -/
theorem twinConfig_k_h (q : Request) (s : State) : (specTwinConfig.act q s).twin.k = cellOr q.arg 0 3 s.twin.k ∧
    (specTwinConfig.act q s).twin.h = cellOr q.arg 0 5 s.twin.h := by
  simp only [specTwinConfig]
  split <;> exact ⟨rfl, rfl⟩

/-- Settles O60: the settings by their rows, the trigger, SAFE and the counters by their operations. -/
theorem settingsTakeTheirValues : Obligations.SettingsTakeTheirValues := by
  intro q s
  refine ⟨⟨rfl, ?window⟩, ⟨rfl, ?bandwidth⟩, rfl, ⟨rfl, rfl, ?slew⟩, ⟨rfl, rfl⟩, ⟨cancelTrigger_trigger _ s, ?trigger⟩, rfl, ?event,
    askSafe_safeAt s, rfl, fun c h => counter_twinStatus c h q s, fun c h => counter_recStatus c h q s, twinConfig_k_h q s⟩
  case window => simp [specIngestConfig, firstBad_eq_none]
  case bandwidth => simp [specTimePllConfig, firstBad_eq_none]
  case slew => simp [specTimeAdjust, firstBad_eq_none]
  case trigger => simp [specTimeTrigCancel, firstBad_eq_none]
  case event => simp [specTestEvent, firstBad_eq_none]

end Sys2Proof.Proofs
end

section
/-! Release in order (spec/02_ingest_streams.md R39 to R41, R48 and R49): one equation per branch of the model's release functions. -/

namespace Sys2Proof.Laws
open Sys2Proof Sys2Proof.Machine

/-! Release of the held packets (R41). -/

theorem releaseHeld_none (sid : Nat) (r : Run) (s : State) (h : ∀ x ∈ r.held, x.slot ≠ r.release) (n : Nat) :
    releaseHeld sid n r s = (r, s) := by
  have hnone : r.held.find? (fun x => x.slot = r.release) = none := by simpa [List.find?_eq_none] using h
  cases n with
  | zero => rfl
  | succ n => simp only [releaseHeld, hnone]

theorem releaseHeld_succ (sid n : Nat) (r : Run) (s : State) (p : Held)
    (hp : r.held.find? (fun x => x.slot = r.release) = some p) (hlive : runLive r = true)
    (hframe : sourceFrame r.cfg p.slot s ≤ s.time.frame) :
    releaseHeld sid (n + 1) r s = releaseHeld sid n (releaseOne sid (some (p.seq, p.samples)) r s).1
      (releaseOne sid (some (p.seq, p.samples)) r s).2 := by
  simp only [releaseHeld, hp, hlive, hframe, decide_true, Bool.and_self, if_true]

/-! From the oldest run on (R48, R49). -/

theorem settleRuns_nil (sid : Nat) (s : State) (h : (stream s sid).runs = []) (n : Nat) : settleRuns sid n s = s := by
  cases n with
  | zero => rfl
  | succ n => simp only [settleRuns, h]

theorem settleRuns_live (sid n : Nat) (s : State) (r : Run) (rest : List Run) (h : (stream s sid).runs = r :: rest)
    (hlive : runLive (cascade sid r s).1 = true) : settleRuns sid (n + 1) s =
      modStream sid (fun y => { y with runs := y.runs.set 0 (cascade sid r s).1 }) (cascade sid r s).2 := by
  simp only [settleRuns, h, hlive, if_true]

theorem settleRuns_idle (sid n : Nat) (s : State) (r : Run) (rest : List Run) (h : (stream s sid).runs = r :: rest)
    (hidle : runLive (cascade sid r s).1 = false) : settleRuns sid (n + 1) s =
      settleRuns sid n (modStream sid (fun y => { y with runs := y.runs.drop 1 }) (cascade sid r s).2) := by
  simp only [settleRuns, h, hidle, Bool.false_eq_true, if_false]

/-! The deadline of the oldest run (R39). -/

theorem holeDue_none (sid : Nat) (s : State) (h : ∀ r ∈ (stream s sid).runs.head?, runDeadline r = none) :
    holeDue sid s = s := by
  cases hruns : (stream s sid).runs with
  | nil => simp only [holeDue, hruns]
  | cons r rest =>
    have hd : runDeadline r = none := h r (by rw [hruns]; rfl)
    simp only [holeDue, hruns, hd]

theorem holeDue_some (sid : Nat) (s : State) (r : Run) (d : Nat) (hr : (stream s sid).runs.head? = some r)
    (hd : runDeadline r = some d) :
    holeDue sid s = putRun sid 0 (expirePoint sid none r (elapse (d - s.time.tb0) s)).1
      (expirePoint sid none r (elapse (d - s.time.tb0) s)).2 := by
  obtain ⟨rest, hruns⟩ := List.head?_eq_some_iff.mp hr
  simp only [holeDue, hruns, hd]

/-! The two commands, where ingest runs and where it does not. -/

theorem exec_holeDeadline_off (sid : BitVec 14) (s : State) (h : ingestOn s = false) :
    exec (.holeDeadline sid) s = .next s := by
  simp only [exec, execHoleDeadline, h, Bool.false_eq_true, if_false]

theorem exec_holeDeadline_on (sid : BitVec 14) (s : State) (h : ingestOn s = true) :
    exec (.holeDeadline sid) s = .next (holeDue sid.toNat s) := by
  simp only [exec, execHoleDeadline, h, if_true]

theorem exec_heldPacketRelease_off (sid : BitVec 14) (s : State) (h : ingestOn s = false) :
    exec (.heldPacketRelease sid) s = .next s := by
  simp only [exec, execHeldPacketRelease, h, Bool.false_eq_true, if_false]

theorem exec_heldPacketRelease_on (sid : BitVec 14) (s : State) (h : ingestOn s = true) :
    exec (.heldPacketRelease sid) s = .next (settleRuns sid.toNat (stream s sid.toNat).runs.length s) := by
  simp only [exec, execHeldPacketRelease, h, if_true]

end Sys2Proof.Laws
end

section
/-! Holes and held packets (spec/02_ingest_streams.md R37 to R43). -/

namespace Sys2Proof.Proofs
open Sys2Proof Sys2Proof.Machine Sys2Proof.Laws

/-- Settles O24: each command by whether ingest runs, then the branches of `holeDue`, `settleRuns` and `releaseHeld`. -/
theorem holesAndHeldPacketsRelease : Obligations.HolesAndHeldPacketsRelease := by
  intro s sid
  refine ⟨fun off => ⟨?holeOff, ?heldOff⟩, fun on noDeadline => ?holeNone, fun on r d hr hd => ?holeDue, fun on => ?heldOn,
    ?noRun, fun n r rest hruns => ⟨?oldestLive, ?oldestIdle⟩, ?noneHeld, ?oneHeld⟩
  case holeOff => exact exec_holeDeadline_off sid s off
  case heldOff => exact exec_heldPacketRelease_off sid s off
  case holeNone => rw [exec_holeDeadline_on sid s on, holeDue_none sid.toNat s noDeadline]
  case holeDue => rw [exec_holeDeadline_on sid s on, holeDue_some sid.toNat s r d hr hd]
  case heldOn => exact exec_heldPacketRelease_on sid s on
  case noRun => exact fun n hruns => settleRuns_nil sid.toNat s hruns n
  case oldestLive => exact settleRuns_live sid.toNat n s r rest hruns
  case oldestIdle => exact settleRuns_idle sid.toNat n s r rest hruns
  case noneHeld => exact fun r n _ hheld => releaseHeld_none sid.toNat r s hheld n
  case oneHeld => exact fun r n p hp hlive hframe => releaseHeld_succ sid.toNat n r s p hp hlive hframe

end Sys2Proof.Proofs
end

section
/-! The endings of a transaction (spec/10_frame_schedule.md R238 to R241): one equation per branch of the model's functions. -/

namespace Sys2Proof.Laws
open Sys2Proof Sys2Proof.Machine

/-- An open transaction that expires leaves none and nothing staged, and TXN_EXPIRED reports it (R240). -/
theorem expireTxn_opened (s : State) (id : Nat) (h : s.sched.txn = .opened id) :
    expireTxn s = raise 0x0102 0 id [] (count .txnExpired 0 { s with sched.txn := .none, sched.staged := [] }) := by
  simp only [expireTxn, h]

/-- Of the schedule's state a rejection ends the transaction, what is staged and the commit, and leaves the rest (R238). -/
theorem rejectCommit_sched (st : Status) (d : Nat) (s : State) (id : Nat) (c : Commit)
    (ht : s.sched.txn = .pending id) (hc : s.sched.commit = some c) :
    (rejectCommit st d s).sched = { s.sched with txn := .none, staged := [], commit := none } := by
  simp only [rejectCommit, ht, hc, complete_fields]
  cases c.trigger <;> by_cases hst : st = .rejected <;> simp [hst]

/-! The end of a validation (R221, R238). -/

theorem validated_late (s : State) (c : Commit) (hc : s.sched.commit = some c) (hv : c.validated = false)
    (hlate : c.na ≤ s.time.frame + 1) : validated s = rejectCommit .rejected 0x14 s := by
  simp [validated, validationLate, hc, hv, hlate]

theorem validated_fails (s : State) (c : Commit) (x : Charge) (hc : s.sched.commit = some c) (hv : c.validated = false)
    (hna : s.time.frame + 1 < c.na) (hx : worst (commitCharges s c.na) = some x) :
    validated s = rejectCommit .rejected x.code s := by
  simp [validated, validationLate, hc, hv, Nat.not_le.mpr hna, hx]

theorem validated_passes (s : State) (c : Commit) (hc : s.sched.commit = some c) (hv : c.validated = false)
    (hna : s.time.frame + 1 < c.na) (hx : worst (commitCharges s c.na) = none) :
    validated s = { s with sched.commit := some { c with validated := true } } := by
  simp [validated, validationLate, hc, hv, Nat.not_le.mpr hna, hx]

/-! Tick n_a (R238). -/

theorem commitReady_pending (s : State) (id : Nat) (c : Commit) (ht : s.sched.txn = .pending id)
    (hc : s.sched.commit = some c) : commitReady s = (c.validated && decide (c.na ≤ s.time.frame + 1)) := by
  simp only [commitReady, ht, hc]

theorem commitDue_ready (s : State) (id : Nat) (c : Commit) (ht : s.sched.txn = .pending id)
    (hc : s.sched.commit = some c) (hr : commitReady s = true) :
    commitDue s = if swapBlocked s then rejectCommit .conflict 0 s else applyCommit id c s := by
  simp only [commitDue, ht, hc, hr, Bool.not_true, Bool.false_eq_true, if_false]

/-! The three commands. -/

theorem exec_txnExpiry_opened (s : State) (id : Nat) (hOn : s.dev.state ≠ .off) (h : s.sched.txn = .opened id) :
    exec .txnExpiry s = .next (expireTxn (elapseTo (s.sched.lastUse + 10000000000) s)) := by
  simp only [exec, execTxnExpiry, whenOn, hOn, h, if_false]

theorem exec_txnExpiry_not_opened (s : State) (hOn : s.dev.state ≠ .off) (h : ∀ id, s.sched.txn ≠ .opened id) :
    exec .txnExpiry s = .next s := by
  rw [exec, execTxnExpiry, whenOn, if_neg hOn]
  split
  · next id ho => exact absurd ho (h id)
  · rfl

theorem exec_txnValidationDone (s : State) (hOn : s.dev.state ≠ .off) :
    exec .txnValidationDone s = .next (validated s) := by
  simp only [exec, execTxnValidationDone, whenOn, hOn, if_false]

theorem exec_txnApply (s : State) (hOn : s.dev.state ≠ .off) :
    exec .txnApply s = .next (if commitReady s then commitDue (toTick s) else s) := by
  simp only [exec, execTxnApply, whenOn, hOn, if_false]

end Sys2Proof.Laws
end

section
/-! Transactions (spec/10_frame_schedule.md R238 to R241). -/

namespace Sys2Proof.Proofs
open Sys2Proof Sys2Proof.Machine Sys2Proof.Laws

/-- The validation ends in a rejection, after which no transaction, nothing staged and no commit remains (R238). -/
theorem exec_txnValidationDone_rejects (s : State) (d id : Nat) (c : Commit) (hOn : s.dev.state ≠ .off)
    (ht : s.sched.txn = .pending id) (hc : s.sched.commit = some c) (h : validated s = rejectCommit .rejected d s) :
    ∃ t, exec .txnValidationDone s = .next t ∧ t = rejectCommit .rejected d s ∧
      t.sched.txn = .none ∧ t.sched.staged = [] ∧ t.sched.commit = none := by
  have hsched := rejectCommit_sched .rejected d s id c ht hc
  refine ⟨_, by rw [exec_txnValidationDone s hOn, h], rfl, ?_, ?_, ?_⟩ <;> rw [hsched]

/-- Settles O21: each command by its equation, then by the branches of `validated` and `commitReady`. -/
theorem transactionsEndAsTheRulesSay : Obligations.TransactionsEndAsTheRulesSay := by
  intro s hOn
  refine ⟨fun id ho => ?expires, exec_txnExpiry_not_opened s hOn, fun id c ht hc hv hlate => ?late,
    fun id c x ht hc hv hna hx => ?fails, fun c hc hv hna hx => ?passes, fun id c ht hc hv hna => ?applies,
    fun id c ht hc h => ?waits, fun id c ht hc hv hna => ?due⟩
  case expires => rw [exec_txnExpiry_opened s id hOn ho, expireTxn_opened _ id (by simpa using ho)]
  case late => exact exec_txnValidationDone_rejects s 0x14 id c hOn ht hc (validated_late s c hc hv hlate)
  case fails => exact exec_txnValidationDone_rejects s x.code id c hOn ht hc (validated_fails s c x hc hv hna hx)
  case passes => rw [exec_txnValidationDone s hOn, validated_passes s c hc hv hna hx]
  case applies =>
    have hready : commitReady s = true := by simp [commitReady_pending s id c ht hc, hv, hna]
    rw [exec_txnApply s hOn, if_pos hready]
  case waits =>
    have hwaits : commitReady s = false := by
      rw [commitReady_pending s id c ht hc]
      rcases h with hv | hna
      · simp [hv]
      · simp [Nat.not_le.mpr hna]
    rw [exec_txnApply s hOn, hwaits, if_neg Bool.false_ne_true]
  case due =>
    exact commitDue_ready s id c ht hc (by simp [commitReady_pending s id c ht hc, hv, hna])

end Sys2Proof.Proofs
end

section
/-! The channeliser's commands (spec/03_channeliser.md): one equation per branch. -/

namespace Sys2Proof.Laws
open Sys2Proof Sys2Proof.Machine

/-! A unit's turn in its slice (R54). -/

theorem exec_channeliserStep_turn (i : BitVec 12) (c : BitVec 16) (n : Nat) (s : State) (ho : observing s = true)
    (hturn : unitNext s (unitKey i.toNat c.toNat) = true) :
    exec (.channeliserStep i c n) s = .next (runUnit false n (unitKey i.toNat c.toNat) s) := by
  simp only [exec, execChanneliserStep, ho, hturn, Bool.and_self, if_true]

theorem exec_channeliserStep_idle (i : BitVec 12) (c : BitVec 16) (n : Nat) (s : State)
    (h : observing s = false ∨ unitNext s (unitKey i.toNat c.toNat) = false) :
    exec (.channeliserStep i c n) s = .next s := by
  have hidle : (observing s && unitNext s (unitKey i.toNat c.toNat)) = false := Bool.and_eq_false_iff.mpr h
  simp only [exec, execChanneliserStep, hidle, Bool.false_eq_true, if_false]

/-! The end of a statistics interval (R76). -/

/-- Slice `k` at the end of its interval: the sets in the readout bank under their tag, the next interval empty. -/
def endInterval (s : State) (k : Nat) (x : Slice) : Slice :=
  let y := (sliceOf s k).nextStats.getD ((sliceOf s k).tapPre, (sliceOf s k).z, (sliceOf s k).interval)
  { x with
    readout := x.statSets, readoutTag := some (x.statNow, x.statNow % groupCount s k)
    readoutSets := min 8192 (pairCount s k - 8192 * (x.statNow % groupCount s k))
    statSets := [], statNow := x.statNow + 1, tapPre := y.1, z := y.2.1, interval := y.2.2
    statLeft := y.2.2, nextStats := none }

theorem exec_statsIntervalEnd_running (k : BitVec 5) (s : State) (hOn : s.dev.state ≠ .off)
    (h : (sliceOf s k.toNat).statLeft ≠ 0) : exec (.statsIntervalEnd k) s = .next s := by
  simp only [exec, execStatsIntervalEnd, whenOn, hOn, if_false]
  rw [if_pos h]

theorem exec_statsIntervalEnd_over (k : BitVec 5) (s : State) (hOn : s.dev.state ≠ .off)
    (h : (sliceOf s k.toNat).statLeft = 0) :
    exec (.statsIntervalEnd k) s = .next (modSlice k.toNat (endInterval s k.toNat) s) := by
  simp only [exec, execStatsIntervalEnd, whenOn, hOn, if_false]
  rw [if_neg (not_not_intro h)]
  rfl

/-! Synchronising resets (R61, R62). -/

/-- A reset at tick `n` of a unit that has not had it (R62). -/
def resetOnce (n : Nat) (s : State) (key : Nat) : State :=
  if (chanUnit s key).resets.any (fun r => r.1 = resetLabel s (key / 65536) n) then s else unitReset key n s

theorem exec_syncReset_none (s : State) (hOn : s.dev.state ≠ .off)
    (h : ∀ t ∈ s.compass.resets, tickTime s s.time.frame < t) : exec .syncReset s = .next s := by
  have hnone : s.compass.resets.filter (fun t => decide (t ≤ tickTime s s.time.frame)) = [] := by simpa using h
  simp only [exec, execSyncReset, whenOn, hOn, if_false, hnone, List.getLast?_nil]

theorem exec_syncReset_due (s : State) (t : Nat) (hOn : s.dev.state ≠ .off)
    (h : (s.compass.resets.filter (fun t => decide (t ≤ tickTime s s.time.frame))).getLast? = some t) :
    exec .syncReset s = .next (((s.chan.units.filter (fun e => e.2.slice.isSome)).map (·.1)).foldl
      (resetOnce (ceilDiv t (periodNs s))) (count .resetCount 0 { s with
        compass.resets := s.compass.resets.filter (fun x => decide (tickTime s s.time.frame < x)) })) := by
  simp only [exec, execSyncReset, whenOn, hOn, if_false, h, count_fields]
  rfl

/-! SYNC_IN (R61, R324). -/

theorem exec_syncInEdge_accepted (w : Nat) (s : State) (hOn : s.dev.state ≠ .off) (h : (filterEdge 2 w s).1 = true) :
    exec (.syncInEdge w) s = .next (
      let u := (filterEdge 2 w s).2
      { u with compass.resets := u.compass.resets ++ [ceilDiv (u.time.tb0 + 1000) (periodNs u) * periodNs u] }) := by
  simp only [exec, execSyncInEdge, whenOn, hOn, h, if_false, if_true]

theorem exec_syncInEdge_refused (w : Nat) (s : State) (hOn : s.dev.state ≠ .off) (h : (filterEdge 2 w s).1 = false) :
    exec (.syncInEdge w) s = .next (filterEdge 2 w s).2 := by
  simp only [exec, execSyncInEdge, whenOn, hOn, h, if_false, Bool.false_eq_true]

/-! The end of a read (R77, R353). -/

theorem endRead_none (op : Nat) (p : Instr → Bool) (f : Bool) (s : State)
    (h : s.reads.find? (fun r => p r.cmd) = none) : endRead op p f s = s := by
  simp only [endRead, h]

section
variable (op : Nat) (p : Instr → Bool) (s : State) (r : ReadOut) (h : s.reads.find? (fun r => p r.cmd) = some r)
include h

theorem endRead_fail : endRead op p true s =
    finish r.cmd op r.req .hostDma 0 0 [] { s with reads := s.reads.erase r } := by
  simp only [endRead, h, if_true]

theorem endRead_unwritten (st : Status)
    (hw : (bulkPut (bulk r.req.arg r.bulkOff) r.bytes { s with reads := s.reads.erase r }).1 = some st) :
    endRead op p false s = finish r.cmd op r.req st 0 0 []
      (bulkPut (bulk r.req.arg r.bulkOff) r.bytes { s with reads := s.reads.erase r }).2 := by
  simp only [endRead, h, hw, Bool.false_eq_true, if_false]

theorem endRead_written
    (hw : (bulkPut (bulk r.req.arg r.bulkOff) r.bytes { s with reads := s.reads.erase r }).1 = none) :
    endRead op p false s = finish r.cmd op r.req .ok r.bytes.length 0 r.extra
      (bulkPut (bulk r.req.arg r.bulkOff) r.bytes { s with reads := s.reads.erase r }).2 := by
  simp only [endRead, h, hw, Bool.false_eq_true, if_false]

end

theorem exec_chanStatsReadDone (f : Bool) (s : State) (hOn : s.dev.state ≠ .off) :
    exec (.chanStatsReadDone f) s = .next (endRead 0x0507 isStatsRead f s) := by
  simp only [exec, execChanStatsReadDone, whenOn, hOn, if_false]

end Sys2Proof.Laws
end

section
/-! The channeliser (spec/03_channeliser.md). -/

namespace Sys2Proof.Proofs
open Sys2Proof Sys2Proof.Machine Sys2Proof.Laws

/-- Settles O25: each command by its equations; the end of an interval touches its own slice alone, as `modSlice` does. -/
theorem channeliserStepsAndResets : Obligations.ChanneliserStepsAndResets := by
  intro s hOn
  refine ⟨fun i c n ho hturn => exec_channeliserStep_turn i c n s ho hturn, fun i c n h => exec_channeliserStep_idle i c n s h,
    fun k h => exec_statsIntervalEnd_running k s hOn h, fun k h => ?intervalOver, exec_syncReset_none s hOn,
    fun t h => exec_syncReset_due s t hOn h, fun w h => exec_syncInEdge_accepted w s hOn h,
    fun w h => exec_syncInEdge_refused w s hOn h, fun f h => ?noRead, fun f r h => ⟨fun hf => ?fails, fun st hf hw => ?unwritten,
    fun hf hw => ?written⟩⟩
  case intervalOver =>
    exact ⟨_, exec_statsIntervalEnd_over k s hOn h, rfl, sliceOf_modSlice .., fun j hj => sliceOf_modSlice_ne _ _ _ _ hj⟩
  case noRead => rw [exec_chanStatsReadDone f s hOn, endRead_none _ _ f s h]
  case fails => subst hf; rw [exec_chanStatsReadDone true s hOn, endRead_fail _ _ s r h]
  case unwritten => subst hf; rw [exec_chanStatsReadDone false s hOn, endRead_unwritten _ _ s r h st hw]
  case written => subst hf; rw [exec_chanStatsReadDone false s hOn, endRead_written _ _ s r h hw]

end Sys2Proof.Proofs
end

section
/-! The DRAM controllers' queue and memory (spec/14_dram_controller.md): which request is next, what serving one leaves, and one
equation per branch of the operations on a burst. -/

namespace Sys2Proof.Laws
open Sys2Proof Sys2Proof.Machine

/-! What an access to a channel leaves of the queue and of the bytes. -/

@[simp] theorem modDram_queue (k : Nat) (f : DramCh → DramCh) (s : State) : (modDram k f s).dram.queue = s.dram.queue := rfl

@[simp] theorem modDram_mem (k : Nat) (f : DramCh → DramCh) (s : State) : (modDram k f s).dram.mem = s.dram.mem := rfl

@[simp] theorem draw_dram (s : State) : (draw s).2.dram = s.dram := rfl

@[simp] theorem freeBytes_dram (n : Nat) (s : State) : (freeBytes n s).2.dram = s.dram := by
  induction n generalizing s with
  | zero => rfl
  | succ n ih => simp [freeBytes, ih]

@[simp] theorem bankAccess_queue (c loc : Nat) (s : State) : (bankAccess c loc s).dram.queue = s.dram.queue := by
  unfold bankAccess pageAccess
  dsimp only
  (repeat' split) <;> simp

@[simp] theorem bankAccess_mem (c loc : Nat) (s : State) : (bankAccess c loc s).dram.mem = s.dram.mem := by
  unfold bankAccess pageAccess
  dsimp only
  (repeat' split) <;> simp

@[simp] theorem countUe_queue (c a : Nat) (s : State) : (countUe c a s).dram.queue = s.dram.queue := by
  simp [countUe, countUes]

@[simp] theorem countCe_queue (c d : Nat) (s : State) : (countCe c d s).dram.queue = s.dram.queue := by
  simp [countCe]

/-! An address and its channel. -/

theorem chanLost_of_map (s : State) (a c loc : Nat) (h : dramMap s a = some (c, loc)) :
    chanLost s a = (dramCh s c).lost := by
  simp only [chanLost, h]

/-! Reads of a burst (R336, R338). -/

section
variable (a c loc : Nat) (l : List Nat) (s : State) (hmap : dramMap s a = some (c, loc))
include hmap

theorem readBurst_lost (hlost : (dramCh s c).lost = true) : readBurst a l s = (true, countUe c a s) := by
  simp only [readBurst, hmap, hlost, if_true]

variable (hlive : (dramCh s c).lost = false)
include hlive

theorem readBurst_no_error (hl : l.dedup = []) : readBurst a l s = (false, bankAccess c loc s) := by
  simp only [readBurst, hmap, hlive, hl, Bool.false_eq_true, if_false]

theorem readBurst_one_device (d : Nat) (hl : l.dedup = [d]) :
    readBurst a l s = (false, countCe c d (bankAccess c loc s)) := by
  simp only [readBurst, hmap, hlive, hl, Bool.false_eq_true, if_false]

theorem readBurst_two_devices (d e : Nat) (hl : l.dedup = [d, e]) :
    readBurst a l s = (true, countUe c a (bankAccess c loc s)) := by
  simp only [readBurst, hmap, hlive, hl, Bool.false_eq_true, if_false]

theorem readBurst_more_devices (d e f : Nat) (rest : List Nat) (hl : l.dedup = d :: e :: f :: rest) :
    readBurst a l s =
      let x := draw (bankAccess c loc s)
      let y := freeBytes 64 x.2
      if x.1 % 3 = 0 then (true, countUe c a x.2)
      else if x.1 % 3 = 1 then (false, countCe c d { y.2 with dram.mem := memWrite y.2.dram.mem (a / 64 * 64) y.1 })
      else (false, x.2) := by
  simp only [readBurst, hmap, hlive, hl, Bool.false_eq_true, if_false]

end

@[simp] theorem readBurst_queue (a : Nat) (l : List Nat) (s : State) : (readBurst a l s).2.dram.queue = s.dram.queue := by
  unfold readBurst
  dsimp only
  (repeat' split) <;> simp

/-! Writes of a burst (R338). -/

theorem issueWrite_lost (a : Nat) (l : List Byte) (s : State) (h : chanLost s a = true) : issueWrite a l s = s := by
  unfold chanLost at h
  unfold issueWrite
  split at h
  · next c loc hmap => simp only [hmap, h, if_true]
  · next hmap => simp only [hmap]

theorem issueWrite_mem (a : Nat) (l : List Byte) (s : State) (h : chanLost s a = false) :
    (issueWrite a l s).dram.mem = memWrite s.dram.mem a l := by
  unfold chanLost at h
  unfold issueWrite
  split at h
  · next c loc hmap => simp [hmap, h]
  · exact absurd h.symm Bool.false_ne_true

@[simp] theorem issueWrite_queue (a : Nat) (l : List Byte) (s : State) : (issueWrite a l s).dram.queue = s.dram.queue := by
  unfold issueWrite
  (repeat' split) <;> simp

/-! Requests are served one at a time, each leaving the queue (R87, R334). -/

@[simp] theorem issueReq_queue (r : DramReq) (s : State) : (issueReq r s).dram.queue = s.dram.queue := by
  unfold issueReq
  split <;> simp

@[simp] theorem takeReq_queue (r : DramReq) (s : State) : (takeReq r s).dram.queue = s.dram.queue.erase r := by
  simp [takeReq]

/-- In front of the first element that a filter leaves of a `takeWhile`, nothing passes the filter. -/
theorem filter_eq_false_of_mem_takeWhile_ne_head {α : Type} [DecidableEq α] (p f : α → Bool) (q t : List α) (r : α)
    (h : (q.takeWhile p).filter f = r :: t) : ∀ x ∈ q.takeWhile (fun x => x ≠ r), f x = false := by
  induction q with
  | nil => simp
  | cons y q ih =>
    have hr : f r = true := (List.mem_filter.mp (h ▸ List.mem_cons_self)).2
    cases hp : p y with
    | false => simp [hp] at h
    | true =>
      cases hf : f y with
      | true =>
        have hy : y = r := by simp [hp, hf] at h; exact h.1
        simp [hy]
      | false =>
        have hy : y ≠ r := fun e => by simp [← e, hf] at hr
        have ht : (q.takeWhile p).filter f = r :: t := by simpa [hp, hf] using h
        simpa [hy, hf] using ih ht

/-- What goes before `b` is of its burst, and after it none of that burst comes that `b` had to wait for (R334). -/
theorem ahead_spec (q : List DramReq) (b : DramReq) (hb : b ∈ q) :
    ahead q b ∈ q ∧ sameBurst (ahead q b).addr b.addr = true ∧
    ∀ x ∈ q.takeWhile (fun x => x ≠ ahead q b), sameBurst x.addr (ahead q b).addr = true →
      x.isWrite = false ∧ (ahead q b).isWrite = false := by
  unfold ahead
  dsimp only
  split
  · next hany =>
    cases hl : (q.takeWhile (fun x => x ≠ b)).filter (fun x => sameBurst x.addr b.addr) with
    | nil => exact absurd (hl ▸ hany) (by simp)
    | cons r t =>
      obtain ⟨hq, hburst⟩ := List.mem_filter.mp (hl ▸ List.mem_cons_self : r ∈ _)
      refine ⟨(List.takeWhile_subset _) hq, hburst, fun x hx hsame => ?_⟩
      have hnot := filter_eq_false_of_mem_takeWhile_ne_head _ _ q t r hl x hx
      have hsame' : x.addr / 64 = b.addr / 64 := (of_decide_eq_true hsame).trans (of_decide_eq_true hburst)
      exact absurd hsame' (of_decide_eq_false hnot)
  · next hnone =>
    refine ⟨hb, by simp [sameBurst], fun x hx hsame => ?_⟩
    simpa using List.any_eq_false.mp (Bool.eq_false_iff.mpr hnone) x (List.mem_filter.mpr ⟨hx, hsame⟩)

/-- The request of the highest class, the first of several, chosen as the library's `argmin` chooses it. -/
theorem nextReq_eq_argmin (s : State) (p : DramReq → Bool) :
    nextReq s p = (((s.dram.queue.filter (reqAlive s)).filter p).argmin DramReq.cls).map
      (ahead (s.dram.queue.filter (reqAlive s))) := by
  unfold nextReq List.argmin
  dsimp only
  congr 2
  funext best r
  cases best <;> rfl

theorem nextReq_eq_none_iff (s : State) (p : DramReq → Bool) :
    nextReq s p = none ↔ ∀ r ∈ s.dram.queue, reqAlive s r = true → p r = false := by
  rw [nextReq_eq_argmin, Option.map_eq_none_iff, List.argmin_eq_none, List.filter_eq_nil_iff]
  simp only [List.mem_filter, and_imp, Bool.not_eq_true]

theorem nextReq_some (s : State) (p : DramReq → Bool) (r : DramReq) (h : nextReq s p = some r) :
    r ∈ s.dram.queue ∧ reqAlive s r = true ∧
    (∃ b ∈ s.dram.queue, p b = true ∧ sameBurst r.addr b.addr = true ∧
      ∀ y ∈ s.dram.queue, reqAlive s y = true → p y = true → b.cls ≤ y.cls) ∧
    ∀ x ∈ (s.dram.queue.filter (reqAlive s)).takeWhile (fun x => x ≠ r), sameBurst x.addr r.addr = true →
      x.isWrite = false ∧ r.isWrite = false := by
  rw [nextReq_eq_argmin] at h
  obtain ⟨b, hmin, rfl⟩ := Option.map_eq_some_iff.mp h
  obtain ⟨hb, hp⟩ := List.mem_filter.mp (List.argmin_mem hmin)
  obtain ⟨hr, hburst, hfirst⟩ := ahead_spec _ b hb
  obtain ⟨hrq, halive⟩ := List.mem_filter.mp hr
  refine ⟨hrq, halive, ⟨b, (List.mem_filter.mp hb).1, hp, hburst, fun y hy ha hpy => ?_⟩, hfirst⟩
  exact List.le_of_mem_argmin (List.mem_filter.mpr ⟨List.mem_filter.mpr ⟨hy, ha⟩, hpy⟩) hmin

/-- Serving as many requests as wait leaves none that `p` admits. -/
theorem nextReq_serveN (n : Nat) (p : DramReq → Bool) (s : State) (h : s.dram.queue.length ≤ n) :
    nextReq (serveN n p s) p = none := by
  induction n generalizing s with
  | zero =>
    have hempty : s.dram.queue = [] := List.length_eq_zero_iff.mp (Nat.le_zero.mp h)
    exact (nextReq_eq_none_iff s p).mpr (by simp [hempty])
  | succ n ih =>
    unfold serveN
    split
    · next hnone => exact hnone
    · next r hr =>
      obtain ⟨hmem, -⟩ := nextReq_some s p r hr
      refine ih _ ?_
      rw [takeReq_queue, List.length_erase_of_mem hmem]
      omega

theorem writeWaits_drainBurst (a : Nat) (s : State) : writeWaits (drainBurst a s) a = false := by
  have hnone := nextReq_serveN _ (fun r => r.isWrite && sameBurst r.addr a) s le_rfl
  rw [nextReq_eq_none_iff] at hnone
  refine List.any_eq_false.mpr fun r hr => ?_
  cases halive : reqAlive (drainBurst a s) r with
  | false => simp
  | true => simp only [hnone r hr halive, Bool.true_and, Bool.false_eq_true, not_false_eq_true]

/-! A read of a burst in its turn (R87, R334). -/

section
variable (m a c loc : Nat) (l : List Nat) (s : State) (hmap : dramMap s a = some (c, loc))
include hmap

theorem fetchBurst_lost (hlost : (dramCh s c).lost = true) : fetchBurst m a l s = (true, countUe c a s) := by
  rw [fetchBurst, chanLost_of_map s a c loc hmap, if_pos hlost, readBurst_lost a c loc l s hmap hlost]

theorem fetchBurst_live (hlive : (dramCh s c).lost = false) : fetchBurst m a l s =
    let u := if writeWaits s a then count .rawWaits c s else s
    readBurst a l (drainBurst a (serveFirst m (onChannel u c) u)) := by
  simp only [fetchBurst, chanLost_of_map s a c loc hmap, hlive, hmap, Bool.false_eq_true, if_false, Option.map_some,
    Option.getD_some]

end

/-! DRAM_READ. -/

theorem exec_dramRead_noDram (a : Nat) (l : List Nat) (m : BitVec 3) (w : Bool) (n : BitVec 2) (s : State)
    (hOn : s.dev.state ≠ .off) (h : dramTop s ≤ a ∨ dramMap s a = none) :
    exec (.dramRead a l m w n) s = .fault .noDram := by
  by_cases htop : dramTop s ≤ a
  · simp only [exec, execDramRead, hOn, htop, if_false, if_true]
  · simp only [exec, execDramRead, hOn, htop, h.resolve_left htop, if_false]

section
variable (a c loc : Nat) (l : List Nat) (m : BitVec 3) (w : Bool) (n : BitVec 2) (s : State) (hOn : s.dev.state ≠ .off)
  (htop : a < dramTop s) (hmap : dramMap s a = some (c, loc))
include hOn htop hmap

theorem exec_dramRead : exec (.dramRead a l m w n) s =
    let u := countN .parityReissue c n.toNat s
    let r := fetchBurst m.toNat a l u
    if w && !(dramCh s c).lost then .next (queueReq { cls := m.toNat, addr := a, kind := .read l } u)
    else .next (if r.1 then ueInService a r.2 else r.2) := by
  simp only [exec, execDramRead, hOn, Nat.not_le.mpr htop, hmap, if_false]
  rfl

theorem exec_dramRead_waits (hw : w = true) (hlive : (dramCh s c).lost = false) : exec (.dramRead a l m w n) s =
    .next (queueReq { cls := m.toNat, addr := a, kind := .read l } (countN .parityReissue c n.toNat s)) := by
  rw [exec_dramRead a c loc l m w n s hOn htop hmap, hw, hlive]
  rfl

theorem exec_dramRead_served (h : w = false ∨ (dramCh s c).lost = true) : exec (.dramRead a l m w n) s =
    let r := fetchBurst m.toNat a l (countN .parityReissue c n.toNat s)
    .next (if r.1 then ueInService a r.2 else r.2) := by
  have hnow : (w && !(dramCh s c).lost) = false := by rcases h with h | h <;> simp [h]
  rw [exec_dramRead a c loc l m w n s hOn htop hmap]
  simp only [hnow, Bool.false_eq_true, if_false]

end

/-! DRAM_WRITE. -/

section
variable (c : BitVec 4) (n : BitVec 2) (s : State) (hOn : s.dev.state ≠ .off)
include hOn

theorem exec_dramWrite_none (h : nextReq s (fun r => r.isWrite && onChannel s c.toNat r.addr) = none) :
    exec (.dramWrite c n) s = .next s := by
  simp only [exec, execDramWrite, Proofs.whenOn_of_on _ s hOn, h]

variable (r : DramReq) (h : nextReq s (fun r => r.isWrite && onChannel s c.toNat r.addr) = some r)
include h

theorem exec_dramWrite_of_write (hr : r.isWrite = true) :
    exec (.dramWrite c n) s = .next (takeReq r (countN .parityReissue c.toNat n.toNat s)) := by
  simp only [exec, execDramWrite, Proofs.whenOn_of_on _ s hOn, h, hr, if_true, reissue]

theorem exec_dramWrite_of_read (hr : r.isWrite = false) : exec (.dramWrite c n) s =
    let first := fun (x : DramReq) => sameBurst x.addr r.addr
    let v := serveN ((s.dram.queue.filter first).takeWhile (fun x => !x.isWrite)).length first
      (countN .parityReissue c.toNat n.toNat s)
    .next (((v.dram.queue.find? (fun x => reqAlive v x && first x)).map (fun w => takeReq w v)).getD v) := by
  simp only [exec, execDramWrite, Proofs.whenOn_of_on _ s hOn, h, hr, Bool.false_eq_true, if_false, reissue, countN_fields]
  split <;> next hfind => simp only [hfind, Option.map_some, Option.map_none, Option.getD_some, Option.getD_none]

end

end Sys2Proof.Laws
end

section
/-! Reads and writes of the DRAM (spec/14_dram_controller.md R334 to R338). -/

namespace Sys2Proof.Proofs
open Sys2Proof Sys2Proof.Machine Sys2Proof.Laws

/-- Settles O47: each command by its equations; that no write of a read's burst stays queued is `writeWaits_drainBurst`, the order
is `nextReq_some`, and a write's bytes are those of `memWrite`. -/
theorem dramReadsAndWritesKeepOrder : Obligations.DramReadsAndWritesKeepOrder := by
  intro s hOn
  refine ⟨fun a l m w n h => exec_dramRead_noDram a l m w n s hOn h, fun a l m w n c loc htop hmap => ⟨fun hw hlive => ?waits,
    fun h => ?served⟩, fun m a l c loc hmap => ⟨fetchBurst_lost m a c loc l s hmap, fun hlive => ?fetched⟩,
    fun a l c loc hmap => ⟨readBurst_lost a c loc l s hmap, fun hlive => ⟨readBurst_no_error a c loc l s hmap hlive,
      readBurst_one_device a c loc l s hmap hlive, readBurst_two_devices a c loc l s hmap hlive,
      fun d e f rest hl => ⟨fun h0 => ?detected, fun h1 => ?falselyCorrected, fun h2 => ?unseen⟩⟩⟩,
    fun c n => ⟨exec_dramWrite_none c n s hOn, exec_dramWrite_of_write c n s hOn, fun r hr hread => ⟨fun w hw => ?inItsPlace,
      fun hnone => ?gone⟩⟩, fun p => ⟨nextReq_eq_none_iff s p, nextReq_some s p⟩, fun r => rfl,
    fun a l => ⟨issueWrite_lost a l s, fun hlive => ⟨?stored, fun x hx => ?kept⟩⟩⟩
  case waits => exact exec_dramRead_waits a c loc l m w n s hOn htop hmap hw hlive
  case served => exact exec_dramRead_served a c loc l m w n s hOn htop hmap h
  case fetched => exact ⟨writeWaits_drainBurst _ _, fetchBurst_live m a c loc l s hmap hlive⟩
  case detected => simp only [readBurst_more_devices a c loc l s hmap hlive d e f rest hl, h0, if_true]
  case falselyCorrected =>
    simp only [readBurst_more_devices a c loc l s hmap hlive d e f rest hl, h1, one_ne_zero, if_true, if_false]
  case unseen =>
    simp only [readBurst_more_devices a c loc l s hmap hlive d e f rest hl, h2, OfNat.ofNat_ne_zero, OfNat.ofNat_ne_one, if_false]
  case inItsPlace =>
    rw [exec_dramWrite_of_read c n s hOn r hr hread]
    simp only [hw, Option.map_some, Option.getD_some]
  case gone =>
    rw [exec_dramWrite_of_read c n s hOn r hr hread]
    simp only [hnone, Option.map_none, Option.getD_none]
  case stored => rw [issueWrite_mem a l s hlive, memRead_memWrite]
  case kept => rw [issueWrite_mem a l s hlive, memGet_memWrite_outside _ _ _ _ hx]

end Sys2Proof.Proofs
end

section
/-! The corner-turn store's commands (spec/04_corner_turn_store.md): one equation per branch, and what the flag writes leave of the
controllers' queue. -/

namespace Sys2Proof.Laws
open Sys2Proof Sys2Proof.Machine

/-! Bursts that no controller accepts (R81). -/

/-- The lost range covers a granule that joins it. -/
theorem lostIn_loseGranule (key g : Nat) (s : State) : lostIn (chanUnit (loseGranule key g s) key) g = true := by
  simp only [loseGranule, chanUnit_modUnit, lostIn]
  cases (chanUnit s key).lost with
  | none => simp
  | some r => simp

@[simp] theorem chanUnit_count (c : Ctr) (i k : Nat) (s : State) : chanUnit (count c i s) k = chanUnit s k := rfl

theorem exec_storeBurstDiscard_none (s : State) (hOn : s.dev.state ≠ .off)
    (h : s.dram.queue.find? DramReq.isStore = none) : exec .storeBurstDiscard s = .next s := by
  simp only [exec, execStoreBurstDiscard, Proofs.whenOn_of_on _ s hOn, h]

theorem exec_storeBurstDiscard_oldest (s : State) (r : DramReq) (unit g : Nat) (b : List Byte) (issued : Nat)
    (hOn : s.dev.state ≠ .off) (h : s.dram.queue.find? DramReq.isStore = some r) (hr : r.kind = .store unit g b issued) :
    exec .storeBurstDiscard s = .next (count .storeLost (unit / 65536 / 256)
      (loseGranule unit g (elapseTo (issued + periodNs s) { s with dram.queue := s.dram.queue.erase r }))) := by
  simp only [exec, execStoreBurstDiscard, Proofs.whenOn_of_on _ s hOn, h, hr, burstDue]

/-! Chunk reads (R86). -/

theorem exec_chunkRead_not_given (c : ChunkItem) (ue : List Nat) (s : State)
    (h : takeWork (isChunkWork c) s = none ∨ runningImage s = none) : exec (.chunkRead c ue) s = .next s := by
  rcases h with hwork | himage
  · cases hi : runningImage s <;> simp only [exec, execChunkRead, hi, hwork]
  · simp only [exec, execChunkRead, himage]

theorem exec_chunkRead_given (c : ChunkItem) (ue : List Nat) (s u : State) (i : Image) (w : Work)
    (hi : runningImage s = some i) (hw : takeWork (isChunkWork c) s = some (w, u)) :
    exec (.chunkRead c ue) s = .next (if i.direct then u
      else if heldByOther u c then { u with store.waiting := u.store.waiting ++ [(c, ue)] } else fillChunk i c ue u) := by
  simp only [exec, execChunkRead, hi, hw]

/-! What a read of a granule finds (R85). -/

section
variable (s : State) (input fine g : Nat) (bad : Bool)

theorem granuleRead_not_fed (hfed : inputFed s input = false) : granuleRead s input fine g bad = some none := by
  simp only [granuleRead, hfed, Bool.not_false, if_true]

variable (hfed : inputFed s input = true)
include hfed

theorem granuleRead_unwritten (hw : writtenIn (chanUnit s (unitKey input (fine / max 1 (branches s)))) g = false) :
    granuleRead s input fine g bad = some (some .storeUnwritten) := by
  simp only [granuleRead, hfed, hw, Bool.not_true, Bool.not_false, Bool.false_eq_true, if_true, if_false]

variable (hw : writtenIn (chanUnit s (unitKey input (fine / max 1 (branches s)))) g = true)
include hw

theorem granuleRead_lost (hlost : lostIn (chanUnit s (unitKey input (fine / max 1 (branches s)))) g = true) :
    granuleRead s input fine g bad = some (some .storeLost) := by
  simp only [granuleRead, hfed, hw, hlost, Bool.not_true, Bool.false_eq_true, if_true, if_false]

theorem granuleRead_stored (hlost : lostIn (chanUnit s (unitKey input (fine / max 1 (branches s)))) g = false) :
    granuleRead s input fine g bad = if bad then some (some .storeUe) else none := by
  simp only [granuleRead, hfed, hw, hlost, Bool.not_true, Bool.false_eq_true, if_false]

end

/-! RFI flag writes (R266). -/

/-- The RFI service may still flag granule `g` of an input in stored channel `pos`. -/
def rfiTimely (s : State) (i : Image) (input pos g : Nat) : Prop :=
  i.direct = false ∧ pos < i.channels.length ∧
    writtenIn (chanUnit s (unitKey input (i.channels.getD pos 0 / max 1 (branches s)))) g = true ∧
    s.time.frame + 16 ≤ firstFill s i (g * 64 / max 1 i.len) ∧ rfiPegs s ≠ []

theorem rfiTimely_iff (s : State) (i : Image) (input pos g : Nat) : rfiTimely s i input pos g ↔
    (i.direct || decide (i.channels.length ≤ pos) ||
      !writtenIn (chanUnit s (unitKey input (i.channels.getD pos 0 / max 1 (branches s)))) g ||
      decide (firstFill s i (g * 64 / max 1 i.len) < s.time.frame + 16) || (rfiPegs s).isEmpty) = false := by
  simp only [rfiTimely, Bool.or_eq_false_iff, decide_eq_false_iff_not, Bool.not_eq_eq_eq_not, Bool.not_false, not_le,
    not_lt, List.isEmpty_eq_false_iff, ne_eq, and_assoc]

theorem exec_rfiFlagWrite_none (input : BitVec 12) (pos g : Nat) (s : State) (hi : runningImage s = none) :
    exec (.rfiFlagWrite input pos g) s = .next s := by
  simp only [exec, execRfiFlagWrite, hi]

section
variable (input : BitVec 12) (pos g : Nat) (s : State) (i : Image) (hi : runningImage s = some i)
include hi

theorem exec_rfiFlagWrite_untimely (h : ¬rfiTimely s i input.toNat pos g) : exec (.rfiFlagWrite input pos g) s = .next s := by
  rw [rfiTimely_iff, Bool.not_eq_false] at h
  simp only [exec, execRfiFlagWrite, hi, h, if_true]

theorem exec_rfiFlagWrite_timely (h : rfiTimely s i input.toNat pos g) : exec (.rfiFlagWrite input pos g) s =
    let addr := storeBase s + granuleOffset s i input.toNat pos (g * 64)
    .next (if chanLost s addr then s else queueReq { cls := 4, addr := addr, kind := .flag } s) := by
  rw [rfiTimely_iff] at h
  simp only [exec, execRfiFlagWrite, hi, h, Bool.false_eq_true, if_false]

end

/-- A flag write that still waits for the granule at `addr`. -/
def lateFlag (addr : Nat) (r : DramReq) : Bool := r.kind = .flag && sameBurst r.addr addr

theorem lateFlag_iff (addr : Nat) (r : DramReq) : lateFlag addr r = true ↔ r.kind = .flag ∧ sameBurst r.addr addr = true := by
  simp [lateFlag]

/-- RFI_LATE counts one cancelled flag write, on a peg that a free value chooses (log 1). -/
def countLate (s : State) (_ : DramReq) : State :=
  count .rfiLate ((rfiPegs (draw s).2).getD ((draw s).1 % max 1 (rfiPegs (draw s).2).length) 0) (draw s).2

theorem foldl_countLate_dram (l : List DramReq) (s : State) : (l.foldl countLate s).dram = s.dram := by
  induction l generalizing s with
  | nil => rfl
  | cons r l ih => rw [List.foldl_cons, ih]; simp [countLate]

theorem cancelFlags_eq (addr : Nat) (s : State) : cancelFlags addr s = (s.dram.queue.filter (lateFlag addr)).foldl countLate
    { s with dram.queue := s.dram.queue.filter (fun r => !lateFlag addr r) } := by
  have hkept : s.dram.queue.filter (fun r => !(s.dram.queue.filter (lateFlag addr)).contains r) =
      s.dram.queue.filter (fun r => !lateFlag addr r) := by
    refine List.filter_congr fun r hr => congrArg _ (Bool.eq_iff_iff.mpr ?_)
    simp [hr]
  rw [← hkept]
  rfl

theorem mem_cancelFlags_queue (addr : Nat) (s : State) (r : DramReq) :
    r ∈ (cancelFlags addr s).dram.queue ↔ r ∈ s.dram.queue ∧ lateFlag addr r = false := by
  simp [cancelFlags_eq, foldl_countLate_dram]

theorem cancelFlags_none (addr : Nat) (s : State) (h : ∀ r ∈ s.dram.queue, lateFlag addr r = false) :
    cancelFlags addr s = s := by
  have hlate : s.dram.queue.filter (lateFlag addr) = [] := by simpa using h
  have hkept : s.dram.queue.filter (fun r => !lateFlag addr r) = s.dram.queue := by simpa using h
  rw [cancelFlags_eq, hlate, hkept, List.foldl_nil]

theorem cancelFlags_one (addr : Nat) (s : State) (r : DramReq) (h : s.dram.queue.filter (lateFlag addr) = [r])
    (hpegs : rfiPegs s ≠ []) : cancelFlags addr s =
      count .rfiLate ((rfiPegs s).getD ((draw s).1 % (rfiPegs s).length) 0)
        { (draw s).2 with dram.queue := s.dram.queue.filter (fun x => !lateFlag addr x) } := by
  have hlen : max 1 (rfiPegs s).length = (rfiPegs s).length := max_eq_right (List.length_pos_iff.mpr hpegs)
  rw [cancelFlags_eq, h, List.foldl_cons, List.foldl_nil, ← hlen]
  rfl

end Sys2Proof.Laws
end

section
/-! The corner-turn store (spec/04_corner_turn_store.md R81, R85, R86, spec/11_peg_engines.md R266). -/

namespace Sys2Proof.Proofs
open Sys2Proof Sys2Proof.Machine Sys2Proof.Laws

/-- Settles O26: each command by its equations, what a read finds by the branches of `granuleRead`, and the flag writes of a fill by
`cancelFlags_eq`. -/
theorem storeKeepsWhatItAccepted : Obligations.StoreKeepsWhatItAccepted := by
  refine ⟨fun s => ⟨fun hOn r unit g b issued h hr => ?discarded, fun hOn h => exec_storeBurstDiscard_none s hOn h,
    fun c ue h => exec_chunkRead_not_given c ue s h, fun c ue i w u hi hw hd => ?direct, fun c ue i w u hi hw hd hheld => ?waits,
    fun c ue i w u hi hw hd hfree => ?performed, fun input pos g hi => exec_rfiFlagWrite_none input pos g s hi,
    fun input pos g i hi => ⟨fun h hlive => ?queued, fun h hlost => ?lost, exec_rfiFlagWrite_untimely input pos g s i hi⟩⟩,
    fun s addr => ⟨fun r => ?cancelled, fun h => ?noneLate, fun r h hpegs => ?oneLate⟩,
    fun s input fine g bad => ⟨granuleRead_not_fed s input fine g bad, granuleRead_unwritten s input fine g bad,
      granuleRead_lost s input fine g bad, granuleRead_stored s input fine g bad⟩⟩
  case discarded =>
    exact ⟨_, exec_storeBurstDiscard_oldest s r unit g b issued hOn h hr, rfl, by rw [chanUnit_count, lostIn_loseGranule]⟩
  case direct => rw [exec_chunkRead_given c ue s u i w hi hw, if_pos hd]
  case waits => simp only [exec_chunkRead_given c ue s u i w hi hw, hd, hheld, Bool.false_eq_true, if_false, if_true]
  case performed => simp only [exec_chunkRead_given c ue s u i w hi hw, hd, hfree, Bool.false_eq_true, if_false]
  case queued =>
    simp only [exec_rfiFlagWrite_timely input pos g s i hi h, hlive, Bool.false_eq_true, if_false, queueReq]
  case lost => simp only [exec_rfiFlagWrite_timely input pos g s i hi h, hlost, if_true]
  case cancelled => simp only [mem_cancelFlags_queue, ← lateFlag_iff, Bool.not_eq_true]
  case noneLate => exact cancelFlags_none addr s fun r hr => Bool.eq_false_iff.mpr (mt (lateFlag_iff addr r).mp (h r hr))
  case oneLate =>
    have hlate : (fun x : DramReq => decide (x.kind = .flag ∧ sameBurst x.addr addr = true)) = lateFlag addr :=
      funext fun x => Bool.eq_iff_iff.mpr (by rw [decide_eq_true_eq, lateFlag_iff])
    rw [hlate] at h
    rw [cancelFlags_one addr s r h hpegs, ← hlate]

end Sys2Proof.Proofs
end

section
/-! The beads' totals (spec/05_filigree_arrays.md R93 to R99): a total is the sum of what its pairs of samples add. -/

namespace Sys2Proof.Laws
open Sys2Proof Sys2Proof.Machine

/-- What one pair of samples adds to a bead (R94, R95): x · conj(y) where neither is flagged, one coincidence where both are. -/
def beadTerm (a b : Smp) : Int × Int × Nat :=
  if a.flag || b.flag then (0, 0, bit (a.flag && b.flag))
  else (a.re * b.re + a.im * b.im, a.im * b.re - a.re * b.im, 0)

theorem beadTerm_unflagged (a b : Smp) (ha : a.flag = false) (hb : b.flag = false) :
    beadTerm a b = (a.re * b.re + a.im * b.im, a.im * b.re - a.re * b.im, 0) := by
  simp only [beadTerm, ha, hb, Bool.or_self, Bool.false_eq_true, if_false]

theorem beadTerm_flagged (a b : Smp) (h : (a.flag || b.flag) = true) :
    beadTerm a b = (0, 0, bit (a.flag && b.flag)) := if_pos h

theorem beadTerm_swap (a b : Smp) : beadTerm b a = ((beadTerm a b).1, -(beadTerm a b).2.1, (beadTerm a b).2.2) := by
  cases h : a.flag || b.flag with
  | true => rw [beadTerm_flagged a b h, beadTerm_flagged b a (Bool.or_comm .. ▸ h), Bool.and_comm, neg_zero]
  | false =>
    obtain ⟨ha, hb⟩ := Bool.or_eq_false_iff.mp h
    rw [beadTerm_unflagged a b ha hb, beadTerm_unflagged b a hb ha]
    ext <;> dsimp only <;> ring

theorem beadTerm_coincidence_le (a b : Smp) : (beadTerm a b).2.2 ≤ 1 := by
  cases h : a.flag || b.flag with
  | true => rw [beadTerm_flagged a b h]; cases a.flag && b.flag <;> decide
  | false =>
    obtain ⟨ha, hb⟩ := Bool.or_eq_false_iff.mp h
    rw [beadTerm_unflagged a b ha hb]; exact Nat.zero_le 1

/-- The components of an unflagged sample lie from -m to m (Table 5.1). -/
def Within (m : Int) (a : Smp) : Prop := a.flag = false → -m ≤ a.re ∧ a.re ≤ m ∧ -m ≤ a.im ∧ a.im ≤ m

/-- The product of two components is bounded by m². -/
theorem abs_mul_le_sq {m u v : Int} (hu : -m ≤ u ∧ u ≤ m) (hv : -m ≤ v ∧ v ≤ m) : |u * v| ≤ m * m :=
  (abs_mul u v).trans_le
    (mul_le_mul (abs_le.mpr hu) (abs_le.mpr hv) (abs_nonneg v) ((abs_nonneg u).trans (abs_le.mpr hu)))

theorem beadTerm_bound (m : Int) (a b : Smp) (hm : 0 ≤ m) (ha : Within m a) (hb : Within m b) :
    |(beadTerm a b).1| ≤ 2 * m * m ∧ |(beadTerm a b).2.1| ≤ 2 * m * m := by
  cases h : a.flag || b.flag with
  | true =>
    rw [beadTerm_flagged a b h, abs_zero]
    exact ⟨by positivity, by positivity⟩
  | false =>
    obtain ⟨hfa, hfb⟩ := Bool.or_eq_false_iff.mp h
    obtain ⟨har, har', hai, hai'⟩ := ha hfa
    obtain ⟨hbr, hbr', hbi, hbi'⟩ := hb hfb
    have hrr := abs_mul_le_sq ⟨har, har'⟩ ⟨hbr, hbr'⟩
    have hii := abs_mul_le_sq ⟨hai, hai'⟩ ⟨hbi, hbi'⟩
    have hir := abs_mul_le_sq ⟨hai, hai'⟩ ⟨hbr, hbr'⟩
    have hri := abs_mul_le_sq ⟨har, har'⟩ ⟨hbi, hbi'⟩
    rw [beadTerm_unflagged a b hfa hfb]
    exact ⟨(abs_add_le _ _).trans (by linarith only [hrr, hii]), (abs_sub _ _).trans (by linarith only [hir, hri])⟩

variable (x y : Nat → Smp) (t0 : Nat)

theorem beadTotals_zero : beadTotals x y t0 0 = 0 := rfl

/-- The next pair of samples adds its term (R95). -/
theorem beadTotals_succ (n : Nat) :
    beadTotals x y t0 (n + 1) = beadTotals x y t0 n + beadTerm (x (t0 + n)) (y (t0 + n)) := by
  simp only [beadTotals, List.range_succ, List.foldl_append, List.foldl_cons, List.foldl_nil]
  cases h : (x (t0 + n)).flag || (y (t0 + n)).flag with
  | true => rw [beadTerm_flagged _ _ h, if_pos rfl]; ext <;> simp
  | false =>
    obtain ⟨hx, hy⟩ := Bool.or_eq_false_iff.mp h
    rw [beadTerm_unflagged _ _ hx hy, if_neg Bool.false_ne_true]; rfl

/-- An integration's totals are those of its parts added (R145). -/
theorem beadTotals_add (a b : Nat) : beadTotals x y t0 (a + b) = beadTotals x y t0 a + beadTotals x y (t0 + a) b := by
  induction b with
  | zero => rw [beadTotals_zero, add_zero, add_zero]
  | succ b ih => rw [← add_assoc, beadTotals_succ, ih, beadTotals_succ, add_assoc, add_assoc]

/-- Totals across the diagonal are each other's conjugates (R99). -/
theorem beadTotals_swap (n : Nat) : beadTotals y x t0 n =
    ((beadTotals x y t0 n).1, -(beadTotals x y t0 n).2.1, (beadTotals x y t0 n).2.2) := by
  induction n with
  | zero => rfl
  | succ n ih =>
    rw [beadTotals_succ, beadTotals_succ, ih, beadTerm_swap (x (t0 + n))]
    simp only [Prod.mk_add_mk, Prod.fst_add, Prod.snd_add, neg_add]

theorem beadTotals_self_im (n : Nat) : (beadTotals x x t0 n).2.1 = 0 :=
  self_eq_neg.mp (congrArg (fun p => p.2.1) (beadTotals_swap x x t0 n))

theorem beadTotals_coincidence_le (n : Nat) : (beadTotals x y t0 n).2.2 ≤ n := by
  induction n with
  | zero => exact le_rfl
  | succ n ih =>
    rw [beadTotals_succ]
    exact add_le_add ih (beadTerm_coincidence_le _ _)

theorem beadTotals_one : beadTotals x y t0 1 = beadTerm (x t0) (y t0) := by
  rw [beadTotals_succ, beadTotals_zero, zero_add, add_zero]

theorem beadTotals_bound (n : Nat) (m : Int) (hx : ∀ t, Within m (x t)) (hy : ∀ t, Within m (y t)) (hm : 0 ≤ m) :
    |(beadTotals x y t0 n).1| ≤ 2 * m * m * n ∧ |(beadTotals x y t0 n).2.1| ≤ 2 * m * m * n := by
  induction n with
  | zero => simp [beadTotals_zero]
  | succ n ih =>
    obtain ⟨hre, him⟩ := beadTerm_bound m _ _ hm (hx (t0 + n)) (hy (t0 + n))
    rw [beadTotals_succ, Nat.cast_succ, mul_add, mul_one]
    exact ⟨(abs_add_le _ _).trans (add_le_add ih.1 hre), (abs_add_le _ _).trans (add_le_add ih.2 him)⟩

end Sys2Proof.Laws
end

section
/-! The beads (spec/05_filigree_arrays.md R93 to R99). -/

namespace Sys2Proof.Proofs
open Sys2Proof Sys2Proof.Machine Sys2Proof.Laws

/-- Settles O28: each clause by induction over the samples, one `beadTerm` at a time. -/
theorem beadTotalsAreExactSums : Obligations.BeadTotalsAreExactSums := by
  refine ⟨beadTotals_add, fun x y t0 n => ⟨beadTotals_swap x y t0 n, beadTotals_self_im x t0 n,
    beadTotals_coincidence_le x y t0 n⟩, fun x y t hx hy => ?_, fun x y t0 n m hx hy hm => ?_⟩
  · rw [beadTotals_one, beadTerm_unflagged _ _ hx hy]
  · obtain ⟨hre, him⟩ := beadTotals_bound x y t0 n m hx hy hm
    exact ⟨(abs_le.mp hre).1, (abs_le.mp hre).2, (abs_le.mp him).1, (abs_le.mp him).2⟩

end Sys2Proof.Proofs
end

section
/-! The arrays' commands (spec/05_filigree_arrays.md): one equation per branch. -/

namespace Sys2Proof.Laws
open Sys2Proof Sys2Proof.Machine

/-! Passes (R102, R103, R231). -/

/-- The work item is the next of its array, and the array can begin it (R102, R103). -/
def passReady (s : State) (a : Nat) (w : Work) : Prop :=
  s.sched.work.find? (onArray a) = some w ∧ (array s a).enabled = true ∧ (array s a).beads = [] ∧ inBeam s a = false

theorem passReady_iff (s : State) (a : Nat) (w first : Work) (h : s.sched.work.find? (onArray a) = some first) :
    passReady s a w ↔
      (decide (first ≠ w) || !(array s a).enabled || !(array s a).beads.isEmpty || inBeam s a) = false := by
  simp only [passReady, h, Option.some.injEq, Bool.or_eq_false_iff, decide_eq_false_iff_not, not_not, Bool.not_eq_eq_eq_not,
    Bool.not_false, List.isEmpty_iff, and_assoc]

section
variable (a : BitVec 2) (p : PassItem) (ce : Nat) (ue : List VestLine) (s : State)

theorem exec_correlationPass_not_given (h : runningImage (landRounds s) = none ∨
    takeWork (isPassWork a.toNat p) (landRounds s) = none ∨ imageOf (landRounds s) p.block = none) :
    exec (.correlationPass a p ce ue) s = .next (landRounds s) := by
  simp only [exec, execCorrelationPass]
  split
  · next hr hw _ =>
    have hi := (h.resolve_left (by simp [hr])).resolve_left (by simp [hw])
    rw [hi]
  · rfl

variable (r i : Image) (w : Work) (t : State) (hr : runningImage (landRounds s) = some r)
  (hw : takeWork (isPassWork a.toNat p) (landRounds s) = some (w, t)) (hi : imageOf (landRounds s) p.block = some i)
include hr hw hi

theorem exec_correlationPass_not_ready (h : ¬passReady (landRounds s) a.toNat w) :
    exec (.correlationPass a p ce ue) s = .next (landRounds s) := by
  cases hf : (landRounds s).sched.work.find? (onArray a.toNat) with
  | none => simp only [exec, execCorrelationPass, hr, hw, hf]
  | some first =>
    rw [passReady_iff _ _ _ first hf, Bool.not_eq_false] at h
    simp only [exec, execCorrelationPass, hr, hw, hf, hi, h, if_true]

variable (h : passReady (landRounds s) a.toNat w)
include h

theorem exec_correlationPass_direct (hd : i.direct = true) :
    exec (.correlationPass a p ce ue) s = .next (runPass a.toNat p ce ue i w none t) := by
  have hf := h.1
  rw [passReady_iff _ _ _ w hf] at h
  simp only [exec, execCorrelationPass, hr, hw, hf, hi, h, hd, Bool.false_eq_true, if_false, if_true]

variable (hd : i.direct = false)
include hd

theorem exec_correlationPass_held (k : Nat) (hk : holding (landRounds s) (p.pos, p.block) = some k) :
    exec (.correlationPass a p ce ue) s = .next (if fillDone (landRounds s) (p.pos, p.block) then
      runPass a.toNat p ce ue i w (some k) t else landRounds s) := by
  have hf := h.1
  rw [passReady_iff _ _ _ w hf] at h
  simp only [exec, execCorrelationPass, hr, hw, hf, hi, h, hd, hk, Bool.false_eq_true, if_false]

theorem exec_correlationPass_not_held (hk : holding (landRounds s) (p.pos, p.block) = none) :
    exec (.correlationPass a p ce ue) s = .next (if (p.pos, p.block, none) ∈ (landRounds s).sched.shed then
      runPass a.toNat p ce ue i w none t else landRounds s) := by
  have hf := h.1
  rw [passReady_iff _ _ _ w hf] at h
  simp only [exec, execCorrelationPass, hr, hw, hf, hi, h, hd, hk, Bool.false_eq_true, if_false]

end

/-! The chain (R103 to R105, R108). -/

/-- Totals wait for their transfer: row 0 is due, or the array stalls for it (R103, R105). -/
def transferWanted (x : ArraySt) (due : Bool) : Prop := (due = true ∨ x.stalling = true) ∧ x.beads ≠ []

theorem transferWanted_iff (x : ArraySt) (due : Bool) :
    transferWanted x due ↔ ((due || x.stalling) && !x.beads.isEmpty) = true := by
  simp only [transferWanted, Bool.and_eq_true, Bool.or_eq_true, Bool.not_eq_eq_eq_not, Bool.not_true, List.isEmpty_eq_false_iff,
    ne_eq]

theorem exec_chainShift_wanted (a : BitVec 2) (due : Bool) (s : State) (hOn : s.dev.state ≠ .off)
    (h : transferWanted (array s a.toNat) due) : exec (.chainShift a due) s = .next (
      if (inChain (array s a.toNat)).isNone then settleBuffers (transferDump a.toNat s)
      else shiftRow a.toNat (stallCycle a.toNat s)) := by
  rw [transferWanted_iff] at h
  simp only [exec, execChainShift, Proofs.whenOn_of_on _ s hOn, h, if_true]

theorem exec_chainShift_not_wanted (a : BitVec 2) (due : Bool) (s : State) (hOn : s.dev.state ≠ .off)
    (h : ¬transferWanted (array s a.toNat) due) : exec (.chainShift a due) s = .next (landRounds (shiftRow a.toNat (
      if beamStalls s a.toNat then count .stallCycles a.toNat (modArray a.toNat (fun x => { x with stalled := true }) s)
      else s))) := by
  rw [transferWanted_iff, Bool.not_eq_true] at h
  simp only [exec, execChainShift, Proofs.whenOn_of_on _ s hOn, h, Bool.false_eq_true, if_false]

/-! One row (R104, R117). -/

@[simp] theorem array_count (c : Ctr) (i k : Nat) (s : State) : array (count c i s) k = array s k := rfl

@[simp] theorem counter_modArray (c : Ctr) (i k : Nat) (f : ArraySt → ArraySt) (s : State) :
    counter c i (modArray k f s) = counter c i s := rfl

/-- A unit's counters of different kinds are separate: counting one leaves the other. -/
theorem counter_count_of_ne {c d : Ctr} (i : Nat) (s : State) (h : c.ctorIdx ≠ d.ctorIdx) :
    counter c i (count d i s) = counter c i s :=
  have hkey : ctrKey c i ≠ ctrKey d i := by unfold ctrKey; omega
  tabGet_tabMod_ne 0 s.counters (· + 1) hkey

theorem shiftRow_empty (a : Nat) (s : State) (h : inChain (array s a) = none) : shiftRow a s = s := by
  simp only [shiftRow, h]

theorem shiftRow_full (a : Nat) (s : State) (h : 65536 < landingWords (array s a) + 256) : shiftRow a s = s := by
  have hfull : rowFits (array s a) = false := decide_eq_false (Nat.not_le.mpr h)
  simp only [shiftRow, hfull, Bool.not_false, if_true]
  split <;> rfl

/-- A row that moves, and what its dump counts where it was the last one. -/
theorem shiftRow_moves (a : Nat) (s : State) (d : Dump) (h : inChain (array s a) = some d)
    (hfits : landingWords (array s a) + 256 ≤ 65536) : shiftRow a s =
      let moved := modArray a (fun x => { x with dumps := shiftFirst x.dumps }) s
      if d.rows.length ≠ 1 then moved else if d.last then count .passes a (count .dumps a moved) else count .dumps a moved := by
  have hfit : rowFits (array s a) = true := decide_eq_true hfits
  simp only [shiftRow, h, hfit, Bool.not_true, Bool.false_eq_true, if_false]

section
variable (a : Nat) (s : State) (d : Dump) (h : inChain (array s a) = some d)
  (hfits : landingWords (array s a) + 256 ≤ 65536)
include h hfits

theorem array_shiftRow (j : Nat) :
    array (shiftRow a s) j = array (modArray a (fun x => { x with dumps := shiftFirst x.dumps }) s) j := by
  rw [shiftRow_moves a s d h hfits]
  dsimp only
  split_ifs <;> rfl

theorem shiftRow_clasp : (shiftRow a s).clasp = s.clasp := by
  rw [shiftRow_moves a s d h hfits]
  dsimp only
  split_ifs <;> rfl

theorem counter_dumps_shiftRow :
    counter .dumps a (shiftRow a s) = counter .dumps a s + bit (decide (d.rows.length = 1)) := by
  rw [shiftRow_moves a s d h hfits]
  dsimp only
  split_ifs with hlast hpass
  · simp [hlast, bit]
  · rw [counter_count_of_ne a _ (by decide)]
    simp [not_not.mp hlast, bit]
  · simp [not_not.mp hlast, bit]

theorem counter_passes_shiftRow :
    counter .passes a (shiftRow a s) = counter .passes a s + bit (decide (d.rows.length = 1) && d.last) := by
  rw [shiftRow_moves a s d h hfits]
  dsimp only
  split_ifs with hlast hpass
  · simp [hlast, bit]
  · rw [counter_count, counter_count_of_ne a _ (by decide)]
    simp [not_not.mp hlast, hpass, bit]
  · rw [counter_count_of_ne a _ (by decide)]
    simp [hpass, bit]

end

/-! The landing buffer (R106, R141, R149). -/

/-- A dump after the words of one cycle have moved to its job. -/
def moveWords (s : State) (d : Dump) : Dump :=
  { d with words := d.words.drop (landingRate s d.job), moved := (d.words.take (landingRate s d.job)).reverse ++ d.moved }

section
variable (a : BitVec 2) (turn : Bool) (ce : Nat) (ue : Bool) (s : State) (hOn : s.dev.state ≠ .off)
include hOn

theorem exec_landingBufferMove_empty (h : (array s a.toNat).dumps.find? (fun d => !d.words.isEmpty) = none) :
    exec (.landingBufferMove a turn ce ue) s = .next s := by
  simp only [exec, execLandingBufferMove, Proofs.whenOn_of_on _ s hOn, h]

variable (d : Dump) (h : (array s a.toNat).dumps.find? (fun d => !d.words.isEmpty) = some d)
include h

theorem exec_landingBufferMove_held (hheld : turn = true ∨ landingHeld s a.toNat d.job = true) :
    exec (.landingBufferMove a turn ce ue) s = .next s := by
  rw [← Bool.or_eq_true] at hheld
  simp only [exec, execLandingBufferMove, Proofs.whenOn_of_on _ s hOn, h, hheld, if_true]

theorem exec_landingBufferMove_free (hfree : ¬(turn = true ∨ landingHeld s a.toNat d.job = true)) :
    exec (.landingBufferMove a turn ce ue) s = .next (
      if needsPlane s (moveWords s d) then waitPlane d.job s
      else if (moveWords s d).words.isEmpty && (moveWords s d).rows.isEmpty then
        dumpLanded a.toNat (moveWords s d)
          (modArray a.toNat (fun x => { x with dumps := x.dumps.erase d }) (addEcc d.job ce ue s))
      else modArray a.toNat (fun x => { x with dumps := x.dumps.map (fun y => if y = d then moveWords s d else y) })
        (addEcc d.job ce ue s)) := by
  rw [← Bool.or_eq_true, Bool.not_eq_true] at hfree
  simp only [exec, execLandingBufferMove, Proofs.whenOn_of_on _ s hOn, h, hfree, Bool.false_eq_true, if_false]
  rfl

theorem exec_landingBufferMove_plane (hfree : ¬(turn = true ∨ landingHeld s a.toNat d.job = true))
    (hplane : needsPlane s (moveWords s d) = true) : exec (.landingBufferMove a turn ce ue) s = .next (waitPlane d.job s) := by
  rw [exec_landingBufferMove_free a turn ce ue s hOn d h hfree, if_pos hplane]

theorem exec_landingBufferMove_landed (hfree : ¬(turn = true ∨ landingHeld s a.toNat d.job = true))
    (hplane : needsPlane s (moveWords s d) = false) (hwords : (moveWords s d).words = []) (hrows : (moveWords s d).rows = []) :
    exec (.landingBufferMove a turn ce ue) s = .next (dumpLanded a.toNat (moveWords s d)
      (modArray a.toNat (fun x => { x with dumps := x.dumps.erase d }) (addEcc d.job ce ue s))) := by
  simp only [exec_landingBufferMove_free a turn ce ue s hOn d h hfree, hplane, hwords, hrows, List.isEmpty_nil, Bool.and_self,
    Bool.false_eq_true, if_false, if_true]

theorem exec_landingBufferMove_more (hfree : ¬(turn = true ∨ landingHeld s a.toNat d.job = true))
    (hplane : needsPlane s (moveWords s d) = false) (hleft : (moveWords s d).words ≠ [] ∨ (moveWords s d).rows ≠ []) :
    exec (.landingBufferMove a turn ce ue) s = .next (modArray a.toNat
      (fun x => { x with dumps := x.dumps.map (fun y => if y = d then moveWords s d else y) }) (addEcc d.job ce ue s)) := by
  have hmore : ((moveWords s d).words.isEmpty && (moveWords s d).rows.isEmpty) = false := by
    simpa only [Bool.and_eq_false_iff, List.isEmpty_eq_false_iff] using hleft
  simp only [exec_landingBufferMove_free a turn ce ue s hOn d h hfree, hplane, hmore, Bool.false_eq_true, if_false]

end

/-! Known-answer tests (R115). -/

/-- Array `a` at the end of its test: enabled if it passed, KAT_FAIL if not. -/
def endTest (passed : Nat) (s : State) (a : Nat) : State :=
  modArray a (fun x => { x with katFail := !testBit passed a, enabled := testBit passed a, mode := 0 }) s

theorem array_foldl_endTest (passed : Nat) (l : List Nat) (s : State) (j : Nat) : array (l.foldl (endTest passed) s) j =
    if j ∈ l then { array s j with katFail := !testBit passed j, enabled := testBit passed j, mode := 0 } else array s j := by
  induction l generalizing s with
  | nil => rfl
  | cons a l ih =>
    rw [List.foldl_cons, ih]
    by_cases hj : j = a
    · simp [hj, endTest]
    · simp [hj, endTest, array_modArray_ne a j _ s hj]

/-- The end of a test touches the arrays alone. -/
theorem foldl_endTest_eq (passed : Nat) (l : List Nat) (s : State) :
    l.foldl (endTest passed) s = { s with arrays := (l.foldl (endTest passed) s).arrays } := by
  induction l generalizing s with
  | nil => rfl
  | cons a l ih => exact ih (endTest passed s a)

theorem array_finish (c : Instr) (o : Nat) (q : Request) (st : Status) (b d : Nat) (e : List Byte) (s : State) (j : Nat) :
    array (finish c o q st b d e s) j = array s j := rfl

theorem exec_arrayTestDone_none (passed : BitVec 4) (s : State) (hOn : s.dev.state ≠ .off) (h : testRunning s = none) :
    exec (.arrayTestDone passed) s = .next s := by
  simp only [exec, execArrayTestDone, Proofs.whenOn_of_on _ s hOn, h]

theorem exec_arrayTestDone_running (passed : BitVec 4) (s : State) (c : Instr) (q : Request) (hOn : s.dev.state ≠ .off)
    (h : testRunning s = some (c, q)) : exec (.arrayTestDone passed) s = .next (finish c 0x0607 q .ok 0 0
      ([0, 0, 0] ++ [BitVec.ofNat 8 (((selected q.arg).filter (fun j => testBit passed.toNat j)).foldl (fun m j => m + 2 ^ j) 0)])
      ((selected q.arg).foldl (endTest passed.toNat) s)) := by
  simp only [exec, execArrayTestDone, Proofs.whenOn_of_on _ s hOn, h]
  rfl

end Sys2Proof.Laws
end

section
/-! The arrays (spec/05_filigree_arrays.md R102 to R108, R112, R115, R117, spec/07_clasp_reduction.md R141, R149). -/

namespace Sys2Proof.Proofs
open Sys2Proof Sys2Proof.Machine Sys2Proof.Laws

/-- Settles O27: each command by its equations; a row's counts by the branches of `shiftRow`, a test's arrays one by one. -/
theorem arraysPassShiftAndLand : Obligations.ArraysPassShiftAndLand := by
  intro s a hOn
  refine ⟨⟨fun p ce ue h => exec_correlationPass_not_given a p ce ue s h, fun p ce ue r w t i hr hw hi =>
      ⟨exec_correlationPass_not_ready a p ce ue s r i w t hr hw hi, exec_correlationPass_direct a p ce ue s r i w t hr hw hi,
        fun h hd => ⟨fun k hk => ?held, fun hk hshed => ?shed, fun hk hshed => ?notShed⟩⟩⟩,
    fun due => ⟨fun h hc => ?transfers, fun h hc => ?stalls, exec_chainShift_not_wanted a due s hOn⟩,
    fun u => ⟨shiftRow_empty a.toNat u, shiftRow_full a.toNat u, fun d h hfits => ⟨?rows, fun j hj => ?otherRows,
      shiftRow_clasp a.toNat u d h hfits, counter_dumps_shiftRow a.toNat u d h hfits,
      counter_passes_shiftRow a.toNat u d h hfits⟩⟩,
    fun turn ce ue h => exec_landingBufferMove_empty a turn ce ue s hOn h,
    fun d turn ce ue h => ⟨exec_landingBufferMove_held a turn ce ue s hOn d h,
      exec_landingBufferMove_plane a turn ce ue s hOn d h, fun hfree hplane =>
        ⟨exec_landingBufferMove_landed a turn ce ue s hOn d h hfree hplane,
          exec_landingBufferMove_more a turn ce ue s hOn d h hfree hplane⟩⟩,
    fun passed h => exec_arrayTestDone_none passed s hOn h, fun passed c q h => ?tested⟩
  case held =>
    have hpass := exec_correlationPass_held a p ce ue s r i w t hr hw hi h hd k hk
    exact ⟨fun hdone => by rw [hpass, if_pos hdone], fun hdone => by rw [hpass, hdone, if_neg Bool.false_ne_true]⟩
  case shed => rw [exec_correlationPass_not_held a p ce ue s r i w t hr hw hi h hd hk, if_pos hshed]
  case notShed => rw [exec_correlationPass_not_held a p ce ue s r i w t hr hw hi h hd hk, if_neg hshed]
  case transfers => rw [exec_chainShift_wanted a due s hOn h, if_pos (Option.isNone_iff_eq_none.mpr hc)]
  case stalls => rw [exec_chainShift_wanted a due s hOn h, if_neg (mt Option.isNone_iff_eq_none.mp hc)]
  case rows => rw [array_shiftRow a.toNat u d h hfits, array_modArray]
  case otherRows => rw [array_shiftRow a.toNat u d h hfits, array_modArray_ne _ _ _ _ hj]
  case tested =>
    exact ⟨_, _, exec_arrayTestDone_running passed s c q hOn h, rfl, foldl_endTest_eq passed.toNat _ s,
      array_foldl_endTest passed.toNat _ s⟩

end Sys2Proof.Proofs
end

section
/-! The beam commands (spec/06_beam_mode.md): one equation per branch. -/

namespace Sys2Proof.Laws
open Sys2Proof Sys2Proof.Machine

/-! Segments (R108, R118, R119, R128, R231, R232). -/

/-- Every array of a mask is enabled and free, and comes to the work item next (R108, R118). -/
def segReady (s : State) (mask : Nat) (w : Work) : Prop :=
  ∀ a ∈ maskArrays mask, (array s a).enabled = true ∧ (array s a).beads = [] ∧ inBeam s a = false ∧
    s.sched.work.find? (onArray a) = some w

theorem segReady_iff (s : State) (mask : Nat) (w : Work) : segReady s mask w ↔
    (maskArrays mask).all (fun a => (array s a).enabled && (array s a).beads.isEmpty && !inBeam s a &&
      decide (s.sched.work.find? (onArray a) = some w)) = true := by
  simp only [segReady, List.all_eq_true, Bool.and_eq_true, Bool.not_eq_eq_eq_not, Bool.not_true, List.isEmpty_iff,
    decide_eq_true_eq, and_assoc]

/-- The run's job owns its tiles or needs none, or the segment is SHED (R128, R232). -/
def segTiled (s : State) (j : Job) (w : Work) : Prop := j.owns = true ∨ jobTiles s j = [] ∨ segShed s w = true

theorem segTiled_iff (s : State) (j : Job) (w : Work) :
    segTiled s j w ↔ (!j.owns && !(jobTiles s j).isEmpty && !segShed s w) = false := by
  simp only [segTiled, Bool.and_eq_false_iff, Bool.not_eq_eq_eq_not, Bool.not_false, List.isEmpty_iff, or_assoc]

section
variable (x : SegItem) (ce : List (BitVec 2)) (ue : List VestLine) (ecc : SegEcc) (s : State)

theorem exec_beamSegment_not_given (h : runningImage (landRounds s) = none ∨
    takeWork (isSegWork x) (landRounds s) = none ∨ imageOf (landRounds s) x.block = none) :
    exec (.beamSegment x ce ue ecc) s = .next (landRounds s) := by
  simp only [exec, execBeamSegment]
  split
  · next hr hw hi => simp [hr, hw, hi] at h
  · rfl

variable (r i : Image) (w : Work) (t : State) (hr : runningImage (landRounds s) = some r)
  (hw : takeWork (isSegWork x) (landRounds s) = some (w, t)) (hi : imageOf (landRounds s) x.block = some i)
include hr hw hi

theorem exec_beamSegment_not_ready (h : ¬segReady (landRounds s) x.arrays.toNat w) :
    exec (.beamSegment x ce ue ecc) s = .next (landRounds s) := by
  rw [segReady_iff, Bool.not_eq_true] at h
  simp only [exec, execBeamSegment, hr, hw, hi, h, Bool.not_false, if_true]

theorem exec_beamSegment_no_job (h : segJob (landRounds s) i w = none) :
    exec (.beamSegment x ce ue ecc) s = .next (landRounds s) := by
  simp only [exec, execBeamSegment, hr, hw, hi, h, ite_self]

variable (j : Job) (h : segReady (landRounds s) x.arrays.toNat w) (hj : segJob (landRounds s) i w = some j)
include h hj

theorem exec_beamSegment_not_tiled (ht : ¬segTiled (landRounds s) j w) :
    exec (.beamSegment x ce ue ecc) s = .next (landRounds s) := by
  rw [segReady_iff] at h
  rw [segTiled_iff, Bool.not_eq_false] at ht
  simp only [exec, execBeamSegment, hr, hw, hi, h, hj, ht, Bool.not_true, Bool.false_eq_true, if_false, if_true]

/-- A segment that may begin runs on staged operands, on the buffer that holds its channel once the fill is complete, or on
flagged operands where no buffer holds it and its fill is SHED (log 35). -/
theorem exec_beamSegment_begun (ht : segTiled (landRounds s) j w) : exec (.beamSegment x ce ue ecc) s =
    let u := landRounds s
    let run := fun buffer => runSegment x ce ue ecc i j w buffer t
    .next (if i.direct then run none else (holding u (x.pos, x.block)).elim
      (if (x.pos, x.block, none) ∈ u.sched.shed then run none else u)
      (fun k => if fillDone u (x.pos, x.block) then run (some k) else u)) := by
  rw [segReady_iff] at h
  rw [segTiled_iff] at ht
  simp only [exec, execBeamSegment, hr, hw, hi, h, hj, ht, Bool.not_true, Bool.false_eq_true, if_false]
  cases holding (landRounds s) (x.pos, x.block) <;> rfl

end

/-! Readout (R132, R154; log 47). -/

section
variable (set : BitVec 2) (pos m ce : Nat) (ue pue : Bool) (s : State)

theorem exec_segmentReadout_not_oldest (h : ∀ b, (landRounds s).beam.bufs.find? bufDone = some b →
      b.set ≠ set.toNat ∨ b.pos ≠ pos ∨ b.m ≠ m ∨ imageOf (landRounds s) b.block = none ∨
        (landRounds s).clasp.jobs.find? (isJob b.job) = none) :
    exec (.segmentReadout set pos m ce ue pue) s = .next (landRounds s) := by
  cases hb : (landRounds s).beam.bufs.find? bufDone with
  | none => simp only [exec, execSegmentReadout, hb]
  | some b =>
    simp only [exec, execSegmentReadout, hb]
    split
    · rfl
    · next hnamed =>
      split
      · next hi hj => exact absurd (h b hb) (by simpa [hi, hj] using hnamed)
      · rfl

variable (b : SegBuf) (i : Image) (j : Job) (hb : (landRounds s).beam.bufs.find? bufDone = some b)
  (hset : b.set = set.toNat) (hpos : b.pos = pos) (hm : b.m = m) (hi : imageOf (landRounds s) b.block = some i)
  (hj : (landRounds s).clasp.jobs.find? (isJob b.job) = some j)
include hb hset hpos hm hi hj

/-- The oldest complete buffer leaves, void or read out, before the SHED segments whose turn has come. -/
theorem exec_segmentReadout_oldest : exec (.segmentReadout set pos m ce ue pue) s =
    let k : Job := { j with block := b.block }
    let v := countN .locketCe 0 ce (landRounds s)
    let left := if b.void || ue then
        voidSegment i k b (if ue then locketLost (j.tile + b.m % 2 * ((landRounds s).beam.segLen / 256)) v else v)
      else readSegment i k b (if pue && partialsHeld v b then voidPartials k b v else v)
    .next (settleShed left.beam.shedLater left) := by
  have hnamed : ¬(b.set ≠ set.toNat ∨ b.pos ≠ pos ∨ b.m ≠ m) := by simp [hset, hpos, hm]
  simp only [exec, execSegmentReadout, hb, hi, hj, if_neg hnamed]
  rfl

end

/-! Peak lists (R136, R137). -/

section
variable (n : BitVec 4) (s : State)

theorem exec_peakListEmit_over (i : Image) (b key : Nat) (x : PeakList) (rest : List (Nat × Option PeakList))
    (hi : runningImage (landRounds s) = some i) (hb : (watch (landRounds s) n.toNat).beam = some b)
    (hl : (watch (landRounds s) n.toNat).lists = (key, some x) :: rest)
    (hover : intervalDone (landRounds s) i (b / 256) key = true) :
    exec (.peakListEmit n) s = .next (emitPeaks i n.toNat b key x (landRounds s)) := by
  simp only [exec, execPeakListEmit, hi, hb, hl, hover, if_true]

theorem exec_peakListEmit_not_over (h : ∀ i b key x rest, runningImage (landRounds s) = some i →
      (watch (landRounds s) n.toNat).beam = some b → (watch (landRounds s) n.toNat).lists = (key, some x) :: rest →
      intervalDone (landRounds s) i (b / 256) key = false) :
    exec (.peakListEmit n) s = .next (landRounds s) := by
  simp only [exec, execPeakListEmit]
  split
  · next hi hb hl => rw [h _ _ _ _ _ hi hb hl, if_neg Bool.false_ne_true]
  · rfl

end

theorem length_insertPeak_le (x : Peak) (l : List Peak) : (insertPeak x l).length ≤ 8 := List.length_take_le ..

end Sys2Proof.Laws
end

section
/-! Beam mode (spec/06_beam_mode.md R118, R119, R128, R131, R132, R136, R137, spec/07_clasp_reduction.md R154). -/

namespace Sys2Proof.Proofs
open Sys2Proof Sys2Proof.Machine Sys2Proof.Laws

/-- Settles O31: each command by its equations; a readout by the two choices of `exec_segmentReadout_oldest`. -/
theorem beamSegmentsRunReadOutAndPeak : Obligations.BeamSegmentsRunReadOutAndPeak := by
  intro s
  refine ⟨fun x ce ue ecc h => exec_beamSegment_not_given x ce ue ecc s h, fun x ce ue ecc r w t i hr hw hi =>
      ⟨exec_beamSegment_not_ready x ce ue ecc s r i w t hr hw hi, exec_beamSegment_no_job x ce ue ecc s r i w t hr hw hi,
        fun j h hj => ⟨exec_beamSegment_not_tiled x ce ue ecc s r i w t hr hw hi j h hj,
          fun ht hd => ?direct, fun ht hd => ⟨fun k hk => ⟨fun hdone => ?filled, fun hdone => ?filling⟩,
            fun hk hshed => ?shed, fun hk hshed => ?notShed⟩⟩⟩,
    fun set pos m ce ue pue h => exec_segmentReadout_not_oldest set pos m ce ue pue s h,
    fun set pos m ce pue b i j hb hset hpos hm hi hj => ?readout,
    fun n i b key x rest hi hb hl hover => exec_peakListEmit_over n s i b key x rest hi hb hl hover,
    fun n h => exec_peakListEmit_not_over n s h, length_insertPeak_le⟩
  case direct => simp only [exec_beamSegment_begun x ce ue ecc s r i w t hr hw hi j h hj ht, hd, if_true]
  case filled =>
    simp only [exec_beamSegment_begun x ce ue ecc s r i w t hr hw hi j h hj ht, hd, hk, hdone, Option.elim_some,
      Bool.false_eq_true, if_false, if_true]
  case filling =>
    simp only [exec_beamSegment_begun x ce ue ecc s r i w t hr hw hi j h hj ht, hd, hk, hdone, Option.elim_some,
      Bool.false_eq_true, if_false]
  case shed =>
    simp only [exec_beamSegment_begun x ce ue ecc s r i w t hr hw hi j h hj ht, hd, hk, hshed, Option.elim_none,
      Bool.false_eq_true, if_false, if_true]
  case notShed =>
    simp only [exec_beamSegment_begun x ce ue ecc s r i w t hr hw hi j h hj ht, hd, hk, hshed, Option.elim_none,
      Bool.false_eq_true, if_false]
  case readout =>
    have hleaves := fun ue pue => exec_segmentReadout_oldest set pos m ce ue pue s b i j hb hset hpos hm hi hj
    refine ⟨?uncorrectable, fun hvoid => ?void, fun hvoid h => ?whole, fun hvoid hpue hheld => ?partials⟩
    case uncorrectable => simp only [hleaves, Bool.or_true, if_true]
    case void => simp only [hleaves, hvoid, Bool.true_or, Bool.false_eq_true, if_true, if_false]
    case whole =>
      have hkept := Bool.and_eq_false_iff.mpr h
      simp only [hleaves, hvoid, hkept, Bool.or_self, Bool.false_eq_true, if_false]
    case partials => simp only [hleaves, hvoid, hpue, hheld, Bool.or_self, Bool.and_self, Bool.false_eq_true, if_false, if_true]

end Sys2Proof.Proofs
end

section
/-! Tiles and their owners (spec/07_clasp_reduction.md R150, R151): who owns a tile, and which jobs still wait, after free tiles
have been granted. -/

namespace Sys2Proof.Laws
open Sys2Proof Sys2Proof.Machine

/-! A table without the entries of one value. -/

theorem tabGet_of_not_mem {α : Type} (d : α) (t : Tab α) (i : Nat) (h : ∀ e ∈ t, e.1 ≠ i) : tabGet d t i = d := by
  induction t with
  | nil => rfl
  | cons e t ih => rw [tabGet, if_neg (h e List.mem_cons_self), ih fun x hx => h x (List.mem_cons_of_mem e hx)]

theorem tabGet_filter_ne_removed {α : Type} [DecidableEq α] {d v : α} (t : Tab α) (i : Nat) (hv : v ≠ d) :
    tabGet d (t.filter (fun e => e.2 ≠ v)) i ≠ v := by
  induction t with
  | nil => exact hv.symm
  | cons e t ih =>
    by_cases hw : e.2 = v
    · rwa [List.filter_cons_of_neg (by simpa using hw)]
    · rw [List.filter_cons_of_pos (by simpa using hw), tabGet]
      split
      · exact hw
      · exact ih

/-- In the canonical form an entry that goes has no other of its key behind it. -/
theorem tabGet_filter_ne {α : Type} [DecidableEq α] {d : α} (v : α) (t : Tab α) (i : Nat) (h : tabWf d t = true) :
    tabGet d (t.filter (fun e => e.2 ≠ v)) i = if tabGet d t i = v then d else tabGet d t i := by
  have hsorted := (tabSorted_iff t).mp (Bool.and_eq_true_iff.mp h).1
  clear h
  induction t with
  | nil => exact (ite_self d).symm
  | cons e t ih =>
    obtain ⟨k, w⟩ := e
    obtain ⟨hlow, hsorted⟩ := List.pairwise_cons.mp hsorted
    by_cases hk : k = i
    · have hrest : tabGet d (t.filter (fun e => e.2 ≠ v)) i = d :=
        tabGet_of_not_mem d _ i fun e he => hk ▸ (hlow e (List.mem_of_mem_filter he)).ne'
      by_cases hw : w = v
      · simpa [tabGet, hk, hw] using hrest
      · simp [tabGet, hk, hw]
    · by_cases hw : w = v <;> simpa [tabGet, hk, hw] using ih hsorted

/-! Grants (R151). -/

/-- The jobs that wait for a tile. -/
def waitersOf (s : State) (t : Nat) : List Job := s.clasp.jobs.filter (fun j => j.waitTile && (jobTiles s j).contains t)

theorem mem_waitersOf {s : State} {t : Nat} {k : Job} :
    k ∈ waitersOf s t ↔ k ∈ s.clasp.jobs ∧ k.waitTile = true ∧ t ∈ jobTiles s k := by
  simp [waitersOf]

/-- The lowest number goes first. -/
theorem firstWaiter_eq_argmin (s : State) (t : Nat) : firstWaiter s t = (waitersOf s t).argmin Job.number := by
  unfold firstWaiter List.argmin waitersOf
  congr 1
  funext o j
  cases o <;> rfl

theorem ownerOf_grantTile (s : State) (u t : Nat) : ownerOf (grantTile s u) t =
    if t = u then (ownerOf s t).or ((firstWaiter s t).map fun w => (w.frame, w.number)) else ownerOf s t := by
  unfold grantTile
  split
  · next j hfree hfirst =>
    split
    · next h => subst h; rw [hfree, hfirst]; unfold ownerOf takeTile; simp only [tabGet_tabSet_same]; rfl
    · next h => unfold ownerOf takeTile; simp only [tabGet_tabSet_ne _ _ _ h]
  · next h =>
    split
    · next heq =>
      subst heq
      cases ho : ownerOf s t with
      | some id => rfl
      | none =>
        cases hw : firstWaiter s t with
        | none => rfl
        | some j => exact absurd hw (h j ho)
    · rfl

theorem grantTile_eq (s : State) (t : Nat) : grantTile s t = { s with clasp.owners := (grantTile s t).clasp.owners } := by
  unfold grantTile takeTile
  split <;> rfl

theorem foldl_grantTile_eq (l : List Nat) (s : State) :
    l.foldl grantTile s = { s with clasp.owners := (l.foldl grantTile s).clasp.owners } := by
  induction l generalizing s with
  | nil => rfl
  | cons t l ih =>
    rw [List.foldl_cons, ih, grantTile_eq s t]

theorem jobTiles_foldl_grantTile (l : List Nat) (s : State) (k : Job) : jobTiles (l.foldl grantTile s) k = jobTiles s k := by
  rw [foldl_grantTile_eq]
  rfl

theorem jobs_foldl_grantTile (l : List Nat) (s : State) : (l.foldl grantTile s).clasp.jobs = s.clasp.jobs := by
  rw [foldl_grantTile_eq]

/-- A tile goes by its owner and its waiters alone, and the grant of another tile changes neither. -/
theorem ownerOf_foldl_grantTile (l : List Nat) (s : State) (t : Nat) : ownerOf (l.foldl grantTile s) t =
    if t ∈ l then (ownerOf s t).or ((firstWaiter s t).map fun w => (w.frame, w.number)) else ownerOf s t := by
  induction l generalizing s with
  | nil => rfl
  | cons u l ih =>
    have hwaiter : firstWaiter (grantTile s u) t = firstWaiter s t := by rw [grantTile_eq]; rfl
    rw [List.foldl_cons, ih, hwaiter, ownerOf_grantTile]
    by_cases hu : t = u <;> by_cases hl : t ∈ l <;> simp [hu, hl, Option.or_assoc]

theorem exists_firstWaiter {s : State} {t : Nat} {k : Job} (hk : k ∈ waitersOf s t) :
    ∃ w ∈ waitersOf s t, firstWaiter s t = some w ∧ w.number ≤ k.number := by
  rw [firstWaiter_eq_argmin]
  cases hw : (waitersOf s t).argmin Job.number with
  | none => exact absurd (List.argmin_eq_none.mp hw ▸ hk) List.not_mem_nil
  | some w => exact ⟨w, List.argmin_mem hw, rfl, List.le_of_mem_argmin hk hw⟩

theorem firstWaiter_mem {s : State} {t : Nat} {w : Job} (h : firstWaiter s t = some w) : w ∈ waitersOf s t :=
  List.argmin_mem (firstWaiter_eq_argmin s t ▸ h)

/-! Jobs that have their tiles (R150). -/

/-- A job that owns its tiles waits for none. -/
def settled (j : Job) : Job := { j with owns := true, waitTile := false }

/-- A job has every tile that it claims. -/
def ownsAll (s : State) (j : Job) : Bool := (jobTiles s j).all (fun t => ownerOf s t = some (j.frame, j.number))

theorem settleOwner_eq (s : State) (j : Job) :
    settleOwner s j = modJobs (fun k => ownsAll s j && isJob (j.frame, j.number) k) settled s := by
  unfold settleOwner
  split
  · next h => simp only [ownsAll, h, Bool.true_and]; rfl
  · next h => simp [ownsAll, h, modJobs]

/-- Settling twice settles what either test picks. -/
theorem modJobs_settled_modJobs (p q : Job → Bool) (s : State) (h : ∀ k, p (settled k) = p k) :
    modJobs p settled (modJobs q settled s) = modJobs (fun k => q k || p k) settled s := by
  simp only [modJobs, List.map_map]
  congr 3
  funext k
  rw [Function.comp_apply]
  by_cases hq : q k = true
  · simp only [hq, if_true, h, Bool.true_or]
    exact ite_self (settled k)
  · simp only [hq, Bool.false_eq_true, if_false, Bool.false_or]

/-- Whether a job has its tiles depends on nothing that settling other jobs changes. -/
theorem foldl_settleOwner_eq (l : List Job) (s : State) : l.foldl settleOwner s =
    modJobs (fun k => l.any (fun j => ownsAll s j && isJob (j.frame, j.number) k)) settled s := by
  induction l generalizing s with
  | nil => simp [modJobs]
  | cons j l ih =>
    have howns : ownsAll (settleOwner s j) = ownsAll s := by rw [settleOwner_eq]; rfl
    rw [List.foldl_cons, ih, howns, settleOwner_eq, modJobs_settled_modJobs _ _ _ fun _ => rfl]
    simp only [List.any_cons]

theorem ownerOf_modJobs (p : Job → Bool) (f : Job → Job) (s : State) (t : Nat) : ownerOf (modJobs p f s) t = ownerOf s t := rfl

theorem jobTiles_modJobs (p : Job → Bool) (f : Job → Job) (s : State) (j : Job) : jobTiles (modJobs p f s) j = jobTiles s j := rfl

theorem ownsAll_modJobs (p : Job → Bool) (f : Job → Job) (s : State) (j : Job) : ownsAll (modJobs p f s) j = ownsAll s j := rfl

theorem mem_jobs_modJobs_settled {p : Job → Bool} {s : State} {k : Job} (hk : k ∈ (modJobs p settled s).clasp.jobs) :
    ∃ k₀ ∈ s.clasp.jobs, k = settled k₀ ∨ (k = k₀ ∧ p k₀ = false) := by
  obtain ⟨k₀, hk₀, rfl⟩ := List.mem_map.mp hk
  by_cases hp : p k₀ = true
  · exact ⟨k₀, hk₀, .inl (if_pos hp)⟩
  · exact ⟨k₀, hk₀, .inr ⟨if_neg hp, Bool.eq_false_iff.mpr hp⟩⟩

/-- The tiles go first, then the jobs that have theirs stop waiting. -/
theorem grantTiles_eq (s : State) : grantTiles s =
    let u := (List.range 128).foldl grantTile s
    modJobs (fun k => (u.clasp.jobs.filter (fun j => j.waitTile)).any
      (fun j => ownsAll u j && isJob (j.frame, j.number) k)) settled u :=
  foldl_settleOwner_eq _ _

theorem ownerOf_grantTiles (s : State) (t : Nat) : ownerOf (grantTiles s) t =
    if t < 128 then (ownerOf s t).or ((firstWaiter s t).map fun w => (w.frame, w.number)) else ownerOf s t := by
  rw [grantTiles_eq, ownerOf_modJobs, ownerOf_foldl_grantTile]
  simp only [List.mem_range]

/-- The tiles of a job depend on the run's segment length alone, which grants leave. -/
theorem jobTiles_grantTiles (s : State) (k : Job) : jobTiles (grantTiles s) k = jobTiles s k := by
  rw [grantTiles_eq, jobTiles_modJobs, jobTiles_foldl_grantTile]

/-- Grants end no job and begin none. -/
theorem mem_jobs_grantTiles {s : State} {k : Job} (hk : k ∈ (grantTiles s).clasp.jobs) :
    ∃ k₀ ∈ s.clasp.jobs, k.frame = k₀.frame ∧ k.number = k₀.number := by
  rw [grantTiles_eq] at hk
  obtain ⟨k₀, hk₀, hk⟩ := mem_jobs_modJobs_settled hk
  rw [jobs_foldl_grantTile] at hk₀
  obtain rfl | ⟨rfl, -⟩ := hk
  · exact ⟨k₀, hk₀, rfl, rfl⟩
  · exact ⟨k, hk₀, rfl, rfl⟩

/-- A job that still waits lacks a tile: with all of them it would own them. -/
theorem ownsAll_eq_false_of_waitTile {s : State} {k : Job} (hk : k ∈ (grantTiles s).clasp.jobs) (hwait : k.waitTile = true) :
    k ∈ s.clasp.jobs ∧ ownsAll (grantTiles s) k = false := by
  rw [grantTiles_eq] at hk ⊢
  obtain ⟨k₀, hk₀, rfl | ⟨rfl, hnot⟩⟩ := mem_jobs_modJobs_settled hk
  · exact absurd hwait Bool.false_ne_true
  · have hself := List.any_eq_false.mp hnot k (List.mem_filter.mpr ⟨hk₀, hwait⟩)
    have hid : isJob (k.frame, k.number) k = true := by simp [isJob]
    rw [hid, Bool.and_true, Bool.not_eq_true] at hself
    rw [jobs_foldl_grantTile] at hk₀
    exact ⟨hk₀, (ownsAll_modJobs _ _ _ k).trans hself⟩

/-! The end of a job (R149, R150). -/

/-- A job and its tiles are gone, and no other job has taken them yet. -/
def released (j : Job) (s : State) : State := { s with
  clasp.owners := s.clasp.owners.filter (fun e => e.2 ≠ some (j.frame, j.number))
  clasp.jobs := s.clasp.jobs.filter (fun k => !isJob (j.frame, j.number) k) }

theorem endJob_eq (j : Job) (s : State) : endJob j s = grantTiles (released j s) := rfl

theorem ownerOf_released_ne (j : Job) (s : State) (t : Nat) : ownerOf (released j s) t ≠ some (j.frame, j.number) :=
  tabGet_filter_ne_removed s.clasp.owners t (Option.some_ne_none _)

theorem ownerOf_released (j : Job) (s : State) (t : Nat) (h : tabWf none s.clasp.owners = true) :
    ownerOf (released j s) t = if ownerOf s t = some (j.frame, j.number) then none else ownerOf s t :=
  tabGet_filter_ne _ s.clasp.owners t h

theorem mem_jobs_released {j : Job} {s : State} {k : Job} :
    k ∈ (released j s).clasp.jobs ↔ k ∈ s.clasp.jobs ∧ isJob (j.frame, j.number) k = false := by
  simp only [released, List.mem_filter, Bool.not_eq_true']

theorem jobTiles_released (j : Job) (s : State) (k : Job) : jobTiles (released j s) k = jobTiles s k := rfl

theorem mem_waitersOf_released {j : Job} {s : State} {t : Nat} {k : Job} : k ∈ waitersOf (released j s) t ↔
    (k ∈ s.clasp.jobs ∧ isJob (j.frame, j.number) k = false) ∧ k.waitTile = true ∧ t ∈ jobTiles s k := by
  rw [mem_waitersOf, mem_jobs_released, jobTiles_released]

end Sys2Proof.Laws
end

section
/-! The tiles of a job that ends (spec/07_clasp_reduction.md R149, R150, R151). -/

namespace Sys2Proof.Proofs
open Sys2Proof Sys2Proof.Machine Sys2Proof.Laws

/-- Settles O30: a release frees the tiles of the job, and each free tile goes by `ownerOf_grantTiles` to its first waiter. -/
theorem releasedTilesGoToWaitingJobs : Obligations.ReleasedTilesGoToWaitingJobs := by
  intro j s
  simp only [endJob_eq, ownerOf_grantTiles]
  refine ⟨fun t => ?gone, fun k hk => ?ended, fun t id hwf hid hne => ?kept, fun t k hwf ht hfree hk hother hwait htile => ?granted,
    fun k hk hwait => ?waiting⟩
  case gone =>
    have hfree := ownerOf_released_ne j s t
    split
    · cases ho : ownerOf (released j s) t with
      | some id => rwa [ho] at hfree
      | none =>
        intro hgrant
        obtain ⟨w, hfirst, hw⟩ := Option.map_eq_some_iff.mp hgrant
        have hother := (mem_waitersOf_released.mp (firstWaiter_mem hfirst)).1.2
        obtain ⟨hframe, hnumber⟩ := Prod.mk.inj hw
        simp [isJob, hframe, hnumber] at hother
    · exact hfree
  case ended =>
    obtain ⟨k₀, hk₀, hframe, hnumber⟩ := mem_jobs_grantTiles hk
    have hnot := (mem_jobs_released.mp hk₀).2
    simpa only [isJob, hframe, hnumber] using hnot
  case kept =>
    have hkept : ownerOf (released j s) t = some id := by
      rw [ownerOf_released j s t hwf, hid, if_neg (mt Option.some.inj hne)]
    rw [hkept, Option.some_or, ite_self]
  case granted =>
    have hnone : ownerOf (released j s) t = none := by
      rw [ownerOf_released j s t hwf]
      rcases hfree with h | h <;> simp [h]
    obtain ⟨w, hw, hfirst, hle⟩ := exists_firstWaiter (mem_waitersOf_released.mpr ⟨⟨hk, hother⟩, hwait, htile⟩)
    obtain ⟨⟨hmem, -⟩, hwwait, hwtile⟩ := mem_waitersOf_released.mp hw
    refine ⟨w, hmem, hwwait, hwtile, hle, ?_⟩
    rw [if_pos ht, hnone, hfirst]
    rfl
  case waiting =>
    obtain ⟨hmem, hall⟩ := ownsAll_eq_false_of_waitTile hk hwait
    refine ⟨fun t ht htile => ?_, ?_⟩
    · obtain ⟨w, -, hfirst, -⟩ := exists_firstWaiter (mem_waitersOf.mpr ⟨hmem, hwait, htile⟩)
      simp [ht, hfirst]
    · obtain ⟨t, htile, hnot⟩ := List.all_eq_false.mp hall
      rw [jobTiles_grantTiles, jobTiles_released] at htile
      exact ⟨t, htile, by simpa only [ownerOf_grantTiles, decide_eq_true_eq] using hnot⟩

end Sys2Proof.Proofs
end

section
/-! The Clasp's commands (spec/07_clasp_reduction.md): one equation per branch. -/

namespace Sys2Proof.Laws
open Sys2Proof Sys2Proof.Machine

/-! Claims (R150, R151). -/

/-- A beam job claims at its first cycle, any other once words of its dump have reached the landing buffer. -/
def claimDue (s : State) (j : Job) : Prop := j.kind = .beamSum ∨
  ∃ d ∈ (array s j.array).dumps, d.job = (j.frame, j.number) ∧ (d.words ≠ [] ∨ d.moved ≠ [])

theorem claimDue_iff (s : State) (j : Job) : claimDue s j ↔ (decide (j.kind = .beamSum) ||
    (array s j.array).dumps.any (fun d => decide (d.job = (j.frame, j.number)) && (!d.words.isEmpty || !d.moved.isEmpty))) = true := by
  simp only [claimDue, Bool.or_eq_true, decide_eq_true_eq, List.any_eq_true, Bool.and_eq_true, Bool.not_eq_true',
    List.isEmpty_eq_false_iff, ne_eq]

section
variable (n : BitVec 16) (s : State)

theorem exec_tileClaim_none (h : findJob s n.toNat (fun j => !j.owns && !j.waitTile && !(jobTiles s j).isEmpty) = none) :
    exec (.tileClaim n) s = .next s := by
  simp only [exec, execTileClaim, h]

variable (j : Job) (h : findJob s n.toNat (fun j => !j.owns && !j.waitTile && !(jobTiles s j).isEmpty) = some j)
include h

theorem exec_tileClaim_due (hdue : claimDue s j) : exec (.tileClaim n) s =
    .next (grantTiles (modJobs (isJob (j.frame, j.number)) (fun j => { j with waitTile := true }) s)) := by
  rw [claimDue_iff] at hdue
  simp only [exec, execTileClaim, h, hdue, if_true]

theorem exec_tileClaim_not_due (hdue : ¬claimDue s j) : exec (.tileClaim n) s = .next s := by
  rw [claimDue_iff, Bool.not_eq_true] at hdue
  simp only [exec, execTileClaim, h, hdue, Bool.false_eq_true, if_false]

end

/-! Spill planes (R149). -/

section
variable (n : BitVec 16) (s : State)

theorem exec_spillPlaneTake_none (h : findJob s n.toNat (fun j => j.waitSpill) = none) :
    exec (.spillPlaneTake n) s = .next s := by
  simp only [exec, execSpillPlaneTake, h]

theorem exec_spillPlaneTake_some (j : Job) (h : findJob s n.toNat (fun j => j.waitSpill) = some j) :
    exec (.spillPlaneTake n) s = .next (if 2 * s.clasp.spillTiles ≤ planesUsed s then s
      else count .spills 0 (modJobs (isJob (j.frame, j.number)) (fun j =>
        { j with plane := some j.exc, exc := [], waitSpill := false }) s)) := by
  simp only [exec, execSpillPlaneTake, h]

end

/-! Readout (R154, R155). -/

/-- A finished tile that nothing holds up, of the job that the command names (R155). -/
def readoutReady (n : BitVec 16) (j : Job) : Prop :=
  j.number = n.toNat ∧ jobFull j = true ∧ j.included ≠ [] ∧ j.owns = true ∧ j.waitSpill = false ∧ j.gap = none

theorem readoutReady_iff (n : BitVec 16) (j : Job) : readoutReady n j ↔
    (j.number ≠ n.toNat || !jobFull j || j.included.isEmpty || !j.owns || j.waitSpill || j.gap.isSome) = false := by
  simp only [readoutReady, Bool.or_eq_false_iff, decide_eq_false_iff_not, not_not, Bool.not_eq_false', List.isEmpty_eq_false_iff,
    Option.isSome_eq_false_iff, Option.isNone_iff_eq_none, and_assoc]

section
variable (n : BitVec 16) (ce : Nat) (ue : Bool) (s : State)

theorem exec_tileReadout_not_ready (h : ∀ j i, nextJob s = some j → imageOf s j.block = some i → ¬readoutReady n j) :
    exec (.tileReadout n ce ue) s = .next s := by
  cases hj : nextJob s with
  | none => simp only [exec, execTileReadout, hj]
  | some j =>
    cases hi : imageOf s j.block with
    | none => simp only [exec, execTileReadout, hj, hi]
    | some i =>
      have hnot := h j i hj hi
      rw [readoutReady_iff, Bool.not_eq_false] at hnot
      simp only [exec, execTileReadout, hj, hi, hnot, if_true]

variable (j : Job) (i : Image) (hj : nextJob s = some j) (hi : imageOf s j.block = some i) (h : readoutReady n j)
include hj hi h

theorem exec_tileReadout_ready : exec (.tileReadout n ce ue) s =
    .next (if ue then settleJobs (gapJob i j 6 (locketLost j.tile (countN .locketCe 0 ce s)))
      else settleJobs (freeNoise i j (endJob j (count .jobs 0 (readProduct i j (countN .locketCe 0 ce s)))))) := by
  rw [readoutReady_iff] at h
  simp only [exec, execTileReadout, hj, hi, h, Bool.false_eq_true, if_false]

end

/-! Long accumulation (R156 to R159). -/

section
variable (u : State) (i : Image) (j : Job) (d : Dump) (ue : Option Nat)

/-- The dump is the last that its job takes. -/
def lastDump : Bool := decide (j.dumps.length ≤ j.included.length + 1)

/-- The exceptions of the accumulation with those of the dump (R148). -/
def laExc : Tab Nat := mergedExc (halfOf i j) d (laNow u i j).exc

/-- The dump closes the accumulation at its scheduled end (R156). -/
def laCloses : Bool := laLast u i j && lastDump j

/-- The dump splits the accumulation (R158). -/
def laSplits : Bool := decide (64 < (laExc u i j d).length) && !laCloses u i j

/-- The dump is the last of the accumulation, at its scheduled end or by a split. -/
def laEnds : Bool := laCloses u i j || laSplits u i j d

theorem laCloses_iff : laCloses u i j = true ↔ laLast u i j = true ∧ j.dumps.length ≤ j.included.length + 1 := by
  rw [laCloses, lastDump, Bool.and_eq_true, decide_eq_true_eq]

theorem laSplits_iff : laSplits u i j d = true ↔
    64 < (laExc u i j d).length ∧ ¬(laLast u i j = true ∧ j.dumps.length ≤ j.included.length + 1) := by
  rw [laSplits, Bool.and_eq_true, decide_eq_true_eq, Bool.not_eq_true', ← Bool.not_eq_true, laCloses_iff]

theorem laEnds_iff : laEnds u i j d = true ↔ laCloses u i j = true ∨ laSplits u i j d = true := by
  rw [laEnds, Bool.or_eq_true]

/-- The accumulation with the dump in it. -/
def laMerged : La := { laNow u i j with
  covered := (laNow u i j).covered ++ [(d.block, d.index, d.len)]
  lsum := (laNow u i j).lsum + d.len
  exc := laExc u i j d
  frow := addCounts (laNow u i j).frow d.frow
  fcol := addCounts (laNow u i j).fcol d.fcol }

/-- The read of the accumulation's words, which its first dump does without (R156). -/
def laFetched : Bool × State := if (laNow u i j).covered.isEmpty then (false, u) else laRead (laKey j) ue u

/-- The sums in DRAM with the dump's words in them. -/
def laAdded : State := laAdd (laKey j) (laNow u i j).covered.isEmpty d (laTouch (laKey j) (laFetched u i j ue).2)

/-- The product of an accumulation that ends, by a split or not, has left, and its words in DRAM are zero again (R156). -/
def laEmitted (split : Bool) : State :=
  let x := facetProduct i (laJob j (laMerged u i j d)) 0xFFFF split
    (fun r c => tabGet (0, 0) (laAdded u i j d ue).clasp.laWords (laKey j * 65536 + 256 * r + c)) (laAdded u i j d ue)
  emitItems j [x.1] (setLa (laKey j) none (laClear (laKey j) x.2))

/-- The accumulation after a dump: it goes on, or its product has left. -/
def laAfter : State :=
  if laEnds u i j d then
    let t := laEmitted u i j d ue (laSplits u i j d)
    if laSplits u i j d then count .laSplit 0 (claspMark 0x20 t) else t
  else setLa (laKey j) (some (laMerged u i j d)) (laAdded u i j d ue)

/-- The job has taken its dump. -/
def laTaken (s : State) : State := modJobs (isJob (j.frame, j.number)) (fun j =>
  { j with arrived := none, included := j.included ++ [(d.block, d.index, d.len)] }) s

/-- The dump is in the accumulation; with its last dump the job ends. -/
def laEntered : State :=
  if !lastDump j then laTaken j d (laAfter u i j d ue)
  else
    let t := endJob j (count .jobs 0 (laTaken j d (laAfter u i j d ue)))
    settleJobs (if laEnds u i j d then freeNoise i j t else t)

/-- What becomes of a whole dump of an accumulation that is not void. -/
def laStep : State :=
  if laEnds u i j d && !(nextJob u).any (fun k => isJob (j.frame, j.number) k) then u
  else if laEnds u i j d && decide (4096 < (laExc u i j d).length) && j.plane.isNone then
    modJobs (isJob (j.frame, j.number)) (fun j => { j with waitSpill := true }) u
  else if (laFetched u i j ue).1 then voidLa i j 8 (laFetched u i j ue).2
  else laEntered u i j d ue

/-- It is the job's turn to hand its product on (R155). -/
def atTurn (u : State) (j : Job) : Prop := ∃ k, nextJob u = some k ∧ isJob (j.frame, j.number) k = true

theorem atTurn_iff : atTurn u j ↔ (nextJob u).any (fun k => isJob (j.frame, j.number) k) = true :=
  (Option.any_eq_true ..).symm

theorem laStep_not_turn (hends : laEnds u i j d = true) (hturn : ¬atTurn u j) : laStep u i j d ue = u := by
  rw [atTurn_iff, Bool.not_eq_true] at hturn
  simp only [laStep, hends, hturn, Bool.not_false, Bool.and_self, if_true]

theorem laStep_no_plane (hends : laEnds u i j d = true) (hturn : atTurn u j) (hlong : 4096 < (laExc u i j d).length)
    (hplane : j.plane = none) :
    laStep u i j d ue = modJobs (isJob (j.frame, j.number)) (fun j => { j with waitSpill := true }) u := by
  rw [atTurn_iff] at hturn
  simp only [laStep, hends, hturn, decide_eq_true hlong, hplane, Option.isNone_none, Bool.not_true, Bool.and_false,
    Bool.and_self, Bool.false_eq_true, if_false, if_true]

/-- Nothing holds up a dump that does not end its accumulation, or comes at its turn with a plane for a long list. -/
theorem laStep_not_held (h : laEnds u i j d = true → atTurn u j ∧ ((laExc u i j d).length ≤ 4096 ∨ j.plane ≠ none)) :
    laStep u i j d ue =
      if (laFetched u i j ue).1 then voidLa i j 8 (laFetched u i j ue).2 else laEntered u i j d ue := by
  cases hends : laEnds u i j d with
  | false => simp only [laStep, hends, Bool.false_and, Bool.false_eq_true, if_false]
  | true =>
    obtain ⟨hturn, hroom⟩ := h hends
    have hspill : (decide (4096 < (laExc u i j d).length) && j.plane.isNone) = false := by
      simpa only [Bool.and_eq_false_iff, decide_eq_false_iff_not, not_lt, Option.isNone_eq_false_iff, Option.isSome_iff_ne_none]
        using hroom
    rw [atTurn_iff] at hturn
    simp only [laStep, hends, hturn, hspill, Bool.true_and, Bool.not_true, Bool.false_eq_true, if_false]

theorem laAfter_goes_on (h : laEnds u i j d = false) :
    laAfter u i j d ue = setLa (laKey j) (some (laMerged u i j d)) (laAdded u i j d ue) := by
  rw [laAfter, h, if_neg Bool.false_ne_true]

theorem laAfter_splits (h : laSplits u i j d = true) {split : Bool} (hs : split = true) :
    laAfter u i j d ue = count .laSplit 0 (claspMark 0x20 (laEmitted u i j d ue split)) := by
  simp only [laAfter, laEnds, h, hs, Bool.or_true, if_true]

theorem laAfter_closes (h : laCloses u i j = true) {split : Bool} (hs : split = false) :
    laAfter u i j d ue = laEmitted u i j d ue split := by
  simp only [laAfter, laEnds, laSplits, h, hs, Bool.not_true, Bool.and_false, Bool.or_false, Bool.false_eq_true, if_false,
    if_true]

theorem laEntered_more (h : ¬j.dumps.length ≤ j.included.length + 1) :
    laEntered u i j d ue = laTaken j d (laAfter u i j d ue) := by
  simp only [laEntered, lastDump, h, decide_false, Bool.not_false, if_true]

theorem laEntered_last_goes_on (h : j.dumps.length ≤ j.included.length + 1) (hends : laEnds u i j d = false) :
    laEntered u i j d ue = settleJobs (endJob j (count .jobs 0 (laTaken j d (laAfter u i j d ue)))) := by
  simp only [laEntered, lastDump, h, hends, decide_true, Bool.not_true, Bool.false_eq_true, if_false]

theorem laEntered_last_ends (h : j.dumps.length ≤ j.included.length + 1) (hends : laEnds u i j d = true) :
    laEntered u i j d ue = settleJobs (freeNoise i j (endJob j (count .jobs 0 (laTaken j d (laAfter u i j d ue))))) := by
  simp only [laEntered, lastDump, h, hends, decide_true, Bool.not_true, Bool.false_eq_true, if_false, if_true]

end

/-- The requests queued before the dump are served first (R87). -/
def laServed (s : State) : State := serveFirst 3 (fun _ => true) s

section
variable (n : BitVec 16) (complete : Bool) (ue : Option Nat) (s : State)

theorem exec_laDump_none (h : findJob s n.toNat (fun j => j.kind = .longAcc && j.arrived.isSome && !j.waitSpill) = none) :
    exec (.laDump n complete ue) s = .next s := by
  simp only [exec, execLaDump, h]

variable (j : Job) (hj : findJob s n.toNat (fun j => j.kind = .longAcc && j.arrived.isSome && !j.waitSpill) = some j)
include hj

theorem exec_laDump_no_image (h : imageOf (laServed s) j.block = none) :
    exec (.laDump n complete ue) s = .next (laServed s) := by
  rw [laServed] at h
  cases hd : j.arrived <;> simp only [exec, execLaDump, hj, hd, h, laServed]

variable (d : Dump) (i : Image) (hd : j.arrived = some d) (hi : imageOf (laServed s) j.block = some i)
include hd hi

theorem exec_laDump_arrived : exec (.laDump n complete ue) s = .next (
    if j.gap.isSome then modJobs (isJob (j.frame, j.number)) (fun j => { j with arrived := none }) (laServed s)
    else if (laNow (laServed s) i j).void.isSome then voidLa i j 7 (laServed s)
    else if !complete then voidLa i j 7 (laServed s)
    else laStep (laServed s) i j d ue) := by
  rw [laServed] at hi ⊢
  simp only [exec, execLaDump, hj, hd, hi]
  rfl

theorem exec_laDump_gap (h : j.gap ≠ none) : exec (.laDump n complete ue) s =
    .next (modJobs (isJob (j.frame, j.number)) (fun j => { j with arrived := none }) (laServed s)) := by
  rw [exec_laDump_arrived n complete ue s j hj d i hd hi, if_pos (Option.isSome_iff_ne_none.mpr h)]

theorem exec_laDump_void (hgap : j.gap = none) (h : (laNow (laServed s) i j).void ≠ none ∨ complete = false) :
    exec (.laDump n complete ue) s = .next (voidLa i j 7 (laServed s)) := by
  rw [exec_laDump_arrived n complete ue s j hj d i hd hi, hgap, Option.isSome_none, if_neg Bool.false_ne_true]
  rcases h with h | h
  · rw [if_pos (Option.isSome_iff_ne_none.mpr h)]
  · rw [h, Bool.not_false, if_pos rfl, ite_self]

section
variable (hgap : j.gap = none) (hvoid : (laNow (laServed s) i j).void = none) (hcomplete : complete = true)
include hgap hvoid hcomplete

theorem exec_laDump_whole : exec (.laDump n complete ue) s = .next (laStep (laServed s) i j d ue) := by
  rw [exec_laDump_arrived n complete ue s j hj d i hd hi]
  simp only [hgap, hvoid, hcomplete, Option.isSome_none, Bool.not_true, Bool.false_eq_true, if_false]

variable (hheld : laEnds (laServed s) i j d = true →
  atTurn (laServed s) j ∧ ((laExc (laServed s) i j d).length ≤ 4096 ∨ j.plane ≠ none))
include hheld

theorem exec_laDump_uncorrectable (h : (laFetched (laServed s) i j ue).1 = true) :
    exec (.laDump n complete ue) s = .next (voidLa i j 8 (laFetched (laServed s) i j ue).2) := by
  rw [exec_laDump_whole n complete ue s j hj d i hd hi hgap hvoid hcomplete, laStep_not_held _ i j d ue hheld, if_pos h]

theorem exec_laDump_entered (h : (laFetched (laServed s) i j ue).1 = false) :
    exec (.laDump n complete ue) s = .next (laEntered (laServed s) i j d ue) := by
  rw [exec_laDump_whole n complete ue s j hj d i hd hi hgap hvoid hcomplete, laStep_not_held _ i j d ue hheld, h,
    if_neg Bool.false_ne_true]

end

end

end Sys2Proof.Laws
end

section
/-! Jobs of the Clasp (spec/07_clasp_reduction.md R149 to R159). -/

namespace Sys2Proof.Proofs
open Sys2Proof Sys2Proof.Machine Sys2Proof.Laws

/-- Settles O29: each command by its equations; a dump of a long accumulation by what `laStep` and `laEntered` do with it. -/
theorem jobsClaimSpillAndReadOut : Obligations.JobsClaimSpillAndReadOut := by
  intro s n
  refine ⟨⟨exec_tileClaim_none n s, fun j h => ⟨exec_tileClaim_due n s j h, exec_tileClaim_not_due n s j h⟩⟩,
    exec_spillPlaneTake_none n s, fun j h => ⟨fun hfull => ?planesFull, fun hfree => ?planeFree⟩,
    ⟨fun ce ue h => exec_tileReadout_not_ready n ce ue s h, fun j i ce hj hi h =>
      ⟨exec_tileReadout_ready n ce true s j i hj hi h, exec_tileReadout_ready n ce false s j i hj hi h⟩⟩,
    fun complete ue h => exec_laDump_none n complete ue s h,
    fun j complete ue hj h => exec_laDump_no_image n complete ue s j hj h,
    fun j d i complete ue hj hd hi => ?dump⟩
  case planesFull => rw [exec_spillPlaneTake_some n s j h, if_pos hfull]
  case planeFree => rw [exec_spillPlaneTake_some n s j h, if_neg (Nat.not_le.mpr hfree)]
  case dump =>
    have hends := (laEnds_iff (laServed s) i j d).trans (or_congr (laCloses_iff _ i j) (laSplits_iff _ i j d))
    refine ⟨exec_laDump_gap n complete ue s j hj d i hd hi, exec_laDump_void n complete ue s j hj d i hd hi,
      fun ⟨hgap, hvoid, hc⟩ hend hturn => ?notTurn, fun ⟨hgap, hvoid, hc⟩ hend hturn hlong hplane => ?noPlane,
      fun ⟨⟨hgap, hvoid, hc⟩, hheld⟩ hread => exec_laDump_uncorrectable n complete ue s j hj d i hd hi hgap hvoid hc
        (fun h => hheld (hends.mp h)) hread,
      fun ⟨⟨⟨hgap, hvoid, hc⟩, hheld⟩, hread⟩ hcloses hsplit => ?goesOn,
      fun ⟨⟨⟨hgap, hvoid, hc⟩, hheld⟩, hread⟩ hend => ?ends⟩
    case notTurn =>
      rw [exec_laDump_whole n complete ue s j hj d i hd hi hgap hvoid hc, laStep_not_turn _ i j d ue (hends.mpr hend) hturn]
      rfl
    case noPlane =>
      rw [exec_laDump_whole n complete ue s j hj d i hd hi hgap hvoid hc,
        laStep_no_plane _ i j d ue (hends.mpr hend) hturn hlong hplane]
      rfl
    case goesOn =>
      have hnot : laEnds (laServed s) i j d = false := Bool.eq_false_iff.mpr fun h => (hends.mp h).elim hcloses hsplit
      have hafter := laAfter_goes_on (laServed s) i j d ue hnot
      rw [exec_laDump_entered n complete ue s j hj d i hd hi hgap hvoid hc (fun h => hheld (hends.mp h)) hread]
      refine ⟨fun hlast => ?_, fun hlast => ?_⟩
      · rw [laEntered_more (laServed s) i j d ue hlast, hafter]
        rfl
      · rw [laEntered_last_goes_on (laServed s) i j d ue hlast hnot, hafter]
        rfl
    case ends =>
      have hyes := hends.mpr hend
      rw [exec_laDump_entered n complete ue s j hj d i hd hi hgap hvoid hc (fun h => hheld (hends.mp h)) hread]
      refine ⟨fun hsplit hlast => ?_, fun hsplit hlast => ?_, fun hcloses => ?_⟩
      · rw [laEntered_more (laServed s) i j d ue hlast,
          laAfter_splits (laServed s) i j d ue ((laSplits_iff _ i j d).mpr hsplit) (decide_eq_true hsplit)]
        rfl
      · rw [laEntered_last_ends (laServed s) i j d ue hlast hyes,
          laAfter_splits (laServed s) i j d ue ((laSplits_iff _ i j d).mpr hsplit) (decide_eq_true hsplit)]
        rfl
      · have hnot : ¬(64 < (laExc (laServed s) i j d).length ∧
            ¬(laLast (laServed s) i j = true ∧ j.dumps.length ≤ j.included.length + 1)) := fun hsplit => hsplit.2 hcloses
        rw [laEntered_last_ends (laServed s) i j d ue hcloses.2 hyes,
          laAfter_closes (laServed s) i j d ue ((laCloses_iff _ i j).mpr hcloses) (decide_eq_false hnot)]
        rfl

end Sys2Proof.Proofs
end

section
/-! The Facet's step search, rounding, folding and blocks (spec/08_facet_and_pack.md R171 to R176): what each of the model's functions
gives. -/

namespace Sys2Proof.Laws
open Sys2Proof Sys2Proof.Machine

/-! The step search (R171). -/

theorem stepLoop_passed (num den e n k : Nat) (h : den * 2 ^ (2 * (k + 1) + 2 * e) ≤ num) :
    stepLoop num den e (n + 1) k = stepLoop num den e n (k + 1) := if_pos h

theorem stepLoop_stopped (num den e n k : Nat) (h : num < den * 2 ^ (2 * (k + 1) + 2 * e)) :
    stepLoop num den e (n + 1) k = k := if_neg (Nat.not_le.mpr h)

theorem stepLoop_bounds (num den e n k : Nat) :
    k ≤ stepLoop num den e n k ∧ stepLoop num den e n k ≤ k + n := by
  induction n generalizing k with
  | zero => exact ⟨Nat.le_refl k, Nat.le_refl k⟩
  | succ n ih =>
    rcases Nat.lt_or_ge num (den * 2 ^ (2 * (k + 1) + 2 * e)) with h | h
    · rw [stepLoop_stopped num den e n k h]
      omega
    · rw [stepLoop_passed num den e n k h]
      have := ih (k + 1)
      omega

theorem stepLoop_all_passed (num den e n k j : Nat) (hj : k < j) (hle : j ≤ stepLoop num den e n k) :
    den * 2 ^ (2 * j + 2 * e) ≤ num := by
  induction n generalizing k with
  | zero => exact absurd hle (Nat.not_le.mpr hj)
  | succ n ih =>
    rcases Nat.lt_or_ge num (den * 2 ^ (2 * (k + 1) + 2 * e)) with h | h
    · rw [stepLoop_stopped num den e n k h] at hle
      exact absurd hle (Nat.not_le.mpr hj)
    · rcases Nat.eq_or_lt_of_le hj with rfl | hlt
      · exact h
      · rw [stepLoop_passed num den e n k h] at hle
        exact ih (k + 1) hlt hle

theorem stepLoop_next_fails (num den e n k : Nat) (h : stepLoop num den e n k < k + n) :
    num < den * 2 ^ (2 * (stepLoop num den e n k + 1) + 2 * e) := by
  induction n generalizing k with
  | zero => exact absurd h (Nat.lt_irrefl k)
  | succ n ih =>
    rcases Nat.lt_or_ge num (den * 2 ^ (2 * (k + 1) + 2 * e)) with hstop | hpass
    · rwa [stepLoop_stopped num den e n k hstop]
    · rw [stepLoop_passed num den e n k hpass] at h ⊢
      exact ih (k + 1) (by omega)

/-! Rounding to nearest, ties to even (R172, R173). -/

/-- `q` is a multiple of `d` nearest to `v`, and an even one where `v` stands between two. -/
def IsNearestEven (v : Int) (d : Nat) (q : Int) : Prop :=
  2 * (v - q * d).natAbs ≤ d ∧ (2 * (v - q * d).natAbs = d → q % 2 = 0)

theorem isNearestEven_roundTe (v : Int) (d : Nat) (hd : 0 < d) : IsNearestEven v d (roundTe v d) := by
  have hpos : (0 : Int) < d := Int.natCast_pos.mpr hd
  have hlo := Int.ediv_mul_le v hpos.ne'
  have hhi := Int.lt_ediv_add_one_mul_self v hpos
  have hnext : (v / d + 1) * (d : Int) = v / d * d + d := add_one_mul ..
  rw [hnext] at hhi
  unfold roundTe IsNearestEven
  rw [Int.fdiv_eq_ediv_of_nonneg v hpos.le]
  dsimp only
  split
  · omega
  · split
    · rw [hnext]; omega
    · split
      · omega
      · rw [hnext]; omega

/-- Two multiples nearest to a value stand one apart with the value in the middle, and only one of them is even. -/
theorem IsNearestEven.not_lt {v : Int} {d : Nat} {p q : Int} (hd : 0 < d) (hp : IsNearestEven v d p)
    (hq : IsNearestEven v d q) : ¬p < q := by
  intro hlt
  obtain ⟨hpnear, hpeven⟩ := hp
  obtain ⟨hqnear, hqeven⟩ := hq
  have hapart : (p + 1) * d ≤ q * d := Int.mul_le_mul_of_nonneg_right hlt (Int.natCast_nonneg d)
  have hnext : (p + 1) * (d : Int) = p * d + d := add_one_mul ..
  have hq1 : q = p + 1 := Int.eq_of_mul_eq_mul_right (Int.natCast_pos.mpr hd).ne' (by omega : q * (d : Int) = (p + 1) * d)
  subst hq1
  omega

theorem IsNearestEven.unique {v : Int} {d : Nat} {p q : Int} (hd : 0 < d) (hp : IsNearestEven v d p)
    (hq : IsNearestEven v d q) : p = q :=
  Int.le_antisymm (Int.not_lt.mp (hq.not_lt hd hp)) (Int.not_lt.mp (hp.not_lt hd hq))

theorem IsNearestEven.neg {v : Int} {d : Nat} {q : Int} (h : IsNearestEven v d q) : IsNearestEven (-v) d (-q) := by
  have hdist : -v - -q * d = -(v - q * d) := by ring
  unfold IsNearestEven at h ⊢
  rw [hdist, Int.natAbs_neg, Int.neg_emod_two]
  exact h

theorem roundTe_neg (v : Int) (d : Nat) (hd : 0 < d) : roundTe (-v) d = -roundTe v d :=
  (isNearestEven_roundTe (-v) d hd).unique hd (isNearestEven_roundTe v d hd).neg

/-! Folded quotients (R176). -/

theorem foldValue_of_nonneg (q : Int) (h : 0 ≤ q) : foldValue q = 2 * q.natAbs := by
  rw [foldValue, if_pos h]; omega

theorem foldValue_of_neg (q : Int) (h : q < 0) : foldValue q + 1 = 2 * q.natAbs := by
  rw [foldValue, if_neg (Int.not_le.mpr h)]; omega

/-! Blocks (R174 to R176, Table 8.2). -/

/-- Some quotient of a block does not fit 16 bits. -/
def wideBlock (k : Nat) (l : List Int) : Bool := (l.map (fun v => roundTe v (2 ^ k))).any (fun q => decide (32767 < q.natAbs))

theorem wideBlock_iff (k : Nat) (l : List Int) : wideBlock k l = true ↔ ∃ v ∈ l, 32767 < (roundTe v (2 ^ k)).natAbs := by
  simp only [wideBlock, List.any_map, List.any_eq_true, Function.comp_apply, decide_eq_true_eq]

theorem wideBlock_eq_false_iff (k : Nat) (l : List Int) :
    wideBlock k l = false ↔ ∀ v ∈ l, (roundTe v (2 ^ k)).natAbs ≤ 32767 := by
  simp only [← Bool.not_eq_true, wideBlock_iff, not_exists, not_and, Nat.not_lt]

theorem facetBlock_bytes (k reason : Nat) (l : List Int) :
    (facetBlock k reason l).1 = (if wideBlock k l then [3, 2, 1, 0] else [1, 0]).flatMap (fun p =>
      (l.map (fun v => roundTe v (2 ^ k))).map (fun q => BitVec.ofNat 8 (foldValue q / 256 ^ p))) := rfl

/-- A block holds one byte of every value in each of its planes. -/
theorem length_facetBlock (k reason : Nat) (l : List Int) :
    (facetBlock k reason l).1.length = (if wideBlock k l then 4 else 2) * l.length := by
  rw [facetBlock_bytes, List.length_flatMap]
  simp only [List.length_map, List.map_const', List.sum_replicate_nat]
  cases wideBlock k l <;> rfl

theorem facetBlock_exponent (k reason : Nat) (l : List Int) (hk : k < 32) (hreason : reason < 4) :
    (facetBlock k reason l).2.toNat = 128 * bit (wideBlock k l) + 32 * reason + k := by
  have hbyte : (facetBlock k reason l).2 = BitVec.ofNat 8 (128 * bit (wideBlock k l) + 32 * reason + k) := rfl
  have hbit : bit (wideBlock k l) ≤ 1 := by cases wideBlock k l <;> decide
  rw [hbyte, BitVec.toNat_ofNat]
  omega

end Sys2Proof.Laws
end

section
/-! The Facet's steps, rounding and folding (spec/08_facet_and_pack.md R171 to R176). -/

namespace Sys2Proof.Proofs
open Sys2Proof Sys2Proof.Machine Sys2Proof.Laws

/-- Settles O32: the search by induction on the steps left; the rounding is odd because a nearest multiple, even on a tie, is unique
and its negative is one of the negated value. -/
theorem facetStepsRoundAndFold : Obligations.FacetStepsRoundAndFold := by
  refine ⟨fun num den e n k => ?search, fun v k => ?rounding, fun q => ?folding, fun k reason l hlen hk hreason => ?block⟩
  case search =>
    obtain ⟨hlo, hhi⟩ := stepLoop_bounds num den e n k
    exact ⟨hlo, hhi, stepLoop_all_passed num den e n k, stepLoop_next_fails num den e n k⟩
  case rounding =>
    have hpos : 0 < 2 ^ k := Nat.two_pow_pos k
    exact ⟨(isNearestEven_roundTe v (2 ^ k) hpos).1, roundTe_neg v (2 ^ k) hpos⟩
  case folding =>
    rcases Int.lt_or_le q 0 with h | h
    · have hfold := foldValue_of_neg q h
      rw [if_neg (by omega)]
      omega
    · have hfold := foldValue_of_nonneg q h
      rw [if_pos (by omega)]
      omega
  case block =>
    rw [length_facetBlock, facetBlock_exponent k reason l hk hreason, hlen, ← wideBlock_eq_false_iff, ← wideBlock_iff]
    refine ⟨fun hnarrow => ?_, fun hwide => ?_⟩
    · rw [hnarrow]
      exact ⟨rfl, by simp only [bit, Bool.false_eq_true, if_false]; omega⟩
    · rw [hwide]
      exact ⟨rfl, by simp only [bit, if_true]⟩

end Sys2Proof.Proofs
end

section
/-! Items in the Pack engines, record assembly and the service encodings (spec/08_facet_and_pack.md R182 to R186, R190,
spec/09_output_records.md R192): one equation per branch. -/

namespace Sys2Proof.Laws
open Sys2Proof Sys2Proof.Machine

/-! Items enter an engine (R183). -/

@[simp] theorem engine_readUpTo_incoming (k n : Nat) (s : State) :
    (engine (readUpTo k n s) k).incoming = (engine s k).incoming := by
  rw [readUpTo, engine_modEngine]

theorem packArrive_nil (k : Nat) (s : State) (h : (engine s k).incoming = []) : packArrive k s = s := by
  simp only [packArrive, h]

/-- The item next to arrive at an engine has entered its buffer, as the item or gap record `y`. -/
def entered (k : Nat) (rest : List Item) (y : Item) (s : State) : State :=
  modEngine k (fun e => { e with incoming := rest, queue := e.queue ++ [y] }) s

section
variable (k : Nat) (s : State) (x : Item) (rest : List Item) (h : (engine s k).incoming = x :: rest)
include h

theorem packArrive_fits (hroom : queuedBytes (engine s k) + x.payload.length ≤ packRoom) :
    packArrive k s = entered k rest x s := by
  simp only [packArrive, h, decide_eq_false (Nat.not_lt.mpr hroom), Bool.false_eq_true, if_false, entered]

theorem packArrive_full (hfull : packRoom < queuedBytes (engine s k) + x.payload.length) :
    packArrive k s = count .packFull k { entered k rest (asGap 0x0B x) s with pack.sticky := s.pack.sticky ||| 2 } := by
  simp only [packArrive, h, decide_eq_true hfull, if_true]
  rfl

end

theorem exec_packItemArrive (k : BitVec 4) (read : Nat) (s : State) (hOn : s.dev.state ≠ .off) :
    exec (.packItemArrive k read) s = .next (packArrive k.toNat (readUpTo k.toNat read s)) := by
  rw [exec, execPackItemArrive, Proofs.whenOn_of_on _ s hOn]

/-! Items leave it (R182, R184). -/

theorem packDone_nil (k : Nat) (s : State) (h : (engine s k).queue = []) : packDone k s = s := by
  simp only [packDone, h]

/-- The output of an item's encoding, where its stream is compressed and the encoding is shorter. -/
def packedItem (x : Item) (s : State) : Option (List Byte) :=
  if x.gap.isNone && compressed s x then packEncode x.payload else none

theorem packDone_cons (k : Nat) (s : State) (x : Item) (rest : List Item) (h : (engine s k).queue = x :: rest) :
    packDone k s = assemble x (packedItem x s) (countItem k x (packedItem x s)
      (x.gap.isNone && compressed s x && (packedItem x s).isNone)
      (modEngine k (fun e => { e with queue := rest, read := e.read - x.payload.length
                                      output := (packedItem x s).getD x.payload }) s)) := by
  simp only [packDone, h, packedItem]

theorem exec_packItemDone (k : BitVec 4) (s : State) (hOn : s.dev.state ≠ .off) :
    exec (.packItemDone k) s = .next (packDone k.toNat s) := by
  rw [exec, execPackItemDone, Proofs.whenOn_of_on _ s hOn]

/-! Admission and discards leave the streams' numbers and the order of assembly. -/

@[simp] theorem modEgress_numbers (k : Nat) (f : EgressQuad → EgressQuad) (s : State) :
    (modEgress k f s).out.streams = s.out.streams ∧ (modEgress k f s).out.order = s.out.order := ⟨rfl, rfl⟩

@[simp] theorem modRing_numbers (k : Nat) (f : HostRing → HostRing) (s : State) :
    (modRing k f s).out.streams = s.out.streams ∧ (modRing k f s).out.order = s.out.order := ⟨rfl, rfl⟩

@[simp] theorem discard_numbers (reason : Nat) (r : Rec) (s : State) :
    (Machine.discard reason r s).out.streams = s.out.streams ∧ (Machine.discard reason r s).out.order = s.out.order := by
  unfold Machine.discard
  dsimp only
  split <;> exact ⟨rfl, rfl⟩

@[simp] theorem discardQuad_numbers (q reason : Nat) (r : Rec) (s : State) :
    (discardQuad q reason r s).out.streams = s.out.streams ∧ (discardQuad q reason r s).out.order = s.out.order := by
  simp [discardQuad]

@[simp] theorem drainDown_numbers (k : Nat) (s : State) :
    (drainDown k s).out.streams = s.out.streams ∧ (drainDown k s).out.order = s.out.order := by
  unfold drainDown
  split
  · exact ⟨rfl, rfl⟩
  · exact List.foldlRecOn (motive := fun t : State => t.out.streams = s.out.streams ∧ t.out.order = s.out.order) _ _
      ⟨rfl, rfl⟩ (fun t ht x _ => by simpa using ht)

@[simp] theorem admitEgress_numbers (k : Nat) (entry : Flow) (r : Rec) (s : State) :
    (admitEgress k entry r s).out.streams = s.out.streams ∧ (admitEgress k entry r s).out.order = s.out.order := by
  unfold admitEgress
  dsimp only
  split
  · simp
  · split <;> simp

@[simp] theorem admitRing_numbers (k : Nat) (r : Rec) (s : State) :
    (admitRing k r s).out.streams = s.out.streams ∧ (admitRing k r s).out.order = s.out.order := by
  unfold admitRing
  split
  · simp
  · split <;> simp

/-! Record assembly (R192). -/

theorem assemble_no_stream (x : Item) (p : Option (List Byte)) (s : State) (h : ostream s x.ostream = none) :
    assemble x p s = s := by
  simp only [assemble, h]

/-- Of the streams and the order, assembly changes the number of the item's stream and the order's next place. -/
theorem assemble_numbers (x : Item) (p : Option (List Byte)) (s : State) (o : OStream) (h : ostream s x.ostream = some o) :
    (assemble x p s).out.streams =
      tabSet none s.out.streams x.ostream (some { o with next := o.next + 1, formed := true }) ∧
    (assemble x p s).out.order = s.out.order + 1 := by
  simp only [assemble, h]
  cases x.gap <;> dsimp only <;> split
  case none.isTrue => simp
  case some.isTrue => simp
  case none.isFalse => split <;> simp
  case some.isFalse => split <;> simp

/-! Service encodings (R185, R186). -/

/-- The oldest service encoding. -/
def oldestEncoding (s : State) : Option ServiceOp := s.services.find? (fun x => !isUpdateEnd x.cmd)

/-- The encoding is that of REC.EXPORT, and not of PACK.ENCODE. -/
def isExport (x : ServiceOp) : Bool := x.cmd = .recExport x.req

/-- The opcode that the completion of an encoding names. -/
def encodeOpcode (x : ServiceOp) : Nat := if isExport x then 0x0C02 else 0x0803

/-- The source of an encoding that ends, with the status of a read that fails and the state after it. -/
def encodeFetch (x : ServiceOp) (s : State) : List Byte × Option Status × State :=
  let u := { s with services := s.services.erase x, recorder.clearing := s.recorder.clearing && !isExport x }
  if isExport x then (x.source, none, u) else bulkFetch (bulk x.req.arg 0) u

/-- What an encoding of its source gives. -/
def encodeOutput (x : ServiceOp) (s : State) : List Byte :=
  if x.dynamic then deflateDynamic (encodeFetch x s).1 else deflateFixed (encodeFetch x s).1

/-- The completion of an encoding, in the state that its end has left. -/
def encodeFinish (x : ServiceOp) (st : Status) (bytes : Nat) (s : State) : State :=
  finish x.cmd (encodeOpcode x) x.req st bytes 0 [] s

/-- What becomes of an encoding that holds an engine (R185). -/
def encodeEnds (x : ServiceOp) (s : State) : State :=
  (encodeFetch x s).2.1.elim
    (if x.dstLen < (encodeOutput x s).length then encodeFinish x .noSpace 0 (encodeFetch x s).2.2
      else encodeFinish x .ok (encodeOutput x s).length (queueWrite x.dst 4 (encodeOutput x s) (encodeFetch x s).2.2))
    (fun st => encodeFinish x st 0 (encodeFetch x s).2.2)

section
variable (x : ServiceOp) (s : State)

theorem encodeEnds_unread (st : Status) (h : (encodeFetch x s).2.1 = some st) :
    encodeEnds x s = encodeFinish x st 0 (encodeFetch x s).2.2 := by
  rw [encodeEnds, h, Option.elim_some]

variable (h : (encodeFetch x s).2.1 = none)
include h

theorem encodeEnds_too_long (hlong : x.dstLen < (encodeOutput x s).length) :
    encodeEnds x s = encodeFinish x .noSpace 0 (encodeFetch x s).2.2 := by
  rw [encodeEnds, h, Option.elim_none, if_pos hlong]

theorem encodeEnds_fits (hfits : (encodeOutput x s).length ≤ x.dstLen) : encodeEnds x s =
    encodeFinish x .ok (encodeOutput x s).length (queueWrite x.dst 4 (encodeOutput x s) (encodeFetch x s).2.2) := by
  rw [encodeEnds, h, Option.elim_none, if_neg (Nat.not_lt.mpr hfits)]

end

section
variable (s : State) (hOn : s.dev.state ≠ .off)
include hOn

theorem exec_packEncodeDone_none (h : oldestEncoding s = none) : exec .packEncodeDone s = .next s := by
  rw [oldestEncoding] at h
  simp only [exec, execPackEncodeDone, Proofs.whenOn_of_on _ s hOn, h]

variable (x : ServiceOp) (h : oldestEncoding s = some x)
include h

theorem exec_packEncodeDone_waits (hserves : engineServes s x.seq = false) : exec .packEncodeDone s = .next s := by
  rw [oldestEncoding] at h
  simp only [exec, execPackEncodeDone, Proofs.whenOn_of_on _ s hOn, h, hserves, Bool.not_false, if_true]

theorem exec_packEncodeDone_serves (hserves : engineServes s x.seq = true) :
    exec .packEncodeDone s = .next (encodeEnds x s) := by
  rw [oldestEncoding] at h
  simp only [exec, execPackEncodeDone, Proofs.whenOn_of_on _ s hOn, h, hserves, Bool.not_true, Bool.false_eq_true, if_false]
  change Host.Outcome.next (match (encodeFetch x s).2.1 with
    | some st => encodeFinish x st 0 (encodeFetch x s).2.2
    | none => _) = _
  rw [encodeEnds]
  cases (encodeFetch x s).2.1 <;> rfl

end

end Sys2Proof.Laws
end

section
/-! The Pack engines and record assembly (spec/08_facet_and_pack.md R182 to R186, R190, spec/09_output_records.md R192). -/

namespace Sys2Proof.Proofs
open Sys2Proof Sys2Proof.Machine Sys2Proof.Laws

/-- Settles O33: each command by its equation and the branches of `packArrive`, `packDone` and `encodeEnds`; assembly by
`assemble_numbers`. -/
theorem packAndAssemblyKeepOrder : Obligations.PackAndAssemblyKeepOrder := by
  intro s hOn
  refine ⟨fun k read => ⟨fun h => ?noneArrives, fun x rest h => ?arrives⟩, fun k h => ?noneDone, fun k x rest h => ?done,
    fun x p o h => ?assembled, fun x p h => assemble_no_stream x p s h, exec_packEncodeDone_none s hOn,
    exec_packEncodeDone_waits s hOn, fun x h hserves => ?encoded⟩
  case noneArrives =>
    rw [exec_packItemArrive k read s hOn, packArrive_nil _ _ (by rw [engine_readUpTo_incoming, h])]
    rfl
  case arrives =>
    rw [exec_packItemArrive k read s hOn]
    rw [← engine_readUpTo_incoming k.toNat read s] at h
    refine ⟨fun hroom => ?_, fun hfull => ?_⟩
    · rw [packArrive_fits k.toNat _ x rest h hroom]
      rfl
    · rw [packArrive_full k.toNat _ x rest h hfull]
      rfl
  case noneDone => rw [exec_packItemDone k s hOn, packDone_nil k.toNat s h]
  case done =>
    rw [exec_packItemDone k s hOn, packDone_cons k.toNat s x rest h]
    rfl
  case assembled =>
    obtain ⟨hstreams, horder⟩ := assemble_numbers x p s o h
    refine ⟨?_, fun j hj => ?_, horder⟩ <;> rw [ostream, hstreams]
    · exact tabGet_tabSet_same ..
    · exact tabGet_tabSet_ne _ _ _ hj
  case encoded =>
    rw [exec_packEncodeDone_serves s hOn x h hserves]
    exact ⟨fun st hst => congrArg _ (encodeEnds_unread x s st hst),
      fun hread hlong => congrArg _ (encodeEnds_too_long x s hread hlong),
      fun hread hfits => congrArg _ (encodeEnds_fits x s hread hfits)⟩

end Sys2Proof.Proofs
end

section
/-! The end of a load, of an image's validation and of a bulk transfer that times out (spec/08_facet_and_pack.md R186, R189,
spec/10_frame_schedule.md R217, R222, spec/15_host_interface.md R353): one equation per branch. -/

namespace Sys2Proof.Laws
open Sys2Proof Sys2Proof.Machine

/-! The oldest load (R186, R189). -/

theorem loadEnds_nil (ue : Bool) (e : BitVec 4) (s : State) (h : s.loads = []) : loadEnds ue e s = s := by
  simp only [loadEnds, h]

/-- The oldest load waits: an image before it has no verdict yet, or no engine has served its compressed data. -/
def loadWaits (s : State) (l : Load) : Bool :=
  !s.sched.verdictQueue.isEmpty || (l.deflate && l.failed.isNone && !engineServes s l.seq)

theorem loadWaits_of_verdict (s : State) (l : Load) (h : s.sched.verdictQueue ≠ []) : loadWaits s l = true := by
  simp only [loadWaits, List.isEmpty_eq_false_iff.mpr h, Bool.not_false, Bool.true_or]

theorem loadWaits_of_engine (s : State) (l : Load) (hdeflate : l.deflate = true) (hfailed : l.failed = none)
    (hserves : engineServes s l.seq = false) : loadWaits s l = true := by
  simp only [loadWaits, hdeflate, hfailed, hserves, Option.isNone_none, Bool.not_false, Bool.and_self, Bool.or_true]

theorem loadWaits_eq_false (s : State) (l : Load) (hverdict : s.sched.verdictQueue = [])
    (hserves : l.deflate = true → l.failed = none → engineServes s l.seq = true) : loadWaits s l = false := by
  simp only [loadWaits, hverdict, List.isEmpty_nil, Bool.not_true, Bool.false_or]
  rw [Bool.eq_false_iff]
  intro hwaits
  simp only [Bool.and_eq_true, Option.isNone_iff_eq_none, Bool.not_eq_true'] at hwaits
  obtain ⟨⟨hdeflate, hfailed⟩, hidle⟩ := hwaits
  exact Bool.false_ne_true (hidle.symm.trans (hserves hdeflate hfailed))

section
variable (ue : Bool) (e : BitVec 4) (s : State) (l : Load) (rest : List Load) (h : s.loads = l :: rest)

/-- What the read of the load's source gives, the load off the list. -/
def loadFetch (s : State) (l : Load) (rest : List Load) : List Byte × Option Status × State :=
  bulkFetch (loadBulk l) { s with loads := rest }

include h

theorem loadEnds_waits (hwaits : loadWaits s l = true) : loadEnds ue e s = s := by
  rw [loadWaits] at hwaits
  simp only [loadEnds, h, hwaits, if_true]

variable (hgoes : loadWaits s l = false)
include hgoes

theorem loadEnds_failed (st : Status) (hfailed : l.failed = some st) :
    loadEnds ue e s = endLoad l st 0 0 { s with loads := rest } := by
  rw [loadWaits, hfailed] at hgoes
  simp only [loadEnds, h, hgoes, hfailed, Bool.false_eq_true, if_false]

variable (hfailed : l.failed = none)
include hfailed

theorem loadEnds_unread (st : Status) (hread : (loadFetch s l rest).2.1 = some st) :
    loadEnds ue e s = endLoad l st 0 0 (loadFetch s l rest).2.2 := by
  rw [loadWaits, hfailed] at hgoes
  rw [loadFetch] at hread ⊢
  simp only [loadEnds, h, hgoes, hfailed, hread, Bool.false_eq_true, if_false]

variable (hread : (loadFetch s l rest).2.1 = none)
include hread

theorem loadEnds_uncorrectable :
    loadEnds true e s = endLoad l .dramUe 0 0 (loadUe (loadBulk l) (loadFetch s l rest).2.2) := by
  rw [loadWaits, hfailed] at hgoes
  rw [loadFetch] at hread ⊢
  simp only [loadEnds, h, hgoes, hfailed, hread, Bool.false_eq_true, if_false, if_true]

theorem loadEnds_kernel (q : Request) (hcmd : l.cmd = .pegKernelLoad q) :
    loadEnds false e s = kernelLoaded (servedBy s e) l (loadFetch s l rest).1 (loadFetch s l rest).2.2 := by
  rw [loadWaits, hfailed] at hgoes
  rw [loadFetch] at hread ⊢
  simp only [loadEnds, h, hgoes, hfailed, hread, hcmd, Bool.false_eq_true, if_false]

variable (hcmd : ∀ q, l.cmd ≠ .pegKernelLoad q)
include hcmd

theorem loadEnds_undecoded (x : DecodeFail) (hdata : loadData l (loadFetch s l rest).1 = .error x) :
    loadEnds false e s = decodeFails (servedBy s e) l x.code (loadFetch s l rest).2.2 := by
  rw [loadWaits, hfailed] at hgoes
  rw [loadFetch] at hread hdata ⊢
  simp only [loadEnds, h, hgoes, hfailed, hread, hdata, Bool.false_eq_true, if_false]

theorem loadEnds_decoded (data : List Byte) (hdata : loadData l (loadFetch s l rest).1 = .ok data) :
    loadEnds false e s = dataLoaded (servedBy s e) l data (loadFetch s l rest).2.2 := by
  rw [loadWaits, hfailed] at hgoes
  rw [loadFetch] at hread hdata ⊢
  simp only [loadEnds, h, hgoes, hfailed, hread, hdata, Bool.false_eq_true, if_false]

end

theorem exec_loadDecodeDone (ue : Bool) (e : BitVec 4) (s : State) (hOn : s.dev.state ≠ .off) :
    exec (.loadDecodeDone ue e) s = .next (loadEnds ue e s) := by
  rw [exec, execLoadDecodeDone, Proofs.whenOn_of_on _ s hOn]

/-! Decoded data (R189, R216, R237). -/

/-- Decoded data has been counted for its engine and put in staging. -/
def dataStaged (e : Nat) (l : Load) (data : List Byte) (s : State) : State :=
  stageService data (if l.deflate then decodeGood e s else s)

theorem dataLoaded_image (e : Nat) (l : Load) (data : List Byte) (s : State) (q : Request) (h : l.cmd = .schedLoad q) :
    dataLoaded e l data s = { dataStaged e l data s with
      sched.verdictQueue := (dataStaged e l data s).sched.verdictQueue ++ [(u8 q.arg 24, q, data)] } := by
  simp only [dataLoaded, h, dataStaged]

theorem dataLoaded_applied (e : Nat) (l : Load) (data : List Byte) (s : State) (hcmd : ∀ q, l.cmd ≠ .schedLoad q)
    (hgood : loadBad l.cmd data = none) (htxn : isTxnLoad l.cmd = false ∨ l.req.txnId = 0) :
    dataLoaded e l data s = endLoad l .ok data.length 0 (applyLoad l data (dataStaged e l data s)) := by
  have hnow : (isTxnLoad l.cmd && decide (l.req.txnId ≠ 0)) = false := by
    simpa only [Bool.and_eq_false_iff, decide_eq_false_iff_not, not_not] using htxn
  simp only [dataLoaded, hgood, hnow, Bool.false_eq_true, if_false, dataStaged]

/-! The oldest image that waits (R217, R222). -/

@[simp] theorem queueWrite_sched (addr cls : Nat) (bytes : List Byte) (s : State) :
    (queueWrite addr cls bytes s).sched = s.sched :=
  List.foldlRecOn (motive := fun t : State => t.sched = s.sched) _ _ rfl (fun _ ht _ _ => ht)

@[simp] theorem putCopies_sched (k : Nat) (l : List Byte) (s : State) : (putCopies k l s).sched = s.sched :=
  List.foldlRecOn (motive := fun t : State => t.sched = s.sched) _ _ rfl
    (fun t ht g _ => by rw [queueWrite_sched, queueWrite_sched, ht])

/-- The verdict of an image's data. -/
def imageVerdict (s : State) (data : List Byte) : Verdict := (parseImage data).elim formatVerdict (verdict s)

theorem exec_schedLoadVerdict_nil (s : State) (hOn : s.dev.state ≠ .off) (h : s.sched.verdictQueue = []) :
    exec .schedLoadVerdict s = .next s := by
  simp only [exec, execSchedLoadVerdict, Proofs.whenOn_of_on _ s hOn, h]

/-- Of the schedule's state the verdict takes the image off the queue and puts it in its slot. -/
theorem exec_schedLoadVerdict_sched (s : State) (k : Nat) (q : Request) (data : List Byte)
    (rest : List (Nat × Request × List Byte)) (hOn : s.dev.state ≠ .off)
    (h : s.sched.verdictQueue = (k, q, data) :: rest) : ∃ t, exec .schedLoadVerdict s = .next t ∧
      t.sched = { s.sched with
        verdictQueue := rest
        slots := tabSet {} s.sched.slots k
          { image := parseImage data, verdict := some (imageVerdict s data), size := u32 q.arg 16 } } := by
  simp only [exec, execSchedLoadVerdict, Proofs.whenOn_of_on _ s hOn, h]
  refine ⟨_, rfl, ?_⟩
  simp only [finish_fields, putCopies_sched, imageVerdict]
  cases parseImage data <;> rfl

/-! A transfer that times out (R353). -/

theorem exec_bulkTransferTimeout (k : BitVec 3) (s : State) (hOn : s.dev.state ≠ .off) :
    exec (.bulkTransferTimeout k) s = .next (if s.loads.any (fun l => l.req.slot = k)
      then failLoad (fun l => l.req.slot = k) s else failBulk (fun q => q.slot = k) s) := by
  rw [exec, execBulkTransferTimeout, Proofs.whenOn_of_on _ s hOn]

end Sys2Proof.Laws
end

section
/-! Loads, verdicts and bulk transfers that end (spec/08_facet_and_pack.md R186, R189, spec/10_frame_schedule.md R217, R222,
spec/15_host_interface.md R353). -/

namespace Sys2Proof.Proofs
open Sys2Proof Sys2Proof.Machine Sys2Proof.Laws

/-- LOAD_DECODE_DONE changes nothing without a load, and while the oldest one waits. -/
theorem exec_loadDecodeDone_waits (ue : Bool) (e : BitVec 4) (s : State) (hOn : s.dev.state ≠ .off)
    (h : s.loads = [] ∨ s.sched.verdictQueue ≠ [] ∨ (∃ l rest, s.loads = l :: rest ∧ l.deflate = true ∧
      l.failed = none ∧ engineServes s l.seq = false)) : exec (.loadDecodeDone ue e) s = .next s := by
  rw [exec_loadDecodeDone ue e s hOn]
  rcases h with hnil | hverdict | ⟨l, rest, hl, hdeflate, hfailed, hidle⟩
  · rw [loadEnds_nil ue e s hnil]
  · cases hl : s.loads with
    | nil => rw [loadEnds_nil ue e s hl]
    | cons l rest => rw [loadEnds_waits ue e s l rest hl (loadWaits_of_verdict s l hverdict)]
  · rw [loadEnds_waits ue e s l rest hl (loadWaits_of_engine s l hdeflate hfailed hidle)]

/-- Settles O22: LOAD_DECODE_DONE by the branches of `loadEnds`, the decoded data by those of `dataLoaded`, and each other command by
its equation. -/
theorem loadsEndInTheirTurn : Obligations.LoadsEndInTheirTurn := by
  intro s hOn
  refine ⟨fun ue e h => exec_loadDecodeDone_waits ue e s hOn h, fun ue e l rest hl hverdict hserves => ?ends,
    fun e l data => ⟨fun q h => dataLoaded_image e l data s q h, fun hcmd hgood htxn =>
      dataLoaded_applied e l data s hcmd hgood htxn⟩,
    fun k q data rest h => ?verdict, exec_schedLoadVerdict_nil s hOn, fun k h => ?load, fun k h => ?bulk⟩
  case ends =>
    have hgoes := loadWaits_eq_false s l hverdict hserves
    rw [exec_loadDecodeDone ue e s hOn]
    refine ⟨fun st hfailed => ?failed, fun st hfailed hread => ?unread, fun hfailed hread hue => ?uncorrectable,
      fun hfailed hread hue => ⟨fun q hcmd => ?kernel, fun x hcmd hdata => ?undecoded, fun data hcmd hdata => ?decoded⟩⟩
    case failed => rw [loadEnds_failed ue e s l rest hl hgoes st hfailed]
    case unread => exact congrArg _ (loadEnds_unread ue e s l rest hl hgoes hfailed st hread)
    case uncorrectable => exact hue ▸ congrArg _ (loadEnds_uncorrectable e s l rest hl hgoes hfailed hread)
    case kernel => exact hue ▸ congrArg _ (loadEnds_kernel e s l rest hl hgoes hfailed hread q hcmd)
    case undecoded => exact hue ▸ congrArg _ (loadEnds_undecoded e s l rest hl hgoes hfailed hread hcmd x hdata)
    case decoded => exact hue ▸ congrArg _ (loadEnds_decoded e s l rest hl hgoes hfailed hread hcmd data hdata)
  case verdict =>
    obtain ⟨t, hexec, hsched⟩ := exec_schedLoadVerdict_sched s k q data rest hOn h
    have hslot : schedSlot t k =
        { image := parseImage data, verdict := some (imageVerdict s data), size := u32 q.arg 16 } := by
      rw [schedSlot, hsched]
      exact tabGet_tabSet_same ..
    refine ⟨t, hexec, by rw [hsched], by rw [hslot], fun i hi => ?_, fun hi => ?_, fun j hj => ?_⟩
    · rw [hslot, imageVerdict, hi, Option.elim_some]
    · rw [hslot, imageVerdict, hi, Option.elim_none]
    · rw [schedSlot, hsched]
      exact tabGet_tabSet_ne _ _ _ hj
  case load => rw [exec_bulkTransferTimeout k s hOn, if_pos h]
  case bulk => rw [exec_bulkTransferTimeout k s hOn, if_neg (Bool.eq_false_iff.mp h)]

end Sys2Proof.Proofs
end

section
/-! Records that age, leave as datagrams or go to their host ring (spec/09_output_records.md R203 to R213): one equation per branch
of each command, what sending and ageing leave of the other queues, and when a ring's write ends whole. -/

namespace Sys2Proof.Laws
open Sys2Proof Sys2Proof.Machine

/-! Folds that count. -/

theorem foldl_touches_counters {α : Type} (f : State → α → State) (hf : ∀ s x, ∃ y, f s x = { s with counters := y })
    (l : List α) (s : State) : ∃ y, l.foldl f s = { s with counters := y } := by
  induction l generalizing s with
  | nil => exact ⟨_, rfl⟩
  | cons x l ih =>
    obtain ⟨y, hy⟩ := hf s x
    obtain ⟨z, hz⟩ := ih (f s x)
    exact ⟨z, by rw [List.foldl_cons, hz, hy]⟩

/-- Counting a later kind leaves an earlier kind's counter, however large the number of the unit that is counted. -/
theorem counter_count_of_lt {c d : Ctr} {i : Nat} (j : Nat) (s : State) (h : c.ctorIdx < d.ctorIdx) (hi : i < 1048576) :
    counter c i (count d j s) = counter c i s :=
  have hkey : ctrKey c i ≠ ctrKey d j := by unfold ctrKey; omega
  tabGet_tabMod_ne 0 s.counters (· + 1) hkey

/-! Ageing in a quad's queue (R207). -/

/-- The record has reached its age limit and no datagram of it has left. -/
def ageDue (s : State) (x : Rec × Flow × Nat) : Bool :=
  !x.1.gap && x.2.2 = 0 && decide (x.1.frame + entryAge x.2.1 ≤ s.time.frame)

/-- The queue's due records have become gap records in their places. -/
def cutQuad (s : State) (e : EgressQuad) : EgressQuad :=
  { e with queue := e.queue.map (fun x => if ageDue s x then (gapOf 0x10 x.1, x.2) else x), sticky := e.sticky ||| 0x10 }

/-- A cut record is counted for its stream and its quad. -/
def countAged (k : Nat) (s : State) (x : Rec × Flow × Nat) : State :=
  count .gaps (x.1.ostream * 64 + 0x10) (count .egressAged k s)

theorem counter_foldl_countAged (k : Nat) (hk : k < 1048576) (l : List (Rec × Flow × Nat)) (s : State) :
    counter .egressAged k (l.foldl (countAged k) s) = counter .egressAged k s + l.length := by
  induction l generalizing s with
  | nil => rfl
  | cons x l ih =>
    rw [List.foldl_cons, ih, countAged, counter_count_of_lt _ _ (by decide) hk, counter_count, List.length_cons]
    omega

section
variable (k : Nat) (s : State)

theorem ageQuad_none (h : (egress s k).queue.filter (ageDue s) = []) : ageQuad k s = s := by
  have hempty : ((egress s k).queue.filter (ageDue s)).isEmpty = true := by rw [h, List.isEmpty_nil]
  exact if_pos hempty

theorem ageQuad_some (h : (egress s k).queue.filter (ageDue s) ≠ []) :
    ageQuad k s = ((egress s k).queue.filter (ageDue s)).foldl (countAged k) (modEgress k (cutQuad s) s) := by
  have hdue : ¬((egress s k).queue.filter (ageDue s)).isEmpty = true := by rwa [List.isEmpty_iff]
  exact if_neg hdue

/-- Ageing changes nothing, or the quad's queue and the counters. -/
theorem ageQuad_cases : (egress s k).queue.filter (ageDue s) = [] ∧ ageQuad k s = s ∨
    ∃ y, ageQuad k s = { modEgress k (cutQuad s) s with counters := y } := by
  by_cases h : (egress s k).queue.filter (ageDue s) = []
  · exact .inl ⟨h, ageQuad_none k s h⟩
  · rw [ageQuad_some k s h]
    exact .inr (foldl_touches_counters _ (fun s x => ⟨_, rfl⟩) _ _)

theorem ageQuad_touches :
    ageQuad k s = { s with out.quads := (ageQuad k s).out.quads, counters := (ageQuad k s).counters } := by
  obtain ⟨-, h⟩ | ⟨y, h⟩ := ageQuad_cases k s
  · rw [h]
  · rw [h]
    rfl

theorem queue_ageQuad : (egress (ageQuad k s) k).queue =
    (egress s k).queue.map (fun x => if ageDue s x then (gapOf 0x10 x.1, x.2) else x) := by
  obtain ⟨hnone, h⟩ | ⟨y, h⟩ := ageQuad_cases k s <;> rw [h]
  · rw [List.filter_eq_nil_iff] at hnone
    exact ((List.map_congr_left fun x hx => if_neg (hnone x hx)).trans (List.map_id' _)).symm
  · change (egress (modEgress k (cutQuad s) s) k).queue = _
    rw [egress_modEgress, cutQuad]

theorem egress_ageQuad_ne (j : Nat) (hj : j ≠ k) : egress (ageQuad k s) j = egress s j := by
  obtain ⟨-, h⟩ | ⟨y, h⟩ := ageQuad_cases k s <;> rw [h]
  exact egress_modEgress_ne k j (cutQuad s) s hj

@[simp] theorem sent_ageQuad : (egress (ageQuad k s) k).sent = (egress s k).sent := by
  obtain ⟨-, h⟩ | ⟨y, h⟩ := ageQuad_cases k s <;> rw [h]
  change (egress (modEgress k (cutQuad s) s) k).sent = _
  rw [egress_modEgress, cutQuad]

theorem counter_ageQuad (hk : k < 1048576) : counter .egressAged k (ageQuad k s) =
    counter .egressAged k s + ((egress s k).queue.filter (ageDue s)).length := by
  by_cases h : (egress s k).queue.filter (ageDue s) = []
  · rw [ageQuad_none k s h, h]
    rfl
  · rw [ageQuad_some k s h, counter_foldl_countAged k hk]
    rfl

end

theorem exec_egressAgeExpiry (k : BitVec 5) (s : State) (hOn : s.dev.state ≠ .off) :
    exec (.egressAgeExpiry k) s = .next (ageQuad k.toNat s) := by
  rw [exec, execEgressAgeExpiry, Proofs.whenOn_of_on _ s hOn]

/-! Ageing in a host ring (R212). -/

@[simp] theorem ring_modRing (k : Nat) (f : HostRing → HostRing) (s : State) :
    ring (modRing k f s) k = (ring s k).map f := tabGet_tabMod_same ..

theorem ring_modRing_ne (k j : Nat) (f : HostRing → HostRing) (s : State) (h : j ≠ k) :
    ring (modRing k f s) j = ring s j := tabGet_tabMod_ne _ _ _ h

/-- The record has reached the age limit of its ring. -/
def ringDue (s : State) (age : Nat) (r : Rec) : Bool := !r.gap && decide (r.frame + age ≤ s.time.frame)

/-- The ring's due records have become gap records in their places. -/
def cutRing (s : State) (age : Nat) (x : HostRing) : HostRing :=
  { x with queue := x.queue.map (fun r => if ringDue s age r then gapOf 0x10 r else r) }

theorem ageRing_none (k : Nat) (s : State) (h : ring s k = none) : ageRing k s = s := by
  simp only [ageRing, h]

section
variable (k : Nat) (s : State) (x : HostRing) (h : ring s k = some x)
include h

/-- Ageing changes nothing, or the ring's queue and the counters. -/
theorem ageRing_cases : x.queue.filter (ringDue s x.age) = [] ∧ ageRing k s = s ∨
    ∃ y, ageRing k s = { modRing k (cutRing s x.age) s with counters := y } := by
  simp only [ageRing, h]
  by_cases hdue : x.queue.filter (ringDue s x.age) = []
  · have hempty : (x.queue.filter (ringDue s x.age)).isEmpty = true := by rw [hdue, List.isEmpty_nil]
    exact .inl ⟨hdue, if_pos hempty⟩
  · have hsome : ¬(x.queue.filter (ringDue s x.age)).isEmpty = true := by rwa [List.isEmpty_iff]
    obtain ⟨y, hy⟩ := foldl_touches_counters (fun s (r : Rec) => count .gaps (r.ostream * 64 + 0x10) s) (fun s r => ⟨_, rfl⟩)
      (x.queue.filter (ringDue s x.age)) (modRing k (cutRing s x.age) s)
    exact .inr ⟨y, (if_neg hsome).trans hy⟩

theorem ageRing_touches :
    ageRing k s = { s with out.rings := (ageRing k s).out.rings, counters := (ageRing k s).counters } := by
  obtain ⟨-, e⟩ | ⟨y, e⟩ := ageRing_cases k s x h
  · rw [e]
  · rw [e]
    rfl

theorem ring_ageRing : ring (ageRing k s) k = some (cutRing s x.age x) := by
  obtain ⟨hnone, e⟩ | ⟨y, e⟩ := ageRing_cases k s x h <;> rw [e]
  · rw [List.filter_eq_nil_iff] at hnone
    have hsame : x.queue.map (fun r => if ringDue s x.age r then gapOf 0x10 r else r) = x.queue :=
      (List.map_congr_left fun r hr => if_neg (hnone r hr)).trans (List.map_id' _)
    rw [h, cutRing, hsame]
  · exact (ring_modRing k (cutRing s x.age) s).trans (by rw [h, Option.map_some])

theorem ring_ageRing_ne (j : Nat) (hj : j ≠ k) : ring (ageRing k s) j = ring s j := by
  obtain ⟨-, e⟩ | ⟨y, e⟩ := ageRing_cases k s x h <;> rw [e]
  exact ring_modRing_ne k j (cutRing s x.age) s hj

end

theorem exec_hostringAgeExpiry (k : BitVec 4) (s : State) (hOn : s.dev.state ≠ .off) :
    exec (.hostringAgeExpiry k) s = .next (ageRing k.toNat s) := by
  rw [exec, execHostringAgeExpiry, Proofs.whenOn_of_on _ s hOn]

/-! Discards leave what a quad sent last (R209, R213). -/

@[simp] theorem egress_discard (reason : Nat) (r : Rec) (k : Nat) (s : State) :
    egress (Machine.discard reason r s) k = egress s k := by
  unfold Machine.discard
  dsimp only
  split <;> rfl

@[simp] theorem egress_count (c : Ctr) (i k : Nat) (s : State) : egress (count c i s) k = egress s k := rfl

@[simp] theorem sent_discardQuad (k reason : Nat) (r : Rec) (s : State) :
    (egress (discardQuad k reason r s) k).sent = (egress s k).sent := by
  rw [discardQuad, egress_discard, egress_modEgress]

@[simp] theorem sent_popQuad (k : Nat) (s : State) : (egress (popQuad k s) k).sent = (egress s k).sent := by
  rw [popQuad, egress_modEgress]

@[simp] theorem sent_drainDown (k : Nat) (s : State) : (egress (drainDown k s) k).sent = (egress s k).sent := by
  unfold drainDown
  split
  · rfl
  · refine List.foldlRecOn (motive := fun t : State => (egress t k).sent = (egress s k).sent) _ _ ?_ (fun t ht x _ => ?_)
    · rw [egress_modEgress]
    · rw [sent_discardQuad, egress_count, ht]

/-! A datagram that leaves (R203, R204, R208). -/

theorem ethSend_touches (k : Nat) (frame : List Byte) (s : State) : ∃ x, ethSend k frame s = { s with lanes := x } := by
  refine List.foldlRecOn (motive := fun t : State => ∃ x, t = { s with lanes := x }) _ _ ⟨_, rfl⟩ (fun t ht j _ => ?_)
  obtain ⟨x, rfl⟩ := ht
  exact ⟨_, rfl⟩

/-- What a quad keeps and sends after a datagram of its head record. -/
def afterDatagram (d : Datagram) (s : State) (k : Nat) : EgressQuad :=
  let e := egress s k
  { e with
    bucket := if (rateCap s k).isSome then bucketNow s k - d.cost else 65536, filled := s.time.tb2, sent := some d
    queue := match e.queue with
      | (r, entry, i) :: t => if d.last then t else (r, entry, i + 1) :: t
      | [] => [] }

theorem egress_sendDatagram (k : Nat) (d : Datagram) (s : State) :
    egress (sendDatagram k d s) k = afterDatagram d s k := by
  obtain ⟨x, e⟩ := ethSend_touches k d.frame s
  rw [sendDatagram, e]
  exact egress_modEgress ..

theorem egress_sendDatagram_ne (k j : Nat) (d : Datagram) (s : State) (h : j ≠ k) :
    egress (sendDatagram k d s) j = egress s j := by
  obtain ⟨x, e⟩ := ethSend_touches k d.frame s
  rw [sendDatagram, e]
  exact egress_modEgress_ne _ _ _ _ h

/-! DATAGRAM_TRANSMIT (R205, R207 to R209). -/

/-- The head record of a quad is discarded: the allow-list does not hold its destination (R205). -/
def denyHead (k : Nat) (r : Rec) (s : State) : State :=
  popQuad k (discardQuad k 2 r (count .denied k (modEgress k (fun e => { e with sticky := e.sticky ||| 0x20 }) s)))

@[simp] theorem sent_denyHead (k : Nat) (r : Rec) (s : State) : (egress (denyHead k r s) k).sent = (egress s k).sent := by
  rw [denyHead, sent_popQuad, sent_discardQuad, egress_count, egress_modEgress]

/-- Only a record that waits has a next datagram. -/
theorem queue_of_nextDatagram (k : Nat) (s : State) (x : Datagram × Bool) (h : nextDatagram s k = some x) :
    ∃ r entry n rest, (egress s k).queue = (r, entry, n) :: rest := by
  unfold nextDatagram at h
  split at h
  next hq => exact ⟨_, _, _, _, hq⟩
  next => cases h

section
variable (k : BitVec 5) (s : State) (hOn : s.dev.state ≠ .off) (u : State) (hu : drainDown k.toNat (ageQuad k.toNat s) = u)
include hOn hu

theorem exec_datagramTransmit_none (h : nextDatagram u k.toNat = none) : exec (.datagramTransmit k) s = .next u := by
  simp only [exec, execDatagramTransmit, Proofs.whenOn_of_on _ s hOn, hu, h]

theorem exec_datagramTransmit_sends (d : Datagram) (h : nextDatagram u k.toNat = some (d, true))
    (hroom : d.cost ≤ bucketNow u k.toNat) : exec (.datagramTransmit k) s = .next (sendDatagram k.toNat d u) := by
  obtain ⟨r, entry, n, rest, hq⟩ := queue_of_nextDatagram _ _ _ h
  simp only [exec, execDatagramTransmit, Proofs.whenOn_of_on _ s hOn, hu, h, hq, Bool.not_true, Bool.false_eq_true, if_false,
    if_neg (Nat.not_lt.mpr hroom)]

theorem exec_datagramTransmit_capped (d : Datagram) (h : nextDatagram u k.toNat = some (d, true))
    (hcap : bucketNow u k.toNat < d.cost) : exec (.datagramTransmit k) s = .next u := by
  obtain ⟨r, entry, n, rest, hq⟩ := queue_of_nextDatagram _ _ _ h
  simp only [exec, execDatagramTransmit, Proofs.whenOn_of_on _ s hOn, hu, h, hq, Bool.not_true, Bool.false_eq_true, if_false,
    if_pos hcap]

theorem exec_datagramTransmit_denied (d : Datagram) (h : nextDatagram u k.toNat = some (d, false)) (r : Rec) (entry : Flow)
    (n : Nat) (rest : List (Rec × Flow × Nat)) (hq : (egress u k.toNat).queue = (r, entry, n) :: rest) :
    exec (.datagramTransmit k) s = .next (denyHead k.toNat r u) := by
  simp only [exec, execDatagramTransmit, Proofs.whenOn_of_on _ s hOn, hu, h, hq, Bool.not_false, if_true, denyHead]

/-- What DATAGRAM_TRANSMIT can do. -/
theorem exec_datagramTransmit_cases : exec (.datagramTransmit k) s = .next u ∨
    (∃ d, nextDatagram u k.toNat = some (d, true) ∧ d.cost ≤ bucketNow u k.toNat ∧
      exec (.datagramTransmit k) s = .next (sendDatagram k.toNat d u)) ∨
    ∃ r, exec (.datagramTransmit k) s = .next (denyHead k.toNat r u) := by
  match h : nextDatagram u k.toNat with
  | none => exact .inl (exec_datagramTransmit_none k s hOn u hu h)
  | some (d, true) =>
    obtain hcap | hroom := Nat.lt_or_ge (bucketNow u k.toNat) d.cost
    · exact .inl (exec_datagramTransmit_capped k s hOn u hu d h hcap)
    · exact .inr (.inl ⟨d, rfl, hroom, exec_datagramTransmit_sends k s hOn u hu d h hroom⟩)
  | some (d, false) =>
    obtain ⟨r, entry, n, rest, hq⟩ := queue_of_nextDatagram _ _ _ h
    exact .inr (.inr ⟨r, exec_datagramTransmit_denied k s hOn u hu d h r entry n rest hq⟩)

/-- A datagram that the command has sent is in the allow-list and within the bucket. -/
theorem exec_datagramTransmit_sent (t : State) (d : Datagram) (ht : exec (.datagramTransmit k) s = .next t)
    (hsent : (egress t k.toNat).sent = some d) (hnew : (egress s k.toNat).sent ≠ some d) :
    nextDatagram u k.toNat = some (d, true) ∧ d.cost ≤ bucketNow u k.toNat := by
  have hkept : (egress u k.toNat).sent ≠ some d := by rwa [← hu, sent_drainDown, sent_ageQuad]
  obtain h | ⟨x, hnext, hroom, h⟩ | ⟨r, h⟩ := exec_datagramTransmit_cases k s hOn u hu <;>
    obtain rfl := Host.Outcome.next.inj (h.symm.trans ht)
  · exact absurd hsent hkept
  · rw [egress_sendDatagram] at hsent
    obtain rfl : x = d := Option.some.inj hsent
    exact ⟨hnext, hroom⟩
  · rw [sent_denyHead] at hsent
    exact absurd hsent hkept

end

theorem exec_pauseFrameReceive (k : BitVec 5) (s : State) (hOn : s.dev.state ≠ .off) :
    exec (.pauseFrameReceive k) s =
      .next (count .pauseIgnored k.toNat (modEgress k.toNat (fun e => { e with sticky := e.sticky ||| 0x80 }) s)) := by
  rw [exec, execPauseFrameReceive, Proofs.whenOn_of_on _ s hOn]

/-! HOST_RING_WRITE (R211 to R213). -/

/-- The free bytes that a ring offers: none where the host cannot be reached (R345). -/
def ringOffers (k : Nat) (x : HostRing) (s : State) : Nat := if hostReachable s then ringFree (ringRead s k) x else 0

/-- What becomes of a head record that has left its ring's queue. -/
def ringHead (k : Nat) (x : HostRing) (r : Rec) (s : State) : State :=
  if x.suspended || decide (ringOffers k x s < 64) then Machine.discard 3 r s
  else if (pad64 r.bytes).length ≤ ringOffers k x s then ringRecord k x r s
  else ringRecord k x (gapOf 0x11 r) (count .gaps (r.ostream * 64 + 0x11) s)

section
variable (k : Nat) (x : HostRing) (r : Rec) (s : State)

theorem ringHead_discards (h : x.suspended = true ∨ ringOffers k x s < 64) : ringHead k x r s = Machine.discard 3 r s := by
  rw [ringHead, if_pos (by simpa using h)]

variable (hactive : x.suspended = false) (hfree : 64 ≤ ringOffers k x s)
include hactive hfree

theorem ringHead_fits (hfits : (pad64 r.bytes).length ≤ ringOffers k x s) : ringHead k x r s = ringRecord k x r s := by
  rw [ringHead, if_neg (by simpa [hactive] using hfree), if_pos hfits]

theorem ringHead_full (hlong : ringOffers k x s < (pad64 r.bytes).length) :
    ringHead k x r s = ringRecord k x (gapOf 0x11 r) (count .gaps (r.ostream * 64 + 0x11) s) := by
  rw [ringHead, if_neg (by simpa [hactive] using hfree), if_neg (Nat.not_le.mpr hlong)]

end

section
variable (k : BitVec 4) (s : State) (hOn : s.dev.state ≠ .off) (u : State) (hu : ageRing k.toNat s = u)
include hOn hu

/-- A ring that does not exist, has no record or waits for its turn. -/
theorem exec_hostRingWrite_waits (h : ∀ x r rest, ring u k.toNat = some x → x.queue = r :: rest → ringTurn u x r = false) :
    exec (.hostRingWrite k) s = .next u := by
  simp only [exec, execHostRingWrite, Proofs.whenOn_of_on _ s hOn, hu]
  match hx : ring u k.toNat with
  | none => rfl
  | some x =>
    match hq : x.queue with
    | [] => simp only [hq]
    | r :: rest => simp only [hq, h x r rest hx hq, Bool.not_false, if_true]

theorem exec_hostRingWrite_turn (x : HostRing) (r : Rec) (rest : List Rec) (hx : ring u k.toNat = some x)
    (hq : x.queue = r :: rest) (hturn : ringTurn u x r = true) : exec (.hostRingWrite k) s =
      .next (ringHead k.toNat x r (modRing k.toNat (fun x => { x with queue := rest }) u)) := by
  simp only [exec, execHostRingWrite, Proofs.whenOn_of_on _ s hOn, hu, hx, hq, hturn, Bool.not_true, Bool.false_eq_true, if_false]
  rfl

end

/-! What decides whether a request to the host is issued (R345, R362, R383), and its port keeps it. -/

theorem targetDown_host (s : State) : targetDown s 6 = (port s 6).down := by
  simp [targetDown]

/-- What a request to the host is checked against. -/
def hostPath (s : State) : TetherSt × Bool × Bool := (s.tether, hostReachable s, (port s 6).down)

theorem hostStop_congr {s t : State} (h : hostPath t = hostPath s) (write : Bool) (a n : Nat) :
    hostStop t write a n = hostStop s write a n := by
  simp only [hostPath, Prod.mk.injEq] at h
  obtain ⟨htether, hreach, hdown⟩ := h
  have hrange : hostRangeOk t write a n = hostRangeOk s write a n := by
    unfold hostRangeOk window
    rw [htether]
  rw [hostStop, hostStop, hrange, hreach, targetDown_host, targetDown_host, hdown]

@[simp] theorem hostPath_countN (c : Ctr) (i n : Nat) (s : State) : hostPath (countN c i n s) = hostPath s := rfl

theorem hostPath_modPort (f : Port → Port) (hf : ∀ x, (f x).down = x.down) (s : State) :
    hostPath (modPort 6 f s) = hostPath s := by
  have hdown : (port (modPort 6 f s) 6).down = (port s 6).down := by rw [port_modPort, hf]
  rw [hostPath, hdown]
  rfl

@[simp] theorem portStore_host (r : PortReq) (s : State) : portStore 6 r s = s := by
  simp [portStore]

@[simp] theorem hostPath_portGrant (g : Nat) (r : PortReq) (s : State) : hostPath (portGrant 6 g r s) = hostPath s := by
  rw [portGrant, hostPath_countN, count, hostPath_countN]
  exact hostPath_modPort _ (by intro x; rfl) s

@[simp] theorem hostPath_portRunWith (now n : Nat) (s : State) :
    hostPath (portRunWith (portStore 6) now 6 n s) = hostPath s := by
  induction n generalizing s with
  | zero => rfl
  | succ n ih =>
    unfold portRunWith
    split
    · split
      · rw [ih, portStore_host, hostPath_portGrant]
      · rfl
    · rfl

@[simp] theorem hostPath_portSettle (s : State) : hostPath (portSettle 6 s) = hostPath s := by
  unfold portSettle
  split
  · rw [portFail, hostPath_countN]
    exact hostPath_modPort _ (by intro x; rfl) s
  · rw [hostPath_portRunWith]

@[simp] theorem hostPath_portUntil (m n : Nat) (s : State) : hostPath (portUntil m 6 n s) = hostPath s := by
  induction n generalizing s with
  | zero => rfl
  | succ n ih =>
    unfold portUntil
    split
    · rfl
    · split
      · rw [ih, portStore_host, hostPath_portGrant]
      · rfl

@[simp] theorem hostPath_portJoin (r : PortReq) (s : State) : hostPath (portJoin 6 r s) = hostPath s :=
  hostPath_modPort _ (by intro x; rfl) s

@[simp] theorem hostPath_portServe (w m a n : Nat) (s : State) : hostPath (portServe w m 6 a n s) = hostPath s := by
  refine List.foldlRecOn (motive := fun t => hostPath t = hostPath s) _ _ rfl (fun t ht j _ => ?_)
  refine (hostPath_modPort _ (by intro x; rfl) _).trans ?_
  rw [hostPath_portUntil, hostPath_portJoin, hostPath_portUntil, hostPath_portSettle, ht]

/-! A ring's write (R211, R362; log 46). -/

theorem pad64_length (l : List Byte) : (pad64 l).length = ceilDiv l.length 64 * 64 := by
  rw [pad64, List.length_append, List.length_replicate]
  unfold ceilDiv
  omega

/-- A range within one that a window permits is permitted. -/
theorem hostRangeOk_of_within {s : State} {write : Bool} {a n a' n' : Nat} (h : hostRangeOk s write a n = true) (ha : a ≤ a')
    (hn : a' + n' ≤ a + n) : hostRangeOk s write a' n' = true := by
  simp only [hostRangeOk, List.any_eq_true, Bool.and_eq_true, decide_eq_true_eq] at h ⊢
  obtain ⟨w, hw, ⟨hdir, hbase⟩, hlimit⟩ := h
  exact ⟨w, hw, ⟨hdir, hbase.trans ha⟩, hn.trans hlimit⟩

theorem pagesOf_nil (n a : Nat) : pagesOf n a [] = [] := by
  cases n <;> rfl

/-- Every page's piece of a run of bytes lies within the run. -/
theorem pagesOf_within (n a : Nat) (l : List Byte) : ∀ e ∈ pagesOf n a l, a ≤ e.1 ∧ e.1 + e.2.length ≤ a + l.length := by
  induction n generalizing a l with
  | zero => simp [pagesOf]
  | succ n ih =>
    intro e he
    unfold pagesOf at he
    split at he
    · cases he
    · obtain rfl | he := List.mem_cons.mp he
      · exact ⟨Nat.le_refl _, Nat.add_le_add_left (List.length_take_le' ..) _⟩
      · obtain hend | hmore := Nat.le_total l.length (4096 - a % 4096)
        · rw [List.drop_eq_nil_of_le hend, pagesOf_nil] at he
          cases he
        · obtain ⟨hfrom, hto⟩ := ih _ _ e he
          rw [List.length_drop] at hto
          omega

/-- Both runs of bytes at a ring's index lie within the ring. -/
theorem ringRuns_within (x : HostRing) (l : List Byte) (h : l.length ≤ 2 ^ x.log2) :
    ∀ e ∈ ringRuns x l, x.base ≤ e.1 ∧ e.1 + e.2.length ≤ x.base + 2 ^ x.log2 := by
  have hindex : x.write % 2 ^ x.log2 < 2 ^ x.log2 := Nat.mod_lt _ (Nat.two_pow_pos _)
  simp only [ringRuns, List.forall_mem_cons, List.length_take, List.length_drop]
  refine ⟨by omega, by omega, by simp⟩

theorem putPieces_whole (ch : Nat) (l : List (Nat × List Byte)) (s : State)
    (h : ∀ e ∈ l, hostStop s true e.1 e.2.length = none) : (putPieces ch l s).1 = 0 := by
  induction l generalizing s with
  | nil => rfl
  | cons e l ih =>
    obtain ⟨hfirst, hrest⟩ := List.forall_mem_cons.mp h
    simp only [putPieces, hfirst]
    refine ih _ (fun x hx => (hostStop_congr ?_ true x.1 x.2.length).trans (hrest x hx))
    rw [hostPath_countN, hostPath_portServe]
    rfl

/-- A write of runs within a range that a window permits ends whole where the host can be reached and its port is not down. -/
theorem chanWrite_whole (ch : Nat) (l : List (Nat × List Byte)) (s : State) (a n : Nat) (hrange : hostRangeOk s true a n = true)
    (hreach : hostReachable s = true) (hport : targetDown s 6 = false)
    (hl : ∀ e ∈ l, a ≤ e.1 ∧ e.1 + e.2.length ≤ a + n) : (chanWrite ch l s).1 = 0 := by
  refine putPieces_whole ch _ s (fun e he => ?_)
  obtain ⟨x, hx, he⟩ := List.mem_flatMap.mp he
  obtain ⟨hfrom, hto⟩ := hl x hx
  obtain ⟨hfrom', hto'⟩ := pagesOf_within _ _ _ e he
  have hok := hostRangeOk_of_within (n' := e.2.length) hrange (hfrom.trans hfrom') (hto'.trans hto)
  simp only [hostStop, hok, hreach, hport, Bool.not_true, Bool.false_eq_true, if_false]

/-- What the ring's channel writes for a record: the bytes at its index, then the new index below the ring. -/
def ringPieces (x : HostRing) (r : Rec) : List (Nat × List Byte) :=
  ringRuns x (pad64 r.bytes) ++ [(x.base - 64, leBytes 8 (x.write + (pad64 r.bytes).length))]

theorem ringRecord_cut (k : Nat) (x : HostRing) (r : Rec) (s : State) (h : (chanWrite x.dma (ringPieces x r) s).1 ≠ 0) :
    ringRecord k x r s = Machine.discard 3 r (chanWrite x.dma (ringPieces x r) s).2 := if_pos h

theorem ringRecord_whole (k : Nat) (x : HostRing) (r : Rec) (s : State) (h : (chanWrite x.dma (ringPieces x r) s).1 = 0) :
    ringRecord k x r s = interrupt (16 + k) (modRing k (fun z => { z with write := x.write + (pad64 r.bytes).length })
      (chanWrite x.dma (ringPieces x r) s).2) := if_neg (not_not.mpr h)

/-- A ring and its index that one window covers: a record of the ring's length at most is written whole. -/
theorem chanWrite_ringPieces_whole (x : HostRing) (r : Rec) (s : State) (hbase : 64 ≤ x.base)
    (hrange : hostRangeOk s true (x.base - 64) (2 ^ x.log2 + 64) = true) (hreach : hostReachable s = true)
    (hport : targetDown s 6 = false) (hlen : (pad64 r.bytes).length ≤ 2 ^ x.log2) :
    (chanWrite x.dma (ringPieces x r) s).1 = 0 := by
  refine chanWrite_whole x.dma _ s _ _ hrange hreach hport (fun e he => ?_)
  obtain he | he := List.mem_append.mp he
  · obtain ⟨hfrom, hto⟩ := ringRuns_within x _ hlen e he
    omega
  · obtain rfl := List.mem_singleton.mp he
    rw [leBytes_length]
    omega

end Sys2Proof.Laws
end

section
/-! Records that leave (spec/09_output_records.md R203, R205, R207 to R209, R211 to R213). -/

namespace Sys2Proof.Proofs
open Sys2Proof Sys2Proof.Machine Sys2Proof.Laws

/-- Settles O34: each command by the equation of its branch, ageing by the two cases of `ageQuad` and `ageRing`, and a write that ends
whole by `chanWrite_ringPieces_whole`. -/
theorem outputLeavesInOrderAndWithinItsLimits : Obligations.OutputLeavesInOrderAndWithinItsLimits := by
  intro s hOn
  refine ⟨fun k => ?quadAges, fun k h => ?noRing, fun k x h => ?ringAges, fun k => ?transmit, fun k d => ?sent,
    fun k => exec_pauseFrameReceive k s hOn, fun k => ?ringWrites, fun k x r => ?record⟩
  case quadAges =>
    have hk : k.toNat < 1048576 := by omega
    exact ⟨ageQuad k.toNat s, exec_egressAgeExpiry k s hOn, ageQuad_touches k.toNat s, queue_ageQuad k.toNat s,
      egress_ageQuad_ne k.toNat s, counter_ageQuad k.toNat s hk⟩
  case noRing => rw [exec_hostringAgeExpiry k s hOn, ageRing_none k.toNat s h]
  case ringAges =>
    exact ⟨ageRing k.toNat s, exec_hostringAgeExpiry k s hOn, ageRing_touches k.toNat s x h, ring_ageRing k.toNat s x h,
      ring_ageRing_ne k.toNat s x h⟩
  case transmit =>
    exact ⟨exec_datagramTransmit_none k s hOn _ rfl, exec_datagramTransmit_sends k s hOn _ rfl,
      exec_datagramTransmit_capped k s hOn _ rfl,
      fun d r entry n rest h hq => exec_datagramTransmit_denied k s hOn _ rfl d h r entry n rest hq,
      exec_datagramTransmit_sent k s hOn _ rfl⟩
  case sent =>
    refine ⟨?_, ?_, ?_, fun j hj => egress_sendDatagram_ne k j d s hj⟩ <;> rw [egress_sendDatagram] <;> rfl
  case ringWrites =>
    refine ⟨exec_hostRingWrite_waits k s hOn _ rfl, fun x r rest hx hq hturn => ?_⟩
    rw [exec_hostRingWrite_turn k s hOn _ rfl x r rest hx hq hturn]
    exact ⟨fun h => congrArg _ (ringHead_discards k.toNat x r _ h),
      fun hactive hfree hfits => congrArg _ (ringHead_fits k.toNat x r _ hactive hfree hfits),
      fun hactive hfree hlong => congrArg _ (ringHead_full k.toNat x r _ hactive hfree hlong)⟩
  case record =>
    have hpad : 64 ∣ (pad64 r.bytes).length := pad64_length r.bytes ▸ Nat.dvd_mul_left ..
    exact ⟨hpad, ringRecord_cut k x r s, ringRecord_whole k x r s, chanWrite_ringPieces_whole x r s⟩

end Sys2Proof.Proofs
end

section
/-! SUPPORT. The life of a Kenra request: the checks of R367 in their order, and what an active request does. -/

namespace Sys2Proof.Laws
open Sys2Proof.Machine

/-! The checks of R367, each reached where the ones before it pass. -/

section Checks
variable (c : Instr) (k : Spec) (q : Request) (s : State)

theorem earlyCheck_header (h : headerBad q = true) : earlyCheck k q s = some (.malformed, 0) := if_pos h

theorem earlyCheck_layout (o : Nat) (hHeader : headerBad q = false) (hLayout : k.layout q.arg = some o) :
    earlyCheck k q s = some (.malformed, o) := by simp [earlyCheck, hHeader, hLayout]

theorem earlyCheck_state (hHeader : headerBad q = false) (hLayout : k.layout q.arg = none) :
    earlyCheck k q s = if stateCheck k s q.arg then none else some (.state, 0) := by simp [earlyCheck, hHeader, hLayout]

theorem checkRequest_early (x : Status × Nat) (h : earlyCheck k q s = some x) : checkRequest c k q s = some x := by
  simp only [checkRequest, h]

theorem checkRequest_txn (st : Status) (hEarly : earlyCheck k q s = none) (hTxn : txnCheck k s q = some st) :
    checkRequest c k q s = some (st, 0) := by simp only [checkRequest, hEarly, hTxn]

theorem checkRequest_late (hEarly : earlyCheck k q s = none) (hTxn : txnCheck k s q = none) :
    checkRequest c k q s = lateCheck c k q s := by simp only [checkRequest, hEarly, hTxn]

/-- The command would be staged and take the open transaction past 1 MiB (R237). -/
def overfillsTxn : Prop := staged k s q = true ∧ 2 ^ 20 < listBytes (keptStaged k c s) + k.bytes q.arg

/-- The command is to be staged itself; a load is begun at once (R237). -/
def isStagedSetting : Prop := staged k s q = true ∧ k.load = false

theorem stagedTest_of_begun (h : ¬isStagedSetting k q s) : ¬(staged k s q && !k.load) = true := by
  rwa [Bool.and_eq_true, Bool.not_eq_true']

theorem lateCheck_overfills (h : overfillsTxn c k q s) : lateCheck c k q s = some (.txnFull, 0) := by
  obtain ⟨hStaged, hFull⟩ := h
  rw [lateCheck, if_pos]
  simp only [hStaged, hFull, decide_true, Bool.and_self]

variable (hFits : ¬overfillsTxn c k q s)
include hFits

theorem fullTest_of_fits :
    ¬(staged k s q && decide (2 ^ 20 < listBytes (keptStaged k c s) + k.bytes q.arg)) = true := by
  rwa [Bool.and_eq_true, decide_eq_true_eq]

theorem lateCheck_range (o : Nat) (hRange : k.range s q.arg = some o) : lateCheck c k q s = some (.range, o) := by
  rw [lateCheck, if_neg (fullTest_of_fits c k q s hFits)]
  simp only [hRange]

variable (hRange : k.range s q.arg = none)
include hRange

theorem lateCheck_stagedSetting (h : isStagedSetting k q s) : lateCheck c k q s = none := by
  obtain ⟨hStaged, hLoad⟩ := h
  rw [lateCheck, if_neg (fullTest_of_fits c k q s hFits)]
  simp only [hRange, hStaged, hLoad, Bool.not_false, Bool.and_self, if_true]

variable (hBegun : ¬isStagedSetting k q s)
include hBegun

theorem lateCheck_resource (x : Status × Nat) (hResource : k.resource s q = some x) : lateCheck c k q s = some x := by
  rw [lateCheck, if_neg (fullTest_of_fits c k q s hFits)]
  simp only [hRange, if_neg (stagedTest_of_begun k q s hBegun), hResource]

theorem lateCheck_owed (hResource : k.resource s q = none) :
    lateCheck c k q s = if k.event && owedFull s then some (.busy, 0) else none := by
  rw [lateCheck, if_neg (fullTest_of_fits c k q s hFits)]
  simp only [hRange, if_neg (stagedTest_of_begun k q s hBegun), hResource]

end Checks

/-! What a Kenra command does (R351, R367). -/

theorem whenActive_of_active (c : Instr) (f : State → State) (s : State) (hOn : s.dev.state ≠ .off) (h : isActive c s = true) :
    whenActive c f s = .next (f s) := by
  rw [whenActive, Proofs.whenOn_of_on _ s hOn, if_pos h]

/-- Every row of the tables but the two whose BOOT follows the response is `kenra` of its row (Tables 16.6 to 16.11). -/
theorem exec_kenra (c : Instr) (k : Spec) (q : Request) (s : State) (h : kenraOf c = some (k, q))
    (hRestart : ∀ r, c ≠ .sysRestart r) (hAbort : ∀ r, c ≠ .fwUpdateAbort r) : exec c s = kenra c k q s := by
  cases c with
  | sysRestart r => exact absurd rfl (hRestart r)
  | fwUpdateAbort r => exact absurd rfl (hAbort r)
  | _ => cases h <;> rfl

theorem exec_kenra_active (c : Instr) (k : Spec) (q : Request) (s : State) (h : kenraOf c = some (k, q))
    (hRestart : ∀ r, c ≠ .sysRestart r) (hAbort : ∀ r, c ≠ .fwUpdateAbort r) (hOn : s.dev.state ≠ .off)
    (hActive : isActive c s = true) : exec c s = .next (kenraStep c k q s) := by
  rw [exec_kenra c k q s h hRestart hAbort, kenra, whenActive_of_active c _ s hOn hActive]

/-- SYS.RESTART and FW.UPDATE.ABORT enter BOOT only where the checks pass. -/
theorem bootAfter_refused (cause : Nat) (c : Instr) (k : Spec) (q : Request) (s : State) (x : Status × Nat)
    (hOn : s.dev.state ≠ .off) (hActive : isActive c s = true) (h : checkRequest c k q (touchTxn k q s) = some x) :
    bootAfter cause c k q s = .next (kenraStep c k q s) := by
  rw [bootAfter, whenActive_of_active c _ s hOn hActive]
  simp only [h, Option.isNone_some, Bool.false_eq_true, if_false]

/-- An active request that fails a check does what `kenraStep` answers, whatever its row. -/
theorem exec_refused (c : Instr) (k : Spec) (q : Request) (s : State) (x : Status × Nat) (h : kenraOf c = some (k, q))
    (hOn : s.dev.state ≠ .off) (hActive : isActive c s = true) (hCheck : checkRequest c k q (touchTxn k q s) = some x) :
    exec c s = .next (kenraStep c k q s) := by
  by_cases hRestart : ∃ r, c = .sysRestart r
  · obtain ⟨r, rfl⟩ := hRestart
    cases h
    exact bootAfter_refused 10 _ _ _ s x hOn hActive hCheck
  by_cases hAbort : ∃ r, c = .fwUpdateAbort r
  · obtain ⟨r, rfl⟩ := hAbort
    cases h
    exact bootAfter_refused 9 _ _ _ s x hOn hActive hCheck
  · exact exec_kenra_active c k q s h (not_exists.mp hRestart) (not_exists.mp hAbort) hOn hActive

theorem kenraStep_refused (c : Instr) (k : Spec) (q : Request) (s : State) (st : Status) (d : Nat) (hSample : s.host.sample = none)
    (h : checkRequest c k q (touchTxn k q s) = some (st, d)) :
    kenraStep c k q s = respond k.opcode q st d 0 [] (touchTxn k q s) := by
  have hSample : (touchTxn k q s).host.sample = none := hSample
  simp only [kenraStep, hSample, h]

theorem kenraStep_staged (c : Instr) (k : Spec) (q : Request) (s : State) (hSample : s.host.sample = none)
    (h : checkRequest c k q (touchTxn k q s) = none) (hSetting : isStagedSetting k q (touchTxn k q s)) :
    kenraStep c k q s = respond k.opcode q .staged 0 q.txnId.toNat [] (stage k c q.arg (touchTxn k q s)) := by
  obtain ⟨hStaged, hLoad⟩ := hSetting
  have hSample : (touchTxn k q s).host.sample = none := hSample
  simp only [kenraStep, hSample, h, hStaged, hLoad, Bool.not_false, Bool.and_self, if_true]

end Sys2Proof.Laws
end

section
/-! Checks and staging of Kenra commands (spec/16_kenra_commands.md R367, spec/10_frame_schedule.md R237). -/

namespace Sys2Proof.Proofs
open Sys2Proof Sys2Proof.Machine Sys2Proof.Laws

/-- Settles O5: a refused command is one `respond` by `exec_refused` and `kenraStep_refused`; each check stands where those before
it pass, by the equations of `checkRequest` and `lateCheck`. -/
theorem kenraRefusalAnswersFirstCheck : Obligations.KenraRefusalAnswersFirstCheck := by
  refine ⟨?answer, ?order, ?late⟩
  case answer =>
    intro c k q s st d h hOn hActive hSample hCheck
    rw [exec_refused c k q s _ h hOn hActive hCheck, kenraStep_refused c k q s st d hSample hCheck]
  case order =>
    intro c k q s
    refine ⟨fun h => checkRequest_early c k q s _ (earlyCheck_header k q s h),
      fun o hHeader hLayout => checkRequest_early c k q s _ (earlyCheck_layout k q s o hHeader hLayout),
      fun hHeader hLayout hState => checkRequest_early c k q s _ ?_,
      fun st hHeader hLayout hState hTxn => checkRequest_txn c k q s st ?_ hTxn,
      fun hHeader hLayout hState hTxn => checkRequest_late c k q s ?_ hTxn⟩ <;>
    simp [earlyCheck_state k q s hHeader hLayout, hState]
  case late =>
    intro c k q s
    refine ⟨lateCheck_overfills c k q s, fun o hFits => lateCheck_range c k q s hFits o, lateCheck_stagedSetting c k q s,
      fun x hFits hBegun hRange => lateCheck_resource c k q s hFits hRange hBegun x,
      fun hFits hBegun hRange hResource hEvent hOwed => ?busy, fun hFits hBegun hRange hResource hRoom => ?room⟩
    case busy =>
      rw [lateCheck_owed c k q s hFits hRange hBegun hResource]
      simp [owedFull, hEvent, hOwed]
    case room =>
      rw [lateCheck_owed c k q s hFits hRange hBegun hResource]
      obtain hEvent | hOwed := hRoom
      · simp [hEvent]
      · simp [owedFull, hOwed]

/-- Settles O6: the active command is `kenraStep`, whose staging branch is `kenraStep_staged`. -/
theorem settingIsStagedInOpenTransaction : Obligations.SettingIsStagedInOpenTransaction := by
  intro c k q s h hRestart hAbort hOn hActive hSample hCheck hStaged hLoad
  rw [exec_kenra_active c k q s h hRestart hAbort hOn hActive, kenraStep_staged c k q s hSample hCheck ⟨hStaged, hLoad⟩]
  rfl

end Sys2Proof.Proofs
end

section
/-! SUPPORT. The exposed pipeline of a peg (spec/11_peg_engines.md R248, Table 11.3): how a result takes its place among the pending
ones, and what reading a register finds once the results due have landed. -/

namespace Sys2Proof.Laws
open Sys2Proof Sys2Proof.Machine

/-! Where a result stands among the pending ones. -/

/-- A result stands behind those due no later; in a list of rising due cycles all others are due after it. -/
theorem insertWrite_split (w : PegWrite) (l : List PegWrite) : ∃ a b, l = a ++ b ∧ insertWrite w l = a ++ w :: b ∧
    (∀ x ∈ a, x.due ≤ w.due) ∧ (l.Pairwise (fun x y => x.due ≤ y.due) → ∀ x ∈ b, w.due < x.due) := by
  induction l with
  | nil => exact ⟨[], [], rfl, rfl, by simp, by simp⟩
  | cons x t ih =>
    by_cases h : w.due < x.due
    · refine ⟨[], x :: t, rfl, by simp [insertWrite, h], by simp, fun hs y hy => ?_⟩
      obtain rfl | hy := List.mem_cons.mp hy
      · exact h
      · exact lt_of_lt_of_le h (List.rel_of_pairwise_cons hs hy)
    · obtain ⟨a, b, hl, hi, ha, hb⟩ := ih
      refine ⟨x :: a, b, by rw [hl, List.cons_append], by simp [insertWrite, h, hi], ?_, fun hs => hb hs.of_cons⟩
      exact List.forall_mem_cons.mpr ⟨Nat.le_of_not_lt h, ha⟩

theorem pairwise_insertWrite (w : PegWrite) (l : List PegWrite) (h : l.Pairwise (fun x y => x.due ≤ y.due)) :
    (insertWrite w l).Pairwise (fun x y => x.due ≤ y.due) := by
  obtain ⟨a, b, rfl, hi, ha, hb⟩ := insertWrite_split w l
  obtain ⟨hpa, hpb, hab⟩ := List.pairwise_append.mp h
  rw [hi, List.pairwise_append, List.pairwise_cons]
  refine ⟨hpa, ⟨fun x hx => (hb h x hx).le, hpb⟩, fun x hx y hy => ?_⟩
  obtain rfl | hy := List.mem_cons.mp hy
  · exact ha x hx
  · exact hab x hx y hy

theorem insertWrite_last (w : PegWrite) (l : List PegWrite) (h : ∀ x ∈ l, x.due ≤ w.due) : insertWrite w l = l ++ [w] := by
  induction l with
  | nil => rfl
  | cons x t ih =>
    obtain ⟨hx, ht⟩ := List.forall_mem_cons.mp h
    rw [insertWrite, if_neg (Nat.not_lt.mpr hx), ih ht, List.cons_append]

/-! What register `r` reads as results land. -/

/-- The value of register `r` after one more result has reached its register. -/
def registerAfter (r : BitVec 5) (v : BitVec 32) (w : PegWrite) : BitVec 32 :=
  if w.dest = .g r ∧ r ≠ 0 then BitVec.ofInt 32 w.value else v

theorem registerAfter_of_ne {r : BitVec 5} {w : PegWrite} (v : BitVec 32) (h : w.dest ≠ .g r) : registerAfter r v w = v :=
  if_neg (fun hr => h hr.1)

theorem foldl_registerAfter_of_ne {r : BitVec 5} {l : List PegWrite} (v : BitVec 32) (h : ∀ w ∈ l, w.dest ≠ .g r) :
    l.foldl (registerAfter r) v = v := by
  induction l with
  | nil => rfl
  | cons w l ih =>
    obtain ⟨hw, hl⟩ := List.forall_mem_cons.mp h
    rw [List.foldl_cons, registerAfter_of_ne v hw, ih hl]

@[simp] theorem rg_zero (g : Peg) : g.rg 0 = 0 := rfl

theorem rg_of_ne_zero (g : Peg) {r : BitVec 5} (h : r ≠ 0) : g.rg r = tabGet 0 g.g r.toNat := if_neg h

theorem land_g (g : Peg) (due : Nat) {q : BitVec 5} (x : Int) (h : q ≠ 0) :
    g.land { due := due, dest := .g q, value := x } = { g with g := tabSet 0 g.g q.toNat (BitVec.ofInt 32 x) } := if_neg h

theorem rg_land (g : Peg) (w : PegWrite) (r : BitVec 5) : (g.land w).rg r = registerAfter r (g.rg r) w := by
  by_cases hr : r = 0
  · rw [hr, registerAfter, if_neg (fun h => h.2 rfl), rg_zero, rg_zero]
  obtain ⟨due, dest, x⟩ := w
  cases dest with
  | g q =>
    by_cases hqr : q = r
    · subst hqr
      rw [land_g g due x hr, rg_of_ne_zero _ hr, tabGet_tabSet_same, registerAfter, if_pos ⟨rfl, hr⟩]
    · rw [registerAfter_of_ne _ (by simpa using hqr)]
      by_cases hq : q = 0
      · subst hq
        rfl
      · have hne : r.toNat ≠ q.toNat := fun h => hqr (BitVec.eq_of_toNat_eq h.symm)
        rw [land_g g due x hq, rg_of_ne_zero _ hr, rg_of_ne_zero _ hr, tabGet_tabSet_ne _ _ _ hne]
  | _ => rw [registerAfter_of_ne _ (by simp)]; rfl

theorem rg_foldl_land (l : List PegWrite) (g : Peg) (r : BitVec 5) :
    (l.foldl Peg.land g).rg r = l.foldl (registerAfter r) (g.rg r) := by
  induction l generalizing g with
  | nil => rfl
  | cons w l ih => rw [List.foldl_cons, List.foldl_cons, ih, rg_land]

/-- A register read at cycle `c` holds the last result due by then, or what it held. -/
theorem rg_commitTo (c : Nat) (g : Peg) (r : BitVec 5) :
    (g.commitTo c).rg r = (g.writes.filter (fun w => decide (w.due ≤ c))).foldl (registerAfter r) (g.rg r) :=
  rg_foldl_land ..

/-! One pending result more (R248). -/

section
variable (g : Peg) (d : BitVec 5) (v : BitVec 32) (n c : Nat)

/-- Where a pending result reads the same as without it: not due yet, or of another register. -/
theorem rg_commitTo_write_unseen (r : BitVec 5) (h : c < g.cyc + n ∨ r ≠ d) :
    ((g.write n (.g d) v.toNat).commitTo c).rg r = (g.commitTo c).rg r := by
  obtain ⟨a, b, hl, hi, -⟩ := insertWrite_split { due := g.cyc + n, dest := .g d, value := v.toNat } g.writes
  have hrg : (g.write n (.g d) v.toNat).rg r = g.rg r := rfl
  have hother : r ≠ d → ∀ x, registerAfter r x { due := g.cyc + n, dest := .g d, value := v.toNat } = x :=
    fun hr x => registerAfter_of_ne x (by simpa using Ne.symm hr)
  rw [rg_commitTo, rg_commitTo, hrg, Peg.write, hi, hl, List.filter_append, List.filter_append, List.foldl_append,
    List.foldl_append]
  by_cases hdue : g.cyc + n ≤ c
  · have hr := h.resolve_left (Nat.not_lt.mpr hdue)
    rw [List.filter_cons_of_pos (by simpa using hdue), List.foldl_cons, hother hr]
  · rw [List.filter_cons_of_neg (by simpa using hdue)]

/-- Once due, a result is what its register reads, where no pending result of the register is due after it. -/
theorem rg_commitTo_write_seen (hsorted : g.writes.Pairwise (fun a b => a.due ≤ b.due))
    (hlast : ∀ w ∈ g.writes, w.dest = .g d → w.due ≤ g.cyc + n) (hd : d ≠ 0) (hdue : g.cyc + n ≤ c) :
    ((g.write n (.g d) v.toNat).commitTo c).rg d = v := by
  obtain ⟨a, b, hl, hi, -, hb⟩ := insertWrite_split { due := g.cyc + n, dest := .g d, value := v.toNat } g.writes
  have hlater : ∀ w ∈ b.filter (fun w => decide (w.due ≤ c)), w.dest ≠ .g d := fun w hw hdest =>
    have hmem := (List.mem_filter.mp hw).1
    absurd (hlast w (hl ▸ List.mem_append_right a hmem) hdest) (Nat.not_le.mpr (hb hsorted w hmem))
  rw [rg_commitTo, Peg.write, hi, List.filter_append, List.foldl_append, List.filter_cons_of_pos (by simpa using hdue),
    List.foldl_cons, foldl_registerAfter_of_ne _ hlater, registerAfter, if_pos ⟨rfl, hd⟩]
  simp

end
end Sys2Proof.Laws
end

section
/-! The delay of a peg's results (spec/11_peg_engines.md R248). -/

namespace Sys2Proof.Proofs
open Sys2Proof Sys2Proof.Machine Sys2Proof.Laws

/-- Settles O36: a register reads the last result due (`rg_commitTo`), and a new result stands behind those due no later. -/
theorem pegResultsAreSeenAfterTheirDelay : Obligations.PegResultsAreSeenAfterTheirDelay := by
  intro g d v n c hsorted
  exact ⟨fun hsoon r => rg_commitTo_write_unseen g d v n c r (.inl hsoon),
    fun hlast hd hdue => rg_commitTo_write_seen g d v n c hsorted hlast hd hdue,
    fun r hr => rg_commitTo_write_unseen g d v n c r (.inr hr), rg_zero _, pairwise_insertWrite _ _ hsorted⟩

end Sys2Proof.Proofs
end

section
/-! SUPPORT. How a peg issues one instruction (spec/11_peg_engines.md R243, R249, R261): an instruction that completes, one that stops
its peg, and one that does not issue. -/

namespace Sys2Proof.Laws
open Sys2Proof Sys2Proof.Machine

/-! Results that land change registers alone. -/

@[simp] theorem land_fields (w : PegWrite) (g : Peg) :
    (g.land w).pc = g.pc ∧ (g.land w).cyc = g.cyc ∧ (g.land w).slots = g.slots ∧ (g.land w).target = g.target ∧
    (g.land w).loopSlots = g.loopSlots ∧ (g.land w).waiting = g.waiting ∧ (g.land w).start = g.start ∧
    (g.land w).stopped = g.stopped ∧ (g.land w).data = g.data := by
  obtain ⟨due, dest, x⟩ := w
  cases dest with
  | g r => unfold Peg.land; dsimp only; split <;> simp
  | _ => simp [Peg.land]

/-- What no result that lands changes, none that is due changes. -/
theorem foldl_land_keeps {α : Type} (f : Peg → α) (hland : ∀ g w, f (Peg.land g w) = f g) (l : List PegWrite) (g : Peg) :
    f (l.foldl Peg.land g) = f g := by
  induction l generalizing g with
  | nil => rfl
  | cons w l ih => rw [List.foldl_cons, ih, hland]

@[simp] theorem commitTo_fields (c : Nat) (g : Peg) :
    (g.commitTo c).pc = g.pc ∧ (g.commitTo c).cyc = g.cyc ∧ (g.commitTo c).slots = g.slots ∧
    (g.commitTo c).target = g.target ∧ (g.commitTo c).loopSlots = g.loopSlots ∧ (g.commitTo c).waiting = g.waiting ∧
    (g.commitTo c).start = g.start ∧ (g.commitTo c).stopped = g.stopped ∧ (g.commitTo c).data = g.data := by
  refine ⟨foldl_land_keeps Peg.pc ?_ _ _, foldl_land_keeps Peg.cyc ?_ _ _, foldl_land_keeps Peg.slots ?_ _ _,
    foldl_land_keeps Peg.target ?_ _ _, foldl_land_keeps Peg.loopSlots ?_ _ _, foldl_land_keeps Peg.waiting ?_ _ _,
    foldl_land_keeps Peg.start ?_ _ _, foldl_land_keeps Peg.stopped ?_ _ _, foldl_land_keeps Peg.data ?_ _ _⟩ <;> simp

@[simp] theorem drain_data (g : Peg) : g.drain.data = g.data := by simp [Peg.drain]

/-! ECC of the instruction word (R243). -/

@[simp] theorem countEcc_ok (c : Ctr) (n : Nat) (s : State) : countEcc c n .ok s = s := rfl
@[simp] theorem countEcc_corrected (c : Ctr) (n : Nat) (s : State) : countEcc c n .corrected s = count c n s := rfl
@[simp] theorem countEcc_uncorrectable (c : Ctr) (n : Nat) (s : State) : countEcc c n .uncorrectable s = s := rfl

@[simp] theorem countEcc_fields (c : Ctr) (n : Nat) (e : Ecc) (s : State) :
    (countEcc c n e s).dev = s.dev ∧ (countEcc c n e s).peg = s.peg := by
  cases e <;> exact ⟨rfl, rfl⟩

theorem peg_countEcc (c : Ctr) (n : Nat) (e : Ecc) (s : State) (k : Nat) : peg (countEcc c n e s) k = peg s k := by
  simp [peg]

/-- The state in which an instruction's body runs: a corrected instruction word has been counted. -/
def imemCounted (p : PegIssue) (s : State) : State := countEcc .imemCe p.peg.toNat p.imem s

theorem imemCounted_fields (p : PegIssue) (s : State) : (imemCounted p s).dev = s.dev ∧ (imemCounted p s).peg = s.peg :=
  countEcc_fields ..

/-! What one issue answers. -/

/-- A peg that does not issue, or a part in OFF, changes nothing. -/
theorem pegRun_idle {p : PegIssue} {s : State} (body : PegBody) (h : ¬pegIssues s p.peg) : pegRun p body s = .next s := by
  by_cases hOff : s.dev.state = .off
  · simp only [pegRun, whenOn, hOff, if_true]
  · have hidle : (pegNow s p.peg).issues = false := by simpa [pegIssues, hOff] using h
    rw [pegRun, Proofs.whenOn_of_on _ s hOff]
    exact congrArg _ (if_pos (by rw [Bool.not_eq_true']; exact hidle))

section
variable {s : State} {p : PegIssue} (h : pegIssues s p.peg)
include h

theorem pegRun_of_issues (body : PegBody) : pegRun p body s = .next (
    if p.imem = .uncorrectable then pegFaultAt p.peg.toNat (pegNow s p.peg) .imemUe ((pegNow s p.peg).pc.setWidth 32) s
    else match body (imemCounted p s) (pegNow s p.peg) with
      | .error (c, a) => pegFaultAt p.peg.toNat (pegNow s p.peg) c a (imemCounted p s)
      | .ok (g', s') => count .instructions p.peg.toNat (modPeg p.peg.toNat (fun _ =>
          { (if g'.waiting then g' else g'.advance) with cyc := (pegNow s p.peg).cyc + 1, ran := true }) s')) := by
  obtain ⟨hOn, hissues⟩ := h
  rw [pegRun, Proofs.whenOn_of_on _ s hOn]
  refine congrArg _ ((if_neg ?_).trans rfl)
  rw [Bool.not_eq_true', Bool.not_eq_false]
  exact hissues

theorem pegRun_uncorrectable (body : PegBody) (hword : p.imem = .uncorrectable) : pegRun p body s =
    .next (pegFaultAt p.peg.toNat (pegNow s p.peg) .imemUe ((pegNow s p.peg).pc.setWidth 32) s) := by
  rw [pegRun_of_issues h, if_pos hword]

theorem pegNow_waiting : (pegNow s p.peg).waiting = false := by
  obtain ⟨-, hissues⟩ := h
  simp only [Peg.issues, Bool.and_eq_true, Bool.not_eq_true'] at hissues
  obtain ⟨⟨hwaits, -⟩, -⟩ := hissues
  exact hwaits

variable (hword : p.imem ≠ .uncorrectable) {body : PegBody}
include hword

theorem pegRun_error {c : PegFault} {a : BitVec 32} (hbody : body (imemCounted p s) (pegNow s p.peg) = .error (c, a)) :
    pegRun p body s = .next (pegFaultAt p.peg.toNat (pegNow s p.peg) c a (imemCounted p s)) := by
  rw [pegRun_of_issues h, if_neg hword, hbody]

/-- A body that completes and neither waits nor touches its own peg's entry issues. -/
theorem pegRun_ok {g : Peg} {t : State} (hbody : body (imemCounted p s) (pegNow s p.peg) = .ok (g, t))
    (hwait : g.waiting = (pegNow s p.peg).waiting) (hpeg : peg t p.peg.toNat = peg (imemCounted p s) p.peg.toNat) :
    pegRun p body s = .next (issued p.peg g t) := by
  have hcyc : (pegNow s p.peg).cyc = (peg t p.peg.toNat).cyc := by
    rw [hpeg, imemCounted, peg_countEcc, pegNow]
    simp
  rw [pegRun_of_issues h, if_neg hword, hbody]
  simp only [hwait, pegNow_waiting h, hcyc, Bool.false_eq_true, if_false]
  rfl

theorem pegRun_alu (d : BitVec 5) (f : Peg → BitVec 32) : pegRun p (pegAlu d f) s =
    .next (issued p.peg ((pegNow s p.peg).writeG d (f (pegNow s p.peg))) (imemCounted p s)) :=
  pegRun_ok h hword rfl rfl rfl

variable (d : BitVec 5) {f : Peg → Option (BitVec 32)}

theorem pegRun_aluOpen_some {v : BitVec 32} (hf : f (pegNow s p.peg) = some v) : pegRun p (pegAluOpen d f) s =
    .next (issued p.peg ((pegNow s p.peg).writeG d v) (imemCounted p s)) :=
  pegRun_ok h hword (by rw [pegAluOpen, hf]) rfl rfl

theorem pegRun_aluOpen_none (hf : f (pegNow s p.peg) = none) : pegRun p (pegAluOpen d f) s =
    .next (issued p.peg ((pegNow s p.peg).writeG d (BitVec.ofNat 32 (draw (imemCounted p s)).1)) (draw (imemCounted p s)).2) :=
  pegRun_ok h hword (by rw [pegAluOpen, hf]) rfl rfl

end
end Sys2Proof.Laws
end

section
/-! The values of a peg's integer, shift and bit-field instructions (spec/11_peg_engines.md R264). -/

namespace Sys2Proof.Laws
open Sys2Proof Sys2Proof.Machine

theorem abs_eq_natAbs (x : BitVec 32) : (if x.slt 0 then -x else x) = BitVec.ofInt 32 x.toInt.natAbs := by
  by_cases h : x.toInt < 0
  · rw [if_pos (BitVec.slt_iff_toInt_lt.mpr h), Int.ofNat_natAbs_of_nonpos h.le, BitVec.ofInt_neg, BitVec.ofInt_toInt]
  · have hx : ¬x.slt 0 = true := fun hs => h (BitVec.slt_iff_toInt_lt.mp hs)
    rw [if_neg hx, Int.natAbs_of_nonneg (Int.not_lt.mp h), BitVec.ofInt_toInt]

/-- Leading zero bits of a word, as CLZ counts them. -/
def leadingZeros (x : BitVec 32) : BitVec 32 := BitVec.ofNat 32 (if x = 0 then 32 else 31 - Nat.log2 x.toNat)

theorem leadingZeros_zero : leadingZeros 0 = 32 := rfl

/-- A word's highest bit set stands at `log2`, so that the bits above it are the leading zeros. -/
theorem leadingZeros_of_ne_zero {x : BitVec 32} (h : x ≠ 0) :
    (leadingZeros x).toNat = 31 - Nat.log2 x.toNat ∧ Nat.log2 x.toNat < 32 := by
  have hx : x.toNat ≠ 0 := fun h0 => h (BitVec.eq_of_toNat_eq h0)
  have hlog : Nat.log2 x.toNat < 32 := (Nat.log2_lt hx).mpr x.isLt
  refine ⟨?_, hlog⟩
  rw [leadingZeros, if_neg h, BitVec.toNat_ofNat, Nat.mod_eq_of_lt (by omega)]

theorem leadingZeros_le (x : BitVec 32) : (leadingZeros x).toNat ≤ 32 := by
  by_cases h : x = 0
  · rw [h, leadingZeros_zero]; decide
  · have := (leadingZeros_of_ne_zero h).1
    omega

theorem getLsbD_of_leadingZeros {x : BitVec 32} {i : Nat} (hi : 32 - (leadingZeros x).toNat ≤ i) : x.getLsbD i = false := by
  by_cases h : x = 0
  · rw [h]; exact BitVec.getLsbD_zero
  · obtain ⟨hn, hlog⟩ := leadingZeros_of_ne_zero h
    exact Nat.testBit_lt_two_pow (lt_of_lt_of_le Nat.lt_log2_self (Nat.pow_le_pow_right (by decide) (by omega)))

theorem getLsbD_leadingZeros {x : BitVec 32} (h : (leadingZeros x).toNat < 32) : x.getLsbD (31 - (leadingZeros x).toNat) = true := by
  have hx : x ≠ 0 := fun h0 => absurd h (by rw [h0, leadingZeros_zero]; decide)
  obtain ⟨hn, hlog⟩ := leadingZeros_of_ne_zero hx
  rw [hn, Nat.sub_sub_self (by omega)]
  exact Nat.testBit_log2 (fun h0 => hx (BitVec.eq_of_toNat_eq h0))

/-- A mask of `n` ones. -/
theorem getLsbD_ones (n i : Nat) (h : i < 32) : (BitVec.ofNat 32 (2 ^ n - 1)).getLsbD i = decide (i < n) := by
  rw [BitVec.getLsbD_ofNat, Nat.testBit_two_pow_sub_one, decide_eq_true h, Bool.true_and]

/-- The field that EXT takes, whatever stands above it. -/
theorem getLsbD_field (x upper : BitVec 32) {lsb len i : Nat} (hi : i < len) (hlen : len < 32) :
    (((x >>> lsb) &&& BitVec.ofNat 32 (2 ^ len - 1)) ||| (upper <<< len)).getLsbD i = x.getLsbD (lsb + i) := by
  rw [BitVec.getLsbD_or, BitVec.getLsbD_and, getLsbD_ones _ _ (hi.trans hlen), BitVec.getLsbD_shiftLeft,
    BitVec.getLsbD_ushiftRight]
  simp [hi]

/-- The field that INS writes, and the bits that it leaves. -/
theorem getLsbD_insert (x y : BitVec 32) (lsb len i : Nat) (hi : i < 32) :
    ((x &&& ~~~(BitVec.ofNat 32 (2 ^ len - 1) <<< lsb)) ||| ((y <<< lsb) &&& (BitVec.ofNat 32 (2 ^ len - 1) <<< lsb))).getLsbD i =
      if lsb ≤ i ∧ i < lsb + len then y.getLsbD (i - lsb) else x.getLsbD i := by
  have hmask : (BitVec.ofNat 32 (2 ^ len - 1) <<< lsb).getLsbD i = decide (lsb ≤ i ∧ i < lsb + len) := by
    rw [BitVec.getLsbD_shiftLeft, getLsbD_ones _ _ (by omega), Bool.eq_iff_iff]
    simp only [Bool.and_eq_true, Bool.not_eq_true', decide_eq_true_eq, decide_eq_false_iff_not]
    omega
  rw [BitVec.getLsbD_or, BitVec.getLsbD_and, BitVec.getLsbD_and, BitVec.getLsbD_not, hmask, BitVec.getLsbD_shiftLeft]
  by_cases hin : lsb ≤ i ∧ i < lsb + len
  · simp [hin, hi]
  · simp [hin, hi]

end Sys2Proof.Laws
end

section
/-! The integer, shift, packed and compare instructions of a peg (spec/11_peg_engines.md R264). -/

namespace Sys2Proof.Proofs
open Sys2Proof Sys2Proof.Machine Sys2Proof.Laws

/-- Settles O35: each of these instructions is `pegRun` of an ALU body, which issues (`pegRun_alu`, `pegRun_aluOpen_some`,
`pegRun_aluOpen_none`). -/
theorem pegAluInstructionsWriteTheirResult : Obligations.PegAluInstructionsWriteTheirResult := by
  intro s p h hword
  refine ⟨fun d a b => ?integer, fun d a n k hn => ?shift, fun d a n hn => ?openShift, fun _ => rfl, fun _ => rfl,
    fun d a b => ?packed, fun d a => ⟨fun ha => ?abs, fun ha => ?absOfMin, ?clz, ?popc, ?bitrev⟩, fun d a lsb len hfits => ?field,
    fun d a lsb len hleaves => ?openField⟩
  case integer =>
    exact ⟨pegRun_alu h hword d _, pegRun_alu h hword d _, pegRun_alu h hword d _, pegRun_alu h hword d _,
      pegRun_alu h hword d _, pegRun_alu h hword d _, pegRun_alu h hword d _, pegRun_alu h hword d _, pegRun_alu h hword d _⟩
  case shift =>
    refine ⟨pegRun_aluOpen_some h hword d ?_, pegRun_aluOpen_some h hword d ?_, pegRun_aluOpen_some h hword d ?_,
      pegRun_aluOpen_some h hword d ?_⟩ <;> simp only [hn, Option.map_some]
  case openShift =>
    refine ⟨pegRun_aluOpen_none h hword d ?_, pegRun_aluOpen_none h hword d ?_, pegRun_aluOpen_none h hword d ?_,
      pegRun_aluOpen_none h hword d ?_⟩ <;> simp only [hn, Option.map_none]
  case packed => exact ⟨pegRun_alu h hword d _, pegRun_alu h hword d _, pegRun_alu h hword d _⟩
  case abs =>
    refine (pegRun_alu h hword d _).trans ?_
    simp only [ha, if_false, abs_eq_natAbs]
    rfl
  case absOfMin =>
    refine (pegRun_alu h hword d _).trans ?_
    simp only [ha, if_true]
    rfl
  case clz =>
    exact ⟨leadingZeros _, pegRun_alu h hword d _, leadingZeros_le _, fun i => getLsbD_of_leadingZeros, getLsbD_leadingZeros⟩
  case popc => exact pegRun_alu h hword d _
  case bitrev =>
    refine ⟨_, pegRun_alu h hword d _, fun i hi => ?_⟩
    rw [BitVec.getLsbD_reverse, BitVec.getMsbD_eq_getLsbD]
    simp [hi]
  case field =>
    have hwhole : ¬32 < lsb.toNat + len.toNat := Nat.not_lt.mpr hfits
    exact ⟨⟨_, pegRun_aluOpen_some h hword d (if_neg hwhole), fun i hi => getLsbD_field _ _ hi len.isLt⟩,
      ⟨_, pegRun_aluOpen_some h hword d (if_neg hwhole), fun i hi => getLsbD_insert _ _ _ _ i hi⟩⟩
  case openField =>
    exact ⟨pegRun_aluOpen_none h hword d (if_pos hleaves), pegRun_aluOpen_none h hword d (if_pos hleaves)⟩

end Sys2Proof.Proofs
end

section
/-! SUPPORT. A peg's data memory (spec/11_peg_engines.md R244, R253, R261): the access check, loads, stores and post-modify, and a peg
that stops on a fault. -/

namespace Sys2Proof.Laws
open Sys2Proof Sys2Proof.Machine

/-! A peg that stops (R261). -/

@[simp] theorem peg_pegFaultAt (n : Nat) (g : Peg) (c : PegFault) (a : BitVec 32) (s : State) :
    peg (pegFaultAt n g c a s) n = { g.drain with stopped := some (c, a), lastFault := some (c, a) } :=
  peg_modPeg n _ s

/-! The access check (R244). -/

theorem pegAccess_misaligned {n : Nat} {a : BitVec 32} (h : a.toNat % n ≠ 0) : pegAccess n a = some .misaligned := if_pos h

theorem pegAccess_range {n : Nat} {a : BitVec 32} (haligned : a.toNat % n = 0) (h : 0x40000 < a.toNat + n) :
    pegAccess n a = some .range := by
  rw [pegAccess, if_neg (not_not.mpr haligned), if_pos h]

theorem pegAccess_within {n : Nat} {a : BitVec 32} (haligned : a.toNat % n = 0) (h : a.toNat + n ≤ 0x40000) :
    pegAccess n a = none := by
  rw [pegAccess, if_neg (not_not.mpr haligned), if_neg (Nat.not_lt.mpr h)]

/-! Loads and stores of an instruction that issues (R253). -/

section
variable {s : State} {p : PegIssue} (h : pegIssues s p.peg) (hword : p.imem ≠ .uncorrectable) (d : BitVec 5) (k : BitVec 3)
  {n : Nat}
include h hword

theorem pegRun_load_stops (widen : Nat → BitVec 32) {c : PegFault}
    (haccess : pegAccess n (tabGet 0 (pegNow s p.peg).p k.toNat) = some c) : pegRun p (pegLoadBody p d k n widen) s =
      .next (pegFaultAt p.peg.toNat (pegNow s p.peg) c (tabGet 0 (pegNow s p.peg).p k.toNat) (imemCounted p s)) :=
  pegRun_error h hword (by simp only [pegLoadBody, pegLoad, haccess])

theorem pegRun_load_uncorrectable (widen : Nat → BitVec 32)
    (haccess : pegAccess n (tabGet 0 (pegNow s p.peg).p k.toNat) = none) (hdata : p.dmem = .uncorrectable) :
    pegRun p (pegLoadBody p d k n widen) s =
      .next (pegFaultAt p.peg.toNat (pegNow s p.peg) .dmemUe (tabGet 0 (pegNow s p.peg).p k.toNat) (imemCounted p s)) :=
  pegRun_error h hword (by simp only [pegLoadBody, pegLoad, haccess, hdata, if_true])

theorem pegRun_load_reads (widen : Nat → BitVec 32)
    (haccess : pegAccess n (tabGet 0 (pegNow s p.peg).p k.toNat) = none) (hdata : p.dmem ≠ .uncorrectable) :
    pegRun p (pegLoadBody p d k n widen) s = .next (issued p.peg (((pegNow s p.peg).postModify k.toNat).write 3 (.g d)
      (widen (leVal (memRead (pegNow s p.peg).data (tabGet 0 (pegNow s p.peg).p k.toNat : BitVec 32).toNat n))).toNat)
      (countEcc .dmemCe p.peg.toNat p.dmem (imemCounted p s))) :=
  pegRun_ok h hword (by simp only [pegLoadBody, pegLoad, haccess, hdata, if_false]) rfl (peg_countEcc ..)

theorem pegRun_store_stops {c : PegFault} (haccess : pegAccess n (tabGet 0 (pegNow s p.peg).p k.toNat) = some c) :
    pegRun p (pegStoreBody d k n) s =
      .next (pegFaultAt p.peg.toNat (pegNow s p.peg) c (tabGet 0 (pegNow s p.peg).p k.toNat) (imemCounted p s)) :=
  pegRun_error h hword (by simp only [pegStoreBody, haccess])

theorem pegRun_store_writes (haccess : pegAccess n (tabGet 0 (pegNow s p.peg).p k.toNat) = none) :
    pegRun p (pegStoreBody d k n) s = .next (issued p.peg { (pegNow s p.peg).postModify k.toNat with
      data := memWrite (pegNow s p.peg).data (tabGet 0 (pegNow s p.peg).p k.toNat : BitVec 32).toNat
        (leBytes n ((pegNow s p.peg).rg d).toNat) } (imemCounted p s)) :=
  pegRun_ok h hword (by simp only [pegStoreBody, haccess]) rfl rfl

end

/-! Post-modify (R253). -/

theorem postModify_pointer (g : Peg) (k : Nat) : tabGet 0 (g.postModify k).p k =
    if tabGet 0 g.cl k = 0 then tabGet 0 g.p k + tabGet 0 g.m k
    else tabGet 0 g.cb k + BitVec.ofInt 32 ((tabGet 0 g.p k + tabGet 0 g.m k - tabGet 0 g.cb k).toInt %
      ((tabGet 0 g.cl k).toNat : Int)) := tabGet_tabSet_same ..

/-- A value folded into a circular buffer of `cl` bytes stands within it, a whole number of lengths away. -/
theorem fold_within (x : Int) {cl : BitVec 32} (h : cl ≠ 0) : (BitVec.ofInt 32 (x % (cl.toNat : Int))).toNat < cl.toNat ∧
    (x - (BitVec.ofInt 32 (x % (cl.toNat : Int))).toNat) % cl.toNat = 0 := by
  have hpos : 0 < (cl.toNat : Int) := Int.natCast_pos.mpr (Nat.pos_of_ne_zero (fun h0 => h (BitVec.eq_of_toNat_eq h0)))
  have hnonneg := Int.emod_nonneg x hpos.ne'
  have hlt := Int.emod_lt_of_pos x hpos
  have hval : ((BitVec.ofInt 32 (x % (cl.toNat : Int))).toNat : Int) = x % cl.toNat := by
    rw [BitVec.toNat_ofInt, Int.emod_eq_of_lt hnonneg (hlt.trans (Int.ofNat_lt.mpr cl.isLt)), Int.toNat_of_nonneg hnonneg]
  refine ⟨Int.ofNat_lt.mp (hval.trans_lt hlt), ?_⟩
  rw [hval]
  exact Int.emod_eq_zero_of_dvd (Int.dvd_self_sub_emod)

end Sys2Proof.Laws
end

section
/-! Loads, stores and address registers of a peg (spec/11_peg_engines.md R244, R253, R254, R261). -/

namespace Sys2Proof.Proofs
open Sys2Proof Sys2Proof.Machine Sys2Proof.Laws

/-- Settles O38: a load or store is `pegRun` of its body, which stops where `pegAccess` names a fault and else issues
(`pegRun_load_reads`, `pegRun_store_writes`); the pointer follows `postModify_pointer`. -/
theorem pegLoadsAndStoresAccessOwnMemory : Obligations.PegLoadsAndStoresAccessOwnMemory := by
  refine ⟨fun s p h hword => ⟨fun d k => ?access, fun k a => ?addressRegisters⟩, fun n a => ?check, fun m a l => ?memory,
    fun g k => ?pointer⟩
  case access =>
    have hdata : ∀ e a, (peg (pegFaultAt p.peg.toNat (pegNow s p.peg) e a (imemCounted p s)) p.peg.toNat).data =
      (pegNow s p.peg).data := fun e a => by rw [peg_pegFaultAt]; exact drain_data _
    refine ⟨?ld, ?ldh, ?ldb, fun c w hc => ?store⟩
    case ld | ldh | ldb =>
      exact ⟨fun e he => ⟨pegRun_load_stops h hword d k _ he, hdata e _⟩, pegRun_load_uncorrectable h hword d k _,
        pegRun_load_reads h hword d k _⟩
    have hstore : exec c s = pegRun p (pegStoreBody d k w) s := by
      simp only [List.mem_cons, Prod.mk.injEq, List.not_mem_nil, or_false] at hc
      obtain ⟨rfl, rfl⟩ | ⟨rfl, rfl⟩ | ⟨rfl, rfl⟩ := hc <;> rfl
    exact ⟨fun e he => ⟨hstore.trans (pegRun_store_stops h hword d k he), hdata e _⟩,
      fun he => hstore.trans (pegRun_store_writes h hword d k he)⟩
  case addressRegisters =>
    exact ⟨pegRun_ok h hword rfl rfl rfl, pegRun_ok h hword rfl rfl rfl, pegRun_ok h hword rfl rfl rfl,
      pegRun_ok h hword rfl rfl rfl⟩
  case check => exact ⟨pegAccess_misaligned, pegAccess_range, pegAccess_within⟩
  case memory => exact ⟨memRead_memWrite m a l, fun x hx => memGet_memWrite_outside m a l x hx⟩
  case pointer =>
    dsimp only
    refine ⟨fun hcl => (postModify_pointer g k).trans (if_pos hcl), fun hcl => ?_⟩
    rw [postModify_pointer, if_neg hcl, BitVec.add_comm, BitVec.add_sub_cancel]
    exact fold_within _ hcl

end Sys2Proof.Proofs
end

section
/-! SUPPORT. A peg's accumulators (spec/11_peg_engines.md R250 to R252). -/

namespace Sys2Proof.Laws
open Sys2Proof Sys2Proof.Machine

/-! A sum of 40 bits (R252). -/

/-- The sum lies beyond 40-bit two's complement. -/
def leavesFortyBits (v : Int) : Bool := decide (v < -549755813888) || decide (549755813887 < v)

/-- The sum as an accumulator keeps it, saturating or wrapping. -/
def accSum (sat : Bool) (v : Int) : Int :=
  if !leavesFortyBits v then v else if sat then clampInt (-549755813888) 549755813887 v
  else signed 40 (v % 1099511627776).toNat

theorem leavesFortyBits_iff (v : Int) : leavesFortyBits v = true ↔ v < -549755813888 ∨ 549755813887 < v := by
  simp only [leavesFortyBits, Bool.or_eq_true, decide_eq_true_eq]

theorem leavesFortyBits_of_within {v : Int} (hlo : -549755813888 ≤ v) (hhi : v ≤ 549755813887) : leavesFortyBits v = false := by
  rw [← Bool.not_eq_true, leavesFortyBits_iff]
  omega

theorem accSum_within (sat : Bool) {v : Int} (hlo : -549755813888 ≤ v) (hhi : v ≤ 549755813887) : accSum sat v = v := by
  rw [accSum, leavesFortyBits_of_within hlo hhi]
  rfl

theorem accSum_limits {v : Int} (h : leavesFortyBits v = true) :
    accSum true v = if v < 0 then -549755813888 else 549755813887 := by
  rw [leavesFortyBits_iff] at h
  rw [accSum, (leavesFortyBits_iff v).mpr h]
  simp only [Bool.not_true, Bool.false_eq_true, if_false, if_true, clampInt]
  split <;> split <;> omega

theorem accSum_wraps {v : Int} (h : leavesFortyBits v = true) : accSum false v = signed 40 (v % 1099511627776).toNat := by
  rw [accSum, h]
  rfl

/-- A number modulo 2^40 as a signed value is in the range and a multiple of 2^40 away. -/
theorem signed_forty (v : Int) : -549755813888 ≤ signed 40 (v % 1099511627776).toNat ∧
    signed 40 (v % 1099511627776).toNat ≤ 549755813887 ∧
    (signed 40 (v % 1099511627776).toNat - v) % 1099511627776 = 0 := by
  have hpow : (2 ^ 40 : Nat) = 1099511627776 ∧ (2 ^ (40 - 1) : Nat) = 549755813888 := ⟨rfl, rfl⟩
  rw [signed, hpow.1, hpow.2]
  split <;> omega

theorem accSum_range (sat : Bool) (v : Int) : -549755813888 ≤ accSum sat v ∧ accSum sat v ≤ 549755813887 := by
  by_cases h : leavesFortyBits v = true
  · cases sat with
    | false => rw [accSum_wraps h]; exact ⟨(signed_forty v).1, (signed_forty v).2.1⟩
    | true => rw [accSum_limits h]; split <;> decide
  · have hin : ¬(v < -549755813888 ∨ 549755813887 < v) := fun hv => h ((leavesFortyBits_iff v).mpr hv)
    rw [accSum_within sat (by omega) (by omega)]
    omega

/-! Adding a product. -/

theorem accAdd_fields (g : Peg) (k : Nat) (x : Int) :
    (g.accAdd k x).acc = tabSet 0 g.acc k (accSum (g.has statSAT) (tabGet 0 g.acc k + x)) ∧
    (g.accAdd k x).accSeen = g.accSeen ∧
    (g.accAdd k x).stat = if leavesFortyBits (tabGet 0 g.acc k + x) then g.stat ||| statOV else g.stat := ⟨rfl, rfl, rfl⟩

@[simp] theorem accAdd_waiting (g : Peg) (k : Nat) (x : Int) : (g.accAdd k x).waiting = g.waiting := rfl

/-- QMAC: `n` times the four products of R250, each added in its accumulator. -/
def quadMac (n : Int) (a b : BitVec 5) (g : Peg) : Peg :=
  (((g.accAdd 0 (n * (hiHalf (g.rg a) * hiHalf (g.rg b)))).accAdd 1 (n * (loHalf (g.rg a) * loHalf (g.rg b)))).accAdd 2
    (n * (loHalf (g.rg a) * hiHalf (g.rg b)))).accAdd 3 (n * (hiHalf (g.rg a) * loHalf (g.rg b)))

theorem quadMac_waiting (n : Int) (a b : BitVec 5) (g : Peg) : (quadMac n a b g).waiting = g.waiting := by
  simp only [quadMac, accAdd_waiting]

/-- A load that completes leaves its peg issuing. -/
theorem pegLoad_waiting {e : Ecc} {d : BitVec 5} {k : BitVec 3} {n : Nat} {widen : Nat → BitVec 32} {g g' : Peg}
    (h : pegLoad e d k n widen g = .ok g') : g'.waiting = g.waiting := by
  unfold pegLoad at h
  dsimp only at h
  split at h
  · cases h
  · split at h <;> cases h
    rfl

/-! QMAC in its two modes (R250, R251). -/

section
variable {s : State} {p : PegIssue} (h : pegIssues s p.peg) (hword : p.imem ≠ .uncorrectable) (a b x : BitVec 5) (k : BitVec 3)

section
variable (hquad : tabGet false s.peg.scalar (p.peg.toNat / 16) = false)
include hquad

theorem pegQmacOf_quad (sub : Bool) (g : Peg) :
    pegQmacOf sub a b (imemCounted p s) p.peg.toNat g = .ok (quadMac (if sub then -1 else 1) a b g) := by
  rw [pegQmacOf, (imemCounted_fields p s).2, hquad]
  rfl

include h hword

theorem exec_pegQmac_quad : exec (.pegQmac p a b) s =
    .next (issued p.peg (quadMac 1 a b (pegNow s p.peg)) (imemCounted p s)) :=
  pegRun_ok h hword (by rw [pegQmacOf_quad a b hquad]; rfl) (quadMac_waiting ..) rfl

theorem exec_pegQmacN_quad : exec (.pegQmacN p a b) s =
    .next (issued p.peg (quadMac (-1) a b (pegNow s p.peg)) (imemCounted p s)) :=
  pegRun_ok h hword (by rw [pegQmacOf_quad a b hquad]; rfl) (quadMac_waiting ..) rfl

theorem exec_pegQmacL_loads {g : Peg} (hload : pegLoad p.dmem x k 4 (BitVec.ofNat 32) (quadMac 1 a b (pegNow s p.peg)) = .ok g) :
    exec (.pegQmacL p a b x k) s = .next (issued p.peg g (countEcc .dmemCe p.peg.toNat p.dmem (imemCounted p s))) :=
  pegRun_ok h hword (by simp only [pegQmacOf_quad a b hquad, Bool.false_eq_true, if_false, hload])
    ((pegLoad_waiting hload).trans (quadMac_waiting ..)) (peg_countEcc ..)

theorem exec_pegQmacL_stops {e : PegFault} {y : BitVec 32}
    (hload : pegLoad p.dmem x k 4 (BitVec.ofNat 32) (quadMac 1 a b (pegNow s p.peg)) = .error (e, y)) :
    exec (.pegQmacL p a b x k) s = .next (pegFaultAt p.peg.toNat (pegNow s p.peg) e y (imemCounted p s)) :=
  pegRun_error h hword (by simp only [pegQmacOf_quad a b hquad, Bool.false_eq_true, if_false, hload])

end

section
include h hword

/-- A QMAC of any form in scalar mode. -/
theorem exec_qmac_scalar (hscalar : tabGet false s.peg.scalar (p.peg.toNat / 16) = true) {c : Instr}
    (hc : c = .pegQmac p a b ∨ c = .pegQmacN p a b ∨ c = .pegQmacL p a b x k) : exec c s =
      .next (pegFaultAt p.peg.toNat (pegNow s p.peg) .illegal ((pegNow s p.peg).pc.setWidth 32) (imemCounted p s)) := by
  have hmac : ∀ sub g, pegQmacOf sub a b (imemCounted p s) p.peg.toNat g = .error (.illegal, g.pc.setWidth 32) := fun sub g => by
    rw [pegQmacOf, (imemCounted_fields p s).2, hscalar]
    rfl
  obtain rfl | rfl | rfl := hc <;> exact pegRun_error h hword (by rw [hmac])

end
end

/-! Clearing accumulators. -/

/-- ACCCLR's work on one accumulator. -/
def clearAcc (mask : BitVec 4) (g : Peg) (k : Nat) : Peg :=
  if mask.getLsbD k then Peg.write 4 (.acc k) 0 { g with acc := tabSet 0 g.acc k 0 } else g

theorem clearAcc_frame (mask : BitVec 4) (g : Peg) (k : Nat) :
    clearAcc mask g k = { g with acc := (clearAcc mask g k).acc, writes := (clearAcc mask g k).writes } := by
  unfold clearAcc
  split <;> rfl

theorem clearAcc_named {mask : BitVec 4} (g : Peg) {k : Nat} (h : mask.getLsbD k = true) :
    (clearAcc mask g k).acc = tabSet 0 g.acc k 0 := by
  rw [clearAcc, if_pos h]
  rfl

theorem clearAcc_unnamed {mask : BitVec 4} (g : Peg) {k : Nat} (h : ¬mask.getLsbD k = true) : clearAcc mask g k = g := if_neg h

theorem clearAcc_acc (mask : BitVec 4) (g : Peg) (k j : Nat) : tabGet 0 (clearAcc mask g k).acc j =
    if j = k ∧ mask.getLsbD j = true then 0 else tabGet 0 g.acc j := by
  by_cases hm : mask.getLsbD k = true
  · rw [clearAcc_named g hm]
    by_cases hjk : j = k
    · rw [hjk, tabGet_tabSet_same, if_pos ⟨rfl, hm⟩]
    · rw [tabGet_tabSet_ne _ _ _ hjk, if_neg (fun h => hjk h.1)]
  · rw [clearAcc_unnamed g hm, if_neg]
    rintro ⟨rfl, hj⟩
    exact hm hj

theorem foldl_clearAcc_frame (mask : BitVec 4) (l : List Nat) (g : Peg) : l.foldl (clearAcc mask) g =
    { g with acc := (l.foldl (clearAcc mask) g).acc, writes := (l.foldl (clearAcc mask) g).writes } := by
  induction l generalizing g with
  | nil => rfl
  | cons k l ih =>
    rw [List.foldl_cons]
    exact (ih (clearAcc mask g k)).trans (by rw [clearAcc_frame mask g k])

theorem foldl_clearAcc_acc (mask : BitVec 4) (l : List Nat) (g : Peg) (j : Nat) : tabGet 0 (l.foldl (clearAcc mask) g).acc j =
    if j ∈ l ∧ mask.getLsbD j = true then 0 else tabGet 0 g.acc j := by
  induction l generalizing g with
  | nil => simp
  | cons k l ih =>
    rw [List.foldl_cons, ih, clearAcc_acc]
    by_cases hm : mask.getLsbD j = true <;> by_cases hl : j ∈ l <;> simp [hm, hl]

end Sys2Proof.Laws
end

section
/-! The MAC and accumulator instructions of a peg (spec/11_peg_engines.md R250 to R252). -/

namespace Sys2Proof.Proofs
open Sys2Proof Sys2Proof.Machine Sys2Proof.Laws

/-- Settles O39: an accumulator holds `accSum`, and each instruction is `pegRun` of a body that adds, reads or clears. -/
theorem pegAccumulatorsHoldFortyBits : Obligations.PegAccumulatorsHoldFortyBits := by
  refine ⟨fun g k x => ?sum, fun s p h hword => ⟨fun a b => ⟨fun hquad => ?quad, fun hscalar => ?scalar, fun k => ?single⟩,
    fun d sh k => ?read, fun m => ?clear⟩⟩
  case sum =>
    obtain ⟨hacc, hseen, hstat⟩ := accAdd_fields g k x
    have hr : tabGet 0 (g.accAdd k x).acc k = accSum (g.has statSAT) (tabGet 0 g.acc k + x) := by
      rw [hacc, tabGet_tabSet_same]
    obtain ⟨hlow, hhigh⟩ := accSum_range (g.has statSAT) (tabGet 0 g.acc k + x)
    dsimp only
    rw [hr, hstat]
    refine ⟨hlow, hhigh, fun j hj => by rw [hacc, tabGet_tabSet_ne _ _ _ hj], hseen, fun hlo hhi => ?_, fun hout => ?_⟩
    · rw [leavesFortyBits_of_within hlo hhi]
      exact ⟨accSum_within _ hlo hhi, rfl⟩
    · rw [← leavesFortyBits_iff] at hout
      refine ⟨if_pos hout, fun hsat => ?_, fun hsat => by rw [hsat, accSum_limits hout]⟩
      rw [hsat, accSum_wraps hout]
      exact (signed_forty _).2.2
  case quad =>
    exact ⟨exec_pegQmac_quad h hword a b hquad, exec_pegQmacN_quad h hword a b hquad,
      fun x k _ hload => exec_pegQmacL_loads h hword a b x k hquad hload,
      fun x k _ _ hload => exec_pegQmacL_stops h hword a b x k hquad hload⟩
  case scalar =>
    exact ⟨exec_qmac_scalar h hword a b 0 0 hscalar (.inl rfl), exec_qmac_scalar h hword a b 0 0 hscalar (.inr (.inl rfl)),
      fun x k => exec_qmac_scalar h hword a b x k hscalar (.inr (.inr rfl))⟩
  case single => exact ⟨pegRun_ok h hword rfl rfl rfl, pegRun_ok h hword rfl rfl rfl⟩
  case read =>
    have hbody : ∀ {g g' : Peg} (v : BitVec 32), g = g' → (Except.ok (g.writeG d v, imemCounted p s) :
      Except (PegFault × BitVec 32) (Peg × State)) = .ok (g'.writeG d v, imemCounted p s) := fun _ hg => by rw [hg]
    exact ⟨fun hin => pegRun_ok h hword (hbody _ (if_pos hin)) rfl rfl, fun hout => pegRun_ok h hword (hbody _ (if_neg hout)) rfl rfl,
      pegRun_ok h hword rfl rfl rfl, pegRun_ok h hword rfl rfl rfl⟩
  case clear =>
    have hframe := foldl_clearAcc_frame m (List.range 4) (pegNow s p.peg)
    refine ⟨(List.range 4).foldl (clearAcc m) (pegNow s p.peg), pegRun_ok h hword rfl ?_ rfl, hframe, fun k hk => ?_⟩
    · rw [hframe]
    · rw [foldl_clearAcc_acc]
      simp [hk]

end Sys2Proof.Proofs
end

section
/-! SUPPORT. Delay slots, branches and loops of a peg (spec/11_peg_engines.md R249, R255, R256, R258, R261). -/

namespace Sys2Proof.Laws
open Sys2Proof Sys2Proof.Machine

/-! A peg moves on (R249). -/

theorem peg_issued (q : BitVec 8) (g : Peg) (t : State) :
    peg (issued q g t) q.toNat = { g.advance with cyc := (peg t q.toNat).cyc + 1, ran := true } := peg_modPeg q.toNat _ t

theorem peg_issued_fields (q : BitVec 8) (g : Peg) (t : State) : (peg (issued q g t) q.toNat).pc = g.advance.pc ∧
    (peg (issued q g t) q.toNat).slots = g.advance.slots := by
  rw [peg_issued]
  dsimp only
  exact ⟨rfl, rfl⟩

theorem pegIssues_iff (s : State) (q : BitVec 8) : pegIssues s q ↔ s.dev.state ≠ .off ∧ (peg s q.toNat).issues = true := by
  simp [pegIssues, pegNow, Peg.issues]

/-- The peg stands at `pc` with `n` instructions to issue before it goes on at its target, or at the next one. -/
structure InSlots (n : Nat) (pc : BitVec 16) (target : Option (BitVec 16)) (g : Peg) : Prop where
  slots : g.slots = n
  notLoop : g.loopSlots = false
  here : g.pc = pc
  goal : g.target = target

theorem inSlots_pegNow {n : Nat} {pc : BitVec 16} {target : Option (BitVec 16)} {s : State} {q : BitVec 8}
    (h : InSlots n pc target (peg s q.toNat)) : InSlots n pc target (pegNow s q) := by
  constructor <;> simp [pegNow, h.slots, h.notLoop, h.here, h.goal]

theorem branchTo_fields (target : Option (BitVec 16)) (g : Peg) :
    (branchTo target g).issues = g.issues ∧ (branchTo target g).waiting = g.waiting := ⟨rfl, rfl⟩

theorem inSlots_branchTo (g : Peg) (target : Option (BitVec 16)) : InSlots 3 g.pc target (branchTo target g) :=
  ⟨rfl, rfl, rfl, rfl⟩

theorem advance_inSlots {n : Nat} {pc : BitVec 16} {target : Option (BitVec 16)} {g : Peg} (h : InSlots (n + 2) pc target g) :
    InSlots (n + 1) (pc + 1) target g.advance ∧ g.advance.issues = g.issues := by
  obtain ⟨hslots, hloop, rfl, rfl⟩ := h
  have hadvance : g.advance = { g with slots := g.slots - 1, pc := g.pc + pegStep } := by
    simp [Peg.advance, hslots, hloop]
  rw [hadvance]
  exact ⟨⟨by dsimp only; omega, hloop, rfl, rfl⟩, rfl⟩

theorem advance_lastSlot {pc : BitVec 16} {target : Option (BitVec 16)} {g : Peg} (h : InSlots 1 pc target g) :
    g.advance.pc = target.getD (pc + 1) ∧ g.advance.slots = 0 := by
  obtain ⟨hslots, hloop, rfl, rfl⟩ := h
  simp only [Peg.advance, hslots, hloop, one_ne_zero, Bool.false_eq_true, if_false, if_true]
  split <;> exact ⟨rfl, rfl⟩

theorem issued_inSlots {n : Nat} {pc : BitVec 16} {target : Option (BitVec 16)} {q : BitVec 8} {g : Peg} {t : State}
    (hOn : t.dev.state ≠ .off) (hissues : g.issues = true) (h : InSlots (n + 2) pc target g) :
    pegIssues (issued q g t) q ∧ InSlots (n + 1) (pc + 1) target (peg (issued q g t) q.toNat) := by
  obtain ⟨⟨hslots, hloop, hpc, htarget⟩, hkeeps⟩ := advance_inSlots h
  rw [pegIssues_iff, peg_issued]
  exact ⟨⟨hOn, hkeeps.trans hissues⟩, ⟨hslots, hloop, hpc, htarget⟩⟩

theorem exec_pegNop_issued {t : State} {q : BitVec 8} (h : pegIssues t q) :
    exec (.pegNop { peg := q }) t = .next (issued q (pegNow t q) t) :=
  pegRun_ok h (by simp) rfl rfl rfl

/-- After a command two NOPs issue, and the peg goes on at `a`, in no delay slot. -/
def GoesOn (q : BitVec 8) (c : Instr) (s : State) (pc a : BitVec 16) : Prop :=
  ∃ t v w, exec c s = .next t ∧ exec (.pegNop { peg := q }) t = .next v ∧ exec (.pegNop { peg := q }) v = .next w ∧
    (peg t q.toNat).pc = pc + 1 ∧ (peg v q.toNat).pc = pc + 2 ∧ (peg w q.toNat).pc = a ∧ (peg w q.toNat).slots = 0

/-- An instruction that leaves its peg before two delay slots goes on after them (R249). -/
theorem goesOn_of_issued {q : BitVec 8} {c : Instr} {s t : State} {g : Peg} {pc : BitVec 16} {target : Option (BitVec 16)}
    (hexec : exec c s = .next (issued q g t)) (hOn : t.dev.state ≠ .off) (hissues : g.issues = true) (h : InSlots 3 pc target g) :
    GoesOn q c s pc (target.getD (pc + 3)) := by
  obtain ⟨hi1, h1⟩ := issued_inSlots (q := q) (t := t) hOn hissues h
  obtain ⟨hi2, h2⟩ := issued_inSlots (q := q) (t := issued q g t) hi1.1 hi1.2 (inSlots_pegNow h1)
  obtain ⟨hpc, hslots⟩ := advance_lastSlot (inSlots_pegNow h2)
  refine ⟨_, _, _, hexec, exec_pegNop_issued hi1, exec_pegNop_issued hi2, h1.here, ?_, ?_, ?_⟩
  · rw [h2.here, BitVec.add_assoc]
    rfl
  · rw [(peg_issued_fields ..).1, hpc, BitVec.add_assoc, BitVec.add_assoc]
    rfl
  · rw [(peg_issued_fields ..).2, hslots]

/-! Instructions that may not stand in a delay slot, and branches at the end of a loop's body (R249, R256). -/

/-- A branch here is one at the end of an active loop's body that the hardware detects. -/
def BranchEndsLoop (g : Peg) : Prop :=
  g.nearEnd 0 = true ∧ Config.loopFault g.pc (tabGet 0 g.le 0) = true ∨
    g.nearEnd 1 = true ∧ Config.loopFault g.pc (tabGet 0 g.le 1) = true

theorem noSlot_outside (body : PegBody) (s : State) {g : Peg} (h : g.slots = 0) : noSlot body s g = body s g :=
  if_neg (not_not.mpr h)

theorem noSlot_inside (body : PegBody) (s : State) {g : Peg} (h : g.slots ≠ 0) :
    noSlot body s g = .error (.illegal, g.pc.setWidth 32) := if_pos h

theorem branchBody_runs (body : PegBody) (s : State) {g : Peg} (hslots : g.slots = 0) (h : ¬BranchEndsLoop g) :
    branchBody body s g = body s g := by
  rw [branchBody, noSlot_outside _ _ hslots]
  exact if_neg (by simpa only [BranchEndsLoop, Bool.or_eq_true, Bool.and_eq_true] using h)

theorem branchBody_illegal (body : PegBody) (s : State) {g : Peg} (h : g.slots ≠ 0 ∨ BranchEndsLoop g) :
    branchBody body s g = .error (.illegal, g.pc.setWidth 32) := by
  by_cases hslots : g.slots = 0
  · rw [branchBody, noSlot_outside _ _ hslots]
    exact if_pos (by simpa only [BranchEndsLoop, Bool.or_eq_true, Bool.and_eq_true] using h.resolve_left (not_not.mpr hslots))
  · exact noSlot_inside _ _ hslots

theorem imemCounted_on {s : State} {p : PegIssue} (h : pegIssues s p.peg) : (imemCounted p s).dev.state ≠ .off := by
  rw [(imemCounted_fields p s).1]
  exact h.1

section
variable {s : State} {p : PegIssue} (h : pegIssues s p.peg) (hword : p.imem ≠ .uncorrectable)
include h hword

theorem pegRun_noSlot_illegal (body : PegBody) (hslots : (pegNow s p.peg).slots ≠ 0) : pegRun p (noSlot body) s =
    .next (pegFaultAt p.peg.toNat (pegNow s p.peg) .illegal ((pegNow s p.peg).pc.setWidth 32) (imemCounted p s)) :=
  pegRun_error h hword (noSlot_inside _ _ hslots)

theorem pegRun_branch_illegal (body : PegBody) (hbad : (pegNow s p.peg).slots ≠ 0 ∨ BranchEndsLoop (pegNow s p.peg)) :
    pegRun p (branchBody body) s =
      .next (pegFaultAt p.peg.toNat (pegNow s p.peg) .illegal ((pegNow s p.peg).pc.setWidth 32) (imemCounted p s)) :=
  pegRun_error h hword (branchBody_illegal _ _ hbad)

variable {c : Instr} (hslots : (pegNow s p.peg).slots = 0)
include hslots

/-- An instruction that sets its target outside delay slots goes on there. -/
theorem goesOn_of_noSlot {body : PegBody} {g : Peg} {target : Option (BitVec 16)} (hexec : exec c s = pegRun p (noSlot body) s)
    (hbody : body (imemCounted p s) (pegNow s p.peg) = .ok (g, imemCounted p s))
    (hissues : g.issues = (pegNow s p.peg).issues) (hin : InSlots 3 (pegNow s p.peg).pc target g)
    (hwait : g.waiting = (pegNow s p.peg).waiting) :
    GoesOn p.peg c s (pegNow s p.peg).pc (target.getD ((pegNow s p.peg).pc + 3)) :=
  goesOn_of_issued (hexec.trans (pegRun_ok h hword ((noSlot_outside _ _ hslots).trans hbody) hwait rfl))
    (imemCounted_on h) (hissues.trans h.2) hin

variable (hloop : ¬BranchEndsLoop (pegNow s p.peg))
include hloop

theorem pegRun_branch {f : Peg → Option (BitVec 16)} : pegRun p (branchBody (fun s g => .ok (branchTo (f g) g, s))) s =
    .next (issued p.peg (branchTo (f (pegNow s p.peg)) (pegNow s p.peg)) (imemCounted p s)) :=
  pegRun_ok h hword (branchBody_runs _ _ hslots hloop) rfl rfl

theorem goesOn_branch {f : Peg → Option (BitVec 16)}
    (hexec : exec c s = pegRun p (branchBody (fun s g => .ok (branchTo (f g) g, s))) s) :
    GoesOn p.peg c s (pegNow s p.peg).pc ((f (pegNow s p.peg)).getD ((pegNow s p.peg).pc + 3)) :=
  goesOn_of_issued (hexec.trans (pegRun_branch h hword hslots hloop)) (imemCounted_on h) h.2 (inSlots_branchTo _ _)

theorem exec_pegCall (x : BitVec 16) : exec (.pegCall p x) s = .next (issued p.peg
    (branchTo (some x) ((pegNow s p.peg).writeG 30 ((pegNow s p.peg).afterSlots.setWidth 32))) (imemCounted p s)) :=
  pegRun_ok h hword (branchBody_runs _ _ hslots hloop) rfl rfl

end

theorem afterSlots_eq (g : Peg) : g.afterSlots = g.pc + 3 := by
  rw [Peg.afterSlots, BitVec.add_assoc, BitVec.add_assoc]
  rfl

/-! Results that all are due (R248). -/

theorem commitTo_due {c : Nat} {g : Peg} (h : ∀ w ∈ g.writes, w.due ≤ c) :
    g.commitTo c = g.writes.foldl Peg.land { g with writes := [] } := by
  have hdue : g.writes.filter (fun w => decide (w.due ≤ c)) = g.writes := List.filter_eq_self.mpr (by simpa using h)
  have hlate : g.writes.filter (fun w => decide (c < w.due)) = [] := List.filter_eq_nil_iff.mpr (by simpa using h)
  rw [Peg.commitTo, hdue, hlate]

/-- Bits written to stat under a mask are read back under it. -/
theorem statBits_and (st m b : BitVec 32) : statBits st m b &&& m = b &&& m := by
  ext i hi
  simp only [statBits, BitVec.getElem_and, BitVec.getElem_or, BitVec.getElem_not]
  cases m[i] <;> simp

theorem ofInt_toNat {w : Nat} (x : BitVec w) : BitVec.ofInt w x.toNat = x := by
  rw [BitVec.ofInt_natCast, BitVec.ofNat_toNat, BitVec.setWidth_eq]

/-- A result for stat carries its mask above its bits. -/
theorem land_stat (g : Peg) (due : Nat) (m b : BitVec 32) :
    g.land { due := due, dest := .stat, value := m.toNat * 4294967296 + b.toNat } = { g with stat := statBits g.stat m b } := by
  have hb : (b.toNat : Int) < 4294967296 := Int.ofNat_lt.mpr b.isLt
  have hmask : ((m.toNat : Int) * 4294967296 + b.toNat) / 4294967296 = m.toNat := by omega
  have hbits : BitVec.ofInt 32 ((m.toNat : Int) * 4294967296 + b.toNat) = b := by
    apply BitVec.eq_of_toNat_eq
    have hpow : ((2 ^ 32 : Nat) : Int) = 4294967296 := rfl
    rw [BitVec.toNat_ofInt, hpow]
    omega
  simp only [Peg.land, hmask, hbits, ofInt_toNat]

/-! LOOP (R255, R256). -/

/-- The registers of loop `i` on their way to LOOP's values. -/
def loopSet (i : Nat) (n : BitVec 32) (last : BitVec 16) (g : Peg) : Peg :=
  ((g.write 2 (.loopCount i) n.toNat).write 2 (.loopStart i) g.afterSlots.toNat).write 2 (.loopEnd i) last.toNat

theorem write_fields (n : Nat) (d : PegDest) (v : Int) (g : Peg) : (g.write n d v).pc = g.pc ∧
    (g.write n d v).waiting = g.waiting ∧ (g.write n d v).issues = g.issues ∧ (g.write n d v).cyc = g.cyc := ⟨rfl, rfl, rfl, rfl⟩

theorem loopSet_fields (i : Nat) (n : BitVec 32) (last : BitVec 16) (g : Peg) : (loopSet i n last g).pc = g.pc ∧
    (loopSet i n last g).waiting = g.waiting ∧ (loopSet i n last g).issues = g.issues := by
  simp only [loopSet, write_fields, and_self]

/-- The peg as LOOP with a count leaves it: LE on its way as well, and two delay slots that enter the body. -/
def loopEntered (i : Nat) (n : BitVec 32) (last : BitVec 16) (g : Peg) : Peg :=
  { (loopSet i n last g).write 2 .stat ((statLE i).toNat * 4294967296 + (statLE i).toNat) with
    slots := 3, target := none, loopSlots := true }

/-- LOOP's body is empty and the hardware detects it. -/
def LoopEmpty (last : BitVec 16) (g : Peg) : Prop := last.toNat < (g.pc + 3).toNat ∧ Config.loopFault g.pc last = true

/-- What LOOP does outside delay slots. -/
def loopBody (k : Bool) (a : BitVec 5) (last : BitVec 16) : PegBody := fun s g =>
  let h := loopSet (bit k) (g.rg a) last g
  if g.rg a = 0 then .ok (branchTo (some (last + 1)) (h.write 2 .stat ((statLE (bit k)).toNat * 4294967296)), s)
  else if last.toNat < h.afterSlots.toNat && Config.loopFault h.pc last then .error (.illegal, h.pc.setWidth 32)
  else .ok (loopEntered (bit k) (g.rg a) last g, s)

theorem exec_pegLoop (p : PegIssue) (k : Bool) (a : BitVec 5) (last : BitVec 16) (s : State) :
    exec (.pegLoop p k a last) s = pegRun p (noSlot (loopBody k a last)) s := by
  have hexec : exec (.pegLoop p k a last) s = execPegLoop p k a last s := rfl
  rw [hexec]
  unfold execPegLoop loopBody loopEntered loopSet
  dsimp only

section
variable (k : Bool) {a : BitVec 5} {last : BitVec 16} (s : State) {g : Peg}

/-- LOOP's test for an empty body, whose addresses the results on their way leave. -/
theorem loopEmpty_iff (n : BitVec 32) : (decide (last.toNat < (loopSet (bit k) n last g).afterSlots.toNat) &&
    Config.loopFault (loopSet (bit k) n last g).pc last) = true ↔ LoopEmpty last g := by
  rw [afterSlots_eq, Bool.and_eq_true, decide_eq_true_eq, (loopSet_fields ..).1]
  exact Iff.rfl

theorem loopEntered_waiting (i : Nat) (n : BitVec 32) (last : BitVec 16) (g : Peg) :
    (loopEntered i n last g).waiting = g.waiting := by
  simp only [loopEntered, write_fields, loopSet_fields]

theorem loopBody_skips (hcount : g.rg a = 0) : loopBody k a last s g = .ok (branchTo (some (last + 1))
    ((loopSet (bit k) (g.rg a) last g).write 2 .stat ((statLE (bit k)).toNat * 4294967296)), s) := if_pos hcount

theorem loopBody_empty (hcount : g.rg a ≠ 0) (hempty : LoopEmpty last g) :
    loopBody k a last s g = .error (.illegal, g.pc.setWidth 32) := by
  rw [loopBody, if_neg hcount, if_pos ((loopEmpty_iff k _).mpr hempty), (loopSet_fields ..).1]

theorem loopBody_enters (hcount : g.rg a ≠ 0) (hempty : ¬LoopEmpty last g) :
    loopBody k a last s g = .ok (loopEntered (bit k) (g.rg a) last g, s) :=
  (if_neg hcount).trans (if_neg (mt (loopEmpty_iff k _).mp hempty))

end

section
variable {s : State} {p : PegIssue} (h : pegIssues s p.peg) (hword : p.imem ≠ .uncorrectable)
  (hslots : (pegNow s p.peg).slots = 0) (k : Bool) {a : BitVec 5} {last : BitVec 16}
include h hword hslots

theorem exec_pegLoop_enters (hcount : (pegNow s p.peg).rg a ≠ 0) (hempty : ¬LoopEmpty last (pegNow s p.peg)) :
    exec (.pegLoop p k a last) s =
      .next (issued p.peg (loopEntered (bit k) ((pegNow s p.peg).rg a) last (pegNow s p.peg)) (imemCounted p s)) :=
  (exec_pegLoop ..).trans
    (pegRun_ok h hword ((noSlot_outside _ _ hslots).trans (loopBody_enters k _ hcount hempty)) (loopEntered_waiting ..) rfl)

theorem exec_pegLoop_empty (hcount : (pegNow s p.peg).rg a ≠ 0) (hempty : LoopEmpty last (pegNow s p.peg)) :
    exec (.pegLoop p k a last) s =
      .next (pegFaultAt p.peg.toNat (pegNow s p.peg) .illegal ((pegNow s p.peg).pc.setWidth 32) (imemCounted p s)) :=
  (exec_pegLoop ..).trans
    (pegRun_error h hword ((noSlot_outside _ _ hslots).trans (loopBody_empty k _ hcount hempty)))

theorem goesOn_pegLoop_skips (hcount : (pegNow s p.peg).rg a = 0) :
    GoesOn p.peg (.pegLoop p k a last) s (pegNow s p.peg).pc (last + 1) := by
  refine goesOn_of_noSlot h hword hslots (target := some (last + 1)) (exec_pegLoop ..) (loopBody_skips k _ hcount) ?issues ?slots
    ?waiting
  case slots =>
    have hin := inSlots_branchTo ((loopSet (bit k) ((pegNow s p.peg).rg a) last (pegNow s p.peg)).write 2 .stat
      ((statLE (bit k)).toNat * 4294967296)) (some (last + 1))
    rwa [(write_fields ..).1, (loopSet_fields ..).1] at hin
  all_goals simp only [branchTo_fields, write_fields, loopSet_fields]

end

/-- Two cycles on, LOOP's values are in the loop's registers. -/
theorem loopEntered_seen (k : Bool) (n : BitVec 32) (last : BitVec 16) {g : Peg} {c : Nat} (hwrites : g.writes = [])
    (hc : g.cyc + 2 ≤ c) :
    tabGet 0 ((loopEntered (bit k) n last g).commitTo c).lc (bit k) = n ∧
    tabGet 0 ((loopEntered (bit k) n last g).commitTo c).ls (bit k) = g.pc + 3 ∧
    tabGet 0 ((loopEntered (bit k) n last g).commitTo c).le (bit k) = last ∧
    ((loopEntered (bit k) n last g).commitTo c).has (statLE (bit k)) = true := by
  have hl : (loopEntered (bit k) n last g).writes = [{ due := g.cyc + 2, dest := .loopCount (bit k), value := n.toNat },
      { due := g.cyc + 2, dest := .loopStart (bit k), value := g.afterSlots.toNat },
      { due := g.cyc + 2, dest := .loopEnd (bit k), value := last.toNat },
      { due := g.cyc + 2, dest := .stat, value := (statLE (bit k)).toNat * 4294967296 + (statLE (bit k)).toNat }] := by
    simp [loopEntered, loopSet, Peg.write, hwrites, insertWrite]
  rw [commitTo_due (by rw [hl]; simpa using hc), hl]
  simp only [List.foldl_cons, List.foldl_nil, land_stat]
  simp only [Peg.land, tabGet_tabSet_same, ofInt_toNat, afterSlots_eq, true_and]
  rw [Peg.has, statBits_and, BitVec.and_self]
  cases k <;> rfl

/-! What a fault counts (R261, R268). -/

/-- A raised event counts events alone. -/
theorem counter_raise_of_lt {c : Ctr} {i : Nat} (code src : Nat) (m : Int) (l : List Int) (s : State)
    (h : c.ctorIdx < Ctr.events.ctorIdx) (hi : i < 1048576) : counter c i (raise code src m l s) = counter c i s := by
  have hkey : ctrKey c i ≠ ctrKey .events 0 := by unfold ctrKey; omega
  simp only [raise, raiseEvent, counter]
  split
  · rfl
  · exact tabGet_tabMod_ne 0 s.counters _ hkey

theorem counter_pegFault_pegFaultAt {n : Nat} (hn : n < 1048576) (g : Peg) (c : PegFault) (a : BitVec 32) (s : State) :
    counter .pegFault n (pegFaultAt n g c a s) = counter .pegFault n s + 1 := by
  rw [pegFaultAt, counter_raise_of_lt _ _ _ _ _ (by decide) hn, counter_count]
  rfl

theorem counter_imemCounted {c : Ctr} (p : PegIssue) (s : State) (h : c.ctorIdx ≠ Ctr.imemCe.ctorIdx) :
    counter c p.peg.toNat (imemCounted p s) = counter c p.peg.toNat s := by
  unfold imemCounted
  cases p.imem with
  | corrected => exact counter_count_of_ne _ s h
  | _ => rfl

end Sys2Proof.Laws
end

section
/-! Branches, calls, returns and loops of a peg (spec/11_peg_engines.md R249, R255, R256, R258, R261). -/

namespace Sys2Proof.Proofs
open Sys2Proof Sys2Proof.Machine Sys2Proof.Laws

/-- Settles O37: a branch leaves its peg before two delay slots (`goesOn_of_issued`), or stops it (`pegRun_branch_illegal`). -/
theorem pegBranchesHaveTwoDelaySlots : Obligations.PegBranchesHaveTwoDelaySlots := by
  intro s p h hword
  have hcount : counter .pegFault p.peg.toNat (pegFaultAt p.peg.toNat (pegNow s p.peg) .illegal
      ((pegNow s p.peg).pc.setWidth 32) (imemCounted p s)) = counter .pegFault p.peg.toNat s + 1 := by
    rw [counter_pegFault_pegFaultAt (by omega), counter_imemCounted p s (by decide)]
  refine ⟨fun hslots hloop => ?branches, fun hslots => ⟨?reti, fun k a last => ⟨fun hn hempty => ?enters, fun hn hempty => ?empty,
    fun hn => ?skips⟩⟩, fun c hc hbad => ?illegal, fun hslots => ?slots, by rw [peg_pegFaultAt], hcount⟩
  case branches =>
    have hjump : ∀ (c : Instr) (f : Peg → Option (BitVec 16)) a,
        exec c s = pegRun p (branchBody (fun s g => .ok (branchTo (f g) g, s))) s →
        (f (pegNow s p.peg)).getD ((pegNow s p.peg).pc + 3) = a → GoesOn p.peg c s (pegNow s p.peg).pc a :=
      fun c f a hexec ha => ha ▸ goesOn_branch h hword hslots hloop hexec
    refine ⟨fun x => hjump _ (fun _ => some x) _ rfl rfl,
      fun cc a x => hjump _ (fun g => if Config.condHolds cc (g.rg a) then some x else none) _ rfl (apply_ite (Option.getD · _) ..),
      fun x => ?call, fun x => ?link, fun a => hjump _ (fun g => some ((g.rg a).setWidth 16)) _ rfl rfl,
      fun m x => hjump _ (fun g => if (List.range 4).any (fun j => m.getLsbD j && (g.xstat >>> (2 * j)) &&& 3 == 0) then some x
        else none) _ rfl (apply_ite (Option.getD · _) ..)⟩
    case call =>
      exact goesOn_of_issued (exec_pegCall h hword hslots hloop x) (imemCounted_on h) h.2 (inSlots_branchTo _ _)
    case link =>
      rw [exec_pegCall h hword hslots hloop x, afterSlots_eq]
      rfl
  case reti => exact goesOn_of_noSlot h hword hslots (target := some _) rfl rfl rfl ⟨rfl, rfl, rfl, rfl⟩ rfl
  case enters =>
    exact ⟨_, exec_pegLoop_enters h hword hslots k hn hempty, rfl, rfl, fun c hw hc => loopEntered_seen k _ last hw hc⟩
  case empty => exact exec_pegLoop_empty h hword hslots k hn hempty
  case skips => exact goesOn_pegLoop_skips h hword hslots k hn
  case illegal =>
    obtain ⟨x, rfl⟩ | ⟨cc, a, x, rfl⟩ | ⟨x, rfl⟩ | ⟨a, rfl⟩ | ⟨m, x, rfl⟩ := hc <;> exact pegRun_branch_illegal h hword _ hbad
  case slots => exact ⟨pegRun_noSlot_illegal h hword _ hslots, fun k a last => pegRun_noSlot_illegal h hword _ hslots⟩

end Sys2Proof.Proofs
end

section
/-! SUPPORT. Special registers, transfers and events of a peg (spec/11_peg_engines.md R245, R246, R257 to R259, R265): one equation per
branch of the model's functions. -/

namespace Sys2Proof.Laws
open Sys2Proof Sys2Proof.Machine

/-! WAIT and SIGNAL (R257 to R259, R264). -/

section
variable {s : State} {p : PegIssue} (h : pegIssues s p.peg) (hword : p.imem ≠ .uncorrectable)
include h hword

theorem exec_pegWait : exec (.pegWait p) s = .next (count .instructions p.peg.toNat (modPeg p.peg.toNat (fun _ =>
    { pegNow s p.peg with waiting := true, cyc := (pegNow s p.peg).cyc + 1, ran := true }) (imemCounted p s))) := by
  refine (pegRun_of_issues h _).trans ?_
  rw [if_neg hword]
  rfl

theorem exec_pegSignal_other (j : BitVec 4) (hj : p.peg.toNat / 16 * 16 + j.toNat ≠ p.peg.toNat) : exec (.pegSignal p j) s =
    .next (issued p.peg (pegNow s p.peg) (pegRaise (p.peg.toNat / 16 * 16 + j.toNat) 1 (imemCounted p s))) :=
  pegRun_ok h hword (if_neg hj) rfl (peg_modPeg_ne _ _ _ _ (Ne.symm hj))

theorem exec_pegSignal_self (j : BitVec 4) (hj : p.peg.toNat / 16 * 16 + j.toNat = p.peg.toNat) : exec (.pegSignal p j) s =
    .next (issued p.peg ((pegNow s p.peg).setStat (statIPEND 1)) (imemCounted p s)) :=
  pegRun_ok h hword (if_pos hj) rfl rfl

end

/-! Moves to special registers (R248, R265). -/

/-- With no result pending, a result is in its register once due. -/
theorem commitTo_write_of_none {g : Peg} {n c : Nat} (d : PegDest) (v : Int) (hwrites : g.writes = []) (hc : g.cyc + n ≤ c) :
    (g.write n d v).commitTo c = { g with writes := [] }.land { due := g.cyc + n, dest := d, value := v } := by
  have hl : (g.write n d v).writes = [{ due := g.cyc + n, dest := d, value := v }] := by
    rw [Peg.write, hwrites]
    rfl
  rw [commitTo_due (by rw [hl]; simpa using hc), hl]
  rfl

theorem writeSpecial_waiting (v : BitVec 32) (g : Peg) (z : PegSpecial) : (writeSpecial v g z).waiting = g.waiting := by
  cases z <;> rfl

theorem exec_pegMovstat_to {s : State} {p : PegIssue} (h : pegIssues s p.peg) (hword : p.imem ≠ .uncorrectable) (z : PegSpecial)
    (r : BitVec 5) : exec (.pegMovstat p z true r) s =
      .next (issued p.peg (writeSpecial ((pegNow s p.peg).rg r) (pegNow s p.peg) z) (imemCounted p s)) :=
  pegRun_ok h hword rfl (writeSpecial_waiting ..) rfl

theorem ofInt_toNat_setWidth (n : Nat) (v : BitVec 32) : BitVec.ofInt n v.toNat = v.setWidth n := by
  rw [BitVec.ofInt_natCast, BitVec.ofNat_toNat]

section
variable (v : BitVec 32) {g : Peg} {c : Nat} (hwrites : g.writes = []) (hc : g.cyc + 2 ≤ c)
include hwrites hc

theorem writeSpecial_loop (k : Bool) :
    tabGet 0 ((writeSpecial v g (.lc k)).commitTo c).lc (bit k) = v ∧
    tabGet 0 ((writeSpecial v g (.ls k)).commitTo c).ls (bit k) = v.setWidth 16 ∧
    tabGet 0 ((writeSpecial v g (.le k)).commitTo c).le (bit k) = v.setWidth 16 := by
  simp only [writeSpecial, commitTo_write_of_none _ _ hwrites hc, Peg.land, tabGet_tabSet_same, ofInt_toNat,
    ofInt_toNat_setWidth, and_self]

theorem writeSpecial_handler :
    ((writeSpecial v g .spc).commitTo c).spc = v.setWidth 16 ∧ ((writeSpecial v g .sstat).commitTo c).sstat = v ∧
    ((writeSpecial v g .ivb).commitTo c).ivb = v.setWidth 16 ∧ ((writeSpecial v g .fev).commitTo c).fev = v.setWidth 16 := by
  simp only [writeSpecial, commitTo_write_of_none _ _ hwrites hc, Peg.land, ofInt_toNat, ofInt_toNat_setWidth, and_self]

theorem writeSpecial_stat : ((writeSpecial v g .stat).commitTo c).stat =
    (g.stat &&& ~~~(statRW ||| (v &&& (statOVR ||| statOV)))) ||| (v &&& statRW) := by
  have hmask : (v &&& statRW) &&& (statRW ||| (v &&& (statOVR ||| statOV))) = v &&& statRW := by
    ext i hi
    simp only [BitVec.getElem_and, BitVec.getElem_or]
    cases v[i] <;> cases statRW[i] <;> simp
  rw [writeSpecial, commitTo_write_of_none _ _ hwrites hc, land_stat]
  exact congrArg (g.stat &&& ~~~_ ||| ·) hmask

end

/-! XFER (R245, R246). -/

/-- The peg as XFER leaves it where a transfer is taken: 1 written, and the transfer's field of XSTAT cleared. -/
def xferTaken (d : BitVec 5) (g : Peg) : Peg :=
  { g.writeG d 1 with
    nextBit := (g.freeBit + 1) % 4
    xstat := statBits g.xstat (BitVec.ofNat 32 (3 * 4 ^ g.freeBit)) 0 }

section
variable {s : State} {p : PegIssue} (h : pegIssues s p.peg) (hword : p.imem ≠ .uncorrectable) (d : BitVec 5) (t : Transfer)
include h hword

theorem exec_pegXfer_full (hfull : 4 ≤ (pegNow s p.peg).queue.length) : exec (.pegXfer p d t) s =
    .next (issued p.peg ((pegNow s p.peg).writeG d 0) (imemCounted p s)) :=
  pegRun_ok h hword (if_pos hfull) rfl rfl

variable (hroom : (pegNow s p.peg).queue.length < 4)
include hroom

theorem exec_pegXfer_queued (hlate : tableLate (imemCounted p s) t = false) : exec (.pegXfer p d t) s =
    .next (issued p.peg { xferTaken d (pegNow s p.peg) with
      queue := (xferTaken d (pegNow s p.peg)).queue ++ [{ t := t, bit := (pegNow s p.peg).freeBit }] } (imemCounted p s)) :=
  pegRun_ok h hword ((if_neg (Nat.not_le.mpr hroom)).trans (if_neg (by rw [hlate]; decide))) rfl rfl

theorem exec_pegXfer_late (hlate : tableLate (imemCounted p s) t = true) : exec (.pegXfer p d t) s =
    .next (issued p.peg { (xferTaken d (pegNow s p.peg)).setStat (statIPEND 3) with
      xstat := (xferTaken d (pegNow s p.peg)).xstat ||| BitVec.ofNat 32 (2 * 4 ^ (pegNow s p.peg).freeBit) }
      (count .xferErrors p.peg.toNat (imemCounted p s))) :=
  pegRun_ok h hword ((if_neg (Nat.not_le.mpr hroom)).trans (if_pos hlate)) rfl rfl

end

/-! Interrupts (R257). -/

/-- The peg takes interrupts. -/
def TakesInterrupts (g : Peg) : Prop :=
  g.stopped = none ∧ g.start = false ∧ (g.slots = 0 ∨ g.loopSlots = true) ∧ g.has statIE = true

theorem takesInterrupts_iff (g : Peg) : TakesInterrupts g ↔
    ¬(g.stopped.isSome || g.start || (g.slots ≠ 0 && !g.loopSlots) || !g.has statIE) = true := by
  simp only [TakesInterrupts, Bool.or_eq_true, Bool.and_eq_true, Bool.not_eq_true', decide_eq_true_eq, not_or, not_and,
    Option.isSome_iff_ne_none, not_not, Bool.not_eq_true, Bool.not_eq_false]
  tauto

section
variable (p : BitVec 8) {s : State} (hOn : s.dev.state ≠ .off)
include hOn

theorem exec_pegInterruptEntry_taken {k : Nat} (hopen : TakesInterrupts (peg s p.toNat)) (hsource : (peg s p.toNat).source = some k) :
    exec (.pegInterruptEntry p) s = .next (modPeg p.toNat (Peg.enter k (readStat s p.toNat)) s) := by
  change execPegInterruptEntry p s = _
  rw [execPegInterruptEntry, Proofs.whenOn_of_on _ s hOn]
  refine congrArg _ ?_
  dsimp only
  rw [if_neg ((takesInterrupts_iff _).mp hopen), hsource]

theorem exec_pegInterruptEntry_not (h : ¬TakesInterrupts (peg s p.toNat) ∨ (peg s p.toNat).source = none) :
    exec (.pegInterruptEntry p) s = .next s := by
  change execPegInterruptEntry p s = _
  rw [execPegInterruptEntry, Proofs.whenOn_of_on _ s hOn]
  refine congrArg _ ?_
  dsimp only
  by_cases hopen : TakesInterrupts (peg s p.toNat)
  · rw [if_neg ((takesInterrupts_iff _).mp hopen), h.resolve_left (not_not.mpr hopen)]
  · rw [if_pos (by rwa [takesInterrupts_iff, not_not] at hopen)]

theorem exec_pegTimerCompare_set {c : Nat} (hcompare : (peg s p.toNat).compare = some c) : exec (.pegTimerCompare p) s =
    .next (pegRaise p.toNat 0 (modPeg p.toNat (fun g => { g with cyc := max g.cyc c, compare := none })
      (if (peg s p.toNat).waiting then countN .waitCycles p.toNat (c - (peg s p.toNat).cyc) s else s))) := by
  change execPegTimerCompare p s = _
  rw [execPegTimerCompare, Proofs.whenOn_of_on _ s hOn]
  refine congrArg _ ?_
  dsimp only
  rw [hcompare]

theorem exec_pegTimerCompare_none (hcompare : (peg s p.toNat).compare = none) : exec (.pegTimerCompare p) s = .next s := by
  change execPegTimerCompare p s = _
  rw [execPegTimerCompare, Proofs.whenOn_of_on _ s hOn]
  refine congrArg _ ?_
  dsimp only
  rw [hcompare]

end

/-- Bits of a mask that is cleared stay clear under bits outside it. -/
theorem cleared_and {st c x o b : BitVec 32} (hc : b ||| c = c) (ho : o &&& b = 0) : ((st &&& ~~~(c ||| x)) ||| o) &&& b = 0 := by
  refine BitVec.eq_of_getLsbD_eq fun i hi => ?_
  have hci := congrArg (·.getLsbD i) hc
  have hoi := congrArg (·.getLsbD i) ho
  simp only [BitVec.ofNat_eq_ofNat, BitVec.getLsbD_and, BitVec.getLsbD_or, BitVec.getLsbD_not, BitVec.getLsbD_zero, hi,
    decide_true, Bool.true_and] at hci hoi ⊢
  cases hb : b.getLsbD i
  · rw [Bool.and_false]
  · rw [hb, Bool.true_or] at hci
    rw [hb, Bool.and_true] at hoi
    rw [hoi, ← hci]
    simp

theorem enter_clears (k : Nat) (read : BitVec 32 → BitVec 32) (g : Peg) {b : BitVec 32}
    (hb : b ||| (statIE ||| statLE 0 ||| statLE 1) = statIE ||| statLE 0 ||| statLE 1) (hinh : statINH &&& b = 0) :
    (g.enter k read).has b = false := by
  rw [Peg.has, Peg.enter, cleared_and hb hinh]
  rfl

/-! Transfers that end (R245). -/

/-- The transfer has left the queue. -/
def popXfer (n : Nat) (rest : List QueuedXfer) (s : State) : State := modPeg n (fun g => { g with queue := rest }) s

/-- A transfer moved whole is done. -/
def xferDone (n : Nat) (q : QueuedXfer) (s : State) : State :=
  modPeg n (fun g =>
    let g := if q.t.interrupt then g.setStat (statIPEND 2) else g
    { g with xstat := g.xstat ||| BitVec.ofNat 32 (4 ^ q.bit) }) s

/-- The end of a transfer between two spaces, as it has moved some bytes. -/
def xferMoved (n : Nat) (q : QueuedXfer) (room : Nat) (r : List Byte × State) : State :=
  if r.1.length = q.t.len then xferDone n q r.2
  else xferError n q.bit (if r.1.length = room then leaveSpace n q.t r.2 else r.2)

/-- The end of a transfer that has left the queue, by what its two addresses are. -/
def xferEnds (n : Nat) (fail bad : Option Nat) (q : QueuedXfer) (x y : Option (PegSpace × Nat)) (s : State) : State :=
  if !transferOk n q.t ((x.toList ++ y.toList).map (·.1)) then xferError n q.bit s
  else match x, y with
    | some a, some b => xferMoved n q (transferRoom s n q.t) (moveTransfer n q.t a.1 b.1 fail bad s)
    | _, _ => xferError n q.bit (leaveSpace n q.t s)

section
variable (n : Nat) (fail bad : Option Nat)

theorem endTransfer_nil {s : State} (h : (peg s n).queue = []) : endTransfer n fail bad s = s := by
  rw [endTransfer, h]

theorem endTransfer_cons {s : State} {q : QueuedXfer} {rest : List QueuedXfer} (h : (peg s n).queue = q :: rest) :
    endTransfer n fail bad s = xferEnds n fail bad q (pegSpace (popXfer n rest s) n q.t.src)
      (pegSpace (popXfer n rest s) n q.t.dst) (popXfer n rest s) := by
  rw [endTransfer, h]
  rfl

variable (q : QueuedXfer) (x y : Option (PegSpace × Nat)) (s : State)

theorem xferEnds_shape (h : transferOk n q.t ((x.toList ++ y.toList).map (·.1)) = false) :
    xferEnds n fail bad q x y s = xferError n q.bit s := by
  unfold xferEnds
  rw [h]
  rfl

theorem xferEnds_outside (h : transferOk n q.t ((x.toList ++ y.toList).map (·.1)) = true) (hout : x = none ∨ y = none) :
    xferEnds n fail bad q x y s = xferError n q.bit (leaveSpace n q.t s) := by
  unfold xferEnds
  rw [h]
  obtain rfl | rfl := hout
  · rfl
  · cases x <;> rfl

theorem xferEnds_within (a b : PegSpace × Nat) (h : transferOk n q.t (((some a).toList ++ (some b).toList).map (·.1)) = true) :
    xferEnds n fail bad q (some a) (some b) s =
      xferMoved n q (transferRoom s n q.t) (moveTransfer n q.t a.1 b.1 fail bad s) := by
  rw [xferEnds, h]
  rfl

end

/-! XFER_COMPLETE (R243, R245, R261, R337). -/

/-- A transfer that an uncorrectable word ends stops where it stands. -/
def cutAt (e : Ecc) (fail : Option Nat) : Option Nat := if e = .uncorrectable then some (fail.getD 0) else fail

/-- A word of own data memory that a transfer reads: a corrected one is counted, an uncorrectable one is a fault. -/
def ownWordRead (p : PegIssue) (a : Nat) (t : State) : State :=
  if p.dmem = .uncorrectable && (peg t p.peg.toNat).stopped.isNone then
    pegFaultAt p.peg.toNat (peg t p.peg.toNat) .dmemUe (BitVec.ofNat 32 a) t
  else t

theorem ownWordRead_of_ne (p : PegIssue) {a : Nat} {t : State} (h : p.dmem ≠ .uncorrectable) : ownWordRead p a t = t := by
  rw [ownWordRead, decide_eq_false h]
  rfl

theorem ownWordRead_uncorrectable (p : PegIssue) {a : Nat} {t : State} (h : p.dmem = .uncorrectable) : ownWordRead p a t =
    if (peg t p.peg.toNat).stopped = none then pegFaultAt p.peg.toNat (peg t p.peg.toNat) .dmemUe (BitVec.ofNat 32 a) t
    else t := by
  simp only [ownWordRead, h, decide_true, Bool.true_and, Option.isNone_iff_eq_none]

section
variable (p : PegIssue) (m : Ecc) (fail : Option Nat) (ue : Bool) {s : State} (hOn : s.dev.state ≠ .off)
include hOn

theorem exec_xferComplete_own (h : readsOwn s p.peg.toNat = true) : exec (.xferComplete p m fail ue) s =
    .next (ownWordRead p ((((peg s p.peg.toNat).queue.head?.map (·.t.src)).getD 0) + fail.getD 0)
      (countEcc .dmemCe p.peg.toNat p.dmem (endTransfer p.peg.toNat (cutAt p.dmem fail) none s))) := by
  change execXferComplete p m fail ue s = _
  rw [execXferComplete, Proofs.whenOn_of_on _ s hOn]
  exact congrArg _ (if_pos h)

theorem exec_xferComplete_shared (h : readsOwn s p.peg.toNat = false) {k : Nat} (hk : sharedSource s p.peg.toNat = some k) :
    exec (.xferComplete p m fail ue) s = .next (countEcc .smemCe k m (endTransfer p.peg.toNat (cutAt m fail) none s)) := by
  change execXferComplete p m fail ue s = _
  rw [execXferComplete, Proofs.whenOn_of_on _ s hOn]
  refine congrArg _ ((if_neg (by rw [h]; decide)).trans ?_)
  rw [hk]
  rfl

theorem exec_xferComplete_other (h : readsOwn s p.peg.toNat = false) (hk : sharedSource s p.peg.toNat = none) :
    exec (.xferComplete p m fail ue) s = .next (if ue then endTransfer p.peg.toNat none (some (fail.getD 0)) s
      else endTransfer p.peg.toNat fail none s) := by
  change execXferComplete p m fail ue s = _
  rw [execXferComplete, Proofs.whenOn_of_on _ s hOn]
  refine congrArg _ ((if_neg (by rw [h]; decide)).trans ?_)
  rw [hk]

end
end Sys2Proof.Laws
end

section
/-! The system instructions of a peg, its interrupts, timer, doorbell and transfers (spec/11_peg_engines.md R243, R245, R246, R257 to
R259, R261, R264, R265). -/

namespace Sys2Proof.Proofs
open Sys2Proof Sys2Proof.Machine Sys2Proof.Laws

/-- Settles O40: every instruction is `pegRun` of a body, and each event is one equation per branch of its function. -/
theorem pegSystemInstructionsAndEvents : Obligations.PegSystemInstructionsAndEvents := by
  refine ⟨fun s p d a x y b n k j m w f t z c hc => ?issue, fun s p h hword => ?system, fun s p hOn => ?event,
    fun k read g => ?enter, fun s p m fail ue hOn => ?complete, fun s n fail bad => ⟨endTransfer_nil n fail bad,
      fun q rest hq => ?ends⟩⟩
  case issue =>
    have hrun : ∃ body, exec c s = pegRun p body s := by
      revert c
      simp only [List.forall_mem_cons, List.not_mem_nil, false_imp_iff, implies_true, and_true]
      and_intros <;> exact ⟨_, rfl⟩
    obtain ⟨body, hrun⟩ := hrun
    exact ⟨fun h => hrun.trans (pegRun_idle body h), fun h hword => hrun.trans (pegRun_uncorrectable h body hword)⟩
  case system =>
    refine ⟨exec_pegWait h hword, fun z r => pegRun_ok h hword rfl rfl rfl, rfl, fun z r => ?special, fun r => ?stat,
      exec_pegSignal_other h hword, exec_pegSignal_self h hword, fun a => pegRun_ok h hword rfl rfl rfl,
      pegRun_ok h hword rfl rfl rfl, pegRun_ok h hword rfl rfl rfl, exec_pegXfer_full h hword,
      fun d x hroom => ⟨exec_pegXfer_queued h hword d x hroom, exec_pegXfer_late h hword d x hroom⟩⟩
    case special =>
      refine ⟨_, exec_pegMovstat_to h hword z r, ?_, ?_, fun c hwrites hc => ⟨fun k => ?_, ?_⟩⟩
      · rintro (rfl | ⟨b, rfl⟩) <;> rfl
      · intro k
        refine ⟨?_, ?_, ?_, ?_⟩ <;> rintro rfl <;> rfl
      · obtain ⟨hlc, hls, hle⟩ := writeSpecial_loop ((pegNow s p.peg).rg r) hwrites hc k
        exact ⟨by rintro rfl; exact hlc, by rintro rfl; exact hls, by rintro rfl; exact hle⟩
      · obtain ⟨hspc, hsstat, hivb, hfev⟩ := writeSpecial_handler ((pegNow s p.peg).rg r) hwrites hc
        exact ⟨by rintro rfl; exact hspc, by rintro rfl; exact hsstat, by rintro rfl; exact hivb, by rintro rfl; exact hfev⟩
    case stat => exact ⟨_, exec_pegMovstat_to h hword .stat r, rfl, fun c hwrites hc => writeSpecial_stat _ hwrites hc⟩
  case event =>
    exact ⟨fun k hopen hsource => exec_pegInterruptEntry_taken p hOn hopen hsource, exec_pegInterruptEntry_not p hOn,
      fun c hcompare => exec_pegTimerCompare_set p hOn hcompare, exec_pegTimerCompare_none p hOn, whenOn_of_on _ s hOn⟩
  case enter =>
    exact ⟨rfl, rfl, enter_clears k read g (by decide) (by decide), enter_clears k read g (by decide) (by decide),
      enter_clears k read g (by decide) (by decide), rfl⟩
  case complete =>
    refine ⟨fun hown => ?own, fun hown k hk => ?shared, fun hown hk => exec_xferComplete_other p m fail ue hOn hown hk⟩
    case own =>
      have hexec := exec_xferComplete_own p m fail ue hOn hown
      refine ⟨fun hm => ?ok, fun hm => ?corrected, fun hm hstopped => ?stopped, fun hm hruns => ?fault⟩
      case ok | corrected =>
        rw [ownWordRead_of_ne p (by rw [hm]; decide), hm] at hexec
        exact hexec
      case stopped =>
        rw [ownWordRead_uncorrectable p hm, hm] at hexec
        exact hexec.trans (congrArg _ (if_neg hstopped))
      case fault =>
        rw [ownWordRead_uncorrectable p hm, hm] at hexec
        exact hexec.trans (congrArg _ (if_pos hruns))
    case shared =>
      have hexec := exec_xferComplete_shared p m fail ue hOn hown hk
      refine ⟨fun hm => ?_, fun hm => ?_, fun hm => ?_⟩ <;> subst hm <;> exact hexec
  case ends =>
    have hends := endTransfer_cons n fail bad hq
    refine ⟨fun hshape => hends.trans (xferEnds_shape _ _ _ _ _ _ _ hshape),
      fun hshape hout => hends.trans (xferEnds_outside _ _ _ _ _ _ _ hshape hout), fun a b hshape hsrc hdst => ?_⟩
    have hmoved : endTransfer n fail bad s = xferMoved n q (transferRoom (popXfer n rest s) n q.t)
        (moveTransfer n q.t a.1 b.1 fail bad (popXfer n rest s)) := by
      have hsrc : pegSpace (popXfer n rest s) n q.t.src = some a := hsrc
      have hdst : pegSpace (popXfer n rest s) n q.t.dst = some b := hdst
      rw [hends, hsrc, hdst]
      exact xferEnds_within _ _ _ _ _ a b (by rw [← hsrc, ← hdst]; exact hshape)
    exact ⟨fun hwhole => hmoved.trans (if_pos hwhole), fun hpart => hmoved.trans (if_neg hpart)⟩

end Sys2Proof.Proofs
end

section
/-! SUPPORT. What a command leaves alone, over the constructors of `Instr`: the queue of waiting commands, and the Tether window but
for the commands that write it or take the reset or the power away. -/

namespace Sys2Proof.Laws
open Sys2Proof.Machine

/-- The commands that write the Tether window (Table 15.10, R347). -/
def windowWrite : Instr → Bool
  | .tetherLockWrite _ => true
  | .tetherControlWordWrite _ _ => true
  | .tetherFieldWrite _ _ => true
  | .registerWrite _ o _ => decide (0x1000000 ≤ o.toNat)
  | _ => false

/-- The commands that take the part's reset or its power away (R361, R450, R474). -/
def powerLoss : Instr → Bool
  | .resetNAssert => true
  | .supplyFault _ => true
  | .vin12Removed => true
  | .thermalTrip _ => true
  | _ => false

/-- No command changes the queue, and none but the two kinds above the Tether window. -/
theorem exec_keeps (c : Instr) (s t : State) (hw : windowWrite c = false) (hp : powerLoss c = false)
    (h : exec c s = .next t) : t.pending = s.pending ∧ t.tether = s.tether := by
  cases c with
  | sysInfo q => exact execSysInfo_keeps _ _ _ h
  | sysSafe q => exact execSysSafe_keeps _ _ _ h
  | sysRestart q => exact execSysRestart_keeps _ _ _ h
  | txnBegin q => exact execTxnBegin_keeps _ _ _ h
  | txnCommit q => exact execTxnCommit_keeps _ _ _ h
  | txnRollback q => exact execTxnRollback_keeps _ _ _ h
  | timeRefConfig q => exact execTimeRefConfig_keeps _ _ _ h
  | timeRefSelect q => exact execTimeRefSelect_keeps _ _ _ h
  | timePllConfig q => exact execTimePllConfig_keeps _ _ _ h
  | timeSet q => exact execTimeSet_keeps _ _ _ h
  | timeAdjust q => exact execTimeAdjust_keeps _ _ _ h
  | timeOutConfig q => exact execTimeOutConfig_keeps _ _ _ h
  | timeTrigArm q => exact execTimeTrigArm_keeps _ _ _ h
  | timeTrigCancel q => exact execTimeTrigCancel_keeps _ _ _ h
  | timeStatus q => exact execTimeStatus_keeps _ _ _ h
  | ptpConfig q => exact execPtpConfig_keeps _ _ _ h
  | ptpStep q => exact execPtpStep_keeps _ _ _ h
  | ptpRelayConfig q => exact execPtpRelayConfig_keeps _ _ _ h
  | pinFilterConfig q => exact execPinFilterConfig_keeps _ _ _ h
  | laneConfig q => exact execLaneConfig_keeps _ _ _ h
  | laneRetrain q => exact execLaneRetrain_keeps _ _ _ h
  | lanePrbs q => exact execLanePrbs_keeps _ _ _ h
  | laneStatus q => exact execLaneStatus_keeps _ _ _ h
  | ethConfig q => exact execEthConfig_keeps _ _ _ h
  | moduleConfig q => exact execModuleConfig_keeps _ _ _ h
  | moduleRead q => exact execModuleRead_keeps _ _ _ h
  | moduleWrite q => exact execModuleWrite_keeps _ _ _ h
  | ingestConfig q => exact execIngestConfig_keeps _ _ _ h
  | ingestStatus q => exact execIngestStatus_keeps _ _ _ h
  | streamConfig q => exact execStreamConfig_keeps _ _ _ h
  | streamEnable q => exact execStreamEnable_keeps _ _ _ h
  | streamDisable q => exact execStreamDisable_keeps _ _ _ h
  | streamStatus q => exact execStreamStatus_keeps _ _ _ h
  | flowSet q => exact execFlowSet_keeps _ _ _ h
  | chanConfig q => exact execChanConfig_keeps _ _ _ h
  | chanSync q => exact execChanSync_keeps _ _ _ h
  | chanCoefLoad q => exact execChanCoefLoad_keeps _ _ _ h
  | chanCoefSwap q => exact execChanCoefSwap_keeps _ _ _ h
  | chanGainMode q => exact execChanGainMode_keeps _ _ _ h
  | chanGainSet q => exact execChanGainSet_keeps _ _ _ h
  | chanStatsConfig q => exact execChanStatsConfig_keeps _ _ _ h
  | chanStatsRead q => exact execChanStatsRead_keeps _ _ _ h
  | chanStatus q => exact execChanStatus_keeps _ _ _ h
  | schedLoad q => exact execSchedLoad_keeps _ _ _ h
  | schedSelect q => exact execSchedSelect_keeps _ _ _ h
  | schedConfig q => exact execSchedConfig_keeps _ _ _ h
  | schedShed q => exact execSchedShed_keeps _ _ _ h
  | schedStop q => exact execSchedStop_keeps _ _ _ h
  | schedStatus q => exact execSchedStatus_keeps _ _ _ h
  | arrayConfig q => exact execArrayConfig_keeps _ _ _ h
  | arrayTest q => exact execArrayTest_keeps _ _ _ h
  | arrayStatus q => exact execArrayStatus_keeps _ _ _ h
  | beamConfig q => exact execBeamConfig_keeps _ _ _ h
  | beamWeightLoad q => exact execBeamWeightLoad_keeps _ _ _ h
  | beamWeightMap q => exact execBeamWeightMap_keeps _ _ _ h
  | beamWatch q => exact execBeamWatch_keeps _ _ _ h
  | beamStatus q => exact execBeamStatus_keeps _ _ _ h
  | pegServiceConfig q => exact execPegServiceConfig_keeps _ _ _ h
  | pegRestart q => exact execPegRestart_keeps _ _ _ h
  | pegStatus q => exact execPegStatus_keeps _ _ _ h
  | claspConfig q => exact execClaspConfig_keeps _ _ _ h
  | claspTableLoad q => exact execClaspTableLoad_keeps _ _ _ h
  | claspCurveLoad q => exact execClaspCurveLoad_keeps _ _ _ h
  | claspStatus q => exact execClaspStatus_keeps _ _ _ h
  | facetConfig q => exact execFacetConfig_keeps _ _ _ h
  | facetStatus q => exact execFacetStatus_keeps _ _ _ h
  | packConfig q => exact execPackConfig_keeps _ _ _ h
  | packEncode q => exact execPackEncode_keeps _ _ _ h
  | packStatus q => exact execPackStatus_keeps _ _ _ h
  | ostreamConfig q => exact execOstreamConfig_keeps _ _ _ h
  | ostreamStatus q => exact execOstreamStatus_keeps _ _ _ h
  | egressConfig q => exact execEgressConfig_keeps _ _ _ h
  | egressStatus q => exact execEgressStatus_keeps _ _ _ h
  | hostringConfig q => exact execHostringConfig_keeps _ _ _ h
  | dramConfig q => exact execDramConfig_keeps _ _ _ h
  | dramRetrain q => exact execDramRetrain_keeps _ _ _ h
  | dramStatus q => exact execDramStatus_keeps _ _ _ h
  | storeConfig q => exact execStoreConfig_keeps _ _ _ h
  | storeStatus q => exact execStoreStatus_keeps _ _ _ h
  | dmaCopy q => exact execDmaCopy_keeps _ _ _ h
  | dmaAbort q => exact execDmaAbort_keeps _ _ _ h
  | dmaStatus q => exact execDmaStatus_keeps _ _ _ h
  | healthConfig q => exact execHealthConfig_keeps _ _ _ h
  | healthAdcRead q => exact execHealthAdcRead_keeps _ _ _ h
  | healthAdcInject q => exact execHealthAdcInject_keeps _ _ _ h
  | healthAdcCal q => exact execHealthAdcCal_keeps _ _ _ h
  | healthFanConfig q => exact execHealthFanConfig_keeps _ _ _ h
  | healthStatus q => exact execHealthStatus_keeps _ _ _ h
  | recStatus q => exact execRecStatus_keeps _ _ _ h
  | recRead q => exact execRecRead_keeps _ _ _ h
  | recExport q => exact execRecExport_keeps _ _ _ h
  | recClear q => exact execRecClear_keeps _ _ _ h
  | twinConfig q => exact execTwinConfig_keeps _ _ _ h
  | twinCheckpoint q => exact execTwinCheckpoint_keeps _ _ _ h
  | twinStatus q => exact execTwinStatus_keeps _ _ _ h
  | fwInfo q => exact execFwInfo_keeps _ _ _ h
  | fwUpdateBegin q => exact execFwUpdateBegin_keeps _ _ _ h
  | fwUpdateData q => exact execFwUpdateData_keeps _ _ _ h
  | fwUpdateEnd q => exact execFwUpdateEnd_keeps _ _ _ h
  | fwUpdateAbort q => exact execFwUpdateAbort_keeps _ _ _ h
  | fwKeyEnroll q => exact execFwKeyEnroll_keeps _ _ _ h
  | pegKernelLoad q => exact execPegKernelLoad_keeps _ _ _ h
  | testEcho q => exact execTestEcho_keeps _ _ _ h
  | testEvent q => exact execTestEvent_keeps _ _ _ h
  | unknownOpcode op q => exact execUnknownOpcode_keeps _ _ _ _ h
  | doorbell requester value => exact execDoorbell_keeps _ _ _ _ h
  | mailboxRequestWrite slot offset data => exact execMailboxRequestWrite_keeps _ _ _ _ _ h
  | respReadyWrite value => exact execRespReadyWrite_keeps _ _ _ h
  | intCauseWrite value => exact execIntCauseWrite_keeps _ _ _ h
  | hostringReadWrite ring value => exact execHostringReadWrite_keeps _ _ _ _ h
  | evrReadWrite value => exact execEvrReadWrite_keeps _ _ _ h
  | evrCtrlWrite value => exact execEvrCtrlWrite_keeps _ _ _ h
  | evrBaseWrite value => exact execEvrBaseWrite_keeps _ _ _ h
  | evrLostRead => exact execEvrLostRead_keeps _ _ h
  | doorbellInvalidRead => exact execDoorbellInvalidRead_keeps _ _ h
  | mailboxWriteLockedRead => exact execMailboxWriteLockedRead_keeps _ _ h
  | poisonedWrite offset => exact execPoisonedWrite_keeps _ _ _ h
  | hostInterfaceReset kind => exact execHostInterfaceReset_keeps _ _ _ h
  | busMasterOrD3 busMaster d3 control aerClear => exact execBusMasterOrD3_keeps _ _ _ _ _ _ h
  | hostCompletionError ch poisoned => exact execHostCompletionError_keeps _ _ _ _ h
  | ridgeBeginsRequest => exact execRidgeBeginsRequest_keeps _ _ h
  | eventEntryWrite => exact execEventEntryWrite_keeps _ _ h
  | interruptCoalesceTimeout cause => exact execInterruptCoalesceTimeout_keeps _ _ _ h
  | frameTick => exact execFrameTick_keeps _ _ h
  | guardStart => exact execGuardStart_keeps _ _ h
  | degradedHoldoffEnd => exact execDegradedHoldoffEnd_keeps _ _ h
  | txnApply => exact execTxnApply_keeps _ _ h
  | txnValidationDone => exact execTxnValidationDone_keeps _ _ h
  | txnExpiry => exact execTxnExpiry_keeps _ _ h
  | schedLoadVerdict => exact execSchedLoadVerdict_keeps _ _ h
  | stopFrameReached => exact execStopFrameReached_keeps _ _ h
  | gulFrameReceive quad f => exact execGulFrameReceive_keeps _ _ _ _ h
  | ethFrameReceive quad data => exact execEthFrameReceive_keeps _ _ _ _ h
  | holeDeadline stream => exact execHoleDeadline_keeps _ _ _ h
  | heldPacketRelease stream => exact execHeldPacketRelease_keeps _ _ _ h
  | channeliserStep input coarse n => exact execChanneliserStep_keeps _ _ _ _ _ h
  | syncInEdge width => exact execSyncInEdge_keeps _ _ _ h
  | syncReset => exact execSyncReset_keeps _ _ h
  | statsIntervalEnd slice => exact execStatsIntervalEnd_keeps _ _ _ h
  | storeBurstDiscard => exact execStoreBurstDiscard_keeps _ _ h
  | chunkRead c ue => exact execChunkRead_keeps _ _ _ _ h
  | rfiFlagWrite input pos granule => exact execRfiFlagWrite_keeps _ _ _ _ _ h
  | correlationPass array x ce ue => exact execCorrelationPass_keeps _ _ _ _ _ _ h
  | chainShift array due => exact execChainShift_keeps _ _ _ _ h
  | landingBufferMove array turnaround ce ue => exact execLandingBufferMove_keeps _ _ _ _ _ _ h
  | beamSegment x ce ue ecc => exact execBeamSegment_keeps _ _ _ _ _ _ h
  | segmentReadout set pos m ce ue partialUe => exact execSegmentReadout_keeps _ _ _ _ _ _ _ _ h
  | peakListEmit watch => exact execPeakListEmit_keeps _ _ _ h
  | tileClaim job => exact execTileClaim_keeps _ _ _ h
  | spillPlaneTake job => exact execSpillPlaneTake_keeps _ _ _ h
  | tileReadout job ce ue => exact execTileReadout_keeps _ _ _ _ _ h
  | laDump job complete ue => exact execLaDump_keeps _ _ _ _ _ h
  | packItemArrive engine read => exact execPackItemArrive_keeps _ _ _ _ h
  | packItemDone engine => exact execPackItemDone_keeps _ _ _ h
  | egressAgeExpiry quad => exact execEgressAgeExpiry_keeps _ _ _ h
  | datagramTransmit quad => exact execDatagramTransmit_keeps _ _ _ h
  | pauseFrameReceive quad => exact execPauseFrameReceive_keeps _ _ _ h
  | hostRingWrite ring => exact execHostRingWrite_keeps _ _ _ h
  | hostringAgeExpiry ring => exact execHostringAgeExpiry_keeps _ _ _ h
  | loadDecodeDone ue engine => exact execLoadDecodeDone_keeps _ _ _ _ h
  | pegAdd p d a b => exact execPegAdd_keeps _ _ _ _ _ _ h
  | pegSub p d a b => exact execPegSub_keeps _ _ _ _ _ _ h
  | pegAnd p d a b => exact execPegAnd_keeps _ _ _ _ _ _ h
  | pegOr p d a b => exact execPegOr_keeps _ _ _ _ _ _ h
  | pegXor p d a b => exact execPegXor_keeps _ _ _ _ _ _ h
  | pegMin p d a b => exact execPegMin_keeps _ _ _ _ _ _ h
  | pegMax p d a b => exact execPegMax_keeps _ _ _ _ _ _ h
  | pegAbs p d a => exact execPegAbs_keeps _ _ _ _ _ h
  | pegAdds p d a b => exact execPegAdds_keeps _ _ _ _ _ _ h
  | pegShl p d a b => exact execPegShl_keeps _ _ _ _ _ _ h
  | pegShr p d a b => exact execPegShr_keeps _ _ _ _ _ _ h
  | pegSar p d a b => exact execPegSar_keeps _ _ _ _ _ _ h
  | pegRot p d a b => exact execPegRot_keeps _ _ _ _ _ _ h
  | pegClz p d a => exact execPegClz_keeps _ _ _ _ _ h
  | pegPopc p d a => exact execPegPopc_keeps _ _ _ _ _ h
  | pegBitrev p d a => exact execPegBitrev_keeps _ _ _ _ _ h
  | pegExt p d a lsb len => exact execPegExt_keeps _ _ _ _ _ _ _ h
  | pegIns p d a lsb len => exact execPegIns_keeps _ _ _ _ _ _ _ h
  | pegPadd p d a b => exact execPegPadd_keeps _ _ _ _ _ _ h
  | pegPsub p d a b => exact execPegPsub_keeps _ _ _ _ _ _ h
  | pegPsat p d a b => exact execPegPsat_keeps _ _ _ _ _ _ h
  | pegCmp p d a b => exact execPegCmp_keeps _ _ _ _ _ _ h
  | pegBrCc p cc a target => exact execPegBrCc_keeps _ _ _ _ _ _ h
  | pegCall p target => exact execPegCall_keeps _ _ _ _ h
  | pegRet p a => exact execPegRet_keeps _ _ _ _ h
  | pegJmp p target => exact execPegJmp_keeps _ _ _ _ h
  | pegLd p d k => exact execPegLd_keeps _ _ _ _ _ h
  | pegLdh p d k => exact execPegLdh_keeps _ _ _ _ _ h
  | pegLdb p d k => exact execPegLdb_keeps _ _ _ _ _ h
  | pegSt p a k => exact execPegSt_keeps _ _ _ _ _ h
  | pegSth p a k => exact execPegSth_keeps _ _ _ _ _ h
  | pegStb p a k => exact execPegStb_keeps _ _ _ _ _ h
  | pegMovp p k a => exact execPegMovp_keeps _ _ _ _ _ h
  | pegMovm p k a => exact execPegMovm_keeps _ _ _ _ _ h
  | pegMovcb p k a => exact execPegMovcb_keeps _ _ _ _ _ h
  | pegMovcl p k a => exact execPegMovcl_keeps _ _ _ _ _ h
  | pegQmac p a b => exact execPegQmac_keeps _ _ _ _ _ h
  | pegQmacL p a b x k => exact execPegQmacL_keeps _ _ _ _ _ _ _ h
  | pegQmacN p a b => exact execPegQmacN_keeps _ _ _ _ _ h
  | pegSmac p a b k => exact execPegSmac_keeps _ _ _ _ _ _ h
  | pegSmacN p a b k => exact execPegSmacN_keeps _ _ _ _ _ _ h
  | pegAccrd p d k sh => exact execPegAccrd_keeps _ _ _ _ _ _ h
  | pegAccmv p d k hi => exact execPegAccmv_keeps _ _ _ _ _ _ h
  | pegAccclr p mask => exact execPegAccclr_keeps _ _ _ _ h
  | pegLoop p k a last => exact execPegLoop_keeps _ _ _ _ _ _ h
  | pegXfer p d t => exact execPegXfer_keeps _ _ _ _ _ h
  | pegXwait p mask target => exact execPegXwait_keeps _ _ _ _ _ h
  | pegWait p => exact execPegWait_keeps _ _ _ h
  | pegReti p => exact execPegReti_keeps _ _ _ h
  | pegMovstat p x toStat r => exact execPegMovstat_keeps _ _ _ _ _ _ h
  | pegSignal p peer => exact execPegSignal_keeps _ _ _ _ h
  | pegSettimer p a => exact execPegSettimer_keeps _ _ _ _ h
  | pegTrap p => exact execPegTrap_keeps _ _ _ h
  | pegNop p => exact execPegNop_keeps _ _ _ h
  | pegInterruptEntry p => exact execPegInterruptEntry_keeps _ _ _ h
  | pegTimerCompare p => exact execPegTimerCompare_keeps _ _ _ h
  | pegDoorbell p => exact execPegDoorbell_keeps _ _ _ h
  | xferComplete p smem fail ue => exact execXferComplete_keeps _ _ _ _ _ _ h
  | alignBlockReceive lane b skew => exact execAlignBlockReceive_keeps _ _ _ _ _ h
  | alignMissing lane => exact execAlignMissing_keeps _ _ _ h
  | blockLockAcquired lane headers => exact execBlockLockAcquired_keeps _ _ _ _ h
  | blockLockLost lane headers => exact execBlockLockLost_keeps _ _ _ _ h
  | fecCodeword lane w => exact execFecCodeword_keeps _ _ _ _ h
  | trainBlockReceive lane b => exact execTrainBlockReceive_keeps _ _ _ _ h
  | capBlockReceive quad b => exact execCapBlockReceive_keeps _ _ _ _ h
  | napReq quad => exact execNapReq_keeps _ _ _ h
  | napAck quad => exact execNapAck_keeps _ _ _ h
  | napNak quad => exact execNapNak_keeps _ _ _ h
  | napIdleTimer quad => exact execNapIdleTimer_keeps _ _ _ h
  | fastExit quad own lanes => exact execFastExit_keeps _ _ _ _ _ h
  | fastExitTimeout quad => exact execFastExitTimeout_keeps _ _ _ h
  | receiverDetect quad present => exact execReceiverDetect_keeps _ _ _ _ h
  | trainTimeout quad => exact execTrainTimeout_keeps _ _ _ h
  | lockTimeout quad => exact execLockTimeout_keeps _ _ _ h
  | exchangeTimeout quad => exact execExchangeTimeout_keeps _ _ _ h
  | quadLost quad => exact execQuadLost_keeps _ _ _ h
  | ethLinkChange quad change => exact execEthLinkChange_keeps _ _ _ _ h
  | patternCheckLock lane bits => exact execPatternCheckLock_keeps _ _ _ _ h
  | moduleInsert quad identity applications => exact execModuleInsert_keeps _ _ _ _ _ h
  | moduleRemove quad => exact execModuleRemove_keeps _ _ _ h
  | modulePoll quad flags => exact execModulePoll_keeps _ _ _ _ h
  | ppsEdge inputB width deviation => exact execPpsEdge_keeps _ _ _ _ _ h
  | tb0Second phases => exact execTb0Second_keeps _ _ _ h
  | refVerdict present => exact execRefVerdict_keeps _ _ _ h
  | referenceSwitch step => exact execReferenceSwitch_keeps _ _ _ h
  | ptpMessageReceive quad domain m => exact execPtpMessageReceive_keeps _ _ _ _ _ h
  | ptpAnnounceTimeout => exact execPtpAnnounceTimeout_keeps _ _ h
  | ptpRelayFrame fromB f => exact execPtpRelayFrame_keeps _ _ _ _ h
  | timeTriggerFire trigger => exact execTimeTriggerFire_keeps _ _ _ h
  | tb3MirrorUpdate => exact execTb3MirrorUpdate_keeps _ _ h
  | adcTrigEdge width => exact execAdcTrigEdge_keeps _ _ _ h
  | fanTachEdge fan width => exact execFanTachEdge_keeps _ _ _ _ h
  | pinStuck pin => exact execPinStuck_keeps _ _ _ h
  | dramRead addr devices cls wait reissues => exact execDramRead_keeps _ _ _ _ _ _ _ h
  | dramWrite ch reissues => exact execDramWrite_keeps _ _ _ _ h
  | channelLost ch cause => exact execChannelLost_keeps _ _ _ _ h
  | refresh ch bank postpone => exact execRefresh_keeps _ _ _ _ _ h
  | pageIdleClose ch bank => exact execPageIdleClose_keeps _ _ _ _ h
  | recentre byteLane readCentre writeCentre window ue => exact execRecentre_keeps _ _ _ _ _ _ _ h
  | dimmTempPoll ch dimm temp => exact execDimmTempPoll_keeps _ _ _ _ _ h
  | patrolScrub correctable bad => exact execPatrolScrub_keeps _ _ _ _ h
  | crossbarRequest master target source addr bytes beats data => exact execCrossbarRequest_keeps _ _ _ _ _ _ _ _ _ h
  | portIdle target => exact execPortIdle_keeps _ _ _ h
  | targetReset target down => exact execTargetReset_keeps _ _ _ _ h
  | dmaBurst ch part answer => exact execDmaBurst_keeps _ _ _ _ _ h
  | dmaDescriptorComplete ch => exact execDmaDescriptorComplete_keeps _ _ _ h
  | vin12Rise => exact execVin12Rise_keeps _ _ h
  | resetRelease => exact execResetRelease_keeps _ _ h
  | supplyRestart => exact execSupplyRestart_keeps _ _ h
  | vmodOverload k => exact execVmodOverload_keeps _ _ _ h
  | vmodRetry k => exact execVmodRetry_keeps _ _ _ h
  | boot b => exact execBoot_keeps _ _ _ h
  | bootZeroingDone => exact execBootZeroingDone_keeps _ _ h
  | bootTimeout => exact execBootTimeout_keeps _ _ h
  | updateReboot => exact execUpdateReboot_keeps _ _ h
  | powerMonitorExceeded watts level => exact execPowerMonitorExceeded_keeps _ _ _ _ h
  | adcRoundEnd codes => exact execAdcRoundEnd_keeps _ _ _ h
  | adcInjectConversion entry raw => exact execAdcInjectConversion_keeps _ _ _ _ h
  | adcInjectTimer entry => exact execAdcInjectTimer_keeps _ _ _ h
  | adcCalStepDone sum => exact execAdcCalStepDone_keeps _ _ _ h
  | fanCycle => exact execFanCycle_keeps _ _ h
  | fanLoopIdle => exact execFanLoopIdle_keeps _ _ h
  | fanFail fan => exact execFanFail_keeps _ _ _ h
  | epochEnd => exact execEpochEnd_keeps _ _ h
  | recordSeal v => exact execRecordSeal_keeps _ _ _ h
  | hbInEdge width => exact execHbInEdge_keeps _ _ _ h
  | heartbeat m => exact execHeartbeat_keeps _ _ _ h
  | checkpoint m => exact execCheckpoint_keeps _ _ _ h
  | checkpointStale => exact execCheckpointStale_keeps _ _ h
  | handover m => exact execHandover_keeps _ _ _ h
  | reclaim m => exact execReclaim_keeps _ _ _ h
  | reclaimAck m => exact execReclaimAck_keeps _ _ _ h
  | takeover => exact execTakeover_keeps _ _ h
  | takeoverComplete => exact execTakeoverComplete_keeps _ _ h
  | yieldLead => exact execYieldLead_keeps _ _ h
  | ridgeHeartbeatWithdraw => exact execRidgeHeartbeatWithdraw_keeps _ _ h
  | hbPathDown link => exact execHbPathDown_keeps _ _ _ h
  | configMismatch => exact execConfigMismatch_keeps _ _ h
  | twinSkew => exact execTwinSkew_keeps _ _ h
  | arrayTestDone passed => exact execArrayTestDone_keeps _ _ _ h
  | dramRetrainDone passed lanes => exact execDramRetrainDone_keeps _ _ _ _ h
  | packEncodeDone => exact execPackEncodeDone_keeps _ _ h
  | fwUpdateDataDone retriesFailed => exact execFwUpdateDataDone_keeps _ _ _ h
  | fwUpdateCheckDone engine => exact execFwUpdateCheckDone_keeps _ _ _ h
  | fwKeyEnrollDone verified => exact execFwKeyEnrollDone_keeps _ _ _ h
  | recClearDone => exact execRecClearDone_keeps _ _ h
  | recReadDone fail => exact execRecReadDone_keeps _ _ _ h
  | chanStatsReadDone fail => exact execChanStatsReadDone_keeps _ _ _ h
  | bulkTransferTimeout slot => exact execBulkTransferTimeout_keeps _ _ _ h
  | followerHeartbeatToggle => exact execFollowerHeartbeatToggle_keeps _ _ h
  | pinStuckRelease pin => exact execPinStuckRelease_keeps _ _ _ h
  | pcieLinkTrained gen width => exact execPcieLinkTrained_keeps _ _ _ _ h
  | fanPwmEdge fan => exact execFanPwmEdge_keeps _ _ _ h
  | tetherControlWordWrite offset value => cases hw
  | tetherLockWrite value => cases hw
  | tetherFieldWrite offset data => cases hw
  | registerWrite requester offset data =>
    exact ⟨execRegisterWrite_pending _ _ _ _ _ h, execRegisterWrite_tether _ _ _ _ _ h (.inr (by simpa [windowWrite] using hw))⟩
  | resetNAssert => cases hp
  | supplyFault cause => cases hp
  | thermalTrip sensor => cases hp
  | vin12Removed => cases hp

theorem windowWrite_cases {c : Instr} (h : windowWrite c = true) :
    (∃ v, c = .tetherLockWrite v) ∨ (∃ o v, c = .tetherControlWordWrite o v) ∨ (∃ o d, c = .tetherFieldWrite o d) ∨
      (∃ r o d, c = .registerWrite r o d ∧ 0x1000000 ≤ o.toNat) := by
  cases c <;> simp_all [windowWrite]

theorem powerLoss_cases {c : Instr} (h : powerLoss c = true) :
    c = .resetNAssert ∨ (∃ x, c = .supplyFault x) ∨ c = .vin12Removed ∨ (∃ x, c = .thermalTrip x) := by
  cases c <;> simp_all [powerLoss]

/-- A write to the window leaves the queue, and a locked window too. -/
theorem exec_windowWrite (c : Instr) (s t : State) (hw : windowWrite c = true) (h : exec c s = .next t) :
    t.pending = s.pending ∧ (s.tether.lock = true → t.tether = s.tether) := by
  obtain ⟨v, rfl⟩ | ⟨o, v, rfl⟩ | ⟨o, d, rfl⟩ | ⟨r, o, d, rfl, _⟩ := windowWrite_cases hw
  · exact ⟨execTetherLockWrite_pending _ _ _ h, fun hl => tetherWrite_locked _ _ _ hl h⟩
  · exact ⟨execTetherControlWordWrite_pending _ _ _ _ h, fun hl => tetherWrite_locked _ _ _ hl h⟩
  · exact ⟨execTetherFieldWrite_pending _ _ _ _ h, fun hl => tetherWrite_locked _ _ _ hl h⟩
  · exact ⟨execRegisterWrite_pending _ _ _ _ _ h, fun hl => execRegisterWrite_tether _ _ _ _ _ h (.inl hl)⟩

/-- A loss of reset or power leaves the queue, and the window either as it was or at its reset value. -/
theorem exec_powerLoss (c : Instr) (s t : State) (hp : powerLoss c = true) (h : exec c s = .next t) :
    t.pending = s.pending ∧ (t.tether = s.tether ∨ t.tether = {}) := by
  obtain rfl | ⟨x, rfl⟩ | rfl | ⟨x, rfl⟩ := powerLoss_cases hp
  · exact execResetNAssert_outcome _ _ h
  · exact execSupplyFault_outcome _ _ _ h
  · exact execVin12Removed_outcome _ _ h
  · exact execThermalTrip_outcome _ _ _ h

theorem exec_pending (c : Instr) (s t : State) (h : exec c s = .next t) : t.pending = s.pending := by
  cases hw : windowWrite c
  · cases hp : powerLoss c
    · exact (exec_keeps c s t hw hp h).1
    · exact (exec_powerLoss c s t hp h).1
  · exact (exec_windowWrite c s t hw h).1

/-- R361, R363: a locked window stands through every command but a loss of reset or power. -/
theorem exec_lockedTether (c : Instr) (s t : State) (hl : s.tether.lock = true) (hp : powerLoss c = false)
    (h : exec c s = .next t) : t.tether = s.tether := by
  cases hw : windowWrite c
  · exact (exec_keeps c s t hw hp h).2
  · exact (exec_windowWrite c s t hw h).2 hl

theorem powerLoss_eq_false {c : Instr} (h1 : c ≠ .resetNAssert) (h2 : ∀ x, c ≠ .supplyFault x) (h3 : c ≠ .vin12Removed)
    (h4 : ∀ x, c ≠ .thermalTrip x) : powerLoss c = false := by
  by_contra hp
  obtain h | ⟨x, h⟩ | h | ⟨x, h⟩ := powerLoss_cases (Bool.eq_true_of_not_eq_false hp)
  · exact h1 h
  · exact h2 x h
  · exact h3 h
  · exact h4 x h

theorem idle_tether (s : State) : (idle s).tether = s.tether := by
  unfold idle; split <;> simp

end Sys2Proof.Laws

namespace Sys2Proof.Proofs
open Sys2Proof.Machine Sys2Proof.Laws

/-- Settles O1: `step` is `exec` of the front of the queue, and `idle` with none. -/
theorem stepTakesFrontCommand : Obligations.StepTakesFrontCommand := by
  unfold Obligations.StepTakesFrontCommand
  refine ⟨fun c rest s => rfl, fun s hq hoff => ?_, fun s hq hon => ?_⟩
  · simp [step, hq, idle, hoff]
  · simp [step, hq, idle, hon]

/-- Settles O2, by the keep lemma of each command. -/
theorem everyCommandKeepsTheQueue : Obligations.EveryCommandKeepsTheQueue :=
  exec_pending

/-- Settles O13: an idle step leaves the window, and so does each command on a locked one. -/
theorem lockedTetherNeverChanges : Obligations.LockedTetherNeverChanges := by
  unfold Obligations.LockedTetherNeverChanges
  intro s t hl hstep hfront
  unfold step at hstep
  split at hstep
  next => cases hstep; exact idle_tether s
  next c rest hq =>
    obtain ⟨h1, h2, h3, h4⟩ := hfront c (by simp [hq])
    exact exec_lockedTether c { s with pending := rest } t hl (powerLoss_eq_false h1 h2 h3 h4) hstep

/-- Settles O14: a command that is neither a write to the window nor a loss of reset or power keeps the window. -/
theorem onlyTheHostWritesTheTether : Obligations.OnlyTheHostWritesTheTether := by
  unfold Obligations.OnlyTheHostWritesTheTether
  intro c s t h hne
  cases hw : windowWrite c
  · cases hp : powerLoss c
    · exact absurd (exec_keeps c s t hw hp h).2 hne
    · exact .inr ⟨powerLoss_cases hp, ((exec_powerLoss c s t hp h).2.resolve_left hne)⟩
  · exact .inl (windowWrite_cases hw)

end Sys2Proof.Proofs
end

section
/-! SUPPORT. What an active Kenra request does where its checks pass, and how the Ridge reads a request from its slot
(spec/16_kenra_commands.md R351, R366, R374, Table 16.1). -/

namespace Sys2Proof.Laws
open Sys2Proof Sys2Proof.Machine

/-! Effect and answer (R351, R367, R374). -/

theorem kenraStep_sampled (c : Instr) (k : Spec) (q : Request) (s : State) (l : List Byte) (h : s.host.sample = some l) :
    kenraStep c k q s = respond k.opcode q .ok 0 0 l (touchTxn k q s) := by
  have h : (touchTxn k q s).host.sample = some l := h
  simp only [kenraStep, h]

theorem kenraStep_takes (c : Instr) (k : Spec) (q : Request) (s : State) (hSample : s.host.sample = none)
    (h : checkRequest c k q (touchTxn k q s) = none) (hBegun : ¬isStagedSetting k q (touchTxn k q s)) :
    kenraStep c k q s = (
      let s := touchTxn k q s
      if k.event then respond k.opcode q .accepted 0 0 (k.result s q) (k.act q (owe c q s))
      else respond k.opcode q .ok 0 (k.txnOut s) (k.result s q) (k.act q s)) := by
  have hSample : (touchTxn k q s).host.sample = none := hSample
  simp only [kenraStep, hSample, h, if_neg (stagedTest_of_begun k q _ hBegun)]

theorem whenActive_of_inactive (c : Instr) (f : State → State) (s : State) (h : isActive c s = false) :
    whenActive c f s = .next s := by
  simp [whenActive, whenOn, h]

theorem exec_kenra_inactive (c : Instr) (k : Spec) (q : Request) (s : State) (h : kenraOf c = some (k, q))
    (hInactive : isActive c s = false) : exec c s = .next s := by
  by_cases hRestart : ∃ r, c = .sysRestart r
  · obtain ⟨r, rfl⟩ := hRestart
    rw [show exec (.sysRestart r) s = execSysRestart r s from rfl, execSysRestart, bootAfter, whenActive_of_inactive _ _ s hInactive]
  by_cases hAbort : ∃ r, c = .fwUpdateAbort r
  · obtain ⟨r, rfl⟩ := hAbort
    rw [show exec (.fwUpdateAbort r) s = execFwUpdateAbort r s from rfl, execFwUpdateAbort, bootAfter,
      whenActive_of_inactive _ _ s hInactive]
  · rw [exec_kenra c k q s h (not_exists.mp hRestart) (not_exists.mp hAbort), kenra, whenActive_of_inactive c _ s hInactive]

theorem bootAfter_passes (cause : Nat) (c : Instr) (k : Spec) (q : Request) (s : State) (hOn : s.dev.state ≠ .off)
    (hActive : isActive c s = true) (h : checkRequest c k q (touchTxn k q s) = none) :
    bootAfter cause c k q s = .next (enterBoot cause (kenraStep c k q s)) := by
  rw [bootAfter, whenActive_of_active c _ s hOn hActive]
  simp only [h, Option.isNone_none, if_true]

/-! The request half of a slot (Table 16.1). -/

theorem kenraOf_opcode (c : Instr) (k : Spec) (q : Request) (h : kenraOf c = some (k, q)) : k.opcode < 2 ^ 16 := by
  cases c <;> cases h <;> decide

theorem memRead_request (m : Memory) (op : Nat) (q : Request) (o n : Nat) (h : o + n ≤ (requestBytes op q).length) :
    memRead (memWrite m 0 (requestBytes op q)) o n = ((requestBytes op q).drop o).take n := by
  simpa using memRead_memWrite_part m 0 (requestBytes op q) o n h

theorem requestBytes_length (op : Nat) (q : Request) : (requestBytes op q).length = 32 + q.arg.length := by
  simp only [requestBytes, List.length_append, leBytes_length]

/-- What the Ridge copies from a slot whose request half holds the bytes of a request is that request (R366). -/
theorem copyRequest_requestBytes (op : Nat) (q : Request) (s : State) (m : Memory) (hop : op < 2 ^ 16)
    (hlen : q.arg.length = q.argLength.toNat) (hfits : q.arg.length ≤ 4064)
    (h : (slot s q.slot.toNat).request = memWrite m 0 (requestBytes op q)) :
    copyRequest q.slot.toNat s = (op, q) := by
  have hread : ∀ o n, o + n ≤ 32 + q.arg.length →
      memRead (slot s q.slot.toNat).request o n = ((requestBytes op q).drop o).take n := fun o n hon => by
    rw [h, memRead_request _ _ _ _ _ (by rwa [requestBytes_length])]
  have field : ∀ (o n v : Nat) (l1 l2 : List Byte), requestBytes op q = l1 ++ (leBytes n v ++ l2) → l1.length = o → v < 256 ^ n →
      o + n ≤ 32 → leVal (memRead (slot s q.slot.toNat).request o n) = v := by
    intro o n v l1 l2 hsplit ho hv hin
    rw [hread o n (by omega), hsplit, List.drop_left' ho, List.take_left' (leBytes_length n v), leVal_leBytes n v hv]
  have hOp := field 0 2 op [] _ (by simp only [requestBytes, List.append_assoc]; rfl) rfl (by omega) (by omega)
  have hFlags := field 2 2 q.flags.toNat (leBytes 2 op) _ (by simp only [requestBytes, List.append_assoc]; rfl) (by simp)
    (by omega) (by omega)
  have hTag := field 4 4 q.tag.toNat (leBytes 2 op ++ leBytes 2 q.flags.toNat) _
    (by simp only [requestBytes, List.append_assoc]; rfl) (by simp) (by omega) (by omega)
  have hTxn := field 8 4 q.txnId.toNat (leBytes 2 op ++ leBytes 2 q.flags.toNat ++ leBytes 4 q.tag.toNat) _
    (by simp only [requestBytes, List.append_assoc]; rfl) (by simp) (by omega) (by omega)
  have hLength := field 12 2 q.argLength.toNat
    (leBytes 2 op ++ leBytes 2 q.flags.toNat ++ leBytes 4 q.tag.toNat ++ leBytes 4 q.txnId.toNat) _
    (by simp only [requestBytes, List.append_assoc]; rfl) (by simp) (by omega) (by omega)
  have hVersion := field 14 2 q.version.toNat (leBytes 2 op ++ leBytes 2 q.flags.toNat ++ leBytes 4 q.tag.toNat ++
    leBytes 4 q.txnId.toNat ++ leBytes 2 q.argLength.toNat) _
    (by simp only [requestBytes, List.append_assoc]; rfl) (by simp) (by omega) (by omega)
  have hReserved := field 16 16 q.reserved.toNat (leBytes 2 op ++ leBytes 2 q.flags.toNat ++ leBytes 4 q.tag.toNat ++
    leBytes 4 q.txnId.toNat ++ leBytes 2 q.argLength.toNat ++ leBytes 2 q.version.toNat) _
    (by simp only [requestBytes, List.append_assoc]; rfl) (by simp) (by omega) (by omega)
  have hArg : memRead (slot s q.slot.toNat).request 32 q.argLength.toNat = q.arg := by
    rw [hread 32 _ (by omega), ← hlen, requestBytes, List.drop_left' (by simp), List.take_length]
  simp only [copyRequest, hOp, hFlags, hTag, hTxn, hLength, hVersion, hReserved, hArg, if_pos (hlen ▸ hfits),
    BitVec.ofNat_toNat, BitVec.setWidth_eq]

/-- The request that the Ridge begins (R351): its slot active, and it the active request. -/
def begun (c : Instr) (k : Nat) (s : State) : State :=
  { modSlot k (fun x => { x with state := .active }) s with host.active := some (c, k, false) }

theorem copyRequest_begun (k : Nat) (s : State) (c : Instr) : copyRequest k (begun c k s) = copyRequest k s := by
  have hslot : slot (begun c k s) k = { slot s k with state := .active } :=
    slot_modSlot k (fun x => { x with state := .active }) s
  simp only [copyRequest, hslot]

theorem exec_ridgeBeginsRequest (s : State) (n : Nat) (rest : List Nat) (hOn : s.dev.state ≠ .off) (hFree : s.host.active = none)
    (hQueue : s.host.queue = n :: rest) :
    exec .ridgeBeginsRequest s = .next (beginRequest n { s with host.queue := rest, twin.armed := true }) := by
  rw [show exec .ridgeBeginsRequest s = execRidgeBeginsRequest s from rfl, execRidgeBeginsRequest, Proofs.whenOn_of_on _ s hOn]
  simp only [hFree, hQueue]

/-- A request of the tables begun: checked, and a STATUS sampled (R351, R367, R374). -/
theorem beginRequest_kenra (n : Nat) (s : State) (c : Instr) (k : Spec) (q : Request) (h : kenraOf c = some (k, q))
    (hc : instrOf k.opcode q = c) (hcopy : copyRequest n s = (k.opcode, q)) :
    beginRequest n s =
      if (checkRequest c k q (begun c n s)).isSome then kenraStep c k q (begun c n s)
      else if k.sampled then { k.act q (begun c n s) with host.sample := some (k.result (begun c n s) q) }
      else begun c n s := by
  have hslot : copyRequest n (modSlot n (fun x => { x with state := .active }) s) = (k.opcode, q) :=
    (copyRequest_begun n s c).trans hcopy
  simp only [beginRequest, hslot, hc, h]
  rfl

/-- Every command's opcode, with its request, names it again (R366, R378). -/
theorem opcodeRoundTrip (c : Instr) : OpcodeRoundTrip.Statement c := by
  intro k q h
  cases c <;> cases h <;> rfl

end Sys2Proof.Laws
end

section
/-! Kenra commands that complete, and how they reach the Ridge (spec/16_kenra_commands.md R366, R367, R374, R378). -/

namespace Sys2Proof.Proofs
open Sys2Proof Sys2Proof.Machine Sys2Proof.Laws

/-- Settles O4: the active command is `kenraStep`, of which a sample and a command that passes are one branch each. -/
theorem kenraCommandCompletes : Obligations.KenraCommandCompletes := by
  refine ⟨fun c k q s h hRestart hAbort hPasses => ?passes, fun c k q s l h hRestart hAbort hOn hActive hSample => ?sampled,
    fun c s hc hInactive => ?waits⟩
  case passes =>
    obtain ⟨hOn, hActive, hSample, hCheck, hBegun⟩ := hPasses
    rw [exec_kenra_active c k q s h hRestart hAbort hOn hActive, kenraStep_takes c k q s hSample hCheck]
    rintro ⟨hStaged, hLoad⟩
    simp [hStaged, hLoad] at hBegun
  case sampled =>
    rw [exec_kenra_active c k q s h hRestart hAbort hOn hActive, kenraStep_sampled c k q s l hSample]
  case waits =>
    obtain hc | ⟨op, q, rfl⟩ := hc
    · obtain ⟨⟨k, q⟩, h⟩ := Option.isSome_iff_exists.mp hc
      exact exec_kenra_inactive c k q s h hInactive
    · exact whenActive_of_inactive _ _ s hInactive

/-- Settles O7, by `bootAfter_passes`; the entry to BOOT sets the state. -/
theorem restartCommandsEnterBoot : Obligations.RestartCommandsEnterBoot := by
  refine ⟨fun q s hOn hActive hCheck => ⟨bootAfter_passes 10 _ _ q s hOn hActive hCheck, rfl⟩,
    fun q s hOn hActive hCheck => ⟨bootAfter_passes 9 _ _ q s hOn hActive hCheck, rfl⟩,
    fun op q s hOn hActive => whenActive_of_active _ _ s hOn hActive⟩

/-- Settles O16: the copy of a slot by `copyRequest_requestBytes`, its command by `opcodeRoundTrip`, and the beginning of a request
by `beginRequest_kenra`. -/
theorem mailboxCarriesEveryRequest : Obligations.MailboxCarriesEveryRequest := by
  refine ⟨opcodeRoundTrip, fun c k q s m h hlen hfits hslot => ?_⟩
  have hcopy := copyRequest_requestBytes k.opcode q s m (kenraOf_opcode c k q h) hlen hfits hslot
  have hc : instrOf k.opcode q = c := opcodeRoundTrip c k q h
  refine ⟨hcopy, hc, fun rest hOn hFree hQueue => ?_⟩
  have hexec := (exec_ridgeBeginsRequest s _ rest hOn hFree hQueue).trans
    (congrArg _ (beginRequest_kenra _ { s with host.queue := rest, twin.armed := true } c k q h hc hcopy))
  refine ⟨begun c q.slot.toNat { s with host.queue := rest, twin.armed := true }, rfl,
    slot_modSlot q.slot.toNat (fun x => { x with state := .active }) s,
    fun j hj => slot_modSlot_ne q.slot.toNat j (fun x => { x with state := .active }) s hj,
    fun hPass hSample => ?_, fun hPass hSample => ?_, fun st d hFails hCheck hSample => ?_⟩
  · simpa [hPass, hSample] using hexec
  · simpa [hPass, hSample] using hexec
  · rw [hexec, if_pos (Option.isSome_iff_ne_none.mpr hFails)]
    exact congrArg _ (kenraStep_refused c k q (begun c q.slot.toNat { s with host.queue := rest, twin.armed := true }) st d hSample hCheck)

end Sys2Proof.Proofs
end

section
/-! SUPPORT. Accesses to BAR0 that reach their registers (spec/15_host_interface.md R345, R347): the mailbox slots, the registers of
the event ring, the interrupts and the host rings, and the Tether window. -/

namespace Sys2Proof.Laws
open Sys2Proof Sys2Proof.Machine

/-! Accesses while the part is on and the function is in D0. -/

theorem barWrite_live (f : State → State) {s : State} (h : barLive s) : barWrite f s = .next (f s) := by
  obtain ⟨hOn, hD0⟩ := h
  rw [barWrite, Proofs.whenOn_of_on _ s hOn, hD0]
  rfl

theorem barRead_live (o : Nat) (clear : State → State) {s : State} (h : barLive s) :
    barRead o clear s = .next { clear s with host.readData := barValue s o 8 } := by
  obtain ⟨hOn, hD0⟩ := h
  rw [barRead, Proofs.whenOn_of_on _ s hOn, hD0]
  rfl

theorem tetherWrite_open (f : State → State) {s : State} (h : barLive s) (hl : s.tether.lock = false) :
    tetherWrite f s = .next (f s) := by
  rw [tetherWrite, barWrite_live _ h, hl]
  rfl

theorem tetherWrite_discards (f : State → State) {s : State} (h : barLive s) (hl : s.tether.lock = true) :
    tetherWrite f s = .next (count .tetherLockedWrite 0 s) := by
  rw [tetherWrite, barWrite_live _ h, hl]
  rfl

/-! Mailbox slots (R348 to R350, R365). -/

theorem ringDoorbell_busy (r : BitVec 16) (k : Nat) (s : State) (h : (slot s k).state ≠ .free) :
    ringDoorbell r k s = count .doorbellInvalid 0 s := if_neg h

/-- The state in which a doorbell has posted its slot (R349). -/
def posted (k : Nat) (s : State) : State :=
  modSlot k (fun x => { x with state := .posted }) { s with host.queue := s.host.queue ++ [k] }

theorem ringDoorbell_free (r : BitVec 16) (k : Nat) (s : State) (h : (slot s k).state = .free) :
    ringDoorbell r k s = noteRequester r (posted k s) := if_pos h

theorem slot_posted (k : Nat) (s : State) : slot (posted k s) k = { slot s k with state := .posted } :=
  slot_modSlot k (fun x => { x with state := .posted }) { s with host.queue := s.host.queue ++ [k] }

theorem slot_posted_ne (k j : Nat) (s : State) (h : j ≠ k) : slot (posted k s) j = slot s j :=
  slot_modSlot_ne k j (fun x => { x with state := .posted }) { s with host.queue := s.host.queue ++ [k] } h

/-- Noting a requester sets what is known of it, and raises at most an event (R365). -/
theorem noteRequester_touches (r : BitVec 16) (s : State) : ∃ c e d n, noteRequester r s =
    { s with host.lastRequester := r, host.anyRequester := true, host.requesterChanged := c, evr := e, recorder := d, counters := n } := by
  unfold noteRequester
  dsimp only
  split
  · exact ⟨_, _, _, _, rfl⟩
  · exact ⟨_, _, _, _, rfl⟩

/-- The doorbell order lists different slots of the eight, none of them FREE (R349). -/
def queueWf (s : State) : Prop := s.host.queue.Nodup ∧ ∀ k ∈ s.host.queue, k < 8 ∧ (slot s k).state ≠ .free

theorem queueWf_length {s : State} (h : queueWf s) : s.host.queue.length ≤ 8 := by
  obtain ⟨hnodup, hmem⟩ := h
  have hsub : s.host.queue ⊆ List.range 8 := fun k hk => List.mem_range.mpr (hmem k hk).1
  simpa using (hnodup.subperm hsub).length_le

theorem queueWf_posted (k : Nat) (s : State) (hk : k < 8) (hfree : (slot s k).state = .free) (h : queueWf s) :
    queueWf (posted k s) := by
  obtain ⟨hnodup, hmem⟩ := h
  refine ⟨List.nodup_append.mpr ⟨hnodup, List.nodup_singleton k, ?_⟩, fun j hj => ?_⟩
  · rintro j hj _ hk' rfl
    obtain rfl := List.mem_singleton.mp hk'
    exact (hmem _ hj).2 hfree
  · by_cases hjk : j = k
    · subst hjk
      rw [slot_posted]
      exact ⟨hk, nofun⟩
    · rw [slot_posted_ne k j s hjk]
      exact hmem j ((List.mem_append.mp hj).resolve_right (by simpa using hjk))

theorem queueWf_ringDoorbell (r : BitVec 16) (k : Nat) (s : State) (hk : k < 8) (h : queueWf s) :
    queueWf (ringDoorbell r k s) := by
  by_cases hfree : (slot s k).state = .free
  · rw [ringDoorbell_free r k s hfree]
    obtain ⟨c, e, d, n, hnote⟩ := noteRequester_touches r (posted k s)
    rw [hnote]
    exact queueWf_posted k s hk hfree h
  · rw [ringDoorbell_busy r k s hfree]
    exact h

theorem writeSlot_request (k off : Nat) (data : List Byte) (s : State) (hok : accessOk off data.length = true) (hoff : off < 4096) :
    writeSlot k off data s =
      if (slot s k).state = .free then modSlot k (fun x => { x with request := memWrite x.request off data }) s
      else count .mailboxWriteLocked 0 s := by
  rw [writeSlot, hok, if_neg (by simpa using hoff)]

theorem writeSlot_response (k off : Nat) (data : List Byte) (s : State) (hoff : 4096 ≤ off) : writeSlot k off data s = s :=
  if_pos (by simp [hoff])

theorem writeRespReady_bit (k : Nat) (hk : k < 8) (s : State) : writeRespReady (BitVec.ofNat 32 (2 ^ k)).toNat s = freeSlot k s := by
  interval_cases k <;> simp [writeRespReady, testBit, List.range_succ]

theorem freeSlot_eq (k : Nat) (s : State) : freeSlot k s = { s with host.slots := (freeSlot k s).host.slots } := by
  unfold freeSlot
  split <;> rfl

theorem slot_freeSlot (k : Nat) (s : State) : slot (freeSlot k s) k =
    if (slot s k).state = .done then { slot s k with state := .free, response := none } else slot s k := by
  unfold freeSlot
  split
  · exact slot_modSlot k _ s
  · rfl

theorem slot_freeSlot_ne (k j : Nat) (s : State) (h : j ≠ k) : slot (freeSlot k s) j = slot s j := by
  unfold freeSlot
  split
  · exact slot_modSlot_ne k j _ s h
  · rfl

/-! Registers read (R6, R347). -/

/-- The bytes of a register, least significant first, give its value as far as they reach. -/
theorem leVal_bytes (n v : Nat) : leVal ((List.range n).map (fun i => BitVec.ofNat 8 (v / 256 ^ i))) = v % 256 ^ n := by
  induction n generalizing v with
  | zero => simp [leVal, Nat.mod_one]
  | succ n ih =>
    have hshift : (fun i => BitVec.ofNat 8 (v / 256 ^ i)) ∘ Nat.succ = fun i => BitVec.ofNat 8 (v / 256 / 256 ^ i) := by
      funext i
      simp [pow_succ, Nat.div_div_eq_div_mul, Nat.mul_comm]
    rw [List.range_succ_eq_map, List.map_cons, List.map_map, hshift, leVal, ih, BitVec.toNat_ofNat, pow_zero, Nat.div_one,
      pow_succ' 256 n, Nat.mod_mul]

theorem barValue_register (s : State) (o v : Nat) (hD0 : s.host.d3hot = false) (hlow : o + 8 ≤ 0x10000 ∨ 0x200000 ≤ o ∧ o + 8 ≤ 0x1000000)
    (h : ∀ i < 8, (barRegisters s).find? (fun r => decide (r.1 ≤ o + i) && decide (o + i < r.1 + r.2.1)) = some (o, 8, v)) :
    barValue s o 8 = v % 2 ^ 64 := by
  have hbyte : ∀ i ∈ List.range 8, barByte s (o + i) = BitVec.ofNat 8 (v / 256 ^ i) := by
    intro i hi
    have hi : i < 8 := List.mem_range.mp hi
    rw [barByte, hD0, if_neg (by simp), if_neg (by omega), if_neg (by omega), if_neg (by omega), if_neg (by omega), registerByte, h i hi]
    simp
  rw [barValue, List.map_congr_left hbyte, leVal_bytes, show 256 ^ 8 = 2 ^ 64 by norm_num]

theorem barValue_evrLost (s : State) (hD0 : s.host.d3hot = false) : barValue s 0x200028 8 = s.evr.lost % 2 ^ 64 :=
  barValue_register s _ _ hD0 (by omega) (fun i hi => by interval_cases i <;> rfl)

theorem barValue_doorbellInvalid (s : State) (hD0 : s.host.d3hot = false) :
    barValue s 0x1020 8 = counter .doorbellInvalid 0 s % 2 ^ 64 :=
  barValue_register s _ _ hD0 (by omega) (fun i hi => by interval_cases i <;> rfl)

theorem barValue_mailboxWriteLocked (s : State) (hD0 : s.host.d3hot = false) :
    barValue s 0x1028 8 = counter .mailboxWriteLocked 0 s % 2 ^ 64 :=
  barValue_register s _ _ hD0 (by omega) (fun i hi => by interval_cases i <;> rfl)

/-! The control register of the event ring (R354, Table 15.8). -/

/-- What a write to EVR_CTRL clears before it looks at ENABLE. -/
def evrCleared (v : BitVec 32) (s : State) : State :=
  { s with evr.baseDenied := s.evr.baseDenied && !testBit v.toNat 3, evr.overflowed := s.evr.overflowed && !testBit v.toNat 2 }

theorem writeEvrCtrl_eq (v : BitVec 32) (s : State) : writeEvrCtrl v s =
    if !testBit v.toNat 0 then { evrCleared v s with evr.enable := false }
    else if s.evr.enable then evrCleared v s
    else if evrBaseOk s then { evrCleared v s with evr.enable := true }
    else interrupt 4 { evrCleared v s with evr.baseDenied := true } := rfl

/-! Host rings (R211, R359). -/

theorem ringRead_writeRingRead (k v : Nat) (s : State) : ringRead (writeRingRead k v s) k = v :=
  tabGet_tabSet_same ..

theorem ringRead_writeRingRead_ne (k v j : Nat) (s : State) (h : j ≠ k) : ringRead (writeRingRead k v s) j = ringRead s j :=
  tabGet_tabSet_ne _ _ _ h

theorem ring_writeRingRead (k v : Nat) (s : State) :
    ring (writeRingRead k v s) k = (ring s k).map (fun x => { x with suspended := false }) :=
  ring_modRing k _ (setRingRead k v s)

theorem ring_writeRingRead_ne (k v j : Nat) (s : State) (h : j ≠ k) : ring (writeRingRead k v s) j = ring s j :=
  ring_modRing_ne k j _ (setRingRead k v s) h

/-! The Tether window (R361 to R363). -/

theorem applyControl_cap (k : Nat) (v : BitVec 32) (s : State) (hk : k < 32) :
    applyControl (BitVec.ofNat 24 (0x1000 + 32 * k + 28)).toNat v s = applyCap k s := by
  have ho : (BitVec.ofNat 24 (0x1000 + 32 * k + 28)).toNat = 0x1000 + 32 * k + 28 := by
    rw [BitVec.toNat_ofNat, Nat.mod_eq_of_lt (by omega)]
  rw [ho, applyControl, if_pos (by omega)]
  congr 1
  omega

theorem applyControl_window (w : Nat) (v : BitVec 32) (s : State) (hw : w < 16) :
    applyControl (BitVec.ofNat 24 (0x2000 + 32 * w + 28)).toNat v s = applyWindow w v s := by
  have ho : (BitVec.ofNat 24 (0x2000 + 32 * w + 28)).toNat = 0x2000 + 32 * w + 28 := by
    rw [BitVec.toNat_ofNat, Nat.mod_eq_of_lt (by omega)]
  rw [ho, applyControl, if_neg (by omega), if_pos (by omega)]
  congr 1
  omega

theorem applyControl_allow (e : Nat) (v : BitVec 32) (s : State) (he : e < 256) :
    applyControl (BitVec.ofNat 24 (0x10000 + 64 * e + 60)).toNat v s = applyAllow e v s := by
  have ho : (BitVec.ofNat 24 (0x10000 + 64 * e + 60)).toNat = 0x10000 + 64 * e + 60 := by
    rw [BitVec.toNat_ofNat, Nat.mod_eq_of_lt (by omega)]
  rw [ho, applyControl, if_neg (by omega), if_neg (by omega), if_pos (by omega)]
  congr 1
  omega

/-- TETHER_LOCKED is bit 14 of HOST_STATUS (Table 15.3). -/
theorem testBit_hostStatus_lock (s : State) : testBit (hostStatus s) 14 = s.tether.lock := by
  have hlow : ∀ b c : Bool, ∀ m n : Nat, bit b * 0x2000 + bit c * 0x1000 + m % 16 * 256 + n % 16 * 16 < 0x4000 := by
    intro b c m n
    cases b <;> cases c <;> simp only [bit, Bool.false_eq_true, if_true, if_false] <;> omega
  have hbit : ∀ a b n : Nat, n < 0x4000 → (a * 0x8000 + b * 0x4000 + n) / 2 ^ 14 % 2 = b % 2 := by omega
  have hsplit : hostStatus s = bit (linkReduced s) * 0x8000 + bit s.tether.lock * 0x4000 +
      (bit s.host.requesterChanged * 0x2000 + bit (evrRunning s) * 0x1000 + s.host.speed % 16 * 256 + s.host.width % 16 * 16) := by
    simp only [hostStatus, Nat.add_assoc]
  rw [testBit, hsplit, hbit _ _ _ (hlow ..)]
  cases s.tether.lock <;> rfl

end Sys2Proof.Laws
end

section
/-! The host interface's registers (spec/15_host_interface.md). -/

namespace Sys2Proof.Proofs
open Sys2Proof Sys2Proof.Machine Sys2Proof.Laws

/-- Settles O8: a doorbell by `ringDoorbell_busy`, `ringDoorbell_free` and `queueWf_ringDoorbell`, a write by the equations of
`writeSlot`, RESP_READY by `writeRespReady_bit`. -/
theorem mailboxSlotLife : Obligations.MailboxSlotLife := by
  intro s hlive
  refine ⟨fun r v hbusy => ?busy, fun r v hfree => ?free, fun r v hnodup hmem => ?order, fun k off data hok hoff hbusy => ?locked,
    fun k off data hok hoff hfree => ?request, fun k off data hoff => ?response, fun k hk => ?ready⟩
  case busy =>
    exact (barWrite_live _ hlive).trans (congrArg _ (ringDoorbell_busy r _ s hbusy))
  case free =>
    obtain ⟨c, e, d, n, hnote⟩ := noteRequester_touches r (posted (v.toNat % 8) s)
    refine ⟨_, (barWrite_live _ hlive).trans (congrArg _ (ringDoorbell_free r _ s hfree)), ?_⟩
    rw [hnote]
    exact ⟨slot_posted _ s, rfl, rfl, fun j hj => slot_posted_ne _ j s hj, rfl, rfl, rfl⟩
  case order =>
    have hwf := queueWf_ringDoorbell r (v.toNat % 8) s (Nat.mod_lt _ (by omega)) ⟨hnodup, hmem⟩
    exact ⟨_, barWrite_live _ hlive, hwf.1, hwf.2, queueWf_length hwf⟩
  case locked =>
    refine (barWrite_live _ hlive).trans ?_
    rw [writeSlot_request _ _ _ _ hok hoff, if_neg hbusy]
  case request =>
    refine ⟨_, (barWrite_live _ hlive).trans (congrArg _ ((writeSlot_request _ _ _ _ hok hoff).trans (if_pos hfree))), rfl,
      slot_modSlot .., fun j hj => slot_modSlot_ne _ _ _ _ hj⟩
  case response =>
    exact (barWrite_live _ hlive).trans (congrArg _ (writeSlot_response _ _ _ _ hoff))
  case ready =>
    exact ⟨_, (barWrite_live _ hlive).trans (congrArg _ (writeRespReady_bit k hk s)), freeSlot_eq k s, slot_freeSlot k s,
      fun j hj => slot_freeSlot_ne k j s hj⟩

/-- Settles O9: each write is `barWrite_live` of its register; the reads give `barValue` of their register. -/
theorem ringAndInterruptRegisters : Obligations.RingAndInterruptRegisters := by
  intro s hlive
  have hD0 : s.host.d3hot = false := hlive.2
  refine ⟨fun v => barWrite_live _ hlive, fun v h => ?baseTaken, fun v h => ?baseKept, fun v => ?ctrl, fun v => barWrite_live _ hlive,
    fun k v => ?ringRead, ?lost, ?invalid, ?locked⟩
  case baseTaken =>
    refine (barWrite_live _ hlive).trans ?_
    rw [writeEvrBase, if_neg (by simp [h])]
  case baseKept =>
    exact (barWrite_live _ hlive).trans (congrArg _ (if_pos h))
  case ctrl =>
    have hexec : exec (.evrCtrlWrite v) s = .next (writeEvrCtrl v s) := barWrite_live _ hlive
    rw [hexec, writeEvrCtrl_eq]
    refine ⟨fun h0 => ?_, fun h0 hon => ?_, fun h0 hoff hok => ?_, fun h0 hoff hok => ?_⟩
    · rw [h0]; rfl
    · rw [h0, hon]; rfl
    · rw [h0, hoff, hok]; rfl
    · rw [h0, hoff, hok]; rfl
  case ringRead =>
    exact ⟨_, barWrite_live _ hlive, rfl, ringRead_writeRingRead .., ring_writeRingRead ..,
      fun j hj => ⟨ringRead_writeRingRead_ne _ _ _ _ hj, ring_writeRingRead_ne _ _ _ _ hj⟩⟩
  case lost =>
    rw [← barValue_evrLost s hD0]
    exact barRead_live 0x200028 (fun s => { s with evr.lost := 0 }) hlive
  case invalid =>
    rw [← barValue_doorbellInvalid s hD0]
    exact barRead_live _ _ hlive
  case locked =>
    rw [← barValue_mailboxWriteLocked s hD0]
    exact barRead_live _ _ hlive

/-- Settles O11: an open window takes what `applyControl` and `writeTether` write. -/
theorem tetherWritesTakeEffect : Obligations.TetherWritesTakeEffect := by
  intro s hlive hopen
  have hwrite : ∀ f, tetherWrite f s = .next (f s) := fun f => tetherWrite_open f hlive hopen
  refine ⟨fun v h => (hwrite _).trans (congrArg _ (if_pos h)), fun v h => (hwrite _).trans (congrArg _ (if_neg (by simp [h]))),
    fun k v hk => ⟨fun hcap => ?cap, fun hcap => ?capIgnored⟩, fun w v hw => ?window, fun e v he => ?allow, fun o data => hwrite _,
    fun r o data ho => ?window', fun r o data ho => ?below⟩
  case cap =>
    refine ⟨_, (hwrite _).trans (congrArg _ ((applyControl_cap k v s hk).trans (if_pos hcap))), rfl, ?_, ?_, fun j hj => ?_, fun j hj => ?_⟩
    · simp
    · exact egress_modEgress ..
    · exact egress_modEgress_ne _ _ _ _ hj
    · simp [tabGet_tabSet_ne none s.tether.rateCaps _ hj]
  case capIgnored =>
    exact (hwrite _).trans (congrArg _ ((applyControl_cap k v s hk).trans (if_neg hcap)))
  case window =>
    exact ⟨_, (hwrite _).trans (congrArg _ (applyControl_window w v s hw)), rfl, tabGet_tabSet_same .., fun j hj => tabGet_tabSet_ne _ _ _ hj⟩
  case allow =>
    exact ⟨_, (hwrite _).trans (congrArg _ (applyControl_allow e v s he)), rfl, tabGet_tabSet_same .., fun j hj => tabGet_tabSet_ne _ _ _ hj⟩
  case window' =>
    exact (if_neg (by omega)).trans (hwrite _)
  case below =>
    exact (if_pos ho).trans (barWrite_live _ hlive)

/-- Settles O12: a locked window discards each write (`tetherWrite_discards`), and `exec_lockedTether` covers every command. -/
theorem lockedTetherDiscardsWrites : Obligations.LockedTetherDiscardsWrites := by
  refine ⟨fun s v hlive hopen hv => ?lock, testBit_hostStatus_lock, fun s hlive hl => ?discards, fun c s t hl h h1 h2 h3 h4 => ?keeps⟩
  case lock =>
    exact (tetherWrite_open _ hlive hopen).trans (congrArg _ (if_pos hv))
  case discards =>
    have hwrite : ∀ f, tetherWrite f s = .next (count .tetherLockedWrite 0 s) := fun f => tetherWrite_discards f hlive hl
    exact ⟨fun v => hwrite _, fun o v => hwrite _, fun o data => hwrite _, fun r o data ho => (if_neg (by omega)).trans (hwrite _)⟩
  case keeps =>
    exact exec_lockedTether c s t hl (powerLoss_eq_false h1 h2 h3 h4) h

end Sys2Proof.Proofs
end

section
/-! SUPPORT. What serving a crossbar port touches (spec/17_dma_and_crossbar.md R379 to R383), and what a transfer of a channel writes
to host memory (spec/15_host_interface.md R353, R362). -/

namespace Sys2Proof.Laws
open Sys2Proof Sys2Proof.Machine

/-! Ports. -/

/-- `t` is `s` but for the ports, the counters and what a request stores at its target. -/
def portStep (s t : State) : Prop := ∃ p c d m g,
  t = { s with dma.ports := p, counters := c, dram.queue := d, boot.mram := m, peg.shared := g }

theorem portStep_refl (s : State) : portStep s s := ⟨_, _, _, _, _, rfl⟩

theorem portStep_trans {s t u : State} (h : portStep s t) (h' : portStep t u) : portStep s u := by
  obtain ⟨p, c, d, m, g, rfl⟩ := h
  obtain ⟨p', c', d', m', g', rfl⟩ := h'
  exact ⟨p', c', d', m', g', rfl⟩

theorem portStep_foldl {α : Type} (f : State → α → State) (h : ∀ s x, portStep s (f s x)) (l : List α) (s : State) :
    portStep s (l.foldl f s) := by
  induction l generalizing s with
  | nil => exact portStep_refl s
  | cons x l ih => exact portStep_trans (h s x) (ih (f s x))

theorem portStep_countN (c : Ctr) (i n : Nat) (s : State) : portStep s (countN c i n s) := ⟨_, _, _, _, _, rfl⟩

theorem portStep_modPort (p : Nat) (f : Port → Port) (s : State) : portStep s (modPort p f s) := ⟨_, _, _, _, _, rfl⟩

theorem portStep_portGrant (p g : Nat) (r : PortReq) (s : State) : portStep s (portGrant p g r s) := ⟨_, _, _, _, _, rfl⟩

theorem queueWrite_touches (a c : Nat) (l : List Byte) (s : State) : ∃ q, queueWrite a c l s = { s with dram.queue := q } := by
  unfold queueWrite
  generalize (burstsOf l.length a l).filter _ = b
  induction b generalizing s with
  | nil => exact ⟨_, rfl⟩
  | cons e b ih =>
    obtain ⟨q, hq⟩ := ih (queueReq { cls := c, addr := e.1, kind := .write e.2 } s)
    exact ⟨q, hq⟩

theorem portStep_portStore (p : Nat) (r : PortReq) (s : State) : portStep s (portStore p r s) := by
  unfold portStore
  split
  · exact portStep_refl s
  · split
    · exact ⟨_, _, _, _, _, rfl⟩
    · split
      · obtain ⟨q, hq⟩ := queueWrite_touches (r.addr % servicePeg) 4 r.data s
        exact ⟨_, _, q, _, _, hq⟩
      · split
        · exact ⟨_, _, _, _, _, rfl⟩
        · exact portStep_refl s

theorem portStep_portRunWith (now p n : Nat) (s : State) : portStep s (portRunWith (portStore p) now p n s) := by
  induction n generalizing s with
  | zero => exact portStep_refl s
  | succ n ih =>
    unfold portRunWith
    split
    · split
      · exact portStep_trans (portStep_trans (portStep_portGrant ..) (portStep_portStore ..)) (ih _)
      · exact portStep_refl s
    · exact portStep_refl s

theorem portStep_portFail (p : Nat) (s : State) : portStep s (portFail p s) := ⟨_, _, _, _, _, rfl⟩

theorem portStep_portSettle (p : Nat) (s : State) : portStep s (portSettle p s) := by
  unfold portSettle
  split
  · exact portStep_portFail p s
  · exact portStep_portRunWith ..

theorem portStep_portUntil (m p n : Nat) (s : State) : portStep s (portUntil m p n s) := by
  induction n generalizing s with
  | zero => exact portStep_refl s
  | succ n ih =>
    unfold portUntil
    split
    · exact portStep_refl s
    · split
      · exact portStep_trans (portStep_trans (portStep_portGrant ..) (portStep_portStore ..)) (ih _)
      · exact portStep_refl s

theorem portStep_portJoin (p : Nat) (r : PortReq) (s : State) : portStep s (portJoin p r s) := portStep_modPort ..

theorem portStep_portServe (w m p a n : Nat) (s : State) : portStep s (portServe w m p a n s) := by
  refine portStep_foldl _ (fun t k => ?_) _ s
  refine portStep_trans ?_ (portStep_modPort p _ _)
  refine portStep_trans ?_ (portStep_portUntil m p _ _)
  refine portStep_trans ?_ (portStep_portJoin p _ _)
  exact portStep_trans (portStep_portSettle p t) (portStep_portUntil m p _ _)

theorem portStep_portReset (down : Bool) (p : Nat) (s : State) : portStep s (portReset down p s) :=
  portStep_trans (portStep_portSettle p s) (portStep_trans (portStep_portFail ..) (portStep_modPort ..))

theorem portStep_masterReset (m : Nat) (s : State) : portStep s (masterReset m s) := by
  refine portStep_foldl _ (fun t p => ?_) _ s
  exact portStep_trans (portStep_portSettle p t) (portStep_trans (portStep_modPort ..) (portStep_countN ..))

theorem portServe_host (w m p a n : Nat) (s : State) : (portServe w m p a n s).host = s.host := by
  obtain ⟨_, _, _, _, _, h⟩ := portStep_portServe w m p a n s
  rw [h]

theorem portServe_evr (w m p a n : Nat) (s : State) : (portServe w m p a n s).evr = s.evr := by
  obtain ⟨_, _, _, _, _, h⟩ := portStep_portServe w m p a n s
  rw [h]

/-! Bytes written one run after another. -/

theorem memWrite_append (m : Memory) (a : Nat) (l l' : List Byte) :
    memWrite m a (l ++ l') = memWrite (memWrite m a l) (a + l.length) l' := by
  induction l generalizing m a with
  | nil => rfl
  | cons b l ih =>
    rw [List.cons_append, memWrite, memWrite, ih, List.length_cons, Nat.add_assoc, Nat.add_comm 1]

theorem memWrite_take_drop (m : Memory) (a k : Nat) (l : List Byte) :
    memWrite (memWrite m a (l.take k)) (a + k) (l.drop k) = memWrite m a l := by
  obtain hk | hk := Nat.le_total k l.length
  · conv_rhs => rw [← List.take_append_drop k l, memWrite_append, List.length_take_of_le hk]
  · rw [List.take_of_length_le hk, List.drop_of_length_le hk, memWrite]

/-- Bytes outside a write read as before it. -/
theorem memRead_memWrite_outside (m : Memory) (a : Nat) (l : List Byte) (c n : Nat) (h : c + n ≤ a ∨ a + l.length ≤ c) :
    memRead (memWrite m a l) c n = memRead m c n := by
  apply List.ext_getElem (by simp)
  intro i hi _
  rw [memRead_getElem, memRead_getElem]
  rw [memRead_length] at hi
  exact memGet_memWrite_outside m a l _ (by omega)

/-- Pieces written in order. -/
def writePieces (m : Memory) (l : List (Nat × List Byte)) : Memory := l.foldl (fun m e => memWrite m e.1 e.2) m

theorem writePieces_append (m : Memory) (l l' : List (Nat × List Byte)) :
    writePieces m (l ++ l') = writePieces (writePieces m l) l' := List.foldl_append ..

/-- A run cut at pages writes what it writes whole. -/
theorem writePieces_pagesOf (n a : Nat) (l : List Byte) (m : Memory) (h : l.length ≤ n) :
    writePieces m (pagesOf n a l) = memWrite m a l := by
  induction n generalizing a l m with
  | zero =>
    obtain rfl := List.length_eq_zero_iff.mp (Nat.le_zero.mp h)
    rfl
  | succ n ih =>
    unfold pagesOf
    split
    · next hl =>
      obtain rfl := List.isEmpty_iff.mp hl
      rfl
    · next hl =>
      have hpos : 0 < l.length := List.length_pos_of_ne_nil (by simpa using hl)
      rw [writePieces, List.foldl_cons]
      refine (ih _ _ _ ?_).trans (memWrite_take_drop ..)
      rw [List.length_drop]
      omega

/-! Requests to the host (R345, R353, R362, R383). -/

theorem countStop_host (code : Nat) (s : State) : (countStop code s).host = s.host := by
  unfold countStop resetAnswer
  split
  · rfl
  · split <;> rfl

theorem countStop_evr (code : Nat) (s : State) : (countStop code s).evr = s.evr := by
  unfold countStop resetAnswer
  split
  · rfl
  · split <;> rfl

theorem noteDesc_host (ch code : Nat) (tag : BitVec 32) (n : Nat) (s : State) : (noteDesc ch code tag n s).host = s.host := by
  unfold noteDesc
  dsimp only
  split <;> rfl

theorem noteDesc_evr (ch code : Nat) (tag : BitVec 32) (n : Nat) (s : State) : (noteDesc ch code tag n s).evr = s.evr := by
  unfold noteDesc
  dsimp only
  split <;> rfl

/-- The state after a piece that nothing stops (R353, R386). -/
def pieceWritten (ch a : Nat) (l : List Byte) (s : State) : State :=
  countN .dmaBytes ch l.length (portServe 64 3 6 a l.length { s with host.mem := memWrite s.host.mem a l })

theorem hostPath_pieceWritten (ch a : Nat) (l : List Byte) (s : State) : hostPath (pieceWritten ch a l s) = hostPath s := by
  rw [pieceWritten, hostPath_countN, hostPath_portServe]
  rfl

theorem pieceWritten_host (ch a : Nat) (l : List Byte) (s : State) :
    (pieceWritten ch a l s).host = { s.host with mem := memWrite s.host.mem a l } :=
  portServe_host 64 3 6 a l.length { s with host.mem := memWrite s.host.mem a l }

theorem pieceWritten_evr (ch a : Nat) (l : List Byte) (s : State) : (pieceWritten ch a l s).evr = s.evr :=
  portServe_evr 64 3 6 a l.length { s with host.mem := memWrite s.host.mem a l }

theorem putPieces_goes (ch a : Nat) (l : List Byte) (t : List (Nat × List Byte)) (s : State)
    (h : hostStop s true a l.length = none) : putPieces ch ((a, l) :: t) s = putPieces ch t (pieceWritten ch a l s) := by
  simp only [putPieces, h, pieceWritten]

theorem putPieces_stops (ch a c : Nat) (l : List Byte) (t : List (Nat × List Byte)) (s : State)
    (h : hostStop s true a l.length = some c) : (putPieces ch ((a, l) :: t) s).2.2 = countStop c s := by
  simp only [putPieces, h]
  split <;> rfl

/-- What host memory holds after pieces that nothing stops. -/
theorem putPieces_host (ch : Nat) (l : List (Nat × List Byte)) (s : State)
    (h : ∀ e ∈ l, hostStop s true e.1 e.2.length = none) :
    (putPieces ch l s).2.2.host = { s.host with mem := writePieces s.host.mem l } := by
  induction l generalizing s with
  | nil => rfl
  | cons e l ih =>
    obtain ⟨hfirst, hrest⟩ := List.forall_mem_cons.mp h
    rw [putPieces_goes ch e.1 e.2 l s hfirst,
      ih _ (fun x hx => (hostStop_congr (hostPath_pieceWritten ..) true x.1 x.2.length).trans (hrest x hx)), pieceWritten_host]
    rfl

theorem putPieces_evr (ch : Nat) (l : List (Nat × List Byte)) (s : State) : (putPieces ch l s).2.2.evr = s.evr := by
  induction l generalizing s with
  | nil => rfl
  | cons e l ih =>
    cases h : hostStop s true e.1 e.2.length with
    | none => rw [putPieces_goes ch e.1 e.2 l s h, ih, pieceWritten_evr]
    | some c => rw [putPieces_stops ch e.1 c e.2 l s h, countStop_evr]

/-- A byte outside every piece, or that no window permits to be written, stays (R353, R362). -/
theorem putPieces_keeps_byte (ch : Nat) (l : List (Nat × List Byte)) (s : State) (b : Nat)
    (h : (∀ e ∈ l, b < e.1 ∨ e.1 + e.2.length ≤ b) ∨ hostRangeOk s true b 1 = false) :
    memGet (putPieces ch l s).2.2.host.mem b = memGet s.host.mem b := by
  induction l generalizing s with
  | nil => rfl
  | cons e l ih =>
    cases hstop : hostStop s true e.1 e.2.length with
    | some c => rw [putPieces_stops ch e.1 c e.2 l s hstop, countStop_host]
    | none =>
      have hout : b < e.1 ∨ e.1 + e.2.length ≤ b := by
        refine h.elim (fun h => h e (List.mem_cons_self ..)) (fun h => ?_)
        by_contra hin
        have hok : hostRangeOk s true e.1 e.2.length = true := by
          by_contra hno
          simp [hostStop, Bool.eq_false_iff.mpr hno] at hstop
        rw [hostRangeOk_of_within (a' := b) (n' := 1) hok (by omega) (by omega)] at h
        cases h
      have hrange : hostRangeOk (pieceWritten ch e.1 e.2 s) true b 1 = hostRangeOk s true b 1 := by
        have htether := congrArg Prod.fst (hostPath_pieceWritten ch e.1 e.2 s)
        unfold hostRangeOk window
        rw [show (pieceWritten ch e.1 e.2 s).tether = s.tether from htether]
      rw [putPieces_goes ch e.1 e.2 l s hstop, ih, pieceWritten_host, memGet_memWrite_outside _ _ _ _ hout]
      exact h.imp (fun h x hx => h x (List.mem_cons_of_mem _ hx)) (fun h => hrange.trans h)

theorem chanWrite_host (ch : Nat) (l : List (Nat × List Byte)) (s : State) :
    (chanWrite ch l s).2.host = (putPieces ch (l.flatMap (fun e => pagesOf e.2.length e.1 e.2)) s).2.2.host :=
  noteDesc_host ..

theorem chanWrite_evr (ch : Nat) (l : List (Nat × List Byte)) (s : State) : (chanWrite ch l s).2.evr = s.evr :=
  (noteDesc_evr ..).trans (putPieces_evr ..)

theorem writePieces_flatMap_pagesOf (l : List (Nat × List Byte)) (m : Memory) :
    writePieces m (l.flatMap (fun e => pagesOf e.2.length e.1 e.2)) = writePieces m l := by
  induction l generalizing m with
  | nil => rfl
  | cons e l ih =>
    rw [List.flatMap_cons, writePieces_append, writePieces_pagesOf _ _ _ _ (Nat.le_refl _), ih]
    rfl

/-- Runs within a range that a window permits are written whole where the host can be reached and its port is not down. -/
theorem chanWrite_host_whole (ch : Nat) (l : List (Nat × List Byte)) (s : State) (a n : Nat) (hrange : hostRangeOk s true a n = true)
    (hreach : hostReachable s = true) (hport : targetDown s 6 = false)
    (hl : ∀ e ∈ l, a ≤ e.1 ∧ e.1 + e.2.length ≤ a + n) :
    (chanWrite ch l s).2.host = { s.host with mem := writePieces s.host.mem l } := by
  rw [chanWrite_host, putPieces_host, writePieces_flatMap_pagesOf]
  intro e he
  obtain ⟨x, hx, he⟩ := List.mem_flatMap.mp he
  obtain ⟨hfrom, hto⟩ := hl x hx
  obtain ⟨hfrom', hto'⟩ := pagesOf_within _ _ _ e he
  have hok := hostRangeOk_of_within (n' := e.2.length) hrange (hfrom.trans hfrom') (hto'.trans hto)
  simp only [hostStop, hok, hreach, hport, Bool.not_true, Bool.false_eq_true, if_false]

/-- A run that lies in one page is one piece. -/
theorem pagesOf_one (a : Nat) (l : List Byte) (hl : l ≠ []) (hpage : a % 4096 + l.length ≤ 4096) :
    pagesOf l.length a l = [(a, l)] := by
  obtain ⟨n, hn⟩ := Nat.exists_eq_succ_of_ne_zero (List.length_pos_of_ne_nil hl).ne'
  have hpage : l.length ≤ 4096 - a % 4096 := by omega
  rw [hn, pagesOf, if_neg (by simpa using hl)]
  dsimp only
  rw [List.take_of_length_le hpage, List.drop_of_length_le hpage, pagesOf_nil]

/-- A first run of one page that no window permits is not issued, and is counted (R362). -/
theorem chanWrite_denied (ch a : Nat) (l : List Byte) (rest : List (Nat × List Byte)) (s : State) (hl : l ≠ [])
    (hpage : a % 4096 + l.length ≤ 4096) (hdenied : hostRangeOk s true a l.length = false) :
    (chanWrite ch ((a, l) :: rest) s).1 = 5 ∧ (chanWrite ch ((a, l) :: rest) s).2.host = s.host ∧
      counter .windowDenied 0 (chanWrite ch ((a, l) :: rest) s).2 = counter .windowDenied 0 s + 1 := by
  have hstop : hostStop s true a l.length = some 5 := by simp [hostStop, hdenied]
  have hpieces : ((a, l) :: rest).flatMap (fun e => pagesOf e.2.length e.1 e.2) =
      (a, l) :: rest.flatMap (fun e => pagesOf e.2.length e.1 e.2) := by
    rw [List.flatMap_cons, pagesOf_one a l hl hpage]
    rfl
  have hput : putPieces ch ((a, l) :: rest.flatMap (fun e => pagesOf e.2.length e.1 e.2)) s =
      (5, l.length + ((rest.flatMap (fun e => pagesOf e.2.length e.1 e.2)).map (fun e => e.2.length)).sum, countStop 5 s) := by
    simp only [putPieces, hstop]
    rfl
  refine ⟨?_, ?_, ?_⟩
  · rw [chanWrite, hpieces, hput]
  · rw [chanWrite_host, hpieces, hput]
    rfl
  · rw [chanWrite, hpieces, hput]
    have hstatus : ∀ i t, counter .windowDenied 0 (count .dmaStatus i t) = counter .windowDenied 0 t := fun i t =>
      counter_count_of_lt i t (by decide) (by decide)
    have hdescs : ∀ i t, counter .windowDenied 0 (count .descriptors i t) = counter .windowDenied 0 t := fun i t =>
      counter_count_of_lt i t (by decide) (by decide)
    simp only [noteDesc]
    rw [if_neg (by decide), hstatus, hdescs]
    exact counter_count ..

end Sys2Proof.Laws
end

section
/-! Writes of a channel to host memory (spec/15_host_interface.md R353, R362). -/

namespace Sys2Proof.Proofs
open Sys2Proof Sys2Proof.Machine Sys2Proof.Laws

/-- Settles O15: what is kept byte by byte is `putPieces_keeps_byte`, a whole write `chanWrite_whole` and `chanWrite_host_whole`, and a
refused one `chanWrite_denied`. -/
theorem hostWriteStaysInItsWindow : Obligations.HostWriteStaysInItsWindow := by
  intro ch a l s
  refine ⟨fun b hb => ?keeps, fun hrange hreach hport => ?whole, fun hdenied hl hpage => ?denied⟩
  case keeps =>
    rw [chanWrite_host]
    refine putPieces_keeps_byte _ _ s b ?_
    obtain hb | hb | hb := hb
    · left
      intro e he
      rw [List.flatMap_singleton] at he
      obtain ⟨hfrom, hto⟩ : a ≤ e.1 ∧ e.1 + e.2.length ≤ a + l.length := pagesOf_within _ _ _ e he
      exact .inl (by omega)
    · left
      intro e he
      rw [List.flatMap_singleton] at he
      obtain ⟨hfrom, hto⟩ : a ≤ e.1 ∧ e.1 + e.2.length ≤ a + l.length := pagesOf_within _ _ _ e he
      exact .inr (by omega)
    · exact .inr hb
  case whole =>
    have hl : ∀ e ∈ [(a, l)], a ≤ e.1 ∧ e.1 + e.2.length ≤ a + l.length := by simp
    refine ⟨chanWrite_whole ch _ s a _ hrange hreach hport hl, ?_⟩
    rw [chanWrite_host_whole ch _ s a _ hrange hreach hport hl]
    exact memRead_memWrite ..
  case denied =>
    obtain ⟨-, hhost, hcount⟩ := chanWrite_denied ch a l [] s hl hpage hdenied
    exact ⟨congrArg HostSt.mem hhost, hcount⟩

end Sys2Proof.Proofs
end

section
/-! SUPPORT. The event ring (spec/15_host_interface.md R354 to R357): the hold buffer, one entry written, and the entries in order. -/

namespace Sys2Proof.Laws
open Sys2Proof Sys2Proof.Machine

theorem interrupt_mem (c : Nat) (s : State) : (interrupt c s).host.mem = s.host.mem := by
  unfold interrupt sendMessage modCause
  dsimp only
  (repeat' split) <;> rfl

/-! The hold buffer (R357). -/

/-- The places that no event but a completion may take (R357, R398; logs 16 and 28). -/
def heldBack (s : State) : Nat := if s.dev.state = .boot then 2 else 0

/-- An event other than a completion finds a place (R357). -/
def roomToHold (s : State) : Prop :=
  (s.evr.held.filter (fun x => !x.completion)).length + heldBack s < 960 ∧ s.evr.held.length + heldBack s < 1024

/-- The state after the discard of an event for want of a place (R357). -/
def eventLost (e : Event) (s : State) : State :=
  { s with evr.lost := s.evr.lost + 1, evr.overflowed := true
           evr.gap := some (match s.evr.gap with
             | some (n, a, _) => (n + 1, a, e.gts)
             | none => (1, e.gts, e.gts)) }

theorem holdEvent_held (e : Event) (s : State) (h : e.completion = true ∨ roomToHold s) :
    holdEvent e s = { s with evr.held := s.evr.held ++ [e] } := by
  have hroom : (e.completion || (decide ((s.evr.held.filter (fun x => !x.completion)).length + heldBack s < 960) &&
      decide (s.evr.held.length + heldBack s < 1024))) = true := by
    simpa [roomToHold] using h
  exact if_pos hroom

theorem holdEvent_lost (e : Event) (s : State) (hc : e.completion = false) (h : ¬roomToHold s) :
    holdEvent e s = if !s.evr.overflowed then interrupt 3 (eventLost e s) else eventLost e s := by
  have hroom : ¬(e.completion || (decide ((s.evr.held.filter (fun x => !x.completion)).length + heldBack s < 960) &&
      decide (s.evr.held.length + heldBack s < 1024))) = true := by
    simpa [roomToHold, hc] using h
  exact if_neg hroom

theorem holdEvent_lost_evr (e : Event) (s : State) (hc : e.completion = false) (h : ¬roomToHold s) :
    (holdEvent e s).evr = (eventLost e s).evr := by
  rw [holdEvent_lost e s hc h]
  split <;> simp

theorem holdEvent_dev (e : Event) (s : State) : (holdEvent e s).dev = s.dev := by
  by_cases h : e.completion = true ∨ roomToHold s
  · rw [holdEvent_held e s h]
  · obtain ⟨hc, hroom⟩ := not_or.mp h
    rw [holdEvent_lost e s (by simpa using hc) hroom]
    split
    · simp [eventLost]
    · rfl

/-! One entry (R355, Table 15.9). -/

theorem slice_length (l : List Byte) (o n : Nat) : (slice l o n).length = n := by
  have hle : ((l.drop o).take n).length ≤ n := List.length_take_le ..
  simp only [slice, List.length_append, List.length_replicate]
  omega

theorem entryBytes_length (e : Event) (i : Nat) : (entryBytes e i).length = 64 := by
  simp only [entryBytes, List.length_append, leBytes_length, slice_length, List.length_cons, List.length_nil]

/-- Where the next entry stands (R355). -/
def entryAt (s : State) : Nat := s.evr.base + 64 * (s.evr.write % 4096)

/-- What DMA15 writes for an entry: the entry, then the count (R355). -/
def entryPieces (e : Event) (s : State) : List (Nat × List Byte) :=
  [(entryAt s, entryBytes e s.evr.write), (s.evr.base - 64, leBytes 8 (s.evr.write + 1))]

theorem putEntry_eq (e : Event) (s : State) : putEntry e s = chanWrite 15 (entryPieces e s) s := rfl

/-- The ring can take an entry: its base is good, the host can be reached, and PCIe outbound is not down (R354, R355, R383). -/
def entryGoes (s : State) : Prop := evrBaseOk s = true ∧ hostReachable s = true ∧ targetDown s 6 = false

theorem entryPieces_within (e : Event) (s : State) (h : evrBaseOk s = true) :
    ∀ x ∈ entryPieces e s, s.evr.base - 64 ≤ x.1 ∧ x.1 + x.2.length ≤ s.evr.base - 64 + (262144 + 64) := by
  have hbase : 64 ≤ s.evr.base := by
    simp only [evrBaseOk, Bool.and_eq_true, decide_eq_true_eq] at h
    exact h.1.2
  have hindex : s.evr.write % 4096 < 4096 := Nat.mod_lt _ (by omega)
  simp only [entryPieces, entryAt, List.forall_mem_cons, entryBytes_length, leBytes_length]
  exact ⟨by omega, by omega, by simp⟩

theorem evrBaseOk_range {s : State} (h : evrBaseOk s = true) : hostRangeOk s true (s.evr.base - 64) (262144 + 64) = true := by
  simp only [evrBaseOk, Bool.and_eq_true] at h
  exact h.2

theorem putEntry_code (e : Event) (s : State) (h : entryGoes s) : (putEntry e s).1 = 0 := by
  obtain ⟨hbase, hreach, hport⟩ := h
  exact chanWrite_whole 15 _ s _ _ (evrBaseOk_range hbase) hreach hport (entryPieces_within e s hbase)

theorem putEntry_mem (e : Event) (s : State) (h : entryGoes s) :
    (putEntry e s).2.host.mem = writePieces s.host.mem (entryPieces e s) := by
  obtain ⟨hbase, hreach, hport⟩ := h
  rw [putEntry_eq, chanWrite_host_whole 15 _ s _ _ (evrBaseOk_range hbase) hreach hport (entryPieces_within e s hbase)]

theorem writeEntry_evr (e : Event) (s : State) : (writeEntry e s).evr = { s.evr with write := s.evr.write + 1 } := by
  have hput : (putEntry e s).2.evr = s.evr := chanWrite_evr ..
  unfold writeEntry
  dsimp only
  split <;> simp [hput]

theorem writeEntry_mem (e : Event) (s : State) : (writeEntry e s).host.mem = (putEntry e s).2.host.mem := by
  unfold writeEntry
  dsimp only
  split <;> simp only [interrupt_mem]

/-- What the host finds once an entry has been written: the entry at its place, and the count (R355). -/
theorem writeEntry_written (e : Event) (s : State) (h : entryGoes s) :
    memRead (writeEntry e s).host.mem (entryAt s) (entryBytes e s.evr.write).length = entryBytes e s.evr.write ∧
      memRead (writeEntry e s).host.mem (s.evr.base - 64) 8 = leBytes 8 (s.evr.write + 1) := by
  have hbase : 64 ≤ s.evr.base := by
    have hok := h.1
    simp only [evrBaseOk, Bool.and_eq_true, decide_eq_true_eq] at hok
    exact hok.1.2
  rw [writeEntry_mem, putEntry_mem e s h]
  simp only [entryPieces, writePieces, List.foldl_cons, List.foldl_nil]
  constructor
  · rw [memRead_memWrite_outside _ _ _ _ _ (by rw [leBytes_length, entryAt]; omega), memRead_memWrite]
  · have hcount := memRead_memWrite (memWrite s.host.mem (entryAt s) (entryBytes e s.evr.write)) (s.evr.base - 64)
      (leBytes 8 (s.evr.write + 1))
    rwa [leBytes_length] at hcount

/-! The entries in their order (R355 to R357). -/

theorem exec_eventEntryWrite (s : State) (hOn : s.dev.state ≠ .off) : exec .eventEntryWrite s = .next (writeEvents s) :=
  Proofs.whenOn_of_on _ s hOn

theorem writeEvents_due (s : State) (e : Event) (rest : List Event) (hdue : s.evr.due = e :: rest) (hBoot : s.dev.state ≠ .boot) :
    writeEvents s = drainHeld (holdEvent e (elapseTo (e.gts + 100000) { s with evr.due := rest })) := by
  simp only [writeEvents, hdue]
  rw [if_neg]
  rw [holdEvent_dev]
  simpa using hBoot

theorem writeEvents_due_boot (s : State) (e : Event) (rest : List Event) (hdue : s.evr.due = e :: rest) (hBoot : s.dev.state = .boot) :
    writeEvents s = holdEvent e (elapseTo (e.gts + 100000) { s with evr.due := rest }) := by
  simp only [writeEvents, hdue]
  rw [if_pos]
  rw [holdEvent_dev]
  simpa using hBoot

theorem writeEvents_none (s : State) (hdue : s.evr.due = []) : writeEvents s = if s.dev.state = .boot then s else drainHeld s := by
  simp only [writeEvents, hdue]

theorem drainHeld_closed (s : State) (h : evrOpen s = false ∨ s.evr.held = []) : drainHeld s = s := by
  unfold drainHeld
  split
  · rfl
  · next e rest hheld =>
    have hclosed : evrOpen s = false := h.resolve_right (by simp [hheld])
    simp [hclosed]

section
variable (s : State) (e : Event) (rest : List Event) (hheld : s.evr.held = e :: rest) (hopen : evrOpen s = true)
include hheld hopen

theorem drainHeld_stopped (hcode : (putEntry e s).1 ≠ 0) : drainHeld s = (putEntry e s).2 := by
  simp [drainHeld, hheld, hopen, hcode]

theorem drainHeld_writes (hcode : (putEntry e s).1 = 0) (hgap : s.evr.gap = none) :
    drainHeld s = writeEntry e { s with evr.held := rest } := by
  simp [drainHeld, hheld, hopen, hcode, hgap]

theorem drainHeld_afterLoss (hcode : (putEntry e s).1 = 0) (g : Nat × Nat × Nat) (hgap : s.evr.gap = some g) (hReport : e.code ≠ 2) :
    drainHeld s = writeEntry (lostEvent g e s).1 (lostEvent g e s).2 := by
  simp [drainHeld, hheld, hopen, hcode, hgap, hReport]

end

theorem evrOpen_reach {s : State} (h : evrOpen s = true) : hostReachable s = true := by
  simp only [evrOpen, Bool.and_eq_true] at h
  exact h.1.2

/-- A first entry whose range no window permits is counted and stays held (R362; log 16). -/
theorem putEntry_denied (e : Event) (s : State) (hbase : s.evr.base % 4096 = 0)
    (h : hostRangeOk s true (entryAt s) (entryBytes e s.evr.write).length = false) :
    (putEntry e s).1 ≠ 0 ∧ (putEntry e s).2.host = s.host ∧
      counter .windowDenied 0 (putEntry e s).2 = counter .windowDenied 0 s + 1 := by
  have hlen := entryBytes_length e s.evr.write
  have hpage : entryAt s % 4096 + (entryBytes e s.evr.write).length ≤ 4096 := by rw [hlen, entryAt]; omega
  obtain ⟨hcode, hhost, hcount⟩ := chanWrite_denied 15 (entryAt s) _ [(s.evr.base - 64, leBytes 8 (s.evr.write + 1))] s
    (List.ne_nil_of_length_pos (by omega)) hpage h
  refine ⟨?_, hhost, hcount⟩
  rw [putEntry_eq, entryPieces, hcode]
  decide

end Sys2Proof.Laws
end

section
/-! The event ring (spec/15_host_interface.md R354 to R357). -/

namespace Sys2Proof.Proofs
open Sys2Proof Sys2Proof.Machine Sys2Proof.Laws

/-- Settles O10: the branches of `writeEvents`, `drainHeld` and `holdEvent`, with `writeEntry_written` for what is found in the ring. -/
theorem eventRingWritesInOrder : Obligations.EventRingWritesInOrder := by
  refine ⟨fun s e rest hOn hBoot hdue => ?due, fun s e rest hOn hBoot hdue hheld hgap hopen hbase hport => ?entry,
    fun s e rest n g1 g2 hOn hBoot hdue hheld hReport hgap hopen hbase hport => ?loss, fun s hOn hdue hclosed => ?closed,
    fun s e rest hBoot hdue => ?boot, fun s hBoot hdue => ?bootNone,
    fun s e rest hOn hBoot hdue hheld hopen hbase hdenied => ?denied, fun s e hc => ⟨fun hroom => ?held, fun hfull => ?lost⟩,
    fun s e hc => holdEvent_held e s (.inl hc)⟩
  case due => rw [exec_eventEntryWrite s hOn, writeEvents_due s e rest hdue hBoot]
  case entry =>
    have hgoes : entryGoes s := ⟨hbase, evrOpen_reach hopen, hport⟩
    obtain ⟨hentry, hcount⟩ := writeEntry_written e { s with evr.held := rest } hgoes
    refine ⟨writeEntry e { s with evr.held := rest }, ?_, ?_, ?_, hentry, hcount⟩
    · rw [exec_eventEntryWrite s hOn, writeEvents_none s hdue, if_neg hBoot,
        drainHeld_writes s e rest hheld hopen (putEntry_code e s hgoes) hgap]
    · rw [writeEntry_evr]
    · rw [writeEntry_evr]
  case loss =>
    have hgoes : entryGoes s := ⟨hbase, evrOpen_reach hopen, hport⟩
    obtain ⟨hentry, hcount⟩ := writeEntry_written (lostEvent (n, g1, g2) e s).1 (lostEvent (n, g1, g2) e s).2 hgoes
    refine ⟨writeEntry (lostEvent (n, g1, g2) e s).1 (lostEvent (n, g1, g2) e s).2, ?_, ?_, ?_, ?_, hentry, hcount⟩
    · rw [exec_eventEntryWrite s hOn, writeEvents_none s hdue, if_neg hBoot,
        drainHeld_afterLoss s e rest hheld hopen (putEntry_code e s hgoes) _ hgap hReport]
    · rw [writeEntry_evr]; exact hheld
    · rw [writeEntry_evr]; rfl
    · rw [writeEntry_evr]; rfl
  case closed =>
    rw [exec_eventEntryWrite s hOn, writeEvents_none s hdue, drainHeld_closed s hclosed, ite_self]
  case boot =>
    rw [exec_eventEntryWrite s (by simp [hBoot]), writeEvents_due_boot s e rest hdue hBoot]
  case bootNone =>
    rw [exec_eventEntryWrite s (by simp [hBoot]), writeEvents_none s hdue, if_pos hBoot]
  case denied =>
    obtain ⟨hcode, hhost, hcount⟩ := putEntry_denied e s hbase hdenied
    refine ⟨(putEntry e s).2, ?_, chanWrite_evr .., hhost, hcount⟩
    rw [exec_eventEntryWrite s hOn, writeEvents_none s hdue, if_neg hBoot, drainHeld_stopped s e rest hheld hopen hcode]
  case held => exact holdEvent_held e s (.inr hroom)
  case lost =>
    have hfull : ¬roomToHold s := fun ⟨h960, h1024⟩ => hfull.elim (Nat.not_le.mpr h960) (Nat.not_le.mpr h1024)
    rw [holdEvent_lost_evr e s hc hfull]
    exact ⟨rfl, rfl, rfl⟩

end Sys2Proof.Proofs
end

section
/-! SUPPORT. The link, errors of the host interface and its resets (spec/15_host_interface.md R344 to R346, R358 to R360). -/

namespace Sys2Proof.Laws
open Sys2Proof Sys2Proof.Machine

/-! Link errors (R346). -/

/-- A link error raises at most an event. -/
theorem linkError_touches (m : Int) (rest : List Int) (s : State) : ∃ e r c n, linkError m rest s =
    { s with evr := e, recorder := r, counters := c, fresh := n } := by
  unfold linkError
  split
  · exact ⟨_, _, _, _, rfl⟩
  · exact ⟨_, _, _, _, rfl⟩

/-- The state in which an error completion has been reported and raised (R346). -/
def completionReported (ch : BitVec 4) (poisoned : Bool) (s : State) : State :=
  linkError ch.toNat [1, bit poisoned] (reportAer poisoned s)

theorem completionReported_eq (ch : BitVec 4) (poisoned : Bool) (s : State) : completionReported ch poisoned s =
    if evrRunning s then raiseOpen false 0 1 ch.toNat [1, bit poisoned] (reportAer poisoned s) else reportAer poisoned s := rfl

/-- It leaves the channels, the records and the loads. -/
theorem completionReported_keeps (ch : BitVec 4) (poisoned : Bool) (s : State) :
    (completionReported ch poisoned s).dma = s.dma ∧ (completionReported ch poisoned s).out = s.out ∧
      (completionReported ch poisoned s).loads = s.loads := by
  obtain ⟨e, r, c, n, h⟩ := linkError_touches ch.toNat [1, bit poisoned] (reportAer poisoned s)
  rw [completionReported, h]
  exact ⟨rfl, rfl, rfl⟩

theorem running_congr {s t : State} (hdma : t.dma = s.dma) (hout : t.out = s.out) (ch : Nat) : running t ch = running s ch := by
  unfold running dmaCh ringChannel
  rw [hdma, hout]

theorem running_queue {s : State} {ch : Nat} {d : Desc} (h : running s ch = some d) :
    (∃ rest, (dmaCh s ch).queue = d :: rest) ∧ (dmaCh s ch).error = none := by
  unfold running at h
  dsimp only at h
  split at h
  · cases h
  · next x rest hq =>
    split at h
    · cases h
    · next hgood =>
      obtain rfl := Option.some.inj h
      simp only [Bool.or_eq_true, not_or] at hgood
      exact ⟨⟨rest, hq⟩, by simpa using hgood.2⟩

theorem exec_hostCompletionError (ch : BitVec 4) (poisoned : Bool) (s : State) (hOn : s.dev.state ≠ .off) (hch : ch ≠ 12) :
    exec (.hostCompletionError ch poisoned) s = .next (
      let s1 := completionReported ch poisoned s
      match (dmaCh s1 ch.toNat).queue with
      | d :: _ => if d.srcSpace = 6 then failDesc 2 ch.toNat s1 else s1
      | [] => s1) := by
  rw [show exec (.hostCompletionError ch poisoned) s = execHostCompletionError ch poisoned s from rfl, execHostCompletionError,
    Proofs.whenOn_of_on _ s hOn]
  exact congrArg _ (if_neg hch)

/-- A host descriptor of which something is still to be issued ends with an error (R346, R359, R391). -/
theorem failDesc_ends (code ch : Nat) (d : Desc) (s : State) (hrun : running s ch = some d)
    (hhost : d.srcSpace = 6 ∨ d.dstSpace = 6) (hleft : (dmaCh s ch).issued < d.len) : failDesc code ch s = dmaError ch code false s := by
  simp only [failDesc, hrun]
  rw [if_pos]
  simpa [hleft] using hhost

/-! Tables of which every entry is changed. -/

theorem tabGet_mem {α : Type} (d : α) (t : Tab α) (i : Nat) : tabGet d t i = d ∨ ∃ e ∈ t, e.2 = tabGet d t i := by
  induction t with
  | nil => exact .inl rfl
  | cons e t ih =>
    obtain ⟨k, v⟩ := e
    by_cases hk : k = i
    · exact .inr ⟨(k, v), List.mem_cons_self .., by simp [tabGet, hk]⟩
    · rw [tabGet, if_neg hk]
      exact ih.imp_right (fun ⟨e, he, hv⟩ => ⟨e, List.mem_cons_of_mem _ he, hv⟩)

/-- What holds of the default and of every changed entry holds of what each entry reads as. -/
theorem tabGet_tabMap_all {α : Type} [DecidableEq α] (d : α) (f : α → α) (t : Tab α) (p : α → Prop) (hd : p d) (hf : ∀ x, p (f x))
    (i : Nat) : p (tabGet d (tabMap d f t) i) := by
  obtain h | ⟨e, he, hv⟩ := tabGet_mem d (tabMap d f t) i
  · rwa [h]
  · obtain ⟨x, -, rfl⟩ := List.mem_map.mp (List.mem_filter.mp he).1
    rw [← hv]
    exact hf _

/-- In a table in canonical form each entry reads as changed, where the default stays. -/
theorem tabGet_tabMap {α : Type} [DecidableEq α] (d : α) (f : α → α) (t : Tab α) (hwf : tabWf d t = true) (hd : f d = d) (i : Nat) :
    tabGet d (tabMap d f t) i = f (tabGet d t i) := by
  have hkeys : t.Pairwise (fun a b => a.1 < b.1) := by
    simp only [tabWf, Bool.and_eq_true, tabSorted_iff] at hwf
    exact hwf.1
  clear hwf
  induction t with
  | nil => exact hd.symm
  | cons e t ih =>
    obtain ⟨k, v⟩ := e
    obtain ⟨hfirst, hrest⟩ := List.pairwise_cons.mp hkeys
    have ih := ih hrest
    by_cases hk : k = i
    · subst hk
      have hnone : tabGet d t k = d := tabGet_of_not_mem d t k (fun e he => (hfirst e he).ne')
      rw [hnone, hd] at ih
      by_cases hv : f v = d
      · simpa [tabMap, hv, tabGet] using ih
      · simp [tabMap, hv, tabGet]
    · by_cases hv : f v = d
      · simpa [tabMap, hv, tabGet, hk] using ih
      · simpa [tabMap, hv, tabGet, hk] using ih

/-! A reset of the interface (R359). -/

theorem foldl_proj {α β : Type} (g : State → β) (f : State → α → State) (h : ∀ s x, g (f s x) = g s) (l : List α) (s : State) :
    g (l.foldl f s) = g s := by
  induction l generalizing s with
  | nil => rfl
  | cons x l ih => exact (ih _).trans (h s x)

/-- What a reset of the host interface keeps (R359, R360), beside the DMA channels that move nothing to or from the host. -/
def resetKept (s : State) : DevSt × TetherSt × OutSt × Nat × Nat := (s.dev, s.tether, s.out, s.evr.write, s.evr.lost)

theorem failDesc_touches (ch : Nat) (s : State) : ∃ x, failDesc 7 ch s = { s with dma.chans := x } := by
  unfold failDesc
  split
  · split
    · exact ⟨_, rfl⟩
    · exact ⟨_, rfl⟩
  · exact ⟨_, rfl⟩

theorem failDesc_other (ch j : Nat) (h : j ≠ ch) (s : State) :
    dmaCh (failDesc 7 ch s) j = dmaCh s j := by
  unfold failDesc
  split
  · split
    · exact dmaCh_modDma_ne _ _ _ _ h
    · rfl
  · rfl

theorem foldl_failDesc_touches (l : List Nat) (s : State) :
    ∃ x, l.foldl (fun s c => failDesc 7 c s) s = { s with dma.chans := x } := by
  induction l generalizing s with
  | nil => exact ⟨_, rfl⟩
  | cons c l ih =>
    obtain ⟨x, hx⟩ := failDesc_touches c s
    obtain ⟨y, hy⟩ := ih (failDesc 7 c s)
    exact ⟨y, by rw [List.foldl_cons, hy, hx]⟩

theorem foldl_failDesc_other (l : List Nat) (j : Nat) (h : j ∉ l) (s : State) :
    dmaCh (l.foldl (fun s c => failDesc 7 c s) s) j = dmaCh s j := by
  induction l generalizing s with
  | nil => rfl
  | cons c l ih =>
    rw [List.mem_cons, not_or] at h
    rw [List.foldl_cons, ih h.2, failDesc_other c j h.1]

theorem running_congr_channel {s t : State} (ch : Nat) (hdma : dmaCh t ch = dmaCh s ch) (hout : t.out = s.out) :
    running t ch = running s ch := by
  unfold running ringChannel
  rw [hdma, hout]

/-- Each of different channels that moves data to or from the host ends its descriptor with TARGET_RESET (R359). -/
theorem foldl_failDesc_error (l : List Nat) (hnodup : l.Nodup) (c : Nat) (hc : c ∈ l) (d : Desc) (s : State)
    (hrun : running s c = some d) (hhost : d.srcSpace = 6 ∨ d.dstSpace = 6) (hleft : (dmaCh s c).issued < d.len) :
    (dmaCh (l.foldl (fun s c => failDesc 7 c s) s) c).error = some 7 := by
  induction l generalizing s with
  | nil => cases hc
  | cons j l ih =>
    obtain ⟨hj, hnodup⟩ := List.nodup_cons.mp hnodup
    rw [List.foldl_cons]
    by_cases hjc : c = j
    · subst hjc
      rw [foldl_failDesc_other l c hj, failDesc_ends 7 c d s hrun hhost hleft]
      simp [dmaError]
    · have hsame := failDesc_other j c hjc s
      obtain ⟨x, hx⟩ := failDesc_touches j s
      have hout : (failDesc 7 j s).out = s.out := by rw [hx]
      exact ih hnodup ((List.mem_cons.mp hc).resolve_left hjc) _ ((running_congr_channel c hsame hout).trans hrun) (by rwa [hsame])

/-- What the failures of bulk transfers and the ports touch leaves the channels and what a reset keeps. -/
def resetKeeps (s t : State) : Prop := t.dma.chans = s.dma.chans ∧ resetKept t = resetKept s

theorem failLoad_resetKeeps (p : Load → Bool) (s : State) : resetKeeps s (failLoad p s) := by
  unfold failLoad
  split
  · exact ⟨rfl, rfl⟩
  · split <;> exact ⟨rfl, rfl⟩

theorem failBulk_resetKeeps (p : Request → Bool) (s : State) : resetKeeps s (failBulk p s) := by
  unfold failBulk
  split <;> exact ⟨rfl, rfl⟩

theorem resetKeeps_trans {s t u : State} (h : resetKeeps s t) (h' : resetKeeps t u) : resetKeeps s u :=
  ⟨h'.1.trans h.1, h'.2.trans h.2⟩

theorem resetKeeps_foldl {α : Type} (f : State → α → State) (h : ∀ s x, resetKeeps s (f s x)) (l : List α) (s : State) :
    resetKeeps s (l.foldl f s) :=
  ⟨foldl_proj (fun s => s.dma.chans) f (fun s x => (h s x).1) l s, foldl_proj resetKept f (fun s x => (h s x).2) l s⟩

theorem failHostBulk_resetKeeps (s : State) : resetKeeps s (failHostBulk s) := by
  unfold failHostBulk
  refine resetKeeps_trans (resetKeeps_trans (resetKeeps_foldl _ (fun s l => ?_) _ s) (resetKeeps_foldl _ (fun s r => ?_) _ _))
    (resetKeeps_foldl _ (fun s e => ?_) _ _)
  · split
    · exact failLoad_resetKeeps ..
    · exact ⟨rfl, rfl⟩
  · split
    · exact failBulk_resetKeeps ..
    · exact ⟨rfl, rfl⟩
  · split
    · exact failBulk_resetKeeps ..
    · exact ⟨rfl, rfl⟩

theorem resetKeeps_of_portStep {s t : State} (h : portStep s t) : resetKeeps s t := by
  obtain ⟨p, c, d, m, g, rfl⟩ := h
  exact ⟨rfl, rfl⟩

theorem expireTxn_resetKeeps (s : State) : resetKeeps s (expireTxn s) := by
  unfold expireTxn
  split <;> exact ⟨rfl, rfl⟩

theorem clearCtrs_resetKeeps (l : List Ctr) (i : Nat) (s : State) : resetKeeps s (clearCtrs l i s) :=
  resetKeeps_foldl (fun s c => clearCtr c i s) (fun _ _ => ⟨rfl, rfl⟩) l s

/-- The state in which the reset has ended the transfers that move data to or from the host (R359). -/
def transfersEnded (s : State) : State := failHostBulk ((List.range 16).foldl (fun s c => failDesc 7 c s) s)

/-- The state in which the ports and the counters are reset too (R359, R383). -/
def resetCore (s : State) : State :=
  expireTxn (clearCtrs [.doorbellInvalid, .mailboxWriteLocked] 0
    (masterReset 0 (portReset (port (transfersEnded s) 6).down 6 (transfersEnded s))))

/-- The registers of the interface at their reset values (R359). -/
def registersReset (kind : HostReset) (s : State) : State :=
  { s with
    host.slots := tabMap {} (fun (x : Slot) => { x with state := .free, response := none }) s.host.slots
    host.queue := []
    host.active := s.host.active.map (fun a => (a.1, a.2.1, true))
    host.intCause := 0, host.intMask := 0, host.causes := [], host.msix := []
    host.ringReads := s.host.ringReads.filter (fun e => (ring s e.1).isSome)
    host.lastRequester := 0, host.requesterChanged := false, host.anyRequester := false
    host.busMaster := false, host.d3hot := false, host.pcie := {}, host.aer := 0
    host.speed := if kind = .functionLevel then s.host.speed else 0
    host.width := if kind = .functionLevel then s.host.width else 0
    evr.base := 0, evr.enable := false, evr.overflowed := false, evr.baseDenied := false, evr.read := 0
    out.rings := tabMap none (fun (x : Option HostRing) => x.map (fun r => { r with suspended := true })) s.out.rings }

theorem slot_registersReset (kind : HostReset) (s : State) (j : Nat) :
    (slot (registersReset kind s) j).state = .free ∧ (slot (registersReset kind s) j).response = none :=
  tabGet_tabMap_all ({} : Slot) (fun (x : Slot) => { x with state := .free, response := none }) s.host.slots
    (fun x => x.state = .free ∧ x.response = none) ⟨rfl, rfl⟩ (fun _ => ⟨rfl, rfl⟩) j

theorem ring_registersReset (kind : HostReset) (s : State) (hwf : tabWf none s.out.rings = true) (j : Nat) :
    ring (registersReset kind s) j = (ring s j).map (fun r => { r with suspended := true }) :=
  tabGet_tabMap none _ s.out.rings hwf rfl j

theorem resetHost_eq (kind : HostReset) (s : State) : resetHost kind s = registersReset kind (resetCore s) := by
  unfold resetHost registersReset resetCore transfersEnded
  simp only [decide_eq_true_eq]

theorem resetCore_resetKeeps (s : State) :
    resetKeeps ((List.range 16).foldl (fun s c => failDesc 7 c s) s) (resetCore s) := by
  have hports := portStep_trans (portStep_portReset (port (transfersEnded s) 6).down 6 (transfersEnded s)) (portStep_masterReset 0 _)
  exact resetKeeps_trans (failHostBulk_resetKeeps _) (resetKeeps_trans (resetKeeps_of_portStep hports)
    (resetKeeps_trans (clearCtrs_resetKeeps ..) (expireTxn_resetKeeps _)))

theorem resetCore_kept (s : State) : resetKept (resetCore s) = resetKept s := by
  obtain ⟨x, hx⟩ := foldl_failDesc_touches (List.range 16) s
  rw [(resetCore_resetKeeps s).2, hx]
  rfl

theorem resetCore_chans (s : State) (c : Nat) :
    dmaCh (resetCore s) c = dmaCh ((List.range 16).foldl (fun s c => failDesc 7 c s) s) c := by
  unfold dmaCh
  rw [(resetCore_resetKeeps s).1]

/-! The commands while the part is on. -/

section
variable (s : State) (hOn : s.dev.state ≠ .off)
include hOn

theorem exec_hostInterfaceReset (k : HostReset) : exec (.hostInterfaceReset k) s = .next (registersReset k (resetCore s)) :=
  (Proofs.whenOn_of_on (resetHost k) s hOn).trans (congrArg _ (resetHost_eq k s))

theorem exec_busMasterOrD3 (b d : Bool) (x : PcieControl) (v : BitVec 32) :
    exec (.busMasterOrD3 b d x v) s = .next (unmaskPending { s with
      host.busMaster := b, host.d3hot := d, host.pcie := x, host.aer := s.host.aer &&& ~~~v }) :=
  Proofs.whenOn_of_on (fun s => unmaskPending { s with
    host.busMaster := b, host.d3hot := d, host.pcie := x, host.aer := s.host.aer &&& ~~~v }) s hOn

/-- A generation and a width that the link can have (R344). -/
def linkLegal (g : BitVec 3) (w : BitVec 4) : Bool := decide (1 ≤ g.toNat ∧ g.toNat ≤ 5) && [1, 2, 4, 8].contains w.toNat

omit hOn in
theorem linkLegal_iff (g : BitVec 3) (w : BitVec 4) :
    linkLegal g w = true ↔ 1 ≤ g.toNat ∧ g.toNat ≤ 5 ∧ (w = 1 ∨ w = 2 ∨ w = 4 ∨ w = 8) := by
  revert g w
  decide

theorem exec_pcieLinkTrained (g : BitVec 3) (w : BitVec 4) : exec (.pcieLinkTrained g w) s =
    .next (if linkLegal g w then { s with host.speed := g.toNat, host.width := w.toNat } else s) :=
  Proofs.whenOn_of_on (fun s => if linkLegal g w then { s with host.speed := g.toNat, host.width := w.toNat } else s) s hOn

theorem exec_poisonedWrite (o : BitVec 25) :
    exec (.poisonedWrite o) s = .next (linkError o.toNat [0] (reportAer true (count .poisonedWrite 0 s))) :=
  Proofs.whenOn_of_on (fun s => linkError o.toNat [0] (reportAer true (count .poisonedWrite 0 s))) s hOn

theorem exec_hostCompletionError_load (poisoned : Bool) (h : s.loads.any (fun l => (loadBulk l).kind = 1 && l.failed.isNone) = true) :
    exec (.hostCompletionError 12 poisoned) s = .next (failLoad (fun l => (loadBulk l).kind = 1) (completionReported 12 poisoned s)) := by
  obtain ⟨-, -, hloads⟩ := completionReported_keeps 12 poisoned s
  rw [show exec (.hostCompletionError 12 poisoned) s = execHostCompletionError 12 poisoned s from rfl, execHostCompletionError,
    Proofs.whenOn_of_on _ s hOn]
  refine congrArg _ ((if_pos rfl).trans (if_pos ?_))
  exact (congrArg (fun l => List.any l (fun l => (loadBulk l).kind = 1 && l.failed.isNone)) hloads).trans h

theorem exec_interruptCoalesceTimeout (c : BitVec 5) : exec (.interruptCoalesceTimeout c) s = .next (coalesceDue c.toNat s) :=
  Proofs.whenOn_of_on (coalesceDue c.toNat) s hOn

end

theorem coalesceDue_idle (c : Nat) (s : State) (h : coalesced c = false ∨ (intCause s c).waiting = 0) : coalesceDue c s = s :=
  if_pos (by simpa using h)

/-- A coalesced cause whose time threshold has passed: its message is sent if it is enabled (R358). -/
theorem coalesceDue_due (c : Nat) (s : State) (hc : coalesced c = true) (hwait : (intCause s c).waiting ≠ 0) :
    coalesceDue c s =
      let s1 := modCause c (fun k => { k with waiting := 0 }) (elapseTo ((intCause s c).since + (intCause s c).timeUs * 1000) s)
      if causeEnabled s c then sendMessage c s1 else s1 :=
  if_neg (by simp [hc, hwait])

end Sys2Proof.Laws
end

section
/-! Events of the host interface (spec/15_host_interface.md R344 to R346, R358, R359). -/

namespace Sys2Proof.Proofs
open Sys2Proof Sys2Proof.Machine Sys2Proof.Laws

/-- Settles O17: what each event does in its branches; the reset by `resetCore_kept`, `foldl_failDesc_error` and the laws of
`tabMap`. -/
theorem hostInterfaceEvents : Obligations.HostInterfaceEvents := by
  intro s hOn
  refine ⟨exec_busMasterOrD3 s hOn, fun g w => ⟨fun hlegal => ?legal, fun hillegal => ?illegal⟩,
    fun o => ⟨fun hidle => ?quiet, fun hruns => ?raised⟩, fun ch b hch => ⟨fun hnone => ?noDesc, fun d hrun hsrc hleft => ?desc⟩,
    fun b hload => exec_hostCompletionError_load s hOn b hload, fun k => ?reset, fun c => ⟨fun hco hwait => ?due, fun hnone => ?notDue⟩⟩
  case legal =>
    rw [exec_pcieLinkTrained s hOn, if_pos ((linkLegal_iff g w).mpr hlegal)]
  case illegal =>
    rw [exec_pcieLinkTrained s hOn, if_neg (fun h => hillegal ((linkLegal_iff g w).mp h))]
  case quiet =>
    rw [exec_poisonedWrite s hOn, linkError, if_neg]
    rw [Bool.not_eq_true]
    exact hidle
  case raised =>
    rw [exec_poisonedWrite s hOn, linkError, if_pos]
    exact hruns
  case noDesc =>
    obtain ⟨hdma, -, -⟩ := completionReported_keeps ch b s
    have hq : (dmaCh (completionReported ch b s) ch.toNat).queue = [] := by rw [dmaCh, hdma]; exact hnone
    rw [exec_hostCompletionError ch b s hOn hch]
    simp only [hq]
    rfl
  case desc =>
    obtain ⟨hdma, hout, -⟩ := completionReported_keeps ch b s
    have hrun' := (running_congr hdma hout ch.toNat).trans hrun
    obtain ⟨⟨rest, hq⟩, -⟩ := running_queue hrun'
    rw [exec_hostCompletionError ch b s hOn hch]
    simp only [hq, hsrc, if_true]
    exact congrArg _ (failDesc_ends 2 _ d _ hrun' (.inl hsrc) (by rw [dmaCh, hdma]; exact hleft))
  case reset =>
    have hkept := resetCore_kept s
    simp only [resetKept, Prod.mk.injEq] at hkept
    obtain ⟨hdev, htether, hout, hwrite, hlost⟩ := hkept
    have hends : ∀ c d, c < 16 → running s c = some d → (d.srcSpace = 6 ∨ d.dstSpace = 6) → (dmaCh s c).issued < d.len →
        (dmaCh (resetCore s) c).error = some 7 := fun c d hc hrun hhost hleft => by
      rw [resetCore_chans]
      exact foldl_failDesc_error (List.range 16) List.nodup_range c (List.mem_range.mpr hc) d s hrun hhost hleft
    have hexec := exec_hostInterfaceReset s hOn k
    generalize resetCore s = r at *
    refine ⟨_, hexec, slot_registersReset k r, rfl, rfl, rfl, rfl, rfl, rfl, rfl, rfl, rfl, rfl, rfl, hwrite, hlost, hends,
      fun hwf j => ?_, hdev, htether⟩
    rw [ring_registersReset k r (by rwa [hout]), ring, hout]
    rfl
  case due =>
    rw [exec_interruptCoalesceTimeout s hOn, coalesceDue_due _ s hco hwait]
  case notDue =>
    rw [exec_interruptCoalesceTimeout s hOn, coalesceDue_idle _ s hnone]

end Sys2Proof.Proofs
end

section
/-! Which commands end in a next state (spec/95_what_each_step_holds.md). -/

namespace Sys2Proof.Laws
open Sys2Proof Sys2Proof.Machine

/-- Every meaning but that of DRAM_READ is a next state, on each of its branches. -/
theorem exec_goesOn (c : Instr) (s : State) (h : ∀ a l k w r, c ≠ .dramRead a l k w r) : ∃ t, exec c s = .next t := by
  cases c with
  | dramRead a l k w r => exact absurd rfl (h a l k w r)
  | registerWrite r o data =>
    by_cases ho : o.toNat < 0x1000000
    · exact ⟨_, if_pos ho⟩
    · exact ⟨_, if_neg ho⟩
  | resetNAssert =>
    show ∃ t, execResetNAssert s = .next t
    unfold execResetNAssert
    split
    · exact ⟨_, rfl⟩
    · exact ⟨_, rfl⟩
  | _ => exact ⟨_, rfl⟩

theorem exec_dramRead_off (a : Nat) (l : List Nat) (k : BitVec 3) (w : Bool) (r : BitVec 2) (s : State) (hOff : s.dev.state = .off) :
    exec (.dramRead a l k w r) s = .next s := if_pos hOff

theorem exec_dramRead_goesOn (a : Nat) (l : List Nat) (k : BitVec 3) (w : Bool) (r : BitVec 2) (s : State)
    (hOn : s.dev.state ≠ .off) (htop : a < dramTop s) (hmap : dramMap s a ≠ none) : ∃ t, exec (.dramRead a l k w r) s = .next t := by
  obtain ⟨⟨c, loc⟩, hmap⟩ := Option.ne_none_iff_exists'.mp hmap
  rw [exec_dramRead a c loc l k w r s hOn htop hmap]
  dsimp only
  split
  · exact ⟨_, rfl⟩
  · exact ⟨_, rfl⟩

end Sys2Proof.Laws

namespace Sys2Proof.Proofs
open Sys2Proof Sys2Proof.Machine Sys2Proof.Laws

/-- Settles O3: only DRAM_READ has a branch that is no next state, which is `exec_dramRead_noDram`. -/
theorem onlyDramReadCanStop : Obligations.OnlyDramReadCanStop := by
  intro c s
  by_cases hread : ∃ a l k w r, c = .dramRead a l k w r
  · obtain ⟨a, l, k, w, r, rfl⟩ := hread
    by_cases hOff : s.dev.state = .off
    · exact .inl ⟨s, exec_dramRead_off a l k w r s hOff⟩
    · by_cases hpast : dramTop s ≤ a ∨ dramMap s a = none
      · exact .inr ⟨a, l, k, w, r, rfl, hOff, hpast, exec_dramRead_noDram a l k w r s hOff hpast⟩
      · obtain ⟨htop, hmap⟩ := not_or.mp hpast
        exact .inl (exec_dramRead_goesOn a l k w r s hOff (Nat.lt_of_not_le htop) hmap)
  · exact .inl (exec_goesOn c s (fun a l k w r h => hread ⟨a, l, k, w, r, h⟩))

end Sys2Proof.Proofs
end

section
/-! SUPPORT. The interleave of the DRAM channels (spec/14_dram_controller.md R339): its entries are the rounds of each channel, once
each, and their number is the sum of the channels' shares. -/

namespace Sys2Proof.Laws
open Sys2Proof Sys2Proof.Machine

theorem dvd_of_foldl_gcd (l : List Nat) (a : Nat) : l.foldl Nat.gcd a ∣ a ∧ ∀ x ∈ l, l.foldl Nat.gcd a ∣ x := by
  induction l generalizing a with
  | nil => simp
  | cons y l ih =>
    obtain ⟨hacc, hrest⟩ := ih (Nat.gcd a y)
    refine ⟨hacc.trans (Nat.gcd_dvd_left a y), fun x hx => ?_⟩
    obtain rfl | hx := List.mem_cons.mp hx
    · exact hacc.trans (Nat.gcd_dvd_right a x)
    · exact hrest x hx

theorem le_foldl_max {α : Type} (f : α → Nat) (l : List α) (a : Nat) :
    a ≤ l.foldl (fun m e => max m (f e)) a ∧ ∀ e ∈ l, f e ≤ l.foldl (fun m e => max m (f e)) a := by
  induction l generalizing a with
  | nil => simp
  | cons y l ih =>
    obtain ⟨hacc, hrest⟩ := ih (max a (f y))
    refine ⟨(le_max_left ..).trans hacc, fun x hx => ?_⟩
    obtain rfl | hx := List.mem_cons.mp hx
    · exact (le_max_right ..).trans hacc
    · exact hrest x hx

/-- The greatest capacity by which every channel's is a whole number of shares. -/
def shareGiB (l : List (Nat × Nat)) : Nat := (l.map (·.2)).foldl Nat.gcd 0

/-- Channels with their shares. -/
def shares (l : List (Nat × Nat)) : List (Nat × Nat) := l.map (fun e => (e.1, e.2 / shareGiB l))

/-- The entries of the rounds below `n` in which channels with their shares take their turns. -/
def rounds (ks : List (Nat × Nat)) (n : Nat) : List (Nat × Nat × Nat) :=
  (List.range n).flatMap (fun r => (ks.filter (fun e => decide (r < e.2))).map (fun e => (e.1, r, e.2)))

theorem interleave_eq (l : List (Nat × Nat)) :
    interleave l = rounds (shares l) ((shares l).foldl (fun m e => max m e.2) 0) := rfl

theorem shareGiB_dvd (l : List (Nat × Nat)) {e : Nat × Nat} (he : e ∈ l) : shareGiB l ∣ e.2 :=
  (dvd_of_foldl_gcd (l.map (·.2)) 0).2 _ (List.mem_map_of_mem he)

theorem share_mul (l : List (Nat × Nat)) {e : Nat × Nat} (he : e ∈ l) : e.2 / shareGiB l * shareGiB l = e.2 :=
  Nat.div_mul_cancel (shareGiB_dvd l he)

theorem mem_rounds (ks : List (Nat × Nat)) (n : Nat) (x : Nat × Nat × Nat) :
    x ∈ rounds ks n ↔ x.2.1 < n ∧ x.2.1 < x.2.2 ∧ (x.1, x.2.2) ∈ ks := by
  obtain ⟨c, r, k⟩ := x
  simp only [rounds, List.mem_flatMap, List.mem_range, List.mem_map, List.mem_filter, decide_eq_true_eq, Prod.mk.injEq]
  constructor
  · rintro ⟨_, hn, ⟨c', k'⟩, ⟨hmem, hlt⟩, rfl, rfl, rfl⟩
    exact ⟨hn, hlt, hmem⟩
  · rintro ⟨hn, hlt, hmem⟩
    exact ⟨r, hn, (c, k), ⟨hmem, hlt⟩, rfl, rfl, rfl⟩

theorem nodup_rounds (ks : List (Nat × Nat)) (n : Nat) (h : ks.Nodup) : (rounds ks n).Nodup := by
  refine List.nodup_flatMap.mpr ⟨fun r _ => (h.filter _).map (fun a b hab => ?_), List.nodup_range.imp (fun {a b} hab x ha hb => ?_)⟩
  · simp only [Prod.mk.injEq, true_and] at hab
    exact Prod.ext hab.1 hab.2
  · obtain ⟨_, _, rfl⟩ := List.mem_map.mp ha
    obtain ⟨_, _, hx⟩ := List.mem_map.mp hb
    simp only [Prod.mk.injEq] at hx
    exact hab hx.2.1.symm

/-- The rounds below `n` that a channel of `k` shares takes part in. -/
theorem sum_rounds (k n : Nat) : ((List.range n).map (fun r => if r < k then 1 else 0)).sum = min k n := by
  induction n with
  | zero => simp
  | succ n ih =>
    rw [List.range_succ, List.map_append, List.sum_append, ih, List.map_singleton, List.sum_singleton]
    split <;> omega

theorem length_rounds (ks : List (Nat × Nat)) (n : Nat) (h : ∀ e ∈ ks, e.2 ≤ n) : (rounds ks n).length = (ks.map (·.2)).sum := by
  rw [rounds, List.length_flatMap]
  simp only [List.length_map]
  induction ks with
  | nil => simp
  | cons e ks ih =>
    obtain ⟨hfirst, hrest⟩ := List.forall_mem_cons.mp h
    have hsplit : (fun r => ((e :: ks).filter (fun e => decide (r < e.2))).length) =
        fun r => (if r < e.2 then 1 else 0) + (ks.filter (fun e => decide (r < e.2))).length := by
      funext r
      by_cases hr : r < e.2 <;> simp [hr, Nat.add_comm]
    rw [hsplit, List.sum_map_add, sum_rounds, ih hrest, List.map_cons, List.sum_cons, min_eq_left hfirst]

theorem length_interleave (l : List (Nat × Nat)) : (interleave l).length = ((shares l).map (·.2)).sum :=
  length_rounds _ _ (le_foldl_max (fun e : Nat × Nat => e.2) (shares l) 0).2

theorem length_interleave_mul (l : List (Nat × Nat)) : (interleave l).length * shareGiB l = (l.map (·.2)).sum := by
  rw [length_interleave, shares, List.map_map, ← List.sum_map_mul_right]
  exact congrArg List.sum (List.map_congr_left (fun e he => share_mul l he))

theorem mem_interleave {l : List (Nat × Nat)} {x : Nat × Nat × Nat} (h : x ∈ interleave l) :
    x.2.1 < x.2.2 ∧ ∃ e ∈ l, e.1 = x.1 ∧ e.2 / shareGiB l = x.2.2 := by
  obtain ⟨-, hlt, hmem⟩ := (mem_rounds _ _ x).mp h
  obtain ⟨e, he, hx⟩ := List.mem_map.mp hmem
  obtain ⟨hc, hk⟩ := Prod.mk.inj hx
  exact ⟨hlt, e, he, hc, hk⟩

theorem length_interleave_pos {l : List (Nat × Nat)} {e : Nat × Nat} (he : e ∈ l) (hpos : 0 < e.2) : 0 < (interleave l).length := by
  have hsum : e.2 ≤ (l.map (·.2)).sum := List.single_le_sum (fun _ _ => Nat.zero_le _) _ (List.mem_map_of_mem he)
  rw [← length_interleave_mul] at hsum
  exact Nat.pos_of_mul_pos_right (hpos.trans_le hsum)

/-- An address is mapped by the entry of its turn. -/
theorem mapAddr_eq_some {t : List (Nat × Nat × Nat)} {a : Nat} {x : Nat × Nat} (h : mapAddr t a = some x) :
    ∃ e, t[a / 2048 % t.length]? = some e ∧ e ∈ t ∧ x = (e.1, (a / 2048 / t.length * e.2.2 + e.2.1) * 2048 + a % 2048) := by
  obtain ⟨e, he, rfl⟩ := Option.map_eq_some_iff.mp h
  exact ⟨e, he, List.mem_of_getElem? he, rfl⟩

/-- R339: in a table that lists each round of a channel once, with the channel's number of rounds, an address has a place alone. -/
theorem mapAddr_injective {t : List (Nat × Nat × Nat)} (hnodup : t.Nodup) (hround : ∀ e ∈ t, e.2.1 < e.2.2)
    (hshare : ∀ e ∈ t, ∀ e' ∈ t, e.1 = e'.1 → e.2.2 = e'.2.2) {a b : Nat} {x : Nat × Nat}
    (ha : mapAddr t a = some x) (hb : mapAddr t b = some x) : a = b := by
  obtain ⟨e, hea, hmem, rfl⟩ := mapAddr_eq_some ha
  obtain ⟨e', heb, hmem', hx⟩ := mapAddr_eq_some hb
  obtain ⟨hc, hloc⟩ := Prod.mk.inj hx
  have hk := hshare e hmem e' hmem' hc
  have hr := hround e hmem
  have hr' := hround e' hmem'
  have hlow : a % 2048 = b % 2048 := by omega
  have hplace : a / 2048 / t.length * e.2.2 + e.2.1 = b / 2048 / t.length * e.2.2 + e'.2.1 := by rw [← hk] at hloc; omega
  rw [← hk] at hr'
  have hpos : 0 < e.2.2 := by omega
  have hturn : a / 2048 / t.length = b / 2048 / t.length := by
    have hdiv : ∀ q r, r < e.2.2 → (q * e.2.2 + r) / e.2.2 = q := fun q r h => by
      rw [Nat.mul_comm, Nat.mul_add_div hpos, Nat.div_eq_of_lt h, Nat.add_zero]
    have hquot := congrArg (· / e.2.2) hplace
    simp only [hdiv _ _ hr, hdiv _ _ hr'] at hquot
    exact hquot
  have heq : e = e' := by
    rw [hturn] at hplace
    exact Prod.ext hc (Prod.ext (by omega) hk)
  have hindex : a / 2048 % t.length = b / 2048 % t.length := by
    subst heq
    exact (List.getElem?_inj (List.getElem?_eq_some_iff.mp hea).1 hnodup).mp (hea.trans heb.symm)
  have hpiece : a / 2048 = b / 2048 := by
    rw [← Nat.div_add_mod (a / 2048) t.length, ← Nat.div_add_mod (b / 2048) t.length, hturn, hindex]
  omega

end Sys2Proof.Laws
end

section
/-! The DRAM's address map (spec/14_dram_controller.md R339). -/

namespace Sys2Proof.Proofs
open Sys2Proof Sys2Proof.Machine Sys2Proof.Laws

/-- Settles O46: the table lists each round of a channel once (`nodup_rounds`), and its length times the share is the whole capacity
(`length_interleave_mul`). -/
theorem dramAddressesMapOneToOne : Obligations.DramAddressesMapOneToOne := by
  intro l hl
  refine ⟨fun a b x ha hb => ?injective, fun a hpos => ?placed, fun a x hlow hx => ?inside, fun a x hx => ?piece⟩
  case injective =>
    have hnodup : (shares l).Nodup := by
      refine List.Nodup.of_map Prod.fst ?_
      rwa [shares, List.map_map]
    refine mapAddr_injective (nodup_rounds _ _ hnodup) (fun e he => (mem_interleave he).1) (fun e he e' he' hc => ?_) ha hb
    obtain ⟨-, y, hy, hyc, hyk⟩ := mem_interleave he
    obtain ⟨-, y', hy', hyc', hyk'⟩ := mem_interleave he'
    obtain rfl : y = y' := List.inj_on_of_nodup_map hl hy hy' (hyc.trans (hc.trans hyc'.symm))
    exact hyk.symm.trans hyk'
  case placed =>
    obtain ⟨e, he, hcap⟩ := hpos
    have hturn := Nat.mod_lt (a / 2048) (length_interleave_pos he hcap)
    exact ⟨_, by rw [mapAddr, List.getElem?_eq_getElem hturn]; rfl⟩
  case inside =>
    obtain ⟨x', -, hmem, rfl⟩ := mapAddr_eq_some hx
    obtain ⟨hround, e, he, hc, hk⟩ := mem_interleave hmem
    refine ⟨e, he, hc, ?_⟩
    rw [← share_mul l he, hk]
    rw [← length_interleave_mul] at hlow
    have hturn : a / 2048 / (interleave l).length < shareGiB l * 2 ^ 19 := by
      rw [Nat.div_div_eq_div_mul]
      refine Nat.div_lt_of_lt_mul ?_
      linarith
    dsimp only
    have hshare : (a / 2048 / (interleave l).length + 1) * x'.2.2 ≤ shareGiB l * 2 ^ 19 * x'.2.2 := Nat.mul_le_mul_right _ hturn
    have hin : a % 2048 < 2048 := Nat.mod_lt _ (by omega)
    nlinarith
  case piece =>
    obtain ⟨e, -, -, rfl⟩ := mapAddr_eq_some hx
    dsimp only
    omega

end Sys2Proof.Proofs
end

section
/-! SUPPORT. The lanes of a quad (spec/12_serial_lanes.md): one rule per operation of the bring-up, and what each leaves alone. -/

namespace Sys2Proof.Laws
open Sys2Proof Sys2Proof.Machine

/-! The four lanes of a quad. -/

@[simp] theorem modLanes_quads (k : Nat) (f : Lane → Lane) (s : State) : (modLanes k f s).lanes.quads = s.lanes.quads :=
  foldl_proj (fun u : State => u.lanes.quads) (fun u j => modLane (4 * k + j) f u) (fun _ _ => rfl) _ s

@[simp] theorem quad_modLanes (k j : Nat) (f : Lane → Lane) (s : State) : quad (modLanes k f s) j = quad s j := by
  simp [quad]

@[simp] theorem lane_modQuad (k j : Nat) (f : Quad → Quad) (s : State) : lane (modQuad k f s) j = lane s j := rfl

@[simp] theorem quad_modLane (l j : Nat) (f : Lane → Lane) (s : State) : quad (modLane l f s) j = quad s j := rfl

@[simp] theorem quad_countN (c : Ctr) (i n j : Nat) (s : State) : quad (countN c i n s) j = quad s j := rfl

@[simp] theorem quad_count (c : Ctr) (i j : Nat) (s : State) : quad (count c i s) j = quad s j := rfl

@[simp] theorem lane_count (c : Ctr) (i j : Nat) (s : State) : lane (count c i s) j = lane s j := rfl

theorem lane_foldl_modLane (k : Nat) (f : Lane → Lane) (l : List Nat) (hl : l.Nodup) (j : Nat) (s : State) :
    lane (l.foldl (fun u i => modLane (4 * k + i) f u) s) (4 * k + j) =
      if j ∈ l then f (lane s (4 * k + j)) else lane s (4 * k + j) := by
  induction l generalizing s with
  | nil => rfl
  | cons i l ih =>
    obtain ⟨hi, hl⟩ := List.nodup_cons.mp hl
    rw [List.foldl_cons, ih hl]
    by_cases h : j = i
    · subst h
      rw [if_neg hi, if_pos List.mem_cons_self, lane_modLane]
    · rw [lane_modLane_ne _ _ f s (by omega)]
      simp [h]

theorem lane_modLanes (k : Nat) {j : Nat} (hj : j < 4) (f : Lane → Lane) (s : State) :
    lane (modLanes k f s) (4 * k + j) = f (lane s (4 * k + j)) :=
  (lane_foldl_modLane k f _ List.nodup_range j s).trans (if_pos (List.mem_range.mpr hj))

/-! Bring-up. -/

theorem quad_abortFrame (k : Nat) (s : State) : quad (abortFrame k s) k =
    if (quad s k).rxFrame.isNone then quad s k else { quad s k with rxFrame := none, frameErr := true } := by
  unfold abortFrame dropFrame
  split <;> simp

theorem quad_abortFrame_ne (k j : Nat) (h : j ≠ k) (s : State) : quad (abortFrame k s) j = quad s j := by
  unfold abortFrame dropFrame
  split
  · rfl
  · rw [quad_count, quad_modQuad_ne _ _ _ _ h, quad_modQuad_ne _ _ _ _ h]

@[simp] theorem lane_abortFrame (k j : Nat) (s : State) : lane (abortFrame k s) j = lane s j := by
  unfold abortFrame dropFrame
  split <;> rfl

theorem quad_unlockLanes_ne (k j : Nat) (h : j ≠ k) (s : State) : quad (unlockLanes k s) j = quad s j := by
  rw [unlockLanes, quad_modLanes, quad_modQuad_ne _ _ _ _ h, quad_abortFrame_ne k j h]

theorem quad_unlockLanes (k : Nat) (s : State) : quad (unlockLanes k s) k = { quad (abortFrame k s) k with rxPos := 0 } := by
  rw [unlockLanes, quad_modLanes, quad_modQuad]

@[simp] theorem fixedTaps_abortFrame (k : Nat) (s : State) :
    (quad (abortFrame k s) k).fixedTaps = (quad s k).fixedTaps := by
  rw [quad_abortFrame]
  split <;> rfl

theorem taps_unlockLanes (k : Nat) {j : Nat} (hj : j < 4) (s : State) :
    (lane (unlockLanes k s) (4 * k + j)).taps = (lane s (4 * k + j)).taps := by
  rw [unlockLanes, lane_modLanes k hj, lane_modQuad, lane_abortFrame]
  rfl

theorem quad_startTrain (k : Nat) (s : State) : (quad (startTrain k s) k).state = .train := by
  rw [startTrain, quad_modLanes, quad_modQuad]

theorem quad_startTrain_ne (k j : Nat) (h : j ≠ k) (s : State) : quad (startTrain k s) j = quad s j := by
  rw [startTrain, quad_modLanes, quad_modQuad_ne _ _ _ _ h, quad_unlockLanes_ne k j h]

theorem taps_startTrain (k : Nat) {j : Nat} (hj : j < 4) (s : State) : (lane (startTrain k s) (4 * k + j)).taps =
    if (quad s k).fixedTaps then (lane s (4 * k + j)).taps else preset 2 := by
  rw [startTrain, lane_modLanes k hj, lane_modQuad, taps_unlockLanes k hj]

theorem hunt_cases (x : Lane) (h : BitVec 2) : (x.blockLock = true → x.hunt h = x) ∧
    (x.blockLock = false → headerValid h = false → x.hunt h = { x with huntRun := 0, candidate := (x.candidate + 1) % 66 }) ∧
    (x.blockLock = false → headerValid h = true → x.huntRun < 127 → x.hunt h = { x with huntRun := x.huntRun + 1 }) ∧
    (x.blockLock = false → headerValid h = true → 127 ≤ x.huntRun →
      x.hunt h = { x with huntRun := 0, blockLock := true, winPos := 0, winBad := 0 }) := by
  refine ⟨fun hb => ?_, fun hb hh => ?_, fun hb hh hr => ?_, fun hb hh hr => ?_⟩
  · simp [Lane.hunt, hb]
  · simp [Lane.hunt, hb, hh]
  · simp [Lane.hunt, hb, hh, hr]
  · simp [Lane.hunt, hb, hh, Nat.not_lt.mpr hr]

theorem agreedFec_cases (q : Quad) (c : CapSet) (hq : q.fec ≤ 2) (hc : c.fec ≤ 2) :
    ((q.fec = 2 ∧ c.fec = 0) ∨ (q.fec = 0 ∧ c.fec = 2) → agreedFec q c = none) ∧
    ((q.fec = 2 ∧ c.fec ≠ 0) ∨ (q.fec ≠ 0 ∧ c.fec = 2) → agreedFec q c = some true) ∧
    (q.fec = 1 → c.fec = 1 → agreedFec q c = some (decide (q.rate = 1))) ∧
    ((q.fec = 0 ∧ c.fec ≠ 2) ∨ (q.fec ≠ 2 ∧ c.fec = 0) → agreedFec q c = some false) := by
  have hqs : q.fec = 0 ∨ q.fec = 1 ∨ q.fec = 2 := by omega
  have hcs : c.fec = 0 ∨ c.fec = 1 ∨ c.fec = 2 := by omega
  rcases hqs with h | h | h <;> rcases hcs with h' | h' | h' <;> simp [agreedFec, h, h']

/-- The first of a falling list of widths that passes is the greatest that does. -/
theorem find_width (p : Nat → Bool) (w : Nat) : [4, 2, 1].find? p = some w ↔
    w ∈ [4, 2, 1] ∧ p w = true ∧ ∀ v ∈ [4, 2, 1], w < v → p v = false := by
  cases h4 : p 4 <;> cases h2 : p 2 <;> cases h1 : p 1 <;> simp only [List.find?, h4, h2, h1, List.mem_cons] <;> grind

theorem agreedWidth_some (q : Quad) (c : CapSet) (w : Nat) (h : agreedWidth q c = some w) :
    w ∈ [4, 2, 1] ∧ offers q w = true ∧ testBit c.widths.toNat (Nat.log2 w) = true ∧
      (∀ v ∈ [4, 2, 1], w < v → offers q v = true → testBit c.widths.toNat (Nat.log2 v) = false) := by
  obtain ⟨hw, hp, hmax⟩ := (find_width _ w).mp h
  rw [Bool.and_eq_true] at hp
  exact ⟨hw, hp.1, hp.2, fun v hv hlt ho => by simpa [ho] using hmax v hv hlt⟩

end Sys2Proof.Laws
end

section
/-! The bring-up of a GUL quad (O41). -/

namespace Sys2Proof.Proofs
open Sys2Proof Sys2Proof.Machine Sys2Proof.Laws

theorem exec_receiverDetect_cases (s : State) (hOn : s.dev.state ≠ .off) (k : BitVec 5) (pr : BitVec 4) :
    let q := quad s k.toNat
    let u := modQuad k.toNat (fun q => { q with detected := pr }) s
    ((q.state ≠ .detect ∨ q.mode ≠ .gul) → exec (.receiverDetect k pr) s = .next s) ∧
    (q.state = .detect → q.mode = .gul → (∀ j, j < q.width → testBit pr.toNat j = true) →
      exec (.receiverDetect k pr) s = .next (startTrain k.toNat u)) ∧
    (q.state = .detect → q.mode = .gul → (∃ j, j < q.width ∧ testBit pr.toNat j = false) →
      exec (.receiverDetect k pr) s = .next u) := by
  intro q u
  change (_ → execReceiverDetect k pr s = _) ∧ (_ → _ → _ → execReceiverDetect k pr s = _) ∧
    (_ → _ → _ → execReceiverDetect k pr s = _)
  rw [execReceiverDetect, whenOn_of_on _ s hOn]
  refine ⟨fun h => ?_, fun hst hm hall => ?_, fun hst hm hex => ?_⟩
  · simp [show (quad s k.toNat).state ≠ .detect ∨ (quad s k.toNat).mode ≠ .gul from h]
  · have hlist : (List.range (quad s k.toNat).width).all (fun j => testBit pr.toNat j) = true := by simpa using hall
    simp [show (quad s k.toNat).state = .detect from hst, show (quad s k.toNat).mode = .gul from hm, hlist, u]
  · have hlist : (List.range (quad s k.toNat).width).all (fun j => testBit pr.toNat j) = false := by simpa using hex
    simp [show (quad s k.toNat).state = .detect from hst, show (quad s k.toNat).mode = .gul from hm, hlist, u]

theorem exec_trainBlock_other (s : State) (l : BitVec 7) (b : GulBlock) (h : ∀ r f, controlIn b ≠ some (.train r f)) :
    exec (.trainBlockReceive l b) s = .next s := by
  change execTrainBlockReceive l b s = _
  unfold execTrainBlockReceive whenOn
  split
  · rfl
  · split
    · next r f hb => exact absurd hb (h r f)
    · rfl

theorem exec_trainBlock (s : State) (hOn : s.dev.state ≠ .off) (l : BitVec 7) (b : GulBlock) (r f : Byte)
    (hb : controlIn b = some (.train r f)) : exec (.trainBlockReceive l b) s = .next (trainReceived l.toNat r f s) := by
  change execTrainBlockReceive l b s = _
  rw [execTrainBlockReceive, whenOn_of_on _ s hOn, hb]

theorem trainReceived_cases (l : Nat) (r f : Byte) (s : State) : let k := quadOf l
    let q := quad s k
    let result := trainReceived l r f s
    let up := q.state = .active ∨ q.state = .idle
    let u := trainLane l r.toNat f.toNat s
    let since := (quad u k).readySince.getD s.time.tb2
    let trains := q.mode = .gul ∧ q.state = .train ∧ laneIn l < q.width
    (q.mode = .gul → up → laneIn l < q.inUse → q.napRx = false → result = retrain k s) ∧
    (q.mode = .gul → up → laneIn l < q.inUse → q.napRx = true →
      result = modQuad k (fun q => { q with exitFrom := some (q.exitFrom.getD s.time.tb2) }) s) ∧
    ((q.mode ≠ .gul ∨ up ∧ q.inUse ≤ laneIn l ∨ ¬up ∧ ¬trains) → result = s) ∧
    (trains → allReady u k = false → result = modQuad k (fun q => { q with readySince := none }) u) ∧
    (trains → allReady u k = true → s.time.tb2 < since + 1000000 →
      result = modQuad k (fun q => { q with readySince := some since }) u) ∧
    (trains → allReady u k = true → since + 1000000 ≤ s.time.tb2 → result =
      startStream k (unlockLanes k (modQuad k (fun q =>
        { q with state := .lock, since := s.time.tb2, readySince := none }) u))) := by
  intro k q result up u since trains
  have htb : u.time.tb2 = s.time.tb2 := rfl
  have htrain : trains → result = if !allReady u k then modQuad k (fun q => { q with readySince := none }) u
      else if since + 1000000 ≤ s.time.tb2 then startStream k (unlockLanes k (modQuad k (fun q => { q with
        state := .lock, since := s.time.tb2, readySince := none }) u))
      else modQuad k (fun q => { q with readySince := some since }) u := by
    rintro ⟨hm, hst, hw⟩
    simp only [result, trainReceived]
    rw [if_neg (by simpa using hm), if_neg (by simp [show (quad s (quadOf l)).state = .train from hst]),
      if_neg (by simpa [show (quad s (quadOf l)).state = .train from hst] using hw)]
    rfl
  refine ⟨fun hm hup hl hn => ?_, fun hm hup hl hn => ?_, fun h => ?_, fun ht ha => ?_, fun ht ha hlt => ?_,
    fun ht ha hle => ?_⟩
  · simp only [result, trainReceived]
    rw [if_neg (by simpa using hm), if_pos (by simpa using hup), if_neg (Nat.not_le.mpr hl), if_neg (by simpa using hn)]
  · simp only [result, trainReceived]
    rw [if_neg (by simpa using hm), if_pos (by simpa using hup), if_neg (Nat.not_le.mpr hl), if_pos hn]
  · simp only [result, trainReceived]
    rcases h with hm | ⟨hup, hl⟩ | ⟨hup, ht⟩
    · rw [if_pos hm]
    · by_cases hm : (quad s (quadOf l)).mode ≠ .gul
      · rw [if_pos hm]
      · rw [if_neg hm, if_pos (by simpa using hup), if_pos hl]
    · by_cases hm : (quad s (quadOf l)).mode ≠ .gul
      · rw [if_pos hm]
      · rw [if_neg hm, if_neg (by simpa [up, q, k] using hup), if_pos]
        by_contra hc
        exact ht ⟨by simpa using hm, by simp at hc; exact hc.1, by simp at hc; exact hc.2⟩
  · rw [htrain ht, if_pos (by simpa using ha)]
  · rw [htrain ht, if_neg (by simp [ha]), if_neg (Nat.not_le.mpr hlt)]
  · rw [htrain ht, if_neg (by simp [ha]), if_pos hle]

theorem exec_trainTimeout_cases (s : State) (hOn : s.dev.state ≠ .off) (k : BitVec 5) :
    let right := (quad s k.toNat).state = .train ∧ (quad s k.toNat).mode = .gul
    (right → exec (.trainTimeout k) s = .next (count .trainTimeout k.toNat (goTo .detect k.toNat
      (stateEnds k.toNat 500000000 s)))) ∧
    (¬right → exec (.trainTimeout k) s = .next s) := by
  intro right
  change (_ → execTrainTimeout k s = _) ∧ (_ → execTrainTimeout k s = _)
  rw [execTrainTimeout, whenOn_of_on _ s hOn]
  exact ⟨fun h => congrArg _ (if_pos (by simpa using h)), fun h => congrArg _ (if_neg (by simpa [right] using h))⟩

theorem exec_blockLockAcquired_cases (s : State) (hOn : s.dev.state ≠ .off) (l : BitVec 7) (hs : List (BitVec 2)) :
    let k := quadOf l.toNat
    (receiving (quad s k) = true → exec (.blockLockAcquired l hs) s =
      .next (lockDone k (modLane l.toNat (fun x => hs.foldl Lane.hunt x) s))) ∧
    (receiving (quad s k) = false → exec (.blockLockAcquired l hs) s = .next s) ∧
    exec (.blockLockLost l hs) s = .next (hs.foldl (fun s h => headerSeen l.toNat h s) s) := by
  intro k
  change (_ → execBlockLockAcquired l hs s = _) ∧ (_ → execBlockLockAcquired l hs s = _) ∧ execBlockLockLost l hs s = _
  rw [execBlockLockAcquired, whenOn_of_on _ s hOn, execBlockLockLost, whenOn_of_on _ s hOn]
  exact ⟨fun h => congrArg _ (if_pos h), fun h => congrArg _ (if_neg (by simpa using h)), rfl⟩

theorem headerSeen_cases (s : State) (l : Nat) (h : BitVec 2) : let x := lane s l
    let live := receiving (quad s (quadOf l)) = true ∧ x.blockLock = true
    let bad := x.winBad + bit (!headerValid h)
    let u := if headerValid h then s else count .invalidHeaders l s
    (¬live → headerSeen l h s = s) ∧
    (live → 24 ≤ bad → headerSeen l h s = laneFailed l (modLane l Lane.unlocked (count .lockLoss l u))) ∧
    (live → bad < 24 → headerSeen l h s = modLane l (fun x =>
      { x with winPos := (x.winPos + 1) % 256, winBad := if x.winPos = 255 then 0 else bad }) u) := by
  intro x live bad u
  unfold headerSeen
  refine ⟨fun hl => if_pos ?_, fun hl hb => ?_, fun hl hb => ?_⟩
  · simpa [live, x, imp_iff_not_or] using hl
  · exact (if_neg (by simpa using hl)).trans (if_pos hb)
  · exact (if_neg (by simpa using hl)).trans (if_neg (Nat.not_le.mpr hb))

theorem laneFailed_cases (s : State) (l : Nat) : let q := quad s (quadOf l)
    (q.state = .active → laneIn l < q.inUse → laneFailed l s = retrain (quadOf l) s) ∧
    ((q.state ≠ .active ∨ q.inUse ≤ laneIn l) → laneFailed l s = s) := by
  intro q
  unfold laneFailed
  refine ⟨fun hst hl => if_pos (by simpa using ⟨hst, hl⟩), fun h => if_neg ?_⟩
  simpa [imp_iff_not_or] using h

theorem exec_alignBlock_other (s : State) (l : BitVec 7) (b : GulBlock) (skew : Nat)
    (h : ∀ g w c, controlIn b ≠ some (.align g w c)) : exec (.alignBlockReceive l b skew) s = .next s := by
  change execAlignBlockReceive l b skew s = _
  unfold execAlignBlockReceive whenOn
  split
  · rfl
  · split
    · next g w c hb => exact absurd hb (h g w c)
    · rfl

theorem exec_alignBlock (s : State) (hOn : s.dev.state ≠ .off) (l : BitVec 7) (b : GulBlock) (skew : Nat) (g w : Byte) (c : Nat)
    (hb : controlIn b = some (.align g w c)) :
    exec (.alignBlockReceive l b skew) s = .next (alignReceived l.toNat g w c skew s) := by
  change execAlignBlockReceive l b skew s = _
  rw [execAlignBlockReceive, whenOn_of_on _ s hOn, hb]

theorem alignReceived_cases (s : State) (l : Nat) (g w : Byte) (c skew : Nat) : let k := quadOf l
    let x := lane s l
    let live := receiving (quad s k) = true ∧ x.blockLock = true
    let good := (∀ p, x.alignCount = some p → (p + 1) % 65536 = c) ∧ g.toNat = laneIn l ∧
      laneIn l < w.toNat ∧ skew ≤ 256 ∧ alignAgrees s l c = true
    (¬live → alignReceived l g w c skew s = s) ∧
    (live → good → alignReceived l g w c skew s = lockDone k (modLane l (fun x => { x with
      alignCount := some c, alignMissed := 0, lastSkew := skew, codewordLock := true
      deskewed := x.alignCount.isSome }) s)) ∧
    (live → ¬good → alignReceived l g w c skew s = laneFailed l (modLane l
      (fun x => { x with alignCount := none, alignMissed := 0, deskewed := false }) s)) := by
  intro k x live good
  have hfollows : ((match x.alignCount with
      | some p => decide ((p + 1) % 65536 = c)
      | none => true) = true) ↔ ∀ p, x.alignCount = some p → (p + 1) % 65536 = c := by
    cases x.alignCount <;> simp
  unfold alignReceived
  refine ⟨fun hl => if_pos ?_, fun hl hg => ?_, fun hl hg => ?_⟩
  · simpa [live, x, k, imp_iff_not_or] using hl
  · refine (if_neg (by simpa using hl)).trans (if_pos ?_)
    obtain ⟨hf, hrest⟩ := hg
    simpa only [Bool.and_eq_true, decide_eq_true_eq, and_assoc] using ⟨hfollows.mpr hf, hrest⟩
  · refine (if_neg (by simpa using hl)).trans (if_neg fun hc => hg ?_)
    simp only [Bool.and_eq_true, decide_eq_true_eq, and_assoc] at hc
    exact ⟨hfollows.mp hc.1, hc.2⟩

theorem exec_alignMissing_cases (s : State) (hOn : s.dev.state ≠ .off) (l : BitVec 7) : let x := lane s l.toNat
    let live := receiving (quad s (quadOf l.toNat)) = true ∧ x.alignCount ≠ none
    let u := count .alignMissing l.toNat s
    (¬live → exec (.alignMissing l) s = .next s) ∧
    (live → x.alignMissed = 0 → exec (.alignMissing l) s = .next (modLane l.toNat (fun x =>
      { x with alignMissed := 1, alignCount := x.alignCount.map (fun c => (c + 1) % 65536) }) u)) ∧
    (live → x.alignMissed ≠ 0 → exec (.alignMissing l) s = .next (laneFailed l.toNat (modLane l.toNat
      (fun x => { x with alignCount := none, alignMissed := 0, deskewed := false }) u))) := by
  intro x live u
  change (_ → execAlignMissing l s = _) ∧ (_ → _ → execAlignMissing l s = _) ∧ (_ → _ → execAlignMissing l s = _)
  rw [execAlignMissing, whenOn_of_on _ s hOn]
  have hcond : (!receiving (quad s (quadOf l.toNat)) || (lane s l.toNat).alignCount.isNone) = true ↔ ¬live := by
    simp [live, x, imp_iff_not_or]
  refine ⟨fun h => congrArg _ (if_pos (hcond.mpr h)), fun h h0 => congrArg _ ?_, fun h h0 => congrArg _ ?_⟩
  · exact (if_neg (fun hc => hcond.mp hc h)).trans (if_pos h0)
  · exact (if_neg (fun hc => hcond.mp hc h)).trans (if_neg h0)

theorem lockDone_cases (s : State) (k : Nat) : let q := quad s k
    let ready := q.state = .lock ∧ (∀ j, j < q.width → (lane s (4 * k + j)).blockLock = true ∧
      (lane s (4 * k + j)).deskewed = true ∧ ((lane s (4 * k + j)).codewordLock = true ∨ fecWanted q = false))
    (ready → lockDone k s = sendCaps k (modQuad k (fun q => { q with
      state := .exchange, since := s.time.tb2, offerWidth := q.width, capSeen := 0, capLast := none, ackSent := false }) s)) ∧
    (¬ready → lockDone k s = s) := by
  intro q ready
  have hcond : ((q.state = .lock) && (List.range q.width).all (fun j =>
      let x := lane s (4 * k + j)
      x.blockLock && x.deskewed && (x.codewordLock || !fecWanted q))) = true ↔ ready := by
    simp [ready, and_assoc]
  exact ⟨fun h => if_pos (hcond.mpr h), fun h => if_neg (fun hc => h (hcond.mp hc))⟩

theorem exec_exchangeTimeout_cases (s : State) (hOn : s.dev.state ≠ .off) (k : BitVec 5) :
    let right := (quad s k.toNat).state = .exchange ∧ (quad s k.toNat).mode = .gul
    (right → exec (.exchangeTimeout k) s = .next (startTrain k.toNat (modQuad k.toNat endLink
      (stateEnds k.toNat 1000000 s)))) ∧
    (¬right → exec (.exchangeTimeout k) s = .next s) := by
  intro right
  change (_ → execExchangeTimeout k s = _) ∧ (_ → execExchangeTimeout k s = _)
  rw [execExchangeTimeout, whenOn_of_on _ s hOn]
  exact ⟨fun h => congrArg _ (if_pos (by simpa using h)), fun h => congrArg _ (if_neg (by simpa [right] using h))⟩

/-- A width that LOCK_TIMEOUT may offer on a quad with the settings of `q` (R281). -/
def widthHolds (q : Quad) (k : Nat) (s : State) (w : Nat) : Bool :=
  decide (q.minWidth ≤ w) && decide (w ≤ q.width) &&
    (List.range w).all (fun j => (lane s (4 * k + j)).blockLock && (lane s (4 * k + j)).deskewed)

theorem widthHolds_stateEnds (q : Quad) (k n : Nat) (s : State) : widthHolds q k (stateEnds k n s) = widthHolds q k s := rfl

theorem widthHolds_iff (q : Quad) (k : Nat) (s : State) (w : Nat) : widthHolds q k s w = true ↔
    q.minWidth ≤ w ∧ w ≤ q.width ∧
      (∀ j, j < w → (lane s (4 * k + j)).blockLock = true ∧ (lane s (4 * k + j)).deskewed = true) := by
  simp [widthHolds, and_assoc]

/-- The quad offers a width, with the other lanes idle (R281). -/
def offerReduced (k w : Nat) (e : State) : State :=
  sendCaps k (idleLanes k w (modQuad k (fun q => { q with
    state := .exchange, since := e.time.tb2, offerWidth := w, capSeen := 0, capLast := none, ackSent := false }) e))

/-- LOCK_TIMEOUT with its search for a width as a case. -/
theorem exec_lockTimeout_right (s : State) (hOn : s.dev.state ≠ .off) (k : BitVec 5)
    (hst : (quad s k.toNat).state = .lock) (hm : (quad s k.toNat).mode = .gul) (o : Option Nat)
    (ho : [4, 2, 1].find? (widthHolds (quad s k.toNat) k.toNat s) = o) :
    exec (.lockTimeout k) s = .next (o.elim (startTrain k.toNat (count .lockTimeout k.toNat (stateEnds k.toNat 1000000 s)))
      (fun w => if w < (quad s k.toNat).width then raise 0x0302 (76 + k.toNat) w [] (count .widthReduced k.toNat
        (offerReduced k.toNat w (stateEnds k.toNat 1000000 s))) else offerReduced k.toNat w (stateEnds k.toNat 1000000 s))) := by
  change execLockTimeout k s = _
  rw [execLockTimeout, whenOn_of_on _ s hOn]
  refine congrArg _ ((if_neg (by simp [hst, hm])).trans ?_)
  rw [← widthHolds_stateEnds _ k.toNat 1000000] at ho
  generalize stateEnds k.toNat 1000000 s = e at ho ⊢
  generalize quad s k.toNat = q at ho ⊢
  subst ho
  dsimp only
  split
  · next h =>
    have hnone : [4, 2, 1].find? (widthHolds q k.toNat e) = none := h
    rw [hnone, Option.elim_none]
  · next w h =>
    have hsome : [4, 2, 1].find? (widthHolds q k.toNat e) = some w := h
    rw [hsome, Option.elim_some]
    rfl

theorem exec_capBlock_other (s : State) (k : BitVec 5) (b : GulBlock)
    (h : ∀ i d, controlIn b ≠ some (.cap i d)) : exec (.capBlockReceive k b) s = .next s := by
  change execCapBlockReceive k b s = _
  unfold execCapBlockReceive whenOn
  split
  · rfl
  · split
    · next i d hb => exact absurd hb (h i d)
    · rfl

theorem exec_capBlock (s : State) (hOn : s.dev.state ≠ .off) (k : BitVec 5) (b : GulBlock) (i : Byte) (d : List Byte)
    (hb : controlIn b = some (.cap i d)) : exec (.capBlockReceive k b) s = .next (capReceived k.toNat i d s) := by
  change execCapBlockReceive k b s = _
  rw [execCapBlockReceive, whenOn_of_on _ s hOn, hb]

theorem capReceived_cases (s : State) (k : Nat) (i : Byte) (d : List Byte) : let q := quad s k
    let right := q.state = .exchange ∧ q.mode = .gul ∧ i.toNat ≤ 2
    let c := capTake i.toNat d q.capNow
    let seen := q.capSeen ||| BitVec.ofNat 3 (2 ^ i.toNat)
    let u := modQuad k (fun q => { q with capNow := c, capSeen := 0, capLast := some c }) s
    let twice := ∃ p, q.capLast = some p ∧ { p with ack := c.ack } = c
    (¬right → capReceived k i d s = s) ∧
    (right → seen ≠ 7 → capReceived k i d s = modQuad k (fun q => { q with capNow := c, capSeen := seen }) s) ∧
    (right → seen = 7 → ¬twice → capReceived k i d s = sendCaps k u) ∧
    (right → seen = 7 → twice → capReceived k i d s = judgeCap k c u) := by
  intro q right c seen u twice
  have hcond : (q.state ≠ .exchange || q.mode ≠ .gul || decide (2 < i.toNat)) = true ↔ ¬right := by
    simp [right, imp_iff_not_or, or_assoc]
  have htwice : ((match q.capLast with
      | some p => decide ({ p with ack := c.ack } = c)
      | none => false) = true) ↔ twice := by
    cases h : q.capLast <;> simp [twice, h]
  refine ⟨fun h => if_pos (hcond.mpr h), fun h hs => ?_, fun h hs ht => ?_, fun h hs ht => ?_⟩
  · exact (if_neg (fun hc => hcond.mp hc h)).trans (if_pos hs)
  · exact (if_neg (fun hc => hcond.mp hc h)).trans ((if_neg (not_not.mpr hs)).trans (if_neg (fun hc => ht (htwice.mp hc))))
  · exact (if_neg (fun hc => hcond.mp hc h)).trans ((if_neg (not_not.mpr hs)).trans (if_pos (htwice.mpr ht)))

theorem capExpected_false (s : State) (k : Nat) (c : CapSet) :
    capExpected s k c = false ↔ s.twin.quad = some k ∧ s.twin.expect ≠ 0 ∧ c.identity ≠ s.twin.expect := by
  simp [capExpected, and_assoc]

theorem judgeCap_agreed (s : State) (k : Nat) (c : CapSet) (w : Nat) (f : Bool) (hr : c.rate = (quad s k).rate)
    (he : capExpected s k c = true) (hw : agreedWidth (quad s k) c = some w) (hf : agreedFec (quad s k) c = some f) :
    judgeCap k c s = (let u := sendCaps k (modQuad k (fun q => { q with ackSent := true }) s)
      if c.ack then flushFrames k (idleLanes k w (modQuad k (fun q => { q with
        state := .active, since := u.time.tb2, inUse := w, fecOn := f
        napAgreed := q.nap && testBit c.features.toNat 0
        idleAgreed := q.idleOn && testBit c.features.toNat 1 }) u)) else u) := by
  unfold judgeCap
  dsimp only
  rw [show (decide (c.rate = (quad s k).rate) && capExpected s k c) = true by simp [hr, he], hw, hf]

theorem judgeCap_refused (s : State) (k : Nat) (c : CapSet) (h : c.rate ≠ (quad s k).rate ∨ capExpected s k c = false ∨
    agreedWidth (quad s k) c = none ∨ agreedFec (quad s k) c = none) : judgeCap k c s =
    raise 0x0301 (76 + k) c.rate (capCells c) (count .incompatible k (unlockLanes k (modQuad k (fun q =>
      { endLink q with state := .fault, since := s.time.tb2, capLast := some c }) s))) := by
  unfold judgeCap
  dsimp only
  split
  · next hc hw hf =>
    rw [Bool.and_eq_true, decide_eq_true_eq] at hc
    rcases h with h | h | h | h
    · exact absurd hc.1 h
    · rw [h] at hc
      exact absurd hc.2 (by decide)
    · rw [h] at hw
      exact absurd hw (by simp)
    · rw [h] at hf
      exact absurd hf (by simp)
  · rfl

theorem exec_lockTimeout_cases (s : State) (hOn : s.dev.state ≠ .off) (k : BitVec 5) : let q := quad s k.toNat
    let right := q.state = .lock ∧ q.mode = .gul
    let fits := fun (w : Nat) => q.minWidth ≤ w ∧ w ≤ q.width ∧
      (∀ j, j < w → (lane s (4 * k.toNat + j)).blockLock = true ∧ (lane s (4 * k.toNat + j)).deskewed = true)
    let e := stateEnds k.toNat 1000000 s
    (¬right → exec (.lockTimeout k) s = .next s) ∧
    (right → (∀ w ∈ [4, 2, 1], ¬fits w) →
      exec (.lockTimeout k) s = .next (startTrain k.toNat (count .lockTimeout k.toNat e))) ∧
    (∀ w ∈ [4, 2, 1], right → fits w → (∀ v ∈ [4, 2, 1], w < v → ¬fits v) →
      (w = q.width → exec (.lockTimeout k) s = .next (offerReduced k.toNat w e)) ∧
      (w < q.width → exec (.lockTimeout k) s =
        .next (raise 0x0302 (76 + k.toNat) w [] (count .widthReduced k.toNat (offerReduced k.toNat w e))))) := by
  intro q right fits e
  have hfits : ∀ w, widthHolds q k.toNat s w = true ↔ fits w := widthHolds_iff q k.toNat s
  refine ⟨fun h => ?_, fun ⟨hst, hm⟩ hno => ?_, fun w hw ⟨hst, hm⟩ hfit hmax => ?_⟩
  · change execLockTimeout k s = _
    rw [execLockTimeout, whenOn_of_on _ s hOn]
    dsimp only
    rw [if_pos (by simpa [right, q, imp_iff_not_or] using h)]
  · have hdo := exec_lockTimeout_right s hOn k hst hm none
      (List.find?_eq_none.mpr (fun w hw hc => hno w hw ((hfits w).mp hc)))
    rwa [Option.elim_none] at hdo
  · have hdo := exec_lockTimeout_right s hOn k hst hm (some w) ((find_width _ w).mpr
      ⟨hw, (hfits w).mpr hfit, fun v hv hlt => Bool.eq_false_iff.mpr (fun hc => hmax v hv hlt ((hfits v).mp hc))⟩)
    rw [Option.elim_some] at hdo
    exact ⟨fun h => hdo.trans (congrArg _ (if_neg (not_lt.mpr h.ge))), fun h => hdo.trans (congrArg _ (if_pos h))⟩

/-- Settles O41: the link rules, one lemma for each command and for each operation that several of them share. -/
theorem gulLinksComeUpInOrder : Obligations.GulLinksComeUpInOrder := by
  unfold Obligations.GulLinksComeUpInOrder
  refine ⟨fun s hOn => ⟨exec_receiverDetect_cases s hOn, fun k => ⟨quad_startTrain k s, fun j hj => quad_startTrain_ne k j hj s,
      fun j hj => taps_startTrain k hj s⟩, exec_trainBlock_other s, fun l b r f hb => ?_, exec_trainTimeout_cases s hOn,
    exec_blockLockAcquired_cases s hOn, headerSeen_cases s, laneFailed_cases s, exec_alignBlock_other s,
    fun l b skew g w c hb => ?_, exec_alignMissing_cases s hOn, lockDone_cases s, exec_lockTimeout_cases s hOn,
    exec_capBlock_other s, fun k b i d hb => ?_, fun k c => ⟨fun w f hr he hw hf => ?_, capExpected_false s k c,
      judgeCap_refused s k c⟩, exec_exchangeTimeout_cases s hOn⟩, hunt_cases,
    fun q c hq hc => ?_⟩
  · rw [exec_trainBlock s hOn l b r f hb]
    simpa only [Host.Outcome.next.injEq] using trainReceived_cases l.toNat r f s
  · rw [exec_alignBlock s hOn l b skew g w c hb]
    simpa only [Host.Outcome.next.injEq] using alignReceived_cases s l.toNat g w c skew
  · rw [exec_capBlock s hOn k b i d hb]
    simpa only [Host.Outcome.next.injEq] using capReceived_cases s k.toNat i d
  · rw [judgeCap_agreed s k c w f hr he hw hf]
    exact ⟨fun h => if_neg (by simp [h]), fun h => if_pos h⟩
  · obtain ⟨hnone, hreq, hopt, hoff⟩ := agreedFec_cases q c hq hc
    exact ⟨hnone, hreq, hopt, hoff, agreedWidth_some q c⟩

end Sys2Proof.Proofs
end

section
/-! Sleep, codewords, lost quads, Ethernet links, modules and patterns of the lanes (O42): one lemma for each command, with a case for
each of its branches. -/

namespace Sys2Proof.Proofs
open Sys2Proof Sys2Proof.Machine Sys2Proof.Laws

theorem quad_maybeIdle (k : Nat) (s : State) : quad (maybeIdle k s) k = (let q := quad s k
    { q with state := if q.napTx && q.napRx && q.idleAgreed && q.state = .active then .idle else q.state }) := by
  rw [maybeIdle, quad_modQuad]

theorem exec_napIdleTimer_cases (s : State) (hOn : s.dev.state ≠ .off) (k : BitVec 5) : let q := quad s k.toNat
    let asks := napOn q = true ∧ q.nap = true ∧ 0 < q.idleNs ∧ q.napTx = false ∧ q.napAsked = false
    (asks → exec (.napIdleTimer k) s = .next (sendControl k.toNat (.nap 1) (modQuad k.toNat (fun q =>
      { q with napAsked := true }) (elapse (max (q.lastFrame + q.idleNs) q.wakingUntil - s.time.tb2) s)))) ∧
    (¬asks → exec (.napIdleTimer k) s = .next s) := by
  intro q asks
  have hcond : (napOn q && q.nap && decide (0 < q.idleNs) && !q.napTx && !q.napAsked) = true ↔ asks := by
    simp [asks, and_assoc]
  change (_ → execNapIdleTimer k s = _) ∧ (_ → execNapIdleTimer k s = _)
  rw [execNapIdleTimer, whenOn_of_on _ s hOn]
  exact ⟨fun h => congrArg _ (if_pos (hcond.mpr h)), fun h => congrArg _ (if_neg (fun hc => h (hcond.mp hc)))⟩

theorem exec_napReq_cases (s : State) (hOn : s.dev.state ≠ .off) (k : BitVec 5) : let q := quad s k.toNat
    (napOn q = false → exec (.napReq k) s = .next s) ∧
    (napOn q = true → s.time.tb2 < q.wakingUntil → exec (.napReq k) s = .next (sendControl k.toNat (.nap 3) s)) ∧
    (napOn q = true → q.wakingUntil ≤ s.time.tb2 → exec (.napReq k) s = .next (maybeIdle k.toNat
      (modQuad k.toNat (fun q => { q with napRx := true }) (sendControl k.toNat (.nap 2) s)))) := by
  intro q
  change (_ → execNapReq k s = _) ∧ (_ → _ → execNapReq k s = _) ∧ (_ → _ → execNapReq k s = _)
  rw [execNapReq, whenOn_of_on _ s hOn]
  refine ⟨fun h => congrArg _ (if_pos (by simpa using h)), fun h hw => congrArg _ ?_, fun h hw => congrArg _ ?_⟩
  · exact (if_neg (by simpa using h)).trans (if_pos hw)
  · exact (if_neg (by simpa using h)).trans (if_neg (Nat.not_lt.mpr hw))

theorem exec_napAck_cases (s : State) (hOn : s.dev.state ≠ .off) (k : BitVec 5) : let q := quad s k.toNat
    (napOn q = true → q.napAsked = true → exec (.napAck k) s = .next (maybeIdle k.toNat (count .napEntries k.toNat
      (modQuad k.toNat (fun q => { q with napTx := true, napAsked := false }) (catchUp k.toNat s))))) ∧
    ((napOn q = false ∨ q.napAsked = false) → exec (.napAck k) s = .next s) ∧
    exec (.napNak k) s = .next (modQuad k.toNat (fun q => { q with napAsked := false }) s) := by
  intro q
  change (_ → _ → execNapAck k s = _) ∧ (_ → execNapAck k s = _) ∧ execNapNak k s = _
  rw [execNapAck, whenOn_of_on _ s hOn, execNapNak, whenOn_of_on _ s hOn]
  refine ⟨fun h ha => congrArg _ (if_pos (by simpa using ⟨h, ha⟩)), fun h => congrArg _ (if_neg ?_), rfl⟩
  simpa [imp_iff_not_or] using h

theorem exec_fastExit_cases (s : State) (hOn : s.dev.state ≠ .off) (k : BitVec 5) (l : List ExitLane) : let q := quad s k.toNat
    (∀ o, napOn q = false → exec (.fastExit k o l) s = .next s) ∧
    (napOn q = true → q.napTx = true → exec (.fastExit k true l) s = .next (flushFrames k.toNat (sendWake k.toNat
      (modQuad k.toNat (fun q => { q with
        napTx := false, wakingUntil := s.time.tb2 + blocksNs q.rate 33, state := .active }) s)))) ∧
    (napOn q = true → q.napTx = false →
      exec (.fastExit k true l) s = .next (modQuad k.toNat (fun q => { q with napAsked := false }) s)) ∧
    (napOn q = true → q.napRx = true → exitHolds s k.toNat l = false → exec (.fastExit k false l) s =
      .next (modQuad k.toNat (fun q => { q with exitFrom := some (q.exitFrom.getD s.time.tb2) }) s)) ∧
    (napOn q = true → q.napRx = true → exitHolds s k.toNat l = true → exec (.fastExit k false l) s =
      .next (modLanes k.toNat (fun l => { l with
          alignCount := l.alignCount.map (fun c => (c + 1) % 65536), alignMissed := 0, codewords := 0, badCodewords := [] })
        (modQuad k.toNat (fun q => { q with napRx := false, exitFrom := none, rxPos := 0, state := .active }) s))) ∧
    (napOn q = true → q.napRx = false → exec (.fastExit k false l) s = .next s) := by
  intro q
  have hdo : ∀ o, exec (.fastExit k o l) s = execFastExit k o l s := fun _ => rfl
  simp only [hdo, execFastExit, whenOn_of_on _ s hOn]
  refine ⟨fun o h => congrArg _ (if_pos (by simpa using h)), fun h ht => congrArg _ ?_, fun h ht => congrArg _ ?_,
    fun h hr he => congrArg _ ?_, fun h hr he => congrArg _ ?_, fun h hr => congrArg _ ?_⟩
  · exact (if_neg (by simpa using h)).trans ((if_pos trivial).trans (if_pos ht))
  · exact (if_neg (by simpa using h)).trans ((if_pos trivial).trans (if_neg (by simpa using ht)))
  · exact (if_neg (by simpa using h)).trans ((if_neg Bool.false_ne_true).trans
      ((if_neg (by simpa using hr)).trans (if_neg (by simpa using he))))
  · exact (if_neg (by simpa using h)).trans ((if_neg Bool.false_ne_true).trans
      ((if_neg (by simpa using hr)).trans (if_pos he)))
  · exact (if_neg (by simpa using h)).trans ((if_neg Bool.false_ne_true).trans (if_pos (by simpa using hr)))

theorem exec_fastExitTimeout_cases (s : State) (hOn : s.dev.state ≠ .off) (k : BitVec 5) : let q := quad s k.toNat
    (∀ t, napOn q = true → q.napRx = true → q.exitFrom = some t → let e := elapse (t + 2000 - s.time.tb2) s
      let w := if q.napTx then sendWake k.toNat (modQuad k.toNat (fun q => { q with napTx := false, state := .active }) e) else e
      exec (.fastExitTimeout k) s = .next (retrain k.toNat (count .fastExitFail k.toNat
        (modQuad k.toNat (fun q => { q with fastExitFailed := true }) w)))) ∧
    ((napOn q = false ∨ q.napRx = false ∨ q.exitFrom = none) → exec (.fastExitTimeout k) s = .next s) := by
  intro q
  have hdo : exec (.fastExitTimeout k) s = execFastExitTimeout k s := rfl
  rw [hdo, execFastExitTimeout, whenOn_of_on _ s hOn]
  refine ⟨fun t h hr hx => congrArg _ ?_, fun h => congrArg _ ?_⟩
  · dsimp only
    rw [show (quad s k.toNat).exitFrom = some t from hx]
    exact if_pos (by simpa using ⟨h, hr⟩)
  · dsimp only
    split
    · next t hx =>
      refine if_neg ?_
      rcases h with h | h | h
      · simp [show napOn (quad s k.toNat) = false from h]
      · simp [show (quad s k.toNat).napRx = false from h]
      · exact absurd (h.symm.trans hx) (by simp)
    · rfl

theorem exec_fecCodeword_rs (s : State) (hOn : s.dev.state ≠ .off) (l : BitVec 7) (n : Nat) : let q := quad s (quadOf l.toNat)
    let u := countN .symbolErrors l.toNat n s
    let t := if q.mode = .eth100 && q.rate = 3 then 7 else 15
    let live := isEth q.mode = true ∧ quadEnabled s (quadOf l.toNat) = true
    ((isEth q.mode = false ∨ quadEnabled s (quadOf l.toNat) = false) → exec (.fecCodeword l (.rs n)) s = .next s) ∧
    (live → n = 0 → exec (.fecCodeword l (.rs n)) s = .next u) ∧
    (live → 0 < n → n ≤ t → exec (.fecCodeword l (.rs n)) s = .next (count .rsCorrected (quadOf l.toNat) u)) ∧
    (live → t < n → exec (.fecCodeword l (.rs n)) s = .next (count .rsUncorrectable (quadOf l.toNat) u)) := by
  intro q u t live
  have hdo : exec (.fecCodeword l (.rs n)) s = .next (if !isEth q.mode || !quadEnabled s (quadOf l.toNat) then s
      else if n = 0 then u else count (if n ≤ t then .rsCorrected else .rsUncorrectable) (quadOf l.toNat) u) := by
    change execFecCodeword l (.rs n) s = _
    rw [execFecCodeword, whenOn_of_on _ s hOn]
  have hlive : live → ¬(!isEth q.mode || !quadEnabled s (quadOf l.toNat)) = true := fun h => by simp [h.1, h.2]
  rw [hdo]
  refine ⟨fun h => congrArg _ (if_pos (by simpa using h)), fun h h0 => congrArg _ ?_, fun h h0 ht => congrArg _ ?_,
    fun h ht => congrArg _ ?_⟩
  · exact (if_neg (hlive h)).trans (if_pos h0)
  · rw [if_neg (hlive h), if_neg (by omega), if_pos ht]
  · rw [if_neg (hlive h), if_neg (by omega), if_neg (by omega)]

theorem exec_fecCodeword_gul (s : State) (hOn : s.dev.state ≠ .off) (l : BitVec 7) (w : List (BitVec 66)) :
    let q := quad s (quadOf l.toNat)
    let live := receiving q = true ∧ fecRuns q = true ∧ (lane s l.toNat).codewordLock = true
    let u := modLane l.toNat (fun x => { x with codewords := x.codewords + 1 }) s
    (¬live → exec (.fecCodeword l (.gul w)) s = .next s) ∧
    (∀ n, live → bchErrors w = some n → exec (.fecCodeword l (.gul w)) s = .next (countN .fecCorrectedBits l.toNat n u)) ∧
    (live → bchErrors w = none → exec (.fecCodeword l (.gul w)) s = .next (count .fecUncorrectable l.toNat
      (modLane l.toNat (fun x => { x with badCodewords := x.badCodewords ++ [x.codewords - 1] }) u))) := by
  intro q live u
  have hcond : (!(receiving q && fecRuns q && (lane s l.toNat).codewordLock)) = true ↔ ¬live := by
    simp [live, and_assoc, imp_iff_not_or, or_assoc]
  change (_ → execFecCodeword l (.gul w) s = _) ∧ (∀ n, _ → _ → execFecCodeword l (.gul w) s = _) ∧
    (_ → _ → execFecCodeword l (.gul w) s = _)
  rw [execFecCodeword, whenOn_of_on _ s hOn]
  refine ⟨fun h => congrArg _ (if_pos (hcond.mpr h)), fun n h he => congrArg _ ?_, fun h he => congrArg _ ?_⟩
  · refine (if_neg (fun hc => hcond.mp hc h)).trans ?_
    rw [he]
  · refine (if_neg (fun hc => hcond.mp hc h)).trans ?_
    rw [he]

theorem exec_quadLost_cases (s : State) (hOn : s.dev.state ≠ .off) (k : BitVec 5) :
    let gone := quadUsed s k.toNat = true ∧ linkUp s k.toNat = false ∧ 10 ≤ (quad s k.toNat).outFrames
    (gone → exec (.quadLost k) s = .next (setCause .quadLost true (modQuad k.toNat (fun q => { q with lost := true }) s))) ∧
    (¬gone → exec (.quadLost k) s = .next s) := by
  intro gone
  have hcond : (quadUsed s k.toNat && !linkUp s k.toNat && decide (10 ≤ (quad s k.toNat).outFrames)) = true ↔ gone := by
    simp [gone, and_assoc]
  change (_ → execQuadLost k s = _) ∧ (_ → execQuadLost k s = _)
  rw [execQuadLost, whenOn_of_on _ s hOn]
  exact ⟨fun h => congrArg _ (if_pos (hcond.mpr h)), fun h => congrArg _ (if_neg (fun hc => h (hcond.mp hc)))⟩

theorem exec_ethLinkChange_cases (s : State) (hOn : s.dev.state ≠ .off) (k : BitVec 5) :
    let live := isEth (quad s k.toNat).mode = true ∧ quadEnabled s k.toNat = true ∧ (quad s k.toNat).pattern = false
    let st := (quad s k.toNat).state
    (∀ p, live → st = .detect → pageAgrees (quad s k.toNat) p = true →
      exec (.ethLinkChange k (.page p)) s = .next (goTo .train k.toNat s)) ∧
    (∀ p, (st ≠ .detect ∨ pageAgrees (quad s k.toNat) p = false) → exec (.ethLinkChange k (.page p)) s = .next s) ∧
    (live → st = .train → exec (.ethLinkChange k .trained) s = .next (goTo .lock k.toNat s)) ∧
    (st ≠ .train → exec (.ethLinkChange k .trained) s = .next s) ∧
    (live → st = .lock → exec (.ethLinkChange k .aligned) s = .next (modLanes k.toNat (fun l =>
      { l with blockLock := true, deskewed := true })
      (modQuad k.toNat (fun q => { q with state := .active, since := s.time.tb2, inUse := 4 }) s))) ∧
    (st ≠ .lock → exec (.ethLinkChange k .aligned) s = .next s) ∧
    (live → exec (.ethLinkChange k .down) s = .next (linkLoss k.toNat s)) ∧
    (∀ c, ¬live → exec (.ethLinkChange k c) s = .next s) := by
  intro live st
  have hcond : (!isEth (quad s k.toNat).mode || !quadEnabled s k.toNat || (quad s k.toNat).pattern) = true ↔ ¬live := by
    simp [live, imp_iff_not_or, or_assoc]
  have hdo : ∀ c, exec (.ethLinkChange k c) s = execEthLinkChange k c s := fun _ => rfl
  simp only [hdo, execEthLinkChange, whenOn_of_on _ s hOn]
  have hpos : ∀ {a b : State}, live → (if (!isEth (quad s k.toNat).mode || !quadEnabled s k.toNat ||
      (quad s k.toNat).pattern) = true then a else b) = b := fun h => if_neg (fun hc => hcond.mp hc h)
  refine ⟨fun p h hst hp => ?_, fun p h => ?_, fun h hst => ?_, fun h => ?_, fun h hst => ?_, fun h => ?_, fun h => ?_,
    fun c h => ?_⟩
  · rw [hpos h, show (quad s k.toNat).state = .detect from hst]
    exact congrArg _ (if_pos hp)
  · split
    · rfl
    · cases hst : (quad s k.toNat).state
      case detect => exact congrArg _ (if_neg (by simpa [st, hst] using h))
      all_goals rfl
  · rw [hpos h, show (quad s k.toNat).state = .train from hst]
  · split
    · rfl
    · cases hst : (quad s k.toNat).state
      case train => exact absurd hst h
      all_goals rfl
  · rw [hpos h, show (quad s k.toNat).state = .lock from hst]
  · split
    · rfl
    · cases hst : (quad s k.toNat).state
      case lock => exact absurd hst h
      all_goals rfl
  · rw [hpos h]
  · exact congrArg _ (if_pos (hcond.mpr h))

/-- A module is inserted whose identity is still to be read (R290). -/
def newModule (k : Nat) (d : List Byte) (s : State) : State :=
  modQuad k (fun q => { q with
    modulePresent := true, moduleLowPower := true, moduleApp := none, moduleFlags := [], moduleBytes := []
    moduleId := if isEth (quad s k).mode then d else [], moduleSignal := none, moduleInt := false }) s

theorem exec_moduleInsert_cases (s : State) (hOn : s.dev.state ≠ .off) (k : BitVec 5) (d l : List Byte) :
    let q := quad s k.toNat
    let off := testBit s.power.vmodOff.toNat (k.toNat / 8)
    let u := newModule k.toNat d s
    let aligns := fun (t : State) => if q.state = .detect then goTo (ethStart (quad t k.toNat)) k.toNat t else t
    (off = true → exec (.moduleInsert k d l) s = .next s) ∧
    (off = false → isEth q.mode = false → exec (.moduleInsert k d l) s = .next u) ∧
    (∀ i, off = false → isEth q.mode = true → l.findIdx? (fun b => b.toNat = auiCode q.mode) = some i →
      exec (.moduleInsert k d l) s = .next (aligns (modQuad k.toNat (fun q => { q with
        moduleApp := some i, moduleLowPower := false, moduleSignal := some (Config.hostSignal q.mode.code) })
        (setAlarm 0x0380 k.toNat false u)))) ∧
    (off = false → isEth q.mode = true → l.findIdx? (fun b => b.toNat = auiCode q.mode) = none →
      exec (.moduleInsert k d l) s = .next (aligns (modQuad k.toNat (fun q => { q with
        moduleApp := none, moduleLowPower := true, moduleSignal := none })
        (raiseOpen true 3 (76 + k.toNat) l.length [] (setAlarm 0x0380 k.toNat true u))))) := by
  intro q off u aligns
  change (_ → execModuleInsert k d l s = _) ∧ (_ → _ → execModuleInsert k d l s = _) ∧
    (∀ i, _ → _ → _ → execModuleInsert k d l s = _) ∧ (_ → _ → _ → execModuleInsert k d l s = _)
  rw [execModuleInsert, whenOn_of_on _ s hOn]
  refine ⟨fun h => congrArg _ (if_pos h), fun h he => congrArg _ ?_, fun i h he hi => congrArg _ ?_,
    fun h he hi => congrArg _ ?_⟩
  · exact (if_neg (by simpa using h)).trans (if_pos (by simpa using he))
  · refine (if_neg (by simpa using h)).trans ((if_neg (by simpa using he)).trans ?_)
    dsimp only
    rw [show l.findIdx? (fun b => decide (b.toNat = auiCode (quad s k.toNat).mode)) = some i from hi]
    rfl
  · refine (if_neg (by simpa using h)).trans ((if_neg (by simpa using he)).trans ?_)
    dsimp only
    rw [show l.findIdx? (fun b => decide (b.toNat = auiCode (quad s k.toNat).mode)) = none from hi]
    rfl

theorem exec_moduleRemove_cases (s : State) (hOn : s.dev.state ≠ .off) (k : BitVec 5) (l : List Byte) :
    ((quad s k.toNat).modulePresent = false → exec (.moduleRemove k) s = .next s) ∧
    ((quad s k.toNat).modulePresent = true → exec (.moduleRemove k) s = .next (linkLoss k.toNat (setAlarm 0x0380 k.toNat false
      (modQuad k.toNat (fun q => { q with
        modulePresent := false, moduleLowPower := true, moduleApp := none, moduleFlags := [], moduleId := []
        moduleSignal := none, moduleInt := false, moduleBytes := [] }) s)))) ∧
    exec (.modulePoll k l) s = .next (modQuad k.toNat (fun q => if q.modulePresent then
      { q with moduleFlags := l, moduleInt := l.any (fun b => b ≠ 0) } else q) (selectModule k.toNat s)) := by
  change (_ → execModuleRemove k s = _) ∧ (_ → execModuleRemove k s = _) ∧ execModulePoll k l s = _
  rw [execModuleRemove, whenOn_of_on _ s hOn, execModulePoll, whenOn_of_on _ s hOn]
  exact ⟨fun h => congrArg _ (if_pos (by simpa using h)), fun h => congrArg _ (if_neg (by simpa using h)), rfl⟩

theorem exec_patternCheckLock_cases (s : State) (hOn : s.dev.state ≠ .off) (l : BitVec 7) (bits : List Bool) :
    let live := (quad s (quadOf l.toNat)).pattern = true ∧ quadEnabled s (quadOf l.toNat) = true
    (∀ p, live → (lane s l.toNat).genPattern = some p → exec (.patternCheckLock l bits) s =
      .next (bits.foldl (fun s b => checkBit l.toNat p b s) (sendPattern p bits.length l.toNat s))) ∧
    ((¬live ∨ (lane s l.toNat).genPattern = none) → exec (.patternCheckLock l bits) s = .next s) := by
  intro live
  change (∀ p, _ → _ → execPatternCheckLock l bits s = _) ∧ (_ → execPatternCheckLock l bits s = _)
  rw [execPatternCheckLock, whenOn_of_on _ s hOn]
  refine ⟨fun p h hp => congrArg _ ?_, fun h => congrArg _ ?_⟩
  · dsimp only
    rw [hp]
    exact if_pos (by simpa using h)
  · dsimp only
    split
    · next p hp =>
      refine if_neg (fun hc => ?_)
      rw [Bool.and_eq_true] at hc
      exact h.elim (fun hl => hl hc) (fun hn => absurd (hn.symm.trans hp) (by simp))
    · rfl

/-- Settles O42: the remaining rules of the lanes, by the lemma for each command. -/
theorem linksSleepCorrectAndReport : Obligations.LinksSleepCorrectAndReport := by
  unfold Obligations.LinksSleepCorrectAndReport
  intro s hOn
  refine ⟨fun k => ?_, fun k => quad_maybeIdle k s, exec_fecCodeword_rs s hOn, exec_fecCodeword_gul s hOn,
    exec_quadLost_cases s hOn, exec_ethLinkChange_cases s hOn, fun k d l => ?_, exec_patternCheckLock_cases s hOn⟩
  · obtain ⟨hasks, hidle⟩ := exec_napIdleTimer_cases s hOn k
    obtain ⟨hreqOff, hnak, hack⟩ := exec_napReq_cases s hOn k
    obtain ⟨hsleep, hnoSleep, hcancel⟩ := exec_napAck_cases s hOn k
    obtain ⟨htimeout, hnoTimeout⟩ := exec_fastExitTimeout_cases s hOn k
    have hexit := exec_fastExit_cases s hOn k
    exact ⟨hasks, hidle, hnak, hack, fun h => ⟨hreqOff h, fun o l => (hexit l).1 o h⟩, hsleep, hnoSleep, hcancel,
      fun l => (hexit l).2.1, fun l => (hexit l).2.2.1, fun l => (hexit l).2.2.2.1, fun l => (hexit l).2.2.2.2.1,
      fun l => (hexit l).2.2.2.2.2, htimeout, hnoTimeout⟩
  · obtain ⟨hoff, hgul, hfound, hnone⟩ := exec_moduleInsert_cases s hOn k d l
    obtain ⟨habsent, hremove, hpoll⟩ := exec_moduleRemove_cases s hOn k l
    exact ⟨hoff, hgul, hfound, hnone, habsent, hremove, hpoll⟩

end Sys2Proof.Proofs
end

section
/-! SUPPORT. What a quad sends changes its lanes alone, and the free values drawn for its scramblers (R273, R276). -/

namespace Sys2Proof.Laws
open Sys2Proof Sys2Proof.Machine

/-- A change of the lanes and of the free values drawn, and of nothing else. -/
def wireStep (s t : State) : Prop := ∃ x n, t = { s with lanes := x, fresh := n }

theorem wireStep_refl (s : State) : wireStep s s := ⟨_, _, rfl⟩

theorem wireStep_trans {s t u : State} (h : wireStep s t) (h' : wireStep t u) : wireStep s u := by
  obtain ⟨_, _, rfl⟩ := h
  obtain ⟨_, _, rfl⟩ := h'
  exact ⟨_, _, rfl⟩

theorem wireStep_foldl {α : Type} (f : State → α → State) (h : ∀ s x, wireStep s (f s x)) (l : List α) (s : State) :
    wireStep s (l.foldl f s) := by
  induction l generalizing s with
  | nil => exact wireStep_refl s
  | cons x l ih => exact wireStep_trans (h s x) (ih (f s x))

theorem wireStep_modLane (l : Nat) (f : Lane → Lane) (s : State) : wireStep s (modLane l f s) := ⟨_, _, rfl⟩

theorem wireStep_modQuad (k : Nat) (f : Quad → Quad) (s : State) : wireStep s (modQuad k f s) := ⟨_, _, rfl⟩

theorem wireStep_putLane (fec : Bool) (w r c l : Nat) (b : Block) (s : State) : wireStep s (putLane fec w r c l b s) := by
  unfold putLane
  split
  · exact ⟨_, _, rfl⟩
  · exact ⟨_, _, rfl⟩

theorem wireStep_putRow (k : Nat) (fec : Bool) (w : Nat) (b : Nat → Block) (s : State) : wireStep s (putRow k fec w b s) :=
  wireStep_trans (wireStep_foldl _ (fun _ _ => wireStep_putLane ..) _ s) (wireStep_modQuad ..)

theorem wireStep_putDue (k : Nat) (fec : Bool) (w : Nat) (s : State) : wireStep s (putDue k fec w s) := by
  unfold putDue
  split
  · exact wireStep_refl s
  · exact wireStep_putRow ..

theorem wireStep_putStream (k : Nat) (fec : Bool) (w : Nat) (b : Nat → Block) (s : State) :
    wireStep s (putStream k fec w b s) :=
  wireStep_trans (wireStep_trans (wireStep_putDue ..) (wireStep_putDue ..)) (wireStep_putRow ..)

theorem wireStep_idleRows (k : Nat) (fec : Bool) (w n : Nat) (s : State) : wireStep s (idleRows k fec w n s) := by
  induction n generalizing s with
  | zero => exact wireStep_refl s
  | succ n ih => exact wireStep_trans (wireStep_putRow ..) (ih _)

theorem wireStep_skipTo (k w r : Nat) (s : State) : wireStep s (skipTo k w r s) :=
  wireStep_trans (wireStep_foldl _ (fun _ _ => ⟨_, _, rfl⟩) _ s) (wireStep_modQuad ..)

theorem wireStep_catchUp (k : Nat) (s : State) : wireStep s (catchUp k s) := by
  unfold catchUp
  dsimp only
  split
  · exact wireStep_trans (wireStep_skipTo ..) (wireStep_idleRows ..)
  · exact wireStep_idleRows ..

theorem wireStep_clearSent (k : Nat) (s : State) : wireStep s (clearSent k s) :=
  wireStep_foldl _ (fun _ _ => wireStep_modLane ..) _ s

theorem wireStep_sendBlocks (k : Nat) (l : List Block) (s : State) : wireStep s (sendBlocks k l s) :=
  wireStep_trans (wireStep_trans (wireStep_catchUp k s) (wireStep_clearSent ..))
    (wireStep_foldl _ (fun _ _ => wireStep_putStream ..) _ _)

theorem wireStep_flushFrames (k : Nat) (s : State) : wireStep s (flushFrames k s) := by
  unfold flushFrames
  dsimp only
  split
  · exact wireStep_modQuad ..
  · exact wireStep_trans (wireStep_modQuad ..) (wireStep_sendBlocks ..)

theorem wireStep_sendFrames (k : Nat) (kind : Byte) (l : List (List Byte)) (s : State) :
    wireStep s (sendFrames k kind l s) := by
  unfold sendFrames
  dsimp only
  split
  · exact wireStep_refl s
  · split
    · exact wireStep_modQuad ..
    · exact wireStep_trans (wireStep_modQuad ..) (wireStep_flushFrames ..)

theorem sendTwin_touches (l : List (Nat × TwinMessage)) (s : State) :
    ∃ x n, sendTwin l s = { s with lanes := x, fresh := n, twin.sent := s.twin.sent ++ l } := by
  unfold sendTwin
  dsimp only
  split
  · obtain ⟨x, n, h⟩ := wireStep_sendFrames (s := { s with twin.sent := s.twin.sent ++ l }) _ 3
      (l.map (fun e => twinBytes e.1 e.2))
    exact ⟨x, n, h⟩
  · exact ⟨_, _, rfl⟩

theorem sendCheckpoint_touches (s : State) : ∃ x n c t, sendCheckpoint s =
    { s with lanes := x, fresh := n, counters := c, twin.sent := t, twin.sendCkpt := false } := by
  unfold sendCheckpoint
  dsimp only
  obtain ⟨x, n, h⟩ := sendTwin_touches ((pieces 8 (checkpointBytes s)).zipIdx.map (fun e => (2, twinMessage s e.2 0 e.1)))
    { s with twin.sendCkpt := false, twin.sent := [] }
  rw [h]
  exact ⟨_, _, _, _, rfl⟩

theorem sendHandover_touches (m : Nat) (s : State) : ∃ x n c t, sendHandover m s =
    { s with lanes := x, fresh := n, counters := c, twin := t } := by
  unfold sendHandover
  split
  · obtain ⟨x, n, c, t, h⟩ := sendCheckpoint_touches s
    dsimp only
    rw [h]
    obtain ⟨x', n', h'⟩ := sendTwin_touches [(3, twinMessage { s with
      lanes := x, fresh := n, counters := c, twin.sent := t, twin.sendCkpt := false } 0 m [])]
      { s with lanes := x, fresh := n, counters := c, twin.sent := t, twin.sendCkpt := false, twin.handoverAt := some m }
    exact ⟨_, _, _, _, h'⟩
  · exact ⟨_, _, _, _, rfl⟩

@[simp] theorem sendHandover_health (m : Nat) (s : State) : (sendHandover m s).health = s.health := by
  obtain ⟨x, n, c, t, h⟩ := sendHandover_touches m s
  rw [h]

@[simp] theorem rejectCommit_health (st : Status) (d : Nat) (s : State) : (rejectCommit st d s).health = s.health := by
  unfold rejectCommit
  (repeat' split) <;> simp

@[simp] theorem callSafe_health (c : Nat) (s : State) : (callSafe c s).health = s.health := by
  unfold callSafe
  dsimp only
  (repeat' split) <;> simp

@[simp] theorem askSafe_health (s : State) : (askSafe s).health = s.health := by
  unfold askSafe
  split <;> simp

end Sys2Proof.Laws
end

section
/-! Supply, reset, the hardware trip and the power monitor (O51). -/

namespace Sys2Proof.Proofs
open Sys2Proof Sys2Proof.Machine Sys2Proof.Laws

theorem rampUp_starts (s : State) (ht : s.power.tripLatch = none) (hg : s.power.pwrGood = false) : rampUp s =
    { s with power.pwrGood := true, power.diesOn := true, time.tb2 := 0, boot.powerCycles := s.boot.powerCycles + 1 } :=
  if_neg (by simp [ht, hg])

theorem rampUp_stays (s : State) (h : s.power.tripLatch.isSome = true ∨ s.power.pwrGood = true) : rampUp s = s :=
  if_pos (by simpa using h)

theorem rampUp_dev (s : State) : (rampUp s).dev = s.dev ∧ (rampUp s).boot.mram = s.boot.mram ∧
    (rampUp s).boot.keys = s.boot.keys ∧ (rampUp s).power.resetN = s.power.resetN ∧
    (rampUp s).power.tripLatch = s.power.tripLatch := by
  unfold rampUp
  split
  · exact ⟨rfl, rfl, rfl, rfl, rfl⟩
  · exact ⟨rfl, rfl, rfl, rfl, rfl⟩

theorem exec_resetRelease_boots (s : State) (hst : s.dev.state = .off) (hg : s.power.pwrGood = true)
    (ht : s.power.tripLatch = none) : exec .resetRelease s =
    .next (enterBoot 0 { s with power.resetN := true, time.tb2 := max s.time.tb2 50000000 }) :=
  congrArg Host.Outcome.next (if_pos (by simp [hst, hg, ht]))

theorem exec_resetRelease_waits (s : State)
    (h : s.dev.state ≠ .off ∨ s.power.pwrGood = false ∨ s.power.tripLatch.isSome = true) :
    exec .resetRelease s = .next { s with power.resetN := true } := by
  refine congrArg Host.Outcome.next (if_neg ?_)
  rcases h with h | h | h
  · simp [h]
  · simp [h]
  · simp [Option.isNone_eq_false_iff.mpr h]

/-- What a RESET_N that ends a powered state leaves (R396). -/
theorem exec_resetNAssert_powered (s : State) (ht : s.power.tripLatch = none) (hg : s.power.pwrGood = true) :
    exec .resetNAssert s = .next (goOff { s with power.resetN := false, boot.resets := s.boot.resets + 1 }) := by
  change execResetNAssert s = _
  unfold execResetNAssert
  rw [ht]
  exact congrArg _ (if_pos hg)

theorem exec_resetNAssert_unpowered (s : State) (ht : s.power.tripLatch = none) (hg : s.power.pwrGood = false) :
    exec .resetNAssert s = .next { s with power.resetN := false } := by
  change execResetNAssert s = _
  unfold execResetNAssert
  rw [ht]
  exact congrArg _ (if_neg (by simp [hg]))

/-- RESET_N against a latched trip, with the free value that says whether it is held for 10 ms (R450; log 1). -/
def trippedReset (v : Nat) (u : State) : State :=
  if v % 2 = 0 && u.power.vinOk then rampUp { u with power.tripLatch := none }
  else if v % 2 = 0 then { u with power.tripLatch := none } else u

theorem trippedReset_leaves (v : Nat) (u : State) : (trippedReset v u).dev = u.dev ∧
    (trippedReset v u).boot.mram = u.boot.mram ∧ (trippedReset v u).boot.keys = u.boot.keys ∧
    (trippedReset v u).power.resetN = u.power.resetN ∧
    ((trippedReset v u).power.tripLatch = u.power.tripLatch ∨ (trippedReset v u).power.tripLatch = none) := by
  unfold trippedReset
  split
  · obtain ⟨hd, hm, hkeys, hr, ht⟩ := rampUp_dev { u with power.tripLatch := none }
    exact ⟨hd, hm, hkeys, hr, .inr ht⟩
  · split
    · exact ⟨rfl, rfl, rfl, rfl, .inr rfl⟩
    · exact ⟨rfl, rfl, rfl, rfl, .inl rfl⟩

theorem exec_resetNAssert_tripped (s : State) (h : s.power.tripLatch.isSome = true) : ∃ t, exec .resetNAssert s = .next t ∧
    t.dev = s.dev ∧ t.boot.mram = s.boot.mram ∧ t.boot.keys = s.boot.keys ∧ t.power.resetN = false ∧
    (t.power.tripLatch = s.power.tripLatch ∨ t.power.tripLatch = none) := by
  obtain ⟨k, hk⟩ := Option.isSome_iff_exists.mp h
  have hdo : exec .resetNAssert s = .next (trippedReset (draw { s with power.resetN := false }).1
      (draw { s with power.resetN := false }).2) := by
    change execResetNAssert s = _
    unfold execResetNAssert
    rw [hk]
    rfl
  exact ⟨_, hdo, trippedReset_leaves _ (draw { s with power.resetN := false }).2⟩

theorem powerOff_off (s : State) : (powerOff s).dev.state = .off ∧ (powerOff s).power.pwrGood = false ∧
    (powerOff s).boot.mram = s.boot.mram ∧ (powerOff s).boot.keys = s.boot.keys ∧ (powerOff s).boot.resets = s.boot.resets ∧
    (powerOff s).dram.mem = [] := ⟨rfl, rfl, rfl, rfl, rfl, rfl⟩

theorem exec_supplyFault_cases (s : State) (c : SupplyFault) : (s.power.pwrGood = false → exec (.supplyFault c) s = .next s) ∧
    (s.power.pwrGood = true → ∃ t, exec (.supplyFault c) s = .next t ∧ t.dev.state = .off ∧ t.power.pwrGood = false ∧
      t.boot.mram = s.boot.mram ∧ t.boot.keys = s.boot.keys ∧ t.boot.resets = s.boot.resets) := by
  refine ⟨fun h => congrArg Host.Outcome.next (if_neg (by simp [h])), fun h => ?_⟩
  obtain ⟨hst, hg, hm, hk, hr, _⟩ := powerOff_off { s with power.vinOk := c = .rail }
  exact ⟨_, congrArg Host.Outcome.next (if_pos h), hst, hg, hm, hk, hr⟩

theorem exec_vin12Removed (s : State) : ∃ t, exec .vin12Removed s = .next t ∧ t.power.tripLatch = none ∧
    t.power.pwrGood = false ∧ t.power.alwaysOn = false ∧ t.boot.mram = s.boot.mram ∧ t.boot.keys = s.boot.keys ∧
    (s.power.pwrGood = true → t.dev.state = .off) := by
  refine ⟨_, rfl, rfl, ?_, rfl, ?_, ?_, fun h => ?_⟩
  all_goals dsimp only
  · split
    · rfl
    · next h => simpa using h
  · split <;> rfl
  · split <;> rfl
  · rw [if_pos h]
    rfl

theorem exec_thermalTrip_cases (s : State) (k : BitVec 5) :
    (s.power.pwrGood = true → k.toNat < 24 → ∃ t, exec (.thermalTrip k) s = .next t ∧ t.dev.state = .off ∧
      t.power.pwrGood = false ∧ t.power.tripLatch = some k.toNat ∧ t.power.tripReport = some k.toNat ∧
      t.boot.mram = s.boot.mram ∧ t.boot.keys = s.boot.keys ∧ t.dram.mem = []) ∧
    ((s.power.pwrGood = false ∨ 24 ≤ k.toNat) → exec (.thermalTrip k) s = .next s) := by
  refine ⟨fun hg hk => ⟨_, congrArg Host.Outcome.next (if_pos (by simp [hg, hk])), rfl, rfl, rfl, rfl, rfl, rfl, rfl⟩,
    fun h => congrArg Host.Outcome.next (if_neg ?_)⟩
  rcases h with h | h
  · simp [h]
  · simp [Nat.not_lt.mpr h]

/-! Module supplies (R475). -/

/-- A change of the egress side and of the counters, and of nothing else. -/
def egressStep (s t : State) : Prop := ∃ x c, t = { s with out := x, counters := c }

theorem egressStep_trans {s t u : State} (h : egressStep s t) (h' : egressStep t u) : egressStep s u := by
  obtain ⟨_, _, rfl⟩ := h
  obtain ⟨_, _, rfl⟩ := h'
  exact ⟨_, _, rfl⟩

theorem egressStep_discardQuad (q reason : Nat) (r : Rec) (s : State) : egressStep s (discardQuad q reason r s) := by
  unfold discardQuad Machine.discard
  dsimp only
  split
  · exact ⟨_, _, rfl⟩
  · exact ⟨_, _, rfl⟩

theorem egressStep_drain (k : Nat) (l : List (Rec × Flow × Nat)) (s : State) :
    egressStep s (l.foldl (fun s x => discardQuad k 1 x.1 (count .linkDown k s)) s) := by
  induction l generalizing s with
  | nil => exact ⟨_, _, rfl⟩
  | cons x l ih => exact egressStep_trans (egressStep_trans ⟨_, _, rfl⟩ (egressStep_discardQuad k 1 x.1 (count .linkDown k s))) (ih _)

theorem egressStep_drainDown (k : Nat) (s : State) : egressStep s (drainDown k s) := by
  unfold drainDown
  split
  · exact ⟨_, _, rfl⟩
  · exact egressStep_trans ⟨_, _, rfl⟩ (egressStep_drain k _ (modEgress k (fun e => { e with queue := [], denying := false }) s))

@[simp] theorem quad_drainDown (k j : Nat) (s : State) : quad (drainDown k s) j = quad s j := by
  obtain ⟨x, c, h⟩ := egressStep_drainDown k s
  rw [h]
  rfl

/-- The module of a quad stays as it is while its link goes down (R475). -/
theorem present_unlockLanes (k j : Nat) (s : State) :
    (quad (unlockLanes k s) j).modulePresent = (quad s j).modulePresent := by
  by_cases h : j = k
  · subst h
    rw [quad_unlockLanes, quad_abortFrame]
    split <;> rfl
  · rw [quad_unlockLanes_ne k j h]

theorem present_modQuad (k j : Nat) (f : Quad → Quad) (hf : ∀ q, (f q).modulePresent = q.modulePresent) (s : State) :
    (quad (modQuad k f s) j).modulePresent = (quad s j).modulePresent := by
  by_cases h : j = k
  · subst h
    rw [quad_modQuad, hf]
  · rw [quad_modQuad_ne _ _ _ _ h]

theorem present_goTo (st : LinkState) (k j : Nat) (s : State) :
    (quad (goTo st k s) j).modulePresent = (quad s j).modulePresent := by
  rw [goTo, quad_drainDown, present_unlockLanes]
  exact present_modQuad k j _ (by exact fun _ => rfl) s

theorem present_startTrain (k j : Nat) (s : State) : (quad (startTrain k s) j).modulePresent = (quad s j).modulePresent := by
  rw [startTrain, quad_modLanes]
  exact (present_modQuad k j _ (by exact fun _ => rfl) _).trans (present_unlockLanes k j s)

@[simp] theorem quad_raise (c r : Nat) (m : Int) (l : List Int) (j : Nat) (s : State) : quad (raise c r m l s) j = quad s j := rfl

theorem present_retrain (k j : Nat) (s : State) : (quad (retrain k s) j).modulePresent = (quad s j).modulePresent := by
  unfold retrain
  dsimp only
  split
  · rw [quad_drainDown]
    split
    · rw [present_goTo, quad_raise, quad_count]
      exact present_modQuad k j _ (by exact fun _ => rfl) s
    · rw [present_startTrain, quad_raise, quad_count]
      exact present_modQuad k j _ (by exact fun _ => rfl) s
  · rfl

theorem present_linkLoss (k j : Nat) (s : State) : (quad (linkLoss k s) j).modulePresent = (quad s j).modulePresent := by
  unfold linkLoss
  dsimp only
  split
  · split
    · rfl
    · exact present_goTo ..
  · exact present_retrain ..

theorem present_removeModule (k j : Nat) (s : State) : (quad (removeModule k s) j).modulePresent =
    if j = k then false else (quad s j).modulePresent := by
  unfold removeModule
  split
  · next h =>
    split
    · next hj => simpa [hj] using h
    · rfl
  · rw [present_linkLoss, show ∀ u, quad (setAlarm 0x0380 k false u) j = quad u j from fun _ => rfl]
    split
    · next hj => rw [hj, quad_modQuad]
    · next hj => rw [quad_modQuad_ne _ _ _ _ hj]

/-! What a module's removal leaves: the supply. -/

@[simp] theorem drainDown_power (k : Nat) (s : State) : (drainDown k s).power = s.power := by
  obtain ⟨x, c, h⟩ := egressStep_drainDown k s
  rw [h]

@[simp] theorem modLanes_power (k : Nat) (f : Lane → Lane) (s : State) : (modLanes k f s).power = s.power :=
  foldl_proj (fun u : State => u.power) (fun u j => modLane (4 * k + j) f u) (fun _ _ => rfl) _ s

@[simp] theorem unlockLanes_power (k : Nat) (s : State) : (unlockLanes k s).power = s.power := by
  simp only [unlockLanes, modLanes_power, modQuad_fields, abortFrame, dropFrame]
  split <;> rfl

@[simp] theorem goTo_power (st : LinkState) (k : Nat) (s : State) : (goTo st k s).power = s.power := by
  simp [goTo]

@[simp] theorem retrain_power (k : Nat) (s : State) : (retrain k s).power = s.power := by
  unfold retrain startTrain
  dsimp only
  (repeat' split) <;> simp

@[simp] theorem linkLoss_power (k : Nat) (s : State) : (linkLoss k s).power = s.power := by
  unfold linkLoss
  dsimp only
  (repeat' split) <;> simp

@[simp] theorem removeModule_power (k : Nat) (s : State) : (removeModule k s).power = s.power := by
  unfold removeModule
  split <;> simp

theorem present_foldl_removeModule (l : List Nat) (j : Nat) (s : State) :
    (quad (l.foldl (fun s q => removeModule q s) s) j).modulePresent = if j ∈ l then false else (quad s j).modulePresent := by
  induction l generalizing s with
  | nil => rfl
  | cons k l ih =>
    rw [List.foldl_cons, ih, present_removeModule]
    by_cases hl : j ∈ l <;> by_cases hk : j = k <;> simp [hl, hk]

theorem supply_off (v : BitVec 4) (k : BitVec 2) :
    testBit (v ||| BitVec.ofNat 4 (2 ^ k.toNat)).toNat k.toNat = true ∧
      testBit (v &&& ~~~ BitVec.ofNat 4 (2 ^ k.toNat)).toNat k.toNat = false := by
  revert v k
  decide

theorem exec_vmodOverload (s : State) (hOn : s.dev.state ≠ .off) (k : BitVec 2) : ∃ t, exec (.vmodOverload k) s = .next t ∧
    testBit t.power.vmodOff.toNat k.toNat = true ∧
    (∀ j, 8 * k.toNat ≤ j → j < 8 * k.toNat + 8 → (quad t j).modulePresent = false) := by
  refine ⟨_, whenOn_of_on (fun s => (numbers (8 * k.toNat) 8).foldl (fun s q => removeModule q s)
    { s with power.vmodOff := s.power.vmodOff ||| BitVec.ofNat 4 (2 ^ k.toNat) }) s hOn, ?_, fun j hlo hhi => ?_⟩
  · dsimp only
    rw [foldl_proj (fun u => u.power) (fun u q => removeModule q u) (fun u q => removeModule_power q u)]
    exact (supply_off _ k).1
  · dsimp only
    rw [present_foldl_removeModule, if_pos]
    exact List.mem_map.mpr ⟨j - 8 * k.toNat, List.mem_range.mpr (by omega), by omega⟩

theorem exec_vmodRetry (s : State) (hOn : s.dev.state ≠ .off) (k : BitVec 2) : ∃ t, exec (.vmodRetry k) s = .next t ∧
    testBit t.power.vmodOff.toNat k.toNat = false := by
  refine ⟨_, whenOn_of_on (fun s => { s with
    power.vmodOff := s.power.vmodOff &&& ~~~ (BitVec.ofNat 4 (2 ^ k.toNat)) }) s hOn, (supply_off _ k).2⟩

/-! The input power monitor (R416). -/

theorem exec_powerMonitor (s : State) (hOn : s.dev.state ≠ .off) (w : Nat) (l : PowerLevel) :
    exec (.powerMonitorExceeded w l) s = .next (if !drawAt s w l then s else match l with
      | .below => setAlarm 0x0B04 0 false (setCause .powerCap false s)
      | .above5 => raise 0x0B04 142 w [] (setAlarm 0x0B04 0 true (setCause .powerCap true s))
      | .above15 => askSafe (raise 0x0B04 142 w [] (setAlarm 0x0B04 0 true s))) :=
  whenOn_of_on (fun s => _) s hOn

theorem mem_setCause_true (c : Cause) (s : State) : c ∈ (setCause c true s).dev.causes := by
  simp only [setCause, if_true]
  split
  · assumption
  · exact List.mem_append_right _ List.mem_cons_self

theorem mem_setCause_false (c d : Cause) (s : State) :
    d ∈ (setCause c false s).dev.causes ↔ d ∈ s.dev.causes ∧ d ≠ c := by
  simp [setCause]

theorem mem_setAlarm_true (c i : Nat) (s : State) : (c, i) ∈ (setAlarm c i true s).health.alarms := by
  simp only [setAlarm, if_true]
  split
  · assumption
  · exact List.mem_append_right _ List.mem_cons_self

theorem not_mem_setAlarm_false (c i : Nat) (s : State) : (c, i) ∉ (setAlarm c i false s).health.alarms := by
  simp [setAlarm]

theorem exec_powerMonitor_cases (s : State) (hOn : s.dev.state ≠ .off) (w : Nat) :
    (∀ l, drawAt s w l = false → exec (.powerMonitorExceeded w l) s = .next s) ∧
    (100 * w ≤ 105 * capWatts s → ∃ t, exec (.powerMonitorExceeded w .below) s = .next t ∧ .powerCap ∉ t.dev.causes ∧
      (0x0B04, 0) ∉ t.health.alarms ∧ ∀ c, c ≠ .powerCap → (c ∈ t.dev.causes ↔ c ∈ s.dev.causes)) ∧
    (105 * capWatts s < 100 * w → ∃ t, exec (.powerMonitorExceeded w .above5) s = .next t ∧ .powerCap ∈ t.dev.causes ∧
      (0x0B04, 0) ∈ t.health.alarms ∧ t.dev.safeAt = s.dev.safeAt) ∧
    (115 * capWatts s < 100 * w → ∃ t, exec (.powerMonitorExceeded w .above15) s = .next t ∧
      t.dev.safeAt.isSome = true ∧ (0x0B04, 0) ∈ t.health.alarms) := by
  have hat : ∀ l, drawAt s w l = true → ¬(!drawAt s w l) = true := fun l h => by simp [h]
  refine ⟨fun l h => ?_, fun h => ?_, fun h => ?_, fun h => ?_⟩
  · rw [exec_powerMonitor s hOn, if_pos (by simp [h])]
  · rw [exec_powerMonitor s hOn, if_neg (hat _ (by simp [drawAt]; omega))]
    refine ⟨_, rfl, fun hc => ?_, not_mem_setAlarm_false 0x0B04 0 _, fun c hc => ?_⟩
    · exact ((mem_setCause_false _ _ s).mp hc).2 rfl
    · exact (mem_setCause_false _ _ s).trans (and_iff_left hc)
  · rw [exec_powerMonitor s hOn, if_neg (hat _ (by simp [drawAt]; omega))]
    exact ⟨_, rfl, mem_setCause_true _ s, mem_setAlarm_true _ _ _, rfl⟩
  · rw [exec_powerMonitor s hOn, if_neg (hat _ (by simp [drawAt]; omega))]
    refine ⟨_, rfl, askSafe_safeAt _, ?_⟩
    rw [askSafe_health]
    exact mem_setAlarm_true _ _ _

/-- Settles O51: supply, reset and the trip by what each row leaves, the module supplies by the removal of their modules. -/
theorem powerAndResetSwitchThePart : Obligations.PowerAndResetSwitchThePart := by
  unfold Obligations.PowerAndResetSwitchThePart
  intro s
  refine ⟨fun ht hg => ⟨congrArg Host.Outcome.next (rampUp_starts _ ht hg), fun ha => ?_⟩,
    fun h => congrArg Host.Outcome.next (rampUp_stays _ h), fun ha => congrArg Host.Outcome.next (if_neg (by simp [ha])),
    fun ha h => congrArg Host.Outcome.next ((if_pos ha).trans (rampUp_stays _ h)), fun hst hg ht => ?_,
    exec_resetRelease_waits s, exec_resetNAssert_unpowered s, fun ht hg => ?_, exec_resetNAssert_tripped s,
    exec_supplyFault_cases s, exec_vin12Removed s, exec_thermalTrip_cases s,
    fun hOn k => ⟨exec_vmodOverload s hOn k, exec_vmodRetry s hOn k⟩, exec_powerMonitor_cases s⟩
  · exact congrArg Host.Outcome.next ((if_pos ha).trans (rampUp_starts _ ht hg))
  · exact ⟨_, exec_resetRelease_boots s hst hg ht, rfl, rfl, rfl, rfl, rfl, rfl, rfl⟩
  · exact ⟨_, exec_resetNAssert_powered s ht hg, rfl, rfl, rfl, rfl, rfl, rfl, rfl, rfl, rfl, rfl⟩

end Sys2Proof.Proofs
end

section
/-! SUPPORT. Sources of the Compass (R302 to R304): what a verdict and a selection leave of each. -/

namespace Sys2Proof.Laws
open Sys2Proof Sys2Proof.Machine

/-- What a verdict makes of a source's qualification (R302). -/
def qualifies (pres out : Bool) (c : Source) : Bool :=
  if !pres || c.disabled then false
  else if c.qualified then !decide (c.q ≤ if pres && out then c.outRun + 1 else 0)
  else decide (c.q ≤ if pres && !out then c.inRun + 1 else 0)

@[simp] theorem source_count (c : Ctr) (i j : Nat) (s : State) : source (count c i s) j = source s j := rfl

@[simp] theorem source_setAlarm (c i : Nat) (b : Bool) (j : Nat) (s : State) : source (setAlarm c i b s) j = source s j := rfl

@[simp] theorem source_raise (c r : Nat) (m : Int) (l : List Int) (j : Nat) (s : State) :
    source (raise c r m l s) j = source s j := rfl

@[simp] theorem counter_setAlarm (c : Ctr) (i a n : Nat) (b : Bool) (s : State) :
    counter c i (setAlarm a n b s) = counter c i s := rfl

@[simp] theorem counter_modSource (c : Ctr) (i k : Nat) (f : Source → Source) (s : State) :
    counter c i (modSource k f s) = counter c i s := rfl

theorem source_disqualify (x : Nat) (s : State) : (source (disqualify x s) x).qualified = false := by
  simp [disqualify]

theorem source_disqualify_ne (x j : Nat) (h : j ≠ x) (s : State) : source (disqualify x s) j = source s j := by
  simp only [disqualify, source_raise, source_setAlarm, source_count, source_modSource_ne _ _ _ _ h]

theorem counter_disqualify (x : Nat) (hx : x < 1048576) (s : State) :
    counter .disqualified x (disqualify x s) = counter .disqualified x s + 1 := by
  rw [disqualify, counter_raise_of_lt _ _ _ _ _ (by decide) hx, counter_setAlarm, counter_count, counter_modSource]

theorem counter_disqualify_ne (x j : Nat) (hj : j < 1048576) (h : j ≠ x) (s : State) :
    counter .disqualified j (disqualify x s) = counter .disqualified j s := by
  have hkey : ctrKey .disqualified j ≠ ctrKey .disqualified x := by unfold ctrKey; omega
  rw [disqualify, counter_raise_of_lt _ _ _ _ _ (by decide) hj, counter_setAlarm]
  exact tabGet_tabMod_ne 0 s.counters (· + 1) hkey

theorem applyVerdict_source (x : Nat) (hx : x < 1048576) (pres out : Bool) (s : State) :
    (source (applyVerdict x pres out s) x).qualified = qualifies pres out (source s x) ∧
    counter .disqualified x (applyVerdict x pres out s) =
      counter .disqualified x s + bit ((source s x).qualified && !qualifies pres out (source s x)) := by
  generalize hc : source s x = c
  unfold applyVerdict
  dsimp only
  rw [hc]
  by_cases hgone : (!pres || c.disabled) = true
  · have hq : qualifies pres out c = false := if_pos hgone
    rw [if_pos hgone, hq]
    by_cases hqual : c.qualified = true
    · rw [if_pos hqual, source_disqualify, counter_disqualify x hx, hqual]
      exact ⟨rfl, rfl⟩
    · rw [if_neg hqual, source_modSource, hc]
      simp [bit, hqual]
  · rw [if_neg hgone]
    simp only [source_modSource, hc]
    by_cases hqual : c.qualified = true
    · have hq : qualifies pres out c = !decide (c.q ≤ if pres && out then c.outRun + 1 else 0) :=
        (if_neg hgone).trans (if_pos hqual)
      generalize (if (pres && out) = true then c.outRun + 1 else 0) = outs at hq ⊢
      by_cases hout : c.q ≤ outs
      · rw [if_pos (by simp [hqual, hout]), source_disqualify, counter_disqualify x hx, hq, hqual]
        simp [hout, bit]
      · rw [if_neg (by simp [hout]), if_neg (by simp [hqual]), source_modSource, hc, hq, hqual]
        simp [hout, bit]
    · have hq : qualifies pres out c = decide (c.q ≤ if pres && !out then c.inRun + 1 else 0) :=
        (if_neg hgone).trans (if_neg hqual)
      rw [if_neg (by simp [hqual])]
      generalize (if (pres && !out) = true then c.inRun + 1 else 0) = ins at hq ⊢
      by_cases hin : c.q ≤ ins
      · rw [if_pos (by simp [hqual, hin]), source_setAlarm, source_modSource, hq]
        simp [hin, bit]
      · rw [if_neg (by simp [hin]), source_modSource, hc, hq]
        simp [hin, bit, hqual]

theorem applyVerdict_other (x j : Nat) (hj : j < 1048576) (h : j ≠ x) (pres out : Bool) (s : State) :
    source (applyVerdict x pres out s) j = source s j ∧
    counter .disqualified j (applyVerdict x pres out s) = counter .disqualified j s := by
  unfold applyVerdict
  dsimp only
  (repeat' split) <;>
    simp only [source_disqualify_ne _ _ h, counter_disqualify_ne _ _ hj h, source_setAlarm, counter_setAlarm,
      counter_modSource, source_modSource_ne _ _ _ _ h, and_self]

/-- Every verdict of a list of different sources acts on its own source alone. -/
theorem applyVerdicts_source (p o : Nat → Bool) (l : List Nat) (hl : l.Nodup) (x : Nat) (hx : x < 1048576) (s : State) :
    let t := l.foldl (fun s y => applyVerdict y (p y) (o y) s) s
    (x ∈ l → (source t x).qualified = qualifies (p x) (o x) (source s x) ∧
      counter .disqualified x t =
        counter .disqualified x s + bit ((source s x).qualified && !qualifies (p x) (o x) (source s x))) ∧
    (x ∉ l → source t x = source s x ∧ counter .disqualified x t = counter .disqualified x s) := by
  induction l generalizing s with
  | nil => exact ⟨fun h => absurd h List.not_mem_nil, fun _ => ⟨rfl, rfl⟩⟩
  | cons y l ih =>
    obtain ⟨hy, hl⟩ := List.nodup_cons.mp hl
    obtain ⟨hin, hout⟩ := ih hl (applyVerdict y (p y) (o y) s)
    dsimp only [List.foldl_cons]
    by_cases hxy : x = y
    · subst hxy
      obtain ⟨hsrc, hctr⟩ := hout hy
      rw [hsrc, hctr]
      exact ⟨fun _ => applyVerdict_source x hx _ _ s, fun h => absurd List.mem_cons_self h⟩
    · obtain ⟨hsrc, hctr⟩ := applyVerdict_other y x hx hxy (p y) (o y) s
      rw [hsrc, hctr] at hin hout
      exact ⟨fun h => hin ((List.mem_cons.mp h).resolve_left hxy), fun h => hout (fun hm => h (List.mem_cons_of_mem y hm))⟩

theorem mem_othersQualified (s : State) (x : Nat) :
    x ∈ othersQualified s [] ↔ x < 7 ∧ (source s x).qualified = true := by
  simp [othersQualified, sourceIds]

/-- The lowest rank of a list is that of none above any of them. -/
theorem foldl_min_le (f : Nat → Nat) (l : List Nat) (a : Nat) :
    l.foldl (fun m x => min m (f x)) a ≤ a ∧ ∀ y ∈ l, l.foldl (fun m x => min m (f x)) a ≤ f y := by
  induction l generalizing a with
  | nil => simp
  | cons x l ih =>
    obtain ⟨hacc, hrest⟩ := ih (min a (f x))
    refine ⟨hacc.trans (min_le_left ..), fun y hy => ?_⟩
    obtain rfl | hy := List.mem_cons.mp hy
    · exact hacc.trans (min_le_right ..)
    · exact hrest y hy

/-- The source chosen is qualified and, with none forced, has no qualified source of lower rank (R304). -/
theorem chooseSource_some (s : State) (pairs : List (Nat × Nat)) (x : Nat) (h : chooseSource s pairs = some x) :
    (source s x).qualified = true ∧ (s.compass.forced = none → ∀ y, y < 7 → (source s y).qualified = true →
      (source s x).rank ≤ (source s y).rank) := by
  unfold chooseSource at h
  dsimp only at h
  split at h
  · next f hf =>
    split at h
    · next hmem =>
      cases h
      exact ⟨((mem_othersQualified s _).mp hmem).2, fun hn => absurd (hn.symm.trans hf) (by simp)⟩
    · exact absurd h (by simp)
  · next hf =>
    set best := (othersQualified s []).foldl (fun m x => min m (source s x).rank) 8 with hbest
    set c := (othersQualified s []).filter (fun x => decide ((source s x).rank = best)) with hc
    have hmem : x ∈ c → (source s x).qualified = true ∧ (s.compass.forced = none → ∀ y, y < 7 →
        (source s y).qualified = true → (source s x).rank ≤ (source s y).rank) := fun hx => by
      obtain ⟨hq, hr⟩ := List.mem_filter.mp hx
      refine ⟨((mem_othersQualified s x).mp hq).2, fun _ y hy hyq => ?_⟩
      rw [of_decide_eq_true hr]
      exact (foldl_min_le (fun x => (source s x).rank) _ 8).2 y ((mem_othersQualified s y).mpr ⟨hy, hyq⟩)
    split at h
    · exact absurd h (by simp)
    · next first rest hfirst =>
      split at h
      · next hin =>
        rw [h] at hin
        exact hmem (by simpa using hin)
      · split at h
        · next p hp =>
          have hpair := List.find?_some hp
          rw [Bool.and_eq_true, decide_eq_true_eq, decide_eq_true_eq] at hpair
          split at h <;> cases h
          · exact hmem hpair.2
          · exact hmem hpair.1
        · cases h
          exact hmem (by rw [hfirst]; exact List.mem_cons_self)

theorem chooseSource_none (s : State) (pairs : List (Nat × Nat)) (h : ∀ x, x < 7 → (source s x).qualified = false) :
    chooseSource s pairs = none := by
  have hnone : othersQualified s [] = [] := by
    refine List.eq_nil_iff_forall_not_mem.mpr (fun x hx => ?_)
    obtain ⟨hlt, hq⟩ := (mem_othersQualified s x).mp hx
    exact absurd hq (by simp [h x hlt])
  unfold chooseSource
  rw [hnone]
  split
  · exact if_neg List.not_mem_nil
  · rfl

end Sys2Proof.Laws
end

section
/-! Qualification, selection, switches and PPS edges (O43). -/

namespace Sys2Proof.Proofs
open Sys2Proof Sys2Proof.Machine Sys2Proof.Laws

/-- A forced source that is no longer qualified is released (R304). -/
def releaseForced (s : State) : State :=
  match s.compass.forced with
  | some f => if (source s f).qualified then s else { s with compass.forced := none }
  | none => s

theorem releaseForced_leaves (s : State) : (∀ x, source (releaseForced s) x = source s x) ∧
    (releaseForced s).counters = s.counters ∧ (releaseForced s).compass.selected = s.compass.selected := by
  unfold releaseForced
  split
  · split
    · exact ⟨fun _ => rfl, rfl, rfl⟩
    · exact ⟨fun _ => rfl, rfl, rfl⟩
  · exact ⟨fun _ => rfl, rfl, rfl⟩

/-- What a selection sets once a forced source has been released (R304, R307). -/
def pickSource (pairs : List (Nat × Nat)) (s : State) : State :=
  match chooseSource s pairs with
  | some x => { s with compass.switchTo := if s.compass.selected = some x then none else some x }
  | none =>
    if s.compass.selected.isSome then
      raise 0x0202 2 (trainedSeconds s) [] (setAlarm 0x0202 0 true
        { s with compass.selected := none, compass.switchTo := none, compass.stepLeft := 0 })
    else { s with compass.switchTo := none }

theorem selectSource_eq (pairs : List (Nat × Nat)) (s : State) :
    selectSource pairs s = pickSource pairs (releaseForced s) := rfl

theorem pickSource_leaves (pairs : List (Nat × Nat)) (s : State) (x : Nat) (hx : x < 1048576) :
    source (pickSource pairs s) x = source s x ∧
    counter .disqualified x (pickSource pairs s) = counter .disqualified x s := by
  unfold pickSource
  split
  · exact ⟨rfl, rfl⟩
  · split
    · exact ⟨rfl, counter_raise_of_lt _ _ _ _ _ (by decide) hx⟩
    · exact ⟨rfl, rfl⟩

theorem selectSource_leaves (pairs : List (Nat × Nat)) (s : State) (x : Nat) (hx : x < 1048576) :
    source (selectSource pairs s) x = source s x ∧
    counter .disqualified x (selectSource pairs s) = counter .disqualified x s := by
  obtain ⟨hsrc, hctr, -⟩ := releaseForced_leaves s
  obtain ⟨hpick, hpickn⟩ := pickSource_leaves pairs (releaseForced s) x hx
  rw [selectSource_eq, hpick, hpickn, hsrc]
  exact ⟨rfl, congrArg (fun t => tabGet 0 t (ctrKey .disqualified x)) hctr⟩

theorem pickSource_picks (pairs : List (Nat × Nat)) (s : State) : let t := pickSource pairs s
    (∀ x, t.compass.switchTo = some x → (source t x).qualified = true ∧ t.compass.selected ≠ some x ∧
      (t.compass.forced = none → ∀ y, y < 7 → (source t y).qualified = true → (source t x).rank ≤ (source t y).rank)) ∧
    ((∀ x, x < 7 → (source t x).qualified = false) → t.compass.selected = none) := by
  intro t
  have ht : t = pickSource pairs s := rfl
  unfold pickSource at ht
  cases hc : chooseSource s pairs with
  | some y =>
    obtain ⟨hqual, hrank⟩ := chooseSource_some s pairs y hc
    rw [hc] at ht
    dsimp only at ht
    rw [ht]
    refine ⟨fun x hx => ?_, fun hno => ?_⟩
    · dsimp only at hx
      split at hx
      · exact absurd hx (by simp)
      · next hsel =>
        cases hx
        exact ⟨hqual, hsel, hrank⟩
    · exact absurd (chooseSource_none s pairs hno) (by rw [hc]; simp)
  | none =>
    rw [hc] at ht
    dsimp only at ht
    rw [ht]
    split
    · exact ⟨fun x hx => absurd hx (by simp), fun _ => rfl⟩
    · next hsel => exact ⟨fun x hx => absurd hx (by simp), fun _ => by simpa using hsel⟩

theorem trainEstimate_leaves (s : State) : (∀ x, source (trainEstimate s) x = source s x) ∧
    (trainEstimate s).counters = s.counters := by
  unfold trainEstimate
  split
  · split
    · exact ⟨fun _ => rfl, rfl⟩
    · exact ⟨fun _ => rfl, rfl⟩
  · exact ⟨fun _ => rfl, rfl⟩

/-- The verdicts of a second, which the state before them judges, in the order of the sources (R301, R302). -/
def verdictsTaken (present : BitVec 7) (u : State) : State :=
  sourceIds.foldl (fun s x => applyVerdict x (sourcePresent u present x) (verdictOut u x) s) u

theorem exec_refVerdict_selects (s : State) (hOn : s.dev.state ≠ .off) (present : BitVec 7) : ∃ pairs b,
    exec (.refVerdict present) s =
      .next (selectSource pairs { verdictsTaken present (trainEstimate s) with compass.disagree := b }) := by
  change ∃ pairs b, execRefVerdict present s = _
  rw [execRefVerdict, whenOn_of_on _ s hOn]
  simp only [List.foldl_map]
  exact ⟨_, _, rfl⟩

theorem exec_refVerdict_cases (s : State) (hOn : s.dev.state ≠ .off) (present : BitVec 7) :
    ∃ t, exec (.refVerdict present) s = .next t ∧
      (∀ x, x < 7 →
        let u := trainEstimate s
        let c := source s x
        let here := sourcePresent u present x
        let outs := if here && verdictOut u x then c.outRun + 1 else 0
        let ins := if here && !verdictOut u x then c.inRun + 1 else 0
        (source t x).qualified = (if !here || c.disabled then false
          else if c.qualified then !decide (c.q ≤ outs) else decide (c.q ≤ ins)) ∧
        counter .disqualified x t = counter .disqualified x s + bit (c.qualified && !(source t x).qualified)) ∧
      (∀ x, t.compass.switchTo = some x → (source t x).qualified = true ∧ t.compass.selected ≠ some x ∧
        (t.compass.forced = none → ∀ y, y < 7 → (source t y).qualified = true → (source t x).rank ≤ (source t y).rank)) ∧
      ((∀ x, x < 7 → (source t x).qualified = false) → t.compass.selected = none) := by
  obtain ⟨pairs, b, hdo⟩ := exec_refVerdict_selects s hOn present
  obtain ⟨hpick, hnone⟩ := pickSource_picks pairs (releaseForced { verdictsTaken present (trainEstimate s) with compass.disagree := b })
  refine ⟨_, hdo, fun x hx => ?_, hpick, hnone⟩
  have hbig : x < 1048576 := by omega
  obtain ⟨hsrc, hctr⟩ := trainEstimate_leaves s
  obtain ⟨hq, hn⟩ := (applyVerdicts_source (fun x => sourcePresent (trainEstimate s) present x)
    (fun x => verdictOut (trainEstimate s) x) sourceIds List.nodup_range x hbig (trainEstimate s)).1 (List.mem_range.mpr hx)
  obtain ⟨hsel, hseln⟩ := selectSource_leaves pairs { verdictsTaken present (trainEstimate s) with compass.disagree := b } x hbig
  rw [hsrc] at hq hn
  rw [hsel, hseln]
  have hctr' : counter .disqualified x (trainEstimate s) = counter .disqualified x s :=
    congrArg (fun t => tabGet 0 t (ctrKey .disqualified x)) hctr
  have hq' : (source (verdictsTaken present (trainEstimate s)) x).qualified = qualifies (sourcePresent (trainEstimate s) present x)
      (verdictOut (trainEstimate s) x) (source s x) := hq
  refine ⟨hq', ?_⟩
  rw [show (source { verdictsTaken present (trainEstimate s) with compass.disagree := b } x).qualified = _ from hq', ← hctr']
  exact hn

/-- The frames of a step: from the tick after the switch on, with those M after them, joined to those of an earlier step that still last
(R309). -/
def stepBegun (x : Nat) (step : Int) (s : State) : State :=
  let inForce := match s.compass.stepFrom with
    | some _ => decide (s.time.frame ≤ s.compass.stepTo)
    | none => false
  { s with
    compass.stepLeft := step
    compass.stepFrom := if inForce then s.compass.stepFrom else some (s.time.frame + 1 - 1)
    compass.stepTo := max (if inForce then s.compass.stepTo else 0)
      (s.time.frame + 1 + ceilDiv step.natAbs (halfGuard s) - 1 - 1 + (source s x).stepM)
    compass.stepSeen := true }

theorem stepBegun_frames (x : Nat) (step : Int) (s : State) (h : ∀ a, s.compass.stepFrom = some a → a ≤ s.time.frame) (n : Nat)
    (hlo : s.time.frame ≤ n) (hhi : n + 1 ≤ s.time.frame + ceilDiv step.natAbs (halfGuard s) + (source s x).stepM) :
    stepFrame (stepBegun x step s) n = true := by
  have hto : n ≤ s.time.frame + ceilDiv step.natAbs (halfGuard s) - 1 + (source s x).stepM := by omega
  have hone : s.time.frame + 1 + ceilDiv step.natAbs (halfGuard s) - 1 = s.time.frame + ceilDiv step.natAbs (halfGuard s) := by
    omega
  unfold stepFrame stepBegun
  rw [hone]
  cases hf : s.compass.stepFrom with
  | none => simp [hlo, hto]
  | some a =>
    have ha := h a hf
    by_cases hin : s.time.frame ≤ s.compass.stepTo
    · simp [hin, hto, ha.trans hlo]
    · simp [hin, hto, hlo]

theorem exec_referenceSwitch_none (s : State) (hOn : s.dev.state ≠ .off) (edge : Int) (h : s.compass.switchTo = none) :
    exec (.referenceSwitch edge) s = .next s := by
  change execReferenceSwitch edge s = _
  rw [execReferenceSwitch, whenOn_of_on _ s hOn, h]

theorem exec_referenceSwitch_some (s : State) (hOn : s.dev.state ≠ .off) (edge : Int) (x : Nat)
    (h : s.compass.switchTo = some x) : let step := switchStep x edge s
    let u := setAlarm 0x0202 0 false { s with compass.selected := some x, compass.switchTo := none, compass.stepLeft := 0 }
    exec (.referenceSwitch edge) s = .next (if step = 0 then u else
      raise 0x0201 2 step.natAbs [(s.compass.selected).getD 15, x, (s.time.frame + 1 : Nat),
        (s.time.frame + 1 + ceilDiv step.natAbs (halfGuard s) - 1 : Nat)] (count .steps 0 (stepBegun x step u))) := by
  intro step u
  change execReferenceSwitch edge s = _
  rw [execReferenceSwitch, whenOn_of_on _ s hOn, h]
  rfl

theorem exec_referenceSwitch_cases (s : State) (hOn : s.dev.state ≠ .off) (edge : Int) (x : Nat)
    (h : s.compass.switchTo = some x) : let step := switchStep x edge s
    (step = if hasPhase s x then edge - (source s x).inputComp else 0) ∧
    (step = 0 → exec (.referenceSwitch edge) s = .next (setAlarm 0x0202 0 false
      { s with compass.selected := some x, compass.switchTo := none, compass.stepLeft := 0 })) ∧
    (step ≠ 0 → ∃ t, exec (.referenceSwitch edge) s = .next t ∧
      t.compass.selected = some x ∧ t.compass.switchTo = none ∧ t.compass.stepLeft = step ∧
      counter .steps 0 t = counter .steps 0 s + 1 ∧
      ((∀ a, s.compass.stepFrom = some a → a ≤ s.time.frame) → ∀ n, s.time.frame ≤ n →
        n + 1 ≤ s.time.frame + ceilDiv step.natAbs (halfGuard s) + (source s x).stepM → stepFrame t n = true)) := by
  intro step
  have hdo := exec_referenceSwitch_some s hOn edge x h
  refine ⟨rfl, fun h0 => hdo.trans (congrArg _ (if_pos h0)), fun h0 =>
    ⟨_, hdo.trans (congrArg _ (if_neg h0)), rfl, rfl, rfl, ?_, fun hfrom n hlo hhi => ?_⟩⟩
  · rw [counter_raise_of_lt _ _ _ _ _ (by decide) (by decide), counter_count]
    rfl
  · exact stepBegun_frames x step _ hfrom n hlo hhi

theorem stepIncrement_bounds (s : State) : (stepIncrement s).1.natAbs ≤ halfGuard s ∧
    (stepIncrement s).1 + (stepIncrement s).2 = s.compass.stepLeft ∧
    (s.compass.stepLeft.natAbs ≤ halfGuard s → (stepIncrement s).2 = 0) := by
  simp only [stepIncrement, clampInt]
  generalize halfGuard s = h
  generalize s.compass.stepLeft = l
  (repeat' split) <;> omega

theorem filterEdge_true (k w : Nat) (s : State) (h : (filterEdge k w s).1 = true) :
    (filterEdge k w s).2 = modPin k (fun p => { p with lastAccepted := some s.time.tb2 }) s := by
  unfold filterEdge at h ⊢
  dsimp only at h ⊢
  by_cases hstuck : (pin s k).stuck = true
  · simp [hstuck] at h
  · rw [if_neg hstuck] at h ⊢
    by_cases hw : w < (pin s k).minWidth
    · simp [hw] at h
    · rw [if_neg hw] at h ⊢
      cases hla : (pin s k).lastAccepted with
      | none => rfl
      | some a =>
        rw [hla] at h
        dsimp only at h ⊢
        by_cases hlock : decide (s.time.tb2 < a + lockoutOf s k) = true
        · rw [if_pos hlock] at h
          exact absurd h (by simp)
        · rw [if_neg hlock]

theorem exec_ppsEdge (s : State) (hOn : s.dev.state ≠ .off) (b : Bool) (w : Nat) (d : Int) :
    exec (.ppsEdge b w d) s = .next (if !(filterEdge (bit b) w s).1 then (filterEdge (bit b) w s).2
      else if 16 < d.natAbs then count .ppsIncoherent (bit b) (modSource (bit b) (fun c => { c with
        incoherentRun := c.incoherentRun + 1, coherentRun := 0
        freqOnly := c.freqOnly || decide (3 ≤ c.incoherentRun + 1) }) (filterEdge (bit b) w s).2)
      else modSource (bit b) (fun c => { c with
        incoherentRun := 0, coherentRun := c.coherentRun + 1
        freqOnly := c.freqOnly && decide (c.coherentRun + 1 < 10) }) (filterEdge (bit b) w s).2) := by
  change execPpsEdge b w d s = _
  rw [execPpsEdge, whenOn_of_on _ s hOn]

theorem exec_ppsEdge_accepted (s : State) (hOn : s.dev.state ≠ .off) (b : Bool) (w : Nat) (d : Int)
    (h : (filterEdge (bit b) w s).1 = true) : ∃ t, exec (.ppsEdge b w d) s = .next t ∧
    let c := source s (bit b)
    let e := source t (bit b)
    (16 < d.natAbs → e.incoherentRun = c.incoherentRun + 1 ∧ e.coherentRun = 0 ∧
      e.freqOnly = (c.freqOnly || decide (3 ≤ c.incoherentRun + 1)) ∧
      counter .ppsIncoherent (bit b) t = counter .ppsIncoherent (bit b) s + 1) ∧
    (d.natAbs ≤ 16 → e.incoherentRun = 0 ∧ e.coherentRun = c.coherentRun + 1 ∧
      e.freqOnly = (c.freqOnly && decide (c.coherentRun + 1 < 10)) ∧
      counter .ppsIncoherent (bit b) t = counter .ppsIncoherent (bit b) s) := by
  have hsrc : source (filterEdge (bit b) w s).2 (bit b) = source s (bit b) := by rw [filterEdge_true _ _ _ h]; rfl
  have hctr : counter .ppsIncoherent (bit b) (filterEdge (bit b) w s).2 = counter .ppsIncoherent (bit b) s := by
    rw [filterEdge_true _ _ _ h]; rfl
  rw [exec_ppsEdge s hOn, if_neg (by simp [h])]
  by_cases hd : 16 < d.natAbs
  · rw [if_pos hd]
    refine ⟨_, rfl, fun _ => ?_, fun hle => absurd hd (Nat.not_lt.mpr hle)⟩
    rw [source_count, source_modSource, hsrc, counter_count, counter_modSource, hctr]
    exact ⟨rfl, rfl, rfl, rfl⟩
  · rw [if_neg hd]
    refine ⟨_, rfl, fun hlt => absurd hlt hd, fun _ => ?_⟩
    rw [source_modSource, hsrc, counter_modSource, hctr]
    exact ⟨rfl, rfl, rfl, rfl⟩

/-- Settles O43: the verdicts one by one, the selection by what is chosen, the step by its frames. -/
theorem referencesQualifyAndSwitch : Obligations.ReferencesQualifyAndSwitch := by
  unfold Obligations.ReferencesQualifyAndSwitch
  intro s hOn
  refine ⟨exec_refVerdict_cases s hOn, exec_referenceSwitch_none s hOn, exec_referenceSwitch_cases s hOn,
    stepIncrement_bounds s, fun b w d h => ?_, exec_ppsEdge_accepted s hOn⟩
  rw [exec_ppsEdge s hOn, if_pos (by simp [h])]

end Sys2Proof.Proofs
end

section
/-! TB0 seconds, PTP, the relay and the triggers (O44). -/

namespace Sys2Proof.Proofs
open Sys2Proof Sys2Proof.Machine Sys2Proof.Laws

/-! TB0 seconds (R311, R312, R316, R317). -/

theorem timingOut_modOut (k j : Nat) (f : OutCfg → OutCfg) (s : State) :
    timingOut (modOut k f s) j = if j = k then f (timingOut s j) else timingOut s j := by
  by_cases h : j = k
  · subst h
    rw [if_pos rfl, timingOut, modOut, timingOut]
    exact tabGet_tabMod_same ..
  · rw [if_neg h]
    exact tabGet_tabMod_dep _ _ _ _ h

/-- The three outputs take their next settings (R316, R317). -/
def outputsTaken (on : Bool) (s : State) : State :=
  (List.range 3).foldl (fun s k =>
    modOut k (fun o => { o with offset := o.nextOffset, width := o.nextWidth, driven := on }) s) s

theorem timingOut_outputsTaken (on : Bool) (s : State) (k : Nat) (hk : k < 3) : timingOut (outputsTaken on s) k =
    { timingOut s k with offset := (timingOut s k).nextOffset, width := (timingOut s k).nextWidth, driven := on } := by
  have hcases : k = 0 ∨ k = 1 ∨ k = 2 := by omega
  rcases hcases with rfl | rfl | rfl <;> simp [outputsTaken, List.range, List.range.loop, timingOut_modOut]

/-- A change of the outputs alone. -/
theorem modOut_touches (k : Nat) (f : OutCfg → OutCfg) (s : State) : ∃ x, modOut k f s = { s with compass.outputs := x } := ⟨_, rfl⟩

theorem outputsTaken_touches (on : Bool) (s : State) : ∃ x, outputsTaken on s = { s with compass.outputs := x } := ⟨_, rfl⟩

theorem outputsSecond_eq (s : State) : outputsSecond s =
    pulseOut 2 s.time.tb0 (pulseOut 0 s.time.tb0 (outputsTaken (s.tether.timingOut && leadsFrom s) s)) := rfl

theorem outputsSecond_touches (s : State) : ∃ x, outputsSecond s = { s with compass.outputs := x } := by
  rw [outputsSecond_eq]
  obtain ⟨x, hx⟩ := outputsTaken_touches (s.tether.timingOut && leadsFrom s) s
  rw [hx]
  exact ⟨_, rfl⟩

theorem timingOut_outputsSecond (s : State) (k : Nat) (hk : k < 3) : let o := timingOut (outputsSecond s) k
    o.offset = (timingOut s k).nextOffset ∧ o.width = (timingOut s k).nextWidth ∧
    o.driven = (s.tether.timingOut && leadsFrom s) ∧
    (k = 0 ∨ k = 2 → o.driven = true → o.pulse = some (8 * (s.time.tb0 : Int) + o.offset, o.width)) := by
  intro o
  have ho : o = timingOut (outputsSecond s) k := rfl
  rw [outputsSecond_eq, pulseOut, pulseOut, timingOut_modOut, timingOut_modOut, timingOut_outputsTaken _ s k hk] at ho
  generalize (s.tether.timingOut && leadsFrom s) = on at *
  have hcases : k = 0 ∨ k = 1 ∨ k = 2 := by omega
  rw [ho]
  rcases hcases with rfl | rfl | rfl
  all_goals cases on <;> simp

theorem takePhases_touches (l : List (Nat × Int)) (s : State) : ∃ x y, takePhases l s =
    { s with compass.sources := x, compass.resonator := y } := by
  have hfold : ∀ (ids : List Nat) (f : Nat → Source → Source) (u : State),
      ∃ x, ids.foldl (fun u x => modSource x (f x) u) u = { u with compass.sources := x } := by
    intro ids f
    induction ids with
    | nil => exact fun u => ⟨_, rfl⟩
    | cons i ids ih =>
      intro u
      obtain ⟨x, hx⟩ := ih (modSource i (f i) u)
      exact ⟨x, hx⟩
  obtain ⟨x, hx⟩ := hfold sourceIds (fun x c =>
    { c with phases := addPhase ((l.find? (fun e => e.1 = x)).map (·.2)) c.phases })
    { s with compass.resonator := addPhase ((l.find? (fun e => e.1 = 15)).map (·.2)) s.compass.resonator }
  exact ⟨x, _, hx⟩

/-- At a second boundary each channel counts its uncorrectable codewords anew (R338). -/
def newSecond (s : State) : State :=
  (List.range 12).foldl (fun s c => modDram c (fun d => { d with ueSecond := 0 }) s) s

theorem newSecond_touches (s : State) : ∃ x, newSecond s = { s with dram.chans := x } := by
  have hfold : ∀ (l : List Nat) (u : State),
      ∃ x, l.foldl (fun s c => modDram c (fun d => { d with ueSecond := 0 }) s) u = { u with dram.chans := x } := by
    intro l
    induction l with
    | nil => exact fun u => ⟨_, rfl⟩
    | cons i l ih =>
      intro u
      obtain ⟨x, hx⟩ := ih (modDram i (fun d => { d with ueSecond := 0 }) u)
      exact ⟨x, hx⟩
  exact hfold _ s

/-- The state in which the outputs of a second boundary are set: time has moved, a value has been loaded and slew taken (R311, R312). -/
def secondBegun (l : List (Nat × Int)) (s : State) : State :=
  { slewTb0 (loadTb0 (takePhases l (elapse ((1000000000 - s.time.tb0 % 1000000000) % 1000000000) s))) with
    lanes.controlSent := [] }

theorem exec_tb0Second (s : State) (hOn : s.dev.state ≠ .off) (l : List (Nat × Int)) : exec (.tb0Second l) s =
    .next (checkpointSecond (offsetsSecond (slewPtp (newSecond (outputsSecond (secondBegun l s)))))) := by
  change execTb0Second l s = _
  rw [execTb0Second, whenOn_of_on _ s hOn]
  rfl

/-- What the rest of a second boundary leaves as the outputs found it. -/
theorem second_keeps (w : State) : let t := checkpointSecond (offsetsSecond (slewPtp (newSecond (outputsSecond w))))
    t.time.tb0 = w.time.tb0 ∧ t.time.frame = w.time.frame ∧ t.time.tb0Load = w.time.tb0Load ∧
    t.time.slewLeft = w.time.slewLeft ∧ t.time.period = w.time.period ∧
    t.twin.paired = w.twin.paired ∧ t.twin.lead = w.twin.lead ∧ t.twin.duties = w.twin.duties ∧
    t.twin.handoverAt = w.twin.handoverAt ∧ t.twin.reclaimAt = w.twin.reclaimAt ∧ t.twin.reclaimAcked = w.twin.reclaimAcked ∧
    t.twin.pinEdges = w.twin.pinEdges ∧ t.twin.linkHeard = w.twin.linkHeard ∧
    (∀ k, timingOut t k = timingOut (outputsSecond w) k) := by
  intro t
  have ht : t = checkpointSecond (offsetsSecond (slewPtp (newSecond (outputsSecond w)))) := rfl
  obtain ⟨o, ho⟩ := outputsSecond_touches w
  rw [ho] at ht ⊢
  obtain ⟨d, hd⟩ := newSecond_touches { w with compass.outputs := o }
  rw [hd] at ht
  rw [ht, checkpointSecond]
  split
  · obtain ⟨x, n, c, m, hs⟩ := sendCheckpoint_touches
      (offsetsSecond (slewPtp { w with compass.outputs := o, dram.chans := d }))
    rw [hs]
    exact ⟨rfl, rfl, rfl, rfl, rfl, rfl, rfl, rfl, rfl, rfl, rfl, rfl, rfl, fun _ => rfl⟩
  · exact ⟨rfl, rfl, rfl, rfl, rfl, rfl, rfl, rfl, rfl, rfl, rfl, rfl, rfl, fun _ => rfl⟩

theorem slew_takes (l : Int) (r : Nat) : (l - clampInt (-(r : Int)) r l).natAbs = l.natAbs - r := by
  unfold clampInt
  (repeat' split) <;> omega

/-- What the move to a second boundary does to time; nothing else that the outputs rest on changes. -/
theorem secondBegun_time (l : List (Nat × Int)) (s : State) : let w := secondBegun l s
    (s.time.tb0Load = none → w.time.tb0 % 1000000000 = 0 ∧ s.time.tb0 ≤ w.time.tb0 ∧
      w.time.tb0 < s.time.tb0 + 1000000000 ∧ w.time.frame = s.time.frame) ∧
    (∀ v, s.time.tb0Load = some v → w.time.tb0 = v ∧ w.time.frame = v / periodNs s ∧ w.time.tb0Load = none) ∧
    w.time.slewLeft.natAbs = s.time.slewLeft.natAbs - s.time.slewRate ∧
    w.tether = s.tether ∧ w.twin = s.twin ∧ ∀ k, timingOut w k = timingOut s k := by
  intro w
  have hw : w = secondBegun l s := rfl
  obtain ⟨x, y, htake⟩ := takePhases_touches l (elapse ((1000000000 - s.time.tb0 % 1000000000) % 1000000000) s)
  rw [secondBegun, htake] at hw
  unfold loadTb0 at hw
  cases hload : s.time.tb0Load with
  | none =>
    have hw' : w = { slewTb0 { elapse ((1000000000 - s.time.tb0 % 1000000000) % 1000000000) s with
        compass.sources := x, compass.resonator := y } with lanes.controlSent := [] } := by
      rw [hw]
      simp only [elapse, hload]
    rw [hw']
    refine ⟨fun _ => ?_, fun v hv => absurd hv (by simp), slew_takes _ _, rfl, rfl, fun _ => rfl⟩
    simp only [slewTb0, elapse]
    refine ⟨?_, ?_, ?_, trivial⟩ <;> omega
  | some v =>
    have hw' : w = { slewTb0 { elapse ((1000000000 - s.time.tb0 % 1000000000) % 1000000000) s with
        compass.sources := x, compass.resonator := y, time.tb0 := v, time.tb0Frac := 0, time.frame := v / periodNs s
        time.inGuard := false, time.ended := false, time.tb0Load := none } with lanes.controlSent := [] } := by
      rw [hw]
      simp only [elapse, hload, periodNs]
    rw [hw']
    exact ⟨fun h => absurd h (by simp), fun u hu => by cases hu; exact ⟨rfl, rfl, rfl⟩, slew_takes _ _, rfl, rfl, fun _ => rfl⟩

/-- Who drives the outputs depends on the roles, TB0 and the frame alone. -/
theorem leadsFrom_congr {s t : State} (htb : t.time.tb0 = s.time.tb0) (hper : t.time.period = s.time.period)
    (hp : t.twin.paired = s.twin.paired) (hl : t.twin.lead = s.twin.lead) (hd : t.twin.duties = s.twin.duties)
    (hh : t.twin.handoverAt = s.twin.handoverAt) (hr : t.twin.reclaimAt = s.twin.reclaimAt)
    (ha : t.twin.reclaimAcked = s.twin.reclaimAcked) (he : t.twin.pinEdges = s.twin.pinEdges)
    (hk : t.twin.linkHeard = s.twin.linkHeard) : leadsFrom t = leadsFrom s := by
  unfold leadsFrom periodNs
  dsimp only
  rw [htb, hper, hp, hl, hd, hh, hr, ha, he, hk]

theorem leadsFrom_cases (t : State) :
    ((∀ h, t.twin.handoverAt = some h ∨ t.twin.reclaimAt = some h → t.time.tb0 < h * periodNs t) →
      leadsFrom t = leadOrAlone t) ∧
    (∀ h, t.twin.paired = true → t.twin.handoverAt = some h → h * periodNs t ≤ t.time.tb0 → leadsFrom t = !t.twin.lead) ∧
    (∀ h, t.twin.paired = true → t.twin.handoverAt = none → t.twin.reclaimAt = some h → h * periodNs t ≤ t.time.tb0 →
      t.twin.linkHeard = true → leadsFrom t = (!t.twin.lead && t.twin.reclaimAcked)) := by
  refine ⟨fun hdue => ?_, fun h hp hh hle => ?_, fun h hp hh hr hle hk => ?_⟩
  · have hnone : ∀ o : Option Nat, (∀ h, o = some h → t.time.tb0 < h * periodNs t) →
        o.any (fun h => decide (h * periodNs t ≤ t.time.tb0)) = false := by
      intro o ho
      cases o with
      | none => rfl
      | some h => simpa using ho h rfl
    simp only [leadsFrom, leadOrAlone, hnone _ (fun h hh => hdue h (.inl hh)), hnone _ (fun h hh => hdue h (.inr hh))]
    rfl
  · simp [leadsFrom, hp, hh, hle]
  · simp [leadsFrom, hp, hh, hr, hle, hk]

theorem exec_tb0Second_cases (s : State) (hOn : s.dev.state ≠ .off) (l : List (Nat × Int)) :
    ∃ t, exec (.tb0Second l) s = .next t ∧
      (s.time.tb0Load = none → t.time.tb0 % 1000000000 = 0 ∧ s.time.tb0 ≤ t.time.tb0 ∧
        t.time.tb0 < s.time.tb0 + 1000000000 ∧ t.time.frame = s.time.frame) ∧
      (∀ v, s.time.tb0Load = some v → t.time.tb0 = v ∧ t.time.frame = v / periodNs s ∧ t.time.tb0Load = none) ∧
      t.time.slewLeft.natAbs = s.time.slewLeft.natAbs - s.time.slewRate ∧
      (∀ k, k < 3 → (timingOut t k).offset = (timingOut s k).nextOffset ∧ (timingOut t k).width = (timingOut s k).nextWidth ∧
        (timingOut t k).driven = (s.tether.timingOut && leadsFrom t)) ∧
      t.twin.lead = s.twin.lead ∧ t.twin.handoverAt = s.twin.handoverAt ∧ t.twin.reclaimAt = s.twin.reclaimAt ∧
      ((∀ h, s.twin.handoverAt = some h ∨ s.twin.reclaimAt = some h → t.time.tb0 < h * periodNs t) →
        leadsFrom t = leadOrAlone s) ∧
      (∀ h, s.twin.paired = true → s.twin.handoverAt = some h → h * periodNs t ≤ t.time.tb0 → leadsFrom t = !s.twin.lead) ∧
      (∀ h, s.twin.paired = true → s.twin.handoverAt = none → s.twin.reclaimAt = some h → h * periodNs t ≤ t.time.tb0 →
        s.twin.linkHeard = true → leadsFrom t = (!s.twin.lead && s.twin.reclaimAcked)) ∧
      (∀ k, k = 0 ∨ k = 2 → (timingOut t k).driven = true →
        (timingOut t k).pulse = some (8 * (t.time.tb0 : Int) + (timingOut t k).offset, (timingOut t k).width)) := by
  obtain ⟨hnext, hload, hslew, htether, htwin, hout⟩ := secondBegun_time l s
  have hkeeps := second_keeps (secondBegun l s)
  have hdo := exec_tb0Second s hOn l
  generalize secondBegun l s = w at *
  generalize checkpointSecond (offsetsSecond (slewPtp (newSecond (outputsSecond w)))) = t at *
  obtain ⟨htb, hframe, hcleared, hleft, hper, hp, hl, hd, hh, hr, ha, he, hk, hpulse⟩ := hkeeps
  have hleads : leadsFrom t = leadsFrom w := leadsFrom_congr htb hper hp hl hd hh hr ha he hk
  have halone : leadOrAlone t = leadOrAlone s := by simp only [leadOrAlone, hp, hl, hd, htwin]
  obtain ⟨hlead, hhand, hrecl⟩ := leadsFrom_cases t
  simp only [halone, hp, hl, hh, hr, ha, hk, htwin] at hlead hhand hrecl
  refine ⟨t, hdo, ?_, ?_, hleft ▸ hslew, fun k hk3 => ?_, by rw [hl, htwin], by rw [hh, htwin], by rw [hr, htwin], hlead, hhand, hrecl, fun k hk hdriven => ?_⟩
  · rw [htb, hframe]
    exact hnext
  · rw [htb, hframe, hcleared]
    exact hload
  · obtain ⟨hoff, hwid, hdr, -⟩ := timingOut_outputsSecond w k hk3
    rw [hpulse, hoff, hwid, hdr, htether, hout, hleads]
    exact ⟨rfl, rfl, rfl⟩
  · obtain ⟨-, -, -, hfires⟩ := timingOut_outputsSecond w k (by omega)
    rw [hpulse] at hdriven ⊢
    rw [htb]
    exact hfires hk hdriven

/-! PTP (R313). -/

theorem exec_ptpAnnounceTimeout_cases (s : State) (hOn : s.dev.state ≠ .off) :
    (s.compass.ptpQuad = none → exec .ptpAnnounceTimeout s = .next s) ∧
    (∀ k, s.compass.ptpQuad = some k → exec .ptpAnnounceTimeout s =
      .next { elapseTo (s.compass.ptpLast + s.compass.ptpTimeout * s.compass.ptpInterval) s with
        compass.ptpMaster := none, compass.ptpFreerun := true }) := by
  change (_ → execPtpAnnounceTimeout s = _) ∧ (∀ k, _ → execPtpAnnounceTimeout s = _)
  rw [execPtpAnnounceTimeout, whenOn_of_on _ s hOn]
  exact ⟨fun h => congrArg _ (if_pos (by simp [h])), fun k h => congrArg _ (if_neg (by simp [h]))⟩

theorem exec_ptpMessage_unheard (s : State) (hOn : s.dev.state ≠ .off) (k : BitVec 5) (d : Nat) (m : PtpMessage)
    (h : s.compass.ptpQuad ≠ some k.toNat ∨ d ≠ s.compass.ptpDomain) : exec (.ptpMessageReceive k d m) s = .next s := by
  change execPtpMessageReceive k d m s = _
  rw [execPtpMessageReceive, whenOn_of_on _ s hOn]
  refine congrArg _ (if_neg ?_)
  simpa [ptpHears, imp_iff_not_or] using h

theorem exec_ptpMessage_heard (s : State) (hOn : s.dev.state ≠ .off) (k : BitVec 5) (d : Nat) (m : PtpMessage)
    (hk : s.compass.ptpQuad = some k.toNat) (hd : d = s.compass.ptpDomain) :
    exec (.ptpMessageReceive k d m) s = .next (ptpReceive m s) := by
  change execPtpMessageReceive k d m s = _
  rw [execPtpMessageReceive, whenOn_of_on _ s hOn]
  exact congrArg _ (if_pos (by simp [ptpHears, hk, hd]))

theorem ptpFollows_iff (s : State) (g : Nat) :
    ptpFollows s g = true ↔ ∃ x, s.compass.ptpMaster = some x ∧ x.identity = g := by
  simp [ptpFollows]

theorem ptpReceive_announce (s : State) (x : PtpDataset) (i : Nat) :
    let heard := { s with compass.ptpLast := s.time.tb2, compass.ptpFreerun := false }
    let follows := ∃ y, s.compass.ptpMaster = some y ∧ y.identity = x.identity
    let better := ∀ y, s.compass.ptpMaster = some y → y.identity = x.identity ∨ betterMaster x y = true
    let taken := { heard with compass.ptpMaster := some x, compass.ptpInterval := i }
    (better → follows → ptpReceive (.announce x i) s = taken) ∧
    (better → ¬follows → ptpReceive (.announce x i) s = { taken with
      compass.ptpDelay := none, compass.ptpRaw := none, compass.ptpPending := none, compass.ptpReq := none }) ∧
    (¬better → ptpReceive (.announce x i) s = heard) := by
  intro heard follows better taken
  unfold ptpReceive
  dsimp only
  cases hm : s.compass.ptpMaster with
  | none =>
    refine ⟨fun _ ⟨y, hy, _⟩ => absurd (hm.symm.trans hy) (by simp), fun _ _ => rfl, fun hb => absurd (fun y hy => ?_) hb⟩
    exact absurd (hm.symm.trans hy) (by simp)
  | some y =>
    have hworse : (!(decide (y.identity = x.identity) || betterMaster x y)) = true ↔ ¬better := by
      simp [better, hm]
    have hother : Option.map (·.identity) (some y) ≠ some x.identity ↔ ¬follows := by simp [follows, hm]
    refine ⟨fun hb hf => ?_, fun hb hf => ?_, fun hb => ?_⟩
    · exact (if_neg (fun hc => hworse.mp hc hb)).trans (if_neg (fun hc => hother.mp hc hf))
    · exact (if_neg (fun hc => hworse.mp hc hb)).trans (if_pos (hother.mpr hf))
    · refine (if_pos (hworse.mpr hb)).trans ?_
      rw [← hm]

theorem ptpReceive_unfollowed (s : State) (g : Nat) (h : ¬∃ x, s.compass.ptpMaster = some x ∧ x.identity = g) :
    (∀ o, ptpReceive (.sync g o) s = s) ∧ (∀ o, ptpReceive (.followUp g o) s = s) ∧
    (∀ n o, ptpReceive (.delayResp g n o) s = s) := by
  have hf : ptpFollows s g = false := by simpa only [← ptpFollows_iff, Bool.not_eq_true] using h
  refine ⟨fun o => ?_, fun o => ?_, fun n o => ?_⟩
  · exact if_pos (by simp [hf])
  · simp only [ptpReceive, hf]
    split <;> rfl
  · simp only [ptpReceive, hf]
    split <;> rfl

theorem ptpReceive_followed (s : State) (g : Nat) (h : ∃ x, s.compass.ptpMaster = some x ∧ x.identity = g) :
    (∀ o, ptpReceive (.sync g (some o)) s = ptpMeasure o s.time.tb1 s) ∧
    ptpReceive (.sync g none) s = { s with compass.ptpPending := some s.time.tb1 } ∧
    (∀ o, s.compass.ptpPending = none → ptpReceive (.followUp g o) s = s) ∧
    (∀ o a, s.compass.ptpPending = some a → ptpReceive (.followUp g o) s = ptpMeasure o a s) ∧
    (∀ n o, (s.compass.ptpRaw = none ∨ ∀ a, s.compass.ptpReq ≠ some (n, a)) → ptpReceive (.delayResp g n o) s = s) ∧
    (∀ n o a r, s.compass.ptpRaw = some r → s.compass.ptpReq = some (n, a) →
      ptpReceive (.delayResp g n o) s = ptpDelayed a o r s) := by
  have hf : ptpFollows s g = true := (ptpFollows_iff s g).mpr h
  refine ⟨fun o => if_neg (by simp [hf]), if_neg (by simp [hf]), fun o hp => ?_, fun o a hp => ?_, fun n o hno => ?_,
    fun n o a r hr hq => ?_⟩
  · simp only [ptpReceive, hp]
  · simp only [ptpReceive, hp, hf, if_true]
  · unfold ptpReceive
    dsimp only
    split
    · next m a r hq hr =>
      refine if_neg (fun hc => ?_)
      rw [Bool.and_eq_true, decide_eq_true_eq] at hc
      refine hno.elim (fun hn => ?_) (fun hn => hn a (by rw [hq, hc.2]))
      exact absurd (hn.symm.trans hr) (by simp)
    · rfl
  · simp [ptpReceive, hr, hq, hf]

theorem ptpDelayed_cases (s : State) (o : Int) (a : Nat) (r : Int) :
    let u := { s with compass.ptpReq := none, compass.ptpDelay := some ((o - a - r).fdiv 2) }
    let offset := (r + (o - a)).fdiv 2
    (s.compass.ptpEverLocked = true → ptpDelayed a o r s = { u with compass.ptpOffset := offset }) ∧
    (s.compass.ptpEverLocked = false → ptpDelayed a o r s =
      { u with time.tb1 := ((s.time.tb1 : Int) + offset).toNat, compass.ptpOffset := 0
               compass.ptpRaw := none, compass.ptpEverLocked := true }) :=
  ⟨fun h => if_pos h, fun h => if_neg (by simp [h])⟩

/-! The relay (R318 to R320). -/

theorem exec_ptpRelay (s : State) (hOn : s.dev.state ≠ .off) (b : Bool) (f : RelayFrame) :
    exec (.ptpRelayFrame b f) s = .next (relayFrame b f s) := whenOn_of_on (relayFrame b f) s hOn

theorem relayFrame_none (s : State) (b : Bool) (f : RelayFrame) (h : s.compass.relay = none ∨ ptpPlace f.bytes = none ∨
    leadOrAlone s = false ∨ ∃ x y, s.compass.relay = some (x, y) ∧ (quadEnabled s x && quadEnabled s y) = false) :
    relayFrame b f s = s := by
  unfold relayFrame
  split
  · next x y p hr hp =>
    refine if_pos ?_
    rcases h with h | h | h | ⟨x', y', h, he⟩
    · exact absurd (h.symm.trans hr) (by simp)
    · exact absurd (h.symm.trans hp) (by simp)
    · simp [h]
    · obtain ⟨rfl, rfl⟩ := Prod.mk.inj (Option.some.inj (h.symm.trans hr))
      simp [he]
  · rfl

theorem relayFrame_cases (s : State) (b : Bool) (f : RelayFrame) (x y p : Nat) (hr : s.compass.relay = some (x, y))
    (hp : ptpPlace f.bytes = some p) (hl : leadOrAlone s = true) (hx : quadEnabled s x = true) (hy : quadEnabled s y = true) :
    let dst := if b then x else y
    let kind := ptpKind (u8 f.bytes p % 16)
    let out := if kind = .sync ∨ kind = .delayReq then corrected p (f.egress - f.ingress) f.bytes else f.bytes
    (kind = .peerDelay → relayFrame b f s = count .pdelayDropped 0 s) ∧
    (kind ≠ .peerDelay → s.tether.controlRate ≤ tabGet 0 s.lanes.controlSent dst →
      relayFrame b f s = count .relayLimited 0 s) ∧
    (kind ≠ .peerDelay → tabGet 0 s.lanes.controlSent dst < s.tether.controlRate → relayFrame b f s =
      { ethSend dst out s with compass.relaySent := some (!b, out), lanes.controlSent := tabMod 0 s.lanes.controlSent dst (· + 1) }) := by
  intro dst kind out
  have hruns : ¬(!leadOrAlone s || !(quadEnabled s x && quadEnabled s y)) = true := by simp [hl, hx, hy]
  have hdo : relayFrame b f s = if kind = .peerDelay then count .pdelayDropped 0 s
      else if s.tether.controlRate ≤ tabGet 0 s.lanes.controlSent dst then count .relayLimited 0 s
      else { ethSend dst out s with
        compass.relaySent := some (!b, out), lanes.controlSent := tabMod 0 s.lanes.controlSent dst (· + 1) } := by
    unfold relayFrame
    rw [hr, hp]
    exact if_neg hruns
  rw [hdo]
  exact ⟨fun h => if_pos h, fun h hle => (if_neg h).trans (if_pos hle), fun h hlt => (if_neg h).trans (if_neg (Nat.not_le.mpr hlt))⟩

/-! Triggers (R321 to R323). -/

/-- The trigger that has fired is armed for its next whole period after its armed time, or disarmed (R322). -/
def nextTrigger (now : Nat) (x : Trigger) : Option Trigger :=
  if x.period = 0 then none else some { x with time := x.armed + ((now - x.armed) / x.period + 1) * x.period }

/-- The action of a trigger (R323). -/
def triggerAction (k : Nat) (late : Bool) (x : Trigger) (s : State) : State :=
  match x.action with
  | .event => raiseOpen false 2 2 k [bit late, x.time] s
  | .adc => injectStart 1 none s
  | .fan => { s with health.fanDue := s.health.fanDue + 1 }
  | .commit => s

theorem exec_trigger_idle (s : State) (hOn : s.dev.state ≠ .off) (k : BitVec 4) : (trigger s k.toNat = none → exec (.timeTriggerFire k) s = .next s) ∧
    (∀ (x : Trigger), trigger s k.toNat = some x → trigTurn s k.toNat x = false → exec (.timeTriggerFire k) s = .next s) := by
  change (_ → execTimeTriggerFire k s = _) ∧ (∀ x, _ → _ → execTimeTriggerFire k s = _)
  rw [execTimeTriggerFire, whenOn_of_on _ s hOn]
  refine ⟨fun h => by rw [h], fun x h ht => ?_⟩
  rw [h]
  exact congrArg _ (if_pos (by simp [ht]))

theorem exec_trigger_fires (s : State) (hOn : s.dev.state ≠ .off) (k : BitVec 4) (x : Trigger)
    (h : trigger s k.toNat = some x) (ht : trigTurn s k.toNat x = true) : let u := elapse (trigWait s x) s
    exec (.timeTriggerFire k) s = .next (triggerAction k.toNat (!x.onTb2 && decide (x.time < s.time.tb0)) x
      (setTrigger k.toNat (nextTrigger (trigBase u x.onTb2) x) u)) := by
  intro u
  change execTimeTriggerFire k s = _
  rw [execTimeTriggerFire, whenOn_of_on _ s hOn, h]
  exact congrArg _ (if_neg (by simp [ht]))

theorem injectStart_touches (kind : Nat) (only : Option Nat) (s : State) :
    ∃ x, injectStart kind only s = { s with health.injects := x } := by
  have hfold : ∀ (l : List Nat) (u : State), ∃ x, l.foldl (fun s e =>
      modInject e (fun x => { x with due := insertNat (s.time.tb2 + x.delay) x.due }) s) u = { u with health.injects := x } := by
    intro l
    induction l with
    | nil => exact fun u => ⟨_, rfl⟩
    | cons i l ih =>
      intro u
      obtain ⟨x, hx⟩ := ih (modInject i (fun x => { x with due := insertNat (u.time.tb2 + x.delay) x.due }) u)
      exact ⟨x, hx⟩
  exact hfold _ s

/-- An action leaves time and the triggers, and of the fans' steps alone the one it adds. -/
theorem triggerAction_leaves (k : Nat) (late : Bool) (x : Trigger) (s : State) : (triggerAction k late x s).time = s.time ∧
    (triggerAction k late x s).compass = s.compass ∧
    (x.action = .fan → (triggerAction k late x s).health.fanDue = s.health.fanDue + 1) := by
  unfold triggerAction
  cases x.action with
  | event => exact ⟨rfl, rfl, fun h => absurd h (by simp)⟩
  | adc =>
    obtain ⟨y, hy⟩ := injectStart_touches 1 none s
    dsimp only
    rw [hy]
    exact ⟨rfl, rfl, fun h => absurd h (by simp)⟩
  | fan => exact ⟨rfl, rfl, fun _ => rfl⟩
  | commit => exact ⟨rfl, rfl, fun h => absurd h (by simp)⟩

theorem trigBase_elapse (s : State) (x : Trigger) :
    trigBase (elapse (trigWait s x) s) x.onTb2 = max (trigBase s x.onTb2) x.time := by
  cases h : x.onTb2 <;> simp only [trigWait, trigBase, elapse, h] <;> simp <;> omega

theorem next_period (armed period now : Nat) (h : 0 < period) : now < armed + ((now - armed) / period + 1) * period := by
  have hdiv := Nat.div_add_mod (now - armed) period
  have hmod := Nat.mod_lt (now - armed) h
  rw [Nat.add_mul, Nat.one_mul, Nat.mul_comm]
  omega

theorem trigBase_triggerAction (k : Nat) (late : Bool) (x : Trigger) (s : State) (b : Bool) :
    trigBase (triggerAction k late x s) b = trigBase s b := by
  unfold trigBase
  rw [(triggerAction_leaves k late x s).1]

theorem exec_trigger_cases (s : State) (hOn : s.dev.state ≠ .off) (k : BitVec 4) (x : Trigger)
    (h : trigger s k.toNat = some x) (ht : trigTurn s k.toNat x = true) :
    ∃ t, exec (.timeTriggerFire k) s = .next t ∧
      trigBase t x.onTb2 = max (trigBase s x.onTb2) x.time ∧ (x.period = 0 → trigger t k.toNat = none) ∧
      (0 < x.period → ∃ (y : Trigger) (n : Nat), trigger t k.toNat = some y ∧ y.time = x.armed + n * x.period ∧
        max (trigBase s x.onTb2) x.time < y.time ∧ y.armed = x.armed) ∧
      (x.action = .fan → t.health.fanDue = s.health.fanDue + 1) := by
  refine ⟨_, exec_trigger_fires s hOn k x h ht, ?_⟩
  obtain ⟨-, hcomp, hfan⟩ := triggerAction_leaves k.toNat (!x.onTb2 && decide (x.time < s.time.tb0)) x
    (setTrigger k.toNat (nextTrigger (trigBase (elapse (trigWait s x) s) x.onTb2) x) (elapse (trigWait s x) s))
  have hbase := trigBase_elapse s x
  rw [hbase] at hcomp hfan ⊢
  have hnext : ∀ t : State, t.compass = (setTrigger k.toNat (nextTrigger (max (trigBase s x.onTb2) x.time) x)
      (elapse (trigWait s x) s)).compass → trigger t k.toNat = nextTrigger (max (trigBase s x.onTb2) x.time) x :=
    fun t hc => by
      unfold trigger
      rw [hc]
      exact trigger_setTrigger ..
  refine ⟨?_, fun hp => ?_, fun hp => ?_, hfan⟩
  · exact (trigBase_triggerAction ..).trans hbase
  · rw [hnext _ hcomp]
    exact if_pos hp
  · rw [hnext _ hcomp]
    exact ⟨_, (max (trigBase s x.onTb2) x.time - x.armed) / x.period + 1, if_neg (by omega), rfl, next_period _ _ _ hp, rfl⟩

/-- Settles O44: the second boundary by what its outputs rest on, PTP, the relay and the triggers case by case. -/
theorem secondsTimeBasesAndTriggers : Obligations.SecondsTimeBasesAndTriggers := by
  unfold Obligations.SecondsTimeBasesAndTriggers
  intro s hOn
  obtain ⟨hnoQuad, hquad⟩ := exec_ptpAnnounceTimeout_cases s hOn
  refine ⟨exec_tb0Second_cases s hOn, hnoQuad, hquad, exec_ptpMessage_unheard s hOn, fun k d hk hd => ?_, fun o a => ?_,
    fun b f h => (exec_ptpRelay s hOn b f).trans (congrArg _ (relayFrame_none s b f h)), fun b f x y p hr hp hl hx hy => ?_,
    fun k => (exec_trigger_idle s hOn k).1, fun k => (exec_trigger_idle s hOn k).2, exec_trigger_cases s hOn,
    whenOn_of_on (fun s => { s with time.tb3Mirror := s.time.tb3 }) s hOn⟩
  · simp only [exec_ptpMessage_heard s hOn k d _ hk hd, Host.Outcome.next.injEq]
    refine ⟨ptpReceive_announce s, ptpReceive_unfollowed s, fun g h => ?_⟩
    obtain ⟨hsync, htwo, hlost, hfollow, hother, hresp⟩ := ptpReceive_followed s g h
    refine ⟨hsync, htwo, hlost, hfollow, hother, fun n o a r hr hq => ?_⟩
    rw [hresp n o a r hr hq]
    exact ptpDelayed_cases s o a r
  · refine ⟨rfl, rfl, rfl, fun d h => ?_, fun h => ?_⟩
    · simp only [ptpMeasure, h]
    · simp only [ptpMeasure, h]
  · simp only [exec_ptpRelay s hOn, Host.Outcome.next.injEq]
    exact relayFrame_cases s b f x y p hr hp hl hx hy

end Sys2Proof.Proofs
end

section
/-! SUPPORT. What the requests of the DRAM controllers leave of the channels (R336 to R338): their use, and counters of other kinds. -/

namespace Sys2Proof.Laws
open Sys2Proof Sys2Proof.Machine

theorem counter_countN_of_ne {c d : Ctr} {i j : Nat} (n : Nat) (s : State) (h : c.ctorIdx ≠ d.ctorIdx) (hi : i < 1048576)
    (hj : j < 1048576) : counter c i (countN d j n s) = counter c i s :=
  have hkey : ctrKey c i ≠ ctrKey d j := by unfold ctrKey; omega
  tabGet_tabMod_ne 0 s.counters (· + n) hkey

theorem counter_count_inst {c d : Ctr} {i j : Nat} (s : State) (h : c.ctorIdx ≠ d.ctorIdx) (hi : i < 1048576)
    (hj : j < 1048576) : counter c i (count d j s) = counter c i s := counter_countN_of_ne 1 s h hi hj

theorem counter_count_key (c : Ctr) {i j : Nat} (h : i ≠ j) (s : State) : counter c i (count c j s) = counter c i s :=
  have hkey : ctrKey c i ≠ ctrKey c j := by unfold ctrKey; omega
  tabGet_tabMod_ne 0 s.counters (· + 1) hkey

/-! Channels and addresses. -/

/-- What a channel in use is known by. -/
def chanUse (d : DramCh) : Bool × Bool × Nat × Bool × Bool := (d.trained, d.excluded, d.capGiB, d.lost, d.eyeLow)

theorem chansInUse_congr {s t : State} (h : ∀ c, chanUse (dramCh t c) = chanUse (dramCh s c)) : chansInUse t = chansInUse s := by
  unfold chansInUse
  congr 1
  funext c
  obtain ⟨ht, he, hg, -, -⟩ : _ ∧ _ ∧ _ ∧ _ ∧ _ := by simpa [chanUse] using h c
  dsimp only
  rw [ht, he, hg]

theorem mem_chansInUse {s : State} {e : Nat × Nat} (h : e ∈ chansInUse s) : e.1 < 12 ∧ (dramCh s e.1).trained = true := by
  obtain ⟨c, hc, he⟩ := List.mem_filterMap.mp h
  dsimp only at he
  split at he
  · next hin =>
    cases he
    simp only [Bool.and_eq_true] at hin
    exact ⟨List.mem_range.mp hc, hin.1.1⟩
  · exact absurd he (by simp)

theorem dramMap_channel {s : State} {a c loc : Nat} (h : dramMap s a = some (c, loc)) : c < 12 := by
  obtain ⟨e, -, he, hx⟩ := mapAddr_eq_some h
  obtain ⟨-, x, hx', hc, -⟩ := mem_interleave he
  have hlt := (mem_chansInUse hx').1
  have hce : c = e.1 := (Prod.mk.inj hx).1
  omega

theorem dramMap_congr {s t : State} (h : ∀ c, chanUse (dramCh t c) = chanUse (dramCh s c)) (a : Nat) :
    dramMap t a = dramMap s a := by
  simp only [dramMap, chansInUse_congr h]

/-! An access to a channel. -/

/-- A change of the bytes, the channels' rows and errors, the counters and the free values drawn, that leaves the use of every channel and
the counters of scrubs and reissues. -/
structure dramAccess (s t : State) : Prop where
  frame : ∃ m x n k, t = { s with dram.mem := m, dram.chans := x, counters := n, fresh := k }
  use : ∀ c, chanUse (dramCh t c) = chanUse (dramCh s c)
  scrubs : ∀ i, i < 1048576 → counter .scrubPasses i t = counter .scrubPasses i s
  reissues : ∀ i, i < 1048576 → counter .parityReissue i t = counter .parityReissue i s

theorem dramAccess_refl (s : State) : dramAccess s s := ⟨⟨_, _, _, _, rfl⟩, fun _ => rfl, fun _ _ => rfl, fun _ _ => rfl⟩

theorem dramAccess_trans {s t u : State} (h : dramAccess s t) (h' : dramAccess t u) : dramAccess s u := by
  obtain ⟨⟨m, x, n, k, hf⟩, hu, hs, hr⟩ := h
  obtain ⟨⟨m', x', n', k', hf'⟩, hu', hs', hr'⟩ := h'
  refine ⟨⟨m', x', n', k', ?_⟩, fun c => (hu' c).trans (hu c), fun i hi => (hs' i hi).trans (hs i hi),
    fun i hi => (hr' i hi).trans (hr i hi)⟩
  rw [hf', hf]

theorem dramAccess_modDram (c : Nat) (f : DramCh → DramCh) (hf : ∀ d, chanUse (f d) = chanUse d) (s : State) :
    dramAccess s (modDram c f s) := by
  refine ⟨⟨_, _, _, _, rfl⟩, fun j => ?_, fun _ _ => rfl, fun _ _ => rfl⟩
  by_cases h : j = c
  · subst h
    rw [dramCh_modDram, hf]
  · rw [dramCh_modDram_ne _ _ _ _ h]

theorem dramAccess_countN (c : Ctr) (j n : Nat) (hs : Ctr.scrubPasses.ctorIdx ≠ c.ctorIdx) (hr : Ctr.parityReissue.ctorIdx ≠ c.ctorIdx)
    (hj : j < 1048576) (s : State) : dramAccess s (countN c j n s) :=
  ⟨⟨_, _, _, _, rfl⟩, fun _ => rfl, fun _ hi => counter_countN_of_ne n s hs hi hj, fun _ hi => counter_countN_of_ne n s hr hi hj⟩

theorem dramAccess_bankAccess (c loc : Nat) (hc : c < 12) (s : State) : dramAccess s (bankAccess c loc s) := by
  unfold bankAccess pageAccess
  dsimp only
  split
  · exact dramAccess_trans (dramAccess_modDram c _ (by exact fun _ => rfl) s)
      (dramAccess_countN _ c 1 (by decide) (by decide) (by omega) _)
  · split
    · exact dramAccess_trans (dramAccess_modDram c _ (by exact fun _ => rfl) s)
        (dramAccess_countN _ c 1 (by decide) (by decide) (by omega) _)
    · exact dramAccess_modDram c _ (by exact fun _ => rfl) s

theorem dramAccess_countUe (c a : Nat) (hc : c < 12) (s : State) : dramAccess s (countUe c a s) :=
  dramAccess_trans (dramAccess_modDram c _ (by exact fun _ => rfl) s)
    (dramAccess_countN _ c 1 (by decide) (by decide) (by omega) _)

theorem dramAccess_countCe (c d : Nat) (hc : c < 12) (s : State) : dramAccess s (countCe c d s) :=
  dramAccess_trans (dramAccess_modDram c _ (by exact fun _ => rfl) s)
    (dramAccess_countN _ _ 1 (by decide) (by decide) (by unfold ceDevices; omega) _)

theorem dramAccess_write (m : Memory) (s : State) : dramAccess s { s with dram.mem := m } :=
  ⟨⟨_, _, _, _, rfl⟩, fun _ => rfl, fun _ _ => rfl, fun _ _ => rfl⟩

theorem dramAccess_draw (s : State) : dramAccess s (draw s).2 :=
  ⟨⟨_, _, _, _, rfl⟩, fun _ => rfl, fun _ _ => rfl, fun _ _ => rfl⟩

theorem dramAccess_freeBytes (n : Nat) (s : State) : dramAccess s (freeBytes n s).2 := by
  induction n generalizing s with
  | zero => exact dramAccess_refl s
  | succ n ih => exact dramAccess_trans (dramAccess_draw s) (ih _)

theorem dramAccess_issueWrite (a : Nat) (l : List Byte) (s : State) : dramAccess s (issueWrite a l s) := by
  unfold issueWrite
  split
  · exact dramAccess_refl s
  · next c loc hmap =>
    split
    · exact dramAccess_refl s
    · exact dramAccess_trans (dramAccess_write _ s) (dramAccess_bankAccess c loc (dramMap_channel hmap) _)

theorem dramAccess_readBurst (a : Nat) (l : List Nat) (s : State) : dramAccess s (readBurst a l s).2 := by
  cases hmap : dramMap s a with
  | none =>
    rw [show readBurst a l s = (true, s) by simp only [readBurst, hmap]]
    exact dramAccess_refl s
  | some e =>
    obtain ⟨c, loc⟩ := e
    have hc := dramMap_channel hmap
    by_cases hlost : (dramCh s c).lost = true
    · rw [readBurst_lost a c loc l s hmap hlost]
      exact dramAccess_countUe c a hc s
    · have hlive : (dramCh s c).lost = false := by simpa using hlost
      have hbank := dramAccess_bankAccess c loc hc s
      match hl : l.dedup with
      | [] =>
        rw [readBurst_no_error a c loc l s hmap hlive hl]
        exact hbank
      | [d] =>
        rw [readBurst_one_device a c loc l s hmap hlive d hl]
        exact dramAccess_trans hbank (dramAccess_countCe c d hc _)
      | [d, e] =>
        rw [readBurst_two_devices a c loc l s hmap hlive d e hl]
        exact dramAccess_trans hbank (dramAccess_countUe c a hc _)
      | d :: e :: f :: rest =>
        rw [readBurst_more_devices a c loc l s hmap hlive d e f rest hl]
        have hdraw := dramAccess_trans hbank (dramAccess_draw _)
        dsimp only
        split
        · exact dramAccess_trans hdraw (dramAccess_countUe c a hc _)
        · split
          · exact dramAccess_trans (dramAccess_trans (dramAccess_trans hdraw (dramAccess_freeBytes 64 _))
              (dramAccess_write _ _)) (dramAccess_countCe c d hc _)
          · exact hdraw

theorem dramAccess_issueReq (r : DramReq) (s : State) : dramAccess s (issueReq r s) := by
  unfold issueReq
  split
  · exact dramAccess_issueWrite ..
  · exact dramAccess_issueWrite ..
  · exact dramAccess_issueWrite ..
  · exact dramAccess_readBurst ..

/-- A request that a lost channel answers: a write is discarded, a read counts (R338). -/
theorem issueReq_lost (r : DramReq) (s : State) (c loc : Nat) (hmap : dramMap s r.addr = some (c, loc))
    (hlost : (dramCh s c).lost = true) : issueReq r s = if r.isWrite then s else countUe c r.addr s := by
  have hdiscard : ∀ l, issueWrite r.addr l s = s := fun l => issueWrite_lost _ _ s ((chanLost_of_map s _ c loc hmap).trans hlost)
  unfold issueReq DramReq.isWrite
  cases r.kind with
  | store _ _ l _ => exact hdiscard l
  | write l => exact hdiscard l
  | flag => exact hdiscard _
  | read d =>
    dsimp only
    rw [readBurst_lost r.addr c loc d s hmap hlost]
    rfl

/-- What waits at a lost channel is answered without a byte changed (R338). -/
theorem issueReqs_lost (c : Nat) (l : List DramReq) (s : State) (hlost : (dramCh s c).lost = true)
    (hl : ∀ r ∈ l, ∃ loc, dramMap s r.addr = some (c, loc)) : let t := l.foldl (fun s r => issueReq r s) s
    dramAccess s t ∧ t.dram.mem = s.dram.mem := by
  induction l generalizing s with
  | nil => exact ⟨dramAccess_refl s, rfl⟩
  | cons r l ih =>
    obtain ⟨loc, hmap⟩ := hl r List.mem_cons_self
    have hstep := dramAccess_issueReq r s
    have hmem : (issueReq r s).dram.mem = s.dram.mem := by
      rw [issueReq_lost r s c loc hmap hlost]
      split <;> rfl
    have huse := hstep.use c
    obtain ⟨hrest, hrestm⟩ := ih (issueReq r s) (by simpa [chanUse, hlost] using (Prod.mk.inj (Prod.mk.inj (Prod.mk.inj
      (Prod.mk.inj huse).2).2).2).1) (fun x hx => by
        obtain ⟨loc, h⟩ := hl x (List.mem_cons_of_mem r hx)
        exact ⟨loc, (dramMap_congr hstep.use x.addr).trans h⟩)
    exact ⟨dramAccess_trans hstep hrest, hrestm.trans hmem⟩

/-- Serving requests leaves the use of the channels and the scrubs' counts. -/
theorem serveN_keeps_scrubs (n : Nat) (p : DramReq → Bool) (s : State) (i : Nat) (hi : i < 1048576) :
    counter .scrubPasses i (serveN n p s) = counter .scrubPasses i s := by
  induction n generalizing s with
  | zero => rfl
  | succ n ih =>
    unfold serveN
    split
    · rfl
    · next r _ => exact (ih _).trans ((dramAccess_issueReq r { s with dram.queue := s.dram.queue.erase r }).scrubs i hi)

/-! Recentring's bursts lie in the reserve, on the channel's own granules (R331). -/

/-- An access to one channel that changes no byte past the recentring reserve, the first MiB. -/
structure reserveAccess (c : Nat) (s t : State) : Prop where
  access : dramAccess s t
  others : ∀ j, j ≠ c → dramCh t j = dramCh s j
  bytes : ∀ a, 2 ^ 20 ≤ a → memGet t.dram.mem a = memGet s.dram.mem a

theorem reserveAccess_trans {c : Nat} {s t u : State} (h : reserveAccess c s t) (h' : reserveAccess c t u) :
    reserveAccess c s u :=
  ⟨dramAccess_trans h.access h'.access, fun j hj => (h'.others j hj).trans (h.others j hj),
    fun a ha => (h'.bytes a ha).trans (h.bytes a ha)⟩

theorem dramCh_bankAccess_ne (c loc j : Nat) (hj : j ≠ c) (s : State) : dramCh (bankAccess c loc s) j = dramCh s j := by
  unfold bankAccess pageAccess
  dsimp only
  (repeat' split) <;> exact dramCh_modDram_ne _ _ _ _ hj

theorem reserveAccess_issueWrite (a c loc : Nat) (l : List Byte) (s : State) (hmap : dramMap s a = some (c, loc))
    (hend : a + l.length ≤ 2 ^ 20) : reserveAccess c s (issueWrite a l s) := by
  refine ⟨dramAccess_issueWrite a l s, fun j hj => ?_, fun x hx => ?_⟩
  · simp only [issueWrite, hmap]
    split
    · rfl
    · exact dramCh_bankAccess_ne c loc j hj _
  · simp only [issueWrite, hmap]
    split
    · rfl
    · rw [bankAccess_mem]
      exact memGet_memWrite_outside _ _ _ _ (.inr (by omega))

theorem reserveAccess_readBurst (a c loc : Nat) (s : State) (hmap : dramMap s a = some (c, loc)) :
    reserveAccess c s (readBurst a [] s).2 := by
  refine ⟨dramAccess_readBurst a [] s, fun j hj => ?_, fun x _ => ?_⟩
  · by_cases hlost : (dramCh s c).lost = true
    · rw [readBurst_lost a c loc [] s hmap hlost]
      exact dramCh_modDram_ne _ _ _ _ hj
    · rw [readBurst_no_error a c loc [] s hmap (by simpa using hlost) rfl]
      exact dramCh_bankAccess_ne c loc j hj _
  · by_cases hlost : (dramCh s c).lost = true
    · rw [readBurst_lost a c loc [] s hmap hlost]
      rfl
    · rw [readBurst_no_error a c loc [] s hmap (by simpa using hlost) rfl, bankAccess_mem]

theorem mem_burstsOf (n a : Nat) (l : List Byte) {e : Nat × List Byte} (h : e ∈ burstsOf n a l) :
    a ≤ e.1 ∧ 0 < e.2.length ∧ e.1 + e.2.length ≤ a + l.length := by
  induction n generalizing a l with
  | zero => exact absurd h List.not_mem_nil
  | succ n ih =>
    unfold burstsOf at h
    split at h
    · exact absurd h List.not_mem_nil
    · next hne =>
      have hlen : 0 < l.length := List.length_pos_iff.mpr (by simpa using hne)
      obtain rfl | h := List.mem_cons.mp h
      · simp only [List.length_take]
        omega
      · obtain ⟨hlo, hpos, hhi⟩ := ih _ _ h
        rw [List.length_drop] at hhi
        exact ⟨by omega, hpos, by omega⟩

theorem freeBytes_length (n : Nat) (s : State) : (freeBytes n s).1.length = n := by
  induction n generalizing s with
  | zero => rfl
  | succ n ih => simp [freeBytes, ih]

theorem dramCh_freeBytes (n j : Nat) (s : State) : dramCh (freeBytes n s).2 j = dramCh s j := by
  simp only [dramCh, freeBytes_dram]

/-- A burst is written and read (R331). -/
def burstChecked (s : State) (e : Nat × List Byte) : State := (readBurst e.1 [] (issueWrite e.1 e.2 s)).2

/-- The bursts of one granule of a channel are written and read (R331). -/
def recentreGranule (g : Nat) (s : State) : State :=
  (burstsOf 2048 (g * 2048) (freeBytes 2048 s).1).foldl burstChecked (freeBytes 2048 s).2

theorem recentreBursts_eq (c : Nat) (s : State) : recentreBursts c s = match recentreGranules (draw s).2 c (draw s).1 with
    | some g => recentreGranule g.2 (recentreGranule g.1 (draw s).2)
    | none => (draw s).2 := rfl

/-- The granule is a channel's: every address of it maps there. -/
def ownGranule (s : State) (c g : Nat) : Prop := ∀ a, a / 2048 = g → ∃ loc, dramMap s a = some (c, loc)

theorem ownGranule_congr {s t : State} {c g : Nat} (h : ∀ c, chanUse (dramCh t c) = chanUse (dramCh s c))
    (hg : ownGranule s c g) : ownGranule t c g := fun a ha => by
  obtain ⟨loc, hmap⟩ := hg a ha
  exact ⟨loc, (dramMap_congr h a).trans hmap⟩

theorem reserveAccess_burstChecked (c loc : Nat) (e : Nat × List Byte) (s : State) (hmap : dramMap s e.1 = some (c, loc))
    (hle : e.1 + e.2.length ≤ 2 ^ 20) : reserveAccess c s (burstChecked s e) := by
  have hwrite := reserveAccess_issueWrite e.1 c loc e.2 s hmap hle
  have hmap' : dramMap (issueWrite e.1 e.2 s) e.1 = some (c, loc) := (dramMap_congr hwrite.access.use e.1).trans hmap
  exact reserveAccess_trans hwrite (reserveAccess_readBurst e.1 c loc _ hmap')

theorem reserveAccess_bursts (c g : Nat) (l : List (Nat × List Byte)) (s : State) (hown : ownGranule s c g)
    (hl : ∀ e ∈ l, e.1 / 2048 = g ∧ e.1 + e.2.length ≤ 2 ^ 20) : reserveAccess c s (l.foldl burstChecked s) := by
  induction l generalizing s with
  | nil => exact ⟨dramAccess_refl s, fun _ _ => rfl, fun _ _ => rfl⟩
  | cons e l ih =>
    obtain ⟨hg, hle⟩ := hl e List.mem_cons_self
    obtain ⟨loc, hmap⟩ := hown e.1 hg
    have hstep := reserveAccess_burstChecked c loc e s hmap hle
    have hrest := ih (burstChecked s e) (ownGranule_congr hstep.access.use hown) fun x hx => hl x (List.mem_cons_of_mem e hx)
    exact reserveAccess_trans hstep hrest

theorem reserveAccess_granule (c g : Nat) (s : State) (hown : ownGranule s c g) (hend : (g + 1) * 2048 ≤ 2 ^ 20) :
    reserveAccess c s (recentreGranule g s) := by
  have hbytes : reserveAccess c s (freeBytes 2048 s).2 :=
    ⟨dramAccess_freeBytes 2048 s, fun j _ => dramCh_freeBytes 2048 j s, fun a _ => by rw [freeBytes_dram]⟩
  have hbursts : ∀ e ∈ burstsOf 2048 (g * 2048) (freeBytes 2048 s).1, e.1 / 2048 = g ∧ e.1 + e.2.length ≤ 2 ^ 20 := by
    intro e he
    obtain ⟨hlo, hpos, hhi⟩ := mem_burstsOf _ _ _ he
    rw [freeBytes_length] at hhi
    exact ⟨by omega, by omega⟩
  unfold recentreGranule
  generalize burstsOf 2048 (g * 2048) (freeBytes 2048 s).1 = l at hbursts ⊢
  generalize (freeBytes 2048 s).2 = u at hbytes ⊢
  exact reserveAccess_trans hbytes (reserveAccess_bursts c g l u (ownGranule_congr hbytes.access.use hown) hbursts)

/-- The granules that recentring writes are the channel's, and lie in the reserve (R331, R339). -/
theorem recentreGranules_own (s : State) (c v : Nat) (g : Nat × Nat) (h : recentreGranules s c v = some g) :
    ownGranule s c g.1 ∧ ownGranule s c g.2 ∧ g.1 < 512 ∧ g.2 < 512 := by
  unfold recentreGranules at h
  dsimp only at h
  split at h
  · exact absurd h (by simp)
  · next hsome =>
    cases h
    simp only [Bool.or_eq_true, decide_eq_true_eq, not_or, List.isEmpty_iff, Nat.not_lt] at hsome
    obtain ⟨hne, hrows⟩ := hsome
    dsimp only
    set t := interleave (chansInUse s) with ht
    set es := (List.range t.length).filter (fun e => decide ((t[e]?).map (·.1) = some c)) with hes
    have hpos : 0 < es.length := List.length_pos_iff.mpr hne
    have hlt : v % es.length < es.length := Nat.mod_lt _ hpos
    have hmem : es.getD (v % es.length) 0 ∈ es := by
      rw [List.getD_eq_getElem?_getD, List.getElem?_eq_getElem hlt]
      exact List.getElem_mem hlt
    generalize es.getD (v % es.length) 0 = e at hmem ⊢
    obtain ⟨he, hch⟩ := List.mem_filter.mp hmem
    rw [List.mem_range] at he
    rw [decide_eq_true_eq] at hch
    obtain ⟨x, hx, hxc⟩ := Option.map_eq_some_iff.mp hch
    have hL : 0 < t.length := by omega
    have hmax : max 1 t.length = t.length := by omega
    rw [hmax] at hrows ⊢
    have hrow : v / 64 % (512 / t.length - 1) ≤ 512 / t.length - 2 := by
      have := Nat.mod_lt (v / 64) (show 0 < 512 / t.length - 1 by omega)
      omega
    generalize v / 64 % (512 / t.length - 1) = r at hrow ⊢
    have hown : ∀ m, ownGranule s c (e + m * t.length) := by
      intro m a ha
      have hturn : a / 2048 % t.length = e := by rw [ha, Nat.add_mul_mod_self_right, Nat.mod_eq_of_lt he]
      refine ⟨(a / 2048 / t.length * x.2.2 + x.2.1) * 2048 + a % 2048, ?_⟩
      unfold dramMap mapAddr
      rw [← ht]
      dsimp only
      rw [hturn, hx, Option.map_some, hxc]
    have hbound : (r + 2) * t.length ≤ 512 := by
      have hmul := Nat.mul_le_mul_right t.length (show r + 2 ≤ 512 / t.length by omega)
      exact hmul.trans (Nat.div_mul_le_self 512 t.length)
    have hr2 : (r + 2) * t.length = r * t.length + t.length + t.length := by ring
    refine ⟨hown r, ?_, by omega, by omega⟩
    have := hown (r + 1)
    rwa [Nat.add_mul, Nat.one_mul, ← Nat.add_assoc] at this

theorem reserveAccess_recentre (c : Nat) (s : State) : reserveAccess c s (recentreBursts c s) := by
  have hdraw : reserveAccess c s (draw s).2 := ⟨dramAccess_draw s, fun _ _ => rfl, fun _ _ => rfl⟩
  rw [recentreBursts_eq]
  split
  · next g hg =>
    obtain ⟨hown1, hown2, hlt1, hlt2⟩ := recentreGranules_own _ c _ g hg
    have hfirst := reserveAccess_granule c g.1 _ hown1 (by omega)
    have hsecond := reserveAccess_granule c g.2 _ (ownGranule_congr hfirst.access.use hown2) (by omega)
    exact reserveAccess_trans hdraw (reserveAccess_trans hfirst hsecond)
  · exact hdraw

end Sys2Proof.Laws
end

section
/-! The channels of the DRAM (O48). -/

namespace Sys2Proof.Proofs
open Sys2Proof Sys2Proof.Machine Sys2Proof.Laws

/-! Lost channels (R338). -/

theorem exec_channelLost_stays (s : State) (hOn : s.dev.state ≠ .off) (c : BitVec 4) (x : LostCause)
    (h : (dramCh s c.toNat).trained = false ∨ (dramCh s c.toNat).lost = true ∨
      (x = .uncorrectable ∧ (dramCh s c.toNat).ueSecond ≤ 4096)) : exec (.channelLost c x) s = .next s := by
  change execChannelLost c x s = _
  rw [execChannelLost, whenOn_of_on _ s hOn]
  refine congrArg _ (if_pos ?_)
  rcases h with h | h | ⟨h, hle⟩
  · simp [h]
  · simp [h]
  · simp [h, hle]

/-- The channel is marked lost, and what waits for it is taken from the queue (R338). -/
def channelGone (c : Nat) (x : LostCause) (s : State) : State :=
  let s := if x = .parity then countN .parityReissue c 3 s else s
  modDram c (fun d => { d with lost := true })
    { s with dram.queue := s.dram.queue.filter (fun r => !onChannel s c r.addr) }

theorem exec_channelLost_gone (s : State) (hOn : s.dev.state ≠ .off) (c : BitVec 4) (x : LostCause)
    (ht : (dramCh s c.toNat).trained = true) (hl : (dramCh s c.toNat).lost = false)
    (hx : x = .uncorrectable → 4096 < (dramCh s c.toNat).ueSecond) :
    exec (.channelLost c x) s = .next (raise 0x0901 (64 + c.toNat) (lostCode x) [] (setAlarm 0x0901 c.toNat true
      (setCause .channelLost true ((s.dram.queue.filter (fun r => onChannel s c.toNat r.addr)).foldl (fun s r => issueReq r s)
        (channelGone c.toNat x s))))) := by
  change execChannelLost c x s = _
  rw [execChannelLost, whenOn_of_on _ s hOn]
  refine congrArg _ ((if_neg ?_).trans ?_)
  · simp only [ht, hl, Bool.not_true, Bool.false_or, Bool.and_eq_true, decide_eq_true_eq, not_and, Nat.not_le]
    exact hx
  · unfold channelGone
    split
    · rfl
    · rfl

theorem channelGone_leaves (c : Nat) (x : LostCause) (s : State) : (dramCh (channelGone c x s) c).lost = true ∧
    (∀ a, dramMap (channelGone c x s) a = dramMap s a) ∧ (channelGone c x s).dram.mem = s.dram.mem ∧
    (channelGone c x s).dram.queue = s.dram.queue.filter (fun r => !onChannel s c r.addr) ∧
    counter .parityReissue c (channelGone c x s) = counter .parityReissue c s + if x = .parity then 3 else 0 := by
  unfold channelGone
  have hmap : ∀ u : State, (∀ k, dramCh u k = dramCh s k) → ∀ a,
      dramMap (modDram c (fun d => { d with lost := true }) u) a = dramMap s a := by
    intro u hu a
    have hchans : chansInUse (modDram c (fun d => { d with lost := true }) u) = chansInUse s := by
      unfold chansInUse
      congr 1
      funext k
      rw [← hu k]
      by_cases hk : k = c
      · subst hk
        rw [dramCh_modDram]
      · rw [dramCh_modDram_ne _ _ _ _ hk]
    simp only [dramMap, hchans]
  split
  · refine ⟨?_, hmap _ (fun _ => rfl), rfl, rfl, counter_countN .parityReissue c 3 s⟩
    rw [dramCh_modDram]
  · refine ⟨?_, hmap _ (fun _ => rfl), rfl, rfl, rfl⟩
    rw [dramCh_modDram]

theorem exec_channelLost_takes (s : State) (hOn : s.dev.state ≠ .off) (c : BitVec 4) (x : LostCause)
    (ht : (dramCh s c.toNat).trained = true) (hl : (dramCh s c.toNat).lost = false)
    (hx : x = .uncorrectable → 4096 < (dramCh s c.toNat).ueSecond) :
    ∃ t, exec (.channelLost c x) s = .next t ∧ (dramCh t c.toNat).lost = true ∧ .channelLost ∈ t.dev.causes ∧
      t.dram.queue = s.dram.queue.filter (fun r => !onChannel s c.toNat r.addr) ∧ t.dram.mem = s.dram.mem ∧
      counter .parityReissue c.toNat t = counter .parityReissue c.toNat s + if x = .parity then 3 else 0 := by
  obtain ⟨hlost, hmap, hmem, hqueue, hcount⟩ := channelGone_leaves c.toNat x s
  refine ⟨_, exec_channelLost_gone s hOn c x ht hl hx, ?_⟩
  have hreqs : ∀ r ∈ s.dram.queue.filter (fun r => onChannel s c.toNat r.addr),
      ∃ loc, dramMap (channelGone c.toNat x s) r.addr = some (c.toNat, loc) := by
    intro r hr
    obtain ⟨-, hon⟩ := List.mem_filter.mp hr
    obtain ⟨e, he, hec⟩ := Option.map_eq_some_iff.mp (of_decide_eq_true hon)
    exact ⟨e.2, by rw [hmap, he, ← hec]⟩
  obtain ⟨haccess, hmem'⟩ := issueReqs_lost c.toNat _ _ hlost hreqs
  generalize channelGone c.toNat x s = u at *
  generalize List.foldl (fun s r => issueReq r s) u _ = t at *
  obtain ⟨⟨m, y, n, k, hframe⟩, huse, -, hre⟩ := haccess
  have hlt : c.toNat < 1048576 := by have := c.isLt; omega
  refine ⟨?_, mem_setCause_true _ t, ?_, hmem'.trans hmem, ?_⟩
  · have h := huse c.toNat
    simp only [chanUse, Prod.mk.injEq] at h
    exact h.2.2.2.1.trans hlost
  · exact (congrArg (fun v : State => v.dram.queue) hframe).trans hqueue
  · rw [counter_raise_of_lt _ _ _ _ _ (by decide) hlt]
    exact (hre _ hlt).trans hcount

/-! Scrubs (R336). -/

/-- A change that a scrub makes: neither bytes nor its own counts. -/
structure scrubStep (s t : State) : Prop where
  bytes : t.dram.mem = s.dram.mem
  passes : ∀ i, i < 1048576 → counter .scrubPasses i t = counter .scrubPasses i s

theorem scrubStep_trans {s t u : State} (h : scrubStep s t) (h' : scrubStep t u) : scrubStep s u :=
  ⟨h'.bytes.trans h.bytes, fun i hi => (h'.passes i hi).trans (h.passes i hi)⟩

theorem scrubStep_foldl {α : Type} (f : State → α → State) (hf : ∀ s x, scrubStep s (f s x)) (l : List α) (s : State) :
    scrubStep s (l.foldl f s) := by
  induction l generalizing s with
  | nil => exact ⟨rfl, fun _ _ => rfl⟩
  | cons x l ih => exact scrubStep_trans (hf s x) (ih _)

theorem scrubStep_sendHandover (m : Nat) (s : State) : scrubStep s (sendHandover m s) := by
  have htwin : ∀ l (u : State), scrubStep u (sendTwin l u) := fun l u => by
    obtain ⟨x, n, h⟩ := sendTwin_touches l u
    rw [h]
    exact ⟨rfl, fun _ _ => rfl⟩
  have hckpt : scrubStep s (sendCheckpoint s) := by
    unfold sendCheckpoint
    dsimp only
    have h := htwin ((pieces 8 (checkpointBytes s)).zipIdx.map (fun e => (2, twinMessage s e.2 0 e.1)))
      { s with twin.sendCkpt := false, twin.sent := [] }
    exact ⟨h.bytes, fun i hi => (counter_count_inst _ (by decide) hi (by decide)).trans (h.passes i hi)⟩
  unfold sendHandover
  split
  · have h := htwin [(3, twinMessage (sendCheckpoint s) 0 m [])] { sendCheckpoint s with twin.handoverAt := some m }
    exact scrubStep_trans hckpt ⟨h.bytes, h.passes⟩
  · exact ⟨rfl, fun _ _ => rfl⟩

theorem counter_raiseEvent_of_lt {c : Ctr} {i : Nat} (g code src : Nat) (a e : Bool) (m : Int) (l : List Byte) (s : State)
    (h : c.ctorIdx < Ctr.events.ctorIdx) (hi : i < 1048576) :
    counter c i (raiseEvent g code src a e m l s) = counter c i s := by
  have hkey : ctrKey c i ≠ ctrKey .events 0 := by unfold ctrKey; omega
  simp only [raiseEvent, counter]
  split
  · rfl
  · exact tabGet_tabMod_ne 0 s.counters _ hkey

theorem scrubStep_callSafe (c : Nat) (s : State) : scrubStep s (callSafe c s) := by
  have hreject : scrubStep s (rejectCommit .state 0 s) := by
    unfold rejectCommit
    split
    · dsimp only
      rw [if_neg (by decide)]
      split
      · exact ⟨rfl, fun i hi => counter_raiseEvent_of_lt _ _ _ _ _ _ _ _ (by decide) hi⟩
      · exact ⟨rfl, fun i hi => counter_raiseEvent_of_lt _ _ _ _ _ _ _ _ (by decide) hi⟩
    · exact ⟨rfl, fun _ _ => rfl⟩
  have hlater : ∀ b : Bool, scrubStep s (if b then rejectCommit .state 0 s else s) := fun b => by
    cases b with
    | true => exact hreject
    | false => exact ⟨rfl, fun _ _ => rfl⟩
  unfold callSafe
  exact ⟨(hlater _).bytes, (hlater _).passes⟩

theorem scrubStep_askSafe (s : State) : scrubStep s (askSafe s) := by
  unfold askSafe
  split
  · exact ⟨rfl, fun _ _ => rfl⟩
  · exact scrubStep_trans (scrubStep_callSafe 7 s) (scrubStep_sendHandover ..)

theorem scrubStep_ueInService (a : Nat) (s : State) : scrubStep s (ueInService a s) := by
  have hcopy : scrubStep s (copyFails a s) := by
    unfold copyFails
    split
    · exact ⟨rfl, fun _ _ => rfl⟩
    · next k g second _ =>
      dsimp only
      have h := scrubStep_askSafe { s with
        dram.badCopies := (k, g, second) :: s.dram.badCopies.filter (fun e => e ≠ (k, g, second)) }
      split
      · exact ⟨h.bytes, h.passes⟩
      · exact ⟨rfl, fun _ _ => rfl⟩
  unfold ueInService
  split
  · exact ⟨hcopy.bytes, hcopy.passes⟩
  · exact ⟨rfl, fun _ _ => rfl⟩

theorem scrubStep_countUe (c a : Nat) (hc : c < 12) (s : State) : scrubStep s (countUe c a s) :=
  ⟨rfl, (dramAccess_countUe c a hc s).scrubs⟩

theorem scrubStep_scrubUe (a : Nat) (s : State) : scrubStep s (scrubUe a s) := by
  unfold scrubUe
  split
  · next c loc hmap => exact scrubStep_trans (scrubStep_countUe c a (dramMap_channel hmap) s) (scrubStep_ueInService ..)
  · exact ⟨rfl, fun _ _ => rfl⟩

theorem scrubStep_scrubCe (a d : Nat) (s : State) : scrubStep s (scrubCe a d s) := by
  unfold scrubCe
  split
  · next c loc hmap =>
    split
    · exact scrubStep_scrubUe a s
    · exact ⟨rfl, (dramAccess_countCe c d (dramMap_channel hmap) s).scrubs⟩
  · exact ⟨rfl, fun _ _ => rfl⟩

theorem chansInUse_nodup (s : State) : ((chansInUse s).map (·.1)).Nodup := by
  unfold chansInUse
  rw [List.map_filterMap]
  refine List.Nodup.filterMap (fun a b x ha hb => ?_) List.nodup_range
  dsimp only at ha hb
  split at ha <;> split at hb <;> simp_all

/-- Each channel of a list of different ones is counted once. -/
theorem counter_scrubPasses (l : List (Nat × Nat)) (hl : (l.map (·.1)).Nodup) (e : Nat × Nat) (he : e ∈ l) (s : State) :
    counter .scrubPasses e.1 (l.foldl (fun s c => count .scrubPasses c.1 s) s) = counter .scrubPasses e.1 s + 1 := by
  have hleave : ∀ (l : List (Nat × Nat)) (i : Nat) (s : State), i ∉ l.map (·.1) →
      counter .scrubPasses i (l.foldl (fun s c => count .scrubPasses c.1 s) s) = counter .scrubPasses i s := by
    intro l i
    induction l with
    | nil => exact fun _ _ => rfl
    | cons x l ih =>
      intro s hi
      rw [List.map_cons, List.mem_cons, not_or] at hi
      exact (ih _ hi.2).trans (counter_count_key _ hi.1 s)
  induction l generalizing s with
  | nil => exact absurd he List.not_mem_nil
  | cons x l ih =>
    rw [List.map_cons, List.nodup_cons] at hl
    obtain rfl | he := List.mem_cons.mp he
    · exact (hleave l e.1 _ hl.1).trans (counter_count ..)
    · have hne : e.1 ≠ x.1 := fun h => hl.1 (h ▸ List.mem_map_of_mem he)
      exact (ih hl.2 he _).trans (congrArg (· + 1) (counter_count_key _ hne s))

theorem exec_patrolScrub_takes (s : State) (hOn : s.dev.state ≠ .off) (l : List (Nat × Nat)) (m : List Nat) :
    ∃ t, exec (.patrolScrub l m) s = .next t ∧ t.dram.mem = (serveFirst 4 (fun _ => true) s).dram.mem ∧
      (∀ e ∈ chansInUse s, counter .scrubPasses e.1 t = counter .scrubPasses e.1 s + 1) := by
  have hcount : ∀ (l : List (Nat × Nat)) (u : State), (l.foldl (fun s c => count .scrubPasses c.1 s) u).dram.mem = u.dram.mem :=
    fun l u => foldl_proj (fun u => u.dram.mem) (fun u c => count .scrubPasses c.1 u) (fun _ _ => rfl) l u
  have hce := fun (p : Nat × Nat → Bool) (u : State) => scrubStep_foldl (fun s (e : Nat × Nat) => scrubCe e.1 e.2 s)
    (fun s e => scrubStep_scrubCe e.1 e.2 s) (l.filter p) u
  have hue := fun (p : Nat → Bool) (u : State) => scrubStep_foldl (fun s a => scrubUe a s)
    (fun s a => scrubStep_scrubUe a s) (m.filter p) u
  change ∃ t, execPatrolScrub l m s = _ ∧ _
  rw [execPatrolScrub, whenOn_of_on _ s hOn]
  refine ⟨_, rfl, ?_, fun e he => ?_⟩
  · exact ((hue _ _).bytes.trans (hce _ _).bytes).trans (hcount _ _)
  · have hlt : e.1 < 1048576 := by have := (mem_chansInUse he).1; omega
    refine ((hue _ _).passes e.1 hlt).trans (((hce _ _).passes e.1 hlt).trans ?_)
    rw [counter_scrubPasses _ (chansInUse_nodup s) e he]
    exact congrArg (· + 1) (serveN_keeps_scrubs _ _ s e.1 hlt)

/-! Refreshes and idle rows (R333, R335). -/

theorem exec_refresh_cases (s : State) (hOn : s.dev.state ≠ .off) (c : BitVec 4) (b : Nat) (p : Bool) : let d := dramCh s c.toNat
    let waits := p = true ∧ bankBusy s c.toNat b = true ∧ tabGet 0 d.postponed b < 2
    (d.trained = false → exec (.refresh c b p) s = .next s) ∧
    (d.trained = true → waits → exec (.refresh c b p) s = .next (count .refreshPostponed c.toNat
      (modDram c.toNat (fun d => { d with postponed := tabMod 0 d.postponed b (· + 1) }) s))) ∧
    (d.trained = true → ¬waits → exec (.refresh c b p) s = .next (closeRow c.toNat b
      (modDram c.toNat (fun d => { d with postponed := tabSet 0 d.postponed b 0 }) s))) := by
  intro d waits
  have hcond : (p && bankBusy s c.toNat b && decide (tabGet 0 d.postponed b < 2)) = true ↔ waits := by
    simp [waits, and_assoc]
  change (_ → execRefresh c b p s = _) ∧ (_ → _ → execRefresh c b p s = _) ∧ (_ → _ → execRefresh c b p s = _)
  rw [execRefresh, whenOn_of_on _ s hOn]
  refine ⟨fun h => congrArg _ (if_pos (by simpa using h)), fun h hw => congrArg _ ?_, fun h hw => congrArg _ ?_⟩
  · exact (if_neg (by simpa using h)).trans (if_pos (hcond.mpr hw))
  · exact (if_neg (by simpa using h)).trans (if_neg (fun hc => hw (hcond.mp hc)))

/-! Recentring (R331, R337). -/

/-- The delays of a byte lane move one step, its bursts are written and read, and the steps are counted (R331). -/
def recentred (k : Nat) (r w : Int) (s : State) : State :=
  let d := tabGet (0, 0) s.dram.delays k
  countN .recentreSteps k (bit (stepTo d.1 r ≠ d.1) + bit (stepTo d.2 w ≠ d.2))
    (recentreBursts (k / 10) { s with dram.delays := tabSet (0, 0) s.dram.delays k (stepTo d.1 r, stepTo d.2 w) })

theorem exec_recentre (s : State) (hOn : s.dev.state ≠ .off) (k : Nat) (r w : Int) (n : Nat) (ue : Option Nat) :
    exec (.recentre k r w n ue) s = .next (if 120 ≤ k ∨ !(dramCh s (k / 10)).trained then s
      else match ue with
        | some a => countUe (k / 10) a s
        | none => if (dramCh s (k / 10)).lost then s
          else if n * 100 < 960 then
            raise 0x0902 (64 + k / 10) n [] (modDram (k / 10) (fun d => { d with eyeLow := true }) (recentred k r w s))
          else recentred k r w s) := by
  change execRecentre k r w n ue s = _
  rw [execRecentre, whenOn_of_on _ s hOn]
  cases ue with
  | some a => rfl
  | none => rfl

theorem recentred_leaves (k : Nat) (r w : Int) (s : State) : let t := recentred k r w s
    tabGet (0, 0) t.dram.delays k = (stepTo (tabGet (0, 0) s.dram.delays k).1 r, stepTo (tabGet (0, 0) s.dram.delays k).2 w) ∧
    (∀ j, j ≠ k → tabGet (0, 0) t.dram.delays j = tabGet (0, 0) s.dram.delays j) ∧ t.dram.vrefs = s.dram.vrefs ∧
    (∀ a, 2 ^ 20 ≤ a → memGet t.dram.mem a = memGet s.dram.mem a) ∧
    (dramCh t (k / 10)).eyeLow = (dramCh s (k / 10)).eyeLow := by
  intro t
  generalize hmoved : (stepTo (tabGet (0, 0) s.dram.delays k).1 r, stepTo (tabGet (0, 0) s.dram.delays k).2 w) = moved
  have hstep := reserveAccess_recentre (k / 10) { s with dram.delays := tabSet (0, 0) s.dram.delays k moved }
  obtain ⟨m, x, c, f, hframe⟩ := hstep.access.frame
  have huse := hstep.access.use (k / 10)
  have hbytes := hstep.bytes
  have ht : t = countN .recentreSteps k _ (recentreBursts (k / 10) _) := rfl
  rw [hmoved, hframe] at ht
  rw [hframe] at hbytes huse
  rw [ht]
  simp only [chanUse, Prod.mk.injEq] at huse
  exact ⟨tabGet_tabSet_same .., fun j hj => tabGet_tabSet_ne _ _ _ hj, rfl, hbytes, huse.2.2.2.2⟩

theorem exec_recentre_cases (s : State) (hOn : s.dev.state ≠ .off) (k : Nat) (r w : Int) (n : Nat) (ue : Option Nat) :
    let d := dramCh s (k / 10)
    ((120 ≤ k ∨ d.trained = false) → exec (.recentre k r w n ue) s = .next s) ∧
    (∀ a, k < 120 → d.trained = true → ue = some a → exec (.recentre k r w n ue) s = .next (countUe (k / 10) a s)) ∧
    (k < 120 → d.trained = true → ue = none → d.lost = true → exec (.recentre k r w n ue) s = .next s) ∧
    (k < 120 → d.trained = true → ue = none → d.lost = false → ∃ t, exec (.recentre k r w n ue) s = .next t ∧
      tabGet (0, 0) t.dram.delays k = (stepTo (tabGet (0, 0) s.dram.delays k).1 r, stepTo (tabGet (0, 0) s.dram.delays k).2 w) ∧
      (∀ j, j ≠ k → tabGet (0, 0) t.dram.delays j = tabGet (0, 0) s.dram.delays j) ∧ t.dram.vrefs = s.dram.vrefs ∧
      (∀ a, 2 ^ 20 ≤ a → memGet t.dram.mem a = memGet s.dram.mem a) ∧
      (dramCh t (k / 10)).eyeLow = (d.eyeLow || decide (n * 100 < 960))) := by
  intro d
  have hlive : k < 120 → d.trained = true → ¬(120 ≤ k ∨ (!(dramCh s (k / 10)).trained) = true) := by
    intro hk ht
    simp [show (dramCh s (k / 10)).trained = true from ht, Nat.not_le.mpr hk]
  rw [exec_recentre s hOn]
  refine ⟨fun h => congrArg _ (if_pos (by simpa using h)), fun a hk ht hue => ?_, fun hk ht hue hl => ?_, fun hk ht hue hl => ?_⟩
  · rw [if_neg (hlive hk ht), hue]
  · rw [if_neg (hlive hk ht), hue]
    exact congrArg _ (if_pos hl)
  · rw [if_neg (hlive hk ht), hue]
    obtain ⟨hmoved, hkept, hvref, hbytes, heye⟩ := recentred_leaves k r w s
    dsimp only
    rw [if_neg (by simpa using hl)]
    generalize recentred k r w s = t at *
    by_cases hlow : n * 100 < 960
    · rw [if_pos hlow]
      refine ⟨_, rfl, hmoved, hkept, hvref, hbytes, ?_⟩
      rw [decide_eq_true hlow, Bool.or_true]
      exact congrArg DramCh.eyeLow (dramCh_modDram ..)
    · rw [if_neg hlow]
      refine ⟨_, rfl, hmoved, hkept, hvref, hbytes, ?_⟩
      rw [decide_eq_false hlow, Bool.or_false]
      exact heye

/-! Temperatures (R335). -/

theorem exec_dimmTempPoll_cases (s : State) (hOn : s.dev.state ≠ .off) (c : BitVec 4) (b : Bool) (x : Int) :
    let d := dramCh s c.toNat
    let u := modDram c.toNat (fun d => { d with hubTemps := tabSet 0 d.hubTemps (bit b) x }) s
    let e := dramCh u c.toNat
    (d.dimms.length ≤ bit b → exec (.dimmTempPoll c b x) s = .next s) ∧
    (bit b < d.dimms.length → dimmHot e = false → exec (.dimmTempPoll c b x) s = .next (setAlarm 0x0903 c.toNat false u)) ∧
    (bit b < d.dimms.length → dimmHot e = true → exec (.dimmTempPoll c b x) s = .next (if dimmHot d
      then setAlarm 0x0903 c.toNat true u else raise 0x0903 (64 + c.toNat) x [bit b] (setAlarm 0x0903 c.toNat true u))) := by
  intro d u e
  have hdo : exec (.dimmTempPoll c b x) s = .next (if d.dimms.length ≤ bit b then s
      else if dimmHot e && !dimmHot d then raise 0x0903 (64 + c.toNat) x [bit b] (setAlarm 0x0903 c.toNat (dimmHot e) u)
      else setAlarm 0x0903 c.toNat (dimmHot e) u) := by
    change execDimmTempPoll c b x s = _
    rw [execDimmTempPoll, whenOn_of_on _ s hOn]
  rw [hdo]
  refine ⟨fun h => congrArg _ (if_pos h), fun h hhot => ?_, fun h hhot => ?_⟩
  · rw [if_neg (Nat.not_le.mpr h), hhot]
    rfl
  · rw [if_neg (Nat.not_le.mpr h), hhot]
    cases dimmHot d <;> rfl

theorem dimmHot_iff (d : DramCh) : dimmHot d = true ↔ ∃ e ∈ d.hubTemps, 1520 < e.2 := by
  simp [dimmHot, chanAbove]

/-! Retraining (R330, R332). -/

/-- A byte lane's settings. -/
def laneSet (s : State) (k : Nat) : (Nat × Nat) × (Int × Int) :=
  (tabGet (0, 0) s.dram.vrefs k, tabGet (0, 0) s.dram.delays k)

/-- The settings that a byte lane's widest windows give (R330). -/
def laneCentred (lanes : List LaneEye) (k : Nat) (x : (Nat × Nat) × (Int × Int)) : Prop := ∃ e r w, lanes[k]? = some e ∧
  bestSweep e.read = some r ∧ bestSweep e.write = some w ∧ x = ((r.vref, w.vref), (sweepCentre r, sweepCentre w))

theorem centreLane_touches (lanes : List LaneEye) (s : State) (k : Nat) :
    (∃ x y, centreLane lanes s k = { s with dram.delays := x, dram.vrefs := y }) ∧
    (∀ j, j ≠ k → laneSet (centreLane lanes s k) j = laneSet s j) := by
  unfold centreLane
  split
  · exact ⟨⟨_, _, rfl⟩, fun _ _ => rfl⟩
  · split
    · exact ⟨⟨_, _, rfl⟩, fun j hj => by
        simp only [laneSet]
        rw [tabGet_tabSet_ne _ _ _ hj, tabGet_tabSet_ne _ _ _ hj]⟩
    · exact ⟨⟨_, _, rfl⟩, fun _ _ => rfl⟩

theorem centreLane_sets (lanes : List LaneEye) (s : State) (k : Nat) (e : LaneEye) (he : lanes[k]? = some e)
    (hok : laneOk e = true) : laneCentred lanes k (laneSet (centreLane lanes s k) k) := by
  simp only [laneOk, Bool.and_eq_true] at hok
  obtain ⟨⟨hread, hwrite⟩, -⟩ := hok
  cases hr : bestSweep e.read with
  | none => exact absurd hread (by simp [hr])
  | some r =>
    cases hw : bestSweep e.write with
    | none => exact absurd hwrite (by simp [hw])
    | some w =>
      refine ⟨e, r, w, he, hr, hw, ?_⟩
      simp only [centreLane, he, hr, hw, laneSet]
      rw [tabGet_tabSet_same, tabGet_tabSet_same]

theorem centreLanes_touches (lanes : List LaneEye) (l : List Nat) (s : State) :
    (∃ x y, l.foldl (centreLane lanes) s = { s with dram.delays := x, dram.vrefs := y }) ∧
    (∀ j, j ∉ l → laneSet (l.foldl (centreLane lanes) s) j = laneSet s j) := by
  induction l generalizing s with
  | nil => exact ⟨⟨_, _, rfl⟩, fun _ _ => rfl⟩
  | cons k l ih =>
    obtain ⟨⟨x, y, hx⟩, hne⟩ := centreLane_touches lanes s k
    obtain ⟨⟨x', y', hx'⟩, hne'⟩ := ih (centreLane lanes s k)
    refine ⟨⟨x', y', ?_⟩, fun j hj => ?_⟩
    · rw [List.foldl_cons, hx', hx]
    · rw [List.mem_cons, not_or] at hj
      exact (hne' j hj.2).trans (hne j hj.1)

theorem centreLanes_sets (lanes : List LaneEye) (l : List Nat) (hl : l.Nodup) (s : State) (k : Nat) (hk : k ∈ l) (e : LaneEye)
    (he : lanes[k]? = some e) (hok : laneOk e = true) : laneCentred lanes k (laneSet (l.foldl (centreLane lanes) s) k) := by
  induction l generalizing s with
  | nil => exact absurd hk List.not_mem_nil
  | cons j l ih =>
    obtain ⟨hj, hl⟩ := List.nodup_cons.mp hl
    obtain rfl | hk := List.mem_cons.mp hk
    · rw [List.foldl_cons, (centreLanes_touches lanes l _).2 k hj]
      exact centreLane_sets lanes s k e he hok
    · exact ih hl _ hk

theorem mem_laneNumbers (c k : Nat) : k ∈ numbers (10 * c) 10 ↔ k / 10 = c := by
  simp only [numbers, List.mem_map, List.mem_range]
  constructor
  · rintro ⟨i, hi, rfl⟩
    omega
  · exact fun h => ⟨k - 10 * c, by omega, by omega⟩

theorem nodup_numbers (a n : Nat) : (numbers a n).Nodup := List.nodup_range.map (fun _ _ h => Nat.add_left_cancel h)

/-- What retraining leaves of a channel: itself and the settings of its byte lanes. -/
def channelSame (s t : State) (c : Nat) : Prop := dramCh t c = dramCh s c ∧ ∀ k, k / 10 = c → laneSet t k = laneSet s k

/-- A channel that has passed: trained, with the centres of its widest windows (R330). -/
def channelTrained (lanes : List LaneEye) (t : State) (c : Nat) : Prop :=
  (dramCh t c).trained = true ∧ (dramCh t c).lost = false ∧ ∀ k, k / 10 = c → laneCentred lanes k (laneSet t k)

/-- One channel passes: it is trained, recentred and no longer lost (R332). -/
def passChannel (lanes : List LaneEye) (s : State) (c : Nat) : State :=
  setAlarm 0x0901 c false (recentreBursts c (trainChannel lanes s c))

theorem laneSet_recentreBursts (c k : Nat) (s : State) : laneSet (recentreBursts c s) k = laneSet s k := by
  obtain ⟨m, z, n, f, hframe⟩ := (reserveAccess_recentre c s).access.frame
  unfold laneSet
  rw [hframe]

theorem dramCh_trainChannel (lanes : List LaneEye) (s : State) (c : Nat) :
    (dramCh (trainChannel lanes s c) c).trained = true ∧ (dramCh (trainChannel lanes s c) c).lost = false := by
  unfold trainChannel
  rw [dramCh_modDram]
  exact ⟨rfl, rfl⟩

theorem trainChannel_leaves (lanes : List LaneEye) (s : State) (c : Nat) : (trainChannel lanes s c).dram.mem = s.dram.mem ∧
    ∀ j, j ≠ c → channelSame s (trainChannel lanes s c) j := by
  unfold trainChannel
  obtain ⟨⟨x, y, hcentre⟩, hlanes⟩ := centreLanes_touches lanes (numbers (10 * c) 10) s
  refine ⟨by rw [hcentre]; rfl, fun j hj => ⟨?_, fun k hk => ?_⟩⟩
  · rw [dramCh_modDram_ne _ _ _ _ hj, hcentre]
    rfl
  · exact hlanes k (fun hmem => hj (hk.symm.trans ((mem_laneNumbers c k).mp hmem)))

theorem laneCentred_trainChannel (lanes : List LaneEye) (s : State) (c : Nat) (hok : channelOk lanes c = true) (k : Nat)
    (hk : k / 10 = c) : laneCentred lanes k (laneSet (trainChannel lanes s c) k) := by
  have hmem := (mem_laneNumbers c k).mpr hk
  have hlane := List.all_eq_true.mp hok k hmem
  split at hlane
  · next e he => exact centreLanes_sets lanes _ (nodup_numbers ..) s k hmem e he hlane
  · exact absurd hlane (by simp)

/-- What the pass of a channel leaves: bytes past the reserve, every other channel, and itself trained. -/
def passLeaves (lanes : List LaneEye) (s t : State) (c : Nat) : Prop :=
  (∀ a, 2 ^ 20 ≤ a → memGet t.dram.mem a = memGet s.dram.mem a) ∧ (∀ j, j ≠ c → channelSame s t j) ∧
    (channelOk lanes c = true → channelTrained lanes t c)

theorem passLeaves_passChannel (lanes : List LaneEye) (s : State) (c : Nat) : passLeaves lanes s (passChannel lanes s c) c := by
  obtain ⟨hmem, hsame⟩ := trainChannel_leaves lanes s c
  obtain ⟨ht, hlost⟩ := dramCh_trainChannel lanes s c
  have hlane := laneCentred_trainChannel lanes s c
  have hstep := reserveAccess_recentre c (trainChannel lanes s c)
  have hset := fun k => laneSet_recentreBursts c k (trainChannel lanes s c)
  have huse := hstep.access.use c
  unfold passChannel
  generalize trainChannel lanes s c = u at *
  obtain ⟨-, hothers, hbytes⟩ := hstep
  generalize recentreBursts c u = v at *
  simp only [chanUse, Prod.mk.injEq, ht, hlost] at huse
  refine ⟨fun a ha => ?_, fun j hj => ⟨?_, fun k hk => ?_⟩, fun hok => ⟨?_, ?_, fun k hk => ?_⟩⟩
  · exact (hbytes a ha).trans (by rw [hmem])
  · exact (hothers j hj).trans (hsame j hj).1
  · exact (hset k).trans ((hsame j hj).2 k hk)
  · exact huse.1
  · exact huse.2.2.2.1
  · have h := hlane hok k hk
    rw [← hset] at h
    exact h

theorem passLeaves_foldl (lanes : List LaneEye) (f : State → Nat → State) (hf : ∀ s c, passLeaves lanes s (f s c) c)
    (l : List Nat) (hl : l.Nodup) (s : State) :
    (∀ a, 2 ^ 20 ≤ a → memGet (l.foldl f s).dram.mem a = memGet s.dram.mem a) ∧
    (∀ c, c ∉ l → channelSame s (l.foldl f s) c) ∧
    (∀ c ∈ l, channelOk lanes c = true → channelTrained lanes (l.foldl f s) c) := by
  induction l generalizing s with
  | nil => exact ⟨fun _ _ => rfl, fun _ _ => ⟨rfl, fun _ _ => rfl⟩, fun c hc => absurd hc List.not_mem_nil⟩
  | cons x l ih =>
    obtain ⟨hx, hl⟩ := List.nodup_cons.mp hl
    obtain ⟨hbytes, hsame, htrain⟩ := hf s x
    obtain ⟨hbytes', hsame', htrain'⟩ := ih hl (f s x)
    rw [List.foldl_cons]
    refine ⟨fun a ha => (hbytes' a ha).trans (hbytes a ha), fun c hc => ?_, fun c hc hok => ?_⟩
    · rw [List.mem_cons, not_or] at hc
      obtain ⟨hch, hset⟩ := hsame c hc.1
      obtain ⟨hch', hset'⟩ := hsame' c hc.2
      exact ⟨hch'.trans hch, fun k hk => (hset' k hk).trans (hset k hk)⟩
    · obtain rfl | hc := List.mem_cons.mp hc
      · obtain ⟨hch', hset'⟩ := hsame' c hx
        obtain ⟨ht, hlost, hk⟩ := htrain hok
        exact ⟨by rw [hch']; exact ht, by rw [hch']; exact hlost, fun k hkc => by rw [hset' k hkc]; exact hk k hkc⟩
      · exact htrain' c hc hok

theorem exec_dramRetrainDone_idle (s : State) (hOn : s.dev.state ≠ .off) (p : BitVec 12) (l : List LaneEye)
    (h : s.host.owed.find? (fun e => isDramRetrain e.1) = none) : exec (.dramRetrainDone p l) s = .next s := by
  change execDramRetrainDone p l s = _
  rw [execDramRetrainDone, whenOn_of_on _ s hOn, h]

/-- The channels of a retraining that pass (R330, R332). -/
def passing (q : Request) (p : BitVec 12) (l : List LaneEye) (s : State) : List Nat :=
  ((List.range 12).filter (fun c => testBit (u16 q.arg 0) c && !(dramCh s c).excluded)).filter
    (fun c => testBit p.toNat c && channelOk l c)

theorem mem_passing (q : Request) (p : BitVec 12) (l : List LaneEye) (s : State) (c : Nat) : c ∈ passing q p l s ↔
    c < 12 ∧ testBit (u16 q.arg 0) c = true ∧ (dramCh s c).excluded = false ∧ testBit p.toNat c = true ∧ channelOk l c = true := by
  simp only [passing, List.mem_filter, List.mem_range, Bool.and_eq_true, Bool.not_eq_true', and_assoc]

theorem exec_dramRetrainDone_dram (s : State) (hOn : s.dev.state ≠ .off) (p : BitVec 12) (l : List LaneEye) (i : Instr) (q : Request)
    (h : s.host.owed.find? (fun e => isDramRetrain e.1) = some (i, q)) : ∃ t, exec (.dramRetrainDone p l) s = .next t ∧
      t.dram = ((passing q p l s).foldl (passChannel l) s).dram := by
  change ∃ t, execDramRetrainDone p l s = _ ∧ _
  rw [execDramRetrainDone, whenOn_of_on _ s hOn, h]
  refine ⟨_, rfl, ?_⟩
  dsimp only
  rw [(finish_fields ..).2.2.2.2.2.2.2.2.2.2.2.2.2.2.2.2.1]
  split
  · rfl
  · rfl

theorem exec_dramRetrainDone_takes (s : State) (hOn : s.dev.state ≠ .off) (p : BitVec 12) (l : List LaneEye) (i : Instr) (q : Request)
    (h : s.host.owed.find? (fun e => isDramRetrain e.1) = some (i, q)) : ∃ t, exec (.dramRetrainDone p l) s = .next t ∧
      (∀ a, 2 ^ 20 ≤ a → memGet t.dram.mem a = memGet s.dram.mem a) ∧
      (∀ c, c < 12 →
        let good := testBit (u16 q.arg 0) c = true ∧ (dramCh s c).excluded = false ∧
          testBit p.toNat c = true ∧ channelOk l c = true
        (good → (dramCh t c).trained = true ∧ (dramCh t c).lost = false ∧ (∀ k, k / 10 = c → ∃ e r w, l[k]? = some e ∧
          bestSweep e.read = some r ∧ bestSweep e.write = some w ∧ tabGet (0, 0) t.dram.vrefs k = (r.vref, w.vref) ∧
          tabGet (0, 0) t.dram.delays k = (sweepCentre r, sweepCentre w))) ∧
        (¬good → dramCh t c = dramCh s c ∧ (∀ k, k / 10 = c → tabGet (0, 0) t.dram.vrefs k = tabGet (0, 0) s.dram.vrefs k ∧
          tabGet (0, 0) t.dram.delays k = tabGet (0, 0) s.dram.delays k))) := by
  obtain ⟨t, hdo, hdram⟩ := exec_dramRetrainDone_dram s hOn p l i q h
  obtain ⟨hbytes, hsame, htrain⟩ := passLeaves_foldl l (passChannel l) (passLeaves_passChannel l) (passing q p l s) ((List.nodup_range.filter _).filter _) s
  simp only [channelSame, channelTrained, laneCentred, laneSet, dramCh] at hsame htrain
  rw [← hdram] at hbytes hsame htrain
  refine ⟨t, hdo, hbytes, fun c hc => ⟨fun hgood => ?_, fun hgood => ?_⟩⟩
  · obtain ⟨ht, hlost, hlanes⟩ := htrain c ((mem_passing q p l s c).mpr ⟨hc, hgood⟩) hgood.2.2.2
    refine ⟨ht, hlost, fun k hk => ?_⟩
    obtain ⟨e, r, w, he, hr, hw, hset⟩ := hlanes k hk
    obtain ⟨hv, hd⟩ := Prod.mk.inj hset
    exact ⟨e, r, w, he, hr, hw, hv, hd⟩
  · obtain ⟨hch, hlanes⟩ := hsame c (fun hmem => hgood ((mem_passing q p l s c).mp hmem).2)
    exact ⟨hch, fun k hk => Prod.mk.inj (hlanes k hk)⟩

/-- Settles O48: each row of the channels by its lemma; recentring and retraining by the reserve that they write. -/
theorem dramChannelsAreKept : Obligations.DramChannelsAreKept := by
  unfold Obligations.DramChannelsAreKept
  intro s hOn
  exact ⟨fun c x => ⟨exec_channelLost_stays s hOn c x, exec_channelLost_takes s hOn c x⟩, exec_patrolScrub_takes s hOn,
    exec_refresh_cases s hOn, fun c b => whenOn_of_on (closeRow c.toNat b) s hOn, fun c b => dramCh_modDram ..,
    exec_recentre_cases s hOn, exec_dimmTempPoll_cases s hOn, dimmHot_iff, exec_dramRetrainDone_idle s hOn,
    exec_dramRetrainDone_takes s hOn⟩

end Sys2Proof.Proofs
end

section
/-! SUPPORT. Which port each operation of the crossbar touches (spec/17_dma_and_crossbar.md R379 to R383). -/

namespace Sys2Proof.Laws
open Sys2Proof Sys2Proof.Machine

/-! Other ports. -/

@[simp] theorem port_countN (c : Ctr) (i n : Nat) (s : State) (j : Nat) : port (countN c i n s) j = port s j := rfl
@[simp] theorem port_elapseTo (n : Nat) (s : State) (j : Nat) : port (elapseTo n s) j = port s j := rfl

@[simp] theorem port_raise (code src : Nat) (m : Int) (l : List Int) (s : State) (j : Nat) :
    port (raise code src m l s) j = port s j := rfl

@[simp] theorem port_portStore (p : Nat) (r : PortReq) (s : State) (j : Nat) : port (portStore p r s) j = port s j := by
  unfold portStore
  split
  · rfl
  · split
    · rfl
    · split
      · obtain ⟨q, hq⟩ := queueWrite_touches (r.addr % servicePeg) 4 r.data s
        rw [hq]
        rfl
      · split <;> rfl

@[simp] theorem port_portGrant (p g : Nat) (r : PortReq) (s : State) : port (portGrant p g r s) p = { port s p with
    pointer := r.master, holder := some r.master, freeAt := g + r.beats, waiting := (port s p).waiting.erase r } :=
  port_modPort ..

theorem port_portGrant_ne (p g : Nat) (r : PortReq) (s : State) (j : Nat) (h : j ≠ p) : port (portGrant p g r s) j = port s j :=
  port_modPort_ne p j _ s h

@[simp] theorem port_portFail (p : Nat) (s : State) : port (portFail p s) p = { port s p with
    waiting := [], holder := none, freeAt := min (port s p).freeAt s.time.tb2 } := port_modPort ..

theorem port_portFail_ne (p : Nat) (s : State) (j : Nat) (h : j ≠ p) : port (portFail p s) j = port s j :=
  port_modPort_ne p j _ s h

/-- What grants at a port leave: every other port, and whether this one is down; one with nothing that waits stays so. -/
theorem port_portRunWith_ne (now p n : Nat) (s : State) (j : Nat) (h : j ≠ p) :
    port (portRunWith (portStore p) now p n s) j = port s j := by
  induction n generalizing s with
  | zero => rfl
  | succ n ih =>
    unfold portRunWith
    split
    · split
      · rw [ih, port_portStore, port_portGrant_ne _ _ _ _ _ h]
      · rfl
    · rfl

theorem down_portRunWith (now p n : Nat) (s : State) :
    (port (portRunWith (portStore p) now p n s) p).down = (port s p).down := by
  induction n generalizing s with
  | zero => rfl
  | succ n ih =>
    unfold portRunWith
    split
    · split
      · rw [ih, port_portStore, port_portGrant]
      · rfl
    · rfl

theorem port_portSettle_ne (p : Nat) (s : State) (j : Nat) (h : j ≠ p) : port (portSettle p s) j = port s j := by
  unfold portSettle
  split
  · exact port_portFail_ne p s j h
  · exact port_portRunWith_ne _ p _ s j h

theorem down_portSettle (p : Nat) (s : State) : (port (portSettle p s) p).down = (port s p).down := by
  unfold portSettle
  split
  · rw [port_portFail]
  · exact down_portRunWith _ p _ s

theorem waiting_portSettle (p : Nat) (s : State) (h : (port s p).waiting = []) : (port (portSettle p s) p).waiting = [] := by
  unfold portSettle
  split
  · rw [port_portFail]
  · rw [h]
    exact h

/-! A target that is reset (R383). -/

/-- A port has nothing that waits, and is down or not. -/
def portEmpty (d : Bool) (s : State) (p : Nat) : Prop := (port s p).down = d ∧ (port s p).waiting = []

theorem portEmpty_portSettle {d : Bool} {p : Nat} (q : Nat) {s : State} (h : portEmpty d s p) : portEmpty d (portSettle q s) p := by
  obtain rfl | hne := eq_or_ne p q
  · exact ⟨(down_portSettle p s).trans h.1, waiting_portSettle p s h.2⟩
  · rwa [portEmpty, port_portSettle_ne q s p hne]

theorem portEmpty_modPort {d : Bool} {p : Nat} (q : Nat) {f : Port → Port} {s : State} (h : portEmpty d s p)
    (hd : ∀ x, (f x).down = x.down) (hw : ∀ x, x.waiting = [] → (f x).waiting = []) : portEmpty d (modPort q f s) p := by
  obtain ⟨hdown, hwait⟩ := h
  obtain rfl | hne := eq_or_ne p q
  · rw [portEmpty, port_modPort, hd]
    exact ⟨hdown, hw _ hwait⟩
  · rw [portEmpty, port_modPort_ne q p f s hne]
    exact ⟨hdown, hwait⟩

theorem portEmpty_masterReset {d : Bool} {p : Nat} (m : Nat) {s : State} (h : portEmpty d s p) :
    portEmpty d (masterReset m s) p := by
  unfold masterReset
  generalize s.dma.ports.map (·.1) = l
  induction l generalizing s with
  | nil => exact h
  | cons q l ih =>
    refine ih (portEmpty_modPort q (portEmpty_portSettle q h) (fun _ => rfl) fun x hx => ?_)
    simp [hx]

theorem portEmpty_portReset (d : Bool) (p : Nat) (s : State) : portEmpty d (portReset d p s) p := by
  rw [portEmpty, portReset, port_modPort, port_portFail]
  exact ⟨rfl, rfl⟩

theorem port_portReset_ne (d : Bool) (p : Nat) (s : State) (j : Nat) (h : j ≠ p) : port (portReset d p s) j = port s j := by
  rw [portReset, port_modPort_ne _ _ _ _ h, port_portFail_ne _ _ _ h, port_portSettle_ne _ _ _ h]

/-- A port of a target is reset; with a pitch's its transfer unit (R383). -/
def targetPortReset (d : Bool) (s : State) (p : Nat) : State :=
  portReset d p (if 16 ≤ p then masterReset (4 + (p - 16)) s else s)

theorem portEmpty_targetPortReset {d : Bool} {p : Nat} (q : Nat) {s : State} (h : portEmpty d s p) :
    portEmpty d (targetPortReset d s q) p := by
  obtain rfl | hne := eq_or_ne p q
  · exact portEmpty_portReset d p _
  · rw [portEmpty, targetPortReset, port_portReset_ne _ _ _ _ hne]
    split
    · exact portEmpty_masterReset _ h
    · exact h

theorem portEmpty_foldl_targetPortReset (d : Bool) (l : List Nat) (s : State) {p : Nat} (h : p ∈ l ∨ portEmpty d s p) :
    portEmpty d (l.foldl (targetPortReset d) s) p := by
  induction l generalizing s with
  | nil => exact h.resolve_left List.not_mem_nil
  | cons q l ih =>
    refine ih _ ?_
    rcases h with h | h
    · rcases List.mem_cons.mp h with rfl | h
      · exact .inr (portEmpty_portReset d p _)
      · exact .inl h
    · exact .inr (portEmpty_targetPortReset q h)

/-! The order of grants (R381). -/

theorem rrPick_spec (p : Nat) (l : List PortReq) (r : PortReq) (h : rrPick p l = some r) :
    r ∈ l ∧ ∀ x ∈ l, rrDistance p r.master ≤ rrDistance p x.master := by
  induction l generalizing r with
  | nil => exact absurd h (by simp [rrPick])
  | cons y l ih =>
    unfold rrPick at h
    cases hr : rrPick p l with
    | none =>
      obtain rfl : y = r := by simpa [hr] using h
      obtain rfl : l = [] := by
        cases l with
        | nil => rfl
        | cons z l =>
          unfold rrPick at hr
          split at hr
          · cases hr
          · split at hr <;> cases hr
      simp
    | some x =>
      obtain ⟨hmem, hmin⟩ := ih x hr
      rw [hr] at h
      dsimp only at h
      split at h
      · next hlt =>
        obtain rfl := Option.some.inj h
        exact ⟨.tail _ hmem, List.forall_mem_cons.mpr ⟨hlt.le, hmin⟩⟩
      · next hge =>
        obtain rfl := Option.some.inj h
        exact ⟨.head _, List.forall_mem_cons.mpr ⟨le_rfl, fun z hz => (Nat.le_of_not_lt hge).trans (hmin z hz)⟩⟩

theorem portNext_lone (x : Port) (r : PortReq) (h : x.waiting = [r]) (hr : r.arrival ≤ 2 ^ 64) :
    portNext x = some (max x.freeAt r.arrival, r) := by
  have hg : min (2 ^ 64) r.arrival = r.arrival := Nat.min_eq_right hr
  simp only [portNext, h, List.foldl_cons, List.foldl_nil, hg]
  rw [List.filter_cons_of_pos (by simp)]
  rfl

end Sys2Proof.Laws
end
section
/-! The crossbar (O49). -/

namespace Sys2Proof.Proofs
open Sys2Proof Sys2Proof.Machine Sys2Proof.Laws

/-! The default target (R380). -/

theorem defaultTarget_keeps (m a : Nat) (w : Bool) (s : State) :
    counter .defaultHits m (defaultTarget m a w s) = counter .defaultHits m s + 1 ∧
      tabGet none (defaultTarget m a w s).dma.firstDefault m = some ((tabGet none s.dma.firstDefault m).getD a) ∧
      (∀ p, port (defaultTarget m a w s) p = port s p) := by
  let f : Option Nat → Option Nat := fun x => match x with | some b => some b | none => some a
  let u : State := { s with dma.firstDefault := tabMod none s.dma.firstDefault m f }
  have hu : counter .defaultHits m (count .defaultHits m u) = counter .defaultHits m s + 1 := counter_count ..
  have hf : tabGet none u.dma.firstDefault m = some ((tabGet none s.dma.firstDefault m).getD a) := by
    refine (tabGet_tabMod_same ..).trans ?_
    cases tabGet none s.dma.firstDefault m <;> rfl
  obtain rfl | h1 := eq_or_ne m 1
  · refine ⟨?_, hf, fun _ => rfl⟩
    exact (counter_raise_of_lt _ _ _ _ _ (by decide) (by decide)).trans hu
  · obtain rfl | h0 := eq_or_ne m 0
    · cases w with
      | true => exact ⟨(counter_count_of_ne 0 _ (by decide)).trans hu, hf, fun _ => rfl⟩
      | false => exact ⟨hu, hf, fun _ => rfl⟩
    · have ht : defaultTarget m a w s = count .defaultHits m u := by
        unfold defaultTarget
        dsimp only
        rw [if_neg h1, if_pos h0] <;> rfl
      rw [ht]
      exact ⟨hu, hf, fun _ => rfl⟩

/-! Requests (R379 to R382). -/

theorem exec_crossbarRequest (s : State) (hOn : s.dev.state ≠ .off) (m g : BitVec 5) (o : BitVec 4) (a n : Nat) (b : BitVec 3)
    (l : List Byte) : exec (.crossbarRequest m g o a n b l) s = .next (
      let p := portOf m.toNat g.toNat a
      if !hasPath s m.toNat g.toNat a n then answerError m.toNat o.toNat m.toNat (defaultTarget m.toNat a (!l.isEmpty) s)
      else if targetDown s p then answerError m.toNat o.toNat 7 (resetAnswer p s)
      else if (port (portSettle p s) p).waiting.any (fun r => r.master = m.toNat) then portSettle p s
      else portJoin p {
        master := m.toNat, addr := a, bytes := n, beats := b.toNat, data := l, arrival := (portSettle p s).time.tb2 }
          (portSettle p s)) := by
  change execCrossbarRequest m g o a n b l s = _
  rw [execCrossbarRequest, whenOn_of_on _ s hOn]

theorem exec_portIdle (s : State) (hOn : s.dev.state ≠ .off) (g : BitVec 5) :
    exec (.portIdle g) s = .next ((portsOf g.toNat).foldl (fun s p => portIdle p s) s) := by
  change execPortIdle g s = _
  rw [execPortIdle, whenOn_of_on _ s hOn]

theorem exec_targetReset (s : State) (hOn : s.dev.state ≠ .off) (g : BitVec 5) (d : Bool) :
    exec (.targetReset g d) s = .next ((portsOf g.toNat).foldl (targetPortReset d) s) := by
  change execTargetReset g d s = _
  rw [execTargetReset, whenOn_of_on _ s hOn]
  rfl

theorem port_portJoin (p : Nat) (r : PortReq) (s : State) :
    let x := port s p
    let asleep := x.idle = true ∨ x.waiting = [] ∧ x.freeAt + 8 ≤ r.arrival
    port (portJoin p r s) p = { x with
      idle := false, holder := if asleep then none else x.holder
      freeAt := if asleep then r.arrival + 1 else x.freeAt, waiting := x.waiting ++ [r] } := by
  intro x asleep
  have hcond : (x.idle || (x.waiting.isEmpty && decide (x.freeAt + 8 ≤ r.arrival))) = true ↔ asleep := by simp [asleep]
  rw [portJoin, port_modPort]
  simp only [hcond, x]

theorem portIdle_cases (p : Nat) (s : State) :
    let u := portSettle p s
    (((port u p).idle = true ∨ (port u p).waiting ≠ []) → portIdle p s = u) ∧
      ((port u p).idle = false → (port u p).waiting = [] → portIdle p s =
        modPort p (fun x => { x with idle := true, holder := none }) (elapseTo ((port u p).freeAt + 8) u)) := by
  intro u
  refine ⟨fun h => if_pos ?_, fun hi hw => if_neg ?_⟩
  · rcases h with h | h
    · exact Bool.or_eq_true_iff.mpr (.inl h)
    · exact Bool.or_eq_true_iff.mpr (.inr (by simpa using h))
  · change ¬(((port u p).idle || !(port u p).waiting.isEmpty) = true)
    simp [hi, hw]

/-! Targets that are reset (R383). -/

theorem targetReset_ports (g : BitVec 5) (d : Bool) (s : State) :
    let t := (portsOf g.toNat).foldl (targetPortReset d) s
    (∀ p ∈ portsOf g.toNat, (port t p).down = d ∧ (port t p).waiting = []) ∧
      (g.toNat ≤ 7 → g ≠ 1 → ∀ p, p ≠ g.toNat → port t p = port s p) := by
  refine ⟨fun p hp => portEmpty_foldl_targetPortReset d _ s (.inl hp), fun hg h1 p hp => ?_⟩
  have hne : g.toNat ≠ 1 := fun h => h1 (BitVec.eq_of_toNat_eq h)
  have hl : portsOf g.toNat = [g.toNat] := by
    rw [portsOf, if_neg hne, if_pos (.inl hg)]
  rw [hl, List.foldl_cons, List.foldl_nil, targetPortReset, if_neg (by omega)]
  exact port_portReset_ne d g.toNat s p hp

/-! A lone request (R379, R381). -/

theorem portSettle_lone (s : State) (p : Nat) (r : PortReq) (hd : targetDown s p = false) (hw : (port s p).waiting = [r])
    (ha : r.arrival ≤ 2 ^ 64) : portSettle p s =
      if max (port s p).freeAt r.arrival < s.time.tb2 then portStore p r (portGrant p (max (port s p).freeAt r.arrival) r s) else s := by
  have hnext := portNext_lone (port s p) r hw ha
  rw [portSettle, if_neg (by simp [hd]), hw]
  simp only [List.length_singleton, portRunWith, hnext]

/-- Settles O49: the default target, a request, a port that becomes idle and a target that is reset by one equation each, the next
master by induction over those that wait, and a lone request by its one grant. -/
theorem crossbarGrantsInTurn : Obligations.CrossbarGrantsInTurn := by
  refine ⟨fun s hOn => ⟨fun m g o a n b l hp => ?_, fun m a w => defaultTarget_keeps m a w s, fun m g o a n b l hp => ?_,
    fun p r => ⟨port_portJoin p r s, fun j hj => port_modPort_ne p j _ s hj⟩, exec_portIdle s hOn,
    fun p => portIdle_cases p s, fun g d => ⟨_, exec_targetReset s hOn g d, rfl, targetReset_ports g d s⟩⟩, rrPick_spec, ?_⟩
  · rw [exec_crossbarRequest s hOn]
    exact congrArg _ (if_pos (by simp [hp]))
  · rw [exec_crossbarRequest s hOn]
    have hpath : ¬((!hasPath s m.toNat g.toNat a n) = true) := by simp [hp]
    refine ⟨fun hd => ?_, fun hd ht => ?_, fun hd ht => ?_⟩
    · exact congrArg _ ((if_neg hpath).trans (if_pos hd))
    · exact congrArg _ ((if_neg hpath).trans ((if_neg (by simp [hd])).trans (if_pos ht)))
    · exact congrArg _ ((if_neg hpath).trans ((if_neg (by simp [hd])).trans (if_neg (Bool.not_eq_true _ ▸ ht))))
  · intro s p r hd hw ha g
    have h := portSettle_lone s p r hd hw ha
    refine ⟨fun hle => h.trans (if_neg (Nat.not_lt.mpr hle)), fun hlt => ?_⟩
    have hgrant := h.trans (if_pos hlt)
    refine ⟨hgrant, ?_⟩
    rw [hgrant, port_portStore, port_portGrant, hw, List.erase_cons_head]

end Sys2Proof.Proofs
end

section
/-! SUPPORT. Bursts, beats and the end of a descriptor (spec/17_dma_and_crossbar.md R385 to R392). -/

namespace Sys2Proof.Laws
open Sys2Proof Sys2Proof.Machine

/-! Bursts (R386, R388). -/

theorem pageUp_spec (x : Nat) : 1 ≤ pageUp x ∧ pageUp x ≤ 4096 ∧ ∀ n, 1 ≤ n → n ≤ pageUp x → x / 4096 = (x + n - 1) / 4096 := by
  unfold pageUp
  refine ⟨by omega, by omega, fun n h1 hn => by omega⟩

theorem pageDown_spec (x : Nat) : 1 ≤ pageDown x ∧ pageDown x ≤ 4096 ∧
    ∀ a n, 1 ≤ n → n ≤ pageDown x → a + n = x → a / 4096 = (a + n - 1) / 4096 := by
  unfold pageDown
  split
  · exact ⟨by omega, le_rfl, fun a n h1 hn ha => by omega⟩
  · exact ⟨by omega, by omega, fun a n h1 hn ha => by omega⟩

/-- Bursts of a copy that runs ascending. -/
theorem nextBurst_up (d : Desc) (k : Nat) (h : descDown d = false) :
    nextBurst d k = (k, min (d.len - k) (min (pageUp (d.src + k)) (pageUp (d.dst + k)))) :=
  if_neg (by simp [h])

/-- Bursts of a copy that runs descending. -/
theorem nextBurst_down (d : Desc) (k : Nat) (h : descDown d = true) :
    nextBurst d k = (d.len - k - min (d.len - k) (min (pageDown (d.src + (d.len - k))) (pageDown (d.dst + (d.len - k)))),
      min (d.len - k) (min (pageDown (d.src + (d.len - k))) (pageDown (d.dst + (d.len - k))))) :=
  if_pos h

theorem nextBurst_fits (d : Desc) (k : Nat) (hk : k < d.len) :
    let b := nextBurst d k
    1 ≤ b.2 ∧ b.2 ≤ 4096 ∧ b.1 + b.2 ≤ d.len ∧
      (d.src + b.1) / 4096 = (d.src + b.1 + b.2 - 1) / 4096 ∧ (d.dst + b.1) / 4096 = (d.dst + b.1 + b.2 - 1) / 4096 := by
  cases h : descDown d with
  | false =>
    rw [nextBurst_up d k h]
    obtain ⟨hs1, hs2, hs⟩ := pageUp_spec (d.src + k)
    obtain ⟨hd1, hd2, hd⟩ := pageUp_spec (d.dst + k)
    exact ⟨by omega, by omega, by omega, hs _ (by omega) (by omega), hd _ (by omega) (by omega)⟩
  | true =>
    rw [nextBurst_down d k h]
    obtain ⟨hs1, hs2, hs⟩ := pageDown_spec (d.src + (d.len - k))
    obtain ⟨hd1, hd2, hd⟩ := pageDown_spec (d.dst + (d.len - k))
    exact ⟨by omega, by omega, by omega, hs _ _ (by omega) (by omega) (by omega), hd _ _ (by omega) (by omega) (by omega)⟩

/-- A burst overwrites nothing that is still to be read (R388). -/
theorem nextBurst_spares (d : Desc) (k : Nat) (hk : k < d.len) (hspace : d.srcSpace = d.dstSpace) (a : Nat) :
    let b := nextBurst d k
    d.dst + b.1 ≤ a → a < d.dst + b.1 + b.2 →
      (descDown d = true → ¬ (d.src ≤ a ∧ a < d.src + b.1)) ∧
      (descDown d = false → ¬ (d.src + b.1 + b.2 ≤ a ∧ a < d.src + d.len)) := by
  intro b hlo hhi
  have hfit : b.1 + b.2 ≤ d.len := (nextBurst_fits d k hk).2.2.1
  have hdown : descDown d = true ↔ (d.src < d.dst + d.len ∧ d.dst < d.src + d.len) ∧ d.src < d.dst := by
    simp [descDown, descOverlap, hspace]
  refine ⟨fun h => ?_, fun h => ?_⟩
  · have := (hdown.mp h).2
    omega
  · have := mt hdown.mpr (Bool.eq_false_iff.mp h)
    omega

/-! The holding register (R387). -/

theorem beatsOf_whole (w : Nat) (hw : 0 < w) (k : Nat) (l : List Byte) (h : l.length = k * w) :
    (beatsOf w k l).flatten = l ∧ ∀ b ∈ beatsOf w k l, b.length = w := by
  induction k generalizing l with
  | zero =>
    obtain rfl := List.length_eq_zero_iff.mp (h.trans (Nat.zero_mul w))
    exact ⟨rfl, fun b hb => absurd hb List.not_mem_nil⟩
  | succ k ih =>
    rw [Nat.succ_mul] at h
    have hne : ¬(l.isEmpty = true) := fun he => by
      obtain rfl := List.isEmpty_iff.mp he
      rw [List.length_nil] at h
      omega
    obtain ⟨hflat, hlen⟩ := ih (l.drop w) (by rw [List.length_drop]; omega)
    rw [beatsOf, if_neg hne]
    refine ⟨?_, List.forall_mem_cons.mpr ⟨List.length_take_of_le (by omega), hlen⟩⟩
    rw [List.flatten_cons, hflat, List.take_append_drop]

theorem holdBeat_spec (w : Nat) (hw : 0 < w) (h b : List Byte) : let r := holdBeat w h b
    r.1.flatten ++ r.2 = h ++ b ∧ (∀ x ∈ r.1, x.length = w) ∧ r.2.length < w := by
  have hdiv := Nat.div_mul_le_self (h ++ b).length w
  obtain ⟨hflat, hlen⟩ := beatsOf_whole w hw ((h ++ b).length / w) ((h ++ b).take ((h ++ b).length / w * w))
    (List.length_take_of_le hdiv)
  refine ⟨?_, hlen, ?_⟩
  · rw [holdBeat, hflat, List.take_append_drop]
  · rw [holdBeat, List.length_drop]
    have := Nat.div_add_mod (h ++ b).length w
    have := Nat.mod_lt (h ++ b).length hw
    have := Nat.mul_comm w ((h ++ b).length / w)
    omega

theorem holdBeats_spec (w : Nat) (hw : 0 < w) (l : List (List Byte)) (h : List Byte) : let r := holdBeats w l h
    r.1.flatten ++ r.2 = h ++ l.flatten ∧ (∀ b ∈ r.1, b.length = w) ∧ (l ≠ [] → r.2.length < w) := by
  induction l generalizing h with
  | nil => exact ⟨by simp [holdBeats], fun b hb => absurd hb List.not_mem_nil, fun hn => absurd rfl hn⟩
  | cons b l ih =>
    obtain ⟨hflat, hlen, hrest⟩ := holdBeat_spec w hw h b
    obtain ⟨ihflat, ihlen, ihrest⟩ := ih (holdBeat w h b).2
    refine ⟨?_, fun x hx => (List.mem_append.mp hx).elim (hlen x) (ihlen x), fun _ => ?_⟩
    · rw [holdBeats, List.flatten_append, List.append_assoc, ihflat, ← List.append_assoc, hflat, List.flatten_cons, List.append_assoc]
    · cases l with
      | nil => exact hrest
      | cons y l => exact ihrest (List.cons_ne_nil y l)

/-! The end of a descriptor (R389, R390). -/

/-- A channel whose first descriptor has ended. -/
def descEnded (code : Nat) (tag : BitVec 32) (residue : Nat) (c : DmaCh) : DmaCh :=
  { c with
    queue := c.queue.drop 1, fetched := 0, buffer := [], holding := [], issued := 0, error := none
    lastStatus := code, record := (code, tag, residue)
    sticky := c.sticky ||| (if code = 0 then 0 else if code = 1 then 0x40 else 0x80) }

theorem noteDesc_dma (ch code : Nat) (tag : BitVec 32) (n : Nat) (s : State) : (noteDesc ch code tag n s).dma =
    (modDma ch (fun c => { c with
      lastStatus := code, record := (code, tag, n)
      sticky := c.sticky ||| (if code = 0 then 0 else if code = 1 then 0x40 else 0x80) }) s).dma := by
  unfold noteDesc
  dsimp only
  split <;> rfl

theorem dmaCh_congr {s t : State} (h : t.dma = s.dma) (c : Nat) : dmaCh t c = dmaCh s c := by unfold dmaCh; rw [h]

theorem dmaCh_completeDesc (ch : Nat) (d : Desc) (code residue : Nat) (s : State) :
    dmaCh (completeDesc ch d code residue s) ch = descEnded code d.tag residue (dmaCh s ch) := by
  have hdma : ∀ t : State, (if !d.interrupt then settle (.dmaCopy d.req) d.req t
      else finish (.dmaCopy d.req) 0x0A00 d.req (dmaStatusOf code) (d.len - residue) code ([0, 0, 0] ++ leBytes 4 residue) t).dma
        = t.dma := fun t => by split <;> rfl
  rw [completeDesc, dmaCh_congr (hdma _), dmaCh_congr (noteDesc_dma ..), dmaCh_modDma, dmaCh_modDma]
  rfl

/-- What a channel that has completed the aborted descriptors behind one holds: the others queued, and nothing of a burst. -/
theorem completeAborted_spec (ch n : Nat) (s : State) (hq : (dmaCh s ch).queue.length ≤ n) (hi : (dmaCh s ch).issued = 0)
    (he : (dmaCh s ch).error = none) : let t := completeAborted ch n s
    (dmaCh t ch).queue = (dmaCh s ch).queue.dropWhile (fun x => x.abort) ∧ (dmaCh t ch).issued = 0 ∧ (dmaCh t ch).error = none := by
  induction n generalizing s with
  | zero =>
    have hnil := List.length_eq_zero_iff.mp (Nat.le_zero.mp hq)
    exact ⟨by rw [hnil]; exact hnil, hi, he⟩
  | succ n ih =>
    unfold completeAborted
    cases h : (dmaCh s ch).queue with
    | nil => exact ⟨h, hi, he⟩
    | cons d l =>
      dsimp only
      cases ha : d.abort with
      | false =>
        rw [if_neg Bool.false_ne_true, List.dropWhile_cons_of_neg (by simp [ha])]
        exact ⟨h, hi, he⟩
      | true =>
        rw [if_pos rfl, List.dropWhile_cons_of_pos (by simp [ha])]
        have hch := dmaCh_completeDesc ch d 1 d.len s
        have hl : (dmaCh (completeDesc ch d 1 d.len s) ch).queue = l := by
          rw [hch, descEnded, h]
          rfl
        rw [h, List.length_cons] at hq
        have h := ih (completeDesc ch d 1 d.len s) (by rw [hl]; omega) (by rw [hch]; rfl) (by rw [hch]; rfl)
        rwa [hl] at h

theorem completeAborted_none (ch n : Nat) (s : State) (h : ∀ y r, (dmaCh s ch).queue = y :: r → y.abort = false) :
    completeAborted ch n s = s := by
  cases n with
  | zero => rfl
  | succ n =>
    unfold completeAborted
    cases hq : (dmaCh s ch).queue with
    | nil => rfl
    | cons y r => exact if_neg (by simp [h y r hq])

end Sys2Proof.Laws
end
section
/-! The DMA channels (O50). -/

namespace Sys2Proof.Proofs
open Sys2Proof Sys2Proof.Machine Sys2Proof.Laws

/-! What the engines serve (R386, R388, R390, R391). -/

theorem running_eq_none (s : State) (c : Nat) : let x := dmaCh s c
    running s c = none ↔ x.queue = [] ∨ ∃ d l, x.queue = d :: l ∧
      (descBad (ringChannel s c) d = true ∨ d.abort = true ∨ x.error ≠ none) := by
  intro x
  unfold running
  change (match x.queue with
    | [] => none
    | d :: _ => if descBad (ringChannel s c) d || d.abort || x.error.isSome then none else some d) = none ↔ _
  cases x.queue with
  | nil => simp
  | cons d l => simp [Option.isSome_iff_ne_none, or_assoc, and_assoc, imp_iff_not_or]

theorem readDesc_eq_some (s : State) (c : Nat) (d : Desc) : let x := dmaCh s c
    readDesc s c = some d ↔ running s c = some d ∧ x.fetched < d.len ∧ (descOverlap d = true → x.buffer = []) ∧
      (x.buffer.map (fun e => e.2.length)).sum + (nextBurst d x.fetched).2 ≤ 32768 := by
  intro x
  unfold readDesc
  rw [Option.filter_eq_some_iff]
  simp only [Bool.and_eq_true, decide_eq_true_eq, Bool.or_eq_true, Bool.not_eq_true', List.isEmpty_iff, and_assoc, x]
  simp only [imp_iff_not_or, Bool.not_eq_true]

theorem writeDesc_eq_some (s : State) (c : Nat) (d : Desc) :
    writeDesc s c = some d ↔ running s c = some d ∧ (dmaCh s c).buffer ≠ [] := by
  unfold writeDesc
  rw [Option.filter_eq_some_iff]
  simp

theorem exec_dmaBurst (s : State) (hOn : s.dev.state ≠ .off) (c : BitVec 4) (p : BurstPart) (x : BurstAnswer) :
    let u := if p = .write then s else dmaReadTurn c.toNat x s
    exec (.dmaBurst c p x) s = .next (if p = .read then u else dmaWriteTurn c.toNat x u) := by
  change execDmaBurst c p x s = _
  rw [execDmaBurst, whenOn_of_on _ s hOn]

theorem dmaReadTurn_cases (c : Nat) (x : BurstAnswer) (s : State) :
    let turn := engineTurn s.dma.turn c (fun k => (readDesc s k).isSome)
    ((readDesc s c = none ∨ turn = false) → dmaReadTurn c x s = s) ∧
      (∀ d, readDesc s c = some d → turn = true → dmaReadTurn c x s = readBurstOf c d x { s with dma.turn := c }) := by
  intro turn
  unfold dmaReadTurn
  cases readDesc s c with
  | none => exact ⟨fun _ => rfl, fun d hd => nomatch hd⟩
  | some d =>
    refine ⟨fun h => ?_, fun e he ht => ?_⟩
    · have hf : turn = false := h.resolve_left (Option.some_ne_none d)
      exact if_neg (Bool.not_eq_true _ ▸ hf)
    · obtain rfl := Option.some.inj he
      exact if_pos ht

theorem dmaWriteTurn_cases (c : Nat) (x : BurstAnswer) (s : State) :
    let turn := engineTurn s.dma.writeTurn c (fun k => (writeDesc s k).isSome)
    ((writeDesc s c = none ∨ turn = false) → dmaWriteTurn c x s = s) ∧
      (∀ d, writeDesc s c = some d → turn = true → dmaWriteTurn c x s = writeBurstOf c d x { s with dma.writeTurn := c }) := by
  intro turn
  unfold dmaWriteTurn
  cases writeDesc s c with
  | none => exact ⟨fun _ => rfl, fun d hd => nomatch hd⟩
  | some d =>
    refine ⟨fun h => ?_, fun e he ht => ?_⟩
    · have hf : turn = false := h.resolve_left (Option.some_ne_none d)
      exact if_neg (Bool.not_eq_true _ ▸ hf)
    · obtain rfl := Option.some.inj he
      exact if_pos ht

/-! Bursts (R362, R386 to R388, R391, R392). -/

theorem readBurstOf_cases (s : State) (c : Nat) (d : Desc) (x : BurstAnswer) : let k := (dmaCh s c).fetched
    let b := nextBurst d k
    let u := if k = 0 && descOverlap d then count .overlap c s else s
    let a := d.src + b.1
    let denied := (d.srcSpace = 6 ∧ hostRangeOk u false a b.2 = false) ∨
      (d.dstSpace = 6 ∧ hostRangeOk u true (d.dst + b.1) b.2 = false) ∨ x = .windowDenied
    let stop := targetStop 2 d.srcSpace a b.2 u
    let r := spaceRead d.srcSpace a b.2 (x = .ue) (portServe (2 ^ d.srcWidth) 2 (portOf 2 d.srcSpace a) a b.2 u)
    (denied → readBurstOf c d x s = dmaError c 5 false u) ∧
    (∀ e v, ¬denied → stop = some (e, v) → readBurstOf c d x s = dmaError c e false v) ∧
    (¬denied → stop = none → x = .errorSrc → readBurstOf c d x s = dmaError c 2 false (defaultTarget 2 a false u)) ∧
    (¬denied → stop = none → x ≠ .errorSrc → r.2.1 = true → readBurstOf c d x s = dmaError c 6 false r.2.2) ∧
    (¬denied → stop = none → x ≠ .errorSrc → r.2.1 = false → readBurstOf c d x s =
      modDma c (fun y => { y with fetched := y.fetched + b.2, buffer := y.buffer ++ [(b.1, r.1)] }) r.2.2) := by
  intro k b u a denied stop r
  have hdenied : ((d.srcSpace = 6 && !hostRangeOk u false a b.2) || (d.dstSpace = 6 && !hostRangeOk u true (d.dst + b.1) b.2) ||
      x = .windowDenied) = true ↔ denied := by simp [denied, or_assoc]
  have h : readBurstOf c d x s = if denied then dmaError c 5 false u else match stop with
      | some (e, v) => dmaError c e false v
      | none => if x = .errorSrc then dmaError c 2 false (defaultTarget 2 a false u)
        else if r.2.1 then dmaError c 6 false r.2.2
        else modDma c (fun y => { y with fetched := y.fetched + b.2, buffer := y.buffer ++ [(b.1, r.1)] }) r.2.2 :=
    ite_congr (propext hdenied) (fun _ => rfl) fun _ => rfl
  rw [h]
  refine ⟨fun hd => if_pos hd, fun e v hd hs => (if_neg hd).trans (by rw [hs]), fun hd hs hx => ?_, fun hd hs hx hr => ?_,
    fun hd hs hx hr => ?_⟩
  all_goals rw [if_neg hd, hs]
  · exact if_pos hx
  · exact (if_neg hx).trans (if_pos hr)
  · exact (if_neg hx).trans (if_neg (Bool.not_eq_true _ ▸ hr))

theorem writeBurstOf_cases (s : State) (c : Nat) (d : Desc) (x : BurstAnswer) (o : Nat) (l : List Byte)
    (rest : List (Nat × List Byte)) (hbuf : (dmaCh s c).buffer = (o, l) :: rest) : let a := d.dst + o
    let n := l.length
    let last := decide (d.len ≤ (dmaCh s c).issued + n)
    let issued := fun s => countN .dmaBytes c n (modDma c (fun y => { y with issued := y.issued + n, buffer := rest }) s)
    let denied := d.dstSpace = 6 ∧ hostRangeOk s true a n = false
    let gone := d.dstSpace = 6 ∧ hostReachable s = false
    let stop := targetStop 3 d.dstSpace a n s
    let u := issued (portServe (2 ^ d.dstWidth) 3 (portOf 3 d.dstSpace a) a n s)
    let free := freeBytes n u
    let h := holdBeats (2 ^ d.dstWidth) (beatsOf (2 ^ d.srcWidth) n l) (dmaCh u c).holding
    (denied → writeBurstOf c d x s = dmaError c 5 false s) ∧
    (¬denied → gone → writeBurstOf c d x s = dmaError c 3 false s) ∧
    (∀ e v, ¬denied → ¬gone → stop = some (e, v) → writeBurstOf c d x s = dmaError c e last (issued v)) ∧
    (¬denied → ¬gone → stop = none → x = .errorDst →
      writeBurstOf c d x s = dmaError c 3 last (issued (defaultTarget 3 a true s))) ∧
    (¬denied → ¬gone → stop = none → x = .targetReset → writeBurstOf c d x s =
      dmaError c 7 last (count .resetErrors (portOf 3 d.dstSpace a) (spaceWrite d.dstSpace a free.1 free.2))) ∧
    (¬denied → ¬gone → stop = none → x ≠ .errorDst → x ≠ .targetReset → writeBurstOf c d x s =
      modDma c (fun y => { y with holding := h.2 }) (putBeats d.dstSpace a h.1 u)) := by
  intro a n last issued denied gone stop u free h
  have hdenied : (d.dstSpace = 6 && !hostRangeOk s true a n) = true ↔ denied := by simp [denied]
  have hgone : (d.dstSpace = 6 && !hostReachable s) = true ↔ gone := by simp [gone]
  have hw : writeBurstOf c d x s = if denied then dmaError c 5 false s else if gone then dmaError c 3 false s else match stop with
      | some (e, v) => dmaError c e last (issued v)
      | none => if x = .errorDst then dmaError c 3 last (issued (defaultTarget 3 a true s))
        else if x = .targetReset then
          dmaError c 7 last (count .resetErrors (portOf 3 d.dstSpace a) (spaceWrite d.dstSpace a free.1 free.2))
        else modDma c (fun y => { y with holding := h.2 }) (putBeats d.dstSpace a h.1 u) := by
    unfold writeBurstOf
    rw [hbuf]
    exact ite_congr (propext hdenied) (fun _ => rfl) fun _ => ite_congr (propext hgone) (fun _ => rfl) fun _ => rfl
  rw [hw]
  refine ⟨fun hd => if_pos hd, fun hd hg => (if_neg hd).trans (if_pos hg),
    fun e v hd hg hs => (if_neg hd).trans ((if_neg hg).trans (by rw [hs])), fun hd hg hs hx => ?_, fun hd hg hs hx => ?_,
    fun hd hg hs hx hy => ?_⟩
  all_goals rw [if_neg hd, if_neg hg, hs]
  · exact if_pos hx
  · obtain rfl := hx
    exact (if_neg (nofun)).trans (if_pos rfl)
  · exact (if_neg hx).trans (if_neg hy)

/-! The end of a descriptor (R389, R390). -/

theorem exec_dmaDescriptorComplete (s : State) (hOn : s.dev.state ≠ .off) (c : BitVec 4) :
    exec (.dmaDescriptorComplete c) s = .next (match (dmaCh s c.toNat).queue with
      | [] => s
      | d :: rest => match descOutcome (ringChannel s c.toNat) (dmaCh s c.toNat) d with
        | none => s
        | some (code, residue) => completeAborted c.toNat rest.length (completeDesc c.toNat d code residue s)) := by
  change execDmaDescriptorComplete c s = _
  rw [execDmaDescriptorComplete, whenOn_of_on _ s hOn] <;> rfl

theorem completeAborted_completeDesc (c : Nat) (d : Desc) (l : List Desc) (o : Nat × Nat) (s : State)
    (hq : (dmaCh s c).queue = d :: l) : let t := completeAborted c l.length (completeDesc c d o.1 o.2 s)
    (dmaCh t c).queue = l.dropWhile (fun x => x.abort) ∧ (dmaCh t c).issued = 0 ∧ (dmaCh t c).error = none ∧
      ((∀ y r, l = y :: r → y.abort = false) → (dmaCh t c).record = (o.1, d.tag, o.2)) := by
  have hch := dmaCh_completeDesc c d o.1 o.2 s
  have hl : (dmaCh (completeDesc c d o.1 o.2 s) c).queue = l := by
    rw [hch, descEnded, hq]
    rfl
  obtain ⟨hqueue, hissued, herror⟩ := completeAborted_spec c l.length (completeDesc c d o.1 o.2 s) (by rw [hl])
    (by rw [hch]; rfl) (by rw [hch]; rfl)
  rw [hl] at hqueue
  refine ⟨hqueue, hissued, herror, fun h => ?_⟩
  rw [completeAborted_none c l.length _ (by rwa [hl]), hch]
  rfl

/-- Settles O50: the bursts from the page bounds of either address, the holding register by induction over its beats, each burst by its
one chain of checks, and the end of a descriptor by induction over the aborted ones behind it. -/
theorem dmaCopiesInBurstsAndCompletes : Obligations.DmaCopiesInBurstsAndCompletes := by
  refine ⟨fun d k ring _ hk => ?_, fun w l h hw => holdBeats_spec w hw l h, fun s hOn => ⟨fun c => ⟨running_eq_none s c,
    readDesc_eq_some s c, writeDesc_eq_some s c⟩, exec_dmaBurst s hOn, fun c x => dmaReadTurn_cases c x s,
    fun c x => dmaWriteTurn_cases c x s, readBurstOf_cases s, writeBurstOf_cases s, fun c hq => ?_, fun c d l hq => ?_⟩⟩
  · obtain ⟨h1, h4096, hlen, hsrc, hdst⟩ := nextBurst_fits d k hk
    exact ⟨h1, h4096, hlen, hsrc, hdst, fun hspace a => nextBurst_spares d k hk hspace a⟩
  · rw [exec_dmaDescriptorComplete s hOn, hq]
  · rw [exec_dmaDescriptorComplete s hOn, hq]
    refine ⟨fun ho => by dsimp only; rw [ho], fun o ho => ⟨_, by dsimp only; rw [ho], rfl, ?_⟩⟩
    exact completeAborted_completeDesc c.toNat d l o s hq

end Sys2Proof.Proofs
end

section
/-! Frames that reach ingest (O23). -/

namespace Sys2Proof.Proofs
open Sys2Proof Sys2Proof.Machine Sys2Proof.Laws

/-! The twin quad carries no data frames (R419): a whole one there counts FRAMES_OK and goes no further. -/

/-- A data frame of eight bytes, all but its END received. -/
def eightByteFrame : RxFrame := { kind := 1, length := 8, bytes := List.replicate 8 0 }

/-- READY, with the twin on quad 0, whose link is ACTIVE with that frame in progress. -/
def twinQuadReceiving : State :=
  let s := State.reset
  { s with dev.state := .ready, twin.quad := some 0, lanes.quads := [(0, { mode := .gul, state := .active, rxFrame := some eightByteFrame })] }

/-- The frame's END, as it is received. -/
def eightByteEnd : GulBlock := received 5 { header := 2, payload := payloadOf (controlBytes (.fin 0 0x85D3B3AE)) }

set_option maxRecDepth 4096 in
theorem eightByteEnd_plain : let b := plainBlock eightByteEnd
    (blockBad b || inBadCodeword twinQuadReceiving 0 0) = false ∧ b.header ≠ 1 ∧
      controlOf b.payload = some (.fin 0 0x85D3B3AE) ∧ gulError eightByteFrame 0 0x85D3B3AE = none := by
  and_intros <;> decide

theorem gulBlock_fin_whole (k : Nat) (x : GulBlock) (s : State) (f : RxFrame) (pad : Byte) (crc : Nat)
    (hbad : (blockBad (plainBlock x) || inBadCodeword s k (quad s k).rxPos) = false) (hheader : (plainBlock x).header ≠ 1)
    (hfin : controlOf (plainBlock x).payload = some (.fin pad crc)) (hf : (quad s k).rxFrame = some f)
    (hwhole : gulError f pad.toNat crc = none) : gulBlock k x s =
      deliverFrame k f (modQuad k (fun q => { q with rxFrame := none }) (modQuad k (fun q => { q with rxPos := q.rxPos + 1 }) s)) := by
  unfold gulBlock
  dsimp only
  rw [hbad, if_neg Bool.false_ne_true, if_neg hheader, hfin, hf]
  dsimp only
  rw [hwhole]

/-- The twin quad delivers no frame to ingest (R272, R419). -/
theorem deliverFrame_twinQuad (k : Nat) (f : RxFrame) (s : State) (h : s.twin.quad = some k) :
    deliverFrame k f s = count .framesOk k s := if_neg (by simp [h])

theorem cycle_ingestPacket_short (k : Nat) (b : List Byte) (hb : b.length < 32) (s : State) (h : s.ingest.cycle = none) :
    (ingestPacket k .gul 0 0 0 b s).ingest.cycle = some (s.time.tb2, k) := by
  unfold ingestPacket inTurn
  rw [h, if_pos hb]
  rfl

/-- Refutes O23: a whole data frame on the quad that the twin uses is counted and, in READY too, not handed to ingest. -/
theorem not_framesReachIngestOnlyWhole : ¬ Obligations.FramesReachIngestOnlyWhole := by
  intro h
  obtain ⟨-, -, hblock, -⟩ := h twinQuadReceiving (by decide)
  obtain ⟨-, -, -, -, -, hend⟩ := hblock 0 eightByteEnd
  obtain ⟨hbad, hheader, hfin, hwhole⟩ := eightByteEnd_plain
  have heq := hend 0 0x85D3B3AE eightByteFrame hbad hheader hfin rfl hwhole rfl rfl
  rw [gulBlock_fin_whole 0 _ _ _ _ _ hbad hheader hfin rfl hwhole, deliverFrame_twinQuad 0 _ _ rfl] at heq
  have hcycle := (congrArg (fun t : State => t.ingest.cycle) heq).trans
    (cycle_ingestPacket_short 0 (eightByteFrame.bytes.take eightByteFrame.length) (by decide) _ rfl)
  cases hcycle

end Sys2Proof.Proofs
end

section
/-! SUPPORT. What transfers, staging and completions leave of the start-up state, and bank control (spec/18_startup_and_trust.md
R399, R406 to R412). -/

namespace Sys2Proof.Laws
open Sys2Proof Sys2Proof.Machine

/-! The DRAM's bursts. -/

/-- `t` is `s` but for the DRAM's bytes, channels and queue, the counters and the free values drawn. -/
def dramStep (s t : State) : Prop := ∃ m x q n k,
  t = { s with dram.mem := m, dram.chans := x, dram.queue := q, counters := n, fresh := k }

theorem dramStep_refl (s : State) : dramStep s s := ⟨_, _, _, _, _, rfl⟩

theorem dramStep_trans {s t u : State} (h : dramStep s t) (h' : dramStep t u) : dramStep s u := by
  obtain ⟨m, x, q, n, k, rfl⟩ := h
  obtain ⟨m', x', q', n', k', rfl⟩ := h'
  exact ⟨m', x', q', n', k', rfl⟩

theorem dramStep_of_dramAccess {s t : State} (h : dramAccess s t) : dramStep s t := by
  obtain ⟨m, x, n, k, hf⟩ := h.frame
  exact ⟨m, x, _, n, k, hf⟩

theorem dramStep_serveN (n : Nat) (p : DramReq → Bool) (s : State) : dramStep s (serveN n p s) := by
  induction n generalizing s with
  | zero => exact dramStep_refl s
  | succ n ih =>
    unfold serveN
    split
    · exact dramStep_refl s
    · next r _ =>
      have hqueue : dramStep s { s with dram.queue := s.dram.queue.erase r } := ⟨_, _, _, _, _, rfl⟩
      exact dramStep_trans hqueue (dramStep_trans (dramStep_of_dramAccess (dramAccess_issueReq r _)) (ih _))

theorem dramStep_readBurst (a : Nat) (l : List Nat) (s : State) : dramStep s (readBurst a l s).2 :=
  dramStep_of_dramAccess (dramAccess_readBurst a l s)

theorem dramStep_fetchBurst (cls a : Nat) (l : List Nat) (s : State) : dramStep s (fetchBurst cls a l s).2 := by
  unfold fetchBurst
  split
  · exact dramStep_readBurst a l s
  · refine dramStep_trans ?_ (dramStep_trans (dramStep_serveN _ _ _) (dramStep_trans (dramStep_serveN _ _ _)
      (dramStep_readBurst a l _)))
    split
    · exact ⟨_, _, _, _, _, rfl⟩
    · exact dramStep_refl s

theorem dramStep_fetchBursts (cls : Nat) (l : List (Nat × List Nat)) (s : State) : dramStep s (fetchBursts cls l s).2 := by
  induction l generalizing s with
  | nil => exact dramStep_refl s
  | cons e l ih => exact dramStep_trans (dramStep_fetchBurst cls e.1 e.2 s) (ih _)

theorem dramStep_dramFetch (cls a n : Nat) (s : State) : dramStep s (dramFetch cls a n s).2.2 := dramStep_fetchBursts cls _ s

theorem dramStep_queueWrite (a c : Nat) (l : List Byte) (s : State) : dramStep s (queueWrite a c l s) := by
  obtain ⟨q, hq⟩ := queueWrite_touches a c l s
  exact ⟨_, _, q, _, _, hq⟩

theorem dramStep_freeBytes (n : Nat) (s : State) : dramStep s (freeBytes n s).2 :=
  dramStep_of_dramAccess (dramAccess_freeBytes n s)

theorem dramStep_stageService (l : List Byte) (s : State) : dramStep s (stageService l s) :=
  dramStep_trans (dramStep_of_dramAccess (dramAccess_draw s)) (dramStep_queueWrite _ 4 l _)

/-! What is left of the start-up state. -/

theorem boot_of_dramStep {s t : State} (h : dramStep s t) : t.boot = s.boot := by
  obtain ⟨_, _, _, _, _, rfl⟩ := h
  rfl

/-- A request at any port but MRAM's leaves MRAM. -/
theorem boot_portStore {p : Nat} (hp : p ≠ 4) (r : PortReq) (s : State) : (portStore p r s).boot = s.boot := by
  unfold portStore
  split
  · rfl
  · split
    · rfl
    · split
      · exact boot_of_dramStep (dramStep_queueWrite ..)
      · rfl

theorem boot_portRunWith {p : Nat} (hp : p ≠ 4) (now n : Nat) (s : State) :
    (portRunWith (portStore p) now p n s).boot = s.boot := by
  induction n generalizing s with
  | zero => rfl
  | succ n ih =>
    unfold portRunWith
    split
    · split
      · exact (ih _).trans (boot_portStore hp _ _)
      · rfl
    · rfl

theorem boot_portUntil {p : Nat} (hp : p ≠ 4) (m n : Nat) (s : State) : (portUntil m p n s).boot = s.boot := by
  induction n generalizing s with
  | zero => rfl
  | succ n ih =>
    unfold portUntil
    split
    · rfl
    · split
      · exact (ih _).trans (boot_portStore hp _ _)
      · rfl

theorem boot_portSettle {p : Nat} (hp : p ≠ 4) (s : State) : (portSettle p s).boot = s.boot := by
  unfold portSettle
  split
  · rfl
  · exact boot_portRunWith hp _ _ s

theorem boot_modPort (p : Nat) (f : Port → Port) (s : State) : (modPort p f s).boot = s.boot := rfl

theorem boot_portServe {p : Nat} (hp : p ≠ 4) (w m a n : Nat) (s : State) : (portServe w m p a n s).boot = s.boot := by
  refine foldl_proj (f := _) (fun t : State => t.boot) (fun t k => ?_) _ s
  refine (boot_modPort p _ _).trans ?_
  refine (boot_portUntil hp m _ _).trans ?_
  refine (boot_modPort p _ _).trans ?_
  exact (boot_portUntil hp m _ _).trans (boot_portSettle hp t)

theorem boot_countStop (c : Nat) (s : State) : (countStop c s).boot = s.boot := by
  unfold countStop resetAnswer
  split
  · rfl
  · split <;> rfl

theorem boot_getPieces (ch : Nat) (l : List (Nat × Nat)) (s : State) : (getPieces ch l s).2.boot = s.boot := by
  induction l generalizing s with
  | nil => rfl
  | cons e l ih =>
    unfold getPieces
    split
    · exact boot_countStop _ s
    · exact (ih _).trans (boot_portServe (by decide) ..)

theorem boot_noteDesc (ch code : Nat) (tag : BitVec 32) (n : Nat) (s : State) : (noteDesc ch code tag n s).boot = s.boot := by
  unfold noteDesc
  dsimp only
  split <;> rfl

/-- The source of a transfer is read without a change of the start-up state. -/
theorem boot_bulkFetch (b : Bulk) (s : State) : (bulkFetch b s).2.2.boot = s.boot := by
  unfold bulkFetch
  split
  · exact (boot_noteDesc ..).trans (boot_getPieces 12 _ s)
  · split
    · exact boot_of_dramStep (dramStep_dramFetch ..)
    · split
      · dsimp only
        split
        · rfl
        · exact boot_portServe (by omega) ..
      · rfl

theorem bulkFetch_length_le (b : Bulk) (s : State) : (bulkFetch b s).1.length ≤ b.length := by
  unfold bulkFetch
  split
  · exact (memRead_length ..).le
  · split
    · exact (memRead_length ..).le
    · split
      · dsimp only
        split
        · exact Nat.zero_le _
        · exact (memRead_length ..).le
      · exact Nat.zero_le _

theorem boot_finish (c : Instr) (o : Nat) (q : Request) (st : Status) (b d : Nat) (e : List Byte) (s : State) :
    (finish c o q st b d e s).boot = s.boot := rfl

/-! Bank control (R399). -/

theorem bankControl_congr {s t : State} (h0 : t.boot.copy0 = s.boot.copy0) (h1 : t.boot.copy1 = s.boot.copy1) :
    bankControl t = bankControl s := by
  unfold bankControl secondInForce
  rw [h0, h1]

/-- An update of bank control is in force from then on. -/
theorem bankControl_writeControl (f : BankControl → BankControl) (s : State) (h : (bankControl s).seq + 1 < 2 ^ 32) :
    bankControl (writeControl f s) = { f (bankControl s) with seq := (bankControl s).seq + 1, valid := true } := by
  unfold writeControl
  dsimp only
  rw [Nat.mod_eq_of_lt h]
  split
  · next h2 =>
    have hc : bankControl s = s.boot.copy1 := if_pos h2
    have hn : ¬(secondInForce { s with boot.copy0 :=
        { f (bankControl s) with seq := (bankControl s).seq + 1, valid := true } } = true) := by
      simp [secondInForce, hc]
    exact if_neg hn
  · next h2 =>
    have hc : bankControl s = s.boot.copy0 := if_neg h2
    have hn : secondInForce { s with boot.copy1 :=
        { f (bankControl s) with seq := (bankControl s).seq + 1, valid := true } } = true := by
      simp [secondInForce, hc]
    exact if_pos hn

theorem writeControl_touches (f : BankControl → BankControl) (s : State) : ∃ c0 c1,
    writeControl f s = { s with boot.copy0 := c0, boot.copy1 := c1 } := by
  unfold writeControl
  dsimp only
  split
  · exact ⟨_, _, rfl⟩
  · exact ⟨_, _, rfl⟩

/-- The copy in force is not the one rewritten. -/
theorem writeControl_keeps_copy (f : BankControl → BankControl) (s : State) :
    (bankControl s = s.boot.copy0 ∨ bankControl s = s.boot.copy1) ∧
      ((writeControl f s).boot.copy0 = s.boot.copy0 ∨ (writeControl f s).boot.copy1 = s.boot.copy1) := by
  unfold writeControl bankControl
  dsimp only
  split
  · exact ⟨.inr rfl, .inr rfl⟩
  · exact ⟨.inl rfl, .inl rfl⟩

theorem bankState_setBank (b : Bool) (st : BankState) (s : State) (h : (bankControl s).seq + 1 < 2 ^ 32) :
    bankState (setBank b st s) b = st := by
  unfold bankState setBank
  rw [bankControl_writeControl _ s h]
  cases b <;> rfl

theorem bankState_setBank_ne (b : Bool) (st : BankState) (s : State) (h : (bankControl s).seq + 1 < 2 ^ 32) :
    bankState (setBank b st s) (!b) = bankState s (!b) := by
  unfold bankState setBank
  rw [bankControl_writeControl _ s h]
  cases b <;> rfl

end Sys2Proof.Laws
end

section
/-! Updates of the firmware (O53). -/

namespace Sys2Proof.Proofs
open Sys2Proof Sys2Proof.Machine Sys2Proof.Laws

/-! DATA (R409). -/

/-- Where the bytes of a DATA go in MRAM. -/
def dataPlace (q : Request) (s : State) : Nat := bankStart (inactive s) + u64 q.arg 16

/-- Bytes written to MRAM. -/
def putMram (a : Nat) (l : List Byte) (s : State) : State := { s with boot.mram := memWrite s.boot.mram a l }

/-- The state once the source of a DATA has been read, host data being brought into the service region (R353). -/
def dataFetched (q : Request) (s : State) : State :=
  let r := bulkFetch (bulk q.arg 0) s
  if (bulk q.arg 0).kind = 1 && dramTrained s && r.2.1.isNone then stageService r.1 r.2.2 else r.2.2

theorem boot_dataFetched (q : Request) (s : State) : (dataFetched q s).boot = s.boot := by
  unfold dataFetched
  dsimp only
  split
  · exact (boot_of_dramStep (dramStep_stageService ..)).trans (boot_bulkFetch ..)
  · exact boot_bulkFetch ..

theorem bankState_congr {s t : State} (h : t.boot = s.boot) (b : Bool) : bankState t b = bankState s b := by
  unfold bankState
  rw [bankControl_congr (congrArg (·.copy0) h) (congrArg (·.copy1) h)]

theorem boot_elapseTo (n : Nat) (s : State) : (elapseTo n s).boot = s.boot := rfl

/-- A DATA whose source has been read. -/
def dataEnds (f : Bool) (c : Instr) (q : Request) (s : State) : State :=
  let u := dataFetched q s
  if f then
    let l := freeBytes (bulk q.arg 0).length u
    finish c 0x0E02 q .noSpace 0 0 [] (setBank (inactive s) .failed (putMram (dataPlace q s) l.1 l.2))
  else finish c 0x0E02 q .ok (bulk q.arg 0).length 0 [] (putMram (dataPlace q s) (bulkFetch (bulk q.arg 0) s).1 u)

theorem exec_fwUpdateDataDone (s : State) (hOn : s.dev.state ≠ .off) (f : Bool) :
    exec (.fwUpdateDataDone f) s = .next (match owedOf isUpdateData s with
      | none => s
      | some (c, q) => match (bulkFetch (bulk q.arg 0) s).2.1 with
        | some st => finish c 0x0E02 q st 0 0 [] (dataFetched q s)
        | none => dataEnds f c q s) := by
  change execFwUpdateDataDone f s = _
  rw [execFwUpdateDataDone, whenOn_of_on _ s hOn]
  rfl

theorem mram_dataEnds_outside (f : Bool) (c : Instr) (q : Request) (s : State) (a : Nat)
    (ha : a < dataPlace q s ∨ dataPlace q s + (bulk q.arg 0).length ≤ a) :
    memGet (dataEnds f c q s).boot.mram a = memGet s.boot.mram a := by
  unfold dataEnds
  dsimp only
  cases f with
  | true =>
    rw [if_pos rfl, boot_finish, setBank]
    obtain ⟨c0, c1, hw⟩ := writeControl_touches (BankControl.mark (inactive s) .failed)
      (putMram (dataPlace q s) (freeBytes (bulk q.arg 0).length (dataFetched q s)).1 (freeBytes (bulk q.arg 0).length (dataFetched q s)).2)
    rw [hw]
    change memGet (memWrite _ _ _) a = _
    rw [memGet_memWrite_outside _ _ _ _ (by rwa [freeBytes_length]), boot_of_dramStep (dramStep_freeBytes ..), boot_dataFetched]
  | false =>
    rw [if_neg Bool.false_ne_true, boot_finish]
    change memGet (memWrite (dataFetched q s).boot.mram _ _) a = _
    have hlen := bulkFetch_length_le (bulk q.arg 0) s
    rw [memGet_memWrite_outside _ _ _ _ (by omega), boot_dataFetched]

theorem boot_dataEnds_failed (c : Instr) (q : Request) (s : State) : (dataEnds true c q s).boot =
    (setBank (inactive s) .failed (putMram (dataPlace q s) (freeBytes (bulk q.arg 0).length (dataFetched q s)).1
      (freeBytes (bulk q.arg 0).length (dataFetched q s)).2)).boot := by
  rw [dataEnds, if_pos rfl, boot_finish]

theorem bankState_dataEnds_failed (c : Instr) (q : Request) (s : State) (hseq : (bankControl s).seq + 1 < 2 ^ 32) :
    bankState (dataEnds true c q s) (inactive s) = .failed := by
  have hboot : ∀ l : List Byte, bankControl (putMram (dataPlace q s) l (freeBytes (bulk q.arg 0).length (dataFetched q s)).2)
      = bankControl s := fun l => by
    have h : (freeBytes (bulk q.arg 0).length (dataFetched q s)).2.boot = s.boot :=
      (boot_of_dramStep (dramStep_freeBytes ..)).trans (boot_dataFetched q s)
    exact bankControl_congr (congrArg (·.copy0) h) (congrArg (·.copy1) h)
  rw [bankState_congr (boot_dataEnds_failed c q s)]
  exact bankState_setBank (inactive s) .failed _ (by rwa [hboot])

theorem dataEnds_written (c : Instr) (q : Request) (s : State) : let t := dataEnds false c q s
    let l := (bulkFetch (bulk q.arg 0) s).1
    memRead t.boot.mram (dataPlace q s) l.length = l ∧ t.boot.copy0 = s.boot.copy0 ∧ t.boot.copy1 = s.boot.copy1 := by
  have hput : (dataEnds false c q s).boot = (putMram (dataPlace q s) (bulkFetch (bulk q.arg 0) s).1 (dataFetched q s)).boot := by
    rw [dataEnds, if_neg Bool.false_ne_true, boot_finish]
  have h := boot_dataFetched q s
  dsimp only
  rw [hput]
  exact ⟨memRead_memWrite _ _ _, congrArg (·.copy0) h, congrArg (·.copy1) h⟩

/-! END (R410). -/

/-- The container that END checks. -/
def updateBytes (s : State) : List Byte := bankBytes (inactive s) (s.boot.updateLen.getD 0) s

/-- The outcome of its checks. -/
def updateVerdict (s : State) : Verified := checkContainer false true (dramTrained s) (updateBytes s) s

/-- The state in which the decode of the check has been counted. -/
def checkDecoded (e : BitVec 4) (x : ServiceOp) (s : State) : State :=
  let v := updateVerdict s
  let u : State := { s with services := s.services.erase x }
  let u := if dramTrained s then stageService v.payload u else u
  if v.code = 6 then decodeBad (servedBy u e) v.reason u
    else if v.code = 0 ∨ v.code = 7 then decodeGood (servedBy u e) u else u

theorem boot_checkDecoded (e : BitVec 4) (x : ServiceOp) (s : State) : (checkDecoded e x s).boot = s.boot := by
  have hstage : (if dramTrained s then stageService (updateVerdict s).payload { s with services := s.services.erase x }
      else { s with services := s.services.erase x }).boot = s.boot := by
    split
    · exact (boot_of_dramStep (dramStep_stageService ..)).trans rfl
    · rfl
  unfold checkDecoded
  dsimp only
  split
  · exact hstage
  · split <;> exact hstage

/-- The inactive bank is PENDING, and the reboot is owed. -/
def updateAccepted (v : Nat) (b : Bool) (s : State) : State :=
  { writeControl (fun c => (c.mark b .pending).noteVersion b v) s with boot.rebootDue := true, boot.rebootSince := s.time.tb2 }

theorem exec_fwUpdateCheckDone_none (s : State) (hOn : s.dev.state ≠ .off) (e : BitVec 4)
    (h : s.services.find? (fun x => isUpdateEnd x.cmd) = none) : exec (.fwUpdateCheckDone e) s = .next s := by
  change execFwUpdateCheckDone e s = _
  rw [execFwUpdateCheckDone, whenOn_of_on _ s hOn, h]

theorem exec_fwUpdateCheckDone_waits (s : State) (hOn : s.dev.state ≠ .off) (e : BitVec 4) (x : ServiceOp)
    (h : s.services.find? (fun x => isUpdateEnd x.cmd) = some x) (hs : engineServes s x.seq = false) :
    exec (.fwUpdateCheckDone e) s = .next s := by
  change execFwUpdateCheckDone e s = _
  rw [execFwUpdateCheckDone, whenOn_of_on _ s hOn, h]
  exact congrArg _ (if_pos (by simp [hs]))

theorem exec_fwUpdateCheckDone_serves (s : State) (hOn : s.dev.state ≠ .off) (e : BitVec 4) (x : ServiceOp)
    (h : s.services.find? (fun x => isUpdateEnd x.cmd) = some x) (hs : engineServes s x.seq = true) :
    exec (.fwUpdateCheckDone e) s = .next (let v := updateVerdict s
      finish x.cmd 0x0E03 x.req (outcomeStatus v.code) (if v.code = 0 then (updateBytes s).length else 0) v.reason []
        (if v.code = 0 then updateAccepted (u64 (updateBytes s) 8) (inactive s) (checkDecoded e x s) else checkDecoded e x s)) := by
  change execFwUpdateCheckDone e s = _
  rw [execFwUpdateCheckDone, whenOn_of_on _ s hOn, h]
  exact congrArg _ (if_neg (by simp [hs]))

theorem updateAccepted_spec (v : Nat) (u s t : State) (hboot : u.boot = s.boot)
    (ht : t.boot = (updateAccepted v (inactive s) u).boot) : let b := inactive s
    t.boot.mram = s.boot.mram ∧ t.boot.rebootDue = true ∧ ((bankControl s).seq + 1 < 2 ^ 32 →
      bankState t b = .pending ∧ activeIsB t = activeIsB s ∧ bankVersion t b = v ∧
      bankState t (activeIsB s) = bankState s (activeIsB s) ∧ bankVersion t (activeIsB s) = bankVersion s (activeIsB s)) := by
  intro b
  have hcontrol : bankControl u = bankControl s := bankControl_congr (congrArg (·.copy0) hboot) (congrArg (·.copy1) hboot)
  obtain ⟨c0, c1, hw⟩ := writeControl_touches (fun c => (c.mark b .pending).noteVersion b v) u
  have hmram : t.boot.mram = u.boot.mram := by
    rw [ht]
    change (writeControl _ u).boot.mram = _
    rw [hw]
  refine ⟨hmram.trans (congrArg (·.mram) hboot), by rw [ht]; rfl, fun hseq => ?_⟩
  have hcopies : bankControl t = bankControl (updateAccepted v b u) :=
    bankControl_congr (congrArg (·.copy0) ht) (congrArg (·.copy1) ht)
  have hnew : bankControl t = { ((bankControl s).mark b .pending).noteVersion b v with seq := (bankControl s).seq + 1, valid := true } := by
    rw [← hcontrol] at hseq ⊢
    exact hcopies.trans ((bankControl_congr rfl rfl).trans (bankControl_writeControl _ u hseq))
  have hactive : activeIsB s = (bankControl s).activeB := rfl
  have hb : b = !(bankControl s).activeB := rfl
  unfold bankState bankVersion activeIsB
  rw [hnew, hb]
  cases h : (bankControl s).activeB <;> simp [BankControl.mark, BankControl.noteVersion, h]

/-! The reboot (R410). -/

/-- The state once the completion of END is in the ring, or has been waited for. -/
def endAwaited (s : State) : State := if endUnwritten s then elapseTo (s.boot.rebootSince + 100000000) s else s

theorem exec_updateReboot (s : State) (hOn : s.dev.state ≠ .off) : exec .updateReboot s = .next
    (if s.dev.state = .update && s.boot.rebootDue then enterBoot 9 (endAwaited s) else s) := by
  change execUpdateReboot s = _
  rw [execUpdateReboot, whenOn_of_on _ s hOn]
  rfl

theorem enterBoot_keeps (cause : Nat) (s : State) : let t := enterBoot cause s
    t.dev.state = .boot ∧ t.time.tb2 = s.time.tb2 ∧ t.boot.mram = s.boot.mram ∧ t.boot.copy0 = s.boot.copy0 ∧
      t.boot.copy1 = s.boot.copy1 := ⟨rfl, rfl, rfl, rfl, rfl⟩

theorem tb2_elapseTo (n : Nat) (s : State) : (elapseTo n s).time.tb2 = max s.time.tb2 n := by
  change s.time.tb2 + (n - s.time.tb2) = _
  omega

theorem endAwaited_spec (s : State) : (endAwaited s).boot = s.boot ∧
    (endAwaited s).time.tb2 = (if endUnwritten s then max s.time.tb2 (s.boot.rebootSince + 100000000) else s.time.tb2) := by
  unfold endAwaited
  split
  · exact ⟨boot_elapseTo _ s, tb2_elapseTo _ s⟩
  · exact ⟨rfl, rfl⟩

/-! Key material (R406). -/

/-- The oldest enrolment that waits. -/
def oldestEnroll (s : State) : Option (Instr × Request) :=
  s.host.owed.find? (fun e => isEnroll 1 e || isEnroll 2 e || isEnroll 3 e)

theorem oldestEnroll_slot (s : State) (c : Instr) (q : Request) (h : oldestEnroll s = some (c, q)) : u8 q.arg 0 ≠ 0 := by
  have hp := List.find?_some h
  cases c with
  | fwKeyEnroll x =>
    intro h0
    simp [isEnroll, h0] at hp
  | _ => exact absurd hp Bool.false_ne_true

/-- The hash of the material is in its slot, and the material in its partition. -/
def keyBurned (k : Nat) (l : List Byte) (s : State) : State :=
  let x := draw s
  { x.2 with
    boot.keys := tabSet none x.2.boot.keys k (some (Config.sha384 l))
    boot.mram := memWrite x.2.boot.mram (0x300000 + x.1 % (2 ^ 20 - 436)) l }

/-- An enrolment whose material has been read. -/
def enrollEnds (v : Bool) (c : Instr) (q : Request) (l : List Byte) (s : State) : State :=
  if !v || (keySlot s (u8 q.arg 0)).isSome then finish c 0x0E05 q .noSpace 0 0 [] s
  else finish c 0x0E05 q .ok 436 0 [] (keyBurned (u8 q.arg 0) l s)

theorem exec_fwKeyEnrollDone (s : State) (hOn : s.dev.state ≠ .off) (v : Bool) :
    exec (.fwKeyEnrollDone v) s = .next (match oldestEnroll s with
      | none => s
      | some (c, q) => match (bulkFetch (bulk q.arg 8) s).2.1 with
        | some st => finish c 0x0E05 q st 0 0 [] (bulkFetch (bulk q.arg 8) s).2.2
        | none => enrollEnds v c q (bulkFetch (bulk q.arg 8) s).1 (bulkFetch (bulk q.arg 8) s).2.2) := by
  change execFwKeyEnrollDone v s = _
  rw [execFwKeyEnrollDone, whenOn_of_on _ s hOn]
  rfl

theorem keySlot_congr {s t : State} (h : t.boot = s.boot) (k : Nat) : keySlot t k = keySlot s k := by unfold keySlot; rw [h]

theorem enrollEnds_kept (v : Bool) (c : Instr) (q : Request) (l : List Byte) (s : State)
    (h : v = false ∨ keySlot s (u8 q.arg 0) ≠ none) : (enrollEnds v c q l s).boot = s.boot := by
  have hcond : (!v || (keySlot s (u8 q.arg 0)).isSome) = true := by
    rcases h with h | h
    · simp [h]
    · simp [Option.isSome_iff_ne_none.mpr h]
  rw [enrollEnds, if_pos hcond, boot_finish]

theorem keySlot_enrollEnds (c : Instr) (q : Request) (l : List Byte) (s : State) (h0 : u8 q.arg 0 ≠ 0)
    (h : keySlot s (u8 q.arg 0) = none) : let t := enrollEnds true c q l s
    keySlot t (u8 q.arg 0) = some (Config.sha384 l) ∧ ∀ k, k ≠ u8 q.arg 0 → keySlot t k = keySlot s k := by
  have ht : (enrollEnds true c q l s).boot.keys = tabSet none s.boot.keys (u8 q.arg 0) (some (Config.sha384 l)) := by
    rw [enrollEnds, if_neg (by simp [h]), boot_finish]
    rfl
  refine ⟨?_, fun k hk => ?_⟩
  · rw [keySlot, if_neg h0, ht, tabGet_tabSet_same]
  · rw [keySlot, keySlot, ht, tabGet_tabSet_ne _ _ _ hk]

/-- Settles O53: DATA by the place its bytes take, END by its verdict and the update of bank control, the reboot by what a BOOT keeps,
and an enrolment by the one slot it writes. -/
theorem updatesWriteOnlyTheInactiveBank : Obligations.UpdatesWriteOnlyTheInactiveBank := by
  intro s hOn
  refine ⟨fun f h => ?noData, fun f c q h => ?data, fun e h => exec_fwUpdateCheckDone_none s hOn e h,
    fun e x h => ⟨fun hs => exec_fwUpdateCheckDone_waits s hOn e x h hs, fun hs => ?check⟩, fun h => ?stays, fun hu hd => ?reboot,
    fun v h => ?noKey, fun v c q h => ?key⟩
  case noData => rw [exec_fwUpdateDataDone s hOn, h]
  case data =>
    rw [exec_fwUpdateDataDone s hOn, h]
    dsimp only
    cases hr : (bulkFetch (bulk q.arg 0) s).2.1 with
    | some st =>
      have hboot : (finish c 0x0E02 q st 0 0 [] (dataFetched q s)).boot = s.boot := boot_dataFetched q s
      exact ⟨_, rfl, fun a _ => by rw [hboot], fun _ => hboot, nofun, nofun⟩
    | none =>
      refine ⟨_, rfl, mram_dataEnds_outside f c q s, fun hn => absurd rfl hn, fun _ hf hseq => ?_, fun _ hf => ?_⟩
      · subst hf
        exact bankState_dataEnds_failed c q s hseq
      · subst hf
        exact dataEnds_written c q s
  case check =>
    rw [exec_fwUpdateCheckDone_serves s hOn e x h hs]
    have hboot := boot_checkDecoded e x s
    dsimp only
    by_cases hv : (updateVerdict s).code = 0
    · rw [if_pos hv, if_pos hv]
      obtain ⟨hmram, hdue, hbanks⟩ := updateAccepted_spec (u64 (updateBytes s) 8) _ s _ hboot (boot_finish x.cmd 0x0E03 x.req
        (outcomeStatus (updateVerdict s).code) (updateBytes s).length (updateVerdict s).reason [] _)
      exact ⟨_, rfl, hmram, fun _ => ⟨hdue, hbanks⟩, fun hn => absurd hv hn⟩
    · rw [if_neg hv, if_neg hv]
      have hkept := (boot_finish x.cmd 0x0E03 x.req (outcomeStatus (updateVerdict s).code) 0 (updateVerdict s).reason [] _).trans hboot
      exact ⟨_, rfl, congrArg (·.mram) hkept, fun h0 => absurd h0 hv, fun _ => hkept⟩
  case stays =>
    rw [exec_updateReboot s hOn]
    exact congrArg _ (if_neg (by rcases h with h | h <;> simp [h]))
  case reboot =>
    rw [exec_updateReboot s hOn, if_pos (by simp [hu, hd])]
    obtain ⟨hboot, htb2⟩ := endAwaited_spec s
    obtain ⟨hstate, htime, hmram, h0, h1⟩ := enterBoot_keeps 9 (endAwaited s)
    rw [hboot] at hmram h0 h1
    exact ⟨_, rfl, hstate, htime.trans htb2, hmram, h0, h1⟩
  case noKey =>
    rw [exec_fwKeyEnrollDone s hOn]
    change oldestEnroll s = none at h
    rw [h]
  case key =>
    rw [exec_fwKeyEnrollDone s hOn]
    change oldestEnroll s = some (c, q) at h
    rw [h]
    dsimp only
    have hfetch := boot_bulkFetch (bulk q.arg 8) s
    cases hr : (bulkFetch (bulk q.arg 8) s).2.1 with
    | some st =>
      have hboot : (finish c 0x0E05 q st 0 0 [] (bulkFetch (bulk q.arg 8) s).2.2).boot = s.boot := hfetch
      exact ⟨_, rfl, nofun, fun _ => hboot, fun k _ => keySlot_congr hboot k⟩
    | none =>
      have hslot := keySlot_congr hfetch (u8 q.arg 0)
      have hkept : (v = false ∨ keySlot s (u8 q.arg 0) ≠ none) →
          (enrollEnds v c q (bulkFetch (bulk q.arg 8) s).1 (bulkFetch (bulk q.arg 8) s).2.2).boot = s.boot := fun hk =>
        (enrollEnds_kept v c q _ _ (by rwa [hslot])).trans hfetch
      refine ⟨_, rfl, fun hv _ hk => ?_, fun hk => hkept (hk.imp_right (·.resolve_left (absurd rfl))), fun k hk => ?_⟩
      · subst hv
        exact (keySlot_enrollEnds c q _ _ (oldestEnroll_slot s c q h) (hslot.trans hk)).1
      · by_cases hnew : v = true ∧ keySlot s (u8 q.arg 0) = none
        · obtain ⟨rfl, hnone⟩ := hnew
          have hne : k ≠ u8 q.arg 0 := hk.elim id fun hs he => hs (he ▸ hnone)
          exact ((keySlot_enrollEnds c q _ _ (oldestEnroll_slot s c q h) (hslot.trans hnone)).2 k hne).trans (keySlot_congr hfetch k)
        · refine keySlot_congr (hkept ?_) k
          rcases Bool.eq_false_or_eq_true v with hv | hv
          · exact .inr fun hn => hnew ⟨hv, hn⟩
          · exact .inl hv

end Sys2Proof.Proofs
end

section
/-! SUPPORT. What a boot leaves while banks are tried, and what becomes of their states (spec/18_startup_and_trust.md R394, R397, R399,
R411). -/

namespace Sys2Proof.Laws
open Sys2Proof Sys2Proof.Machine

/-! What is kept. -/

/-- What the trial of a bank leaves: the device state, time, MRAM's bytes, the key slots, the version words and the timeouts counted. -/
def bootKept (s : State) : DevSt × TimeSt × Memory × Tab (Option (List Byte)) × List (Option Nat) × Nat :=
  (s.dev, s.time, s.boot.mram, s.boot.keys, s.boot.versionWords, counter .bootTimeout 0 s)

/-- Bank control, and the bank that runs. -/
def bankKept (s : State) : BankControl × BankControl × Option Bool := (s.boot.copy0, s.boot.copy1, s.boot.started)

theorem bootTimeouts_countN (c : Ctr) (i n : Nat) (s : State) (hc : Ctr.bootTimeout.ctorIdx ≠ c.ctorIdx) (hi : i < 1048576) :
    counter .bootTimeout 0 (countN c i n s) = counter .bootTimeout 0 s := counter_countN_of_ne n s hc (by decide) hi

theorem bootTimeouts_raiseEvent (g code src : Nat) (a e : Bool) (m : Int) (l : List Byte) (s : State) :
    counter .bootTimeout 0 (raiseEvent g code src a e m l s) = counter .bootTimeout 0 s := by
  unfold raiseEvent counter
  dsimp only
  split
  · rfl
  · exact tabGet_tabMod_ne 0 s.counters _ (by decide)

theorem bootKept_countN (c : Ctr) (i n : Nat) (s : State) (hc : Ctr.bootTimeout.ctorIdx ≠ c.ctorIdx) (hi : i < 1048576) :
    bootKept (countN c i n s) = bootKept s := by
  unfold bootKept
  rw [bootTimeouts_countN c i n s hc hi]
  rfl

theorem bootKept_raiseEvent (g code src : Nat) (a e : Bool) (m : Int) (l : List Byte) (s : State) :
    bootKept (raiseEvent g code src a e m l s) = bootKept s := by
  unfold bootKept
  rw [bootTimeouts_raiseEvent]
  rfl

theorem bootKept_raise (code src : Nat) (m : Int) (l : List Int) (s : State) : bootKept (raise code src m l s) = bootKept s :=
  bootKept_raiseEvent ..

theorem bootKept_queueWrite (a c : Nat) (l : List Byte) (s : State) : bootKept (queueWrite a c l s) = bootKept s := by
  obtain ⟨q, hq⟩ := queueWrite_touches a c l s
  rw [hq]
  rfl

theorem kept_stageService (l : List Byte) (s : State) :
    bootKept (stageService l s) = bootKept s ∧ bankKept (stageService l s) = bankKept s := by
  have hboot := boot_of_dramStep (dramStep_stageService l s)
  refine ⟨(bootKept_queueWrite ..).trans rfl, ?_⟩
  unfold bankKept
  rw [hboot]

theorem kept_noteDesc (ch code : Nat) (tag : BitVec 32) (n : Nat) (s : State) (hch : ch < 16) (hcode : code < 64) :
    bootKept (noteDesc ch code tag n s) = bootKept s ∧ bankKept (noteDesc ch code tag n s) = bankKept s := by
  refine ⟨?_, congrArg (fun b : BootSt => (b.copy0, b.copy1, b.started)) (boot_noteDesc ..)⟩
  unfold noteDesc
  dsimp only
  split
  · exact (bootKept_countN _ _ 1 _ (by decide) (by omega)).trans rfl
  · exact (bootKept_countN _ _ 1 _ (by decide) (by omega)).trans ((bootKept_countN _ _ 1 _ (by decide) (by omega)).trans rfl)

theorem kept_copyBank (n : Nat) (bad : Bool) (s : State) :
    bootKept (copyBank n bad s) = bootKept s ∧ bankKept (copyBank n bad s) = bankKept s := by
  cases bad with
  | true => exact kept_noteDesc 14 2 0 n s (by decide) (by decide)
  | false =>
    obtain ⟨h, h'⟩ := kept_noteDesc 14 0 0 0 (countN .dmaBytes 14 n (countN .grants 3 (n / 256) (countN .grants 4 (n / 256) s)))
      (by decide) (by decide)
    refine ⟨h.trans ?_, h'⟩
    rw [bootKept_countN _ _ _ _ (by decide) (by decide), bootKept_countN _ _ _ _ (by decide) (by decide),
      bootKept_countN _ _ _ _ (by decide) (by decide)]

theorem decodeFail_code_lt (e : DecodeFail) : e.code < 64 := by cases e <;> decide

theorem reason_ite {p : Prop} [Decidable p] {v w : Verified} (hv : v.reason < 64) (hw : w.reason < 64) :
    (if p then v else w).reason < 64 := by
  split
  · exact hv
  · exact hw

/-- The reason that a decode gives is one of Table 8.5. -/
theorem checkContainer_reason (k e d : Bool) (c : List Byte) (s : State) : (checkContainer k e d c s).reason < 64 := by
  have hnone : ∀ n, ({ code := n } : Verified).reason < 64 := fun _ => Nat.zero_lt_succ _
  have hpayload : ∀ c comp, (checkPayload c comp).reason < 64 := fun c comp => by
    unfold checkPayload
    split
    · exact reason_ite (Nat.zero_lt_succ _) (hnone 7)
    · exact decodeFail_code_lt _
  exact reason_ite (hnone 1) (reason_ite (hnone 2) (reason_ite (hnone 3) (reason_ite (hnone 4) (reason_ite (hnone 5)
    (reason_ite (hpayload _ _) (hnone 0))))))

theorem kept_decodeBad (e reason : Nat) (s : State) (he : e < 16) (hr : reason < 64) :
    bootKept (decodeBad e reason s) = bootKept s ∧ bankKept (decodeBad e reason s) = bankKept s :=
  ⟨(bootKept_raise ..).trans ((bootKept_countN _ _ 1 _ (by decide) (by omega)).trans rfl), rfl⟩

theorem kept_decodeGood (e : Nat) (s : State) (he : e < 16) :
    bootKept (decodeGood e s) = bootKept s ∧ bankKept (decodeGood e s) = bankKept s :=
  ⟨bootKept_countN _ _ 1 _ (by decide) (by omega), rfl⟩

/-! The start of a bank (R394 step 7). -/

theorem kept_loadService (k p : Nat) (s : State) :
    bootKept (loadService k p s) = bootKept s ∧ bankKept (loadService k p s) = bankKept s := by
  unfold loadService
  split
  · exact ⟨rfl, rfl⟩
  · split <;> exact ⟨rfl, rfl⟩

theorem kept_loadSections (p : List Byte) (s : State) :
    bootKept (loadSections p s) = bootKept s ∧ bankKept (loadSections p s) = bankKept s :=
  ⟨(foldl_proj bootKept _ (fun s x => (kept_loadService _ x s).1) _ _).trans rfl,
    (foldl_proj bankKept _ (fun s x => (kept_loadService _ x s).2) _ _).trans rfl⟩

theorem kept_modArray (k : Nat) (f : ArraySt → ArraySt) (s : State) :
    bootKept (modArray k f s) = bootKept s ∧ bankKept (modArray k f s) = bankKept s := ⟨rfl, rfl⟩

theorem bootKept_startBank (b : Bool) (c l : List Byte) (s : State) : bootKept (startBank b c l s) = bootKept s := by
  unfold startBank
  dsimp only
  refine (foldl_proj bootKept _ (by exact fun s k => (kept_modArray k _ s).1) _ _).trans ?_
  exact (kept_loadSections l _).1.trans rfl

theorem bankKept_startBank (b : Bool) (c l : List Byte) (s : State) :
    bankKept (startBank b c l s) = (s.boot.copy0, s.boot.copy1, some b) := by
  unfold startBank
  dsimp only
  refine (foldl_proj bankKept _ (by exact fun s k => (kept_modArray k _ s).2) _ _).trans ?_
  exact (kept_loadSections l _).2.trans rfl

/-! A bank that fails (R411). -/

theorem bankState_of_bankKept {s t : State} (h : bankKept t = bankKept s) (b : Bool) : bankState t b = bankState s b := by
  unfold bankState
  rw [bankControl_congr (congrArg Prod.fst h) (congrArg (fun x => x.2.1) h)]

theorem seq_of_bankKept {s t : State} (h : bankKept t = bankKept s) : (bankControl t).seq = (bankControl s).seq := by
  rw [bankControl_congr (congrArg Prod.fst h) (congrArg (fun x => x.2.1) h)]

/-- A bank's outcome is kept, and it runs no more. -/
def bankStopped (b : Bool) (code : Nat) (s : State) : State :=
  { s with boot.outcomes := s.boot.outcomes ++ [(b, code)], boot.started := none, boot.trying := false }

theorem bankFails_pending (b : Bool) (code : Nat) (s : State) (h : bankState s b = .pending) :
    bankFails b code s = raise 0x0E01 0 (bankVersion s b) [] (setBank b .failed (bankStopped b code s)) := if_pos h

theorem bankFails_other (b : Bool) (code : Nat) (s : State) (h : bankState s b ≠ .pending) :
    bankFails b code s = bankStopped b code s := if_neg h

theorem bootKept_setBank (b : Bool) (st : BankState) (s : State) : bootKept (setBank b st s) = bootKept s := by
  obtain ⟨_, _, hw⟩ := writeControl_touches (BankControl.mark b st) s
  rw [setBank, hw]
  rfl

theorem started_setBank (b : Bool) (st : BankState) (s : State) : (setBank b st s).boot.started = s.boot.started := by
  obtain ⟨_, _, hw⟩ := writeControl_touches (BankControl.mark b st) s
  rw [setBank, hw]

theorem bootKept_bankFails (b : Bool) (code : Nat) (s : State) : bootKept (bankFails b code s) = bootKept s := by
  by_cases h : bankState s b = .pending
  · rw [bankFails_pending b code s h, bootKept_raise, bootKept_setBank]
    rfl
  · rw [bankFails_other b code s h]
    rfl

theorem started_bankFails (b : Bool) (code : Nat) (s : State) : (bankFails b code s).boot.started = none := by
  by_cases h : bankState s b = .pending
  · rw [bankFails_pending b code s h, (raise_fields ..).2.2.2.2.2.2.2.2.2.2.2.2.2.2.2.2.2.2.2.2.1, started_setBank]
    rfl
  · rw [bankFails_other b code s h]
    rfl

/-- PENDING banks. -/
def pendingBanks (s : State) : Nat := bit (decide (bankState s false = .pending)) + bit (decide (bankState s true = .pending))

/-- Bank control has sequence numbers left for every PENDING bank to be marked. -/
def seqRoom (s : State) : Prop := (bankControl s).seq + pendingBanks s < 2 ^ 32

theorem pendingBanks_le (s : State) : pendingBanks s ≤ 2 := by
  have hbit : ∀ b : Bool, bit b ≤ 1 := by decide
  exact Nat.add_le_add (hbit _) (hbit _)

/-- A PENDING bank that fails is FAILED, and the other is as it was; sequence numbers are left for it. -/
theorem bankFails_marks (b : Bool) (code : Nat) (s : State) (hroom : seqRoom s) (h : bankState s b = .pending) :
    bankState (bankFails b code s) b = .failed ∧ bankState (bankFails b code s) (!b) = bankState s (!b) ∧
      seqRoom (bankFails b code s) := by
  have hseq : (bankControl s).seq + 1 < 2 ^ 32 := by
    have hone : 1 ≤ pendingBanks s := by
      unfold pendingBanks
      cases b <;> rw [h]
      · exact Nat.le_add_right 1 _
      · exact Nat.le_add_left 1 _
    unfold seqRoom at hroom
    omega
  have hboot : (bankFails b code s).boot = (setBank b .failed (bankStopped b code s)).boot := by
    rw [bankFails_pending b code s h, (raise_fields ..).2.2.2.2.2.2.2.2.2.2.2.2.2.2.2.2.2.2.2.2.1]
  have hctl : bankControl (bankFails b code s) =
      { (bankControl s).mark b .failed with seq := (bankControl s).seq + 1, valid := true } := by
    rw [bankControl_congr (congrArg (·.copy0) hboot) (congrArg (·.copy1) hboot)]
    exact bankControl_writeControl _ (bankStopped b code s) hseq
  have hb : bankState (bankFails b code s) b = .failed := by
    unfold bankState
    rw [hctl]
    cases b <;> rfl
  have hother : bankState (bankFails b code s) (!b) = bankState s (!b) := by
    unfold bankState
    rw [hctl]
    cases b <;> rfl
  refine ⟨hb, hother, ?_⟩
  have hnum : (bankControl (bankFails b code s)).seq = (bankControl s).seq + 1 := by rw [hctl]
  unfold seqRoom pendingBanks at hroom ⊢
  rw [hnum]
  cases b with
  | false =>
    change bankState _ true = bankState _ true at hother
    rw [hb, hother]
    rw [h] at hroom
    simp [bit] at hroom ⊢
    omega
  | true =>
    change bankState _ false = bankState _ false at hother
    rw [hb, hother]
    rw [h] at hroom
    simp [bit] at hroom ⊢
    omega

/-! The trial of banks (R394 steps 4 to 7, R399). -/

/-- What a run of trials does to the banks' states: each is as it was, or FAILED that was PENDING; of those tried without success none
is PENDING. -/
structure banksTried (l : List Bool) (s t : State) : Prop where
  room : seqRoom t
  states : ∀ k, bankState t k = bankState s k ∨ bankState s k = .pending ∧ bankState t k = .failed
  failed : ∀ k ∈ l, bankState t k ≠ .pending

theorem banksTried_nil {s t : State} (h : bankKept t = bankKept s) (hroom : seqRoom s) : banksTried [] s t := by
  refine ⟨?_, fun k => .inl (bankState_of_bankKept h k), fun k hk => absurd hk List.not_mem_nil⟩
  unfold seqRoom pendingBanks at hroom ⊢
  rwa [seq_of_bankKept h, bankState_of_bankKept h, bankState_of_bankKept h]

theorem banksTried_trans {l l' : List Bool} {s t u : State} (h : banksTried l s t) (h' : banksTried l' t u) :
    banksTried (l ++ l') s u := by
  have hstay : ∀ k, bankState t k ≠ .pending → bankState u k = bankState t k := fun k hk =>
    (h'.states k).elim id fun hp => absurd hp.1 hk
  refine ⟨h'.room, fun k => ?_, fun k hk => ?_⟩
  · rcases h.states k with hk | ⟨hp, hf⟩
    · rw [← hk]
      exact h'.states k
    · exact .inr ⟨hp, (hstay k (by rw [hf]; decide)).trans hf⟩
  · rcases List.mem_append.mp hk with hk | hk
    · have hn := h.failed k hk
      rwa [hstay k hn]
    · exact h'.failed k hk

theorem banksTried_bankFails (b : Bool) (code : Nat) (s : State) (hroom : seqRoom s) : banksTried [b] s (bankFails b code s) := by
  by_cases h : bankState s b = .pending
  · obtain ⟨hb, hother, hr⟩ := bankFails_marks b code s hroom h
    refine ⟨hr, fun k => ?_, fun k hk => ?_⟩
    · obtain rfl | hk := Bool.eq_or_eq_not k b
      · exact .inr ⟨h, hb⟩
      · obtain rfl := hk
        exact .inl hother
    · rw [List.mem_singleton.mp hk, hb]
      decide
  · have hkept : bankControl (bankFails b code s) = bankControl s := by
      rw [bankFails_other b code s h]
      exact bankControl_congr rfl rfl
    have hstate : ∀ k, bankState (bankFails b code s) k = bankState s k := fun k => by
      unfold bankState
      rw [hkept]
    refine ⟨?_, fun k => .inl (hstate k), fun k hk => ?_⟩
    · unfold seqRoom pendingBanks at hroom ⊢
      rwa [hkept, hstate, hstate]
    · rw [List.mem_singleton.mp hk, hstate]
      exact h

/-- The outcome of a bank's container (R402). -/
def bankVerdict (b : Bool) (s : State) : Verified := checkContainer false false true (bankBytes b bankSize s) s

/-- A bank's container passes every check, and its sections those of R404. -/
def bankPasses (b : Bool) (s : State) : Prop := (bankVerdict b s).code = 0 ∧ sectionsOk (bankVerdict b s).payload = true

theorem checkContainer_congr {s t : State} (hk : t.boot.keys = s.boot.keys) (hv : t.boot.versionWords = s.boot.versionWords)
    (k e d : Bool) (c : List Byte) : checkContainer k e d c t = checkContainer k e d c s := by
  have hslot : ∀ n, keySlot t n = keySlot s n := fun n => by unfold keySlot; rw [hk]
  have hroll : antiRollback t = antiRollback s := by unfold antiRollback; rw [hv]
  unfold checkContainer
  simp only [hslot, hroll]

theorem bankVerdict_congr {s t : State} (h : bootKept t = bootKept s) (b : Bool) : bankVerdict b t = bankVerdict b s := by
  obtain ⟨-, -, hm, hk, hv, -⟩ : t.dev = s.dev ∧ t.time = s.time ∧ t.boot.mram = s.boot.mram ∧ t.boot.keys = s.boot.keys ∧
    t.boot.versionWords = s.boot.versionWords ∧ _ := by simpa [bootKept] using h
  unfold bankVerdict bankBytes
  rw [hm]
  exact checkContainer_congr hk hv _ _ _ _

theorem bankPasses_congr {s t : State} (h : bootKept t = bootKept s) (b : Bool) : bankPasses b t ↔ bankPasses b s := by
  unfold bankPasses
  rw [bankVerdict_congr h]

/-- A bank that has been copied, and whose container has been checked (R394 steps 4 to 6). -/
def bankChecked (b : Bool) (s : State) : State :=
  let u := copyBank bankSize false s
  let v := bankVerdict b u
  let c := bankBytes b bankSize u
  let u := stageService (c.take (17184 + u32 c 24)) u
  if v.code = 6 then decodeBad 15 v.reason u else if v.code = 0 ∨ v.code = 7 then decodeGood 15 u else u

theorem kept_bankChecked (b : Bool) (s : State) :
    bootKept (bankChecked b s) = bootKept s ∧ bankKept (bankChecked b s) = bankKept s := by
  unfold bankChecked
  dsimp only
  generalize bankBytes b bankSize (copyBank bankSize false s) = c
  obtain ⟨hcopy, hcopy'⟩ := kept_copyBank bankSize false s
  obtain ⟨hstage, hstage'⟩ := kept_stageService (c.take (17184 + u32 c 24)) (copyBank bankSize false s)
  have hbad := kept_decodeBad 15 (bankVerdict b (copyBank bankSize false s)).reason
    (stageService (c.take (17184 + u32 c 24)) (copyBank bankSize false s)) (by decide) (checkContainer_reason ..)
  have hgood := kept_decodeGood 15 (stageService (c.take (17184 + u32 c 24)) (copyBank bankSize false s)) (by decide)
  split
  · exact ⟨hbad.1.trans (hstage.trans hcopy), hbad.2.trans (hstage'.trans hcopy')⟩
  · split
    · exact ⟨hgood.1.trans (hstage.trans hcopy), hgood.2.trans (hstage'.trans hcopy')⟩
    · exact ⟨hstage.trans hcopy, hstage'.trans hcopy'⟩

section
variable (b : Bool) (rest : List Bool) (s : State)

theorem tryBanks_cons_bad (h : testBit s.boot.copyBad.toNat (bit b) = true) : tryBanks (b :: rest) s =
    (let x := draw (copyBank bankSize true s)
     tryBanks rest (bankFails b (x.1 % 8 + 1) x.2)) := by
  rw [tryBanks, h]
  rfl

variable (h : testBit s.boot.copyBad.toNat (bit b) = false)
include h

theorem tryBanks_cons_good : tryBanks (b :: rest) s =
    (let u := copyBank bankSize false s
     let v := bankVerdict b u
     if v.code ≠ 0 then tryBanks rest (bankFails b v.code (bankChecked b s))
     else if !sectionsOk v.payload then tryBanks rest (bankFails b 1 (stageService v.payload (bankChecked b s)))
     else startBank b (bankBytes b bankSize u) v.payload (stageService v.payload (bankChecked b s))) := by
  unfold bankChecked bankVerdict
  rw [tryBanks, h]
  dsimp only
  rw [if_neg Bool.false_ne_true]

end

/-- What the trial of banks comes to: a bank of those tried runs that passes, or none does. -/
structure banksOutcome (l : List Bool) (s t : State) : Prop where
  kept : bootKept t = bootKept s
  passes : ∀ k, t.boot.started = some k → k ∈ l ∧ bankPasses k s
  tried : seqRoom s → ∃ l', banksTried l' s t ∧ (t.boot.started = none → l' = l)

/-- A bank that has failed adds to the outcome of the rest that none of it is PENDING. -/
theorem banksOutcome_bankFails {b : Bool} {rest : List Bool} {s u t : State} (code : Nat) (hkept : bootKept u = bootKept s)
    (hbank : bankKept u = bankKept s) (h : banksOutcome rest (bankFails b code u) t) : banksOutcome (b :: rest) s t := by
  have hfail := (bootKept_bankFails b code u).trans hkept
  refine ⟨h.kept.trans hfail, fun k hk => ?_, fun hroom => ?_⟩
  · obtain ⟨hmem, hpass⟩ := h.passes k hk
    exact ⟨.tail _ hmem, (bankPasses_congr hfail k).mp hpass⟩
  · have hsame := banksTried_nil hbank hroom
    have hone := banksTried_bankFails b code u hsame.room
    obtain ⟨l', hrest, hall⟩ := h.tried hone.room
    exact ⟨[] ++ [b] ++ l', banksTried_trans (banksTried_trans hsame hone) hrest, fun hn => by rw [hall hn]; rfl⟩

/-- A bank that passes runs. -/
theorem banksOutcome_starts {b : Bool} {rest : List Bool} {s u t : State} (hkept : bootKept t = bootKept s)
    (hbank : bankKept u = bankKept s) (ht : bankKept t = (u.boot.copy0, u.boot.copy1, some b)) (hpass : bankPasses b s) :
    banksOutcome (b :: rest) s t := by
  have hrun : t.boot.started = some b := congrArg (fun x => x.2.2) ht
  refine ⟨hkept, fun k hk => ?_, fun hroom => ⟨[], ?_, fun hn => nomatch hrun.symm.trans hn⟩⟩
  · obtain rfl := Option.some.inj (hrun.symm.trans hk)
    exact ⟨.head _, hpass⟩
  · have hmid := banksTried_nil hbank hroom
    have hctl : bankControl t = bankControl u := bankControl_congr (congrArg Prod.fst ht) (congrArg (fun x => x.2.1) ht)
    have hstate : ∀ k, bankState t k = bankState u k := fun k => by
      unfold bankState
      rw [hctl]
    refine ⟨?_, fun k => ?_, fun k hk => absurd hk List.not_mem_nil⟩
    · have hr := hmid.room
      unfold seqRoom pendingBanks at hr ⊢
      rwa [hctl, hstate, hstate]
    · rw [hstate]
      exact hmid.states k

theorem tryBanks_outcome (l : List Bool) (s : State) (hs : s.boot.started = none) : banksOutcome l s (tryBanks l s) := by
  induction l generalizing s with
  | nil => exact ⟨rfl, fun k hk => (nomatch hs.symm.trans hk), fun hroom => ⟨[], banksTried_nil rfl hroom, fun _ => rfl⟩⟩
  | cons b rest ih =>
    cases hbad : testBit s.boot.copyBad.toNat (bit b) with
    | true =>
      rw [tryBanks_cons_bad b rest s hbad]
      obtain ⟨hcopy, hcopy'⟩ := kept_copyBank bankSize true s
      dsimp only
      have hdraw : bootKept (draw (copyBank bankSize true s)).2 = bootKept s := Eq.trans rfl hcopy
      have hdraw' : bankKept (draw (copyBank bankSize true s)).2 = bankKept s := Eq.trans rfl hcopy'
      exact banksOutcome_bankFails _ hdraw hdraw' (ih _ (started_bankFails ..))
    | false =>
      rw [tryBanks_cons_good b rest s hbad]
      obtain ⟨hcheck, hcheck'⟩ := kept_bankChecked b s
      obtain ⟨hstage, hstage'⟩ := kept_stageService (bankVerdict b (copyBank bankSize false s)).payload (bankChecked b s)
      have hverdict := bankVerdict_congr (kept_copyBank bankSize false s).1 b
      dsimp only
      split
      · exact banksOutcome_bankFails _ hcheck hcheck' (ih _ (started_bankFails ..))
      · next hcode =>
        split
        · exact banksOutcome_bankFails _ (hstage.trans hcheck) (hstage'.trans hcheck') (ih _ (started_bankFails ..))
        · next hsections =>
          rw [hverdict] at hcode hsections
          exact banksOutcome_starts ((bootKept_startBank ..).trans (hstage.trans hcheck)) (hstage'.trans hcheck')
            (bankKept_startBank ..) ⟨not_not.mp hcode, by simpa using hsections⟩

end Sys2Proof.Laws
end

section
/-! SUPPORT. The report of a boot, SAFE on the ROM, and what training leaves (spec/18_startup_and_trust.md R394, R395, R398 to R400). -/

namespace Sys2Proof.Laws
open Sys2Proof Sys2Proof.Machine

/-- The first entries of a boot's events, before every other that is held or due (R398). -/
def bootEntries (gts : Nat) (bank : Int) (body : List Byte) (s : State) : State :=
  let u := raiseEvent gts 0x0002 0 false false bank body { s with
    boot.reports := (body :: s.boot.reports).take 16, evr.due := [], time.frame := 0 }
  let u := raiseEvent gts 0x0001 0 false false 1 (cells [1, u.boot.entry.1, u.boot.entry.2, 0]) u
  { u with evr.held := u.evr.due ++ u.evr.held, evr.due := s.evr.due, time.frame := s.time.frame }

theorem bootReport_eq (s : State) : ∃ gts bank body, bootReport s = match s.power.tripReport with
    | some k => raise 0x0B05 3 k [] { bootEntries gts bank body s with power.tripReport := none }
    | none => bootEntries gts bank body s := ⟨_, _, _, rfl⟩

theorem bootEntries_touches (gts : Nat) (bank : Int) (body : List Byte) (s : State) : ∃ r e l n,
    bootEntries gts bank body s = { s with boot.reports := r, evr := e, recorder.live := l, counters := n } := ⟨_, _, _, _, rfl⟩

theorem bootTimeouts_bootEntries (gts : Nat) (bank : Int) (body : List Byte) (s : State) :
    counter .bootTimeout 0 (bootEntries gts bank body s) = counter .bootTimeout 0 s := by
  have hreport := bootTimeouts_raiseEvent gts 0x0002 0 false false bank body { s with
    boot.reports := (body :: s.boot.reports).take 16, evr.due := [], time.frame := 0 }
  exact (bootTimeouts_raiseEvent gts 0x0001 0 false false 1 (cells [1, s.boot.entry.1, s.boot.entry.2, 0]) _).trans hreport

theorem bootReport_touches (s : State) : ∃ r e l n p,
    bootReport s = { s with boot.reports := r, evr := e, recorder.live := l, counters := n, power.tripReport := p } := by
  obtain ⟨gts, bank, body, heq⟩ := bootReport_eq s
  obtain ⟨r, e, l, n, hentries⟩ := bootEntries_touches gts bank body s
  rw [heq, hentries]
  cases s.power.tripReport with
  | none => exact ⟨_, _, _, _, _, rfl⟩
  | some k => exact ⟨_, _, _, _, _, rfl⟩

theorem bootTimeouts_bootReport (s : State) : counter .bootTimeout 0 (bootReport s) = counter .bootTimeout 0 s := by
  obtain ⟨gts, bank, body, heq⟩ := bootReport_eq s
  have hentries := bootTimeouts_bootEntries gts bank body s
  rw [heq]
  cases s.power.tripReport with
  | none => exact hentries
  | some k => exact (bootTimeouts_raiseEvent ..).trans hentries

theorem bootTimeouts_portRunWith_id (now p n : Nat) (hp : p < 1048576) (s : State) :
    counter .bootTimeout 0 (portRunWith (fun _ s => s) now p n s) = counter .bootTimeout 0 s := by
  induction n generalizing s with
  | zero => rfl
  | succ n ih =>
    unfold portRunWith
    split
    · split
      · refine (ih _).trans ((bootTimeouts_countN .portWaits p _ _ (by decide) hp).trans ?_)
        exact (bootTimeouts_countN .grants p 1 _ (by decide) hp).trans rfl
      · rfl
    · rfl

theorem bootTimeouts_setState (new : DevState) (cause : Nat) (s : State) :
    counter .bootTimeout 0 (setState new cause s) = counter .bootTimeout 0 s := by
  unfold setState
  split
  · rfl
  · refine (bootTimeouts_raiseEvent ..).trans ?_
    dsimp only
    cases locketOff new with
    | false => rfl
    | true =>
      refine Eq.trans ?_ (bootTimeouts_portRunWith_id s.time.tb2 2 (port s 2).waiting.length (by decide) s)
      exact (bootTimeouts_countN .resetErrors 2 _ _ (by decide) (by decide)).trans rfl

theorem setState_kept (new : DevState) (cause : Nat) (s : State) : let t := setState new cause s
    t.boot = s.boot ∧ t.time = s.time ∧ t.dev.romSafe = s.dev.romSafe ∧ t.health = s.health := by
  by_cases h : s.dev.state = new
  · rw [setState_same new cause s h]
    exact ⟨rfl, rfl, rfl, rfl⟩
  · obtain ⟨x, y, e⟩ := setState_of_ne new cause s h
    rw [e]
    exact ⟨rfl, rfl, rfl, rfl⟩

/-- What SAFE on the ROM leaves. -/
theorem romSafe_spec (s : State) : let t := romSafe s
    t.dev.state = .safe ∧ t.dev.romSafe = true ∧ bankKept t = bankKept s ∧ t.time = s.time ∧
      counter .bootTimeout 0 t = counter .bootTimeout 0 s := by
  have hcount : counter .bootTimeout 0 (romSafe s) = counter .bootTimeout 0 s :=
    (bootTimeouts_setState .safe 2 { bootReport s with dev.romSafe := true }).trans (bootTimeouts_bootReport s)
  obtain ⟨r, e, l, n, p, hreport⟩ := bootReport_touches s
  obtain ⟨hboot, htime, hrom, -⟩ := setState_kept .safe 2 { bootReport s with dev.romSafe := true }
  refine ⟨setState_state .safe 2 _, hrom, ?_, ?_, hcount⟩
  · refine (congrArg (fun b : BootSt => (b.copy0, b.copy1, b.started)) hboot).trans ?_
    rw [hreport]
    rfl
  · refine htime.trans ?_
    rw [hreport]

/-- A trial of banks that runs none goes to SAFE on the ROM; one that runs a bank waits for the end of zeroing. -/
theorem afterBanks_none (s : State) (h : s.boot.started = none) : afterBanks s = romSafe s := if_neg (by simp [h])

theorem afterBanks_some (s : State) (k : Bool) (h : s.boot.started = some k) :
    afterBanks s = { s with boot.zeroing := true } := if_pos (by simp [h])

/-! Training (R394 steps 1 to 3). -/

theorem kept_modDram (c : Nat) (f : DramCh → DramCh) (s : State) :
    bootKept (modDram c f s) = bootKept s ∧ bankKept (modDram c f s) = bankKept s := ⟨rfl, rfl⟩

theorem kept_centreLane (l : List LaneEye) (s : State) (k : Nat) :
    bootKept (centreLane l s k) = bootKept s ∧ bankKept (centreLane l s k) = bankKept s := by
  unfold centreLane
  split
  · exact ⟨rfl, rfl⟩
  · split <;> exact ⟨rfl, rfl⟩

theorem kept_trainChannel (l : List LaneEye) (s : State) (c : Nat) :
    bootKept (trainChannel l s c) = bootKept s ∧ bankKept (trainChannel l s c) = bankKept s :=
  ⟨(kept_modDram c _ _).1.trans (foldl_proj bootKept _ (fun s k => (kept_centreLane l s k).1) _ s),
    (kept_modDram c _ _).2.trans (foldl_proj bankKept _ (fun s k => (kept_centreLane l s k).2) _ s)⟩

theorem kept_bootDram (b : BootInput) (s : State) :
    bootKept (bootDram b s) = bootKept s ∧ bankKept (bootDram b s) = bankKept s := by
  unfold bootDram
  dsimp only
  refine ⟨(foldl_proj bootKept _ (fun s c => (kept_trainChannel b.lanes s c).1) _ _).trans ?_,
    (foldl_proj bankKept _ (fun s c => (kept_trainChannel b.lanes s c).2) _ _).trans ?_⟩
  · exact (foldl_proj bootKept _ (by exact fun s c => (kept_modDram c _ s).1) _ _).trans rfl
  · exact (foldl_proj bankKept _ (by exact fun s c => (kept_modDram c _ s).2) _ _).trans rfl

end Sys2Proof.Laws
end
section
/-! Start-up (O52). -/

namespace Sys2Proof.Proofs
open Sys2Proof Sys2Proof.Machine Sys2Proof.Laws

theorem mem_bankOrder (s : State) (b : Bool) : b ∈ bankOrder s ↔ bankState s b = .pending ∨ bankState s b = .valid := by
  unfold bankOrder
  simp only [List.mem_append, List.mem_filter, List.mem_cons, List.not_mem_nil, or_false, decide_eq_true_eq]
  cases b <;> cases activeIsB s <;> simp

theorem seqRoom_of_lt (s : State) (h : (bankControl s).seq + 2 < 2 ^ 32) : seqRoom s := by
  have := pendingBanks_le s
  unfold seqRoom
  omega

/-! BOOT (R394). -/

/-- Every channel in use is trained, and one is. -/
def memoryReady (s : State) : Prop := wantedChans s ≠ [] ∧ ∀ c ∈ wantedChans s, (dramCh s c).trained = true

theorem exec_boot (s : State) (hOn : s.dev.state ≠ .off) (b : BootInput) : exec (.boot b) s = .next
    (if s.dev.state ≠ .boot || s.boot.started.isSome then s
    else if (wantedChans (bootDram b s)).all (fun c => (dramCh (bootDram b s) c).trained) && !(wantedChans (bootDram b s)).isEmpty
      then afterBanks (tryBanks (bankOrder (bootDram b s)) (bootDram b s))
      else romSafe { bootDram b s with boot.arraysPassed := 15 }) := by
  change execBoot b s = _
  rw [execBoot, whenOn_of_on _ s hOn]

theorem memoryReady_iff (s : State) :
    ((wantedChans s).all (fun c => (dramCh s c).trained) && !(wantedChans s).isEmpty) = true ↔ memoryReady s := by
  simp [memoryReady, and_comm]

/-- What a boot that has tried banks comes to. -/
structure bootOutcome (l : List Bool) (s t : State) : Prop where
  rom : t.boot.started = none → t.dev.state = .safe ∧ t.dev.romSafe = true
  runs : ∀ k, t.boot.started = some k → t.dev.state = .boot ∧ t.boot.zeroing = true ∧ k ∈ l ∧ bankPasses k s
  timeouts : counter .bootTimeout 0 t = counter .bootTimeout 0 s
  tb2 : t.time.tb2 = s.time.tb2
  tried : seqRoom s → ∃ l', banksTried l' s t ∧ (t.boot.started = none → l' = l)

theorem bootOutcome_afterBanks (l : List Bool) (s : State) (hboot : s.dev.state = .boot) (hs : s.boot.started = none) :
    bootOutcome l s (afterBanks (tryBanks l s)) := by
  obtain ⟨hkept, hpasses, htried⟩ := tryBanks_outcome l s hs
  generalize tryBanks l s = u at hkept hpasses htried
  have hdev : u.dev = s.dev := congrArg Prod.fst hkept
  have htime : u.time = s.time := congrArg (fun x => x.2.1) hkept
  have hcount : counter .bootTimeout 0 u = counter .bootTimeout 0 s := congrArg (fun x => x.2.2.2.2.2) hkept
  have hmarks : ∀ t, bankKept t = bankKept u → seqRoom s → ∃ l', banksTried l' s t ∧ (t.boot.started = none → l' = l) := by
    intro t ht hroom
    obtain ⟨l', h, hall⟩ := htried hroom
    refine ⟨l' ++ [], banksTried_trans h (banksTried_nil ht h.room), fun hn => ?_⟩
    rw [List.append_nil]
    exact hall ((congrArg (fun x => x.2.2) ht).symm.trans hn)
  cases hrun : u.boot.started with
  | none =>
    rw [afterBanks_none u hrun]
    obtain ⟨hstate, hrom, hbank, htime', hcount'⟩ := romSafe_spec u
    have hnone : (romSafe u).boot.started = none := (congrArg (fun x => x.2.2) hbank).trans hrun
    exact ⟨fun _ => ⟨hstate, hrom⟩, fun k hk => (nomatch hnone.symm.trans hk), hcount'.trans hcount,
      congrArg (·.tb2) (htime'.trans htime), hmarks _ hbank⟩
  | some k =>
    rw [afterBanks_some u k hrun]
    refine ⟨fun hn => (nomatch hrun.symm.trans hn), fun j hj => ?_, hcount, congrArg (·.tb2) htime, hmarks _ rfl⟩
    obtain ⟨hmem, hpass⟩ := hpasses j hj
    exact ⟨(congrArg (·.state) hdev).trans hboot, rfl, hmem, hpass⟩

theorem bankOrder_congr {s t : State} (h : bankKept t = bankKept s) : bankOrder t = bankOrder s := by
  unfold bankOrder activeIsB
  simp only [bankState_of_bankKept h, bankControl_congr (congrArg Prod.fst h) (congrArg (fun x => x.2.1) h)]

theorem exec_boot_ready (s : State) (b : BootInput) (hboot : s.dev.state = .boot) (hs : s.boot.started = none)
    (hready : memoryReady (bootDram b s)) :
    exec (.boot b) s = .next (afterBanks (tryBanks (bankOrder s) (bootDram b s))) := by
  have hOn : s.dev.state ≠ .off := by rw [hboot]; decide
  rw [exec_boot s hOn, if_neg (by simp [hboot, hs]), if_pos ((memoryReady_iff _).mpr hready),
    bankOrder_congr (kept_bootDram b s).2]

theorem exec_boot_untrained (s : State) (b : BootInput) (hboot : s.dev.state = .boot) (hs : s.boot.started = none)
    (hready : ¬memoryReady (bootDram b s)) :
    exec (.boot b) s = .next (romSafe { bootDram b s with boot.arraysPassed := 15 }) := by
  have hOn : s.dev.state ≠ .off := by rw [hboot]; decide
  rw [exec_boot s hOn, if_neg (by simp [hboot, hs]), if_neg (mt (memoryReady_iff _).mp hready)]

/-- A run of trials leaves a bank that was PENDING FAILED, where it was tried. -/
theorem failed_of_tried {l : List Bool} {s t : State} (h : banksTried l s t) {k : Bool} (hk : k ∈ l) (hp : bankState s k = .pending) :
    bankState t k = .failed :=
  (h.states k).elim (fun he => absurd (he.trans hp) (h.failed k hk)) (·.2)

/-! BOOT_TIMEOUT (R397). -/

/-- The firmware started is stopped and counted at TB2 time `n`. -/
def bootTimedOut (n : Nat) (s : State) : State :=
  let u := count .bootTimeout 0 (elapseTo n s)
  { u with boot.outcomes := u.boot.outcomes.dropLast, boot.zeroing := false, boot.bundle := [], peg := {} }

/-- The banks that are tried after a bank's timeout. -/
def banksLeft (b : Bool) (s : State) : List Bool :=
  (bankOrder s).filter (fun x => x ≠ b && !(s.boot.outcomes.any (fun e => e.1 = x)))

theorem exec_bootTimeout_started (s : State) (b : Bool) (hboot : s.dev.state = .boot) (hs : s.boot.started = some b) :
    exec .bootTimeout s = .next (let u := bootTimedOut (s.boot.startedAt + 30000000000) s
      afterBanks (tryBanks (banksLeft b u) (bankFails b 8 u))) := by
  have hOn : s.dev.state ≠ .off := by rw [hboot]; decide
  change execBootTimeout s = _
  rw [execBootTimeout, whenOn_of_on _ s hOn, hboot, hs]
  rfl

theorem exec_bootTimeout_none (s : State) (hOn : s.dev.state ≠ .off) (h : s.dev.state ≠ .boot ∨ s.boot.started = none) :
    exec .bootTimeout s = .next s := by
  change execBootTimeout s = _
  rw [execBootTimeout, whenOn_of_on _ s hOn]
  rcases h with h | h
  · split
    · next hb _ => exact absurd hb h
    · rfl
  · rw [h]
    cases s.dev.state <;> rfl

/-! The end of zeroing (R394 step 9, R407, R411). -/

theorem exec_bootZeroingDone (s : State) (hOn : s.dev.state ≠ .off) : exec .bootZeroingDone s = .next
    (if s.dev.state ≠ .boot || !s.boot.zeroing then s
    else raiseVersion (activateBank (setState .ready 1 { bootReport s with boot.zeroing := false }))) := by
  change execBootZeroingDone s = _
  rw [execBootZeroingDone, whenOn_of_on _ s hOn]

/-- The anti-rollback version is raised, and the other bank FAILED where its bundle is below it (R407). -/
def versionRaised (v : Nat) (b : Bool) (s : State) : State :=
  let u := { s with boot.versionWords := s.boot.versionWords ++ [some v] }
  if bankState u (!b) ≠ .empty && decide (u64 (bankBytes (!b) 24 u) 16 < v) then setBank (!b) .failed u else u

theorem raiseVersion_stays (s : State)
    (h : s.boot.started = none ∨ s.boot.security.2 = false ∨ s.boot.security.1 ≤ antiRollback s) : raiseVersion s = s := by
  unfold raiseVersion
  cases hs : s.boot.started with
  | none => rfl
  | some b => exact if_pos (by simpa [hs] using h)

theorem raiseVersion_exhausted (s : State) (b : Bool) (v : Nat) (hs : s.boot.started = some b) (hsec : s.boot.security = (v, true))
    (hv : antiRollback s < v) (hw : 32 ≤ s.boot.versionWords.length) :
    raiseVersion s = raiseOpen true 0x0E 0 v [] (setAlarm 0x0E80 0 true s) := by
  unfold raiseVersion
  rw [hsec, hs]
  exact (if_neg (by simpa using hv)).trans (if_pos hw)

theorem raiseVersion_raises (s : State) (b : Bool) (v : Nat) (hs : s.boot.started = some b) (hsec : s.boot.security = (v, true))
    (hv : antiRollback s < v) (hw : s.boot.versionWords.length < 32) : raiseVersion s = versionRaised v b s := by
  unfold raiseVersion
  rw [hsec, hs]
  exact (if_neg (by simpa using hv)).trans (if_neg (Nat.not_le.mpr hw))

theorem versionRaised_spec (v : Nat) (b : Bool) (s : State) : let t := versionRaised v b s
    t.dev = s.dev ∧ t.boot.zeroing = s.boot.zeroing ∧ t.boot.versionWords = s.boot.versionWords ++ [some v] ∧
      ((bankControl s).seq + 1 < 2 ^ 32 → activeIsB t = activeIsB s ∧ bankState t b = bankState s b) := by
  unfold versionRaised
  dsimp only
  split
  · obtain ⟨c0, c1, hw⟩ := writeControl_touches (BankControl.mark (!b) .failed)
      { s with boot.versionWords := s.boot.versionWords ++ [some v] }
    have hctl := bankControl_writeControl (BankControl.mark (!b) .failed)
      { s with boot.versionWords := s.boot.versionWords ++ [some v] }
    have hsame : bankControl { s with boot.versionWords := s.boot.versionWords ++ [some v] } = bankControl s := bankControl_congr rfl rfl
    rw [hsame] at hctl
    rw [setBank]
    refine ⟨by rw [hw], by rw [hw], by rw [hw], fun hseq => ?_⟩
    unfold activeIsB bankState
    rw [hctl hseq]
    cases b <;> exact ⟨rfl, rfl⟩
  · exact ⟨rfl, rfl, rfl, fun _ => ⟨rfl, rfl⟩⟩

/-- What the raise of the anti-rollback version leaves in every case. -/
theorem raiseVersion_keeps (s : State) : let t := raiseVersion s
    t.dev = s.dev ∧ t.boot.zeroing = s.boot.zeroing ∧ ((bankControl s).seq + 1 < 2 ^ 32 → activeIsB t = activeIsB s ∧
      ∀ b, s.boot.started = some b → bankState t b = bankState s b) := by
  by_cases hstay : s.boot.started = none ∨ s.boot.security.2 = false ∨ s.boot.security.1 ≤ antiRollback s
  · rw [raiseVersion_stays s hstay]
    exact ⟨rfl, rfl, fun _ => ⟨rfl, fun _ _ => rfl⟩⟩
  · obtain ⟨hs, hflag, hv⟩ : s.boot.started ≠ none ∧ s.boot.security.2 ≠ false ∧ ¬s.boot.security.1 ≤ antiRollback s := by
      simpa only [not_or] using hstay
    obtain ⟨b, hb⟩ := Option.ne_none_iff_exists'.mp hs
    have hsec : s.boot.security = (s.boot.security.1, true) := Prod.ext rfl (by simpa using hflag)
    by_cases hw : 32 ≤ s.boot.versionWords.length
    · rw [raiseVersion_exhausted s b _ hb hsec (Nat.not_le.mp hv) hw]
      exact ⟨rfl, rfl, fun _ => ⟨rfl, fun _ _ => rfl⟩⟩
    · rw [raiseVersion_raises s b _ hb hsec (Nat.not_le.mp hv) (Nat.not_le.mp hw)]
      obtain ⟨hdev, hzero, -, hbank⟩ := versionRaised_spec s.boot.security.1 b s
      refine ⟨hdev, hzero, fun hseq => ⟨(hbank hseq).1, fun k hk => ?_⟩⟩
      obtain rfl := Option.some.inj (hb.symm.trans hk)
      exact (hbank hseq).2

/-- Bank control with a bank VALID and active. -/
def activated (b : Bool) (c : BankControl) : BankControl := { c.mark b .valid with activeB := b }

theorem activateBank_tried (s : State) (b : Bool) (hs : s.boot.started = some b) (ht : s.boot.trying = true) :
    activateBank s = writeControl (activated b) { s with boot.trying := false } := by
  unfold activateBank
  rw [hs]
  exact if_pos ht

theorem activateBank_other (s : State) (h : s.boot.started = none ∨ s.boot.trying = false) : activateBank s = s := by
  unfold activateBank
  cases hs : s.boot.started with
  | none => rfl
  | some b => exact if_neg (by simpa [hs] using h)

/-- What the activation of a bank leaves in every case. -/
theorem activateBank_keeps (s : State) : let t := activateBank s
    t.dev = s.dev ∧ t.boot.zeroing = s.boot.zeroing ∧ t.boot.started = s.boot.started ∧ t.boot.security = s.boot.security ∧
      t.boot.versionWords = s.boot.versionWords := by
  by_cases h : s.boot.started = none ∨ s.boot.trying = false
  · rw [activateBank_other s h]
    exact ⟨rfl, rfl, rfl, rfl, rfl⟩
  · obtain ⟨hs, ht⟩ := not_or.mp h
    obtain ⟨b, hb⟩ := Option.ne_none_iff_exists'.mp hs
    rw [activateBank_tried s b hb (by simpa using ht)]
    obtain ⟨c0, c1, hw⟩ := writeControl_touches (activated b) { s with boot.trying := false }
    rw [hw]
    exact ⟨rfl, rfl, rfl, rfl, rfl⟩

theorem activateBank_activates (s : State) (b : Bool) (hs : s.boot.started = some b) (ht : s.boot.trying = true)
    (hseq : (bankControl s).seq + 1 < 2 ^ 32) : let t := activateBank s
    activeIsB t = b ∧ bankState t b = .valid ∧ (bankControl t).seq = (bankControl s).seq + 1 := by
  have hsame : bankControl { s with boot.trying := false } = bankControl s := bankControl_congr rfl rfl
  have hctl := bankControl_writeControl (activated b) { s with boot.trying := false }
  rw [hsame] at hctl
  rw [activateBank_tried s b hs ht]
  dsimp only
  unfold activeIsB bankState
  rw [hctl hseq]
  cases b <;> exact ⟨rfl, rfl, rfl⟩

/-- The state in READY before a bank is activated. -/
def zeroingOver (s : State) : State := setState .ready 1 { bootReport s with boot.zeroing := false }

theorem zeroingOver_boot (s : State) : ∃ r, (zeroingOver s).boot = { s.boot with reports := r, zeroing := false } := by
  obtain ⟨r, e, l, n, p, hreport⟩ := bootReport_touches s
  obtain ⟨hboot, -⟩ := setState_kept .ready 1 { bootReport s with boot.zeroing := false }
  refine ⟨r, hboot.trans ?_⟩
  rw [hreport]

theorem antiRollback_congr {s t : State} (h : t.boot.versionWords = s.boot.versionWords) : antiRollback t = antiRollback s := by
  unfold antiRollback
  rw [h]

theorem exec_bootZeroingDone_over (s : State) (hboot : s.dev.state = .boot) (hz : s.boot.zeroing = true) :
    exec .bootZeroingDone s = .next (raiseVersion (activateBank (zeroingOver s))) := by
  have hOn : s.dev.state ≠ .off := by rw [hboot]; decide
  rw [exec_bootZeroingDone s hOn, if_neg (by simp [hboot, hz])]
  rfl

/-- The part is in READY: what becomes of the bank that runs, and of the anti-rollback version. -/
theorem readyBank (s : State) : let t := raiseVersion (activateBank (zeroingOver s))
    t.dev.state = .ready ∧ t.boot.zeroing = false ∧
      (∀ b, s.boot.started = some b → s.boot.trying = true → (bankControl s).seq + 2 < 2 ^ 32 →
        activeIsB t = b ∧ bankState t b = .valid) ∧
      (∀ b, s.boot.started = some b → s.boot.trying = false → (bankControl s).seq + 2 < 2 ^ 32 → activeIsB t = activeIsB s) := by
  obtain ⟨r, hover⟩ := zeroingOver_boot s
  obtain ⟨hdev, hzero, hstarted, -, -⟩ := activateBank_keeps (zeroingOver s)
  obtain ⟨hdev', hzero', hbank⟩ := raiseVersion_keeps (activateBank (zeroingOver s))
  have hcopies : bankControl (zeroingOver s) = bankControl s := bankControl_congr (by rw [hover]) (by rw [hover])
  refine ⟨?_, ?_, fun b hb ht hseq => ?_, fun b hb ht hseq => ?_⟩
  · rw [hdev', hdev]
    exact setState_state .ready 1 _
  · rw [hzero', hzero, hover]
  · obtain ⟨hact, hvalid, hnum⟩ := activateBank_activates (zeroingOver s) b (by rw [hover]; exact hb) (by rw [hover]; exact ht)
      (by rw [hcopies]; omega)
    obtain ⟨hact', hvalid'⟩ := hbank (by rw [hnum, hcopies]; omega)
    exact ⟨hact'.trans hact, (hvalid' b (by rw [hstarted, hover]; exact hb)).trans hvalid⟩
  · have hsame := activateBank_other (zeroingOver s) (.inr (by rw [hover]; exact ht))
    rw [hsame] at hbank ⊢
    refine (hbank (by rw [hcopies]; omega)).1.trans ?_
    unfold activeIsB
    rw [hcopies]

theorem readyVersion (s : State) : let t := raiseVersion (activateBank (zeroingOver s))
    (∀ b v, s.boot.started = some b → s.boot.security = (v, true) → antiRollback s < v →
        s.boot.versionWords.length < 32 → antiRollback t = v) ∧
      (∀ b v, s.boot.started = some b → s.boot.security = (v, true) → antiRollback s < v →
        32 ≤ s.boot.versionWords.length → t.boot.versionWords = s.boot.versionWords ∧ (0x0E80, 0) ∈ t.health.alarms) ∧
      (s.boot.started = none ∨ s.boot.security.2 = false ∨ s.boot.security.1 ≤ antiRollback s →
        t.boot.versionWords = s.boot.versionWords) := by
  obtain ⟨r, hover⟩ := zeroingOver_boot s
  obtain ⟨-, -, hstarted, hsecurity, hwords⟩ := activateBank_keeps (zeroingOver s)
  rw [hover] at hstarted hsecurity hwords
  generalize activateBank (zeroingOver s) = u at hstarted hsecurity hwords
  have hroll : antiRollback u = antiRollback s := antiRollback_congr hwords
  refine ⟨fun b v hb hsec hv hw => ?_, fun b v hb hsec hv hw => ?_, fun h => ?_⟩
  · rw [raiseVersion_raises u b v (hstarted.trans hb) (hsecurity.trans hsec) (by rwa [hroll]) (by rwa [hwords])]
    have hraised := (versionRaised_spec v b u).2.2.1
    unfold antiRollback
    rw [hraised, List.getLast?_concat]
  · rw [raiseVersion_exhausted u b v (hstarted.trans hb) (hsecurity.trans hsec) (by rwa [hroll]) (by rwa [hwords])]
    exact ⟨hwords, mem_setAlarm_true 0x0E80 0 u⟩
  · rw [raiseVersion_stays u (by rwa [hstarted, hsecurity, hroll])]
    exact hwords

/-- What a boot that has tried the banks in order comes to, of the state before it. -/
theorem bootTried (b : BootInput) (s : State) (hboot : s.dev.state = .boot) (hs : s.boot.started = none) :
    let t := afterBanks (tryBanks (bankOrder s) (bootDram b s))
    (t.boot.started = none → t.dev.state = .safe ∧ t.dev.romSafe = true) ∧
      (∀ k, t.boot.started = some k → t.dev.state = .boot ∧ t.boot.zeroing = true ∧
        (bankState s k = .pending ∨ bankState s k = .valid) ∧ bankPasses k s) ∧
      (t.boot.started = none → (bankControl s).seq + 2 < 2 ^ 32 → ∀ k, bankState s k = .pending → bankState t k = .failed) := by
  obtain ⟨hkept, hbank⟩ := kept_bootDram b s
  have hdev : (bootDram b s).dev.state = .boot := (congrArg (fun x => x.1.state) hkept).trans hboot
  have hnone : (bootDram b s).boot.started = none := (congrArg (fun x => x.2.2) hbank).trans hs
  obtain ⟨hrom, hruns, -, -, htried⟩ := bootOutcome_afterBanks (bankOrder s) (bootDram b s) hdev hnone
  refine ⟨hrom, fun k hk => ?_, fun hn hseq k hp => ?_⟩
  · obtain ⟨hstate, hzero, hmem, hpass⟩ := hruns k hk
    exact ⟨hstate, hzero, (mem_bankOrder s k).mp hmem, (bankPasses_congr hkept k).mp hpass⟩
  · obtain ⟨l', h, hall⟩ := htried (banksTried_nil hbank (seqRoom_of_lt s hseq)).room
    rw [hall hn] at h
    exact failed_of_tried h ((mem_bankOrder s k).mpr (.inl hp)) ((bankState_of_bankKept hbank k).trans hp)

/-- What a timeout comes to (R397): bank `b` does not run again, and another only by the same checks. -/
theorem timeoutTried (n : Nat) (s : State) (b : Bool) (hboot : s.dev.state = .boot) :
    let t := afterBanks (tryBanks (banksLeft b (bootTimedOut n s)) (bankFails b 8 (bootTimedOut n s)))
    t.boot.started ≠ some b ∧ counter .bootTimeout 0 t = counter .bootTimeout 0 s + 1 ∧
      n ≤ t.time.tb2 ∧
      ((bankControl s).seq + 2 < 2 ^ 32 → bankState s b = .pending → bankState t b = .failed) ∧
      (t.boot.started = none → t.dev.state = .safe ∧ t.dev.romSafe = true) ∧
      (∀ k, t.boot.started = some k → t.dev.state = .boot ∧ (bankState s k = .pending ∨ bankState s k = .valid) ∧
        bankPasses k s ∧ t.boot.zeroing = true) := by
  have hcopies : bankControl (bootTimedOut n s) = bankControl s := bankControl_congr rfl rfl
  have hstates : ∀ k, bankState (bootTimedOut n s) k = bankState s k := fun k => by
    unfold bankState
    rw [hcopies]
  have hcount : counter .bootTimeout 0 (bootTimedOut n s) = counter .bootTimeout 0 s + 1 := counter_count ..
  have htime : (bootTimedOut n s).time.tb2 = max s.time.tb2 n := tb2_elapseTo n s
  have hverdict : ∀ k, bankVerdict k (bootTimedOut n s) = bankVerdict k s := fun k => checkContainer_congr rfl rfl _ _ _ _
  have hdev : (bootTimedOut n s).dev.state = .boot := hboot
  generalize bootTimedOut n s = u at hcopies hstates hcount htime hverdict hdev
  have hkept := bootKept_bankFails b 8 u
  obtain ⟨hrom, hruns, htimeouts, htb2, htried⟩ := bootOutcome_afterBanks (banksLeft b u) (bankFails b 8 u)
    ((congrArg (fun x => x.1.state) hkept).trans hdev) (started_bankFails b 8 u)
  have hleft : ∀ k ∈ banksLeft b u, k ≠ b ∧ k ∈ bankOrder u := fun k hk => by
    obtain ⟨hmem, hcond⟩ := List.mem_filter.mp hk
    exact ⟨of_decide_eq_true (Bool.and_eq_true_iff.mp hcond).1, hmem⟩
  refine ⟨fun hrun => ?_, ?_, ?_, fun hseq hp => ?_, hrom, fun k hk => ?_⟩
  · exact (hleft b (hruns b hrun).2.2.1).1 rfl
  · rw [htimeouts, ← hcount]
    exact congrArg (fun x => x.2.2.2.2.2) hkept
  · have hsame : (bankFails b 8 u).time.tb2 = u.time.tb2 := congrArg (fun x => x.2.1.tb2) hkept
    rw [htb2, hsame, htime]
    exact le_max_right _ _
  · have hroom : seqRoom u := seqRoom_of_lt u (by rwa [hcopies])
    have hone := banksTried_bankFails b 8 u hroom
    obtain ⟨l', h, -⟩ := htried hone.room
    exact failed_of_tried (banksTried_trans hone h) (List.mem_append_left l' (List.mem_singleton_self b)) ((hstates b).trans hp)
  · obtain ⟨hstate, hzero, hmem, hpass⟩ := hruns k hk
    have hp : bankPasses k u := (bankPasses_congr hkept k).mp hpass
    rw [bankPasses, hverdict] at hp
    have horder := (mem_bankOrder u k).mp (hleft k hmem).2
    rw [hstates] at horder
    exact ⟨hstate, horder, hp, hzero⟩

/-- Settles O52: the trial of banks by induction over them, with what a trial leaves and what it does to the banks' states; the end of
zeroing by the two updates of bank control that it can make. -/
theorem onlyVerifiedFirmwareStarts : Obligations.OnlyVerifiedFirmwareStarts := by
  intro s
  refine ⟨fun b hOn h => ?done, fun b hboot hs => ?boot, fun hOn h => exec_bootTimeout_none s hOn h, fun b hboot hs => ?timeout,
    fun hOn h => ?notZeroing, fun f hseq => ?control, fun hboot hz => ?ready⟩
  case done =>
    rw [exec_boot s hOn]
    exact congrArg _ (if_pos (by rcases h with h | h <;> simp [h]))
  case boot =>
    intro u ready
    by_cases hready : memoryReady u
    · obtain ⟨hrom, hruns, hfailed⟩ := bootTried b s hboot hs
      refine ⟨_, exec_boot_ready s b hboot hs hready, hrom, fun h => absurd hready h, fun k hk => ?_, fun _ => hfailed⟩
      obtain ⟨hstate, hzero, hbank, hcode, hsections⟩ := hruns k hk
      exact ⟨hstate, hzero, hbank, hcode, hsections⟩
    · obtain ⟨hstate, hrom, hbank, -, -⟩ := romSafe_spec { bootDram b s with boot.arraysPassed := 15 }
      have hnone : (romSafe { bootDram b s with boot.arraysPassed := 15 }).boot.started = none :=
        (congrArg (fun x => x.2.2) hbank).trans ((congrArg (fun x => x.2.2) (kept_bootDram b s).2).trans hs)
      exact ⟨_, exec_boot_untrained s b hboot hs hready, fun _ => ⟨hstate, hrom⟩, fun _ => hnone,
        fun k hk => (nomatch hnone.symm.trans hk), fun h => absurd h hready⟩
  case timeout =>
    obtain ⟨hnot, hcount, htime, hfailed, hrom, hruns⟩ := timeoutTried (s.boot.startedAt + 30000000000) s b hboot
    refine ⟨_, exec_bootTimeout_started s b hboot hs, hnot, hcount, htime, hfailed, hrom, fun k hk => ?_⟩
    obtain ⟨hstate, hbank, ⟨hcode, hsections⟩, hzero⟩ := hruns k hk
    exact ⟨hstate, hbank, hcode, hzero, hsections⟩
  case notZeroing =>
    rw [exec_bootZeroingDone s hOn]
    exact congrArg _ (if_pos (by rcases h with h | h <;> simp [h]))
  case control =>
    exact ⟨bankControl_writeControl f s hseq, writeControl_keeps_copy f s⟩
  case ready =>
    obtain ⟨hstate, hzero, htry, hother⟩ := readyBank s
    obtain ⟨hraise, hfull, hstays⟩ := readyVersion s
    exact ⟨_, exec_bootZeroingDone_over s hboot hz, hstate, hzero, htry, hother, hraise, hfull, hstays⟩

end Sys2Proof.Proofs
end

section
/-! SUPPORT. Records and their sets, and what the recorder's writer does (spec/21_event_recorder.md R458 to R463). -/

namespace Sys2Proof.Laws
open Sys2Proof Sys2Proof.Machine

/-! CRCs are of 32 bits. -/

theorem crcBit_lt (p c : Nat) (hp : p < 2 ^ 32) (hc : c < 2 ^ 32) : crcBit p c < 2 ^ 32 := by
  unfold crcBit
  split
  · exact Nat.xor_lt_two_pow (by omega) hp
  · omega

theorem crcByte_lt (p c : Nat) (b : Byte) (hp : p < 2 ^ 32) (hc : c < 2 ^ 32) : crcByte p c b < 2 ^ 32 := by
  have hx : c ^^^ b.toNat < 2 ^ 32 := Nat.xor_lt_two_pow hc (b.isLt.trans (by decide))
  unfold crcByte
  dsimp only
  iterate 8 refine crcBit_lt p _ hp ?_
  exact hx

theorem crc32c_lt (l : List Byte) : crc32c l < 2 ^ 32 := by
  have hfold : ∀ (l : List Byte) c, c < 2 ^ 32 → l.foldl (crcByte 0x82F63B78) c < 2 ^ 32 := by
    intro l
    induction l with
    | nil => exact fun c hc => hc
    | cons b l ih => exact fun c hc => ih _ (crcByte_lt _ _ b (by decide) hc)
  exact Nat.xor_lt_two_pow (hfold l _ (by decide)) (by decide)

/-! Bytes of a record (Table 21.3). -/

theorem slice_append_left (l r : List Byte) (n : Nat) (h : r.length = n) (t : List Byte) : slice (l ++ r ++ t) l.length n = r := by
  unfold slice
  rw [List.append_assoc, List.drop_left, List.take_left' h]
  simp [h]

@[simp] theorem leInt_length (n : Nat) (v : Int) : (leInt n v).length = n := leBytes_length ..

theorem recBody_length (r : RecRecord) : (recBody r).length = 248 := by
  have hhist : ((List.range 16).flatMap (fun i => leBytes 4 (r.set.hist.getD i 0))).length = 64 := by
    rw [List.length_flatMap]
    simp
  simp only [recBody, List.length_append, leBytes_length, leInt_length, hhist, sourceMap, List.length_map, List.length_range,
    List.length_replicate, List.length_cons, List.length_nil]

theorem recBytes_length (b : Bool) (r : RecRecord) : (recBytes b r).length = 256 := by
  simp only [recBytes, List.length_append, recBody_length, leBytes_length]

/-- A record reads back whole exactly where its mark is in place (R460). -/
theorem recWhole_recBytes (b : Bool) (r : RecRecord) : recWhole (recBytes b r) = b := by
  have hbody := recBody_length r
  have hcrc : slice (recBytes b r) 248 4 = leBytes 4 (crc32c (recBody r)) := by
    rw [← hbody]
    exact slice_append_left _ _ 4 (leBytes_length ..) _
  have hmark : slice (recBytes b r) 252 4 = leBytes 4 (if b then 0xA55AC33C else 0) := by
    have h := slice_append_left (recBody r ++ leBytes 4 (crc32c (recBody r))) (leBytes 4 (if b then 0xA55AC33C else 0)) 4
      (leBytes_length ..) []
    rwa [List.append_nil, List.length_append, hbody, leBytes_length] at h
  have htake : (recBytes b r).take 248 = recBody r := by
    unfold recBytes
    rw [List.append_assoc, List.take_left' hbody]
  unfold recWhole
  rw [hmark, hcrc, htake, leVal_leBytes 4 (crc32c (recBody r)) (crc32c_lt _)]
  rw [decide_eq_true (rfl : crc32c (recBody r) = _), Bool.and_true]
  cases b <;> decide

/-! Sets (R459, R461). -/

theorem mem_addSource (l : List Nat) (x y : Nat) : y ∈ addSource l x ↔ y ∈ l ∨ y = x := by
  unfold addSource
  split
  · next h => exact ⟨.inl, fun hy => hy.elim id fun he => he ▸ h⟩
  · next h =>
    have hne : y ∈ l → y ≠ x := fun hy he => h (he ▸ hy)
    simp only [List.mem_append, List.mem_cons, List.mem_filter, decide_eq_true_eq]
    constructor
    · rintro (⟨hy, -⟩ | hy | ⟨hy, -⟩)
      · exact .inl hy
      · exact .inr hy
      · exact .inl hy
    · rintro (hy | hy)
      · exact (Nat.lt_or_gt_of_ne (hne hy)).elim (fun hlt => .inl ⟨hy, hlt⟩) (fun hgt => .inr (.inr ⟨hy, hgt⟩))
      · exact .inr (.inl hy)

theorem mem_foldl_addSource (l m : List Nat) (y : Nat) : y ∈ m.foldl addSource l ↔ y ∈ l ∨ y ∈ m := by
  induction m generalizing l with
  | nil => simp
  | cons x m ih => rw [List.foldl_cons, ih, mem_addSource, List.mem_cons, or_assoc]

theorem mergeSets_spec (a b : ClassSet) (ha : 0 < a.count) : (mergeSets a b).count = a.count + b.count ∧
    (mergeSets a b).min = min a.min b.min ∧ (mergeSets a b).max = max a.max b.max ∧
    (∀ x, x ∈ (mergeSets a b).sources ↔ x ∈ a.sources ∨ x ∈ b.sources) := by
  unfold mergeSets
  rw [if_neg ha.ne']
  refine ⟨rfl, ?_, ?_, fun x => mem_foldl_addSource a.sources b.sources x⟩
  · dsimp only
    split
    · next h =>
      rcases Bool.or_eq_true_iff.mp h with h | h
      · exact (min_eq_right (of_decide_eq_true h).le).symm
      · exact (min_eq_right (of_decide_eq_true (Bool.and_eq_true_iff.mp h).1).le).symm
    · next h =>
      have hn : ¬ b.min < a.min := fun hlt => h (by simp [hlt])
      exact (min_eq_left (not_lt.mp hn)).symm
  · dsimp only
    split
    · next h =>
      rcases Bool.or_eq_true_iff.mp h with h | h
      · exact (max_eq_right (of_decide_eq_true h).le).symm
      · exact (max_eq_right (of_decide_eq_true (Bool.and_eq_true_iff.mp h).1).ge).symm
    · next h =>
      have hn : ¬ a.max < b.max := fun hlt => h (by simp [hlt])
      exact (max_eq_left (not_lt.mp hn)).symm

/-! The writer (R460, R461, R463). -/

/-- Records merged into an overflow set (R461). -/
def mergedInto (l : List RecRecord) (o : Tab ClassSet) : Tab ClassSet :=
  l.foldl (fun o r => tabMod {} o r.cls (fun a => mergeSets a r.set)) o

/-- What the writer's reports and its stop leave of a state. -/
def writerKept (s : State) : List (Nat × RecRecord) × Bool × List Nat × (List Nat × List Nat) × TimeSt × Memory × Nat :=
  (s.recorder.held, s.recorder.clearing, s.recorder.badSectors, s.recorder.mapCopies, s.time, s.boot.mram, counter .clears 0 s)

theorem counter_of_counters {s t : State} (h : t.counters = s.counters) (c : Ctr) (i : Nat) : counter c i t = counter c i s := by
  unfold counter
  rw [h]

theorem clears_count (c : Ctr) (s : State) (hc : Ctr.clears.ctorIdx ≠ c.ctorIdx) :
    counter .clears 0 (count c 0 s) = counter .clears 0 s := counter_count_of_ne 0 s hc

theorem clears_raiseEvent (g code src : Nat) (a e : Bool) (m : Int) (l : List Byte) (s : State) :
    counter .clears 0 (raiseEvent g code src a e m l s) = counter .clears 0 s := by
  unfold raiseEvent counter
  dsimp only
  split
  · rfl
  · exact tabGet_tabMod_ne 0 s.counters _ (by decide)

theorem writerKept_raise (code src : Nat) (m : Int) (l : List Int) (s : State) :
    writerKept (raise code src m l s) = writerKept s := by
  have h : counter .clears 0 (raise code src m l s) = counter .clears 0 s := clears_raiseEvent ..
  unfold writerKept
  rw [h]
  rfl

theorem mergeOverflow_spec (l : List RecRecord) (s : State) : let t := mergeOverflow l s
    writerKept t = writerKept s ∧ t.recorder.overflow = mergedInto l s.recorder.overflow ∧ t.recorder.toSeal = s.recorder.toSeal ∧
      t.recorder.state = s.recorder.state := by
  unfold mergeOverflow
  split
  · next h =>
    obtain rfl := List.isEmpty_iff.mp h
    exact ⟨rfl, rfl, rfl, rfl⟩
  · refine ⟨?_, rfl, rfl, rfl⟩
    unfold writerKept
    rw [clears_count _ _ (by decide)]
    rfl

/-- The recorder that stops merges what waits (R461, R463). -/
theorem recStop_spec (st code : Nat) (m : Int) (s : State) : let t := recStop st code m s
    writerKept t = writerKept s ∧ t.recorder.state = st ∧ t.recorder.toSeal = [] ∧
      t.recorder.overflow = mergedInto s.recorder.toSeal s.recorder.overflow := by
  obtain ⟨hkept, hover, hseal, hstate⟩ := mergeOverflow_spec s.recorder.toSeal
    (raise code 4 m [] { s with recorder.state := st, recorder.toSeal := [] })
  exact ⟨hkept.trans ((writerKept_raise ..).trans rfl), hstate, hseal, hover⟩

/-- A record is written and held. -/
def sealHeld (n : Nat) (r : RecRecord) (s : State) : State :=
  count .recordsSealed 0 { s with
    recorder.held := s.recorder.held ++ [(n, r)], recorder.nextSlot := n + 1
    boot.mram := memWrite s.boot.mram (recOffset n) (recBytes true r) }

/-- The log is reported nearly full, once. -/
def sealNearly (s : State) : State :=
  if nearlyFull s.recorder && !s.recorder.nearly then
    raise 0x0C00 4 s.recorder.held.length [] { s with recorder.nearly := true } else s

/-- The recorder stops where no good slot is left. -/
def sealFull (s : State) : State :=
  if (nextGood s.recorder s.recorder.nextSlot).isNone then recStop 1 0x0C01 s.recorder.held.length s else s

theorem sealGood_eq (n : Nat) (r : RecRecord) (s : State) : sealGood n r s = sealFull (sealNearly (sealHeld n r s)) := rfl

theorem sealNearly_spec (s : State) : writerKept (sealNearly s) = writerKept s ∧ (sealNearly s).recorder.toSeal = s.recorder.toSeal := by
  unfold sealNearly
  split
  · exact ⟨(writerKept_raise ..).trans rfl, rfl⟩
  · exact ⟨rfl, rfl⟩

theorem sealFull_spec (s : State) : writerKept (sealFull s) = writerKept s ∧
    ((sealFull s).recorder.toSeal = s.recorder.toSeal ∨ (sealFull s).recorder.toSeal = []) := by
  unfold sealFull
  split
  · obtain ⟨hkept, -, hseal, -⟩ := recStop_spec 1 0x0C01 s.recorder.held.length s
    exact ⟨hkept, .inr hseal⟩
  · exact ⟨rfl, .inl rfl⟩

theorem clears_sealHeld (n : Nat) (r : RecRecord) (s : State) : counter .clears 0 (sealHeld n r s) = counter .clears 0 s := by
  refine (clears_count .recordsSealed { s with
    recorder.held := s.recorder.held ++ [(n, r)], recorder.nextSlot := n + 1
    boot.mram := memWrite s.boot.mram (recOffset n) (recBytes true r) } (by decide)).trans ?_
  exact counter_of_counters (by rfl) .clears 0

/-- A record that verifies: it is held, and of what waits either all stays or, where the recorder stops, nothing. -/
theorem writerKept_sealGood (n : Nat) (r : RecRecord) (s : State) :
    writerKept (sealGood n r s) = writerKept (sealHeld n r s) := by
  rw [sealGood_eq]
  exact (sealFull_spec (sealNearly (sealHeld n r s))).1.trans (sealNearly_spec (sealHeld n r s)).1

theorem toSeal_sealGood (n : Nat) (r : RecRecord) (s : State) :
    (sealGood n r s).recorder.toSeal = s.recorder.toSeal ∨ (sealGood n r s).recorder.toSeal = [] := by
  have h := (sealFull_spec (sealNearly (sealHeld n r s))).2
  rwa [(sealNearly_spec (sealHeld n r s)).2] at h

/-- The sector of a record that failed is named bad, in the map and in each copy that verifies (R463). -/
def sectorNamed (n : Nat) (a b : Bool) (s : State) : State :=
  raise 0x0C02 4 (n / 16 : Nat) [] (count .sectorsBad 0 (count .writeVerifyFail 0 { s with
    recorder.mapCopies := (if a then addSource s.recorder.badSectors (n / 16) else s.recorder.mapCopies.1,
      if b then addSource s.recorder.badSectors (n / 16) else s.recorder.mapCopies.2)
    recorder.badSectors := addSource s.recorder.badSectors (n / 16), recorder.badSeen := true
    recorder.nextSlot := (n / 16 + 1) * 16 }))

theorem sealBad_spec (n : Nat) (a b : Bool) (s : State) : writerKept (sealBad n a b s) = writerKept (sectorNamed n a b s) := by
  change writerKept (if (nextGood (sectorNamed n a b s).recorder (sectorNamed n a b s).recorder.nextSlot).isNone || (!a && !b) then
    recStop 2 0x0C03 (sectorNamed n a b s).recorder.badSectors.length (sectorNamed n a b s) else sectorNamed n a b s) = _
  split
  · exact (recStop_spec ..).1
  · rfl

end Sys2Proof.Laws
end

section
/-! The event recorder (O54). -/

namespace Sys2Proof.Proofs
open Sys2Proof Sys2Proof.Machine Sys2Proof.Laws

/-! Epochs (R458). -/

/-- The operating seconds have reached the next whole hour. -/
def hourReached (s : State) : State :=
  { s with recorder.second := max s.recorder.second ((s.recorder.epochStart / 3600 + 1) * 3600) }

/-- The live set has been handed over, and an empty one runs. -/
def epochSwapped (keep : Bool) (l : List RecRecord) (s : State) : State :=
  { s with
    recorder.live := [], recorder.epochStart := s.recorder.second, recorder.secondWritten := s.recorder.second
    recorder.toSeal := if keep then s.recorder.toSeal ++ l else s.recorder.toSeal
    recorder.writerAt := if s.recorder.toSeal.isEmpty then s.time.tb2 else s.recorder.writerAt }

theorem exec_epochEnd (s : State) (hOn : s.dev.state ≠ .off) : exec .epochEnd s = .next (
    let keep := s.recorder.state = 0 || s.recorder.clearing
    let u := epochSwapped keep (epochRecords false s) (hourReached s)
    if keep then u else mergeOverflow (epochRecords false s) u) := by
  change execEpochEnd s = _
  rw [execEpochEnd, whenOn_of_on _ s hOn]
  rfl

theorem mergeOverflow_recorder (l : List RecRecord) (s : State) :
    (mergeOverflow l s).recorder = { s.recorder with overflow := mergedInto l s.recorder.overflow } := by
  unfold mergeOverflow
  split
  · next h =>
    obtain rfl := List.isEmpty_iff.mp h
    rfl
  · rfl

theorem epochEnd_spec (s : State) (hOn : s.dev.state ≠ .off) : ∃ t, exec .epochEnd s = .next t ∧ t.recorder.live = [] ∧
    t.recorder.epochStart = t.recorder.second ∧ t.recorder.secondWritten = t.recorder.second ∧
    (s.recorder.epochStart / 3600 + 1) * 3600 ≤ t.recorder.second ∧ t.recorder.held = s.recorder.held ∧
    ((s.recorder.state = 0 ∨ s.recorder.clearing = true) →
      t.recorder.toSeal = s.recorder.toSeal ++ epochRecords false s ∧ t.recorder.overflow = s.recorder.overflow) ∧
    (s.recorder.state ≠ 0 → s.recorder.clearing = false → t.recorder.toSeal = s.recorder.toSeal ∧
      t.recorder.overflow = mergedInto (epochRecords false s) s.recorder.overflow) := by
  rw [exec_epochEnd s hOn]
  dsimp only
  cases hkeep : (s.recorder.state = 0 || s.recorder.clearing : Bool) with
  | true =>
    rw [if_pos rfl]
    refine ⟨_, rfl, rfl, rfl, rfl, le_max_right _ _, rfl, fun _ => ⟨rfl, rfl⟩, fun hs hc => ?_⟩
    exact absurd hkeep (by simp [hs, hc])
  | false =>
    rw [if_neg Bool.false_ne_true]
    have hrec := mergeOverflow_recorder (epochRecords false s) (epochSwapped false (epochRecords false s) (hourReached s))
    refine ⟨_, rfl, ?_⟩
    rw [hrec]
    refine ⟨rfl, rfl, rfl, le_max_right _ _, rfl, fun h => ?_, fun _ _ => ⟨rfl, rfl⟩⟩
    rcases h with h | h
    · exact absurd hkeep (by simp [h])
    · exact absurd hkeep (by simp [h])

/-! The writer (R460, R463). -/

/-- TB2 time that a record takes the writer. -/
def sealTime (v : Verify) : Nat := match v with
  | .good => 25000
  | .bad _ _ => 45000

theorem sealTime_good : sealTime .good = 25000 := rfl
theorem sealTime_bad (a b : Bool) : sealTime (.bad a b) = 45000 := rfl

/-- The writer takes a record. -/
def sealStart (n : Nat) (s : State) : State := { elapseTo n s with recorder.writerAt := max n s.time.tb2 }

theorem exec_recordSeal (s : State) (hOn : s.dev.state ≠ .off) (v : Verify) : exec (.recordSeal v) s = .next
    (if s.recorder.clearing || s.recorder.state ≠ 0 || s.recorder.toSeal.isEmpty then s
    else sealNext v (sealStart (s.recorder.writerAt + sealTime v) s)) := by
  change execRecordSeal v s = _
  unfold execRecordSeal
  rw [whenOn_of_on _ s hOn]
  cases v <;> rfl

theorem exec_recordSeal_none (s : State) (hOn : s.dev.state ≠ .off) (v : Verify)
    (h : s.recorder.clearing = true ∨ s.recorder.state ≠ 0 ∨ s.recorder.toSeal = []) : exec (.recordSeal v) s = .next s := by
  rw [exec_recordSeal s hOn]
  exact congrArg _ (if_pos (by rcases h with h | h | h <;> simp [h]))

theorem nextGood_congr {x y : RecSt} (h : x.badSectors = y.badSectors) (n : Nat) : nextGood x n = nextGood y n := by
  unfold nextGood slotGood
  rw [h]

/-- What is sealed next of what waits. -/
def sealOne (v : Verify) (r : RecRecord) (l : List RecRecord) (s : State) : State :=
  match nextGood s.recorder s.recorder.nextSlot with
  | none => recStop 1 0x0C01 s.recorder.held.length s
  | some n => match v with
    | .good => sealGood n r { s with recorder.toSeal := l }
    | .bad m1 m2 => sealBad n m1 m2 s

theorem sealNext_cons (v : Verify) (s : State) (r : RecRecord) (l : List RecRecord) (hc : s.recorder.clearing = false)
    (hs : s.recorder.state = 0) (h : s.recorder.toSeal = r :: l) : sealNext v s = sealOne v r l s := by
  unfold sealNext
  rw [if_neg (by simp [hc, hs]), h]
  rfl

theorem sealNext_held (v : Verify) (s : State) (h : s.recorder.clearing = true ∨ s.recorder.state ≠ 0) : sealNext v s = s :=
  if_pos (by rcases h with h | h <;> simp [h])

theorem exec_recordSeal_cons (s : State) (hOn : s.dev.state ≠ .off) (v : Verify) (r : RecRecord) (l : List RecRecord)
    (hc : s.recorder.clearing = false) (hs : s.recorder.state = 0) (h : s.recorder.toSeal = r :: l) :
    exec (.recordSeal v) s = .next (sealOne v r l (sealStart (s.recorder.writerAt + sealTime v) s)) := by
  rw [exec_recordSeal s hOn, if_neg (by simp [hc, hs, h]), sealNext_cons v (sealStart (s.recorder.writerAt + sealTime v) s) r l hc hs h]

theorem sealStart_kept (n : Nat) (s : State) : let u := sealStart n s
    u.recorder.held = s.recorder.held ∧ u.recorder.badSectors = s.recorder.badSectors ∧ u.recorder.nextSlot = s.recorder.nextSlot ∧
      u.recorder.mapCopies = s.recorder.mapCopies ∧ u.recorder.toSeal = s.recorder.toSeal ∧
      u.recorder.overflow = s.recorder.overflow ∧ u.boot = s.boot := ⟨rfl, rfl, rfl, rfl, rfl, rfl, rfl⟩

theorem tb2_sealStart (n : Nat) (s : State) : (sealStart n s).time.tb2 = max s.time.tb2 n := tb2_elapseTo n s

theorem nextGood_sealStart (n : Nat) (s : State) : nextGood (sealStart n s).recorder (sealStart n s).recorder.nextSlot =
    nextGood s.recorder s.recorder.nextSlot := nextGood_congr rfl _

theorem sealHeld_fields (n : Nat) (r : RecRecord) (s : State) : let t := sealHeld n r s
    t.recorder.held = s.recorder.held ++ [(n, r)] ∧ t.time.tb2 = s.time.tb2 ∧
      t.boot.mram = memWrite s.boot.mram (recOffset n) (recBytes true r) := by
  dsimp only [sealHeld, count, countN]
  exact ⟨rfl, rfl, rfl⟩

theorem sectorNamed_fields (n : Nat) (a b : Bool) (s : State) : let t := sectorNamed n a b s
    t.recorder.held = s.recorder.held ∧ t.time.tb2 = s.time.tb2 ∧ t.boot.mram = s.boot.mram ∧
      t.recorder.badSectors = addSource s.recorder.badSectors (n / 16) ∧
      t.recorder.mapCopies = (if a then addSource s.recorder.badSectors (n / 16) else s.recorder.mapCopies.1,
        if b then addSource s.recorder.badSectors (n / 16) else s.recorder.mapCopies.2) := ⟨rfl, rfl, rfl, rfl, rfl⟩

section
variable (s : State) (hOn : s.dev.state ≠ .off) (r : RecRecord) (l : List RecRecord) (hc : s.recorder.clearing = false)
  (hs : s.recorder.state = 0) (h : s.recorder.toSeal = r :: l)
include hOn hc hs h

theorem recordSeal_good (n : Nat) (hn : nextGood s.recorder s.recorder.nextSlot = some n) :
    ∃ t, exec (.recordSeal .good) s = .next t ∧ t.recorder.held = s.recorder.held ++ [(n, r)] ∧
      t.time.tb2 = max s.time.tb2 (s.recorder.writerAt + 25000) ∧
      memRead t.boot.mram (recOffset n) (recBytes true r).length = recBytes true r ∧
      (∀ a, (a < recOffset n ∨ recOffset n + (recBytes true r).length ≤ a) → memGet t.boot.mram a = memGet s.boot.mram a) := by
  rw [exec_recordSeal_cons s hOn .good r l hc hs h]
  have htb2 := tb2_sealStart (s.recorder.writerAt + sealTime .good) s
  rw [sealTime_good] at htb2 ⊢
  have hgood := nextGood_sealStart (s.recorder.writerAt + 25000) s
  obtain ⟨hheld, -, -, -, -, -, hboot⟩ := sealStart_kept (s.recorder.writerAt + 25000) s
  generalize sealStart (s.recorder.writerAt + 25000) s = u at htb2 hgood hheld hboot
  have hone : sealOne .good r l u = sealGood n r { u with recorder.toSeal := l } := by
    unfold sealOne
    rw [hgood, hn]
  have hkept := writerKept_sealGood n r { u with recorder.toSeal := l }
  obtain ⟨hheld', htime', hmram'⟩ := sealHeld_fields n r { u with recorder.toSeal := l }
  rw [hone]
  generalize sealGood n r { u with recorder.toSeal := l } = t at hkept
  generalize sealHeld n r { u with recorder.toSeal := l } = w at hkept hheld' htime' hmram'
  have hmram : t.boot.mram = memWrite s.boot.mram (recOffset n) (recBytes true r) := by
    rw [← hboot, ← hmram']
    exact congrArg (fun x => x.2.2.2.2.2.1) hkept
  refine ⟨t, rfl, ?_, ?_, ?_, fun a ha => ?_⟩
  · rw [← hheld, ← hheld']
    exact congrArg (fun x => x.1) hkept
  · rw [← htb2, ← htime']
    exact congrArg (fun x => x.2.2.2.2.1.tb2) hkept
  · rw [hmram, memRead_memWrite]
  · rw [hmram, memGet_memWrite_outside _ _ _ _ ha]

theorem recordSeal_bad (n : Nat) (hn : nextGood s.recorder s.recorder.nextSlot = some n) (a b : Bool) :
    ∃ t, exec (.recordSeal (.bad a b)) s = .next t ∧ t.recorder.held = s.recorder.held ∧
      slotGood t.recorder n = false ∧ t.boot.mram = s.boot.mram ∧
      t.recorder.mapCopies = (if a then addSource s.recorder.badSectors (n / 16) else s.recorder.mapCopies.1,
        if b then addSource s.recorder.badSectors (n / 16) else s.recorder.mapCopies.2) ∧
      t.time.tb2 = max s.time.tb2 (s.recorder.writerAt + 45000) := by
  rw [exec_recordSeal_cons s hOn (.bad a b) r l hc hs h]
  have htb2 := tb2_sealStart (s.recorder.writerAt + sealTime (.bad a b)) s
  rw [sealTime_bad] at htb2 ⊢
  have hgood := nextGood_sealStart (s.recorder.writerAt + 45000) s
  obtain ⟨hheld, hbad, -, hcopies, -, -, hboot⟩ := sealStart_kept (s.recorder.writerAt + 45000) s
  generalize sealStart (s.recorder.writerAt + 45000) s = u at htb2 hgood hheld hbad hcopies hboot
  have hone : sealOne (.bad a b) r l u = sealBad n a b u := by
    unfold sealOne
    rw [hgood, hn]
  have hkept := sealBad_spec n a b u
  obtain ⟨hheld', htime', hmram', hbad', hcopies'⟩ := sectorNamed_fields n a b u
  rw [hbad] at hbad' hcopies'
  rw [hcopies] at hcopies'
  rw [hone]
  generalize sealBad n a b u = t at hkept
  generalize sectorNamed n a b u = w at hkept hheld' htime' hmram' hbad' hcopies'
  have hsectors : t.recorder.badSectors = addSource s.recorder.badSectors (n / 16) := by
    rw [← hbad']
    exact congrArg (fun x => x.2.2.1) hkept
  refine ⟨t, rfl, ?_, ?_, ?_, ?_, ?_⟩
  · rw [← hheld, ← hheld']
    exact congrArg (fun x => x.1) hkept
  · have hmem : n / slotsPerSector ∈ addSource s.recorder.badSectors (n / 16) := (mem_addSource ..).mpr (.inr rfl)
    rw [slotGood, hsectors, List.contains_iff_mem.mpr hmem]
    rfl
  · rw [← hboot, ← hmram']
    exact congrArg (fun x => x.2.2.2.2.2.1) hkept
  · rw [← hcopies']
    exact congrArg (fun x => x.2.2.2.1) hkept
  · rw [← htb2, ← htime']
    exact congrArg (fun x => x.2.2.2.2.1.tb2) hkept

theorem recordSeal_full (hn : nextGood s.recorder s.recorder.nextSlot = none) (v : Verify) :
    ∃ t, exec (.recordSeal v) s = .next t ∧ t.recorder.state = 1 ∧ t.recorder.toSeal = [] ∧ t.recorder.held = s.recorder.held ∧
      t.recorder.overflow = mergedInto (r :: l) s.recorder.overflow := by
  rw [exec_recordSeal_cons s hOn v r l hc hs h]
  have hgood := nextGood_sealStart (s.recorder.writerAt + sealTime v) s
  obtain ⟨hheld, -, -, -, hseal, hover, -⟩ := sealStart_kept (s.recorder.writerAt + sealTime v) s
  generalize sealStart (s.recorder.writerAt + sealTime v) s = u at hgood hheld hseal hover
  have hone : sealOne v r l u = recStop 1 0x0C01 u.recorder.held.length u := by
    unfold sealOne
    rw [hgood, hn]
  obtain ⟨hkept, hstate, hempty, hmerged⟩ := recStop_spec 1 0x0C01 u.recorder.held.length u
  rw [hone]
  refine ⟨_, rfl, hstate, hempty, (congrArg (fun x => x.1) hkept).trans hheld, ?_⟩
  rw [hmerged, hseal, hover, h]

end

/-! REC_CLEAR_DONE (R462). -/

/-- What seals do of what waits, `l` and then others: the records held grow by records of `l`, and the clearing and its count stand. -/
structure sealsOf (l : List RecRecord) (s t : State) : Prop where
  stay : ∀ e ∈ s.recorder.held, e ∈ t.recorder.held
  fresh : ∀ e ∈ t.recorder.held, e ∈ s.recorder.held ∨ e.2 ∈ l
  clearing : t.recorder.clearing = s.recorder.clearing
  clears : counter .clears 0 t = counter .clears 0 s

theorem sealsOf_refl (l : List RecRecord) (s : State) : sealsOf l s s := ⟨fun _ => id, fun _ => .inl, rfl, rfl⟩

theorem sealsOf_trans {l : List RecRecord} {s t u : State} (h : sealsOf l s t) (h' : sealsOf l t u) : sealsOf l s u :=
  ⟨fun e he => h'.stay e (h.stay e he), fun e he => (h'.fresh e he).elim (h.fresh e) .inr, h'.clearing.trans h.clearing,
    h'.clears.trans h.clears⟩

theorem sealsOf_mono {l l' : List RecRecord} {s t : State} (h : sealsOf l s t) (hl : ∀ r ∈ l, r ∈ l') : sealsOf l' s t :=
  ⟨h.stay, fun e he => (h.fresh e he).imp_right (hl e.2), h.clearing, h.clears⟩

theorem sealsOf_of_writerKept {l : List RecRecord} {s t : State} (h : writerKept t = writerKept s) : sealsOf l s t := by
  have hheld : t.recorder.held = s.recorder.held := congrArg (fun x => x.1) h
  exact ⟨fun e he => hheld ▸ he, fun e he => .inl (hheld ▸ he), congrArg (fun x => x.2.1) h, congrArg (fun x => x.2.2.2.2.2.2) h⟩

/-- One seal of a record that verifies. -/
theorem sealNext_good_spec (s : State) (r : RecRecord) (l : List RecRecord) (h : s.recorder.toSeal = r :: l) :
    let t := sealNext .good s
    sealsOf [r] s t ∧ (t.recorder.toSeal = r :: l ∨ t.recorder.toSeal = l ∨ t.recorder.toSeal = []) := by
  by_cases hheld : s.recorder.clearing = true ∨ s.recorder.state ≠ 0
  · rw [sealNext_held .good s hheld]
    exact ⟨sealsOf_refl _ s, .inl h⟩
  · obtain ⟨hc, hs⟩ := not_or.mp hheld
    rw [sealNext_cons .good s r l (Bool.eq_false_of_not_eq_true hc) (not_not.mp hs) h, sealOne]
    cases hn : nextGood s.recorder s.recorder.nextSlot with
    | none =>
      obtain ⟨hkept, -, hseal, -⟩ := recStop_spec 1 0x0C01 s.recorder.held.length s
      exact ⟨sealsOf_of_writerKept hkept, .inr (.inr hseal)⟩
    | some n =>
      dsimp only
      have hkept := writerKept_sealGood n r { s with recorder.toSeal := l }
      obtain ⟨hheld', -, -⟩ := sealHeld_fields n r { s with recorder.toSeal := l }
      have hclears := clears_sealHeld n r { s with recorder.toSeal := l }
      have hseal := toSeal_sealGood n r { s with recorder.toSeal := l }
      have hclearing : (sealHeld n r { s with recorder.toSeal := l }).recorder.clearing = s.recorder.clearing := rfl
      generalize sealGood n r { s with recorder.toSeal := l } = t at hkept hseal
      generalize sealHeld n r { s with recorder.toSeal := l } = w at hkept hheld' hclears hclearing
      have hnew : t.recorder.held = s.recorder.held ++ [(n, r)] := (congrArg (fun x => x.1) hkept).trans hheld'
      refine ⟨⟨fun e he => ?_, fun e he => ?_, ?_, ?_⟩, .inr hseal⟩
      · rw [hnew]
        exact List.mem_append_left _ he
      · rw [hnew] at he
        exact (List.mem_append.mp he).imp_right fun hr => by rw [List.mem_singleton.mp hr]; exact List.mem_singleton_self r
      · exact (congrArg (fun x => x.2.1) hkept).trans hclearing
      · exact (congrArg (fun x => x.2.2.2.2.2.2) hkept).trans (hclears.trans (counter_of_counters (by rfl) .clears 0))

/-- As many seals as `l` has records seal records of `l` alone. -/
theorem sealAll_spec (n : Nat) (l kept : List RecRecord) (s : State) (hl : s.recorder.toSeal = l ++ kept ∨ s.recorder.toSeal = [])
    (hn : n ≤ l.length) : sealsOf l s (sealAll n s) := by
  induction n generalizing l s with
  | zero => exact sealsOf_refl l s
  | succ n ih =>
    unfold sealAll
    split
    · exact sealsOf_refl l s
    · next hne =>
      have hseal : s.recorder.toSeal = l ++ kept := hl.resolve_right fun h => hne (by rw [h]; rfl)
      cases l with
      | nil => exact absurd hn (Nat.not_succ_le_zero n)
      | cons r l =>
        obtain ⟨hone, hleft⟩ := sealNext_good_spec s r (l ++ kept) hseal
        have hfirst := sealsOf_mono hone (l' := r :: l) fun x hx => by
          rw [List.mem_singleton.mp hx]
          exact List.mem_cons_self
        rw [List.length_cons] at hn
        refine sealsOf_trans hfirst ?_
        rcases hleft with hleft | hleft
        · exact ih (r :: l) _ (.inl hleft) (by rw [List.length_cons]; omega)
        · exact sealsOf_mono (ih l _ hleft (by omega)) fun x hx => .tail r hx

theorem finish_writerKept (c : Instr) (o : Nat) (q : Request) (st : Status) (b d : Nat) (e : List Byte) (s : State) :
    let t := finish c o q st b d e s
    writerKept t = writerKept s ∧ t.recorder.state = s.recorder.state ∧ t.recorder.toSeal = s.recorder.toSeal ∧
      t.recorder.overflow = s.recorder.overflow := by
  refine ⟨?_, rfl, rfl, rfl⟩
  have h : counter .clears 0 (finish c o q st b d e s) = counter .clears 0 s := clears_raiseEvent ..
  unfold writerKept
  rw [h]
  rfl

/-- The good sectors are erased, and the log begins anew unless the map names every sector. -/
def logCleared (s : State) : State :=
  let u := eraseGood s
  let full := recSectors ≤ u.recorder.badSectors.length
  { u with
    recorder.clearing := false, recorder.overflow := if full then u.recorder.overflow else []
    recorder.state := if full then u.recorder.state else 0
    recorder.toSeal := if full then [] else overflowRecords u ++ u.recorder.toSeal, recorder.writerAt := u.time.tb2 }

/-- The log once the overflow set has been sealed into it, or what waited merged. -/
def logBegun (s : State) : State :=
  if recSectors ≤ s.recorder.badSectors.length then mergeOverflow s.recorder.toSeal (logCleared s)
  else sealAll (overflowRecords s).length (logCleared s)

theorem exec_recClearDone (s : State) (hOn : s.dev.state ≠ .off) : exec .recClearDone s = .next (match owedOf isRecClear s with
    | none => s
    | some (c, q) => finish c 0x0C03 q .ok 0 0 [] (count .clears 0 (logBegun s))) := by
  change execRecClearDone s = _
  rw [execRecClearDone, whenOn_of_on _ s hOn]
  rfl

theorem logCleared_fields (s : State) : let t := logCleared s
    t.recorder.held = s.recorder.held.filter (fun e => !slotGood s.recorder e.1) ∧ t.recorder.clearing = false ∧
      counter .clears 0 t = counter .clears 0 s ∧
      (recSectors ≤ s.recorder.badSectors.length → t.recorder.state = s.recorder.state ∧ t.recorder.toSeal = [] ∧
        t.recorder.overflow = s.recorder.overflow) ∧
      (¬recSectors ≤ s.recorder.badSectors.length → t.recorder.toSeal = overflowRecords s ++ s.recorder.toSeal) := by
  refine ⟨rfl, rfl, counter_of_counters (by rfl) .clears 0, fun h => ⟨if_pos h, if_pos h, if_pos h⟩, fun h => if_neg h⟩

theorem logBegun_seals (s : State) : sealsOf (overflowRecords s) (logCleared s) (logBegun s) := by
  unfold logBegun
  split
  · exact sealsOf_of_writerKept (mergeOverflow_spec s.recorder.toSeal (logCleared s)).1
  · next h =>
    exact sealAll_spec _ _ s.recorder.toSeal _ (.inl ((logCleared_fields s).2.2.2.2 h)) le_rfl

theorem recClearDone_spec (s : State) (hOn : s.dev.state ≠ .off) (c : Instr) (q : Request) (h : owedOf isRecClear s = some (c, q)) :
    ∃ t, exec .recClearDone s = .next t ∧ t.recorder.clearing = false ∧
      (∀ e ∈ s.recorder.held, slotGood s.recorder e.1 = false → e ∈ t.recorder.held) ∧
      (∀ e ∈ t.recorder.held, (e ∈ s.recorder.held ∧ slotGood s.recorder e.1 = false) ∨ e.2 ∈ overflowRecords s) ∧
      counter .clears 0 t = counter .clears 0 s + 1 ∧
      (recSectors ≤ s.recorder.badSectors.length → t.recorder.state = s.recorder.state ∧
        t.recorder.toSeal = [] ∧ t.recorder.overflow = mergedInto s.recorder.toSeal s.recorder.overflow) := by
  rw [exec_recClearDone s hOn, h]
  obtain ⟨hheld, hclearing, hclears, hfull, -⟩ := logCleared_fields s
  obtain ⟨hstay, hfresh, hstill, hsame⟩ := logBegun_seals s
  obtain ⟨hkept, hstate, hseal, hover⟩ := finish_writerKept c 0x0C03 q .ok 0 0 [] (count .clears 0 (logBegun s))
  have hmem : ∀ e, e ∈ (logCleared s).recorder.held ↔ e ∈ s.recorder.held ∧ slotGood s.recorder e.1 = false := fun e => by
    rw [hheld, List.mem_filter, Bool.not_eq_true']
  have hrecords : (finish c 0x0C03 q .ok 0 0 [] (count .clears 0 (logBegun s))).recorder.held = (logBegun s).recorder.held :=
    congrArg (fun x => x.1) hkept
  refine ⟨finish c 0x0C03 q .ok 0 0 [] (count .clears 0 (logBegun s)), rfl, ?_, fun e he hbad => ?_, fun e he => ?_, ?_,
    fun hf => ?_⟩
  · exact (congrArg (fun x => x.2.1) hkept).trans (hstill.trans hclearing)
  · rw [hrecords]
    exact hstay e ((hmem e).mpr ⟨he, hbad⟩)
  · rw [hrecords] at he
    exact (hfresh e he).imp_left (hmem e).mp
  · refine (congrArg (fun x => x.2.2.2.2.2.2) hkept).trans ((counter_count .clears 0 (logBegun s)).trans ?_)
    rw [hsame, hclears]
  · obtain ⟨hs, he, ho⟩ := hfull hf
    obtain ⟨-, hmerged, hwait, hsame'⟩ := mergeOverflow_spec s.recorder.toSeal (logCleared s)
    have hbegun : logBegun s = mergeOverflow s.recorder.toSeal (logCleared s) := if_pos hf
    rw [hstate, hseal, hover]
    change (logBegun s).recorder.state = _ ∧ (logBegun s).recorder.toSeal = _ ∧ (logBegun s).recorder.overflow = _
    rw [hbegun]
    exact ⟨hsame'.trans hs, hwait.trans he, hmerged.trans (by rw [ho])⟩

/-! REC_READ_DONE (R353, R460). -/

theorem exec_recReadDone (f : Bool) (s : State) (hOn : s.dev.state ≠ .off) :
    exec (.recReadDone f) s = .next (endRead 0x0C01 isRecRead f s) := by
  change execRecReadDone f s = _
  rw [execRecReadDone, whenOn_of_on _ s hOn]

/-- Settles O54: an epoch by what it swaps, a seal by its outcome, the clear by what as many seals as the overflow set has records can
hold, a read by the equations of `endRead`. -/
theorem recorderKeepsEveryCount : Obligations.RecorderKeepsEveryCount := by
  refine ⟨fun s hOn => ⟨epochEnd_spec s hOn, fun v h => exec_recordSeal_none s hOn v h, fun r l n hc hs h hn =>
    ⟨recordSeal_good s hOn r l hc hs h n hn, recordSeal_bad s hOn r l hc hs h n hn⟩, fun v r l hc hs h hn =>
    recordSeal_full s hOn r l hc hs h hn v, fun h => ?noClear, fun c q h => recClearDone_spec s hOn c q h, fun f h => ?noRead,
    fun f r h => ⟨fun hf => ?failed, fun st hf hp => ?refused, fun hf hp => ?read⟩⟩, mergeSets_spec,
    fun r => ⟨recBytes_length true r, recWhole_recBytes true r, recWhole_recBytes false r⟩⟩
  case noClear => rw [exec_recClearDone s hOn, h]
  case noRead => rw [exec_recReadDone f s hOn, endRead_none _ _ f s h]
  case failed => rw [exec_recReadDone f s hOn, hf, endRead_fail _ _ s r h]
  case refused => rw [exec_recReadDone f s hOn, hf, endRead_unwritten _ _ s r h st hp]
  case read => rw [exec_recReadDone f s hOn, hf, endRead_written _ _ s r h hp]

end Sys2Proof.Proofs
end

section
/-! SUPPORT. Calibrated codes and the dwell of zones (spec/20_health_and_thermal.md R435, R446). -/

namespace Sys2Proof.Laws
open Sys2Proof Sys2Proof.Machine

/-! Rounding rises with its numerator. -/

theorem roundTe_bounds (v : Int) (d : Nat) : v.fdiv d ≤ roundTe v d ∧ roundTe v d ≤ v.fdiv d + 1 := by
  unfold roundTe
  dsimp only
  split
  · omega
  · split
    · omega
    · split <;> omega

theorem roundTe_down (v : Int) (d : Nat) (h : 2 * (v - v.fdiv d * d) < d) : roundTe v d = v.fdiv d := if_pos h

theorem roundTe_up (v : Int) (d : Nat) (h : (d : Int) < 2 * (v - v.fdiv d * d)) : roundTe v d = v.fdiv d + 1 :=
  (if_neg (by omega)).trans (if_pos h)

theorem roundTe_mono (d : Nat) (hd : 0 < d) {v w : Int} (h : v ≤ w) : roundTe v d ≤ roundTe w d := by
  have hd' : (0 : Int) < d := Int.natCast_pos.mpr hd
  have hdiv : v.fdiv d ≤ w.fdiv d := by
    rw [Int.fdiv_eq_ediv_of_nonneg v hd'.le, Int.fdiv_eq_ediv_of_nonneg w hd'.le]
    exact Int.ediv_le_ediv hd' h
  have hv := roundTe_bounds v d
  have hw := roundTe_bounds w d
  rcases hdiv.lt_or_eq with hlt | heq
  · omega
  · obtain rfl | hlt := h.eq_or_lt
    · exact le_rfl
    · by_cases hlow : 2 * (v - v.fdiv d * d) < d
      · rw [roundTe_down v d hlow]
        omega
      · have hhigh : (d : Int) < 2 * (w - w.fdiv d * d) := by
          rw [← heq]
          omega
        rw [roundTe_up w d hhigh]
        omega

/-! Codes (R435). -/

/-- 4095 times a raw code's distance past the lower point of its pair. -/
def codeSpan (p : Int × Int) (a : Nat) : Int := (16 * (a : Int) - p.1) * 4095

theorem codeSpan_mono (p : Int × Int) {a b : Nat} (h : a ≤ b) : codeSpan p a ≤ codeSpan p b := by
  unfold codeSpan
  omega

theorem calibrate_eq (p : Int × Int) (a : Nat) (h : p.1 < p.2) : calibrate p a =
    if 8191 * (p.2 - p.1) < 2 * codeSpan p a then (4095, true)
    else if codeSpan p a < 0 then (0, false) else (min 4095 (roundTe (codeSpan p a) (p.2 - p.1).toNat).toNat, false) := by
  have hden : ((p.2 - p.1).toNat : Int) = p.2 - p.1 := Int.toNat_of_nonneg (by omega)
  unfold calibrate codeSpan
  dsimp only
  rw [hden]

theorem calibrate_spec (p : Int × Int) (a : Nat) (h : p.1 < p.2) : (calibrate p a).1 ≤ 4095 ∧
    ((calibrate p a).2 = true ↔ 8191 * (p.2 - p.1) < 2 * codeSpan p a) ∧
    (∀ b, a ≤ b → (calibrate p a).1 ≤ (calibrate p b).1) := by
  have hle : ∀ b, (calibrate p b).1 ≤ 4095 := fun b => by
    rw [calibrate_eq p b h]
    split
    · exact le_rfl
    · split
      · exact Nat.zero_le _
      · exact min_le_left _ _
  refine ⟨hle a, ?_, fun b hab => ?_⟩
  · rw [calibrate_eq p a h]
    split
    · next hov => exact ⟨fun _ => hov, fun _ => rfl⟩
    · next hov => split <;> exact ⟨fun hf => absurd hf Bool.false_ne_true, fun hn => absurd hn hov⟩
  · have hspan := codeSpan_mono p hab
    by_cases hb : 8191 * (p.2 - p.1) < 2 * codeSpan p b
    · have htop : (calibrate p b).1 = 4095 := by rw [calibrate_eq p b h, if_pos hb]
      exact htop ▸ hle a
    · rw [calibrate_eq p a h, calibrate_eq p b h, if_neg hb, if_neg (by omega)]
      by_cases ha : codeSpan p a < 0
      · rw [if_pos ha]
        exact Nat.zero_le _
      · rw [if_neg ha, if_neg (by omega)]
        have hround := roundTe_mono (p.2 - p.1).toNat (by omega) hspan
        exact min_le_min_left 4095 (Int.toNat_le_toNat hround)

/-! Dwell (R446). -/

theorem dwell_reached (x : Int) (z : Zone) (i : Nat) (hi : i < 3) : (dwell x z).reached.getD i false =
    if z.reached.getD i false then
      decide ((if x < (thresholds z).getD i 0 - z.hyst then z.downRuns.getD i 0 + 1 else 0) < 4)
    else decide (4 ≤ if (thresholds z).getD i 0 ≤ x then z.upRuns.getD i 0 + 1 else 0) := by
  unfold dwell
  simp [List.getD_eq_getElem?_getD, hi]

theorem dwell_spec (x : Int) (z : Zone) (i : Nat) (hi : i < 3) :
    ((dwell x z).reached.getD i false = true →
      z.reached.getD i false = true ∨ ((thresholds z).getD i 0 ≤ x ∧ 3 ≤ z.upRuns.getD i 0)) ∧
    (z.reached.getD i false = true → (dwell x z).reached.getD i false = false →
      x < (thresholds z).getD i 0 - z.hyst ∧ 3 ≤ z.downRuns.getD i 0) := by
  rw [dwell_reached x z i hi]
  cases z.reached.getD i false with
  | true =>
    refine ⟨fun _ => .inl rfl, fun _ hn => ?_⟩
    rw [if_pos rfl, decide_eq_false_iff_not] at hn
    split at hn
    · next hlt => exact ⟨hlt, by omega⟩
    · exact absurd (by decide) hn
  | false =>
    refine ⟨fun h => .inr ?_, fun hf => absurd hf Bool.false_ne_true⟩
    rw [if_neg Bool.false_ne_true, decide_eq_true_eq] at h
    split at h
    · next hle => exact ⟨hle, by omega⟩
    · omega

end Sys2Proof.Laws
end

section
/-! SUPPORT. The round of the ADC, stage by stage (spec/20_health_and_thermal.md R434 to R449, R452, R454). -/

namespace Sys2Proof.Laws
open Sys2Proof Sys2Proof.Machine

/-! What the stages keep. -/

/-- What no stage of a round changes after its codes. -/
def roundKept (s : State) : TimeSt × Bool × Tab (Nat × Bool × Nat) := (s.time, s.health.converting, s.health.codes)

/-- What no stage changes after the cross-check. -/
def senseKept (s : State) : (TimeSt × Bool × Tab (Nat × Bool × Nat)) × Tab Sensor × Tab Bool :=
  (roundKept s, s.health.sensors, s.health.adcFault)

/-- What no stage changes after the zones are judged. -/
def zonesKept (s : State) : ((TimeSt × Bool × Tab (Nat × Bool × Nat)) × Tab Sensor × Tab Bool) × Tab Zone :=
  (senseKept s, s.health.zones)

/-! Codes (R434, R435). -/

/-- What a round's codes leave. -/
def codesKept (s : State) : TimeSt × Bool × List Nat × Tab (Option (Int × Int)) × Nat :=
  (s.time, s.health.converting, s.health.roundNewer, s.health.cal, s.health.round)

theorem convert_congr {s t : State} (h : t.health.cal = s.health.cal) (c a : Nat) : convert t c a = convert s c a := by
  unfold convert calPair
  rw [h]

theorem keepCode_kept (c a : Nat) (s : State) : codesKept (keepCode c a s) = codesKept s ∧
    (keepCode c a s).health.codes = tabSet (0, false, 0) s.health.codes c ((convert s c a).1, (convert s c a).2, s.health.round) := by
  unfold keepCode
  dsimp only
  split <;> exact ⟨rfl, rfl⟩

theorem keepRound_kept (c a : Nat) (s : State) : codesKept (keepRound c a s) = codesKept s ∧
    (keepRound c a s).health.codes = if c ∈ s.health.roundNewer then s.health.codes
      else tabSet (0, false, 0) s.health.codes c ((convert s c a).1, (convert s c a).2, s.health.round) := by
  unfold keepRound
  split
  · split <;> exact ⟨rfl, rfl⟩
  · exact keepCode_kept c a s

/-- The codes after a round's conversions of different channels. -/
theorem foldl_keepRound (raw : Nat → Nat) (l : List Nat) (hl : l.Nodup) (s : State) :
    let t := l.foldl (fun s c => keepRound c (raw c) s) s
    codesKept t = codesKept s ∧ ∀ c, tabGet (0, false, 0) t.health.codes c =
      if c ∈ l ∧ c ∉ s.health.roundNewer then ((convert s c (raw c)).1, (convert s c (raw c)).2, s.health.round)
      else tabGet (0, false, 0) s.health.codes c := by
  induction l generalizing s with
  | nil => exact ⟨rfl, fun c => (if_neg fun h => absurd h.1 List.not_mem_nil).symm⟩
  | cons d l ih =>
    obtain ⟨hd, hnodup⟩ := List.nodup_cons.mp hl
    obtain ⟨hkept, hcodes⟩ := keepRound_kept d (raw d) s
    obtain ⟨ihkept, ihcodes⟩ := ih hnodup (keepRound d (raw d) s)
    have hnewer : (keepRound d (raw d) s).health.roundNewer = s.health.roundNewer := congrArg (fun x => x.2.2.1) hkept
    have hcal : (keepRound d (raw d) s).health.cal = s.health.cal := congrArg (fun x => x.2.2.2.1) hkept
    have hround : (keepRound d (raw d) s).health.round = s.health.round := congrArg (fun x => x.2.2.2.2) hkept
    refine ⟨ihkept.trans hkept, fun c => ?_⟩
    rw [List.foldl_cons, ihcodes c, hnewer, hround, convert_congr hcal, hcodes]
    by_cases hc : c = d
    · subst hc
      rw [if_neg fun h => hd h.1]
      by_cases hn : c ∈ s.health.roundNewer
      · rw [if_pos hn, if_neg fun h => h.2 hn]
      · rw [if_neg hn, tabGet_tabSet_same, if_pos ⟨List.mem_cons_self, hn⟩]
    · rw [if_congr (and_congr_left fun _ => (⟨fun h => (List.mem_cons.mp h).resolve_left hc, .tail d⟩ : c ∈ d :: l ↔ c ∈ l))
        rfl rfl]
      congr 1
      split
      · rfl
      · exact tabGet_tabSet_ne _ _ _ hc

/-! Sensors (R436, R443). -/

theorem foldl_readings (r : Nat → Int) (l : List Nat) (s : State) :
    let t := l.foldl (fun s t => modSensor t (fun x => { x with reading := r t }) s) s
    roundKept t = roundKept s ∧ ∀ c ∈ l, (sensor t c).reading = r c := by
  induction l generalizing s with
  | nil => exact ⟨rfl, fun c hc => absurd hc List.not_mem_nil⟩
  | cons d l ih =>
    obtain ⟨ihkept, ihread⟩ := ih (modSensor d (fun x => { x with reading := r d }) s)
    refine ⟨ihkept, fun c hc => ?_⟩
    by_cases hl : c ∈ l
    · exact ihread c hl
    · obtain rfl := (List.mem_cons.mp hc).resolve_right hl
      have hother : ∀ (l : List Nat) (u : State), c ∉ l →
          sensor (l.foldl (fun s t => modSensor t (fun x => { x with reading := r t }) s) u) c = sensor u c := by
        intro l
        induction l with
        | nil => exact fun _ _ => rfl
        | cons e l ih' =>
          intro u hu
          obtain ⟨hne, hu⟩ := not_or.mp (List.mem_cons.not.mp hu)
          exact (ih' _ hu).trans (sensor_modSensor_ne e c _ u hne)
      rw [List.foldl_cons, hother l _ hl, sensor_modSensor]

theorem sensor_of_sensors {s t : State} (h : t.health.sensors = s.health.sensors) (c : Nat) : sensor t c = sensor s c := by
  unfold sensor
  rw [h]

theorem selfCheck_kept (s : State) (k code : Nat) : roundKept (selfCheck s k code) = roundKept s ∧
    (selfCheck s k code).health.sensors = s.health.sensors := by
  unfold selfCheck
  dsimp only
  generalize (if decide (2032 ≤ code ∧ code ≤ 2064) = true then 0 else (tabGet (0, 0) s.health.adcRuns k).1 + 1) = o
  generalize (if decide (2032 ≤ code ∧ code ≤ 2064) = true then (tabGet (0, 0) s.health.adcRuns k).2 + 1 else 0) = i
  split
  · exact ⟨rfl, rfl⟩
  · split <;> exact ⟨rfl, rfl⟩

theorem reading_modSensor (k : Nat) (f : Sensor → Sensor) (hf : ∀ x, (f x).reading = x.reading) (s : State) (c : Nat) :
    (sensor (modSensor k f s) c).reading = (sensor s c).reading := by
  by_cases h : c = k
  · rw [h, sensor_modSensor, hf]
  · rw [sensor_modSensor_ne _ _ _ _ h]

/-- A sensor's runs are noted. -/
def runsNoted (r : Nat × Nat × Nat) (s : State) : State :=
  modSensor r.1 (fun x => { x with offRun := r.2.1, nearRun := r.2.2 }) s

/-- A sensor is left out. -/
def leftOut (r : Nat × Nat × Nat) (s : State) : State :=
  modSensor r.1 (fun x => { x with excluded := true, nearRun := 0 }) s

/-- A sensor counts again. -/
def readmitted (r : Nat × Nat × Nat) (s : State) : State :=
  modSensor r.1 (fun x => { x with excluded := false, offRun := 0 }) s

theorem crossCheck_cases (s : State) (r : Nat × Nat × Nat) :
    crossCheck s r = raise 0x0B01 3 r.1 [] (setAlarm 0x0B01 r.1 true (count .exclusions (zoneOf r.1) (leftOut r (runsNoted r s)))) ∨
    crossCheck s r = setAlarm 0x0B01 r.1 false (readmitted r (runsNoted r s)) ∨ crossCheck s r = runsNoted r s := by
  unfold crossCheck
  dsimp only
  split
  · exact .inl rfl
  · split
    · exact .inr (.inl rfl)
    · exact .inr (.inr rfl)

theorem crossCheck_kept (s : State) (r : Nat × Nat × Nat) : roundKept (crossCheck s r) = roundKept s ∧
    ∀ c, (sensor (crossCheck s r) c).reading = (sensor s c).reading := by
  have hnoted : ∀ c, (sensor (runsNoted r s) c).reading = (sensor s c).reading :=
    reading_modSensor r.1 _ (by exact fun _ => rfl) s
  have hout : ∀ c, (sensor (leftOut r (runsNoted r s)) c).reading = (sensor (runsNoted r s) c).reading :=
    reading_modSensor r.1 _ (by exact fun _ => rfl) _
  have hback : ∀ c, (sensor (readmitted r (runsNoted r s)) c).reading = (sensor (runsNoted r s) c).reading :=
    reading_modSensor r.1 _ (by exact fun _ => rfl) _
  obtain h | h | h := crossCheck_cases s r <;> rw [h]
  · refine ⟨by dsimp only [roundKept, raise, raiseEvent, setAlarm, count, countN, leftOut, runsNoted, modSensor], fun c => ?_⟩
    rw [sensor_of_sensors (s := leftOut r (runsNoted r s)) (by rfl) c, hout, hnoted]
  · refine ⟨by dsimp only [roundKept, setAlarm, readmitted, runsNoted, modSensor], fun c => ?_⟩
    rw [sensor_of_sensors (s := readmitted r (runsNoted r s)) (by rfl) c, hback, hnoted]
  · exact ⟨rfl, hnoted⟩

theorem foldl_crossCheck (l : List (Nat × Nat × Nat)) (s : State) : let t := l.foldl crossCheck s
    roundKept t = roundKept s ∧ ∀ c, (sensor t c).reading = (sensor s c).reading := by
  induction l generalizing s with
  | nil => exact ⟨rfl, fun _ => rfl⟩
  | cons r l ih =>
    obtain ⟨hkept, hread⟩ := ih (crossCheck s r)
    exact ⟨hkept.trans (crossCheck_kept s r).1, fun c => (hread c).trans ((crossCheck_kept s r).2 c)⟩

/-! Zones (R442, R444 to R447). -/

theorem zoneTemp_congr {s t : State} (h : senseKept t = senseKept s) (z : Nat) : zoneTemp t z = zoneTemp s z := by
  have hs : t.health.sensors = s.health.sensors := congrArg (fun x => x.2.1) h
  have hf : t.health.adcFault = s.health.adcFault := congrArg (fun x => x.2.2) h
  unfold zoneTemp nearReadings included adcFaulty sensor
  rw [hs, hf]

theorem zone_of_zones {s t : State} (h : t.health.zones = s.health.zones) (z : Nat) : zone t z = zone s z := by
  unfold zone
  rw [h]

/-- A zone with its state judged. -/
def zoneJudged (z : Nat) (s : State) : State :=
  modZone z (fun x => { rateOf (roundsPerSecond s) (zoneTemp s z).1 (dwell (zoneTemp s z).1 x) with
    temp := (zoneTemp s z).1, unmeasured := (zoneTemp s z).2 }) s

/-- A zone's new cause RATE is counted. -/
def rateCounted (z : Nat) (old new : Zone) (s : State) : State :=
  if new.rate && !old.rate then count .rateCauses z s else s

/-- The entry of a zone to a higher state is counted. -/
def entryCounted (z : Nat) (old new : Zone) (s : State) : State :=
  if old.state < new.state then (match entryCtr new.state with
    | some c => count c z s
    | none => s) else s

/-- A zone's new state is reported, with its alarm. -/
def stateReported (z : Nat) (t : Int) (old new : Zone) (s : State) : State :=
  if new.state = old.state then s
  else raiseEvent (entryCounted z old new s).time.tb2 0x0B00 3 (decide (1 ≤ new.state)) false t
    (cells [t, z, new.state, old.state]) (setAlarm 0x0B00 z (decide (1 ≤ new.state)) (entryCounted z old new s))

theorem judgeZone_eq (s : State) (z : Nat) : judgeZone s z = stateReported z (zoneTemp s z).1 (zone s z) (zone (zoneJudged z s) z)
    (rateCounted z (zone s z) (zone (zoneJudged z s) z) (zoneJudged z s)) := rfl

theorem rateCounted_kept (z : Nat) (old new : Zone) (s : State) : zonesKept (rateCounted z old new s) = zonesKept s := by
  unfold rateCounted
  split <;> rfl

theorem entryCounted_kept (z : Nat) (old new : Zone) (s : State) : zonesKept (entryCounted z old new s) = zonesKept s := by
  unfold entryCounted
  split
  · split <;> rfl
  · rfl

theorem stateReported_kept (z : Nat) (t : Int) (old new : Zone) (s : State) :
    zonesKept (stateReported z t old new s) = zonesKept s := by
  unfold stateReported
  split
  · rfl
  · exact Eq.trans (by rfl) (entryCounted_kept z old new s)

theorem judgeZone_kept (s : State) (z : Nat) : zonesKept (judgeZone s z) = zonesKept (zoneJudged z s) := by
  rw [judgeZone_eq, stateReported_kept, rateCounted_kept]

theorem zone_judgeZone (s : State) (z y : Nat) : zone (judgeZone s z) y = zone (zoneJudged z s) y :=
  zone_of_zones (congrArg (fun x => x.2) (judgeZone_kept s z)) y

theorem senseKept_judgeZone (s : State) (z : Nat) : senseKept (judgeZone s z) = senseKept s :=
  (congrArg (fun x => x.1) (judgeZone_kept s z)).trans (by rfl)

theorem foldl_judgeZone (l : List Nat) (hl : l.Nodup) (s : State) : let t := l.foldl judgeZone s
    senseKept t = senseKept s ∧ (∀ z ∈ l, (zone t z).temp = (zoneTemp s z).1) ∧ ∀ z, z ∉ l → zone t z = zone s z := by
  induction l generalizing s with
  | nil => exact ⟨rfl, fun z hz => absurd hz List.not_mem_nil, fun _ _ => rfl⟩
  | cons d l ih =>
    obtain ⟨hd, hnodup⟩ := List.nodup_cons.mp hl
    obtain ⟨ihkept, ihtemp, ihother⟩ := ih hnodup (judgeZone s d)
    refine ⟨ihkept.trans (senseKept_judgeZone s d), fun z hz => ?_, fun z hz => ?_⟩
    · rw [List.foldl_cons]
      by_cases hzd : z = d
      · rw [hzd, ihother d hd, zone_judgeZone, zoneJudged, zone_modZone]
      · rw [ihtemp z ((List.mem_cons.mp hz).resolve_left hzd), zoneTemp_congr (senseKept_judgeZone s d)]
    · obtain ⟨hne, hz⟩ := not_or.mp (List.mem_cons.not.mp hz)
      rw [List.foldl_cons, ihother z hz, zone_judgeZone, zoneJudged, zone_modZone_ne _ _ _ _ hne]

/-- A zone whose sensors all count has the greatest of their readings. -/
theorem zoneTemp_of_included (s : State) (z : Nat) (hz : z < 5) (h : ∀ c ∈ zoneSensors z, included s c = true) :
    (∀ c ∈ zoneSensors z, (sensor s c).reading ≤ (zoneTemp s z).1) ∧
    ∃ c ∈ zoneSensors z, (sensor s c).reading = (zoneTemp s z).1 := by
  have hflat : ∀ l : List Nat, (∀ c ∈ l, included s c = true) →
      l.flatMap (fun t => if included s t then [(sensor s t).reading] else nearReadings s t) = l.map fun t => (sensor s t).reading := by
    intro l
    induction l with
    | nil => exact fun _ => rfl
    | cons c l ih =>
      intro hl
      rw [List.flatMap_cons, if_pos (hl c List.mem_cons_self), ih fun d hd => hl d (.tail c hd)]
      rfl
  have hmax : ∀ (l : List Int) (x : Int), (∀ y ∈ x :: l, y ≤ l.foldl max x) ∧ l.foldl max x ∈ x :: l := by
    intro l
    induction l with
    | nil => exact fun x => ⟨fun y hy => (List.mem_singleton.mp hy).le, List.mem_cons_self⟩
    | cons a l ih =>
      intro x
      obtain ⟨hle, hmem⟩ := ih (max x a)
      rw [List.foldl_cons]
      refine ⟨fun y hy => ?_, ?_⟩
      · obtain rfl | hy := List.mem_cons.mp hy
        · exact (le_max_left _ a).trans (hle _ List.mem_cons_self)
        · obtain rfl | hy := List.mem_cons.mp hy
          · exact (le_max_right x _).trans (hle _ List.mem_cons_self)
          · exact hle y (.tail _ hy)
      · obtain heq | hmem := List.mem_cons.mp hmem
        · rw [heq]
          rcases max_choice x a with h | h <;> rw [h]
          · exact List.mem_cons_self
          · exact .tail _ List.mem_cons_self
        · exact .tail _ (.tail _ hmem)
  have hne : zoneSensors z ≠ [] := by
    interval_cases z <;> decide
  unfold zoneTemp
  rw [hflat _ h]
  obtain ⟨c, l, hcl⟩ := List.exists_cons_of_ne_nil hne
  rw [hcl]
  obtain ⟨hle, hmem⟩ := hmax (l.map fun t => (sensor s t).reading) (sensor s c).reading
  refine ⟨fun d hd => hle _ ?_, ?_⟩
  · exact List.mem_map_of_mem (f := fun t => (sensor s t).reading) hd
  · exact List.mem_map.mp (show _ ∈ (c :: l).map (fun t => (sensor s t).reading) from hmem)

/-! Causes (Table 20.7). -/

/-- The rounds of a channel's hubs above and at or below the limits of DIMM_HOT. -/
def hubRounds (s : State) (c : Nat) : State :=
  if (dramCh s c).trained then
    modDram c (fun d => { d with
      hotRounds := d.hubTemps.foldl (fun t e => tabSet 0 t e.1 (if 1520 < e.2 then tabGet 0 d.hotRounds e.1 + 1 else 0)) []
      coolRounds := if chanAbove 1472 d then 0 else d.coolRounds + 1 }) s else s

theorem hubRounds_kept (s : State) (c : Nat) : zonesKept (hubRounds s c) = zonesKept s := by
  unfold hubRounds
  split <;> rfl

/-- DIMM_HOT as the channels' rounds give it. -/
def hotNoted (s : State) : State :=
  let l := (List.range 12).filter (fun c => (dramCh s c).trained)
  let hot := l.any (fun c => (dramCh s c).hotRounds.any (fun e => decide (4 ≤ e.2)))
  let cool := l.all (fun c => decide (4 ≤ (dramCh s c).coolRounds))
  { s with health.dimmHot := hot || (s.health.dimmHot && !cool) }

theorem judgeDimms_kept (s : State) : zonesKept (judgeDimms s) = zonesKept s := by
  have h : judgeDimms s = hotNoted ((List.range 12).foldl hubRounds s) := by
    unfold judgeDimms hotNoted hubRounds
    rfl
  rw [h]
  have hfold := foldl_proj zonesKept hubRounds hubRounds_kept (List.range 12) s
  generalize (List.range 12).foldl hubRounds s = u at hfold ⊢
  exact Eq.trans (by dsimp only [hotNoted, zonesKept, senseKept, roundKept]) hfold

end Sys2Proof.Laws
end

section
/-! SUPPORT. Causes, fans and the end of a round (spec/20_health_and_thermal.md R448, R449, R452, R454). -/

namespace Sys2Proof.Laws
open Sys2Proof Sys2Proof.Machine

/-! Causes (R448, R449). -/

/-- What a call for SAFE leaves. -/
def calledKept (s : State) : TimeSt × HealthSt × List Cause := (s.time, s.health, s.dev.causes)

theorem calledKept_rejectCommit (st : Status) (d : Nat) (s : State) : calledKept (rejectCommit st d s) = calledKept s := by
  unfold rejectCommit calledKept
  (repeat' split) <;> simp

theorem calledKept_callSafe (c : Nat) (s : State) : calledKept (callSafe c s) = calledKept s := by
  have h : ∀ later : Bool, calledKept (if later then rejectCommit .state 0 s else s) = calledKept s := by
    intro later
    cases later
    · rfl
    · exact calledKept_rejectCommit .state 0 s
  exact Eq.trans (by unfold callSafe calledKept; rfl) (h (match s.sched.commit with
    | some c => decide (s.time.frame + 1 < c.na)
    | none => false))

theorem calledKept_askSafe (s : State) : calledKept (askSafe s) = calledKept s := by
  unfold askSafe
  split
  · rfl
  · obtain ⟨x, n, c, t, h⟩ := sendHandover_touches (s.time.frame + 1) (callSafe 7 s)
    rw [h]
    exact calledKept_callSafe 7 s

theorem mem_setCause (c : Cause) (on : Bool) (s : State) : c ∈ (setCause c on s).dev.causes ↔ on = true := by
  cases on
  · exact ⟨fun h => absurd rfl ((Proofs.mem_setCause_false c c s).mp h).2, nofun⟩
  · exact ⟨fun _ => rfl, fun _ => Proofs.mem_setCause_true c s⟩

theorem mem_setCause_of_ne {c d : Cause} (on : Bool) (s : State) (h : d ≠ c) :
    d ∈ (setCause c on s).dev.causes ↔ d ∈ s.dev.causes := by
  cases on
  · exact (Proofs.mem_setCause_false c d s).trans (and_iff_left h)
  · unfold setCause
    dsimp only
    rw [if_pos rfl]
    split
    · rfl
    · exact List.mem_append.trans (or_iff_left fun hd => h (List.mem_singleton.mp hd))

theorem zonesKept_setCause (c : Cause) (on : Bool) (s : State) : zonesKept (setCause c on s) = zonesKept s := rfl

/-- The causes of a round are set. -/
def causesSet (s : State) : State :=
  setCause .dimmHot s.health.dimmHot (setCause .rate ((List.range 5).any fun z => (zone s z).rate)
    (setCause .thermal ((List.range 5).any fun z => decide (2 ≤ (zone s z).state)) s))

theorem raiseCauses_eq (was : Bool) (s : State) :
    raiseCauses was s = if shutdownZone s && !was then askSafe (causesSet s) else causesSet s := rfl

theorem raiseCauses_called (was : Bool) (s : State) : calledKept (raiseCauses was s) = calledKept (causesSet s) := by
  rw [raiseCauses_eq]
  split
  · exact calledKept_askSafe _
  · rfl

theorem raiseCauses_health (was : Bool) (s : State) : (raiseCauses was s).health = s.health :=
  (congrArg (fun x => x.2.1) (raiseCauses_called was s)).trans (by rfl)

theorem raiseCauses_time (was : Bool) (s : State) : (raiseCauses was s).time = s.time :=
  (congrArg (fun x => x.1) (raiseCauses_called was s)).trans (by rfl)

theorem any_zones (p : Nat → Bool) : (List.range 5).any p = true ↔ ∃ z, z < 5 ∧ p z = true := by
  rw [List.any_eq_true]
  exact exists_congr fun z => and_congr_left fun _ => List.mem_range

theorem raiseCauses_causes (was : Bool) (s : State) : let t := raiseCauses was s
    (.thermal ∈ t.dev.causes ↔ ∃ z, z < 5 ∧ 2 ≤ (zone s z).state) ∧
    (.rate ∈ t.dev.causes ↔ ∃ z, z < 5 ∧ (zone s z).rate = true) ∧
    (.dimmHot ∈ t.dev.causes ↔ s.health.dimmHot = true) := by
  have h : (raiseCauses was s).dev.causes = (causesSet s).dev.causes := congrArg (fun x => x.2.2) (raiseCauses_called was s)
  dsimp only
  rw [h, causesSet]
  refine ⟨?_, ?_, mem_setCause _ _ _⟩
  · rw [mem_setCause_of_ne _ _ (by decide), mem_setCause_of_ne _ _ (by decide), mem_setCause, any_zones]
    exact exists_congr fun z => and_congr_right fun _ => decide_eq_true_iff
  · rw [mem_setCause_of_ne _ _ (by decide), mem_setCause, any_zones]

theorem raiseCauses_safeAt (s : State) (h : shutdownZone s = true) : (raiseCauses false s).dev.safeAt.isSome = true := by
  rw [raiseCauses_eq, if_pos (by rw [h]; rfl)]
  exact Proofs.askSafe_safeAt _

/-! Fans (R452, R454). -/

/-- What no stage of a round changes after its causes. -/
def causesKept (s : State) : (((TimeSt × Bool × Tab (Nat × Bool × Nat)) × Tab Sensor × Tab Bool) × Tab Zone) × DevSt × Bool :=
  (zonesKept s, s.dev, s.health.dimmHot)

/-! The parts of what the stages keep. -/

theorem zonesKept_of_causesKept {s t : State} (h : causesKept t = causesKept s) : zonesKept t = zonesKept s :=
  congrArg (fun x => x.1) h

theorem dev_of_causesKept {s t : State} (h : causesKept t = causesKept s) : t.dev = s.dev := congrArg (fun x => x.2.1) h

theorem dimmHot_of_causesKept {s t : State} (h : causesKept t = causesKept s) : t.health.dimmHot = s.health.dimmHot :=
  congrArg (fun x => x.2.2) h

theorem zones_of_zonesKept {s t : State} (h : zonesKept t = zonesKept s) : t.health.zones = s.health.zones :=
  congrArg (fun x => x.2) h

theorem senseKept_of_zonesKept {s t : State} (h : zonesKept t = zonesKept s) : senseKept t = senseKept s :=
  congrArg (fun x => x.1) h

theorem sensors_of_senseKept {s t : State} (h : senseKept t = senseKept s) : t.health.sensors = s.health.sensors :=
  congrArg (fun x => x.2.1) h

theorem roundKept_of_senseKept {s t : State} (h : senseKept t = senseKept s) : roundKept t = roundKept s :=
  congrArg (fun x => x.1) h

theorem time_of_roundKept {s t : State} (h : roundKept t = roundKept s) : t.time = s.time := congrArg (fun x => x.1) h

theorem converting_of_roundKept {s t : State} (h : roundKept t = roundKept s) : t.health.converting = s.health.converting :=
  congrArg (fun x => x.2.1) h

theorem codes_of_roundKept {s t : State} (h : roundKept t = roundKept s) : t.health.codes = s.health.codes :=
  congrArg (fun x => x.2.2) h

/-- A fan that must run at 100 % does. -/
def forceFan (s : State) (f : Nat) : State := if fanFull s f then modFan f (fun x => { x with duty := 1000 }) s else s

theorem forceFans_eq (s : State) : forceFans s = (List.range 4).foldl forceFan s := rfl

theorem causesKept_forceFan (s : State) (f : Nat) : causesKept (forceFan s f) = causesKept s := by
  unfold forceFan
  split <;> rfl

theorem hotZone_of_zones {s t : State} (h : t.health.zones = s.health.zones) : hotZone t = hotZone s := by
  unfold hotZone
  simp only [zone_of_zones h]

theorem fail_forceFan (s : State) (f g : Nat) : (fan (forceFan s f) g).fail = (fan s g).fail := by
  unfold forceFan
  split
  · by_cases h : g = f
    · rw [h, fan_modFan]
    · rw [fan_modFan_ne _ _ _ _ h]
  · rfl

theorem fanFull_forceFan (s : State) (f g : Nat) : fanFull (forceFan s f) g = fanFull s g := by
  have hz : (forceFan s f).health.zones = s.health.zones := congrArg (fun x => x.1.2) (causesKept_forceFan s f)
  unfold fanFull
  rw [hotZone_of_zones hz]
  simp only [fail_forceFan]

theorem duty_forceFan (s : State) (f g : Nat) :
    (fan (forceFan s f) g).duty = if g = f ∧ fanFull s f = true then 1000 else (fan s g).duty := by
  unfold forceFan
  split
  · rename_i hfull
    by_cases h : g = f
    · rw [if_pos ⟨h, hfull⟩, h, fan_modFan]
    · rw [if_neg fun hc => h hc.1, fan_modFan_ne _ _ _ _ h]
  · rename_i hfull
    rw [if_neg fun hc => hfull hc.2]

theorem foldl_forceFan (l : List Nat) (s : State) (g : Nat) (h : fanFull s g = true)
    (hl : g ∈ l ∨ (fan s g).duty = 1000) : (fan (l.foldl forceFan s) g).duty = 1000 := by
  induction l generalizing s with
  | nil => exact hl.resolve_left List.not_mem_nil
  | cons f l ih =>
    refine ih (forceFan s f) ((fanFull_forceFan s f g).trans h) ?_
    rw [duty_forceFan]
    by_cases hg : g = f
    · rw [if_pos ⟨hg, hg ▸ h⟩]
      exact .inr rfl
    · rw [if_neg fun hc => hg hc.1]
      exact hl.imp_left fun hm => (List.mem_cons.mp hm).resolve_left hg

/-- A fan that must run at 100 % does so at once. -/
theorem duty_forceFans (s : State) (g : Nat) (hg : g < 4) (h : fanFull s g = true) : (fan (forceFans s) g).duty = 1000 :=
  foldl_forceFan (List.range 4) s g h (.inl (List.mem_range.mpr hg))

theorem fail_forceFans (s : State) (g : Nat) : (fan (forceFans s) g).fail = (fan s g).fail :=
  foldl_proj (fun s => (fan s g).fail) forceFan (fun s f => fail_forceFan s f g) (List.range 4) s

theorem causesKept_forceFans (s : State) : causesKept (forceFans s) = causesKept s :=
  foldl_proj causesKept forceFan causesKept_forceFan (List.range 4) s

/-- What a fan's speed has been is noted. -/
def fanNoted (f : Nat) (low good : Option Nat) (clear : Bool) (s : State) : State :=
  modFan f (fun x => { x with lowSince := low, goodSince := good, fail := x.fail && !clear }) s

theorem watchFan_cases (s : State) (f : Nat) : ∃ low good clear,
    watchFan s f = setAlarm 0x0B03 f false (fanNoted f low good clear s) ∨ watchFan s f = fanNoted f low good clear s := by
  unfold watchFan
  dsimp only
  generalize (if ((fan s f).fail && !fanSlow s f) = true then some ((fan s f).goodSince.getD s.time.tb2) else none) = good
  cases good with
  | none => exact ⟨_, _, _, .inr (by rfl)⟩
  | some t =>
    dsimp only
    split
    · exact ⟨_, _, _, .inl (by rfl)⟩
    · exact ⟨_, _, _, .inr (by rfl)⟩

theorem watchFan_kept (s : State) (f : Nat) : causesKept (watchFan s f) = causesKept s ∧
    ∀ g, (fan (watchFan s f) g).duty = (fan s g).duty := by
  obtain ⟨low, good, clear, h⟩ := watchFan_cases s f
  have hduty : ∀ g, (fan (fanNoted f low good clear s) g).duty = (fan s g).duty := by
    intro g
    unfold fanNoted
    by_cases hg : g = f
    · rw [hg, fan_modFan]
    · rw [fan_modFan_ne _ _ _ _ hg]
  obtain h | h := h <;> rw [h]
  · exact ⟨rfl, hduty⟩
  · exact ⟨rfl, hduty⟩

theorem foldl_watchFan (l : List Nat) (s : State) : causesKept (l.foldl watchFan s) = causesKept s ∧
    ∀ g, (fan (l.foldl watchFan s) g).duty = (fan s g).duty :=
  ⟨foldl_proj causesKept watchFan (fun s f => (watchFan_kept s f).1) l s, fun g =>
    foldl_proj (fun s => (fan s g).duty) watchFan (fun s f => (watchFan_kept s f).2 g) l s⟩

theorem calBegin_touches (s : State) : ∃ x, calBegin s = { s with health.calStart := x } := by
  unfold calBegin
  split
  · dsimp only
    split
    · exact ⟨_, rfl⟩
    · exact ⟨_, rfl⟩
  · exact ⟨_, rfl⟩

end Sys2Proof.Laws
end

section
/-! OBLIGATION. The round of the ADC as a whole (spec/20_health_and_thermal.md R434 to R449). -/

namespace Sys2Proof.Proofs
open Sys2Proof Sys2Proof.Machine Sys2Proof.Laws

/-- A round's raw code of a channel. -/
def roundRaw (l : List Nat) (c : Nat) : Nat := min 4095 (l.getD c 0)

/-- A round has ended and its codes are still to be kept. -/
def roundOver (s : State) : State :=
  count .rounds 0 { elapseTo (max (roundEndAt s 0) (roundEndAt s 1)) s with health.converting := false }

/-- The codes of a round are kept. -/
def roundCoded (l : List Nat) (s : State) : State := (List.range 48).foldl (fun s c => keepRound c (roundRaw l c) s) (roundOver s)

/-- The readings of a round are taken. -/
def roundRead (l : List Nat) (s : State) : State :=
  (List.range 24).foldl (fun s t => modSensor t (fun x => { x with reading := (roundRaw l t : Int) - 1024 }) s) (roundCoded l s)

/-- The converters have checked themselves. -/
def roundChecked (l : List Nat) (s : State) : State :=
  selfCheck (selfCheck (roundRead l s) 0 (roundRaw l 46)) 1 (roundRaw l 47)

/-- The sensors are checked against each other. -/
def roundCrossed (l : List Nat) (s : State) : State :=
  ((List.range 24).map (fun t => (t, sensorRuns (roundChecked l s) t))).foldl crossCheck (roundChecked l s)

/-- The zones are judged. -/
def roundZoned (l : List Nat) (s : State) : State := (List.range 5).foldl judgeZone (roundCrossed l s)

/-- The causes of a round are raised. -/
def roundCaused (l : List Nat) (s : State) : State := raiseCauses (shutdownZone s) (judgeDimms (roundZoned l s))

/-- A round has had its effect. -/
def roundDone (l : List Nat) (s : State) : State := calBegin ((List.range 4).foldl watchFan (forceFans (roundCaused l s)))

theorem exec_adcRoundEnd (l : List Nat) (s : State) (hOn : s.dev.state ≠ .off) :
    exec (.adcRoundEnd l) s = .next (if (!s.health.converting) = true then s else roundDone l s) := by
  change execAdcRoundEnd l s = _
  rw [execAdcRoundEnd, whenOn_of_on _ s hOn]
  unfold roundDone roundCaused roundZoned roundCrossed roundChecked roundRead roundCoded roundOver roundRaw shutdownZone
  rfl

/-! The stages in order. -/

theorem roundKept_coded (l : List Nat) (s : State) : let t := roundCoded l s
    t.time = (roundOver s).time ∧ t.health.converting = false ∧ ∀ c, c < 48 → tabGet (0, false, 0) t.health.codes c =
      if c ∈ s.health.roundNewer then tabGet (0, false, 0) s.health.codes c
      else ((convert s c (roundRaw l c)).1, (convert s c (roundRaw l c)).2, s.health.round) := by
  obtain ⟨hkept, hcodes⟩ := foldl_keepRound (roundRaw l) (List.range 48) List.nodup_range (roundOver s)
  unfold roundCoded
  dsimp only at hkept hcodes ⊢
  generalize (List.range 48).foldl (fun s c => keepRound c (roundRaw l c) s) (roundOver s) = t at hkept hcodes ⊢
  have hcal : (roundOver s).health.cal = s.health.cal := rfl
  have hnewer : (roundOver s).health.roundNewer = s.health.roundNewer := rfl
  have hround : (roundOver s).health.round = s.health.round := rfl
  have hold : (roundOver s).health.codes = s.health.codes := rfl
  refine ⟨congrArg (fun x => x.1) hkept, (congrArg (fun x => x.2.1) hkept).trans (by rfl), fun c hc => ?_⟩
  refine (hcodes c).trans ?_
  rw [convert_congr hcal, hnewer, hround, hold]
  by_cases hn : c ∈ s.health.roundNewer
  · rw [if_neg fun h => h.2 hn, if_pos hn]
  · rw [if_pos ⟨List.mem_range.mpr hc, hn⟩, if_neg hn]

theorem roundKept_crossed (l : List Nat) (s : State) : roundKept (roundCrossed l s) = roundKept (roundCoded l s) ∧
    ∀ c, c < 24 → (sensor (roundCrossed l s) c).reading = (roundRaw l c : Int) - 1024 := by
  obtain ⟨hread, hreadings⟩ := foldl_readings (fun t => (roundRaw l t : Int) - 1024) (List.range 24) (roundCoded l s)
  obtain ⟨hcheck0, hsensors0⟩ := selfCheck_kept (roundRead l s) 0 (roundRaw l 46)
  obtain ⟨hcheck1, hsensors1⟩ := selfCheck_kept (selfCheck (roundRead l s) 0 (roundRaw l 46)) 1 (roundRaw l 47)
  obtain ⟨hcross, hcrossed⟩ := foldl_crossCheck ((List.range 24).map (fun t => (t, sensorRuns (roundChecked l s) t)))
    (roundChecked l s)
  refine ⟨(hcross.trans hcheck1).trans (hcheck0.trans hread), fun c hc => ?_⟩
  exact ((hcrossed c).trans (congrArg Sensor.reading (sensor_of_sensors (hsensors1.trans hsensors0) c))).trans
    (hreadings c (List.mem_range.mpr hc))

theorem zonesKept_caused (l : List Nat) (s : State) : zonesKept (roundCaused l s) = zonesKept (roundZoned l s) := by
  have hhealth := raiseCauses_health (shutdownZone s) (judgeDimms (roundZoned l s))
  have htime := raiseCauses_time (shutdownZone s) (judgeDimms (roundZoned l s))
  refine Eq.trans ?_ (judgeDimms_kept (roundZoned l s))
  unfold zonesKept senseKept roundKept roundCaused
  rw [hhealth, htime]

theorem causesKept_done (l : List Nat) (s : State) : causesKept (roundDone l s) = causesKept (roundCaused l s) ∧
    ∀ g, (fan (roundDone l s) g).duty = (fan (forceFans (roundCaused l s)) g).duty := by
  obtain ⟨hwatch, hduty⟩ := foldl_watchFan (List.range 4) (forceFans (roundCaused l s))
  have hforce := causesKept_forceFans (roundCaused l s)
  unfold roundDone
  obtain ⟨x, h⟩ := calBegin_touches ((List.range 4).foldl watchFan (forceFans (roundCaused l s)))
  rw [h]
  generalize (List.range 4).foldl watchFan (forceFans (roundCaused l s)) = u at hwatch hduty ⊢
  exact ⟨Eq.trans (by rfl) (hwatch.trans hforce), hduty⟩

/-! What a round leaves. -/

theorem zonesKept_done (l : List Nat) (s : State) : zonesKept (roundDone l s) = zonesKept (roundZoned l s) :=
  (zonesKept_of_causesKept (causesKept_done l s).1).trans (zonesKept_caused l s)

theorem senseKept_done (l : List Nat) (s : State) : senseKept (roundDone l s) = senseKept (roundCrossed l s) := by
  obtain ⟨hsense, -⟩ := foldl_judgeZone (List.range 5) List.nodup_range (roundCrossed l s)
  exact (senseKept_of_zonesKept (zonesKept_done l s)).trans hsense

theorem zones_done (l : List Nat) (s : State) : (roundDone l s).health.zones = (judgeDimms (roundZoned l s)).health.zones :=
  zones_of_zonesKept ((zonesKept_done l s).trans (judgeDimms_kept (roundZoned l s)).symm)

theorem codes_done (l : List Nat) (s : State) : let t := roundDone l s
    t.health.converting = false ∧ t.time.tb2 = max s.time.tb2 (max (roundEndAt s 0) (roundEndAt s 1)) ∧
    (∀ c, c < 24 → (sensor t c).reading = (roundRaw l c : Int) - 1024) ∧
    ∀ c, c < 48 → tabGet (0, false, 0) t.health.codes c =
      if c ∈ s.health.roundNewer then tabGet (0, false, 0) s.health.codes c
      else ((convert s c (roundRaw l c)).1, (convert s c (roundRaw l c)).2, s.health.round) := by
  obtain ⟨htime, hconv, hcodes⟩ := roundKept_coded l s
  obtain ⟨hkept, hread⟩ := roundKept_crossed l s
  have hsense := senseKept_done l s
  have hdone : roundKept (roundDone l s) = roundKept (roundCoded l s) := (roundKept_of_senseKept hsense).trans hkept
  refine ⟨(converting_of_roundKept hdone).trans hconv, ?_, fun c hc => ?_, fun c hc => ?_⟩
  · rw [(time_of_roundKept hdone).trans htime]
    exact tb2_elapseTo _ _
  · rw [sensor_of_sensors (sensors_of_senseKept hsense), hread c hc]
  · rw [codes_of_roundKept hdone, hcodes c hc]

theorem temps_done (l : List Nat) (s : State) (z : Nat) (hz : z < 5) :
    (zone (roundDone l s) z).temp = (zoneTemp (roundDone l s) z).1 := by
  obtain ⟨-, htemp, -⟩ := foldl_judgeZone (List.range 5) List.nodup_range (roundCrossed l s)
  have hzones : (roundDone l s).health.zones = (roundZoned l s).health.zones := zones_of_zonesKept (zonesKept_done l s)
  rw [zone_of_zones hzones, zoneTemp_congr (senseKept_done l s)]
  exact htemp z (List.mem_range.mpr hz)

theorem causes_done (l : List Nat) (s : State) : let t := roundDone l s
    (.thermal ∈ t.dev.causes ↔ ∃ z, z < 5 ∧ 2 ≤ (zone t z).state) ∧
    (.rate ∈ t.dev.causes ↔ ∃ z, z < 5 ∧ (zone t z).rate = true) ∧
    (.dimmHot ∈ t.dev.causes ↔ t.health.dimmHot = true) := by
  have hkept := (causesKept_done l s).1
  have hdimm : (roundCaused l s).health.dimmHot = (judgeDimms (roundZoned l s)).health.dimmHot :=
    congrArg HealthSt.dimmHot (raiseCauses_health _ _)
  obtain ⟨hthermal, hrate, hdimms⟩ := raiseCauses_causes (shutdownZone s) (judgeDimms (roundZoned l s))
  dsimp only
  rw [dev_of_causesKept hkept, dimmHot_of_causesKept hkept, hdimm, roundCaused]
  simp only [zone_of_zones (zones_done l s)]
  exact ⟨hthermal, hrate, hdimms⟩

theorem safe_done (l : List Nat) (s : State) (hwas : ∀ z, z < 5 → (zone s z).state ≠ 3)
    (hnow : ∃ z, z < 5 ∧ (zone (roundDone l s) z).state = 3) : (roundDone l s).dev.safeAt.isSome = true := by
  have hbefore : shutdownZone s = false :=
    Bool.eq_false_iff.mpr fun h => by
      obtain ⟨z, hz, h3⟩ := (any_zones _).mp h
      exact hwas z hz (of_decide_eq_true h3)
  have hafter : shutdownZone (judgeDimms (roundZoned l s)) = true := by
    obtain ⟨z, hz, h3⟩ := hnow
    exact (any_zones _).mpr ⟨z, hz, decide_eq_true ((congrArg Zone.state (zone_of_zones (zones_done l s) z)).symm.trans h3)⟩
  rw [dev_of_causesKept (causesKept_done l s).1, roundCaused, hbefore]
  exact raiseCauses_safeAt _ hafter

theorem fans_done (l : List Nat) (s : State) (hhot : hotZone (roundDone l s) = true) (f : Nat) (hf : f < 4) :
    (fan (roundDone l s) f).duty = 1000 := by
  obtain ⟨hkept, hduty⟩ := causesKept_done l s
  rw [hduty f]
  refine duty_forceFans _ f hf ?_
  unfold fanFull
  rw [← hotZone_of_zones (zones_of_zonesKept (zonesKept_of_causesKept hkept)), hhot]
  rfl

theorem exec_adcRoundEnd_cases (s : State) (hOn : s.dev.state ≠ .off) :
    (∀ l, s.health.converting = false → exec (.adcRoundEnd l) s = .next s) ∧
    (∀ l, s.health.converting = true → ∃ t, exec (.adcRoundEnd l) s = .next t ∧ t.health.converting = false ∧
      t.time.tb2 = max s.time.tb2 (max (roundEndAt s 0) (roundEndAt s 1)) ∧
      (∀ c, c < 24 → (sensor t c).reading = (min 4095 (l.getD c 0) : Nat) - 1024) ∧
      (∀ c, c < 48 → tabGet (0, false, 0) t.health.codes c = (if c ∈ s.health.roundNewer then tabGet (0, false, 0) s.health.codes c
        else ((convert s c (min 4095 (l.getD c 0))).1, (convert s c (min 4095 (l.getD c 0))).2, s.health.round))) ∧
      (∀ z, z < 5 → (zone t z).temp = (zoneTemp t z).1 ∧ ((∀ c ∈ zoneSensors z, included t c = true) →
        (∀ c ∈ zoneSensors z, (sensor t c).reading ≤ (zone t z).temp) ∧
        ∃ c ∈ zoneSensors z, (sensor t c).reading = (zone t z).temp)) ∧
      (.thermal ∈ t.dev.causes ↔ ∃ z, z < 5 ∧ 2 ≤ (zone t z).state) ∧
      (.rate ∈ t.dev.causes ↔ ∃ z, z < 5 ∧ (zone t z).rate = true) ∧
      (.dimmHot ∈ t.dev.causes ↔ t.health.dimmHot = true) ∧
      ((∀ z, z < 5 → (zone s z).state ≠ 3) → (∃ z, z < 5 ∧ (zone t z).state = 3) → t.dev.safeAt.isSome = true) ∧
      (hotZone t = true → ∀ f, f < 4 → (fan t f).duty = 1000)) := by
  refine ⟨fun l h => ?_, fun l h => ⟨roundDone l s, ?_, ?_⟩⟩
  · rw [exec_adcRoundEnd l s hOn, if_pos (by rw [h]; rfl)]
  · rw [exec_adcRoundEnd l s hOn, if_neg (by rw [h]; exact nofun)]
  · obtain ⟨hconv, htime, hread, hcodes⟩ := codes_done l s
    obtain ⟨hthermal, hrate, hdimm⟩ := causes_done l s
    refine ⟨hconv, htime, hread, hcodes, fun z hz => ⟨temps_done l s z hz, fun hall => ?_⟩, hthermal, hrate, hdimm,
      safe_done l s, fun hhot f hf => fans_done l s hhot f hf⟩
    rw [temps_done l s z hz]
    exact zoneTemp_of_included _ z hz hall

end Sys2Proof.Proofs
end

section
/-! SUPPORT. Injected conversions (spec/20_health_and_thermal.md R437 to R439). -/

namespace Sys2Proof.Laws
open Sys2Proof Sys2Proof.Machine

theorem inject_of_injects {s t : State} (h : t.health.injects = s.health.injects) (k : Nat) : inject t k = inject s k := by
  unfold inject
  rw [h]

/-- Keeping a code touches the codes, the sticky bits and a count of its own. -/
theorem keepCode_touches (c a : Nat) (s : State) : (keepCode c a s).health.injects = s.health.injects ∧
    (keepCode c a s).time = s.time ∧ counter .injected 0 (keepCode c a s) = counter .injected 0 s := by
  unfold keepCode
  dsimp only
  split
  · exact ⟨rfl, rfl, counter_count_of_ne _ _ (by decide)⟩
  · exact ⟨rfl, rfl, rfl⟩

/-- The round's own conversions of the converter are put off. -/
def roundShifted (c : Nat) (s : State) : State :=
  { s with health.roundNewer := if takenInRound s c then addSource s.health.roundNewer c else s.health.roundNewer
           health.roundInj := if s.health.converting then tabMod 0 s.health.roundInj (c % 2) (· + 1) else s.health.roundInj }

/-- An entry takes the code of its conversion. -/
def entryTaken (e raw : Nat) (s : State) : State :=
  modInject e (fun x => { x with
    code := (convert s (inject s e).channel raw).1, ovr := (convert s (inject s e).channel raw).2, gts := s.time.tb2,
    busyUntil := s.time.tb2 + 500
    waiting := x.waiting && x.latched, latched := false }) (roundShifted (inject s e).channel s)

theorem injectConvert_eq (e raw : Nat) (s : State) : injectConvert e raw s =
    count .injected 0 (keepCode (inject s e).channel raw (entryTaken e raw (elapseTo (converterFree s (inject s e).channel) s))) :=
  rfl

theorem injectConvert_spec (e raw : Nat) (s : State) : let x := inject s e
    let y := inject (injectConvert e raw s) e
    y.code = (convert s x.channel raw).1 ∧ y.gts = max s.time.tb2 (converterFree s x.channel) ∧ y.busyUntil = y.gts + 500 ∧
    y.due = x.due ∧ y.latched = false ∧ y.waiting = (x.waiting && x.latched) ∧
    counter .injected 0 (injectConvert e raw s) = counter .injected 0 s + 1 := by
  rw [injectConvert_eq]
  have htb2 := Proofs.tb2_elapseTo (converterFree s (inject s e).channel) s
  have hinj : inject (elapseTo (converterFree s (inject s e).channel) s) e = inject s e := rfl
  have hconv := convert_congr (s := s) (t := elapseTo (converterFree s (inject s e).channel) s) rfl (inject s e).channel raw
  have hcount : counter .injected 0 (elapseTo (converterFree s (inject s e).channel) s) = counter .injected 0 s := rfl
  dsimp only
  generalize elapseTo (converterFree s (inject s e).channel) s = u at htb2 hinj hconv hcount ⊢
  obtain ⟨hinjects, -, hcounter⟩ := keepCode_touches (inject s e).channel raw (entryTaken e raw u)
  have htaken : inject (entryTaken e raw u) e = { inject s e with
      code := (convert s (inject s e).channel raw).1, ovr := (convert s (inject s e).channel raw).2,
      gts := max s.time.tb2 (converterFree s (inject s e).channel)
      busyUntil := max s.time.tb2 (converterFree s (inject s e).channel) + 500
      waiting := (inject s e).waiting && (inject s e).latched, latched := false } := by
    have hshifted : inject (roundShifted (inject s e).channel u) e = inject s e := hinj
    unfold entryTaken
    rw [inject_modInject, hinj, hconv, htb2, hshifted]
  have hentry : inject (count .injected 0 (keepCode (inject s e).channel raw (entryTaken e raw u))) e =
      inject (entryTaken e raw u) e := inject_of_injects hinjects e
  rw [hentry, htaken, counter_count, hcounter]
  exact ⟨rfl, rfl, rfl, rfl, rfl, rfl, congrArg (· + 1) hcount⟩

/-- The state in which an entry's earliest delay has expired. -/
def delayOver (e a : Nat) (l : List Nat) (s : State) : State := modInject e (fun x => { x with due := l }) (elapseTo a s)

/-- What a delay that expires leaves of an entry. -/
def entryKept (x : Inject) : Nat × Nat × Bool × Bool × Nat := (x.channel, x.code, x.waiting, x.latched, x.busyUntil)

theorem entryKept_delayOver (e a : Nat) (l : List Nat) (s : State) (k : Nat) :
    entryKept (inject (delayOver e a l s) k) = entryKept (inject s k) := by
  unfold delayOver
  by_cases h : k = e
  · rw [h, inject_modInject]
    rfl
  · rw [inject_modInject_ne _ _ _ _ h]
    rfl

theorem channel_delayOver (e a : Nat) (l : List Nat) (s : State) (k : Nat) :
    (inject (delayOver e a l s) k).channel = (inject s k).channel := congrArg (fun x => x.1) (entryKept_delayOver e a l s k)

theorem code_delayOver (e a : Nat) (l : List Nat) (s : State) (k : Nat) :
    (inject (delayOver e a l s) k).code = (inject s k).code := congrArg (fun x => x.2.1) (entryKept_delayOver e a l s k)

theorem waiting_delayOver (e a : Nat) (l : List Nat) (s : State) (k : Nat) :
    (inject (delayOver e a l s) k).waiting = (inject s k).waiting := congrArg (fun x => x.2.2.1) (entryKept_delayOver e a l s k)

theorem latched_delayOver (e a : Nat) (l : List Nat) (s : State) (k : Nat) :
    (inject (delayOver e a l s) k).latched = (inject s k).latched := congrArg (fun x => x.2.2.2.1) (entryKept_delayOver e a l s k)

theorem busyUntil_delayOver (e a : Nat) (l : List Nat) (s : State) (k : Nat) :
    (inject (delayOver e a l s) k).busyUntil = (inject s k).busyUntil :=
  congrArg (fun x => x.2.2.2.2) (entryKept_delayOver e a l s k)

theorem sharing_delayOver (e a : Nat) (l : List Nat) (s : State) (c : Nat) : sharing (delayOver e a l s) c = sharing s c := by
  unfold sharing
  simp only [channel_delayOver]

theorem converterFree_delayOver (e a : Nat) (l : List Nat) (s : State) (c : Nat) :
    converterFree (delayOver e a l s) c = converterFree (elapseTo a s) c := by
  have hbusy : ∀ k, (inject (elapseTo a s) k).busyUntil = (inject s k).busyUntil := fun _ => rfl
  have hshare : sharing (elapseTo a s) c = sharing s c := rfl
  unfold converterFree
  rw [sharing_delayOver, hshare]
  simp only [busyUntil_delayOver, hbusy]
  rfl

/-- The converter of an entry is a calibration step's or another entry's. -/
def converterTaken (e : Nat) (s : State) (now : Nat) : Bool :=
  calBusy s (inject s e).channel || (sharing s (inject s e).channel).any (fun k => k ≠ e &&
    ((inject s k).waiting || (inject s k).latched || decide (now < (inject s k).busyUntil)))

theorem injectExpire_eq (e raw a : Nat) (l : List Nat) (s : State) (h : (inject s e).due = a :: l) : injectExpire e raw s =
    let x := inject s e
    let u := delayOver e a l s
    if x.waiting || x.latched || decide (u.time.tb2 < x.busyUntil) then injectLatch e u
    else if calBusy u x.channel || (sharing u x.channel).any (fun k => k ≠ e &&
        ((inject u k).waiting || (inject u k).latched || decide (u.time.tb2 < (inject u k).busyUntil))) then
      modInject e (fun x => { x with waiting := true }) u
    else injectConvert e raw u := by
  unfold injectExpire
  dsimp only
  rw [h]
  rfl

theorem injectExpire_cases (e raw a : Nat) (l : List Nat) (s : State) (h : (inject s e).due = a :: l) :
    let x := inject s e
    let now := max s.time.tb2 a
    injectExpire e raw s = if x.waiting || x.latched || decide (now < x.busyUntil) then injectLatch e (delayOver e a l s)
      else if converterTaken e s now then modInject e (fun x => { x with waiting := true }) (delayOver e a l s)
      else injectConvert e raw (delayOver e a l s) := by
  have hnow : (delayOver e a l s).time.tb2 = max s.time.tb2 a := Proofs.tb2_elapseTo a s
  rw [injectExpire_eq e raw a l s h]
  unfold converterTaken
  dsimp only
  rw [hnow, sharing_delayOver]
  simp only [waiting_delayOver, latched_delayOver, busyUntil_delayOver]
  rfl

theorem injectLatch_spec (e : Nat) (s : State) : let x := inject s e
    let y := inject (injectLatch e s) e
    y.due = x.due ∧ y.latched = true ∧ y.code = x.code ∧ y.waiting = x.waiting ∧
    counter .injOverrun 0 (injectLatch e s) = counter .injOverrun 0 s + bit x.latched := by
  unfold injectLatch
  dsimp only
  split
  · rename_i h
    rw [counter_count]
    refine ⟨rfl, h, rfl, rfl, ?_⟩
    rw [h]
    rfl
  · rename_i h
    rw [inject_modInject, Bool.eq_false_iff.mpr h]
    exact ⟨rfl, rfl, rfl, rfl, rfl⟩

end Sys2Proof.Laws

namespace Sys2Proof.Proofs
open Sys2Proof Sys2Proof.Machine Sys2Proof.Laws

/-! The two rows (R437, R438). -/

theorem exec_adcInjectTimer (e : BitVec 2) (s : State) (hOn : s.dev.state ≠ .off) : exec (.adcInjectTimer e) s = .next
    (if (inject s e.toNat).trigger = some 0 then
      modInject e.toNat (fun x => { x with since := (inject s e.toNat).since + (inject s e.toNat).delay
                                           due := insertNat ((inject s e.toNat).since + (inject s e.toNat).delay) x.due })
        (elapseTo ((inject s e.toNat).since + (inject s e.toNat).delay) s)
    else s) := by
  change execAdcInjectTimer e s = _
  rw [execAdcInjectTimer, whenOn_of_on _ s hOn]

theorem exec_adcInjectTimer_cases (s : State) (hOn : s.dev.state ≠ .off) :
    (∀ (e : BitVec 2), (inject s e.toNat).trigger ≠ some 0 → exec (.adcInjectTimer e) s = .next s) ∧
    (∀ (e : BitVec 2), (inject s e.toNat).trigger = some 0 → ∃ t, exec (.adcInjectTimer e) s = .next t ∧
      (inject t e.toNat).since = (inject s e.toNat).since + (inject s e.toNat).delay ∧
      (inject t e.toNat).due = insertNat (inject t e.toNat).since (inject s e.toNat).due ∧
      t.time.tb2 = max s.time.tb2 (inject t e.toNat).since) := by
  refine ⟨fun e h => ?_, fun e h => ⟨_, (exec_adcInjectTimer e s hOn).trans (congrArg _ (if_pos h)), ?_⟩⟩
  · rw [exec_adcInjectTimer e s hOn, if_neg h]
  · rw [inject_modInject]
    exact ⟨rfl, rfl, tb2_elapseTo _ s⟩

theorem exec_adcInjectConversion (e : BitVec 2) (raw : Nat) (s : State) (hOn : s.dev.state ≠ .off) :
    exec (.adcInjectConversion e raw) s = .next (calBegin (if injectReady s e.toNat then injectConvert e.toNat raw s
      else injectExpire e.toNat raw s)) := by
  change execAdcInjectConversion e raw s = _
  rw [execAdcInjectConversion, whenOn_of_on _ s hOn]

theorem inject_calBegin (s : State) (k : Nat) : inject (calBegin s) k = inject s k := by
  obtain ⟨x, h⟩ := calBegin_touches s
  rw [h]
  rfl

theorem counter_calBegin (c : Ctr) (i : Nat) (s : State) : counter c i (calBegin s) = counter c i s := by
  obtain ⟨x, h⟩ := calBegin_touches s
  rw [h]
  rfl

theorem injectExpire_spec (e raw a : Nat) (l : List Nat) (s : State) (h : (inject s e).due = a :: l) :
    let x := inject s e
    let now := max s.time.tb2 a
    let t := injectExpire e raw s
    (inject t e).due = l ∧
    ((x.waiting = true ∨ x.latched = true ∨ now < x.busyUntil) → (inject t e).latched = true ∧
      (inject t e).code = x.code ∧ (inject t e).waiting = x.waiting ∧
      counter .injOverrun 0 t = counter .injOverrun 0 s + bit x.latched) ∧
    (x.waiting = false → x.latched = false → x.busyUntil ≤ now →
      (converterTaken e s now = true → (inject t e).waiting = true ∧ (inject t e).code = x.code) ∧
      (converterTaken e s now = false → (inject t e).code = (convert s x.channel raw).1 ∧
        (inject t e).gts = max now (converterFree (elapseTo a s) x.channel) ∧
        counter .injected 0 t = counter .injected 0 s + 1)) := by
  have hdue : (inject (delayOver e a l s) e).due = l := by
    unfold delayOver
    rw [inject_modInject]
  have hbusy : ((inject s e).waiting || (inject s e).latched || decide (max s.time.tb2 a < (inject s e).busyUntil)) = true ↔
      (inject s e).waiting = true ∨ (inject s e).latched = true ∨ max s.time.tb2 a < (inject s e).busyUntil := by
    rw [Bool.or_eq_true, Bool.or_eq_true, decide_eq_true_iff, or_assoc]
  dsimp only
  rw [injectExpire_cases e raw a l s h]
  by_cases hwait : (inject s e).waiting = true ∨ (inject s e).latched = true ∨ max s.time.tb2 a < (inject s e).busyUntil
  · rw [if_pos (hbusy.mpr hwait)]
    obtain ⟨hdue', hlatched, hcode, hwaiting, hcount⟩ := injectLatch_spec e (delayOver e a l s)
    refine ⟨hdue'.trans hdue, fun _ => ⟨hlatched, hcode.trans (code_delayOver e a l s e), hwaiting.trans (waiting_delayOver e a l s e), ?_⟩,
      fun h1 h2 h3 => ?_⟩
    · rw [hcount, latched_delayOver]
      rfl
    · obtain hw | hw | hw := hwait
      · exact absurd (h1.symm.trans hw) nofun
      · exact absurd (h2.symm.trans hw) nofun
      · exact absurd h3 (Nat.not_le.mpr hw)
  · rw [if_neg fun hb => hwait (hbusy.mp hb)]
    by_cases htaken : converterTaken e s (max s.time.tb2 a) = true
    · rw [if_pos htaken, inject_modInject]
      exact ⟨hdue, fun hw => absurd hw hwait, fun _ _ _ => ⟨fun _ => ⟨rfl, code_delayOver e a l s e⟩,
        fun hf => absurd (htaken.symm.trans hf) nofun⟩⟩
    · rw [if_neg htaken]
      obtain ⟨hcode, hgts, -, hdue', -, -, hcount⟩ := injectConvert_spec e raw (delayOver e a l s)
      refine ⟨hdue'.trans hdue, fun hw => absurd hw hwait, fun _ _ _ => ⟨fun ht => absurd ht htaken, fun _ => ⟨?_, ?_, ?_⟩⟩⟩
      · rw [hcode, channel_delayOver]
        exact congrArg Prod.fst (convert_congr (by rfl) _ raw)
      · have hnow : (delayOver e a l s).time.tb2 = max s.time.tb2 a := tb2_elapseTo a s
        rw [hgts, channel_delayOver, converterFree_delayOver, hnow]
      · rw [hcount]
        rfl

theorem exec_adcInjectConversion_cases (s : State) (hOn : s.dev.state ≠ .off) (e : BitVec 2) (raw : Nat) :
    let x := inject s e.toNat
    (injectReady s e.toNat = true → ∃ t, exec (.adcInjectConversion e raw) s = .next t ∧
      (inject t e.toNat).code = (convert s x.channel raw).1 ∧
      (inject t e.toNat).gts = max s.time.tb2 (converterFree s x.channel) ∧
      (inject t e.toNat).busyUntil = (inject t e.toNat).gts + 500 ∧ (inject t e.toNat).due = x.due ∧
      (inject t e.toNat).latched = false ∧ (inject t e.toNat).waiting = (x.waiting && x.latched) ∧
      counter .injected 0 t = counter .injected 0 s + 1) ∧
    (injectReady s e.toNat = false → x.due = [] → exec (.adcInjectConversion e raw) s = .next (calBegin s)) ∧
    (∀ a l, injectReady s e.toNat = false → x.due = a :: l →
      let now := max s.time.tb2 a
      let taken := calBusy s x.channel || (sharing s x.channel).any (fun k => k ≠ e.toNat &&
        ((inject s k).waiting || (inject s k).latched || decide (now < (inject s k).busyUntil)))
      ∃ t, exec (.adcInjectConversion e raw) s = .next t ∧ (inject t e.toNat).due = l ∧
      ((x.waiting = true ∨ x.latched = true ∨ now < x.busyUntil) → (inject t e.toNat).latched = true ∧
        (inject t e.toNat).code = x.code ∧ (inject t e.toNat).waiting = x.waiting ∧
        counter .injOverrun 0 t = counter .injOverrun 0 s + bit x.latched) ∧
      (x.waiting = false → x.latched = false → x.busyUntil ≤ now →
        (taken = true → (inject t e.toNat).waiting = true ∧ (inject t e.toNat).code = x.code) ∧
        (taken = false → (inject t e.toNat).code = (convert s x.channel raw).1 ∧
          (inject t e.toNat).gts = max now (converterFree (elapseTo a s) x.channel) ∧
          counter .injected 0 t = counter .injected 0 s + 1))) := by
  refine ⟨fun h => ⟨calBegin (injectConvert e.toNat raw s), by rw [exec_adcInjectConversion e raw s hOn, if_pos h], ?_⟩,
    fun h hdue => ?_,
    fun a l h hdue => ⟨calBegin (injectExpire e.toNat raw s), by
      rw [exec_adcInjectConversion e raw s hOn, if_neg (Bool.eq_false_iff.mp h)], ?_⟩⟩
  · simp only [inject_calBegin, counter_calBegin]
    exact injectConvert_spec e.toNat raw s
  · rw [exec_adcInjectConversion e raw s hOn, if_neg (Bool.eq_false_iff.mp h), injectExpire]
    dsimp only
    rw [hdue]
  · simp only [inject_calBegin, counter_calBegin]
    exact injectExpire_spec e.toNat raw a l s hdue

end Sys2Proof.Proofs
end

section
/-! OBLIGATION. Calibration steps and fans, and the chapter's rounds as a whole (spec/20_health_and_thermal.md R439, R440, R452 to
R454). -/

namespace Sys2Proof.Proofs
open Sys2Proof Sys2Proof.Machine Sys2Proof.Laws

/-! Calibration steps (R439, R440). -/

/-- A calibration step's conversions are over. -/
def calOver (a : Nat) (s : State) : State := { elapseTo a s with health.calRunning := none, health.calStart := none }

/-- The lower average of an input is kept. -/
def calLow (i : Nat) (c : Int) (s : State) : State :=
  { s with health.calStep0 := tabSet none s.health.calStep0 i (some c) }

/-- A pair is stored. -/
def calStored (i : Nat) (c0 c : Int) (s : State) : State :=
  { s with health.calNext := tabSet none s.health.calNext i (some (c0, c))
           boot.mram := memWrite s.boot.mram (calOffset i) (leInt 2 c0 ++ leInt 2 c) }

theorem exec_adcCalStepDone (n i k a : Nat) (q : Request) (s : State) (hOn : s.dev.state ≠ .off)
    (hrun : s.health.calRunning = some (i, k, q)) (hstart : s.health.calStart = some a) :
    let c := roundTe n 16
    let c0 := (tabGet none s.health.calStep0 i).getD 0
    let u := calOver (a + 128000) s
    exec (.adcCalStepDone n) s = .next (if k = 0 then finish (.healthAdcCal q) 0x0B03 q .ok 0 0 [] (calLow i c u)
      else if (1880 ≤ c0 ∧ c0 ≤ 3160) ∧ (5868112 ≤ 100 * (c - c0) ∧ 100 * (c - c0) ≤ 6231088) then
        finish (.healthAdcCal q) 0x0B03 q .ok 0 0 [] (calStored i c0 c u)
      else finish (.healthAdcCal q) 0x0B03 q .range 0 0 [] u) := by
  change execAdcCalStepDone n s = _
  rw [execAdcCalStepDone, whenOn_of_on _ s hOn, hrun, hstart]
  rfl

theorem exec_adcCalStepDone_idle (n : Nat) (s : State) (hOn : s.dev.state ≠ .off)
    (h : s.health.calRunning = none ∨ s.health.calStart = none) : exec (.adcCalStepDone n) s = .next s := by
  change execAdcCalStepDone n s = _
  rw [execAdcCalStepDone, whenOn_of_on _ s hOn]
  obtain h | h := h
  · rw [h]
  · rw [h]
    cases s.health.calRunning <;> rfl

/-- What the end of a calibration step keeps, whatever its outcome. -/
theorem calOver_spec (a : Nat) (s : State) : (calOver a s).health.calRunning = none ∧ (calOver a s).health.cal = s.health.cal ∧
    (calOver a s).time.tb2 = max s.time.tb2 a ∧ (calOver a s).health.calNext = s.health.calNext ∧
    (calOver a s).boot = s.boot := ⟨rfl, rfl, tb2_elapseTo a s, rfl, rfl⟩

theorem exec_adcCalStepDone_cases (s : State) (hOn : s.dev.state ≠ .off) (n i k : Nat) (q : Request) (a : Nat)
    (hrun : s.health.calRunning = some (i, k, q)) (hstart : s.health.calStart = some a) :
    let c := roundTe n 16
    let c0 := (tabGet none s.health.calStep0 i).getD 0
    ∃ t, exec (.adcCalStepDone n) s = .next t ∧ t.health.calRunning = none ∧ t.health.cal = s.health.cal ∧
    t.time.tb2 = max s.time.tb2 (a + 128000) ∧
    (k = 0 → tabGet none t.health.calStep0 i = some c ∧ t.boot.mram = s.boot.mram) ∧
    (k ≠ 0 → 1880 ≤ c0 → c0 ≤ 3160 → 5868112 ≤ 100 * (c - c0) → 100 * (c - c0) ≤ 6231088 →
      tabGet none t.health.calNext i = some (c0, c) ∧
      memRead t.boot.mram (calOffset i) 4 = leInt 2 c0 ++ leInt 2 c) ∧
    (k ≠ 0 → (c0 < 1880 ∨ 3160 < c0 ∨ 100 * (c - c0) < 5868112 ∨ 6231088 < 100 * (c - c0)) →
      t.health.calNext = s.health.calNext ∧ t.boot.mram = s.boot.mram) := by
  dsimp only
  have hexec := exec_adcCalStepDone n i k a q s hOn hrun hstart
  dsimp only at hexec
  generalize roundTe n 16 = c at hexec ⊢
  generalize (tabGet none s.health.calStep0 i).getD 0 = c0 at hexec ⊢
  obtain ⟨hnone, hcal, htb2, hnext, hboot⟩ := calOver_spec (a + 128000) s
  generalize calOver (a + 128000) s = u at hexec hnone hcal htb2 hnext hboot
  by_cases hk : k = 0
  · rw [if_pos hk] at hexec
    exact ⟨_, hexec, hnone, hcal, htb2, fun _ =>
      ⟨tabGet_tabSet_same none u.health.calStep0 i (some c), congrArg BootSt.mram hboot⟩, fun h => absurd hk h,
      fun h => absurd hk h⟩
  · rw [if_neg hk] at hexec
    by_cases hb : (1880 ≤ c0 ∧ c0 ≤ 3160) ∧ (5868112 ≤ 100 * (c - c0) ∧ 100 * (c - c0) ≤ 6231088)
    · rw [if_pos hb] at hexec
      have hread : memRead (memWrite u.boot.mram (calOffset i) (leInt 2 c0 ++ leInt 2 c)) (calOffset i) 4 =
          leInt 2 c0 ++ leInt 2 c := by
        have hlen : (leInt 2 c0 ++ leInt 2 c).length = 4 := by
          rw [List.length_append, leInt_length, leInt_length]
        generalize leInt 2 c0 ++ leInt 2 c = l at hlen ⊢
        rw [← hlen]
        exact memRead_memWrite _ _ l
      exact ⟨_, hexec, hnone, hcal, htb2, fun h => absurd h hk, fun _ _ _ _ _ =>
          ⟨tabGet_tabSet_same none u.health.calNext i (some (c0, c)), hread⟩,
        fun _ h => by omega⟩
    · rw [if_neg hb] at hexec
      exact ⟨_, hexec, hnone, hcal, htb2, fun h => absurd h hk, fun _ h1 h2 h3 h4 => absurd ⟨⟨h1, h2⟩, h3, h4⟩ hb,
        fun _ _ => ⟨hnext, congrArg BootSt.mram hboot⟩⟩

/-! Fan cycles (R452, R453). -/

theorem fan_of_fans {s t : State} (h : t.health.fans = s.health.fans) (f : Nat) : fan t f = fan s f := by
  unfold fan
  rw [h]

/-- A fan takes its duty and its target. -/
def dutySet (s : State) (d : Nat × Nat × Nat) : State :=
  modFan d.1 (fun x => { x with duty := d.2.1, target := if x.fixed then x.target else d.2.2 }) s

theorem foldl_dutySet (duty target : Nat → Nat) (l : List Nat) (hl : l.Nodup) (s : State) :
    let t := (l.map fun f => (f, duty f, target f)).foldl dutySet s
    (∀ f ∈ l, (fan t f).duty = duty f) ∧ ∀ f, f ∉ l → fan t f = fan s f := by
  induction l generalizing s with
  | nil => exact ⟨fun f hf => absurd hf List.not_mem_nil, fun _ _ => rfl⟩
  | cons g l ih =>
    obtain ⟨hg, hnodup⟩ := List.nodup_cons.mp hl
    obtain ⟨ihduty, ihother⟩ := ih hnodup (dutySet s (g, duty g, target g))
    refine ⟨fun f hf => ?_, fun f hf => ?_⟩
    · rw [List.map_cons, List.foldl_cons]
      by_cases h : f = g
      · rw [h, ihother g hg, dutySet, fan_modFan]
      · exact ihduty f ((List.mem_cons.mp hf).resolve_left h)
    · obtain ⟨hne, hf⟩ := not_or.mp (List.mem_cons.not.mp hf)
      rw [List.map_cons, List.foldl_cons, ihother f hf, dutySet, fan_modFan_ne _ _ _ _ hne]

/-- The fans after a cycle. -/
def cycled (s : State) : State :=
  ((List.range 4).map fun f => (f, cycleDuty s f, curveAt (fan s f).t (fan s f).d (fanTemp s f))).foldl dutySet s

/-- A cycle is noted. -/
def cycleNoted (s : State) : State :=
  count .fanCycles 0 { s with health.fanDue := s.health.fanDue - 1, health.lastFan := some s.time.tb2, health.fanIdle := false }

theorem exec_fanCycle (s : State) (hOn : s.dev.state ≠ .off) : exec .fanCycle s =
    .next (if s.health.fanDue = 0 then s else setAlarm 0x0B80 0 false (cycleNoted (cycled s))) := by
  change execFanCycle s = _
  unfold execFanCycle
  rw [whenOn_of_on _ s hOn]
  rfl

theorem cycleDuty_bounds (s : State) (f : Nat) : 300 ≤ cycleDuty s f ∧ (fanFull s f = true → cycleDuty s f = 1000) := by
  unfold cycleDuty
  dsimp only
  split
  · exact ⟨by omega, fun _ => rfl⟩
  · rename_i h
    exact ⟨le_max_left _ _, fun h' => absurd h' h⟩

theorem exec_fanCycle_due (s : State) (hOn : s.dev.state ≠ .off) (h : 0 < s.health.fanDue) :
    ∃ t, exec .fanCycle s = .next t ∧ t.health.fanDue + 1 = s.health.fanDue ∧
      (0x0B80, 0) ∉ t.health.alarms ∧ (∀ f, f < 4 → (fan t f).duty = cycleDuty s f ∧ 300 ≤ (fan t f).duty ∧
        (fanFull s f = true → (fan t f).duty = 1000)) := by
  have hdue : (cycled s).health.fanDue = s.health.fanDue :=
    foldl_proj (fun s => s.health.fanDue) dutySet (fun _ _ => rfl) _ s
  obtain ⟨hduty, -⟩ := foldl_dutySet (cycleDuty s) (fun f => curveAt (fan s f).t (fan s f).d (fanTemp s f)) (List.range 4)
    List.nodup_range s
  have hfan : ∀ f, f < 4 → (fan (cycled s) f).duty = cycleDuty s f := fun f hf => hduty f (List.mem_range.mpr hf)
  have hexec := exec_fanCycle s hOn
  rw [if_neg (by omega)] at hexec
  generalize cycled s = u at hdue hfan hexec
  refine ⟨_, hexec, ?_, not_mem_setAlarm_false _ _ _, fun f hf => ?_⟩
  · change u.health.fanDue - 1 + 1 = _
    omega
  · have hf' : (fan (setAlarm 0x0B80 0 false (cycleNoted u)) f).duty = cycleDuty s f := hfan f hf
    rw [hf']
    exact ⟨rfl, cycleDuty_bounds s f⟩

/-! A loop without cycles (R453). -/

/-- A fan runs at 100 %. -/
def fullDuty (s : State) (f : Nat) : State := modFan f (fun x => { x with duty := 1000 }) s

/-- The alarm of a loop without cycles is raised once. -/
def idleRaised (s : State) : State := if s.health.fanIdle then s else raiseOpen true 0x0B 3 0 [] s

/-- A loop that had no cycle until `n`. -/
def loopIdle (n : Nat) (s : State) : State :=
  setAlarm 0x0B80 0 true ((List.range 4).foldl fullDuty { idleRaised (elapseTo n s) with health.fanIdle := true })

theorem exec_fanLoopIdle (s : State) (hOn : s.dev.state ≠ .off) : exec .fanLoopIdle s =
    .next (loopIdle (s.health.lastFan.getD (s.time.tb2 - s.time.tb3) + 10000000000) s) := by
  change execFanLoopIdle s = _
  unfold execFanLoopIdle
  rw [whenOn_of_on _ s hOn]
  rfl

theorem foldl_fullDuty (l : List Nat) (s : State) (f : Nat) (h : f ∈ l ∨ (fan s f).duty = 1000) :
    (fan (l.foldl fullDuty s) f).duty = 1000 := by
  induction l generalizing s with
  | nil => exact h.resolve_left List.not_mem_nil
  | cons g l ih =>
    refine ih (fullDuty s g) ?_
    unfold fullDuty
    by_cases hg : f = g
    · rw [hg, fan_modFan]
      exact .inr rfl
    · rw [fan_modFan_ne _ _ _ _ hg]
      exact h.imp_left fun hm => (List.mem_cons.mp hm).resolve_left hg

theorem time_idleRaised (s : State) : (idleRaised s).time = s.time := by
  unfold idleRaised
  split
  · rfl
  · unfold raiseOpen
    dsimp only
    rw [(raiseEvent_fields _ _ _ _ _ _ _ _).2.2.1]
    rfl

theorem loopIdle_spec (n : Nat) (s : State) : (0x0B80, 0) ∈ (loopIdle n s).health.alarms ∧
    (loopIdle n s).time.tb2 = max s.time.tb2 n ∧ ∀ f, f < 4 → (fan (loopIdle n s) f).duty = 1000 := by
  refine ⟨mem_setAlarm_true _ _ _, ?_, fun f hf => ?_⟩
  · have htime : ∀ u : State, ((List.range 4).foldl fullDuty u).time = u.time :=
      foldl_proj (fun s => s.time) fullDuty (fun _ _ => rfl) _
    have hall : (loopIdle n s).time = (idleRaised (elapseTo n s)).time := htime _
    rw [hall, time_idleRaised, tb2_elapseTo]
  · exact foldl_fullDuty (List.range 4) _ f (.inl (List.mem_range.mpr hf))

/-! Fans that fail (R454). -/

/-- A fan is marked failed. -/
def failMarked (f : Nat) (s : State) : State := modFan f (fun x => { x with fail := true, goodSince := none }) s

/-- A fan fails: the others run at 100 %. -/
def fanFailed (f : Nat) (s : State) : State :=
  raise 0x0B03 3 (fanSpeed s f) [f] (setAlarm 0x0B03 f true (count .fanFails f (forceFans (failMarked f s))))

/-- What a fan that has been slow since `n` does. -/
def failAt (n f : Nat) (s : State) : State :=
  if fanSlow (elapseTo n s) f && !(fan (elapseTo n s) f).fail then fanFailed f (elapseTo n s) else elapseTo n s

theorem exec_fanFail (f : BitVec 2) (a : Nat) (s : State) (hOn : s.dev.state ≠ .off) (h : (fan s f.toNat).lowSince = some a) :
    exec (.fanFail f) s = .next (failAt (a + 3000000000) f.toNat s) := by
  change execFanFail f s = _
  unfold execFanFail
  rw [whenOn_of_on _ s hOn]
  dsimp only
  rw [h]
  rfl

theorem exec_fanFail_none (f : BitVec 2) (s : State) (hOn : s.dev.state ≠ .off) (h : (fan s f.toNat).lowSince = none) :
    exec (.fanFail f) s = .next s := by
  change execFanFail f s = _
  unfold execFanFail
  rw [whenOn_of_on _ s hOn]
  dsimp only
  rw [h]

theorem fanFull_failMarked (f g : Nat) (s : State) (hf : f < 4) (hg : g ≠ f) : fanFull (failMarked f s) g = true := by
  have hfail : (fan (failMarked f s) f).fail = true := by
    unfold failMarked
    rw [fan_modFan]
  refine Bool.or_eq_true_iff.mpr (.inr (List.any_eq_true.mpr ⟨f, List.mem_range.mpr hf, ?_⟩))
  rw [hfail, Bool.and_true]
  exact bne_iff_ne.mpr hg.symm

theorem fanFailed_spec (f : Nat) (hf : f < 4) (s : State) : (fan (fanFailed f s) f).fail = true ∧
    (0x0B03, f) ∈ (fanFailed f s).health.alarms ∧ ∀ g, g < 4 → g ≠ f → (fan (fanFailed f s) g).duty = 1000 := by
  have halarms : (fanFailed f s).health = (setAlarm 0x0B03 f true (count .fanFails f (forceFans (failMarked f s)))).health := by
    unfold fanFailed
    rw [(raise_fields _ _ _ _ _).2.2.2.2.2.2.2.2.2.2.2.2.2.2.2.2.2.2.2.2.2.1]
  have hfans : (fanFailed f s).health.fans = (forceFans (failMarked f s)).health.fans := by
    rw [halarms]
    generalize forceFans (failMarked f s) = u
    rfl
  refine ⟨?_, ?_, fun g hg hne => ?_⟩
  · rw [fan_of_fans hfans, fail_forceFans, failMarked, fan_modFan]
  · rw [halarms]
    exact mem_setAlarm_true _ _ _
  · rw [fan_of_fans hfans]
    exact duty_forceFans _ g hg (fanFull_failMarked f g s hf hne)

theorem failAt_spec (n f : Nat) (hf : f < 4) (s : State) :
    ((fanSlow (elapseTo n s) f = false ∨ (fan s f).fail = true) → failAt n f s = elapseTo n s) ∧
    (fanSlow (elapseTo n s) f = true → (fan s f).fail = false → (fan (failAt n f s) f).fail = true ∧
      (0x0B03, f) ∈ (failAt n f s).health.alarms ∧ ∀ g, g < 4 → g ≠ f → (fan (failAt n f s) g).duty = 1000) := by
  have hfan : fan (elapseTo n s) f = fan s f := rfl
  unfold failAt
  rw [hfan]
  generalize elapseTo n s = u
  refine ⟨fun h => if_neg fun hc => ?_, fun hslow hfail => ?_⟩
  · obtain ⟨hslow, hfail⟩ := Bool.and_eq_true_iff.mp hc
    obtain h | h := h
    · exact absurd (hslow.symm.trans h) nofun
    · rw [h] at hfail
      exact absurd hfail nofun
  · rw [if_pos (by rw [hslow, hfail]; rfl)]
    exact fanFailed_spec f hf u

/-- Settles O55. -/
theorem healthRoundsCalibrationsAndFans : Obligations.HealthRoundsCalibrationsAndFans := by
  unfold Obligations.HealthRoundsCalibrationsAndFans
  refine ⟨calibrate_spec, dwell_spec, fun s hOn => ?_⟩
  obtain ⟨hround, hrounds⟩ := exec_adcRoundEnd_cases s hOn
  obtain ⟨htimer, htimers⟩ := exec_adcInjectTimer_cases s hOn
  refine ⟨hround, hrounds, htimer, htimers, exec_adcInjectConversion_cases s hOn,
    fun n h => exec_adcCalStepDone_idle n s hOn h, exec_adcCalStepDone_cases s hOn, fun h => ?_, exec_fanCycle_due s hOn,
    ⟨_, exec_fanLoopIdle s hOn, loopIdle_spec _ s⟩, fun f h => exec_fanFail_none f s hOn h, fun f a h => ?_⟩
  · rw [exec_fanCycle s hOn, if_pos h]
  · obtain ⟨hidle, hfails⟩ := failAt_spec (a + 3000000000) f.toNat f.isLt s
    have hexec := exec_fanFail f a s hOn h
    exact ⟨fun hc => hexec.trans (congrArg _ (hidle hc)), fun hslow hfail => ⟨_, hexec, hfails hslow hfail⟩⟩

end Sys2Proof.Proofs
end

section
/-! OBLIGATION. Twin roles (spec/19_twins.md R423 to R431). -/

namespace Sys2Proof.Proofs
open Sys2Proof Sys2Proof.Machine Sys2Proof.Laws

/-! Counts past an event. -/

theorem counter_raiseEvent_of_ne {c : Ctr} {i : Nat} (g code src : Nat) (a e : Bool) (m : Int) (l : List Byte) (s : State)
    (h : c.ctorIdx ≠ Ctr.events.ctorIdx) (hi : i < 1048576) :
    counter c i (raiseEvent g code src a e m l s) = counter c i s := by
  have hkey : ctrKey c i ≠ ctrKey .events 0 := by unfold ctrKey; omega
  simp only [raiseEvent, counter]
  split
  · rfl
  · exact tabGet_tabMod_ne _ _ _ hkey

theorem counter_raise_of_ne {c : Ctr} {i : Nat} (code src : Nat) (m : Int) (l : List Int) (s : State)
    (h : c.ctorIdx ≠ Ctr.events.ctorIdx) (hi : i < 1048576) : counter c i (raise code src m l s) = counter c i s :=
  counter_raiseEvent_of_ne _ _ _ _ _ _ _ s h hi

theorem twin_raise (code src : Nat) (m : Int) (l : List Int) (s : State) : (raise code src m l s).twin = s.twin :=
  (raise_fields code src m l s).2.2.2.2.2.2.2.2.2.2.2.2.2.2.2.2.2.2.2.2.2.2.1

/-! Priority (R426). -/

theorem priority_opposite (s t : State) (hhome : s.twin.homeLead = !t.twin.homeLead)
    (hpath : s.twin.leadRunLink = t.twin.leadRunLink) (hs : s.twin.heardEpoch = t.twin.epoch)
    (ht : t.twin.heardEpoch = s.twin.epoch) (hsr : testBit s.twin.partnerRole.toNat 2 = t.twin.acqSilent)
    (htr : testBit t.twin.partnerRole.toNat 2 = s.twin.acqSilent) : priority s = !priority t := by
  unfold priority
  dsimp only
  rw [hpath, hs, ht, hsr, htr, hhome]
  cases t.twin.leadRunLink
  · cases s.twin.acqSilent <;> cases t.twin.acqSilent <;> rfl
  · rw [if_pos rfl, if_pos rfl]
    obtain h | h | h := Nat.lt_trichotomy t.twin.epoch s.twin.epoch
    · rw [decide_eq_true h, decide_eq_false (Nat.lt_asymm h), decide_eq_false h.ne, Bool.false_and]
      rfl
    · rw [h, decide_eq_false (Nat.lt_irrefl _), decide_eq_true rfl]
      rfl
    · rw [decide_eq_false (Nat.lt_asymm h), decide_eq_true h, decide_eq_false h.ne, Bool.false_and]
      rfl

/-! Takeover (R423 to R425). -/

/-- The frames without a LEAD heartbeat and the state of the part call for a takeover. -/
def takeoverDue (s : State) : Bool :=
  s.twin.paired && !s.twin.lead && decide (s.twin.k ≤ s.twin.noLeadRun) &&
    (s.twin.homeLead || decide (s.twin.k ≤ s.twin.silentRun)) && (s.dev.state = .ready || observing s)

theorem exec_takeover (s : State) (hOn : s.dev.state ≠ .off) : exec .takeover s = .next (if takeoverDue s then
    { acquireLead (decide (s.twin.k ≤ s.twin.silentRun)) s with
      twin.takeoverAt := some s.time.frame, twin.sticky := s.twin.sticky ||| 0x80 } else s) := by
  change execTakeover s = _
  rw [execTakeover, whenOn_of_on _ s hOn]
  rfl

theorem takeoverDue_iff (s : State) : takeoverDue s = true ↔ s.twin.paired = true ∧ s.twin.lead = false ∧
    s.twin.k ≤ s.twin.noLeadRun ∧ (s.twin.homeLead = true ∨ s.twin.k ≤ s.twin.silentRun) ∧
    (s.dev.state = .ready ∨ observing s = true) := by
  unfold takeoverDue
  simp [and_assoc]

theorem exec_takeover_cases (s : State) (hOn : s.dev.state ≠ .off) : let w := s.twin
    (w.paired = true → w.lead = false → w.k ≤ w.noLeadRun → (w.homeLead = true ∨ w.k ≤ w.silentRun) →
      (s.dev.state = .ready ∨ observing s = true) → ∃ t, exec .takeover s = .next t ∧ t.twin.lead = true ∧
      w.epoch < t.twin.epoch ∧ w.heardEpoch < t.twin.epoch ∧ t.twin.epoch = max w.epoch w.heardEpoch + 1 ∧
      t.twin.acqSilent = decide (w.k ≤ w.silentRun) ∧ t.twin.takeoverAt = some s.time.frame ∧
      t.twin.duties = w.duties) ∧
    ((w.paired = false ∨ w.lead = true ∨ w.noLeadRun < w.k ∨ (w.homeLead = false ∧ w.silentRun < w.k) ∨
      (s.dev.state ≠ .ready ∧ observing s = false)) → exec .takeover s = .next s) := by
  refine ⟨fun h1 h2 h3 h4 h5 => ⟨_, (exec_takeover s hOn).trans (congrArg _ (if_pos ((takeoverDue_iff s).mpr ⟨h1, h2, h3, h4, h5⟩))),
    rfl, ?_, ?_, rfl, rfl, rfl, rfl⟩, fun h => (exec_takeover s hOn).trans (congrArg _ (if_neg fun hd => ?_))⟩
  · exact Nat.lt_succ_of_le (le_max_left _ _)
  · exact Nat.lt_succ_of_le (le_max_right _ _)
  · obtain ⟨h1, h2, h3, h4, h5⟩ := (takeoverDue_iff s).mp hd
    obtain h | h | h | ⟨h, h'⟩ | ⟨h, h'⟩ := h
    · exact absurd (h1.symm.trans h) nofun
    · exact absurd (h2.symm.trans h) nofun
    · omega
    · exact h4.elim (fun hc => absurd (hc.symm.trans h) nofun) fun hc => by omega
    · exact h5.elim h fun hc => absurd (hc.symm.trans h') nofun

/-! Duties (R425, R429). -/

/-- An output takes what a checkpoint gives it. -/
def outputLoaded (l : List Byte) (s : State) (k : Nat) : State :=
  modOut k (fun o => { o with nextOffset := (Config.checkpointOutput l k).1, nextWidth := (Config.checkpointOutput l k).2 }) s

theorem loadCheckpoint_none (s : State) (h : newestCheckpoint s = none) :
    loadCheckpoint s = count .checkpointMissing 0 { s with lanes.control := [] } := by
  unfold loadCheckpoint
  rw [h]

theorem loadCheckpoint_some (s : State) (f : Nat) (l : List Byte) (h : newestCheckpoint s = some (f, l)) :
    loadCheckpoint s = (List.range 3).foldl (outputLoaded l)
      { s with
        compass.relay := Config.checkpointRelay l
        lanes.control := (List.range 32).foldl (fun t k => match Config.checkpointControl l k with
          | some x => tabSet (0, []) t k x
          | none => t) [] } := by
  unfold loadCheckpoint
  rw [h]
  rfl

/-- What the load of a checkpoint leaves. -/
theorem loadCheckpoint_kept (s : State) : (loadCheckpoint s).twin = s.twin ∧
    (∀ c, c.ctorIdx ≠ Ctr.checkpointMissing.ctorIdx → counter c 0 (loadCheckpoint s) = counter c 0 s) ∧
    (∀ f l, newestCheckpoint s = some (f, l) → (loadCheckpoint s).compass.relay = Config.checkpointRelay l) ∧
    (newestCheckpoint s = none → (loadCheckpoint s).compass.relay = s.compass.relay ∧
      (loadCheckpoint s).lanes.control = [] ∧
      counter .checkpointMissing 0 (loadCheckpoint s) = counter .checkpointMissing 0 s + 1) := by
  cases h : newestCheckpoint s with
  | none =>
    rw [loadCheckpoint_none s h]
    exact ⟨rfl, fun c hc => counter_count_of_ne _ _ hc, nofun, fun _ => ⟨rfl, rfl, counter_count _ _ _⟩⟩
  | some e =>
    obtain ⟨f, l⟩ := e
    rw [loadCheckpoint_some s f l h]
    have hfold : ∀ u : State, ((List.range 3).foldl (outputLoaded l) u).twin = u.twin ∧
        ((List.range 3).foldl (outputLoaded l) u).counters = u.counters ∧
        ((List.range 3).foldl (outputLoaded l) u).compass.relay = u.compass.relay := fun u =>
      ⟨foldl_proj (fun s => s.twin) (outputLoaded l) (fun _ _ => rfl) _ u, foldl_proj (fun s => s.counters) (outputLoaded l) (fun _ _ => rfl) _ u,
        foldl_proj (fun s => s.compass.relay) (outputLoaded l) (fun _ _ => rfl) _ u⟩
    obtain ⟨htwin, hctr, hrelay⟩ := hfold { s with
        compass.relay := Config.checkpointRelay l
        lanes.control := (List.range 32).foldl (fun t k => match Config.checkpointControl l k with
          | some x => tabSet (0, []) t k x
          | none => t) [] }
    refine ⟨htwin, fun c _ => counter_of_counters hctr c 0, fun f' l' he => ?_, nofun⟩
    cases he
    exact hrelay

theorem completeTakeover_spec (n : Nat) (s : State) : let t := completeTakeover n s
    t.twin.duties = true ∧ t.twin.takeoverAt = none ∧ t.twin.epoch = s.twin.epoch ∧
    counter .takeovers 0 t = counter .takeovers 0 s + 1 ∧
    (∀ f l, newestCheckpoint s = some (f, l) → t.compass.relay = Config.checkpointRelay l) ∧
    (newestCheckpoint s = none → t.compass.relay = s.compass.relay ∧ t.lanes.control = [] ∧
      counter .checkpointMissing 0 t = counter .checkpointMissing 0 s + 1) := by
  obtain ⟨htwin, hctr, hsome, hnone⟩ := loadCheckpoint_kept s
  unfold completeTakeover beginDuties
  dsimp only
  generalize loadCheckpoint s = u at htwin hctr hsome hnone ⊢
  rw [twin_raise, counter_raise_of_ne _ _ _ _ _ (by decide) (by decide), counter_raise_of_ne _ _ _ _ _ (by decide) (by decide),
    counter_count, counter_count_of_ne _ _ (by decide)]
  have hepoch : u.twin.epoch = s.twin.epoch := congrArg TwinSt.epoch htwin
  exact ⟨rfl, rfl, hepoch, congrArg (· + 1) (hctr .takeovers (by decide)), hsome, hnone⟩

theorem exec_takeoverComplete (s : State) (hOn : s.dev.state ≠ .off) :
    (s.twin.takeoverAt = none → exec .takeoverComplete s = .next s) ∧
    ∀ n, s.twin.takeoverAt = some n → exec .takeoverComplete s = .next (completeTakeover n s) := by
  have h : exec .takeoverComplete s = execTakeoverComplete s := rfl
  rw [h, execTakeoverComplete, whenOn_of_on _ s hOn]
  exact ⟨fun hn => by rw [hn], fun n hn => by rw [hn]⟩

theorem boundTakeover_cases (b n : Nat) (s : State) (hn : s.twin.takeoverAt = some n)
    (hb : boundTakeover s = if b ≤ (s.time.frame - n) * periodNs s then completeTakeover n s else s) :
    (b ≤ (s.time.frame - n) * periodNs s → completeTakeover n s = boundTakeover s) ∧
    ((s.time.frame - n) * periodNs s < b → boundTakeover s = s) :=
  ⟨fun h => (hb.trans (if_pos h)).symm, fun h => hb.trans (if_neg (Nat.not_le.mpr h))⟩

theorem boundTakeover_some (s : State) (n : Nat) (hn : s.twin.takeoverAt = some n) :
    boundTakeover s = if 5000000 ≤ (s.time.frame - n) * periodNs s then completeTakeover n s else s := by
  unfold boundTakeover
  rw [hn]

/-! The end of a lead (R426, R427). -/

/-- A lead without priority has heard its partner's claim for K frames. -/
def yieldDue (s : State) : Bool := s.twin.paired && s.twin.lead && decide (s.twin.k ≤ s.twin.leadRun) && !priority s

theorem yieldDue_iff (s : State) : yieldDue s = true ↔
    s.twin.paired = true ∧ s.twin.lead = true ∧ s.twin.k ≤ s.twin.leadRun ∧ priority s = false := by
  unfold yieldDue
  simp [and_assoc]

/-- The lead is given up, and counted. -/
def yielded (s : State) : State := count .yields 0 { stopLead s with twin.sticky := s.twin.sticky ||| 0x100 }

theorem exec_yieldLead (s : State) (hOn : s.dev.state ≠ .off) : exec .yieldLead s =
    .next (if yieldDue s then raise 0x0D01 5 s.twin.epoch [] (yielded s) else s) := by
  change execYieldLead s = _
  rw [execYieldLead, whenOn_of_on _ s hOn]
  rfl

theorem exec_yieldLead_cases (s : State) (hOn : s.dev.state ≠ .off) : let w := s.twin
    (w.paired = true → w.lead = true → w.k ≤ w.leadRun → priority s = false → ∃ t, exec .yieldLead s = .next t ∧
      t.twin.lead = false ∧ t.twin.duties = false ∧ counter .yields 0 t = counter .yields 0 s + 1) ∧
    ((w.paired = false ∨ w.lead = false ∨ w.leadRun < w.k ∨ priority s = true) → exec .yieldLead s = .next s) := by
  refine ⟨fun h1 h2 h3 h4 => ⟨_, (exec_yieldLead s hOn).trans (congrArg _ (if_pos ((yieldDue_iff s).mpr ⟨h1, h2, h3, h4⟩))), ?_⟩,
    fun h => (exec_yieldLead s hOn).trans (congrArg _ (if_neg fun hd => ?_))⟩
  · rw [twin_raise, counter_raise_of_ne _ _ _ _ _ (by decide) (by decide), yielded, counter_count]
    exact ⟨rfl, rfl, rfl⟩
  · obtain ⟨h1, h2, h3, h4⟩ := (yieldDue_iff s).mp hd
    obtain h | h | h | h := h
    · exact absurd (h1.symm.trans h) nofun
    · exact absurd (h2.symm.trans h) nofun
    · omega
    · exact absurd (h4.symm.trans h) nofun

theorem exec_ridgeHeartbeatWithdraw (s : State) (hOn : s.dev.state ≠ .off) : exec .ridgeHeartbeatWithdraw s =
    .next (if s.twin.paired && s.twin.lead then { stopLead s with twin.armed := false } else s) := by
  change execRidgeHeartbeatWithdraw s = _
  rw [execRidgeHeartbeatWithdraw, whenOn_of_on _ s hOn]

/-! Planned changes (R430, R431). -/

/-- The lead answers a reclaim with a final checkpoint and an acknowledgement. -/
def reclaimAnswered (m : TwinMessage) (s : State) : State :=
  sendTwin [(5, twinMessage (sendCheckpoint s) 0 m.handoverFrame.toNat [])]
    { sendCheckpoint s with twin.reclaimAt := some m.handoverFrame.toNat }

theorem exec_reclaim (m : TwinMessage) (s : State) (hOn : s.dev.state ≠ .off) : exec (.reclaim m) s =
    .next (if s.twin.paired && s.twin.lead then reclaimAnswered m s else s) := by
  change execReclaim m s = _
  rw [execReclaim, whenOn_of_on _ s hOn]
  rfl

theorem reclaimAnswered_spec (m : TwinMessage) (s : State) : let t := reclaimAnswered m s
    t.twin.reclaimAt = some m.handoverFrame.toNat ∧ t.twin.lead = s.twin.lead ∧
    (5, twinMessage (sendCheckpoint s) 0 m.handoverFrame.toNat []) ∈ t.twin.sent := by
  have hlead : (sendCheckpoint s).twin.lead = s.twin.lead := by
    obtain ⟨x, n, c, t, h⟩ := sendCheckpoint_touches s
    rw [h]
  unfold reclaimAnswered
  dsimp only
  generalize (5, twinMessage (sendCheckpoint s) 0 m.handoverFrame.toNat []) = e
  generalize sendCheckpoint s = u at hlead ⊢
  obtain ⟨x, n, h⟩ := sendTwin_touches [e] { u with twin.reclaimAt := some m.handoverFrame.toNat }
  rw [h]
  exact ⟨rfl, hlead, List.mem_append_right _ List.mem_cons_self⟩

theorem exec_handover (m : TwinMessage) (s : State) (hOn : s.dev.state ≠ .off) : exec (.handover m) s =
    .next (if s.twin.paired && !s.twin.lead then
      { s with twin.handoverAt := some m.handoverFrame.toNat, twin.heardEpoch := m.epoch.toNat } else s) := by
  change execHandover m s = _
  rw [execHandover, whenOn_of_on _ s hOn]

theorem exec_reclaimAck (m : TwinMessage) (s : State) (hOn : s.dev.state ≠ .off) : exec (.reclaimAck m) s =
    .next (if s.twin.paired && !s.twin.lead && decide (s.twin.reclaimAt = some m.handoverFrame.toNat) then
      { s with twin.reclaimAcked := true, twin.heardEpoch := m.epoch.toNat } else s) := by
  change execReclaimAck m s = _
  rw [execReclaimAck, whenOn_of_on _ s hOn]

/-- A handover takes effect. -/
def handedOver (s : State) : State :=
  if s.twin.lead then stopLead (count .handovers 0 { s with twin.handoverAt := none })
  else beginDuties (acquireLead false (count .handovers 0 { s with twin.handoverAt := none }))

/-- A reclaim takes effect. -/
def reclaimed (s : State) : State :=
  if s.twin.lead then stopLead { s with twin.reclaimAt := none, twin.reclaimAcked := false }
  else if s.twin.reclaimAcked then count .reclaims 0 (beginDuties (acquireLead false s))
  else { s with twin.reclaimAt := none }

theorem namedRoles_none (s : State) (hh : ∀ h, s.twin.handoverAt = some h → s.time.frame < h)
    (hr : ∀ h, s.twin.reclaimAt = some h → s.time.frame < h) : namedRoles s = s := by
  unfold namedRoles
  dsimp only
  cases ho : s.twin.handoverAt with
  | none =>
    cases hre : s.twin.reclaimAt with
    | none => simp only [hre]
    | some h => simp only [hre, if_pos (hr h hre)]
  | some k =>
    simp only [if_pos (hh k ho)]
    cases hre : s.twin.reclaimAt with
    | none => rfl
    | some h => simp only [if_pos (hr h hre)]

theorem duties_beginDuties (s : State) : (beginDuties s).twin = { s.twin with duties := true } := by
  unfold beginDuties
  dsimp only
  rw [(loadCheckpoint_kept s).1]

theorem handedOver_spec (s : State) (hr : s.twin.reclaimAt = none) : let t := handedOver s
    t.twin.reclaimAt = none ∧ counter .handovers 0 t = counter .handovers 0 s + 1 ∧ t.twin.duties = t.twin.lead ∧
    t.twin.lead = !s.twin.lead ∧ (s.twin.lead = false → s.twin.epoch < t.twin.epoch) := by
  have hcount : counter .handovers 0 (count .handovers 0 { s with twin.handoverAt := none }) = counter .handovers 0 s + 1 :=
    counter_count _ _ _
  unfold handedOver
  dsimp only
  cases hl : s.twin.lead
  · rw [if_neg nofun, duties_beginDuties]
    refine ⟨rfl, ?_, rfl, rfl, fun _ => Nat.lt_succ_of_le (le_max_left _ _)⟩
    unfold beginDuties
    exact ((loadCheckpoint_kept _).2.1 .handovers (by decide)).trans hcount
  · rw [if_pos rfl]
    exact ⟨hr, hcount, rfl, rfl, nofun⟩

theorem namedRoles_handover (s : State) (h : Nat) (hh : s.twin.handoverAt = some h) (hdue : h ≤ s.time.frame)
    (hr : s.twin.reclaimAt = none) : namedRoles s = handedOver s := by
  have hnone := (handedOver_spec s hr).1
  have hdef : namedRoles s = match (handedOver s).twin.reclaimAt with
      | some h => if s.time.frame < h then handedOver s else reclaimed (handedOver s)
      | none => handedOver s := by
    unfold namedRoles
    rw [hh]
    dsimp only
    rw [if_neg (Nat.not_lt.mpr hdue)]
    rfl
  rw [hdef, hnone]

theorem reclaimed_lead (s : State) : (reclaimed s).twin.lead = (!s.twin.lead && s.twin.reclaimAcked) := by
  unfold reclaimed
  cases hl : s.twin.lead
  · rw [if_neg nofun]
    cases ha : s.twin.reclaimAcked
    · exact hl
    · rw [if_pos rfl]
      exact congrArg TwinSt.lead (duties_beginDuties (acquireLead false s))
  · rfl

theorem namedRoles_reclaim (s : State) (h : Nat) (hr : s.twin.reclaimAt = some h) (hdue : h ≤ s.time.frame)
    (hh : s.twin.handoverAt = none) : namedRoles s = reclaimed s := by
  unfold namedRoles
  rw [hh]
  dsimp only
  rw [hr]
  dsimp only
  rw [if_neg (Nat.not_lt.mpr hdue)]
  rfl

theorem follower_iff (s : State) : (s.twin.paired && !s.twin.lead) = true ↔ s.twin.paired = true ∧ s.twin.lead = false := by
  rw [Bool.and_eq_true, Bool.not_eq_true']

/-- Settles O56. -/
theorem twinRolesChangeHands : Obligations.TwinRolesChangeHands := by
  unfold Obligations.TwinRolesChangeHands
  refine ⟨priority_opposite, fun s hOn => ?_⟩
  obtain ⟨htake, hnotake⟩ := exec_takeover_cases s hOn
  obtain ⟨hidle, hcomplete⟩ := exec_takeoverComplete s hOn
  obtain ⟨hyield, hnoyield⟩ := exec_yieldLead_cases s hOn
  refine ⟨htake, hnotake, hidle, fun n hn => ⟨_, hcomplete n hn, completeTakeover_spec n s⟩, fun n hn => ?_, hyield, hnoyield,
    fun hp hl => ⟨_, (exec_ridgeHeartbeatWithdraw s hOn).trans (congrArg _ (if_pos (by rw [hp, hl]; rfl))), rfl, rfl, rfl, rfl⟩,
    fun h => ?_, fun h m => ?_, fun m hp hl => ?_, fun m hp hl => ?_, namedRoles_none s, fun h hh hdue hr => ?_,
    fun h hr hdue hh => ?_⟩
  · obtain ⟨hbound, hopen⟩ := boundTakeover_cases 5000000 n s hn (boundTakeover_some s n hn)
    exact ⟨fun hb => (hcomplete n hn).trans (congrArg _ (hbound hb)), hopen⟩
  · have hno : ¬(s.twin.paired && s.twin.lead) = true := fun hc => by
      obtain ⟨hp, hl⟩ := Bool.and_eq_true_iff.mp hc
      exact h.elim (fun h => absurd (hp.symm.trans h) nofun) fun h => absurd (hl.symm.trans h) nofun
    exact ⟨(exec_ridgeHeartbeatWithdraw s hOn).trans (congrArg _ (if_neg hno)),
      fun m => (exec_reclaim m s hOn).trans (congrArg _ (if_neg hno))⟩
  · have hno : (s.twin.paired && !s.twin.lead) = false := Bool.eq_false_iff.mpr fun hc => by
      obtain ⟨hp, hl⟩ := (follower_iff s).mp hc
      exact h.elim (fun h => absurd (hp.symm.trans h) nofun) fun h => absurd (hl.symm.trans h) nofun
    rw [exec_handover m s hOn, exec_reclaimAck m s hOn, hno]
    exact ⟨rfl, rfl⟩
  · have hyes : (s.twin.paired && !s.twin.lead) = true := (follower_iff s).mpr ⟨hp, hl⟩
    rw [exec_handover m s hOn, exec_reclaimAck m s hOn, hyes, Bool.true_and]
    exact ⟨rfl, fun hr => congrArg _ (if_pos (decide_eq_true hr)), fun hr => congrArg _ (if_neg (ne_true_of_eq_false (decide_eq_false hr)))⟩
  · obtain ⟨hat, hlead, hsent⟩ := reclaimAnswered_spec m s
    exact ⟨_, (exec_reclaim m s hOn).trans (congrArg _ (if_pos (by rw [hp, hl]; rfl))), hat, hlead.trans hl, hsent⟩
  · rw [namedRoles_handover s h hh hdue hr]
    exact (handedOver_spec s hr).2
  · rw [namedRoles_reclaim s h hr hdue hh]
    exact reclaimed_lead s

end Sys2Proof.Proofs
end

section
/-! OBLIGATION. Heartbeats and checkpoints of twins (spec/19_twins.md R420 to R422, R429, R432). -/

namespace Sys2Proof.Proofs
open Sys2Proof Sys2Proof.Machine Sys2Proof.Laws

/-! What is sent (R429). -/

theorem pieces_flatten (n : Nat) (l : List Byte) (h : l.length ≤ n * 8192) : (pieces n l).flatten = l := by
  induction n generalizing l with
  | zero => exact (List.length_eq_zero_iff.mp (by omega)).symm
  | succ n ih =>
    unfold pieces
    split
    · rename_i hl
      exact (List.isEmpty_iff.mp hl).symm
    · rw [List.flatten_cons, ih _ (by rw [List.length_drop]; omega), List.take_append_drop]

/-- Bytes with the CRC-32C of all of them at their end. -/
def sealed (l : List Byte) : List Byte := l ++ beBytes 4 (crc32c l)

theorem beBytes_length (n v : Nat) : (beBytes n v).length = n := (List.length_reverse ..).trans (leBytes_length n v)

theorem sealed_length (l : List Byte) : (sealed l).length = l.length + 4 := by
  rw [sealed, List.length_append, beBytes_length]

theorem wholeCheckpoint_sealed (l : List Byte) : wholeCheckpoint (sealed l) = true := by
  have hlen := sealed_length l
  have htail : (sealed l).drop l.length = beBytes 4 (crc32c l) := List.drop_left
  have hhead : (sealed l).take l.length = l := List.take_left
  have hval : beVal (beBytes 4 (crc32c l)) = crc32c l := by
    unfold beVal beBytes
    rw [List.reverse_reverse, leVal_leBytes 4 _ (crc32c_lt l)]
  unfold wholeCheckpoint
  rw [hlen, Nat.add_sub_cancel, htail, hhead, hval, decide_eq_true (Nat.le_add_left 4 l.length), decide_eq_true rfl]
  rfl

theorem checkpointBytes_sealed (s : State) : ∃ l : List Byte, l.length ≤ 65532 ∧ checkpointBytes s = sealed l :=
  ⟨_, List.length_take_le 65532 _, rfl⟩

theorem checkpointBytes_spec (s : State) : wholeCheckpoint (pieces 8 (checkpointBytes s)).flatten = true ∧
    (pieces 8 (checkpointBytes s)).flatten = checkpointBytes s ∧ (checkpointBytes s).length ≤ 65536 := by
  obtain ⟨l, hl, h⟩ := checkpointBytes_sealed s
  have hlen := sealed_length l
  rw [h, pieces_flatten 8 (sealed l) (by omega)]
  exact ⟨wholeCheckpoint_sealed l, rfl, by omega⟩

/-! Heartbeats on the pin (R420, R421). -/

/-- The skew of an edge. -/
def edgeSkew (s : State) : Int := (edgePhase s : Int) -
  ((if decide (2 * edgePhase s < periodNs s) = true then periodNs s / 4 else 3 * periodNs s / 4 : Nat) : Int)

theorem edgeSkew_eq (s : State) : edgeSkew s = (edgePhase s : Int) -
    (if 2 * edgePhase s < periodNs s then ((periodNs s / 4 : Nat) : Int) else ((3 * periodNs s / 4 : Nat) : Int)) := by
  unfold edgeSkew
  simp only [decide_eq_true_iff]
  split <;> rfl

/-- A second edge of a window is counted. -/
def doubleCounted (n : Nat) (s : State) : State := if 1 ≤ n then count .hbDouble 0 s else s

theorem doubleCounted_spec (n : Nat) (s : State) : (doubleCounted n s).twin = s.twin ∧
    counter .hbDouble 0 (doubleCounted n s) = counter .hbDouble 0 s + bit (decide (1 ≤ n)) := by
  unfold doubleCounted
  split
  · rename_i h
    rw [counter_count, decide_eq_true h]
    exact ⟨rfl, rfl⟩
  · rename_i h
    rw [decide_eq_false h]
    exact ⟨rfl, rfl⟩

/-- An edge of the next frame's window. -/
def edgeTakenNext (k : Int) (isLead : Bool) (s : State) : State :=
  let u := doubleCounted s.twin.pinNext.1 { s with twin.skew := k }
  { u with twin.pinNext := (u.twin.pinNext.1 + 1, isLead), twin.nextSkew := k }

/-- An edge of this frame's window. -/
def edgeTakenNow (k : Int) (isLead : Bool) (s : State) : State :=
  let u := doubleCounted s.twin.pinEdges { s with twin.skew := k }
  { u with twin.pinEdges := u.twin.pinEdges + 1, twin.pinLead := isLead, twin.pinSkew := k }

theorem edgeTakenNext_twin (k : Int) (isLead : Bool) (s : State) : (edgeTakenNext k isLead s).twin =
    { s.twin with skew := k, pinNext := (s.twin.pinNext.1 + 1, isLead), nextSkew := k } := by
  unfold edgeTakenNext
  dsimp only
  rw [(doubleCounted_spec _ _).1]

theorem edgeTakenNow_twin (k : Int) (isLead : Bool) (s : State) : (edgeTakenNow k isLead s).twin =
    { s.twin with skew := k, pinEdges := s.twin.pinEdges + 1, pinLead := isLead, pinSkew := k } := by
  unfold edgeTakenNow
  dsimp only
  rw [(doubleCounted_spec _ _).1]

theorem exec_hbInEdge (x : Nat) (s : State) (hOn : s.dev.state ≠ .off) : exec (.hbInEdge x) s = .next
    (let u := (filterEdge 8 x s).2
     if !(filterEdge 8 x s).1 || !u.twin.paired then u
     else if edgeNext u then edgeTakenNext (edgeSkew u) (decide (2 * edgePhase u < periodNs u)) u
     else edgeTakenNow (edgeSkew u) (decide (2 * edgePhase u < periodNs u)) u) := by
  change execHbInEdge x s = _
  rw [execHbInEdge, whenOn_of_on _ s hOn]
  obtain ⟨ok, u⟩ := filterEdge 8 x s
  rfl

theorem filterEdge_twin (k x : Nat) (s : State) : (filterEdge k x s).2.twin = s.twin := by
  unfold filterEdge
  dsimp only
  (repeat' split) <;> rfl

theorem exec_hbInEdge_cases (s : State) (hOn : s.dev.state ≠ .off) : let w := s.twin
    (∀ x, ((filterEdge 8 x s).1 = false ∨ w.paired = false) → exec (.hbInEdge x) s = .next (filterEdge 8 x s).2) ∧
    (∀ x, (filterEdge 8 x s).1 = true → w.paired = true → ∃ t, exec (.hbInEdge x) s = .next t ∧
      t.twin.skew = (edgePhase s : Int) -
        (if 2 * edgePhase s < periodNs s then ((periodNs s / 4 : Nat) : Int) else ((3 * periodNs s / 4 : Nat) : Int)) ∧
      (edgeNext s = true → t.twin.pinNext = (w.pinNext.1 + 1, decide (2 * edgePhase s < periodNs s)) ∧
        t.twin.nextSkew = t.twin.skew ∧ t.twin.pinSkew = w.pinSkew ∧ t.twin.pinEdges = w.pinEdges ∧
        counter .hbDouble 0 t = counter .hbDouble 0 s + bit (decide (1 ≤ w.pinNext.1))) ∧
      (edgeNext s = false → t.twin.pinEdges = w.pinEdges + 1 ∧ t.twin.pinLead = decide (2 * edgePhase s < periodNs s) ∧
        t.twin.pinSkew = t.twin.skew ∧ t.twin.pinNext = w.pinNext ∧
        counter .hbDouble 0 t = counter .hbDouble 0 s + bit (decide (1 ≤ w.pinEdges)))) := by
  refine ⟨fun x h => ?_, fun x hok hp => ?_⟩
  · rw [exec_hbInEdge x s hOn]
    dsimp only
    rw [filterEdge_twin]
    refine congrArg _ (if_pos ?_)
    obtain h | h := h
    · rw [h]
      rfl
    · rw [h, Bool.or_eq_true]
      exact .inr rfl
  · have hexec := exec_hbInEdge x s hOn
    dsimp only at hexec
    rw [filterEdge_true 8 x s hok, hok] at hexec
    have hpaired : (modPin 8 (fun p => { p with lastAccepted := some s.time.tb2 }) s).twin.paired = true := hp
    rw [hpaired, if_neg (by decide)] at hexec
    have hnext : edgeNext (modPin 8 (fun p => { p with lastAccepted := some s.time.tb2 }) s) = edgeNext s := rfl
    have hskew : edgeSkew (modPin 8 (fun p => { p with lastAccepted := some s.time.tb2 }) s) = edgeSkew s := rfl
    have hphase : edgePhase (modPin 8 (fun p => { p with lastAccepted := some s.time.tb2 }) s) = edgePhase s := rfl
    have hperiod : periodNs (modPin 8 (fun p => { p with lastAccepted := some s.time.tb2 }) s) = periodNs s := rfl
    have htwin : (modPin 8 (fun p => { p with lastAccepted := some s.time.tb2 }) s).twin = s.twin := rfl
    have hctr : counter .hbDouble 0 (modPin 8 (fun p => { p with lastAccepted := some s.time.tb2 }) s) = counter .hbDouble 0 s := rfl
    rw [hnext, hskew, hphase, hperiod] at hexec
    generalize modPin 8 (fun p => { p with lastAccepted := some s.time.tb2 }) s = u at hexec htwin hctr
    refine ⟨_, hexec, ?_⟩
    rw [← edgeSkew_eq]
    cases hn : edgeNext s
    · rw [if_neg nofun, edgeTakenNow_twin, htwin]
      exact ⟨rfl, nofun, fun _ => ⟨rfl, rfl, rfl, rfl,
        (doubleCounted_spec _ _).2.trans (htwin ▸ congrArg (· + _) hctr)⟩⟩
    · rw [if_pos rfl, edgeTakenNext_twin, htwin]
      exact ⟨rfl, fun _ => ⟨rfl, rfl, rfl, rfl,
        (doubleCounted_spec _ _).2.trans (htwin ▸ congrArg (· + _) hctr)⟩, nofun⟩

/-! Heartbeats on the link (R421). -/

theorem exec_heartbeat (m : TwinMessage) (s : State) (hOn : s.dev.state ≠ .off) : exec (.heartbeat m) s = .next
    (if !s.twin.paired || !(s.twin.quad.all (quadEnabled s)) then s else
      { s with
        twin.linkHeard := s.twin.linkHeard || decide (m.frame.toNat = s.time.frame)
        twin.linkLead := if decide (m.frame.toNat = s.time.frame) then testBit m.role.toNat 0 else s.twin.linkLead
        twin.linkNext := if decide (m.frame.toNat = s.time.frame + 1) then (true, testBit m.role.toNat 0) else s.twin.linkNext
        twin.partnerRole := m.role, twin.heardEpoch := m.epoch.toNat, twin.partner := m.identity
        twin.partnerDigest := m.digest
        twin.digestRun := if m.digest = digest s then 0 else s.twin.digestRun + 1 }) := by
  change execHeartbeat m s = _
  rw [execHeartbeat, whenOn_of_on _ s hOn]

theorem exec_heartbeat_heard (s : State) (hOn : s.dev.state ≠ .off) (m : TwinMessage) (hp : s.twin.paired = true)
    (hq : s.twin.quad.all (quadEnabled s) = true) : let w := s.twin
    ∃ t, exec (.heartbeat m) s = .next t ∧
      (m.frame.toNat = s.time.frame → t.twin.linkHeard = true ∧ t.twin.linkLead = testBit m.role.toNat 0) ∧
      (m.frame.toNat = s.time.frame + 1 → t.twin.linkNext = (true, testBit m.role.toNat 0)) ∧
      (m.frame.toNat ≠ s.time.frame → t.twin.linkHeard = w.linkHeard ∧ t.twin.linkLead = w.linkLead) ∧
      (m.frame.toNat ≠ s.time.frame + 1 → t.twin.linkNext = w.linkNext) ∧
      t.twin.partnerRole = m.role ∧ t.twin.heardEpoch = m.epoch.toNat ∧
      t.twin.partner = m.identity ∧ t.twin.partnerDigest = m.digest ∧
      t.twin.digestRun = if m.digest = digest s then 0 else w.digestRun + 1 := by
  refine ⟨_, (exec_heartbeat m s hOn).trans (congrArg _ (if_neg (by rw [hp, hq]; decide))), fun h => ?_, fun h => ?_, fun h => ?_,
    fun h => ?_, rfl, rfl, rfl, rfl, rfl⟩
  · exact ⟨(congrArg (_ || ·) (decide_eq_true h)).trans (Bool.or_true _), if_pos (decide_eq_true h)⟩
  · exact if_pos (decide_eq_true h)
  · exact ⟨(congrArg (_ || ·) (decide_eq_false h)).trans (Bool.or_false _), if_neg (ne_true_of_eq_false (decide_eq_false h))⟩
  · exact if_neg (ne_true_of_eq_false (decide_eq_false h))

theorem exec_followerHeartbeatToggle (s : State) (hOn : s.dev.state ≠ .off) : exec .followerHeartbeatToggle s = .next
    (if s.twin.paired && s.twin.armed && !s.twin.claiming then
      { elapse (tickTime s s.time.frame + periodNs s / 2 - s.time.tb0) s with twin.hbOut := !s.twin.hbOut }
    else s) := by
  change execFollowerHeartbeatToggle s = _
  rw [execFollowerHeartbeatToggle, whenOn_of_on _ s hOn]
  rfl

/-! Paths, skew and digest (R421, R422, R432). -/

/-- A path has missed K frames while the other heard K. -/
def pathDue (link : Bool) (s : State) : Bool :=
  if link then decide (s.twin.k ≤ s.twin.linkMissed) && decide (s.twin.k ≤ s.twin.pinHeardRun) && !s.twin.linkDown
  else decide (s.twin.k ≤ s.twin.pinMissed) && decide (s.twin.k ≤ s.twin.linkHeardRun) && !s.twin.pinDown

/-- A path is marked down. -/
def pathMarked (link : Bool) (s : State) : State :=
  { s with twin.pinDown := s.twin.pinDown || !link, twin.linkDown := s.twin.linkDown || link }

theorem exec_hbPathDown (link : Bool) (s : State) (hOn : s.dev.state ≠ .off) : exec (.hbPathDown link) s = .next
    (if s.twin.paired && pathDue link s then raise 0x0D02 5 (bit link) [] (setAlarm 0x0D02 (bit link) true (pathMarked link s))
     else s) := by
  change execHbPathDown link s = _
  rw [execHbPathDown, whenOn_of_on _ s hOn]
  rfl

theorem health_raise (code src : Nat) (m : Int) (l : List Int) (s : State) : (raise code src m l s).health = s.health :=
  (raise_fields code src m l s).2.2.2.2.2.2.2.2.2.2.2.2.2.2.2.2.2.2.2.2.2.1

theorem exec_hbPathDown_due (link : Bool) (s : State) (hOn : s.dev.state ≠ .off) (hp : s.twin.paired = true)
    (hd : pathDue link s = true) : ∃ t, exec (.hbPathDown link) s = .next t ∧ t.twin = (pathMarked link s).twin ∧
    (0x0D02, bit link) ∈ t.health.alarms := by
  refine ⟨_, (exec_hbPathDown link s hOn).trans (congrArg _ (if_pos (by rw [hp, hd]; rfl))), ?_, ?_⟩
  · rw [twin_raise]
    rfl
  · rw [health_raise]
    exact mem_setAlarm_true _ _ _

theorem exec_hbPathDown_same (link : Bool) (s : State) (hOn : s.dev.state ≠ .off) (h : pathDue link s = false) :
    exec (.hbPathDown link) s = .next s := by
  rw [exec_hbPathDown link s hOn, h, Bool.and_false]
  rfl

theorem pathDue_pin (s : State) : pathDue false s = true ↔
    s.twin.k ≤ s.twin.pinMissed ∧ s.twin.k ≤ s.twin.linkHeardRun ∧ s.twin.pinDown = false := by
  unfold pathDue
  simp [and_assoc]

theorem pathDue_link (s : State) : pathDue true s = true ↔
    s.twin.k ≤ s.twin.linkMissed ∧ s.twin.k ≤ s.twin.pinHeardRun ∧ s.twin.linkDown = false := by
  unfold pathDue
  simp [and_assoc]

theorem exec_hbPathDown_cases (s : State) (hOn : s.dev.state ≠ .off) : let w := s.twin
    ((w.pinMissed < w.k ∨ w.linkHeardRun < w.k ∨ w.pinDown = true) → exec (.hbPathDown false) s = .next s) ∧
    ((w.linkMissed < w.k ∨ w.pinHeardRun < w.k ∨ w.linkDown = true) → exec (.hbPathDown true) s = .next s) ∧
    (w.paired = true → w.k ≤ w.pinMissed → w.k ≤ w.linkHeardRun → w.pinDown = false → ∃ t,
      exec (.hbPathDown false) s = .next t ∧ t.twin.pinDown = true ∧ t.twin.linkDown = w.linkDown ∧
      (0x0D02, 0) ∈ t.health.alarms) ∧
    (w.paired = true → w.k ≤ w.linkMissed → w.k ≤ w.pinHeardRun → w.linkDown = false → ∃ t,
      exec (.hbPathDown true) s = .next t ∧ t.twin.linkDown = true ∧ t.twin.pinDown = w.pinDown ∧
      (0x0D02, 1) ∈ t.health.alarms) := by
  have hno : ∀ (a b c : Nat) (d : Bool), (b < a ∨ c < a ∨ d = true) → ¬(a ≤ b ∧ a ≤ c ∧ d = false) := by
    rintro a b c d (h | h | h) ⟨h1, h2, h3⟩
    · omega
    · omega
    · exact absurd (h.symm.trans h3) nofun
  refine ⟨fun h => exec_hbPathDown_same false s hOn (Bool.eq_false_iff.mpr fun hd => hno _ _ _ _ h ((pathDue_pin s).mp hd)),
    fun h => exec_hbPathDown_same true s hOn (Bool.eq_false_iff.mpr fun hd => hno _ _ _ _ h ((pathDue_link s).mp hd)),
    fun hp h1 h2 h3 => ?_, fun hp h1 h2 h3 => ?_⟩
  · obtain ⟨t, hexec, htwin, halarm⟩ := exec_hbPathDown_due false s hOn hp ((pathDue_pin s).mpr ⟨h1, h2, h3⟩)
    exact ⟨t, hexec, by rw [htwin]; exact Bool.or_true _, by rw [htwin]; exact Bool.or_false _, halarm⟩
  · obtain ⟨t, hexec, htwin, halarm⟩ := exec_hbPathDown_due true s hOn hp ((pathDue_link s).mpr ⟨h1, h2, h3⟩)
    exact ⟨t, hexec, by rw [htwin]; exact Bool.or_true _, by rw [htwin]; exact Bool.or_false _, halarm⟩

/-- SKEW is set. -/
def skewSet (s : State) : State := setAlarm 0x0D80 0 true { s with twin.skewed := true }

theorem exec_twinSkew (s : State) (hOn : s.dev.state ≠ .off) : exec .twinSkew s = .next
    (if s.twin.paired && decide (s.twin.k ≤ s.twin.skewRun) && !s.twin.skewed then
      raiseOpen true 0x0D 5 s.twin.skew [] (skewSet s) else s) := by
  change execTwinSkew s = _
  rw [execTwinSkew, whenOn_of_on _ s hOn]
  rfl

theorem raiseOpen_kept (a : Bool) (h src : Nat) (m : Int) (l : List Int) (s : State) :
    (raiseOpen a h src m l s).twin = s.twin ∧ (raiseOpen a h src m l s).health = s.health := by
  unfold raiseOpen draw
  dsimp only
  obtain ⟨-, -, -, -, -, -, -, -, -, -, -, -, -, -, -, -, -, -, -, -, -, hhealth, htwin, -⟩ := raiseEvent_fields s.time.tb2
    (h * 256 + Config.freeNat s.fresh % 256) src a false m (cells (m :: l)) { s with fresh := s.fresh + 1 }
  exact ⟨htwin, hhealth⟩

theorem exec_twinSkew_cases (s : State) (hOn : s.dev.state ≠ .off) : let w := s.twin
    (w.paired = true → w.k ≤ w.skewRun → w.skewed = false → ∃ t, exec .twinSkew s = .next t ∧ t.twin.skewed = true ∧
      (0x0D80, 0) ∈ t.health.alarms ∧ t.twin.skew = w.skew) ∧
    ((w.skewRun < w.k ∨ w.skewed = true) → exec .twinSkew s = .next s) := by
  refine ⟨fun hp hk hs => ⟨_, (exec_twinSkew s hOn).trans (congrArg _ (if_pos (by rw [hp, hs, decide_eq_true hk]; rfl))), ?_⟩,
    fun h => (exec_twinSkew s hOn).trans (congrArg _ (if_neg fun hc => ?_))⟩
  · obtain ⟨htwin, hhealth⟩ := raiseOpen_kept true 0x0D 5 s.twin.skew [] (skewSet s)
    rw [htwin, hhealth]
    exact ⟨rfl, mem_setAlarm_true _ _ _, rfl⟩
  · obtain ⟨hpk, hs⟩ := Bool.and_eq_true_iff.mp hc
    obtain ⟨-, hk⟩ := Bool.and_eq_true_iff.mp hpk
    have hk' := of_decide_eq_true hk
    obtain h | h := h
    · omega
    · rw [h] at hs
      exact absurd hs nofun

theorem skewFar_iff (s : State) : skewFar s = true ↔ s.twin.pinEdges = 1 ∧ periodNs s < 8 * s.twin.pinSkew.natAbs := by
  unfold skewFar
  rw [Bool.and_eq_true, decide_eq_true_iff, decide_eq_true_iff]

/-- The run of far skews is kept and SKEW stands or goes. -/
def skewJudged (s : State) : State :=
  { s with twin.skewRun := if skewFar s then s.twin.skewRun + 1 else 0
           twin.skewed := s.twin.skewed && !(s.twin.skewed && decide (s.twin.pinEdges = 1) && !skewFar s) }

theorem judgeSkew_eq (s : State) : judgeSkew s = if s.twin.skewed && decide (s.twin.pinEdges = 1) && !skewFar s then
    setAlarm 0x0D80 0 false (skewJudged s) else skewJudged s := rfl

theorem judgeSkew_spec (s : State) : let w := s.twin
    (skewFar s = true ↔ w.pinEdges = 1 ∧ periodNs s < 8 * w.pinSkew.natAbs) ∧
    (judgeSkew s).twin.skewRun = (if skewFar s then w.skewRun + 1 else 0) ∧
    (judgeSkew s).twin.skewed = (w.skewed && !(decide (w.pinEdges = 1) && !skewFar s)) ∧
    (w.skewed = true → w.pinEdges = 1 → 8 * w.pinSkew.natAbs ≤ periodNs s → (0x0D80, 0) ∉ (judgeSkew s).health.alarms) := by
  have htwin : (judgeSkew s).twin = (skewJudged s).twin := by
    rw [judgeSkew_eq]
    split <;> rfl
  refine ⟨skewFar_iff s, congrArg TwinSt.skewRun htwin, (congrArg TwinSt.skewed htwin).trans ?_, fun hs hp hn => ?_⟩
  · unfold skewJudged
    dsimp only
    cases s.twin.skewed <;> rfl
  · have hfar : skewFar s = false := Bool.eq_false_iff.mpr fun h => by
      obtain ⟨-, h⟩ := (skewFar_iff s).mp h
      omega
    rw [judgeSkew_eq, if_pos (by rw [hs, hfar, decide_eq_true hp]; rfl)]
    exact not_mem_setAlarm_false _ _ _

theorem exec_configMismatch (s : State) (hOn : s.dev.state ≠ .off) : exec .configMismatch s = .next
    (if s.twin.paired && decide (s.twin.k ≤ s.twin.digestRun) then
      raise 0x0D03 5 s.twin.partnerDigest.toNat [] (setAlarm 0x0D03 0 true
        { s with twin.sticky := s.twin.sticky ||| 0x800 })
    else s) := by
  change execConfigMismatch s = _
  rw [execConfigMismatch, whenOn_of_on _ s hOn]

theorem exec_configMismatch_cases (s : State) (hOn : s.dev.state ≠ .off) : let w := s.twin
    (w.paired = true → w.k ≤ w.digestRun → ∃ t, exec .configMismatch s = .next t ∧ (0x0D03, 0) ∈ t.health.alarms) ∧
    (w.digestRun < w.k → exec .configMismatch s = .next s) := by
  refine ⟨fun hp hk => ⟨_, (exec_configMismatch s hOn).trans (congrArg _ (if_pos (by rw [hp, decide_eq_true hk]; rfl))), ?_⟩,
    fun h => ?_⟩
  · rw [health_raise]
    exact mem_setAlarm_true _ _ _
  · rw [exec_configMismatch s hOn, decide_eq_false (Nat.not_le.mpr h), Bool.and_false]
    rfl

/-! Checkpoints received (R429). -/

/-- No whole checkpoint came until `n`. -/
def staleAt (n : Nat) (s : State) : State := { elapseTo n s with twin.stale := true }

theorem exec_checkpointStale (s : State) (hOn : s.dev.state ≠ .off) : exec .checkpointStale s = .next
    (if s.twin.paired && !s.twin.lead then staleAt (s.twin.ckptTime + 3000000000) s else s) := by
  change execCheckpointStale s = _
  rw [execCheckpointStale, whenOn_of_on _ s hOn]
  rfl

/-- Pieces that another checkpoint displaces are counted. -/
def displacedCounted (b : Bool) (s : State) : State := if b then count .checkpointErrors 0 s else s

/-- The pieces received with the new one. -/
def piecesWith (m : TwinMessage) (s : State) : Tab (List Byte) :=
  tabSet [] (if decide (m.frame.toNat ≠ s.twin.pieceFrame) then [] else s.twin.pieces) m.piece.toNat m.body

/-- The state that holds a new piece. -/
def pieceKept (m : TwinMessage) (s : State) : State :=
  { displacedCounted (decide (m.frame.toNat ≠ s.twin.pieceFrame) && !s.twin.pieces.isEmpty) s with
    twin.pieces := piecesWith m s, twin.pieceFrame := m.frame.toNat }

/-- What a follower does with a good piece. -/
def pieceTaken (m : TwinMessage) (s : State) : State :=
  if contiguous (piecesWith m s) && wholeCheckpoint (joined (piecesWith m s)) then
    keepCheckpoint m.frame.toNat (joined (piecesWith m s)) (pieceKept m s)
  else if (piecesWith m s).length = 8 then count .checkpointErrors 0 { pieceKept m s with twin.pieces := [] }
  else pieceKept m s

theorem exec_checkpoint (m : TwinMessage) (s : State) (hOn : s.dev.state ≠ .off) : exec (.checkpoint m) s = .next
    (if !s.twin.paired || s.twin.lead then s
     else if 8 ≤ m.piece.toNat ∨ 8192 < m.body.length then count .checkpointErrors 0 s else pieceTaken m s) := by
  change execCheckpoint m s = _
  rw [execCheckpoint, whenOn_of_on _ s hOn]
  unfold pieceTaken pieceKept displacedCounted piecesWith
  cases hb : (decide (m.frame.toNat ≠ s.twin.pieceFrame) && !s.twin.pieces.isEmpty)
  · simp only [hb]
    rfl
  · simp only [hb]
    rfl

theorem displacedCounted_spec (b : Bool) (s : State) : (displacedCounted b s).twin = s.twin ∧
    (displacedCounted b s).boot = s.boot ∧
    counter .checkpointErrors 0 (displacedCounted b s) = counter .checkpointErrors 0 s + bit b ∧
    counter .checkpointsReceived 0 (displacedCounted b s) = counter .checkpointsReceived 0 s := by
  cases b
  · exact ⟨rfl, rfl, rfl, rfl⟩
  · exact ⟨rfl, rfl, counter_count _ _ _, counter_count_of_ne _ _ (by decide)⟩

/-- A whole checkpoint is kept in SRAM and in the slot whose turn it is. -/
theorem keepCheckpoint_spec (f : Nat) (l : List Byte) (s : State) : let t := keepCheckpoint f l s
    t.twin.ckpt = some (f, l) ∧ t.twin.stale = false ∧ t.twin.pieces = [] ∧
    memRead t.boot.mram (ckptBase s.twin.ckptSlot) l.length = l ∧ t.twin.ckptSlot = !s.twin.ckptSlot ∧
    slotCheckpoint t s.twin.ckptSlot = some (f, l) ∧
    counter .checkpointsReceived 0 t = counter .checkpointsReceived 0 s + 1 := by
  have hread : memRead (keepCheckpoint f l s).boot.mram (ckptBase s.twin.ckptSlot) l.length = l := memRead_memWrite _ _ l
  have hslot : (if s.twin.ckptSlot then (keepCheckpoint f l s).twin.slotB else (keepCheckpoint f l s).twin.slotA) =
      some (f, l.length) := by
    unfold keepCheckpoint
    cases h : s.twin.ckptSlot <;> rfl
  refine ⟨rfl, rfl, rfl, hread, rfl, ?_, counter_count _ _ _⟩
  unfold slotCheckpoint
  rw [hslot, Option.map_some, hread]

theorem exec_checkpoint_piece (s : State) (hOn : s.dev.state ≠ .off) (m : TwinMessage) (hp : s.twin.paired = true)
    (hl : s.twin.lead = false) (hpiece : m.piece.toNat < 8) (hbody : m.body.length ≤ 8192) : let w := s.twin
    let l := piecesWith m s
    let lost := bit (decide (m.frame.toNat ≠ w.pieceFrame) && !w.pieces.isEmpty)
    let whole := contiguous l && wholeCheckpoint (joined l)
    ∃ t, exec (.checkpoint m) s = .next t ∧
    (whole = true → t.twin.ckpt = some (m.frame.toNat, joined l) ∧ t.twin.stale = false ∧ t.twin.pieces = [] ∧
      memRead t.boot.mram (ckptBase w.ckptSlot) (joined l).length = joined l ∧ t.twin.ckptSlot = !w.ckptSlot ∧
      slotCheckpoint t w.ckptSlot = some (m.frame.toNat, joined l) ∧
      counter .checkpointsReceived 0 t = counter .checkpointsReceived 0 s + 1) ∧
    (whole = false → t.twin.ckpt = w.ckpt ∧ t.boot.mram = s.boot.mram ∧
      t.twin.pieces = (if l.length = 8 then [] else l) ∧
      counter .checkpointErrors 0 t = counter .checkpointErrors 0 s + lost + bit (l.length = 8)) := by
  have hexec : exec (.checkpoint m) s = .next (pieceTaken m s) := by
    rw [exec_checkpoint m s hOn, hp, hl, if_neg (by decide), if_neg (by omega)]
  refine ⟨_, hexec, ?_⟩
  obtain ⟨htwin, hboot, herrors, hreceived⟩ :=
    displacedCounted_spec (decide (m.frame.toNat ≠ s.twin.pieceFrame) && !s.twin.pieces.isEmpty) s
  unfold pieceTaken pieceKept
  generalize displacedCounted (decide (m.frame.toNat ≠ s.twin.pieceFrame) && !s.twin.pieces.isEmpty) s = u at *
  generalize piecesWith m s = l
  cases hw : contiguous l && wholeCheckpoint (joined l)
  · rw [if_neg nofun]
    have hckpt : u.twin.ckpt = s.twin.ckpt := congrArg TwinSt.ckpt htwin
    refine ⟨nofun, fun _ => ?_⟩
    split
    · rename_i h8
      rw [counter_count, decide_eq_true h8]
      exact ⟨hckpt, congrArg BootSt.mram hboot, rfl, congrArg (· + 1) herrors⟩
    · rename_i h8
      rw [decide_eq_false h8]
      exact ⟨hckpt, congrArg BootSt.mram hboot, rfl, herrors⟩
  · rw [if_pos rfl]
    have hkeep := keepCheckpoint_spec m.frame.toNat (joined l) { u with twin.pieces := l, twin.pieceFrame := m.frame.toNat }
    have hslot : s.twin.ckptSlot = u.twin.ckptSlot := congrArg TwinSt.ckptSlot htwin.symm
    rw [hslot]
    obtain ⟨h1, h2, h3, h4, h5, h6, h7⟩ := hkeep
    exact ⟨fun _ => ⟨h1, h2, h3, h4, h5, h6, h7.trans (congrArg (· + 1) hreceived)⟩, nofun⟩

/-! The twin alone. -/

theorem exec_unpaired (s : State) (hOn : s.dev.state ≠ .off) (hp : s.twin.paired = false) :
    (∀ m, exec (.heartbeat m) s = .next s ∧ exec (.checkpoint m) s = .next s) ∧
    exec .followerHeartbeatToggle s = .next s ∧ (∀ b, exec (.hbPathDown b) s = .next s) ∧
    exec .twinSkew s = .next s ∧ exec .configMismatch s = .next s ∧ exec .checkpointStale s = .next s := by
  refine ⟨fun m => ⟨?_, ?_⟩, ?_, fun b => ?_, ?_, ?_, ?_⟩
  · rw [exec_heartbeat m s hOn, hp]
    exact congrArg _ (if_pos rfl)
  · rw [exec_checkpoint m s hOn, hp]
    exact congrArg _ (if_pos rfl)
  · rw [exec_followerHeartbeatToggle s hOn, hp]
    exact congrArg _ (if_neg nofun)
  · rw [exec_hbPathDown b s hOn, hp]
    exact congrArg _ (if_neg nofun)
  · rw [exec_twinSkew s hOn, hp]
    exact congrArg _ (if_neg nofun)
  · rw [exec_configMismatch s hOn, hp]
    exact congrArg _ (if_neg nofun)
  · rw [exec_checkpointStale s hOn, hp]
    exact congrArg _ (if_neg nofun)

/-- Settles O57. -/
theorem twinHeartbeatsAndCheckpoints : Obligations.TwinHeartbeatsAndCheckpoints := by
  unfold Obligations.TwinHeartbeatsAndCheckpoints
  refine ⟨checkpointBytes_spec, fun s hOn => ?_⟩
  obtain ⟨hrefused, hedge⟩ := exec_hbInEdge_cases s hOn
  obtain ⟨hpin, hlink, hpinDown, hlinkDown⟩ := exec_hbPathDown_cases s hOn
  obtain ⟨hskew, hnoskew⟩ := exec_twinSkew_cases s hOn
  obtain ⟨hmismatch, hmatch⟩ := exec_configMismatch_cases s hOn
  refine ⟨hrefused, hedge, exec_unpaired s hOn, fun m hq => ?_, exec_heartbeat_heard s hOn, fun hp ha hc => ?_, fun h => ?_, hpin,
    hlink, hpinDown, hlinkDown, hskew, hnoskew, judgeSkew_spec s, hmismatch, hmatch, fun hp hl => ?_, fun m hp hl h => ?_,
    fun hl => ⟨fun m => ?_, ?_⟩, exec_checkpoint_piece s hOn⟩
  · rw [exec_heartbeat m s hOn, hq, Bool.not_false, if_pos (Bool.or_true _)]
  · refine ⟨_, (exec_followerHeartbeatToggle s hOn).trans (congrArg _ (if_pos (by rw [hp, ha, hc]; rfl))), rfl, ?_⟩
    change s.time.tb0 + (tickTime s s.time.frame + periodNs s / 2 - s.time.tb0) = _
    omega
  · rw [exec_followerHeartbeatToggle s hOn, if_neg fun hc => ?_]
    obtain ⟨hpa, hcl⟩ := Bool.and_eq_true_iff.mp hc
    obtain ⟨-, ha⟩ := Bool.and_eq_true_iff.mp hpa
    obtain h | h := h
    · exact absurd (ha.symm.trans h) nofun
    · rw [h] at hcl
      exact absurd hcl nofun
  · exact ⟨_, (exec_checkpointStale s hOn).trans (congrArg _ (if_pos ((follower_iff s).mpr ⟨hp, hl⟩))), rfl, tb2_elapseTo _ s⟩
  · rw [exec_checkpoint m s hOn, hp, hl, if_neg (by decide), if_pos h]
  · rw [exec_checkpoint m s hOn, hl, if_pos (Bool.or_true _)]
  · rw [exec_checkpointStale s hOn, hl, Bool.not_true, Bool.and_false]
    rfl

end Sys2Proof.Proofs
end

section
/-! SUPPORT. The canonical form of the memories and tables that O58 names, and what keeps it. -/

namespace Sys2Proof.Laws
open Sys2Proof Sys2Proof.Machine

/-! The form of one memory or table. -/

theorem tabWf_filter {α : Type} [DecidableEq α] (d : α) (p : Nat × α → Bool) (t : Tab α) (h : tabWf d t = true) :
    tabWf d (t.filter p) = true := by
  simp only [tabWf, Bool.and_eq_true, tabSorted_iff, List.all_eq_true, decide_eq_true_eq] at h ⊢
  exact ⟨h.1.sublist List.filter_sublist, fun e he => h.2 e (List.mem_filter.mp he).1⟩

theorem tabWf_tabMap {α : Type} [DecidableEq α] (d : α) (f : α → α) (t : Tab α) (h : tabWf d t = true) :
    tabWf d (tabMap d f t) = true := by
  simp only [tabWf, Bool.and_eq_true, tabSorted_iff, List.all_eq_true, decide_eq_true_eq] at h ⊢
  have hmap : (t.map fun e => (e.1, f e.2)).Pairwise (fun a b => a.1 < b.1) := List.pairwise_map.mpr h.1
  exact ⟨hmap.sublist List.filter_sublist, fun e he => of_decide_eq_true (List.mem_filter.mp he).2⟩

/-! The six together. -/

/-- The canonical form of the four memories and the two tables. -/
def CanonParts (host dram mram shared : Memory) (rings : Tab (Option HostRing)) (owners : Tab (Option (Nat × Nat))) : Prop :=
  memWf host = true ∧ memWf dram = true ∧ memWf mram = true ∧ memWf shared = true ∧ tabWf none rings = true ∧
    tabWf none owners = true

/-- The memories and tables of a state are in their canonical form. -/
def Canon (s : State) : Prop :=
  CanonParts s.host.mem s.dram.mem s.boot.mram s.peg.shared s.out.rings s.clasp.owners

section
variable {h d m p : Memory} {r : Tab (Option HostRing)} {o : Tab (Option (Nat × Nat))}

@[simp] theorem canonParts_host (a : Nat) (l : List Byte) (hc : CanonParts h d m p r o) :
    CanonParts (memWrite h a l) d m p r o := ⟨memWf_memWrite h a l hc.1, hc.2⟩

@[simp] theorem canonParts_dram (a : Nat) (l : List Byte) (hc : CanonParts h d m p r o) :
    CanonParts h (memWrite d a l) m p r o := ⟨hc.1, memWf_memWrite d a l hc.2.1, hc.2.2⟩

@[simp] theorem canonParts_mram (a : Nat) (l : List Byte) (hc : CanonParts h d m p r o) :
    CanonParts h d (memWrite m a l) p r o := ⟨hc.1, hc.2.1, memWf_memWrite m a l hc.2.2.1, hc.2.2.2⟩

@[simp] theorem canonParts_shared (a : Nat) (l : List Byte) (hc : CanonParts h d m p r o) :
    CanonParts h d m (memWrite p a l) r o := ⟨hc.1, hc.2.1, hc.2.2.1, memWf_memWrite p a l hc.2.2.2.1, hc.2.2.2.2⟩

@[simp] theorem canonParts_rings (k : Nat) (x : Option HostRing) (hc : CanonParts h d m p r o) :
    CanonParts h d m p (tabSet none r k x) o :=
  ⟨hc.1, hc.2.1, hc.2.2.1, hc.2.2.2.1, tabWf_tabSet none r k x hc.2.2.2.2.1, hc.2.2.2.2.2⟩

@[simp] theorem canonParts_rings_mod (k : Nat) (f : Option HostRing → Option HostRing) (hc : CanonParts h d m p r o) :
    CanonParts h d m p (tabMod none r k f) o := canonParts_rings k _ hc

@[simp] theorem canonParts_rings_map (f : Option HostRing → Option HostRing) (hc : CanonParts h d m p r o) :
    CanonParts h d m p (tabMap none f r) o :=
  ⟨hc.1, hc.2.1, hc.2.2.1, hc.2.2.2.1, tabWf_tabMap none f r hc.2.2.2.2.1, hc.2.2.2.2.2⟩

@[simp] theorem canonParts_owners (k : Nat) (x : Option (Nat × Nat)) (hc : CanonParts h d m p r o) :
    CanonParts h d m p r (tabSet none o k x) :=
  ⟨hc.1, hc.2.1, hc.2.2.1, hc.2.2.2.1, hc.2.2.2.2.1, tabWf_tabSet none o k x hc.2.2.2.2.2⟩

@[simp] theorem canonParts_owners_filter (f : Nat × Option (Nat × Nat) → Bool) (hc : CanonParts h d m p r o) :
    CanonParts h d m p r (o.filter f) :=
  ⟨hc.1, hc.2.1, hc.2.2.1, hc.2.2.2.1, hc.2.2.2.2.1, tabWf_filter none f o hc.2.2.2.2.2⟩

@[simp] theorem canonParts_mram_filter (f : Nat × Byte → Bool) (hc : CanonParts h d m p r o) :
    CanonParts h d (m.filter f) p r o := ⟨hc.1, hc.2.1, tabWf_filter emptyByte f m hc.2.2.1, hc.2.2.2⟩

@[simp] theorem canonParts_noDram (hc : CanonParts h d m p r o) : CanonParts h [] m p r o := ⟨hc.1, rfl, hc.2.2⟩

@[simp] theorem canonParts_noShared (hc : CanonParts h d m p r o) : CanonParts h d m [] r o :=
  ⟨hc.1, hc.2.1, hc.2.2.1, rfl, hc.2.2.2.2⟩

@[simp] theorem canonParts_noRings (hc : CanonParts h d m p r o) : CanonParts h d m p [] o :=
  ⟨hc.1, hc.2.1, hc.2.2.1, hc.2.2.2.1, rfl, hc.2.2.2.2.2⟩

@[simp] theorem canonParts_noOwners (hc : CanonParts h d m p r o) : CanonParts h d m p r [] :=
  ⟨hc.1, hc.2.1, hc.2.2.1, hc.2.2.2.1, hc.2.2.2.2.1, rfl⟩

end

/-- A state written out field by field. -/
@[simp] theorem canon_mk (power dev time compass lanes ingest chan store arrays beam clasp facet pack out sched peg dram host evr tether
    dma boot health recorder twin loads services reads counters fresh pending) :
    Canon (State.mk power dev time compass lanes ingest chan store arrays beam clasp facet pack out sched peg dram host evr tether
      dma boot health recorder twin loads services reads counters fresh pending) ↔
    CanonParts host.mem dram.mem boot.mram peg.shared out.rings clasp.owners := Iff.rfl

@[simp] theorem canonParts_self (s : State) :
    CanonParts s.host.mem s.dram.mem s.boot.mram s.peg.shared s.out.rings s.clasp.owners ↔ Canon s := Iff.rfl

@[simp] theorem canon_ite (c : Prop) [Decidable c] (a b : State) : Canon (if c then a else b) ↔ if c then Canon a else Canon b := by
  split <;> rfl

theorem canon_ite_of {c : Prop} [Decidable c] {a b : State} (ha : Canon a) (hb : Canon b) : Canon (if c then a else b) := by
  split
  · exact ha
  · exact hb

@[simp] theorem canon_foldl {α : Type} (f : State → α → State) (hf : ∀ s x, Canon s → Canon (f s x)) (l : List α) (s : State)
    (h : Canon s) : Canon (l.foldl f s) := by
  induction l generalizing s with
  | nil => exact h
  | cons x l ih => exact ih (f s x) (hf s x h)

@[simp] theorem canon_foldl_iff {α : Type} (f : State → α → State) (hf : ∀ s x, Canon (f s x) ↔ Canon s) (l : List α) (s : State) :
    Canon (l.foldl f s) ↔ Canon s := by
  induction l generalizing s with
  | nil => rfl
  | cons x l ih => exact (ih (f s x)).trans (hf s x)

/-! What the simp lemmas about single fields leave open. -/

@[simp] theorem draw_others (s : State) : (draw s).2.host = s.host ∧ (draw s).2.boot = s.boot ∧ (draw s).2.peg = s.peg ∧
    (draw s).2.out = s.out ∧ (draw s).2.clasp = s.clasp := ⟨rfl, rfl, rfl, rfl, rfl⟩

@[simp] theorem freeBytes_others (n : Nat) (s : State) : (freeBytes n s).2.host = s.host ∧ (freeBytes n s).2.boot = s.boot ∧
    (freeBytes n s).2.peg = s.peg ∧ (freeBytes n s).2.out = s.out ∧ (freeBytes n s).2.clasp = s.clasp := by
  induction n generalizing s with
  | zero => exact ⟨rfl, rfl, rfl, rfl, rfl⟩
  | succ n ih =>
    obtain ⟨h1, h2, h3, h4, h5⟩ := ih (draw s).2
    exact ⟨h1, h2, h3, h4, h5⟩

@[simp] theorem bankAccess_others (c loc : Nat) (s : State) : (bankAccess c loc s).host = s.host ∧
    (bankAccess c loc s).boot = s.boot ∧ (bankAccess c loc s).peg = s.peg ∧ (bankAccess c loc s).out = s.out ∧
    (bankAccess c loc s).clasp = s.clasp := by
  unfold bankAccess pageAccess
  dsimp only
  refine ⟨?_, ?_, ?_, ?_, ?_⟩ <;> (repeat' split) <;> rfl

@[simp] theorem modEgress_rings (k : Nat) (f : EgressQuad → EgressQuad) (s : State) :
    (modEgress k f s).out.rings = s.out.rings := rfl

@[simp] theorem modPeg_shared (k : Nat) (f : Peg → Peg) (s : State) : (modPeg k f s).peg.shared = s.peg.shared := rfl

@[simp] theorem modSlot_hostMem (k : Nat) (f : Slot → Slot) (s : State) : (modSlot k f s).host.mem = s.host.mem := rfl

@[simp] theorem modCause_hostMem (k : Nat) (f : IntCause → IntCause) (s : State) : (modCause k f s).host.mem = s.host.mem := rfl

@[simp] theorem sendMessage_hostMem (c : Nat) (s : State) : (sendMessage c s).host.mem = s.host.mem := rfl

@[simp] theorem interrupt_hostMem (c : Nat) (s : State) : (interrupt c s).host.mem = s.host.mem := by
  unfold interrupt
  dsimp only
  (repeat' split) <;> rfl

@[simp] theorem respond_hostMem (o : Nat) (q : Request) (st : Status) (d n : Nat) (l : List Byte) (s : State) :
    (respond o q st d n l s).host.mem = s.host.mem := by
  unfold respond
  dsimp only
  (repeat' split) <;> simp

@[simp] theorem settle_hostMem (c : Instr) (q : Request) (s : State) : (settle c q s).host.mem = s.host.mem := rfl

@[simp] theorem finish_hostMem (c : Instr) (o : Nat) (q : Request) (st : Status) (b d : Nat) (e : List Byte) (s : State) :
    (finish c o q st b d e s).host.mem = s.host.mem := rfl

@[simp] theorem owe_hostMem (c : Instr) (q : Request) (s : State) : (owe c q s).host.mem = s.host.mem := rfl

@[simp] theorem countEcc_others (c : Ctr) (n : Nat) (e : Ecc) (s : State) : (countEcc c n e s).host = s.host ∧
    (countEcc c n e s).dram = s.dram ∧ (countEcc c n e s).boot = s.boot ∧ (countEcc c n e s).out = s.out ∧
    (countEcc c n e s).clasp = s.clasp := by
  cases e <;> exact ⟨rfl, rfl, rfl, rfl, rfl⟩

/-- An outcome that goes on does so in canonical form. -/
def OutCanon (o : Out) : Prop := ∀ t, o = .next t → Canon t

@[simp] theorem outCanon_next (s : State) : OutCanon (.next s) ↔ Canon s :=
  ⟨fun h => h s rfl, fun h t ht => Host.Outcome.next.inj ht ▸ h⟩

@[simp] theorem outCanon_fault (f) : OutCanon (.fault f) := fun _ h => by injection h

@[simp] theorem outCanon_ite (c : Prop) [Decidable c] (a b : Out) :
    OutCanon (if c then a else b) ↔ if c then OutCanon a else OutCanon b := by
  split <;> rfl

@[simp] theorem outCanon_whenOn (f : State → State) (s : State) (hf : ∀ s, Canon s → Canon (f s)) (h : Canon s) :
    OutCanon (whenOn f s) := by
  unfold whenOn
  rw [outCanon_next, canon_ite]
  split
  · exact h
  · exact hf s h

end Sys2Proof.Laws
end

section
/-! SUPPORT. What keeps the canonical form of the memories: the shared operations, DRAM, the store, DMA,
records, the Clasp, the arrays and the beams. -/

namespace Sys2Proof.Laws
open Sys2Proof Sys2Proof.Machine

variable {s : State}

/-! Ops. -/

@[simp] theorem canon_draw : Canon ((draw s).2) ↔ Canon s := by simp [draw]

@[simp] theorem canon_freeBytes (n : Nat) : Canon (freeBytes n s).2 ↔ Canon s := by
  induction n generalizing s with
  | zero => rfl
  | succ n ih => simp [freeBytes, ih]

@[simp] theorem canon_countN (c) (inst) (n) : Canon (countN c inst n s) ↔ Canon s := by simp [countN]
@[simp] theorem canon_count (c) (inst) : Canon (count c inst s) ↔ Canon s := by simp [count]
@[simp] theorem canon_clearCtr (c) (inst) : Canon (clearCtr c inst s) ↔ Canon s := by simp [clearCtr]
@[simp] theorem canon_clearCtrs (cs) (inst) : Canon (clearCtrs cs inst s) ↔ Canon s := by simp [clearCtrs]
@[simp] theorem canon_modQuad (k) (f) : Canon (modQuad k f s) ↔ Canon s := by simp [modQuad]
@[simp] theorem canon_modLane (k) (f) : Canon (modLane k f s) ↔ Canon s := by simp [modLane]
@[simp] theorem canon_modStream (k) (f) : Canon (modStream k f s) ↔ Canon s := by simp [modStream]
@[simp] theorem canon_modDelay (k) (f) : Canon (modDelay k f s) ↔ Canon s := by simp [modDelay]
@[simp] theorem canon_modSlice (k) (f) : Canon (modSlice k f s) ↔ Canon s := by simp [modSlice]
@[simp] theorem canon_modUnit (k) (f) : Canon (modUnit k f s) ↔ Canon s := by simp [modUnit]
@[simp] theorem canon_modArray (k) (f) : Canon (modArray k f s) ↔ Canon s := by simp [modArray]
@[simp] theorem canon_modEngine (k) (f) : Canon (modEngine k f s) ↔ Canon s := by simp [modEngine]
@[simp] theorem canon_modEgress (k) (f) : Canon (modEgress k f s) ↔ Canon s := by simp [modEgress]
@[simp] theorem canon_setRingRead (k) (v) : Canon (setRingRead k v s) ↔ Canon s := by simp [setRingRead]
@[simp] theorem canon_modPeg (k) (f) : Canon (modPeg k f s) ↔ Canon s := by simp [modPeg]
@[simp] theorem canon_modDram (k) (f) : Canon (modDram k f s) ↔ Canon s := by simp [modDram]
@[simp] theorem canon_modSlot (k) (f) : Canon (modSlot k f s) ↔ Canon s := by simp [modSlot]
@[simp] theorem canon_modDma (k) (f) : Canon (modDma k f s) ↔ Canon s := by simp [modDma]
@[simp] theorem canon_modPort (k) (f) : Canon (modPort k f s) ↔ Canon s := by simp [modPort]
@[simp] theorem canon_modZone (k) (f) : Canon (modZone k f s) ↔ Canon s := by simp [modZone]
@[simp] theorem canon_modSensor (k) (f) : Canon (modSensor k f s) ↔ Canon s := by simp [modSensor]
@[simp] theorem canon_modInject (k) (f) : Canon (modInject k f s) ↔ Canon s := by simp [modInject]
@[simp] theorem canon_modFan (k) (f) : Canon (modFan k f s) ↔ Canon s := by simp [modFan]
@[simp] theorem canon_modSource (k) (f) : Canon (modSource k f s) ↔ Canon s := by simp [modSource]
@[simp] theorem canon_modOut (k) (f) : Canon (modOut k f s) ↔ Canon s := by simp [modOut]
@[simp] theorem canon_setTrigger (k) (a1) : Canon (setTrigger k a1 s) ↔ Canon s := by simp [setTrigger]
@[simp] theorem canon_modCause (c) (f) : Canon (modCause c f s) ↔ Canon s := by simp [modCause]
@[simp] theorem canon_modPin (k) (f) : Canon (modPin k f s) ↔ Canon s := by simp [modPin]
@[simp] theorem canon_elapse (n) : Canon (elapse n s) ↔ Canon s := by simp [elapse]
@[simp] theorem canon_elapseTo (a0) : Canon (elapseTo a0 s) ↔ Canon s := by simp [elapseTo]
@[simp] theorem canon_sendMessage (c) : Canon (sendMessage c s) ↔ Canon s := by simp [sendMessage]
@[simp] theorem canon_interrupt (c) : Canon (interrupt c s) ↔ Canon s := by simp [interrupt]

@[simp] theorem canon_raiseEvent (gts) (code) (src) (alarm) (completion) (m) (payload) :
    Canon (raiseEvent gts code src alarm completion m payload s) ↔ Canon s := by
  simp [raiseEvent]

@[simp] theorem canon_raise (code) (src) (m) (rest) : Canon (raise code src m rest s) ↔ Canon s := by simp [raise]

@[simp] theorem canon_raiseOpen (alarm) (high) (src) (m) (rest) : Canon (raiseOpen alarm high src m rest s) ↔ Canon s := by
  simp [raiseOpen]

@[simp] theorem canon_complete (code) (src) (op) (q) (txn) (st) (bytes) (detail) (extra) :
    Canon (complete code src op q txn st bytes detail extra s) ↔ Canon s := by
  simp [complete]

@[simp] theorem canon_respond (op) (q) (st) (detail) (txn) (result) : Canon (respond op q st detail txn result s) ↔ Canon s := by
  simp [respond]

@[simp] theorem canon_settle (c) (q) : Canon (settle c q s) ↔ Canon s := by simp [settle]

@[simp] theorem canon_finish (c) (op) (q) (st) (bytes) (detail) (extra) :
    Canon (finish c op q st bytes detail extra s) ↔ Canon s := by
  simp [finish]

@[simp] theorem canon_portGrant (p) (g) (r) : Canon (portGrant p g r s) ↔ Canon s := by simp [portGrant]

theorem canon_portRunWith (f : PortReq → State → State) (now p n : Nat) (hf : ∀ r s, Canon s → Canon (f r s)) (hs : Canon s) :
    Canon (portRunWith f now p n s) := by
  induction n generalizing s with
  | zero => exact hs
  | succ n ih =>
    unfold portRunWith
    split
    · split
      · exact ih (hf _ _ ((canon_portGrant ..).mpr hs))
      · exact hs
    · exact hs

@[simp] theorem canon_portFail (p) : Canon (portFail p s) ↔ Canon s := by simp [portFail]

@[simp] theorem canon_setState (new : DevState) (cause : Nat) (hs : Canon s) : Canon (setState new cause s) := by
  have hrun : ∀ n, Canon (portRunWith (fun _ s => s) s.time.tb2 2 n s) := fun n =>
    canon_portRunWith _ _ _ n (fun _ _ hs => hs) hs
  unfold setState
  split
  · exact hs
  · dsimp only
    split <;> simp [hs, hrun]

@[simp] theorem canon_setAlarm (code) (inst) (on) : Canon (setAlarm code inst on s) ↔ Canon s := by simp [setAlarm]
@[simp] theorem canon_setCause (c) (on) : Canon (setCause c on s) ↔ Canon s := by simp [setCause]
@[simp] theorem canon_noteAbandon (kind) (insts) (n) : Canon (noteAbandon kind insts n s) ↔ Canon s := by simp [noteAbandon]
@[simp] theorem canon_checkStorms : Canon (checkStorms s) ↔ Canon s := by simp [checkStorms]

@[simp] theorem canon_expireTxn : Canon (expireTxn s) ↔ Canon s := by
  unfold expireTxn
  (repeat' split) <;> simp

@[simp] theorem canon_rejectCommit (st : Status) (d : Nat) : Canon (rejectCommit st d s) ↔ Canon s := by
  unfold rejectCommit
  (repeat' split) <;> simp

@[simp] theorem canon_callSafe (cause) : Canon (callSafe cause s) ↔ Canon s := by simp [callSafe]
@[simp] theorem canon_endTxnForState : Canon (endTxnForState s) ↔ Canon s := by simp [endTxnForState]

/-! DramCore. -/

@[simp] theorem canon_pageAccess (ch) (bank) (row) : Canon (pageAccess ch bank row s) ↔ Canon s := by simp [pageAccess]
@[simp] theorem canon_bankAccess (ch) (loc) : Canon (bankAccess ch loc s) ↔ Canon s := by simp [bankAccess]
@[simp] theorem canon_countUes (n) (ch) (addr) : Canon (countUes n ch addr s) ↔ Canon s := by simp [countUes]
@[simp] theorem canon_countUe (ch) (addr) : Canon (countUe ch addr s) ↔ Canon s := by simp [countUe]
@[simp] theorem canon_countCe (ch) (dev) : Canon (countCe ch dev s) ↔ Canon s := by simp [countCe]

@[simp] theorem canon_issueWrite (addr) (bytes) (hs : Canon s) : Canon (issueWrite addr bytes s) := by
  unfold issueWrite
  (repeat' split) <;> simp [hs]

@[simp] theorem canon_readBurst (a : Nat) (l : List Nat) (hs : Canon s) : Canon (readBurst a l s).2 := by
  unfold readBurst
  dsimp only
  (repeat' split) <;> simp [hs]

@[simp] theorem canon_issueReq (r) (hs : Canon s) : Canon (issueReq r s) := by
  unfold issueReq
  (repeat' split) <;> simp [hs]

@[simp] theorem canon_takeReq (r) (hs : Canon s) : Canon (takeReq r s) := by
  simp [takeReq, hs]

@[simp] theorem canon_serveN (n : Nat) (p : DramReq → Bool) (hs : Canon s) : Canon (serveN n p s) := by
  induction n generalizing s with
  | zero => exact hs
  | succ n ih =>
    unfold serveN
    split
    · exact hs
    · exact ih (canon_takeReq _ hs)

@[simp] theorem canon_serveFirst (c) (on) (hs : Canon s) : Canon (serveFirst c on s) := by
  simp [serveFirst, hs]

@[simp] theorem canon_drainBurst (addr) (hs : Canon s) : Canon (drainBurst addr s) := by
  simp [drainBurst, hs]

@[simp] theorem canon_fetchBurst (cls a : Nat) (l : List Nat) (hs : Canon s) : Canon (fetchBurst cls a l s).2 := by
  unfold fetchBurst
  dsimp only
  split
  · exact canon_readBurst a l hs
  · refine canon_readBurst a l (canon_drainBurst a (canon_serveFirst cls _ ?_))
    split <;> simp [hs]

@[simp] theorem canon_fetchBursts (cls : Nat) (l : List (Nat × List Nat)) (hs : Canon s) : Canon (fetchBursts cls l s).2 := by
  induction l generalizing s with
  | nil => exact hs
  | cons e l ih => exact ih (canon_fetchBurst cls e.1 e.2 hs)

@[simp] theorem canon_dramFetch (cls) (addr) (n) (hs : Canon s) : Canon ((dramFetch cls addr n s).2.2) := by
  simp [dramFetch, hs]

@[simp] theorem canon_fetchUntil (cls : Nat) (l : List (Nat × List Nat)) (hs : Canon s) : Canon (fetchUntil cls l s).2 := by
  induction l generalizing s with
  | nil => exact hs
  | cons e l ih =>
    have h := canon_fetchBurst cls e.1 e.2 hs
    unfold fetchUntil
    dsimp only
    split
    · exact h
    · exact ih h

@[simp] theorem canon_queueReq (r) : Canon (queueReq r s) ↔ Canon s := by simp [queueReq]
@[simp] theorem canon_queueWrite (addr) (cls) (bytes) : Canon (queueWrite addr cls bytes s) ↔ Canon s := by simp [queueWrite]
@[simp] theorem canon_putCopies (k) (l) : Canon (putCopies k l s) ↔ Canon s := by simp [putCopies]

/-! Crossbar. -/

@[simp] theorem canon_portStore (p) (r) (hs : Canon s) : Canon (portStore p r s) := by
  simp [portStore, hs]

@[simp] theorem canon_portSettle (p : Nat) (hs : Canon s) : Canon (portSettle p s) := by
  unfold portSettle
  split
  · simp [hs]
  · exact canon_portRunWith _ _ _ _ (fun _ _ hs => canon_portStore _ _ hs) hs

@[simp] theorem canon_portUntil (m p n : Nat) (hs : Canon s) : Canon (portUntil m p n s) := by
  induction n generalizing s with
  | zero => exact hs
  | succ n ih =>
    unfold portUntil
    split
    · exact hs
    · split
      · exact ih (canon_portStore _ _ ((canon_portGrant ..).mpr hs))
      · exact hs

@[simp] theorem canon_portJoin (p) (r) : Canon (portJoin p r s) ↔ Canon s := by simp [portJoin]

@[simp] theorem canon_portServe (w m p a n : Nat) (hs : Canon s) : Canon (portServe w m p a n s) :=
  canon_foldl _ (fun _ _ hs => by
    dsimp only
    rw [canon_modPort]
    exact canon_portUntil _ _ _ ((canon_portJoin ..).mpr (canon_portUntil _ _ _ (canon_portSettle _ hs)))) _ _ hs

@[simp] theorem canon_defaultTarget (m) (a) (write) : Canon (defaultTarget m a write s) ↔ Canon s := by simp [defaultTarget]
@[simp] theorem canon_resetAnswer (p) : Canon (resetAnswer p s) ↔ Canon s := by simp [resetAnswer]

@[simp] theorem canon_noteDesc (ch) (code) (tag) (residue) : Canon (noteDesc ch code tag residue s) ↔ Canon s := by
  simp [noteDesc]

@[simp] theorem canon_countStop (code) : Canon (countStop code s) ↔ Canon s := by simp [countStop]

@[simp] theorem canon_putPieces (ch : Nat) (l : List (Nat × List Byte)) (hs : Canon s) : Canon (putPieces ch l s).2.2 := by
  induction l generalizing s with
  | nil => exact hs
  | cons e l ih =>
    unfold putPieces
    dsimp only
    split
    · split <;> simp [hs]
    · refine ih ((canon_countN ..).mpr (canon_portServe _ _ _ _ _ ?_))
      simp [hs]

@[simp] theorem canon_chanWrite (ch) (l) (hs : Canon s) : Canon ((chanWrite ch l s).2) := by
  simp [chanWrite, hs]

@[simp] theorem canon_getPieces (ch : Nat) (l : List (Nat × Nat)) (hs : Canon s) : Canon (getPieces ch l s).2 := by
  induction l generalizing s with
  | nil => exact hs
  | cons e l ih =>
    unfold getPieces
    split
    · simp [hs]
    · exact ih ((canon_countN ..).mpr (canon_portServe _ _ _ _ _ hs))

@[simp] theorem canon_chanRead (ch) (a) (n) (hs : Canon s) : Canon ((chanRead ch a n s).2.2) := by
  simp [chanRead, hs]

/-! Operands. -/

@[simp] theorem canon_bulkFetch (b) (hs : Canon s) : Canon ((bulkFetch b s).2.2) := by
  unfold bulkFetch
  dsimp only
  (repeat' split) <;> simp [hs]

@[simp] theorem canon_bulkPut (b) (bytes) (hs : Canon s) : Canon ((bulkPut b bytes s).2) := by
  unfold bulkPut
  dsimp only
  (repeat' split) <;> simp [hs]

@[simp] theorem canon_clearShown (a0) (a1) (a2) (h2 : ∀ x s, Canon (a2 x s) ↔ Canon s) :
    Canon (clearShown a0 a1 a2 s) ↔ Canon s := by
  simp [clearShown, h2]

@[simp] theorem canon_ackShown (a0) (a1) (a2) (h2 : ∀ x s, Canon (a2 x s) ↔ Canon s) : Canon (ackShown a0 a1 a2 s) ↔ Canon s := by
  simp [ackShown, h2]

/-! Request. -/

@[simp] theorem canon_touchTxn (k) (q) : Canon (touchTxn k q s) ↔ Canon s := by simp [touchTxn]
@[simp] theorem canon_stage (k) (c) (bytes) : Canon (stage k c bytes s) ↔ Canon s := by simp [stage]
@[simp] theorem canon_owe (c) (q) : Canon (owe c q s) ↔ Canon s := by simp [owe]

theorem canon_kenraStep (c : Instr) (k : Spec) (q : Request) (hs : Canon s) (hact : ∀ q s, Canon s → Canon (k.act q s)) :
    Canon (kenraStep c k q s) := by
  unfold kenraStep
  dsimp only
  (repeat' split) <;> simp [hs, hact]

theorem outCanon_whenActive (hs : Canon s) (c : Instr) (f : State → State) (hf : ∀ s, Canon s → Canon (f s)) :
    OutCanon (whenActive c f s) :=
  outCanon_whenOn _ _ (fun s hs => by
    split
    · exact hf s hs
    · exact hs) hs

theorem outCanon_kenra (hs : Canon s) (c : Instr) (k : Spec) (q : Request) (hact : ∀ q s, Canon s → Canon (k.act q s)) :
    OutCanon (kenra c k q s) :=
  outCanon_whenActive hs c _ fun _ hs => canon_kenraStep c k q hs hact

/-! Dma. -/

@[simp] theorem canon_spaceRead (space) (addr) (n) (bad) (hs : Canon s) : Canon ((spaceRead space addr n bad s).2.2) := by
  unfold spaceRead
  (repeat' split) <;> simp [hs]

@[simp] theorem canon_spaceWrite (space) (addr) (bytes) (hs : Canon s) : Canon (spaceWrite space addr bytes s) := by
  unfold spaceWrite
  (repeat' split) <;> simp [hs]

@[simp] theorem canon_putBeats (space a : Nat) (l : List (List Byte)) (hs : Canon s) : Canon (putBeats space a l s) := by
  induction l generalizing a s with
  | nil => exact hs
  | cons b t ih => exact ih _ (canon_spaceWrite _ _ _ hs)

@[simp] theorem canon_dmaError (ch) (code) (last) : Canon (dmaError ch code last s) ↔ Canon s := by simp [dmaError]

theorem canon_targetStop (m space a n : Nat) {t : State} {c : Nat} (h : targetStop m space a n s = some (c, t)) (hs : Canon s) :
    Canon t := by
  unfold targetStop at h
  dsimp only at h
  (repeat' split at h) <;> simp at h <;> obtain ⟨-, rfl⟩ := h <;> simp [hs]

@[simp] theorem canon_readBurstOf (ch : Nat) (d : Desc) (ans : BurstAnswer) (hs : Canon s) : Canon (readBurstOf ch d ans s) := by
  unfold readBurstOf
  dsimp only
  generalize hu : (if ((dmaCh s ch).fetched = 0 && descOverlap d) = true then count .overlap ch s else s) = u
  have h : Canon u := by
    rw [← hu]
    split <;> simp [hs]
  split
  · simp [h]
  · split
    · next heq => simp [canon_targetStop _ _ _ _ heq h]
    · split
      · simp [h]
      · split <;> simp [h]

@[simp] theorem canon_writeBurstOf (ch : Nat) (d : Desc) (ans : BurstAnswer) (hs : Canon s) :
    Canon (writeBurstOf ch d ans s) := by
  unfold writeBurstOf
  split
  · exact hs
  · dsimp only
    split
    · simp [hs]
    · split
      · simp [hs]
      · split
        · next heq => simp [canon_targetStop _ _ _ _ heq hs]
        · split
          · simp [hs]
          · split
            · simp [hs]
            · rw [canon_modDma]
              refine canon_putBeats _ _ _ ?_
              simp [hs]

@[simp] theorem canon_dmaReadTurn (ch) (ans) (hs : Canon s) : Canon (dmaReadTurn ch ans s) := by
  unfold dmaReadTurn
  (repeat' split) <;> simp [hs]

@[simp] theorem canon_dmaWriteTurn (ch) (ans) (hs : Canon s) : Canon (dmaWriteTurn ch ans s) := by
  unfold dmaWriteTurn
  (repeat' split) <;> simp [hs]

theorem outCanon_execDmaBurst (ch) (part) (ans) (hs : Canon s) :
    OutCanon (execDmaBurst ch part ans s) := outCanon_whenOn _ _ (fun s hs => by
  (repeat' split) <;> simp [hs]) hs

@[simp] theorem canon_completeDesc (ch) (d) (code) (residue) : Canon (completeDesc ch d code residue s) ↔ Canon s := by
  simp [completeDesc]

@[simp] theorem canon_completeAborted (ch n : Nat) (hs : Canon s) : Canon (completeAborted ch n s) := by
  induction n generalizing s with
  | zero => exact hs
  | succ n ih =>
    unfold completeAborted
    split
    · split
      · exact ih (by simp [hs])
      · exact hs
    · exact hs

theorem outCanon_execDmaDescriptorComplete (ch) (hs : Canon s) :
    OutCanon (execDmaDescriptorComplete ch s) := outCanon_whenOn _ _ (fun s hs => by
  dsimp only
  (repeat' split) <;> simp [hs]) hs

@[simp] theorem canon_specDmaCopy (q : Request) : Canon (specDmaCopy.act q s) ↔ Canon s := by simp [specDmaCopy]

theorem outCanon_execDmaCopy (q) (hs : Canon s) : OutCanon (execDmaCopy q s) :=
  outCanon_kenra hs _ _ _ fun q s hs => by simp [hs]

@[simp] theorem canon_abortChannel (ch) : Canon (abortChannel s ch) ↔ Canon s := by
  unfold abortChannel
  dsimp only
  (repeat' split) <;> simp

@[simp] theorem canon_specDmaAbort (q : Request) : Canon (specDmaAbort.act q s) ↔ Canon s := by simp [specDmaAbort]

theorem outCanon_execDmaAbort (q) (hs : Canon s) : OutCanon (execDmaAbort q s) :=
  outCanon_kenra hs _ _ _ fun q s hs => by simp [hs]

@[simp] theorem canon_clearDma (a) : Canon (clearDma a s) ↔ Canon s := by simp [clearDma]

@[simp] theorem canon_specDmaStatus (q : Request) (hs : Canon s) : Canon (specDmaStatus.act q s) := by
  simp +contextual [specDmaStatus, hs]

theorem outCanon_execDmaStatus (q) (hs : Canon s) : OutCanon (execDmaStatus q s) :=
  outCanon_kenra hs _ _ _ fun q s hs => by simp [hs]

/-! Dram. -/

@[simp] theorem canon_reportUe (storeLen) (gts) (ch) : Canon (reportUe storeLen gts ch s) ↔ Canon s := by
  unfold reportUe
  (repeat' split) <;> simp

theorem outCanon_execChannelLost (ch) (cause) (hs : Canon s) :
    OutCanon (execChannelLost ch cause s) := outCanon_whenOn _ _ (fun s hs => by
  (repeat' split) <;> simp +contextual [hs]) hs

@[simp] theorem canon_reissue (ch) (n) : Canon (reissue ch n s) ↔ Canon s := by simp [reissue]

theorem outCanon_execDramWrite (ch) (reissues) (hs : Canon s) :
    OutCanon (execDramWrite ch reissues s) := outCanon_whenOn _ _ (fun s hs => by
  dsimp only
  (repeat' split) <;> simp [hs]) hs

@[simp] theorem canon_closeRow (ch) (bank) : Canon (closeRow ch bank s) ↔ Canon s := by simp [closeRow]

theorem outCanon_execRefresh (ch) (bank) (postpone) (hs : Canon s) : OutCanon (execRefresh ch bank postpone s) := by
  simp [execRefresh, hs]

theorem outCanon_execPageIdleClose (ch) (bank) (hs : Canon s) : OutCanon (execPageIdleClose ch bank s) := by
  simp [execPageIdleClose, hs]

@[simp] theorem canon_recentreBursts (c : Nat) (hs : Canon s) : Canon (recentreBursts c s) := by
  have hput : ∀ (l : List (Nat × List Byte)) (s : State), Canon s →
      Canon (l.foldl (fun s e => (readBurst e.1 [] (issueWrite e.1 e.2 s)).2) s) :=
    fun l s hs => canon_foldl _ (fun _ _ hs => canon_readBurst _ _ (canon_issueWrite _ _ hs)) l s hs
  unfold recentreBursts
  dsimp only
  split
  · exact hput _ _ ((canon_freeBytes _).mpr (hput _ _ (by simp [hs])))
  · simp [hs]

theorem outCanon_execRecentre (byteLane) (readCentre) (writeCentre) (window) (ue) (hs : Canon s) :
    OutCanon (execRecentre byteLane readCentre writeCentre window ue s) := outCanon_whenOn _ _ (fun s hs => by
  (repeat' split) <;> simp [hs]) hs

theorem outCanon_execDimmTempPoll (ch) (dimm) (temp) (hs : Canon s) : OutCanon (execDimmTempPoll ch dimm temp s) := by
  simp [execDimmTempPoll, hs]

@[simp] theorem canon_centreLane (lanes) (k) : Canon (centreLane lanes s k) ↔ Canon s := by
  unfold centreLane
  (repeat' split) <;> simp

@[simp] theorem canon_trainChannel (lanes) (c) : Canon (trainChannel lanes s c) ↔ Canon s := by simp [trainChannel]
@[simp] theorem canon_specDramConfig (q : Request) : Canon (specDramConfig.act q s) ↔ Canon s := by simp [specDramConfig]

theorem outCanon_execDramConfig (q) (hs : Canon s) : OutCanon (execDramConfig q s) :=
  outCanon_kenra hs _ _ _ fun q s hs => by simp [hs]

@[simp] theorem canon_specDramRetrain (q : Request) : Canon (specDramRetrain.act q s) ↔ Canon s := by simp [specDramRetrain]

theorem outCanon_execDramRetrain (q) (hs : Canon s) : OutCanon (execDramRetrain q s) :=
  outCanon_kenra hs _ _ _ fun q s hs => by simp [hs]

theorem outCanon_execDramRetrainDone (passed) (lanes) (hs : Canon s) :
    OutCanon (execDramRetrainDone passed lanes s) := outCanon_whenOn _ _ (fun s hs => by
  (repeat' split) <;> simp +contextual [hs]) hs

@[simp] theorem canon_specDramStatus (q : Request) : Canon (specDramStatus.act q s) ↔ Canon s := by simp [specDramStatus]

theorem outCanon_execDramStatus (q) (hs : Canon s) : OutCanon (execDramStatus q s) :=
  outCanon_kenra hs _ _ _ fun q s hs => by simp [hs]

/-! Geometry. -/

@[simp] theorem canon_unitReset (key) (n) : Canon (unitReset key n s) ↔ Canon s := by simp [unitReset]
@[simp] theorem canon_unitStart (key) (n) : Canon (unitStart key n s) ↔ Canon s := by simp [unitStart]

/-! Gul. -/

@[simp] theorem canon_putBlock (l) (parity) (w) : Canon (putBlock l parity w s) ↔ Canon s := by simp [putBlock]
@[simp] theorem canon_putPlain (l) (b) : Canon (putPlain l b s) ↔ Canon s := by simp [putPlain]

@[simp] theorem canon_putLane (fec) (width) (r) (count) (l) (b) : Canon (putLane fec width r count l b s) ↔ Canon s := by
  unfold putLane
  (repeat' split) <;> simp

@[simp] theorem canon_putRow (k) (fec) (w) (b) : Canon (putRow k fec w b s) ↔ Canon s := by simp [putRow]
@[simp] theorem canon_putDue (k) (fec) (w) : Canon (putDue k fec w s) ↔ Canon s := by simp [putDue]
@[simp] theorem canon_putStream (k) (fec) (w) (b) : Canon (putStream k fec w b s) ↔ Canon s := by simp [putStream]

@[simp] theorem canon_idleRows (k : Nat) (fec : Bool) (w n : Nat) : Canon (idleRows k fec w n s) ↔ Canon s := by
  induction n generalizing s with
  | zero => rfl
  | succ n ih => exact ih.trans (canon_putRow ..)

@[simp] theorem canon_clearSent (k) : Canon (clearSent k s) ↔ Canon s := by simp [clearSent]
@[simp] theorem canon_startStream (k) : Canon (startStream k s) ↔ Canon s := by simp [startStream]
@[simp] theorem canon_skipTo (k) (w) (r) : Canon (skipTo k w r s) ↔ Canon s := by simp [skipTo]
@[simp] theorem canon_catchUp (k) : Canon (catchUp k s) ↔ Canon s := by simp [catchUp]
@[simp] theorem canon_sendBlocks (k) (l) : Canon (sendBlocks k l s) ↔ Canon s := by simp [sendBlocks]
@[simp] theorem canon_sendWake (k) : Canon (sendWake k s) ↔ Canon s := by simp [sendWake]
@[simp] theorem canon_sendControl (k) (c) : Canon (sendControl k c s) ↔ Canon s := by simp [sendControl]
@[simp] theorem canon_sendCaps (k) : Canon (sendCaps k s) ↔ Canon s := by simp [sendCaps]
@[simp] theorem canon_dropFrame (k) (c) : Canon (dropFrame k c s) ↔ Canon s := by simp [dropFrame]
@[simp] theorem canon_abortFrame (k) : Canon (abortFrame k s) ↔ Canon s := by simp [abortFrame]
@[simp] theorem canon_flushFrames (k) : Canon (flushFrames k s) ↔ Canon s := by simp [flushFrames]
@[simp] theorem canon_sendFrames (k) (kind) (l) : Canon (sendFrames k kind l s) ↔ Canon s := by simp [sendFrames]
@[simp] theorem canon_putBits (l) (bits) : Canon (putBits l bits s) ↔ Canon s := by simp [putBits]
@[simp] theorem canon_ethSend (k) (frame) : Canon (ethSend k frame s) ↔ Canon s := by simp [ethSend]

/-! Output. -/

@[simp] theorem canon_discard (reason : Nat) (r : Rec) : Canon (Machine.discard reason r s) ↔ Canon s := by
  unfold Machine.discard
  dsimp only
  split <;> simp

@[simp] theorem canon_discardQuad (q) (reason) (r) : Canon (discardQuad q reason r s) ↔ Canon s := by simp [discardQuad]
@[simp] theorem canon_reportDiscards (gts) : Canon (reportDiscards gts s) ↔ Canon s := by simp [reportDiscards]
@[simp] theorem canon_drainDown (k) : Canon (drainDown k s) ↔ Canon s := by simp [drainDown]
@[simp] theorem canon_admitEgress (k) (entry) (r) : Canon (admitEgress k entry r s) ↔ Canon s := by simp [admitEgress]
@[simp] theorem canon_ageQuad (k) : Canon (ageQuad k s) ↔ Canon s := by simp [ageQuad]

theorem outCanon_execEgressAgeExpiry (k) (hs : Canon s) : OutCanon (execEgressAgeExpiry k s) := by
  simp [execEgressAgeExpiry, hs]

@[simp] theorem canon_modRing (k) (f) (hs : Canon s) : Canon (modRing k f s) := by
  simp [modRing, hs]

@[simp] theorem canon_admitRing (k) (r) (hs : Canon s) : Canon (admitRing k r s) := by
  unfold admitRing
  (repeat' split) <;> simp [hs]

@[simp] theorem canon_assemble (i) (packed) (hs : Canon s) : Canon (assemble i packed s) := by
  unfold assemble
  dsimp only
  (repeat' split) <;> simp [hs]

@[simp] theorem canon_ageRing (k) (hs : Canon s) : Canon (ageRing k s) := by
  unfold ageRing
  (repeat' split) <;> simp [hs]

theorem outCanon_execHostringAgeExpiry (k) (hs : Canon s) : OutCanon (execHostringAgeExpiry k s) := by
  unfold execHostringAgeExpiry
  simp +contextual [hs]

@[simp] theorem canon_ringRecord (k) (x) (r) (hs : Canon s) : Canon (ringRecord k x r s) := by
  simp [ringRecord, hs]

theorem outCanon_execHostRingWrite (ringNo : BitVec 4) (hs : Canon s) : OutCanon (execHostRingWrite ringNo s) :=
  outCanon_whenOn _ _ (fun s hs => by
    have hage : Canon (ageRing ringNo.toNat s) := by simp [hs]
    dsimp only
    generalize ageRing ringNo.toNat s = u at hage ⊢
    have hring : ∀ f, Canon (modRing ringNo.toNat f u) := fun _ => by simp [hage]
    (repeat' split) <;> simp [hage, hring]) hs

@[simp] theorem canon_popQuad (k) : Canon (popQuad k s) ↔ Canon s := by simp [popQuad]
@[simp] theorem canon_sendDatagram (k) (d) : Canon (sendDatagram k d s) ↔ Canon s := by simp [sendDatagram]

theorem outCanon_execDatagramTransmit (quadNo) (hs : Canon s) :
    OutCanon (execDatagramTransmit quadNo s) := outCanon_whenOn _ _ (fun s hs => by
  dsimp only
  (repeat' split) <;> simp [hs]) hs

theorem outCanon_execPauseFrameReceive (k) (hs : Canon s) : OutCanon (execPauseFrameReceive k s) := by
  simp [execPauseFrameReceive, hs]

@[simp] theorem canon_specOstreamConfig (q : Request) : Canon (specOstreamConfig.act q s) ↔ Canon s := by simp [specOstreamConfig]

theorem outCanon_execOstreamConfig (q) (hs : Canon s) : OutCanon (execOstreamConfig q s) :=
  outCanon_kenra hs _ _ _ fun q s hs => by simp [hs]

@[simp] theorem canon_specOstreamStatus (q : Request) : Canon (specOstreamStatus.act q s) ↔ Canon s := by simp [specOstreamStatus]

theorem outCanon_execOstreamStatus (q) (hs : Canon s) : OutCanon (execOstreamStatus q s) :=
  outCanon_kenra hs _ _ _ fun q s hs => by simp [hs]

@[simp] theorem canon_specEgressConfig (q : Request) : Canon (specEgressConfig.act q s) ↔ Canon s := by simp [specEgressConfig]

theorem outCanon_execEgressConfig (q) (hs : Canon s) : OutCanon (execEgressConfig q s) :=
  outCanon_kenra hs _ _ _ fun q s hs => by simp [hs]

@[simp] theorem canon_specEgressStatus (q : Request) : Canon (specEgressStatus.act q s) ↔ Canon s := by simp [specEgressStatus]

theorem outCanon_execEgressStatus (q) (hs : Canon s) : OutCanon (execEgressStatus q s) :=
  outCanon_kenra hs _ _ _ fun q s hs => by simp [hs]

@[simp] theorem canon_specHostringConfig (q : Request) (hs : Canon s) : Canon (specHostringConfig.act q s) :=
  canon_foldl _ (fun _ _ hs => by
    dsimp only
    split <;> simp [hs]) _ _ hs

theorem outCanon_execHostringConfig (q) (hs : Canon s) : OutCanon (execHostringConfig q s) :=
  outCanon_kenra hs _ _ _ fun q s hs => by simp [hs]

/-! Store. -/

@[simp] theorem canon_vestSet (buffer) (input) (index) (x) : Canon (vestSet buffer input index x s) ↔ Canon s := by simp [vestSet]

@[simp] theorem canon_directSet (len) (pos) (input) (u) (x) : Canon (directSet len pos input u x s) ↔ Canon s := by
  simp [directSet]

@[simp] theorem canon_openRange (key) (u) : Canon (openRange key u s) ↔ Canon s := by simp [openRange]
@[simp] theorem canon_loseGranule (key) (g) : Canon (loseGranule key g s) ↔ Canon s := by simp [loseGranule]

@[simp] theorem canon_putSample (i) (key) (fine) (u) (x) : Canon (putSample i key fine u x s) ↔ Canon s := by
  unfold putSample
  (repeat' split) <;> simp

@[simp] theorem canon_putOutput (key) (u) (l) : Canon (putOutput key u l s) ↔ Canon s := by
  unfold putOutput
  (repeat' split) <;> simp

theorem outCanon_execStoreBurstDiscard (hs : Canon s) : OutCanon (execStoreBurstDiscard s) := outCanon_whenOn _ _ (fun s hs => by
  (repeat' split) <;> simp [hs]) hs

@[simp] theorem canon_fillGranule (buffer) (input) (index) (l) : Canon (fillGranule buffer input index l s) ↔ Canon s := by
  simp [fillGranule]

@[simp] theorem canon_cancelFlags (addr) : Canon (cancelFlags addr s) ↔ Canon s := by simp [cancelFlags]

@[simp] theorem canon_readGranule (i) (c) (ue) (ii) (g) (hs : Canon s) : Canon (readGranule i c ue ii g s) := by
  unfold readGranule
  dsimp only
  (repeat' split) <;> simp [hs]

@[simp] theorem canon_forChunk (i : Image) (f : Nat → Nat → State → State) (hf : ∀ x y s, Canon (f x y s) ↔ Canon s) :
    Canon (forChunk i f s) ↔ Canon s :=
  canon_foldl_iff _ (fun _ _ => canon_foldl_iff _ (fun _ _ => hf _ _ _) _ _) _ _

theorem canon_forChunk_of (i : Image) (f : Nat → Nat → State → State) (hf : ∀ x y s, Canon s → Canon (f x y s)) (hs : Canon s) :
    Canon (forChunk i f s) :=
  canon_foldl _ (fun _ _ hs => canon_foldl _ (fun _ _ hs => hf _ _ _ hs) _ _ hs) _ _ hs

@[simp] theorem canon_fillChunk (i : Image) (c : ChunkItem) (ue : List Nat) (hs : Canon s) : Canon (fillChunk i c ue s) :=
  canon_forChunk_of i _ (fun _ _ _ hs => canon_readGranule _ _ _ _ _ hs) (by simp [hs])

@[simp] theorem canon_flagChunk (i) (c) : Canon (flagChunk i c s) ↔ Canon s := by simp [flagChunk]
@[simp] theorem canon_abandonChunk (i) (c) : Canon (abandonChunk i c s) ↔ Canon s := by simp [abandonChunk]

theorem canon_takeWork (p : Work → Bool) {w : Work} {t : State} (h : takeWork p s = some (w, t)) : Canon t ↔ Canon s := by
  unfold takeWork at h
  split at h
  · obtain ⟨-, rfl⟩ := Prod.mk.inj (Option.some.inj h)
    simp
  · exact nomatch h

theorem outCanon_execChunkRead (c : ChunkItem) (ue : List Nat) (hs : Canon s) : OutCanon (execChunkRead c ue s) := by
  unfold execChunkRead
  rw [outCanon_next]
  split
  · have h := (canon_takeWork _ ‹takeWork _ _ = _›).mpr hs
    (repeat' split) <;> simp [h]
  · exact hs

@[simp] theorem canon_releaseBuffer (later) (k) (hs : Canon s) : Canon (releaseBuffer later k s) := by
  unfold releaseBuffer
  dsimp only
  (repeat' split) <;> simp +contextual [hs]

@[simp] theorem canon_abandonWaiting (i) : Canon (abandonWaiting i s) ↔ Canon s := by simp [abandonWaiting]

@[simp] theorem canon_directBlockStart (i : Image) (block : Nat) : Canon (directBlockStart i block s) ↔ Canon s := by
  have hset : ∀ (l : List Nat) (g input c : Nat) (s : State), Canon (l.foldl (fun s d =>
      if (g * 64 + d) / i.len = block then directSet i.len c input (g * 64 + d) (flagSample i.wide) s else s) s) ↔ Canon s :=
    fun l _ _ _ s => canon_foldl_iff _ (fun _ _ => by split <;> simp) l s
  refine canon_foldl_iff _ (fun s input => canon_foldl_iff _ (fun s c => canon_foldl_iff _ (fun s g => ?_) _ _) _ _) _ _
  split
  · rfl
  · refine (hset _ _ _ _ _).trans ?_
    split <;> simp

theorem outCanon_execRfiFlagWrite (input) (pos) (granule) (hs : Canon s) : OutCanon (execRfiFlagWrite input pos granule s) := by
  unfold execRfiFlagWrite
  rw [outCanon_next]
  (repeat' split) <;> simp [hs]

@[simp] theorem canon_specStoreConfig (q : Request) : Canon (specStoreConfig.act q s) ↔ Canon s := by simp [specStoreConfig]

theorem outCanon_execStoreConfig (q) (hs : Canon s) : OutCanon (execStoreConfig q s) :=
  outCanon_kenra hs _ _ _ fun q s hs => by simp [hs]

@[simp] theorem canon_specStoreStatus (q : Request) : Canon (specStoreStatus.act q s) ↔ Canon s := by simp [specStoreStatus]

theorem outCanon_execStoreStatus (q) (hs : Canon s) : OutCanon (execStoreStatus q s) :=
  outCanon_kenra hs _ _ _ fun q s hs => by simp [hs]

/-! Plan. -/

@[simp] theorem canon_settleBuffers (hs : Canon s) : Canon (settleBuffers s) := by
  simp [settleBuffers, hs]

@[simp] theorem canon_modJobs (p) (f) : Canon (modJobs p f s) ↔ Canon s := by simp [modJobs]

/-! Facet. -/

@[simp] theorem canon_pushItem (x) : Canon (pushItem x s) ↔ Canon s := by
  unfold pushItem
  (repeat' split) <;> simp

@[simp] theorem canon_writeNoise (pos) (key) (ib) (v) : Canon (writeNoise pos key ib v s) ↔ Canon s := by simp [writeNoise]
@[simp] theorem canon_freeNoise (i) (j) : Canon (freeNoise i j s) ↔ Canon s := by simp [freeNoise]

@[simp] theorem canon_facetProduct (i) (j) (sub) (split) (tot) : Canon ((facetProduct i j sub split tot s).2) ↔ Canon s := by
  simp [facetProduct]

@[simp] theorem canon_specFacetConfig (q : Request) : Canon (specFacetConfig.act q s) ↔ Canon s := by simp [specFacetConfig]

theorem outCanon_execFacetConfig (q) (hs : Canon s) : OutCanon (execFacetConfig q s) :=
  outCanon_kenra hs _ _ _ fun q s hs => by simp [hs]

@[simp] theorem canon_specFacetStatus (q : Request) : Canon (specFacetStatus.act q s) ↔ Canon s := by simp [specFacetStatus]

theorem outCanon_execFacetStatus (q) (hs : Canon s) : OutCanon (execFacetStatus q s) :=
  outCanon_kenra hs _ _ _ fun q s hs => by simp [hs]

/-! Recorder. -/

@[simp] theorem canon_mergeOverflow (l) : Canon (mergeOverflow l s) ↔ Canon s := by simp [mergeOverflow]
@[simp] theorem canon_endEpoch (part) : Canon (endEpoch part s) ↔ Canon s := by simp [endEpoch]

theorem outCanon_execEpochEnd (hs : Canon s) : OutCanon (execEpochEnd s) := by
  simp [execEpochEnd, hs]

@[simp] theorem canon_recStop (st) (code) (m) : Canon (recStop st code m s) ↔ Canon s := by simp [recStop]

@[simp] theorem canon_sealGood (slot) (r) (hs : Canon s) : Canon (sealGood slot r s) := by
  simp [sealGood, hs]

@[simp] theorem canon_sealBad (slot) (map1) (map2) : Canon (sealBad slot map1 map2 s) ↔ Canon s := by simp [sealBad]

@[simp] theorem canon_sealNext (v) (hs : Canon s) : Canon (sealNext v s) := by
  unfold sealNext
  (repeat' split) <;> simp [hs]

theorem outCanon_execRecordSeal (v) (hs : Canon s) : OutCanon (execRecordSeal v s) := by
  unfold execRecordSeal
  simp +contextual [hs]

@[simp] theorem canon_sealAll (n : Nat) (hs : Canon s) : Canon (sealAll n s) := by
  induction n generalizing s with
  | zero => exact hs
  | succ n ih =>
    unfold sealAll
    split
    · exact hs
    · exact ih (by simp [hs])

@[simp] theorem canon_sealRecorder (hs : Canon s) : Canon (sealRecorder s) := by
  simp [sealRecorder, hs]

@[simp] theorem canon_eraseGood (hs : Canon s) : Canon (eraseGood s) := by
  simp [eraseGood, hs]

theorem outCanon_execRecClearDone (hs : Canon s) : OutCanon (execRecClearDone s) := outCanon_whenOn _ _ (fun s hs => by
  (repeat' split) <;> simp [hs]) hs

@[simp] theorem canon_nextOp : Canon (nextOp s) ↔ Canon s := by simp [nextOp]
@[simp] theorem canon_decodeGood (e) : Canon (decodeGood e s) ↔ Canon s := by simp [decodeGood]
@[simp] theorem canon_decodeBad (e) (reason) : Canon (decodeBad e reason s) ↔ Canon s := by simp [decodeBad]
@[simp] theorem canon_specRecStatus (q : Request) : Canon (specRecStatus.act q s) ↔ Canon s := by simp [specRecStatus]

theorem outCanon_execRecStatus (q) (hs : Canon s) : OutCanon (execRecStatus q s) :=
  outCanon_kenra hs _ _ _ fun q s hs => by simp [hs]

@[simp] theorem canon_specRecRead (q : Request) : Canon (specRecRead.act q s) ↔ Canon s := by simp [specRecRead]

theorem outCanon_execRecRead (q) (hs : Canon s) : OutCanon (execRecRead q s) :=
  outCanon_kenra hs _ _ _ fun q s hs => by simp [hs]

@[simp] theorem canon_endRead (op) (p) (fail) (hs : Canon s) : Canon (endRead op p fail s) := by
  unfold endRead
  dsimp only
  (repeat' split) <;> simp [hs]

theorem outCanon_execRecReadDone (fail) (hs : Canon s) : OutCanon (execRecReadDone fail s) := by
  unfold execRecReadDone
  simp +contextual [hs]

@[simp] theorem canon_specRecExport (q : Request) : Canon (specRecExport.act q s) ↔ Canon s := by simp [specRecExport]

theorem outCanon_execRecExport (q) (hs : Canon s) : OutCanon (execRecExport q s) :=
  outCanon_kenra hs _ _ _ fun q s hs => by simp [hs]

@[simp] theorem canon_specRecClear (q : Request) : Canon (specRecClear.act q s) ↔ Canon s := by simp [specRecClear]

theorem outCanon_execRecClear (q) (hs : Canon s) : OutCanon (execRecClear q s) :=
  outCanon_kenra hs _ _ _ fun q s hs => by simp [hs]

/-! LoadCore. -/

@[simp] theorem canon_beginLoad (c) (o) (q) : Canon (beginLoad c o q s) ↔ Canon s := by simp [beginLoad]

/-! Clasp. -/

@[simp] theorem canon_claspMark (b) : Canon (claspMark b s) ↔ Canon s := by simp [claspMark]

@[simp] theorem canon_takeTile (j) (t) (hs : Canon s) : Canon (takeTile j t s) := by
  simp [takeTile, hs]

@[simp] theorem canon_grantTile (hs : Canon s) (t) : Canon (grantTile s t) := by
  unfold grantTile
  (repeat' split) <;> simp [hs]

@[simp] theorem canon_settleOwner (j) : Canon (settleOwner s j) ↔ Canon s := by simp [settleOwner]

@[simp] theorem canon_grantTiles (hs : Canon s) : Canon (grantTiles s) := by
  simp +contextual [grantTiles, hs]

@[simp] theorem canon_endJob (j) (hs : Canon s) : Canon (endJob j s) := by
  simp [endJob, hs]

theorem outCanon_execTileClaim (job) (hs : Canon s) : OutCanon (execTileClaim job s) := by
  unfold execTileClaim
  rw [outCanon_next]
  (repeat' split) <;> simp [hs]

@[simp] theorem canon_emitItems (j) (l) : Canon (emitItems j l s) ↔ Canon s := by simp [emitItems]

@[simp] theorem canon_gapJob (i) (j) (reason) (hs : Canon s) : Canon (gapJob i j reason s) := by
  simp [gapJob, hs]

@[simp] theorem canon_flushJobs (n : Nat) (hs : Canon s) : Canon (flushJobs n s) := by
  induction n generalizing s with
  | zero => exact hs
  | succ n ih =>
    unfold flushJobs
    split
    · exact hs
    · split
      · exact ih (by simp [hs])
      · exact hs

@[simp] theorem canon_settleJobs (hs : Canon s) : Canon (settleJobs s) := by
  simp [settleJobs, hs]

@[simp] theorem canon_noteLoss (id) (d) (reason) : Canon (noteLoss id d reason s) ↔ Canon s := by simp [noteLoss]

@[simp] theorem canon_loseDump (id) (d) (reason) (hs : Canon s) : Canon (loseDump id d reason s) := by
  simp [loseDump, hs]

@[simp] theorem canon_locketLost (tile) : Canon (locketLost tile s) ↔ Canon s := by simp [locketLost]
@[simp] theorem canon_addWords (j) (half) (d) : Canon (addWords j half d s) ↔ Canon s := by simp [addWords]
@[simp] theorem canon_includeDump (i) (j) (d) : Canon (includeDump i j d s) ↔ Canon s := by simp [includeDump]

@[simp] theorem canon_landDump (d) (hs : Canon s) : Canon (landDump d s) := by
  unfold landDump
  (repeat' split) <;> simp [hs]

@[simp] theorem canon_waitPlane (id) : Canon (waitPlane id s) ↔ Canon s := by simp [waitPlane]

@[simp] theorem canon_addEcc (id) (ce) (ue) : Canon (addEcc id ce ue s) ↔ Canon s := by
  unfold addEcc
  (repeat' split) <;> simp

theorem outCanon_execSpillPlaneTake (job) (hs : Canon s) : OutCanon (execSpillPlaneTake job s) := by
  unfold execSpillPlaneTake
  rw [outCanon_next]
  (repeat' split) <;> simp [hs]

@[simp] theorem canon_countLimits (l) : Canon (countLimits l s) ↔ Canon s := by simp [countLimits]
@[simp] theorem canon_readProduct (i) (j) : Canon (readProduct i j s) ↔ Canon s := by simp [readProduct]

theorem outCanon_execTileReadout (job) (ce) (ue) (hs : Canon s) : OutCanon (execTileReadout job ce ue s) := by
  unfold execTileReadout
  rw [outCanon_next]
  (repeat' split) <;> simp [hs]

@[simp] theorem canon_laAdd (key) (first) (d) : Canon (laAdd key first d s) ↔ Canon s := by simp [laAdd]
@[simp] theorem canon_laClear (key) : Canon (laClear key s) ↔ Canon s := by simp [laClear]
@[simp] theorem canon_setLa (key) (v) : Canon (setLa key v s) ↔ Canon s := by simp [setLa]

@[simp] theorem canon_voidLa (i) (j) (reason) (hs : Canon s) : Canon (voidLa i j reason s) := by
  simp [voidLa, hs]

@[simp] theorem canon_laRead (key) (ue) (hs : Canon s) : Canon ((laRead key ue s).2) := by
  simp [laRead, hs]

@[simp] theorem canon_laTouch (key : Nat) : Canon (laTouch key s) ↔ Canon s :=
  canon_foldl_iff _ (fun _ _ => by (repeat' split) <;> simp) _ _

theorem outCanon_execLaDump (job : BitVec 16) (complete : Bool) (ue : Option Nat) (hs : Canon s) :
    OutCanon (execLaDump job complete ue s) := by
  unfold execLaDump
  rw [outCanon_next]
  have hserve : Canon (serveFirst 3 (fun _ => true) s) := by simp [hs]
  split
  · exact hs
  next j _ =>
    dsimp only
    generalize serveFirst 3 (fun _ => true) s = u at hserve ⊢
    split
    next d i _ _ =>
      generalize hr : (if (laNow u i j).covered.isEmpty = true then (false, u) else laRead (laKey j) ue u) = r
      have hread : Canon r.2 := by
        rw [← hr]
        split
        · exact hserve
        · exact canon_laRead _ _ hserve
      have hadd : ∀ first d, Canon (laAdd (laKey j) first d (laTouch (laKey j) r.2)) := fun _ _ => by simp [hread]
      refine canon_ite_of ((canon_modJobs ..).mpr hserve) (canon_ite_of (canon_voidLa _ _ _ hserve)
        (canon_ite_of (canon_voidLa _ _ _ hserve) (canon_ite_of hserve
          (canon_ite_of ((canon_modJobs ..).mpr hserve) (canon_ite_of (canon_voidLa _ _ _ hread) ?_)))))
      have hadd' := hadd (laNow u i j).covered.isEmpty d
      generalize laAdd (laKey j) _ _ (laTouch (laKey j) r.2) = v at hadd' ⊢
      have hemit : ∀ l a b c f, Canon (emitItems j l (setLa (laKey j) none (laClear (laKey j) (facetProduct i a b c f v).2))) :=
        fun _ _ _ _ _ => by simp [hadd']
      refine canon_ite_of ((canon_modJobs ..).mpr ?_) (canon_settleJobs (canon_ite_of ((canon_freeNoise ..).mpr
        (canon_endJob _ ((canon_count ..).mpr ((canon_modJobs ..).mpr ?_))))
        (canon_endJob _ ((canon_count ..).mpr ((canon_modJobs ..).mpr ?_)))))
      all_goals
        exact canon_ite_of (canon_ite_of ((canon_count ..).mpr ((canon_claspMark ..).mpr (hemit ..))) (hemit ..))
          ((canon_setLa ..).mpr hadd')
    · exact hserve

@[simp] theorem canon_dropDumps (id) (a) : Canon (dropDumps id a s) ↔ Canon s := by simp [dropDumps]

@[simp] theorem canon_dropClaim (j) (hs : Canon s) : Canon (dropClaim j s) := by
  simp [dropClaim, hs]

@[simp] theorem canon_guardTile (hs : Canon s) (j) : Canon (guardTile s j) := by
  unfold guardTile
  dsimp only
  (repeat' split) <;> simp +contextual [hs]

@[simp] theorem canon_guardSpill (hs : Canon s) (j) : Canon (guardSpill s j) := by
  unfold guardSpill
  dsimp only
  (repeat' split) <;> simp [hs]

@[simp] theorem canon_guardLa (hs : Canon s) (j) : Canon (guardLa s j) := by
  unfold guardLa
  (repeat' split) <;> simp [hs]

@[simp] theorem canon_claspGuard (hs : Canon s) : Canon (claspGuard s) :=
  canon_foldl _ (fun _ _ hs => canon_guardLa hs _) _ _ (canon_foldl _ (fun _ _ hs => canon_guardSpill hs _) _ _
    (canon_foldl _ (fun _ _ hs => canon_guardTile hs _) _ _ hs))

@[simp] theorem canon_endReadout (hs : Canon s) (j) : Canon (endReadout s j) := by
  unfold endReadout
  (repeat' split) <;> simp [hs]

@[simp] theorem canon_specClaspConfig (q : Request) : Canon (specClaspConfig.act q s) ↔ Canon s := by simp [specClaspConfig]

theorem outCanon_execClaspConfig (q) (hs : Canon s) : OutCanon (execClaspConfig q s) :=
  outCanon_kenra hs _ _ _ fun q s hs => by simp [hs]

@[simp] theorem canon_specClaspTableLoad (q : Request) : Canon (specClaspTableLoad.act q s) ↔ Canon s := by
  simp [specClaspTableLoad]

theorem outCanon_execClaspTableLoad (q) (hs : Canon s) : OutCanon (execClaspTableLoad q s) :=
  outCanon_kenra hs _ _ _ fun q s hs => by simp [hs]

@[simp] theorem canon_applyTable (q) (data) : Canon (applyTable q data s) ↔ Canon s := by simp [applyTable]

@[simp] theorem canon_specClaspCurveLoad (q : Request) : Canon (specClaspCurveLoad.act q s) ↔ Canon s := by
  simp [specClaspCurveLoad]

theorem outCanon_execClaspCurveLoad (q) (hs : Canon s) : OutCanon (execClaspCurveLoad q s) :=
  outCanon_kenra hs _ _ _ fun q s hs => by simp [hs]

@[simp] theorem canon_applyCurve (q) (data) : Canon (applyCurve q data s) ↔ Canon s := by simp [applyCurve]
@[simp] theorem canon_specClaspStatus (q : Request) : Canon (specClaspStatus.act q s) ↔ Canon s := by simp [specClaspStatus]

theorem outCanon_execClaspStatus (q) (hs : Canon s) : OutCanon (execClaspStatus q s) :=
  outCanon_kenra hs _ _ _ fun q s hs => by simp [hs]

/-! Arrays. -/

@[simp] theorem canon_operandSet (i) (pos) (block) (buffer) (input) (t) (x) :
    Canon (operandSet i pos block buffer input t x s) ↔ Canon s := by
  unfold operandSet
  (repeat' split) <;> simp

@[simp] theorem canon_flagLines (i) (pos) (block) (buffer) (a) (lines) :
    Canon (flagLines i pos block buffer a lines s) ↔ Canon s := by
  simp [flagLines]

@[simp] theorem canon_loadStandby (a) (slot) : Canon (loadStandby a slot s) ↔ Canon s := by simp [loadStandby]
@[simp] theorem canon_settleStandby (a) (slot) (bad) : Canon (settleStandby a slot bad s) ↔ Canon s := by simp [settleStandby]
@[simp] theorem canon_activate (a) : Canon (activate a s) ↔ Canon s := by simp [activate]

@[simp] theorem canon_loadNext (a) : Canon (loadNext a s) ↔ Canon s := by
  unfold loadNext
  (repeat' split) <;> simp

@[simp] theorem canon_runPass (a) (p) (stalls) (ue) (i) (w) (buffer) : Canon (runPass a p stalls ue i w buffer s) ↔ Canon s := by
  simp [runPass]

@[simp] theorem canon_roundEcc (r) : Canon (roundEcc r s) ↔ Canon s := by simp [roundEcc]
@[simp] theorem canon_writeRound (r) : Canon (writeRound r s) ↔ Canon s := by simp [writeRound]

@[simp] theorem canon_freeGens : Canon (freeGens s) ↔ Canon s := by
  unfold freeGens
  (repeat' split) <;> simp

@[simp] theorem canon_endRound (r) : Canon (endRound s r) ↔ Canon s := by simp [endRound]

@[simp] theorem canon_landRounds (hs : Canon s) : Canon (landRounds s) := by
  simp [landRounds, hs]

theorem outCanon_execCorrelationPass (array' : BitVec 2) (p : PassItem) (ce : Nat) (ue : List VestLine) (hs : Canon s) :
    OutCanon (execCorrelationPass array' p ce ue s) := by
  unfold execCorrelationPass
  rw [outCanon_next]
  dsimp only
  have hland : Canon (landRounds s) := by simp [hs]
  split
  · have h := (canon_takeWork _ ‹takeWork _ _ = _›).mpr hland
    (repeat' split) <;> simp [hland, h]
  · exact hland

@[simp] theorem canon_shiftRow (a) : Canon (shiftRow a s) ↔ Canon s := by
  unfold shiftRow
  dsimp only
  (repeat' split) <;> simp

@[simp] theorem canon_transferDump (a) : Canon (transferDump a s) ↔ Canon s := by simp [transferDump]
@[simp] theorem canon_stallCycle (a) : Canon (stallCycle a s) ↔ Canon s := by simp [stallCycle]

theorem outCanon_execChainShift (array') (due) (hs : Canon s) : OutCanon (execChainShift array' due s) := by
  unfold execChainShift
  simp +contextual [hs]

@[simp] theorem canon_dumpLanded (a) (d) (hs : Canon s) : Canon (dumpLanded a d s) := by
  unfold dumpLanded
  (repeat' split) <;> simp [hs]

theorem outCanon_execLandingBufferMove (array') (turnaround) (ce) (ue) (hs : Canon s) :
    OutCanon (execLandingBufferMove array' turnaround ce ue s) := outCanon_whenOn _ _ (fun s hs => by
  dsimp only
  (repeat' split) <;> simp [hs]) hs

@[simp] theorem canon_abandonPass (w) : Canon (abandonPass s w) ↔ Canon s := by
  unfold abandonPass
  (repeat' split) <;> simp

@[simp] theorem canon_abandonChain (a) : Canon (abandonChain s a) ↔ Canon s := by simp [abandonChain]
@[simp] theorem canon_arraysTick : Canon (arraysTick s) ↔ Canon s := by simp [arraysTick]
@[simp] theorem canon_clearLanding : Canon (clearLanding s) ↔ Canon s := by simp [clearLanding]
@[simp] theorem canon_specArrayConfig (q : Request) : Canon (specArrayConfig.act q s) ↔ Canon s := by simp [specArrayConfig]

theorem outCanon_execArrayConfig (q) (hs : Canon s) : OutCanon (execArrayConfig q s) :=
  outCanon_kenra hs _ _ _ fun q s hs => by simp [hs]

@[simp] theorem canon_specArrayTest (q : Request) : Canon (specArrayTest.act q s) ↔ Canon s := by simp [specArrayTest]

theorem outCanon_execArrayTest (q) (hs : Canon s) : OutCanon (execArrayTest q s) :=
  outCanon_kenra hs _ _ _ fun q s hs => by simp [hs]

theorem outCanon_execArrayTestDone (passed) (hs : Canon s) :
    OutCanon (execArrayTestDone passed s) := outCanon_whenOn _ _ (fun s hs => by
  (repeat' split) <;> simp [hs]) hs

@[simp] theorem canon_specArrayStatus (q : Request) : Canon (specArrayStatus.act q s) ↔ Canon s := by simp [specArrayStatus]

theorem outCanon_execArrayStatus (q) (hs : Canon s) : OutCanon (execArrayStatus q s) :=
  outCanon_kenra hs _ _ _ fun q s hs => by simp [hs]

/-! Beam. -/

@[simp] theorem canon_beamMark (b) : Canon (beamMark b s) ↔ Canon s := by simp [beamMark]
@[simp] theorem canon_markWeights (bad) : Canon (markWeights bad s) ↔ Canon s := by simp [markWeights]
@[simp] theorem canon_modPeaks (k) (block) (ostream) (f) : Canon (modPeaks k block ostream f s) ↔ Canon s := by simp [modPeaks]
@[simp] theorem canon_loadRound (i) (x) (wce) (badW) : Canon (loadRound i x wce badW s) ↔ Canon s := by simp [loadRound]

@[simp] theorem canon_fetchRound (i) (x) (buffer) (ce) (ue) : Canon (fetchRound i x buffer ce ue s) ↔ Canon s := by
  simp [fetchRound]

@[simp] theorem canon_runSegment (x) (ce) (ue) (ecc) (i) (j) (w) (buffer) :
    Canon (runSegment x ce ue ecc i j w buffer s) ↔ Canon s := by
  simp [runSegment]

theorem outCanon_execBeamSegment (x : SegItem) (ce : List (BitVec 2)) (ue : List VestLine) (ecc : SegEcc) (hs : Canon s) :
    OutCanon (execBeamSegment x ce ue ecc s) := by
  unfold execBeamSegment
  rw [outCanon_next]
  dsimp only
  have hland : Canon (landRounds s) := by simp [hs]
  split
  · have h := (canon_takeWork _ ‹takeWork _ _ = _›).mpr hland
    (repeat' split) <;> simp [hland, h]
  · exact hland

@[simp] theorem canon_emitBeam (block) (x) : Canon (emitBeam block x s) ↔ Canon s := by simp [emitBeam]
@[simp] theorem canon_emitVoltage (i) (j) (b) : Canon (emitVoltage i j b s) ↔ Canon s := by simp [emitVoltage]
@[simp] theorem canon_emitPower (j) (block) (bad) (x) (l) : Canon (emitPower j block bad x l s) ↔ Canon s := by simp [emitPower]

@[simp] theorem canon_watchPower (set block ostream ch u nint : Nat) (bad : List Nat) (w : List Nat × Nat) :
    Canon (watchPower set block ostream ch u nint bad w s) ↔ Canon s :=
  canon_foldl_iff _ (fun _ _ => by (repeat' split) <;> simp) _ _

@[simp] theorem canon_closeWindow (i) (j) (b) : Canon (closeWindow i j b s) ↔ Canon s := by
  unfold closeWindow
  dsimp only
  (repeat' split) <;> simp

@[simp] theorem canon_readPower (i) (j) (b) : Canon (readPower i j b s) ↔ Canon s := by simp [readPower]
@[simp] theorem canon_addStats (i) (b) : Canon (addStats i b s) ↔ Canon s := by simp [addStats]

@[simp] theorem canon_gapStats (i) (j) (a2) (block) (reason) : Canon (gapStats i j a2 block reason s) ↔ Canon s := by
  simp [gapStats]

@[simp] theorem canon_closeStats (i) (j) (a2) (block) : Canon (closeStats i j a2 block s) ↔ Canon s := by
  unfold closeStats
  dsimp only
  (repeat' split) <;> simp

@[simp] theorem canon_endRun (j) (hs : Canon s) : Canon (endRun j s) := by
  simp [endRun, hs]

@[simp] theorem canon_includeSegment (j) (b) : Canon (includeSegment j b s) ↔ Canon s := by simp [includeSegment]

@[simp] theorem canon_readSegment (i) (j) (b) (hs : Canon s) : Canon (readSegment i j b s) := by
  unfold readSegment
  dsimp only
  (repeat' split) <;> simp [hs]

@[simp] theorem canon_loseProducts (i) (j) (a2) (m) (reason) : Canon (loseProducts i j a2 m reason s) ↔ Canon s := by
  simp [loseProducts]

@[simp] theorem canon_loseSums (i) (j) (set) (m) (reason) : Canon (loseSums i j set m reason s) ↔ Canon s := by simp [loseSums]
@[simp] theorem canon_loseSegments (l) : Canon (loseSegments l s) ↔ Canon s := by simp [loseSegments]

@[simp] theorem canon_voidSegment (i) (j) (b) (hs : Canon s) : Canon (voidSegment i j b s) := by
  simp [voidSegment, hs]

@[simp] theorem canon_voidPartials (j) (b) : Canon (voidPartials j b s) ↔ Canon s := by simp [voidPartials]

@[simp] theorem canon_settleShed (l : List ShedSeg) (hs : Canon s) : Canon (settleShed l s) := by
  induction l generalizing s with
  | nil => exact hs
  | cons e l ih =>
    unfold settleShed
    split
    · exact hs
    · exact ih (by simp [hs])

theorem outCanon_execSegmentReadout (set : BitVec 2) (pos m ce : Nat) (ue partialUe : Bool) (hs : Canon s) :
    OutCanon (execSegmentReadout set pos m ce ue partialUe s) := by
  unfold execSegmentReadout
  rw [outCanon_next]
  dsimp only
  have hland : Canon (landRounds s) := by simp [hs]
  split
  · exact hland
  · split
    · exact hland
    · split
      · refine canon_settleShed _ ?_
        (repeat' split) <;> simp [hland]
      · exact hland

@[simp] theorem canon_emitPeaks (i) (k) (b) (key) (x) : Canon (emitPeaks i k b key x s) ↔ Canon s := by
  unfold emitPeaks
  (repeat' split) <;> simp

theorem outCanon_execPeakListEmit (watchNo) (hs : Canon s) : OutCanon (execPeakListEmit watchNo s) := by
  unfold execPeakListEmit
  rw [outCanon_next]
  dsimp only
  (repeat' split) <;> simp [hs]

@[simp] theorem canon_countAbandoned (l) : Canon (countAbandoned l s) ↔ Canon s := by simp [countAbandoned]
@[simp] theorem canon_abandonSegments (l) : Canon (abandonSegments l s) ↔ Canon s := by simp [abandonSegments]

@[simp] theorem canon_claspTick (n : Nat) (hs : Canon s) : Canon (claspTick n s) := by
  unfold claspTick
  dsimp only
  rw [canon_freeGens]
  refine canon_foldl _ (fun _ _ hs => canon_endRun _ hs) _ _ (canon_foldl _ (fun _ _ hs => ?_) _ _ ?_)
  · rw [canon_loseSegments]
    exact canon_foldl _ (fun _ _ hs => canon_endReadout hs _) _ _ hs
  · split <;> simp [hs]

@[simp] theorem canon_beamGuard (hs : Canon s) : Canon (beamGuard s) :=
  canon_settleShed _ (canon_foldl _ (fun _ _ hs => by
    simp only [canon_abandonSegments, canon_count, canon_claspMark]
    exact canon_dropClaim _ (by simp [hs])) _ _ hs)

@[simp] theorem canon_stopBeamsOf (x : Nat × Nat) (hs : Canon s) : Canon (stopBeamsOf s x) := by
  unfold stopBeamsOf
  split
  · exact hs
  · refine canon_foldl _ (fun _ _ hs => by (repeat' split) <;> simp [hs]) _ _
      (canon_foldl _ (fun _ _ hs => by (repeat' split) <;> simp [hs]) _ _
        (canon_foldl _ (fun _ _ hs => by (repeat' split) <;> simp [hs]) _ _ hs))

@[simp] theorem canon_stopBeams (hs : Canon s) : Canon (stopBeams s) := by
  have hbehind : Canon ((s.beam.behind.foldl endRound s).sched.begun.foldl stopBeamsOf (s.beam.behind.foldl endRound s)) :=
    canon_foldl _ (fun _ _ hs => canon_stopBeamsOf _ hs) _ _ (by simp [hs])
  unfold stopBeams
  dsimp only
  simp only [canon_mk, canonParts_self]
  refine canon_foldl _ (fun s k hs => ?_) _ _ hbehind
  split
  · exact canon_foldl _ (fun _ _ hs => by split <;> simp [hs]) _ _ hs
  · exact hs

@[simp] theorem canon_specBeamConfig (q : Request) : Canon (specBeamConfig.act q s) ↔ Canon s := by simp [specBeamConfig]

theorem outCanon_execBeamConfig (q) (hs : Canon s) : OutCanon (execBeamConfig q s) :=
  outCanon_kenra hs _ _ _ fun q s hs => by simp [hs]

@[simp] theorem canon_specBeamWeightLoad (q : Request) : Canon (specBeamWeightLoad.act q s) ↔ Canon s := by
  simp [specBeamWeightLoad]

theorem outCanon_execBeamWeightLoad (q) (hs : Canon s) : OutCanon (execBeamWeightLoad q s) :=
  outCanon_kenra hs _ _ _ fun q s hs => by simp [hs]

@[simp] theorem canon_applyWeights (q) (data) : Canon (applyWeights q data s) ↔ Canon s := by simp [applyWeights]

@[simp] theorem canon_specBeamWeightMap (q : Request) (hs : Canon s) : Canon (specBeamWeightMap.act q s) := by
  simp [specBeamWeightMap, hs]

theorem outCanon_execBeamWeightMap (q) (hs : Canon s) : OutCanon (execBeamWeightMap q s) :=
  outCanon_kenra hs _ _ _ fun q s hs => by simp [hs]

@[simp] theorem canon_specBeamWatch (q : Request) : Canon (specBeamWatch.act q s) ↔ Canon s := by simp [specBeamWatch]

theorem outCanon_execBeamWatch (q) (hs : Canon s) : OutCanon (execBeamWatch q s) :=
  outCanon_kenra hs _ _ _ fun q s hs => by simp [hs]

@[simp] theorem canon_specBeamStatus (q : Request) : Canon (specBeamStatus.act q s) ↔ Canon s := by simp [specBeamStatus]

theorem outCanon_execBeamStatus (q) (hs : Canon s) : OutCanon (execBeamStatus q s) :=
  outCanon_kenra hs _ _ _ fun q s hs => by simp [hs]

end Sys2Proof.Laws
end

section
/-! SUPPORT. What keeps the canonical form of the memories: the other units. -/

namespace Sys2Proof.Laws
open Sys2Proof Sys2Proof.Machine

variable {s : State}

/-! Pins. -/

@[simp] theorem canon_filterEdge (k) (width) : Canon ((filterEdge k width s).2) ↔ Canon s := by
  unfold filterEdge
  dsimp only
  (repeat' split) <;> simp

@[simp] theorem canon_specPinFilterConfig (q : Request) : Canon (specPinFilterConfig.act q s) ↔ Canon s := by
  simp [specPinFilterConfig]

theorem outCanon_execPinFilterConfig (q) (hs : Canon s) : OutCanon (execPinFilterConfig q s) :=
  outCanon_kenra hs _ _ _ fun q s hs => by simp [hs]

theorem outCanon_execPinStuck (k) (hs : Canon s) : OutCanon (execPinStuck k s) := by
  simp [execPinStuck, hs]

theorem outCanon_execPinStuckRelease (k) (hs : Canon s) : OutCanon (execPinStuckRelease k s) := by
  simp [execPinStuckRelease, hs]

/-! Compass. -/

@[simp] theorem canon_disqualify (x) : Canon (disqualify x s) ↔ Canon s := by simp [disqualify]
@[simp] theorem canon_applyVerdict (x) (pres) (out) : Canon (applyVerdict x pres out s) ↔ Canon s := by simp [applyVerdict]

@[simp] theorem canon_trainEstimate : Canon (trainEstimate s) ↔ Canon s := by
  unfold trainEstimate
  (repeat' split) <;> simp

@[simp] theorem canon_selectSource (pairs) : Canon (selectSource pairs s) ↔ Canon s := by
  unfold selectSource
  dsimp only
  (repeat' split) <;> simp

theorem outCanon_execRefVerdict (present) (hs : Canon s) : OutCanon (execRefVerdict present s) := by
  simp [execRefVerdict, hs]

theorem outCanon_execPpsEdge (inputB) (width) (deviation) (hs : Canon s) : OutCanon (execPpsEdge inputB width deviation s) := by
  simp [execPpsEdge, hs]

theorem outCanon_execReferenceSwitch (step) (hs : Canon s) :
    OutCanon (execReferenceSwitch step s) := outCanon_whenOn _ _ (fun s hs => by
  (repeat' split) <;> simp [hs]) hs

@[simp] theorem canon_pulseOut (k) (at') : Canon (pulseOut k at' s) ↔ Canon s := by simp [pulseOut]
@[simp] theorem canon_ptpMeasure (t1) (t2) : Canon (ptpMeasure t1 t2 s) ↔ Canon s := by simp [ptpMeasure]
@[simp] theorem canon_ptpDelayed (t3) (t4) (raw) : Canon (ptpDelayed t3 t4 raw s) ↔ Canon s := by simp [ptpDelayed]

@[simp] theorem canon_ptpReceive (m) : Canon (ptpReceive m s) ↔ Canon s := by
  unfold ptpReceive
  (repeat' split) <;> simp

theorem outCanon_execPtpMessageReceive (quad') (domain) (m) (hs : Canon s) :
    OutCanon (execPtpMessageReceive quad' domain m s) := by
  simp [execPtpMessageReceive, hs]

theorem outCanon_execPtpAnnounceTimeout (hs : Canon s) : OutCanon (execPtpAnnounceTimeout s) := by
  simp [execPtpAnnounceTimeout, hs]

@[simp] theorem canon_slewPtp : Canon (slewPtp s) ↔ Canon s := by simp [slewPtp]

@[simp] theorem canon_relayFrame (fromB) (f) : Canon (relayFrame fromB f s) ↔ Canon s := by
  unfold relayFrame
  (repeat' split) <;> simp

theorem outCanon_execPtpRelayFrame (fromB) (f) (hs : Canon s) : OutCanon (execPtpRelayFrame fromB f s) := by
  simp [execPtpRelayFrame, hs]

theorem outCanon_execTb3MirrorUpdate (hs : Canon s) : OutCanon (execTb3MirrorUpdate s) := by
  simp [execTb3MirrorUpdate, hs]

@[simp] theorem canon_injectStart (kind) (only) : Canon (injectStart kind only s) ↔ Canon s := by simp [injectStart]

theorem outCanon_execTimeTriggerFire (trig) (hs : Canon s) :
    OutCanon (execTimeTriggerFire trig s) := outCanon_whenOn _ _ (fun s hs => by
  (repeat' split) <;> simp [hs]) hs

@[simp] theorem canon_disableSource (x) : Canon (disableSource x s) ↔ Canon s := by simp [disableSource]
@[simp] theorem canon_specTimeRefConfig (q : Request) : Canon (specTimeRefConfig.act q s) ↔ Canon s := by simp [specTimeRefConfig]

theorem outCanon_execTimeRefConfig (q) (hs : Canon s) : OutCanon (execTimeRefConfig q s) :=
  outCanon_kenra hs _ _ _ fun q s hs => by simp [hs]

@[simp] theorem canon_specTimeRefSelect (q : Request) : Canon (specTimeRefSelect.act q s) ↔ Canon s := by simp [specTimeRefSelect]

theorem outCanon_execTimeRefSelect (q) (hs : Canon s) : OutCanon (execTimeRefSelect q s) :=
  outCanon_kenra hs _ _ _ fun q s hs => by simp [hs]

@[simp] theorem canon_specTimePllConfig (q : Request) : Canon (specTimePllConfig.act q s) ↔ Canon s := by simp [specTimePllConfig]

theorem outCanon_execTimePllConfig (q) (hs : Canon s) : OutCanon (execTimePllConfig q s) :=
  outCanon_kenra hs _ _ _ fun q s hs => by simp [hs]

@[simp] theorem canon_specTimeSet (q : Request) : Canon (specTimeSet.act q s) ↔ Canon s := by simp [specTimeSet]

theorem outCanon_execTimeSet (q) (hs : Canon s) : OutCanon (execTimeSet q s) :=
  outCanon_kenra hs _ _ _ fun q s hs => by simp [hs]

@[simp] theorem canon_specTimeAdjust (q : Request) : Canon (specTimeAdjust.act q s) ↔ Canon s := by simp [specTimeAdjust]

theorem outCanon_execTimeAdjust (q) (hs : Canon s) : OutCanon (execTimeAdjust q s) :=
  outCanon_kenra hs _ _ _ fun q s hs => by simp [hs]

@[simp] theorem canon_specTimeOutConfig (q : Request) : Canon (specTimeOutConfig.act q s) ↔ Canon s := by simp [specTimeOutConfig]

theorem outCanon_execTimeOutConfig (q) (hs : Canon s) : OutCanon (execTimeOutConfig q s) :=
  outCanon_kenra hs _ _ _ fun q s hs => by simp [hs]

@[simp] theorem canon_specTimeTrigArm (q : Request) : Canon (specTimeTrigArm.act q s) ↔ Canon s := by simp [specTimeTrigArm]

theorem outCanon_execTimeTrigArm (q) (hs : Canon s) : OutCanon (execTimeTrigArm q s) :=
  outCanon_kenra hs _ _ _ fun q s hs => by simp [hs]

@[simp] theorem canon_cancelTrigger (k) : Canon (cancelTrigger k s) ↔ Canon s := by
  unfold cancelTrigger
  (repeat' split) <;> simp

@[simp] theorem canon_specTimeTrigCancel (q : Request) : Canon (specTimeTrigCancel.act q s) ↔ Canon s := by
  simp [specTimeTrigCancel]

theorem outCanon_execTimeTrigCancel (q) (hs : Canon s) : OutCanon (execTimeTrigCancel q s) :=
  outCanon_kenra hs _ _ _ fun q s hs => by simp [hs]

@[simp] theorem canon_specTimeStatus (q : Request) : Canon (specTimeStatus.act q s) ↔ Canon s := by simp [specTimeStatus]

theorem outCanon_execTimeStatus (q) (hs : Canon s) : OutCanon (execTimeStatus q s) :=
  outCanon_kenra hs _ _ _ fun q s hs => by simp [hs]

@[simp] theorem canon_specPtpConfig (q : Request) : Canon (specPtpConfig.act q s) ↔ Canon s := by simp [specPtpConfig]

theorem outCanon_execPtpConfig (q) (hs : Canon s) : OutCanon (execPtpConfig q s) :=
  outCanon_kenra hs _ _ _ fun q s hs => by simp [hs]

@[simp] theorem canon_specPtpStep (q : Request) : Canon (specPtpStep.act q s) ↔ Canon s := by simp [specPtpStep]

theorem outCanon_execPtpStep (q) (hs : Canon s) : OutCanon (execPtpStep q s) :=
  outCanon_kenra hs _ _ _ fun q s hs => by simp [hs]

@[simp] theorem canon_specPtpRelayConfig (q : Request) : Canon (specPtpRelayConfig.act q s) ↔ Canon s := by
  simp [specPtpRelayConfig]

theorem outCanon_execPtpRelayConfig (q) (hs : Canon s) : OutCanon (execPtpRelayConfig q s) :=
  outCanon_kenra hs _ _ _ fun q s hs => by simp [hs]

/-! Twin. -/

@[simp] theorem canon_sendTwin (l) : Canon (sendTwin l s) ↔ Canon s := by
  unfold sendTwin
  dsimp only
  (repeat' split) <;> simp

@[simp] theorem canon_sendCheckpoint : Canon (sendCheckpoint s) ↔ Canon s := by simp [sendCheckpoint]
@[simp] theorem canon_checkpointSecond : Canon (checkpointSecond s) ↔ Canon s := by simp [checkpointSecond]
@[simp] theorem canon_sendHandover (n) : Canon (sendHandover n s) ↔ Canon s := by simp [sendHandover]
@[simp] theorem canon_askSafe : Canon (askSafe s) ↔ Canon s := by simp [askSafe]
@[simp] theorem canon_sendControlFrame (k) (body) : Canon (sendControlFrame k body s) ↔ Canon s := by simp [sendControlFrame]
@[simp] theorem canon_stopLead : Canon (stopLead s) ↔ Canon s := by simp [stopLead]
@[simp] theorem canon_acquireLead (silent) : Canon (acquireLead silent s) ↔ Canon s := by simp [acquireLead]

theorem outCanon_execTakeover (hs : Canon s) : OutCanon (execTakeover s) := by
  simp [execTakeover, hs]

@[simp] theorem canon_loadCheckpoint : Canon (loadCheckpoint s) ↔ Canon s := by
  unfold loadCheckpoint
  (repeat' split) <;> simp

@[simp] theorem canon_beginDuties : Canon (beginDuties s) ↔ Canon s := by simp [beginDuties]
@[simp] theorem canon_completeTakeover (nt) : Canon (completeTakeover nt s) ↔ Canon s := by simp [completeTakeover]

theorem outCanon_execTakeoverComplete (hs : Canon s) : OutCanon (execTakeoverComplete s) := outCanon_whenOn _ _ (fun s hs => by
  (repeat' split) <;> simp [hs]) hs

@[simp] theorem canon_boundTakeover : Canon (boundTakeover s) ↔ Canon s := by
  unfold boundTakeover
  (repeat' split) <;> simp

theorem outCanon_execYieldLead (hs : Canon s) : OutCanon (execYieldLead s) := by
  simp [execYieldLead, hs]

theorem outCanon_execRidgeHeartbeatWithdraw (hs : Canon s) : OutCanon (execRidgeHeartbeatWithdraw s) := by
  simp [execRidgeHeartbeatWithdraw, hs]

theorem outCanon_execHbInEdge (width) (hs : Canon s) : OutCanon (execHbInEdge width s) := by
  simp [execHbInEdge, hs]

theorem outCanon_execHeartbeat (m) (hs : Canon s) : OutCanon (execHeartbeat m s) := by
  simp [execHeartbeat, hs]

@[simp] theorem canon_judgeSkew : Canon (judgeSkew s) ↔ Canon s := by simp [judgeSkew]
@[simp] theorem canon_judgeFrame : Canon (judgeFrame s) ↔ Canon s := by simp [judgeFrame]
@[simp] theorem canon_clearPaths : Canon (clearPaths s) ↔ Canon s := by simp [clearPaths]

@[simp] theorem canon_namedRoles : Canon (namedRoles s) ↔ Canon s := by
  unfold namedRoles
  dsimp only
  (repeat' split) <;> simp

@[simp] theorem canon_askReclaim : Canon (askReclaim s) ↔ Canon s := by simp [askReclaim]
@[simp] theorem canon_sendHeartbeat (claim) : Canon (sendHeartbeat claim s) ↔ Canon s := by simp [sendHeartbeat]
@[simp] theorem canon_twinTick : Canon (twinTick s) ↔ Canon s := by simp [twinTick]

theorem outCanon_execFollowerHeartbeatToggle (hs : Canon s) : OutCanon (execFollowerHeartbeatToggle s) := by
  simp [execFollowerHeartbeatToggle, hs]

theorem outCanon_execHbPathDown (link) (hs : Canon s) : OutCanon (execHbPathDown link s) := by
  simp [execHbPathDown, hs]

theorem outCanon_execTwinSkew (hs : Canon s) : OutCanon (execTwinSkew s) := by
  simp [execTwinSkew, hs]

theorem outCanon_execConfigMismatch (hs : Canon s) : OutCanon (execConfigMismatch s) := by
  simp [execConfigMismatch, hs]

@[simp] theorem canon_keepCheckpoint (frame) (l) (hs : Canon s) : Canon (keepCheckpoint frame l s) := by
  simp [keepCheckpoint, hs]

theorem outCanon_execCheckpoint (m) (hs : Canon s) : OutCanon (execCheckpoint m s) := by
  unfold execCheckpoint
  simp +contextual [hs]

theorem outCanon_execCheckpointStale (hs : Canon s) : OutCanon (execCheckpointStale s) := by
  simp [execCheckpointStale, hs]

theorem outCanon_execHandover (m) (hs : Canon s) : OutCanon (execHandover m s) := by
  simp [execHandover, hs]

theorem outCanon_execReclaim (m) (hs : Canon s) : OutCanon (execReclaim m s) := by
  simp [execReclaim, hs]

theorem outCanon_execReclaimAck (m) (hs : Canon s) : OutCanon (execReclaimAck m s) := by
  simp [execReclaimAck, hs]

@[simp] theorem canon_specTwinConfig (q : Request) : Canon (specTwinConfig.act q s) ↔ Canon s := by simp [specTwinConfig]

theorem outCanon_execTwinConfig (q) (hs : Canon s) : OutCanon (execTwinConfig q s) :=
  outCanon_kenra hs _ _ _ fun q s hs => by simp [hs]

@[simp] theorem canon_specTwinCheckpoint (q : Request) : Canon (specTwinCheckpoint.act q s) ↔ Canon s := by
  simp [specTwinCheckpoint]

theorem outCanon_execTwinCheckpoint (q) (hs : Canon s) : OutCanon (execTwinCheckpoint q s) :=
  outCanon_kenra hs _ _ _ fun q s hs => by simp [hs]

@[simp] theorem canon_specTwinStatus (q : Request) : Canon (specTwinStatus.act q s) ↔ Canon s := by simp [specTwinStatus]

theorem outCanon_execTwinStatus (q) (hs : Canon s) : OutCanon (execTwinStatus q s) :=
  outCanon_kenra hs _ _ _ fun q s hs => by simp [hs]

/-! Health. -/

@[simp] theorem canon_keepCode (c) (a) : Canon (keepCode c a s) ↔ Canon s := by simp [keepCode]
@[simp] theorem canon_keepRound (c) (a) : Canon (keepRound c a s) ↔ Canon s := by simp [keepRound]
@[simp] theorem canon_injectConvert (e) (raw) : Canon (injectConvert e raw s) ↔ Canon s := by simp [injectConvert]

@[simp] theorem canon_calBegin : Canon (calBegin s) ↔ Canon s := by
  unfold calBegin
  (repeat' split) <;> simp

@[simp] theorem canon_injectLatch (e) : Canon (injectLatch e s) ↔ Canon s := by simp [injectLatch]

@[simp] theorem canon_injectExpire (e) (raw) : Canon (injectExpire e raw s) ↔ Canon s := by
  unfold injectExpire
  dsimp only
  (repeat' split) <;> simp

theorem outCanon_execAdcInjectConversion (entry) (raw) (hs : Canon s) : OutCanon (execAdcInjectConversion entry raw s) := by
  simp [execAdcInjectConversion, hs]

theorem outCanon_execAdcInjectTimer (entry) (hs : Canon s) : OutCanon (execAdcInjectTimer entry s) := by
  simp [execAdcInjectTimer, hs]

theorem outCanon_execAdcTrigEdge (width) (hs : Canon s) : OutCanon (execAdcTrigEdge width s) := by
  simp [execAdcTrigEdge, hs]

theorem outCanon_execFanPwmEdge (fanNo) (hs : Canon s) : OutCanon (execFanPwmEdge fanNo s) := by
  simp [execFanPwmEdge, hs]

theorem outCanon_execAdcCalStepDone (sum) (hs : Canon s) :
    OutCanon (execAdcCalStepDone sum s) := outCanon_whenOn _ _ (fun s hs => by
  (repeat' split) <;> simp [hs]) hs

@[simp] theorem canon_applyCal : Canon (applyCal s) ↔ Canon s := by simp [applyCal]
@[simp] theorem canon_startRound : Canon (startRound s) ↔ Canon s := by simp [startRound]
@[simp] theorem canon_crossCheck (r) : Canon (crossCheck s r) ↔ Canon s := by simp [crossCheck]

@[simp] theorem canon_judgeZone (z) : Canon (judgeZone s z) ↔ Canon s := by
  unfold judgeZone
  dsimp only
  (repeat' split) <;> simp

@[simp] theorem canon_selfCheck (k) (code) : Canon (selfCheck s k code) ↔ Canon s := by simp [selfCheck]
@[simp] theorem canon_judgeDimms : Canon (judgeDimms s) ↔ Canon s := by simp [judgeDimms]
@[simp] theorem canon_raiseCauses (was) : Canon (raiseCauses was s) ↔ Canon s := by simp [raiseCauses]
@[simp] theorem canon_forceFans : Canon (forceFans s) ↔ Canon s := by simp [forceFans]

theorem outCanon_execFanCycle (hs : Canon s) : OutCanon (execFanCycle s) := by
  simp [execFanCycle, hs]

theorem outCanon_execFanLoopIdle (hs : Canon s) : OutCanon (execFanLoopIdle s) := by
  simp [execFanLoopIdle, hs]

theorem outCanon_execFanTachEdge (fanNo) (width) (hs : Canon s) : OutCanon (execFanTachEdge fanNo width s) := by
  simp [execFanTachEdge, hs]

@[simp] theorem canon_watchFan (f) : Canon (watchFan s f) ↔ Canon s := by simp [watchFan]

theorem outCanon_execFanFail (fanNo) (hs : Canon s) : OutCanon (execFanFail fanNo s) := outCanon_whenOn _ _ (fun s hs => by
  dsimp only
  (repeat' split) <;> simp [hs]) hs

theorem outCanon_execAdcRoundEnd (codes) (hs : Canon s) : OutCanon (execAdcRoundEnd codes s) := by
  simp [execAdcRoundEnd, hs]

@[simp] theorem canon_specHealthConfig (q : Request) : Canon (specHealthConfig.act q s) ↔ Canon s := by simp [specHealthConfig]

theorem outCanon_execHealthConfig (q) (hs : Canon s) : OutCanon (execHealthConfig q s) :=
  outCanon_kenra hs _ _ _ fun q s hs => by simp [hs]

@[simp] theorem canon_specHealthAdcRead (q : Request) : Canon (specHealthAdcRead.act q s) ↔ Canon s := by simp [specHealthAdcRead]

theorem outCanon_execHealthAdcRead (q) (hs : Canon s) : OutCanon (execHealthAdcRead q s) :=
  outCanon_kenra hs _ _ _ fun q s hs => by simp [hs]

@[simp] theorem canon_specHealthAdcInject (q : Request) : Canon (specHealthAdcInject.act q s) ↔ Canon s := by
  simp [specHealthAdcInject]

theorem outCanon_execHealthAdcInject (q) (hs : Canon s) : OutCanon (execHealthAdcInject q s) :=
  outCanon_kenra hs _ _ _ fun q s hs => by simp [hs]

@[simp] theorem canon_specHealthAdcCal (q : Request) : Canon (specHealthAdcCal.act q s) ↔ Canon s := by simp [specHealthAdcCal]

theorem outCanon_execHealthAdcCal (q) (hs : Canon s) : OutCanon (execHealthAdcCal q s) :=
  outCanon_kenra hs _ _ _ fun q s hs => by simp [hs]

@[simp] theorem canon_specHealthFanConfig (q : Request) : Canon (specHealthFanConfig.act q s) ↔ Canon s := by
  simp [specHealthFanConfig]

theorem outCanon_execHealthFanConfig (q) (hs : Canon s) : OutCanon (execHealthFanConfig q s) :=
  outCanon_kenra hs _ _ _ fun q s hs => by simp [hs]

@[simp] theorem canon_specHealthStatus (q : Request) : Canon (specHealthStatus.act q s) ↔ Canon s := by simp [specHealthStatus]

theorem outCanon_execHealthStatus (q) (hs : Canon s) : OutCanon (execHealthStatus q s) :=
  outCanon_kenra hs _ _ _ fun q s hs => by simp [hs]

/-! Lanes. -/

@[simp] theorem canon_modLanes (k) (f) : Canon (modLanes k f s) ↔ Canon s := by simp [modLanes]
@[simp] theorem canon_unlockLanes (k) : Canon (unlockLanes k s) ↔ Canon s := by simp [unlockLanes]
@[simp] theorem canon_startTrain (k) : Canon (startTrain k s) ↔ Canon s := by simp [startTrain]
@[simp] theorem canon_goTo (st) (k) : Canon (goTo st k s) ↔ Canon s := by simp [goTo]
@[simp] theorem canon_retrain (k) : Canon (retrain k s) ↔ Canon s := by simp [retrain]
@[simp] theorem canon_linkLoss (k) : Canon (linkLoss k s) ↔ Canon s := by simp [linkLoss]
@[simp] theorem canon_quadDown (k) : Canon (quadDown k s) ↔ Canon s := by simp [quadDown]
@[simp] theorem canon_startQuad (k) : Canon (startQuad k s) ↔ Canon s := by simp [startQuad]

theorem outCanon_execReceiverDetect (quadNo) (present) (hs : Canon s) : OutCanon (execReceiverDetect quadNo present s) := by
  simp [execReceiverDetect, hs]

@[simp] theorem canon_trainLane (l) (request) (flags) : Canon (trainLane l request flags s) ↔ Canon s := by simp [trainLane]

@[simp] theorem canon_trainReceived (l) (request) (flags) : Canon (trainReceived l request flags s) ↔ Canon s := by
  simp [trainReceived]

theorem outCanon_execTrainBlockReceive (laneNo) (b) (hs : Canon s) :
    OutCanon (execTrainBlockReceive laneNo b s) := outCanon_whenOn _ _ (fun s hs => by
  (repeat' split) <;> simp [hs]) hs

@[simp] theorem canon_stateEnds (k) (n) : Canon (stateEnds k n s) ↔ Canon s := by simp [stateEnds]

theorem outCanon_execTrainTimeout (quadNo) (hs : Canon s) : OutCanon (execTrainTimeout quadNo s) := by
  simp [execTrainTimeout, hs]

@[simp] theorem canon_lockDone (k) : Canon (lockDone k s) ↔ Canon s := by simp [lockDone]

theorem outCanon_execBlockLockAcquired (laneNo) (headers) (hs : Canon s) : OutCanon (execBlockLockAcquired laneNo headers s) := by
  simp [execBlockLockAcquired, hs]

@[simp] theorem canon_laneFailed (l) : Canon (laneFailed l s) ↔ Canon s := by simp [laneFailed]
@[simp] theorem canon_headerSeen (l) (h) : Canon (headerSeen l h s) ↔ Canon s := by simp [headerSeen]

theorem outCanon_execBlockLockLost (laneNo) (headers) (hs : Canon s) : OutCanon (execBlockLockLost laneNo headers s) := by
  simp [execBlockLockLost, hs]

@[simp] theorem canon_alignReceived (l) (logical) (width) (c) (skew) :
    Canon (alignReceived l logical width c skew s) ↔ Canon s := by
  simp [alignReceived]

theorem outCanon_execAlignBlockReceive (laneNo) (b) (skew) (hs : Canon s) :
    OutCanon (execAlignBlockReceive laneNo b skew s) := outCanon_whenOn _ _ (fun s hs => by
  (repeat' split) <;> simp [hs]) hs

theorem outCanon_execAlignMissing (laneNo) (hs : Canon s) : OutCanon (execAlignMissing laneNo s) := by
  simp [execAlignMissing, hs]

theorem outCanon_execFecCodeword (laneNo) (w) (hs : Canon s) :
    OutCanon (execFecCodeword laneNo w s) := outCanon_whenOn _ _ (fun s hs => by
  (repeat' split) <;> simp [hs]) hs

@[simp] theorem canon_idleLanes (k) (w) : Canon (idleLanes k w s) ↔ Canon s := by simp [idleLanes]

theorem outCanon_execLockTimeout (quadNo) (hs : Canon s) :
    OutCanon (execLockTimeout quadNo s) := outCanon_whenOn _ _ (fun s hs => by
  dsimp only
  (repeat' split) <;> simp [hs]) hs

@[simp] theorem canon_judgeCap (k) (c) : Canon (judgeCap k c s) ↔ Canon s := by
  unfold judgeCap
  dsimp only
  (repeat' split) <;> simp

@[simp] theorem canon_capReceived (k) (index) (content) : Canon (capReceived k index content s) ↔ Canon s := by simp [capReceived]

theorem outCanon_execCapBlockReceive (quadNo) (b) (hs : Canon s) :
    OutCanon (execCapBlockReceive quadNo b s) := outCanon_whenOn _ _ (fun s hs => by
  (repeat' split) <;> simp [hs]) hs

theorem outCanon_execExchangeTimeout (quadNo) (hs : Canon s) : OutCanon (execExchangeTimeout quadNo s) := by
  simp [execExchangeTimeout, hs]

theorem outCanon_execQuadLost (quadNo) (hs : Canon s) : OutCanon (execQuadLost quadNo s) := by
  simp [execQuadLost, hs]

@[simp] theorem canon_quadsTick : Canon (quadsTick s) ↔ Canon s := by simp [quadsTick]
@[simp] theorem canon_maybeIdle (k) : Canon (maybeIdle k s) ↔ Canon s := by simp [maybeIdle]

theorem outCanon_execNapIdleTimer (quadNo) (hs : Canon s) : OutCanon (execNapIdleTimer quadNo s) := by
  simp [execNapIdleTimer, hs]

theorem outCanon_execNapReq (quadNo) (hs : Canon s) : OutCanon (execNapReq quadNo s) := by
  simp [execNapReq, hs]

theorem outCanon_execNapAck (quadNo) (hs : Canon s) : OutCanon (execNapAck quadNo s) := by
  simp [execNapAck, hs]

theorem outCanon_execNapNak (quadNo) (hs : Canon s) : OutCanon (execNapNak quadNo s) := by
  simp [execNapNak, hs]

theorem outCanon_execFastExit (quadNo) (own) (lanes) (hs : Canon s) : OutCanon (execFastExit quadNo own lanes s) := by
  simp [execFastExit, hs]

theorem outCanon_execFastExitTimeout (quadNo) (hs : Canon s) :
    OutCanon (execFastExitTimeout quadNo s) := outCanon_whenOn _ _ (fun s hs => by
  dsimp only
  (repeat' split) <;> simp [hs]) hs

theorem outCanon_execEthLinkChange (quadNo) (up) (hs : Canon s) :
    OutCanon (execEthLinkChange quadNo up s) := outCanon_whenOn _ _ (fun s hs => by
  dsimp only
  (repeat' split) <;> simp [hs]) hs

@[simp] theorem canon_selectModule (k) : Canon (selectModule k s) ↔ Canon s := by simp [selectModule]

theorem outCanon_execModuleInsert (quadNo) (identity) (applications) (hs : Canon s) :
    OutCanon (execModuleInsert quadNo identity applications s) := by
  simp [execModuleInsert, hs]

@[simp] theorem canon_removeModule (k) : Canon (removeModule k s) ↔ Canon s := by simp [removeModule]

theorem outCanon_execModuleRemove (quadNo) (hs : Canon s) : OutCanon (execModuleRemove quadNo s) := by
  simp [execModuleRemove, hs]

theorem outCanon_execModulePoll (quadNo) (flags) (hs : Canon s) : OutCanon (execModulePoll quadNo flags s) := by
  simp [execModulePoll, hs]

theorem outCanon_execVmodOverload (k) (hs : Canon s) : OutCanon (execVmodOverload k s) := by
  simp [execVmodOverload, hs]

theorem outCanon_execVmodRetry (k) (hs : Canon s) : OutCanon (execVmodRetry k s) := by
  simp [execVmodRetry, hs]

@[simp] theorem canon_checkBit (l) (p) (b) : Canon (checkBit l p b s) ↔ Canon s := by simp [checkBit]
@[simp] theorem canon_sendPattern (p) (n) (l) : Canon (sendPattern p n l s) ↔ Canon s := by simp [sendPattern]

theorem outCanon_execPatternCheckLock (laneNo) (bits) (hs : Canon s) :
    OutCanon (execPatternCheckLock laneNo bits s) := outCanon_whenOn _ _ (fun s hs => by
  dsimp only
  (repeat' split) <;> simp [hs]) hs

@[simp] theorem canon_setPattern (a) (l) : Canon (setPattern a l s) ↔ Canon s := by simp [setPattern]
@[simp] theorem canon_specLanePrbs (q : Request) : Canon (specLanePrbs.act q s) ↔ Canon s := by simp [specLanePrbs]

theorem outCanon_execLanePrbs (q) (hs : Canon s) : OutCanon (execLanePrbs q s) :=
  outCanon_kenra hs _ _ _ fun q s hs => by simp [hs]

@[simp] theorem canon_configQuad (a) (k) : Canon (configQuad a k s) ↔ Canon s := by simp [configQuad]
@[simp] theorem canon_specLaneConfig (q : Request) : Canon (specLaneConfig.act q s) ↔ Canon s := by simp [specLaneConfig]

theorem outCanon_execLaneConfig (q) (hs : Canon s) : OutCanon (execLaneConfig q s) :=
  outCanon_kenra hs _ _ _ fun q s hs => by simp [hs]

@[simp] theorem canon_specLaneRetrain (q : Request) : Canon (specLaneRetrain.act q s) ↔ Canon s := by simp [specLaneRetrain]

theorem outCanon_execLaneRetrain (q) (hs : Canon s) : OutCanon (execLaneRetrain q s) :=
  outCanon_kenra hs _ _ _ fun q s hs => by simp [hs]

@[simp] theorem canon_specLaneStatus (q : Request) : Canon (specLaneStatus.act q s) ↔ Canon s := by simp [specLaneStatus]

theorem outCanon_execLaneStatus (q) (hs : Canon s) : OutCanon (execLaneStatus q s) :=
  outCanon_kenra hs _ _ _ fun q s hs => by simp [hs]

@[simp] theorem canon_specEthConfig (q : Request) : Canon (specEthConfig.act q s) ↔ Canon s := by simp [specEthConfig]

theorem outCanon_execEthConfig (q) (hs : Canon s) : OutCanon (execEthConfig q s) :=
  outCanon_kenra hs _ _ _ fun q s hs => by simp [hs]

@[simp] theorem canon_specModuleConfig (q : Request) : Canon (specModuleConfig.act q s) ↔ Canon s := by simp [specModuleConfig]

theorem outCanon_execModuleConfig (q) (hs : Canon s) : OutCanon (execModuleConfig q s) :=
  outCanon_kenra hs _ _ _ fun q s hs => by simp [hs]

@[simp] theorem canon_specModuleRead (q : Request) : Canon (specModuleRead.act q s) ↔ Canon s := by simp [specModuleRead]

theorem outCanon_execModuleRead (q) (hs : Canon s) : OutCanon (execModuleRead q s) :=
  outCanon_kenra hs _ _ _ fun q s hs => by simp [hs]

@[simp] theorem canon_specModuleWrite (q : Request) : Canon (specModuleWrite.act q s) ↔ Canon s := by simp [specModuleWrite]

theorem outCanon_execModuleWrite (q) (hs : Canon s) : OutCanon (execModuleWrite q s) :=
  outCanon_kenra hs _ _ _ fun q s hs => by simp [hs]

/-! PegCore. -/

@[simp] theorem canon_pegFaultAt (p) (g) (code) (addr) : Canon (pegFaultAt p g code addr s) ↔ Canon s := by simp [pegFaultAt]
@[simp] theorem canon_countEcc (c) (p) (e) : Canon (countEcc c p e s) ↔ Canon s := by simp [countEcc]

/-- An instruction's body keeps the canonical form where it does not fault. -/
def OkCanon {ε : Type} (r : Except ε (Peg × State)) : Prop := ∀ g t, r = .ok (g, t) → Canon t

@[simp] theorem okCanon_ok {ε : Type} (g : Peg) (t : State) : OkCanon (.ok (g, t) : Except ε _) ↔ Canon t :=
  ⟨fun h => h g t rfl, fun h g' t' e => by injection e with e; injection e with _ e; exact e ▸ h⟩

@[simp] theorem okCanon_error {ε : Type} (e : ε) : OkCanon (.error e : Except ε _) := fun _ _ h => nomatch h

/-- A body that keeps the canonical form. -/
def BodyCanon (b : PegBody) : Prop := ∀ s g, Canon s → OkCanon (b s g)

theorem canon_pegIssue (p : PegIssue) (body : PegBody) (hb : BodyCanon body) (hs : Canon s) : Canon (pegIssue p body s) := by
  have hecc : ∀ c n e, Canon (countEcc c n e s) := fun _ _ _ => by simp [hs]
  unfold pegIssue
  dsimp only
  split
  · exact hs
  · split
    · simp [hs]
    · split
      · simp [hs]
      next h => simp [hb _ _ (hecc _ _ _) _ _ h]

@[simp] theorem canon_pegRaise (p) (src) : Canon (pegRaise p src s) ↔ Canon s := by simp [pegRaise]
@[simp] theorem canon_loadService (k) (p) : Canon (loadService k p s) ↔ Canon s := by simp [loadService]

/-! Boot. -/

theorem canon_resetUnits (hard : Bool) (hs : Canon s) : Canon (resetUnits hard s) := by
  obtain ⟨hh, _, hm, _⟩ := hs
  cases hard <;> exact ⟨hh, rfl, hm, rfl, rfl, rfl⟩

@[simp] theorem canon_enterBoot (n : Nat) (hs : Canon s) : Canon (enterBoot n s) := canon_resetUnits false hs

@[simp] theorem canon_writeControl (f) : Canon (writeControl f s) ↔ Canon s := by simp [writeControl]
@[simp] theorem canon_setBank (b) (st) : Canon (setBank b st s) ↔ Canon s := by simp [setBank]
@[simp] theorem canon_bankFails (a0) (a1) : Canon (bankFails a0 a1 s) ↔ Canon s := by simp [bankFails]
@[simp] theorem canon_stagePlace (n) : Canon ((stagePlace n s).2) ↔ Canon s := by simp [stagePlace]
@[simp] theorem canon_stageService (bytes) : Canon (stageService bytes s) ↔ Canon s := by simp [stageService]
@[simp] theorem canon_loadSections (p) : Canon (loadSections p s) ↔ Canon s := by simp [loadSections]
@[simp] theorem canon_startBank (b) (c) (payload) : Canon (startBank b c payload s) ↔ Canon s := by simp [startBank]
@[simp] theorem canon_copyBank (n) (bad) : Canon (copyBank n bad s) ↔ Canon s := by simp [copyBank]

@[simp] theorem canon_tryBanks (l : List Bool) (hs : Canon s) : Canon (tryBanks l s) := by
  induction l generalizing s with
  | nil => exact hs
  | cons b rest ih =>
    have hcopy : Canon (copyBank bankSize (testBit s.boot.copyBad.toNat (bit b)) s) := by simp [hs]
    unfold tryBanks
    dsimp only
    generalize copyBank bankSize (testBit s.boot.copyBad.toNat (bit b)) s = u at hcopy ⊢
    split
    · exact ih (by simp [hcopy])
    · generalize checkContainer false false true _ _ = v
      have hdec : ∀ l, Canon (if v.code = 6 then decodeBad 15 v.reason (stageService l u)
          else if v.code = 0 ∨ v.code = 7 then decodeGood 15 (stageService l u) else stageService l u) := fun l => by
        (repeat' split) <;> simp [hcopy]
      generalize hw : (if v.code = 6 then _ else _ : State) = w
      have hw' : Canon w := hw ▸ hdec _
      split
      · exact ih (by simp [hw'])
      · split
        · exact ih (by simp [hw'])
        · simp [hw']

@[simp] theorem canon_bootReport : Canon (bootReport s) ↔ Canon s := by
  unfold bootReport
  dsimp only
  (repeat' split) <;> simp

@[simp] theorem canon_romSafe (hs : Canon s) : Canon (romSafe s) := by
  simp [romSafe, hs]

@[simp] theorem canon_afterBanks (hs : Canon s) : Canon (afterBanks s) := by
  simp [afterBanks, hs]

@[simp] theorem canon_bootDram (b : BootInput) (hs : Canon s) : Canon (bootDram b s) := by
  unfold bootDram
  exact canon_foldl _ (fun _ _ h => by simp [h]) _ _ (canon_foldl _ (fun _ _ h => by simp [h]) _ _ (canonParts_noDram hs))

theorem outCanon_execBoot (b : BootInput) (hs : Canon s) : OutCanon (execBoot b s) :=
  outCanon_whenOn _ _ (fun s hs => by
    have hdram : Canon (bootDram b s) := canon_bootDram b hs
    dsimp only
    (repeat' split) <;> simp [hs, hdram]) hs

@[simp] theorem canon_raiseVersion : Canon (raiseVersion s) ↔ Canon s := by
  unfold raiseVersion
  (repeat' split) <;> simp

@[simp] theorem canon_activateBank : Canon (activateBank s) ↔ Canon s := by
  unfold activateBank
  (repeat' split) <;> simp

theorem outCanon_execBootZeroingDone (hs : Canon s) : OutCanon (execBootZeroingDone s) := by
  unfold execBootZeroingDone
  simp +contextual [hs]

theorem outCanon_execBootTimeout (hs : Canon s) : OutCanon (execBootTimeout s) :=
  outCanon_whenOn _ _ (fun s hs => by
    have hcount : ∀ n, Canon (count .bootTimeout 0 (elapseTo n s)) := fun n => by simp [hs]
    split
    next b _ _ =>
      generalize hu : count .bootTimeout 0 (elapseTo (s.boot.startedAt + 30000000000) s) = u
      have hu' : Canon u := hu ▸ hcount _
      dsimp only
      exact canon_afterBanks (canon_tryBanks _ ((canon_bankFails ..).mpr (canonParts_noShared hu')))
    · exact hs) hs

@[simp] theorem canon_eraseBank (b) (hs : Canon s) : Canon (eraseBank b s) := by
  simp [eraseBank, hs]

@[simp] theorem canon_specFwUpdateBegin (q : Request) (hs : Canon s) : Canon (specFwUpdateBegin.act q s) := by
  have hset : ∀ t, Canon t → Canon (setState .update 8 (sealRecorder t)) := fun t ht => by simp [ht]
  have hend : Canon (endTxnForState (sendHandover (s.time.frame + 1) s)) := by simp [hs]
  have hst := hset _ hend
  dsimp only [specFwUpdateBegin]
  generalize setState .update 8 _ = u at hst ⊢
  simp [hst]

theorem outCanon_execFwUpdateBegin (q) (hs : Canon s) : OutCanon (execFwUpdateBegin q s) :=
  outCanon_kenra hs _ _ _ fun q s hs => by simp [hs]

@[simp] theorem canon_specFwUpdateData (q : Request) : Canon (specFwUpdateData.act q s) ↔ Canon s := by simp [specFwUpdateData]

theorem outCanon_execFwUpdateData (q) (hs : Canon s) : OutCanon (execFwUpdateData q s) :=
  outCanon_kenra hs _ _ _ fun q s hs => by simp [hs]

theorem outCanon_execFwUpdateDataDone (retriesFailed) (hs : Canon s) :
    OutCanon (execFwUpdateDataDone retriesFailed s) := outCanon_whenOn _ _ (fun s hs => by
  dsimp only
  (repeat' split) <;> simp [hs]) hs

@[simp] theorem canon_specFwUpdateEnd (q : Request) : Canon (specFwUpdateEnd.act q s) ↔ Canon s := by simp [specFwUpdateEnd]

theorem outCanon_execFwUpdateEnd (q) (hs : Canon s) : OutCanon (execFwUpdateEnd q s) :=
  outCanon_kenra hs _ _ _ fun q s hs => by simp [hs]

theorem outCanon_execFwUpdateCheckDone (engine) (hs : Canon s) :
    OutCanon (execFwUpdateCheckDone engine s) := outCanon_whenOn _ _ (fun s hs => by
  (repeat' split) <;> simp [hs]) hs

theorem outCanon_execUpdateReboot (hs : Canon s) : OutCanon (execUpdateReboot s) := by
  unfold execUpdateReboot
  simp +contextual [hs]

theorem outCanon_bootAfter (cause : Nat) (c : Instr) (k : Spec) (q : Request) (hs : Canon s)
    (hact : ∀ q s, Canon s → Canon (k.act q s)) : OutCanon (bootAfter cause c k q s) :=
  outCanon_whenActive hs c _ fun s hs => by
    have hstep := canon_kenraStep c k q hs hact
    dsimp only
    split
    · exact canon_enterBoot _ hstep
    · exact hstep

@[simp] theorem canon_specFwUpdateAbort (q : Request) : Canon (specFwUpdateAbort.act q s) ↔ Canon s := by simp [specFwUpdateAbort]

theorem outCanon_execFwUpdateAbort (q) (hs : Canon s) : OutCanon (execFwUpdateAbort q s) :=
  outCanon_bootAfter _ _ _ _ hs fun q s hs => by simp [hs]

@[simp] theorem canon_specSysRestart (q : Request) : Canon (specSysRestart.act q s) ↔ Canon s := by simp [specSysRestart]

theorem outCanon_execSysRestart (q) (hs : Canon s) : OutCanon (execSysRestart q s) :=
  outCanon_bootAfter _ _ _ _ hs fun q s hs => by simp [hs]

@[simp] theorem canon_specFwInfo (q : Request) : Canon (specFwInfo.act q s) ↔ Canon s := by simp [specFwInfo]

theorem outCanon_execFwInfo (q) (hs : Canon s) : OutCanon (execFwInfo q s) :=
  outCanon_kenra hs _ _ _ fun q s hs => by simp [hs]

@[simp] theorem canon_specFwKeyEnroll (q : Request) : Canon (specFwKeyEnroll.act q s) ↔ Canon s := by simp [specFwKeyEnroll]

theorem outCanon_execFwKeyEnroll (q) (hs : Canon s) : OutCanon (execFwKeyEnroll q s) :=
  outCanon_kenra hs _ _ _ fun q s hs => by simp [hs]

theorem outCanon_execFwKeyEnrollDone (verified) (hs : Canon s) :
    OutCanon (execFwKeyEnrollDone verified s) := outCanon_whenOn _ _ (fun s hs => by
  dsimp only
  (repeat' split) <;> simp [hs]) hs

/-! Channeliser. -/

@[simp] theorem canon_settleFades (k) : Canon (settleFades k s) ↔ Canon s := by simp [settleFades]
@[simp] theorem canon_addSwap (k) (w) : Canon (addSwap k w s) ↔ Canon s := by simp [addSwap]
@[simp] theorem canon_setGains (key) (frame) (first) (l) : Canon (setGains key frame first l s) ↔ Canon s := by simp [setGains]

@[simp] theorem canon_tableFault (key) (k) (frame) (expired) : Canon (tableFault key k frame expired s) ↔ Canon s := by
  simp [tableFault]

@[simp] theorem canon_countStat (key) (k) (j) (clip) (pre) (post) : Canon (countStat key k j clip pre post s) ↔ Canon s := by
  simp [countStat]

theorem outCanon_execStatsIntervalEnd (slice') (hs : Canon s) : OutCanon (execStatsIntervalEnd slice' s) := by
  simp [execStatsIntervalEnd, hs]

@[simp] theorem canon_requantise (key) (k) (u) (frame) (tab) (flag) (j) (y) :
    Canon ((requantise key k u frame tab flag j y s).2) ↔ Canon s := by
  unfold requantise
  (repeat' split) <;> simp

theorem canon_foldl_pair {α β : Type} (f : β × State → α → β × State) (hf : ∀ a x, Canon a.2 → Canon (f a x).2) (l : List α)
    (a : β × State) (ha : Canon a.2) : Canon (l.foldl f a).2 := by
  induction l generalizing a with
  | nil => exact ha
  | cons x l ih => exact ih _ (hf a x ha)

@[simp] theorem canon_emitOutput (key k n : Nat) (hs : Canon s) : Canon (emitOutput key k n s) := by
  unfold emitOutput
  dsimp only
  rw [canon_modUnit, canon_putOutput]
  refine canon_foldl_pair _ (fun _ _ h => by simp [h]) _ _ ?_
  split <;> simp [hs]

@[simp] theorem canon_takeSample (late) (key) (k) (hs : Canon s) (e) : Canon (takeSample late key k s e) := by
  simp [takeSample, hs]

@[simp] theorem canon_runUnit (late) (n) (key) (hs : Canon s) : Canon (runUnit late n key s) := by
  unfold runUnit
  dsimp only
  (repeat' split) <;> simp +contextual [hs]

theorem outCanon_execChanneliserStep (input) (coarse) (n) (hs : Canon s) : OutCanon (execChanneliserStep input coarse n s) := by
  simp [execChanneliserStep, hs]

@[simp] theorem canon_unitTick (key) (hs : Canon s) : Canon (unitTick key s) := by
  unfold unitTick
  dsimp only
  (repeat' split) <;> simp [hs]

@[simp] theorem canon_tablesTick (n) (key) : Canon (tablesTick n key s) ↔ Canon s := by
  unfold tablesTick
  dsimp only
  (repeat' split) <;> simp

@[simp] theorem canon_chanTick (n) (hs : Canon s) : Canon (chanTick n s) := by
  simp +contextual [chanTick, hs]

@[simp] theorem canon_assignUnit (n) (key) (k) : Canon (assignUnit n key k s) ↔ Canon s := by simp [assignUnit]
@[simp] theorem canon_stopChan : Canon (stopChan s) ↔ Canon s := by simp [stopChan]

theorem outCanon_execSyncInEdge (width) (hs : Canon s) : OutCanon (execSyncInEdge width s) := by
  simp [execSyncInEdge, hs]

theorem outCanon_execSyncReset (hs : Canon s) : OutCanon (execSyncReset s) := outCanon_whenOn _ _ (fun s hs => by
  dsimp only
  (repeat' split) <;> simp [hs]) hs

@[simp] theorem canon_changeFilter (preset) (p) : Canon (changeFilter preset p s) ↔ Canon s := by simp [changeFilter]
@[simp] theorem canon_restartUnits (n) : Canon (restartUnits n s) ↔ Canon s := by simp [restartUnits]
@[simp] theorem canon_specChanConfig (q : Request) : Canon (specChanConfig.act q s) ↔ Canon s := by simp [specChanConfig]

theorem outCanon_execChanConfig (q) (hs : Canon s) : OutCanon (execChanConfig q s) :=
  outCanon_kenra hs _ _ _ fun q s hs => by simp [hs]

@[simp] theorem canon_specChanSync (q : Request) : Canon (specChanSync.act q s) ↔ Canon s := by simp [specChanSync]

theorem outCanon_execChanSync (q) (hs : Canon s) : OutCanon (execChanSync q s) :=
  outCanon_kenra hs _ _ _ fun q s hs => by simp [hs]

@[simp] theorem canon_specChanCoefLoad (q : Request) : Canon (specChanCoefLoad.act q s) ↔ Canon s := by simp [specChanCoefLoad]

theorem outCanon_execChanCoefLoad (q) (hs : Canon s) : OutCanon (execChanCoefLoad q s) :=
  outCanon_kenra hs _ _ _ fun q s hs => by simp [hs]

@[simp] theorem canon_applyCoef (q) (data) : Canon (applyCoef q data s) ↔ Canon s := by simp [applyCoef]
@[simp] theorem canon_specChanCoefSwap (q : Request) : Canon (specChanCoefSwap.act q s) ↔ Canon s := by simp [specChanCoefSwap]

theorem outCanon_execChanCoefSwap (q) (hs : Canon s) : OutCanon (execChanCoefSwap q s) :=
  outCanon_kenra hs _ _ _ fun q s hs => by simp [hs]

@[simp] theorem canon_specChanGainMode (q : Request) : Canon (specChanGainMode.act q s) ↔ Canon s := by simp [specChanGainMode]

theorem outCanon_execChanGainMode (q) (hs : Canon s) : OutCanon (execChanGainMode q s) :=
  outCanon_kenra hs _ _ _ fun q s hs => by simp [hs]

@[simp] theorem canon_specChanGainSet (q : Request) : Canon (specChanGainSet.act q s) ↔ Canon s := by simp [specChanGainSet]

theorem outCanon_execChanGainSet (q) (hs : Canon s) : OutCanon (execChanGainSet q s) :=
  outCanon_kenra hs _ _ _ fun q s hs => by simp [hs]

@[simp] theorem canon_applyGains (q) (data) : Canon (applyGains q data s) ↔ Canon s := by simp [applyGains]

@[simp] theorem canon_specChanStatsConfig (q : Request) : Canon (specChanStatsConfig.act q s) ↔ Canon s := by
  simp [specChanStatsConfig]

theorem outCanon_execChanStatsConfig (q) (hs : Canon s) : OutCanon (execChanStatsConfig q s) :=
  outCanon_kenra hs _ _ _ fun q s hs => by simp [hs]

@[simp] theorem canon_specChanStatsRead (q : Request) : Canon (specChanStatsRead.act q s) ↔ Canon s := by simp [specChanStatsRead]

theorem outCanon_execChanStatsRead (q) (hs : Canon s) : OutCanon (execChanStatsRead q s) :=
  outCanon_kenra hs _ _ _ fun q s hs => by simp [hs]

theorem outCanon_execChanStatsReadDone (fail) (hs : Canon s) : OutCanon (execChanStatsReadDone fail s) := by
  unfold execChanStatsReadDone
  simp +contextual [hs]

@[simp] theorem canon_specChanStatus (q : Request) : Canon (specChanStatus.act q s) ↔ Canon s := by simp [specChanStatus]

theorem outCanon_execChanStatus (q) (hs : Canon s) : OutCanon (execChanStatus q s) :=
  outCanon_kenra hs _ _ _ fun q s hs => by simp [hs]

/-! Pegs. -/

theorem outCanon_pegRun (p : PegIssue) (body : PegBody) (hb : BodyCanon body) (hs : Canon s) : OutCanon (pegRun p body s) :=
  outCanon_whenOn _ _ (fun _ hs => canon_pegIssue p body hb hs) hs

theorem bodyCanon_pegAlu (d : BitVec 5) (f : Peg → BitVec 32) : BodyCanon (pegAlu d f) :=
  fun _ _ hs => (okCanon_ok ..).mpr hs

theorem bodyCanon_pegAluOpen (d : BitVec 5) (f : Peg → Option (BitVec 32)) : BodyCanon (pegAluOpen d f) := fun s g hs => by
  unfold pegAluOpen
  split <;> simp [hs]

theorem bodyCanon_noSlot (b : PegBody) (hb : BodyCanon b) : BodyCanon (noSlot b) := fun s g hs => by
  unfold noSlot
  split
  · simp
  · exact hb s g hs

theorem bodyCanon_branchBody (b : PegBody) (hb : BodyCanon b) : BodyCanon (branchBody b) :=
  bodyCanon_noSlot _ fun s g hs => by
    split
    · simp
    · exact hb s g hs

theorem bodyCanon_pegLoadBody (p : PegIssue) (d : BitVec 5) (k : BitVec 3) (n : Nat) (widen : Nat → BitVec 32) :
    BodyCanon (pegLoadBody p d k n widen) := fun s g hs => by
  unfold pegLoadBody
  split <;> simp [hs]

theorem bodyCanon_pegStoreBody (r : BitVec 5) (k : BitVec 3) (n : Nat) : BodyCanon (pegStoreBody r k n) := fun s g hs => by
  unfold pegStoreBody
  dsimp only
  split <;> simp [hs]

@[simp] theorem canon_windowBytes (n a : Nat) : Canon (windowBytes n a s).2 ↔ Canon s := by
  induction n generalizing a s with
  | zero => rfl
  | succ n ih => simp [windowBytes, ih]

@[simp] theorem canon_pegRead (p) (x) (n) (bad) (hs : Canon s) : Canon ((pegRead p x n bad s).2) := by
  unfold pegRead
  (repeat' split) <;> simp [hs]

@[simp] theorem canon_pegPut (p) (x) (l) (hs : Canon s) : Canon (pegPut p x l s) := by
  unfold pegPut
  (repeat' split) <;> simp [hs]

@[simp] theorem canon_commitTable (a0) (l) : Canon (commitTable a0 l s) ↔ Canon s := by
  unfold commitTable
  (repeat' split) <;> simp

@[simp] theorem canon_landTransfer (p) (t) (dst) (l) (hs : Canon s) : Canon (landTransfer p t dst l s) := by
  unfold landTransfer
  (repeat' split) <;> simp [hs]

@[simp] theorem canon_leaveSpace (p) (t) : Canon (leaveSpace p t s) ↔ Canon s := by simp [leaveSpace]

@[simp] theorem canon_moveTransfer (p : Nat) (t : Transfer) (src dst : PegSpace) (fail bad : Option Nat) (hs : Canon s) :
    Canon (moveTransfer p t src dst fail bad s).2 := by
  unfold moveTransfer
  dsimp only
  split
  · simp [hs]
  · split
    · simp [hs]
    · exact canon_landTransfer _ _ _ _ (canon_portServe _ _ _ _ _ (canon_portServe _ _ _ _ _ (canon_pegRead _ _ _ _ hs)))

@[simp] theorem canon_xferError (p) (bit) : Canon (xferError p bit s) ↔ Canon s := by simp [xferError]

@[simp] theorem canon_endTransfer (p) (fail) (bad) (hs : Canon s) : Canon (endTransfer p fail bad s) := by
  unfold endTransfer
  dsimp only
  (repeat' split) <;> simp [hs]

@[simp] theorem canon_cancelTables (n) (p) : Canon (cancelTables n p s) ↔ Canon s := by simp [cancelTables]

theorem outCanon_execPegAdd (p : PegIssue) (d a : BitVec 5) (b : PegSrc) (hs : Canon s) :
    OutCanon (execPegAdd p d a b s) :=
  outCanon_pegRun p _ (bodyCanon_pegAlu _ _) hs

theorem outCanon_execPegSub (p : PegIssue) (d a : BitVec 5) (b : PegSrc) (hs : Canon s) :
    OutCanon (execPegSub p d a b s) :=
  outCanon_pegRun p _ (bodyCanon_pegAlu _ _) hs

theorem outCanon_execPegAnd (p : PegIssue) (d a : BitVec 5) (b : PegSrc) (hs : Canon s) :
    OutCanon (execPegAnd p d a b s) :=
  outCanon_pegRun p _ (bodyCanon_pegAlu _ _) hs

theorem outCanon_execPegOr (p : PegIssue) (d a : BitVec 5) (b : PegSrc) (hs : Canon s) :
    OutCanon (execPegOr p d a b s) :=
  outCanon_pegRun p _ (bodyCanon_pegAlu _ _) hs

theorem outCanon_execPegXor (p : PegIssue) (d a : BitVec 5) (b : PegSrc) (hs : Canon s) :
    OutCanon (execPegXor p d a b s) :=
  outCanon_pegRun p _ (bodyCanon_pegAlu _ _) hs

theorem outCanon_execPegMin (p : PegIssue) (d a : BitVec 5) (b : PegSrc) (hs : Canon s) :
    OutCanon (execPegMin p d a b s) :=
  outCanon_pegRun p _ (bodyCanon_pegAlu _ _) hs

theorem outCanon_execPegMax (p : PegIssue) (d a : BitVec 5) (b : PegSrc) (hs : Canon s) :
    OutCanon (execPegMax p d a b s) :=
  outCanon_pegRun p _ (bodyCanon_pegAlu _ _) hs

theorem outCanon_execPegAbs (p : PegIssue) (d a : BitVec 5) (hs : Canon s) :
    OutCanon (execPegAbs p d a s) :=
  outCanon_pegRun p _ (bodyCanon_pegAlu _ _) hs

theorem outCanon_execPegAdds (p : PegIssue) (d a : BitVec 5) (b : PegSrc) (hs : Canon s) :
    OutCanon (execPegAdds p d a b s) :=
  outCanon_pegRun p _ (bodyCanon_pegAlu _ _) hs

theorem outCanon_execPegShl (p : PegIssue) (d a : BitVec 5) (b : PegCount) (hs : Canon s) :
    OutCanon (execPegShl p d a b s) :=
  outCanon_pegRun p _ (bodyCanon_pegAluOpen _ _) hs

theorem outCanon_execPegShr (p : PegIssue) (d a : BitVec 5) (b : PegCount) (hs : Canon s) :
    OutCanon (execPegShr p d a b s) :=
  outCanon_pegRun p _ (bodyCanon_pegAluOpen _ _) hs

theorem outCanon_execPegSar (p : PegIssue) (d a : BitVec 5) (b : PegCount) (hs : Canon s) :
    OutCanon (execPegSar p d a b s) :=
  outCanon_pegRun p _ (bodyCanon_pegAluOpen _ _) hs

theorem outCanon_execPegRot (p : PegIssue) (d a : BitVec 5) (b : PegCount) (hs : Canon s) :
    OutCanon (execPegRot p d a b s) :=
  outCanon_pegRun p _ (bodyCanon_pegAluOpen _ _) hs

theorem outCanon_execPegClz (p : PegIssue) (d a : BitVec 5) (hs : Canon s) :
    OutCanon (execPegClz p d a s) :=
  outCanon_pegRun p _ (bodyCanon_pegAlu _ _) hs

theorem outCanon_execPegPopc (p : PegIssue) (d a : BitVec 5) (hs : Canon s) :
    OutCanon (execPegPopc p d a s) :=
  outCanon_pegRun p _ (bodyCanon_pegAlu _ _) hs

theorem outCanon_execPegBitrev (p : PegIssue) (d a : BitVec 5) (hs : Canon s) :
    OutCanon (execPegBitrev p d a s) :=
  outCanon_pegRun p _ (bodyCanon_pegAlu _ _) hs

theorem outCanon_execPegExt (p : PegIssue) (d a : BitVec 5) (lsb len : BitVec 5) (hs : Canon s) :
    OutCanon (execPegExt p d a lsb len s) :=
  outCanon_pegRun p _ (bodyCanon_pegAluOpen _ _) hs

theorem outCanon_execPegIns (p : PegIssue) (d a : BitVec 5) (lsb len : BitVec 5) (hs : Canon s) :
    OutCanon (execPegIns p d a lsb len s) :=
  outCanon_pegRun p _ (bodyCanon_pegAluOpen _ _) hs

theorem outCanon_execPegPadd (p : PegIssue) (d a b : BitVec 5) (hs : Canon s) :
    OutCanon (execPegPadd p d a b s) :=
  outCanon_pegRun p _ (bodyCanon_pegAlu _ _) hs

theorem outCanon_execPegPsub (p : PegIssue) (d a b : BitVec 5) (hs : Canon s) :
    OutCanon (execPegPsub p d a b s) :=
  outCanon_pegRun p _ (bodyCanon_pegAlu _ _) hs

theorem outCanon_execPegPsat (p : PegIssue) (d a b : BitVec 5) (hs : Canon s) :
    OutCanon (execPegPsat p d a b s) :=
  outCanon_pegRun p _ (bodyCanon_pegAlu _ _) hs

theorem outCanon_execPegCmp (p : PegIssue) (d a : BitVec 5) (b : PegSrc) (hs : Canon s) :
    OutCanon (execPegCmp p d a b s) :=
  outCanon_pegRun p _ (bodyCanon_pegAlu _ _) hs

theorem outCanon_execPegBrCc (p : PegIssue) (cc : BitVec 4) (a : BitVec 5) (target : BitVec 16) (hs : Canon s) :
    OutCanon (execPegBrCc p cc a target s) :=
  outCanon_pegRun p _ (bodyCanon_branchBody _ fun s g hs => by simp [hs]) hs

theorem outCanon_execPegCall (p : PegIssue) (target : BitVec 16) (hs : Canon s) :
    OutCanon (execPegCall p target s) :=
  outCanon_pegRun p _ (bodyCanon_branchBody _ fun s g hs => by simp [hs]) hs

theorem outCanon_execPegRet (p : PegIssue) (a : BitVec 5) (hs : Canon s) :
    OutCanon (execPegRet p a s) :=
  outCanon_pegRun p _ (bodyCanon_branchBody _ fun s g hs => by simp [hs]) hs

theorem outCanon_execPegJmp (p : PegIssue) (target : BitVec 16) (hs : Canon s) :
    OutCanon (execPegJmp p target s) :=
  outCanon_pegRun p _ (bodyCanon_branchBody _ fun s g hs => by simp [hs]) hs

theorem outCanon_execPegLd (p : PegIssue) (d : BitVec 5) (k : BitVec 3) (hs : Canon s) :
    OutCanon (execPegLd p d k s) :=
  outCanon_pegRun p _ (bodyCanon_pegLoadBody _ _ _ _ _) hs

theorem outCanon_execPegLdh (p : PegIssue) (d : BitVec 5) (k : BitVec 3) (hs : Canon s) :
    OutCanon (execPegLdh p d k s) :=
  outCanon_pegRun p _ (bodyCanon_pegLoadBody _ _ _ _ _) hs

theorem outCanon_execPegLdb (p : PegIssue) (d : BitVec 5) (k : BitVec 3) (hs : Canon s) :
    OutCanon (execPegLdb p d k s) :=
  outCanon_pegRun p _ (bodyCanon_pegLoadBody _ _ _ _ _) hs

theorem outCanon_execPegSt (p : PegIssue) (a : BitVec 5) (k : BitVec 3) (hs : Canon s) :
    OutCanon (execPegSt p a k s) :=
  outCanon_pegRun p _ (bodyCanon_pegStoreBody _ _ _) hs

theorem outCanon_execPegSth (p : PegIssue) (a : BitVec 5) (k : BitVec 3) (hs : Canon s) :
    OutCanon (execPegSth p a k s) :=
  outCanon_pegRun p _ (bodyCanon_pegStoreBody _ _ _) hs

theorem outCanon_execPegStb (p : PegIssue) (a : BitVec 5) (k : BitVec 3) (hs : Canon s) :
    OutCanon (execPegStb p a k s) :=
  outCanon_pegRun p _ (bodyCanon_pegStoreBody _ _ _) hs

theorem outCanon_execPegMovp (p : PegIssue) (k : BitVec 3) (a : BitVec 5) (hs : Canon s) :
    OutCanon (execPegMovp p k a s) :=
  outCanon_pegRun p _ (fun s g hs => by simp [hs]) hs

theorem outCanon_execPegMovm (p : PegIssue) (k : BitVec 3) (a : BitVec 5) (hs : Canon s) :
    OutCanon (execPegMovm p k a s) :=
  outCanon_pegRun p _ (fun s g hs => by simp [hs]) hs

theorem outCanon_execPegMovcb (p : PegIssue) (k : BitVec 3) (a : BitVec 5) (hs : Canon s) :
    OutCanon (execPegMovcb p k a s) :=
  outCanon_pegRun p _ (fun s g hs => by simp [hs]) hs

theorem outCanon_execPegMovcl (p : PegIssue) (k : BitVec 3) (a : BitVec 5) (hs : Canon s) :
    OutCanon (execPegMovcl p k a s) :=
  outCanon_pegRun p _ (fun s g hs => by simp [hs]) hs

theorem outCanon_execPegQmac (p : PegIssue) (a b : BitVec 5) (hs : Canon s) :
    OutCanon (execPegQmac p a b s) :=
  outCanon_pegRun p _ (fun s g hs => by
    (repeat' split) <;> simp [hs]) hs

theorem outCanon_execPegQmacL (p : PegIssue) (a b x : BitVec 5) (k : BitVec 3) (hs : Canon s) :
    OutCanon (execPegQmacL p a b x k s) :=
  outCanon_pegRun p _ (fun s g hs => by
    (repeat' split) <;> simp [hs]) hs

theorem outCanon_execPegQmacN (p : PegIssue) (a b : BitVec 5) (hs : Canon s) :
    OutCanon (execPegQmacN p a b s) :=
  outCanon_pegRun p _ (fun s g hs => by
    (repeat' split) <;> simp [hs]) hs

theorem outCanon_execPegSmac (p : PegIssue) (a b : BitVec 5) (k : BitVec 2) (hs : Canon s) :
    OutCanon (execPegSmac p a b k s) :=
  outCanon_pegRun p _ (fun s g hs => by simp [hs]) hs

theorem outCanon_execPegSmacN (p : PegIssue) (a b : BitVec 5) (k : BitVec 2) (hs : Canon s) :
    OutCanon (execPegSmacN p a b k s) :=
  outCanon_pegRun p _ (fun s g hs => by simp [hs]) hs

theorem outCanon_execPegAccrd (p : PegIssue) (d : BitVec 5) (k : BitVec 2) (sh : BitVec 5) (hs : Canon s) :
    OutCanon (execPegAccrd p d k sh s) :=
  outCanon_pegRun p _ (fun s g hs => by
    dsimp only
    (repeat' split) <;> simp [hs]) hs

theorem outCanon_execPegAccmv (p : PegIssue) (d : BitVec 5) (k : BitVec 2) (hi : Bool) (hs : Canon s) :
    OutCanon (execPegAccmv p d k hi s) :=
  outCanon_pegRun p _ (fun s g hs => by simp [hs]) hs

theorem outCanon_execPegAccclr (p : PegIssue) (mask : BitVec 4) (hs : Canon s) :
    OutCanon (execPegAccclr p mask s) :=
  outCanon_pegRun p _ (fun s g hs => by
    (repeat' split) <;> simp [hs]) hs

theorem outCanon_execPegLoop (p : PegIssue) (k : Bool) (a : BitVec 5) (last : BitVec 16) (hs : Canon s) :
    OutCanon (execPegLoop p k a last s) :=
  outCanon_pegRun p _ (bodyCanon_noSlot _ <| fun s g hs => by
    dsimp only
    (repeat' split) <;> simp [hs]) hs

theorem outCanon_execPegMovstat (p : PegIssue) (x : PegSpecial) (toStat : Bool) (r : BitVec 5) (hs : Canon s) :
    OutCanon (execPegMovstat p x toStat r s) :=
  outCanon_pegRun p _ (fun s g hs => by
    (repeat' split) <;> simp [hs]) hs

theorem outCanon_execPegWait (p : PegIssue) (hs : Canon s) :
    OutCanon (execPegWait p s) :=
  outCanon_pegRun p _ (fun s g hs => by simp [hs]) hs

theorem outCanon_execPegReti (p : PegIssue) (hs : Canon s) :
    OutCanon (execPegReti p s) :=
  outCanon_pegRun p _ (bodyCanon_noSlot _ fun s g hs => by simp [hs]) hs

theorem outCanon_execPegSignal (p : PegIssue) (peer : BitVec 4) (hs : Canon s) :
    OutCanon (execPegSignal p peer s) :=
  outCanon_pegRun p _ (fun s g hs => by
    dsimp only
    (repeat' split) <;> simp [hs]) hs

theorem outCanon_execPegSettimer (p : PegIssue) (a : BitVec 5) (hs : Canon s) :
    OutCanon (execPegSettimer p a s) :=
  outCanon_pegRun p _ (fun s g hs => by simp [hs]) hs

theorem outCanon_execPegTrap (p : PegIssue) (hs : Canon s) :
    OutCanon (execPegTrap p s) :=
  outCanon_pegRun p _ (fun s g hs => by simp [hs]) hs

theorem outCanon_execPegNop (p : PegIssue) (hs : Canon s) :
    OutCanon (execPegNop p s) :=
  outCanon_pegRun p _ (fun s g hs => by simp [hs]) hs

theorem outCanon_execPegXfer (p : PegIssue) (d : BitVec 5) (t : Transfer) (hs : Canon s) :
    OutCanon (execPegXfer p d t s) :=
  outCanon_pegRun p _ (fun s g hs => by
    dsimp only
    (repeat' split) <;> simp [hs]) hs

theorem outCanon_execPegXwait (p : PegIssue) (mask : BitVec 4) (target : BitVec 16) (hs : Canon s) :
    OutCanon (execPegXwait p mask target s) :=
  outCanon_pegRun p _ (bodyCanon_branchBody _ fun s g hs => by simp [hs]) hs

theorem outCanon_execPegInterruptEntry (p) (hs : Canon s) :
    OutCanon (execPegInterruptEntry p s) := outCanon_whenOn _ _ (fun s hs => by
  dsimp only
  (repeat' split) <;> simp [hs]) hs

theorem outCanon_execPegTimerCompare (p) (hs : Canon s) :
    OutCanon (execPegTimerCompare p s) := outCanon_whenOn _ _ (fun s hs => by
  dsimp only
  (repeat' split) <;> simp [hs]) hs

theorem outCanon_execPegDoorbell (p) (hs : Canon s) : OutCanon (execPegDoorbell p s) := by
  simp [execPegDoorbell, hs]

theorem outCanon_execXferComplete (p : PegIssue) (smem : Ecc) (fail : Option Nat) (ue : Bool) (hs : Canon s) :
    OutCanon (execXferComplete p smem fail ue s) := by
  unfold execXferComplete
  exact outCanon_whenOn _ _ (fun s hs => by
    dsimp only
    (repeat' split) <;> simp [hs]) hs

@[simp] theorem canon_pegsTick (n) : Canon (pegsTick n s) ↔ Canon s := by simp [pegsTick]
@[simp] theorem canon_pegsGuard : Canon (pegsGuard s) ↔ Canon s := by simp [pegsGuard]

/-! Pack. -/

@[simp] theorem canon_readUpTo (k) (n) : Canon (readUpTo k n s) ↔ Canon s := by simp [readUpTo]

@[simp] theorem canon_packArrive (k) : Canon (packArrive k s) ↔ Canon s := by
  unfold packArrive
  (repeat' split) <;> simp

theorem outCanon_execPackItemArrive (engine) (read) (hs : Canon s) : OutCanon (execPackItemArrive engine read s) := by
  simp [execPackItemArrive, hs]

@[simp] theorem canon_countItem (k) (x) (packed) (stored) : Canon (countItem k x packed stored s) ↔ Canon s := by simp [countItem]

@[simp] theorem canon_packDone (k) (hs : Canon s) : Canon (packDone k s) := by
  unfold packDone
  (repeat' split) <;> simp [hs]

theorem outCanon_execPackItemDone (engine) (hs : Canon s) : OutCanon (execPackItemDone engine s) := by
  unfold execPackItemDone
  simp +contextual [hs]

@[simp] theorem canon_abandonItem (k) (hs : Canon s) (x) : Canon (abandonItem k s x) := by
  simp [abandonItem, hs]

@[simp] theorem canon_packTick (hs : Canon s) : Canon (packTick s) := by
  simp +contextual [packTick, hs]

theorem outCanon_execPackEncodeDone (hs : Canon s) : OutCanon (execPackEncodeDone s) := outCanon_whenOn _ _ (fun s hs => by
  dsimp only
  (repeat' split) <;> simp [hs]) hs

@[simp] theorem canon_specPackConfig (q : Request) : Canon (specPackConfig.act q s) ↔ Canon s := by simp [specPackConfig]

theorem outCanon_execPackConfig (q) (hs : Canon s) : OutCanon (execPackConfig q s) :=
  outCanon_kenra hs _ _ _ fun q s hs => by simp [hs]

@[simp] theorem canon_specPackEncode (q : Request) : Canon (specPackEncode.act q s) ↔ Canon s := by simp [specPackEncode]

theorem outCanon_execPackEncode (q) (hs : Canon s) : OutCanon (execPackEncode q s) :=
  outCanon_kenra hs _ _ _ fun q s hs => by simp [hs]

@[simp] theorem canon_specPackStatus (q : Request) : Canon (specPackStatus.act q s) ↔ Canon s := by simp [specPackStatus]

theorem outCanon_execPackStatus (q) (hs : Canon s) : OutCanon (execPackStatus q s) :=
  outCanon_kenra hs _ _ _ fun q s hs => by simp [hs]

/-! Ingest. -/

@[simp] theorem canon_feedUnit (key) (first) (l) : Canon (feedUnit key first l s) ↔ Canon s := by simp [feedUnit]

@[simp] theorem canon_handOn (sid) (slot) (l) (r) : Canon ((handOn sid slot l r s).2) ↔ Canon s := by
  unfold handOn
  dsimp only
  (repeat' split) <;> simp

@[simp] theorem canon_releaseOne (sid) (p) (r) : Canon ((releaseOne sid p r s).2) ↔ Canon s := by simp [releaseOne]

@[simp] theorem canon_releaseHeld (sid n : Nat) (r : Run) (hs : Canon s) : Canon (releaseHeld sid n r s).2 := by
  induction n generalizing r s with
  | zero => exact hs
  | succ n ih =>
    unfold releaseHeld
    dsimp only
    split
    · exact hs
    · split
      · exact ih _ ((canon_releaseOne ..).mpr hs)
      · exact hs

@[simp] theorem canon_cascade (sid) (r) (hs : Canon s) : Canon ((cascade sid r s).2) := by
  simp [cascade, hs]

@[simp] theorem canon_expireSlots (sid n : Nat) (r : Run) (hs : Canon s) : Canon (expireSlots sid n r s).2 := by
  induction n generalizing r s with
  | zero => exact hs
  | succ n ih =>
    unfold expireSlots
    dsimp only
    split
    · exact ih _ ((canon_releaseOne ..).mpr ((canon_count ..).mpr hs))
    · exact hs

@[simp] theorem canon_expirePoint (sid) (limit) (r) (hs : Canon s) : Canon ((expirePoint sid limit r s).2) := by
  simp [expirePoint, hs]

@[simp] theorem canon_settleRuns (sid n : Nat) (hs : Canon s) : Canon (settleRuns sid n s) := by
  induction n generalizing s with
  | zero => exact hs
  | succ n ih =>
    unfold settleRuns
    split
    · exact hs
    · dsimp only
      split
      · simp [hs]
      · exact ih (by simp [hs])

@[simp] theorem canon_putRun (sid) (i) (r) (hs : Canon s) : Canon (putRun sid i r s) := by
  simp [putRun, hs]

@[simp] theorem canon_holeDue (sid) (hs : Canon s) : Canon (holeDue sid s) := by
  unfold holeDue
  (repeat' split) <;> simp [hs]

theorem outCanon_execHoleDeadline (sid) (hs : Canon s) : OutCanon (execHoleDeadline sid s) := by
  simp [execHoleDeadline, hs]

theorem outCanon_execHeldPacketRelease (sid) (hs : Canon s) : OutCanon (execHeldPacketRelease sid s) := by
  simp [execHeldPacketRelease, hs]

@[simp] theorem canon_freeBuffer (own : Nat × Nat × Nat) (ready : Bool) (n : Nat) (hs : Canon s) :
    Canon (freeBuffer own ready n s) := by
  induction n generalizing s with
  | zero => exact hs
  | succ n ih =>
    unfold freeBuffer
    dsimp only
    refine canon_ite_of hs ?_
    split
    · exact hs
    · split
      · exact hs
      · exact ih (by simp [hs])

@[simp] theorem canon_dropIdle : Canon (dropIdle s) ↔ Canon s := by simp [dropIdle]

@[simp] theorem canon_acceptPacket (sid) (slot) (p) (r) : Canon ((acceptPacket sid slot p r s).2) ↔ Canon s := by
  unfold acceptPacket
  (repeat' split) <;> simp

@[simp] theorem canon_placePacket (sid i slot : Nat) (p : Packet) (hs : Canon s) : Canon (placePacket sid i slot p s) := by
  have hfree : ∀ a b n, Canon (freeBuffer a b n s) := fun _ _ _ => by simp [hs]
  unfold placePacket
  split
  · exact hs
  · dsimp only
    split
    · simp [hs]
    · generalize hu : freeBuffer _ _ _ s = u
      have hu' : Canon u := hu ▸ hfree _ _ _
      (repeat' split) <;> simp [hu']

@[simp] theorem canon_streamPacket (sid) (b) (hs : Canon s) : Canon (streamPacket sid b s) := by
  unfold streamPacket
  dsimp only
  (repeat' split) <;> simp [hs]

theorem canon_classified (k len : Nat) (f : State → State) (hf : ∀ s, Canon s → Canon (f s)) (hs : Canon s) :
    Canon (classified k len f s) := by
  unfold classified
  split
  · simp [hs]
  · exact hf _ (by simp [hs])

@[simp] theorem canon_inTurn (k) : Canon (inTurn k s) ↔ Canon s := by
  unfold inTurn
  (repeat' split) <;> simp

@[simp] theorem canon_ingestPacket (k : Nat) (kind : FlowKind) (dst dport src : Nat) (b : List Byte) (hs : Canon s) :
    Canon (ingestPacket k kind dst dport src b s) := by
  have hturn : Canon (inTurn k s) := by simp [hs]
  unfold ingestPacket
  dsimp only
  split
  · simp [hturn]
  · exact canon_classified _ _ _ (fun s hs => by (repeat' split) <;> simp [hs]) hturn

@[simp] theorem canon_deliverFrame (k) (f) (hs : Canon s) : Canon (deliverFrame k f s) := by
  simp [deliverFrame, hs]

@[simp] theorem canon_gulBlock (k) (x) (hs : Canon s) : Canon (gulBlock k x s) := by
  unfold gulBlock
  dsimp only
  (repeat' split) <;> simp [hs]

@[simp] theorem canon_dropCodewords (k) : Canon (dropCodewords k s) ↔ Canon s := by simp [dropCodewords]

theorem outCanon_execGulFrameReceive (k : BitVec 5) (f : GulFrame) (hs : Canon s) : OutCanon (execGulFrameReceive k f s) :=
  outCanon_whenOn _ _ (fun s hs => by
    have hblocks : ∀ t, Canon t → Canon (f.blocks.foldl (fun s b =>
        if (quad s k.toNat).state = .active then gulBlock k.toNat b s else s) t) := fun t ht =>
      canon_foldl _ (fun _ _ h => by split <;> simp [h]) _ _ ht
    dsimp only
    split
    · exact hs
    · simp [hblocks, hs]) hs

theorem outCanon_execEthFrameReceive (k : BitVec 5) (data : List Byte) (hs : Canon s) : OutCanon (execEthFrameReceive k data s) :=
  outCanon_whenOn _ _ (fun s hs => by
    have hclass : ∀ n, Canon (classified k.toNat n (count .unclassified k.toNat) (inTurn k.toNat (count .framesOk k.toNat s))) :=
      fun n => canon_classified _ _ _ (fun _ h => by simp [h]) (by simp [hs])
    dsimp only
    (repeat' split) <;> simp [hs, hclass]) hs

@[simp] theorem canon_closeRun (sid) (n) : Canon (closeRun sid n s) ↔ Canon s := by
  unfold closeRun
  (repeat' split) <;> simp

@[simp] theorem canon_openRun (sid) (n) : Canon (openRun sid n s) ↔ Canon s := by simp [openRun]
@[simp] theorem canon_streamTick (sid) (n) : Canon (streamTick sid n s) ↔ Canon s := by simp [streamTick]
@[simp] theorem canon_ingestTick (n) : Canon (ingestTick n s) ↔ Canon s := by simp [ingestTick]
@[simp] theorem canon_stopIngest : Canon (stopIngest s) ↔ Canon s := by simp [stopIngest]

@[simp] theorem canon_delayTick (n : Nat) (hs : Canon s) : Canon (delayTick n s) :=
  canon_foldl _ (fun s _ hs => by
    dsimp only
    (repeat' split) <;> simp [hs]) _ _ hs

@[simp] theorem canon_offsetsSecond : Canon (offsetsSecond s) ↔ Canon s := by simp [offsetsSecond]
@[simp] theorem canon_specIngestConfig (q : Request) : Canon (specIngestConfig.act q s) ↔ Canon s := by simp [specIngestConfig]

theorem outCanon_execIngestConfig (q) (hs : Canon s) : OutCanon (execIngestConfig q s) :=
  outCanon_kenra hs _ _ _ fun q s hs => by simp [hs]

@[simp] theorem canon_specIngestStatus (q : Request) : Canon (specIngestStatus.act q s) ↔ Canon s := by simp [specIngestStatus]

theorem outCanon_execIngestStatus (q) (hs : Canon s) : OutCanon (execIngestStatus q s) :=
  outCanon_kenra hs _ _ _ fun q s hs => by simp [hs]

@[simp] theorem canon_streamConfigAct (a) : Canon (streamConfigAct a s) ↔ Canon s := by simp [streamConfigAct]
@[simp] theorem canon_specStreamConfig (q : Request) : Canon (specStreamConfig.act q s) ↔ Canon s := by simp [specStreamConfig]

theorem outCanon_execStreamConfig (q) (hs : Canon s) : OutCanon (execStreamConfig q s) :=
  outCanon_kenra hs _ _ _ fun q s hs => by simp [hs]

@[simp] theorem canon_enableStreams (on) (a) : Canon (enableStreams on a s) ↔ Canon s := by simp [enableStreams]
@[simp] theorem canon_specStreamEnable (q : Request) : Canon (specStreamEnable.act q s) ↔ Canon s := by simp [specStreamEnable]

theorem outCanon_execStreamEnable (q) (hs : Canon s) : OutCanon (execStreamEnable q s) :=
  outCanon_kenra hs _ _ _ fun q s hs => by simp [hs]

@[simp] theorem canon_specStreamDisable (q : Request) : Canon (specStreamDisable.act q s) ↔ Canon s := by simp [specStreamDisable]

theorem outCanon_execStreamDisable (q) (hs : Canon s) : OutCanon (execStreamDisable q s) :=
  outCanon_kenra hs _ _ _ fun q s hs => by simp [hs]

@[simp] theorem canon_specStreamStatus (q : Request) : Canon (specStreamStatus.act q s) ↔ Canon s := by simp [specStreamStatus]

theorem outCanon_execStreamStatus (q) (hs : Canon s) : OutCanon (execStreamStatus q s) :=
  outCanon_kenra hs _ _ _ fun q s hs => by simp [hs]

@[simp] theorem canon_specFlowSet (q : Request) : Canon (specFlowSet.act q s) ↔ Canon s := by simp [specFlowSet]

theorem outCanon_execFlowSet (q) (hs : Canon s) : OutCanon (execFlowSet q s) :=
  outCanon_kenra hs _ _ _ fun q s hs => by simp [hs]

end Sys2Proof.Laws
end

section
/-! SUPPORT. What keeps the canonical form of the memories: loads, the crossbar, the host interface, frames,
the supply and the Ridge. -/

namespace Sys2Proof.Laws
open Sys2Proof Sys2Proof.Machine

variable {s : State}

/-! Settings. -/

@[simp] theorem canon_specSchedSelect (q : Request) : Canon (specSchedSelect.act q s) ↔ Canon s := by simp [specSchedSelect]

theorem outCanon_execSchedSelect (q) (hs : Canon s) : OutCanon (execSchedSelect q s) :=
  outCanon_kenra hs _ _ _ fun q s hs => by simp [hs]

@[simp] theorem canon_specPegServiceConfig (q : Request) : Canon (specPegServiceConfig.act q s) ↔ Canon s := by
  simp [specPegServiceConfig]

theorem outCanon_execPegServiceConfig (q) (hs : Canon s) : OutCanon (execPegServiceConfig q s) :=
  outCanon_kenra hs _ _ _ fun q s hs => by simp [hs]

theorem canon_settingOf (c : Instr) (k : Spec) (q : Request) (h : settingOf c = some (k, q)) (r : Request) (hs : Canon s) :
    Canon (k.act r s) := by
  unfold settingOf at h
  split at h <;> cases h <;> simp [hs]

@[simp] theorem canon_applyOne (hs : Canon s) (e : Instr × List Byte) : Canon (applyOne s e) := by
  unfold applyOne
  split
  · simp [hs]
  · simp [hs]
  · simp [hs]
  · exact canon_settingOf _ _ _ ‹settingOf _ = _› _ (by split <;> simp [hs])
  · exact hs

@[simp] theorem canon_applyAll (l) (hs : Canon s) : Canon (applyAll l s) := by
  simp +contextual [applyAll, hs]

@[simp] theorem canon_trialBase : Canon (trialBase s) ↔ Canon s := by
  unfold trialBase
  (repeat' split) <;> simp

@[simp] theorem canon_trial (hs : Canon s) : Canon (trial s) := by
  simp [trial, hs]

/-! Txn. -/

@[simp] theorem canon_specTxnBegin (q : Request) : Canon (specTxnBegin.act q s) ↔ Canon s := by simp [specTxnBegin]

theorem outCanon_execTxnBegin (q) (hs : Canon s) : OutCanon (execTxnBegin q s) :=
  outCanon_kenra hs _ _ _ fun q s hs => by simp [hs]

@[simp] theorem canon_specTxnCommit (q : Request) : Canon (specTxnCommit.act q s) ↔ Canon s := by simp [specTxnCommit]

theorem outCanon_execTxnCommit (q) (hs : Canon s) : OutCanon (execTxnCommit q s) :=
  outCanon_kenra hs _ _ _ fun q s hs => by simp [hs]

@[simp] theorem canon_specTxnRollback (q : Request) : Canon (specTxnRollback.act q s) ↔ Canon s := by
  unfold specTxnRollback
  dsimp only
  (repeat' split) <;> simp

theorem outCanon_execTxnRollback (q) (hs : Canon s) : OutCanon (execTxnRollback q s) :=
  outCanon_kenra hs _ _ _ fun q s hs => by simp [hs]

theorem outCanon_execTxnExpiry (hs : Canon s) : OutCanon (execTxnExpiry s) := outCanon_whenOn _ _ (fun s hs => by
  (repeat' split) <;> simp [hs]) hs

@[simp] theorem canon_validated : Canon (validated s) ↔ Canon s := by
  unfold validated
  (repeat' split) <;> simp

theorem outCanon_execTxnValidationDone (hs : Canon s) : OutCanon (execTxnValidationDone s) := by
  simp [execTxnValidationDone, hs]

theorem canon_atTick (f : State → State) (hf : ∀ s, Canon s → Canon (f s)) (hs : Canon s) : Canon (atTick f s) :=
  hf { s with time.frame := s.time.frame + 1 } hs

@[simp] theorem canon_atTick_setState (new : DevState) (cause : Nat) (hs : Canon s) : Canon (atTick (setState new cause) s) :=
  canon_atTick _ (fun _ => canon_setState new cause) hs

@[simp] theorem canon_renumber (old) (new) (hs : Canon s) : Canon (renumber old new s) := by
  simp [renumber, hs]

@[simp] theorem canon_setCompress (i) : Canon (setCompress i s) ↔ Canon s := by simp [setCompress]

@[simp] theorem canon_startSchedule (i : Image) (hs : Canon s) : Canon (startSchedule i s) := by
  unfold startSchedule
  dsimp only
  split
  · exact hs
  · exact canon_atTick_setState _ _ ((canon_setCompress ..).mpr hs)

@[simp] theorem canon_switchSchedule (old) (i) : Canon (switchSchedule old i s) ↔ Canon s := by simp [switchSchedule]

@[simp] theorem canon_setLag : Canon (setLag s) ↔ Canon s := by
  unfold setLag
  (repeat' split) <;> simp

@[simp] theorem canon_applyCommit (id : Nat) (c : Commit) (hs : Canon s) : Canon (applyCommit id c s) := by
  unfold applyCommit
  extract_lets new staged bytes u _ v w x
  clear_value new
  have hu : Canon u := by
    dsimp only [u]
    (repeat' split) <;> simp [hs]
  have hw : Canon w := canon_applyAll _ ((canon_settle ..).mpr hu)
  have hx : Canon x := by
    dsimp only [x]
    clear_value w
    (repeat' split) <;> simp [hw]
  rw [canon_count]
  exact canon_atTick _ (fun _ hs => (canon_complete ..).mpr hs) ((canon_setLag ..).mpr hx)

@[simp] theorem canon_commitDue (hs : Canon s) : Canon (commitDue s) := by
  unfold commitDue
  (repeat' split) <;> simp [hs]

@[simp] theorem canon_commitLate : Canon (commitLate s) ↔ Canon s := by
  unfold commitLate
  (repeat' split) <;> simp

/-! Sched. -/

@[simp] theorem canon_specSchedLoad (q : Request) : Canon (specSchedLoad.act q s) ↔ Canon s := by simp [specSchedLoad]

theorem outCanon_execSchedLoad (q) (hs : Canon s) : OutCanon (execSchedLoad q s) :=
  outCanon_kenra hs _ _ _ fun q s hs => by simp [hs]

theorem outCanon_execSchedLoadVerdict (hs : Canon s) : OutCanon (execSchedLoadVerdict s) := outCanon_whenOn _ _ (fun s hs => by
  (repeat' split) <;> simp [hs]) hs

@[simp] theorem canon_specSchedConfig (q : Request) : Canon (specSchedConfig.act q s) ↔ Canon s := by simp [specSchedConfig]

theorem outCanon_execSchedConfig (q) (hs : Canon s) : OutCanon (execSchedConfig q s) :=
  outCanon_kenra hs _ _ _ fun q s hs => by simp [hs]

@[simp] theorem canon_specSchedShed (q : Request) : Canon (specSchedShed.act q s) ↔ Canon s := by simp [specSchedShed]

theorem outCanon_execSchedShed (q) (hs : Canon s) : OutCanon (execSchedShed q s) :=
  outCanon_kenra hs _ _ _ fun q s hs => by simp [hs]

@[simp] theorem canon_specSchedStop (q : Request) : Canon (specSchedStop.act q s) ↔ Canon s := by
  unfold specSchedStop
  dsimp only
  (repeat' split) <;> simp

theorem outCanon_execSchedStop (q) (hs : Canon s) : OutCanon (execSchedStop q s) :=
  outCanon_kenra hs _ _ _ fun q s hs => by simp [hs]

@[simp] theorem canon_specSchedStatus (q : Request) : Canon (specSchedStatus.act q s) ↔ Canon s := by simp [specSchedStatus]

theorem outCanon_execSchedStatus (q) (hs : Canon s) : OutCanon (execSchedStatus q s) :=
  outCanon_kenra hs _ _ _ fun q s hs => by simp [hs]

/-! Stop. -/

@[simp] theorem canon_shedJob (hs : Canon s) (id) : Canon (shedJob s id) := by
  unfold shedJob
  (repeat' split) <;> simp [hs]

@[simp] theorem canon_shedSegments (l) (hs : Canon s) : Canon (shedSegments l s) := by
  simp [shedSegments, hs]

@[simp] theorem canon_shedSiblings (w) : Canon (shedSiblings s w) ↔ Canon s := by
  unfold shedSiblings
  (repeat' split) <;> simp

@[simp] theorem canon_shedPass (hs : Canon s) (w) : Canon (shedPass s w) := by
  unfold shedPass
  (repeat' split) <;> simp +contextual [hs]

@[simp] theorem canon_applyThrottle (l : List Work) (hs : Canon s) : Canon (applyThrottle l s) :=
  canon_settleJobs (canon_shedSegments _ (canon_foldl _ (fun _ _ h => (canon_shedSiblings ..).mpr h) _ _
    (canon_foldl _ (fun _ _ h => canon_shedPass h _) _ _ hs)))

@[simp] theorem canon_beginJob (hs : Canon s) (e) : Canon (beginJob s e) := by
  simp [beginJob, hs]

@[simp] theorem canon_beginWork (n : Nat) (hs : Canon s) : Canon (beginWork n s) := by
  unfold beginWork
  extract_lets _ u v w
  have hv : Canon v := canon_foldl _ (fun _ _ h => canon_beginJob h _) _ _ hs
  have hw : Canon w := canon_foldl _ (fun _ _ h => (canon_loadNext ..).mpr h) _ _ (canon_applyThrottle _ hv)
  clear_value w
  exact hw

@[simp] theorem canon_stopJob (j) : Canon (stopJob s j) ↔ Canon s := by
  unfold stopJob
  (repeat' split) <;> simp

@[simp] theorem canon_stopLa (e) : Canon (stopLa s e) ↔ Canon s := by
  unfold stopLa
  dsimp only
  (repeat' split) <;> simp

@[simp] theorem canon_stopPath (hs : Canon s) : Canon (stopPath s) := by
  unfold stopPath
  extract_lets later jobs u v
  have hv : Canon v := canon_stopBeams (canon_foldl _ (fun _ _ h => (canon_stopLa ..).mpr h) _ _
    (canon_foldl _ (fun _ _ h => (canon_stopJob ..).mpr h) _ _ hs))
  clear_value v
  exact (canon_stopChan ..).mpr (canonParts_noOwners hv)

/-! Frame. -/

@[simp] theorem canon_guardWork (hs : Canon s) : Canon (guardWork s) := by
  simp [guardWork, hs]

@[simp] theorem canon_guardStart (hs : Canon s) : Canon (guardStart s) := by
  simp [guardStart, hs]

theorem outCanon_execGuardStart (hs : Canon s) : OutCanon (execGuardStart s) := by
  unfold execGuardStart
  simp +contextual [hs]

@[simp] theorem canon_tickClock : Canon (tickClock s) ↔ Canon s := by simp [tickClock]

@[simp] theorem canon_fillsTick : Canon (fillsTick s) ↔ Canon s := by
  unfold fillsTick
  (repeat' split) <;> simp

@[simp] theorem canon_loseStepped : Canon (loseStepped s) ↔ Canon s := by simp [loseStepped]
@[simp] theorem canon_stepFrameEnd : Canon (stepFrameEnd s) ↔ Canon s := by simp [stepFrameEnd]

@[simp] theorem canon_endFrame (hs : Canon s) : Canon (endFrame s) := by
  have harrays : Canon (arraysTick (landRounds (fillsTick (packTick s)))) := by simp [hs]
  unfold endFrame
  extract_lets u gts len v
  have hu : Canon u := canon_ite_of (by simp [harrays]) hs
  have hv : Canon v := canon_foldl _ (fun _ _ h => by simp [h]) _ _ hu
  clear_value v
  simp [hv]

@[simp] theorem canon_countClear : Canon (countClear s) ↔ Canon s := by simp [countClear]

@[simp] theorem canon_toTick (hs : Canon s) : Canon (toTick s) := by
  simp [toTick, hs]

@[simp] theorem canon_enterSafe (cause : Nat) (hs : Canon s) : Canon (enterSafe cause s) := by
  unfold enterSafe
  extract_lets u v _ w rom _ x
  have hu : Canon u := canon_ite_of (by simp [hs]) hs
  have hv : Canon v := canon_ite_of (canon_stopPath hu) hu
  have hw : Canon w := (canon_stopIngest ..).mpr ((canon_stopChan ..).mpr hv)
  have hx : Canon x := canon_atTick _ (fun _ hs => by simp [hs]) hw
  clear_value x
  exact canon_ite_of (canon_sealRecorder hx) hx

@[simp] theorem canon_diesTick : Canon (diesTick s) ↔ Canon s := by
  unfold diesTick
  (repeat' split) <;> simp

@[simp] theorem canon_stopDue (hs : Canon s) : Canon (stopDue s) := by
  have hpath : Canon (stopPath { s with dev.stopAt := none }) := canon_stopPath hs
  unfold stopDue
  split
  · exact hs
  · split
    · exact canon_atTick_setState _ _ hpath
    · exact hs

theorem outCanon_execStopFrameReached (hs : Canon s) : OutCanon (execStopFrameReached s) := outCanon_whenOn _ _ (fun s hs => by
  (repeat' split) <;> simp [hs]) hs

theorem outCanon_execTxnApply (hs : Canon s) : OutCanon (execTxnApply s) := outCanon_whenOn _ _ (fun s hs => by
  (repeat' split) <;> simp [hs]) hs

@[simp] theorem canon_holdoffEnd (hs : Canon s) : Canon (holdoffEnd s) := by
  unfold holdoffEnd
  split
  · exact canon_atTick_setState _ _ hs
  · exact hs

theorem outCanon_execDegradedHoldoffEnd (hs : Canon s) :
    OutCanon (execDegradedHoldoffEnd s) := outCanon_whenOn _ _ (fun s hs => by
  (repeat' split) <;> simp [hs]) hs

@[simp] theorem canon_degrade (hs : Canon s) : Canon (degrade s) := by
  unfold degrade
  split
  · exact hs
  · split
    · exact canon_holdoffEnd hs
    · exact canon_atTick_setState _ _ hs

@[simp] theorem canon_transitions (hs : Canon s) : Canon (transitions s) := by
  unfold transitions
  (repeat' split) <;> simp [hs]

@[simp] theorem canon_assignUnits (i) (n) : Canon (assignUnits i n s) ↔ Canon s := by simp [assignUnits]
@[simp] theorem canon_scheduleSwaps (i) (n) : Canon (scheduleSwaps i n s) ↔ Canon s := by simp [scheduleSwaps]

@[simp] theorem canon_directStart (i : Image) (n m : Nat) (hs : Canon s) : Canon (directStart i n m s) := by
  induction m generalizing s with
  | zero => exact hs
  | succ m ih =>
    unfold directStart
    split
    · exact hs
    · exact ih (by simp [hs])

@[simp] theorem canon_beginPath (i : Image) (n : Nat) (hs : Canon s) : Canon (beginPath i n s) := by
  unfold beginPath
  extract_lets u v w
  have hu : Canon u := by simp [u, hs]
  have hv : Canon v := canon_ite_of ((canon_assignUnits ..).mpr hu) hu
  have hw : Canon w := by
    clear_value v
    simp [w, hv]
  exact canon_ite_of (canon_directStart _ _ _ hw) hw

@[simp] theorem canon_pegModes (n) : Canon (pegModes n s) ↔ Canon s := by
  unfold pegModes
  (repeat' split) <;> simp

@[simp] theorem canon_reportKind (kind) : Canon (reportKind s kind) ↔ Canon s := by simp [reportKind]
@[simp] theorem canon_countRuns : Canon (countRuns s) ↔ Canon s := by simp [countRuns]
@[simp] theorem canon_reportAbandons : Canon (reportAbandons s) ↔ Canon s := by simp [reportAbandons]

@[simp] theorem canon_beginFrame (hs : Canon s) : Canon (beginFrame s) := by
  unfold beginFrame
  extract_lets n _ u v w x y
  have hu : Canon u := by simp [u, hs]
  have hv : Canon v := canon_ite_of (canon_delayTick _ hu) hu
  have hw : Canon w := by
    clear_value v
    simp [w, hv]
  have hx : Canon x := by
    clear_value w
    dsimp only [x]
    split <;> simp [hw]
  have hy : Canon y := canon_foldl _ (fun _ _ h => canon_portSettle _ h) _ _ hx
  clear_value y
  rw [canon_reportAbandons]
  split <;> simp [hy]

@[simp] theorem canon_frameTick (hs : Canon s) : Canon (frameTick s) := by
  unfold frameTick
  extract_lets u
  have hu : Canon u := canon_transitions (canon_commitDue (canon_toTick hs))
  clear_value u
  exact (canon_commitLate ..).mpr (canon_beginFrame hu)

theorem outCanon_execFrameTick (hs : Canon s) : OutCanon (execFrameTick s) := by
  unfold execFrameTick
  simp +contextual [hs]

/-! PegCmd. -/

@[simp] theorem canon_specPegRestart (q : Request) : Canon (specPegRestart.act q s) ↔ Canon s := by simp [specPegRestart]

theorem outCanon_execPegRestart (q) (hs : Canon s) : OutCanon (execPegRestart q s) :=
  outCanon_kenra hs _ _ _ fun q s hs => by simp [hs]

@[simp] theorem canon_specPegStatus (q : Request) : Canon (specPegStatus.act q s) ↔ Canon s := by simp [specPegStatus]

theorem outCanon_execPegStatus (q) (hs : Canon s) : OutCanon (execPegStatus q s) :=
  outCanon_kenra hs _ _ _ fun q s hs => by simp [hs]

@[simp] theorem canon_specPegKernelLoad (q : Request) : Canon (specPegKernelLoad.act q s) ↔ Canon s := by simp [specPegKernelLoad]

theorem outCanon_execPegKernelLoad (q) (hs : Canon s) : OutCanon (execPegKernelLoad q s) :=
  outCanon_kenra hs _ _ _ fun q s hs => by simp [hs]

@[simp] theorem canon_loadKernel (payload) (p) : Canon (loadKernel payload s p) ↔ Canon s := by simp [loadKernel]

/-! Loads. -/

@[simp] theorem canon_endLoad (l) (st) (bytes) (detail) : Canon (endLoad l st bytes detail s) ↔ Canon s := by simp [endLoad]
@[simp] theorem canon_decodeFails (e) (l) (reason) : Canon (decodeFails e l reason s) ↔ Canon s := by simp [decodeFails]
@[simp] theorem canon_stageLoad (l) (data) : Canon (stageLoad l data s) ↔ Canon s := by simp [stageLoad]

@[simp] theorem canon_applyLoad (l) (data) : Canon (applyLoad l data s) ↔ Canon s := by
  unfold applyLoad
  (repeat' split) <;> simp

@[simp] theorem canon_dataLoaded (e) (l) (data) : Canon (dataLoaded e l data s) ↔ Canon s := by
  unfold dataLoaded
  (repeat' split) <;> simp

@[simp] theorem canon_kernelLoaded (e) (l) (source) : Canon (kernelLoaded e l source s) ↔ Canon s := by simp [kernelLoaded]

@[simp] theorem canon_loadUe (b) (hs : Canon s) : Canon (loadUe b s) := by
  simp [loadUe, hs]

@[simp] theorem canon_loadEnds (ue) (engine) (hs : Canon s) : Canon (loadEnds ue engine s) := by
  unfold loadEnds
  dsimp only
  (repeat' split) <;> simp [hs]

theorem outCanon_execLoadDecodeDone (ue) (engine) (hs : Canon s) : OutCanon (execLoadDecodeDone ue engine s) := by
  unfold execLoadDecodeDone
  simp +contextual [hs]

@[simp] theorem canon_failLoad (p) : Canon (failLoad p s) ↔ Canon s := by
  unfold failLoad
  (repeat' split) <;> simp

@[simp] theorem canon_failBulk (p) : Canon (failBulk p s) ↔ Canon s := by
  unfold failBulk
  (repeat' split) <;> simp

theorem outCanon_execBulkTransferTimeout (k) (hs : Canon s) : OutCanon (execBulkTransferTimeout k s) := by
  simp [execBulkTransferTimeout, hs]

/-! Ports. -/

@[simp] theorem canon_answerError (m) (source) (code) (hs : Canon s) : Canon (answerError m source code s) := by
  simp [answerError, hs]

theorem outCanon_execCrossbarRequest (master) (target) (source) (addr) (bytes) (beats) (data) (hs : Canon s) :
    OutCanon (execCrossbarRequest master target source addr bytes beats data s) := by
  unfold execCrossbarRequest
  simp +contextual [hs]

@[simp] theorem canon_portIdle (p) (hs : Canon s) : Canon (portIdle p s) := by
  simp [portIdle, hs]

theorem outCanon_execPortIdle (target) (hs : Canon s) : OutCanon (execPortIdle target s) := outCanon_whenOn _ _ (fun s hs => by
  (repeat' split) <;> simp +contextual [hs]) hs

@[simp] theorem canon_masterReset (m) (hs : Canon s) : Canon (masterReset m s) := by
  simp +contextual [masterReset, hs]

@[simp] theorem canon_portReset (down) (p) (hs : Canon s) : Canon (portReset down p s) := by
  simp [portReset, hs]

theorem outCanon_execTargetReset (target : BitVec 5) (down : Bool) (hs : Canon s) : OutCanon (execTargetReset target down s) :=
  outCanon_whenOn _ _ (fun _ hs => canon_foldl _ (fun _ _ h => by
    dsimp only
    split <;> simp [h]) _ _ hs) hs

/-! HostIf. -/

theorem outCanon_barWrite (f : State → State) (hf : ∀ s, Canon s → Canon (f s)) (hs : Canon s) : OutCanon (barWrite f s) :=
  outCanon_whenOn _ _ (fun s hs => by
    split
    · exact hs
    · exact hf s hs) hs

theorem outCanon_barRead (o : Nat) (clear : State → State) (hc : ∀ s, Canon s → Canon (clear s)) (hs : Canon s) :
    OutCanon (barRead o clear s) :=
  outCanon_whenOn _ _ (fun s hs => by
    have hclear : Canon (if s.host.d3hot then s else clear s) := by
      split
      · exact hs
      · exact hc s hs
    generalize (if s.host.d3hot then s else clear s) = u at hclear ⊢
    generalize barValue s o 8 = v
    exact hclear) hs

@[simp] theorem canon_noteRequester (r) : Canon (noteRequester r s) ↔ Canon s := by simp [noteRequester]
@[simp] theorem canon_ringDoorbell (r) (k) : Canon (ringDoorbell r k s) ↔ Canon s := by simp [ringDoorbell]

theorem outCanon_execDoorbell (r : BitVec 16) (v : BitVec 32) (hs : Canon s) : OutCanon (execDoorbell r v s) :=
  outCanon_barWrite _ (fun s hs => by simp [hs]) hs

@[simp] theorem canon_writeSlot (k) (off) (data) : Canon (writeSlot k off data s) ↔ Canon s := by simp [writeSlot]

theorem outCanon_execMailboxRequestWrite (k : BitVec 3) (off : BitVec 13) (data : List Byte) (hs : Canon s) :
    OutCanon (execMailboxRequestWrite k off data s) :=
  outCanon_barWrite _ (fun s hs => by simp [hs]) hs

@[simp] theorem canon_freeSlot (k) : Canon (freeSlot k s) ↔ Canon s := by simp [freeSlot]
@[simp] theorem canon_writeRespReady (v) : Canon (writeRespReady v s) ↔ Canon s := by simp [writeRespReady]

theorem outCanon_execRespReadyWrite (v : BitVec 32) (hs : Canon s) : OutCanon (execRespReadyWrite v s) :=
  outCanon_barWrite _ (fun s hs => by simp [hs]) hs

theorem outCanon_execDoorbellInvalidRead (hs : Canon s) : OutCanon (execDoorbellInvalidRead s) :=
  outCanon_barRead _ _ (fun s hs => by simp [hs]) hs

theorem outCanon_execMailboxWriteLockedRead (hs : Canon s) : OutCanon (execMailboxWriteLockedRead s) :=
  outCanon_barRead _ _ (fun s hs => by simp [hs]) hs

@[simp] theorem canon_writeIntCause (v) : Canon (writeIntCause v s) ↔ Canon s := by simp [writeIntCause]

theorem outCanon_execIntCauseWrite (v : BitVec 32) (hs : Canon s) : OutCanon (execIntCauseWrite v s) :=
  outCanon_barWrite _ (fun s hs => by simp [hs]) hs

@[simp] theorem canon_coalesceDue (c) : Canon (coalesceDue c s) ↔ Canon s := by simp [coalesceDue]

theorem outCanon_execInterruptCoalesceTimeout (c) (hs : Canon s) : OutCanon (execInterruptCoalesceTimeout c s) := by
  simp [execInterruptCoalesceTimeout, hs]

@[simp] theorem canon_writeRingRead (k) (v) (hs : Canon s) : Canon (writeRingRead k v s) := by
  simp [writeRingRead, hs]

theorem outCanon_execHostringReadWrite (k : BitVec 4) (v : BitVec 64) (hs : Canon s) : OutCanon (execHostringReadWrite k v s) :=
  outCanon_barWrite _ (fun s hs => by simp [hs]) hs

@[simp] theorem canon_writeEvrRead (v) : Canon (writeEvrRead v s) ↔ Canon s := by simp [writeEvrRead]

theorem outCanon_execEvrReadWrite (v : BitVec 64) (hs : Canon s) : OutCanon (execEvrReadWrite v s) :=
  outCanon_barWrite _ (fun s hs => by simp [hs]) hs

@[simp] theorem canon_writeEvrCtrl (v) : Canon (writeEvrCtrl v s) ↔ Canon s := by simp [writeEvrCtrl]

theorem outCanon_execEvrCtrlWrite (v : BitVec 32) (hs : Canon s) : OutCanon (execEvrCtrlWrite v s) :=
  outCanon_barWrite _ (fun s hs => by simp [hs]) hs

@[simp] theorem canon_writeEvrBase (v) : Canon (writeEvrBase v s) ↔ Canon s := by simp [writeEvrBase]

theorem outCanon_execEvrBaseWrite (v : BitVec 64) (hs : Canon s) : OutCanon (execEvrBaseWrite v s) :=
  outCanon_barWrite _ (fun s hs => by simp [hs]) hs

theorem outCanon_execEvrLostRead (hs : Canon s) : OutCanon (execEvrLostRead s) :=
  outCanon_barRead _ _ (fun s hs => by simp [hs]) hs

@[simp] theorem canon_holdEvent (e) : Canon (holdEvent e s) ↔ Canon s := by simp [holdEvent]
@[simp] theorem canon_lostEvent (g) (e) : Canon ((lostEvent g e s).2) ↔ Canon s := by simp [lostEvent]

@[simp] theorem canon_putEntry (e) (hs : Canon s) : Canon ((putEntry e s).2) := by
  simp [putEntry, hs]

@[simp] theorem canon_writeEntry (e) (hs : Canon s) : Canon (writeEntry e s) := by
  simp [writeEntry, hs]

@[simp] theorem canon_drainHeld (hs : Canon s) : Canon (drainHeld s) := by
  unfold drainHeld
  dsimp only
  (repeat' split) <;> simp [hs]

@[simp] theorem canon_writeEvents (hs : Canon s) : Canon (writeEvents s) := by
  unfold writeEvents
  dsimp only
  (repeat' split) <;> simp [hs]

theorem outCanon_execEventEntryWrite (hs : Canon s) : OutCanon (execEventEntryWrite s) := by
  unfold execEventEntryWrite
  simp +contextual [hs]

@[simp] theorem canon_writeOwn (r) (o) (data) (hs : Canon s) : Canon (writeOwn r o data s) := by
  unfold writeOwn
  (repeat' split) <;> simp +contextual [hs]

@[simp] theorem canon_writeRegister (r) (o) (data) (hs : Canon s) : Canon (writeRegister r o data s) := by
  simp [writeRegister, hs]

@[simp] theorem canon_unmaskPending : Canon (unmaskPending s) ↔ Canon s := by simp [unmaskPending]
@[simp] theorem canon_linkError (m) (rest) : Canon (linkError m rest s) ↔ Canon s := by simp [linkError]
@[simp] theorem canon_reportAer (poisoned) : Canon (reportAer poisoned s) ↔ Canon s := by simp [reportAer]

theorem outCanon_execPoisonedWrite (a0) (hs : Canon s) : OutCanon (execPoisonedWrite a0 s) := by
  simp [execPoisonedWrite, hs]

theorem outCanon_execBusMasterOrD3 (busMaster) (d3) (control) (aerClear) (hs : Canon s) :
    OutCanon (execBusMasterOrD3 busMaster d3 control aerClear s) := by
  simp [execBusMasterOrD3, hs]

theorem outCanon_execPcieLinkTrained (gen) (width) (hs : Canon s) : OutCanon (execPcieLinkTrained gen width s) := by
  simp [execPcieLinkTrained, hs]

@[simp] theorem canon_failDesc (code) (ch) : Canon (failDesc code ch s) ↔ Canon s := by
  unfold failDesc
  (repeat' split) <;> simp

theorem outCanon_execHostCompletionError (ch) (a) (hs : Canon s) :
    OutCanon (execHostCompletionError ch a s) := outCanon_whenOn _ _ (fun s hs => by
  dsimp only
  (repeat' split) <;> simp [hs]) hs

@[simp] theorem canon_failHostBulk : Canon (failHostBulk s) ↔ Canon s := by simp [failHostBulk]

@[simp] theorem canon_resetHost (kind : HostReset) (hs : Canon s) : Canon (resetHost kind s) := by
  have hdesc : Canon ((List.range 16).foldl (fun s c => failDesc 7 c s) s) := by simp [hs]
  unfold resetHost
  extract_lets keep u v w
  have hu : Canon u := by simp [u, hdesc]
  have hv : Canon v := by
    clear_value u
    simp [v, hu]
  have hw : Canon w := by
    clear_value v
    simp [w, hv]
  clear_value w
  exact canonParts_rings_map _ hw

theorem outCanon_execHostInterfaceReset (kind) (hs : Canon s) : OutCanon (execHostInterfaceReset kind s) := by
  unfold execHostInterfaceReset
  simp +contextual [hs]

/-! Power. -/

@[simp] theorem canon_rampUp : Canon (rampUp s) ↔ Canon s := by simp [rampUp]

theorem outCanon_execVin12Rise (hs : Canon s) : OutCanon (execVin12Rise s) := by
  simp [execVin12Rise, hs]

theorem outCanon_execSupplyRestart (hs : Canon s) : OutCanon (execSupplyRestart s) := by
  simp [execSupplyRestart, hs]

theorem outCanon_execResetRelease (hs : Canon s) : OutCanon (execResetRelease s) := by
  simp [execResetRelease, hs]

theorem outCanon_execPowerMonitorExceeded (watts) (level) (hs : Canon s) :
    OutCanon (execPowerMonitorExceeded watts level s) := outCanon_whenOn _ _ (fun s hs => by
  (repeat' split) <;> simp [hs]) hs

/-! System. -/

@[simp] theorem canon_specSysInfo (q : Request) : Canon (specSysInfo.act q s) ↔ Canon s := by simp [specSysInfo]

theorem outCanon_execSysInfo (q) (hs : Canon s) : OutCanon (execSysInfo q s) :=
  outCanon_kenra hs _ _ _ fun q s hs => by simp [hs]

@[simp] theorem canon_specSysSafe (q : Request) : Canon (specSysSafe.act q s) ↔ Canon s := by simp [specSysSafe]

theorem outCanon_execSysSafe (q) (hs : Canon s) : OutCanon (execSysSafe q s) :=
  outCanon_kenra hs _ _ _ fun q s hs => by simp [hs]

@[simp] theorem canon_specTestEcho (q : Request) : Canon (specTestEcho.act q s) ↔ Canon s := by simp [specTestEcho]

theorem outCanon_execTestEcho (q) (hs : Canon s) : OutCanon (execTestEcho q s) :=
  outCanon_kenra hs _ _ _ fun q s hs => by simp [hs]

@[simp] theorem canon_specTestEvent (q : Request) : Canon (specTestEvent.act q s) ↔ Canon s := by simp [specTestEvent]

theorem outCanon_execTestEvent (q) (hs : Canon s) : OutCanon (execTestEvent q s) :=
  outCanon_kenra hs _ _ _ fun q s hs => by simp [hs]

@[simp] theorem canon_answerUnknown (op) (q) : Canon (answerUnknown op q s) ↔ Canon s := by simp [answerUnknown]

theorem outCanon_execUnknownOpcode (op : BitVec 16) (q : Request) (hs : Canon s) : OutCanon (execUnknownOpcode op q s) :=
  outCanon_whenActive hs _ _ fun _ hs => by simp [hs]

/-! Ridge. -/

theorem canon_kenraOf (c : Instr) (k : Spec) (q : Request) (h : kenraOf c = some (k, q)) (r : Request) (hs : Canon s) :
    Canon (k.act r s) := by
  unfold kenraOf at h
  split at h <;> cases h <;> simp [hs]

@[simp] theorem canon_beginRequest (k : Nat) (hs : Canon s) : Canon (beginRequest k s) := by
  have hcopy : Canon (modSlot k (fun x => { x with state := .active }) s) := (canon_modSlot ..).mpr hs
  unfold beginRequest
  dsimp only
  generalize modSlot k (fun x => { x with state := .active }) s = u at hcopy ⊢
  split
  · exact hcopy
  next h =>
    split
    · exact canon_kenraStep _ _ _ hcopy fun _ _ => canon_kenraOf _ _ _ h _
    · split
      · exact canon_kenraOf _ _ _ h _ hcopy
      · exact hcopy

theorem outCanon_execRidgeBeginsRequest (hs : Canon s) :
    OutCanon (execRidgeBeginsRequest s) := outCanon_whenOn _ _ (fun s hs => by
  (repeat' split) <;> simp [hs]) hs

/-! Scrub. -/

@[simp] theorem canon_copyFails (addr) : Canon (copyFails addr s) ↔ Canon s := by
  unfold copyFails
  (repeat' split) <;> simp

@[simp] theorem canon_sourceFails (addr) : Canon (sourceFails addr s) ↔ Canon s := by simp [sourceFails]
@[simp] theorem canon_ueInService (addr) : Canon (ueInService addr s) ↔ Canon s := by simp [ueInService]

theorem outCanon_execDramRead (addr : Nat) (devices : List Nat) (cls : BitVec 3) (wait : Bool) (reissues : BitVec 2) (hs :
    Canon s) :
    OutCanon (execDramRead addr devices cls wait reissues s) := by
  have hreissue : ∀ c, Canon (reissue c reissues s) := fun _ => by simp [hs]
  unfold execDramRead
  dsimp only
  split
  · simp [hs]
  · split
    · exact outCanon_fault _
    · split
      · exact outCanon_fault _
      · split
        · simp [hreissue]
        · rw [outCanon_next]
          split <;> simp [hreissue]

@[simp] theorem canon_scrubUe (addr) : Canon (scrubUe addr s) ↔ Canon s := by
  unfold scrubUe
  (repeat' split) <;> simp

@[simp] theorem canon_scrubCe (addr) (dev) : Canon (scrubCe addr dev s) ↔ Canon s := by
  unfold scrubCe
  (repeat' split) <;> simp

theorem outCanon_execPatrolScrub (correctable) (bad) (hs : Canon s) : OutCanon (execPatrolScrub correctable bad s) := by
  unfold execPatrolScrub
  simp +contextual [hs]

/-! Second. -/

@[simp] theorem canon_takePhases (l) : Canon (takePhases l s) ↔ Canon s := by simp [takePhases]

@[simp] theorem canon_loadTb0 : Canon (loadTb0 s) ↔ Canon s := by
  unfold loadTb0
  (repeat' split) <;> simp

@[simp] theorem canon_slewTb0 : Canon (slewTb0 s) ↔ Canon s := by simp [slewTb0]
@[simp] theorem canon_outputsSecond : Canon (outputsSecond s) ↔ Canon s := by simp [outputsSecond]

theorem outCanon_execTb0Second (phases) (hs : Canon s) : OutCanon (execTb0Second phases s) := by
  simp [execTb0Second, hs]

/-! Tick. -/

@[simp] theorem canon_idle : Canon (idle s) ↔ Canon s := by simp [idle]

end Sys2Proof.Laws
end

section
/-! SUPPORT. What keeps the canonical form of the memories: the Tether window, the supply, and any command. -/

namespace Sys2Proof.Laws
open Sys2Proof Sys2Proof.Machine

variable {s : State}

/-! The Tether window. -/

theorem outCanon_tetherWrite (f : State → State) (hf : ∀ s, Canon s → Canon (f s)) (hs : Canon s) : OutCanon (tetherWrite f s) :=
  outCanon_barWrite _ (fun s hs => by
    split
    · exact (canon_count ..).mpr hs
    · exact hf s hs) hs

theorem canon_applyControl (o : Nat) (v : BitVec 32) (hs : Canon s) : Canon (applyControl o v s) := by
  unfold applyControl
  (repeat' split) <;> simp [applyCap, applyWindow, applyAllow, hs]

theorem canon_writeLock (v : BitVec 32) (hs : Canon s) : Canon (writeLock v s) := canon_ite_of hs hs

theorem canon_writeQuads (v : BitVec 32) (hs : Canon s) : Canon (writeQuads v s) :=
  canon_foldl _ (fun _ _ h => canon_ite_of ((canon_quadDown ..).mpr h) (canon_ite_of ((canon_startQuad ..).mpr h) h)) _ _ hs

theorem canon_writeTether (o : Nat) (data : List Byte) (hs : Canon s) : Canon (writeTether o data s) := by
  unfold writeTether
  extract_lets n u v _ w rate _ x y z
  have hu : Canon u := canon_ite_of (canon_writeLock _ hs) hs
  have hv : Canon v := canon_ite_of (canon_writeQuads _ hu) hu
  have hw : Canon w := canon_ite_of hv hv
  have hx : Canon x := canon_ite_of hw hw
  have hy : Canon y := canon_foldl _ (fun _ _ h => by split <;> exact h) _ _ hx
  exact canon_ite_of hs (canon_ite_of ((canon_defaultTarget ..).mpr hs)
    (canon_foldl _ (fun _ _ h => canon_ite_of (canon_applyControl _ _ h) h) _ _ hy))

theorem outCanon_execTetherLockWrite (v : BitVec 32) (hs : Canon s) : OutCanon (execTetherLockWrite v s) :=
  outCanon_tetherWrite _ (fun _ => canon_writeLock v) hs

theorem outCanon_execTetherControlWordWrite (o : BitVec 24) (v : BitVec 32) (hs : Canon s) :
    OutCanon (execTetherControlWordWrite o v s) :=
  outCanon_tetherWrite _ (fun _ => canon_applyControl _ v) hs

theorem outCanon_execTetherFieldWrite (o : BitVec 24) (data : List Byte) (hs : Canon s) :
    OutCanon (execTetherFieldWrite o data s) :=
  outCanon_tetherWrite _ (fun _ => canon_writeTether _ data) hs

theorem outCanon_execRegisterWrite (r : BitVec 16) (o : BitVec 25) (data : List Byte) (hs : Canon s) :
    OutCanon (execRegisterWrite r o data s) := by
  unfold execRegisterWrite
  split
  · exact outCanon_barWrite _ (fun _ h => (canon_unmaskPending ..).mpr (canon_writeRegister _ _ _ h)) hs
  · exact outCanon_tetherWrite _ (fun _ => canon_writeTether _ data) hs

/-! The supply. -/

theorem canon_goOff (hs : Canon s) : Canon (goOff s) := canon_resetUnits true hs

theorem canon_powerOff (hs : Canon s) : Canon (powerOff s) := canon_goOff hs

theorem outCanon_execResetNAssert (hs : Canon s) : OutCanon (execResetNAssert s) := by
  unfold execResetNAssert
  dsimp only
  split
  · rw [outCanon_next]
    exact canon_ite_of ((canon_rampUp ..).mpr hs) (canon_ite_of hs hs)
  · rw [outCanon_next]
    exact canon_ite_of (canon_goOff hs) hs

theorem outCanon_execSupplyFault (cause : SupplyFault) (hs : Canon s) : OutCanon (execSupplyFault cause s) := by
  rw [execSupplyFault, outCanon_next]
  exact canon_ite_of (canon_powerOff hs) hs

theorem outCanon_execVin12Removed (hs : Canon s) : OutCanon (execVin12Removed s) := by
  have hoff : Canon (if s.power.pwrGood then powerOff s else s) := canon_ite_of (canon_powerOff hs) hs
  rw [execVin12Removed, outCanon_next]
  exact hoff

theorem outCanon_execThermalTrip (sensor : BitVec 5) (hs : Canon s) : OutCanon (execThermalTrip sensor s) := by
  rw [execThermalTrip, outCanon_next]
  exact canon_ite_of (canon_powerOff hs) hs

/-! Any command, and a step. -/

theorem outCanon_exec (c : Instr) (hs : Canon s) : OutCanon (exec c s) := by
  cases c with
  | sysInfo q => exact outCanon_execSysInfo _ hs
  | sysSafe q => exact outCanon_execSysSafe _ hs
  | sysRestart q => exact outCanon_execSysRestart _ hs
  | txnBegin q => exact outCanon_execTxnBegin _ hs
  | txnCommit q => exact outCanon_execTxnCommit _ hs
  | txnRollback q => exact outCanon_execTxnRollback _ hs
  | timeRefConfig q => exact outCanon_execTimeRefConfig _ hs
  | timeRefSelect q => exact outCanon_execTimeRefSelect _ hs
  | timePllConfig q => exact outCanon_execTimePllConfig _ hs
  | timeSet q => exact outCanon_execTimeSet _ hs
  | timeAdjust q => exact outCanon_execTimeAdjust _ hs
  | timeOutConfig q => exact outCanon_execTimeOutConfig _ hs
  | timeTrigArm q => exact outCanon_execTimeTrigArm _ hs
  | timeTrigCancel q => exact outCanon_execTimeTrigCancel _ hs
  | timeStatus q => exact outCanon_execTimeStatus _ hs
  | ptpConfig q => exact outCanon_execPtpConfig _ hs
  | ptpStep q => exact outCanon_execPtpStep _ hs
  | ptpRelayConfig q => exact outCanon_execPtpRelayConfig _ hs
  | pinFilterConfig q => exact outCanon_execPinFilterConfig _ hs
  | laneConfig q => exact outCanon_execLaneConfig _ hs
  | laneRetrain q => exact outCanon_execLaneRetrain _ hs
  | lanePrbs q => exact outCanon_execLanePrbs _ hs
  | laneStatus q => exact outCanon_execLaneStatus _ hs
  | ethConfig q => exact outCanon_execEthConfig _ hs
  | moduleConfig q => exact outCanon_execModuleConfig _ hs
  | moduleRead q => exact outCanon_execModuleRead _ hs
  | moduleWrite q => exact outCanon_execModuleWrite _ hs
  | ingestConfig q => exact outCanon_execIngestConfig _ hs
  | ingestStatus q => exact outCanon_execIngestStatus _ hs
  | streamConfig q => exact outCanon_execStreamConfig _ hs
  | streamEnable q => exact outCanon_execStreamEnable _ hs
  | streamDisable q => exact outCanon_execStreamDisable _ hs
  | streamStatus q => exact outCanon_execStreamStatus _ hs
  | flowSet q => exact outCanon_execFlowSet _ hs
  | chanConfig q => exact outCanon_execChanConfig _ hs
  | chanSync q => exact outCanon_execChanSync _ hs
  | chanCoefLoad q => exact outCanon_execChanCoefLoad _ hs
  | chanCoefSwap q => exact outCanon_execChanCoefSwap _ hs
  | chanGainMode q => exact outCanon_execChanGainMode _ hs
  | chanGainSet q => exact outCanon_execChanGainSet _ hs
  | chanStatsConfig q => exact outCanon_execChanStatsConfig _ hs
  | chanStatsRead q => exact outCanon_execChanStatsRead _ hs
  | chanStatus q => exact outCanon_execChanStatus _ hs
  | schedLoad q => exact outCanon_execSchedLoad _ hs
  | schedSelect q => exact outCanon_execSchedSelect _ hs
  | schedConfig q => exact outCanon_execSchedConfig _ hs
  | schedShed q => exact outCanon_execSchedShed _ hs
  | schedStop q => exact outCanon_execSchedStop _ hs
  | schedStatus q => exact outCanon_execSchedStatus _ hs
  | arrayConfig q => exact outCanon_execArrayConfig _ hs
  | arrayTest q => exact outCanon_execArrayTest _ hs
  | arrayStatus q => exact outCanon_execArrayStatus _ hs
  | beamConfig q => exact outCanon_execBeamConfig _ hs
  | beamWeightLoad q => exact outCanon_execBeamWeightLoad _ hs
  | beamWeightMap q => exact outCanon_execBeamWeightMap _ hs
  | beamWatch q => exact outCanon_execBeamWatch _ hs
  | beamStatus q => exact outCanon_execBeamStatus _ hs
  | pegServiceConfig q => exact outCanon_execPegServiceConfig _ hs
  | pegRestart q => exact outCanon_execPegRestart _ hs
  | pegStatus q => exact outCanon_execPegStatus _ hs
  | claspConfig q => exact outCanon_execClaspConfig _ hs
  | claspTableLoad q => exact outCanon_execClaspTableLoad _ hs
  | claspCurveLoad q => exact outCanon_execClaspCurveLoad _ hs
  | claspStatus q => exact outCanon_execClaspStatus _ hs
  | facetConfig q => exact outCanon_execFacetConfig _ hs
  | facetStatus q => exact outCanon_execFacetStatus _ hs
  | packConfig q => exact outCanon_execPackConfig _ hs
  | packEncode q => exact outCanon_execPackEncode _ hs
  | packStatus q => exact outCanon_execPackStatus _ hs
  | ostreamConfig q => exact outCanon_execOstreamConfig _ hs
  | ostreamStatus q => exact outCanon_execOstreamStatus _ hs
  | egressConfig q => exact outCanon_execEgressConfig _ hs
  | egressStatus q => exact outCanon_execEgressStatus _ hs
  | hostringConfig q => exact outCanon_execHostringConfig _ hs
  | dramConfig q => exact outCanon_execDramConfig _ hs
  | dramRetrain q => exact outCanon_execDramRetrain _ hs
  | dramStatus q => exact outCanon_execDramStatus _ hs
  | storeConfig q => exact outCanon_execStoreConfig _ hs
  | storeStatus q => exact outCanon_execStoreStatus _ hs
  | dmaCopy q => exact outCanon_execDmaCopy _ hs
  | dmaAbort q => exact outCanon_execDmaAbort _ hs
  | dmaStatus q => exact outCanon_execDmaStatus _ hs
  | healthConfig q => exact outCanon_execHealthConfig _ hs
  | healthAdcRead q => exact outCanon_execHealthAdcRead _ hs
  | healthAdcInject q => exact outCanon_execHealthAdcInject _ hs
  | healthAdcCal q => exact outCanon_execHealthAdcCal _ hs
  | healthFanConfig q => exact outCanon_execHealthFanConfig _ hs
  | healthStatus q => exact outCanon_execHealthStatus _ hs
  | recStatus q => exact outCanon_execRecStatus _ hs
  | recRead q => exact outCanon_execRecRead _ hs
  | recExport q => exact outCanon_execRecExport _ hs
  | recClear q => exact outCanon_execRecClear _ hs
  | twinConfig q => exact outCanon_execTwinConfig _ hs
  | twinCheckpoint q => exact outCanon_execTwinCheckpoint _ hs
  | twinStatus q => exact outCanon_execTwinStatus _ hs
  | fwInfo q => exact outCanon_execFwInfo _ hs
  | fwUpdateBegin q => exact outCanon_execFwUpdateBegin _ hs
  | fwUpdateData q => exact outCanon_execFwUpdateData _ hs
  | fwUpdateEnd q => exact outCanon_execFwUpdateEnd _ hs
  | fwUpdateAbort q => exact outCanon_execFwUpdateAbort _ hs
  | fwKeyEnroll q => exact outCanon_execFwKeyEnroll _ hs
  | pegKernelLoad q => exact outCanon_execPegKernelLoad _ hs
  | testEcho q => exact outCanon_execTestEcho _ hs
  | testEvent q => exact outCanon_execTestEvent _ hs
  | unknownOpcode op q => exact outCanon_execUnknownOpcode _ _ hs
  | doorbell requester value => exact outCanon_execDoorbell _ _ hs
  | mailboxRequestWrite slot offset data => exact outCanon_execMailboxRequestWrite _ _ _ hs
  | respReadyWrite value => exact outCanon_execRespReadyWrite _ hs
  | intCauseWrite value => exact outCanon_execIntCauseWrite _ hs
  | hostringReadWrite ring value => exact outCanon_execHostringReadWrite _ _ hs
  | evrReadWrite value => exact outCanon_execEvrReadWrite _ hs
  | evrCtrlWrite value => exact outCanon_execEvrCtrlWrite _ hs
  | evrBaseWrite value => exact outCanon_execEvrBaseWrite _ hs
  | evrLostRead => exact outCanon_execEvrLostRead hs
  | doorbellInvalidRead => exact outCanon_execDoorbellInvalidRead hs
  | mailboxWriteLockedRead => exact outCanon_execMailboxWriteLockedRead hs
  | tetherControlWordWrite offset value => exact outCanon_execTetherControlWordWrite _ _ hs
  | tetherLockWrite value => exact outCanon_execTetherLockWrite _ hs
  | tetherFieldWrite offset data => exact outCanon_execTetherFieldWrite _ _ hs
  | registerWrite requester offset data => exact outCanon_execRegisterWrite _ _ _ hs
  | poisonedWrite offset => exact outCanon_execPoisonedWrite _ hs
  | hostInterfaceReset kind => exact outCanon_execHostInterfaceReset _ hs
  | busMasterOrD3 busMaster d3 control aerClear => exact outCanon_execBusMasterOrD3 _ _ _ _ hs
  | hostCompletionError ch poisoned => exact outCanon_execHostCompletionError _ _ hs
  | ridgeBeginsRequest => exact outCanon_execRidgeBeginsRequest hs
  | eventEntryWrite => exact outCanon_execEventEntryWrite hs
  | interruptCoalesceTimeout cause => exact outCanon_execInterruptCoalesceTimeout _ hs
  | frameTick => exact outCanon_execFrameTick hs
  | guardStart => exact outCanon_execGuardStart hs
  | degradedHoldoffEnd => exact outCanon_execDegradedHoldoffEnd hs
  | txnApply => exact outCanon_execTxnApply hs
  | txnValidationDone => exact outCanon_execTxnValidationDone hs
  | txnExpiry => exact outCanon_execTxnExpiry hs
  | schedLoadVerdict => exact outCanon_execSchedLoadVerdict hs
  | stopFrameReached => exact outCanon_execStopFrameReached hs
  | gulFrameReceive quad f => exact outCanon_execGulFrameReceive _ _ hs
  | ethFrameReceive quad data => exact outCanon_execEthFrameReceive _ _ hs
  | holeDeadline stream => exact outCanon_execHoleDeadline _ hs
  | heldPacketRelease stream => exact outCanon_execHeldPacketRelease _ hs
  | channeliserStep input coarse n => exact outCanon_execChanneliserStep _ _ _ hs
  | syncInEdge width => exact outCanon_execSyncInEdge _ hs
  | syncReset => exact outCanon_execSyncReset hs
  | statsIntervalEnd slice => exact outCanon_execStatsIntervalEnd _ hs
  | storeBurstDiscard => exact outCanon_execStoreBurstDiscard hs
  | chunkRead c ue => exact outCanon_execChunkRead _ _ hs
  | rfiFlagWrite input pos granule => exact outCanon_execRfiFlagWrite _ _ _ hs
  | correlationPass array x ce ue => exact outCanon_execCorrelationPass _ _ _ _ hs
  | chainShift array due => exact outCanon_execChainShift _ _ hs
  | landingBufferMove array turnaround ce ue => exact outCanon_execLandingBufferMove _ _ _ _ hs
  | beamSegment x ce ue ecc => exact outCanon_execBeamSegment _ _ _ _ hs
  | segmentReadout set pos m ce ue partialUe => exact outCanon_execSegmentReadout _ _ _ _ _ _ hs
  | peakListEmit watch => exact outCanon_execPeakListEmit _ hs
  | tileClaim job => exact outCanon_execTileClaim _ hs
  | spillPlaneTake job => exact outCanon_execSpillPlaneTake _ hs
  | tileReadout job ce ue => exact outCanon_execTileReadout _ _ _ hs
  | laDump job complete ue => exact outCanon_execLaDump _ _ _ hs
  | packItemArrive engine read => exact outCanon_execPackItemArrive _ _ hs
  | packItemDone engine => exact outCanon_execPackItemDone _ hs
  | egressAgeExpiry quad => exact outCanon_execEgressAgeExpiry _ hs
  | datagramTransmit quad => exact outCanon_execDatagramTransmit _ hs
  | pauseFrameReceive quad => exact outCanon_execPauseFrameReceive _ hs
  | hostRingWrite ring => exact outCanon_execHostRingWrite _ hs
  | hostringAgeExpiry ring => exact outCanon_execHostringAgeExpiry _ hs
  | loadDecodeDone ue engine => exact outCanon_execLoadDecodeDone _ _ hs
  | pegAdd p d a b => exact outCanon_execPegAdd _ _ _ _ hs
  | pegSub p d a b => exact outCanon_execPegSub _ _ _ _ hs
  | pegAnd p d a b => exact outCanon_execPegAnd _ _ _ _ hs
  | pegOr p d a b => exact outCanon_execPegOr _ _ _ _ hs
  | pegXor p d a b => exact outCanon_execPegXor _ _ _ _ hs
  | pegMin p d a b => exact outCanon_execPegMin _ _ _ _ hs
  | pegMax p d a b => exact outCanon_execPegMax _ _ _ _ hs
  | pegAbs p d a => exact outCanon_execPegAbs _ _ _ hs
  | pegAdds p d a b => exact outCanon_execPegAdds _ _ _ _ hs
  | pegShl p d a b => exact outCanon_execPegShl _ _ _ _ hs
  | pegShr p d a b => exact outCanon_execPegShr _ _ _ _ hs
  | pegSar p d a b => exact outCanon_execPegSar _ _ _ _ hs
  | pegRot p d a b => exact outCanon_execPegRot _ _ _ _ hs
  | pegClz p d a => exact outCanon_execPegClz _ _ _ hs
  | pegPopc p d a => exact outCanon_execPegPopc _ _ _ hs
  | pegBitrev p d a => exact outCanon_execPegBitrev _ _ _ hs
  | pegExt p d a lsb len => exact outCanon_execPegExt _ _ _ _ _ hs
  | pegIns p d a lsb len => exact outCanon_execPegIns _ _ _ _ _ hs
  | pegPadd p d a b => exact outCanon_execPegPadd _ _ _ _ hs
  | pegPsub p d a b => exact outCanon_execPegPsub _ _ _ _ hs
  | pegPsat p d a b => exact outCanon_execPegPsat _ _ _ _ hs
  | pegCmp p d a b => exact outCanon_execPegCmp _ _ _ _ hs
  | pegBrCc p cc a target => exact outCanon_execPegBrCc _ _ _ _ hs
  | pegCall p target => exact outCanon_execPegCall _ _ hs
  | pegRet p a => exact outCanon_execPegRet _ _ hs
  | pegJmp p target => exact outCanon_execPegJmp _ _ hs
  | pegLd p d k => exact outCanon_execPegLd _ _ _ hs
  | pegLdh p d k => exact outCanon_execPegLdh _ _ _ hs
  | pegLdb p d k => exact outCanon_execPegLdb _ _ _ hs
  | pegSt p a k => exact outCanon_execPegSt _ _ _ hs
  | pegSth p a k => exact outCanon_execPegSth _ _ _ hs
  | pegStb p a k => exact outCanon_execPegStb _ _ _ hs
  | pegMovp p k a => exact outCanon_execPegMovp _ _ _ hs
  | pegMovm p k a => exact outCanon_execPegMovm _ _ _ hs
  | pegMovcb p k a => exact outCanon_execPegMovcb _ _ _ hs
  | pegMovcl p k a => exact outCanon_execPegMovcl _ _ _ hs
  | pegQmac p a b => exact outCanon_execPegQmac _ _ _ hs
  | pegQmacL p a b x k => exact outCanon_execPegQmacL _ _ _ _ _ hs
  | pegQmacN p a b => exact outCanon_execPegQmacN _ _ _ hs
  | pegSmac p a b k => exact outCanon_execPegSmac _ _ _ _ hs
  | pegSmacN p a b k => exact outCanon_execPegSmacN _ _ _ _ hs
  | pegAccrd p d k sh => exact outCanon_execPegAccrd _ _ _ _ hs
  | pegAccmv p d k hi => exact outCanon_execPegAccmv _ _ _ _ hs
  | pegAccclr p mask => exact outCanon_execPegAccclr _ _ hs
  | pegLoop p k a last => exact outCanon_execPegLoop _ _ _ _ hs
  | pegXfer p d t => exact outCanon_execPegXfer _ _ _ hs
  | pegXwait p mask target => exact outCanon_execPegXwait _ _ _ hs
  | pegWait p => exact outCanon_execPegWait _ hs
  | pegReti p => exact outCanon_execPegReti _ hs
  | pegMovstat p x toStat r => exact outCanon_execPegMovstat _ _ _ _ hs
  | pegSignal p peer => exact outCanon_execPegSignal _ _ hs
  | pegSettimer p a => exact outCanon_execPegSettimer _ _ hs
  | pegTrap p => exact outCanon_execPegTrap _ hs
  | pegNop p => exact outCanon_execPegNop _ hs
  | pegInterruptEntry p => exact outCanon_execPegInterruptEntry _ hs
  | pegTimerCompare p => exact outCanon_execPegTimerCompare _ hs
  | pegDoorbell p => exact outCanon_execPegDoorbell _ hs
  | xferComplete p smem fail ue => exact outCanon_execXferComplete _ _ _ _ hs
  | alignBlockReceive lane b skew => exact outCanon_execAlignBlockReceive _ _ _ hs
  | alignMissing lane => exact outCanon_execAlignMissing _ hs
  | blockLockAcquired lane headers => exact outCanon_execBlockLockAcquired _ _ hs
  | blockLockLost lane headers => exact outCanon_execBlockLockLost _ _ hs
  | fecCodeword lane w => exact outCanon_execFecCodeword _ _ hs
  | trainBlockReceive lane b => exact outCanon_execTrainBlockReceive _ _ hs
  | capBlockReceive quad b => exact outCanon_execCapBlockReceive _ _ hs
  | napReq quad => exact outCanon_execNapReq _ hs
  | napAck quad => exact outCanon_execNapAck _ hs
  | napNak quad => exact outCanon_execNapNak _ hs
  | napIdleTimer quad => exact outCanon_execNapIdleTimer _ hs
  | fastExit quad own lanes => exact outCanon_execFastExit _ _ _ hs
  | fastExitTimeout quad => exact outCanon_execFastExitTimeout _ hs
  | receiverDetect quad present => exact outCanon_execReceiverDetect _ _ hs
  | trainTimeout quad => exact outCanon_execTrainTimeout _ hs
  | lockTimeout quad => exact outCanon_execLockTimeout _ hs
  | exchangeTimeout quad => exact outCanon_execExchangeTimeout _ hs
  | quadLost quad => exact outCanon_execQuadLost _ hs
  | ethLinkChange quad change => exact outCanon_execEthLinkChange _ _ hs
  | patternCheckLock lane bits => exact outCanon_execPatternCheckLock _ _ hs
  | moduleInsert quad identity applications => exact outCanon_execModuleInsert _ _ _ hs
  | moduleRemove quad => exact outCanon_execModuleRemove _ hs
  | modulePoll quad flags => exact outCanon_execModulePoll _ _ hs
  | ppsEdge inputB width deviation => exact outCanon_execPpsEdge _ _ _ hs
  | tb0Second phases => exact outCanon_execTb0Second _ hs
  | refVerdict present => exact outCanon_execRefVerdict _ hs
  | referenceSwitch step => exact outCanon_execReferenceSwitch _ hs
  | ptpMessageReceive quad domain m => exact outCanon_execPtpMessageReceive _ _ _ hs
  | ptpAnnounceTimeout => exact outCanon_execPtpAnnounceTimeout hs
  | ptpRelayFrame fromB f => exact outCanon_execPtpRelayFrame _ _ hs
  | timeTriggerFire trigger => exact outCanon_execTimeTriggerFire _ hs
  | tb3MirrorUpdate => exact outCanon_execTb3MirrorUpdate hs
  | adcTrigEdge width => exact outCanon_execAdcTrigEdge _ hs
  | fanTachEdge fan width => exact outCanon_execFanTachEdge _ _ hs
  | pinStuck pin => exact outCanon_execPinStuck _ hs
  | dramRead addr devices cls wait reissues => exact outCanon_execDramRead _ _ _ _ _ hs
  | dramWrite ch reissues => exact outCanon_execDramWrite _ _ hs
  | channelLost ch cause => exact outCanon_execChannelLost _ _ hs
  | refresh ch bank postpone => exact outCanon_execRefresh _ _ _ hs
  | pageIdleClose ch bank => exact outCanon_execPageIdleClose _ _ hs
  | recentre byteLane readCentre writeCentre window ue => exact outCanon_execRecentre _ _ _ _ _ hs
  | dimmTempPoll ch dimm temp => exact outCanon_execDimmTempPoll _ _ _ hs
  | patrolScrub correctable bad => exact outCanon_execPatrolScrub _ _ hs
  | crossbarRequest master target source addr bytes beats data => exact outCanon_execCrossbarRequest _ _ _ _ _ _ _ hs
  | portIdle target => exact outCanon_execPortIdle _ hs
  | targetReset target down => exact outCanon_execTargetReset _ _ hs
  | dmaBurst ch part answer => exact outCanon_execDmaBurst _ _ _ hs
  | dmaDescriptorComplete ch => exact outCanon_execDmaDescriptorComplete _ hs
  | vin12Rise => exact outCanon_execVin12Rise hs
  | resetRelease => exact outCanon_execResetRelease hs
  | resetNAssert => exact outCanon_execResetNAssert hs
  | supplyFault cause => exact outCanon_execSupplyFault _ hs
  | supplyRestart => exact outCanon_execSupplyRestart hs
  | vmodOverload k => exact outCanon_execVmodOverload _ hs
  | vmodRetry k => exact outCanon_execVmodRetry _ hs
  | boot b => exact outCanon_execBoot _ hs
  | bootZeroingDone => exact outCanon_execBootZeroingDone hs
  | bootTimeout => exact outCanon_execBootTimeout hs
  | updateReboot => exact outCanon_execUpdateReboot hs
  | powerMonitorExceeded watts level => exact outCanon_execPowerMonitorExceeded _ _ hs
  | adcRoundEnd codes => exact outCanon_execAdcRoundEnd _ hs
  | adcInjectConversion entry raw => exact outCanon_execAdcInjectConversion _ _ hs
  | adcInjectTimer entry => exact outCanon_execAdcInjectTimer _ hs
  | adcCalStepDone sum => exact outCanon_execAdcCalStepDone _ hs
  | thermalTrip sensor => exact outCanon_execThermalTrip _ hs
  | fanCycle => exact outCanon_execFanCycle hs
  | fanLoopIdle => exact outCanon_execFanLoopIdle hs
  | fanFail fan => exact outCanon_execFanFail _ hs
  | epochEnd => exact outCanon_execEpochEnd hs
  | recordSeal v => exact outCanon_execRecordSeal _ hs
  | hbInEdge width => exact outCanon_execHbInEdge _ hs
  | heartbeat m => exact outCanon_execHeartbeat _ hs
  | checkpoint m => exact outCanon_execCheckpoint _ hs
  | checkpointStale => exact outCanon_execCheckpointStale hs
  | handover m => exact outCanon_execHandover _ hs
  | reclaim m => exact outCanon_execReclaim _ hs
  | reclaimAck m => exact outCanon_execReclaimAck _ hs
  | takeover => exact outCanon_execTakeover hs
  | takeoverComplete => exact outCanon_execTakeoverComplete hs
  | yieldLead => exact outCanon_execYieldLead hs
  | ridgeHeartbeatWithdraw => exact outCanon_execRidgeHeartbeatWithdraw hs
  | hbPathDown link => exact outCanon_execHbPathDown _ hs
  | configMismatch => exact outCanon_execConfigMismatch hs
  | twinSkew => exact outCanon_execTwinSkew hs
  | arrayTestDone passed => exact outCanon_execArrayTestDone _ hs
  | dramRetrainDone passed lanes => exact outCanon_execDramRetrainDone _ _ hs
  | packEncodeDone => exact outCanon_execPackEncodeDone hs
  | fwUpdateDataDone retriesFailed => exact outCanon_execFwUpdateDataDone _ hs
  | fwUpdateCheckDone engine => exact outCanon_execFwUpdateCheckDone _ hs
  | fwKeyEnrollDone verified => exact outCanon_execFwKeyEnrollDone _ hs
  | recClearDone => exact outCanon_execRecClearDone hs
  | recReadDone fail => exact outCanon_execRecReadDone _ hs
  | chanStatsReadDone fail => exact outCanon_execChanStatsReadDone _ hs
  | bulkTransferTimeout slot => exact outCanon_execBulkTransferTimeout _ hs
  | followerHeartbeatToggle => exact outCanon_execFollowerHeartbeatToggle hs
  | pinStuckRelease pin => exact outCanon_execPinStuckRelease _ hs
  | vin12Removed => exact outCanon_execVin12Removed hs
  | pcieLinkTrained gen width => exact outCanon_execPcieLinkTrained _ _ hs
  | fanPwmEdge fan => exact outCanon_execFanPwmEdge _ hs

theorem canon_step (hs : Canon s) : OutCanon (step s) := by
  unfold step
  split
  · exact (outCanon_next _).mpr (canon_idle.mpr hs)
  next rest _ => exact outCanon_exec _ (s := { s with pending := rest }) hs

theorem canon_iff (s : State) : (memWf s.host.mem && memWf s.dram.mem && memWf s.boot.mram && memWf s.peg.shared &&
    tabWf none s.out.rings && tabWf none s.clasp.owners) = true ↔ Canon s := by
  simp only [Bool.and_eq_true, Canon, CanonParts, and_assoc]

end Sys2Proof.Laws
end
section
/-! PROOF. O58: the memories and tables stay in their canonical form. -/

namespace Sys2Proof.Proofs
open Sys2Proof Sys2Proof.Machine

/-- Settles O58, by one lemma per operation of the model, command by command. -/
theorem memoriesStayCanonical : Obligations.MemoriesStayCanonical := by
  unfold Obligations.MemoriesStayCanonical
  intro s t hs hstep
  exact (Laws.canon_iff t).mpr (Laws.canon_step ((Laws.canon_iff s).mp hs) t hstep)

end Sys2Proof.Proofs
end
